-- ==== Sys2Proof/Word.lean ====
section
/-!
DEFINITION. The word types of the package: bytes, 64-bit words and 64-byte lines.
-/

namespace Sys2Proof

/-- One byte. -/
abbrev Byte := BitVec 8

/-- A register, a store word or a memory word: 64 bits (R6). -/
abbrev Word := BitVec 64

/-- One cache line of 64 bytes; byte 0 is bits [7:0]. -/
abbrev Line := BitVec 512

/-- Bits [hi:lo] of a word, as a number. -/
def Word.bits (w : Word) (hi lo : Nat) : Nat := (w.toNat >>> lo) % 2 ^ (hi - lo + 1)

/-- The word with bits [hi:lo] replaced by the low bits of v. -/
def Word.setBits (w : Word) (hi lo v : Nat) : Word :=
  let mask : Word := BitVec.ofNat 64 ((2 ^ (hi - lo + 1) - 1) <<< lo)
  (w &&& ~~~mask) ||| (BitVec.ofNat 64 (v <<< lo) &&& mask)

end Sys2Proof
end

