-- ==== Sys2Proof/Syntax/Operand.lean ====
section
/-!
DEFINITION. The operands of commands: who sends a register access, the kinds of leaf access, the messages of the fabric,
and the outcomes that the physical world supplies (an ECC result, a training result, a measurement).
-/

namespace Sys2Proof

/-- Privilege modes of a leaf (R55). -/
inductive Mode where
  | machine | super | user | vs | vu
deriving DecidableEq, Repr

/-- The requesters of register and memory accesses (R28, R390, R393). -/
inductive Requester where
  | leaf (hart : Nat) (mode : Mode)
  | lee (leaf : Nat)
  | slice (k : Nat)
  | device (seg rid : Nat)
  | traceUnit
  | mgmt
  | bmc
  | jtag
  | span (port : Nat)
deriving DecidableEq, Repr

/-- Kinds of memory access by a leaf (R60); `walk` is a page-table walk read. -/
inductive AccKind where
  | load | store | amo | lr | sc | fetch | walk
deriving DecidableEq, Repr

/-- The atomic memory operations of the A extension. -/
inductive AmoOp where
  | swap | add | xor | and | or | min | max | minu | maxu
deriving DecidableEq, Repr

/-- Page-based memory types of Svpbmt (R60). -/
inductive Pbmt where
  | pma | nc | io
deriving DecidableEq, Repr

/-- The registers that an access reads its data from or writes its result to: integer, floating-point
or vector; `whole` marks a whole-register vector access, which no vtype governs. -/
inductive RegFile where
  | x
  | f
  | v (whole : Bool)
deriving DecidableEq, Repr

/-- One access of a leaf core: its kind, its effective address `va`, size in bytes, the operation of an AMO, the register of
the result, and the value stored or combined. Translation (R55, R58) gives it the physical address `addr`, the physical
address `addr2` of its bytes on a second page, and the memory types `pbmt` and `pbmt2` of the two pages; of a walk read, whose
address is physical, `addr` is the operand itself. `hv` marks a hypervisor load or store (HLV, HSV) and `hx` its HLVX form. A vector access makes one
command for each element `elem`, the last of which retires the instruction. `len` is the length of the instruction in bytes
and `bits` its bits. DESIGN CHOICE, assumption 15. -/
structure LeafAccess where
  kind : AccKind
  va : Word := 0
  size : Nat
  op : AmoOp := .swap
  file : RegFile := .x
  rd : Nat := 0
  elem : Nat := 0
  last : Bool := true
  value : Word := 0
  signed : Bool := false
  len : Nat := 4
  bits : Word := 0
  hv : Bool := false
  hx : Bool := false
  addr : Nat := 0
  addr2 : Option Nat := none
  pbmt : Pbmt := .pma
  pbmt2 : Pbmt := .pma
deriving DecidableEq, Repr

/-- Prefetches of Zicbop and of the hardware prefetcher (R161). -/
inductive PrefetchKind where
  | instr | read | write | hardware
deriving DecidableEq, Repr

/-- The three timer comparison values of R67. -/
inductive TimerCmp where
  | mtimecmp | stimecmp | vstimecmp
deriving DecidableEq, Repr

/-- An error the engine meets as a word issues (R110, R112, R340): an uncorrectable store error at a store byte offset, a
residue mismatch, or a shadow mismatch. A corrected store error is logged at its word offset. DESIGN CHOICE, assumption 6. -/
inductive EngErr where
  | none
  | residue
  | shadow
  | storeUe (byte : Nat)
  | storeCe (word : Nat)
deriving DecidableEq, Repr

/-- Causes found only after a word has issued (R111). -/
inductive LateCause where
  | storeUe | mmemPoison | stimPoison | accessError | shadow
deriving DecidableEq, Repr

/-- The outcome of a SEND that its delivery acknowledgement reports (R121). -/
inductive XchOutcome where
  | delivered | stale | unreachable | slotBeyond | lanesDiffer
deriving DecidableEq, Repr

/-- The window of one SEND as one message (R121, R123). `lanes` is the field LEE_CTL.LANES of the sender;
`remote` is the sending package and the tag of a window that came over a span link. -/
structure XchMsg where
  sleaf : Nat
  dleaf : Nat
  slot : Nat
  step : Nat
  mc : Nat
  lanes : Nat
  imm : Word
  remote : Option (Nat × Nat) := none
  data : List Word := []
deriving DecidableEq, Repr

/-- A remote exchange window as its span packet carries it (R231, R232). -/
structure SpanWindow where
  spkg : Nat
  dpkg : Nat
  ttl : Nat
  tag : Nat
  dleaf : Nat
  mc : Nat
  step : Nat
  slot : Nat
  lanes : Nat
  data : List Word := []
deriving DecidableEq, Repr

/-- The coherence requests of R167. -/
inductive CohOp where
  | rdShared | rdUnique | upgrade | claim | rdNoalloc | wrFull | wrPartial
deriving DecidableEq, Repr

/-- The senders of non-allocating requests (R168). -/
inductive CohReq where
  | bough (b : Nat)
  | lee (leaf : Nat)
  | ttu
  | bulk (engine : Nat)
  | trace
deriving DecidableEq, Repr

/-- The snoops of R167. -/
inductive Snoop where
  | shared | unique | inv | current
deriving DecidableEq, Repr

/-- Answers of SNP_RSP (R167). -/
inductive SnpAns where
  | i | clean | fwdClean | fwdDirty | dirtyCopy | dataToHome
deriving DecidableEq, Repr

/-- Bough-level states of R164. -/
inductive CState where
  | modified | owned | excl | shared | invalid
deriving DecidableEq, Repr

/-- The state a grant gives: S, E, M, or none for a request that keeps no copy. -/
inductive Grant where
  | shared | excl | modified | none
deriving DecidableEq, Repr

/-- A line with its POISON flag (R167, R180). -/
structure LineData where
  data : Line
  poison : Bool
deriving DecidableEq, Repr

/-- The crossings of R209: the die and the number. -/
inductive Crossing where
  | trunk (n : Nat)
  | bough (site n : Nat)
deriving DecidableEq, Repr

/-- A packet that enters the mesh, by its header (R191): its virtual network, destination node and stop, the node (the port at which it
enters) and stop of its source, and bits [23:0] of its sender's ring count. The port at which it enters gives it its version. -/
structure MeshPkt where
  vn : Nat
  dnode : Nat
  dstop : Nat
  snode : Nat
  sstop : Nat := 0
  ring : Nat := 0
deriving DecidableEq, Repr

/-- The blocks that answer a power entry request (R363). -/
inductive HsBlock where
  | leaf (n : Nat)
  | lee (n : Nat)
  | l3c (site : Nat)
  | packer (site : Nat)
  | graft (site port : Nat)
  | channel (m : Nat)
deriving DecidableEq, Repr

/-- A packet for the bough of a site, as the isolation proxy and the gate tell them apart (R198, R201). -/
inductive SitePkt where
  | regRead (req : Requester) (addr : Nat)
  | regWrite (req : Requester) (addr size : Nat) (value : Word)
  | snoop (line : Nat) (kind : Snoop)
  | grantOrData (line : Nat)
  | wbAck (line : Nat)
  | send (msg : XchMsg)
  | msi (hart file identity : Nat)
  | barrierNotify (leaf : Nat)
  | ringSync (value : Word)
  | handshake (block : HsBlock)
  | aperture (req : Requester) (leaf offset size : Nat) (write : Bool)
deriving DecidableEq, Repr

/-- What an event carries for the capture ring (R348), and whether it is severe by kind (R345). -/
structure EvInfo where
  severe : Bool := false
  access : Nat := 0
  mkind : Nat := 0
  mid : Nat := 0
  addr : Nat := 0
  loc : Word := 0
deriving DecidableEq, Repr

/-- The remap tables of R336 and R337. -/
inductive RemapTable where
  | store (site j : Nat)
  | l3 (site : Nat)
  | dir (q : Nat)
deriving DecidableEq, Repr

/-- The ends of grafts (R209, R217): the trunk side of a site's graft, or the bough side of port k. -/
inductive GraftEnd where
  | trunk (site : Nat)
  | bough (site port : Nat)
deriving DecidableEq, Repr

/-- The grafts: a site's bough-to-trunk graft, or the lateral graft from a site towards position p + 1. -/
inductive GraftId where
  | vertical (site : Nat)
  | lateral (site : Nat)
deriving DecidableEq, Repr

/-- What a graft training finds (R218, R225): the strap value of the bough (R13), the failed lanes of the authoritative side's receiver, the
failed lanes of the other side's receiver in each round of the width agreement, and in how many of the first rounds the authoritative side
does not know them; and how many TRAIN flits of another GEN came. Lanes are numbered as in R210; 264 and 265 are the forwarded clocks. -/
structure TrainResult where
  strap : Nat
  auth : List Nat := []
  others : List (List Nat) := []
  unknown : Nat := 0
  stale : Nat := 0
deriving DecidableEq, Repr

/-- A trace record (R245): its 64-byte line by fields. -/
structure TraceRec where
  ring : Word
  mcycle : Nat
  leaf : Nat
  valid : Nat
  typ : Nat
  payload : List Word := []
deriving DecidableEq, Repr

/-- A remote-copy WRITE packet (R231, R326): its packages and TTL, the chunk's tag, the line's number and how many lines the chunk
has, the line's physical address, the byte mask, and the data. -/
structure RcopyPkt where
  spkg : Nat
  dpkg : Nat
  ttl : Nat
  ctag : Nat
  line : Nat
  nlines : Nat
  addr : Nat
  mask : Nat
  data : Line
deriving DecidableEq, Repr

/-- What the SPD hub of a DIMM says (R259, R260): a registered ECC DIMM, x8 devices (else x4), the density code of MEM_CFG
(0 16 Gb, 1 24 Gb, 2 32 Gb), package ranks, stack height, and the data rates it supports in units of 100 MT/s. -/
structure Dimm where
  rdimm : Bool := true
  x8 : Bool := false
  density : Nat := 0
  ranks : Nat := 1
  stack : Nat := 1
  rates : List Nat := []
deriving DecidableEq, Repr

/-- What a channel's training finds (R272): the DIMMs whose SPD hubs answer, and the cause code of a step that failed, or 0. -/
structure MemTrain where
  dimms : List Dimm := []
  fail : Nat := 0
deriving DecidableEq, Repr

/-- The outcome of a DRAM read as its code finds it (R278, R279): no error, a corrected error, an error that the second read
corrects, or one that it does not. -/
inductive EccOutcome where
  | ok | ce | retryOk | ue
deriving DecidableEq, Repr

/-- What a device request does: reads, writes, and the atomic operations of R284. -/
inductive DevOp where
  | read | write | fetchAdd | swap | cas
deriving DecidableEq, Repr

/-- A request of a device (R292, R296): segment and requester ID, PASID if it carries one, I/O virtual address (64 bits), size in
bytes within one page, what it does, whether its address is already translated (ATS), the device's tag, the bytes written or
the operand, and the compare value of CAS; both little-endian. -/
structure DevReq where
  seg : Nat
  rid : Nat
  pasid : Option Nat := none
  addr : Nat
  size : Nat
  op : DevOp := .read
  translated : Bool := false
  tag : Nat := 0
  value : Nat := 0
  compare : Nat := 0
deriving DecidableEq, Repr

/-- A Page Request message (R306); `page` is bits [63:12] of its address. -/
structure PageReq where
  seg : Nat
  rid : Nat
  pasid : Option Nat := none
  read : Bool := false
  write : Bool := false
  last : Bool := false
  prgi : Nat := 0
  page : Nat := 0
deriving DecidableEq, Repr

/-- A translation that an ATS completion carries (R307): host physical page address, the logarithm of the page size, and the
permissions. -/
structure AtsEntry where
  page : Nat := 0
  log2 : Nat := 12
  read : Bool := false
  write : Bool := false
deriving DecidableEq, Repr

/-- What FEC made of a codeword (R228, R229). -/
inductive FecOutcome where
  | ok | corrected | uncorrectable
deriving DecidableEq, Repr

/-- A codeword that begins on a lane: its 20-bit header and what FEC makes of it (R228). -/
structure SpanCodeword where
  lane : Nat
  header : BitVec 20
  fec : FecOutcome
deriving DecidableEq, Repr

/-- The triggers of a package warm reset (R370), as RST_CAUSE reports them; `power` is the warm reset within power-on. -/
inductive WarmCause where
  | power | pin | bmc | mgmt | pll | sleep
deriving DecidableEq, Repr

/-- What can be staged: the two parts of the structure image (R49), and a firmware image (R385). -/
inductive PartKind where
  | vendor | owner | firmware
deriving DecidableEq, Repr

/-- The ports on which the management core takes commands (R384, R390): a BMC frame with its SEQ and whether its PEC is right, or the
mailbox. -/
inductive CmdPort where
  | bmc (seq : Nat) (pecOk : Bool)
  | mailbox
deriving DecidableEq, Repr

/-- What the DMI does to a leaf (R389): halt, resume, or read or write a register by its number in the RISC-V Debug
Specification. -/
inductive DmiOp where
  | halt (hart : Nat)
  | resume (hart : Nat)
  | read (hart regno : Nat)
  | write (hart regno : Nat) (value : Word)
deriving DecidableEq, Repr

/-- An array error that an access meets (R331, R334): in an L1 or L2 (macro of R333 and word of the location code), in the L3
line of the access (its data, or one copy of its tags), in the line's entry of the eviction buffer, in a way of its set in the
directory, in its tracker of the home agent, or in its entry of the memory channel's queues; corrected, or uncorrectable.
DESIGN CHOICE, assumption 6. -/
inductive ArrayErr where
  | none
  | core (array word : Nat) (ue : Bool)
  | l3 (tag ue : Bool)
  | evict (ue : Bool)
  | dir (way : Nat) (ue : Bool)
  | tracker (ue : Bool)
  | queue (ue : Bool)
deriving DecidableEq, Repr

/-- An error that a leaf detects in a memory access: a residue mismatch of its address generation, or a parity error of a
register it reads (R70), or an array error that the access meets. -/
inductive AccessErr where
  | none
  | agu
  | regParity
  | array (err : ArrayErr)
deriving DecidableEq, Repr

/-! ### Instructions of a leaf core (R55) -/

/-- Integer operations of RV64I, M, Zba, Zbb, Zbs and Zicond; a `w` form works on the low 32 bits and sign-extends. -/
inductive AluOp where
  | add | sub | sll | slt | sltu | xor | srl | sra | or | and
  | addw | subw | sllw | srlw | sraw
  | mul | mulh | mulhsu | mulhu | div | divu | rem | remu | mulw | divw | divuw | remw | remuw
  | sh1add | sh2add | sh3add | addUw | sh1addUw | sh2addUw | sh3addUw | slliUw
  | andn | orn | xnor | clz | ctz | cpop | clzw | ctzw | cpopw | max | maxu | min | minu | sextB | sextH | zextH
  | rol | ror | rolw | rorw | orcB | rev8
  | bclr | bext | binv | bset | czeroEqz | czeroNez
deriving DecidableEq, Repr

/-- Branch conditions. -/
inductive BranchCond where
  | eq | ne | lt | ge | ltu | geu
deriving DecidableEq, Repr

/-- CSR accesses of Zicsr. -/
inductive CsrOp where
  | rw | rs | rc
deriving DecidableEq, Repr

/-- The operand of a CSR access or the second operand of an integer operation: a register or an immediate. -/
inductive RegOrImm where
  | reg (r : Nat)
  | imm (v : Word)
deriving DecidableEq, Repr

/-- Floating-point operations of the F and D extensions; a conversion names its other format. -/
inductive FpOp where
  | add | sub | mul | div | sqrt | madd | msub | nmsub | nmadd
  | sgnj | sgnjn | sgnjx | min | max | eq | lt | le | cls
  | toW | toWu | toL | toLu | fromW | fromWu | fromL | fromLu
  | convert | toBits | fromBits
deriving DecidableEq, Repr

/-- What a leaf instruction other than a memory access does. `hfence` orders after the tables of the VS stage, or of the G
stage. `fp` works in double precision, or else in single precision, under a rounding mode, of which 7 is that of frm;
`vector` is an instruction of V other than a load, a store or VSETVL, which its bits give. `unimplemented` is an encoding that R55 and
R56 do not implement: CBO.CLEAN, CBO.FLUSH, CBO.INVAL, or any other. -/
inductive LeafOp where
  | alu (op : AluOp) (rd rs1 : Nat) (src : RegOrImm)
  | lui (rd : Nat) (imm : Word)
  | auipc (rd : Nat) (imm : Word)
  | jal (rd : Nat) (off : Word)
  | jalr (rd rs1 : Nat) (off : Word)
  | branch (c : BranchCond) (rs1 rs2 : Nat) (off : Word)
  | csr (op : CsrOp) (rd : Nat) (src : RegOrImm) (csr : Nat)
  | ecall
  | ebreak
  | mret
  | sret
  | fence
  | pause
  | sfence
  | hfence (gStage : Bool)
  | fp (op : FpOp) (dbl : Bool) (rm rd rs1 rs2 rs3 : Nat)
  | vset (rd : Nat) (avl : RegOrImm) (vtype : Word)
  | vector
  | unimplemented
deriving DecidableEq, Repr

/-- A leaf instruction: its meaning, its length in bytes (2 for a compressed encoding) and its bits. -/
structure LeafInsn where
  op : LeafOp
  len : Nat := 4
  bits : Word := 0
deriving DecidableEq, Repr

/-- A hardware error that the leaf detects in an instruction (R70, R71). -/
inductive LeafErr where
  | none
  | alu
  | mul
  | agu
  | regParity
  | fetchPoison (addr : Nat)
  | walkPoison (addr : Nat)
deriving DecidableEq, Repr

end Sys2Proof
end

