-- ==== Sys2Proof/Syntax.lean ====
section
/-!
DEFINITION. The commands: one constructor for each row of the opcode table (spec/opcode_table.json), with its operands. Each
docstring names the row, its rule and what the table says of it.
-/

namespace Sys2Proof

/-- The commands of the package. -/
inductive Instr where
  /-- REGISTER_WRITE (R8): A write to a register field that has no behaviour of its own sets, clears or ignores the field according to its
  access type. -/
  | registerWrite (req : Requester) (addr size : Nat) (value : Word)
  /-- ABSENT_UNIT_ACCESS (R4): An access to the register block of an absent or inactive unit reads zero, ignores a write and counts in
  TRK_ABSENT_CNT. -/
  | absentUnitAccess (req : Requester) (addr : Nat) (write : Bool)
  /-- FIREWALL_COMMIT (R396): A write of TRK_FW_CTL makes an entry's staged values active at every port. -/
  | firewallCommit (entry : Nat) (en : Bool)
  /-- LEAF_LOAD_STORE (R60): A leaf load, store or AMO is performed under the attributes of its address range. -/
  | leafLoadStore (hart : Nat) (acc : LeafAccess) (err : AccessErr)
  /-- MISS_RESPONSE_RETURN (R68): A response returns to a leaf, frees its miss entry and lets a stalled demand access proceed. -/
  | missResponseReturn (hart addr : Nat)
  /-- CBO_ZERO (R161): CBO.ZERO obtains the line with write ownership without reading memory and writes zeros into it. -/
  | cboZero (hart addr : Nat)
  /-- PREFETCH (R69): A Zicbop or hardware prefetch allocates a line, or is discarded when it would take one of the last four miss entries. -/
  | prefetch (hart : Nat) (kind : PrefetchKind) (addr : Nat)
  /-- FENCE_I (R61): FENCE.I orders instruction fetch after earlier modifications of code. -/
  | fenceI (hart : Nat)
  /-- WFI (R360): WFI takes the leaf into IDLE, or into OFF through a handshake when OFF_EN is set. -/
  | wfi (hart : Nat)
  /-- MNRET (R72): MNRET returns from an RNMI and delivers a pending machine-check record. -/
  | mnret (hart : Nat)
  /-- MTIMECMP_WRITE (R67): A write of a timer comparison value takes effect in the next fabric clock and may set or clear the timer
  interrupt at once. -/
  | mtimecmpWrite (hart : Nat) (cmp : TimerCmp) (value : Word)
  /-- TIMER_COMPARE_MATCH (R67): When time reaches the comparison value, the leaf's timer interrupt becomes pending. -/
  | timerCompareMatch (hart : Nat) (cmp : TimerCmp)
  /-- MSI_WRITE (R65): An MSI written to an IMSIC file sets a pending bit and may wake an OFF leaf. -/
  | msiWrite (hart file identity : Nat)
  /-- LEAF_INSTRUCTION (R55): A leaf core executes an instruction other than a load, store, AMO, CBO.ZERO, prefetch, FENCE.I, WFI or MNRET,
  such as an ALU operation, a CSR access or an unimplemented encoding. -/
  | leafInstruction (hart : Nat) (insn : LeafInsn) (err : LeafErr)
  /-- LOCAL_COUNTER_OVERFLOW (R58): A performance counter overflows and raises the local counter overflow interrupt, number 13, as Sscofpmf
  defines. -/
  | localCounterOverflow (hart counter : Nat)
  /-- NOP (R92): The NOP word issues and does nothing. -/
  | nop (leaf : Nat) (err : EngErr)
  /-- EVAL (R91): EVAL evaluates 32 look-up functions in every lane and writes one 32-net group of its destination. -/
  | eval (leaf : Nat) (err : EngErr)
  /-- EVALM (R93): EVALM evaluates as EVAL but writes only the lanes selected by LMASK. -/
  | evalm (leaf : Nat) (err : EngErr)
  /-- MUX (R94): MUX selects each net of its destination from SRC0 or SRC1 under SRC2. -/
  | mux (leaf : Nat) (err : EngErr)
  /-- COPY (R94): COPY writes every net of DST from SRC0. -/
  | copy (leaf : Nat) (err : EngErr)
  /-- MEMRD (R96): MEMRD reads one model-memory row for each lane into DST. -/
  | memrd (leaf : Nat) (err : EngErr)
  /-- MEMRD_DATA_RETURN (R97): A DRAM model-memory line returns to the engine, or faults the word with poison or an access error. -/
  | memrdDataReturn (leaf lane : Nat)
  /-- MEMWR (R96): MEMWR writes one model-memory row for each enabled lane. -/
  | memwr (leaf : Nat) (err : EngErr)
  /-- SEND (R98): SEND reads SRC0 and delivers it, stamped with cycle and step, to an inbox slot of a target engine. -/
  | send (leaf : Nat) (err : EngErr)
  /-- WAIT (R124): WAIT blocks until the arrival counter of its step reaches COUNT. -/
  | wait (leaf : Nat) (err : EngErr)
  /-- WAIT_COMPLETE (R124): A blocked WAIT finds enough arrivals, subtracts COUNT and lets issue continue. -/
  | waitComplete (leaf : Nat)
  /-- STIM (R100): STIM writes DST from the stimulus entry at HEAD and advances HEAD, or waits while the ring is empty. -/
  | stim (leaf : Nat) (err : EngErr)
  /-- STIM_PREFETCH_RETURN (R100): A prefetched stimulus entry returns, or faults its STIM with poison or an access error. -/
  | stimPrefetchReturn (leaf entry line : Nat)
  /-- OBSERVE (R101): OBSERVE reads SRC0 and starts emitting the selected groups as one trace record. -/
  | observe (leaf : Nat) (err : EngErr)
  /-- OBSERVE_EMIT (R248): An OBSERVE emits a word into the packer's staging FIFO whenever it holds a trace credit. -/
  | observeEmit (leaf : Nat)
  /-- COMMIT (R86): COMMIT clears the arrival bank of the cycle, inverts the current plane and advances MCYCLE. -/
  | commit (leaf : Nat) (err : EngErr)
  /-- BARRIER (R127): BARRIER waits for every earlier word to complete before it signals the member's arrival. -/
  | barrier (leaf : Nat) (err : EngErr)
  /-- TRAP (R103): TRAP waits until every earlier word has completed. -/
  | trap (leaf : Nat) (err : EngErr)
  /-- TRAP_DRAINED (R103): A drained TRAP records LEE_TRAP, enters TRAPPED and sets LEE_IRQ_STAT.TRAP. -/
  | trapDrained (leaf : Nat)
  /-- HALT (R104): HALT waits until every earlier word has completed. -/
  | halt (leaf : Nat) (err : EngErr)
  /-- HALT_DRAINED (R104): A drained HALT advances LEE_PC, enters HALTED and sets LEE_IRQ_STAT.HALT. -/
  | haltDrained (leaf : Nat)
  /-- JUMP (R105): JUMP sets the program counter to TARGET. -/
  | jump (leaf : Nat) (err : EngErr)
  /-- LOOP (R105): LOOP arms or counts down its loop counter and branches to TARGET while the count lasts. -/
  | loop (leaf : Nat) (err : EngErr)
  /-- LEE_LATE_FAULT (R111): A fault found after issue cancels later issued words, suppresses the faulting write and stops the engine. -/
  | leeLateFault (leaf back : Nat) (cause : LateCause) (info : Nat)
  /-- BARRIER_ARRIVAL_SIGNAL (R128): A drained BARRIER signals arrival, and the group counts it against its members. -/
  | barrierArrivalSignal (leaf : Nat)
  /-- BARRIER_NOTIFY (R127): A waiting member receives the completion, advances LEE_BAR.GEN and passes the barrier. -/
  | barrierNotify (leaf : Nat)
  /-- BARRIER_WATCHDOG (R130): A barrier not complete 2^WDOG ticks after its first arrival sets WDOG_EV and raises the group's event. -/
  | barrierWatchdog (group : Nat)
  /-- LEE_CTL_CLEAR (R77): A write of CLEAR starts clearing every valid bit of the store, or is refused while the engine runs or is trapped. -/
  | leeCtlClear (leaf : Nat) (en : Bool)
  /-- LEE_CLEAR_DONE (R77): The clear completes after 16 clocks, CLEARING falls, and waiting accesses and a pending enable proceed. -/
  | leeClearDone (leaf : Nat)
  /-- LEE_ENABLE (R114): Writing EN from 0 to 1 checks map, lanes, mode and program counter and starts the engine. -/
  | leeEnable (leaf : Nat)
  /-- LEE_DISABLE (R141): Writing EN to 0 stops a running engine at a word boundary, or takes a halted, faulted or trapped one to STOPPED. -/
  | leeDisable (leaf : Nat)
  /-- LEE_STOP_COMPLETE (R141): When every issued word has completed, the stopping engine enters STOPPED and sets LEE_IRQ_STAT.STOP. -/
  | leeStopComplete (leaf : Nat)
  /-- LEE_CONFIG_WRITE (R113): A write to a configuration register takes effect only while the engine neither runs nor is trapped, and
  otherwise sets CFG_IGN. -/
  | leeConfigWrite (leaf offset : Nat) (value : Word)
  /-- LEE_DOORBELL_GO (R103): A write of GO returns a TRAPPED engine to RUN and is ignored in any other state. -/
  | leeDoorbellGo (leaf : Nat)
  /-- LEE_STIM_TAIL_WRITE (R100): A producer's write to LEE_STIM_TAIL makes stimulus entries available and may release a waiting STIM. -/
  | leeStimTailWrite (leaf tail : Nat)
  /-- APERTURE_READ (R79): A read through an evaluation store aperture returns whole code words in any engine state. -/
  | apertureRead (req : Requester) (leaf offset size : Nat) (ue : Bool)
  /-- APERTURE_WRITE (R79): A write through an aperture is carried out, or is an access error that sets AP_WERR while the engine runs. -/
  | apertureWrite (req : Requester) (leaf offset size : Nat) (value : Line) (ue : Bool)
  /-- STREAM_PAGE_FETCH (R132): In streamed mode the engine fetches whichever of pages q and q+1 is not resident. -/
  | streamPageFetch (leaf : Nat)
  /-- STREAM_PAGE_RETURN (R133): Page lines return into a buffer, with a poison or access failure recorded for when the page is used. -/
  | streamPageReturn (leaf page line : Nat)
  /-- MG_ALLOC (R115): ALLOC makes the lowest FREE model group RESERVED and returns its number. -/
  | mgAlloc
  /-- MG_ENABLE (R116): ENABLE makes a valid RESERVED group ENABLED and resets its generation and every member's LEE_BAR. -/
  | mgEnable (group : Nat)
  /-- MG_DISABLE (R117): DISABLE returns an ENABLED group to RESERVED and discards its tokens. -/
  | mgDisable (group : Nat)
  /-- MG_FREE (R115): FREE makes a RESERVED group FREE and clears its members, LANES and SPAN. -/
  | mgFree (group : Nat)
  /-- XCH_MESSAGE_ARRIVAL (R123): An arriving window is checked, written to its slot, counted in its bank and acknowledged. -/
  | xchMessageArrival (msg : XchMsg)
  /-- DELIVERY_ACK (R121): A delivery acknowledgement returns its outcome to the sending engine. -/
  | deliveryAck (leaf : Nat) (imm : Word) (outcome : XchOutcome)
  /-- PRELOAD_AND_LOCK (R152): A preload-and-lock command locks its ways and starts placing the lines of its range. -/
  | preloadAndLock (site ways : Nat)
  /-- LOCK_LINE_FETCH_RETURN (R153): A line fetched for a lock command returns and is placed in a locked way, or fails. -/
  | lockLineFetchReturn (site : Nat)
  /-- UNLOCK (R157): An unlock command clears the lock marking of its ways without moving data. -/
  | unlock (site ways : Nat)
  /-- L3_DISABLE (R158): Writing L3C_CTL.EN = 0 unlocks every way and writes every dirty L3 line back. -/
  | l3Disable (site : Nat)
  /-- L3_ENABLE (R160): Writing EN = 1 while disabled powers the data array and starts clearing its valid bits. -/
  | l3Enable (site : Nat)
  /-- L3_ENABLE_DONE (R160): Once the data valid bits are clear, DISABLED clears. -/
  | l3EnableDone (site : Nat)
  /-- RD_SHARED (R170): The home opens a read for a copy, snoops as the entry requires and grants S or E. -/
  | rdShared (bough line retry : Nat) (err : ArrayErr)
  /-- RD_UNIQUE (R170): The home opens a read for a writable copy and invalidates or takes the other copies. -/
  | rdUnique (bough line retry : Nat)
  /-- UPGRADE (R170): The home makes a recorded S or O copy writable, or handles the request as RD_UNIQUE. -/
  | upgrade (bough line retry : Nat)
  /-- CLAIM (R170): The home grants E without data after invalidating every recorded copy. -/
  | claim (bough line retry : Nat)
  /-- RD_NOALLOC (R170): The home returns current data without recording a copy. -/
  | rdNoalloc (src : CohReq) (line : Nat)
  /-- WR_FULL (R170): The home invalidates every copy and writes the full line to memory. -/
  | wrFull (src : CohReq) (line : Nat) (data : Line)
  /-- WR_PARTIAL (R170): The home gathers any dirty copy and merges the masked bytes into memory. -/
  | wrPartial (src : CohReq) (line : Nat) (mask : Word) (data : Line)
  /-- COMP_ACK (R171): COMP_ACK closes a granting transaction at the home. -/
  | compAck (bough line : Nat)
  /-- SNP_RSP (R170): A snoop answer reaches the home, which completes the transaction once every snoop is answered. -/
  | snpRsp (bough line : Nat) (ans : SnpAns) (data : LineData)
  /-- WB_DIRTY (R175): A write-back is judged valid or stale, at once or when the open transaction on its line closes. -/
  | wbDirty (bough line : Nat) (owned : Bool) (epoch : Nat) (data : LineData)
  /-- SNP_SHARED (R172): A bough forwards a shared copy and keeps its own. -/
  | snpShared (bough line : Nat) (fwd : Option Nat)
  /-- SNP_UNIQUE (R172): A bough hands its line on and invalidates its copy. -/
  | snpUnique (bough line : Nat) (fwd : Option Nat)
  /-- SNP_INV (R172): A bough invalidates its copy without returning data. -/
  | snpInv (bough line : Nat)
  /-- SNP_CURRENT (R172): A bough returns a copy of dirty data to the home and keeps its state. -/
  | snpCurrent (bough line : Nat)
  /-- DATA (R171): A requester receives a line and grant from the home, fills it and sends COMP_ACK. -/
  | data (dst : CohReq) (line : Nat) (grant : Grant) (epoch : Nat) (data : LineData)
  /-- DATA_FWD (R171): A requester receives a line forwarded by a snooped bough. -/
  | dataFwd (bough line : Nat) (grant : Grant) (data : LineData)
  /-- GRANT (R171): A requester receives its grant state and epoch from the home, and whether a timeout poisoned the line (R181). -/
  | grant (bough line : Nat) (grant : Grant × Bool) (epoch : Nat)
  /-- NACK_RETRY (R178): A bough receives a refusal for directory capacity with a back-off hint. -/
  | nackRetry (bough line hint : Nat)
  /-- NACK_RETRY_RESEND (R178): After the back-off, the bough resends the request with RETRY one higher. -/
  | nackRetryResend (bough line : Nat)
  /-- WR_COMP (R174): A writer receives completion of its write. -/
  | wrComp (dst : CohReq) (line : Nat) (poisoned : Bool)
  /-- WB_ACK (R176): A bough receives the judgement of its write-back and frees the eviction buffer entry. -/
  | wbAck (bough line : Nat) (ok : Bool)
  /-- HOME_TIMEOUT (R181): A snoop or COMP_ACK not answered within the home timeout is completed as I, with the line poisoned and the
  timeout counted. -/
  | homeTimeout (bough line : Nat)
  /-- DIR_PURGE_GO (R183): A write of DIR_PURGE.GO starts a purge of one logical bough from the quadrant. -/
  | dirPurgeGo (q : Nat)
  /-- PURGE_DONE (R183): The purge walk completes and reports DONE. -/
  | purgeDone (q : Nat)
  /-- PACKET_INGRESS (R192): A packet entering the mesh is routed by the table of its route version. -/
  | packetIngress (pkt : MeshPkt)
  /-- ROUTE_SWAP (R194): A write of FAB_ROUTE_SWAP.GO holds changing ports and starts draining old-version packets. -/
  | routeSwap
  /-- ROUTE_SWAP_DRAIN_DONE (R194): When every router has drained, the version flips, banks are copied and held packets are released. -/
  | routeSwapDrainDone
  /-- ROUTE_SWAP_DRAIN_TIMEOUT (R195): A drain not acknowledged 2 µs after GO sets DRAIN_TMO and raises the FAB event. -/
  | routeSwapDrainTimeout
  /-- FAB_RT_DATA_WRITE (R196): A write to a shadow routing entry is stored, or refused while a swap is busy. -/
  | fabRtDataWrite (value : Nat)
  /-- FAB_ISO_GO (R197): A write of FAB_ISO.GO engages the isolation proxy of an active site. -/
  | fabIsoGo (site : Nat)
  /-- PROXY_PACKET (R198): An engaged proxy answers or absorbs each packet for its bough as its kind requires. -/
  | proxyPacket (site : Nat) (pkt : SitePkt)
  /-- GATE_CLOSED_MARKER (R200): A GATE_CLOSED marker returns on a VN, and after all six the gate is quiet. -/
  | gateClosedMarker (site vn : Nat)
  /-- GATED_PACKET (R201): A packet for a gated bough is held, answered or discarded, and may start a wake. -/
  | gatedPacket (site : Nat) (pkt : SitePkt)
  /-- WAKE_ACCESS_TIMEOUT (R203): An access held for wake is answered as not held when the gate has not opened within 200 µs. -/
  | wakeAccessTimeout (site : Nat)
  /-- CDC_TIMEOUT (R207): A crossing without acknowledge or pointer movement for 4,096 clocks is marked broken, logged and raised. -/
  | cdcTimeout (x : Crossing)
  /-- CROSSING_RESET (R208): When one side of a crossing enters reset, the other side flushes, answers its requests and asserts FLUSH_DONE. -/
  | crossingReset (x : Crossing)
  /-- CROSSING_FLUSH_TIMEOUT (R208): A reset side that sees no FLUSH_DONE within 4,096 clocks completes its reset and marks the crossing broken. -/
  | crossingFlushTimeout (x : Crossing)
  /-- FLIT_RECEIVE (R211): A graft receiver checks a flit's CRC and sequence and accepts its packet data and credits. -/
  | flitReceive (g : GraftEnd) (flit : BitVec 512)
  /-- CTRL_RETRY (R216): A sender receives RETRY and resends from the named sequence number. -/
  | ctrlRetry (g : GraftEnd) (seq : Nat)
  /-- GRAFT_TRAINING_DONE (R218): The graft is up, credits are granted and the ring-count delay is measured. -/
  | graftTrainingDone (g : GraftId) (res : TrainResult)
  /-- GRAFT_TRAINING_TIMEOUT (R218): A graft not up 1 ms after training starts goes down with CAUSE NO_LOCK. -/
  | graftTrainingTimeout (g : GraftId)
  /-- GRAFT_FAST_RETRAIN (R219): A write of GRF_CTL.RETRAIN repeats training steps 4 to 8 within 12 µs. -/
  | graftFastRetrain (g : GraftId) (res : TrainResult)
  /-- LANE_ERROR_WINDOW (R220): Lane error counts are cleared every 2^WIN ticks. -/
  | laneErrorWindow (g : GraftEnd)
  /-- CTRL_REPAIR (R221): A REPAIR request makes a link pause in which failing lanes are replaced by spares. -/
  | ctrlRepair (g : GraftEnd)
  /-- GRF_LANE_MASK_WRITE (R226): A bit set in GRF_LANE_MASK marks the lane failed at once and at every later training. -/
  | grfLaneMaskWrite (g : GraftEnd) (k : Nat) (value : Word)
  /-- GRAFT_LANE_LOSS_OF_LOCK (R220): A graft lane loses forwarded-clock or bit lock, and its error count is set to the threshold at once. -/
  | graftLaneLossOfLock (g : GraftEnd) (lane : Nat)
  /-- DELAY_PROBE_RETURN (R241): The returned probe gives the graft delay used by ring-count syncs. -/
  | delayProbeReturn (site t4 turn : Nat)
  /-- SPAN_FLIT_RECEIVE (R229): A span receiver checks a flit's CRC and sequence and replays on failure. -/
  | spanFlitReceive (port : Nat) (flit : BitVec 1024) (codewords : List SpanCodeword)
  /-- SPAN_LOCK_ACQUIRED (R236): PMD training and codeword lock complete, and the port deskews and selects its lane count. -/
  | spanLockAcquired (port : Nat) (locked : List (Nat × Nat))
  /-- HELLO (R233): A HELLO gives the peer's identity and round trip, and a loop or long round trip holds the link down. -/
  | hello (port pkg peerPort beh rtt : Nat)
  /-- CREDIT_INIT (R236): CREDIT_INIT grants the class credits and brings the port up. -/
  | creditInit (port : Nat)
  /-- KEEPALIVE (R237): A KEEPALIVE from the peer restarts the port's 1 ms timeout. -/
  | keepalive (port : Nat)
  /-- KEEPALIVE_PERIOD (R237): Each side sends a KEEPALIVE every 100 µs. -/
  | keepalivePeriod (port : Nat)
  /-- KEEPALIVE_TIMEOUT (R237): A port that receives no KEEPALIVE for 1 ms goes down. -/
  | keepaliveTimeout (port : Nat)
  /-- SPAN_LOSS_OF_LOCK (R237): Loss of CDR or codeword lock on a lane in use takes the port down. -/
  | spanLossOfLock (port : Nat)
  /-- SPAN_RETRAIN (R236): A write of SPN_CTL.RETRAIN takes an enabled port down and brings it up. -/
  | spanRetrain (port : Nat)
  /-- BARRIER_TOKEN (R128): A BAR token from a neighbour package is held for the current or next generation. -/
  | barrierToken (port group gen8 : Nat)
  /-- XCH_WINDOW_REMOTE (R232): An arriving remote exchange window is delivered to the target engine, or forwarded with TTL decremented. -/
  | xchWindowRemote (port : Nat) (pkt : SpanWindow)
  /-- XCH_ACK_REMOTE (R232): A remote exchange ACK passes its outcome to the sending engine. -/
  | xchAckRemote (port spkg dpkg ttl tag : Nat) (outcome : XchOutcome)
  /-- REMOTE_SEND_TIMEOUT (R232): A remote SEND not acknowledged within SPN_XCH_TMO is given UNREACHABLE. -/
  | remoteSendTimeout (tag : Nat)
  /-- RCOPY_WRITE (R327): The target package writes the lines of an RCOPY chunk and acknowledges when all are complete. -/
  | rcopyWrite (port : Nat) (pkt : RcopyPkt)
  /-- RCOPY_ACK (R327): An RCOPY ACK completes or fails its remote chunk at the source. -/
  | rcopyAck (port spkg dpkg ttl ctag : Nat) (access : Bool)
  /-- TSYNC_PERIOD (R235): Every 2^14 ticks a package sends TSYNC REQ on its upstream port. -/
  | tsyncPeriod
  /-- TSYNC_REQ (R235): A neighbour stamps a TSYNC request and returns RESP. -/
  | tsyncReq (port : Nat)
  /-- TSYNC_RESP (R235): The package computes delay and offset and steps, slews or sends AHEAD. -/
  | tsyncResp (port t1 t2 t3 t4 : Nat)
  /-- TSYNC_AHEAD (R235): An AHEAD request is passed upstream, or makes the time root step its master forward. -/
  | tsyncAhead (port offset : Nat)
  /-- TIM_STEP (R239): A write to TIM_STEP.ADD steps the master ring count forward and syncs every bough. -/
  | timStep (add : Word)
  /-- RING_SYNC_PERIOD (R240): Every 2^12 ticks the trunk sends a sync message to each bough whose graft is up. -/
  | ringSyncPeriod
  /-- RING_SYNC (R240): A bough loads, steps or slews its ring-count copy and answers SYNC_ACK. -/
  | ringSync (site : Nat) (value : Word)
  /-- SYNC_ACK (R240): The trunk records a bough's offset in TIM_SITE. -/
  | syncAck (site : Nat) (offset : Int)
  /-- PACKER_RECORD_FORM (R248): The packer forms a record from a ready staging FIFO and returns its trace credits. -/
  | packerRecordForm (site : Nat)
  /-- TAIL_TIMEOUT (R249): Words of an unfinished OBSERVE idle for the tail timeout are flushed as a short record. -/
  | tailTimeout (site leaf : Nat)
  /-- TRACE_RECORD_ARRIVAL (R251): The trace unit buffers an arriving record, or drops it on overflow, and returns a credit. -/
  | traceRecordArrival (site : Nat) (record : TraceRec)
  /-- TRACE_RECORD_WRITE (R251): The record at the buffer head is written to its DRAM ring, or dropped. -/
  | traceRecordWrite
  /-- TRC_RING_CTL_WRITE (R252): A ring configuration write is accepted whole or ignored, and enabling resets WR to RD. -/
  | trcRingCtlWrite (ring : Nat) (value : Word)
  /-- MEM_SCHEDULE (R269): The channel scheduler issues the next DRAM command by the first rule that has work. -/
  | memSchedule (channel lines : Nat)
  /-- REFRESH_DUE (R271): A refresh interval expires and the rank's refresh becomes due. -/
  | refreshDue (channel rank : Nat)
  /-- DRAM_TEMP_POLL (R271): Every 32 ms the controller reads DRAM temperature and halves tREFI when hot. -/
  | dramTempPoll (channel tempC : Nat)
  /-- DRIFT_TRACK (R273): Every DRIFT_US the controller adjusts write delays from the strobe oscillators. -/
  | driftTrack (channel : Nat)
  /-- MEM_TRAINING_DONE (R272): Training completes, MEM_CFG is published and the channel fills or keeps its contents. -/
  | memTrainingDone (channel : Nat) (res : MemTrain)
  /-- MEM_TRAIN_REQUEST (R274): A write of MEM_CTL.TRAIN requests a retraining sweep. -/
  | memTrainRequest (channel : Nat)
  /-- MEM_SWEEP_START (R274): A pending sweep starts when the queues are empty. -/
  | memSweepStart (channel : Nat)
  /-- MEM_SWEEP_DONE (R274): The retraining sweep completes and held requests proceed. -/
  | memSweepDone (channel cause : Nat)
  /-- MEM_REINIT (R277): A write of MEM_CTL.REINIT re-initialises the channel with its contents kept. -/
  | memReinit (channel : Nat)
  /-- MEM_REINIT_DONE (R277): Re-initialisation completes, or fails and leaves the channel FAILED. -/
  | memReinitDone (channel : Nat) (ok : Bool)
  /-- MEM_QUIESCE (R275): Setting MEM_CTL.QUIESCE holds every new request at the controller's input. -/
  | memQuiesce (channel : Nat) (on : Bool)
  /-- MEM_BIST (R275): A write of MEM_BIST.GO starts a pattern test, or is refused unless quiesced and idle. -/
  | memBist (channel : Nat) (all : Bool) (rank : Nat)
  /-- MEM_BIST_DONE (R275): The pattern test ends, leaving the ranks zeroed, and reports its status. -/
  | memBistDone (channel : Nat) (pass : Bool)
  /-- DRAM_READ_RETURN (R279): DRAM read data is checked and corrected, retried, or delivered as poison. -/
  | dramReadReturn (channel : Nat) (ecc : EccOutcome) (device : Nat)
  /-- PATROL_SCRUB (R281): The scrub reads a line, rewrites it corrected or poisons it. -/
  | patrolScrub (channel ca : Nat) (ecc : EccOutcome) (device : Nat)
  /-- CE_WINDOW (R282): A correctable-error window ends and counting starts again. -/
  | ceWindow (channel : Nat)
  /-- DEVICE_REQUEST (R292): A device or bulk-engine request is translated in two stages and performed, aborted or stalled. -/
  | deviceRequest (req : DevReq)
  /-- WALK_READ_RETURN (R301): A table walk read returns and the walk continues or faults with WALK_POISON. -/
  | walkReadReturn (tag : Nat) (poison : Bool)
  /-- WALK_TIMEOUT (R301): A walk read not answered within WALK_US faults with WALK_TIMEOUT. -/
  | walkTimeout (tag : Nat)
  /-- DEVICE_MSI (R295): A device MSI is remapped through the interrupt table into an IMSIC file. -/
  | deviceMsi (seg rid data : Nat)
  /-- ATS_TRANSLATION_REQUEST (R307): An ATS translation request returns a translation, or a denial without a fault record. -/
  | atsTranslationRequest (req : DevReq)
  /-- PAGE_REQUEST (R306): A Page Request message is written to the page request queue or discarded. -/
  | pageRequest (pr : PageReq)
  /-- PRG_RESPONSE (R306): A write to TTU_PRI_RESP sends a PRG Response to the device. -/
  | prgResponse (value : Word)
  /-- STALL_RESUME (R304): RESUME translates a stalled request again from the tables. -/
  | stallResume (tag : Nat)
  /-- STALL_ABORT (R304): ABORT aborts a stalled request. -/
  | stallAbort (tag : Nat)
  /-- STALL_TIMEOUT (R304): A request still stalled after STALL_US is aborted and counted. -/
  | stallTimeout (tag : Nat)
  /-- INV_CTX (R310): Invalidates the context, PASID and interrupt entries and all translations of a device. -/
  | invCtx (seg rid : Nat)
  /-- INV_PASID (R310): Invalidates all translations of a device and PASID. -/
  | invPasid (seg rid : Nat) (pasid : Option Nat)
  /-- INV_RANGE (R310): Invalidates translations of a device and PASID over an IOVA range. -/
  | invRange (seg rid : Nat) (pasid : Option Nat)
  /-- INV_S2 (R310): Invalidates stage-2 entries of a GSCID over a GPA range. -/
  | invS2 (gscid : Nat)
  /-- INV_ALL (R310): Invalidates every TTU cache entry. -/
  | invAll
  /-- INV_DONE (R310): An invalidation completes once no covered copy or request remains and the device has answered. -/
  | invDone
  /-- ATS_INVALIDATE_RESPONSE (R310): A device answers the ATS Invalidate Request. -/
  | atsInvalidateResponse (seg rid : Nat)
  /-- ATS_INV_TIMEOUT (R310): A device that does not answer within ATS_MS ends the invalidation with ATS_TIMEOUT. -/
  | atsInvTimeout
  /-- TTU_QUEUE_ENABLE (R303): Enabling a fault or page request queue sets its TAIL to HEAD. -/
  | ttuQueueEnable (pq : Bool)
  /-- INTX_MESSAGE (R284): An INTx message from a device is discarded and counted. -/
  | intxMessage (port : Nat)
  /-- MMIO_COMPLETION_TIMEOUT (R286): An MMIO read that times out returns all-ones with an error response. -/
  | mmioCompletionTimeout (rp : Nat)
  /-- DPC_TRIGGER (R287): A DPC trigger fails outstanding MMIO, discards DMA and aborts stalled transactions. -/
  | dpcTrigger (rp : Nat)
  /-- AER_ERROR_MESSAGE (R287): An AER error is reported through the standard registers and the root port's MSI, and it raises the port's
  event source. -/
  | aerErrorMessage (rp : Nat)
  /-- HIO_RP_CFG_WRITE (R283): A write of HIO_RPn_CFG bifurcates the port and enables link training, with BIFUR ignored while links are enabled. -/
  | hioRpCfgWrite (port : Nat) (value : Word)
  /-- ROOT_PORT_LINK_UP (R284): The link of a root port completes training and comes up, setting its UP bit. -/
  | rootPortLinkUp (rp : Nat)
  /-- ROOT_PORT_LINK_DOWN (R291): The link of a root port goes down, so that CXL.mem requests made while it is down complete with poison. -/
  | rootPortLinkDown (rp : Nat)
  /-- CXL_RANGE_ENABLE (R289): Setting HIO_RPn_CXL.EN opens the CXL memory range as main memory. -/
  | cxlRangeEnable (port : Nat)
  /-- CXL_RANGE_CLOSE (R290): Clearing EN starts closing the range, evicting every cached line of it. -/
  | cxlRangeClose (port : Nat)
  /-- CXL_CLOSE_DONE (R290): When the walk and every write have completed, EN reads 0 and CLOSING clears. -/
  | cxlCloseDone (port : Nat)
  /-- CXL_MEM_RESPONSE (R291): A CXL.mem response from the Type 3 device completes a home agent's read or write, with POISON set when the
  device returns poison. -/
  | cxlMemResponse (port : Nat) (poison : Bool)
  /-- CXL_MEM_TIMEOUT (R291): A CXL.mem request unanswered for 2 ms completes with poison. -/
  | cxlMemTimeout (port : Nat)
  /-- BIND (R313): BIND binds the lowest unbound slice to a PASID. -/
  | bind (pasid qlog2 : Nat)
  /-- UNBIND (R313): UNBIND releases an idle slice. -/
  | unbind (slice : Nat)
  /-- QUEUE_ENABLE (R316): Setting DB_RING.EN enables the queue and zeroes TAIL, HEAD and DONE. -/
  | queueEnable (slice queue : Nat)
  /-- QUEUE_DISABLE (R316): Clearing DB_RING.EN stops fetching and leaves an ERROR state. -/
  | queueDisable (slice queue : Nat)
  /-- DB_TAIL_WRITE (R317): A DB_TAIL write makes descriptors available, or puts the queue in ERROR with ERR = CREDIT. -/
  | dbTailWrite (slice queue tail : Nat)
  /-- DESCRIPTOR_FETCH (R320): The queue fetches and starts its next descriptor. -/
  | descriptorFetch (slice queue : Nat)
  /-- CHUNK_DISPATCH (R324): A free engine takes its next chunk by budget and rotation. -/
  | chunkDispatch (engine : Nat)
  /-- CHUNK_COMPLETE (R311): A chunk's operation completes on its engine. -/
  | chunkComplete (engine : Nat)
  /-- EPOCH_BOUNDARY (R324): Every 1 µs the pool fixes N and E and gives each bound slice its budget. -/
  | epochBoundary
  /-- RCOPY_TIMEOUT (R327): A remote chunk unacknowledged within RCOPY_US fails with REMOTE_TIMEOUT. -/
  | rcopyTimeout (ctag : Nat)
  /-- SLICE_RESET (R328): A write of BLK_SLICE_CTL.RESET stops the slice's queues and drains its chunks. -/
  | sliceReset (slice : Nat)
  /-- SLICE_RESET_ESCALATE (R329): A slice reset not done in 50 µs re-initialises engines and abandons remote chunks. -/
  | sliceResetEscalate (slice : Nat)
  /-- ENGINE_DISABLE (R330): Clearing an engine's EN bit lets it finish its chunk and then stop. -/
  | engineDisable (engine : Nat)
  /-- ENGINE_ENABLE (R330): Setting an engine's EN bit returns it to the pool. -/
  | engineEnable (engine : Nat)
  /-- ENGINE_REINIT (R330): REINIT abandons the engine's chunk and re-issues or restarts it. -/
  | engineReinit (engine : Nat)
  /-- EVENT_RECEIVE (R344): The EVC entry of a source counts an event in its window and classifies it. -/
  | eventReceive (source count : Nat) (info : EvInfo)
  /-- EVC_MSI_COMPLETE (R343): An MSI's completion returns and the source may send a new one. -/
  | evcMsiComplete (source : Nat)
  /-- EVC_SEV_CLEAR (R346): Writing 1 to an EVC_SEV bit ends the source's severe state. -/
  | evcSevClear (word : Nat) (mask : Word)
  /-- FAULT_PIN_PULSE_END (R349): FAULT_N is released 2 µs after the latest severe fault in pulse mode. -/
  | faultPinPulseEnd
  /-- EVC_SAFE_GO (R353): A write of EVC_SAFE.GO from a leaf in M mode enters the safe state. -/
  | evcSafeGo (req : Requester)
  /-- CMP_WIRE_FAULT (R351): An input pair equal for 4 clocks sets CMP_WIRE and raises source 114. -/
  | cmpWireFault (input : Nat)
  /-- CMP_PARITY_FAULT (R352): A collector configuration parity mismatch sets PAR_FAULT and enters the safe state. -/
  | cmpParityFault (reg : Nat)
  /-- REMAP_WRITE (R337): A remap entry write redirects or restores a place, or is refused. -/
  | remapWrite (table : RemapTable) (entry : Nat) (value : Word)
  /-- STORE_BIST (R341): A write of PRT_SBIST.GO starts a pattern test of one evaluation store, or is refused. -/
  | storeBist (site leafIdx : Nat)
  /-- STORE_BIST_DONE (R341): The store test ends with valid bits clear and reports its status. -/
  | storeBistDone (site : Nat) (fail : Option Nat)
  /-- CLOCK_SWITCH_REQUEST (R358): A write of BPW_CLK_SW requests a leaf's move to its PLL clock, or is refused without PLL lock. -/
  | clockSwitchRequest (site mask : Nat)
  /-- CLOCK_SWITCH (R358): When the leaf is in WFI with no miss entry, it switches to its PLL clock and leaves WFI. -/
  | clockSwitch (hart : Nat)
  /-- BOUGH_PLL_LOSS (R359): A bough PLL losing lock stops its leaves and engines and leads to isolation. -/
  | boughPllLoss (site : Nat)
  /-- TRUNK_PLL_LOSS (R359): Trunk PLL loss starts a package warm reset with PLL_LOSS. -/
  | trunkPllLoss
  /-- HANDSHAKE_RESPONSE (R363): A block answers a power entry request with ACCEPT, REFUSE or DELAY. -/
  | handshakeResponse (block : HsBlock) (delay : Option Nat)
  /-- HANDSHAKE_DELAY_EXPIRY (R363): After a DELAY the controller asks again, and a missing answer counts as TIMEOUT. -/
  | handshakeDelayExpiry (block : HsBlock)
  /-- BOUGH_DORMANT_ENTRY (R365): PWR_BOUGH_CTL with TARGET 1 takes a bough into DORMANT-RET through a handshake. -/
  | boughDormantEntry (site : Nat)
  /-- BOUGH_OFF_ENTRY (R365): PWR_BOUGH_CTL with TARGET 2 takes a bough into OFF. -/
  | boughOffEntry (site : Nat)
  /-- BOUGH_WAKE (R366): A wake cause or TARGET 0 powers, locks, retrains and resynchronises a dormant bough and opens its gate. -/
  | boughWake (site : Nat) (res : TrainResult)
  /-- PWR_STANDBY_REQ (R368): PWR_PKG_CTL.REQ = STANDBY takes the package into STANDBY. -/
  | pwrStandbyReq (req : Requester)
  /-- STANDBY_LEAF_TIMEOUT (R368): A STANDBY request aborts with LEAF_ON when a leaf is not OFF within 10 ms. -/
  | standbyLeafTimeout
  /-- PWR_SLEEP_REQ (R369): REQ = SLEEP enters SLEEP, or is refused without a future alarm. -/
  | pwrSleepReq (req : Requester)
  /-- PWR_WAKE_REQ (R368): A WAKE from the management core brings the package back from STANDBY. -/
  | pwrWakeReq (req : Requester)
  /-- ORDERLY_BOUGH_RESET (R371): RST_CMD OP 1 stops, writes back, purges and gates a bough and retrains it. -/
  | orderlyBoughReset (site : Nat)
  /-- BOUGH_RESET_ESCALATE (R371): An orderly reset not through its first steps in 1 ms continues as forced. -/
  | boughResetEscalate
  /-- FORCED_BOUGH_RESET (R371): RST_CMD OP 2 engages isolation at once and resets the bough. -/
  | forcedBoughReset (site : Nat)
  /-- LEAF_RESET (R74): RST_CMD OP 3 resets a leaf core to the state of R74. -/
  | leafReset (leaf : Nat)
  /-- LEE_RESET (R143): RST_CMD OP 4 abandons an engine's words and resets its registers, keeping its store. -/
  | leeReset (leaf : Nat)
  /-- AGE_REPLAN_PERIOD (R376): Every PERIOD_H hours the ageing guardbands are re-planned. -/
  | ageReplanPeriod
  /-- AGE_REPLAN (R376): A write of AGE_CMD.GO re-plans every active die. -/
  | ageReplan
  /-- AGE_MEASURE_DONE (R375): A die's measurement gives WEAR and MARGIN and may raise its guardband. -/
  | ageMeasureDone (die : Nat) (ros reps : List Nat)
  /-- GUARDBAND_SETTLE (R376): After 100 µs of settling the die is measured again. -/
  | guardbandSettle (die : Nat)
  /-- RTC_ALARM (R369): The RTC reaching CMP in SLEEP sets FIRED and starts a warm reset. -/
  | rtcAlarm
  /-- POWER_ON_RESET (R370): PWR_OK assertion with supplies in range completes power-on reset. -/
  | powerOnReset
  /-- SYS_RESET_PIN (R400): SYS_RESET_N low for at least 1 µs starts a package warm reset. -/
  | sysResetPin
  /-- SYS_RESET_RELEASE (R400): SYS_RESET_N rises, PKG_ID pins are sampled and the held warm reset, or the power-on warm reset, begins. -/
  | sysResetRelease
  /-- PACKAGE_WARM_RESET (R370): A warm reset writes back caches, reloads the structure image and boots. -/
  | packageWarmReset (cause : WarmCause)
  /-- BOOT_READY_TIMEOUT (R382): READY still 0 100 ms after the warm reset counts a failed boot. -/
  | bootReadyTimeout
  /-- PWR_OK_DEASSERT (R401): PWR_OK falling stops every die and releases the outputs. -/
  | pwrOkDeassert
  /-- SUPPLY_UNDERVOLTAGE (R402): VCCIN or VDDQ below range for 1 µs stops the package as in power-down. -/
  | supplyUndervoltage
  /-- VSTBY_LOSS (R402): Loss of VSTBY acts as PWR_OK falling and clears the RTC and standby records. -/
  | vstbyLoss
  /-- VSTBY_POWER_UP (R399): VSTBY enters its range, the standby domain leaves reset, the crystal starts and the RTC begins counting. -/
  | vstbyPowerUp
  /-- REFCLK_LOSS (R404): Loss of REFCLK makes every root PLL lose lock. -/
  | refclkLoss
  /-- REFCLK_RETURN (R404): REFCLK returns within range, and the trunk PLL relocks, so the waiting warm reset proceeds from step 2 of R383. -/
  | refclkReturn
  /-- PROCHOT_ASSERT (R408): Temperature or power over the limit makes the package drive PROCHOT_N and throttle. -/
  | prochotAssert (overTemp overPower : Bool)
  /-- PROCHOT_INPUT (R408): PROCHOT_N pulled low by the board makes the package throttle within 10 µs. -/
  | prochotInput
  /-- PROCHOT_RELEASE (R408): Dies below 97 °C and power below the limit release PROCHOT_N and end throttling. -/
  | prochotRelease
  /-- PROCHOT_BOARD_RELEASE (R408): The board releases PROCHOT_N, and throttling ends when the package no longer drives the pin low. -/
  | prochotBoardRelease
  /-- THERMTRIP (R409): A die at 120 °C drives THERMTRIP_N, stops every die and powers off the regulators. -/
  | thermtrip (die : Nat)
  /-- SI_STAGE_BEGIN (R49): Opens a staging session and erases the inactive slot of that kind. -/
  | siStageBegin (port : CmdPort) (kind : PartKind)
  /-- SI_STAGE_WRITE (R49): Programs bytes into the slot being staged. -/
  | siStageWrite (port : CmdPort) (offset : Nat) (bytes : List Byte)
  /-- SI_STAGE_CHECK (R49): Verifies the staged part against the present OTP. -/
  | siStageCheck (port : CmdPort)
  /-- SI_STAGE_ABORT (R49): Closes the staging session. -/
  | siStageAbort (port : CmdPort)
  /-- SI_COMMIT (R49): Writes a directory that makes the staged slot active in trial. -/
  | siCommit (port : CmdPort) (trials : Nat)
  /-- SI_CONFIRM (R49): Writes a directory that clears the trial of a kind. -/
  | siConfirm (port : CmdPort) (kind : PartKind)
  /-- SI_ADVANCE_FLOOR (R49): Raises a kind's OTP floor to the SVN of the loaded part. -/
  | siAdvanceFloor (port : CmdPort) (kind : PartKind)
  /-- SI_ENROL_KEY (R52): Enrols an empty owner key slot from an enrolment object. -/
  | siEnrolKey (port : CmdPort) (obj : List Byte)
  /-- SI_REVOKE_KEY (R53): Revokes an owner key slot under a signature of the other slot. -/
  | siRevokeKey (port : CmdPort) (obj : List Byte)
  /-- SESSION_TIMEOUT (R49): A staging session with no command for 60 s closes as if aborted. -/
  | sessionTimeout
  /-- FLASH_BACKGROUND_DONE (R386): A background erase and program completes, and SI and FW commands are accepted again. -/
  | flashBackgroundDone
  /-- INFO (R385): Returns firmware version, slot, SVNs and identity registers. -/
  | info (port : CmdPort)
  /-- TELEMETRY (R385): Returns die temperatures, VCCIN voltage and current, and package power. -/
  | telemetry (port : CmdPort)
  /-- REG_READ (R385): Returns up to 16 consecutive registers of the device register space. -/
  | regRead (port : CmdPort) (addr n : Nat)
  /-- PKG_STANDBY (R385): The BMC requests package STANDBY. -/
  | pkgStandby (port : CmdPort)
  /-- PKG_SLEEP (R385): The BMC arms the RTC alarm and requests SLEEP. -/
  | pkgSleep (port : CmdPort) (cmp : Nat)
  /-- PKG_WAKE (R385): The BMC has the management core wake the package from STANDBY. -/
  | pkgWake (port : CmdPort)
  /-- RESET_WARM (R385): The BMC starts a package warm reset with RST_CAUSE.BMC. -/
  | resetWarm (port : CmdPort)
  /-- RESET_UNIT (R385): The BMC resets or re-initialises a bough, leaf, LEE, slice, engine, graft or channel. -/
  | resetUnit (port : CmdPort) (op target : Nat)
  /-- ENTER_SAFE (R385): The BMC places the package in the safe state. -/
  | enterSafe (port : CmdPort)
  /-- SEV_CLEAR (R385): The BMC clears EVC_SEV bits. -/
  | sevClear (port : CmdPort) (word : Nat) (mask : Word)
  /-- FW_STAGE_BEGIN (R385): Erases the firmware slot not loaded and opens a session. -/
  | fwStageBegin (port : CmdPort)
  /-- FW_STAGE_WRITE (R385): Programs bytes into the firmware slot being staged. -/
  | fwStageWrite (port : CmdPort) (offset : Nat) (bytes : List Byte)
  /-- FW_STAGE_CHECK (R385): Verifies the staged firmware image, which must have a higher SEQ. -/
  | fwStageCheck (port : CmdPort)
  /-- FW_STAGE_ABORT (R385): Closes the firmware staging session. -/
  | fwStageAbort (port : CmdPort)
  /-- FW_REVERT (R385): Erases the loaded slot's first sector if the other slot verifies. -/
  | fwRevert (port : CmdPort)
  /-- ATTEST_KEY (R391): Returns the attestation public key and the indexes remaining. -/
  | attestKey (port : CmdPort)
  /-- ATTEST_QUOTE (R391): Signs a quote body with the next reserved XMSS^MT index. -/
  | attestQuote (port : CmdPort)
  /-- JTAG_IDCODE (R388): The TAP shifts out its IDCODE. -/
  | jtagIdcode
  /-- JTAG_BYPASS (R388): The TAP bypasses, and so do all instructions not permitted while debug is off. -/
  | jtagBypass (b : Bool)
  /-- JTAG_SAMPLE_PRELOAD (R388): The TAP samples or preloads the boundary register. -/
  | jtagSamplePreload (shiftIn : Word)
  /-- JTAG_EXTEST (R389): The TAP drives the boundary register when debug is enabled. -/
  | jtagExtest (shiftIn : Word)
  /-- JTAG_SYSACC (R389): The TAP reads or writes one word at a physical address as class 8. -/
  | jtagSysacc (addr : Nat) (write : Bool) (value : Word)
  /-- JTAG_DMI (R389): The TAP halts, resumes or accesses registers of a leaf under RISC-V Debug. -/
  | jtagDmi (op : DmiOp)
deriving DecidableEq, Repr

end Sys2Proof
end

