-- ==== Sys2Proof/Decode.lean ====
section
/-!
DEFINITION. The command that a word spells by the bits of the opcode table. The table gives no row any bits (each row's list of
fields is empty), so no word spells a command.
-/

namespace Sys2Proof

/-- No row of the table has bits. DESIGN CHOICE, assumption 7. -/
def decodeTableWord (_nbits _w : Nat) : Option Instr := none

end Sys2Proof
end

