-- ==== Sys2Proof/Config.lean ====
section
/-!
DEFINITION. What an implementation fixes and the spec leaves open: constants without a body, so that nothing can be proved of
their value. A free value taken afresh is `freeWord` applied to the counter `Dev.free`.
-/

namespace Sys2Proof.Config

/-- A value the spec leaves open; each use takes the next index. -/
opaque freeWord : Nat → Word

/-- The number of the array or unit that a residue or parity machine check names in mchkloc (R72 gives no numbers): leaf
index and machine-check code. DESIGN CHOICE, assumption 25. -/
opaque checkedUnit : Nat → Nat → Nat

/-- XMSS^MT signature made by the attestation key: index, message. -/
opaque xmssMtSign : Nat → List Byte → List Byte

/-- The attestation public key of the package (R391): the spec gives neither its value nor its encoding. -/
opaque attestKey : List Byte

end Sys2Proof.Config
end

