-- ==== Sys2Proof/Machine/KMap.lean ====
section
/-!
DEFINITION. Sparse data by key as a sorted list of pairs in one canonical form: keys strictly rising, and no entry equal
to what an unlisted key reads as. Registers, memory bytes, store words and the per-unit records are held this way.
-/

namespace Sys2Proof.Machine

/-- Keys and values; a key that is not listed reads as a default that the reader names. -/
abbrev KMap (κ α : Type) := List (κ × α)

/-- The value at a key. -/
def KMap.find {κ α : Type} [DecidableEq κ] (dflt : α) : KMap κ α → κ → α
  | [], _ => dflt
  | (k', a) :: t, k => if k' = k then a else KMap.find dflt t k

/-- Put an entry in front of the first key that is not below it. -/
def KMap.place {κ α : Type} (lt : κ → κ → Bool) (k : κ) (a : α) : KMap κ α → KMap κ α
  | [] => [(k, a)]
  | (k', b) :: t => if lt k' k then (k', b) :: KMap.place lt k a t else (k, a) :: (k', b) :: t

/-- Drop a key. -/
def KMap.drop {κ α : Type} [DecidableEq κ] (m : KMap κ α) (k : κ) : KMap κ α :=
  m.filter fun p => decide (p.1 ≠ k)

/-- Give a key a value; giving it the default drops the entry. -/
def KMap.set {κ α : Type} [DecidableEq κ] [DecidableEq α] (lt : κ → κ → Bool) (dflt : α) (m : KMap κ α) (k : κ)
    (a : α) : KMap κ α :=
  if a = dflt then m.drop k else KMap.place lt k a (m.drop k)

/-- The order of keys that are numbers. -/
def natLt (a b : Nat) : Bool := decide (a < b)

/-- Keys strictly rising. -/
def KMap.rising {κ α : Type} (lt : κ → κ → Bool) : KMap κ α → Bool
  | [] => true
  | [_] => true
  | a :: b :: t => lt a.1 b.1 && KMap.rising lt (b :: t)

/-- The canonical form: keys strictly rising and no entry equal to the default. -/
def KMap.wf {κ α : Type} [DecidableEq α] (lt : κ → κ → Bool) (dflt : α) (m : KMap κ α) : Bool :=
  m.rising lt && m.all fun p => decide (p.2 ≠ dflt)

end Sys2Proof.Machine
end

