-- ==== Sys2Proof/Machine/Registers.lean ====
section
/-!
DEFINITION. The register map of the package: every register block (R27), every register with its offset, and every
field with its access type (R8), its reset value (R9) and the range of values it takes.
The rows are the register tables of spec/01 to spec/17, one row for each field that is not reserved.
A field whose Reset column is "—" or names the part is given the value the assumption log names (notes/assumptions).
-/

namespace Sys2Proof.Machine

/-- The register blocks of R27. `bgh`, `l3c`, `grfb`, `bpw`, `prt` and `lee` lie in the range of a physical site. -/
inductive Blk where
  | trk | sim | dir | fab | grft | spn | tim | trc | mem
  | ttu | blk | evc | cmp | pwr | clk | rst | age | mbx
  | hio | db | bgh | l3c | grfb | bpw | prt | lee
deriving DecidableEq, Repr

/-- Every register the spec names. An array of registers is one name; its number is the index of `Reg`. -/
inductive RegName where
  | TRK_ID | TRK_CAP | TRK_CAP_IO | TRK_ABSENT_CNT | TRK_PKG_ID | TRK_NUMA_DIST
  | TRK_DECERR | TRK_FW_LOG | TRK_FW_CNT | TRK_FW_BASE | TRK_FW_LIMIT | TRK_FW_ACC
  | TRK_FW_CTL | TRK_STRAP_OVR | TRK_SCAN_CTL | BGH_ID | SIM_STAT | SIM_VENDOR
  | SIM_OWNER | SIM_OTP | SIM_SITEMAP | SIM_UID_LO | SIM_UID_HI | SIM_OTP_PROG
  | BGH_RESET_VEC | BGH_RNMI_VEC | BGH_RNMI_EXC | BGH_MTIME | BGH_LEAF_STAT | BGH_MTIMECMP
  | BGH_RESIDUE_INJ | LEE_CTL | LEE_STAT | LEE_PC | LEE_CYCLE | LEE_MAP0
  | LEE_MAP1 | LEE_MAP2 | LEE_FAULT | LEE_FAULT_INFO | LEE_TRAP | LEE_DOORBELL
  | LEE_IRQ | LEE_IRQ_STAT | LEE_LC01 | LEE_LC23 | LEE_XCH_STAT | LEE_BAR
  | LEE_MMD_CFG | LEE_MMD_BASE | LEE_STIM_BASE | LEE_STIM_CTL | LEE_STIM_TAIL | LEE_STREAM
  | LEE_STREAM_STAT | LEE_CNT | LEE_ERR_INJ | FAB_MG_CMD | FAB_MG_RESULT | FAB_MG_CTL
  | FAB_MG_STAT | FAB_MG_MEM | FAB_MG_LAST | FAB_MG_TOKINJ | L3C_CTL | L3C_STAT
  | L3C_EVB | L3C_LOCK_ADDR | L3C_LOCK_LEN | L3C_LOCK_CMD | L3C_LOCK_STAT | L3C_LOCK_FAIL
  | L3C_LOCK_WAYS | L3C_CNT | L3C_ARRAY_TEST | DIR_TMO | DIR_TMO_LOG | DIR_TMO_BOUGH
  | DIR_STAT | DIR_PURGE | DIR_CNT | DIR_ARRAY_TEST | FAB_ROUTE_SWAP | FAB_RT_SEL
  | FAB_RT_DATA | FAB_UNROUTE | FAB_ISO | FAB_ISO_STAT | FAB_WAKE | FAB_GATE_STAT
  | FAB_GATE_LOG | FAB_CDC_LOG | FAB_CDC_CNT | BGH_CDC_LOG | BGH_CDC_CNT | FAB_PROXY
  | FAB_PEND | FAB_LINK_INJ | FAB_CDC_STOP | GRF_STAT | GRF_CTL | GRF_LANE_FAIL
  | GRF_LANE_MASK | GRF_SPARE | GRF_LANE_ERR | GRF_CNT | GRF_TRAIN_HEAD | GRF_TRAIN_LOG
  | GRF_EYE_SCAN | GRFB_STAT | GRFB_CTL | GRFB_LANE_FAIL | GRFB_LANE_MASK | GRFB_SPARE
  | GRFB_LANE_ERR | GRFB_CNT | GRFB_TRAIN_HEAD | GRFB_TRAIN_LOG | SPN_CTL | SPN_STAT
  | SPN_TIME | SPN_XCH_TMO | SPN_FEC | SPN_CNT | SPN_ROUTE | SPN_PRBS
  | TIM_COUNT | TIM_STEP | TIM_STAT | TIM_SITE | TRC_CTL | TRC_STAT
  | TRC_BMAP | TRC_IRQ | TRC_IRQ_STAT | TRC_RING_BASE | TRC_RING_CTL | TRC_RING_WR
  | TRC_RING_RD | TRC_RING_DROP | TRC_PACK | TRC_BUF_TEST | MEM_CFG | MEM_STAT
  | MEM_CTL | MEM_IL | MEM_XOR | MEM_INIT | MEM_TRAIN | MEM_SCRUB
  | MEM_ECC_CNT | MEM_CE_CTL | MEM_ECC_LOG | MEM_ECC_ADDR | MEM_BIST | MEM_Q
  | MEM_CNT | MEM_PHY_TEST | TTU_CTL | TTU_STAT | TTU_IRQ | TTU_IRQ_STAT
  | TTU_DDT | TTU_WALK_BASE | TTU_WALK_LIMIT | TTU_FQ_BASE | TTU_FQ_TAIL | TTU_FQ_HEAD
  | TTU_PQ_BASE | TTU_PQ_TAIL | TTU_PQ_HEAD | TTU_INV_CMD | TTU_INV_ADDR | TTU_INV_STAT
  | TTU_STALL_CMD | TTU_PRI_RESP | TTU_CNT | TTU_CACHE_TEST | HIO_CFG | HIO_STAT
  | HIO_CXL | HIO_PHY_TEST | BLK_CTL | BLK_ENG_CTL | BLK_ENG_STAT | BLK_BIND_CMD
  | BLK_BIND_RESULT | BLK_SLICE_CTL | BLK_SLICE_STAT | BLK_SLICE_TIME | BLK_ENG_TEST | DB_RING
  | DB_COMP | DB_MSI | DB_TAIL | DB_STAT | PRT_SLOG_LOC | PRT_SLOG_INFO
  | PRT_L3LOG_LOC | PRT_L3LOG_INFO | PRT_CLOG_LOC | PRT_CLOG_INFO | DIR_CE_LOG_LOC | DIR_CE_LOG_INFO
  | PRT_SREMAP | PRT_L3REMAP | DIR_REMAP | PRT_CTL | DIR_CE_CTL | PRT_CE_CNT
  | PRT_SBIST | PRT_SBIST_FAIL | PRT_ERR_INJ | EVC_SRC_CTL | EVC_SRC_STAT | EVC_SEV
  | EVC_STAT | EVC_SAFE | EVC_PIN | EVC_FIRST | EVC_FIRST_RING | EVC_CAP_TAIL
  | EVC_CAP_HEAD | EVC_CAP_DROP | EVC_CAP | CMP_CTL | CMP_STAT | CMP_PEND
  | CMP_WIRE | CMP_MASK | CMP_IRQ | CMP_SEL | CMP_WIRE_INJ | PWR_PKG_CTL
  | PWR_BOUGH_CTL | PWR_HS_LAST | PWR_HS_CNT | BPW_HS_CNT | PWR_HS_BOUND | PWR_BSTATE
  | PWR_RTC | PWR_RTC_ALARM | CLK_STAT | RST_CMD | RST_CAUSE | BPW_STAT
  | BPW_CLK_SW | BPW_LEAF_PWR | BPW_FIC_TRIM | AGE_CTL | AGE_CMD | AGE_DIE
  | AGE_RAW | MBX_CMD | MBX_STAT | MBX_IRQ | MBX_FW | MBX_DENY
  | MBX_BMC | MBX_DATA | MBX_ROM_TEST
deriving DecidableEq, Repr

/-- Access types of R8. `act` marks a field that reads like RW and whose write has a behaviour of its own, given by its
register's rule; a plain write leaves it alone. -/
inductive Acc where
  | rw | ro | wo | w1c | w1s | act
deriving DecidableEq, Repr

/-- One row of a register table: bits [hi:lo], the access type, the reset value, and the least and greatest value a write
may give the field (a value outside leaves the field unchanged). -/
structure FieldRow where
  hi : Nat
  lo : Nat
  acc : Acc
  rst : Nat := 0
  min : Nat := 0
  max : Nat := 2 ^ 64 - 1
deriving DecidableEq, Repr

/-- A row whose field takes every value a write gives it. -/
def FieldRow.of (hi lo : Nat) (acc : Acc) (rst : Nat) : FieldRow := ⟨hi, lo, acc, rst, 0, 2 ^ 64 - 1⟩

/-- A row whose field takes the values min to max. -/
def FieldRow.ranged (hi lo : Nat) (acc : Acc) (rst min max : Nat) : FieldRow := ⟨hi, lo, acc, rst, min, max⟩

/-- The rows of the register tables of block TRK. -/
def RegName.fieldsTrk : RegName → List FieldRow
  | .TRK_ID => [.of 63 48 .ro 2663, .of 47 32 .ro 19283, .of 31 24 .ro 0, .of 23 16 .ro 0, .of 15 8 .ro 0]
  | .TRK_CAP => [.of 63 63 .ro 0, .of 62 62 .ro 0, .of 61 61 .ro 0, .of 60 56 .ro 0, .of 55 28 .ro 0, .of 27 0 .ro 0]
  | .TRK_CAP_IO => [.of 47 40 .ro 0, .of 39 32 .ro 255, .of 31 28 .ro 0, .of 27 24 .ro 0, .of 23 16 .ro 0,
      .of 15 0 .ro 0]
  | .TRK_ABSENT_CNT => [.of 63 32 .ro 0, .of 31 0 .rw 0]
  | .TRK_PKG_ID => [.of 8 6 .ro 0, .of 5 0 .ro 0]
  | .TRK_NUMA_DIST => [.of 39 32 .ro 20, .of 31 24 .ro 0, .of 23 16 .ro 0, .of 15 8 .ro 0, .of 7 0 .ro 0]
  | .TRK_DECERR => [.of 63 63 .w1c 0, .of 47 0 .ro 0]
  | .TRK_FW_LOG => [.of 63 63 .w1c 0, .of 62 62 .ro 0, .of 61 58 .ro 0, .of 51 48 .ro 0, .of 47 0 .ro 0]
  | .TRK_FW_CNT => [.of 31 0 .rw 0]
  | .TRK_FW_BASE => [.of 47 12 .rw 0]
  | .TRK_FW_LIMIT => [.of 47 12 .rw 0]
  | .TRK_FW_ACC => [.of 40 32 .rw 0, .of 24 16 .rw 0, .of 8 0 .rw 0]
  | .TRK_FW_CTL => [.of 1 1 .ro 0, .of 0 0 .act 0]
  | .TRK_STRAP_OVR => [.of 63 0 .wo 0]
  | .TRK_SCAN_CTL => [.of 63 0 .wo 0]
  | _ => []

/-- The rows of the register tables of block SIM. -/
def RegName.fieldsSim : RegName → List FieldRow
  | .SIM_STAT => [.of 47 40 .ro 0, .of 39 32 .ro 0, .of 31 28 .ro 0, .of 27 24 .ro 0, .of 9 8 .ro 0, .of 7 7 .ro 0,
      .of 6 6 .ro 0, .of 5 5 .ro 0, .of 4 4 .ro 0, .of 3 0 .ro 1]
  | .SIM_VENDOR => [.of 47 32 .ro 0, .of 31 16 .ro 0, .of 15 8 .ro 0, .of 0 0 .ro 0]
  | .SIM_OWNER => [.of 47 32 .ro 0, .of 31 16 .ro 0, .of 15 8 .ro 0, .of 0 0 .ro 0]
  | .SIM_OTP => [.of 29 24 .ro 0, .of 21 16 .ro 0, .of 3 2 .ro 0, .of 1 0 .ro 0]
  | .SIM_SITEMAP => [.of 7 0 .ro 0, .of 15 8 .ro 0, .of 23 16 .ro 0, .of 31 24 .ro 0, .of 39 32 .ro 0,
      .of 47 40 .ro 0, .of 55 48 .ro 0]
  | .SIM_UID_LO => [.of 63 0 .ro 0]
  | .SIM_UID_HI => [.of 63 0 .ro 0]
  | .SIM_OTP_PROG => [.of 63 0 .wo 0]
  | _ => []

/-- The rows of the register tables of block DIR. -/
def RegName.fieldsDir : RegName → List FieldRow
  | .DIR_TMO => [.ranged 19 16 .rw 3 1 15, .ranged 9 0 .rw 20 1 1000]
  | .DIR_TMO_LOG => [.of 63 63 .w1c 0, .of 62 58 .ro 0, .of 57 54 .ro 0, .of 47 6 .ro 0]
  | .DIR_TMO_BOUGH => [.of 3 0 .rw 0, .of 7 4 .rw 0, .of 11 8 .rw 0, .of 15 12 .rw 0, .of 19 16 .rw 0,
      .of 23 20 .rw 0, .of 27 24 .rw 0, .of 31 28 .rw 0, .of 35 32 .rw 0, .of 39 36 .rw 0, .of 43 40 .rw 0,
      .of 47 44 .rw 0]
  | .DIR_STAT => [.of 52 48 .ro 0, .of 42 32 .ro 0, .of 21 0 .ro 0]
  | .DIR_PURGE => [.of 63 63 .ro 0, .of 62 62 .w1c 0, .of 8 8 .wo 0, .of 4 0 .rw 0]
  | .DIR_CNT => [.of 63 0 .rw 0]
  | .DIR_ARRAY_TEST => [.of 63 0 .wo 0]
  | .DIR_CE_LOG_LOC => [.of 63 0 .ro 0]
  | .DIR_CE_LOG_INFO => [.of 63 63 .w1c 0, .of 62 62 .ro 0, .of 61 61 .ro 0, .of 47 32 .ro 0, .of 31 0 .ro 0]
  | .DIR_REMAP => [.of 63 63 .act 0, .of 62 62 .ro 0, .of 61 61 .ro 0, .of 60 60 .ro 0, .of 59 59 .ro 0,
      .of 44 42 .ro 0, .of 41 32 .act 0, .of 31 0 .act 0]
  | .DIR_CE_CTL => [.of 17 17 .w1c 0, .of 16 16 .w1c 0, .of 0 0 .rw 1]
  | _ => []

/-- The rows of the register tables of block FAB. -/
def RegName.fieldsFab : RegName → List FieldRow
  | .FAB_MG_CMD => [.of 15 8 .wo 0, .of 7 0 .wo 0]
  | .FAB_MG_RESULT => [.of 15 8 .ro 0, .of 7 0 .ro 0]
  | .FAB_MG_CTL => [.ranged 29 24 .act 0 0 40, .of 19 16 .act 0, .of 9 8 .ro 0, .of 2 1 .act 0]
  | .FAB_MG_STAT => [.of 63 63 .ro 0, .of 62 62 .ro 0, .of 61 61 .w1c 0, .of 60 57 .ro 0, .of 56 48 .ro 0,
      .of 31 0 .ro 0]
  | .FAB_MG_MEM => [.of 63 0 .act 0]
  | .FAB_MG_LAST => [.of 63 0 .ro 0]
  | .FAB_MG_TOKINJ => [.of 63 0 .wo 0]
  | .FAB_ROUTE_SWAP => [.of 63 63 .ro 0, .of 62 62 .w1c 0, .of 61 61 .w1c 0, .of 48 48 .ro 0, .of 47 32 .ro 0,
      .of 0 0 .wo 0]
  | .FAB_RT_SEL => [.of 23 23 .rw 0, .of 22 20 .rw 0, .of 18 18 .rw 0, .of 17 12 .rw 0, .of 6 0 .rw 0]
  | .FAB_RT_DATA => [.of 2 0 .act 0]
  | .FAB_UNROUTE => [.of 63 63 .w1c 0, .of 42 40 .ro 0, .of 38 32 .ro 0, .of 31 0 .rw 0]
  | .FAB_ISO => [.of 8 8 .wo 0, .of 4 0 .rw 0]
  | .FAB_ISO_STAT => [.of 27 0 .ro 0]
  | .FAB_WAKE => [.of 27 0 .rw 0]
  | .FAB_GATE_STAT => [.of 27 0 .ro 0]
  | .FAB_GATE_LOG => [.of 63 63 .w1c 0, .of 62 60 .ro 0, .of 52 48 .ro 0, .of 47 0 .ro 0]
  | .FAB_CDC_LOG => [.of 63 63 .w1c 0, .of 62 60 .ro 0, .of 43 32 .ro 0, .of 31 0 .ro 0]
  | .FAB_CDC_CNT => [.of 63 32 .rw 0, .of 31 0 .rw 0]
  | .FAB_PROXY => [.of 63 48 .rw 0, .of 47 32 .rw 0, .of 31 16 .rw 0, .of 15 0 .rw 0]
  | .FAB_PEND => [.of 63 63 .w1c 0, .of 47 32 .rw 0, .of 9 0 .ro 0]
  | .FAB_LINK_INJ => [.of 63 0 .wo 0]
  | .FAB_CDC_STOP => [.of 63 0 .wo 0]
  | _ => []

/-- The rows of the register tables of block GRFT. -/
def RegName.fieldsGrft : RegName → List FieldRow
  | .GRF_STAT => [.of 63 56 .ro 0, .of 51 48 .ro 0, .of 39 36 .ro 0, .of 35 32 .ro 0, .of 7 4 .ro 0, .of 2 0 .ro 0]
  | .GRF_CTL => [.of 16 16 .wo 0, .ranged 12 8 .rw 31 16 31, .ranged 7 0 .rw 8 1 255]
  | .GRF_LANE_FAIL => [.of 63 0 .ro 0]
  | .GRF_LANE_MASK => [.of 63 0 .act 0]
  | .GRF_SPARE => [.of 7 7 .ro 0, .of 6 0 .ro 0, .of 15 15 .ro 0, .of 14 8 .ro 0, .of 23 23 .ro 0, .of 22 16 .ro 0,
      .of 31 31 .ro 0, .of 30 24 .ro 0, .of 39 39 .ro 0, .of 38 32 .ro 0, .of 47 47 .ro 0, .of 46 40 .ro 0,
      .of 55 55 .ro 0, .of 54 48 .ro 0, .of 63 63 .ro 0, .of 62 56 .ro 0]
  | .GRF_LANE_ERR => [.of 47 32 .ro 0, .of 8 0 .rw 0]
  | .GRF_CNT => [.of 63 48 .rw 0, .of 47 32 .rw 0, .of 31 0 .rw 0]
  | .GRF_TRAIN_HEAD => [.of 63 63 .ro 0, .of 2 0 .ro 0]
  | .GRF_TRAIN_LOG => [.of 63 63 .ro 0, .of 62 55 .ro 0, .of 54 53 .ro 0, .of 52 49 .ro 0, .of 48 45 .ro 0,
      .of 44 41 .ro 0, .of 40 36 .ro 0, .of 31 0 .ro 0]
  | .GRF_EYE_SCAN => [.of 63 0 .wo 0]
  | _ => []

/-- The rows of the register tables of block SPN. -/
def RegName.fieldsSpn : RegName → List FieldRow
  | .SPN_CTL => [.of 8 8 .wo 0, .ranged 5 4 .rw 0 0 1, .of 3 3 .rw 1, .of 2 2 .act 0, .of 0 0 .ro 0]
  | .SPN_STAT => [.of 63 58 .ro 0, .of 57 56 .ro 0, .of 55 48 .ro 0, .of 39 32 .ro 0, .of 31 16 .ro 0, .of 7 3 .ro 0,
      .of 2 0 .ro 0]
  | .SPN_TIME => [.of 63 63 .ro 0, .of 62 62 .ro 0, .of 47 32 .ro 0, .of 31 0 .ro 0]
  | .SPN_XCH_TMO => [.ranged 9 0 .rw 100 1 1000]
  | .SPN_FEC => [.of 63 32 .rw 0, .of 31 0 .rw 0]
  | .SPN_CNT => [.of 63 32 .rw 0, .of 31 16 .rw 0, .of 15 0 .rw 0]
  | .SPN_ROUTE => [.of 3 3 .rw 0, .of 1 0 .rw 0]
  | .SPN_PRBS => [.of 63 0 .wo 0]
  | _ => []

/-- The rows of the register tables of block TIM. -/
def RegName.fieldsTim : RegName → List FieldRow
  | .TIM_COUNT => [.of 63 0 .ro 0]
  | .TIM_STEP => [.of 62 0 .wo 0]
  | .TIM_STAT => [.of 63 63 .w1c 0, .of 62 62 .ro 0, .of 31 0 .rw 0]
  | .TIM_SITE => [.of 63 63 .ro 0, .of 62 62 .ro 0, .of 47 40 .ro 0, .of 31 16 .rw 0, .of 15 0 .ro 0]
  | _ => []

/-- The rows of the register tables of block TRC. -/
def RegName.fieldsTrc : RegName → List FieldRow
  | .TRC_CTL => [.of 60 48 .act 2048, .of 44 32 .act 3072, .ranged 9 0 .rw 10 1 1000]
  | .TRC_STAT => [.of 63 63 .ro 0, .of 62 62 .w1c 0, .of 47 32 .rw 0, .of 12 0 .ro 0]
  | .TRC_BMAP => [.of 1 0 .rw 0, .of 3 2 .rw 0, .of 5 4 .rw 0, .of 7 6 .rw 0, .of 9 8 .rw 0, .of 11 10 .rw 0,
      .of 13 12 .rw 0, .of 15 14 .rw 0, .of 17 16 .rw 0, .of 19 18 .rw 0, .of 21 20 .rw 0, .of 23 22 .rw 0,
      .of 25 24 .rw 0, .of 27 26 .rw 0, .of 29 28 .rw 0, .of 31 30 .rw 0, .of 33 32 .rw 0, .of 35 34 .rw 0,
      .of 37 36 .rw 0, .of 39 38 .rw 0, .of 41 40 .rw 0, .of 43 42 .rw 0, .of 45 44 .rw 0, .of 47 46 .rw 0]
  | .TRC_IRQ => [.of 31 0 .rw 0]
  | .TRC_IRQ_STAT => [.of 11 8 .w1c 0, .of 7 4 .w1c 0, .of 3 0 .w1c 0]
  | .TRC_RING_BASE => [.of 47 12 .act 0]
  | .TRC_RING_CTL => [.of 63 63 .ro 0, .of 31 8 .act 0, .ranged 7 3 .act 6 6 26, .of 1 1 .act 0, .of 0 0 .act 0]
  | .TRC_RING_WR => [.of 31 0 .ro 0]
  | .TRC_RING_RD => [.of 31 0 .rw 0]
  | .TRC_RING_DROP => [.of 63 63 .ro 0, .of 47 32 .rw 0, .of 31 0 .rw 0]
  | .TRC_PACK => [.of 63 48 .rw 0, .of 47 32 .rw 0, .of 31 0 .rw 0]
  | .TRC_BUF_TEST => [.of 63 0 .wo 0]
  | _ => []

/-- The rows of the register tables of block MEM. -/
def RegName.fieldsMem : RegName → List FieldRow
  | .MEM_CFG => [.of 41 32 .ro 0, .of 31 24 .ro 0, .of 17 16 .ro 0, .of 12 12 .ro 0, .of 9 8 .ro 0, .of 1 0 .ro 0]
  | .MEM_STAT => [.of 63 63 .w1c 0, .of 62 62 .w1c 0, .of 61 61 .ro 0, .of 60 60 .ro 0, .of 15 8 .ro 0, .of 3 0 .ro 0]
  | .MEM_CTL => [.of 8 8 .wo 0, .of 4 4 .wo 0, .of 1 1 .rw 0, .of 0 0 .act 0]
  | .MEM_IL => [.of 47 32 .ro 0, .of 19 16 .ro 0, .of 11 8 .ro 0, .of 4 0 .ro 0]
  | .MEM_XOR => [.of 47 0 .ro 0]
  | .MEM_INIT => [.of 63 63 .ro 0, .of 39 6 .ro 0]
  | .MEM_TRAIN => [.of 63 63 .ro 0, .of 62 62 .ro 0, .of 55 48 .ro 0, .ranged 25 16 .rw 250 10 1000, .of 15 0 .ro 0]
  | .MEM_SCRUB => [.of 63 48 .ro 0, .ranged 7 0 .rw 24 0 168]
  | .MEM_ECC_CNT => [.of 63 48 .rw 0, .of 47 32 .rw 0, .of 31 0 .rw 0]
  | .MEM_CE_CTL => [.ranged 37 32 .rw 40 20 48, .of 15 0 .rw 256]
  | .MEM_ECC_LOG => [.of 63 63 .w1c 0, .of 62 60 .ro 0, .of 59 56 .ro 0, .of 55 55 .ro 0, .of 54 52 .ro 0,
      .of 51 49 .ro 0, .of 48 47 .ro 0, .of 46 30 .ro 0, .of 29 23 .ro 0]
  | .MEM_ECC_ADDR => [.of 47 6 .ro 0]
  | .MEM_BIST => [.of 63 63 .w1c 0, .of 62 62 .ro 0, .of 55 48 .ro 0, .of 8 8 .wo 0, .of 7 7 .rw 0, .of 2 0 .rw 0]
  | .MEM_Q => [.of 23 16 .ro 0, .of 15 8 .ro 0, .of 7 0 .ro 0]
  | .MEM_CNT => [.of 63 0 .rw 0]
  | .MEM_PHY_TEST => [.of 63 0 .wo 0]
  | _ => []

/-- The rows of the register tables of block TTU. -/
def RegName.fieldsTtu : RegName → List FieldRow
  | .TTU_CTL => [.ranged 47 32 .rw 10 1 60000, .ranged 25 16 .rw 100 1 1000, .ranged 9 0 .rw 50 1 1000]
  | .TTU_STAT => [.of 63 63 .w1c 0, .of 62 62 .w1c 0, .of 39 32 .ro 0, .of 31 16 .rw 0, .of 15 0 .rw 0]
  | .TTU_IRQ => [.of 31 0 .rw 0]
  | .TTU_IRQ_STAT => [.of 2 2 .w1c 0, .of 1 1 .w1c 0, .of 0 0 .w1c 0]
  | .TTU_DDT => [.of 47 12 .rw 0, .of 0 0 .rw 0]
  | .TTU_WALK_BASE => [.of 63 63 .rw 0, .of 47 12 .rw 0]
  | .TTU_WALK_LIMIT => [.of 47 12 .rw 0]
  | .TTU_FQ_BASE => [.of 63 63 .act 0, .of 47 12 .rw 0, .of 4 0 .act 0]
  | .TTU_FQ_TAIL => [.of 31 0 .ro 0]
  | .TTU_FQ_HEAD => [.of 31 0 .rw 0]
  | .TTU_PQ_BASE => [.of 63 63 .act 0, .of 47 12 .rw 0, .of 4 0 .act 0]
  | .TTU_PQ_TAIL => [.of 31 0 .ro 0]
  | .TTU_PQ_HEAD => [.of 31 0 .rw 0]
  | .TTU_INV_CMD => [.of 63 60 .wo 0, .of 59 59 .wo 0, .of 39 20 .wo 0, .of 19 16 .wo 0, .of 15 0 .wo 0]
  | .TTU_INV_ADDR => [.of 47 12 .rw 0, .of 5 0 .rw 0]
  | .TTU_INV_STAT => [.of 63 63 .w1c 0, .of 62 62 .ro 0, .of 61 61 .w1c 0, .of 7 0 .ro 0]
  | .TTU_STALL_CMD => [.of 9 8 .wo 0, .of 7 0 .wo 0]
  | .TTU_PRI_RESP => [.of 63 60 .wo 0, .of 59 59 .wo 0, .of 48 40 .wo 0, .of 39 20 .wo 0, .of 19 16 .wo 0,
      .of 15 0 .wo 0]
  | .TTU_CNT => [.of 63 48 .rw 0, .of 47 32 .rw 0, .of 31 0 .rw 0]
  | .TTU_CACHE_TEST => [.of 63 0 .wo 0]
  | _ => []

/-- The rows of the register tables of block BLK. -/
def RegName.fieldsBlk : RegName → List FieldRow
  | .BLK_CTL => [.ranged 9 0 .rw 200 1 1000]
  | .BLK_ENG_CTL => [.of 15 8 .wo 0, .of 7 0 .act 255]
  | .BLK_ENG_STAT => [.of 63 32 .rw 0, .of 15 8 .ro 0, .of 7 0 .ro 0]
  | .BLK_BIND_CMD => [.of 63 60 .wo 0, .of 35 32 .wo 0, .of 25 20 .wo 0, .of 19 0 .wo 0]
  | .BLK_BIND_RESULT => [.of 13 8 .ro 0, .of 7 0 .ro 0]
  | .BLK_SLICE_CTL => [.of 63 63 .ro 0, .of 39 36 .ro 0, .of 31 12 .ro 0, .of 0 0 .wo 0]
  | .BLK_SLICE_STAT => [.of 63 63 .w1c 0, .of 62 62 .w1c 0, .of 61 61 .ro 0, .of 43 40 .ro 0, .of 39 32 .ro 0,
      .of 10 0 .ro 0]
  | .BLK_SLICE_TIME => [.of 63 0 .rw 0]
  | .BLK_ENG_TEST => [.of 63 0 .wo 0]
  | _ => []

/-- The rows of the register tables of block EVC. -/
def RegName.fieldsEvc : RegName → List FieldRow
  | .EVC_SRC_CTL => [.of 63 32 .rw 0, .ranged 31 24 .rw 16 1 255, .ranged 21 16 .rw 40 10 48, .of 8 8 .rw 1,
      .of 7 7 .rw 1, .of 6 6 .rw 0, .of 4 4 .rw 0]
  | .EVC_SRC_STAT => [.of 63 48 .rw 0, .of 39 32 .ro 0, .of 31 0 .ro 0]
  | .EVC_SEV => [.of 63 0 .w1c 0]
  | .EVC_STAT => [.of 63 63 .ro 0, .of 25 16 .ro 0, .of 3 0 .ro 0]
  | .EVC_SAFE => [.of 0 0 .wo 0]
  | .EVC_PIN => [.of 63 32 .rw 0, .of 9 9 .ro 0, .of 8 8 .ro 0, .of 0 0 .rw 1]
  | .EVC_FIRST => [.of 63 63 .w1c 0, .of 9 0 .ro 0]
  | .EVC_FIRST_RING => [.of 63 0 .ro 0]
  | .EVC_CAP_TAIL => [.of 31 0 .ro 0]
  | .EVC_CAP_HEAD => [.of 31 0 .rw 0]
  | .EVC_CAP_DROP => [.of 31 0 .rw 0]
  | .EVC_CAP => [.of 63 0 .ro 0]
  | _ => []

/-- The rows of the register tables of block CMP. -/
def RegName.fieldsCmp : RegName → List FieldRow
  | .CMP_CTL => [.of 0 0 .rw 0]
  | .CMP_STAT => [.of 63 63 .ro 0]
  | .CMP_PEND => [.of 63 0 .w1c 0]
  | .CMP_WIRE => [.of 63 0 .w1c 0]
  | .CMP_MASK => [.of 63 0 .rw 0]
  | .CMP_IRQ => [.of 31 0 .rw 0]
  | .CMP_SEL => [.of 15 15 .rw 0, .of 9 0 .rw 0]
  | .CMP_WIRE_INJ => [.of 63 0 .wo 0]
  | _ => []

/-- The rows of the register tables of block PWR. -/
def RegName.fieldsPwr : RegName → List FieldRow
  | .PWR_PKG_CTL => [.of 23 16 .ro 0, .of 11 8 .ro 0, .of 7 4 .ro 0, .of 1 0 .wo 0]
  | .PWR_BOUGH_CTL => [.of 63 63 .w1c 0, .of 62 62 .ro 0, .of 55 48 .ro 0, .of 23 16 .ro 0, .of 12 12 .wo 0,
      .of 9 8 .rw 0, .of 4 0 .rw 0]
  | .PWR_HS_LAST => [.of 63 63 .w1c 0, .of 55 48 .ro 0, .of 41 32 .ro 0, .of 31 0 .ro 0]
  | .PWR_HS_CNT => [.of 63 32 .rw 0, .of 31 0 .rw 0]
  | .PWR_HS_BOUND => [.ranged 9 0 .rw 100 1 1000]
  | .PWR_BSTATE => [.of 1 0 .ro 0, .of 3 2 .ro 0, .of 5 4 .ro 0, .of 7 6 .ro 0, .of 9 8 .ro 0, .of 11 10 .ro 0,
      .of 13 12 .ro 0, .of 15 14 .ro 0, .of 17 16 .ro 0, .of 19 18 .ro 0, .of 21 20 .ro 0, .of 23 22 .ro 0,
      .of 25 24 .ro 0, .of 27 26 .ro 0, .of 29 28 .ro 0, .of 31 30 .ro 0, .of 33 32 .ro 0, .of 35 34 .ro 0,
      .of 37 36 .ro 0, .of 39 38 .ro 0, .of 41 40 .ro 0, .of 43 42 .ro 0, .of 45 44 .ro 0, .of 47 46 .ro 0,
      .of 49 48 .ro 0, .of 51 50 .ro 0, .of 53 52 .ro 0, .of 55 54 .ro 0]
  | .PWR_RTC => [.of 47 0 .rw 0]
  | .PWR_RTC_ALARM => [.of 63 63 .rw 0, .of 62 62 .w1c 0, .of 47 0 .rw 0]
  | _ => []

/-- The rows of the register tables of block CLK. -/
def RegName.fieldsClk : RegName → List FieldRow
  | .CLK_STAT => [.of 63 63 .ro 0, .of 1 0 .ro 0, .of 3 2 .ro 0, .of 5 4 .ro 0, .of 7 6 .ro 0]
  | _ => []

/-- The rows of the register tables of block RST. -/
def RegName.fieldsRst : RegName → List FieldRow
  | .RST_CMD => [.of 63 63 .w1c 0, .of 62 62 .ro 0, .of 55 48 .ro 0, .of 15 12 .wo 0, .of 8 0 .rw 0]
  | .RST_CAUSE => [.of 47 32 .ro 0, .of 5 5 .ro 0, .of 4 4 .ro 0, .of 3 3 .ro 0, .of 2 2 .ro 0, .of 1 1 .ro 0,
      .of 0 0 .ro 1]
  | _ => []

/-- The rows of the register tables of block AGE. -/
def RegName.fieldsAge : RegName → List FieldRow
  | .AGE_CTL => [.ranged 37 32 .rw 8 1 63, .of 15 0 .rw 1024]
  | .AGE_CMD => [.of 63 63 .ro 0, .of 0 0 .wo 0]
  | .AGE_DIE => [.of 63 63 .w1c 0, .of 62 62 .ro 0, .of 39 32 .ro 0, .of 23 16 .ro 0, .of 15 8 .ro 20, .of 7 0 .ro 0]
  | .AGE_RAW => [.of 63 0 .wo 0]
  | _ => []

/-- The rows of the register tables of block MBX. -/
def RegName.fieldsMbx : RegName → List FieldRow
  | .MBX_CMD => [.of 45 32 .wo 0, .of 31 16 .wo 0, .of 7 0 .wo 0]
  | .MBX_STAT => [.of 63 63 .w1c 0, .of 62 62 .ro 0, .of 61 61 .w1c 0, .of 45 32 .ro 0, .of 31 16 .ro 0,
      .of 7 0 .ro 0]
  | .MBX_IRQ => [.of 31 0 .rw 0]
  | .MBX_FW => [.of 63 63 .ro 0, .of 62 62 .ro 0, .of 57 56 .ro 0, .of 54 54 .ro 0, .of 53 48 .ro 0, .of 31 0 .ro 0]
  | .MBX_DENY => [.of 31 0 .rw 0]
  | .MBX_BMC => [.of 63 48 .rw 0, .of 47 32 .rw 0, .of 31 0 .rw 0]
  | .MBX_DATA => [.of 63 0 .act 0]
  | .MBX_ROM_TEST => [.of 63 0 .wo 0]
  | _ => []

/-- The rows of the register tables of block HIO. -/
def RegName.fieldsHio : RegName → List FieldRow
  | .HIO_CFG => [.of 8 8 .act 0, .of 5 4 .act 0, .of 3 0 .act 0]
  | .HIO_STAT => [.of 63 48 .rw 0, .of 35 32 .ro 0, .of 31 28 .ro 0]
  | .HIO_CXL => [.of 63 63 .act 0, .of 62 62 .ro 0, .of 10 0 .act 0]
  | .HIO_PHY_TEST => [.of 63 0 .wo 0]
  | _ => []

/-- The rows of the register tables of block DB. -/
def RegName.fieldsDb : RegName → List FieldRow
  | .DB_RING => [.of 63 63 .act 0, .of 47 12 .act 0]
  | .DB_COMP => [.of 47 12 .act 0]
  | .DB_MSI => [.of 63 63 .act 0, .of 10 0 .act 0]
  | .DB_TAIL => [.of 31 0 .act 0]
  | .DB_STAT => [.of 63 60 .ro 0, .of 59 56 .ro 0, .of 55 48 .ro 0, .of 31 0 .ro 0]
  | _ => []

/-- The rows of the register tables of block BGH. -/
def RegName.fieldsBgh : RegName → List FieldRow
  | .BGH_ID => [.of 31 24 .ro 0, .of 22 20 .ro 0, .of 17 16 .ro 0, .of 12 8 .ro 0, .of 4 0 .ro 0]
  | .BGH_RESET_VEC => [.of 47 2 .rw 0]
  | .BGH_RNMI_VEC => [.of 47 2 .rw 0]
  | .BGH_RNMI_EXC => [.of 47 2 .rw 0]
  | .BGH_MTIME => [.of 63 0 .ro 0]
  | .BGH_LEAF_STAT => [.of 15 8 .ro 0, .of 3 3 .ro 0, .of 2 2 .ro 1, .of 1 0 .ro 0]
  | .BGH_MTIMECMP => [.of 63 0 .act 18446744073709551615]
  | .BGH_RESIDUE_INJ => [.of 63 0 .wo 0]
  | .BGH_CDC_LOG => [.of 63 63 .w1c 0, .of 62 60 .ro 0, .of 43 32 .ro 0, .of 31 0 .ro 0]
  | .BGH_CDC_CNT => [.of 63 32 .rw 0, .of 31 0 .rw 0]
  | _ => []

/-- The rows of the register tables of block L3C. -/
def RegName.fieldsL3c : RegName → List FieldRow
  | .L3C_CTL => [.of 0 0 .act 1]
  | .L3C_STAT => [.of 2 2 .w1c 0, .of 1 1 .ro 0, .of 0 0 .ro 0]
  | .L3C_EVB => [.of 31 0 .ro 0]
  | .L3C_LOCK_ADDR => [.of 47 6 .rw 0]
  | .L3C_LOCK_LEN => [.of 23 0 .rw 0]
  | .L3C_LOCK_CMD => [.of 31 16 .wo 0, .of 7 0 .wo 0]
  | .L3C_LOCK_STAT => [.of 63 63 .w1c 0, .of 62 62 .ro 0, .of 55 48 .ro 0, .of 47 24 .ro 0, .of 23 0 .ro 0]
  | .L3C_LOCK_FAIL => [.of 47 6 .ro 0]
  | .L3C_LOCK_WAYS => [.of 15 0 .ro 0]
  | .L3C_CNT => [.of 63 0 .rw 0]
  | .L3C_ARRAY_TEST => [.of 63 0 .wo 0]
  | _ => []

/-- The rows of the register tables of block GRFB. -/
def RegName.fieldsGrfb : RegName → List FieldRow
  | .GRFB_STAT => [.of 63 56 .ro 0, .of 51 48 .ro 0, .of 39 36 .ro 0, .of 35 32 .ro 0, .of 7 4 .ro 0, .of 2 0 .ro 0]
  | .GRFB_CTL => [.of 16 16 .wo 0, .ranged 12 8 .rw 31 16 31, .ranged 7 0 .rw 8 1 255]
  | .GRFB_LANE_FAIL => [.of 63 0 .ro 0]
  | .GRFB_LANE_MASK => [.of 63 0 .act 0]
  | .GRFB_SPARE => [.of 7 7 .ro 0, .of 6 0 .ro 0, .of 15 15 .ro 0, .of 14 8 .ro 0, .of 23 23 .ro 0, .of 22 16 .ro 0,
      .of 31 31 .ro 0, .of 30 24 .ro 0, .of 39 39 .ro 0, .of 38 32 .ro 0, .of 47 47 .ro 0, .of 46 40 .ro 0,
      .of 55 55 .ro 0, .of 54 48 .ro 0, .of 63 63 .ro 0, .of 62 56 .ro 0]
  | .GRFB_LANE_ERR => [.of 47 32 .ro 0, .of 8 0 .rw 0]
  | .GRFB_CNT => [.of 63 48 .rw 0, .of 47 32 .rw 0, .of 31 0 .rw 0]
  | .GRFB_TRAIN_HEAD => [.of 63 63 .ro 0, .of 2 0 .ro 0]
  | .GRFB_TRAIN_LOG => [.of 63 63 .ro 0, .of 62 55 .ro 0, .of 54 53 .ro 0, .of 52 49 .ro 0, .of 48 45 .ro 0,
      .of 44 41 .ro 0, .of 40 36 .ro 0, .of 31 0 .ro 0]
  | _ => []

/-- The rows of the register tables of block BPW. -/
def RegName.fieldsBpw : RegName → List FieldRow
  | .BPW_HS_CNT => [.of 63 32 .rw 0, .of 31 0 .rw 0]
  | .BPW_STAT => [.of 47 32 .w1c 0, .of 9 9 .ro 0, .of 8 8 .w1c 0]
  | .BPW_CLK_SW => [.of 15 0 .act 0]
  | .BPW_LEAF_PWR => [.of 19 16 .rw 15, .of 15 0 .rw 0]
  | .BPW_FIC_TRIM => [.of 63 0 .wo 0]
  | _ => []

/-- The rows of the register tables of block PRT. -/
def RegName.fieldsPrt : RegName → List FieldRow
  | .PRT_SLOG_LOC => [.of 63 0 .ro 0]
  | .PRT_SLOG_INFO => [.of 63 63 .w1c 0, .of 62 62 .ro 0, .of 61 61 .ro 0, .of 47 32 .ro 0, .of 31 0 .ro 0]
  | .PRT_L3LOG_LOC => [.of 63 0 .ro 0]
  | .PRT_L3LOG_INFO => [.of 63 63 .w1c 0, .of 62 62 .ro 0, .of 61 61 .ro 0, .of 47 32 .ro 0, .of 31 0 .ro 0]
  | .PRT_CLOG_LOC => [.of 63 0 .ro 0]
  | .PRT_CLOG_INFO => [.of 63 63 .w1c 0, .of 62 62 .ro 0, .of 61 61 .ro 0, .of 47 32 .ro 0, .of 31 0 .ro 0]
  | .PRT_SREMAP => [.of 63 63 .act 0, .of 62 62 .ro 0, .of 61 61 .ro 0, .of 60 60 .ro 0, .of 59 59 .ro 0,
      .of 44 42 .ro 0, .of 41 32 .act 0, .of 31 0 .act 0]
  | .PRT_L3REMAP => [.of 63 63 .act 0, .of 62 62 .ro 0, .of 61 61 .ro 0, .of 60 60 .ro 0, .of 59 59 .ro 0,
      .of 44 42 .ro 0, .of 41 32 .act 0, .of 31 0 .act 0]
  | .PRT_CTL => [.of 17 17 .w1c 0, .of 16 16 .w1c 0, .of 0 0 .rw 1]
  | .PRT_CE_CNT => [.of 63 32 .rw 0, .of 31 16 .rw 0, .of 15 8 .rw 0, .of 7 0 .rw 0]
  | .PRT_SBIST => [.of 63 63 .w1c 0, .of 62 62 .ro 0, .of 55 48 .ro 0, .of 8 8 .wo 0, .of 3 0 .act 0]
  | .PRT_SBIST_FAIL => [.of 18 0 .ro 0]
  | .PRT_ERR_INJ => [.of 63 0 .wo 0]
  | _ => []

/-- The rows of the register tables of block LEE. -/
def RegName.fieldsLee : RegName → List FieldRow
  | .LEE_CTL => [.of 8 8 .wo 0, .of 3 3 .act 0, .of 2 1 .act 0, .of 0 0 .act 0]
  | .LEE_STAT => [.of 34 34 .w1c 0, .of 33 33 .w1c 0, .of 32 32 .w1c 0, .of 23 16 .ro 255, .of 12 12 .ro 0,
      .of 10 8 .ro 0, .of 4 4 .ro 0, .of 3 3 .ro 0, .of 2 2 .ro 0, .of 1 1 .ro 0, .of 0 0 .ro 0]
  | .LEE_PC => [.of 27 0 .act 0]
  | .LEE_CYCLE => [.of 48 48 .act 0, .of 39 0 .act 0]
  | .LEE_MAP0 => [.of 59 48 .act 0, .of 42 32 .act 0, .of 27 16 .act 0, .of 10 0 .act 0]
  | .LEE_MAP1 => [.of 43 32 .act 0, .of 26 16 .act 0, .of 10 0 .act 0]
  | .LEE_MAP2 => [.of 59 48 .act 0, .of 42 32 .act 0, .of 27 16 .act 0, .of 10 0 .act 0]
  | .LEE_FAULT => [.of 63 63 .w1c 0, .of 55 48 .ro 0, .of 43 40 .ro 0, .of 27 0 .ro 0]
  | .LEE_FAULT_INFO => [.of 63 0 .ro 0]
  | .LEE_TRAP => [.of 43 16 .ro 0, .of 15 0 .ro 0]
  | .LEE_DOORBELL => [.of 0 0 .wo 0]
  | .LEE_IRQ => [.of 31 0 .rw 0]
  | .LEE_IRQ_STAT => [.of 3 3 .w1c 0, .of 2 2 .w1c 0, .of 1 1 .w1c 0, .of 0 0 .w1c 0]
  | .LEE_LC01 => [.of 63 63 .act 0, .of 62 32 .act 0, .of 31 31 .act 0, .of 30 0 .act 0]
  | .LEE_LC23 => [.of 63 63 .act 0, .of 62 32 .act 0, .of 31 31 .act 0, .of 30 0 .act 0]
  | .LEE_XCH_STAT => [.of 63 63 .w1c 0, .of 62 62 .w1c 0, .of 61 61 .w1c 0, .of 60 60 .w1c 0, .of 47 32 .rw 0,
      .of 31 16 .rw 0, .of 15 0 .rw 0]
  | .LEE_BAR => [.of 40 40 .ro 0, .of 31 0 .ro 0]
  | .LEE_MMD_CFG => [.of 39 16 .act 0, .of 12 8 .act 0, .of 1 1 .act 0, .of 0 0 .act 0]
  | .LEE_MMD_BASE => [.of 47 0 .act 0]
  | .LEE_STIM_BASE => [.of 47 12 .act 0]
  | .LEE_STIM_CTL => [.of 63 32 .act 0, .of 4 0 .act 0]
  | .LEE_STIM_TAIL => [.of 31 0 .act 0]
  | .LEE_STREAM => [.of 47 16 .act 0]
  | .LEE_STREAM_STAT => [.of 63 63 .ro 0, .of 51 32 .ro 0, .of 31 31 .ro 0, .of 19 0 .ro 0]
  | .LEE_CNT => [.of 63 0 .rw 0]
  | .LEE_ERR_INJ => [.of 63 0 .wo 0]
  | _ => []

/-- The block each register lies in. -/
def RegName.block : RegName → Blk
  | .TRK_ID | .TRK_CAP | .TRK_CAP_IO | .TRK_ABSENT_CNT | .TRK_PKG_ID | .TRK_NUMA_DIST | .TRK_DECERR
  | .TRK_FW_LOG | .TRK_FW_CNT | .TRK_FW_BASE | .TRK_FW_LIMIT | .TRK_FW_ACC | .TRK_FW_CTL | .TRK_STRAP_OVR
  | .TRK_SCAN_CTL => .trk
  | .SIM_STAT | .SIM_VENDOR | .SIM_OWNER | .SIM_OTP | .SIM_SITEMAP | .SIM_UID_LO | .SIM_UID_HI
  | .SIM_OTP_PROG => .sim
  | .DIR_TMO | .DIR_TMO_LOG | .DIR_TMO_BOUGH | .DIR_STAT | .DIR_PURGE | .DIR_CNT | .DIR_ARRAY_TEST
  | .DIR_CE_LOG_LOC | .DIR_CE_LOG_INFO | .DIR_REMAP | .DIR_CE_CTL => .dir
  | .FAB_MG_CMD | .FAB_MG_RESULT | .FAB_MG_CTL | .FAB_MG_STAT | .FAB_MG_MEM | .FAB_MG_LAST | .FAB_MG_TOKINJ
  | .FAB_ROUTE_SWAP | .FAB_RT_SEL | .FAB_RT_DATA | .FAB_UNROUTE | .FAB_ISO | .FAB_ISO_STAT | .FAB_WAKE
  | .FAB_GATE_STAT | .FAB_GATE_LOG | .FAB_CDC_LOG | .FAB_CDC_CNT | .FAB_PROXY | .FAB_PEND | .FAB_LINK_INJ
  | .FAB_CDC_STOP => .fab
  | .GRF_STAT | .GRF_CTL | .GRF_LANE_FAIL | .GRF_LANE_MASK | .GRF_SPARE | .GRF_LANE_ERR | .GRF_CNT
  | .GRF_TRAIN_HEAD | .GRF_TRAIN_LOG | .GRF_EYE_SCAN => .grft
  | .SPN_CTL | .SPN_STAT | .SPN_TIME | .SPN_XCH_TMO | .SPN_FEC | .SPN_CNT | .SPN_ROUTE | .SPN_PRBS => .spn
  | .TIM_COUNT | .TIM_STEP | .TIM_STAT | .TIM_SITE => .tim
  | .TRC_CTL | .TRC_STAT | .TRC_BMAP | .TRC_IRQ | .TRC_IRQ_STAT | .TRC_RING_BASE | .TRC_RING_CTL
  | .TRC_RING_WR | .TRC_RING_RD | .TRC_RING_DROP | .TRC_PACK | .TRC_BUF_TEST => .trc
  | .MEM_CFG | .MEM_STAT | .MEM_CTL | .MEM_IL | .MEM_XOR | .MEM_INIT | .MEM_TRAIN | .MEM_SCRUB | .MEM_ECC_CNT
  | .MEM_CE_CTL | .MEM_ECC_LOG | .MEM_ECC_ADDR | .MEM_BIST | .MEM_Q | .MEM_CNT | .MEM_PHY_TEST => .mem
  | .TTU_CTL | .TTU_STAT | .TTU_IRQ | .TTU_IRQ_STAT | .TTU_DDT | .TTU_WALK_BASE | .TTU_WALK_LIMIT
  | .TTU_FQ_BASE | .TTU_FQ_TAIL | .TTU_FQ_HEAD | .TTU_PQ_BASE | .TTU_PQ_TAIL | .TTU_PQ_HEAD | .TTU_INV_CMD
  | .TTU_INV_ADDR | .TTU_INV_STAT | .TTU_STALL_CMD | .TTU_PRI_RESP | .TTU_CNT | .TTU_CACHE_TEST => .ttu
  | .BLK_CTL | .BLK_ENG_CTL | .BLK_ENG_STAT | .BLK_BIND_CMD | .BLK_BIND_RESULT | .BLK_SLICE_CTL
  | .BLK_SLICE_STAT | .BLK_SLICE_TIME | .BLK_ENG_TEST => .blk
  | .EVC_SRC_CTL | .EVC_SRC_STAT | .EVC_SEV | .EVC_STAT | .EVC_SAFE | .EVC_PIN | .EVC_FIRST | .EVC_FIRST_RING
  | .EVC_CAP_TAIL | .EVC_CAP_HEAD | .EVC_CAP_DROP | .EVC_CAP => .evc
  | .CMP_CTL | .CMP_STAT | .CMP_PEND | .CMP_WIRE | .CMP_MASK | .CMP_IRQ | .CMP_SEL | .CMP_WIRE_INJ => .cmp
  | .PWR_PKG_CTL | .PWR_BOUGH_CTL | .PWR_HS_LAST | .PWR_HS_CNT | .PWR_HS_BOUND | .PWR_BSTATE | .PWR_RTC
  | .PWR_RTC_ALARM => .pwr
  | .CLK_STAT => .clk
  | .RST_CMD | .RST_CAUSE => .rst
  | .AGE_CTL | .AGE_CMD | .AGE_DIE | .AGE_RAW => .age
  | .MBX_CMD | .MBX_STAT | .MBX_IRQ | .MBX_FW | .MBX_DENY | .MBX_BMC | .MBX_DATA | .MBX_ROM_TEST => .mbx
  | .HIO_CFG | .HIO_STAT | .HIO_CXL | .HIO_PHY_TEST => .hio
  | .DB_RING | .DB_COMP | .DB_MSI | .DB_TAIL | .DB_STAT => .db
  | .BGH_ID | .BGH_RESET_VEC | .BGH_RNMI_VEC | .BGH_RNMI_EXC | .BGH_MTIME | .BGH_LEAF_STAT | .BGH_MTIMECMP
  | .BGH_RESIDUE_INJ | .BGH_CDC_LOG | .BGH_CDC_CNT => .bgh
  | .L3C_CTL | .L3C_STAT | .L3C_EVB | .L3C_LOCK_ADDR | .L3C_LOCK_LEN | .L3C_LOCK_CMD | .L3C_LOCK_STAT
  | .L3C_LOCK_FAIL | .L3C_LOCK_WAYS | .L3C_CNT | .L3C_ARRAY_TEST => .l3c
  | .GRFB_STAT | .GRFB_CTL | .GRFB_LANE_FAIL | .GRFB_LANE_MASK | .GRFB_SPARE | .GRFB_LANE_ERR | .GRFB_CNT
  | .GRFB_TRAIN_HEAD | .GRFB_TRAIN_LOG => .grfb
  | .BPW_HS_CNT | .BPW_STAT | .BPW_CLK_SW | .BPW_LEAF_PWR | .BPW_FIC_TRIM => .bpw
  | .PRT_SLOG_LOC | .PRT_SLOG_INFO | .PRT_L3LOG_LOC | .PRT_L3LOG_INFO | .PRT_CLOG_LOC | .PRT_CLOG_INFO
  | .PRT_SREMAP | .PRT_L3REMAP | .PRT_CTL | .PRT_CE_CNT | .PRT_SBIST | .PRT_SBIST_FAIL | .PRT_ERR_INJ => .prt
  | .LEE_CTL | .LEE_STAT | .LEE_PC | .LEE_CYCLE | .LEE_MAP0 | .LEE_MAP1 | .LEE_MAP2 | .LEE_FAULT
  | .LEE_FAULT_INFO | .LEE_TRAP | .LEE_DOORBELL | .LEE_IRQ | .LEE_IRQ_STAT | .LEE_LC01 | .LEE_LC23
  | .LEE_XCH_STAT | .LEE_BAR | .LEE_MMD_CFG | .LEE_MMD_BASE | .LEE_STIM_BASE | .LEE_STIM_CTL | .LEE_STIM_TAIL
  | .LEE_STREAM | .LEE_STREAM_STAT | .LEE_CNT | .LEE_ERR_INJ => .lee

/-- The rows of each register. DESIGN CHOICE, assumption 11. -/
def RegName.fields (n : RegName) : List FieldRow :=
  match n.block with
  | .trk => n.fieldsTrk
  | .sim => n.fieldsSim
  | .dir => n.fieldsDir
  | .fab => n.fieldsFab
  | .grft => n.fieldsGrft
  | .spn => n.fieldsSpn
  | .tim => n.fieldsTim
  | .trc => n.fieldsTrc
  | .mem => n.fieldsMem
  | .ttu => n.fieldsTtu
  | .blk => n.fieldsBlk
  | .evc => n.fieldsEvc
  | .cmp => n.fieldsCmp
  | .pwr => n.fieldsPwr
  | .clk => n.fieldsClk
  | .rst => n.fieldsRst
  | .age => n.fieldsAge
  | .mbx => n.fieldsMbx
  | .hio => n.fieldsHio
  | .db => n.fieldsDb
  | .bgh => n.fieldsBgh
  | .l3c => n.fieldsL3c
  | .grfb => n.fieldsGrfb
  | .bpw => n.fieldsBpw
  | .prt => n.fieldsPrt
  | .lee => n.fieldsLee

/-- A place in a block's table of registers: the offset in the block, and one or two strides with their counts. -/
structure RegRow where
  name : RegName
  off : Nat
  s1 : Nat := 0
  n1 : Nat := 1
  s2 : Nat := 0
  n2 : Nat := 1
deriving DecidableEq, Repr

/-- A single register. -/
def RegRow.at (n : RegName) (off : Nat) : RegRow := ⟨n, off, 0, 1, 0, 1⟩

/-- An array of registers: stride and count, and a second stride and count. -/
def RegRow.arr (n : RegName) (off s1 n1 s2 n2 : Nat) : RegRow := ⟨n, off, s1, n1, s2, n2⟩

/-- The registers of each block with their offsets. -/
def Blk.rows : Blk → List RegRow
  | .trk => [
      .at .TRK_ID 0x0, .at .TRK_CAP 0x8, .at .TRK_CAP_IO 0x10, .at .TRK_ABSENT_CNT 0x18, .at .TRK_PKG_ID 0x20,
      .arr .TRK_NUMA_DIST 0x28 8 4 0 1, .at .TRK_DECERR 0x48, .at .TRK_FW_LOG 0x800, .at .TRK_FW_CNT 0x808,
      .arr .TRK_FW_BASE 0x1000 32 64 0 1, .arr .TRK_FW_LIMIT 0x1008 32 64 0 1, .arr .TRK_FW_ACC 0x1010 32 64 0 1,
      .arr .TRK_FW_CTL 0x1018 32 64 0 1, .at .TRK_STRAP_OVR 0xF00, .at .TRK_SCAN_CTL 0xF08]
  | .sim => [
      .at .SIM_STAT 0x0, .at .SIM_VENDOR 0x8, .at .SIM_OWNER 0x10, .at .SIM_OTP 0x18, .arr .SIM_SITEMAP 0x20 8 4 0 1,
      .at .SIM_UID_LO 0x40, .at .SIM_UID_HI 0x48, .at .SIM_OTP_PROG 0xF00]
  | .dir => [
      .at .DIR_TMO 0x0, .at .DIR_TMO_LOG 0x8, .arr .DIR_TMO_BOUGH 0x10 8 2 0 1, .at .DIR_STAT 0x20,
      .at .DIR_PURGE 0x28, .arr .DIR_CNT 0x100 8 8 0 1, .at .DIR_ARRAY_TEST 0xF00,
      .arr .DIR_CE_LOG_LOC 0x200 16 16 0 1, .arr .DIR_CE_LOG_INFO 0x208 16 16 0 1, .arr .DIR_REMAP 0x300 8 16 0 1,
      .at .DIR_CE_CTL 0x400]
  | .fab => [
      .at .FAB_MG_CMD 0x11000, .at .FAB_MG_RESULT 0x11008, .arr .FAB_MG_CTL 0x10000 256 16 0 1,
      .arr .FAB_MG_STAT 0x10008 256 16 0 1, .arr .FAB_MG_MEM 0x10010 256 16 8 6,
      .arr .FAB_MG_LAST 0x10040 256 16 0 1, .at .FAB_MG_TOKINJ 0x11F00, .at .FAB_ROUTE_SWAP 0x0, .at .FAB_RT_SEL 0x8,
      .at .FAB_RT_DATA 0x10, .at .FAB_UNROUTE 0x18, .at .FAB_ISO 0x100, .at .FAB_ISO_STAT 0x108, .at .FAB_WAKE 0x110,
      .at .FAB_GATE_STAT 0x118, .at .FAB_GATE_LOG 0x120, .at .FAB_CDC_LOG 0x200, .at .FAB_CDC_CNT 0x208,
      .arr .FAB_PROXY 0x2000 8 28 0 1, .arr .FAB_PEND 0x3000 8 28 0 1, .at .FAB_LINK_INJ 0xF00,
      .at .FAB_CDC_STOP 0xF08]
  | .grft => [
      .at .GRF_STAT 0x0, .at .GRF_CTL 0x8, .arr .GRF_LANE_FAIL 0x10 8 5 0 1, .arr .GRF_LANE_MASK 0x38 8 5 0 1,
      .at .GRF_SPARE 0x60, .at .GRF_LANE_ERR 0x68, .at .GRF_CNT 0x70, .at .GRF_TRAIN_HEAD 0xF8,
      .arr .GRF_TRAIN_LOG 0x100 8 8 0 1, .at .GRF_EYE_SCAN 0xF00]
  | .spn => [
      .at .SPN_CTL 0x0, .at .SPN_STAT 0x8, .at .SPN_TIME 0x10, .at .SPN_XCH_TMO 0x18, .at .SPN_FEC 0x20,
      .at .SPN_CNT 0x28, .arr .SPN_ROUTE 0x8000 8 64 0 1, .at .SPN_PRBS 0xF00]
  | .tim => [
      .at .TIM_COUNT 0x0, .at .TIM_STEP 0x8, .at .TIM_STAT 0x10, .arr .TIM_SITE 0x100 8 28 0 1]
  | .trc => [
      .at .TRC_CTL 0x0, .at .TRC_STAT 0x8, .at .TRC_BMAP 0x10, .at .TRC_IRQ 0x18, .at .TRC_IRQ_STAT 0x20,
      .arr .TRC_RING_BASE 0x100 64 4 0 1, .arr .TRC_RING_CTL 0x108 64 4 0 1, .arr .TRC_RING_WR 0x110 64 4 0 1,
      .arr .TRC_RING_RD 0x118 64 4 0 1, .arr .TRC_RING_DROP 0x120 64 4 0 1, .arr .TRC_PACK 0x400 8 28 0 1,
      .at .TRC_BUF_TEST 0xF00]
  | .mem => [
      .at .MEM_CFG 0x0, .at .MEM_STAT 0x8, .at .MEM_CTL 0x10, .at .MEM_IL 0x18, .arr .MEM_XOR 0x20 8 6 0 1,
      .at .MEM_INIT 0x50, .at .MEM_TRAIN 0x58, .at .MEM_SCRUB 0x60, .at .MEM_ECC_CNT 0x68, .at .MEM_CE_CTL 0x70,
      .at .MEM_ECC_LOG 0x78, .at .MEM_ECC_ADDR 0x80, .at .MEM_BIST 0x88, .at .MEM_Q 0x90,
      .arr .MEM_CNT 0x100 8 4 0 1, .at .MEM_PHY_TEST 0xF00]
  | .ttu => [
      .at .TTU_CTL 0x0, .at .TTU_STAT 0x8, .at .TTU_IRQ 0x10, .at .TTU_IRQ_STAT 0x18, .arr .TTU_DDT 0x100 8 9 0 1,
      .arr .TTU_WALK_BASE 0x200 16 4 0 1, .arr .TTU_WALK_LIMIT 0x208 16 4 0 1, .at .TTU_FQ_BASE 0x300,
      .at .TTU_FQ_TAIL 0x308, .at .TTU_FQ_HEAD 0x310, .at .TTU_PQ_BASE 0x320, .at .TTU_PQ_TAIL 0x328,
      .at .TTU_PQ_HEAD 0x330, .at .TTU_INV_CMD 0x400, .at .TTU_INV_ADDR 0x408, .at .TTU_INV_STAT 0x410,
      .at .TTU_STALL_CMD 0x500, .at .TTU_PRI_RESP 0x508, .at .TTU_CNT 0x600, .at .TTU_CACHE_TEST 0xF00]
  | .blk => [
      .at .BLK_CTL 0x0, .at .BLK_ENG_CTL 0x8, .at .BLK_ENG_STAT 0x10, .at .BLK_BIND_CMD 0x100,
      .at .BLK_BIND_RESULT 0x108, .arr .BLK_SLICE_CTL 0x1000 16 64 0 1, .arr .BLK_SLICE_STAT 0x1008 16 64 0 1,
      .arr .BLK_SLICE_TIME 0x2000 8 64 0 1, .at .BLK_ENG_TEST 0xF00]
  | .evc => [
      .arr .EVC_SRC_CTL 0x0 16 1024 0 1, .arr .EVC_SRC_STAT 0x8 16 1024 0 1, .arr .EVC_SEV 0x4000 8 16 0 1,
      .at .EVC_STAT 0x4100, .at .EVC_SAFE 0x4108, .at .EVC_PIN 0x4110, .at .EVC_FIRST 0x4200,
      .at .EVC_FIRST_RING 0x4208, .at .EVC_CAP_TAIL 0x4300, .at .EVC_CAP_HEAD 0x4308, .at .EVC_CAP_DROP 0x4310,
      .arr .EVC_CAP 0x8000 32 64 8 4]
  | .cmp => [
      .at .CMP_CTL 0x0, .at .CMP_STAT 0x8, .arr .CMP_PEND 0x10 8 2 0 1, .arr .CMP_WIRE 0x20 8 2 0 1,
      .arr .CMP_MASK 0x30 8 2 0 1, .at .CMP_IRQ 0x40, .arr .CMP_SEL 0x100 8 128 0 1, .at .CMP_WIRE_INJ 0xF00]
  | .pwr => [
      .at .PWR_PKG_CTL 0x0, .at .PWR_BOUGH_CTL 0x8, .at .PWR_HS_LAST 0x10, .at .PWR_HS_CNT 0x18,
      .at .PWR_HS_BOUND 0x20, .at .PWR_BSTATE 0x28, .at .PWR_RTC 0x100, .at .PWR_RTC_ALARM 0x108]
  | .clk => [
      .at .CLK_STAT 0x0]
  | .rst => [
      .at .RST_CMD 0x0, .at .RST_CAUSE 0x8]
  | .age => [
      .at .AGE_CTL 0x0, .at .AGE_CMD 0x8, .arr .AGE_DIE 0x100 8 29 0 1, .at .AGE_RAW 0xF00]
  | .mbx => [
      .at .MBX_CMD 0x0, .at .MBX_STAT 0x8, .at .MBX_IRQ 0x10, .at .MBX_FW 0x18, .at .MBX_DENY 0x20,
      .at .MBX_BMC 0x28, .arr .MBX_DATA 0x10000 8 1024 0 1, .at .MBX_ROM_TEST 0xF00]
  | .hio => [
      .at .HIO_CFG 0x0, .at .HIO_STAT 0x8, .at .HIO_CXL 0x10, .at .HIO_PHY_TEST 0xF00]
  | .db => [
      .arr .DB_RING 0x0 64 1024 0 1, .arr .DB_COMP 0x8 64 1024 0 1, .arr .DB_MSI 0x10 64 1024 0 1,
      .arr .DB_TAIL 0x18 64 1024 0 1, .arr .DB_STAT 0x20 64 1024 0 1]
  | .bgh => [
      .at .BGH_ID 0x0, .at .BGH_RESET_VEC 0x100, .at .BGH_RNMI_VEC 0x108, .at .BGH_RNMI_EXC 0x110,
      .at .BGH_MTIME 0x200, .arr .BGH_LEAF_STAT 0x300 8 16 0 1, .arr .BGH_MTIMECMP 0x1000 8 16 0 1,
      .at .BGH_RESIDUE_INJ 0xF00, .at .BGH_CDC_LOG 0x400, .at .BGH_CDC_CNT 0x408]
  | .l3c => [
      .at .L3C_CTL 0x0, .at .L3C_STAT 0x8, .at .L3C_EVB 0x10, .at .L3C_LOCK_ADDR 0x100, .at .L3C_LOCK_LEN 0x108,
      .at .L3C_LOCK_CMD 0x110, .at .L3C_LOCK_STAT 0x118, .at .L3C_LOCK_FAIL 0x120, .at .L3C_LOCK_WAYS 0x128,
      .arr .L3C_CNT 0x200 8 4 0 1, .at .L3C_ARRAY_TEST 0xF00]
  | .grfb => [
      .arr .GRFB_STAT 0x0 1024 3 0 1, .arr .GRFB_CTL 0x8 1024 3 0 1, .arr .GRFB_LANE_FAIL 0x10 1024 3 8 5,
      .arr .GRFB_LANE_MASK 0x38 1024 3 8 5, .arr .GRFB_SPARE 0x60 1024 3 0 1, .arr .GRFB_LANE_ERR 0x68 1024 3 0 1,
      .arr .GRFB_CNT 0x70 1024 3 0 1, .arr .GRFB_TRAIN_HEAD 0xF8 1024 3 0 1, .arr .GRFB_TRAIN_LOG 0x100 1024 3 8 8]
  | .bpw => [
      .arr .BPW_HS_CNT 0x100 8 17 0 1, .at .BPW_STAT 0x0, .at .BPW_CLK_SW 0x8, .at .BPW_LEAF_PWR 0x10,
      .at .BPW_FIC_TRIM 0xF00]
  | .prt => [
      .arr .PRT_SLOG_LOC 0x0 256 16 16 8, .arr .PRT_SLOG_INFO 0x8 256 16 16 8, .arr .PRT_L3LOG_LOC 0x2000 16 16 0 1,
      .arr .PRT_L3LOG_INFO 0x2008 16 16 0 1, .arr .PRT_CLOG_LOC 0x2200 16 16 0 1,
      .arr .PRT_CLOG_INFO 0x2208 16 16 0 1, .arr .PRT_SREMAP 0x1000 64 16 8 8, .arr .PRT_L3REMAP 0x2100 8 16 0 1,
      .at .PRT_CTL 0x3000, .at .PRT_CE_CNT 0x3008, .at .PRT_SBIST 0x3100, .at .PRT_SBIST_FAIL 0x3108,
      .at .PRT_ERR_INJ 0x3F00]
  | .lee => [
      .at .LEE_CTL 0x0, .at .LEE_STAT 0x8, .at .LEE_PC 0x10, .at .LEE_CYCLE 0x18, .at .LEE_MAP0 0x20,
      .at .LEE_MAP1 0x28, .at .LEE_MAP2 0x30, .at .LEE_FAULT 0x40, .at .LEE_FAULT_INFO 0x48, .at .LEE_TRAP 0x50,
      .at .LEE_DOORBELL 0x58, .at .LEE_IRQ 0x60, .at .LEE_IRQ_STAT 0x68, .at .LEE_LC01 0x70, .at .LEE_LC23 0x78,
      .at .LEE_XCH_STAT 0x80, .at .LEE_BAR 0x88, .arr .LEE_MMD_CFG 0x100 16 8 0 1, .arr .LEE_MMD_BASE 0x108 16 8 0 1,
      .at .LEE_STIM_BASE 0x200, .at .LEE_STIM_CTL 0x208, .at .LEE_STIM_TAIL 0x210, .at .LEE_STREAM 0x220,
      .at .LEE_STREAM_STAT 0x228, .arr .LEE_CNT 0x300 8 8 0 1, .at .LEE_ERR_INJ 0xF00]

/-- A named field of a register: the register and its bits [hi:lo]. -/
structure Fld where
  reg : RegName
  hi : Nat
  lo : Nat
deriving DecidableEq, Repr

/-- The width of a field in bits. -/
def Fld.width (f : Fld) : Nat := f.hi - f.lo + 1

/-- `TRK_ID.VENDOR`: Oluren vendor number. -/
def TRK_ID.VENDOR : Fld := ⟨.TRK_ID, 63, 48⟩
/-- `TRK_ID.DEVICE`: Sarmel device number. -/
def TRK_ID.DEVICE : Fld := ⟨.TRK_ID, 47, 32⟩
/-- `TRK_ID.VARIANT`: 0x01 KS384, 0x02 KS256, 0x03 KS192G. -/
def TRK_ID.VARIANT : Fld := ⟨.TRK_ID, 31, 24⟩
/-- `TRK_ID.STEPPING`: [23:20] major, [19:16] minor. -/
def TRK_ID.STEPPING : Fld := ⟨.TRK_ID, 23, 16⟩
/-- `TRK_ID.BEHAVIOUR`: behaviour level from the vendor part of the structure image. -/
def TRK_ID.BEHAVIOUR : Fld := ⟨.TRK_ID, 15, 8⟩
/-- `TRK_CAP.GIL`: 1 when the global interleave mode is in force. -/
def TRK_CAP.GIL : Fld := ⟨.TRK_CAP, 63, 63⟩
/-- `TRK_CAP.FCAP`: 1 when the first-error latch and capture ring are present. -/
def TRK_CAP.FCAP : Fld := ⟨.TRK_CAP, 62, 62⟩
/-- `TRK_CAP.LEE`: 1 when the LEEs and the trace unit are present. -/
def TRK_CAP.LEE : Fld := ⟨.TRK_CAP, 61, 61⟩
/-- `TRK_CAP.BOUGHS`: number of active boughs. -/
def TRK_CAP.BOUGHS : Fld := ⟨.TRK_CAP, 60, 56⟩
/-- `TRK_CAP.SITE_SPARE`: bit 28 + s set when site s holds a dark spare. -/
def TRK_CAP.SITE_SPARE : Fld := ⟨.TRK_CAP, 55, 28⟩
/-- `TRK_CAP.SITE_ACTIVE`: bit s set when site s holds an active bough. -/
def TRK_CAP.SITE_ACTIVE : Fld := ⟨.TRK_CAP, 27, 0⟩
/-- `TRK_CAP_IO.MGROUPS`: number of model groups: 16, or 0 on a KS192G. -/
def TRK_CAP_IO.MGROUPS : Fld := ⟨.TRK_CAP_IO, 47, 40⟩
/-- `TRK_CAP_IO.BLK`: bit e set when bulk engine e is present. -/
def TRK_CAP_IO.BLK : Fld := ⟨.TRK_CAP_IO, 39, 32⟩
/-- `TRK_CAP_IO.CXL`: bit n set when x16 root port n can carry CXL. -/
def TRK_CAP_IO.CXL : Fld := ⟨.TRK_CAP_IO, 31, 28⟩
/-- `TRK_CAP_IO.SPAN`: bit c set when span port c is present. -/
def TRK_CAP_IO.SPAN : Fld := ⟨.TRK_CAP_IO, 27, 24⟩
/-- `TRK_CAP_IO.RP_X16`: bit n set when x16 root port n is present. -/
def TRK_CAP_IO.RP_X16 : Fld := ⟨.TRK_CAP_IO, 23, 16⟩
/-- `TRK_CAP_IO.MEM_CH`: bit m set when DDR5 channel m is present. -/
def TRK_CAP_IO.MEM_CH : Fld := ⟨.TRK_CAP_IO, 15, 0⟩
/-- `TRK_ABSENT_CNT.LAST_OFFSET`: offset from KRB of the most recent such access. -/
def TRK_ABSENT_CNT.LAST_OFFSET : Fld := ⟨.TRK_ABSENT_CNT, 63, 32⟩
/-- `TRK_ABSENT_CNT.COUNT`: number of such accesses. -/
def TRK_ABSENT_CNT.COUNT : Fld := ⟨.TRK_ABSENT_CNT, 31, 0⟩
/-- `TRK_PKG_ID.PINS`: PKG_ID[2:0] pin levels sampled at the start of the last warm reset under R20. -/
def TRK_PKG_ID.PINS : Fld := ⟨.TRK_PKG_ID, 8, 6⟩
/-- `TRK_PKG_ID.PKG_ID`: package ID. -/
def TRK_PKG_ID.PKG_ID : Fld := ⟨.TRK_PKG_ID, 5, 0⟩
/-- `TRK_NUMA_DIST.CXL`: distance to any CXL memory node. -/
def TRK_NUMA_DIST.CXL : Fld := ⟨.TRK_NUMA_DIST, 39, 32⟩
/-- `TRK_NUMA_DIST.TO3`: distance to crown 3. -/
def TRK_NUMA_DIST.TO3 : Fld := ⟨.TRK_NUMA_DIST, 31, 24⟩
/-- `TRK_NUMA_DIST.TO2`: distance to crown 2. -/
def TRK_NUMA_DIST.TO2 : Fld := ⟨.TRK_NUMA_DIST, 23, 16⟩
/-- `TRK_NUMA_DIST.TO1`: distance to crown 1. -/
def TRK_NUMA_DIST.TO1 : Fld := ⟨.TRK_NUMA_DIST, 15, 8⟩
/-- `TRK_NUMA_DIST.TO0`: distance to crown 0. -/
def TRK_NUMA_DIST.TO0 : Fld := ⟨.TRK_NUMA_DIST, 7, 0⟩
/-- `TRK_DECERR.VALID`: set when an address is captured. -/
def TRK_DECERR.VALID : Fld := ⟨.TRK_DECERR, 63, 63⟩
/-- `TRK_DECERR.ADDR`: physical address of the captured access. -/
def TRK_DECERR.ADDR : Fld := ⟨.TRK_DECERR, 47, 0⟩
/-- `TRK_FW_LOG.VALID`: a refusal is captured. -/
def TRK_FW_LOG.VALID : Fld := ⟨.TRK_FW_LOG, 63, 63⟩
/-- `TRK_FW_LOG.WRITE`: the request wrote. -/
def TRK_FW_LOG.WRITE : Fld := ⟨.TRK_FW_LOG, 62, 62⟩
/-- `TRK_FW_LOG.CLASS`: requester class of R393. -/
def TRK_FW_LOG.CLASS : Fld := ⟨.TRK_FW_LOG, 61, 58⟩
/-- `TRK_FW_LOG.SEG`: segment, for class 3. -/
def TRK_FW_LOG.SEG : Fld := ⟨.TRK_FW_LOG, 51, 48⟩
/-- `TRK_FW_LOG.ADDR`: physical address. -/
def TRK_FW_LOG.ADDR : Fld := ⟨.TRK_FW_LOG, 47, 0⟩
/-- `TRK_FW_CNT.COUNT`: saturates at 0xFFFF_FFFF. -/
def TRK_FW_CNT.COUNT : Fld := ⟨.TRK_FW_CNT, 31, 0⟩
/-- `TRK_FW_BASE.ADDR`: bits [47:12] of the first or last page. -/
def TRK_FW_BASE.ADDR : Fld := ⟨.TRK_FW_BASE, 47, 12⟩
/-- `TRK_FW_LIMIT.ADDR`: bits [47:12] of the first or last page. -/
def TRK_FW_LIMIT.ADDR : Fld := ⟨.TRK_FW_LIMIT, 47, 12⟩
/-- `TRK_FW_ACC.SEG`: bit s: segment s for class 3. -/
def TRK_FW_ACC.SEG : Fld := ⟨.TRK_FW_ACC, 40, 32⟩
/-- `TRK_FW_ACC.WR`: bit c: class c may write. -/
def TRK_FW_ACC.WR : Fld := ⟨.TRK_FW_ACC, 24, 16⟩
/-- `TRK_FW_ACC.RD`: bit c: class c may read. -/
def TRK_FW_ACC.RD : Fld := ⟨.TRK_FW_ACC, 8, 0⟩
/-- `TRK_FW_CTL.PEND`: staged values differ from the active ones. -/
def TRK_FW_CTL.PEND : Fld := ⟨.TRK_FW_CTL, 1, 1⟩
/-- `TRK_FW_CTL.EN`: a write commits the staged values with this EN. -/
def TRK_FW_CTL.EN : Fld := ⟨.TRK_FW_CTL, 0, 0⟩
/-- `BGH_ID.STEPPING`: stepping of this bough die, coded as TRK_ID.STEPPING. -/
def BGH_ID.STEPPING : Fld := ⟨.BGH_ID, 31, 24⟩
/-- `BGH_ID.POSITION`: p = s mod 7. -/
def BGH_ID.POSITION : Fld := ⟨.BGH_ID, 22, 20⟩
/-- `BGH_ID.CROWN`: c = s div 7. -/
def BGH_ID.CROWN : Fld := ⟨.BGH_ID, 17, 16⟩
/-- `BGH_ID.BOUGH`: logical bough number from the site map. -/
def BGH_ID.BOUGH : Fld := ⟨.BGH_ID, 12, 8⟩
/-- `BGH_ID.SITE`: strap value read by the die. -/
def BGH_ID.SITE : Fld := ⟨.BGH_ID, 4, 0⟩
/-- `SIM_STAT.O_ERR`: code of the last owner part failure in this load, or 0. -/
def SIM_STAT.O_ERR : Fld := ⟨.SIM_STAT, 47, 40⟩
/-- `SIM_STAT.V_ERR`: code of the last vendor part failure in this load, or 0. -/
def SIM_STAT.V_ERR : Fld := ⟨.SIM_STAT, 39, 32⟩
/-- `SIM_STAT.O_TRIAL`: owner trial loads left after this load. -/
def SIM_STAT.O_TRIAL : Fld := ⟨.SIM_STAT, 31, 28⟩
/-- `SIM_STAT.V_TRIAL`: vendor trial loads left after this load. -/
def SIM_STAT.V_TRIAL : Fld := ⟨.SIM_STAT, 27, 24⟩
/-- `SIM_STAT.O_SRC`: owner settings from 0 slot A, 1 slot B, 2 defaults. -/
def SIM_STAT.O_SRC : Fld := ⟨.SIM_STAT, 9, 8⟩
/-- `SIM_STAT.V_SLOT`: vendor part from 0 slot A, 1 slot B. -/
def SIM_STAT.V_SLOT : Fld := ⟨.SIM_STAT, 7, 7⟩
/-- `SIM_STAT.O_FALLBACK`: the owner source differs from O_ACTIVE of the directory read at step 1 of R46, as after a . -/
def SIM_STAT.O_FALLBACK : Fld := ⟨.SIM_STAT, 6, 6⟩
/-- `SIM_STAT.V_FALLBACK`: the vendor slot differs from V_ACTIVE of the directory read at step 1 of R46, as after a f. -/
def SIM_STAT.V_FALLBACK : Fld := ⟨.SIM_STAT, 5, 5⟩
/-- `SIM_STAT.SESSION`: a staging session is open. -/
def SIM_STAT.SESSION : Fld := ⟨.SIM_STAT, 4, 4⟩
/-- `SIM_STAT.STATE`: 0x1 LOADING, 0x2 DONE, 0x3 VENDOR_FAILED. -/
def SIM_STAT.STATE : Fld := ⟨.SIM_STAT, 3, 0⟩
/-- `SIM_VENDOR.FORMAT`: FORMAT of the part. -/
def SIM_VENDOR.FORMAT : Fld := ⟨.SIM_VENDOR, 47, 32⟩
/-- `SIM_VENDOR.SVN`: SVN of the part. -/
def SIM_VENDOR.SVN : Fld := ⟨.SIM_VENDOR, 31, 16⟩
/-- `SIM_VENDOR.BEHAVIOUR`: BEHAVIOUR of the part. -/
def SIM_VENDOR.BEHAVIOUR : Fld := ⟨.SIM_VENDOR, 15, 8⟩
/-- `SIM_VENDOR.KEY_SLOT`: owner key slot that signed the part. -/
def SIM_VENDOR.KEY_SLOT : Fld := ⟨.SIM_VENDOR, 0, 0⟩
/-- `SIM_OWNER.FORMAT`: FORMAT of the part. -/
def SIM_OWNER.FORMAT : Fld := ⟨.SIM_OWNER, 47, 32⟩
/-- `SIM_OWNER.SVN`: SVN of the part. -/
def SIM_OWNER.SVN : Fld := ⟨.SIM_OWNER, 31, 16⟩
/-- `SIM_OWNER.BEHAVIOUR`: BEHAVIOUR of the part. -/
def SIM_OWNER.BEHAVIOUR : Fld := ⟨.SIM_OWNER, 15, 8⟩
/-- `SIM_OWNER.KEY_SLOT`: owner key slot that signed the part. -/
def SIM_OWNER.KEY_SLOT : Fld := ⟨.SIM_OWNER, 0, 0⟩
/-- `SIM_OTP.O_FLOOR`: owner part floor. -/
def SIM_OTP.O_FLOOR : Fld := ⟨.SIM_OTP, 29, 24⟩
/-- `SIM_OTP.V_FLOOR`: vendor part floor. -/
def SIM_OTP.V_FLOOR : Fld := ⟨.SIM_OTP, 21, 16⟩
/-- `SIM_OTP.SLOT1`: owner key slot 1: 0 empty, 1 enrolled, 2 revoked. -/
def SIM_OTP.SLOT1 : Fld := ⟨.SIM_OTP, 3, 2⟩
/-- `SIM_OTP.SLOT0`: owner key slot 0, coded as SLOT1. -/
def SIM_OTP.SLOT0 : Fld := ⟨.SIM_OTP, 1, 0⟩
/-- `SIM_UID_LO.UID`: device identity, low. -/
def SIM_UID_LO.UID : Fld := ⟨.SIM_UID_LO, 63, 0⟩
/-- `SIM_UID_HI.UID`: device identity, high. -/
def SIM_UID_HI.UID : Fld := ⟨.SIM_UID_HI, 63, 0⟩
/-- `BGH_RESET_VEC.ADDR`: bits [47:2] of the reset address. -/
def BGH_RESET_VEC.ADDR : Fld := ⟨.BGH_RESET_VEC, 47, 2⟩
/-- `BGH_RNMI_VEC.ADDR`: bits [47:2] of the RNMI handler address. -/
def BGH_RNMI_VEC.ADDR : Fld := ⟨.BGH_RNMI_VEC, 47, 2⟩
/-- `BGH_RNMI_EXC.ADDR`: bits [47:2] of the RNMI exception handler address. -/
def BGH_RNMI_EXC.ADDR : Fld := ⟨.BGH_RNMI_EXC, 47, 2⟩
/-- `BGH_MTIME.TIME`: ring count copy of this die. -/
def BGH_MTIME.TIME : Fld := ⟨.BGH_MTIME, 63, 0⟩
/-- `BGH_LEAF_STAT.MISS`: miss entries in use, 0..48. -/
def BGH_LEAF_STAT.MISS : Fld := ⟨.BGH_LEAF_STAT, 15, 8⟩
/-- `BGH_LEAF_STAT.MC_LOCK`: stopped under "When a machine check arrives before software enables NMIs". -/
def BGH_LEAF_STAT.MC_LOCK : Fld := ⟨.BGH_LEAF_STAT, 3, 3⟩
/-- `BGH_LEAF_STAT.ON_FIC`: running on the fast internal clock. -/
def BGH_LEAF_STAT.ON_FIC : Fld := ⟨.BGH_LEAF_STAT, 2, 2⟩
/-- `BGH_LEAF_STAT.PSTATE`: 0 RUN, 1 IDLE, 2 OFF, 3 in reset. -/
def BGH_LEAF_STAT.PSTATE : Fld := ⟨.BGH_LEAF_STAT, 1, 0⟩
/-- `BGH_MTIMECMP.CMP`: comparison value under R67. -/
def BGH_MTIMECMP.CMP : Fld := ⟨.BGH_MTIMECMP, 63, 0⟩
/-- `LEE_CTL.CLEAR`: 1 clears the store under R77. -/
def LEE_CTL.CLEAR : Fld := ⟨.LEE_CTL, 8, 8⟩
/-- `LEE_CTL.STREAM`: 0 resident mode, 1 streamed mode. -/
def LEE_CTL.STREAM : Fld := ⟨.LEE_CTL, 3, 3⟩
/-- `LEE_CTL.LANES`: 0 one lane, 1 eight, 2 sixty-four. -/
def LEE_CTL.LANES : Fld := ⟨.LEE_CTL, 2, 1⟩
/-- `LEE_CTL.EN`: engine enable, under R114. -/
def LEE_CTL.EN : Fld := ⟨.LEE_CTL, 0, 0⟩
/-- `LEE_STAT.AP_WERR`: an aperture write was refused under R79. -/
def LEE_STAT.AP_WERR : Fld := ⟨.LEE_STAT, 34, 34⟩
/-- `LEE_STAT.CFG_IGN`: a configuration write was ignored under R113. -/
def LEE_STAT.CFG_IGN : Fld := ⟨.LEE_STAT, 33, 33⟩
/-- `LEE_STAT.BUSY_REFUSED`: a clear was refused under R77. -/
def LEE_STAT.BUSY_REFUSED : Fld := ⟨.LEE_STAT, 32, 32⟩
/-- `LEE_STAT.GROUP`: model group of the leaf, or 0xFF for none. -/
def LEE_STAT.GROUP : Fld := ⟨.LEE_STAT, 23, 16⟩
/-- `LEE_STAT.CLEARING`: a clear is in progress. -/
def LEE_STAT.CLEARING : Fld := ⟨.LEE_STAT, 12, 12⟩
/-- `LEE_STAT.BLOCK`: why issue waits: 0 nothing, 1 WAIT, 2 BARRIER, 3 stimulus empty, 4 interlock, 5 trace emis. -/
def LEE_STAT.BLOCK : Fld := ⟨.LEE_STAT, 10, 8⟩
/-- `LEE_STAT.FAULTED`: stopped by a fault. -/
def LEE_STAT.FAULTED : Fld := ⟨.LEE_STAT, 4, 4⟩
/-- `LEE_STAT.TRAPPED`: waiting for the doorbell after TRAP. -/
def LEE_STAT.TRAPPED : Fld := ⟨.LEE_STAT, 3, 3⟩
/-- `LEE_STAT.HALTED`: stopped by HALT. -/
def LEE_STAT.HALTED : Fld := ⟨.LEE_STAT, 2, 2⟩
/-- `LEE_STAT.STOPPED`: stopped at a word boundary after EN was cleared. -/
def LEE_STAT.STOPPED : Fld := ⟨.LEE_STAT, 1, 1⟩
/-- `LEE_STAT.RUN`: issuing words, including while EN = 0 and the stop is still in progress. -/
def LEE_STAT.RUN : Fld := ⟨.LEE_STAT, 0, 0⟩
/-- `LEE_PC.PC`: next word to issue, or the faulting word under R111. -/
def LEE_PC.PC : Fld := ⟨.LEE_PC, 27, 0⟩
/-- `LEE_CYCLE.PLANE`: current plane: 0 A, 1 B. -/
def LEE_CYCLE.PLANE : Fld := ⟨.LEE_CYCLE, 48, 48⟩
/-- `LEE_CYCLE.MCYCLE`: model cycle count. -/
def LEE_CYCLE.MCYCLE : Fld := ⟨.LEE_CYCLE, 39, 0⟩
/-- `LEE_MAP0.COMB_SIZE`: 0..2,048. -/
def LEE_MAP0.COMB_SIZE : Fld := ⟨.LEE_MAP0, 59, 48⟩
/-- `LEE_MAP0.COMB_BASE`: 0..2,047. -/
def LEE_MAP0.COMB_BASE : Fld := ⟨.LEE_MAP0, 42, 32⟩
/-- `LEE_MAP0.PROG_SIZE`: 0..2,048. -/
def LEE_MAP0.PROG_SIZE : Fld := ⟨.LEE_MAP0, 27, 16⟩
/-- `LEE_MAP0.PROG_BASE`: 0..2,047. -/
def LEE_MAP0.PROG_BASE : Fld := ⟨.LEE_MAP0, 10, 0⟩
/-- `LEE_MAP1.PLANE_SIZE`: size of each plane, 0..1,024. -/
def LEE_MAP1.PLANE_SIZE : Fld := ⟨.LEE_MAP1, 43, 32⟩
/-- `LEE_MAP1.PLANEB_BASE`: 0..2,047. -/
def LEE_MAP1.PLANEB_BASE : Fld := ⟨.LEE_MAP1, 26, 16⟩
/-- `LEE_MAP1.PLANEA_BASE`: 0..2,047. -/
def LEE_MAP1.PLANEA_BASE : Fld := ⟨.LEE_MAP1, 10, 0⟩
/-- `LEE_MAP2.MMEM_SIZE`: 0..2,048. -/
def LEE_MAP2.MMEM_SIZE : Fld := ⟨.LEE_MAP2, 59, 48⟩
/-- `LEE_MAP2.MMEM_BASE`: 0..2,047. -/
def LEE_MAP2.MMEM_BASE : Fld := ⟨.LEE_MAP2, 42, 32⟩
/-- `LEE_MAP2.INBOX_SIZE`: 0..2,048. -/
def LEE_MAP2.INBOX_SIZE : Fld := ⟨.LEE_MAP2, 27, 16⟩
/-- `LEE_MAP2.INBOX_BASE`: 0..2,047. -/
def LEE_MAP2.INBOX_BASE : Fld := ⟨.LEE_MAP2, 10, 0⟩
/-- `LEE_FAULT.VALID`: a fault is recorded. -/
def LEE_FAULT.VALID : Fld := ⟨.LEE_FAULT, 63, 63⟩
/-- `LEE_FAULT.CAUSE`: code from R112. -/
def LEE_FAULT.CAUSE : Fld := ⟨.LEE_FAULT, 55, 48⟩
/-- `LEE_FAULT.REF`: reference concerned, under R112. -/
def LEE_FAULT.REF : Fld := ⟨.LEE_FAULT, 43, 40⟩
/-- `LEE_FAULT.PC`: program counter value of the faulting word. -/
def LEE_FAULT.PC : Fld := ⟨.LEE_FAULT, 27, 0⟩
/-- `LEE_FAULT_INFO.INFO`: detail for LEE_FAULT.CAUSE. -/
def LEE_FAULT_INFO.INFO : Fld := ⟨.LEE_FAULT_INFO, 63, 0⟩
/-- `LEE_TRAP.PC`: program counter value of the TRAP word. -/
def LEE_TRAP.PC : Fld := ⟨.LEE_TRAP, 43, 16⟩
/-- `LEE_TRAP.CODE`: IMM bits [15:0] of the TRAP word. -/
def LEE_TRAP.CODE : Fld := ⟨.LEE_TRAP, 15, 0⟩
/-- `LEE_DOORBELL.GO`: 1 returns a TRAPPED engine to RUN. -/
def LEE_DOORBELL.GO : Fld := ⟨.LEE_DOORBELL, 0, 0⟩
/-- `LEE_IRQ.TARGET`: IMSIC target word under R64. -/
def LEE_IRQ.TARGET : Fld := ⟨.LEE_IRQ, 31, 0⟩
/-- `LEE_IRQ_STAT.STOP`: the engine entered STOPPED from RUN. -/
def LEE_IRQ_STAT.STOP : Fld := ⟨.LEE_IRQ_STAT, 3, 3⟩
/-- `LEE_IRQ_STAT.FAULT`: the engine entered FAULTED. -/
def LEE_IRQ_STAT.FAULT : Fld := ⟨.LEE_IRQ_STAT, 2, 2⟩
/-- `LEE_IRQ_STAT.HALT`: the engine entered HALTED. -/
def LEE_IRQ_STAT.HALT : Fld := ⟨.LEE_IRQ_STAT, 1, 1⟩
/-- `LEE_IRQ_STAT.TRAP`: the engine entered TRAPPED. -/
def LEE_IRQ_STAT.TRAP : Fld := ⟨.LEE_IRQ_STAT, 0, 0⟩
/-- `LEE_LC01.ARMED_HI`: armed flag of counter 1 or 3. -/
def LEE_LC01.ARMED_HI : Fld := ⟨.LEE_LC01, 63, 63⟩
/-- `LEE_LC01.LC_HI`: value of counter 1 or 3. -/
def LEE_LC01.LC_HI : Fld := ⟨.LEE_LC01, 62, 32⟩
/-- `LEE_LC01.ARMED_LO`: armed flag of counter 0 or 2. -/
def LEE_LC01.ARMED_LO : Fld := ⟨.LEE_LC01, 31, 31⟩
/-- `LEE_LC01.LC_LO`: value of counter 0 or 2. -/
def LEE_LC01.LC_LO : Fld := ⟨.LEE_LC01, 30, 0⟩
/-- `LEE_LC23.ARMED_HI`: armed flag of counter 1 or 3. -/
def LEE_LC23.ARMED_HI : Fld := ⟨.LEE_LC23, 63, 63⟩
/-- `LEE_LC23.LC_HI`: value of counter 1 or 3. -/
def LEE_LC23.LC_HI : Fld := ⟨.LEE_LC23, 62, 32⟩
/-- `LEE_LC23.ARMED_LO`: armed flag of counter 0 or 2. -/
def LEE_LC23.ARMED_LO : Fld := ⟨.LEE_LC23, 31, 31⟩
/-- `LEE_LC23.LC_LO`: value of counter 0 or 2. -/
def LEE_LC23.LC_LO : Fld := ⟨.LEE_LC23, 30, 0⟩
/-- `LEE_XCH_STAT.DROP_ERR`: a SEND of this engine was not delivered, under R122. -/
def LEE_XCH_STAT.DROP_ERR : Fld := ⟨.LEE_XCH_STAT, 63, 63⟩
/-- `LEE_XCH_STAT.STALE_ERR`: a stale message arrived, under R123. -/
def LEE_XCH_STAT.STALE_ERR : Fld := ⟨.LEE_XCH_STAT, 62, 62⟩
/-- `LEE_XCH_STAT.OVF_ERR`: an arrival counter saturated. -/
def LEE_XCH_STAT.OVF_ERR : Fld := ⟨.LEE_XCH_STAT, 61, 61⟩
/-- `LEE_XCH_STAT.SURPLUS`: COMMIT found unconsumed arrivals, under R125. -/
def LEE_XCH_STAT.SURPLUS : Fld := ⟨.LEE_XCH_STAT, 60, 60⟩
/-- `LEE_XCH_STAT.REJECT`: messages rejected at this engine. -/
def LEE_XCH_STAT.REJECT : Fld := ⟨.LEE_XCH_STAT, 47, 32⟩
/-- `LEE_XCH_STAT.STALE`: stale messages discarded. -/
def LEE_XCH_STAT.STALE : Fld := ⟨.LEE_XCH_STAT, 31, 16⟩
/-- `LEE_XCH_STAT.DROPPED`: SENDs of this engine not delivered. -/
def LEE_XCH_STAT.DROPPED : Fld := ⟨.LEE_XCH_STAT, 15, 0⟩
/-- `LEE_BAR.ARR`: arrival signalled for generation GEN. -/
def LEE_BAR.ARR : Fld := ⟨.LEE_BAR, 40, 40⟩
/-- `LEE_BAR.GEN`: barriers passed by this engine since its group was enabled. -/
def LEE_BAR.GEN : Fld := ⟨.LEE_BAR, 31, 0⟩
/-- `LEE_MMD_CFG.DEPTH`: number of rows. -/
def LEE_MMD_CFG.DEPTH : Fld := ⟨.LEE_MMD_CFG, 39, 16⟩
/-- `LEE_MMD_CFG.AW`: address width, 1..24. -/
def LEE_MMD_CFG.AW : Fld := ⟨.LEE_MMD_CFG, 12, 8⟩
/-- `LEE_MMD_CFG.LOC`: 0 store, 1 DRAM. -/
def LEE_MMD_CFG.LOC : Fld := ⟨.LEE_MMD_CFG, 1, 1⟩
/-- `LEE_MMD_CFG.VALID`: the descriptor may be used. -/
def LEE_MMD_CFG.VALID : Fld := ⟨.LEE_MMD_CFG, 0, 0⟩
/-- `LEE_MMD_BASE.BASE`: LOC = 0: OFFSET in 32-byte units from MMEM_BASE × 64, in bits [16:0], with bits [47:17] ze. -/
def LEE_MMD_BASE.BASE : Fld := ⟨.LEE_MMD_BASE, 47, 0⟩
/-- `LEE_STIM_BASE.ADDR`: bits [47:12] of the ring's physical address. -/
def LEE_STIM_BASE.ADDR : Fld := ⟨.LEE_STIM_BASE, 47, 12⟩
/-- `LEE_STIM_CTL.HEAD`: entries consumed by STIM. -/
def LEE_STIM_CTL.HEAD : Fld := ⟨.LEE_STIM_CTL, 63, 32⟩
/-- `LEE_STIM_CTL.LOG2N`: the ring has 2^LOG2N entries. -/
def LEE_STIM_CTL.LOG2N : Fld := ⟨.LEE_STIM_CTL, 4, 0⟩
/-- `LEE_STIM_TAIL.TAIL`: entries made available by the producer. -/
def LEE_STIM_TAIL.TAIL : Fld := ⟨.LEE_STIM_TAIL, 31, 0⟩
/-- `LEE_STREAM.BASE`: bits [47:16] of the physical address of program word 0. -/
def LEE_STREAM.BASE : Fld := ⟨.LEE_STREAM, 47, 16⟩
/-- `LEE_STREAM_STAT.V1`: buffer 1 holds a complete page. -/
def LEE_STREAM_STAT.V1 : Fld := ⟨.LEE_STREAM_STAT, 63, 63⟩
/-- `LEE_STREAM_STAT.PAGE1`: page number in buffer 1. -/
def LEE_STREAM_STAT.PAGE1 : Fld := ⟨.LEE_STREAM_STAT, 51, 32⟩
/-- `LEE_STREAM_STAT.V0`: buffer 0 holds a complete page. -/
def LEE_STREAM_STAT.V0 : Fld := ⟨.LEE_STREAM_STAT, 31, 31⟩
/-- `LEE_STREAM_STAT.PAGE0`: page number in buffer 0. -/
def LEE_STREAM_STAT.PAGE0 : Fld := ⟨.LEE_STREAM_STAT, 19, 0⟩
/-- `LEE_CNT.COUNT`: event count. -/
def LEE_CNT.COUNT : Fld := ⟨.LEE_CNT, 63, 0⟩
/-- `FAB_MG_CMD.GROUP`: group g for ENABLE, DISABLE and FREE. -/
def FAB_MG_CMD.GROUP : Fld := ⟨.FAB_MG_CMD, 15, 8⟩
/-- `FAB_MG_CMD.OP`: 0x01 ALLOC, 0x02 ENABLE, 0x03 DISABLE, 0x04 FREE. -/
def FAB_MG_CMD.OP : Fld := ⟨.FAB_MG_CMD, 7, 0⟩
/-- `FAB_MG_RESULT.GROUP`: group named by the command, or allocated by ALLOC. -/
def FAB_MG_RESULT.GROUP : Fld := ⟨.FAB_MG_RESULT, 15, 8⟩
/-- `FAB_MG_RESULT.STATUS`: 0 OK, 1 NO_GROUP, 2 BUSY, 3 INVALID, 4 NOT_RESERVED, 5 NOT_ENABLED. -/
def FAB_MG_RESULT.STATUS : Fld := ⟨.FAB_MG_RESULT, 7, 0⟩
/-- `FAB_MG_CTL.WDOG`: watchdog exponent k under R130, 0 off, 1..40. -/
def FAB_MG_CTL.WDOG : Fld := ⟨.FAB_MG_CTL, 29, 24⟩
/-- `FAB_MG_CTL.SPAN`: span mask. -/
def FAB_MG_CTL.SPAN : Fld := ⟨.FAB_MG_CTL, 19, 16⟩
/-- `FAB_MG_CTL.STATE`: 0 FREE, 1 RESERVED, 2 ENABLED. -/
def FAB_MG_CTL.STATE : Fld := ⟨.FAB_MG_CTL, 9, 8⟩
/-- `FAB_MG_CTL.LANES`: 0 one lane, 1 eight, 2 sixty-four. -/
def FAB_MG_CTL.LANES : Fld := ⟨.FAB_MG_CTL, 2, 1⟩
/-- `FAB_MG_STAT.BROKEN`: the group is broken. -/
def FAB_MG_STAT.BROKEN : Fld := ⟨.FAB_MG_STAT, 63, 63⟩
/-- `FAB_MG_STAT.SEQ_ERR`: a token out of sequence. -/
def FAB_MG_STAT.SEQ_ERR : Fld := ⟨.FAB_MG_STAT, 62, 62⟩
/-- `FAB_MG_STAT.WDOG_EV`: watchdog expired under R130. -/
def FAB_MG_STAT.WDOG_EV : Fld := ⟨.FAB_MG_STAT, 61, 61⟩
/-- `FAB_MG_STAT.TOKENS`: bit p set when a token of the current generation is held from span port p. -/
def FAB_MG_STAT.TOKENS : Fld := ⟨.FAB_MG_STAT, 60, 57⟩
/-- `FAB_MG_STAT.ARRIVED`: local members arrived in the current generation. -/
def FAB_MG_STAT.ARRIVED : Fld := ⟨.FAB_MG_STAT, 56, 48⟩
/-- `FAB_MG_STAT.GEN`: barriers completed since ENABLE, modulo 2³². -/
def FAB_MG_STAT.GEN : Fld := ⟨.FAB_MG_STAT, 31, 0⟩
/-- `FAB_MG_MEM.MEMBERS`: bit i set when logical leaf 64k + i is a member. -/
def FAB_MG_MEM.MEMBERS : Fld := ⟨.FAB_MG_MEM, 63, 0⟩
/-- `FAB_MG_LAST.RING`: ring count at the last completion in this package. -/
def FAB_MG_LAST.RING : Fld := ⟨.FAB_MG_LAST, 63, 0⟩
/-- `L3C_CTL.EN`: 1 enabled. -/
def L3C_CTL.EN : Fld := ⟨.L3C_CTL, 0, 0⟩
/-- `L3C_STAT.EN_IGN`: a write of EN = 1 was ignored under R159. -/
def L3C_STAT.EN_IGN : Fld := ⟨.L3C_STAT, 2, 2⟩
/-- `L3C_STAT.DISABLED`: the data array is power-gated. -/
def L3C_STAT.DISABLED : Fld := ⟨.L3C_STAT, 1, 1⟩
/-- `L3C_STAT.FLUSHING`: a disable is writing back dirty lines. -/
def L3C_STAT.FLUSHING : Fld := ⟨.L3C_STAT, 0, 0⟩
/-- `L3C_EVB.EVB`: bits [4s+3:4s]: entries in use in slice s's eviction buffer, saturating display at 15. -/
def L3C_EVB.EVB : Fld := ⟨.L3C_EVB, 31, 0⟩
/-- `L3C_LOCK_ADDR.ADDR`: bits [47:6] of the first line's physical address. -/
def L3C_LOCK_ADDR.ADDR : Fld := ⟨.L3C_LOCK_ADDR, 47, 6⟩
/-- `L3C_LOCK_LEN.LINES`: number of lines. -/
def L3C_LOCK_LEN.LINES : Fld := ⟨.L3C_LOCK_LEN, 23, 0⟩
/-- `L3C_LOCK_CMD.WAYS`: way mask. -/
def L3C_LOCK_CMD.WAYS : Fld := ⟨.L3C_LOCK_CMD, 31, 16⟩
/-- `L3C_LOCK_CMD.OP`: 1 preload-and-lock under R152. -/
def L3C_LOCK_CMD.OP : Fld := ⟨.L3C_LOCK_CMD, 7, 0⟩
/-- `L3C_LOCK_STAT.DONE`: the command has ended, or was refused. -/
def L3C_LOCK_STAT.DONE : Fld := ⟨.L3C_LOCK_STAT, 63, 63⟩
/-- `L3C_LOCK_STAT.BUSY`: a command is in progress. -/
def L3C_LOCK_STAT.BUSY : Fld := ⟨.L3C_LOCK_STAT, 62, 62⟩
/-- `L3C_LOCK_STAT.STATUS`: 0 OK, 1 BUSY, 2 TOO_MANY, 3 DISABLED, 4 INVALID, 5 CAPACITY, 6 ATTR, 7 ACCESS, 8 POISON. -/
def L3C_LOCK_STAT.STATUS : Fld := ⟨.L3C_LOCK_STAT, 55, 48⟩
/-- `L3C_LOCK_STAT.FAILED`: lines not locked. -/
def L3C_LOCK_STAT.FAILED : Fld := ⟨.L3C_LOCK_STAT, 47, 24⟩
/-- `L3C_LOCK_STAT.LOCKED`: lines locked. -/
def L3C_LOCK_STAT.LOCKED : Fld := ⟨.L3C_LOCK_STAT, 23, 0⟩
/-- `L3C_LOCK_FAIL.ADDR`: bits [47:6] of the line's physical address. -/
def L3C_LOCK_FAIL.ADDR : Fld := ⟨.L3C_LOCK_FAIL, 47, 6⟩
/-- `L3C_LOCK_WAYS.WAYS`: bit w set when way w is locked. -/
def L3C_LOCK_WAYS.WAYS : Fld := ⟨.L3C_LOCK_WAYS, 15, 0⟩
/-- `L3C_CNT.COUNT`: event count. -/
def L3C_CNT.COUNT : Fld := ⟨.L3C_CNT, 63, 0⟩
/-- `DIR_TMO.LIMIT`: timeouts of one bough that request isolation under R182, 1..15. -/
def DIR_TMO.LIMIT : Fld := ⟨.DIR_TMO, 19, 16⟩
/-- `DIR_TMO.TMO_US`: home timeout in µs, 1..1,000. -/
def DIR_TMO.TMO_US : Fld := ⟨.DIR_TMO, 9, 0⟩
/-- `DIR_TMO_LOG.VALID`: a timeout is recorded. -/
def DIR_TMO_LOG.VALID : Fld := ⟨.DIR_TMO_LOG, 63, 63⟩
/-- `DIR_TMO_LOG.BOUGH`: logical bough that did not answer. -/
def DIR_TMO_LOG.BOUGH : Fld := ⟨.DIR_TMO_LOG, 62, 58⟩
/-- `DIR_TMO_LOG.KIND`: 1 SNP_SHARED, 2 SNP_UNIQUE, 3 SNP_INV, 4 SNP_CURRENT, 5 COMP_ACK. -/
def DIR_TMO_LOG.KIND : Fld := ⟨.DIR_TMO_LOG, 57, 54⟩
/-- `DIR_TMO_LOG.ADDR`: bits [47:6] of the line's physical address. -/
def DIR_TMO_LOG.ADDR : Fld := ⟨.DIR_TMO_LOG, 47, 6⟩
/-- `DIR_STAT.STARVE`: starvation slots in use, 0..24. -/
def DIR_STAT.STARVE : Fld := ⟨.DIR_STAT, 52, 48⟩
/-- `DIR_STAT.OPEN`: tracker entries in use, 0..1,024. -/
def DIR_STAT.OPEN : Fld := ⟨.DIR_STAT, 42, 32⟩
/-- `DIR_STAT.OCC`: valid directory entries, 0..2,097,152. -/
def DIR_STAT.OCC : Fld := ⟨.DIR_STAT, 21, 0⟩
/-- `DIR_PURGE.BUSY`: a purge is in progress, from any source. -/
def DIR_PURGE.BUSY : Fld := ⟨.DIR_PURGE, 63, 63⟩
/-- `DIR_PURGE.DONE`: a purge started by this register has completed. -/
def DIR_PURGE.DONE : Fld := ⟨.DIR_PURGE, 62, 62⟩
/-- `DIR_PURGE.GO`: 1 starts a purge of BOUGH. -/
def DIR_PURGE.GO : Fld := ⟨.DIR_PURGE, 8, 8⟩
/-- `DIR_PURGE.BOUGH`: logical bough to purge, 0..23. -/
def DIR_PURGE.BOUGH : Fld := ⟨.DIR_PURGE, 4, 0⟩
/-- `DIR_CNT.COUNT`: event count. -/
def DIR_CNT.COUNT : Fld := ⟨.DIR_CNT, 63, 0⟩
/-- `FAB_ROUTE_SWAP.BUSY`: a swap is in progress. -/
def FAB_ROUTE_SWAP.BUSY : Fld := ⟨.FAB_ROUTE_SWAP, 63, 63⟩
/-- `FAB_ROUTE_SWAP.DRAIN_TMO`: a drain took longer than 2 µs, under R195. -/
def FAB_ROUTE_SWAP.DRAIN_TMO : Fld := ⟨.FAB_ROUTE_SWAP, 62, 62⟩
/-- `FAB_ROUTE_SWAP.REFUSED`: a GO or shadow write was refused, under R196. -/
def FAB_ROUTE_SWAP.REFUSED : Fld := ⟨.FAB_ROUTE_SWAP, 61, 61⟩
/-- `FAB_ROUTE_SWAP.VERSION`: route version of the active bank. -/
def FAB_ROUTE_SWAP.VERSION : Fld := ⟨.FAB_ROUTE_SWAP, 48, 48⟩
/-- `FAB_ROUTE_SWAP.SWAPS`: swaps completed, modulo 2¹⁶. -/
def FAB_ROUTE_SWAP.SWAPS : Fld := ⟨.FAB_ROUTE_SWAP, 47, 32⟩
/-- `FAB_ROUTE_SWAP.GO`: 1 starts a swap. -/
def FAB_ROUTE_SWAP.GO : Fld := ⟨.FAB_ROUTE_SWAP, 0, 0⟩
/-- `FAB_RT_SEL.BANK`: 0 shadow bank. -/
def FAB_RT_SEL.BANK : Fld := ⟨.FAB_RT_SEL, 23, 23⟩
/-- `FAB_RT_SEL.VN`: VN code of R184. -/
def FAB_RT_SEL.VN : Fld := ⟨.FAB_RT_SEL, 22, 20⟩
/-- `FAB_RT_SEL.KIND`: 0 trunk router, 1 bough die. -/
def FAB_RT_SEL.KIND : Fld := ⟨.FAB_RT_SEL, 18, 18⟩
/-- `FAB_RT_SEL.UNIT`: router number 0..63, or physical site 0..27. -/
def FAB_RT_SEL.UNIT : Fld := ⟨.FAB_RT_SEL, 17, 12⟩
/-- `FAB_RT_SEL.ENTRY`: trunk: DNODE 0..127. -/
def FAB_RT_SEL.ENTRY : Fld := ⟨.FAB_RT_SEL, 6, 0⟩
/-- `FAB_RT_DATA.VALUE`: trunk: output port of R188, or 6, 7 unroutable. -/
def FAB_RT_DATA.VALUE : Fld := ⟨.FAB_RT_DATA, 2, 0⟩
/-- `FAB_UNROUTE.VALID`: the first such packet is captured. -/
def FAB_UNROUTE.VALID : Fld := ⟨.FAB_UNROUTE, 63, 63⟩
/-- `FAB_UNROUTE.VN`: VN of the captured packet. -/
def FAB_UNROUTE.VN : Fld := ⟨.FAB_UNROUTE, 42, 40⟩
/-- `FAB_UNROUTE.DNODE`: destination of the captured packet. -/
def FAB_UNROUTE.DNODE : Fld := ⟨.FAB_UNROUTE, 38, 32⟩
/-- `FAB_UNROUTE.COUNT`: packets discarded. -/
def FAB_UNROUTE.COUNT : Fld := ⟨.FAB_UNROUTE, 31, 0⟩
/-- `FAB_ISO.GO`: 1 engages the proxy of SITE. -/
def FAB_ISO.GO : Fld := ⟨.FAB_ISO, 8, 8⟩
/-- `FAB_ISO.SITE`: physical site, 0..27. -/
def FAB_ISO.SITE : Fld := ⟨.FAB_ISO, 4, 0⟩
/-- `FAB_ISO_STAT.ISOLATED`: bit s set while the proxy of site s is engaged. -/
def FAB_ISO_STAT.ISOLATED : Fld := ⟨.FAB_ISO_STAT, 27, 0⟩
/-- `FAB_WAKE.WAKE`: bit s set: accesses to a gated site s wait for it to wake. -/
def FAB_WAKE.WAKE : Fld := ⟨.FAB_WAKE, 27, 0⟩
/-- `FAB_GATE_STAT.CLOSED`: bit s set while the gate of site s is closed and quiet. -/
def FAB_GATE_STAT.CLOSED : Fld := ⟨.FAB_GATE_STAT, 27, 0⟩
/-- `FAB_GATE_LOG.VALID`: an access is captured. -/
def FAB_GATE_LOG.VALID : Fld := ⟨.FAB_GATE_LOG, 63, 63⟩
/-- `FAB_GATE_LOG.KIND`: 0 read, 1 write, 2 wake timeout, 3 snoop. -/
def FAB_GATE_LOG.KIND : Fld := ⟨.FAB_GATE_LOG, 62, 60⟩
/-- `FAB_GATE_LOG.SITE`: physical site. -/
def FAB_GATE_LOG.SITE : Fld := ⟨.FAB_GATE_LOG, 52, 48⟩
/-- `FAB_GATE_LOG.ADDR`: physical address of the access, or of the snoop's line. -/
def FAB_GATE_LOG.ADDR : Fld := ⟨.FAB_GATE_LOG, 47, 0⟩
/-- `FAB_CDC_LOG.VALID`: a fault is captured. -/
def FAB_CDC_LOG.VALID : Fld := ⟨.FAB_CDC_LOG, 63, 63⟩
/-- `FAB_CDC_LOG.KIND`: 1 accumulator overflow under R206, 2 CDC_TIMEOUT under R207. -/
def FAB_CDC_LOG.KIND : Fld := ⟨.FAB_CDC_LOG, 62, 60⟩
/-- `FAB_CDC_LOG.XING`: crossing number of R209. -/
def FAB_CDC_LOG.XING : Fld := ⟨.FAB_CDC_LOG, 43, 32⟩
/-- `FAB_CDC_LOG.RING`: bits [31:0] of the ring count at capture. -/
def FAB_CDC_LOG.RING : Fld := ⟨.FAB_CDC_LOG, 31, 0⟩
/-- `FAB_CDC_CNT.TMO`: CDC_TIMEOUT events. -/
def FAB_CDC_CNT.TMO : Fld := ⟨.FAB_CDC_CNT, 63, 32⟩
/-- `FAB_CDC_CNT.OVF`: pulses lost to a saturated accumulator. -/
def FAB_CDC_CNT.OVF : Fld := ⟨.FAB_CDC_CNT, 31, 0⟩
/-- `BGH_CDC_LOG.VALID`: a fault is captured. -/
def BGH_CDC_LOG.VALID : Fld := ⟨.BGH_CDC_LOG, 63, 63⟩
/-- `BGH_CDC_LOG.KIND`: 1 accumulator overflow under R206, 2 CDC_TIMEOUT under R207. -/
def BGH_CDC_LOG.KIND : Fld := ⟨.BGH_CDC_LOG, 62, 60⟩
/-- `BGH_CDC_LOG.XING`: crossing number of R209. -/
def BGH_CDC_LOG.XING : Fld := ⟨.BGH_CDC_LOG, 43, 32⟩
/-- `BGH_CDC_LOG.RING`: bits [31:0] of the ring count at capture. -/
def BGH_CDC_LOG.RING : Fld := ⟨.BGH_CDC_LOG, 31, 0⟩
/-- `BGH_CDC_CNT.TMO`: CDC_TIMEOUT events. -/
def BGH_CDC_CNT.TMO : Fld := ⟨.BGH_CDC_CNT, 63, 32⟩
/-- `BGH_CDC_CNT.OVF`: pulses lost to a saturated accumulator. -/
def BGH_CDC_CNT.OVF : Fld := ⟨.BGH_CDC_CNT, 31, 0⟩
/-- `FAB_PROXY.MSI`: MSIs discarded. -/
def FAB_PROXY.MSI : Fld := ⟨.FAB_PROXY, 63, 48⟩
/-- `FAB_PROXY.XCH`: SEND windows discarded. -/
def FAB_PROXY.XCH : Fld := ⟨.FAB_PROXY, 47, 32⟩
/-- `FAB_PROXY.SNP`: snoops answered I. -/
def FAB_PROXY.SNP : Fld := ⟨.FAB_PROXY, 31, 16⟩
/-- `FAB_PROXY.REG`: register and aperture accesses answered. -/
def FAB_PROXY.REG : Fld := ⟨.FAB_PROXY, 15, 0⟩
/-- `FAB_PEND.OVF`: an MSI found the table full. -/
def FAB_PEND.OVF : Fld := ⟨.FAB_PEND, 63, 63⟩
/-- `FAB_PEND.DROPPED`: MSIs discarded. -/
def FAB_PEND.DROPPED : Fld := ⟨.FAB_PEND, 47, 32⟩
/-- `FAB_PEND.HELD`: entries held, 0..512. -/
def FAB_PEND.HELD : Fld := ⟨.FAB_PEND, 9, 0⟩
/-- `GRF_STAT.GEN`: GEN of the last training. -/
def GRF_STAT.GEN : Fld := ⟨.GRF_STAT, 63, 56⟩
/-- `GRF_STAT.SPARES`: spares in use on the receive side, 0..8. -/
def GRF_STAT.SPARES : Fld := ⟨.GRF_STAT, 51, 48⟩
/-- `GRF_STAT.BLOCK`: first data lane of the block, divided by 64. -/
def GRF_STAT.BLOCK : Fld := ⟨.GRF_STAT, 39, 36⟩
/-- `GRF_STAT.WIDTH`: data lanes in use, divided by 64. -/
def GRF_STAT.WIDTH : Fld := ⟨.GRF_STAT, 35, 32⟩
/-- `GRF_STAT.CAUSE`: last cause of going down: 0 none, 1 STRAP, 2 NO_LOCK, 3 NOT_FORMABLE, 4 NO_AGREEMENT, 5 RE. -/
def GRF_STAT.CAUSE : Fld := ⟨.GRF_STAT, 7, 4⟩
/-- `GRF_STAT.STATE`: 0 DOWN, 1 TRAINING, 2 UP, 3 PAUSED, 4 RETRAINING. -/
def GRF_STAT.STATE : Fld := ⟨.GRF_STAT, 2, 0⟩
/-- `GRF_CTL.RETRAIN`: 1 starts a fast retrain under R219. -/
def GRF_CTL.RETRAIN : Fld := ⟨.GRF_CTL, 16, 16⟩
/-- `GRF_CTL.WIN`: count interval of R220 is 2^WIN ticks. -/
def GRF_CTL.WIN : Fld := ⟨.GRF_CTL, 12, 8⟩
/-- `GRF_CTL.THRESH`: errors that make a lane failing. -/
def GRF_CTL.THRESH : Fld := ⟨.GRF_CTL, 7, 0⟩
/-- `GRF_LANE_FAIL.LANES`: k = 0..3: bit i is data lane 64k + i. -/
def GRF_LANE_FAIL.LANES : Fld := ⟨.GRF_LANE_FAIL, 63, 0⟩
/-- `GRF_LANE_MASK.LANES`: k = 0..3: bit i is data lane 64k + i. -/
def GRF_LANE_MASK.LANES : Fld := ⟨.GRF_LANE_MASK, 63, 0⟩
/-- `GRF_LANE_ERR.COUNT`: count of R220 for LANE in the current interval. -/
def GRF_LANE_ERR.COUNT : Fld := ⟨.GRF_LANE_ERR, 47, 32⟩
/-- `GRF_LANE_ERR.LANE`: physical lane, 0..263. -/
def GRF_LANE_ERR.LANE : Fld := ⟨.GRF_LANE_ERR, 8, 0⟩
/-- `GRF_CNT.RETRAINS`: fast retrains. -/
def GRF_CNT.RETRAINS : Fld := ⟨.GRF_CNT, 63, 48⟩
/-- `GRF_CNT.REPAIRS`: lanes repaired under R221. -/
def GRF_CNT.REPAIRS : Fld := ⟨.GRF_CNT, 47, 32⟩
/-- `GRF_CNT.REPLAYS`: RETRY flits received. -/
def GRF_CNT.REPLAYS : Fld := ⟨.GRF_CNT, 31, 0⟩
/-- `GRF_TRAIN_HEAD.WRAPPED`: entries have been overwritten. -/
def GRF_TRAIN_HEAD.WRAPPED : Fld := ⟨.GRF_TRAIN_HEAD, 63, 63⟩
/-- `GRF_TRAIN_HEAD.NEXT`: entry to be written next. -/
def GRF_TRAIN_HEAD.NEXT : Fld := ⟨.GRF_TRAIN_HEAD, 2, 0⟩
/-- `GRF_TRAIN_LOG.VALID`: the entry holds a record. -/
def GRF_TRAIN_LOG.VALID : Fld := ⟨.GRF_TRAIN_LOG, 63, 63⟩
/-- `GRF_TRAIN_LOG.GEN`: generation of the training. -/
def GRF_TRAIN_LOG.GEN : Fld := ⟨.GRF_TRAIN_LOG, 62, 55⟩
/-- `GRF_TRAIN_LOG.ROUND`: round 1..3, or 0 outside width agreement. -/
def GRF_TRAIN_LOG.ROUND : Fld := ⟨.GRF_TRAIN_LOG, 54, 53⟩
/-- `GRF_TRAIN_LOG.PROPOSED`: width proposed by the authoritative side, divided by 64. -/
def GRF_TRAIN_LOG.PROPOSED : Fld := ⟨.GRF_TRAIN_LOG, 52, 49⟩
/-- `GRF_TRAIN_LOG.REPLY`: width answered by the other side, divided by 64. -/
def GRF_TRAIN_LOG.REPLY : Fld := ⟨.GRF_TRAIN_LOG, 48, 45⟩
/-- `GRF_TRAIN_LOG.RESULT`: 0 agreed, 1 adopted, 2 common width taken, 3 fell to 64, 4 down, 5 strap mismatch, 6 no lo. -/
def GRF_TRAIN_LOG.RESULT : Fld := ⟨.GRF_TRAIN_LOG, 44, 41⟩
/-- `GRF_TRAIN_LOG.STRAP`: strap value reported by the bough. -/
def GRF_TRAIN_LOG.STRAP : Fld := ⟨.GRF_TRAIN_LOG, 40, 36⟩
/-- `GRF_TRAIN_LOG.RING`: bits [31:0] of the ring count. -/
def GRF_TRAIN_LOG.RING : Fld := ⟨.GRF_TRAIN_LOG, 31, 0⟩
/-- `GRFB_STAT.GEN`: GEN of the last training. -/
def GRFB_STAT.GEN : Fld := ⟨.GRFB_STAT, 63, 56⟩
/-- `GRFB_STAT.SPARES`: spares in use on the receive side, 0..8. -/
def GRFB_STAT.SPARES : Fld := ⟨.GRFB_STAT, 51, 48⟩
/-- `GRFB_STAT.BLOCK`: first data lane of the block, divided by 64. -/
def GRFB_STAT.BLOCK : Fld := ⟨.GRFB_STAT, 39, 36⟩
/-- `GRFB_STAT.WIDTH`: data lanes in use, divided by 64. -/
def GRFB_STAT.WIDTH : Fld := ⟨.GRFB_STAT, 35, 32⟩
/-- `GRFB_STAT.CAUSE`: last cause of going down: 0 none, 1 STRAP, 2 NO_LOCK, 3 NOT_FORMABLE, 4 NO_AGREEMENT, 5 RE. -/
def GRFB_STAT.CAUSE : Fld := ⟨.GRFB_STAT, 7, 4⟩
/-- `GRFB_STAT.STATE`: 0 DOWN, 1 TRAINING, 2 UP, 3 PAUSED, 4 RETRAINING. -/
def GRFB_STAT.STATE : Fld := ⟨.GRFB_STAT, 2, 0⟩
/-- `GRFB_CTL.RETRAIN`: 1 starts a fast retrain under R219. -/
def GRFB_CTL.RETRAIN : Fld := ⟨.GRFB_CTL, 16, 16⟩
/-- `GRFB_CTL.WIN`: count interval of R220 is 2^WIN ticks. -/
def GRFB_CTL.WIN : Fld := ⟨.GRFB_CTL, 12, 8⟩
/-- `GRFB_CTL.THRESH`: errors that make a lane failing. -/
def GRFB_CTL.THRESH : Fld := ⟨.GRFB_CTL, 7, 0⟩
/-- `GRFB_LANE_FAIL.LANES`: k = 0..3: bit i is data lane 64k + i. -/
def GRFB_LANE_FAIL.LANES : Fld := ⟨.GRFB_LANE_FAIL, 63, 0⟩
/-- `GRFB_LANE_MASK.LANES`: k = 0..3: bit i is data lane 64k + i. -/
def GRFB_LANE_MASK.LANES : Fld := ⟨.GRFB_LANE_MASK, 63, 0⟩
/-- `GRFB_LANE_ERR.COUNT`: count of R220 for LANE in the current interval. -/
def GRFB_LANE_ERR.COUNT : Fld := ⟨.GRFB_LANE_ERR, 47, 32⟩
/-- `GRFB_LANE_ERR.LANE`: physical lane, 0..263. -/
def GRFB_LANE_ERR.LANE : Fld := ⟨.GRFB_LANE_ERR, 8, 0⟩
/-- `GRFB_CNT.RETRAINS`: fast retrains. -/
def GRFB_CNT.RETRAINS : Fld := ⟨.GRFB_CNT, 63, 48⟩
/-- `GRFB_CNT.REPAIRS`: lanes repaired under R221. -/
def GRFB_CNT.REPAIRS : Fld := ⟨.GRFB_CNT, 47, 32⟩
/-- `GRFB_CNT.REPLAYS`: RETRY flits received. -/
def GRFB_CNT.REPLAYS : Fld := ⟨.GRFB_CNT, 31, 0⟩
/-- `GRFB_TRAIN_HEAD.WRAPPED`: entries have been overwritten. -/
def GRFB_TRAIN_HEAD.WRAPPED : Fld := ⟨.GRFB_TRAIN_HEAD, 63, 63⟩
/-- `GRFB_TRAIN_HEAD.NEXT`: entry to be written next. -/
def GRFB_TRAIN_HEAD.NEXT : Fld := ⟨.GRFB_TRAIN_HEAD, 2, 0⟩
/-- `GRFB_TRAIN_LOG.VALID`: the entry holds a record. -/
def GRFB_TRAIN_LOG.VALID : Fld := ⟨.GRFB_TRAIN_LOG, 63, 63⟩
/-- `GRFB_TRAIN_LOG.GEN`: generation of the training. -/
def GRFB_TRAIN_LOG.GEN : Fld := ⟨.GRFB_TRAIN_LOG, 62, 55⟩
/-- `GRFB_TRAIN_LOG.ROUND`: round 1..3, or 0 outside width agreement. -/
def GRFB_TRAIN_LOG.ROUND : Fld := ⟨.GRFB_TRAIN_LOG, 54, 53⟩
/-- `GRFB_TRAIN_LOG.PROPOSED`: width proposed by the authoritative side, divided by 64. -/
def GRFB_TRAIN_LOG.PROPOSED : Fld := ⟨.GRFB_TRAIN_LOG, 52, 49⟩
/-- `GRFB_TRAIN_LOG.REPLY`: width answered by the other side, divided by 64. -/
def GRFB_TRAIN_LOG.REPLY : Fld := ⟨.GRFB_TRAIN_LOG, 48, 45⟩
/-- `GRFB_TRAIN_LOG.RESULT`: 0 agreed, 1 adopted, 2 common width taken, 3 fell to 64, 4 down, 5 strap mismatch, 6 no lo. -/
def GRFB_TRAIN_LOG.RESULT : Fld := ⟨.GRFB_TRAIN_LOG, 44, 41⟩
/-- `GRFB_TRAIN_LOG.STRAP`: strap value reported by the bough. -/
def GRFB_TRAIN_LOG.STRAP : Fld := ⟨.GRFB_TRAIN_LOG, 40, 36⟩
/-- `GRFB_TRAIN_LOG.RING`: bits [31:0] of the ring count. -/
def GRFB_TRAIN_LOG.RING : Fld := ⟨.GRFB_TRAIN_LOG, 31, 0⟩
/-- `SPN_CTL.RETRAIN`: 1 takes an enabled port down and brings it up under R236. -/
def SPN_CTL.RETRAIN : Fld := ⟨.SPN_CTL, 8, 8⟩
/-- `SPN_CTL.MEDIA`: 0 copper, 1 C2M. -/
def SPN_CTL.MEDIA : Fld := ⟨.SPN_CTL, 5, 4⟩
/-- `SPN_CTL.AUTO`: retrain automatically after going down. -/
def SPN_CTL.AUTO : Fld := ⟨.SPN_CTL, 3, 3⟩
/-- `SPN_CTL.TROLE`: 1 upstream under R235. -/
def SPN_CTL.TROLE : Fld := ⟨.SPN_CTL, 2, 2⟩
/-- `SPN_CTL.EN`: ENABLE bit of the SPAN section. -/
def SPN_CTL.EN : Fld := ⟨.SPN_CTL, 0, 0⟩
/-- `SPN_STAT.PEER_PKG`: peer package ID from HELLO. -/
def SPN_STAT.PEER_PKG : Fld := ⟨.SPN_STAT, 63, 58⟩
/-- `SPN_STAT.PEER_PORT`: peer span port. -/
def SPN_STAT.PEER_PORT : Fld := ⟨.SPN_STAT, 57, 56⟩
/-- `SPN_STAT.PEER_BEH`: peer behaviour level. -/
def SPN_STAT.PEER_BEH : Fld := ⟨.SPN_STAT, 55, 48⟩
/-- `SPN_STAT.CAUSE`: last cause of going down: 0 none, 1 LOSS_OF_LOCK, 2 FEC_LOCK, 3 LOOP, 4 TOO_LONG, 5 KEEPAL. -/
def SPN_STAT.CAUSE : Fld := ⟨.SPN_STAT, 39, 32⟩
/-- `SPN_STAT.RTT`: round trip measured in HELLO, in ticks. -/
def SPN_STAT.RTT : Fld := ⟨.SPN_STAT, 31, 16⟩
/-- `SPN_STAT.LANES`: lanes in use: 0, 4, 8 or 16. -/
def SPN_STAT.LANES : Fld := ⟨.SPN_STAT, 7, 3⟩
/-- `SPN_STAT.STATE`: 0 DOWN, 1 TRAINING, 2 UP. -/
def SPN_STAT.STATE : Fld := ⟨.SPN_STAT, 2, 0⟩
/-- `SPN_TIME.LOCKED`: aligned under R235. -/
def SPN_TIME.LOCKED : Fld := ⟨.SPN_TIME, 63, 63⟩
/-- `SPN_TIME.FAR`: the last offset exceeded 2^10 ticks. -/
def SPN_TIME.FAR : Fld := ⟨.SPN_TIME, 62, 62⟩
/-- `SPN_TIME.DELAY`: last one-way delay, in ticks. -/
def SPN_TIME.DELAY : Fld := ⟨.SPN_TIME, 47, 32⟩
/-- `SPN_TIME.OFFSET`: last offset, two's complement, in ticks, saturating. -/
def SPN_TIME.OFFSET : Fld := ⟨.SPN_TIME, 31, 0⟩
/-- `SPN_XCH_TMO.TMO_US`: 1..1,000 µs. -/
def SPN_XCH_TMO.TMO_US : Fld := ⟨.SPN_XCH_TMO, 9, 0⟩
/-- `SPN_FEC.UNCORR`: uncorrectable codewords. -/
def SPN_FEC.UNCORR : Fld := ⟨.SPN_FEC, 63, 32⟩
/-- `SPN_FEC.CORR`: corrected codewords. -/
def SPN_FEC.CORR : Fld := ⟨.SPN_FEC, 31, 0⟩
/-- `SPN_CNT.REPLAYS`: RETRY flits received. -/
def SPN_CNT.REPLAYS : Fld := ⟨.SPN_CNT, 63, 32⟩
/-- `SPN_CNT.UNREACH`: remote SENDs answered UNREACHABLE under R232. -/
def SPN_CNT.UNREACH : Fld := ⟨.SPN_CNT, 31, 16⟩
/-- `SPN_CNT.TTL_DROP`: routed packets discarded. -/
def SPN_CNT.TTL_DROP : Fld := ⟨.SPN_CNT, 15, 0⟩
/-- `SPN_ROUTE.VALID`: the route may be used. -/
def SPN_ROUTE.VALID : Fld := ⟨.SPN_ROUTE, 3, 3⟩
/-- `SPN_ROUTE.PORT`: span port towards package d. -/
def SPN_ROUTE.PORT : Fld := ⟨.SPN_ROUTE, 1, 0⟩
/-- `TIM_COUNT.RING`: master ring count under R238. -/
def TIM_COUNT.RING : Fld := ⟨.TIM_COUNT, 63, 0⟩
/-- `TIM_STEP.ADD`: ticks to add, 1..2^62. -/
def TIM_STEP.ADD : Fld := ⟨.TIM_STEP, 62, 0⟩
/-- `TIM_STAT.SLEEP_FIX`: the master was rebuilt from the crystal under R243. -/
def TIM_STAT.SLEEP_FIX : Fld := ⟨.TIM_STAT, 63, 63⟩
/-- `TIM_STAT.SLEWING`: a slew under R235 is in progress. -/
def TIM_STAT.SLEWING : Fld := ⟨.TIM_STAT, 62, 62⟩
/-- `TIM_STAT.STEPS`: forward steps applied, from TIM_STEP or R235. -/
def TIM_STAT.STEPS : Fld := ⟨.TIM_STAT, 31, 0⟩
/-- `TIM_SITE.LOCKED`: the copy is locked under R240. -/
def TIM_SITE.LOCKED : Fld := ⟨.TIM_SITE, 63, 63⟩
/-- `TIM_SITE.SLEW`: the copy is slewing. -/
def TIM_SITE.SLEW : Fld := ⟨.TIM_SITE, 62, 62⟩
/-- `TIM_SITE.OFFSET`: offset from the last SYNC_ACK, two's complement, in ticks. -/
def TIM_SITE.OFFSET : Fld := ⟨.TIM_SITE, 47, 40⟩
/-- `TIM_SITE.STEPS`: forward steps of this copy under R240, including those that follow a step of the master. -/
def TIM_SITE.STEPS : Fld := ⟨.TIM_SITE, 31, 16⟩
/-- `TIM_SITE.DELAY`: graft delay in ticks under R241. -/
def TIM_SITE.DELAY : Fld := ⟨.TIM_SITE, 15, 0⟩
/-- `TRC_CTL.PANIC_OFF`: panic is lowered below this many records. -/
def TRC_CTL.PANIC_OFF : Fld := ⟨.TRC_CTL, 60, 48⟩
/-- `TRC_CTL.PANIC_ON`: panic is raised above this many records. -/
def TRC_CTL.PANIC_ON : Fld := ⟨.TRC_CTL, 44, 32⟩
/-- `TRC_CTL.TAIL_US`: tail timeout in µs, 1..1,000. -/
def TRC_CTL.TAIL_US : Fld := ⟨.TRC_CTL, 9, 0⟩
/-- `TRC_STAT.PANIC`: panic is raised. -/
def TRC_STAT.PANIC : Fld := ⟨.TRC_STAT, 63, 63⟩
/-- `TRC_STAT.CFG_IGN`: a ring configuration write was ignored. -/
def TRC_STAT.CFG_IGN : Fld := ⟨.TRC_STAT, 62, 62⟩
/-- `TRC_STAT.PANICS`: times panic was raised. -/
def TRC_STAT.PANICS : Fld := ⟨.TRC_STAT, 47, 32⟩
/-- `TRC_STAT.FILL`: records in the trace buffer, 0..4,096. -/
def TRC_STAT.FILL : Fld := ⟨.TRC_STAT, 12, 0⟩
/-- `TRC_IRQ.TARGET`: IMSIC target word under R64. -/
def TRC_IRQ.TARGET : Fld := ⟨.TRC_IRQ, 31, 0⟩
/-- `TRC_IRQ_STAT.ACCESS`: bit k: ring k was disabled by an ACCESS drop. -/
def TRC_IRQ_STAT.ACCESS : Fld := ⟨.TRC_IRQ_STAT, 11, 8⟩
/-- `TRC_IRQ_STAT.GAP`: bit k: ring k received a gap record. -/
def TRC_IRQ_STAT.GAP : Fld := ⟨.TRC_IRQ_STAT, 7, 4⟩
/-- `TRC_IRQ_STAT.WMARK`: bit k: ring k reached its watermark. -/
def TRC_IRQ_STAT.WMARK : Fld := ⟨.TRC_IRQ_STAT, 3, 0⟩
/-- `TRC_RING_BASE.ADDR`: bits [47:12] of the ring's physical address. -/
def TRC_RING_BASE.ADDR : Fld := ⟨.TRC_RING_BASE, 47, 12⟩
/-- `TRC_RING_CTL.WRAPPED`: a wrap-mode ring has overwritten a record. -/
def TRC_RING_CTL.WRAPPED : Fld := ⟨.TRC_RING_CTL, 63, 63⟩
/-- `TRC_RING_CTL.WMARK`: watermark in records. -/
def TRC_RING_CTL.WMARK : Fld := ⟨.TRC_RING_CTL, 31, 8⟩
/-- `TRC_RING_CTL.LOG2`: ring size 2^LOG2 records, 6..26. -/
def TRC_RING_CTL.LOG2 : Fld := ⟨.TRC_RING_CTL, 7, 3⟩
/-- `TRC_RING_CTL.MODE`: 0 stop mode, 1 wrap mode. -/
def TRC_RING_CTL.MODE : Fld := ⟨.TRC_RING_CTL, 1, 1⟩
/-- `TRC_RING_CTL.EN`: the ring accepts records. -/
def TRC_RING_CTL.EN : Fld := ⟨.TRC_RING_CTL, 0, 0⟩
/-- `TRC_RING_WR.COUNT`: records written, or records consumed by software. -/
def TRC_RING_WR.COUNT : Fld := ⟨.TRC_RING_WR, 31, 0⟩
/-- `TRC_RING_RD.COUNT`: records written, or records consumed by software. -/
def TRC_RING_RD.COUNT : Fld := ⟨.TRC_RING_RD, 31, 0⟩
/-- `TRC_RING_DROP.PENDING`: the gap accumulator holds drops not yet reported. -/
def TRC_RING_DROP.PENDING : Fld := ⟨.TRC_RING_DROP, 63, 63⟩
/-- `TRC_RING_DROP.GAPS`: gap records written. -/
def TRC_RING_DROP.GAPS : Fld := ⟨.TRC_RING_DROP, 47, 32⟩
/-- `TRC_RING_DROP.RECORDS`: records dropped, every cause. -/
def TRC_RING_DROP.RECORDS : Fld := ⟨.TRC_RING_DROP, 31, 0⟩
/-- `TRC_PACK.LOST`: records lost under R250. -/
def TRC_PACK.LOST : Fld := ⟨.TRC_PACK, 63, 48⟩
/-- `TRC_PACK.TAILS`: flushes under R249. -/
def TRC_PACK.TAILS : Fld := ⟨.TRC_PACK, 47, 32⟩
/-- `TRC_PACK.RECORDS`: records sent. -/
def TRC_PACK.RECORDS : Fld := ⟨.TRC_PACK, 31, 0⟩
/-- `MEM_CFG.CAP`: capacity used, C of R261, in GiB, 0..512. -/
def MEM_CFG.CAP : Fld := ⟨.MEM_CFG, 41, 32⟩
/-- `MEM_CFG.RATE`: data rate in units of 100 MT/s. -/
def MEM_CFG.RATE : Fld := ⟨.MEM_CFG, 31, 24⟩
/-- `MEM_CFG.DENSITY`: 0 16 Gb, 1 24 Gb, 2 32 Gb. -/
def MEM_CFG.DENSITY : Fld := ⟨.MEM_CFG, 17, 16⟩
/-- `MEM_CFG.WIDTH`: 0 x4, 1 x8. -/
def MEM_CFG.WIDTH : Fld := ⟨.MEM_CFG, 12, 12⟩
/-- `MEM_CFG.LRANKS_LOG2`: r of R264. -/
def MEM_CFG.LRANKS_LOG2 : Fld := ⟨.MEM_CFG, 9, 8⟩
/-- `MEM_CFG.DIMMS`: DIMMs found, 0..2. -/
def MEM_CFG.DIMMS : Fld := ⟨.MEM_CFG, 1, 0⟩
/-- `MEM_STAT.UE`: an uncorrectable error was found under R279 or R281. -/
def MEM_STAT.UE : Fld := ⟨.MEM_STAT, 63, 63⟩
/-- `MEM_STAT.CE_THR`: the threshold of R282 was reached. -/
def MEM_STAT.CE_THR : Fld := ⟨.MEM_STAT, 62, 62⟩
/-- `MEM_STAT.HOT`: refresh interval halved under R271. -/
def MEM_STAT.HOT : Fld := ⟨.MEM_STAT, 61, 61⟩
/-- `MEM_STAT.KEPT`: contents kept through the last warm reset under R276. -/
def MEM_STAT.KEPT : Fld := ⟨.MEM_STAT, 60, 60⟩
/-- `MEM_STAT.CAUSE`: when FAILED: 1 SPD, 2 MISMATCH, 3 CA_TRAIN, 4 WRITE_LEVEL, 5 READ_EYE, 6 WRITE_EYE, 7 REIN. -/
def MEM_STAT.CAUSE : Fld := ⟨.MEM_STAT, 15, 8⟩
/-- `MEM_STAT.STATE`: 0 UNUSED, 1 TRAINING, 2 FILLING, 3 READY, 4 FAILED, 5 RETRAINING, 6 SELF_REFRESH, 7 QUIESC. -/
def MEM_STAT.STATE : Fld := ⟨.MEM_STAT, 3, 0⟩
/-- `MEM_CTL.REINIT`: 1 re-initialises the channel under R277. -/
def MEM_CTL.REINIT : Fld := ⟨.MEM_CTL, 8, 8⟩
/-- `MEM_CTL.TRAIN`: 1 requests a full retraining sweep under R274. -/
def MEM_CTL.TRAIN : Fld := ⟨.MEM_CTL, 4, 4⟩
/-- `MEM_CTL.REFAB`: 1 all-bank refresh, 0 same-bank refresh. -/
def MEM_CTL.REFAB : Fld := ⟨.MEM_CTL, 1, 1⟩
/-- `MEM_CTL.QUIESCE`: 1 holds new requests at the controller's input. -/
def MEM_CTL.QUIESCE : Fld := ⟨.MEM_CTL, 0, 0⟩
/-- `MEM_IL.BASE_HI`: bits [47:32] of the set's base. -/
def MEM_IL.BASE_HI : Fld := ⟨.MEM_IL, 47, 32⟩
/-- `MEM_IL.GRAN_LOG2`: 8 for 256 B, 12 for 4 KiB. -/
def MEM_IL.GRAN_LOG2 : Fld := ⟨.MEM_IL, 19, 16⟩
/-- `MEM_IL.SLOT`: position of this channel in the set. -/
def MEM_IL.SLOT : Fld := ⟨.MEM_IL, 11, 8⟩
/-- `MEM_IL.N`: channels in the set, 0..16. -/
def MEM_IL.N : Fld := ⟨.MEM_IL, 4, 0⟩
/-- `MEM_XOR.MASK`: CA bits whose exclusive-or forms mapped bit i. -/
def MEM_XOR.MASK : Fld := ⟨.MEM_XOR, 47, 0⟩
/-- `MEM_INIT.DONE`: FRONT has reached C. -/
def MEM_INIT.DONE : Fld := ⟨.MEM_INIT, 63, 63⟩
/-- `MEM_INIT.FRONT`: bits [39:6] of the first channel address not yet usable. -/
def MEM_INIT.FRONT : Fld := ⟨.MEM_INIT, 39, 6⟩
/-- `MEM_TRAIN.PENDING`: a sweep waits for an idle channel. -/
def MEM_TRAIN.PENDING : Fld := ⟨.MEM_TRAIN, 63, 63⟩
/-- `MEM_TRAIN.BUSY`: a sweep or re-initialisation is running. -/
def MEM_TRAIN.BUSY : Fld := ⟨.MEM_TRAIN, 62, 62⟩
/-- `MEM_TRAIN.LAST`: result of the last sweep: 0 OK, otherwise a CAUSE code of MEM_STAT. -/
def MEM_TRAIN.LAST : Fld := ⟨.MEM_TRAIN, 55, 48⟩
/-- `MEM_TRAIN.DRIFT_US`: drift-tracking interval in µs, 10..1,000. -/
def MEM_TRAIN.DRIFT_US : Fld := ⟨.MEM_TRAIN, 25, 16⟩
/-- `MEM_TRAIN.SWEEPS`: sweeps completed since the warm reset. -/
def MEM_TRAIN.SWEEPS : Fld := ⟨.MEM_TRAIN, 15, 0⟩
/-- `MEM_SCRUB.PASSES`: full passes completed. -/
def MEM_SCRUB.PASSES : Fld := ⟨.MEM_SCRUB, 63, 48⟩
/-- `MEM_SCRUB.PERIOD_H`: hours per pass, 1..168. -/
def MEM_SCRUB.PERIOD_H : Fld := ⟨.MEM_SCRUB, 7, 0⟩
/-- `MEM_ECC_CNT.UE`: uncorrectable errors. -/
def MEM_ECC_CNT.UE : Fld := ⟨.MEM_ECC_CNT, 63, 48⟩
/-- `MEM_ECC_CNT.RETRY_OK`: errors corrected by the second read. -/
def MEM_ECC_CNT.RETRY_OK : Fld := ⟨.MEM_ECC_CNT, 47, 32⟩
/-- `MEM_ECC_CNT.CE`: corrected errors, scrub included. -/
def MEM_ECC_CNT.CE : Fld := ⟨.MEM_ECC_CNT, 31, 0⟩
/-- `MEM_CE_CTL.WIN`: window of 2^WIN ticks, 20..48. -/
def MEM_CE_CTL.WIN : Fld := ⟨.MEM_CE_CTL, 37, 32⟩
/-- `MEM_CE_CTL.THRESH`: corrected errors per window. -/
def MEM_CE_CTL.THRESH : Fld := ⟨.MEM_CE_CTL, 15, 0⟩
/-- `MEM_ECC_LOG.VALID`: an error is captured. -/
def MEM_ECC_LOG.VALID : Fld := ⟨.MEM_ECC_LOG, 63, 63⟩
/-- `MEM_ECC_LOG.KIND`: 1 CE, 2 RETRY_OK, 3 UE, 4 SCRUB_CE, 5 SCRUB_UE. -/
def MEM_ECC_LOG.KIND : Fld := ⟨.MEM_ECC_LOG, 62, 60⟩
/-- `MEM_ECC_LOG.DEVICE`: device within the subchannel, 0..9. -/
def MEM_ECC_LOG.DEVICE : Fld := ⟨.MEM_ECC_LOG, 59, 56⟩
/-- `MEM_ECC_LOG.SUB`: subchannel. -/
def MEM_ECC_LOG.SUB : Fld := ⟨.MEM_ECC_LOG, 55, 55⟩
/-- `MEM_ECC_LOG.RANK`: logical rank. -/
def MEM_ECC_LOG.RANK : Fld := ⟨.MEM_ECC_LOG, 54, 52⟩
/-- `MEM_ECC_LOG.BG`: bank group. -/
def MEM_ECC_LOG.BG : Fld := ⟨.MEM_ECC_LOG, 51, 49⟩
/-- `MEM_ECC_LOG.BA`: bank. -/
def MEM_ECC_LOG.BA : Fld := ⟨.MEM_ECC_LOG, 48, 47⟩
/-- `MEM_ECC_LOG.ROW`: row. -/
def MEM_ECC_LOG.ROW : Fld := ⟨.MEM_ECC_LOG, 46, 30⟩
/-- `MEM_ECC_LOG.BURST`: burst index. -/
def MEM_ECC_LOG.BURST : Fld := ⟨.MEM_ECC_LOG, 29, 23⟩
/-- `MEM_ECC_ADDR.ADDR`: bits [47:6] of the line's physical address. -/
def MEM_ECC_ADDR.ADDR : Fld := ⟨.MEM_ECC_ADDR, 47, 6⟩
/-- `MEM_BIST.DONE`: the test has ended, or was refused. -/
def MEM_BIST.DONE : Fld := ⟨.MEM_BIST, 63, 63⟩
/-- `MEM_BIST.BUSY`: a test is running. -/
def MEM_BIST.BUSY : Fld := ⟨.MEM_BIST, 62, 62⟩
/-- `MEM_BIST.STATUS`: 0 OK, 1 BUSY, 2 FAIL. -/
def MEM_BIST.STATUS : Fld := ⟨.MEM_BIST, 55, 48⟩
/-- `MEM_BIST.GO`: 1 starts a test. -/
def MEM_BIST.GO : Fld := ⟨.MEM_BIST, 8, 8⟩
/-- `MEM_BIST.ALL`: 1 tests every rank. -/
def MEM_BIST.ALL : Fld := ⟨.MEM_BIST, 7, 7⟩
/-- `MEM_BIST.RANK`: logical rank to test. -/
def MEM_BIST.RANK : Fld := ⟨.MEM_BIST, 2, 0⟩
/-- `MEM_Q.RT`: real-time queue entries in use, 0..16. -/
def MEM_Q.RT : Fld := ⟨.MEM_Q, 23, 16⟩
/-- `MEM_Q.WR`: write queue entries in use, 0..64. -/
def MEM_Q.WR : Fld := ⟨.MEM_Q, 15, 8⟩
/-- `MEM_Q.RD`: read queue entries in use, 0..64. -/
def MEM_Q.RD : Fld := ⟨.MEM_Q, 7, 0⟩
/-- `MEM_CNT.COUNT`: event count. -/
def MEM_CNT.COUNT : Fld := ⟨.MEM_CNT, 63, 0⟩
/-- `TTU_CTL.ATS_MS`: ATS invalidation timeout in ms, 1..60,000. -/
def TTU_CTL.ATS_MS : Fld := ⟨.TTU_CTL, 47, 32⟩
/-- `TTU_CTL.STALL_US`: stall timeout in µs, 1..1,000. -/
def TTU_CTL.STALL_US : Fld := ⟨.TTU_CTL, 25, 16⟩
/-- `TTU_CTL.WALK_US`: walk read timeout in µs, 1..1,000. -/
def TTU_CTL.WALK_US : Fld := ⟨.TTU_CTL, 9, 0⟩
/-- `TTU_STAT.FQ_OVF`: a fault record was dropped. -/
def TTU_STAT.FQ_OVF : Fld := ⟨.TTU_STAT, 63, 63⟩
/-- `TTU_STAT.STALE_CMD`: a stall command named an empty slot. -/
def TTU_STAT.STALE_CMD : Fld := ⟨.TTU_STAT, 62, 62⟩
/-- `TTU_STAT.STALLED`: stall slots in use. -/
def TTU_STAT.STALLED : Fld := ⟨.TTU_STAT, 39, 32⟩
/-- `TTU_STAT.PQ_DROP`: page requests dropped. -/
def TTU_STAT.PQ_DROP : Fld := ⟨.TTU_STAT, 31, 16⟩
/-- `TTU_STAT.FQ_DROP`: fault records dropped. -/
def TTU_STAT.FQ_DROP : Fld := ⟨.TTU_STAT, 15, 0⟩
/-- `TTU_IRQ.TARGET`: IMSIC target word under R64. -/
def TTU_IRQ.TARGET : Fld := ⟨.TTU_IRQ, 31, 0⟩
/-- `TTU_IRQ_STAT.INV`: an invalidation completed. -/
def TTU_IRQ_STAT.INV : Fld := ⟨.TTU_IRQ_STAT, 2, 2⟩
/-- `TTU_IRQ_STAT.PQ`: the page request queue became non-empty. -/
def TTU_IRQ_STAT.PQ : Fld := ⟨.TTU_IRQ_STAT, 1, 1⟩
/-- `TTU_IRQ_STAT.FQ`: the fault queue became non-empty. -/
def TTU_IRQ_STAT.FQ : Fld := ⟨.TTU_IRQ_STAT, 0, 0⟩
/-- `TTU_DDT.BASE`: bits [47:12] of the level-1 table address. -/
def TTU_DDT.BASE : Fld := ⟨.TTU_DDT, 47, 12⟩
/-- `TTU_DDT.EN`: the segment is translated. -/
def TTU_DDT.EN : Fld := ⟨.TTU_DDT, 0, 0⟩
/-- `TTU_WALK_BASE.EN`: the range is in use. -/
def TTU_WALK_BASE.EN : Fld := ⟨.TTU_WALK_BASE, 63, 63⟩
/-- `TTU_WALK_BASE.ADDR`: bits [47:12] of the first or last page. -/
def TTU_WALK_BASE.ADDR : Fld := ⟨.TTU_WALK_BASE, 47, 12⟩
/-- `TTU_WALK_LIMIT.ADDR`: bits [47:12] of the first or last page. -/
def TTU_WALK_LIMIT.ADDR : Fld := ⟨.TTU_WALK_LIMIT, 47, 12⟩
/-- `TTU_FQ_BASE.EN`: the queue accepts records. -/
def TTU_FQ_BASE.EN : Fld := ⟨.TTU_FQ_BASE, 63, 63⟩
/-- `TTU_FQ_BASE.ADDR`: bits [47:12] of the queue address. -/
def TTU_FQ_BASE.ADDR : Fld := ⟨.TTU_FQ_BASE, 47, 12⟩
/-- `TTU_FQ_BASE.LOG2`: 2^LOG2 records, 4..16. -/
def TTU_FQ_BASE.LOG2 : Fld := ⟨.TTU_FQ_BASE, 4, 0⟩
/-- `TTU_FQ_TAIL.COUNT`: records written, or records consumed by software. -/
def TTU_FQ_TAIL.COUNT : Fld := ⟨.TTU_FQ_TAIL, 31, 0⟩
/-- `TTU_FQ_HEAD.COUNT`: records written, or records consumed by software. -/
def TTU_FQ_HEAD.COUNT : Fld := ⟨.TTU_FQ_HEAD, 31, 0⟩
/-- `TTU_PQ_BASE.EN`: the queue accepts records. -/
def TTU_PQ_BASE.EN : Fld := ⟨.TTU_PQ_BASE, 63, 63⟩
/-- `TTU_PQ_BASE.ADDR`: bits [47:12] of the queue address. -/
def TTU_PQ_BASE.ADDR : Fld := ⟨.TTU_PQ_BASE, 47, 12⟩
/-- `TTU_PQ_BASE.LOG2`: 2^LOG2 records, 4..16. -/
def TTU_PQ_BASE.LOG2 : Fld := ⟨.TTU_PQ_BASE, 4, 0⟩
/-- `TTU_PQ_TAIL.COUNT`: records written, or records consumed by software. -/
def TTU_PQ_TAIL.COUNT : Fld := ⟨.TTU_PQ_TAIL, 31, 0⟩
/-- `TTU_PQ_HEAD.COUNT`: records written, or records consumed by software. -/
def TTU_PQ_HEAD.COUNT : Fld := ⟨.TTU_PQ_HEAD, 31, 0⟩
/-- `TTU_INV_CMD.OP`: 1 CTX: context, PASID and interrupt entries and all translations of the device. -/
def TTU_INV_CMD.OP : Fld := ⟨.TTU_INV_CMD, 63, 60⟩
/-- `TTU_INV_CMD.PV`: PASID is valid. -/
def TTU_INV_CMD.PV : Fld := ⟨.TTU_INV_CMD, 59, 59⟩
/-- `TTU_INV_CMD.PASID`: PASID. -/
def TTU_INV_CMD.PASID : Fld := ⟨.TTU_INV_CMD, 39, 20⟩
/-- `TTU_INV_CMD.SEG`: segment, 0..8. -/
def TTU_INV_CMD.SEG : Fld := ⟨.TTU_INV_CMD, 19, 16⟩
/-- `TTU_INV_CMD.RID_GSCID`: requester ID. -/
def TTU_INV_CMD.RID_GSCID : Fld := ⟨.TTU_INV_CMD, 15, 0⟩
/-- `TTU_INV_ADDR.ADDR`: bits [47:12] of the first IOVA or GPA, aligned to 2^LOG2 pages. -/
def TTU_INV_ADDR.ADDR : Fld := ⟨.TTU_INV_ADDR, 47, 12⟩
/-- `TTU_INV_ADDR.LOG2`: the range covers 2^LOG2 pages of 4 KiB, 0..36. -/
def TTU_INV_ADDR.LOG2 : Fld := ⟨.TTU_INV_ADDR, 5, 0⟩
/-- `TTU_INV_STAT.DONE`: the invalidation has completed. -/
def TTU_INV_STAT.DONE : Fld := ⟨.TTU_INV_STAT, 63, 63⟩
/-- `TTU_INV_STAT.BUSY`: an invalidation is in progress. -/
def TTU_INV_STAT.BUSY : Fld := ⟨.TTU_INV_STAT, 62, 62⟩
/-- `TTU_INV_STAT.REFUSED`: a command was refused. -/
def TTU_INV_STAT.REFUSED : Fld := ⟨.TTU_INV_STAT, 61, 61⟩
/-- `TTU_INV_STAT.STATUS`: 0 OK, 1 ATS_TIMEOUT. -/
def TTU_INV_STAT.STATUS : Fld := ⟨.TTU_INV_STAT, 7, 0⟩
/-- `TTU_STALL_CMD.OP`: 1 RESUME, 2 ABORT. -/
def TTU_STALL_CMD.OP : Fld := ⟨.TTU_STALL_CMD, 9, 8⟩
/-- `TTU_STALL_CMD.TAG`: stall slot. -/
def TTU_STALL_CMD.TAG : Fld := ⟨.TTU_STALL_CMD, 7, 0⟩
/-- `TTU_PRI_RESP.CODE`: 0 Success, 1 Invalid Request, 15 Response Failure. -/
def TTU_PRI_RESP.CODE : Fld := ⟨.TTU_PRI_RESP, 63, 60⟩
/-- `TTU_PRI_RESP.PV`: PASID is present. -/
def TTU_PRI_RESP.PV : Fld := ⟨.TTU_PRI_RESP, 59, 59⟩
/-- `TTU_PRI_RESP.PRGI`: page request group index. -/
def TTU_PRI_RESP.PRGI : Fld := ⟨.TTU_PRI_RESP, 48, 40⟩
/-- `TTU_PRI_RESP.PASID`: PASID. -/
def TTU_PRI_RESP.PASID : Fld := ⟨.TTU_PRI_RESP, 39, 20⟩
/-- `TTU_PRI_RESP.SEG`: segment, 0..7. -/
def TTU_PRI_RESP.SEG : Fld := ⟨.TTU_PRI_RESP, 19, 16⟩
/-- `TTU_PRI_RESP.RID`: requester ID. -/
def TTU_PRI_RESP.RID : Fld := ⟨.TTU_PRI_RESP, 15, 0⟩
/-- `TTU_CNT.STALL_TMO`: stalled requests aborted by timeout. -/
def TTU_CNT.STALL_TMO : Fld := ⟨.TTU_CNT, 63, 48⟩
/-- `TTU_CNT.MSI_MASKED`: MSIs to entries with EN = 0. -/
def TTU_CNT.MSI_MASKED : Fld := ⟨.TTU_CNT, 47, 32⟩
/-- `TTU_CNT.FAULTS`: faults found, recorded or not. -/
def TTU_CNT.FAULTS : Fld := ⟨.TTU_CNT, 31, 0⟩
/-- `HIO_CFG.CXL`: 1 runs the port as CXL under R288. -/
def HIO_CFG.CXL : Fld := ⟨.HIO_CFG, 8, 8⟩
/-- `HIO_CFG.BIFUR`: division of R283. -/
def HIO_CFG.BIFUR : Fld := ⟨.HIO_CFG, 5, 4⟩
/-- `HIO_CFG.LINK_EN`: bit k enables link training of root port k. -/
def HIO_CFG.LINK_EN : Fld := ⟨.HIO_CFG, 3, 0⟩
/-- `HIO_STAT.INTX`: INTx messages discarded under R284. -/
def HIO_STAT.INTX : Fld := ⟨.HIO_STAT, 63, 48⟩
/-- `HIO_STAT.DPC`: bit k set while root port k is held by DPC. -/
def HIO_STAT.DPC : Fld := ⟨.HIO_STAT, 35, 32⟩
/-- `HIO_STAT.UP`: bit k set while the link of root port k is up. -/
def HIO_STAT.UP : Fld := ⟨.HIO_STAT, 31, 28⟩
/-- `HIO_CXL.EN`: the range is decoded. -/
def HIO_CXL.EN : Fld := ⟨.HIO_CXL, 63, 63⟩
/-- `HIO_CXL.CLOSING`: a close under R290 is in progress. -/
def HIO_CXL.CLOSING : Fld := ⟨.HIO_CXL, 62, 62⟩
/-- `HIO_CXL.SIZE_G`: size in GiB, 0..1,024. -/
def HIO_CXL.SIZE_G : Fld := ⟨.HIO_CXL, 10, 0⟩
/-- `BLK_CTL.RCOPY_US`: timeout of R327 in µs, 1..1,000. -/
def BLK_CTL.RCOPY_US : Fld := ⟨.BLK_CTL, 9, 0⟩
/-- `BLK_ENG_CTL.REINIT`: bit e re-initialises engine e. -/
def BLK_ENG_CTL.REINIT : Fld := ⟨.BLK_ENG_CTL, 15, 8⟩
/-- `BLK_ENG_CTL.EN`: bit e enables engine e. -/
def BLK_ENG_CTL.EN : Fld := ⟨.BLK_ENG_CTL, 7, 0⟩
/-- `BLK_ENG_STAT.REINITS`: re-initialisations, escalations included. -/
def BLK_ENG_STAT.REINITS : Fld := ⟨.BLK_ENG_STAT, 63, 32⟩
/-- `BLK_ENG_STAT.STOPPED`: bit e: engine e is disabled and idle. -/
def BLK_ENG_STAT.STOPPED : Fld := ⟨.BLK_ENG_STAT, 15, 8⟩
/-- `BLK_ENG_STAT.BUSY`: bit e: engine e holds a chunk. -/
def BLK_ENG_STAT.BUSY : Fld := ⟨.BLK_ENG_STAT, 7, 0⟩
/-- `BLK_BIND_CMD.OP`: 1 BIND, 2 UNBIND. -/
def BLK_BIND_CMD.OP : Fld := ⟨.BLK_BIND_CMD, 63, 60⟩
/-- `BLK_BIND_CMD.QLOG2`: queue depth for BIND. -/
def BLK_BIND_CMD.QLOG2 : Fld := ⟨.BLK_BIND_CMD, 35, 32⟩
/-- `BLK_BIND_CMD.SLICE`: slice for UNBIND. -/
def BLK_BIND_CMD.SLICE : Fld := ⟨.BLK_BIND_CMD, 25, 20⟩
/-- `BLK_BIND_CMD.PASID`: PASID for BIND. -/
def BLK_BIND_CMD.PASID : Fld := ⟨.BLK_BIND_CMD, 19, 0⟩
/-- `BLK_BIND_RESULT.SLICE`: slice bound, unbound or already bound. -/
def BLK_BIND_RESULT.SLICE : Fld := ⟨.BLK_BIND_RESULT, 13, 8⟩
/-- `BLK_BIND_RESULT.STATUS`: 0 OK, 1 NO_SLICE, 2 BOUND, 3 INVALID, 4 NOT_BOUND, 5 BUSY. -/
def BLK_BIND_RESULT.STATUS : Fld := ⟨.BLK_BIND_RESULT, 7, 0⟩
/-- `BLK_SLICE_CTL.BOUND`: the slice is bound. -/
def BLK_SLICE_CTL.BOUND : Fld := ⟨.BLK_SLICE_CTL, 63, 63⟩
/-- `BLK_SLICE_CTL.QLOG2`: queue depth. -/
def BLK_SLICE_CTL.QLOG2 : Fld := ⟨.BLK_SLICE_CTL, 39, 36⟩
/-- `BLK_SLICE_CTL.PASID`: bound PASID. -/
def BLK_SLICE_CTL.PASID : Fld := ⟨.BLK_SLICE_CTL, 31, 12⟩
/-- `BLK_SLICE_CTL.RESET`: 1 resets the slice under R328. -/
def BLK_SLICE_CTL.RESET : Fld := ⟨.BLK_SLICE_CTL, 0, 0⟩
/-- `BLK_SLICE_STAT.RESET_DONE`: the last reset has completed. -/
def BLK_SLICE_STAT.RESET_DONE : Fld := ⟨.BLK_SLICE_STAT, 63, 63⟩
/-- `BLK_SLICE_STAT.ESCALATED`: a reset escalated under R329. -/
def BLK_SLICE_STAT.ESCALATED : Fld := ⟨.BLK_SLICE_STAT, 62, 62⟩
/-- `BLK_SLICE_STAT.RESETTING`: a reset is in progress. -/
def BLK_SLICE_STAT.RESETTING : Fld := ⟨.BLK_SLICE_STAT, 61, 61⟩
/-- `BLK_SLICE_STAT.PARKED`: chunks parked, 0..8. -/
def BLK_SLICE_STAT.PARKED : Fld := ⟨.BLK_SLICE_STAT, 43, 40⟩
/-- `BLK_SLICE_STAT.INFLIGHT`: chunks held by engines. -/
def BLK_SLICE_STAT.INFLIGHT : Fld := ⟨.BLK_SLICE_STAT, 39, 32⟩
/-- `BLK_SLICE_STAT.ERRQ`: queues in state ERROR, 0..1,024. -/
def BLK_SLICE_STAT.ERRQ : Fld := ⟨.BLK_SLICE_STAT, 10, 0⟩
/-- `BLK_SLICE_TIME.CLOCKS`: fabric clocks of engine time charged under R324. -/
def BLK_SLICE_TIME.CLOCKS : Fld := ⟨.BLK_SLICE_TIME, 63, 0⟩
/-- `DB_RING.EN`: the queue is enabled. -/
def DB_RING.EN : Fld := ⟨.DB_RING, 63, 63⟩
/-- `DB_RING.ADDR`: bits [47:12] of the ring's I/O virtual address. -/
def DB_RING.ADDR : Fld := ⟨.DB_RING, 47, 12⟩
/-- `DB_COMP.ADDR`: bits [47:12] of the ring's I/O virtual address. -/
def DB_COMP.ADDR : Fld := ⟨.DB_COMP, 47, 12⟩
/-- `DB_MSI.EN`: descriptors with IRQ = 1 send an MSI. -/
def DB_MSI.EN : Fld := ⟨.DB_MSI, 63, 63⟩
/-- `DB_MSI.D`: interrupt table entry of the slice's device context. -/
def DB_MSI.D : Fld := ⟨.DB_MSI, 10, 0⟩
/-- `DB_TAIL.TAIL`: descriptors produced. -/
def DB_TAIL.TAIL : Fld := ⟨.DB_TAIL, 31, 0⟩
/-- `DB_STAT.STATE`: 0 DISABLED, 1 ENABLED, 2 ERROR, 3 RESET. -/
def DB_STAT.STATE : Fld := ⟨.DB_STAT, 63, 60⟩
/-- `DB_STAT.QLOG2`: credits are 2^QLOG2. -/
def DB_STAT.QLOG2 : Fld := ⟨.DB_STAT, 59, 56⟩
/-- `DB_STAT.ERR`: 0 none, 1 CREDIT, 2 FETCH, 3 COMPLETE. -/
def DB_STAT.ERR : Fld := ⟨.DB_STAT, 55, 48⟩
/-- `DB_STAT.DONE`: descriptors completed under R320. -/
def DB_STAT.DONE : Fld := ⟨.DB_STAT, 31, 0⟩
/-- `PRT_SLOG_LOC.LOC`: binary location code of R22. -/
def PRT_SLOG_LOC.LOC : Fld := ⟨.PRT_SLOG_LOC, 63, 0⟩
/-- `PRT_SLOG_INFO.VALID`: the entry is in use. -/
def PRT_SLOG_INFO.VALID : Fld := ⟨.PRT_SLOG_INFO, 63, 63⟩
/-- `PRT_SLOG_INFO.REMAPPED`: the place was remapped automatically. -/
def PRT_SLOG_INFO.REMAPPED : Fld := ⟨.PRT_SLOG_INFO, 62, 62⟩
/-- `PRT_SLOG_INFO.UE`: an uncorrectable error was logged here. -/
def PRT_SLOG_INFO.UE : Fld := ⟨.PRT_SLOG_INFO, 61, 61⟩
/-- `PRT_SLOG_INFO.COUNT`: errors at the place. -/
def PRT_SLOG_INFO.COUNT : Fld := ⟨.PRT_SLOG_INFO, 47, 32⟩
/-- `PRT_SLOG_INFO.RING`: bits [31:0] of the ring count at first logging. -/
def PRT_SLOG_INFO.RING : Fld := ⟨.PRT_SLOG_INFO, 31, 0⟩
/-- `PRT_L3LOG_LOC.LOC`: binary location code of R22. -/
def PRT_L3LOG_LOC.LOC : Fld := ⟨.PRT_L3LOG_LOC, 63, 0⟩
/-- `PRT_L3LOG_INFO.VALID`: the entry is in use. -/
def PRT_L3LOG_INFO.VALID : Fld := ⟨.PRT_L3LOG_INFO, 63, 63⟩
/-- `PRT_L3LOG_INFO.REMAPPED`: the place was remapped automatically. -/
def PRT_L3LOG_INFO.REMAPPED : Fld := ⟨.PRT_L3LOG_INFO, 62, 62⟩
/-- `PRT_L3LOG_INFO.UE`: an uncorrectable error was logged here. -/
def PRT_L3LOG_INFO.UE : Fld := ⟨.PRT_L3LOG_INFO, 61, 61⟩
/-- `PRT_L3LOG_INFO.COUNT`: errors at the place. -/
def PRT_L3LOG_INFO.COUNT : Fld := ⟨.PRT_L3LOG_INFO, 47, 32⟩
/-- `PRT_L3LOG_INFO.RING`: bits [31:0] of the ring count at first logging. -/
def PRT_L3LOG_INFO.RING : Fld := ⟨.PRT_L3LOG_INFO, 31, 0⟩
/-- `PRT_CLOG_LOC.LOC`: binary location code of R22. -/
def PRT_CLOG_LOC.LOC : Fld := ⟨.PRT_CLOG_LOC, 63, 0⟩
/-- `PRT_CLOG_INFO.VALID`: the entry is in use. -/
def PRT_CLOG_INFO.VALID : Fld := ⟨.PRT_CLOG_INFO, 63, 63⟩
/-- `PRT_CLOG_INFO.REMAPPED`: the place was remapped automatically. -/
def PRT_CLOG_INFO.REMAPPED : Fld := ⟨.PRT_CLOG_INFO, 62, 62⟩
/-- `PRT_CLOG_INFO.UE`: an uncorrectable error was logged here. -/
def PRT_CLOG_INFO.UE : Fld := ⟨.PRT_CLOG_INFO, 61, 61⟩
/-- `PRT_CLOG_INFO.COUNT`: errors at the place. -/
def PRT_CLOG_INFO.COUNT : Fld := ⟨.PRT_CLOG_INFO, 47, 32⟩
/-- `PRT_CLOG_INFO.RING`: bits [31:0] of the ring count at first logging. -/
def PRT_CLOG_INFO.RING : Fld := ⟨.PRT_CLOG_INFO, 31, 0⟩
/-- `DIR_CE_LOG_LOC.LOC`: binary location code of R22. -/
def DIR_CE_LOG_LOC.LOC : Fld := ⟨.DIR_CE_LOG_LOC, 63, 0⟩
/-- `DIR_CE_LOG_INFO.VALID`: the entry is in use. -/
def DIR_CE_LOG_INFO.VALID : Fld := ⟨.DIR_CE_LOG_INFO, 63, 63⟩
/-- `DIR_CE_LOG_INFO.REMAPPED`: the place was remapped automatically. -/
def DIR_CE_LOG_INFO.REMAPPED : Fld := ⟨.DIR_CE_LOG_INFO, 62, 62⟩
/-- `DIR_CE_LOG_INFO.UE`: an uncorrectable error was logged here. -/
def DIR_CE_LOG_INFO.UE : Fld := ⟨.DIR_CE_LOG_INFO, 61, 61⟩
/-- `DIR_CE_LOG_INFO.COUNT`: errors at the place. -/
def DIR_CE_LOG_INFO.COUNT : Fld := ⟨.DIR_CE_LOG_INFO, 47, 32⟩
/-- `DIR_CE_LOG_INFO.RING`: bits [31:0] of the ring count at first logging. -/
def DIR_CE_LOG_INFO.RING : Fld := ⟨.DIR_CE_LOG_INFO, 31, 0⟩
/-- `PRT_SREMAP.V`: the remap is in force. -/
def PRT_SREMAP.V : Fld := ⟨.PRT_SREMAP, 63, 63⟩
/-- `PRT_SREMAP.AUTO`: made under R338. -/
def PRT_SREMAP.AUTO : Fld := ⟨.PRT_SREMAP, 62, 62⟩
/-- `PRT_SREMAP.SEED`: loaded from REMAP_SEED. -/
def PRT_SREMAP.SEED : Fld := ⟨.PRT_SREMAP, 61, 61⟩
/-- `PRT_SREMAP.DONE`: the copy or invalidation is complete. -/
def PRT_SREMAP.DONE : Fld := ⟨.PRT_SREMAP, 60, 60⟩
/-- `PRT_SREMAP.FAILED`: SCOUNT reached 4 under R338. -/
def PRT_SREMAP.FAILED : Fld := ⟨.PRT_SREMAP, 59, 59⟩
/-- `PRT_SREMAP.SCOUNT`: errors of the spare since the remap took effect, under R338. -/
def PRT_SREMAP.SCOUNT : Fld := ⟨.PRT_SREMAP, 44, 42⟩
/-- `PRT_SREMAP.MACRO`: macro of R333. -/
def PRT_SREMAP.MACRO : Fld := ⟨.PRT_SREMAP, 41, 32⟩
/-- `PRT_SREMAP.WORD`: word offset, as W of the location code. -/
def PRT_SREMAP.WORD : Fld := ⟨.PRT_SREMAP, 31, 0⟩
/-- `PRT_L3REMAP.V`: the remap is in force. -/
def PRT_L3REMAP.V : Fld := ⟨.PRT_L3REMAP, 63, 63⟩
/-- `PRT_L3REMAP.AUTO`: made under R338. -/
def PRT_L3REMAP.AUTO : Fld := ⟨.PRT_L3REMAP, 62, 62⟩
/-- `PRT_L3REMAP.SEED`: loaded from REMAP_SEED. -/
def PRT_L3REMAP.SEED : Fld := ⟨.PRT_L3REMAP, 61, 61⟩
/-- `PRT_L3REMAP.DONE`: the copy or invalidation is complete. -/
def PRT_L3REMAP.DONE : Fld := ⟨.PRT_L3REMAP, 60, 60⟩
/-- `PRT_L3REMAP.FAILED`: SCOUNT reached 4 under R338. -/
def PRT_L3REMAP.FAILED : Fld := ⟨.PRT_L3REMAP, 59, 59⟩
/-- `PRT_L3REMAP.SCOUNT`: errors of the spare since the remap took effect, under R338. -/
def PRT_L3REMAP.SCOUNT : Fld := ⟨.PRT_L3REMAP, 44, 42⟩
/-- `PRT_L3REMAP.MACRO`: macro of R333. -/
def PRT_L3REMAP.MACRO : Fld := ⟨.PRT_L3REMAP, 41, 32⟩
/-- `PRT_L3REMAP.WORD`: word offset, as W of the location code. -/
def PRT_L3REMAP.WORD : Fld := ⟨.PRT_L3REMAP, 31, 0⟩
/-- `DIR_REMAP.V`: the remap is in force. -/
def DIR_REMAP.V : Fld := ⟨.DIR_REMAP, 63, 63⟩
/-- `DIR_REMAP.AUTO`: made under R338. -/
def DIR_REMAP.AUTO : Fld := ⟨.DIR_REMAP, 62, 62⟩
/-- `DIR_REMAP.SEED`: loaded from REMAP_SEED. -/
def DIR_REMAP.SEED : Fld := ⟨.DIR_REMAP, 61, 61⟩
/-- `DIR_REMAP.DONE`: the copy or invalidation is complete. -/
def DIR_REMAP.DONE : Fld := ⟨.DIR_REMAP, 60, 60⟩
/-- `DIR_REMAP.FAILED`: SCOUNT reached 4 under R338. -/
def DIR_REMAP.FAILED : Fld := ⟨.DIR_REMAP, 59, 59⟩
/-- `DIR_REMAP.SCOUNT`: errors of the spare since the remap took effect, under R338. -/
def DIR_REMAP.SCOUNT : Fld := ⟨.DIR_REMAP, 44, 42⟩
/-- `DIR_REMAP.MACRO`: macro of R333. -/
def DIR_REMAP.MACRO : Fld := ⟨.DIR_REMAP, 41, 32⟩
/-- `DIR_REMAP.WORD`: word offset, as W of the location code. -/
def DIR_REMAP.WORD : Fld := ⟨.DIR_REMAP, 31, 0⟩
/-- `PRT_CTL.L3_REFUSED`: an L3 remap write was refused. -/
def PRT_CTL.L3_REFUSED : Fld := ⟨.PRT_CTL, 17, 17⟩
/-- `PRT_CTL.S_REFUSED`: a store remap write was refused. -/
def PRT_CTL.S_REFUSED : Fld := ⟨.PRT_CTL, 16, 16⟩
/-- `PRT_CTL.AUTO`: automatic remap under R338. -/
def PRT_CTL.AUTO : Fld := ⟨.PRT_CTL, 0, 0⟩
/-- `DIR_CE_CTL.L3_REFUSED`: an L3 remap write was refused. -/
def DIR_CE_CTL.L3_REFUSED : Fld := ⟨.DIR_CE_CTL, 17, 17⟩
/-- `DIR_CE_CTL.S_REFUSED`: a store remap write was refused. -/
def DIR_CE_CTL.S_REFUSED : Fld := ⟨.DIR_CE_CTL, 16, 16⟩
/-- `DIR_CE_CTL.AUTO`: automatic remap under R338. -/
def DIR_CE_CTL.AUTO : Fld := ⟨.DIR_CE_CTL, 0, 0⟩
/-- `PRT_CE_CNT.STORE`: store errors, all 16 stores. -/
def PRT_CE_CNT.STORE : Fld := ⟨.PRT_CE_CNT, 63, 32⟩
/-- `PRT_CE_CNT.L3`: L3 errors. -/
def PRT_CE_CNT.L3 : Fld := ⟨.PRT_CE_CNT, 31, 16⟩
/-- `PRT_CE_CNT.CORE`: L1 and L2 errors. -/
def PRT_CE_CNT.CORE : Fld := ⟨.PRT_CE_CNT, 15, 8⟩
/-- `PRT_CE_CNT.OVF`: errors not logged for want of an entry. -/
def PRT_CE_CNT.OVF : Fld := ⟨.PRT_CE_CNT, 7, 0⟩
/-- `PRT_SBIST.DONE`: the test has ended, or was refused. -/
def PRT_SBIST.DONE : Fld := ⟨.PRT_SBIST, 63, 63⟩
/-- `PRT_SBIST.BUSY`: a test is running. -/
def PRT_SBIST.BUSY : Fld := ⟨.PRT_SBIST, 62, 62⟩
/-- `PRT_SBIST.STATUS`: 0 OK, 1 BUSY, 2 FAIL. -/
def PRT_SBIST.STATUS : Fld := ⟨.PRT_SBIST, 55, 48⟩
/-- `PRT_SBIST.GO`: 1 starts a test. -/
def PRT_SBIST.GO : Fld := ⟨.PRT_SBIST, 8, 8⟩
/-- `PRT_SBIST.LEAF`: index j of the leaf. -/
def PRT_SBIST.LEAF : Fld := ⟨.PRT_SBIST, 3, 0⟩
/-- `PRT_SBIST_FAIL.WORD`: store byte offset divided by 8. -/
def PRT_SBIST_FAIL.WORD : Fld := ⟨.PRT_SBIST_FAIL, 18, 0⟩
/-- `EVC_SRC_CTL.TARGET`: IMSIC target word under R64. -/
def EVC_SRC_CTL.TARGET : Fld := ⟨.EVC_SRC_CTL, 63, 32⟩
/-- `EVC_SRC_CTL.N`: events per window that make the source severe, 1..255. -/
def EVC_SRC_CTL.N : Fld := ⟨.EVC_SRC_CTL, 31, 24⟩
/-- `EVC_SRC_CTL.WLOG2`: window of 2^WLOG2 ticks, 10..48. -/
def EVC_SRC_CTL.WLOG2 : Fld := ⟨.EVC_SRC_CTL, 21, 16⟩
/-- `EVC_SRC_CTL.CAP`: events enter the capture ring. -/
def EVC_SRC_CTL.CAP : Fld := ⟨.EVC_SRC_CTL, 8, 8⟩
/-- `EVC_SRC_CTL.PIN`: severe faults drive FAULT_N. -/
def EVC_SRC_CTL.PIN : Fld := ⟨.EVC_SRC_CTL, 7, 7⟩
/-- `EVC_SRC_CTL.SAFE`: a severe fault enters the safe state. -/
def EVC_SRC_CTL.SAFE : Fld := ⟨.EVC_SRC_CTL, 6, 6⟩
/-- `EVC_SRC_CTL.EVERY`: send an MSI on every event. -/
def EVC_SRC_CTL.EVERY : Fld := ⟨.EVC_SRC_CTL, 4, 4⟩
/-- `EVC_SRC_STAT.TOTAL`: events since the warm reset. -/
def EVC_SRC_STAT.TOTAL : Fld := ⟨.EVC_SRC_STAT, 63, 48⟩
/-- `EVC_SRC_STAT.COUNT`: events in the current window. -/
def EVC_SRC_STAT.COUNT : Fld := ⟨.EVC_SRC_STAT, 39, 32⟩
/-- `EVC_SRC_STAT.WSTART`: bits [31:0] of the ring count at which the window opened. -/
def EVC_SRC_STAT.WSTART : Fld := ⟨.EVC_SRC_STAT, 31, 0⟩
/-- `EVC_SEV.SEV`: bit b: source 64i + b is severe. -/
def EVC_SEV.SEV : Fld := ⟨.EVC_SEV, 63, 0⟩
/-- `EVC_STAT.SAFE`: the package is in the safe state. -/
def EVC_STAT.SAFE : Fld := ⟨.EVC_STAT, 63, 63⟩
/-- `EVC_STAT.SAFE_SRC`: first source with SAFE = 1 to become severe, under R353. -/
def EVC_STAT.SAFE_SRC : Fld := ⟨.EVC_STAT, 25, 16⟩
/-- `EVC_STAT.CAUSES`: bit 0 collector parity, 1 a source with SAFE set, 2 EVC_SAFE, 3 BMC. -/
def EVC_STAT.CAUSES : Fld := ⟨.EVC_STAT, 3, 0⟩
/-- `EVC_SAFE.GO`: 1 enters the safe state. -/
def EVC_SAFE.GO : Fld := ⟨.EVC_SAFE, 0, 0⟩
/-- `EVC_PIN.PULSES`: new severe faults in pulse mode. -/
def EVC_PIN.PULSES : Fld := ⟨.EVC_PIN, 63, 32⟩
/-- `EVC_PIN.LOW`: the pin is driven low. -/
def EVC_PIN.LOW : Fld := ⟨.EVC_PIN, 9, 9⟩
/-- `EVC_PIN.MODE`: 0 pulse, 1 static, as R349 and R350 set it. -/
def EVC_PIN.MODE : Fld := ⟨.EVC_PIN, 8, 8⟩
/-- `EVC_PIN.LEVEL`: level outside a pulse in pulse mode: 0 low, 1 released. -/
def EVC_PIN.LEVEL : Fld := ⟨.EVC_PIN, 0, 0⟩
/-- `EVC_FIRST.VALID`: a source is latched. -/
def EVC_FIRST.VALID : Fld := ⟨.EVC_FIRST, 63, 63⟩
/-- `EVC_FIRST.SOURCE`: latched source. -/
def EVC_FIRST.SOURCE : Fld := ⟨.EVC_FIRST, 9, 0⟩
/-- `EVC_FIRST_RING.RING`: master ring count when it became severe. -/
def EVC_FIRST_RING.RING : Fld := ⟨.EVC_FIRST_RING, 63, 0⟩
/-- `EVC_CAP_TAIL.COUNT`: entries written, consumed, or dropped. -/
def EVC_CAP_TAIL.COUNT : Fld := ⟨.EVC_CAP_TAIL, 31, 0⟩
/-- `EVC_CAP_HEAD.COUNT`: entries written, consumed, or dropped. -/
def EVC_CAP_HEAD.COUNT : Fld := ⟨.EVC_CAP_HEAD, 31, 0⟩
/-- `EVC_CAP_DROP.COUNT`: entries written, consumed, or dropped. -/
def EVC_CAP_DROP.COUNT : Fld := ⟨.EVC_CAP_DROP, 31, 0⟩
/-- `EVC_CAP.WORD`: word k of a capture entry. -/
def EVC_CAP.WORD : Fld := ⟨.EVC_CAP, 63, 0⟩
/-- `CMP_CTL.EN`: the collector samples its inputs. -/
def CMP_CTL.EN : Fld := ⟨.CMP_CTL, 0, 0⟩
/-- `CMP_STAT.PAR_FAULT`: a configuration parity fault under R352. -/
def CMP_STAT.PAR_FAULT : Fld := ⟨.CMP_STAT, 63, 63⟩
/-- `CMP_PEND.BITS`: pending event, wire fault, or interrupt enable, under R351. -/
def CMP_PEND.BITS : Fld := ⟨.CMP_PEND, 63, 0⟩
/-- `CMP_WIRE.BITS`: pending event, wire fault, or interrupt enable, under R351. -/
def CMP_WIRE.BITS : Fld := ⟨.CMP_WIRE, 63, 0⟩
/-- `CMP_MASK.BITS`: pending event, wire fault, or interrupt enable, under R351. -/
def CMP_MASK.BITS : Fld := ⟨.CMP_MASK, 63, 0⟩
/-- `CMP_IRQ.TARGET`: IMSIC target word under R64. -/
def CMP_IRQ.TARGET : Fld := ⟨.CMP_IRQ, 31, 0⟩
/-- `CMP_SEL.EN`: the input is in use. -/
def CMP_SEL.EN : Fld := ⟨.CMP_SEL, 15, 15⟩
/-- `CMP_SEL.SOURCE`: event source of R342. -/
def CMP_SEL.SOURCE : Fld := ⟨.CMP_SEL, 9, 0⟩
/-- `PWR_PKG_CTL.REASON`: reason code of R364 for the last refusal or abort. -/
def PWR_PKG_CTL.REASON : Fld := ⟨.PWR_PKG_CTL, 23, 16⟩
/-- `PWR_PKG_CTL.RESULT`: last request: 0 OK, 1 REFUSED, 2 ABORTED. -/
def PWR_PKG_CTL.RESULT : Fld := ⟨.PWR_PKG_CTL, 11, 8⟩
/-- `PWR_PKG_CTL.STATE`: 0 ACTIVE, 1 ENTERING_STANDBY, 2 STANDBY, 3 WAKING, 4 ENTERING_SLEEP. -/
def PWR_PKG_CTL.STATE : Fld := ⟨.PWR_PKG_CTL, 7, 4⟩
/-- `PWR_PKG_CTL.REQ`: 1 STANDBY, 2 SLEEP, 3 WAKE. -/
def PWR_PKG_CTL.REQ : Fld := ⟨.PWR_PKG_CTL, 1, 0⟩
/-- `PWR_BOUGH_CTL.DONE`: the request has ended. -/
def PWR_BOUGH_CTL.DONE : Fld := ⟨.PWR_BOUGH_CTL, 63, 63⟩
/-- `PWR_BOUGH_CTL.BUSY`: a request is in progress. -/
def PWR_BOUGH_CTL.BUSY : Fld := ⟨.PWR_BOUGH_CTL, 62, 62⟩
/-- `PWR_BOUGH_CTL.RESULT`: 0 OK, 1 REFUSED, 2 ABORTED. -/
def PWR_BOUGH_CTL.RESULT : Fld := ⟨.PWR_BOUGH_CTL, 55, 48⟩
/-- `PWR_BOUGH_CTL.REASON`: reason code of R364. -/
def PWR_BOUGH_CTL.REASON : Fld := ⟨.PWR_BOUGH_CTL, 23, 16⟩
/-- `PWR_BOUGH_CTL.GO`: 1 starts the request. -/
def PWR_BOUGH_CTL.GO : Fld := ⟨.PWR_BOUGH_CTL, 12, 12⟩
/-- `PWR_BOUGH_CTL.TARGET`: 0 ACTIVE (wake), 1 DORMANT-RET, 2 OFF. -/
def PWR_BOUGH_CTL.TARGET : Fld := ⟨.PWR_BOUGH_CTL, 9, 8⟩
/-- `PWR_BOUGH_CTL.SITE`: physical site. -/
def PWR_BOUGH_CTL.SITE : Fld := ⟨.PWR_BOUGH_CTL, 4, 0⟩
/-- `PWR_HS_LAST.VALID`: a refusal is recorded. -/
def PWR_HS_LAST.VALID : Fld := ⟨.PWR_HS_LAST, 63, 63⟩
/-- `PWR_HS_LAST.REASON`: reason code. -/
def PWR_HS_LAST.REASON : Fld := ⟨.PWR_HS_LAST, 55, 48⟩
/-- `PWR_HS_LAST.BLOCK`: event source number of the refusing block. -/
def PWR_HS_LAST.BLOCK : Fld := ⟨.PWR_HS_LAST, 41, 32⟩
/-- `PWR_HS_LAST.RING`: bits [31:0] of the master ring count. -/
def PWR_HS_LAST.RING : Fld := ⟨.PWR_HS_LAST, 31, 0⟩
/-- `PWR_HS_CNT.ABORTED`: entries accepted and then aborted. -/
def PWR_HS_CNT.ABORTED : Fld := ⟨.PWR_HS_CNT, 63, 32⟩
/-- `PWR_HS_CNT.REFUSED`: refusals. -/
def PWR_HS_CNT.REFUSED : Fld := ⟨.PWR_HS_CNT, 31, 0⟩
/-- `BPW_HS_CNT.ABORTED`: entries accepted and then aborted. -/
def BPW_HS_CNT.ABORTED : Fld := ⟨.BPW_HS_CNT, 63, 32⟩
/-- `BPW_HS_CNT.REFUSED`: refusals. -/
def BPW_HS_CNT.REFUSED : Fld := ⟨.BPW_HS_CNT, 31, 0⟩
/-- `PWR_HS_BOUND.DELAY_US`: 1..1,000 µs. -/
def PWR_HS_BOUND.DELAY_US : Fld := ⟨.PWR_HS_BOUND, 9, 0⟩
/-- `PWR_RTC.COUNT`: crystal ticks. -/
def PWR_RTC.COUNT : Fld := ⟨.PWR_RTC, 47, 0⟩
/-- `PWR_RTC_ALARM.EN`: the alarm is armed. -/
def PWR_RTC_ALARM.EN : Fld := ⟨.PWR_RTC_ALARM, 63, 63⟩
/-- `PWR_RTC_ALARM.FIRED`: the alarm reached CMP. -/
def PWR_RTC_ALARM.FIRED : Fld := ⟨.PWR_RTC_ALARM, 62, 62⟩
/-- `PWR_RTC_ALARM.CMP`: alarm count. -/
def PWR_RTC_ALARM.CMP : Fld := ⟨.PWR_RTC_ALARM, 47, 0⟩
/-- `CLK_STAT.LOCK`: the trunk root PLL is locked. -/
def CLK_STAT.LOCK : Fld := ⟨.CLK_STAT, 63, 63⟩
/-- `RST_CMD.DONE`: the command has ended: the reset has completed, or the command was refused with INVALID un. -/
def RST_CMD.DONE : Fld := ⟨.RST_CMD, 63, 63⟩
/-- `RST_CMD.BUSY`: a reset is in progress. -/
def RST_CMD.BUSY : Fld := ⟨.RST_CMD, 62, 62⟩
/-- `RST_CMD.STATUS`: 0 OK, 1 BUSY, 2 INVALID, 3 ESCALATED. -/
def RST_CMD.STATUS : Fld := ⟨.RST_CMD, 55, 48⟩
/-- `RST_CMD.OP`: 1 orderly bough reset, 2 forced bough reset, 3 leaf reset, 4 LEE reset. -/
def RST_CMD.OP : Fld := ⟨.RST_CMD, 15, 12⟩
/-- `RST_CMD.TARGET`: physical site for OP 1 and 2. -/
def RST_CMD.TARGET : Fld := ⟨.RST_CMD, 8, 0⟩
/-- `RST_CAUSE.COUNT`: package warm resets since power-on, not counting the warm reset within power-on, so it rea. -/
def RST_CAUSE.COUNT : Fld := ⟨.RST_CAUSE, 47, 32⟩
/-- `RST_CAUSE.SLEEP_WAKE`: RTC alarm in SLEEP. -/
def RST_CAUSE.SLEEP_WAKE : Fld := ⟨.RST_CAUSE, 5, 5⟩
/-- `RST_CAUSE.PLL_LOSS`: trunk PLL lost lock. -/
def RST_CAUSE.PLL_LOSS : Fld := ⟨.RST_CAUSE, 4, 4⟩
/-- `RST_CAUSE.MGMT`: the management core. -/
def RST_CAUSE.MGMT : Fld := ⟨.RST_CAUSE, 3, 3⟩
/-- `RST_CAUSE.BMC`: a BMC command. -/
def RST_CAUSE.BMC : Fld := ⟨.RST_CAUSE, 2, 2⟩
/-- `RST_CAUSE.PIN`: SYS_RESET_N. -/
def RST_CAUSE.PIN : Fld := ⟨.RST_CAUSE, 1, 1⟩
/-- `RST_CAUSE.POWER_ON`: power-on reset. -/
def RST_CAUSE.POWER_ON : Fld := ⟨.RST_CAUSE, 0, 0⟩
/-- `BPW_STAT.WOKE`: bit j: leaf j last started by a wake from OFF under R361. -/
def BPW_STAT.WOKE : Fld := ⟨.BPW_STAT, 47, 32⟩
/-- `BPW_STAT.PLL_LOCK`: the bough root PLL is locked. -/
def BPW_STAT.PLL_LOCK : Fld := ⟨.BPW_STAT, 9, 9⟩
/-- `BPW_STAT.CLK_REFUSED`: a switch request was refused under R358. -/
def BPW_STAT.CLK_REFUSED : Fld := ⟨.BPW_STAT, 8, 8⟩
/-- `BPW_CLK_SW.SW`: bit j: switch of leaf j requested and not yet made. -/
def BPW_CLK_SW.SW : Fld := ⟨.BPW_CLK_SW, 15, 0⟩
/-- `BPW_LEAF_PWR.TWIG_AUTO`: bit t: twig t enters OFF when its leaves are OFF. -/
def BPW_LEAF_PWR.TWIG_AUTO : Fld := ⟨.BPW_LEAF_PWR, 19, 16⟩
/-- `BPW_LEAF_PWR.OFF_EN`: bit j: WFI of leaf j requests OFF. -/
def BPW_LEAF_PWR.OFF_EN : Fld := ⟨.BPW_LEAF_PWR, 15, 0⟩
/-- `AGE_CTL.TARGET`: required MARGIN in steps, 1..63. -/
def AGE_CTL.TARGET : Fld := ⟨.AGE_CTL, 37, 32⟩
/-- `AGE_CTL.PERIOD_H`: hours between re-plans. -/
def AGE_CTL.PERIOD_H : Fld := ⟨.AGE_CTL, 15, 0⟩
/-- `AGE_CMD.BUSY`: a re-plan is in progress. -/
def AGE_CMD.BUSY : Fld := ⟨.AGE_CMD, 63, 63⟩
/-- `AGE_CMD.GO`: 1 re-plans every active die. -/
def AGE_CMD.GO : Fld := ⟨.AGE_CMD, 0, 0⟩
/-- `AGE_DIE.EOM`: end of margin under R376. -/
def AGE_DIE.EOM : Fld := ⟨.AGE_DIE, 63, 63⟩
/-- `AGE_DIE.MEAS`: a measurement is running. -/
def AGE_DIE.MEAS : Fld := ⟨.AGE_DIE, 62, 62⟩
/-- `AGE_DIE.WEAR`: WEAR of R375, in thousandths. -/
def AGE_DIE.WEAR : Fld := ⟨.AGE_DIE, 39, 32⟩
/-- `AGE_DIE.MARGIN`: MARGIN of R375, in steps. -/
def AGE_DIE.MARGIN : Fld := ⟨.AGE_DIE, 23, 16⟩
/-- `AGE_DIE.REMAIN`: guardband steps left, 20 − GB. -/
def AGE_DIE.REMAIN : Fld := ⟨.AGE_DIE, 15, 8⟩
/-- `AGE_DIE.GB`: guardband step, 0..20, loaded from nonvolatile memory. -/
def AGE_DIE.GB : Fld := ⟨.AGE_DIE, 7, 0⟩
/-- `MBX_CMD.LEN`: payload bytes in MBX_DATA, 0..8,192. -/
def MBX_CMD.LEN : Fld := ⟨.MBX_CMD, 45, 32⟩
/-- `MBX_CMD.TAG`: returned in MBX_STAT. -/
def MBX_CMD.TAG : Fld := ⟨.MBX_CMD, 31, 16⟩
/-- `MBX_CMD.OP`: command code of R385. -/
def MBX_CMD.OP : Fld := ⟨.MBX_CMD, 7, 0⟩
/-- `MBX_STAT.DONE`: the answer is in MBX_DATA. -/
def MBX_STAT.DONE : Fld := ⟨.MBX_STAT, 63, 63⟩
/-- `MBX_STAT.BUSY`: a command is in progress. -/
def MBX_STAT.BUSY : Fld := ⟨.MBX_STAT, 62, 62⟩
/-- `MBX_STAT.REFUSED`: a write was ignored while BUSY = 1. -/
def MBX_STAT.REFUSED : Fld := ⟨.MBX_STAT, 61, 61⟩
/-- `MBX_STAT.RLEN`: answer bytes. -/
def MBX_STAT.RLEN : Fld := ⟨.MBX_STAT, 45, 32⟩
/-- `MBX_STAT.TAG`: TAG of the command. -/
def MBX_STAT.TAG : Fld := ⟨.MBX_STAT, 31, 16⟩
/-- `MBX_STAT.STATUS`: code of R387. -/
def MBX_STAT.STATUS : Fld := ⟨.MBX_STAT, 7, 0⟩
/-- `MBX_IRQ.TARGET`: IMSIC target word under R64. -/
def MBX_IRQ.TARGET : Fld := ⟨.MBX_IRQ, 31, 0⟩
/-- `MBX_FW.READY`: the firmware has released hart 0. -/
def MBX_FW.READY : Fld := ⟨.MBX_FW, 63, 63⟩
/-- `MBX_FW.FALLBACK`: set under R381. -/
def MBX_FW.FALLBACK : Fld := ⟨.MBX_FW, 62, 62⟩
/-- `MBX_FW.BOOT_FAILS`: failed boots under R382, 0..3. -/
def MBX_FW.BOOT_FAILS : Fld := ⟨.MBX_FW, 57, 56⟩
/-- `MBX_FW.SLOT`: 0 slot A, 1 slot B. -/
def MBX_FW.SLOT : Fld := ⟨.MBX_FW, 54, 54⟩
/-- `MBX_FW.SVN`: SVN of the firmware image. -/
def MBX_FW.SVN : Fld := ⟨.MBX_FW, 53, 48⟩
/-- `MBX_FW.VERSION`: VERSION of the firmware image. -/
def MBX_FW.VERSION : Fld := ⟨.MBX_FW, 31, 0⟩
/-- `MBX_DENY.COUNT`: saturates at 0xFFFF_FFFF. -/
def MBX_DENY.COUNT : Fld := ⟨.MBX_DENY, 31, 0⟩
/-- `MBX_BMC.PEC_ERR`: frames discarded for a bad PEC. -/
def MBX_BMC.PEC_ERR : Fld := ⟨.MBX_BMC, 63, 48⟩
/-- `MBX_BMC.DENIED`: commands answered DENIED. -/
def MBX_BMC.DENIED : Fld := ⟨.MBX_BMC, 47, 32⟩
/-- `MBX_BMC.FRAMES`: requests received. -/
def MBX_BMC.FRAMES : Fld := ⟨.MBX_BMC, 31, 0⟩
/-- `MBX_DATA.DATA`: little-endian bytes. -/
def MBX_DATA.DATA : Fld := ⟨.MBX_DATA, 63, 0⟩

end Sys2Proof.Machine
end

