-- ==== Sys2Proof/Machine/Device.lean ====
section
/-!
DEFINITION. The state of the package as plain data: one structure for each kind of unit, and `Dev`, which holds them all.
The register file `Dev.regs` holds every register of every block; the structures hold what the spec gives a unit beside its
registers: stores, caches, trackers, queues, tables, counters and requests in progress.
-/

namespace Sys2Proof.Machine

/-- A register: its name, the block's unit (physical site, quadrant, channel, port, slice; for an LEE block the logical
leaf), and its index in an array of registers. -/
structure Reg where
  name : RegName
  u : Nat := 0
  k : Nat := 0
deriving DecidableEq, Repr

/-! ### Leaf cores (spec/03) -/

/-- A machine-check record: code, physical address and location code (R71, R72). -/
structure MchkRec where
  code : Nat
  addr : Word
  loc : Word
deriving DecidableEq, Repr

/-- One interrupt file of an IMSIC (R63): eidelivery, eithreshold, and the identities pending and enabled. -/
structure ImsicFile where
  delivery : Nat := 0
  threshold : Nat := 0
  eip : List Nat := []
  eie : List Nat := []
deriving DecidableEq, Repr

/-- What a leaf does with a line: an access, a CBO.ZERO of a virtual address, or a prefetch. -/
inductive LeafUse where
  | access (acc : LeafAccess)
  | zero (addr : Nat)
  | prefetch (kind : PrefetchKind) (addr : Nat)
deriving DecidableEq, Repr

/-- Why a miss entry is held (R68): a demand access; a CBO.ZERO, on a page that is cacheable or not; a prefetch; or the read of a page
table entry for a virtual page, after which the use that needs it goes on. -/
inductive MissKind where
  | demand (acc : LeafAccess)
  | cboZero (cached : Bool)
  | prefetch (kind : PrefetchKind)
  | walk (vpn : Nat) (use : LeafUse)
deriving DecidableEq, Repr

/-- A miss entry of a leaf (R68): the physical address of the access, its use, how many bytes of the access have been
performed and the value read so far, whether poison was met and in which line first, and, once the response may return, whether the
access failed. -/
structure LeafMiss where
  addr : Nat
  kind : MissKind
  done : Nat := 0
  value : Nat := 0
  poison : Bool := false
  bad : Nat := 0
  answer : Option Bool := none
deriving DecidableEq, Repr

/-- An entry of a leaf's TLBs (R73, R74): whether it is of the instruction TLB, whether of a virtual mode, with the ASID and the
VMID in force; the pages it joins; the bits [7:0] of the leaf entries of the two stages, where they were in force, and the
memory type. -/
structure TlbEntry where
  insn : Bool
  virt : Bool
  asid : Nat
  vmid : Nat
  vpn : Nat
  ppn : Nat
  first : Option Nat
  second : Option Nat
  pbmt : Pbmt
deriving DecidableEq, Repr

/-- A leaf core: its registers, control and status registers, privilege mode, reservation; the pending machine-check record, one
that took the free record while VALID was 0, whether a record has been taken since reset, and whether an instruction is being
retried (R72); interrupt files, miss entries, a use stalled for want of one, whether the debug unit has halted it (R389), and its
TLBs. -/
structure Leaf where
  pc : Word := 0
  x : KMap Nat Word := []
  f : KMap Nat Word := []
  v : KMap Nat (BitVec 256) := []
  csr : KMap Nat Word := []
  mode : Mode := .machine
  resv : Option Nat := none
  mchkPending : Option MchkRec := none
  mchkSecond : Option MchkRec := none
  mchkTaken : Bool := false
  retried : Bool := false
  fetchStale : Bool := false
  imsic : KMap Nat ImsicFile := []
  misses : List LeafMiss := []
  stalled : Option LeafUse := none
  halted : Bool := false
  tlb : List TlbEntry := []
deriving DecidableEq, Repr

/-! ### Evaluation engines (spec/04, spec/05) -/

/-- What a drain ends in (R103, R104, R127). -/
inductive Drain where
  | none | trap | halt | barrier
deriving DecidableEq, Repr

/-- What one lane of a DRAM-placed MEMRD, or one line of a fetch, brought: a line, or a failure at an address. -/
inductive Fetched where
  | line (d : Line)
  | zero
  | poison (addr : Nat)
  | access (addr : Nat)
deriving DecidableEq, Repr

/-- A DRAM-placed MEMRD that waits for its lines (R97): its number among the words issued, its program counter value, destination store
index and lane width, and each lane's line once it has returned. -/
structure MemRd where
  seq : Nat
  pc : Nat
  dst : Nat
  width : Nat
  lanes : List (Option Fetched)
deriving DecidableEq, Repr

/-- What a line of memory is to an engine (R97, R100, R132): the row of a lane of a MEMRD, a line of a stimulus entry or of a page, or a
row that a MEMWR writes. -/
inductive LeeLine where
  | row (seq lane : Nat)
  | stim (count line : Nat)
  | page (page line : Nat)
  | write (seq : Nat) (data : Line)
deriving DecidableEq, Repr

/-- A request of an engine for a line of memory, not yet over: its address, its use, whether its bough has asked
for it, and what a read has brought. -/
structure LeeReq where
  addr : Nat
  use : LeeLine
  asked : Bool := false
  came : Option Fetched := none
deriving DecidableEq, Repr

/-- An effect of a word that has issued and is not yet released from the engine, for an earlier word can still fault (R111): a SEND, to
its package where remote, or an OBSERVE's words with its type and model cycle. -/
inductive LeeOut where
  | send (m : XchMsg) (dpkg : Option Nat)
  | observe (words : List Word) (head : Nat × Nat)
deriving DecidableEq, Repr

/-- A prefetched stimulus entry (R100): its count and its lines; a line that is not there yet is none. -/
structure StimEntry where
  count : Nat
  lines : List (Option Fetched)
deriving DecidableEq, Repr

/-- A page in a page buffer (R131 to R133): the page, the number of its lines asked for and of those that have come, and the failures of its lines. -/
structure PageBuf where
  page : Nat
  next : Nat := 0
  got : Nat := 0
  bad : List (Nat × Fetched) := []
deriving DecidableEq, Repr

/-- What the engine holds of a word issued recently, so that a fault found after issue can undo it (R111): its number, its program counter
value, its OP, the store words it wrote with what they held (none in a block that was not valid), the registers
that words change as they were, the arrivals it took, whether it set SURPLUS, and the EVAL words counted before it. -/
structure Issued where
  seq : Nat
  pc : Nat
  op : Nat
  old : List (Nat × Option Word) := []
  regs : List (Reg × Word)
  took : List (Nat × Nat) := []
  surplus : Bool := false
  evals : Nat
deriving DecidableEq, Repr

/-- A window that a word has yet to write (R107, R108): its first store index, its length in indices, and the clock from which a word may
read it. -/
structure LeeBusy where
  first : Nat
  count : Nat
  clock : Nat
deriving DecidableEq, Repr

/-- An LEE: the store as 64-bit words with the valid blocks of R76, the arrival counters of R123, and the work in flight: the DRAM-placed
MEMRDs that wait, the requests for lines of memory in program order, the effects not yet released, the stimulus entries, the SENDs not
acknowledged, those of before a LEE reset, and the OBSERVE in emission; the words issued and its clocks, by which interlocks are
counted; page buffers; and the details of exchange errors. -/
structure Lee where
  store : KMap Nat Word := []
  valid : List Nat := []
  arrivals : KMap Nat Nat := []
  drain : Drain := .none
  stopping : Bool := false
  startAfterClear : Bool := false
  memrds : List MemRd := []
  mem : List LeeReq := []
  outs : List (Nat × LeeOut) := []
  seq : Nat := 0
  clock : Nat := 0
  busy : List LeeBusy := []
  stim : List StimEntry := []
  sends : List Word := []
  discardAcks : List Word := []
  emit : List Word := []
  emitHead : Option (Nat × Nat) := none
  emitted : Nat := 0
  credits : Nat := 32
  evals : Nat := 0
  lastPc : Nat := 0
  pages : List PageBuf := []
  staleInfo : Nat := 0
  ovfInfo : Nat := 0
  dropInfo : Option Nat := none
  pipe : List Issued := []
deriving DecidableEq, Repr

/-- The barrier of a model group (R128): leaves arrived in the generation, tokens held for the next, ports sent to, the
ring count of the first arrival, and whether the watchdog has expired in this generation (R130). -/
structure Group where
  arrived : List Nat := []
  held : List Nat := []
  sent : List Nat := []
  first : Option Word := none
  expired : Bool := false
deriving DecidableEq, Repr

/-! ### Caches and coherence (spec/06, spec/07) -/

/-- A line of a bough's L3 (R144 to R147, R154, R164): state, data, poison, ownership epoch, way, lock marking, whether the
data array holds it, the twigs that hold it and the one that holds it writable, the L1s that hold it and the one that holds it
writable, and when the L3, each L2 and each L1 last used it. -/
structure L3Line where
  st : CState := .invalid
  data : Line := 0
  poison : Bool := false
  epoch : Nat := 0
  way : Nat := 0
  locked : Bool := false
  hasData : Bool := true
  twigs : List Nat := []
  writer : Option Nat := none
  l1 : List Nat := []
  l1Writer : Option Nat := none
  used : Nat := 0
  used2 : KMap Nat Nat := []
  used1 : KMap Nat Nat := []
deriving DecidableEq, Repr

/-- An entry of an eviction buffer (R149 to R151). -/
structure EvbEntry where
  line : Nat
  st : CState
  data : Line
  poison : Bool
  epoch : Nat
  sent : Bool
deriving DecidableEq, Repr

/-- Whose write a bough's request makes (R174, R422): a leaf's non-cacheable store, or an engine's. -/
inductive TxnFor where
  | leaf (n : Nat)
  | lee (n : Nat)
deriving DecidableEq, Repr

/-- A request of the bough to a home that is not answered yet (R168, R171, R178): whether it has been sent, its RETRY, the
line and the grant received, whether the grant marks the line poisoned (R181), the back-off hint of a refusal, the bytes of a write
and whose write it is, and whether it is the fetch of a lock command. -/
structure BoughTxn where
  line : Nat
  op : CohOp
  sent : Bool := false
  retry : Nat := 0
  data : Option (Grant × LineData) := none
  grant : Option (Grant × Nat) := none
  backoff : Option Nat := none
  poison : Bool := false
  mask : Nat := 0
  value : Line := 0
  who : Option TxnFor := none
  forLock : Bool := false
deriving DecidableEq, Repr

/-- A preload-and-lock command in progress (R152 to R158): the next line, how many are left, the way mask, the first
failure, whether a disable ends it after its current line, whether that line is being fetched, and whether it waited for a fill in
progress (R155). -/
structure LockCmd where
  next : Nat
  left : Nat
  ways : Nat
  firstFail : Option Nat := none
  ending : Bool := false
  fetching : Bool := false
  waited : Bool := false
deriving DecidableEq, Repr

/-- The caches of a bough, its requests and its eviction buffers. -/
structure Bough where
  lines : KMap Nat L3Line := []
  evb : List EvbEntry := []
  txns : List BoughTxn := []
  lock : Option LockCmd := none
  clock : Nat := 0
deriving DecidableEq, Repr

/-- Directory states of R163. -/
inductive DState where
  | invalid | shared | owned | excl
deriving DecidableEq, Repr

/-- A directory entry (R163). The epoch stays with the line when the entry is freed; `stamp` orders allocations.
DEDUCED, assumption 24. -/
structure DirEntry where
  st : DState := .invalid
  owner : Nat := 0
  epoch : Nat := 0
  sharers : List Nat := []
  stamp : Nat := 0
deriving DecidableEq, Repr

/-- A request at a home (R167, R168). -/
structure HomeReq where
  op : CohOp
  src : CohReq
  line : Nat
  retry : Nat := 0
  mask : Nat := 0
  data : Line := 0
deriving DecidableEq, Repr

/-- The plan of R170 for a request that finds an entry: snoops, whether a bough is to supply the data, whether no data is sent, the
grant, and the entry at close. -/
structure Plan where
  snoops : List (Nat × Snoop) := []
  fwd : Bool := false
  noData : Bool := false
  grant : Grant := .none
  final : DirEntry := {}
deriving DecidableEq, Repr

/-- An open transaction at a home (R168 to R171, R177): its request, the entry it found and its plan, the snoops not answered, the
line returned to the home by a snooped bough, the answer of the bough that forwards the data, whether memory has been asked, whether
its write waits at the channel's input, and whether it awaits COMP_ACK; whether a timeout poisoned its data and which boughs timed
out (R181); the entry at close and its allocation stamp. An eviction of R177 has `evict` set. -/
structure HomeTxn where
  req : HomeReq
  snoops : List (Nat × Snoop) := []
  got : Option LineData := none
  fwd : Option SnpAns := none
  fromMem : Bool := false
  writing : Bool := false
  waitAck : Bool := false
  poison : Bool := false
  gone : List Nat := []
  evict : Bool := false
  found : DirEntry := {}
  plan : Plan := {}
  final : DirEntry := {}
  stamp : Nat := 0
deriving DecidableEq, Repr

/-- What waits for the way of a directory eviction (R177, R179): a request, or the entry of a starvation slot (bough, line). -/
inductive HomeWait where
  | req (r : HomeReq)
  | slot (bough line : Nat)
deriving DecidableEq, Repr

/-- The fabric clock in which a home took its last request (R169): the ring count, the two pointers with which that clock began, and
the rank in it of the last request taken. -/
structure HomeClock where
  ring : Word
  p : Nat
  q : Nat
  rank : Nat
deriving DecidableEq, Repr

/-- A write-back held at the home while a transaction on its line is open (R175). -/
structure HeldWb where
  bough : Nat
  line : Nat
  owned : Bool
  epoch : Nat
  data : LineData
deriving DecidableEq, Repr

/-- A home agent with its directory quadrant: entries by line, starvation slots (bough, line), open transactions, requests that wait
behind their line's transaction, what waits for an eviction with the victim line, requests that wait for their bough's slot, held
write-backs, snoops that timed out (bough, line), the two pointers of R169 and the clock of the last request, and purges in order
(bough, whether it follows isolation, whether software started it). -/
structure Home where
  dir : KMap Nat DirEntry := []
  slots : List (Nat × Nat) := []
  txns : List HomeTxn := []
  queue : List HomeReq := []
  waiting : List (HomeWait × Nat) := []
  slotWait : List HomeReq := []
  held : List HeldWb := []
  late : List (Nat × Nat) := []
  p : Nat := 0
  q : Nat := 0
  clock : Option HomeClock := none
  stamp : Nat := 0
  purges : List (Nat × Bool × Bool) := []
deriving DecidableEq, Repr

/-! ### Fabric (spec/08) -/

/-- The gate of a site (R200): whether it is closed, and the virtual networks whose marker has come back. -/
structure Gate where
  closed : Bool := false
  markers : List Nat := []
  inReset : Bool := false
deriving DecidableEq, Repr

/-- The fabric: two routing banks as changes against the default tables, packets held at changing ports, the gates, the pending tables and
the accesses held for wake or being forwarded after it, those of requesters that wait at once that were answered after 200 µs, the lateral
grafts whose traffic is still to be rerouted, and the crossings that are broken. `routed` is the last packet routed, with its version and
its output port. -/
structure Fabric where
  bank0 : KMap Nat Nat := []
  bank1 : KMap Nat Nat := []
  routed : Option (MeshPkt × Nat × Nat) := none
  held : List MeshPkt := []
  gates : KMap Nat Gate := []
  pending : KMap Nat (List (Nat × Nat × Nat)) := []
  heldAcc : KMap Nat (List SitePkt) := []
  answered : List SitePkt := []
  reroute : List Nat := []
  broken : List Crossing := []
deriving DecidableEq, Repr

/-! ### Events (spec/14) -/

/-- The window of an event source (R344). -/
structure EvcWindow where
  opened : Bool := false
  start : Word := 0
deriving DecidableEq, Repr

/-- Pulses of a bough's event source that wait for an acknowledge (R206). -/
structure EvAcc where
  count : Nat := 0
  info : EvInfo := {}
deriving DecidableEq, Repr

/-- The last answer on a register or memory bus: the data, and whether it is an error response (R6). -/
structure BusAnswer where
  data : Word := 0
  err : Bool := false
  poison : Bool := false
deriving DecidableEq, Repr

/-- A committed entry of the region firewall (R394, R396), with its addresses in pages of 4,096 bytes. -/
structure FwEntry where
  base : Nat := 0
  limit : Nat := 0
  rd : Nat := 0
  wr : Nat := 0
  seg : Nat := 0
  en : Bool := false
deriving DecidableEq, Repr

/-- A read at a memory channel (R266, R267): its line, home and source, when it arrived, and whether it has waited for a matching
write. -/
structure MemRead where
  line : Nat
  home : Nat
  src : CohReq
  arrived : Word
  waited : Bool := false
deriving DecidableEq, Repr

/-- Who waits for a held write to be accepted (R171, R175): the transaction of its line, the bough of a write-back, or nobody. -/
inductive WriteFor where
  | txn (home : Nat)
  | wb (bough : Nat)
  | nobody
deriving DecidableEq, Repr

/-- A write held at a channel's input until the channel accepts it (R266, R274 to R277); `trace` names the real-time queue. -/
structure MemWrite where
  line : Nat
  data : LineData
  trace : Bool := false
  who : WriteFor := .nobody
  src : Option CohReq := none
deriving DecidableEq, Repr

/-- A write in a queue of a channel (R266 to R268): its line, its source, and whether the queue is the real-time queue. -/
structure QueuedWrite where
  line : Nat
  src : Option CohReq := none
  rt : Bool := false
deriving DecidableEq, Repr

/-- A CXL.mem request that the device has not answered (R291): its line and home; a write, the line it writes (none when a later
write has replaced it), and whether a transaction waits for its completion. -/
structure CxlReq where
  line : Nat
  home : Nat
  write : Bool := false
  data : Option LineData := none
  comp : Bool := false
deriving DecidableEq, Repr

/-- A memory channel (spec/11): reads and writes held at its input, the read queue, the write and the real-time queue in order of arrival,
the reads issued to DRAM, whether the write queue is being drained, the open row of each bank, the refreshes postponed for each rank,
whether a drift slot is due, whether a re-initialisation waits for the queues to drain, the corrected errors of the window and whether its
threshold has been reached, the DIMMs found, and what is kept through a warm reset: whether the contents are, the front, and the bytes and
poisoned lines by channel address. -/
structure MemCh where
  input : List MemRead := []
  inputWrites : List MemWrite := []
  reads : List MemRead := []
  queue : List QueuedWrite := []
  issued : List MemRead := []
  draining : Bool := false
  openRows : KMap Nat Nat := []
  postponed : KMap Nat Nat := []
  drift : Bool := false
  reinit : Bool := false
  ceWindow : Nat := 0
  ceHit : Bool := false
  dimms : List Dimm := []
  keep : Bool := false
  front : Nat := 0
  saved : KMap Nat Byte := []
  savedPoison : List Nat := []
deriving DecidableEq, Repr

/-! ### Grafts and span links (spec/09) -/

/-- A DATA flit that failed its CRC: its SEQ, its bits as they arrived, and the physical lanes of its logical lanes at that time
(R211, R220). -/
structure FailedFlit where
  seq : Nat
  flit : BitVec 512
  lanes : List Nat
deriving DecidableEq, Repr

/-- One end of a graft: its receiver's expected SEQ, whether it has asked for a replay and waits, how often in a row the expected SEQ
failed, the DATA flits whose CRC failed, the error counts of its lanes in the current interval, the failing lanes that its REPAIR
names, those that became failing during the pause, flits whose CRC failed, the flits of the packets being received by VN, and the last
packet received with its route version; its sender's next SEQ, its replay buffer (each flit by its SEQ, and its bits once it has arrived intact),
the SEQ to be resent next, and the credits it holds by VN (R211 to R221). -/
structure GraftSide where
  expect : Nat := 0
  asked : Bool := false
  fails : Nat := 0
  bad : List FailedFlit := []
  errs : KMap Nat Nat := []
  failing : List Nat := []
  later : List Nat := []
  crc : Nat := 0
  rx : KMap Nat (List (BitVec 512)) := []
  last : Option (MeshPkt × Nat) := none
  next : Nat := 0
  replay : List (Nat × Option (BitVec 512)) := []
  resend : Option Nat := none
  credits : KMap Nat Nat := []
deriving DecidableEq, Repr

/-- A remote SEND that is not acknowledged: its tag, its port, the sending leaf and the word's IMM (R232). -/
structure RemoteSend where
  tag : Nat
  port : Nat
  leaf : Nat
  imm : Word
deriving DecidableEq, Repr

/-! ### Ring count and trace (spec/10) -/

/-- The ring-count copy of a bough die beside its value (R240): whether it has been loaded, how many syncs in a row found it
within one tick, whether it has locked since its reset, whether it slews and how many ticks it has since it last omitted an increment,
and whether its DELAY has been measured (R241). -/
structure CopyState where
  loaded : Bool := false
  good : Nat := 0
  ready : Bool := false
  slew : Bool := false
  phase : Nat := 0
  measured : Bool := false
deriving DecidableEq, Repr

/-- The master's slew still to do (R235) and the ticks since it last omitted an increment, the greatest AHEAD received, and when the time
root last acted on one. -/
structure MasterTime where
  slew : Nat := 0
  phase : Nat := 0
  ahead : Option Nat := none
  acted : Option Word := none
deriving DecidableEq, Repr

/-- A word in a staging FIFO (R248): the OBSERVE's model cycle and type, its emission stamp, and whether it is the first or the
last word. -/
structure Staged where
  word : Word
  mcycle : Nat
  typ : Nat
  stamp : Word
  first : Bool
  last : Bool
deriving DecidableEq, Repr

/-- A trace packer: its staging FIFOs by leaf index, the leaf index next in rotation, and the record credits it holds. -/
structure Packer where
  staging : KMap Nat (List Staged) := []
  next : Nat := 0
  credits : Nat := 8
deriving DecidableEq, Repr

/-- The gap accumulator of a ring (R256). -/
structure Gap where
  ringLo : Word
  ringHi : Word
  mcLo : Nat
  mcHi : Nat
  count : Nat
  causes : Nat
deriving DecidableEq, Repr

/-- A record written to DRAM and not yet counted in WR (R253): its ring and line, and whether WR_COMP has come. -/
structure TraceWrite where
  ring : Nat
  line : Nat
  done : Bool := false
deriving DecidableEq, Repr

/-- The trace unit: its buffer, each record with its ring, the gap accumulators, the records under way to DRAM, and the records
written to each ring since it was enabled. -/
structure TraceUnit where
  buffer : List (TraceRec × Nat) := []
  gaps : KMap Nat (Option Gap) := []
  inflight : List TraceWrite := []
  written : KMap Nat Nat := []
deriving DecidableEq, Repr

/-! ### Host I/O and the trunk translation unit (spec/12) -/

/-- The kinds of entry the translation unit caches (R308), each with the address of its table as the last part of its key. -/
inductive TtuTable where
  | directory | context | pasid | interrupt | segment
  | page1 (level : Nat)
  | page2 (level : Nat)
deriving DecidableEq, Repr

/-- A cached entry: its table, the tags by which it is invalidated (device, PASID, GSCID), the I/O virtual or guest physical
address it was read for, the host physical address of the entry, and its value; `noWrite` marks a leaf cached for reads only. -/
structure TtuCached where
  table : TtuTable
  seg : Nat
  rid : Nat
  pasid : Nat
  gscid : Nat
  key : Nat
  addr : Nat
  value : Nat
  noWrite : Bool
deriving DecidableEq, Repr

/-- What a walk is for. -/
inductive TtuJob where
  | access (req : DevReq)
  | ats (req : DevReq)
  | page (pr : PageReq)
  | msi (seg rid data : Nat)
deriving DecidableEq, Repr

/-- A walk under way (R301): its tag, its job, whether the translation caches are bypassed (R304), the entries read so far by
host physical address, and the read that is outstanding; 2^64 while the end of the walk waits for a line (R168). -/
structure TtuWalk where
  tag : Nat
  job : TtuJob
  bypass : Bool := false
  got : List (Nat × Nat) := []
  outstanding : Nat := 0
deriving DecidableEq, Repr

/-- What is stalled in a slot (R304): a device's request, or what a slice of the bulk engines was doing. -/
inductive Stalled where
  | device (req : DevReq)
  | chunk (slice queue n off : Nat)
  | fetch (slice queue : Nat)
  | completion (slice queue : Nat)
deriving DecidableEq, Repr

/-- An invalidation (R310). -/
inductive TtuInval where
  | context (seg rid : Nat)
  | pasid (seg rid : Nat) (pasid : Option Nat)
  | range (seg rid : Nat) (pasid : Option Nat) (lo hi : Nat)
  | stage2 (gscid lo hi : Nat)
  | all
deriving DecidableEq, Repr

/-- The translation unit: cached entries, walks, stall slots, requests that wait behind a stalled one of
their device in arrival order, the devices that may hold ATS translations (segment, requester ID, GSCID), the invalidation in
progress with what it covers and the devices still to answer, MSIs sent on (hart, file, identity), and device reads of registers and
apertures that are not answered, with their addresses. -/
structure Ttu where
  cache : List TtuCached := []
  walks : List TtuWalk := []
  nextTag : Nat := 0
  stalls : KMap Nat (Option Stalled) := []
  waiting : List TtuJob := []
  atsHeld : List (Nat × Nat × Nat) := []
  inval : Option TtuInval := none
  atsWait : List (Nat × Nat) := []
  msis : List (Nat × Nat × Nat) := []
  regReads : List (Nat × DevReq) := []
deriving DecidableEq, Repr

/-- Root ports: bytes written to their configuration space (at 4,096 r + offset for root port r). -/
structure Hio where
  config : KMap Nat Byte := []
deriving DecidableEq, Repr

/-! ### Bulk engines and slices (spec/13) -/

/-- A chunk (R311): its slice, queue, descriptor, offset and length, how far it has been carried out, the CRC register at its start
and now, the ring count from which its engine time is counted, the tag of a remote chunk, and whether its next translation
bypasses the caches (R304). -/
structure BulkChunk where
  slice : Nat
  queue : Nat
  n : Nat
  off : Nat
  len : Nat
  pos : Nat := 0
  crc0 : Nat := 0
  crc : Nat := 0
  start : Word := 0
  ctag : Option Nat := none
  port : Nat := 0
  bypass : Bool := false
deriving DecidableEq, Repr

/-- A descriptor that has been fetched (R318 to R322): its number among those of its queue, its place n of R316, its words, the offset of
its next chunk, the chunks that have completed, the first failure by offset and status, its result, the CRC register, and whether it is
over. -/
structure BulkDesc where
  n : Nat
  place : Nat := 0
  words : Line
  next : Nat := 0
  done : List (Nat × Nat) := []
  fail : Option (Nat × Nat) := none
  result : Nat := 0
  crc : Nat := 0
  ended : Bool := false
deriving DecidableEq, Repr

/-- A queue: HEAD, the descriptors fetched since it was enabled, those fetched ever and when it was enabled, and those not
completed. -/
structure BulkQueue where
  head : Nat := 0
  fetched : Nat := 0
  first : Nat := 0
  descs : List BulkDesc := []
deriving DecidableEq, Repr

/-- A slice's share of an epoch (R324): its budget and the time it has used, whether it has had work throughout, and the queue
index next in rotation. -/
structure BulkShare where
  budget : Nat := 0
  used : Nat := 0
  busy : Bool := false
  next : Nat := 0
deriving DecidableEq, Repr

/-- A remote chunk arriving from another package (R327): its port, source package, tag and number of lines, the lines written, and
whether one has been refused. -/
structure RcopyIn where
  port : Nat
  spkg : Nat
  ctag : Nat
  nlines : Nat
  lines : List Nat := []
  refused : Bool := false
deriving DecidableEq, Repr

/-- The bulk engines: the chunk each engine holds, chunks parked, chunks to be taken up by the first free engine, remote chunks not
acknowledged, queues (1,024 slice + index), shares, the slice next in rotation for chunks and for the clocks the floor leaves
over, SLICE_LIMIT of the owner part (R43), remote chunks arriving, and the tags whose ACK would be late (R327). -/
structure Bulk where
  engines : KMap Nat (Option BulkChunk) := []
  parked : List BulkChunk := []
  ready : List BulkChunk := []
  remote : List BulkChunk := []
  queues : KMap Nat BulkQueue := []
  shares : KMap Nat BulkShare := []
  rot : Nat := 0
  rotLeft : Nat := 0
  limit : Nat := 64
  arriving : List RcopyIn := []
  late : List Nat := []
deriving DecidableEq, Repr

/-! ### Power (spec/15) -/

/-- An entry of a bough into DORMANT-RET (target 1) or OFF (target 2) in progress (R365): the step it has reached, the blocks
still to answer, those that have answered DELAY once, those that have accepted, whether the L3 was enabled, and whether a
package STANDBY asked for it. Steps: 1 handshake, 2 write-back, 3 purge, 4 gate. -/
structure BoughEntry where
  target : Nat
  step : Nat := 1
  waiting : List HsBlock := []
  delayed : List HsBlock := []
  accepted : List HsBlock := []
  l3 : Bool := false
  forPackage : Bool := false
deriving DecidableEq, Repr

/-- A package entry or wake in progress (R368, R369): whether into SLEEP, the step (1 leaves, 2 boughs, 3 channels; on a wake 4
channels, 5 bough 0), and the channels still to answer, those that answered DELAY once, and those that accepted. -/
structure PackageEntry where
  sleep : Bool
  step : Nat := 1
  waiting : List HsBlock := []
  delayed : List HsBlock := []
  accepted : List HsBlock := []
deriving DecidableEq, Repr

/-- A bough reset in progress (R371): its site, the step (0 waits for the wake of a dormant bough, 1 stopping, 2 write-back, 3 purge,
4 gate, 5 training), whether it is forced, and whether it has escalated. -/
structure ResetOp where
  site : Nat
  step : Nat
  forced : Bool := false
  escalated : Bool := false
deriving DecidableEq, Repr

/-- Power, clocks and reset beside their registers: entries in progress by site, leaves whose entry into OFF waits for an answer (with those
that answered DELAY once), the package entry, sites with a wake cause, sites that wake, the BGH vectors of boughs that are OFF or in an
orderly reset, the dormant sites whose L3 was enabled, the counts recorded on entry to SLEEP if any (R243), the bough reset in progress,
whether the package is in SLEEP, device requests held below the root ports, and the dies whose supply settles in a re-plan (R376). -/
structure Power where
  entries : KMap Nat BoughEntry := []
  leafOff : List Nat := []
  leafDelayed : List Nat := []
  package : Option PackageEntry := none
  wake : List Nat := []
  vectors : KMap Nat (List Word) := []
  l3On : List Nat := []
  waking : List Nat := []
  sleep : Option (Word × Nat) := none
  reset : Option ResetOp := none
  unpowered : Bool := false
  heldDev : List TtuJob := []
  settling : List Nat := []
deriving DecidableEq, Repr

/-! ### Management, boot and supplies (spec/02, spec/16, spec/17) -/

/-- What is fused at test (R1, R16, R44, R45, R51): the variant (1 KS384, 2 KS256, 3 KS192G), the stepping of the trunk and of the bough
dies by site (0x10 where none is listed), the populated sites, the unique ID, the vendor root key hash, the two floors, and the owner key
slots: state (0 empty, 1 enrolled, 2 revoked) and hash. DESIGN CHOICE, assumption 8. -/
structure Fuse where
  variant : Nat := 1
  stepping : Nat := 0x10
  boughStepping : KMap Nat Nat := []
  populated : Nat := 0xFFFFFFF
  uid : Nat := 0
  vendorRoot : Nat := 0
  vFloor : Nat := 0
  oFloor : Nat := 0
  slot0 : Nat := 0
  hash0 : Nat := 0
  slot1 : Nat := 0
  hash1 : Nat := 0
deriving DecidableEq, Repr

/-- The trunk's nonvolatile memory: the guardband of each die, site or 28 for the trunk (R378), the first attestation index not
reserved, and whether the event of the last 2^32 indexes has been raised (R392). DEDUCED, assumption 62. -/
structure Nvm where
  gb : KMap Nat Nat := []
  reserved : Nat := 0
  low : Bool := false
deriving DecidableEq, Repr

/-- The directory in force (R33): the copy that holds it, and its fields. -/
structure Directory where
  copy : Option Nat := none
  seq : Nat := 0
  vActive : Nat := 0
  oActive : Nat := 0
  vTrial : Nat := 0
  oTrial : Nat := 0
  trial : Nat := 0
deriving DecidableEq, Repr

/-- A staging session (R49, R385): what is staged, into which slot, and whether its check has passed since the last write. -/
structure Session where
  kind : PartKind
  slot : Nat
  checked : Bool := false
deriving DecidableEq, Repr

/-- Work on the flash in the background (R386): a range to erase, and bytes to program there. -/
structure FlashJob where
  base : Nat
  size : Nat
  program : List Byte := []
deriving DecidableEq, Repr

/-- A TEST_RESULTS record (R39): supply voltages, ring-oscillator and replica baselines. -/
structure TestRecord where
  vtest : List Nat := []
  ro : List Nat := []
  cp : List Nat := []
deriving DecidableEq, Repr

/-- The MEMORY settings in force (R41): global interleave, the channels used, and the six masks. -/
structure MemSettings where
  global : Bool := false
  channels : Nat := 0
  masks : List Nat := []
deriving DecidableEq, Repr

/-- The management core: the firmware slot that runs (none in service mode) with its SEQ, the directory, the hashes of the loaded
parts, the staging session and background work, a mailbox command in progress (code, length, tag), the next attestation index and
the end of its reserve, DEBUG_EN, the test records by
site (31 for the trunk), and the MEMORY settings. -/
structure Mgmt where
  firmware : Option Nat := none
  fwSeq : Nat := 0
  dir : Directory := {}
  vHash : Nat := 0
  oHash : Nat := 0
  fHash : Nat := 0
  session : Option Session := none
  background : Option FlashJob := none
  mailbox : Option (Nat × Nat × Nat) := none
  next : Nat := 0
  limit : Nat := 0
  debug : Bool := false
  tests : KMap Nat TestRecord := []
  memory : MemSettings := {}
deriving DecidableEq, Repr

/-- Supplies, pins and the standby domain (R399 to R409): supplies and pins as the package sees them, whether it has been stopped and
waits for PWR_OK to fall, whether the package and the board drive PROCHOT_N, the warm reset that has begun and whose load is due, whether
the boot in progress has been counted as failed or is not yet ready, the levels on the PKG_ID pins, those that the board drives at the
samples to come, the latest sample and whether there has been one (R20), and the installed flash.
DESIGN CHOICE, assumption 9. DESIGN CHOICE, assumption 65. -/
structure Board where
  vstby : Bool := true
  pwrOk : Bool := true
  resetN : Bool := true
  refclk : Bool := true
  straps : Nat := 0
  coming : List Nat := []
  pins : Nat := 0
  stopped : Bool := false
  thermtrip : Bool := false
  prochotOwn : Bool := false
  prochotBoard : Bool := false
  warm : Option WarmCause := none
  booting : Bool := false
  ringStarts : Bool := false
  sampled : Bool := false
  flashSize : Nat := 0x1000000
  flashDead : Bool := false
deriving DecidableEq, Repr

/-- The test access port: the bypass bit, the boundary register as preloaded, what the last scan shifted out, and whether the boundary
register drives the pins (R388, R389). DESIGN CHOICE, assumption 63. -/
structure Tap where
  bypass : Bool := false
  boundary : Word := 0
  out : Word := 0
  drives : Bool := false
deriving DecidableEq, Repr

/-- The answer to the last command of the BMC port (R384): SEQ, STATUS and payload, and whether the in-band interrupt that a port on I3C
raises with an answer has been raised. -/
structure BmcAnswer where
  seq : Nat := 0
  status : Nat := 0
  payload : List Byte := []
  raised : Bool := false
deriving DecidableEq, Repr

/-- What has been sent and has not arrived (R184). -/
inductive Packet where
  | event (source count : Nat) (info : EvInfo)
  | msi (hart file identity : Nat)
  | reg (req : Requester) (addr size : Nat) (value : Word)
  | aperture (req : Requester) (leaf offset size : Nat) (value : Line)
  | ioAnswer (hart addr : Nat) (value : Word) (err : Bool)
  | request (bough : Nat) (req : HomeReq)
  | snoop (kind : Snoop) (bough line : Nat) (fwd : Option Nat)
  | snpRsp (bough line : Nat) (ans : SnpAns) (data : LineData)
  | data (dst : CohReq) (line : Nat) (grant : Grant) (epoch : Nat) (data : LineData)
  | dataFwd (bough line : Nat) (grant : Grant) (data : LineData)
  | grant (bough line : Nat) (grant : Grant) (epoch : Nat) (poisoned : Bool)
  | compAck (bough line : Nat)
  | nack (bough line hint : Nat)
  | wrComp (dst : CohReq) (line : Nat) (poisoned : Bool)
  | wb (bough line : Nat) (owned : Bool) (epoch : Nat) (data : LineData)
  | wbAck (bough line : Nat) (ok : Bool)
  | xch (msg : XchMsg)
  | xchAck (leaf : Nat) (imm : Word) (outcome : XchOutcome)
  | barrierNotify (leaf : Nat)
  | marker (site vn : Nat)
  | token (port group gen8 : Nat)
  | spanWindow (port : Nat) (w : SpanWindow)
  | spanAck (port spkg dpkg ttl tag : Nat) (outcome : XchOutcome)
  | nonalloc (req : HomeReq)
  | retry (g : GraftEnd) (seq : Nat)
  | repair (g : GraftEnd)
  | probe (site : Nat) (t1 : Word)
  | hsReq (block : HsBlock)
  | hsAccept (block : HsBlock)
  | ringSync (site : Nat) (value : Word)
  | syncAck (site : Nat) (offset : Int)
  | trace (site : Nat) (rec : TraceRec)
  | spanRetry (port seq : Nat)
  | spanReplay (port seq count : Nat)
  | keepalive (port : Nat)
  | hello (port : Nat)
  | creditInit (port : Nat)
  | tsyncReq (port : Nat)
  | tsyncResp (port : Nat) (t2 t3 : Word)
  | ahead (port offset : Nat)
  | rcopy (port : Nat) (pkt : RcopyPkt)
  | rcopyAck (port spkg dpkg ttl ctag : Nat) (access : Bool)
  | regRead (req : Requester) (addr size : Nat)
  | mmioRead (rp hart addr : Nat)
  | mmioWrite (rp addr size : Nat) (value : Word)
  | devDone (seg rid tag : Nat) (ok poison : Bool) (data : Nat)
  | atsDone (seg rid tag : Nat) (ok : Bool) (entry : AtsEntry)
  | atsInval (seg rid : Nat)
  | prgResponse (seg rid : Nat) (pasid : Option Nat) (prgi code : Nat)
deriving DecidableEq, Repr

/-- A packet under way: its route version and the bits of its sender's ring count (R191), and whether a changing port holds it
(R194). -/
structure Sent where
  pkt : Packet
  rv : Nat := 0
  ring : Nat := 0
  held : Bool := false
deriving DecidableEq, Repr

/-- A packet received over a span link, by its header (R231): class, operation code, TTL, source and destination package, bytes 4 to 15, and
the payloads of its flits. -/
structure SpanPacket where
  cls : Nat
  opc : Nat
  ttl : Nat
  spkg : Nat
  dpkg : Nat
  fields : BitVec 96
  payloads : List (BitVec 928)
deriving DecidableEq, Repr

/-- A span port: the lanes in use and the codeword that each of them is receiving; its receiver's expected SEQ, whether it has asked for a
replay and waits, how often in a row the expected SEQ failed, flits whose CRC failed, the flits of the packets being received by
class, the last packet received, and packets of unused classes discarded; its sender's next SEQ, its replay buffer (each flit by its
SEQ and its packet), the credits it holds by class, and the packets that wait for credits; whether HELLO has passed, and the ring
count at which the peer was last heard; the stamp T1 of a TSYNC exchange under way, the offset of the last one, how many in a row were
within 4 ticks, and whether AHEAD has been sent in this exchange (R228 to R237). DESIGN CHOICE, assumption 30. -/
structure SpanSide where
  lanes : List Nat := []
  codewords : KMap Nat (Option SpanCodeword) := []
  expect : Nat := 0
  asked : Bool := false
  fails : Nat := 0
  crc : Nat := 0
  rx : KMap Nat (List (BitVec 1024)) := []
  last : Option SpanPacket := none
  dropped : Nat := 0
  next : Nat := 0
  replay : List (Nat × Packet) := []
  credits : KMap Nat Nat := []
  waiting : List Packet := []
  hello : Bool := false
  heard : Word := 0
  sentAt : Option Word := none
  offset : Int := 0
  close : Nat := 0
  aheadSent : Bool := false
deriving DecidableEq, Repr

/-- The whole package but for the queue of commands. `regs` holds every register that differs from its reset value;
`wire` everything sent and not yet arrived; `free` counts the free values taken (Config.freeWord). -/
structure Dev where
  regs : KMap Reg Word := []
  mem : KMap Nat Byte := []
  poison : List Nat := []
  wire : List Sent := []
  resp : BusAnswer := {}
  free : Nat := 0
  ring : Word := 0
  copies : KMap Nat Word := []
  leaves : KMap Nat Leaf := []
  lees : KMap Nat Lee := []
  groups : KMap Nat Group := []
  boughs : KMap Nat Bough := []
  homes : KMap Nat Home := []
  fabric : Fabric := {}
  evc : KMap Nat EvcWindow := []
  evcBusy : List Nat := []
  evAcc : KMap Nat EvAcc := []
  pulse : Bool := false
  firewall : KMap Nat FwEntry := []
  remoteSends : List RemoteSend := []
  lateTags : List Nat := []
  channels : KMap Nat MemCh := []
  cxl : KMap Nat (List CxlReq) := []
  grafts : KMap GraftEnd GraftSide := []
  spans : KMap Nat SpanSide := []
  copyState : KMap Nat CopyState := []
  master : MasterTime := {}
  packers : KMap Nat Packer := []
  trace : TraceUnit := {}
  power : Power := {}
  ttu : Ttu := {}
  hio : Hio := {}
  flash : KMap Nat Byte := []
  bulk : Bulk := {}
  fuse : Fuse := {}
  nvm : Nvm := {}
  mgmt : Mgmt := {}
  board : Board := {}
  tap : Tap := {}
  answer : BmcAnswer := {}
deriving DecidableEq, Repr

end Sys2Proof.Machine
end

