-- ==== Sys2Proof/Machine/Units.lean ====
section
/-!
DEFINITION. Registers and their fields, which units are present, the records of units by number, and the address map.
-/

namespace Sys2Proof.Machine

/-! ### Registers -/

/-- The order in which registers are listed. -/
def Reg.lt (a b : Reg) : Bool :=
  a.name.ctorIdx < b.name.ctorIdx ||
    (a.name.ctorIdx == b.name.ctorIdx && (a.u < b.u || (a.u == b.u && a.k < b.k)))

/-- The XOR masks of R265 by default. -/
def defaultXor : Nat → Word
  | 0 => 0x0000000104100080
  | 1 => 0x0000000208200100
  | 2 => 0x0000000410400200
  | 3 => 0x0000000841002000
  | 4 => 0x0000001082004000
  | 5 => 0x0000000020800040
  | _ => 0

/-- The distances from crown r in the default mode (R23). -/
def defaultDist (r : Nat) : Word :=
  let dist (k : Nat) : Nat := if k = r then 10 else if k = r ^^^ 3 then 14 else 12
  BitVec.ofNat 64 ((20 <<< 32) + (dist 3 <<< 24) + (dist 2 <<< 16) + (dist 1 <<< 8) + dist 0)

/-- The reset value of a register from its table (R9). DESIGN CHOICE, assumption 11. -/
def Reg.reset (r : Reg) : Word :=
  match r.name with
  | .MEM_XOR => defaultXor r.k
  | .TRK_NUMA_DIST => defaultDist r.k
  | n => BitVec.ofNat 64 ((n.fields.map fun f => f.rst <<< f.lo).foldl (· + ·) 0)

/-- A register's value. -/
def Dev.reg (d : Dev) (r : Reg) : Word := d.regs.find r.reset r

/-- Give a register a value. -/
def Dev.setReg (d : Dev) (r : Reg) (w : Word) : Dev := { d with regs := d.regs.set Reg.lt r.reset r w }

/-- A field's value. -/
def Dev.get (d : Dev) (f : Fld) (u : Nat := 0) (k : Nat := 0) : Nat := (d.reg ⟨f.reg, u, k⟩).bits f.hi f.lo

/-- Give a field a value (its low bits). -/
def Dev.put (d : Dev) (f : Fld) (v : Nat) (u : Nat := 0) (k : Nat := 0) : Dev :=
  d.setReg ⟨f.reg, u, k⟩ ((d.reg ⟨f.reg, u, k⟩).setBits f.hi f.lo v)

/-- A one-bit field that is set. -/
def Dev.flag (d : Dev) (f : Fld) (u : Nat := 0) (k : Nat := 0) : Bool := d.get f u k != 0

/-- Add to a field that saturates. -/
def Dev.bump (d : Dev) (f : Fld) (n : Nat := 1) (u : Nat := 0) (k : Nat := 0) : Dev :=
  d.put f (min (d.get f u k + n) (2 ^ f.width - 1)) u k

/-- Add to a field that wraps. -/
def Dev.count (d : Dev) (f : Fld) (n : Nat := 1) (u : Nat := 0) (k : Nat := 0) : Dev :=
  d.put f (d.get f u k + n) u k

/-- Bit b of a mask. -/
def bit (mask b : Nat) : Bool := mask.testBit b

/-- A mask with bit b set or cleared. -/
def setBit (mask b : Nat) (v : Bool) : Nat :=
  if v then mask ||| (1 <<< b) else if mask.testBit b then mask - (1 <<< b) else mask

/-! ### Which units are present (R1 to R4, R17 to R19) -/

/-- The DDR5 channels of the variant (R16). -/
def Dev.memMask (d : Dev) : Nat := if d.fuse.variant = 1 then 0xFFFF else if d.fuse.variant = 2 then 0x7777 else 0x3333
/-- The x16 root ports of the variant. -/
def Dev.rpMask (d : Dev) : Nat := if d.fuse.variant = 1 then 0xFF else if d.fuse.variant = 2 then 0x3F else 0x0F
/-- The span ports of the variant. -/
def Dev.spanMask (d : Dev) : Nat := if d.fuse.variant = 1 then 0xF else if d.fuse.variant = 2 then 0x3 else 0
/-- The root ports that can carry CXL. -/
def Dev.cxlMask (_ : Dev) : Nat := 0xF
/-- The number of model groups of the variant. -/
def Dev.groupsHere (d : Dev) : Nat := if d.fuse.variant = 3 then 0 else 16
/-- The variant has engines and the trace unit. -/
def Dev.hasLee (d : Dev) : Bool := d.fuse.variant != 3
/-- The variant has the first-error latch and the capture ring. -/
def Dev.hasCapture (d : Dev) : Bool := d.fuse.variant == 1
/-- The spare sites of the variant (R1). -/
def Dev.sparesFused (d : Dev) : Nat := if d.fuse.variant = 1 then 4 else if d.fuse.variant = 2 then 2 else 0
/-- The active boughs of the variant. -/
def Dev.boughsFused (d : Dev) : Nat := if d.fuse.variant = 1 then 24 else if d.fuse.variant = 2 then 16 else 12

/-- Site s holds an active bough. -/
def Dev.siteActive (d : Dev) (s : Nat) : Bool := decide (s < 28) && bit (d.get TRK_CAP.SITE_ACTIVE) s

/-- The number of active boughs, B. -/
def Dev.boughsB (d : Dev) : Nat := d.get TRK_CAP.BOUGHS

/-- The site map entry of a site as SIM reports it (R38). -/
def Dev.mapEntry (d : Dev) (s : Nat) : Nat :=
  (d.reg ⟨.SIM_SITEMAP, 0, s / 7⟩).bits (8 * (s % 7) + 7) (8 * (s % 7))

/-- The site of a logical bough. -/
def Dev.siteOf (d : Dev) (b : Nat) : Option Nat :=
  (List.range 28).find? fun s => d.mapEntry s == 0x40 + b

/-- The logical bough at a site. -/
def Dev.boughAt (d : Dev) (s : Nat) : Nat := (d.mapEntry s) % 32

/-- The logical leaf number exists in the package (R19). -/
def Dev.leafPresent (d : Dev) (n : Nat) : Bool := decide (n < 16 * d.boughsB)

/-- The site of a leaf; 28 stands for none. -/
def Dev.leafSite (d : Dev) (n : Nat) : Nat := (d.siteOf (n / 16)).getD 28

/-- The event source of a leaf (R342). -/
def Dev.leafSource (d : Dev) (n : Nat) : Nat := 128 + 32 * d.leafSite n + n % 16

/-- The event source with offset o of a site (R342). -/
def siteSource (s o : Nat) : Nat := 128 + 32 * s + o

/-- A source of R342 that a present unit owns. DEDUCED, assumption 27. -/
def Dev.sourcePresent (d : Dev) (n : Nat) : Bool :=
  if n < 10 then true
  else if n < 26 then decide (n - 10 < d.groupsHere)
  else if n < 54 then true
  else if n < 58 then bit d.spanMask (n - 54)
  else if n < 74 then bit d.memMask (n - 58)
  else if n < 106 then bit d.rpMask ((n - 74) / 4)
  else if n = 108 then d.hasLee
  else if n < 115 then true
  else if n < 128 then false
  else decide (n < 1024) && d.siteActive ((n - 128) / 32) && decide ((n - 128) % 32 < 26)

/-! ### Records of units by number -/

/-- The core of a leaf. -/
def Dev.leaf (d : Dev) (n : Nat) : Leaf := d.leaves.find {} n
/-- Replace the core of a leaf. -/
def Dev.setLeaf (d : Dev) (n : Nat) (l : Leaf) : Dev := { d with leaves := d.leaves.set natLt {} n l }
/-- The engine of a leaf. -/
def Dev.lee (d : Dev) (n : Nat) : Lee := d.lees.find {} n
/-- Replace the engine of a leaf. -/
def Dev.setLee (d : Dev) (n : Nat) (l : Lee) : Dev := { d with lees := d.lees.set natLt {} n l }
/-- A model group's barrier. -/
def Dev.group (d : Dev) (g : Nat) : Group := d.groups.find {} g
/-- Replace a model group's barrier. -/
def Dev.setGroup (d : Dev) (g : Nat) (x : Group) : Dev := { d with groups := d.groups.set natLt {} g x }
/-- The caches of a logical bough. -/
def Dev.bough (d : Dev) (b : Nat) : Bough := d.boughs.find {} b
/-- Replace the caches of a logical bough. -/
def Dev.setBough (d : Dev) (b : Nat) (x : Bough) : Dev := { d with boughs := d.boughs.set natLt {} b x }
/-- Home agent q. -/
def Dev.home (d : Dev) (q : Nat) : Home := d.homes.find {} q
/-- Replace home agent q. -/
def Dev.setHome (d : Dev) (q : Nat) (h : Home) : Dev := { d with homes := d.homes.set natLt {} q h }
/-- The gate of a site. -/
def Dev.gate (d : Dev) (s : Nat) : Gate := d.fabric.gates.find {} s
/-- Replace the gate of a site. -/
def Dev.setGate (d : Dev) (s : Nat) (g : Gate) : Dev :=
  { d with fabric := { d.fabric with gates := d.fabric.gates.set natLt {} s g } }

/-- The queues of a memory channel. -/
def Dev.channel (d : Dev) (m : Nat) : MemCh := d.channels.find {} m
/-- Replace the queues of a memory channel. -/
def Dev.setChannel (d : Dev) (m : Nat) (x : MemCh) : Dev := { d with channels := d.channels.set natLt {} m x }

/-! ### Time -/

/-- The ring count copy of a bough die (R66). -/
def Dev.copy (d : Dev) (s : Nat) : Word := d.copies.find 0 s
/-- Load the ring count copy of a bough die. -/
def Dev.setCopy (d : Dev) (s : Nat) (t : Word) : Dev := { d with copies := d.copies.set natLt 0 s t }
/-- Bits [31:0] of the master ring count. -/
def Dev.ringLow (d : Dev) : Nat := d.ring.toNat % 2 ^ 32

/-! ### The address map (R24) -/

/-- The base of the register space, KRB (R24). -/
def krb : Nat := 0x0F0000000000

/-- The ranges of the address map (R24). -/
inductive Range where
  | dram | cxl | mmio | aperture | regs | flash | reserved
deriving DecidableEq, Repr

/-- The range an address lies in. -/
def rangeOf (a : Nat) : Range :=
  if a < 0x080000000000 then .dram
  else if a < 0x0C0000000000 then .cxl
  else if a < 0x0E0000000000 then .mmio
  else if a < 0x0E1800000000 then .aperture
  else if a < 0x0F0000000000 then .reserved
  else if a < 0x0F0100000000 then .regs
  else if 0x0FFFF0000000 ≤ a ∧ a < 0x100000000000 then .flash
  else .reserved

/-- A channel is present (R16). -/
def Dev.channelPresent (d : Dev) (m : Nat) : Bool := bit d.memMask m

/-- The channels of an interleave set in increasing number: those whose MEM_IL places them in one (R261). -/
def Dev.interleaveSet (d : Dev) (global : Bool) (crown : Nat) : List Nat :=
  (List.range 16).filter fun m => d.get MEM_IL.N m != 0 && (global || m / 4 == crown)

/-- Channel and channel address of a physical address in the DRAM window (R261, R262); none is a decode error. -/
def Dev.channelOf (d : Dev) (a : Nat) : Option (Nat × Nat) :=
  let global := d.flag TRK_CAP.GIL
  let crown := a / 2 ^ 41
  let set := d.interleaveSet global crown
  let off := if global then a else a % 2 ^ 41
  let g := if global then 4096 else 256
  let n := set.length
  if n = 0 then none
  else
    let blk := off / g
    match set[blk % n]? with
    | none => none
    | some m =>
      let ca := blk / n * g + off % g
      if ca < d.get MEM_CFG.CAP m * 2 ^ 30 then some (m, ca) else none

/-- Something backs the line: DRAM below the front of its channel (R262, R263), or CXL memory within an enabled range
(R289), or the installed flash (R32). -/
def Dev.backed (d : Dev) (a : Nat) : Bool :=
  match rangeOf a with
  | .dram =>
    match d.channelOf a with
    | some (m, ca) => decide (ca / 64 * 64 < d.get MEM_INIT.FRONT m * 64)
    | none => false
  | .cxl =>
    let n := (a - 0x080000000000) / 2 ^ 40
    d.flag HIO_CXL.EN n && !d.flag HIO_CXL.CLOSING n && decide (a % 2 ^ 40 < d.get HIO_CXL.SIZE_G n * 2 ^ 30)
  | .flash => decide (a - 0x0FFFF0000000 < d.board.flashSize)
  | _ => false

/-- Main memory of R60 that may be written and cached with a home: DRAM and CXL memory. -/
def mainMemory (a : Nat) : Bool := rangeOf a == .dram || rangeOf a == .cxl

/-- The home agent of a line (R162). -/
def Dev.homeOf (d : Dev) (a : Nat) : Nat :=
  match rangeOf a with
  | .dram => ((d.channelOf a).map (·.1 / 4)).getD 0
  | _ => (a - 0x080000000000) / 2 ^ 40 / 2

/-- The isolation proxy of a site is engaged. DEDUCED, assumption 49. -/
def Dev.isolated (d : Dev) (s : Nat) : Bool := bit (d.get FAB_ISO_STAT.ISOLATED) s

/-- The site whose range of the register space an address lies in (R27). -/
def siteOfAddr (a : Nat) : Option Nat :=
  if krb + 0x80000000 ≤ a ∧ a < krb + 0x80000000 + 28 * 2 ^ 24 then some ((a - krb - 0x80000000) / 2 ^ 24) else none

/-- The trunk block at an offset of the register space, its unit, and the offset in it. -/
def trunkBlock (o : Nat) : Option (Blk × Nat × Nat) :=
  if o < 0x10000 then some (.trk, 0, o)
  else if o < 0x100000 then some (.sim, 0, o - 0x10000)
  else if o < 0x200000 then some (.dir, (o - 0x100000) / 0x10000, o % 0x10000)
  else if o < 0x300000 then some (.fab, 0, o - 0x200000)
  else if o < 0x400000 then some (.grft, (o - 0x300000) / 0x1000, o % 0x1000)
  else if o < 0x500000 then some (.spn, (o - 0x400000) / 0x10000, o % 0x10000)
  else if o < 0x580000 then some (.tim, 0, o - 0x500000)
  else if o < 0x600000 then some (.trc, 0, o - 0x580000)
  else if o < 0x800000 then some (.mem, (o - 0x600000) / 0x10000, o % 0x10000)
  else if o < 0x900000 then some (.ttu, 0, o - 0x800000)
  else if o < 0xA00000 then some (.blk, 0, o - 0x900000)
  else if o < 0xA80000 then some (.evc, 0, o - 0xA00000)
  else if o < 0xB00000 then some (.cmp, 0, o - 0xA80000)
  else if o < 0xB40000 then some (.pwr, 0, o - 0xB00000)
  else if o < 0xB80000 then some (.clk, 0, o - 0xB40000)
  else if o < 0xC00000 then some (.rst, 0, o - 0xB80000)
  else if o < 0xD00000 then some (.age, 0, o - 0xC00000)
  else if o < 0xE00000 then some (.mbx, 0, o - 0xD00000)
  else if o < 0x1000000 then some (.hio, (o - 0xE00000) / 0x1000, o % 0x1000)
  else if o < 0x1400000 then some (.db, (o - 0x1000000) / 0x10000, o % 0x10000)
  else none

end Sys2Proof.Machine
end

