-- ==== Sys2Proof/Machine/Mesh.lean ====
section
/-!
DEFINITION. The fabric as packets see it (spec/08, R184 to R196): nodes and ring stops, routing tables, the path of an exchange window
between two boughs, the header of each packet, and its version and place in order.
-/

namespace Sys2Proof.Machine

/-! ### Routers and default tables -/

/-- The global coordinates of a router (R188). -/
def routerXY (r : Nat) : Nat × Nat := (r % 8, r / 8)

/-- The router number of local coordinates (u, v) of quadrant c (R188). -/
def routerOf (c u v : Nat) : Nat :=
  8 * (if c / 2 = 0 then v else 7 - v) + (if c % 2 = 0 then u else 7 - u)

/-- The units with a place in the fabric (R189, R190): those of the trunk, and the ring stops of a bough by its site. -/
inductive Endpoint where
  | bough (site stop : Nat)
  | channel (m : Nat)
  | rootPort (n : Nat)
  | span (c : Nat)
  | home (q : Nat)
  | regNode (c : Nat)
  | bulk (e : Nat)
  | mgmt | traceUnit | ttu | evc | power
deriving DecidableEq, Repr

/-- The node of a site's graft port (R189). -/
def siteNode (s : Nat) : Nat := 2 * routerOf (s / 7) (s % 7 % 4) (s % 7 / 4)

/-- The node of a unit (R189); for a bough, that of its site's graft port (R191). -/
def Endpoint.node : Endpoint → Nat
  | .bough s _ => siteNode s
  | .channel m => 2 * routerOf (m / 4) (m % 4) 0 + 1
  | .rootPort n => 2 * routerOf (n / 2) (n % 2) 1 + 1
  | .span c => 2 * routerOf c 2 1 + 1
  | .home q => 2 * routerOf q 3 1
  | .regNode c => 2 * routerOf c 3 1 + 1
  | .bulk e => 2 * routerOf (e / 2) 0 2 + e % 2
  | .mgmt => 2 * routerOf 0 1 2
  | .traceUnit => 2 * routerOf 1 1 2
  | .ttu => 2 * routerOf 2 1 2
  | .evc => 2 * routerOf 3 1 2
  | .power => 2 * routerOf 0 1 2 + 1

/-- The ring stop of a unit; zero for those of the trunk (R191). -/
def Endpoint.stop : Endpoint → Nat
  | .bough _ k => k
  | _ => 0

/-- The ports of the mesh with a unit (R189). -/
def endpoints : List Endpoint :=
  (List.range 28).map (.bough · 0) ++ (List.range 16).map .channel ++ (List.range 8).map .rootPort ++ (List.range 4).map .span
  ++ (List.range 4).map .home ++ (List.range 4).map .regNode ++ (List.range 8).map .bulk
  ++ [.mgmt, .traceUnit, .ttu, .evc, .power]

/-- The node has a unit (R189). -/
def nodeUsed (node : Nat) : Bool := endpoints.any fun x => x.node == node

/-- The output port in dimension order, x before y (R188, R193); 6 for a node without an endpoint. -/
def meshDefault (router dnode : Nat) : Nat :=
  let (x, y) := routerXY router
  let (dx, dy) := routerXY (dnode / 2)
  if !nodeUsed dnode then 6
  else if x < dx then 2 else if dx < x then 3 else if y < dy then 4 else if dy < y then 5 else dnode % 2

/-- Every site from one position of a crown to another is active. -/
def Dev.allActive (d : Dev) (s t : Nat) : Bool :=
  (List.range (max s t - min s t + 1)).all fun i => d.siteActive (min s t + i)

/-- The default exit for XCH from a site to a logical bough (R192, R193): 0 the graft, 1 and 2 lateral, 3 this bough. -/
def Dev.xchDefault (d : Dev) (s b : Nat) : Nat :=
  match d.siteOf b with
  | none => 0
  | some t =>
    if t = s then 3
    else if s / 7 = t / 7 && decide (max s t - min s t ≤ 2) && d.allActive s t then (if t < s then 1 else 2)
    else 0

/-- The number under which a table entry is kept: kind (0 router, 1 bough die), unit, VN and entry. -/
def routeKey (kind unit vn entry : Nat) : Nat := ((kind * 64 + unit) * 8 + vn) * 128 + entry

/-- A default entry (R193). The ring direction of a bough die is 0 by default. DESIGN CHOICE, assumption 23. -/
def Dev.routeDefault (d : Dev) (kind unit vn entry : Nat) : Nat :=
  if kind = 0 then meshDefault unit entry
  else if vn = 4 && decide (32 ≤ entry ∧ entry < 56) then d.xchDefault unit (entry - 32)
  else 0

/-- The entries of a bank that have been written. -/
def Dev.bank (d : Dev) (v : Nat) : KMap Nat Nat := if v = 0 then d.fabric.bank0 else d.fabric.bank1

/-- A routing entry of bank v. -/
def Dev.route (d : Dev) (v kind unit vn entry : Nat) : Nat :=
  match (d.bank v).find 8 (routeKey kind unit vn entry) with
  | 8 => d.routeDefault kind unit vn entry
  | x => x

/-- The active bank is the one that VERSION names (R194). -/
def Dev.activeBank (d : Dev) : Nat := d.get FAB_ROUTE_SWAP.VERSION

/-- Write an entry of a bank. -/
def Dev.setRoute (d : Dev) (v kind unit vn entry value : Nat) : Dev :=
  let put (m : KMap Nat Nat) : KMap Nat Nat := m.set natLt 8 (routeKey kind unit vn entry) value
  { d with fabric := if v = 0 then { d.fabric with bank0 := put d.fabric.bank0 }
                     else { d.fabric with bank1 := put d.fabric.bank1 } }

/-! ### Exchange paths -/

/-- Steps of an exchange path: over a lateral graft, named by its lower site, through the trunk, or to a ring stop that leads to no graft
(R190). -/
inductive Hop where
  | lateral (low : Nat)
  | trunk
  | nowhere
deriving DecidableEq, Repr

/-- The path of an exchange window from a site to a logical bough by the tables of a version. -/
def Dev.xchPath (d : Dev) (v : Nat) : Nat → Nat → Nat → List Hop
  | 0, _, _ => []
  | k + 1, s, b =>
    match d.route v 1 s 4 (32 + b) with
    | 3 => []
    | 1 => if s % 7 = 0 then [.nowhere] else .lateral (s - 1) :: d.xchPath v k (s - 1) b
    | 2 => if s % 7 = 6 then [.nowhere] else .lateral s :: d.xchPath v k (s + 1) b
    | _ => [.trunk]

/-- The state of a lateral graft: GRF_STAT.STATE of its authoritative side. -/
def Dev.lateralState (d : Dev) (low : Nat) : Nat := d.get GRFB_STAT.STATE low 2

/-- The path of a message by the tables of a version. -/
def Dev.msgPath (d : Dev) (m : XchMsg) (v : Nat) : List Hop :=
  if m.remote.isSome then [.trunk]
  else if m.sleaf / 16 = m.dleaf / 16 then []
  else d.xchPath v 7 (d.leafSite m.sleaf) (m.dleaf / 16)

/-! ### Packet headers (R184, R191) -/

/-- The control stop of a leaf's bough, with its interrupt files (R190). -/
def Dev.controlStop (d : Dev) (n : Nat) : Endpoint := .bough (d.leafSite n) 3

/-- The twig stop of a leaf and its engine (R190). -/
def Dev.twigStop (d : Dev) (n : Nat) : Endpoint := .bough (d.leafSite n) (4 + n % 16 / 4)

/-- The L3 slice of a line (R145): the exclusive-or of its fourteen 3-bit fields. -/
def l3Slice (line : Nat) : Nat := (List.range 14).foldl (fun a i => a ^^^ (line / 8 ^ i % 8)) 0

/-- The stop of the L3 slice of a line in a bough (R190). -/
def Dev.sliceStop (d : Dev) (b line : Nat) : Endpoint := .bough ((d.siteOf b).getD 28) (8 + l3Slice line)

/-- The unit that serves the registers of a trunk block (R189): the register node of its quadrant, or a package-wide unit itself.
DESIGN CHOICE, assumption 4. -/
def blockUnit (b : Blk) (u : Nat) : Endpoint :=
  match b with
  | .dir | .spn => .regNode u
  | .grft => .regNode (u / 7)
  | .mem => .regNode (u / 4)
  | .hio => .regNode (u / 2)
  | .ttu => .ttu
  | .trc => .traceUnit
  | .evc | .cmp => .evc
  | .pwr | .clk | .rst | .age => .power
  | .blk | .db => .bulk 0
  | _ => .mgmt

/-- The unit at an address of the register space, of the apertures or of MMIO. -/
def Dev.addrUnit (d : Dev) (a : Nat) : Endpoint :=
  match siteOfAddr a with
  | some s =>
    let o := (a - krb - 0x80000000) % 2 ^ 24
    if 0x100000 ≤ o ∧ o < 0x200000 then .bough s (4 + (o - 0x100000) / 0x40000) else .bough s 3
  | none =>
    if rangeOf a == .aperture then d.twigStop ((a - 0x0E0000000000) / 2 ^ 28)
    else match trunkBlock (a - krb) with
      | some (b, u, _) => blockUnit b u
      | none => .mgmt

/-- The unit through which a requester of a register or aperture access enters the fabric. DESIGN CHOICE, assumption 4. -/
def Dev.requesterUnit (d : Dev) : Requester → Endpoint
  | .leaf n _ | .lee n => d.twigStop n
  | .slice k => .bulk (k % 8)
  | .device .. => .ttu
  | .traceUnit => .traceUnit
  | .span c => .span c
  | .mgmt | .bmc | .jtag => .mgmt

/-- The unit that sends coherence requests of a source. -/
def Dev.sourceUnit (d : Dev) (line : Nat) : CohReq → Endpoint
  | .bough b => d.sliceStop b line
  | .lee n => d.sliceStop (n / 16) line
  | .ttu => .ttu
  | .bulk e => .bulk (e % 8)
  | .trace => .traceUnit

/-- The unit that answers a power entry request (R363). -/
def Dev.blockEndpoint (d : Dev) : HsBlock → Endpoint
  | .leaf n | .lee n => d.twigStop n
  | .l3c s | .packer s => .bough s 3
  | .graft s p => .bough s p
  | .channel m => .channel m

/-- The virtual network, the source and the destination of a packet of the fabric (R184); none for what travels inside a graft, over a
span link, below a root port or as a pulse. An MSI is taken to enter at the translation unit, and a forwarded line at its
home. DESIGN CHOICE, assumption 4. -/
def Dev.route3 (d : Dev) (p : Packet) : Option (Nat × Endpoint × Endpoint) :=
  let home (line : Nat) : Endpoint := .home (d.homeOf (64 * line))
  match p with
  | .reg req a _ _ | .regRead req a _ => some (0, d.requesterUnit req, d.addrUnit a)
  | .aperture req leaf _ _ _ => some (0, d.requesterUnit req, d.twigStop leaf)
  | .mmioRead r h _ => some (0, d.twigStop h, .rootPort r)
  | .request b r => some (0, d.sliceStop b r.line, home r.line)
  | .nonalloc r => some (0, d.sourceUnit r.line r.src, home r.line)
  | .snoop _ b line _ => some (1, home line, d.sliceStop b line)
  | .ioAnswer h a _ _ => some (2, d.addrUnit a, d.twigStop h)
  | .snpRsp b line _ _ | .compAck b line => some (2, d.sliceStop b line, home line)
  | .data dst line _ _ _ | .wrComp dst line _ => some (2, home line, d.sourceUnit line dst)
  | .dataFwd b line _ _ | .grant b line _ _ _ | .nack b line _ | .wbAck b line _ => some (2, home line, d.sliceStop b line)
  | .xchAck n imm _ => some (2, d.twigStop (imm.bits 24 16), d.twigStop n)
  | .wb b line _ _ _ => some (3, d.sliceStop b line, home line)
  | .xch m => some (4, (match m.remote with
      | some _ => .span 0
      | none => d.twigStop m.sleaf), d.twigStop m.dleaf)
  | .msi h _ _ => some (5, .ttu, d.controlStop h)
  | .barrierNotify n => some (5, .mgmt, d.twigStop n)
  | .hsReq blk => some (5, .power, d.blockEndpoint blk)
  | .hsAccept blk => some (5, d.blockEndpoint blk, .power)
  | .ringSync s _ => some (5, .mgmt, .bough s 3)
  | .syncAck s _ => some (5, .bough s 3, .mgmt)
  | _ => none

/-- The header fields of a packet but for RV and RING (R191). -/
def Dev.header (d : Dev) (p : Packet) : Option MeshPkt :=
  (d.route3 p).map fun x => { vn := x.1, dnode := x.2.2.node, dstop := x.2.2.stop, snode := x.2.1.node, sstop := x.2.1.stop }

/-- Bits [23:0] of the ring count of a packet's sender: the copy of its bough die, or the master (R66, R244). -/
def Dev.senderRing (d : Dev) (p : Packet) : Nat :=
  (match d.route3 p with
    | some (_, .bough s _, _) => (d.copy s).toNat
    | _ => d.ring.toNat) % 2 ^ 24

/-! ### Ingress during a swap (R194) -/

/-- An entry of a router differs between the banks. -/
def Dev.changing (d : Dev) (node : Nat) : Bool :=
  (List.range 6).any fun vn => (List.range 128).any fun dn =>
    d.route 0 0 (node / 2) vn dn != d.route 1 0 (node / 2) vn dn

/-- An entry of a bough die differs between the banks. -/
def Dev.dieChanging (d : Dev) (s : Nat) : Bool :=
  ((List.range 6).any fun vn => (List.range 16).any fun e => d.route 0 1 s vn e != d.route 1 1 s vn e)
  || (List.range 24).any fun b => d.route 0 1 s 4 (32 + b) != d.route 1 1 s 4 (32 + b)

/-- The port at which a packet enters the fabric is changing: an entry of its router or of its bough die differs between the banks. -/
def Dev.ingressChanging (d : Dev) (p : Packet) : Bool :=
  match d.route3 p with
  | some (_, .bough s _, dst) => d.dieChanging s || (dst.node != siteNode s && d.changing (siteNode s))
  | some (_, src, _) => d.changing src.node
  | none => false

/-- A packet as it is sent: during a swap one at a changing port is held there, and any other carries the new version (R194). -/
def Dev.sent (d : Dev) (p : Packet) : Sent :=
  let v := d.activeBank
  let ring := d.senderRing p
  if !d.flag FAB_ROUTE_SWAP.BUSY then { pkt := p, rv := v, ring := ring }
  else if d.ingressChanging p then { pkt := p, rv := v, ring := ring, held := true }
  else { pkt := p, rv := 1 - v, ring := ring }

/-! ### Order and arrival (R187, R192) -/

/-- Two packets travel from one source to one destination on one virtual network. -/
def Dev.sameFlow (d : Dev) (p q : Packet) : Bool :=
  match d.route3 p with
  | some x => d.route3 q == some x
  | none => false

/-- The entry of a packet on the wire: what is ahead of it, and the entry. -/
def Dev.ahead (d : Dev) (p : Packet) : Option (List Sent × Sent) :=
  match d.wire.dropWhile fun x => x.pkt != p with
  | [] => none
  | x :: _ => some (d.wire.takeWhile fun y => y.pkt != p, x)

/-- A packet on the wire has nowhere to go (R192): where it enters the mesh, its table names no port; or an exchange window is sent towards
a lateral graft that its position does not have (R190). -/
def Dev.unroutable (d : Dev) (x : Sent) : Bool :=
  match x.pkt, d.header x.pkt with
  | .xch m, some h =>
    let path := d.msgPath m x.rv
    path.contains .nowhere || (path.contains .trunk && decide (6 ≤ d.route x.rv 0 (h.snode / 2) h.vn h.dnode))
  | _, some h => h.snode != h.dnode && decide (6 ≤ d.route x.rv 0 (h.snode / 2) h.vn h.dnode)
  | _, none => false

/-- A packet can arrive now: it is at no changing port, has a route, and nothing sent earlier from its source to its destination on
its virtual network is still under way. One that is not on the wire comes from outside and arrives. -/
def Dev.arrives (d : Dev) (p : Packet) : Bool :=
  match d.ahead p with
  | none => true
  | some (earlier, x) => !x.held && !d.unroutable x && !earlier.any fun y => d.sameFlow p y.pkt

/-- The version of a packet on the wire, or the one in force. -/
def Dev.versionOf (d : Dev) (p : Packet) : Nat :=
  match d.ahead p with
  | some (_, x) => x.rv
  | none => d.activeBank

end Sys2Proof.Machine
end

