-- ==== Sys2Proof/Machine/Ops.lean ====
section
/-!
DEFINITION. The named operations on the state of the package: messages sent and received, events and interrupts, the location code,
access errors, and memory as the agents that do not cache see it.
-/

namespace Sys2Proof.Machine

/-! ### Free values, messages, answers -/

/-- A value the spec leaves open, taken afresh. DESIGN CHOICE, assumption 13. -/
def Dev.freeNext (d : Dev) : Word × Dev := (Config.freeWord d.free, { d with free := d.free + 1 })

/-- The packets under way. -/
def Dev.packets (d : Dev) : List Packet := d.wire.map (·.pkt)

/-- A crossing is broken: it discards everything offered to it and accepts nothing (R207). -/
def Dev.broken (d : Dev) (x : Crossing) : Bool := d.fabric.broken.contains x

/-- Put a packet on its way. DESIGN CHOICE, assumption 4. -/
def Dev.send (d : Dev) (p : Packet) : Dev := { d with wire := d.wire ++ [d.sent p] }

/-- A packet that a bough sends past its graft port while its proxy is engaged, and which is discarded there (R198). What becomes of an
exchange window is settled where it arrives. -/
def Dev.cutAtPort (d : Dev) (p : Packet) : Bool :=
  match p, d.route3 p with
  | .xch _, _ | .xchAck .., _ => false
  | _, some (_, .bough s _, dst) => d.isolated s && dst.node != siteNode s
  | _, _ => false

/-- A unit sends a packet (R184, R198). -/
def Dev.emit (d : Dev) (p : Packet) : Dev := if d.cutAtPort p then d else d.send p

/-- A packet that arrives is no longer under way. -/
def Dev.take (d : Dev) (p : Packet) : Dev := { d with wire := d.wire.eraseP (·.pkt == p) }

/-- Packets under way that are lost. -/
def Dev.lose (d : Dev) (f : Packet → Bool) : Dev := { d with wire := d.wire.filter fun x => !f x.pkt }

/-! ### Location codes (R22) -/

/-- The parts of a location code; a field that does not apply is none. -/
structure Loc where
  pkg : Nat
  crown : Nat
  bough : Nat
  twig : Option Nat := none
  leaf : Option Nat := none
  array : Option Nat := none
  word : Option Nat := none
deriving DecidableEq, Repr

/-- The binary form of a location code. -/
def Loc.code (l : Loc) : Word :=
  let has (o : Option Nat) (b : Nat) : Nat := if o.isSome then 1 <<< b else 0
  BitVec.ofNat 64 (((l.pkg % 64) <<< 58) + ((l.crown % 4) <<< 56) + ((l.bough % 32) <<< 51)
    + ((l.twig.getD 0 % 4) <<< 49) + ((l.leaf.getD 0 % 4) <<< 47)
    + has l.twig 46 + has l.leaf 45 + has l.array 44 + has l.word 43
    + ((l.array.getD 0 % 1024) <<< 32) + (l.word.getD 0 % 2 ^ 32))

/-- The location code of a leaf, with an array number where one applies. -/
def Dev.leafLoc (d : Dev) (n : Nat) (array word : Option Nat := none) : Word :=
  let b := n / 16
  let perCrown := d.boughsB / 4
  Loc.code { pkg := d.get TRK_PKG_ID.PKG_ID, crown := if perCrown = 0 then 0 else b / perCrown, bough := b,
             twig := some (n % 16 / 4), leaf := some (n % 4), array := array, word := word }

/-- The location code of an array of a bough die outside its leaves. -/
def Dev.boughLoc (d : Dev) (s : Nat) (twig : Option Nat) (array word : Option Nat) : Word :=
  Loc.code { pkg := d.get TRK_PKG_ID.PKG_ID, crown := s / 7, bough := d.boughAt s, twig := twig, array := array,
             word := word }

/-- The location code of an array of the trunk, in quadrant q. -/
def Dev.trunkLoc (d : Dev) (q : Nat) (array word : Option Nat) : Word :=
  Loc.code { pkg := d.get TRK_PKG_ID.PKG_ID, crown := q, bough := 31, array := array, word := word }

/-! ### Crossing faults and events (R206, R207, R343) -/

/-- A crossing fault is captured and counted: KIND 1 is an accumulator overflow, 2 a timeout. -/
def Dev.crossingFault (d : Dev) (x : Crossing) (kind : Nat) : Dev :=
  match x with
  | .trunk n =>
    let d := if kind = 1 then d.bump FAB_CDC_CNT.OVF else d.bump FAB_CDC_CNT.TMO
    if d.flag FAB_CDC_LOG.VALID then d
    else (((d.put FAB_CDC_LOG.VALID 1).put FAB_CDC_LOG.KIND kind).put FAB_CDC_LOG.XING n).put FAB_CDC_LOG.RING d.ringLow
  | .bough s n =>
    let d := if kind = 1 then d.bump BGH_CDC_CNT.OVF 1 s else d.bump BGH_CDC_CNT.TMO 1 s
    if d.flag BGH_CDC_LOG.VALID s then d
    else (((d.put BGH_CDC_LOG.VALID 1 s).put BGH_CDC_LOG.KIND kind s).put BGH_CDC_LOG.XING n s).put BGH_CDC_LOG.RING
      ((d.copy s).toNat % 2 ^ 32) s

/-- A pulse of this source is on its way to its EVC entry. DEDUCED, assumption 74. -/
def Dev.eventUnderWay (d : Dev) (source : Nat) : Bool :=
  d.wire.any fun x => match x.pkt with
    | .event n _ _ => n == source
    | _ => false

/-- The asynchronous crossing that the pulses of an event source pass on their way to the event collector (R206, R209): that of a span port,
a memory channel, a root port or the management core, or the graft of a bough. DEDUCED, assumption 74. -/
def sourceCrossing (n : Nat) : Option Crossing :=
  if 54 ≤ n ∧ n < 58 then some (.trunk (0x40 + (n - 54)))
  else if 58 ≤ n ∧ n < 74 then some (.trunk (0x20 + (n - 58)))
  else if 74 ≤ n ∧ n < 106 then some (.trunk (0x30 + (n - 74) / 4))
  else if n = 112 then some (.trunk 0x50)
  else if 128 ≤ n then some (.bough ((n - 128) / 32) 0)
  else none

/-- A broken crossing discards what is offered to it (R207), and the graft port of an isolated bough what the bough sends (R198). -/
def Dev.pulseLost (d : Dev) (source : Nat) : Bool :=
  match sourceCrossing source with
  | some x => d.broken x || match x with
    | .bough s _ => d.isolated s
    | .trunk _ => false
  | none => false

/-- Raise an event (R342, R343). A source of an absent unit raises nothing. A pulse over a crossing that finds one of its source
still unacknowledged waits in the accumulator of R206, which saturates at 15. DEDUCED, assumption 74. -/
def Dev.raise (d : Dev) (source : Nat) (info : EvInfo := {}) : Dev :=
  if !d.sourcePresent source || d.pulseLost source then d
  else match sourceCrossing source with
    | none => d.send (.event source 1 info)
    | some x =>
      if !d.eventUnderWay source then d.send (.event source 1 info)
      else
        let a := d.evAcc.find {} source
        if a.count < 15 then
          { d with evAcc := d.evAcc.set natLt {} source ⟨a.count + 1, { info with severe := a.info.severe || info.severe }⟩ }
        else d.crossingFault x 1

/-- Raise an event that is severe by kind (R345). -/
def Dev.raiseSevere (d : Dev) (source : Nat) (info : EvInfo := {}) : Dev := d.raise source { info with severe := true }

/-! ### Interrupts (R64) -/

/-- Write one MSI to an IMSIC target word; a word with EN = 0 delivers nothing. DEDUCED, assumption 73. -/
def Dev.sendMsi (d : Dev) (target : Nat) : Dev :=
  if bit target 31 then d.emit (.msi (target / 2 ^ 11 % 2 ^ 9) (target / 2 ^ 20 % 16) (target % 2 ^ 11)) else d

/-- Set a bit of an interrupt status register; a change from 0 to 1 writes one MSI to the target. DEDUCED, assumption 73. -/
def Dev.setIrq (d : Dev) (status : Fld) (bitNo : Nat) (target : Fld) (u : Nat := 0) : Dev :=
  let v := d.get status u
  if bit v bitNo then d else (d.put status (setBit v bitNo true) u).sendMsi (d.get target u)

/-! ### Access errors (R4, R25, R395) -/

/-- An access that nothing backs: the first address is captured and source 1 raised (R25, R26). -/
def Dev.decodeError (d : Dev) (addr : Nat) : Dev :=
  let d := if d.flag TRK_DECERR.VALID then d else (d.put TRK_DECERR.VALID 1).put TRK_DECERR.ADDR addr
  d.raise 1 { addr := addr }

/-- An access to the block of an absent unit is counted (R4). -/
def Dev.absentAccess (d : Dev) (offset : Nat) : Dev :=
  (d.bump TRK_ABSENT_CNT.COUNT).put TRK_ABSENT_CNT.LAST_OFFSET offset

/-- The firewall permits a request (R394): class, segment for class 3, write or read, address. -/
def Dev.fwPermits (d : Dev) (cls seg : Nat) (write : Bool) (a : Nat) : Bool :=
  let covering := d.firewall.filter fun p => p.2.en && decide (p.2.base ≤ a / 4096 ∧ a / 4096 ≤ p.2.limit)
  covering.isEmpty
  || ((cls == 0 || cls == 7) && rangeOf a == .regs && decide (a - krb < 0x10000))
  || covering.any fun p => bit (if write then p.2.wr else p.2.rd) cls && (cls != 3 || bit p.2.seg seg)

/-- A request the firewall refuses is captured, counted and raised (R395). -/
def Dev.fwRefuse (d : Dev) (cls seg : Nat) (write : Bool) (a : Nat) : Dev :=
  let d := d.bump TRK_FW_CNT.COUNT
  let d := if d.flag TRK_FW_LOG.VALID then d else
    ((((d.put TRK_FW_LOG.VALID 1).put TRK_FW_LOG.WRITE (if write then 1 else 0)).put TRK_FW_LOG.CLASS cls).put
      TRK_FW_LOG.SEG (if cls = 3 then seg else 0)).put TRK_FW_LOG.ADDR a
  d.raise 113 { addr := a, access := if write then 2 else 1 }

/-- Whether a memory access of a requester class is carried out, refused by the firewall or meets a decode error. The
firewall is applied before address decode (R25). -/
inductive MemCheck where
  | ok | refused | undecoded
deriving DecidableEq, Repr

/-- Check a memory access. -/
def Dev.memCheck (d : Dev) (cls seg : Nat) (write : Bool) (a : Nat) : MemCheck :=
  if !d.fwPermits cls seg write a then .refused else if !d.backed a then .undecoded else .ok

/-- What a failed check leaves behind. -/
def Dev.memRefused (d : Dev) (c : MemCheck) (cls seg : Nat) (write : Bool) (a : Nat) : Dev :=
  match c with
  | .ok => d
  | .refused => d.fwRefuse cls seg write a
  | .undecoded => d.decodeError a

/-! ### Memory -/

/-- The canonical form of a memory: addresses strictly rising, and no byte equal to what an unlisted address reads as. -/
def Memory.wf (m : KMap Nat Byte) : Bool := KMap.wf natLt 0 m

/-- A byte of memory; DRAM that nothing has written is zero, as the controller fills it (R276). DESIGN CHOICE, assumption 10. -/
def Dev.byte (d : Dev) (a : Nat) : Byte := d.mem.find 0 a

/-- Write a byte of memory. DESIGN CHOICE, assumption 10. -/
def Dev.setByte (d : Dev) (a : Nat) (b : Byte) : Dev := { d with mem := d.mem.set natLt 0 a b }

/-- n bytes from an address, little-endian, as a number. -/
def Dev.bytesAt (d : Dev) (a : Nat) : Nat → Nat
  | 0 => 0
  | n + 1 => (d.byte a).toNat + 256 * d.bytesAt (a + 1) n

/-- Write the low n bytes of a number from an address. -/
def Dev.putBytes (d : Dev) (a v : Nat) : Nat → Dev
  | 0 => d
  | n + 1 => (d.setByte a (BitVec.ofNat 8 v)).putBytes (a + 1) (v / 256) n

/-- n bytes of the boot flash from an offset, little-endian; an erased byte reads 0xFF. DESIGN CHOICE, assumption 9. -/
def Dev.flashAt (d : Dev) (off : Nat) : Nat → Nat
  | 0 => 0
  | n + 1 => (d.flash.find 0xFF off).toNat + 256 * d.flashAt (off + 1) n

/-- The x16 port of a line of CXL memory (R289). -/
def cxlPort (line : Nat) : Option Nat :=
  if rangeOf (64 * line) == .cxl then some ((64 * line - 0x080000000000) / 2 ^ 40) else none

/-- The line is of CXL memory whose link is down (R291). -/
def Dev.cxlDown (d : Dev) (line : Nat) : Bool :=
  match cxlPort line with
  | some n => !bit (d.get HIO_STAT.UP n) 0
  | none => false

/-- The event of a request that a CXL link that is down meets (R291). -/
def Dev.cxlNote (d : Dev) (line : Nat) : Dev :=
  match cxlPort line with
  | some n => if d.cxlDown line then d.raise (74 + 4 * n) { addr := 64 * line } else d
  | none => d

/-- Memory cannot be reached for a line: its CXL link is down (R291), or its channel has FAILED (R277). -/
def Dev.memDead (d : Dev) (line : Nat) : Bool :=
  match rangeOf (64 * line) with
  | .dram => match d.channelOf (64 * line) with
    | some (m, _) => d.get MEM_STAT.STATE m == 4
    | none => false
  | _ => d.cxlDown line

/-- What memory holds, without the writes that CXL devices have not accepted yet. -/
def Dev.storedLine (d : Dev) (line : Nat) : LineData :=
  ⟨BitVec.ofNat 512 (d.bytesAt (64 * line) 64), d.poison.contains line⟩

/-- A line as memory answers it: poison from a CXL link that is down or a FAILED channel (R277, R291), the write under way to a CXL
device, or what memory holds. -/
def Dev.memLine (d : Dev) (line : Nat) : LineData :=
  if d.memDead line then { d.storedLine line with poison := true }
  else match cxlPort line with
    | none => d.storedLine line
    | some n => ((d.cxl.find [] n).reverse.findSome? fun r => if r.line = line then r.data else none).getD (d.storedLine line)

/-- Store a line, poisoned or not (R180). -/
def Dev.storeLine (d : Dev) (line : Nat) (x : LineData) : Dev :=
  let p := d.poison.filter (· != line)
  { d.putBytes (64 * line) x.data.toNat 64 with
    poison := if x.poison then (p.filter (· < line)) ++ line :: (p.filter (line < ·)) else p }

/-- Write a line at once: a write under way to a CXL device is replaced, and one over a link that is down is discarded. -/
def Dev.setMemLine (d : Dev) (line : Nat) (x : LineData) : Dev :=
  match cxlPort line with
  | none => d.storeLine line x
  | some n =>
    if d.cxlDown line then d.cxlNote line
    else
      let l := (d.cxl.find [] n).map fun r => if r.line = line then { r with data := none } else r
      ({ d with cxl := d.cxl.set natLt [] n l }).storeLine line x

/-- A bough-level state whose data memory does not hold (R164). -/
def dirtyState : CState → Bool
  | .modified | .owned => true
  | _ => false

/-- The current contents of a line, wherever they are: a bough that holds it in M or O, an eviction buffer, or memory. This
is what a non-allocating coherent read returns (R170, R422). DESIGN CHOICE, assumption 19. -/
def Dev.cohRead (d : Dev) (line : Nat) : LineData :=
  match d.boughs.findSome? fun p =>
      let l := p.2.lines.find {} line
      if dirtyState l.st || l.st == .excl then some (⟨l.data, l.poison⟩ : LineData)
      else (p.2.evb.find? fun e => e.line == line && dirtyState e.st).map fun e => ⟨e.data, e.poison⟩ with
  | some x => x
  | none => d.memLine line

/-- Every copy of a line in the boughs is invalidated; a locked line keeps its place (R156), and a write-back under way is
stale (R175). -/
def Bough.dropLine (b : Bough) (line : Nat) : Bough :=
  let l := b.lines.find {} line
  { b with
    lines := b.lines.set natLt {} line (if l.locked then { st := .invalid, way := l.way, locked := true } else ({} : L3Line))
    evb := b.evb.map fun e => if e.line == line then { e with st := .invalid } else e }

/-- Every reservation on a line is lost but a given leaf's. -/
def Dev.clearResv (d : Dev) (line : Nat) (keep : Option Nat) : Dev :=
  d.leaves.foldl (fun d p =>
    if p.2.resv == some line && keep != some p.1 then d.setLeaf p.1 { p.2 with resv := none } else d) d

/-- Every bough drops a line and the directory entry is freed; its epoch stays. DEDUCED, assumption 24. -/
def Dev.dropCopies (d : Dev) (line : Nat) : Dev :=
  let d := d.boughs.foldl (fun d p => d.setBough p.1 (p.2.dropLine line)) (d.clearResv line none)
  let q := d.homeOf (64 * line)
  let h := d.home q
  let e := h.dir.find {} line
  d.setHome q { h with dir := h.dir.set natLt ({} : DirEntry) line { epoch := e.epoch } }

/-- A full-line write that invalidates every copy and clears the poison (WR_FULL, R170, R180). DESIGN CHOICE, assumption 19. -/
def Dev.cohWrite (d : Dev) (line : Nat) (x : Line) : Dev :=
  (d.dropCopies line).setMemLine line ⟨x, false⟩

/-- Bytes of a line chosen by a mask replaced. -/
def mergeLine (old new : Line) (mask : Nat) : Line :=
  let m : Line := BitVec.ofNat 512
    ((List.range 64).foldr (fun i a => 256 * a + if mask.testBit i then 255 else 0) 0)
  (old &&& ~~~m) ||| (new &&& m)

/-- A partial write merged into the current contents; a poisoned line stays poisoned (WR_PARTIAL, R170, R180). -/
def Dev.cohWritePart (d : Dev) (line mask : Nat) (x : Line) : Dev :=
  let old := d.cohRead line
  (d.dropCopies line).setMemLine line ⟨mergeLine old.data x mask, old.poison⟩

/-- An aligned word of a line. -/
def lineWord (x : Line) (i : Nat) : Word := x.extractLsb' (64 * i) 64

/-! ### The isolation proxy and the gates (R197 to R201) -/

/-- An access answered by a proxy or a gate is captured: KIND 0 read, 1 write, 2 wake timeout, 3 snoop. -/
def Dev.gateLog (d : Dev) (kind s addr : Nat) : Dev :=
  if d.flag FAB_GATE_LOG.VALID then d
  else (((d.put FAB_GATE_LOG.VALID 1).put FAB_GATE_LOG.KIND kind).put FAB_GATE_LOG.SITE s).put FAB_GATE_LOG.ADDR addr

end Sys2Proof.Machine
end

