-- ==== Sys2Proof/Machine/Route.lean ====
section
/-!
DEFINITION. What can become of an exchange window on its way (R198, R224), and the ring-count copies as far as an engine or a leaf
waits for them (R240).
-/

namespace Sys2Proof.Machine

/-! ### Exchange windows on their way -/

/-- A lateral graft on the path is down, or its crossing broken: the window is answered UNREACHABLE (R207, R224). -/
def Dev.lateralDown (d : Dev) (m : XchMsg) : Bool :=
  (d.msgPath m (d.versionOf (.xch m))).any fun h => match h with
    | .lateral low => d.lateralState low == 0 || d.broken (.bough low 2) || d.broken (.bough (low + 1) 1)
    | _ => false

/-- The sender's bough is isolated and the window would pass its graft port, which discards it (R198). -/
def Dev.senderCut (d : Dev) (m : XchMsg) : Bool :=
  m.remote.isNone && (d.msgPath m (d.versionOf (.xch m))).contains .trunk && d.isolated (d.leafSite m.sleaf)

/-! ### Ring-count copies -/

/-- The copy of a bough die beside its value. -/
def Dev.copyInfo (d : Dev) (s : Nat) : CopyState := d.copyState.find {} s

/-- Replace it. -/
def Dev.setCopyInfo (d : Dev) (s : Nat) (c : CopyState) : Dev := { d with copyState := d.copyState.set natLt {} s c }

/-- The copy has locked since the die's reset, so leaves and engines may start (R240). -/
def Dev.copyReady (d : Dev) (s : Nat) : Bool := (d.copyInfo s).ready

end Sys2Proof.Machine
end

