-- ==== Sys2Proof/Machine/Leaf.lean ====
section
/-!
DEFINITION. Leaf cores (spec/03): registers, control and status registers as stored, interrupt files, interrupts, traps, machine
checks and their records. Standard RISC-V behaviour is that of the ratified specifications that R55 names; the parameters are
those of R57, R58, R62, R72 and R74.
-/

namespace Sys2Proof.Machine

/-- Change the core of a leaf. -/
def Dev.modLeaf (d : Dev) (n : Nat) (f : Leaf → Leaf) : Dev := d.setLeaf n (f (d.leaf n))

/-- An integer register; x0 reads zero. -/
def Leaf.getX (l : Leaf) (r : Nat) : Word := if r = 0 then 0 else l.x.find 0 r

/-- Write an integer register; x0 takes nothing. -/
def Leaf.setX (l : Leaf) (r : Nat) (v : Word) : Leaf := if r = 0 then l else { l with x := l.x.set natLt 0 r v }

/-! ### Control and status registers -/

/-- The value of a CSR at reset (R57, R58, R62, R74). -/
def csrReset : Nat → Word
  | 0x300 => 0x0000000A00000000
  | 0x200 => 0x0000000200000000
  | 0x600 => 0x0000000200000000
  | 0x301 => 0x80000000003411AF
  | 0xF11 => 0x0000000000000A67
  | 0xF12 => 0x8000000000004B53
  | 0xC21 => 0x8000000000000000
  | 0x303 => 0x1444
  | _ => 0

/-- A CSR as stored. -/
def Leaf.csrRaw (l : Leaf) (c : Nat) : Word := l.csr.find (csrReset c) c

/-- Store a CSR. -/
def Leaf.setCsr (l : Leaf) (c : Nat) (v : Word) : Leaf := { l with csr := l.csr.set natLt (csrReset c) c v }

/-- The mode is a virtual one (VS or VU). -/
def virtual : Mode → Bool
  | .vs | .vu => true
  | _ => false

/-- The encoding of a mode in MPP, SPP and MNPP. -/
def modeCode : Mode → Nat
  | .machine => 3
  | .super | .vs => 1
  | .user | .vu => 0

/-- A mode from its code and virtualisation bit. -/
def modeOf (code : Nat) (v : Bool) : Mode :=
  if code = 3 then .machine else if code = 1 then (if v then .vs else .super) else (if v then .vu else .user)

/-- The CSRs that a leaf implements (R55, R58, R72, and the AIA registers of R63). -/
def csrExists (c : Nat) : Bool :=
  [0x001, 0x002, 0x003, 0x008, 0x009, 0x00A, 0x00F, 0xC20, 0xC21, 0xC22,
   0x100, 0x104, 0x105, 0x106, 0x10A, 0x140, 0x141, 0x142, 0x143, 0x144, 0x14D, 0x150, 0x151, 0x15C, 0x180, 0xDA0, 0xDB0,
   0x200, 0x204, 0x205, 0x240, 0x241, 0x242, 0x243, 0x244, 0x24D, 0x250, 0x251, 0x25C, 0x280, 0xEB0,
   0x600, 0x602, 0x603, 0x604, 0x605, 0x606, 0x607, 0x608, 0x609, 0x60A, 0x643, 0x644, 0x645, 0x646, 0x647, 0x64A, 0x680, 0xE12,
   0xF11, 0xF12, 0xF13, 0xF14, 0xF15, 0x300, 0x301, 0x302, 0x303, 0x304, 0x305, 0x306, 0x308, 0x309, 0x30A, 0x320,
   0x340, 0x341, 0x342, 0x343, 0x344, 0x34A, 0x34B, 0x350, 0x351, 0x35C, 0xFB0,
   0x740, 0x741, 0x742, 0x744, 0x7C0, 0x7C1, 0x7C2].contains c
  || decide (0x323 ≤ c ∧ c ≤ 0x33F) || decide (0x3A0 ≤ c ∧ c ≤ 0x3AF ∧ c % 2 = 0) || decide (0x3B0 ≤ c ∧ c ≤ 0x3EF)
  || decide (0xB00 ≤ c ∧ c ≤ 0xB1F ∧ c ≠ 0xB01) || decide (0xC00 ≤ c ∧ c ≤ 0xC1F)

/-- The bits of sstatus within mstatus. -/
def sstatusMask : Word := 0x80000003000DE762

/-- In a virtual mode a supervisor CSR names its VS counterpart. -/
def csrAlias (m : Mode) (c : Nat) : Nat :=
  if virtual m && [0x100, 0x104, 0x105, 0x140, 0x141, 0x142, 0x143, 0x144, 0x14D, 0x150, 0x151, 0x15C, 0x180, 0xDB0].contains c
  then c + 0x100 else c

/-! ### Interrupt files (R63 to R65) -/

/-- A file of the IMSIC: 0 machine, 1 supervisor, 1 + g guest g. -/
def Leaf.file (l : Leaf) (f : Nat) : ImsicFile := l.imsic.find {} f

/-- Replace a file of the IMSIC. -/
def Leaf.setFile (l : Leaf) (f : Nat) (x : ImsicFile) : Leaf := { l with imsic := l.imsic.set natLt {} f x }

/-- An identity that is pending, enabled and above the threshold in priority. -/
def ImsicFile.signals (x : ImsicFile) (id : Nat) : Bool :=
  x.eip.contains id && x.eie.contains id && (x.threshold == 0 || decide (id < x.threshold))

/-- The identity that a file presents: the lowest that it signals. -/
def ImsicFile.top (x : ImsicFile) : Option Nat := if x.delivery = 1 then x.eip.find? x.signals else none

/-- The guest file that hstatus.VGEIN selects. -/
def Leaf.vgein (l : Leaf) : Nat := (l.csrRaw 0x600).bits 17 12

/-- Sixty-four bits of an identity list from a base, as a word. -/
def idWord (ids : List Nat) (base : Nat) : Word :=
  BitVec.ofNat 64 ((List.range 64).foldr (fun i a => 2 * a + if ids.contains (base + i) then 1 else 0) 0)

/-- An identity list with sixty-four bits from a base replaced. -/
def idReplace (ids : List Nat) (base : Nat) (w : Word) : List Nat :=
  let keep := ids.filter fun i => decide (i < base ∨ base + 64 ≤ i)
  let add := ((List.range 64).filter fun i => w.getLsbD i).map (base + ·) |>.filter fun i => decide (1 ≤ i ∧ i ≤ 2047)
  (keep.filter (· < base)) ++ add ++ keep.filter (fun i => decide (base ≤ i))

/-- Read an indirect register of a file: eidelivery, eithreshold, eip and eie arrays. PRESUMED, assumption 51. -/
def ImsicFile.read (x : ImsicFile) (sel : Nat) : Word :=
  if sel = 0x70 then BitVec.ofNat 64 x.delivery
  else if sel = 0x72 then BitVec.ofNat 64 x.threshold
  else if 0x80 ≤ sel ∧ sel < 0xC0 ∧ sel % 2 = 0 then idWord x.eip (32 * (sel - 0x80))
  else if 0xC0 ≤ sel ∧ sel < 0x100 ∧ sel % 2 = 0 then idWord x.eie (32 * (sel - 0xC0))
  else 0

/-- Write an indirect register of a file. -/
def ImsicFile.write (x : ImsicFile) (sel : Nat) (v : Word) : ImsicFile :=
  if sel = 0x70 then { x with delivery := v.toNat % 2 }
  else if sel = 0x72 then { x with threshold := v.toNat % 2048 }
  else if 0x80 ≤ sel ∧ sel < 0xC0 ∧ sel % 2 = 0 then { x with eip := idReplace x.eip (32 * (sel - 0x80)) v }
  else if 0xC0 ≤ sel ∧ sel < 0x100 ∧ sel % 2 = 0 then { x with eie := idReplace x.eie (32 * (sel - 0xC0)) v }
  else x

/-- The file that an indirect or claim CSR reaches. -/
def Leaf.fileOfCsr (l : Leaf) (c : Nat) : Nat :=
  if c = 0x351 || c = 0x35C then 0 else if c = 0x151 || c = 0x15C then 1 else 1 + l.vgein

/-- The select register beside an indirect CSR. -/
def selectOf (c : Nat) : Nat := c - 1

/-- hstatus.VGEIN selects a guest file: GEILEN is 7 (R58). -/
def Leaf.guestFile (l : Leaf) : Bool := decide (1 ≤ l.vgein ∧ l.vgein ≤ 7)

/-! ### Fields that several operations read -/

/-- mnstatus.NMIE is set (R72). -/
def Leaf.nmie (l : Leaf) : Bool := (l.csrRaw 0x744).getLsbD 3

/-- The floating-point unit is off: mstatus.FS, or in a virtual mode vsstatus.FS, is 0. -/
def Leaf.fpOff (l : Leaf) : Bool := (l.csrRaw 0x300).bits 14 13 == 0 || (virtual l.mode && (l.csrRaw 0x200).bits 14 13 == 0)

/-- The vector unit is off. -/
def Leaf.vecOff (l : Leaf) : Bool := (l.csrRaw 0x300).bits 10 9 == 0 || (virtual l.mode && (l.csrRaw 0x200).bits 10 9 == 0)

/-- A field of mstatus, and in a virtual mode of vsstatus too, becomes dirty. -/
def Leaf.dirty (l : Leaf) (hi lo : Nat) : Leaf :=
  let l := if virtual l.mode then l.setCsr 0x200 ((l.csrRaw 0x200).setBits hi lo 3) else l
  l.setCsr 0x300 ((l.csrRaw 0x300).setBits hi lo 3)

/-- The floating-point state becomes dirty. -/
def Leaf.dirtyF (l : Leaf) : Leaf := l.dirty 14 13

/-- The vector state becomes dirty. -/
def Leaf.dirtyV (l : Leaf) : Leaf := l.dirty 10 9

/-- Sstc is enabled for a supervisor's stimecmp, and for the VS stage. -/
def Leaf.stce (l : Leaf) (vs : Bool) : Bool := (l.csrRaw 0x30A).getLsbD 63 && (!vs || (l.csrRaw 0x60A).getLsbD 63)

/-! ### Pending interrupts -/

/-- hgeip (R58): the guest files that signal. -/
def Leaf.hgeip (l : Leaf) : Word :=
  BitVec.ofNat 64 ((List.range 8).foldr (fun g a => 2 * a + if g ≠ 0 && (l.file (1 + g)).top.isSome then 1 else 0) 0)

/-- mip: what is stored, the virtual interrupts of hvip, and the external interrupts that the files present: MEIP 11, SEIP 9,
VSEIP 10, SGEIP 12. PRESUMED, assumption 69. -/
def Leaf.mip (l : Leaf) : Word :=
  let ext (b : Nat) (on : Bool) : Word := if on then BitVec.ofNat 64 (1 <<< b) else 0
  l.csrRaw 0x344 ||| (l.csrRaw 0x645 &&& 0x444) ||| ext 11 (l.file 0).top.isSome ||| ext 9 (l.file 1).top.isSome
    ||| ext 10 (l.guestFile && (l.file (1 + l.vgein)).top.isSome) ||| ext 12 ((l.hgeip &&& l.csrRaw 0x607) != 0)

/-- An interrupt that mie enables is pending, whatever the global enables: this ends a WFI. -/
def Leaf.wakes (l : Leaf) : Bool := (l.mip &&& l.csrRaw 0x304) != 0

/-- Interrupt numbers by priority, highest first. -/
def interruptOrder : List Nat := [11, 3, 7, 9, 1, 5, 12, 10, 2, 6, 13]

/-- The first interrupt in order of priority among those of a mask. -/
def firstOf (p : Word) : Option Nat := interruptOrder.find? fun i => p.getLsbD i

/-- The interrupts of the VS stage that are pending and enabled, at their numbers for VS: 1, 5 and 9. -/
def Leaf.vsPending (l : Leaf) : Word := (l.mip &&& l.csrRaw 0x304 &&& l.csrRaw 0x603 &&& 0x444) >>> 1

/-- The interrupt that VS takes first, with its priority (vstopi): an external interrupt, and either the others or, under
hvictl.VTI, the one that hvictl injects. PRESUMED, assumption 69. -/
def Leaf.vsTop (l : Leaf) : Option (Nat × Nat) :=
  let h := l.csrRaw 0x609
  let p := l.vsPending
  let sei : Option (Nat × Nat) :=
    if p.getLsbD 9 && l.guestFile then (l.file (1 + l.vgein)).top.map fun id => (9, min id 255) else none
  if h.getLsbD 30 then
    let iid := h.bits 27 16
    let inject : Option (Nat × Nat) :=
      if iid = 9 then (if sei.isNone && h.bits 7 0 ≠ 0 then some (9, h.bits 7 0) else none) else some (iid, h.bits 7 0)
    let rank : Nat := if h.bits 7 0 = 0 then (if h.getLsbD 9 then 256 else 0) else h.bits 7 0
    match sei, inject with
    | some a, some b => if rank ≤ a.2 then some b else some a
    | some a, none => some a
    | none, x => x
  else if p.getLsbD 9 then some (sei.getD (9, 255))
  else (firstOf p).map fun i => (i, 255)

/-- The interrupts that M mode takes: pending, enabled and not delegated. -/
def Leaf.mTop (l : Leaf) : Option Nat := firstOf (l.mip &&& l.csrRaw 0x304 &&& ~~~(l.csrRaw 0x303))

/-- The interrupts that HS mode takes: delegated by mideleg and not on to VS by hideleg. -/
def Leaf.sTop (l : Leaf) : Option Nat :=
  firstOf (l.mip &&& l.csrRaw 0x304 &&& l.csrRaw 0x303 &&& ~~~(l.csrRaw 0x603 &&& 0x444))

/-- The interrupt that the leaf takes next, with the mode it traps to: those of M mode before those of HS, and these before
those of VS. None is taken while NMIE = 0 (Smrnmi). PRESUMED, assumption 69. -/
def Leaf.interrupt (l : Leaf) : Option (Nat × Mode) :=
  if !l.nmie then none
  else
    let m := if l.mode ≠ .machine || (l.csrRaw 0x300).getLsbD 3 then l.mTop else none
    let sOn := match l.mode with
      | .machine => false
      | .super => (l.csrRaw 0x300).getLsbD 1
      | _ => true
    let vOn := match l.mode with
      | .vs => (l.csrRaw 0x200).getLsbD 1
      | .vu => true
      | _ => false
    match m, (if sOn then l.sTop else none), (if vOn then l.vsTop else none) with
    | some i, _, _ => some (i, .machine)
    | none, some i, _ => some (i, .super)
    | none, none, some i => some (i.1, .vs)
    | none, none, none => none

/-! ### Traps -/

/-- Where a trap vector sends an exception or, in vectored mode, an interrupt. -/
def vectorTo (tvec : Word) (interrupt : Bool) (code : Nat) : Word :=
  let base := tvec &&& ~~~(3 : Word)
  if interrupt && tvec.getLsbD 0 then base + BitVec.ofNat 64 (4 * code) else base

/-- The cause register's value. -/
def causeWord (interrupt : Bool) (code : Nat) : Word := BitVec.ofNat 64 (code + if interrupt then 2 ^ 63 else 0)

/-- Take a trap to a mode: the saved pc, cause, value and status, and the handler's address. `gpa` is the guest physical address
of a guest-page fault, which mtval2 and htval hold shifted right by 2; `gva` says that the value is a guest's virtual
address. mtinst and htinst are written zero (R58). PRESUMED, assumption 69. -/
def Leaf.trapTo (l : Leaf) (dest : Mode) (interrupt : Bool) (code : Nat) (tval : Word) (gpa : Nat := 0) (gva : Bool := false) :
    Leaf :=
  let bitOf (b : Bool) : Nat := if b then 1 else 0
  match dest with
  | .vs =>
    let st := l.csrRaw 0x200
    let st := ((st.setBits 8 8 (bitOf (l.mode == .vs))).setBits 5 5 (st.bits 1 1)).setBits 1 1 0
    { (((l.setCsr 0x200 st).setCsr 0x241 l.pc).setCsr 0x242 (causeWord interrupt code)).setCsr 0x243 tval with
      mode := .vs, pc := vectorTo (l.csrRaw 0x205) interrupt code }
  | .super =>
    let st := l.csrRaw 0x300
    let st := ((st.setBits 8 8 (bitOf (modeCode l.mode = 1))).setBits 5 5 (st.bits 1 1)).setBits 1 1 0
    let hs := ((l.csrRaw 0x600).setBits 7 7 (bitOf (virtual l.mode))).setBits 6 6 (bitOf gva)
    let hs := if virtual l.mode then hs.setBits 8 8 (modeCode l.mode) else hs
    { (((((l.setCsr 0x300 st).setCsr 0x600 hs).setCsr 0x141 l.pc).setCsr 0x142 (causeWord interrupt code)).setCsr 0x143
        tval |>.setCsr 0x643 (BitVec.ofNat 64 (gpa / 4)) |>.setCsr 0x64A 0) with
      mode := .super, pc := vectorTo (l.csrRaw 0x105) interrupt code }
  | _ =>
    let st := l.csrRaw 0x300
    let st := ((((st.setBits 12 11 (modeCode l.mode)).setBits 7 7 (st.bits 3 3)).setBits 3 3 0).setBits 39 39
      (bitOf (virtual l.mode))).setBits 38 38 (bitOf gva)
    { ((((l.setCsr 0x300 st).setCsr 0x341 l.pc).setCsr 0x342 (causeWord interrupt code)).setCsr 0x343 tval
        |>.setCsr 0x34A 0 |>.setCsr 0x34B (BitVec.ofNat 64 (gpa / 4))) with
      mode := .machine, pc := vectorTo (l.csrRaw 0x305) interrupt code }

/-- The exception reports an address: misaligned, access, page and guest-page faults. -/
def addressCode (code : Nat) : Bool := [0, 1, 4, 5, 6, 7, 12, 13, 15, 20, 21, 23].contains code

/-- Take an exception: delegation by medeleg and hedeleg; one taken in M mode while mnstatus.NMIE = 0 enters at BGH_RNMI_EXC
(R72). -/
def Dev.exception (d : Dev) (n code : Nat) (tval : Word) (gpa : Nat := 0) (hv : Bool := false) : Dev :=
  let l := d.leaf n
  let gva := addressCode code && (hv || virtual l.mode)
  if !l.nmie && l.mode = .machine then
    d.setLeaf n { l.trapTo .machine false code tval gpa gva with
                  pc := BitVec.ofNat 64 (d.get BGH_RNMI_EXC.ADDR (d.leafSite n) * 4) }
  else
    let dest : Mode :=
      if l.mode ≠ .machine && (l.csrRaw 0x302).getLsbD code then
        (if virtual l.mode && (l.csrRaw 0x602).getLsbD code then .vs else .super)
      else .machine
    d.setLeaf n (l.trapTo dest false code tval gpa gva)

/-- An illegal-instruction (2) or virtual-instruction (22) exception: the first reports the instruction's bits, the second zero
(R58). -/
def Dev.instrTrap (d : Dev) (n code : Nat) (bits : Word) : Dev := d.exception n code (if code = 2 then bits else 0)

/-- The bit of mhpmevent that inhibits counting in a mode (Sscofpmf). -/
def inhibitBit : Mode → Nat
  | .machine => 62
  | .super => 61
  | .user => 60
  | .vs => 59
  | .vu => 58

/-- Count an event of R73, a number of times, in every counter that selects it. -/
def Leaf.countEvent (l : Leaf) (code : Nat) (times : Nat := 1) : Leaf :=
  (List.range 29).foldl (fun l k =>
    let i := k + 3
    let ev := l.csrRaw (0x320 + i)
    if ev.bits 15 0 == code && !ev.getLsbD (inhibitBit l.mode) && !(l.csrRaw 0x320).getLsbD i then
      l.setCsr (0xB00 + i) (l.csrRaw (0xB00 + i) + BitVec.ofNat 64 times)
    else l) l

/-! ### Machine checks (R70 to R72) -/

/-- The codes of R71 that are resumable: all but REGFILE_PARITY. -/
def resumable (code : Nat) : Bool := code != 7

/-- Enter the RNMI handler with a record (R72, Smrnmi). -/
def Dev.enterRnmi (d : Dev) (n : Nat) (r : MchkRec) : Dev :=
  let l := d.leaf n
  let ms := (((l.csrRaw 0x744).setBits 12 11 (modeCode l.mode)).setBits 7 7 (if virtual l.mode then 1 else 0)).setBits 3 3 0
  let info := ((((l.csrRaw 0x7C0).setBits 63 63 1).setBits 61 61 (if resumable r.code then 1 else 0)).setBits 60 60 0).setBits
    39 32 r.code
  let l := ((l.setCsr 0x744 ms).setCsr 0x741 l.pc).setCsr 0x742 (BitVec.ofNat 64 (2 ^ 63 + r.code))
  let l := ((l.setCsr 0x7C0 info).setCsr 0x7C1 r.addr).setCsr 0x7C2 r.loc
  d.setLeaf n { l with mode := .machine, pc := BitVec.ofNat 64 (d.get BGH_RNMI_VEC.ADDR (d.leafSite n) * 4), mchkPending := none,
                       mchkTaken := true, retried := false }

/-- The use keeps its leaf from executing on: a fetch and a walk read go ahead of what executes, and a prefetch beside it.
DESIGN CHOICE, assumption 16. -/
def LeafUse.holds : LeafUse → Bool
  | .access acc => acc.kind != .fetch && acc.kind != .walk
  | .zero _ => true
  | .prefetch .. => false

/-- A miss entry keeps its leaf from executing on. -/
def MissKind.holds : MissKind → Bool
  | .demand acc => (LeafUse.access acc).holds
  | .cboZero _ => true
  | .prefetch _ => false
  | .walk _ u => u.holds

/-- An instruction of the leaf waits for an access. -/
def Leaf.holding (l : Leaf) : Bool := l.stalled.isSome || l.misses.any fun m => m.kind.holds

/-- A pending record is delivered once NMIE is set and no instruction waits for an access; a second one becomes pending. -/
def Dev.deliverPending (d : Dev) (n : Nat) : Dev :=
  let l := d.leaf n
  match l.mchkPending with
  | some r =>
    if !l.nmie || l.holding then d
    else
      let d := d.enterRnmi n r
      match l.mchkSecond with
      | none => d
      | some s => d.modLeaf n fun l => { l.setCsr 0x7C0 ((l.csrRaw 0x7C0).setBits 60 60 1) with mchkPending := some s, mchkSecond := none }
  | none => d

/-- The codes of a residue mismatch. -/
def isResidue (code : Nat) : Bool := code == 1 || code == 2 || code == 3

/-- A machine check (R71, R72, "When machine checks arrive in quick succession", "... before software enables NMIs"). It
raises the event source of the leaf. One that comes with NMIE = 0, or between the start and the end of an access, takes the pending
record; where that is full and VALID = 0, the record being handled is free. DEDUCED, assumption 68. -/
def Dev.machineCheck (d : Dev) (n : Nat) (r : MchkRec) : Dev :=
  let s := d.leafSite n
  let l := d.leaf n
  let info := l.csrRaw 0x7C0
  let raised (d : Dev) : Dev := d.raise (d.leafSource n) { severe := r.code == 7, mkind := 1, mid := n, addr := r.addr.toNat
                                                           loc := r.loc }
  if l.nmie && !l.holding then (raised d).enterRnmi n r
  else if !l.nmie && isResidue r.code && !l.mchkTaken then
    if !l.retried then d.setLeaf n { l.countEvent 0x50 with retried := true }
    else (raised d).put BGH_LEAF_STAT.MC_LOCK 1 s (n % 16)
  else match l.mchkPending with
    | none => (raised d).setLeaf n { l.setCsr 0x7C0 (info.setBits 60 60 (if l.nmie then 0 else 1)) with
                                     mchkPending := some r, mchkTaken := true }
    | some _ =>
      if !info.getLsbD 63 && l.mchkSecond.isNone then (raised d).setLeaf n { l with mchkSecond := some r }
      else
      let lost := min (info.bits 31 0 + 1) (2 ^ 32 - 1)
      if r.code = 8 then (raised d).setLeaf n { l.setCsr 0x7C0 (info.setBits 31 0 lost) with mchkPending := some r }
      else (raised d).setLeaf n (l.setCsr 0x7C0 ((info.setBits 62 62 1).setBits 31 0 lost))

/-- The location code in mchkloc: the leaf's own code, with the array number of the checked unit for residue and parity
errors (R72); the spec gives those numbers no values. DESIGN CHOICE, assumption 25. -/
def Dev.mchkLoc (d : Dev) (n code : Nat) : Word :=
  d.leafLoc n (if isResidue code || code = 7 then some (Config.checkedUnit (n % 16) code % 1000) else none)

/-! ### Which leaves execute -/

/-- The leaves of the bough at a site. -/
def Dev.siteLeaves (d : Dev) (s : Nat) : List Nat := (List.range 16).map fun j => 16 * d.boughAt s + j

/-- The leaf is in RUN: it exists, it is not locked or halted, and no use of it is stalled for want of a miss entry (R68, R72, R389);
on its FIC, the path of which is not broken (R207). DEDUCED, assumption 37. -/
def Dev.leafReady (d : Dev) (n : Nat) : Bool :=
  let l := d.leaf n
  d.leafPresent n && d.copyReady (d.leafSite n) && d.get BGH_LEAF_STAT.PSTATE (d.leafSite n) (n % 16) == 0
  && !d.flag BGH_LEAF_STAT.MC_LOCK (d.leafSite n) (n % 16) && l.stalled.isNone && !l.halted
  && !(d.flag BGH_LEAF_STAT.ON_FIC (d.leafSite n) (n % 16) && d.broken (.bough (d.leafSite n) (0x10 + n % 16)))

/-- The leaf executes instructions: it is in RUN, and no instruction waits for an access. DESIGN CHOICE, assumption 16. -/
def Dev.leafRuns (d : Dev) (n : Nat) : Bool := d.leafReady n && !(d.leaf n).holding

/-- Retire an instruction: the program counter moves on, and minstret and the counters of event 2 count.
DEDUCED, assumption 68. -/
def Leaf.retire (l : Leaf) (pc : Word) : Leaf :=
  let l := { l with pc := pc, retried := false }.countEvent 2
  if (l.csrRaw 0x320).getLsbD 2 then l else l.setCsr 0xB02 (l.csrRaw 0xB02 + 1)

end Sys2Proof.Machine
end

