-- ==== Sys2Proof/Machine/Csr.lean ====
section
/-!
DEFINITION. Access to the control and status registers of a leaf core (spec/03): which accesses are exceptions, what a read gives
and what a write changes (R55 to R58, R62, R63, R66, R67, R72, R73). Registers that the spec does not restate are those of
the ratified specifications that R55 names.
-/

namespace Sys2Proof.Machine

/-! ### Exceptions of an access -/

/-- A counter of 0xC00 to 0xC1F, by its number, is closed to the mode: the exception's code. -/
def Leaf.counterTrap (l : Leaf) (k : Nat) : Option Nat :=
  let m := (l.csrRaw 0x306).getLsbD k
  let h := (l.csrRaw 0x606).getLsbD k
  let s := (l.csrRaw 0x106).getLsbD k
  match l.mode with
  | .machine => none
  | .super => if m then none else some 2
  | .user => if m && s then none else some 2
  | .vs => if !m then some 2 else if h then none else some 22
  | .vu => if !m then some 2 else if h && s then none else some 22

/-- stimecmp, or vstimecmp, is closed to the mode (Sstc). -/
def Leaf.timecmpTrap (l : Leaf) : Option Nat :=
  match l.mode with
  | .machine => none
  | .vs =>
    if !l.stce false || !(l.csrRaw 0x306).getLsbD 1 then some 2
    else if !l.stce true || !(l.csrRaw 0x606).getLsbD 1 then some 22 else none
  | _ => if l.stce false && (l.csrRaw 0x306).getLsbD 1 then none else some 2

/-- The registers behind a select value: none, the priority array, or those of an interrupt file. -/
inductive Selected where
  | nothing | priorities | file
deriving DecidableEq, Repr

/-- What a select value names; of the arrays only the even numbers exist at XLEN 64 (AIA). PRESUMED, assumption 51. -/
def selected (sel : Nat) : Selected :=
  if 0x30 ≤ sel ∧ sel < 0x40 ∧ sel % 2 = 0 then .priorities
  else if 0x70 ≤ sel ∧ sel < 0x80 then .file
  else if 0x80 ≤ sel ∧ sel < 0x100 ∧ sel % 2 = 0 then .file
  else .nothing

/-- An indirect or claim CSR of the interrupt files cannot be used; `c` is the register after aliasing. -/
def Leaf.fileTrap (l : Leaf) (c : Nat) : Option Nat :=
  let fail : Nat := if virtual l.mode then 22 else 2
  match c with
  | 0x351 | 0x151 => if selected (l.csrRaw (selectOf c)).toNat = .nothing then some 2 else none
  | 0x251 => if selected (l.csrRaw 0x250).toNat = .file ∧ l.guestFile then none else some fail
  | 0x25C => if l.guestFile then none else some fail
  | _ => none

/-- The privilege of a CSR's number against the mode: the exception's code. -/
def levelTrap (m : Mode) (c : Nat) : Option Nat :=
  match m, c / 256 % 4 with
  | .machine, _ => none
  | _, 3 => some 2
  | _, 0 => none
  | .super, _ => none
  | .user, _ => some 2
  | .vs, 2 => some 22
  | .vs, _ => none
  | .vu, _ => some 22

/-- The exception that an access to a CSR raises in the leaf's mode: 2 illegal instruction, 22 virtual instruction.
PRESUMED, assumption 69. -/
def Leaf.csrTrap (l : Leaf) (c : Nat) (write : Bool) : Option Nat :=
  let st := l.csrRaw 0x300
  let hs := l.csrRaw 0x600
  if !csrExists c || (write && decide (c / 1024 = 3)) then some 2
  else match levelTrap l.mode c with
    | some code => some code
    | none =>
      if [0x001, 0x002, 0x003].contains c then (if l.fpOff then some 2 else none)
      else if [0x008, 0x009, 0x00A, 0x00F, 0xC20, 0xC21, 0xC22].contains c then (if l.vecOff then some 2 else none)
      else if 0xC00 ≤ c ∧ c ≤ 0xC1F then l.counterTrap (c - 0xC00)
      else if c = 0x180 ∨ c = 0x680 then
        (if l.mode = .super && st.getLsbD 20 then some 2 else if l.mode = .vs && hs.getLsbD 20 then some 22 else none)
      else if c = 0x14D ∨ c = 0x24D then l.timecmpTrap
      else if l.mode = .vs ∧ (c = 0x104 ∨ c = 0x144) ∧ (l.csrRaw 0x609).getLsbD 30 then some 22
      else l.fileTrap (csrAlias l.mode c)

/-! ### Reads -/

/-- A status word with SD: set while its FS or VS is dirty. -/
def withSd (st : Word) : Word := if st.bits 14 13 = 3 || st.bits 10 9 = 3 then st ||| 0x8000000000000000 else st

/-- The word of a top-of-interrupt CSR. All priorities but that of a virtual interrupt under hvictl.IPRIOM read 1. -/
def topWord (i : Option Nat) : Word :=
  match i with
  | some i => BitVec.ofNat 64 (i * 2 ^ 16 + 1)
  | none => 0

/-- vstopi. -/
def Leaf.vstopi (l : Leaf) : Word :=
  match l.vsTop with
  | some (i, p) => BitVec.ofNat 64 (i * 2 ^ 16 + if (l.csrRaw 0x609).getLsbD 8 then p else 1)
  | none => 0

/-- scountovf: the OF bits of the counters that the mode may read (Sscofpmf). -/
def Leaf.scountovf (l : Leaf) : Word :=
  let ovf := BitVec.ofNat 64 ((List.range 32).foldr (fun k a => 2 * a + if 3 ≤ k && (l.csrRaw (0x320 + k)).getLsbD 63 then 1 else 0) 0)
  let m := if l.mode = .machine then ovf else ovf &&& l.csrRaw 0x306
  if virtual l.mode then m &&& l.csrRaw 0x606 else m

/-- A pmpaddr register as read, granularity G = 10 (R58): bits [8:0] are ones for NAPOT, and bits [9:0] zeros for OFF and TOR. -/
def Leaf.pmpaddr (l : Leaf) (i : Nat) : Word :=
  let a := l.csrRaw (0x3B0 + i)
  if (l.csrRaw (0x3A0 + i / 8 * 2)).bits (8 * (i % 8) + 4) (8 * (i % 8) + 4) = 1 then a ||| 0x1FF else a &&& ~~~0x3FF

/-- Read a CSR. time reads the die's ring count copy (R66), in a virtual mode with htimedelta; mimpid reads the die's stepping
and mhartid the logical leaf number (R62). The VS stage sees its interrupts one number lower. PRESUMED, assumption 69. -/
def Dev.readCsr (d : Dev) (n c : Nat) : Word :=
  let l := d.leaf n
  let s := d.leafSite n
  match c with
  | 0x300 => withSd (l.csrRaw 0x300)
  | 0x200 => withSd (l.csrRaw 0x200)
  | 0x100 => withSd (l.csrRaw 0x300) &&& sstatusMask
  | 0x104 => l.csrRaw 0x304 &&& l.csrRaw 0x303 &&& 0x2222
  | 0x144 => l.mip &&& l.csrRaw 0x303 &&& 0x2222
  | 0x604 => l.csrRaw 0x304 &&& 0x1444
  | 0x644 => l.mip &&& 0x1444
  | 0x204 => (l.csrRaw 0x304 &&& l.csrRaw 0x603 &&& 0x444) >>> 1
  | 0x244 => (l.mip &&& l.csrRaw 0x603 &&& 0x444) >>> 1
  | 0x344 => l.mip
  | 0x309 => l.csrRaw 0x344 &&& (if l.stce false then 0x202 else 0x222)
  | 0x60A => l.csrRaw 0x60A &&& (l.csrRaw 0x30A ||| 0x3FFFFFFFFFFFFFFF)
  | 0x001 => l.csrRaw 0x003 &&& 0x1F
  | 0x002 => (l.csrRaw 0x003 >>> 5) &&& 7
  | 0x00F => l.csrRaw 0x009 ||| (l.csrRaw 0x00A <<< 1)
  | 0xC01 => d.copy s + (if virtual l.mode then l.csrRaw 0x605 else 0)
  | 0xC00 => l.csrRaw 0xB00
  | 0xC02 => l.csrRaw 0xB02
  | 0xF13 => BitVec.ofNat 64 (d.get BGH_ID.STEPPING s)
  | 0xF14 => BitVec.ofNat 64 n
  | 0xC22 => 32
  | 0xDA0 => l.scountovf
  | 0xE12 => l.hgeip
  | 0xFB0 => topWord l.mTop
  | 0xDB0 => topWord l.sTop
  | 0xEB0 => l.vstopi
  | 0x351 | 0x151 | 0x251 => (l.file (l.fileOfCsr c)).read (l.csrRaw (selectOf c)).toNat
  | 0x35C | 0x15C | 0x25C =>
    match (l.file (l.fileOfCsr c)).top with
    | some id => BitVec.ofNat 64 (id * 2 ^ 16 + id)
    | none => 0
  | c =>
    if 0xC03 ≤ c ∧ c ≤ 0xC1F then l.csrRaw (c - 0x100)
    else if 0x3B0 ≤ c ∧ c ≤ 0x3EF then l.pmpaddr (c - 0x3B0) else l.csrRaw c

/-- What CSRRS and CSRRC combine their operand with: the register as read, but of mip.SEIP the bit that software wrote alone. -/
def Dev.csrBase (d : Dev) (n c : Nat) : Word :=
  if c = 0x344 then (d.readCsr n c &&& ~~~0x200) ||| ((d.leaf n).csrRaw 0x344 &&& 0x200) else d.readCsr n c

/-! ### Writes -/

/-- The bits of a CSR that a write may change (R56 to R58, R72, R73); a write of mchkaddr or mchkloc, whose numbers are not those of
read-only CSRs, is ignored. PRESUMED, assumption 69. DESIGN CHOICE, assumption 81. -/
def csrMask (c : Nat) : Word :=
  match c with
  | 0x300 => 0x000000C0007E7FAA
  | 0x100 => 0x00000000000C6722
  | 0x200 => 0x00000000000C6722
  | 0x600 => 0x00000000007073C0
  | 0x302 => 0xF0B7FF
  | 0x602 => 0xB1FF
  | 0x303 => 0x2222
  | 0x603 => 0x444
  | 0x304 => 0x3EEE
  | 0x604 => 0x1444
  | 0x645 => 0x444
  | 0x609 => 0x4FFF03FF
  | 0x30A | 0x60A => 0xC000000000000081
  | 0x10A => 0x0000000000000081
  | 0x344 => 0x2202
  | 0x7C0 => 0xC0000000FFFFFFFF
  | 0x744 => 0x0000000000001888
  | 0x106 | 0x306 | 0x606 => 0xFFFFFFFF
  | 0x320 => 0xFFFFFFFD
  | 0x607 => 0xFE
  | 0x301 | 0x7C1 | 0x7C2 | 0x34A | 0x64A | 0x308 | 0x608 | 0x646 | 0x647 => 0
  | 0x001 => 0x1F
  | 0x002 => 0x7
  | 0x003 => 0xFF
  | 0x008 => 0xFF
  | 0x009 => 1
  | 0x00A => 3
  | 0x105 | 0x205 | 0x305 => 0xFFFFFFFFFFFFFFFD
  | 0x150 | 0x250 | 0x350 => 0xFFF
  | 0x741 | 0x341 | 0x141 | 0x241 => 0xFFFFFFFFFFFFFFFE
  | c =>
    if 0x323 ≤ c ∧ c ≤ 0x33F then 0xFC0000000000FFFF
    else if 0x3B0 ≤ c ∧ c ≤ 0x3EF then 0x3FFFFFFFFFFF else 0xFFFFFFFFFFFFFFFF

/-- A pmpcfg byte written: a locked entry keeps its value, NA4 cannot be selected (R58), and the reserved W without R is no
permission to write. -/
def pmpByte (old new : Nat) : Nat :=
  if old.testBit 7 then old
  else
    let new := new &&& 0x9F
    let new := if new % 4 = 2 then new - 2 else new
    if new / 8 % 4 = 2 then (new &&& 0xE7) ||| (old &&& 0x18) else new

/-- The translation modes of R58: Bare, Sv39, Sv48 and Sv57, and the same numbers for the G stage. -/
def svMode (m : Nat) : Bool := [0, 8, 9, 10].contains m

/-- The value a CSR holds after a write. -/
def csrLegal (c : Nat) (old new : Word) : Word :=
  let plain := (old &&& ~~~(csrMask c)) ||| (new &&& csrMask c)
  if c = 0x180 || c = 0x280 then (if svMode (new.bits 63 60) then new &&& 0xFFFFF00FFFFFFFFF else old)
  else if c = 0x680 then
    (new &&& 0x03FFF00FFFFFFFFC) ||| (if svMode (new.bits 63 60) then new &&& 0xF000000000000000 else old &&& 0xF000000000000000)
  else if (c = 0x300 || c = 0x744) && new.bits 12 11 = 2 then plain.setBits 12 11 (old.bits 12 11)
  else if 0x3A0 ≤ c ∧ c ≤ 0x3AF then
    BitVec.ofNat 64 ((List.range 8).foldr
      (fun i a => 256 * a + pmpByte (old.bits (8 * i + 7) (8 * i)) (new.bits (8 * i + 7) (8 * i))) 0)
  else plain

/-- A pmpaddr register is locked: by its own entry, or as the base of a locked TOR entry. -/
def Leaf.pmpLocked (l : Leaf) (i : Nat) : Bool :=
  let cfg (k : Nat) : Nat := (l.csrRaw (0x3A0 + k / 8 * 2)).bits (8 * (k % 8) + 7) (8 * (k % 8))
  bit (cfg i) 7 || (decide (i < 63) && bit (cfg (i + 1)) 7 && cfg (i + 1) / 8 % 4 == 1)

/-- The pending bits that Sstc derives from stimecmp and vstimecmp at a time, where it is enabled (R67): a write of a comparison
value, of an enable or of htimedelta sets or clears them at once. -/
def Leaf.retime (l : Leaf) (time : Word) : Leaf :=
  let l := if l.stce false then l.setCsr 0x344 ((l.csrRaw 0x344).setBits 5 5 (if l.csrRaw 0x14D ≤ time then 1 else 0)) else l
  l.setCsr 0x344 ((l.csrRaw 0x344).setBits 6 6 (if l.stce true && l.csrRaw 0x24D ≤ time + l.csrRaw 0x605 then 1 else 0))

/-- Replace the bits of a CSR that a mask selects. -/
def Leaf.mixCsr (l : Leaf) (c : Nat) (m v : Word) : Leaf := l.setCsr c ((l.csrRaw c &&& ~~~m) ||| (v &&& m))

/-- Write a CSR. A claim register's write takes its top identity out of the file; mnstatus may set NMIE and so deliver a
pending record; a write of stimecmp or vstimecmp sets or clears its pending bit at once (R67). PRESUMED, assumption 69. -/
def Dev.writeCsr (d : Dev) (n c : Nat) (v : Word) : Dev :=
  let l := d.leaf n
  let time := d.copy (d.leafSite n)
  let plain (l : Leaf) : Leaf := l.setCsr c (csrLegal c (l.csrRaw c) v)
  match c with
  | 0x100 => d.setLeaf n (l.mixCsr 0x300 (csrMask 0x100) v)
  | 0x104 => d.setLeaf n (l.mixCsr 0x304 (l.csrRaw 0x303 &&& 0x2222) v)
  | 0x604 => d.setLeaf n (l.mixCsr 0x304 0x1444 v)
  | 0x204 => d.setLeaf n (l.mixCsr 0x304 (l.csrRaw 0x603 &&& 0x444) (v <<< 1))
  | 0x144 => d.setLeaf n (l.mixCsr 0x344 (l.csrRaw 0x303 &&& 0x2002) v)
  | 0x644 => d.setLeaf n (l.mixCsr 0x645 4 v)
  | 0x244 => d.setLeaf n (l.mixCsr 0x645 (l.csrRaw 0x603 &&& 4) (v <<< 1))
  | 0x344 => d.setLeaf n ((l.mixCsr 0x344 (if l.stce false then 0x2202 else 0x2222) v).mixCsr 0x645 4 v)
  | 0x309 => d.setLeaf n (l.mixCsr 0x344 (if l.stce false then 0x202 else 0x222) v)
  | 0x001 => d.setLeaf n (l.mixCsr 0x003 0x1F v)
  | 0x002 => d.setLeaf n (l.mixCsr 0x003 0xE0 (v <<< 5))
  | 0x00F => d.setLeaf n ((l.mixCsr 0x009 1 v).mixCsr 0x00A 3 (v >>> 1))
  | 0x14D | 0x24D | 0x30A | 0x60A | 0x605 => d.setLeaf n ((plain l).retime time)
  | 0x351 | 0x151 | 0x251 =>
    let f := l.fileOfCsr c
    d.setLeaf n (l.setFile f ((l.file f).write (l.csrRaw (selectOf c)).toNat v))
  | 0x35C | 0x15C | 0x25C =>
    let f := l.fileOfCsr c
    match (l.file f).top with
    | some id => d.setLeaf n (l.setFile f { l.file f with eip := (l.file f).eip.filter (· != id) })
    | none => d
  -- NMIE can be set by software and not cleared, as Smrnmi states.
  | 0x744 => (d.setLeaf n (l.setCsr 0x744 (csrLegal 0x744 (l.csrRaw 0x744) v ||| (l.csrRaw 0x744 &&& 8)))).deliverPending n
  | c => if 0x3B0 ≤ c ∧ c ≤ 0x3EF ∧ l.pmpLocked (c - 0x3B0) then d else d.setLeaf n (plain l)

end Sys2Proof.Machine
end

