-- ==== Sys2Proof/Machine/Fp.lean ====
section
/-!
DEFINITION. Floating-point arithmetic of a leaf core (R55, R58): the operations of the F and D extensions of the ratified RISC-V
specifications, in all rounding modes, with subnormal operands and results. A finite value is an exact number m times 2 to the e; an
operation computes exactly and rounds once. PRESUMED, assumption 69.
-/

namespace Sys2Proof.Machine

/-! ### Formats and values -/

/-- A format: the bits of its exponent and of its fraction. -/
structure FpFmt where
  ebits : Nat
  fbits : Nat

/-- Single and double precision. -/
def fpFmt (dbl : Bool) : FpFmt := if dbl then ⟨11, 52⟩ else ⟨8, 23⟩

/-- The encoding of infinity, and the highest exponent field's weight. -/
def FpFmt.infBits (f : FpFmt) : Nat := (2 ^ f.ebits - 1) * 2 ^ f.fbits

/-- The sign's weight. -/
def FpFmt.signBit (f : FpFmt) : Nat := 2 ^ (f.ebits + f.fbits)

/-- The canonical NaN. -/
def FpFmt.nan (f : FpFmt) : Nat := f.infBits + 2 ^ (f.fbits - 1)

/-- The exponent of the least normal value. -/
def FpFmt.emin (f : FpFmt) : Int := 2 - 2 ^ (f.ebits - 1)

/-- A decoded value: a NaN, signalling or not; an infinity; or a finite number with its sign, m times 2 to the e. -/
inductive FpVal where
  | nan (signalling : Bool)
  | inf (neg : Bool)
  | num (neg : Bool) (m : Nat) (e : Int)
deriving DecidableEq, Repr

/-- Decode bits of a format. -/
def FpFmt.decode (f : FpFmt) (b : Nat) : FpVal :=
  let neg := decide (b / f.signBit % 2 = 1)
  let ex := b / 2 ^ f.fbits % 2 ^ f.ebits
  let fr := b % 2 ^ f.fbits
  if ex = 2 ^ f.ebits - 1 then (if fr = 0 then .inf neg else .nan (decide (fr < 2 ^ (f.fbits - 1))))
  else if ex = 0 then .num neg fr (f.emin - f.fbits)
  else .num neg (2 ^ f.fbits + fr) (f.emin - f.fbits + (ex - 1 : Nat))

/-- Rounding modes: nearest, ties to even; towards zero; down; up; nearest, ties away from zero. -/
inductive RoundMode where
  | rne | rtz | rdn | rup | rmm
deriving DecidableEq, Repr

/-- The rounding mode of a field, where 7 is that of frm; none for a reserved one. -/
def roundMode (rm frm : Nat) : Option RoundMode :=
  match (if rm = 7 then frm else rm) with
  | 0 => some .rne
  | 1 => some .rtz
  | 2 => some .rdn
  | 3 => some .rup
  | 4 => some .rmm
  | _ => none

/-- A result's bits and the flags it raises: NV 16, DZ 8, OF 4, UF 2, NX 1. -/
structure FpRes where
  bits : Nat
  flags : Nat := 0
deriving DecidableEq, Repr

/-! ### Rounding -/

/-- Divide by a power of two and round; whether the quotient is exact. A negative power multiplies. -/
def roundShift (r : RoundMode) (neg : Bool) (m : Nat) (d : Int) : Nat × Bool :=
  if d ≤ 0 then (m * 2 ^ (-d).toNat, true)
  else
    let k := d.toNat
    let q := m / 2 ^ k
    let rest := m % 2 ^ k
    let up : Bool := match r with
      | .rne => decide (2 ^ k < 2 * rest ∨ (2 * rest = 2 ^ k ∧ q % 2 = 1))
      | .rtz => false
      | .rdn => neg && decide (rest ≠ 0)
      | .rup => !neg && decide (rest ≠ 0)
      | .rmm => decide (2 ^ k ≤ 2 * rest)
    (if up then q + 1 else q, decide (rest = 0))

/-- The result of an overflow. -/
def FpFmt.overflow (f : FpFmt) (r : RoundMode) (neg : Bool) : Nat :=
  let toInf : Bool := match r with
    | .rne | .rmm => true
    | .rtz => false
    | .rdn => neg
    | .rup => !neg
  if toInf then f.infBits else f.infBits - 1

/-- Round a number that is not zero to a format. Tininess is detected after rounding. -/
def FpFmt.round (f : FpFmt) (r : RoundMode) (neg : Bool) (m : Nat) (e : Int) : FpRes :=
  let s := if neg then f.signBit else 0
  let ex := e + Nat.log2 m
  let q := (if ex < f.emin then f.emin else ex) - f.fbits
  let (sig, exact) := roundShift r neg m (q - e)
  let b := (q - (f.emin - f.fbits)).toNat * 2 ^ f.fbits + sig
  if f.infBits ≤ b then ⟨s + f.overflow r neg, 5⟩
  else if exact then ⟨s + b, 0⟩
  else
    let tiny := decide (ex < f.emin)
      && !(decide (ex + 1 = f.emin) && (roundShift r neg m (ex - f.fbits - e)).1 == 2 ^ (f.fbits + 1))
    ⟨s + b, if tiny then 3 else 1⟩

/-- Round a value that may be zero, whose sign is then given. -/
def FpFmt.roundOr (f : FpFmt) (r : RoundMode) (zeroNeg : Bool) (v : Int) (e : Int) : FpRes :=
  if v = 0 then ⟨if zeroNeg then f.signBit else 0, 0⟩ else f.round r (decide (v < 0)) v.natAbs e

/-! ### Arithmetic -/

/-- The sign of a value. -/
def FpVal.neg : FpVal → Bool
  | .nan _ => false
  | .inf s => s
  | .num s _ _ => s

/-- A value with its sign inverted. -/
def FpVal.negate : FpVal → FpVal
  | .nan s => .nan s
  | .inf s => .inf (!s)
  | .num s m e => .num (!s) m e

/-- A signalling NaN. -/
def FpVal.snan : FpVal → Bool
  | .nan s => s
  | _ => false

/-- A NaN. -/
def FpVal.isNan : FpVal → Bool
  | .nan _ => true
  | _ => false

/-- A finite value that is zero. -/
def FpVal.isZero : FpVal → Bool
  | .num _ m _ => m == 0
  | _ => false

/-- A number as an integer at an exponent not above its own. -/
def scaled (neg : Bool) (m : Nat) (e base : Int) : Int :=
  let v : Int := (m * 2 ^ (e - base).toNat : Nat)
  if neg then -v else v

/-- The canonical NaN, invalid where a signalling NaN caused it. -/
def FpFmt.quiet (f : FpFmt) (xs : List FpVal) : FpRes := ⟨f.nan, if xs.any FpVal.snan then 16 else 0⟩

/-- An invalid operation. -/
def FpFmt.invalid (f : FpFmt) : FpRes := ⟨f.nan, 16⟩

/-- An infinity. -/
def FpFmt.infinity (f : FpFmt) (neg : Bool) : FpRes := ⟨(if neg then f.signBit else 0) + f.infBits, 0⟩

/-- The sum of two values. An exact zero of unlike signs is +0, or -0 when rounding down. -/
def FpFmt.add (f : FpFmt) (r : RoundMode) (x y : FpVal) : FpRes :=
  match x, y with
  | .num s m e, .num t n g =>
    let base := min e g
    let zeroNeg := if m = 0 ∧ n = 0 ∧ s = t then s else decide (r = .rdn)
    f.roundOr r zeroNeg (scaled s m e base + scaled t n g base) base
  | .inf s, .inf t => if s = t then f.infinity s else f.invalid
  | .inf s, .num _ _ _ => f.infinity s
  | .num _ _ _, .inf t => f.infinity t
  | x, y => f.quiet [x, y]

/-- The exact product of two values that are no NaN and not infinity times zero. -/
def FpVal.times (x y : FpVal) : FpVal :=
  match x, y with
  | .num s m e, .num t n g => .num (s != t) (m * n) (e + g)
  | x, y => .inf (x.neg != y.neg)

/-- Infinity times zero. -/
def FpVal.infZero (x y : FpVal) : Bool :=
  match x, y with
  | .inf _, y => y.isZero
  | x, .inf _ => x.isZero
  | _, _ => false

/-- The product of two values. -/
def FpFmt.mul (f : FpFmt) (r : RoundMode) (x y : FpVal) : FpRes :=
  if x.isNan || y.isNan then f.quiet [x, y]
  else if x.infZero y then f.invalid
  else match x.times y with
    | .num s m e => f.roundOr r s (if s then -(m : Int) else m) e
    | v => f.infinity v.neg

/-- A product and a sum, rounded once. Infinity times zero is invalid whatever the addend. -/
def FpFmt.fma (f : FpFmt) (r : RoundMode) (x y z : FpVal) : FpRes :=
  if x.infZero y then f.invalid
  else if x.isNan || y.isNan || z.isNan then f.quiet [x, y, z]
  else f.add r (x.times y) z

/-- The quotient of two values. -/
def FpFmt.div (f : FpFmt) (r : RoundMode) (x y : FpVal) : FpRes :=
  let s := x.neg != y.neg
  match x, y with
  | .num _ m e, .num _ n g =>
    if n = 0 then (if m = 0 then f.invalid else { f.infinity s with flags := 8 })
    else if m = 0 then ⟨if s then f.signBit else 0, 0⟩
    else
      -- enough quotient bits to round, and one more that is set where a remainder is left
      let k := f.fbits + 3 + Nat.log2 n
      let q := m * 2 ^ k / n
      let sticky := if m * 2 ^ k % n = 0 then 0 else 1
      f.round r s (2 * q + sticky) (e - g - k - 1)
  | .inf _, .inf _ => f.invalid
  | .inf _, .num _ _ _ => f.infinity s
  | .num _ _ _, .inf _ => ⟨if s then f.signBit else 0, 0⟩
  | x, y => f.quiet [x, y]

/-- The integer square root by k bits from the top. -/
def sqrtBits : Nat → Nat → Nat → Nat
  | 0, _, acc => acc
  | k + 1, v, acc =>
    let t := acc + 2 ^ k
    sqrtBits k v (if t * t ≤ v then t else acc)

/-- The square root of a value. -/
def FpFmt.sqrt (f : FpFmt) (r : RoundMode) (x : FpVal) : FpRes :=
  match x with
  | .num s m e =>
    if m = 0 then ⟨if s then f.signBit else 0, 0⟩
    else if s then f.invalid
    else
      -- an even exponent, and a radicand with more than twice the bits of a fraction
      let k := 2 * (f.fbits + 3) + (if (e - 2 * (f.fbits + 3)) % 2 = 0 then 0 else 1)
      let v := m * 2 ^ k
      let root := sqrtBits (Nat.log2 v / 2 + 1) v 0
      let sticky := if root * root = v then 0 else 1
      f.round r false (2 * root + sticky) ((e - k) / 2 - 1)
  | .inf s => if s then f.invalid else f.infinity false
  | .nan _ => f.quiet [x]

/-! ### Comparison, classes and conversion -/

/-- Compare two values that are no NaN: less. -/
def FpVal.less (x y : FpVal) : Bool :=
  match x, y with
  | .num s m e, .num t n g => let base := min e g; decide (scaled s m e base < scaled t n g base)
  | .inf s, .inf t => s && !t
  | .inf s, _ => s
  | _, .inf t => !t
  | _, _ => false

/-- Two values that are no NaN are equal; zeros are equal whatever their signs. -/
def FpVal.same (x y : FpVal) : Bool := !x.less y && !y.less x

/-- The lesser (or greater) of two numbers by their bits: a NaN gives way to a number, and -0 is below +0. -/
def FpFmt.pick (f : FpFmt) (greater : Bool) (a b : Nat) : FpRes :=
  let x := f.decode a
  let y := f.decode b
  let flags := if x.snan || y.snan then 16 else 0
  if x.isNan && y.isNan then ⟨f.nan, flags⟩
  else if x.isNan then ⟨b, flags⟩
  else if y.isNan then ⟨a, flags⟩
  else
    let below := x.less y || (x.same y && x.neg)
    ⟨if below != greater then a else b, 0⟩

/-- A comparison's answer: EQ is quiet, LT and LE signal on any NaN. -/
def fpCompare (op : FpOp) (x y : FpVal) : FpRes :=
  if x.isNan || y.isNan then ⟨0, if x.snan || y.snan || op ≠ .eq then 16 else 0⟩
  else
    let c := match op with
      | .eq => x.same y
      | .lt => x.less y
      | _ => !y.less x
    ⟨if c then 1 else 0, 0⟩

/-- The class of a value, as one bit of ten (FCLASS). -/
def FpFmt.classOf (f : FpFmt) (x : FpVal) : Nat :=
  match x with
  | .nan s => if s then 256 else 512
  | .inf s => if s then 1 else 128
  | .num s m _ => if m = 0 then (if s then 8 else 16) else if m < 2 ^ f.fbits then (if s then 4 else 32) else if s then 2 else 64

/-- Convert to an integer between two bounds: a NaN and what lies above give the greatest, what lies below the least. -/
def fpToInt (r : RoundMode) (lo hi : Int) (x : FpVal) : Int × Nat :=
  match x with
  | .nan _ => (hi, 16)
  | .inf s => (if s then lo else hi, 16)
  | .num s m e =>
    let (q, exact) := roundShift r s m (-e)
    let v : Int := if s then -(q : Int) else q
    if v < lo then (lo, 16) else if hi < v then (hi, 16) else (v, if exact then 0 else 1)

/-- Convert to another format. -/
def FpFmt.convert (f : FpFmt) (r : RoundMode) (x : FpVal) : FpRes :=
  match x with
  | .nan _ => f.quiet [x]
  | .inf s => f.infinity s
  | .num s m e => f.roundOr r s (if s then -(m : Int) else m) e

/-! ### Registers -/

/-- The bits of an operand: a single that is not NaN-boxed counts as the canonical NaN. -/
def fpOperand (dbl : Bool) (w : Word) : Nat :=
  if dbl then w.toNat else if w.bits 63 32 = 0xFFFFFFFF then w.bits 31 0 else 0x7FC00000

/-- A result in a floating-point register, NaN-boxed when single. -/
def fpBox (dbl : Bool) (b : Nat) : Word := BitVec.ofNat 64 (if dbl then b else 0xFFFFFFFF00000000 + b)

/-- The operation's answer goes to an integer register. -/
def fpToX : FpOp → Bool
  | .eq | .lt | .le | .cls | .toW | .toWu | .toL | .toLu | .toBits => true
  | _ => false

/-- The operation has a rounding mode. -/
def fpRounds : FpOp → Bool
  | .sgnj | .sgnjn | .sgnjx | .min | .max | .eq | .lt | .le | .cls | .toBits | .fromBits => false
  | _ => true

/-- A conversion to an integer of a width; a 32-bit answer is sign-extended. -/
def fpInteger (r : RoundMode) (w : Nat) (sgn : Bool) (x : FpVal) : Word × Nat :=
  let (v, flags) := if sgn then fpToInt r (-2 ^ (w - 1)) (2 ^ (w - 1) - 1) x else fpToInt r 0 (2 ^ w - 1) x
  ((BitVec.ofInt w v).signExtend 64, flags)

/-- An operation on register values: its result as the destination register takes it, and its flags. `x` is an integer
operand. PRESUMED, assumption 69. -/
def fpResult (op : FpOp) (dbl : Bool) (r : RoundMode) (a b c x : Word) : Word × Nat :=
  let f := fpFmt dbl
  let p := fpOperand dbl a
  let q := fpOperand dbl b
  let u := f.decode p
  let v := f.decode q
  let w := f.decode (fpOperand dbl c)
  let box (res : FpRes) : Word × Nat := (fpBox dbl res.bits, res.flags)
  let int (res : FpRes) : Word × Nat := (BitVec.ofNat 64 res.bits, res.flags)
  let sign (s : Nat) : Word × Nat := (fpBox dbl (p % f.signBit + s * f.signBit), 0)
  let sp := p / f.signBit
  let sq := q / f.signBit
  let from' (n : Int) : Word × Nat := box (f.roundOr r false n 0)
  match op with
  | .add => box (f.add r u v)
  | .sub => box (f.add r u v.negate)
  | .mul => box (f.mul r u v)
  | .div => box (f.div r u v)
  | .sqrt => box (f.sqrt r u)
  | .madd => box (f.fma r u v w)
  | .msub => box (f.fma r u v w.negate)
  | .nmsub => box (f.fma r u.negate v w)
  | .nmadd => box (f.fma r u.negate v w.negate)
  | .sgnj => sign sq
  | .sgnjn => sign (1 - sq)
  | .sgnjx => sign ((sp + sq) % 2)
  | .min => box (f.pick false p q)
  | .max => box (f.pick true p q)
  | .eq | .lt | .le => int (fpCompare op u v)
  | .cls => int ⟨f.classOf u, 0⟩
  | .toW => fpInteger r 32 true u
  | .toWu => fpInteger r 32 false u
  | .toL => fpInteger r 64 true u
  | .toLu => fpInteger r 64 false u
  | .fromW => from' (x.setWidth 32).toInt
  | .fromWu => from' (x.setWidth 32).toNat
  | .fromL => from' x.toInt
  | .fromLu => from' x.toNat
  | .convert => box (f.convert r ((fpFmt (!dbl)).decode (fpOperand (!dbl) a)))
  | .toBits => (if dbl then a else (a.setWidth 32).signExtend 64, 0)
  | .fromBits => (fpBox dbl (if dbl then x.toNat else x.bits 31 0), 0)

end Sys2Proof.Machine
end

