-- ==== Sys2Proof/Machine/Lines.lean ====
section
/-!
DEFINITION. The lines of a bough as its caches hold them (spec/06): placement, the records of R147, and which lines can serve an access.
A bough's line is held once, in `Bough.lines`; which twigs and L1s hold it is recorded beside it.
-/

namespace Sys2Proof.Machine

/-- Change the caches of a bough. -/
def Dev.modBough (d : Dev) (b : Nat) (f : Bough → Bough) : Dev := d.setBough b (f (d.bough b))

/-- A line as its bough holds it. -/
def Bough.line (x : Bough) (line : Nat) : L3Line := x.lines.find {} line

/-- Replace a line of a bough. -/
def Bough.setLine (x : Bough) (line : Nat) (l : L3Line) : Bough := { x with lines := x.lines.set natLt {} line l }

/-- Change a line of a bough. -/
def Dev.modLine (d : Dev) (b line : Nat) (f : L3Line → L3Line) : Dev :=
  d.modBough b fun x => x.setLine line (f (x.line line))

/-- The request outstanding for a line. -/
def Bough.txn (x : Bough) (line : Nat) : Option BoughTxn := x.txns.find? fun t => t.line == line

/-- Replace the request outstanding for a line. -/
def Dev.setBTxn (d : Dev) (b : Nat) (t : BoughTxn) : Dev :=
  d.modBough b fun x => { x with txns := x.txns.map fun y => if y.line == t.line then t else y }

/-- The site of a logical bough; 28 stands for none. -/
def Dev.boughSite (d : Dev) (b : Nat) : Nat := (d.siteOf b).getD 28

/-- Count a cache event of the bough (L3C_CNT). -/
def Dev.l3Count (d : Dev) (b i : Nat) : Dev := d.count L3C_CNT.COUNT 1 (d.boughSite b) i

/-! ### Placement (R144, R145) -/

/-- The L3 set of a line, PA[19:9]. -/
def l3Set (line : Nat) : Nat := line / 8 % 2048

/-- The L2 set of a line, PA[16:6]. -/
def l2Set (line : Nat) : Nat := line % 2048

/-- The L1 set of a line, PA[12:6]. -/
def l1Set (line : Nat) : Nat := line % 128

/-- The bough holds a copy. -/
def L3Line.valid (l : L3Line) : Bool := l.st != .invalid

/-- The bough may write the line (R164). -/
def L3Line.writable (l : L3Line) : Bool := l.st == .modified || l.st == .excl

/-- The L3 data array of a bough is in service: no flush has started and it is not gated (R158, R160). -/
def Dev.l3On (d : Dev) (b : Nat) : Bool :=
  let s := d.boughSite b
  !d.flag L3C_STAT.DISABLED s && !d.flag L3C_STAT.FLUSHING s

/-- The line is held as the access needs it and may be served from the bough: from the data array while that is in service, and
else only from a twig that holds it (R147, R158 to R160). -/
def Dev.canServe (d : Dev) (b : Nat) (line : Nat) (write : Bool) : Bool :=
  let l := (d.bough b).line line
  l.valid && (!write || l.writable) && (!l.twigs.isEmpty || (l.hasData && d.l3On b)) && ((d.bough b).txn line).isNone

/-- The code of a leaf's L1 among the records of a line: its instruction cache or its data cache. -/
def l1Code (n : Nat) (fetch : Bool) : Nat := 2 * (n % 16) + if fetch then 0 else 1

/-- The twig of a leaf within its bough. -/
def twigOf (n : Nat) : Nat := n % 16 / 4

/-- The twig of an L1 record. -/
def codeTwig (c : Nat) : Nat := c / 8

/-- A leaf's L1 holds the line, writable where the access writes (R147). -/
def L3Line.inL1 (l : L3Line) (n : Nat) (fetch write : Bool) : Bool :=
  l.valid && l.l1.contains (l1Code n fetch) && (!write || l.l1Writer == some (l1Code n fetch))

/-- A leaf's L1s lose the line. -/
def L3Line.leaveL1 (l : L3Line) (n : Nat) : L3Line :=
  { l with l1 := l.l1.filter fun c => c / 2 != n % 16
           l1Writer := if l.l1Writer.map (· / 2) = some (n % 16) then none else l.l1Writer }

/-- A twig's L2 holds the line, writable where the access writes (R147). -/
def L3Line.inL2 (l : L3Line) (t : Nat) (write : Bool) : Bool :=
  l.valid && l.twigs.contains t && (!write || l.writer == some t)

end Sys2Proof.Machine
end

