-- ==== Sys2Proof/Machine/Sv.lean ====
section
/-!
DEFINITION. Address translation and physical memory protection of a leaf core (R55, R58, R60, R71, R73): the PMP with granularity
4 KiB, the page tables of Sv39, Sv48 and Sv57 and of their x4 forms, Svnapot, Svpbmt and Svade, the TLBs, and what an access meets
before its physical address is known.
-/

namespace Sys2Proof.Machine

/-- The access needs write ownership of its line. -/
def needsWrite : AccKind → Bool
  | .store | .amo | .sc => true
  | _ => false

/-- The exception code of a failed access: misaligned or an access fault. -/
def accessCode (kind : AccKind) (misaligned : Bool) : Nat :=
  match kind with
  | .load | .lr => if misaligned then 4 else 5
  | .fetch => 1
  | .walk => 5
  | _ => if misaligned then 6 else 7

/-- The exception code of a page fault, or of a guest-page fault. -/
def pageCode (kind : AccKind) (guest : Bool) : Nat :=
  match kind with
  | .fetch => if guest then 20 else 12
  | .load | .lr | .walk => if guest then 21 else 13
  | _ => if guest then 23 else 15

/-- The requester class of a leaf's accesses (R393): 0 in M mode, 1 in any other. -/
def Dev.leafClass (d : Dev) (n : Nat) : Nat := if (d.leaf n).mode = .machine then 0 else 1

/-! ### Physical memory protection (R58) -/

/-- A configuration byte of the PMP. -/
def Leaf.pmpCfg (l : Leaf) (i : Nat) : Nat := (l.csrRaw (0x3A0 + i / 8 * 2)).bits (8 * (i % 8) + 7) (8 * (i % 8))

/-- Ones at the low end of a number, up to a bound. -/
def lowOnes (k a : Nat) : Nat := ((List.range k).takeWhile fun i => bit a i).length

/-- The bytes that a PMP entry covers, from the first to beyond the last: none when OFF. Granularity is 4 KiB. -/
def Leaf.pmpRange (l : Leaf) (i : Nat) : Option (Nat × Nat) :=
  let at4k (k : Nat) : Nat := (l.csrRaw (0x3B0 + k)).toNat / 1024 * 4096
  match l.pmpCfg i / 8 % 4 with
  | 1 => some (if i = 0 then 0 else at4k (i - 1), at4k i)
  | 3 =>
    let a := (l.csrRaw (0x3B0 + i)).toNat ||| 0x1FF
    let k := lowOnes 64 a
    let base := a / 2 ^ (k + 1) * 2 ^ (k + 3)
    some (base, base + 2 ^ (k + 3))
  | _ => none

/-- The PMP permits an access of a mode: the lowest entry that covers any byte covers all of them and has the permission bit
(0 read, 1 write, 2 execute); M mode passes an entry that is not locked, and passes where no entry covers the access. -/
def Leaf.pmpPermits (l : Leaf) (m : Mode) (need a size : Nat) : Bool :=
  match (List.range 64).findSome? fun i => match l.pmpRange i with
      | some (lo, hi) => if lo < a + size ∧ a < hi then some (i, lo, hi) else none
      | none => none with
  | none => m == .machine
  | some (i, lo, hi) =>
    decide (lo ≤ a ∧ a + size ≤ hi) && ((m == .machine && !bit (l.pmpCfg i) 7) || bit (l.pmpCfg i) need)

/-- The permission bit of the PMP that a kind of access needs. -/
def pmpNeed : AccKind → Nat
  | .fetch => 2
  | .store | .amo | .sc => 1
  | _ => 0

/-! ### Page tables -/

/-- How a walk ends other than in a page: a page fault, or a guest-page fault at a guest physical address, each with whether it
came of A = 0 or D = 0; an access fault, with the physical address whose check failed outside the PMP; a poisoned entry; or an entry
whose line the bough does not hold, so that its read takes a miss entry (R68). -/
inductive SvFail where
  | page (aged : Bool)
  | guest (gpa : Nat) (aged : Bool)
  | access (addr : Option Nat)
  | poison (addr : Nat)
  | miss (addr : Nat)
deriving DecidableEq, Repr

/-- What a walk or one of its reads gives. -/
inductive SvResult (α : Type) where
  | ok (a : α)
  | fail (f : SvFail)

/-- A leaf entry that a walk found: the physical page of the address, the entry's bits [7:0] and its memory type. -/
structure SvLeaf where
  ppn : Nat
  bits : Nat
  pbmt : Pbmt

/-- Read an entry of a page table at a physical address: with S-mode permission of the PMP, as the leaf's requester class, from a line
that the bough holds; one that it does not hold is a miss (R393, R60, R68). -/
def Dev.readEntry (d : Dev) (n a : Nat) : SvResult Word :=
  let c := d.memCheck (d.leafClass n) 0 false a
  let fail (left : Bool) : SvResult Word := .fail (.access (if left then some a else none))
  if 2 ^ 48 ≤ a || !(d.leaf n).pmpPermits .super 0 a 8 then fail false
  else match rangeOf a with
    | .dram | .cxl =>
      let l := (d.bough (n / 16)).line (a / 64)
      if c != .ok then fail true
      else if !d.canServe (n / 16) (a / 64) false then .fail (.miss a)
      else if l.poison then .fail (.poison a) else .ok (lineWord l.data (a / 8 % 8))
    | .flash => if c != .ok then fail true else .ok (BitVec.ofNat 64 (d.flashAt (a - 0x0FFFF0000000) 8))
    | .reserved => fail (c != .ok)
    | _ => fail (c == .refused)

/-- The memory type of an entry: 0 PMA, 1 NC, 2 IO; 3 is reserved (Svpbmt). -/
def pbmtOf : Nat → Pbmt
  | 1 => .nc
  | 2 => .io
  | _ => .pma

/-- Walk a page table down from a level, whose table stands at `base`; `wide` is the width of the index at this level, 9 or, at
the root of the G stage, 11. An entry is refused that is invalid or writable but not readable, has a reserved bit set, has A, D, U,
a memory type or N in a pointer, is a misaligned superpage, or an N page other than of 64 KiB. DESIGN CHOICE, assumption 15. -/
def svWalk (read : Nat → SvResult Word) (pbmte : Bool) (va : Nat) : Nat → Nat → Nat → SvResult SvLeaf
  | 0, _, _ => .fail (.page false)
  | k + 1, wide, base =>
    match read (base + 8 * (va / 2 ^ (12 + 9 * k) % 2 ^ wide)) with
    | .fail f => .fail f
    | .ok e =>
      let b (i : Nat) : Bool := e.getLsbD i
      let ppn := e.bits 53 10
      let pb := e.bits 62 61
      if !b 0 || (b 2 && !b 1) || e.bits 60 54 ≠ 0 || pb = 3 || (pb ≠ 0 && !pbmte) then .fail (.page false)
      else if !b 1 && !b 3 then
        if b 4 || b 6 || b 7 || pb ≠ 0 || b 63 then .fail (.page false) else svWalk read pbmte va k 9 (ppn * 4096)
      else if ppn % 2 ^ (9 * k) ≠ 0 || (b 63 && (k ≠ 0 || ppn % 16 ≠ 8)) then .fail (.page false)
      else
        let low := if b 63 then 16 else 2 ^ (9 * k)
        .ok ⟨ppn / low * low + va / 4096 % low, e.bits 7 0, pbmtOf pb⟩

/-- The permissions of a leaf entry admit an access: user pages for U, and for S data under SUM; execute-only pages for loads under
MXR, and for HLVX. -/
def svAllows (bits : Nat) (kind : AccKind) (hx mxr sum user : Bool) : Bool :=
  (if user then bit bits 4 else !bit bits 4 || (sum && kind != .fetch))
  && match kind with
    | .fetch => bit bits 3
    | .store | .amo | .sc => bit bits 2
    | _ => if hx then bit bits 3 else bit bits 1 || (mxr && bit bits 3)

/-- The A bit, and for a store the D bit, are set; hardware sets neither (Svade, R58). -/
def svAged (bits : Nat) (kind : AccKind) : Bool := bit bits 6 && (!needsWrite kind || bit bits 7)

/-- Check a leaf entry against an access. -/
def svCheck (bits : Nat) (kind : AccKind) (hx mxr sum user : Bool) : Option SvFail :=
  if !svAllows bits kind hx mxr sum user then some (.page false)
  else if !svAged bits kind then some (.page true) else none

/-- The levels of a translation mode: 8 Sv39, 9 Sv48, 10 Sv57. -/
def svLevels (mode : Nat) : Nat := mode - 5

/-- A page fault of the G stage is a guest-page fault at the guest physical address. -/
def SvFail.toGuest (gpa : Nat) : SvFail → SvFail
  | .page a => .guest gpa a
  | f => f

/-- What a translation depends on beside the address: satp or vsatp, hgatp, the enables of memory types, and the status bits. -/
structure SvWorld where
  first : Word
  second : Word
  pbmt1 : Bool
  pbmt2 : Bool
  mxr1 : Bool
  mxr2 : Bool
  sum : Bool
  user : Bool
  virt : Bool

/-- The world of a mode. -/
def Leaf.world (l : Leaf) (m : Mode) : SvWorld :=
  let v := virtual m
  let st := l.csrRaw 0x300
  let p2 := (l.csrRaw 0x30A).getLsbD 62
  { first := if m = .machine then 0 else if v then l.csrRaw 0x280 else l.csrRaw 0x180
    second := if v then l.csrRaw 0x680 else 0
    pbmt1 := p2 && (!v || (l.csrRaw 0x60A).getLsbD 62)
    pbmt2 := p2
    mxr1 := st.getLsbD 19 || (v && (l.csrRaw 0x200).getLsbD 19)
    mxr2 := st.getLsbD 19
    sum := if v then (l.csrRaw 0x200).getLsbD 18 else st.getLsbD 18
    user := modeCode m == 0
    virt := v }

/-- Translate a guest physical address by the G stage. The access is checked as a user's. -/
def Dev.gStage (d : Dev) (n : Nat) (w : SvWorld) (kind : AccKind) (hx : Bool) (gpa : Nat) : SvResult SvLeaf :=
  let k := svLevels (w.second.bits 63 60)
  if w.second.bits 63 60 = 0 then (if gpa < 2 ^ 48 then .ok ⟨gpa / 4096, 0, .pma⟩ else .fail (.access none))
  else if 2 ^ (14 + 9 * k) ≤ gpa then .fail (.guest gpa false)
  else match svWalk (d.readEntry n) w.pbmt2 gpa k 11 (w.second.bits 43 0 * 4096) with
    | .fail f => .fail (f.toGuest gpa)
    | .ok x =>
      match svCheck x.bits kind hx w.mxr2 false true with
      | some f => .fail (f.toGuest gpa)
      | none => if x.ppn < 2 ^ 36 then .ok x else .fail (.access none)

/-- Read an entry of a first-stage table: at a physical address, or in a virtual mode at a guest physical address. -/
def Dev.readFirst (d : Dev) (n : Nat) (w : SvWorld) (a : Nat) : SvResult Word :=
  if !w.virt then d.readEntry n a
  else match d.gStage n w .load false a with
    | .fail f => .fail f
    | .ok x => d.readEntry n (x.ppn * 4096 + a % 4096)

/-- A virtual address is canonical for a number of levels: the bits above its width equal its highest. -/
def canonical (k : Nat) (va : Word) : Bool := ((va.setWidth (12 + 9 * k)).signExtend 64) == va

/-- Translate an address by both stages: the physical page, the leaf entries' bits and the memory type, in which a type of the
first stage goes before one of the second (Svpbmt). -/
def Dev.svTranslate (d : Dev) (n : Nat) (w : SvWorld) (kind : AccKind) (hx : Bool) (va : Word) : SvResult TlbEntry :=
  let k := svLevels (w.first.bits 63 60)
  let one : SvResult SvLeaf :=
    if w.first.bits 63 60 = 0 then .ok ⟨va.toNat / 4096, 0, .pma⟩
    else if !canonical k va then .fail (.page false)
    else match svWalk (d.readFirst n w) w.pbmt1 va.toNat k 9 (w.first.bits 43 0 * 4096) with
      | .fail f => .fail f
      | .ok x =>
        match svCheck x.bits kind hx w.mxr1 w.sum w.user with
        | some f => .fail f
        | none => .ok x
  match one with
  | .fail f => .fail f
  | .ok x =>
    match d.gStage n w kind hx (x.ppn * 4096 + va.toNat % 4096) with
    | .fail f => .fail f
    | .ok y =>
      .ok { insn := kind == .fetch, virt := w.virt, asid := w.first.bits 59 44, vmid := w.second.bits 57 44
            vpn := va.toNat / 4096, ppn := y.ppn
            first := if w.first.bits 63 60 = 0 then none else some x.bits
            second := if w.second.bits 63 60 = 0 then none else some y.bits
            pbmt := if x.pbmt == .pma then y.pbmt else x.pbmt }

/-! ### TLBs (R73, R74) -/

/-- A TLB entry translates an access of a world: its page, its kind of TLB, the stages in force, and the ASID, which a global page
does not need, and the VMID. -/
def TlbEntry.hits (e : TlbEntry) (w : SvWorld) (kind : AccKind) (va : Word) : Bool :=
  e.insn == (kind == .fetch) && e.virt == w.virt && e.vpn == va.toNat / 4096
  && e.first.isSome == decide (w.first.bits 63 60 ≠ 0) && e.second.isSome == decide (w.second.bits 63 60 ≠ 0)
  && (e.asid == w.first.bits 59 44 || bit (e.first.getD 0) 5 || e.first.isNone)
  && (e.vmid == w.second.bits 57 44 || e.second.isNone)

/-- The permissions it holds admit the access; else the tables are walked again. -/
def TlbEntry.admits (e : TlbEntry) (w : SvWorld) (kind : AccKind) (hx : Bool) : Bool :=
  (match e.first with
    | some b => (svCheck b kind hx w.mxr1 w.sum w.user).isNone
    | none => true)
  && match e.second with
    | some b => (svCheck b kind hx w.mxr2 false true).isNone
    | none => true

/-- A fence empties a leaf's TLBs of the entries of a virtual, or of no virtual, mode. DESIGN CHOICE, assumption 79. -/
def Leaf.flushTlb (l : Leaf) (virt : Bool) : Leaf := { l with tlb := l.tlb.filter fun e => e.virt != virt }

/-- Translate one page of an access. Where a TLB entry is held, a free bit says whether it is still there; a miss counts event
0x30 or 0x31, unless the walk of that page goes on (`again`); a completed walk counts event 0x32, and a fault on A = 0 or D = 0 event
0x33. DESIGN CHOICE, assumption 79. -/
def Dev.mapPage (d : Dev) (n : Nat) (m : Mode) (kind : AccKind) (hx : Bool) (va : Word) (again : Option Nat) :
    SvResult (Nat × Pbmt) × Dev :=
  let w := (d.leaf n).world m
  if w.first.bits 63 60 = 0 && w.second.bits 63 60 = 0 then
    (if va.toNat < 2 ^ 48 then .ok (va.toNat, .pma) else .fail (.access none), d)
  else
    let held := (d.leaf n).tlb.find? fun e => e.hits w kind va && e.admits w kind hx
    let (kept, d) := match held with
      | none => (none, d)
      | some e =>
        let (b, d) := d.freeNext
        (if b.getLsbD 0 then some e else none, d)
    match kept with
    | some e => (.ok (e.ppn * 4096 + va.toNat % 4096, e.pbmt), d)
    | none =>
      let d := d.modLeaf n fun l => { l with tlb := l.tlb.filter fun e => !e.hits w kind va }
      let d := if again == some (va.toNat / 4096) then d
        else d.modLeaf n fun l => l.countEvent (if kind == .fetch then 0x30 else 0x31)
      match d.svTranslate n w kind hx va with
      | .ok e =>
        (.ok (e.ppn * 4096 + va.toNat % 4096, e.pbmt),
         d.modLeaf n fun l => { l with tlb := e :: l.tlb }.countEvent 0x32)
      | .fail (.page true) => (.fail (.page true), d.modLeaf n fun l => (l.countEvent 0x32).countEvent 0x33)
      | .fail (.guest g true) => (.fail (.guest g true), d.modLeaf n fun l => (l.countEvent 0x32).countEvent 0x33)
      | .fail (.page false) => (.fail (.page false), d.modLeaf n fun l => l.countEvent 0x32)
      | .fail (.guest g false) => (.fail (.guest g false), d.modLeaf n fun l => l.countEvent 0x32)
      | .fail f => (.fail f, d)

/-! ### The address of an access -/

/-- The mode in which an access is checked: under HLV and HSV that of hstatus.SPVP, in M mode under MPRV that of MPP and MPV, unless
NMIE = 0 (Smrnmi); else the leaf's own. -/
def Leaf.accessMode (l : Leaf) (kind : AccKind) (hv : Bool) : Mode :=
  let st := l.csrRaw 0x300
  if kind == .fetch then l.mode
  else if hv then modeOf ((l.csrRaw 0x600).bits 8 8) true
  else if l.mode = .machine && st.getLsbD 17 && l.nmie then modeOf (st.bits 12 11) (st.getLsbD 39) else l.mode

/-- What the mapping of an access ends in: the access with its physical addresses, an exception with its value and guest physical
address, the poisoned entry of a walk, or the entry of a walk for a page, whose read takes a miss entry. -/
inductive MappedAccess where
  | ok (acc : LeafAccess)
  | trap (code : Nat) (tval : Word) (gpa : Nat)
  | poison (addr : Nat)
  | miss (vpn addr : Nat)
deriving DecidableEq, Repr

/-- The end of a failed translation, and what its access check leaves behind. -/
def Dev.mapFailed (d : Dev) (n : Nat) (kind : AccKind) (va : Word) (f : SvFail) : MappedAccess × Dev :=
  match f with
  | .page _ => (.trap (pageCode kind false) va 0, d)
  | .guest g _ => (.trap (pageCode kind true) va g, d)
  | .access none => (.trap (accessCode kind false) va 0, d)
  | .access (some a) =>
    let c := d.memCheck (d.leafClass n) 0 false a
    (.trap (accessCode kind false) va 0, d.memRefused c (d.leafClass n) 0 false a)
  | .poison a => (.poison a, d)
  | .miss a => (.miss (va.toNat / 4096) a, d)

/-- Map an access to its physical addresses: each page it touches is translated and passes the PMP. A walk read has its physical
address. DESIGN CHOICE, assumption 15. -/
def Dev.mapAccess (d : Dev) (n : Nat) (acc : LeafAccess) (again : Option Nat := none) : MappedAccess × Dev :=
  let m := (d.leaf n).accessMode acc.kind acc.hv
  let denied (va : Word) : MappedAccess := .trap (accessCode acc.kind false) va 0
  if acc.kind == .walk then
    (if (d.leaf n).pmpPermits .super 0 acc.addr acc.size then .ok acc else denied acc.va, d)
  else match d.mapPage n m acc.kind acc.hx acc.va again with
    | (.fail f, d) => d.mapFailed n acc.kind acc.va f
    | (.ok (pa, pbmt), d) =>
      let here := min acc.size (4096 - pa % 4096)
      if !(d.leaf n).pmpPermits m (pmpNeed acc.kind) pa here then (denied acc.va, d)
      else if here = acc.size then (.ok { acc with addr := pa, addr2 := none, pbmt := pbmt }, d)
      else
        let va2 := acc.va + BitVec.ofNat 64 here
        match d.mapPage n m acc.kind acc.hx va2 again with
        | (.fail f, d) => d.mapFailed n acc.kind va2 f
        | (.ok (pa2, pbmt2), d) =>
          if !(d.leaf n).pmpPermits m (pmpNeed acc.kind) pa2 (acc.size - here) then (denied va2, d)
          else (.ok { acc with addr := pa, addr2 := some pa2, pbmt := pbmt, pbmt2 := pbmt2 }, d)

end Sys2Proof.Machine
end

