-- ==== Sys2Proof/Machine/Vec.lean ====
section
/-!
DEFINITION. Vector arithmetic of a leaf core (R55, R58): the instructions of the V extension of the ratified RISC-V specification, but
for its loads and stores and VSETVL, with VLEN 256 and ELEN 64, over elements of 8 to 64 bits and single and double precision.
An instruction is decoded from its bits to a plan, which says what each element of its result is; one operation writes the plan.
PRESUMED, assumption 14.
-/

namespace Sys2Proof.Machine

/-! ### Elements -/

/-- The element of a width in a group of registers, by its index. -/
def vecElem (v : KMap Nat (BitVec 256)) (reg eew i : Nat) : Nat :=
  (v.find 0 (reg + i * eew / 256)).toNat / 2 ^ (i * eew % 256) % 2 ^ eew

/-- A signed element. -/
def toSigned (w n : Nat) : Int := if n < 2 ^ (w - 1) then n else (n : Int) - 2 ^ w

/-- An integer in an element. -/
def wrapTo (w : Nat) (z : Int) : Nat := (z % 2 ^ w).toNat

/-- A result: its bits, the flags of fcsr that it raises, and whether it saturated. -/
structure VecVal where
  bits : Nat
  flags : Nat := 0
  sat : Bool := false
deriving DecidableEq, Repr

/-- A floating-point result. -/
def FpRes.vec (r : FpRes) : VecVal := ⟨r.bits, r.flags, false⟩

/-! ### Fixed-point arithmetic -/

/-- Shift right by d and round by vxrm: 0 to nearest, halves up; 1 to nearest, halves to even; 2 down; 3 to odd. -/
def roundOff (vxrm : Nat) (z : Int) (d : Nat) : Int :=
  let q := z / 2 ^ d
  let r := (z % 2 ^ d).toNat
  let up : Bool := match vxrm with
    | 0 => decide (2 ^ d ≤ 2 * r)
    | 1 => decide (2 ^ d < 2 * r ∨ (2 ^ d = 2 * r ∧ q % 2 = 1))
    | 2 => false
    | _ => decide (r ≠ 0 ∧ q % 2 = 0)
  if up then q + 1 else q

/-- An integer limited to two bounds. -/
def clampTo (w : Nat) (lo hi z : Int) : VecVal :=
  if z < lo then ⟨wrapTo w lo, 0, true⟩ else if hi < z then ⟨wrapTo w hi, 0, true⟩ else ⟨wrapTo w z, 0, false⟩

/-- Saturate to an unsigned element. -/
def satU (w : Nat) (z : Int) : VecVal := clampTo w 0 (2 ^ w - 1) z
/-- Saturate to a signed element. -/
def satS (w : Nat) (z : Int) : VecVal := clampTo w (-2 ^ (w - 1)) (2 ^ (w - 1) - 1) z

/-! ### Integer operations, by funct6: a of vs2, b of vs1, the scalar or the immediate, c of vd -/

/-- Operations of OPI over one width. -/
def opiElem (f6 vxrm w a b : Nat) : Option VecVal :=
  let sa := toSigned w a
  let sb := toSigned w b
  let int (z : Int) : Option VecVal := some ⟨wrapTo w z, 0, false⟩
  match f6 with
  | 0 => int (a + b)
  | 2 => int (a - b)
  | 3 => int (b - a)
  | 4 => int (min a b : Nat)
  | 5 => int (if sa ≤ sb then sa else sb)
  | 6 => int (max a b : Nat)
  | 7 => int (if sa ≤ sb then sb else sa)
  | 9 => int (a &&& b : Nat)
  | 10 => int (a ||| b : Nat)
  | 11 => int (a ^^^ b : Nat)
  | 32 => some (satU w (a + b))
  | 33 => some (satS w (sa + sb))
  | 34 => some (satU w (a - b))
  | 35 => some (satS w (sa - sb))
  | 37 => int (a * 2 ^ (b % w) : Nat)
  | 39 => some (satS w (roundOff vxrm (sa * sb) (w - 1)))
  | 40 => int (a / 2 ^ (b % w) : Nat)
  | 41 => int (sa / 2 ^ (b % w))
  | 42 => int (roundOff vxrm a (b % w))
  | 43 => int (roundOff vxrm sa (b % w))
  | _ => none

/-- Operations of OPI that narrow: a is of twice the width. -/
def narrowElem (f6 vxrm w a b : Nat) : Option VecVal :=
  let sa := toSigned (2 * w) a
  match f6 with
  | 44 => some ⟨a / 2 ^ (b % (2 * w)) % 2 ^ w, 0, false⟩
  | 45 => some ⟨wrapTo w (sa / 2 ^ (b % (2 * w))), 0, false⟩
  | 46 => some (satU w (roundOff vxrm a (b % (2 * w))))
  | 47 => some (satS w (roundOff vxrm sa (b % (2 * w))))
  | _ => none

/-- Comparisons of OPI. -/
def compareElem (f6 w a b : Nat) : Option Bool :=
  let sa := toSigned w a
  let sb := toSigned w b
  match f6 with
  | 24 => some (a == b)
  | 25 => some (a != b)
  | 26 => some (decide (a < b))
  | 27 => some (decide (sa < sb))
  | 28 => some (decide (a ≤ b))
  | 29 => some (decide (sa ≤ sb))
  | 30 => some (decide (b < a))
  | 31 => some (decide (sb < sa))
  | _ => none

/-- Operations of OPM over one width. -/
def opmElem (f6 vxrm w a b c : Nat) : Option VecVal :=
  let sa := toSigned w a
  let sb := toSigned w b
  let int (z : Int) : Option VecVal := some ⟨wrapTo w z, 0, false⟩
  match f6 with
  | 8 => int (roundOff vxrm (a + b) 1)
  | 9 => int (roundOff vxrm (sa + sb) 1)
  | 10 => int (roundOff vxrm (a - b) 1)
  | 11 => int (roundOff vxrm (sa - sb) 1)
  | 32 => int (if b = 0 then -1 else (a / b : Nat))
  | 33 => int (if sb = 0 then -1 else sa.tdiv sb)
  | 34 => int (if b = 0 then a else (a % b : Nat))
  | 35 => int (if sb = 0 then sa else sa.tmod sb)
  | 36 => int (a * b / 2 ^ w : Nat)
  | 37 => int (a * b : Nat)
  | 38 => int (sa * b / 2 ^ w)
  | 39 => int (sa * sb / 2 ^ w)
  | 41 => int (b * c + a)
  | 43 => int (a - (b * c : Nat))
  | 45 => int (b * a + c)
  | 47 => int (c - (b * a : Nat))
  | _ => none

/-- Operations of OPM that widen: the result and c, and in the .W forms (52 to 55) a too, are of twice the width. -/
def widenElem (f6 w a b c : Nat) : Option VecVal :=
  let sa := toSigned w a
  let sb := toSigned w b
  let int (z : Int) : Option VecVal := some ⟨wrapTo (2 * w) z, 0, false⟩
  match f6 with
  | 48 => int (a + b)
  | 49 => int (sa + sb)
  | 50 => int (a - b)
  | 51 => int (sa - sb)
  | 52 => int (a + b)
  | 53 => int (a + sb)
  | 54 => int (a - b)
  | 55 => int (a - sb)
  | 56 => int (a * b)
  | 58 => int (sa * b)
  | 59 => int (sa * sb)
  | 60 => int (a * b + c)
  | 61 => int (sa * sb + c)
  | 62 => int (sa * b + c)
  | 63 => int (a * sb + c)
  | _ => none

/-- Reductions of OPM. -/
def reduceElem (f6 w acc a : Nat) : Option Nat :=
  match f6 with
  | 0 => some ((acc + a) % 2 ^ w)
  | 1 => some (acc &&& a)
  | 2 => some (acc ||| a)
  | 3 => some (acc ^^^ a)
  | 4 => some (min acc a)
  | 5 => some (if toSigned w acc ≤ toSigned w a then acc else a)
  | 6 => some (max acc a)
  | 7 => some (if toSigned w acc ≤ toSigned w a then a else acc)
  | _ => none

/-- Operations of one bit of mask registers: a of vs2, b of vs1. -/
def maskElem (f6 : Nat) (a b : Bool) : Option Bool :=
  match f6 with
  | 24 => some (a && !b)
  | 25 => some (a && b)
  | 26 => some (a || b)
  | 27 => some (a != b)
  | 28 => some (a || !b)
  | 29 => some (!(a && b))
  | 30 => some (!(a || b))
  | 31 => some (a == b)
  | _ => none

/-! ### Floating-point operations, by funct6 -/

/-- The formats of V without Zvfh: single and double precision (R55, R56). -/
def vecFmt (w : Nat) : Option FpFmt := if w = 32 then some (fpFmt false) else if w = 64 then some (fpFmt true) else none

/-- The bits of a value with the sign given. -/
def FpFmt.withSign (f : FpFmt) (a s : Nat) : VecVal := ⟨a % f.signBit + s % 2 * f.signBit, 0, false⟩

/-- Fused operations of OPF: the product of x and y with z, by the low bits of funct6. -/
def FpFmt.fused (f : FpFmt) (r : RoundMode) (k : Nat) (x y z : FpVal) : FpRes :=
  match k with
  | 0 => f.fma r x y z
  | 1 => f.fma r x.negate y z.negate
  | 2 => f.fma r x y z.negate
  | _ => f.fma r x.negate y z

/-- Operations of OPF over one width. -/
def opfElem (f : FpFmt) (r : RoundMode) (f6 a b c : Nat) : Option VecVal :=
  let x := f.decode a
  let y := f.decode b
  let z := f.decode c
  match f6 with
  | 0 => some (f.add r x y).vec
  | 2 => some (f.add r x y.negate).vec
  | 4 => some (f.pick false a b).vec
  | 6 => some (f.pick true a b).vec
  | 8 => some (f.withSign a (b / f.signBit))
  | 9 => some (f.withSign a (b / f.signBit + 1))
  | 10 => some (f.withSign a (a / f.signBit + b / f.signBit))
  | 32 => some (f.div r x y).vec
  | 33 => some (f.div r y x).vec
  | 36 => some (f.mul r x y).vec
  | 39 => some (f.add r y x.negate).vec
  | 40 | 41 | 42 | 43 => some (f.fused r (f6 - 40) z y x).vec
  | 44 | 45 | 46 | 47 => some (f.fused r (f6 - 44) y x z).vec
  | _ => none

/-- Operations of OPF that widen, from values of single precision; in the .W forms (52, 54) x is of double precision. -/
def widenFp (r : RoundMode) (f6 : Nat) (x y z : FpVal) : Option VecVal :=
  let f := fpFmt true
  match f6 with
  | 48 | 52 => some (f.add r x y).vec
  | 50 | 54 => some (f.add r x y.negate).vec
  | 56 => some (f.mul r x y).vec
  | 60 | 61 | 62 | 63 => some (f.fused r (f6 - 60) y x z).vec
  | _ => none

/-- Comparisons of OPF: NE is quiet and the inverse of EQ. -/
def compareFp (f6 : Nat) (x y : FpVal) : Option VecVal :=
  match f6 with
  | 24 => some (fpCompare .eq x y).vec
  | 25 => some (fpCompare .le x y).vec
  | 27 => some (fpCompare .lt x y).vec
  | 28 => let e := (fpCompare .eq x y).vec; some { e with bits := 1 - e.bits }
  | 29 => some (fpCompare .lt y x).vec
  | 31 => some (fpCompare .le y x).vec
  | _ => none

/-- Round to odd, for narrowing in steps. -/
def FpFmt.convertOdd (f : FpFmt) (x : FpVal) : FpRes :=
  let r := f.convert .rtz x
  if r.flags % 2 = 1 then { r with bits := r.bits ||| 1 } else r

/-- The bias of a format. -/
def FpFmt.bias (f : FpFmt) : Int := 2 ^ (f.ebits - 1) - 1

/-- The exponent field and fraction of a finite value that is not zero, a subnormal's normalised. -/
def FpFmt.fields (f : FpFmt) (b : Nat) : Int × Nat :=
  let ex := b / 2 ^ f.fbits % 2 ^ f.ebits
  let fr := b % 2 ^ f.fbits
  if ex ≠ 0 then (ex, fr) else
    let lz := f.fbits - 1 - Nat.log2 fr
    (-(lz : Int), fr * 2 ^ (lz + 1) % 2 ^ f.fbits)

/-- The estimate of a reciprocal to 7 bits (VFREC7): the table's entry is the nearest value at the middle of its interval. -/
def FpFmt.rec7 (f : FpFmt) (r : RoundMode) (b : Nat) : FpRes :=
  let x := f.decode b
  let s := if x.neg then f.signBit else 0
  match x with
  | .nan _ => f.quiet [x]
  | .inf _ => ⟨s, 0⟩
  | .num neg m _ =>
    if m = 0 then ⟨s + f.infBits, 8⟩
    else if m < 2 ^ (f.fbits - 2) then ⟨s + f.overflow r neg, 5⟩
    else
      let (ex, fr) := f.fields b
      let t := (131072 / (257 + 2 * (fr / 2 ^ (f.fbits - 7))) + 1) / 2 - 128
      let sig := t * 2 ^ (f.fbits - 7)
      let e := 2 * f.bias - 1 - ex
      if 1 ≤ e then ⟨s + e.toNat * 2 ^ f.fbits + sig, 0⟩
      else ⟨s + (2 ^ f.fbits + sig) / 2 ^ (1 - e).toNat, 0⟩

/-- The estimate of a reciprocal square root to 7 bits (VFRSQRT7). -/
def FpFmt.rsqrt7 (f : FpFmt) (b : Nat) : FpRes :=
  let x := f.decode b
  match x with
  | .nan _ => f.quiet [x]
  | .inf neg => if neg then f.invalid else ⟨0, 0⟩
  | .num neg m _ =>
    if m = 0 then ⟨(if neg then f.signBit else 0) + f.infBits, 8⟩
    else if neg then f.invalid
    else
      let (ex, fr) := f.fields b
      let k := (129 + 2 * (fr / 2 ^ (f.fbits - 6))) * (if ex % 2 = 0 then 2 else 1)
      let t := (sqrtBits 13 (33554432 / k) 0 + 1) / 2 - 128
      ⟨((3 * f.bias - 1 - ex) / 2).toNat * 2 ^ f.fbits + t * 2 ^ (f.fbits - 7), 0⟩

/-- An integer of a width as a floating-point value. -/
def FpFmt.ofInt (f : FpFmt) (r : RoundMode) (z : Int) : VecVal := (f.roundOr r false z 0).vec

/-- A floating-point value as an integer of a width. -/
def fpToElem (r : RoundMode) (w : Nat) (sgn : Bool) (x : FpVal) : VecVal :=
  let (z, flags) := if sgn then fpToInt r (-2 ^ (w - 1)) (2 ^ (w - 1) - 1) x else fpToInt r 0 (2 ^ w - 1) x
  ⟨wrapTo w z, flags, false⟩

/-! ### Instructions -/

/-- What an instruction is given: its bits, the vector registers, vtype's element width and the exponent of its LMUL, its agnostic bits,
vl, VLMAX, vstart and vxrm, the scalar registers of its rs1 field, the rounding mode of fcsr, and the word that its open results
take. -/
structure VecIn where
  bits : Nat
  v : KMap Nat (BitVec 256)
  sew : Nat
  mul : Int
  vta : Bool
  vma : Bool
  vl : Nat
  vlmax : Nat
  vstart : Nat
  vxrm : Nat
  x : Nat
  f : Word
  frm : Option RoundMode
  open_ : Nat

/-- funct6. -/
def VecIn.f6 (c : VecIn) : Nat := c.bits / 2 ^ 26 % 64
/-- vm: 1 where no mask applies. -/
def VecIn.vm (c : VecIn) : Bool := decide (c.bits / 2 ^ 25 % 2 = 1)
/-- vs2. -/
def VecIn.vs2 (c : VecIn) : Nat := c.bits / 2 ^ 20 % 32
/-- vs1, rs1 or the immediate. -/
def VecIn.vs1 (c : VecIn) : Nat := c.bits / 2 ^ 15 % 32
/-- funct3: 0 OPIVV, 1 OPFVV, 2 OPMVV, 3 OPIVI, 4 OPIVX, 5 OPFVF, 6 OPMVX. -/
def VecIn.f3 (c : VecIn) : Nat := c.bits / 2 ^ 12 % 8
/-- vd. -/
def VecIn.vd (c : VecIn) : Nat := c.bits / 2 ^ 7 % 32

/-- A bit of a mask register. -/
def VecIn.maskBit (c : VecIn) (reg i : Nat) : Bool := decide (vecElem c.v reg 1 i = 1)
/-- The element is active: no mask applies, or v0 has its bit set. -/
def VecIn.active (c : VecIn) (i : Nat) : Bool := c.vm || c.maskBit 0 i
/-- Element i of vs2 at a width. -/
def VecIn.a (c : VecIn) (w i : Nat) : Nat := vecElem c.v c.vs2 w i
/-- Element i of vd at a width, as it was. -/
def VecIn.old (c : VecIn) (w i : Nat) : Nat := vecElem c.v c.vd w i
/-- The second operand at a width: of vs1, of x[rs1], or the sign-extended immediate. -/
def VecIn.b (c : VecIn) (w i : Nat) : Nat :=
  match c.f3 with
  | 3 => wrapTo w (toSigned 5 c.vs1)
  | 4 | 6 => c.x % 2 ^ w
  | _ => vecElem c.v c.vs1 w i
/-- A shift amount, an offset or an index: its immediate is unsigned. -/
def VecIn.amount (c : VecIn) (w i : Nat) : Nat :=
  match c.f3 with
  | 3 => c.vs1
  | 4 | 6 => c.x
  | _ => vecElem c.v c.vs1 w i
/-- The second floating-point operand at a width: of vs1, or f[rs1]. -/
def VecIn.fb (c : VecIn) (w i : Nat) : Nat := if c.f3 = 5 then fpOperand (w == 64) c.f else vecElem c.v c.vs1 w i

/-- What an instruction writes to vector registers: the width and group of its elements (width 1 is a mask), the groups that it reads,
whether the result must be apart from them, the elements that come before its first, the number of elements, whether v0 masks them,
whether vstart must be 0, the vl that vstart is compared with, and each element's value. -/
structure VecPlan where
  eew : Nat
  mul : Int
  srcs : List (Nat × Nat × Int) := []
  apart : Bool := false
  first : Nat := 0
  len : Nat
  masked : Bool
  start0 : Bool := false
  evl : Nat
  val : Nat → VecVal

/-- What an instruction does: it writes a plan, an integer register, or a floating-point register. -/
inductive VecEnd where
  | group (p : VecPlan)
  | toX (v : Word)
  | toF (v : Word)

/-- The exponent of log2 of a ratio of widths: the group of elements of another width has as many elements. -/
def VecIn.mulOf (c : VecIn) (w : Nat) : Int := c.mul + Nat.log2 w - Nat.log2 c.sew

/-- The group of vs2 at a width. -/
def VecIn.src2 (c : VecIn) (w : Nat) : Nat × Nat × Int := (c.vs2, w, c.mulOf w)
/-- The group of vs1 at a width, where the second operand is a vector. -/
def VecIn.src1 (c : VecIn) (w : Nat) : List (Nat × Nat × Int) := if c.f3 ≤ 2 then [(c.vs1, w, c.mulOf w)] else []
/-- A source that is a mask register. -/
def maskSrc (reg : Nat) : Nat × Nat × Int := (reg, 1, 0)
/-- A source that is one element of a register. -/
def scalarSrc (reg w : Nat) : Nat × Nat × Int := (reg, w, 0)

/-- A plan whose elements have a width, in a group of as many elements. -/
def VecIn.plan (c : VecIn) (w : Nat) (srcs : List (Nat × Nat × Int)) (val : Nat → VecVal) : VecPlan :=
  { eew := w, mul := c.mulOf w, srcs := srcs, len := c.vl, masked := !c.vm, evl := c.vl, val := val }
/-- A plan that writes a mask register. -/
def VecIn.toMask (c : VecIn) (srcs : List (Nat × Nat × Int)) (val : Nat → VecVal) : VecPlan :=
  { eew := 1, mul := 0, srcs := srcs, len := c.vl, masked := !c.vm, evl := c.vl, val := val }
/-- A plan that writes one element of a register. -/
def VecIn.scalar (c : VecIn) (w : Nat) (srcs : List (Nat × Nat × Int)) (val : VecVal) : VecPlan :=
  { eew := w, mul := 0, srcs := srcs, len := 1, masked := false, evl := c.vl, val := fun _ => val }

/-- A bit as a result. -/
def bitVal (b : Bool) : VecVal := ⟨if b then 1 else 0, 0, false⟩

/-- Values of an operation on each element, where the operation exists. -/
def VecIn.each (f : Nat → Option VecVal) (mk : (Nat → VecVal) → VecPlan) : Option VecEnd :=
  if (f 0).isNone then none else some (.group (mk fun i => (f i).getD ⟨0, 0, false⟩))

/-- The elements below vl that are active. -/
def VecIn.actives (c : VecIn) : List Nat := (List.range c.vl).filter c.active

/-- Carries and borrows: 16 VADC, 17 VMADC, 18 VSBC, 19 VMSBC. -/
def VecIn.carry (c : VecIn) : Option VecEnd :=
  let w := c.sew
  let sub := decide (18 ≤ c.f6)
  let carry (i : Nat) : Int := if !c.vm && c.maskBit 0 i then 1 else 0
  let sum (i : Nat) : Int := if sub then c.a w i - c.b w i - carry i else c.a w i + c.b w i + carry i
  let srcs := c.src2 w :: c.src1 w ++ (if c.vm then [] else [maskSrc 0])
  if c.f6 % 2 = 0 then
    if c.vm || c.vd = 0 then none else some (.group { c.plan w srcs (fun i => ⟨wrapTo w (sum i), 0, false⟩) with masked := false })
  else some (.group { c.toMask srcs (fun i => bitVal (decide (sum i < 0 ∨ 2 ^ w ≤ sum i))) with masked := false })

/-- Slides and gathers of OPI: 12 VRGATHER, 14 VSLIDEUP or VRGATHEREI16, 15 VSLIDEDOWN. -/
def VecIn.permute (c : VecIn) : Option VecEnd :=
  let w := c.sew
  let at_ (j : Nat) : VecVal := ⟨if j < c.vlmax then c.a w j else 0, 0, false⟩
  let p (srcs : List (Nat × Nat × Int)) (val : Nat → VecVal) : VecPlan := c.plan w (c.src2 w :: srcs) val
  if c.f6 = 12 then some (.group { p (c.src1 w) (fun i => at_ (c.amount w i)) with apart := true })
  else if c.f6 = 14 then
    if c.f3 = 0 then some (.group { p (c.src1 16) (fun i => at_ (c.amount 16 i)) with apart := true })
    else some (.group { p [] (fun i => at_ (i - c.amount w i)) with apart := true, first := c.amount w 0 })
  else if c.f3 = 0 then none
  else some (.group (p [] (fun i => at_ (i + c.amount w i))))

/-- Slides by one, with the scalar at the end: 14 up, 15 down. -/
def VecIn.slide1 (c : VecIn) (s : Nat) : Option VecEnd :=
  let w := c.sew
  let p (val : Nat → VecVal) : VecPlan := c.plan w [c.src2 w] val
  if c.f6 = 14 then some (.group { p (fun i => ⟨if i = 0 then s else c.a w (i - 1), 0, false⟩) with apart := true })
  else some (.group (p (fun i => ⟨if i + 1 = c.vl then s else c.a w (i + 1), 0, false⟩)))

/-- VMERGE, VMV.V and their floating-point forms (23): element i of the second operand where the mask, if any, is set. -/
def VecIn.merge (c : VecIn) (b : Nat → Nat) (src1 : List (Nat × Nat × Int)) : Option VecEnd :=
  let w := c.sew
  if c.vm then (if c.vs2 ≠ 0 then none else some (.group (c.plan w src1 (fun i => ⟨b i, 0, false⟩))))
  else if c.vd = 0 then none
  else some (.group { c.plan w (c.src2 w :: src1 ++ [maskSrc 0])
    (fun i => ⟨if c.maskBit 0 i then b i else c.a w i, 0, false⟩) with masked := false })

/-- A sum of all active elements at twice the width (48 unsigned, 49 signed). -/
def VecIn.wideSum (c : VecIn) : Option VecEnd :=
  let w := c.sew
  let one (i : Nat) : Int := if c.f6 = 49 then toSigned w (c.a w i) else c.a w i
  let z := c.actives.foldl (fun s i => s + one i) (vecElem c.v c.vs1 (2 * w) 0 : Int)
  if 32 < w then none
  else some (.group { c.scalar (2 * w) [c.src2 w, scalarSrc c.vs1 (2 * w)] ⟨wrapTo (2 * w) z, 0, false⟩ with start0 := true })

/-- OPIVV, OPIVX and OPIVI. -/
def VecIn.opi (c : VecIn) : Option VecEnd :=
  let w := c.sew
  let srcs := c.src2 w :: c.src1 w
  let forms : List Nat := match c.f3 with
    | 0 => [0, 2, 4, 5, 6, 7, 9, 10, 11, 32, 33, 34, 35, 37, 39, 40, 41, 42, 43]
    | 4 => [0, 2, 3, 4, 5, 6, 7, 9, 10, 11, 32, 33, 34, 35, 37, 39, 40, 41, 42, 43]
    | _ => [0, 3, 9, 10, 11, 32, 33, 37, 40, 41, 42, 43]
  if c.f6 = 39 && c.f3 = 3 then
    let n := c.vs1 + 1
    if !c.vm || !(n = 1 || n = 2 || n = 4 || n = 8) then none
    else some (.group { eew := w, mul := Nat.log2 n, srcs := [(c.vs2, w, Nat.log2 n)], len := n * 256 / w, masked := false
                        evl := n * 256 / w, val := fun i => ⟨c.a w i, 0, false⟩ })
  else if forms.contains c.f6 then
    let shift := decide (c.f6 = 37 ∨ 40 ≤ c.f6)
    VecIn.each (fun i => opiElem c.f6 c.vxrm w (c.a w i) (if shift then c.amount w i % 2 ^ w else c.b w i)) (c.plan w srcs)
  else if 44 ≤ c.f6 ∧ c.f6 ≤ 47 then
    if 32 < w then none
    else VecIn.each (fun i => narrowElem c.f6 c.vxrm w (c.a (2 * w) i) (c.amount w i)) (c.plan w (c.src2 (2 * w) :: c.src1 w))
  else if 24 ≤ c.f6 ∧ c.f6 ≤ 31 then
    if (c.f3 = 0 && decide (30 ≤ c.f6)) || (c.f3 = 3 && (c.f6 = 26 || c.f6 = 27)) then none
    else VecIn.each (fun i => (compareElem c.f6 w (c.a w i) (c.b w i)).map bitVal) (c.toMask srcs)
  else if 16 ≤ c.f6 ∧ c.f6 ≤ 19 then (if c.f3 = 3 && decide (18 ≤ c.f6) then none else c.carry)
  else if c.f6 = 12 || c.f6 = 14 || c.f6 = 15 then c.permute
  else if c.f6 = 23 then c.merge (c.b w) (c.src1 w)
  else if (c.f6 = 48 || c.f6 = 49) && c.f3 = 0 then c.wideSum
  else none

/-- The unary operations on masks of OPMVV (20): 1 VMSBF, 2 VMSOF, 3 VMSIF, 16 VIOTA, 17 VID. -/
def VecIn.maskUnary (c : VecIn) : Option VecEnd :=
  let set (i : Nat) : Bool := c.active i && c.maskBit c.vs2 i
  let before (i : Nat) : Nat := ((List.range i).filter set).length
  let m (f : Nat → Bool) : Option VecEnd :=
    if !c.vm && c.vd = 0 then none
    else some (.group { c.toMask [maskSrc c.vs2] (fun i => bitVal (f i)) with start0 := true, apart := true })
  match c.vs1 with
  | 1 => m fun i => before i = 0 && !set i
  | 2 => m fun i => before i = 0 && set i
  | 3 => m fun i => before i = 0
  | 16 => some (.group { c.plan c.sew [maskSrc c.vs2] (fun i => ⟨before i % 2 ^ c.sew, 0, false⟩) with start0 := true, apart := true })
  | 17 => if c.vs2 ≠ 0 then none else some (.group (c.plan c.sew [] (fun i => ⟨i % 2 ^ c.sew, 0, false⟩)))
  | _ => none

/-- OPMVV's answers in integer registers (16): 0 VMV.X.S, 16 VCPOP, 17 VFIRST. -/
def VecIn.toScalar (c : VecIn) : Option VecEnd :=
  let set (i : Nat) : Bool := c.active i && c.maskBit c.vs2 i
  match c.vs1 with
  | 0 => if !c.vm then none else some (.toX (BitVec.ofInt 64 (toSigned c.sew (c.a c.sew 0))))
  | 16 => if c.vstart ≠ 0 then none else some (.toX (BitVec.ofNat 64 ((List.range c.vl).filter set).length))
  | 17 =>
    if c.vstart ≠ 0 then none
    else some (.toX (match (List.range c.vl).find? set with
      | some i => BitVec.ofNat 64 i
      | none => BitVec.allOnes 64))
  | _ => none

/-- VZEXT and VSEXT (18): 2 and 3 by 8, 4 and 5 by 4, 6 and 7 by 2. -/
def VecIn.extend (c : VecIn) : Option VecEnd :=
  let k := 2 ^ (4 - c.vs1 / 2)
  let w := c.sew / k
  if c.vs1 < 2 || 7 < c.vs1 || w < 8 then none
  else
    let val (i : Nat) : VecVal := ⟨if c.vs1 % 2 = 1 then wrapTo c.sew (toSigned w (c.a w i)) else c.a w i, 0, false⟩
    some (.group (c.plan c.sew [c.src2 w] val))

/-- OPMVV and OPMVX. -/
def VecIn.opm (c : VecIn) : Option VecEnd :=
  let w := c.sew
  let vv := decide (c.f3 = 2)
  let srcs := c.src2 w :: c.src1 w
  if c.f6 ≤ 7 then
    if !vv then none
    else
      let z := c.actives.foldl (fun s i => (reduceElem c.f6 w s (c.a w i)).getD s) (vecElem c.v c.vs1 w 0)
      some (.group { c.scalar w [c.src2 w, scalarSrc c.vs1 w] ⟨z, 0, false⟩ with start0 := true })
  else if c.f6 = 14 || c.f6 = 15 then (if vv then none else c.slide1 (c.x % 2 ^ w))
  else if c.f6 = 16 then
    if vv then c.toScalar
    else if !c.vm || c.vs2 ≠ 0 then none
    else some (.group (c.scalar w [] ⟨c.x % 2 ^ w, 0, false⟩))
  else if c.f6 = 18 then (if vv then c.extend else none)
  else if c.f6 = 20 then (if vv then c.maskUnary else none)
  else if c.f6 = 23 then
    if !vv || !c.vm then none
    else
      let l := (List.range c.vl).filter (c.maskBit c.vs1)
      some (.group { c.plan w [c.src2 w, maskSrc c.vs1] (fun i => ⟨c.a w (l.getD i 0), 0, false⟩) with
        len := l.length, apart := true, start0 := true })
  else if 24 ≤ c.f6 ∧ c.f6 ≤ 31 then
    if !vv || !c.vm then none
    else VecIn.each (fun i => (maskElem c.f6 (c.maskBit c.vs2 i) (c.maskBit c.vs1 i)).map bitVal) (c.toMask [maskSrc c.vs2, maskSrc c.vs1])
  else if c.f6 < 48 then VecIn.each (fun i => opmElem c.f6 c.vxrm w (c.a w i) (c.b w i) (c.old w i)) (c.plan w srcs)
  else if 32 < w || (c.f6 = 62 && vv) then none
  else
    let wa := if 52 ≤ c.f6 ∧ c.f6 ≤ 55 then 2 * w else w
    VecIn.each (fun i => widenElem c.f6 w (c.a wa i) (c.b w i) (c.old (2 * w) i)) (c.plan (2 * w) (c.src2 wa :: c.src1 w))

/-- Conversions (18), by their vs1 field: of one width (0 to 7), widening (8 to 15) and narrowing (16 to 23). -/
def VecIn.convert (c : VecIn) (r : RoundMode) : Option VecEnd :=
  let w := c.sew
  let mode := if c.vs1 % 8 = 6 ∨ c.vs1 % 8 = 7 then .rtz else r
  let wa := if 16 ≤ c.vs1 then 2 * w else w
  let wd := if 8 ≤ c.vs1 ∧ c.vs1 < 16 then 2 * w else w
  if 24 ≤ c.vs1 || 64 < wa || 64 < wd then none
  else
    let go (val : Nat → VecVal) : Option VecEnd := some (.group (c.plan wd [c.src2 wa] val))
    match c.vs1 % 8, vecFmt wa, vecFmt wd with
    | 0, some f, _ | 6, some f, _ => go fun i => fpToElem mode wd false (f.decode (c.a wa i))
    | 1, some f, _ | 7, some f, _ => go fun i => fpToElem mode wd true (f.decode (c.a wa i))
    | 2, _, some g => go fun i => g.ofInt r (c.a wa i : Nat)
    | 3, _, some g => go fun i => g.ofInt r (toSigned wa (c.a wa i))
    | 4, some f, some g => if c.vs1 < 8 then none else go fun i => (g.convert r (f.decode (c.a wa i))).vec
    | 5, some f, some g => if c.vs1 < 16 then none else go fun i => (g.convertOdd (f.decode (c.a wa i))).vec
    | _, _, _ => none

/-- Reductions of OPF, over one width (1 unordered sum, 3 ordered sum, 5 minimum, 7 maximum) or widening (49, 51). The order of an
unordered sum is the implementation's: its value is open, where some element is active. -/
def VecIn.reduceFp (c : VecIn) (r : RoundMode) (f g : FpFmt) (wd : Nat) : Option VecEnd :=
  let w := c.sew
  let b := vecElem c.v c.vs1 wd 0
  let step (s : VecVal) (i : Nat) : VecVal :=
    let t := if c.f6 = 5 then g.pick false s.bits (c.a w i) else if c.f6 = 7 then g.pick true s.bits (c.a w i)
      else g.add r (g.decode s.bits) (f.decode (c.a w i))
    ⟨t.bits, s.flags ||| t.flags, false⟩
  let unordered := c.f6 = 1 || c.f6 = 49
  let res : VecVal := if unordered && !c.actives.isEmpty then ⟨c.open_ % 2 ^ wd, c.open_ / 2 ^ wd % 32, false⟩
    else c.actives.foldl step ⟨b, 0, false⟩
  some (.group { c.scalar wd [c.src2 w, scalarSrc c.vs1 wd] res with start0 := true })

/-- OPFVV and OPFVF. A reserved rounding mode in fcsr makes every one illegal. -/
def VecIn.opf (c : VecIn) : Option VecEnd :=
  let w := c.sew
  let vv := decide (c.f3 = 1)
  let srcs := c.src2 w :: c.src1 w
  match c.frm with
  | none => none
  | some r =>
    if c.f6 = 18 then (if vv then c.convert r else none)
    else match vecFmt w with
      | none => none
      | some f =>
        let scalars : List Nat := if vv then [0, 2, 4, 6, 8, 9, 10, 32, 36] else [0, 2, 4, 6, 8, 9, 10, 32, 33, 36, 39]
        if scalars.contains c.f6 || decide (40 ≤ c.f6 ∧ c.f6 ≤ 47) then
          VecIn.each (fun i => opfElem f r c.f6 (c.a w i) (c.fb w i) (c.old w i)) (c.plan w srcs)
        else if vv && decide (c.f6 % 2 = 1 ∧ c.f6 ≤ 7) then c.reduceFp r f f w
        else if 24 ≤ c.f6 ∧ c.f6 ≤ 31 then
          if vv && decide (29 ≤ c.f6) then none
          else VecIn.each (fun i => compareFp c.f6 (f.decode (c.a w i)) (f.decode (c.fb w i))) (c.toMask srcs)
        else if c.f6 = 14 || c.f6 = 15 then (if vv then none else c.slide1 (c.fb w 0))
        else if c.f6 = 16 then
          if !c.vm then none
          else if vv then (if c.vs1 = 0 then some (.toF (fpBox (w == 64) (c.a w 0))) else none)
          else if c.vs2 = 0 then some (.group (c.scalar w [] ⟨c.fb w 0, 0, false⟩)) else none
        else if c.f6 = 19 then
          let go (op : Nat → FpRes) : Option VecEnd := some (.group (c.plan w [c.src2 w] fun i => (op (c.a w i)).vec))
          if !vv then none
          else match c.vs1 with
            | 0 => go fun a => f.sqrt r (f.decode a)
            | 4 => go f.rsqrt7
            | 5 => go (f.rec7 r)
            | 16 => go fun a => ⟨f.classOf (f.decode a), 0⟩
            | _ => none
        else if c.f6 = 23 then (if vv then none else c.merge (c.fb w) [])
        else if c.f6 < 48 || w ≠ 32 then none
        else
          let g := fpFmt true
          if c.f6 = 49 || c.f6 = 51 then (if vv then c.reduceFp r f g 64 else none)
          else
            let wide := c.f6 = 52 || c.f6 = 54
            let x (i : Nat) : FpVal := if wide then g.decode (c.a 64 i) else f.decode (c.a 32 i)
            VecIn.each (fun i => widenFp r c.f6 (x i) (f.decode (c.fb 32 i)) (g.decode (c.old 64 i)))
              (c.plan 64 (c.src2 (if wide then 64 else 32) :: c.src1 32))

/-- The instruction's effect, if it is one of V. -/
def VecIn.decode (c : VecIn) : Option VecEnd :=
  match c.f3 with
  | 0 | 3 | 4 => c.opi
  | 1 | 5 => c.opf
  | 2 | 6 => c.opm
  | _ => none

/-! ### Register groups -/

/-- The registers of a group. -/
def groupSize (mul : Int) : Nat := if 0 < mul then 2 ^ mul.toNat else 1

/-- A group exists: its multiplier is 1/8 to 8, and its first register is a multiple of its size. -/
def groupOk (reg : Nat) (mul : Int) : Bool := decide (-3 ≤ mul ∧ mul ≤ 3) && reg % groupSize mul == 0

/-- Two groups share a register. -/
def groupsMeet (r n s m : Nat) : Bool := decide (r < s + m ∧ s < r + n)

/-- A result may overlap a source: at the same width; in the lowest registers of a source of wider elements; in the highest of a source
of narrower elements that fills its registers. -/
def overlapOk (reg eew : Nat) (mul : Int) (src : Nat × Nat × Int) : Bool :=
  let n := groupSize mul
  let (s, w, k) := src
  let m := groupSize k
  if !groupsMeet reg n s m || w = eew then true
  else if eew < w then reg == s
  else decide (0 ≤ k) && s + m == reg + n

/-- No register is read at two widths. -/
def sourcesOk (l : List (Nat × Nat × Int)) : Bool :=
  l.all fun p => l.all fun q => p.2.1 == q.2.1 || !groupsMeet p.1 (groupSize p.2.2) q.1 (groupSize q.2.2)

/-- The plan is not reserved: its groups exist, and its result overlaps a source, or the mask, only as it may. -/
def VecPlan.ok (p : VecPlan) (c : VecIn) (scalar : Bool) : Bool :=
  let srcs := if p.masked then p.srcs ++ [maskSrc 0] else p.srcs
  groupOk c.vd p.mul && srcs.all (fun s => groupOk s.1 s.2.2) && sourcesOk srcs
    && (scalar || p.srcs.all fun s => if p.apart then !groupsMeet c.vd (groupSize p.mul) s.1 (groupSize s.2.2) else overlapOk c.vd p.eew p.mul s)
    && !(p.masked && p.eew != 1 && c.vd == 0) && !(p.start0 && c.vstart != 0)

/-- An element after the instruction: as it was before vstart and the first; the result in the body; what is agnostic, past vl or masked off, keeps
its value or becomes ones, which the specification leaves open, and a mask's bits past vl are open. `pick` gives what is open. -/
def VecPlan.elem (p : VecPlan) (c : VecIn) (pick : Nat → Bool) (i : Nat) : Nat :=
  let old := c.old p.eew i
  let ones := 2 ^ p.eew - 1
  if i < max c.vstart p.first then old
  else if p.len ≤ i then (if p.eew = 1 then (if pick i then 1 else 0) else if c.vta && pick i then ones else old)
  else if p.masked && !c.maskBit 0 i then (if c.vma && pick i then ones else old)
  else (p.val i).bits

/-- Register r of the result's group. -/
def VecPlan.register (p : VecPlan) (c : VecIn) (pick : Nat → Bool) (r : Nat) : BitVec 256 :=
  let n := 256 / p.eew
  BitVec.ofNat 256 ((List.range n).foldr (fun k a => a * 2 ^ p.eew + p.elem c pick (n * r + k)) 0)

/-- The elements whose operations are carried out. -/
def VecPlan.body (p : VecPlan) (c : VecIn) : List VecVal :=
  ((List.range p.len).filter fun i => decide (max c.vstart p.first ≤ i) && (!p.masked || c.maskBit 0 i)).map p.val

/-- The vector registers after a plan, the flags that it raises, and whether it saturated. With vstart at vl or past it, nothing is
written. PRESUMED, assumption 14. -/
def VecPlan.write (p : VecPlan) (c : VecIn) (pick : Nat → Bool) : KMap Nat (BitVec 256) × Nat × Bool :=
  if p.evl ≤ c.vstart then (c.v, 0, false)
  else
    ((List.range (groupSize p.mul)).foldl (fun v r => v.set natLt 0 (c.vd + r) (p.register c pick r)) c.v,
      (p.body c).foldl (fun s x => s ||| x.flags) 0, (p.body c).any (·.sat))

/-- The plan writes one element, as a reduction does, which may overlap any of its sources. -/
def VecIn.single (c : VecIn) : Bool :=
  (c.f3 = 2 && (decide (c.f6 ≤ 7) || c.f6 = 16)) || c.f3 = 0 && (c.f6 = 48 || c.f6 = 49)
    || c.f3 = 1 && ((c.f6 % 2 = 1 && decide (c.f6 ≤ 7)) || c.f6 = 49 || c.f6 = 51)

/-- What a vector instruction does; none for a reserved one. PRESUMED, assumption 14. -/
def VecIn.run (c : VecIn) : Option VecEnd :=
  match c.decode with
  | some (.group p) => if p.ok c c.single then some (.group p) else none
  | x => x

end Sys2Proof.Machine
end

