-- ==== Sys2Proof/Machine/Insn.lean ====
section
/-!
DEFINITION. The instructions of a leaf core other than memory accesses (spec/03, R55), with the machine checks they meet (R70, R71),
and the timers and interrupts of a leaf (R65, R67). Standard RISC-V behaviour is that of the ratified specifications that R55
names.
-/

namespace Sys2Proof.Machine

/-! ### Integer operations -/

/-- Sign-extend the low 32 bits. -/
def sext32 (v : Word) : Word := (v.setWidth 32).signExtend 64

/-- Leading zeros of the low w bits. -/
def leadingZeros (w : Nat) (v : Word) : Nat :=
  ((List.range w).reverse.takeWhile fun i => !v.getLsbD i).length

/-- Trailing zeros of the low w bits. -/
def trailingZeros (w : Nat) (v : Word) : Nat := ((List.range w).takeWhile fun i => !v.getLsbD i).length

/-- Bits set among the low w bits. -/
def population (w : Nat) (v : Word) : Nat := ((List.range w).filter fun i => v.getLsbD i).length

/-- The bytes of a word mapped one by one, from the position and the value. -/
def mapBytes (f : Nat → Nat) : Word := BitVec.ofNat 64 ((List.range 8).foldr (fun i a => 256 * a + f i) 0)

/-- The high 64 bits of a product. -/
def highProduct (p : Int) : Word := BitVec.ofInt 64 (p / 2 ^ 64)

/-- Signed division with the results RISC-V gives for zero and overflow. -/
def divS (w : Nat) (a b : BitVec w) : BitVec w :=
  if b = 0 then BitVec.allOnes w else BitVec.ofInt w (Int.tdiv a.toInt b.toInt)

/-- Signed remainder with the results RISC-V gives for zero and overflow. -/
def remS (w : Nat) (a b : BitVec w) : BitVec w :=
  if b = 0 then a else BitVec.ofInt w (Int.tmod a.toInt b.toInt)

/-- Unsigned division. -/
def divU (w : Nat) (a b : BitVec w) : BitVec w := if b = 0 then BitVec.allOnes w else a / b

/-- Unsigned remainder. -/
def remU (w : Nat) (a b : BitVec w) : BitVec w := if b = 0 then a else a % b

/-- The result of an integer operation (RV64I, M, Zba, Zbb, Zbs, Zicond). -/
def aluResult (op : AluOp) (a b : Word) : Word :=
  let sh := b.toNat % 64
  let sh32 := b.toNat % 32
  let a32 := a.setWidth 32
  let b32 := b.setWidth 32
  let zx := a32.setWidth 64
  let bool (c : Bool) : Word := if c then 1 else 0
  match op with
  | .add => a + b
  | .sub => a - b
  | .sll => a <<< sh
  | .slt => bool (a.slt b)
  | .sltu => bool (a.ult b)
  | .xor => a ^^^ b
  | .srl => a >>> sh
  | .sra => a.sshiftRight sh
  | .or => a ||| b
  | .and => a &&& b
  | .addw => sext32 (a + b)
  | .subw => sext32 (a - b)
  | .sllw => (a32 <<< sh32).signExtend 64
  | .srlw => (a32 >>> sh32).signExtend 64
  | .sraw => (a32.sshiftRight sh32).signExtend 64
  | .mul => a * b
  | .mulh => highProduct (a.toInt * b.toInt)
  | .mulhsu => highProduct (a.toInt * b.toNat)
  | .mulhu => highProduct (a.toNat * b.toNat)
  | .div => divS 64 a b
  | .divu => divU 64 a b
  | .rem => remS 64 a b
  | .remu => remU 64 a b
  | .mulw => sext32 (a * b)
  | .divw => (divS 32 a32 b32).signExtend 64
  | .divuw => (divU 32 a32 b32).signExtend 64
  | .remw => (remS 32 a32 b32).signExtend 64
  | .remuw => (remU 32 a32 b32).signExtend 64
  | .sh1add => (a <<< 1) + b
  | .sh2add => (a <<< 2) + b
  | .sh3add => (a <<< 3) + b
  | .addUw => zx + b
  | .sh1addUw => (zx <<< 1) + b
  | .sh2addUw => (zx <<< 2) + b
  | .sh3addUw => (zx <<< 3) + b
  | .slliUw => zx <<< sh
  | .andn => a &&& ~~~b
  | .orn => a ||| ~~~b
  | .xnor => ~~~(a ^^^ b)
  | .clz => BitVec.ofNat 64 (leadingZeros 64 a)
  | .ctz => BitVec.ofNat 64 (trailingZeros 64 a)
  | .cpop => BitVec.ofNat 64 (population 64 a)
  | .clzw => BitVec.ofNat 64 (leadingZeros 32 a)
  | .ctzw => BitVec.ofNat 64 (trailingZeros 32 a)
  | .cpopw => BitVec.ofNat 64 (population 32 a)
  | .max => if a.slt b then b else a
  | .maxu => if a.ult b then b else a
  | .min => if a.slt b then a else b
  | .minu => if a.ult b then a else b
  | .sextB => (a.setWidth 8).signExtend 64
  | .sextH => (a.setWidth 16).signExtend 64
  | .zextH => (a.setWidth 16).setWidth 64
  | .rol => a.rotateLeft sh
  | .ror => a.rotateRight sh
  | .rolw => (a32.rotateLeft sh32).signExtend 64
  | .rorw => (a32.rotateRight sh32).signExtend 64
  | .orcB => mapBytes fun i => if a.bits (8 * i + 7) (8 * i) = 0 then 0 else 255
  | .rev8 => mapBytes fun i => a.bits (63 - 8 * i) (56 - 8 * i)
  | .bclr => a &&& ~~~((1 : Word) <<< sh)
  | .bext => (a >>> sh) &&& 1
  | .binv => a ^^^ ((1 : Word) <<< sh)
  | .bset => a ||| ((1 : Word) <<< sh)
  | .czeroEqz => if b = 0 then 0 else a
  | .czeroNez => if b = 0 then a else 0

/-- A branch is taken. -/
def branchTaken (c : BranchCond) (a b : Word) : Bool :=
  match c with
  | .eq => a == b
  | .ne => a != b
  | .lt => a.slt b
  | .ge => !a.slt b
  | .ltu => a.ult b
  | .geu => !a.ult b

/-! ### Instructions -/

/-- The operand's value. -/
def operandValue (x : RegOrImm) (l : Leaf) : Word :=
  match x with
  | .reg r => l.getX r
  | .imm v => v

/-- Return from a trap (MRET, SRET): the mode, the enable and the pc that the trap saved. -/
def Leaf.mret (l : Leaf) : Leaf :=
  let st := l.csrRaw 0x300
  let m := modeOf (st.bits 12 11) (st.getLsbD 39)
  let st' := (((st.setBits 3 3 (st.bits 7 7)).setBits 7 7 1).setBits 12 11 0).setBits 39 39 0
  let st' := if m = .machine then st' else st'.setBits 17 17 0
  { l.setCsr 0x300 st' with mode := m, pc := l.csrRaw 0x341 }

/-- SRET in HS mode or in VS mode. -/
def Leaf.sret (l : Leaf) : Leaf :=
  if virtual l.mode then
    let st := l.csrRaw 0x200
    let st' := ((st.setBits 1 1 (st.bits 5 5)).setBits 5 5 1).setBits 8 8 0
    { l.setCsr 0x200 st' with mode := modeOf (st.bits 8 8) true, pc := l.csrRaw 0x241 }
  else
    let st := l.csrRaw 0x300
    let v := (l.csrRaw 0x600).getLsbD 7
    let st' := (((st.setBits 1 1 (st.bits 5 5)).setBits 5 5 1).setBits 8 8 0).setBits 17 17 0
    { (l.setCsr 0x300 st').setCsr 0x600 ((l.csrRaw 0x600).setBits 7 7 0) with
      mode := modeOf (st.bits 8 8) v, pc := l.csrRaw 0x141 }

/-- The greatest vector length of a vtype, VLEN 256 and ELEN 64 (R58); none where the type is illegal: of a fraction of a register, the
elements are at most that fraction of ELEN. PRESUMED, assumption 14. -/
def vlmax (vtype : Word) : Option Nat :=
  let sew := 8 * 2 ^ vtype.bits 5 3
  let lmul := vtype.bits 2 0
  if vtype.bits 63 8 ≠ 0 || 64 < sew || lmul = 4 || (4 < lmul && decide (64 < sew * 2 ^ (8 - lmul))) then none
  else
    let n := if lmul < 4 then 256 * 2 ^ lmul / sew else 256 / 2 ^ (8 - lmul) / sew
    if n = 0 then none else some n

/-- The exception of SRET: 2 illegal instruction, 22 virtual instruction. -/
def Leaf.sretTrap (l : Leaf) : Option Nat :=
  match l.mode with
  | .machine => none
  | .super => if (l.csrRaw 0x300).getLsbD 22 then some 2 else none
  | .vs => if (l.csrRaw 0x600).getLsbD 22 then some 22 else none
  | .user => some 2
  | .vu => some 22

/-- The exception of SFENCE.VMA. -/
def Leaf.sfenceTrap (l : Leaf) : Option Nat :=
  match l.mode with
  | .machine => none
  | .super => if (l.csrRaw 0x300).getLsbD 20 then some 2 else none
  | .vs => if (l.csrRaw 0x600).getLsbD 20 then some 22 else none
  | .user => some 2
  | .vu => some 22

/-- The exception of HFENCE.VVMA and of HFENCE.GVMA. -/
def Leaf.hfenceTrap (l : Leaf) (gStage : Bool) : Option Nat :=
  match l.mode with
  | .machine => none
  | .super => if gStage && (l.csrRaw 0x300).getLsbD 20 then some 2 else none
  | .user => some 2
  | .vs | .vu => some 22

/-- VSETVL and its forms: an unsupported type sets vill; the length is the lesser of the application's and the greatest; x0 as
source asks for the greatest, or with x0 as destination keeps the length. PRESUMED, assumption 69. -/
def Leaf.vset (l : Leaf) (rd : Nat) (avl : RegOrImm) (vtype : Word) : Leaf :=
  let l := (l.setCsr 0x008 0).dirtyV
  match vlmax vtype with
  | none => ((l.setCsr 0xC21 0x8000000000000000).setCsr 0xC20 0).setX rd 0
  | some m =>
    let want : Nat := match avl with
      | .reg 0 => if rd = 0 then (l.csrRaw 0xC20).toNat else m
      | x => (operandValue x l).toNat
    let vl := BitVec.ofNat 64 (min want m)
    ((l.setCsr 0xC21 vtype).setCsr 0xC20 vl).setX rd vl

/-- Flags accrue in fcsr. -/
def Leaf.accrue (l : Leaf) (flags : Nat) : Leaf :=
  (l.setCsr 0x003 (l.csrRaw 0x003 ||| (BitVec.ofNat 64 flags &&& 0x1F))).dirtyF

/-- The rounding mode of a floating-point operation: of its field, or of frm; none for a reserved one, which is illegal. -/
def Leaf.fpRound (l : Leaf) (op : FpOp) (rm : Nat) : Option RoundMode :=
  if fpRounds op then roundMode rm ((l.csrRaw 0x003).bits 7 5) else some .rne

/-- Write the result of a floating-point operation and accrue its flags. -/
def Leaf.setFp (l : Leaf) (op : FpOp) (rd : Nat) (res : Word × Nat) : Leaf :=
  let l := if fpToX op && res.2 == 0 then l else l.accrue res.2
  if fpToX op then l.setX rd res.1 else { l with f := l.f.set natLt 0 rd res.1 }

/-- What a vector instruction is given by a leaf, and by two words that the specification leaves open. -/
def Leaf.vecIn (l : Leaf) (bits : Nat) (o : Word × Word) : VecIn :=
  let t := l.csrRaw 0xC21
  let rs1 := bits / 2 ^ 15 % 32
  { bits := bits, v := l.v, sew := 8 * 2 ^ t.bits 5 3, mul := toSigned 3 (t.bits 2 0), vta := t.getLsbD 6, vma := t.getLsbD 7
    vl := (l.csrRaw 0xC20).toNat, vlmax := (vlmax t).getD 0, vstart := (l.csrRaw 0x008).toNat, vxrm := (l.csrRaw 0x00A).bits 1 0
    x := (l.getX rs1).toNat, f := l.f.find 0 rs1, frm := roundMode 7 ((l.csrRaw 0x003).bits 7 5)
    open_ := o.1.toNat + o.2.toNat * 2 ^ 64 }

/-- A leaf after a vector instruction: its registers, the flags and vxsat; the vector state is dirty and vstart zero. -/
def Leaf.vecEnd (l : Leaf) (c : VecIn) (pick : Nat → Bool) (e : VecEnd) : Leaf :=
  let l := (l.setCsr 0x008 0).dirtyV
  match e with
  | .toX v => l.setX c.vd v
  | .toF v => { l with f := l.f.set natLt 0 c.vd v }.dirtyF
  | .group p =>
    let (v, flags, sat) := p.write c pick
    let l := { l with v := v }
    let l := if flags = 0 then l else l.accrue flags
    if sat then l.setCsr 0x009 1 else l

/-- A vector instruction (R55): none where it is illegal, for its encoding, its vtype, or a unit that is off. What the specification
leaves open, agnostic elements and the order of an unordered sum, takes free words. PRESUMED, assumption 14. -/
def Dev.vector (d : Dev) (n : Nat) (bits : Word) : Option (Leaf × Dev) :=
  let l := d.leaf n
  let w := bits.toNat
  if l.vecOff || (l.csrRaw 0xC21).getLsbD 63 || w % 128 != 0x57 || ((w / 2 ^ 12 % 8 = 1 || w / 2 ^ 12 % 8 = 5) && l.fpOff) then none
  else
    let c := l.vecIn w (Config.freeWord d.free, Config.freeWord (d.free + 1))
    let pick (i : Nat) : Bool := (Config.freeWord (d.free + 2 + i)).getLsbD 0
    c.run.map fun e => (l.vecEnd c pick e, { d with free := d.free + 258 })

/-- The predictor was wrong about a branch or an indirect jump (event 0x0003 of R73): a free bit, since the spec does not give the
predictors. DESIGN CHOICE, assumption 81. -/
def Dev.predicted (d : Dev) (n : Nat) : Dev :=
  let (b, d) := d.freeNext
  if b.getLsbD 0 then d.modLeaf n fun l => l.countEvent 3 else d

/-- Execute an instruction that met no error and no interrupt. PRESUMED, assumption 69. -/
def Dev.execOp (d : Dev) (n : Nat) (i : LeafInsn) : Dev :=
  let l := d.leaf n
  let next := l.pc + BitVec.ofNat 64 i.len
  let illegal : Dev := d.instrTrap n 2 i.bits
  let done (l : Leaf) : Dev := d.setLeaf n (l.retire next)
  let guarded (t : Option Nat) (x : Dev) : Dev := match t with
    | some code => d.instrTrap n code i.bits
    | none => x
  match i.op with
  | .alu op rd rs1 src => done (l.setX rd (aluResult op (l.getX rs1) (operandValue src l)))
  | .lui rd imm => done (l.setX rd imm)
  | .auipc rd imm => done (l.setX rd (l.pc + imm))
  | .jal rd off => d.setLeaf n ((l.setX rd next).retire (l.pc + off))
  | .jalr rd rs1 off => (d.setLeaf n ((l.setX rd next).retire ((l.getX rs1 + off) &&& ~~~(1 : Word)))).predicted n
  | .branch c rs1 rs2 off =>
    (d.setLeaf n (l.retire (if branchTaken c (l.getX rs1) (l.getX rs2) then l.pc + off else next))).predicted n
  | .csr op rd src c =>
    let write := match op, src with
      | .rw, _ => true
      | _, .reg r => r != 0
      | _, .imm v => v != 0
    guarded (l.csrTrap c write) <|
      let c := csrAlias l.mode c
      let s := operandValue src l
      let new := match op with
        | .rw => s
        | .rs => d.csrBase n c ||| s
        | .rc => d.csrBase n c &&& ~~~s
      let d := d.setLeaf n ((l.setX rd (d.readCsr n c)).retire next)
      let d := if write then d.writeCsr n c new else d
      if !write then d
      else if [0x001, 0x002, 0x003].contains c then d.modLeaf n Leaf.dirtyF
      else if [0x008, 0x009, 0x00A, 0x00F].contains c then d.modLeaf n Leaf.dirtyV
      else d
  | .ecall =>
    d.exception n (match l.mode with
      | .machine => 11
      | .super => 9
      | .vs => 10
      | _ => 8) 0
  | .ebreak => d.exception n 3 0
  | .mret => if l.mode = .machine then d.setLeaf n (l.retire l.pc).mret else illegal
  | .sret => guarded l.sretTrap (d.setLeaf n (l.retire l.pc).sret)
  | .fence | .pause => done l
  | .sfence => guarded l.sfenceTrap (done (l.flushTlb (virtual l.mode)))
  | .hfence gStage => guarded (l.hfenceTrap gStage) (done (l.flushTlb true))
  | .fp op dbl rm rd rs1 rs2 rs3 =>
    if l.fpOff then illegal
    else match l.fpRound op rm with
      | none => illegal
      | some r => done (l.setFp op rd (fpResult op dbl r (l.f.find 0 rs1) (l.f.find 0 rs2) (l.f.find 0 rs3) (l.getX rs1)))
  | .vset rd avl vtype => if l.vecOff then illegal else done ((l.vset rd avl vtype).countEvent 0x40)
  | .vector => match d.vector n i.bits with
    | none => illegal
    | some (l, d) => d.setLeaf n ((l.countEvent 0x40).retire next)
  | .unimplemented => illegal

/-- The unit of R70 that gives an integer operation its result: the multiplier (1), the divider, which no residue covers (2), or the
ALU (0). -/
def aluUnit : AluOp → Nat
  | .mul | .mulh | .mulhsu | .mulhu | .mulw => 1
  | .div | .divu | .rem | .remu | .divw | .divuw | .remw | .remuw => 2
  | _ => 0

/-- The instruction has a result of the integer ALU: an operation, an immediate or a link, or the comparison of a branch.
DESIGN CHOICE, assumption 81. -/
def usesAlu : LeafOp → Bool
  | .alu op _ _ _ => aluUnit op == 0
  | .lui .. | .auipc .. | .jal .. | .jalr .. | .branch .. => true
  | _ => false

/-- The instruction has a result of the integer multiplier. -/
def usesMul : LeafOp → Bool
  | .alu op _ _ _ => aluUnit op == 1
  | _ => false

/-- The machine check that an error of an instruction raises: code and physical address. A residue mismatch is met only by a unit that
the instruction uses (R70); address generation serves the memory accesses. -/
def errorCheck (op : LeafOp) : LeafErr → Option (Nat × Nat)
  | .none => none
  | .alu => if usesAlu op then some (1, 0) else none
  | .mul => if usesMul op then some (2, 0) else none
  | .agu => none
  | .fetchPoison a => some (5, a / 64 * 64)
  | .walkPoison a => some (6, a)
  | .regParity => some (7, 0)

/-- LEAF_INSTRUCTION: an interrupt that is due is taken in its place; a hardware error raises its machine check and the
instruction does not retire; otherwise it executes. -/
def leafInsnEff (n : Nat) (i : LeafInsn) (err : LeafErr) (d : Dev) : Dev :=
  if !d.leafRuns n then d
  else match (d.leaf n).interrupt with
    | some (code, dest) => d.setLeaf n ((d.leaf n).trapTo dest true code 0)
    | none =>
      match errorCheck i.op err with
      | some (code, addr) => d.machineCheck n ⟨code, BitVec.ofNat 64 addr, d.mchkLoc n code⟩
      | none => d.execOp n i

/-- FENCE.I (R61): later fetches see every earlier modification. -/
def fenceIEff (n : Nat) (d : Dev) : Dev :=
  if !d.leafRuns n then d
  else
    let l := d.leaf n
    d.setLeaf n ({ l with fetchStale := false }.retire (l.pc + 4))

/-- MNRET (R71, R72): NMIE is set, the mode and the pc return, and a pending record is delivered. -/
def mnretEff (n : Nat) (d : Dev) : Dev :=
  if !d.leafRuns n then d
  else
    let l := d.leaf n
    if l.mode ≠ .machine then d.instrTrap n 2 0x70200073
    else
      let l := l.retire l.pc
      let ms := l.csrRaw 0x744
      let m := modeOf (ms.bits 12 11) (ms.getLsbD 7)
      let st := if m = .machine then l.csrRaw 0x300 else (l.csrRaw 0x300).setBits 17 17 0
      let l := { (l.setCsr 0x744 (ms.setBits 3 3 1)).setCsr 0x300 st with mode := m, pc := l.csrRaw 0x741 }
      (d.setLeaf n l).deliverPending n

/-! ### Timers and interrupts -/

/-- An IDLE leaf resumes when an interrupt that mie enables is pending, but not while its clock switch is due (R358). -/
def Dev.wakeIdle (d : Dev) (n : Nat) : Dev :=
  let s := d.leafSite n
  if d.get BGH_LEAF_STAT.PSTATE s (n % 16) = 1 && (d.leaf n).wakes && !bit (d.get BPW_CLK_SW.SW s) (n % 16) then
    d.put BGH_LEAF_STAT.PSTATE 0 s (n % 16)
  else d

/-- The mip bit of a timer: MTIP 7, STIP 5, VSTIP 6. -/
def timerBit : TimerCmp → Nat
  | .mtimecmp => 7
  | .stimecmp => 5
  | .vstimecmp => 6

/-- A timer's comparison value. -/
def Dev.compare (d : Dev) (n : Nat) : TimerCmp → Word
  | .mtimecmp => d.reg ⟨.BGH_MTIMECMP, d.leafSite n, n % 16⟩
  | .stimecmp => (d.leaf n).csrRaw 0x14D
  | .vstimecmp => (d.leaf n).csrRaw 0x24D

/-- The time that a timer compares with: of vstimecmp with htimedelta added (Sstc). -/
def Dev.timeFor (d : Dev) (n : Nat) : TimerCmp → Word
  | .vstimecmp => d.copy (d.leafSite n) + (d.leaf n).csrRaw 0x605
  | _ => d.copy (d.leafSite n)

/-- A timer drives its pending bit: stimecmp where menvcfg.STCE is set, vstimecmp where henvcfg.STCE is too. -/
def Leaf.timerOn (l : Leaf) : TimerCmp → Bool
  | .mtimecmp => true
  | .stimecmp => l.stce false
  | .vstimecmp => l.stce true

/-- Set a timer's pending bit from the comparison (R67). -/
def Dev.timerPending (d : Dev) (n : Nat) (c : TimerCmp) : Dev :=
  if !(d.leaf n).timerOn c then d
  else
    let b := timerBit c
    let p := if d.compare n c ≤ d.timeFor n c then 1 else 0
    (d.modLeaf n fun l => l.setCsr 0x344 ((l.csrRaw 0x344).setBits b b p)).wakeIdle n

/-- A write of a comparison value takes effect at once for the pending bit (R67). -/
def timerWriteEff (n : Nat) (c : TimerCmp) (v : Word) (d : Dev) : Dev :=
  if !d.leafPresent n then d
  else
    let d := match c with
      | .mtimecmp => d.setReg ⟨.BGH_MTIMECMP, d.leafSite n, n % 16⟩ v
      | .stimecmp => d.modLeaf n fun l => l.setCsr 0x14D v
      | .vstimecmp => d.modLeaf n fun l => l.setCsr 0x24D v
    d.timerPending n c

/-- Time reaches a comparison value (R67): the pending bit sets only then. -/
def timerMatchEff (n : Nat) (c : TimerCmp) (d : Dev) : Dev :=
  if d.leafPresent n && decide (d.compare n c ≤ d.timeFor n c) then d.timerPending n c else d

/-- A local counter overflows (Sscofpmf, interrupt 13 of R58): its OF bit sets and, if it was clear, the interrupt is pending. -/
def counterOverflowEff (n counter : Nat) (d : Dev) : Dev :=
  if !d.leafPresent n || counter < 3 || 31 < counter then d
  else
    let l := d.leaf n
    let ev := l.csrRaw (0x320 + counter)
    if ev.getLsbD 63 then d
    else
      let l := (l.setCsr (0x320 + counter) (ev.setBits 63 63 1)).setCsr 0x344 ((l.csrRaw 0x344).setBits 13 13 1)
      (d.setLeaf n l).wakeIdle n

end Sys2Proof.Machine
end

