-- ==== Sys2Proof/Machine/Operands.lean ====
section
/-!
DEFINITION. The operand forms of an evaluation word (spec/04): the store and its valid blocks, windows at the three lane
widths, the header fields, window references, the LUT slots, and the model-memory descriptors.
-/

namespace Sys2Proof.Machine

/-! ### The store (R75, R76) -/

/-- Insert a number in a rising list. -/
def insertNat (n : Nat) : List Nat → List Nat
  | [] => [n]
  | a :: t => if a < n then a :: insertNat n t else if a = n then a :: t else n :: a :: t

/-- A store word; a word of a block whose valid bit is 0 reads zero (R76). -/
def Lee.word (e : Lee) (w : Nat) : Word := if e.valid.contains (w / 32) then e.store.find 0 w else 0

/-- Write a store word; the first write to a block sets its valid bit and zeroes the rest of it (R76). -/
def Lee.putWord (e : Lee) (w : Nat) (v : Word) : Lee :=
  if e.valid.contains (w / 32) then { e with store := e.store.set natLt 0 w v }
  else { e with valid := insertNat (w / 32) e.valid
                store := KMap.set natLt 0 (e.store.filter fun p => p.1 / 32 != w / 32) w v }

/-- Write consecutive store words. -/
def Lee.putWords (e : Lee) (w : Nat) : List Word → Lee
  | [] => e
  | v :: t => (e.putWord w v).putWords (w + 1) t

/-! ### Windows (R81, R82) -/

/-- A word from its bits, bit 0 first. -/
def wordOfBits (f : Nat → Bool) : Word :=
  BitVec.ofNat 64 ((List.range 64).foldr (fun i a => 2 * a + if f i then 1 else 0) 0)

/-- The lane width that a LANES field gives: one, eight or sixty-four. -/
def laneWidth : Nat → Nat
  | 0 => 1
  | 1 => 8
  | _ => 64

/-- The words of the window at store index f. At every lane width, net n, lane k is bit n × L + k of the window (R82). -/
def Lee.window (e : Lee) (f width : Nat) : List Word := (List.range (4 * width)).map fun i => e.word (4 * f + i)

/-- Lane k of net n of a window. -/
def netOf (win : List Word) (width n k : Nat) : Bool :=
  (win.getD ((n * width + k) / 64) 0).getLsbD ((n * width + k) % 64)

/-- The words of a window from its nets. -/
def windowOf (width : Nat) (f : Nat → Nat → Bool) : List Word :=
  (List.range (4 * width)).map fun i => wordOfBits fun b => f ((64 * i + b) / width) ((64 * i + b) % width)

/-! ### The header (R87, R88) -/

/-- The 32 words of an evaluation word. -/
structure EvalWord where
  w : List Word
deriving DecidableEq, Repr

/-- Word i of an evaluation word. -/
def EvalWord.at (h : EvalWord) (i : Nat) : Word := h.w.getD i 0
/-- The OP field. -/
def EvalWord.op (h : EvalWord) : Nat := (h.at 0).bits 5 0
/-- The destination 32-net group. -/
def EvalWord.dgrp (h : EvalWord) : Nat := (h.at 0).bits 10 8
/-- Broadcast select of MUX. -/
def EvalWord.bcast (h : EvalWord) : Bool := (h.at 0).getLsbD 11
/-- The destination window reference. -/
def EvalWord.dst (h : EvalWord) : Nat := (h.at 0).bits 35 16
/-- The source enables. -/
def EvalWord.srcEn (h : EvalWord) : Nat := (h.at 0).bits 63 60
/-- Source window reference i. -/
def EvalWord.src (h : EvalWord) : Nat → Nat
  | 0 => (h.at 1).bits 19 0
  | 1 => (h.at 1).bits 39 20
  | 2 => (h.at 1).bits 59 40
  | _ => (h.at 2).bits 19 0
/-- The select net of MUX. -/
def EvalWord.selnet (h : EvalWord) : Nat := (h.at 2).bits 27 20
/-- The first address net of MEMRD and MEMWR. -/
def EvalWord.apos (h : EvalWord) : Nat := (h.at 2).bits 35 28
/-- The write-enable net of MEMWR. -/
def EvalWord.wepos (h : EvalWord) : Nat := (h.at 2).bits 43 36
/-- The model-memory descriptor. -/
def EvalWord.mmd (h : EvalWord) : Nat := (h.at 2).bits 46 44
/-- Every lane writes in MEMWR. -/
def EvalWord.weAlways (h : EvalWord) : Bool := (h.at 2).getLsbD 47
/-- The immediate. -/
def EvalWord.imm (h : EvalWord) : Word := h.at 3

/-- LUT slot s: the 56-bit value at bytes 32 + 7s (R90). -/
def EvalWord.slot (h : EvalWord) (s : Nat) : Nat :=
  let byte (i : Nat) : Nat := ((h.at (i / 8)).toNat >>> (8 * (i % 8))) % 256
  (List.range 7).foldr (fun i a => 256 * a + byte (32 + 7 * s + i)) 0

/-- The opcodes of R92. -/
inductive Opcode where
  | nop | eval | evalm | mux | copy | memrd | memwr | send | wait | stim | observe | commit | barrier | trap | jump | loop
  | halt
deriving DecidableEq, Repr

/-- The opcode of an OP value; none is not listed in R92. -/
def Opcode.ofCode : Nat → Option Opcode
  | 0x00 => some .nop
  | 0x01 => some .eval
  | 0x02 => some .evalm
  | 0x03 => some .mux
  | 0x04 => some .copy
  | 0x08 => some .memrd
  | 0x09 => some .memwr
  | 0x10 => some .send
  | 0x11 => some .wait
  | 0x18 => some .stim
  | 0x19 => some .observe
  | 0x20 => some .commit
  | 0x21 => some .barrier
  | 0x28 => some .trap
  | 0x30 => some .jump
  | 0x31 => some .loop
  | 0x3F => some .halt
  | _ => none

/-- The sources that an opcode reads (R88, R92). -/
def EvalWord.sources (h : EvalWord) : Opcode → List Nat
  | .eval | .evalm => (List.range 4).filter fun i => bit h.srcEn i
  | .mux => [0, 1, 2]
  | .memwr => [0, 1]
  | .copy | .memrd | .send | .observe => [0]
  | _ => []

/-- The opcode writes a destination window. -/
def Opcode.hasDst : Opcode → Bool
  | .eval | .evalm | .mux | .copy | .memrd | .stim => true
  | _ => false

/-- The bits of header word i that the opcode uses; every other bit is reserved (R88, R89, R93, R98 to R105). -/
def EvalWord.usedBits (h : EvalWord) (o : Opcode) (width : Nat) (i : Nat) : Nat :=
  let fld (hi lo : Nat) : Nat := (2 ^ (hi - lo + 1) - 1) <<< lo
  let src (k : Nat) (m : Nat) : Nat := if (h.sources o).contains k then m else 0
  match i with
  | 0 => fld 5 0 + (if o = .eval || o = .evalm then fld 10 8 + fld 63 60 else 0) + (if o = .mux then fld 11 11 else 0)
         + (if o.hasDst then fld 35 16 else 0)
  | 1 => src 0 (fld 19 0) + src 1 (fld 39 20) + src 2 (fld 59 40)
  | 2 => src 3 (fld 19 0) + (if o = .mux && h.bcast then fld 27 20 else 0)
         + (if o = .memrd || o = .memwr then fld 35 28 + fld 46 44 else 0)
         + (if o = .memwr then fld 47 47 + (if h.weAlways then 0 else fld 43 36) else 0)
  | _ => match o with
    | .evalm => fld (width - 1) 0
    | .send => fld 39 0
    | .wait => fld 12 0 + fld 39 32
    | .observe => fld 7 0 + fld 24 16
    | .trap => fld 15 0
    | .jump => fld 27 0
    | .loop => fld 29 0 + fld 62 32
    | _ => 0

/-- A reserved bit of a window reference is set, or an inbox reference has INDEX[16:12] not zero (R83, R84). -/
def refReserved (r : Nat) : Bool := r.testBit 17 || (r / 2 ^ 18 == 3 && r % 2 ^ 17 / 2 ^ 12 != 0)

/-- Header word i holds a field out of its range (R89, R93, R98 to R105). -/
def EvalWord.badField (h : EvalWord) (o : Opcode) (width : Nat) (i : Nat) : Bool :=
  let w := (h.at i).toNat
  (w &&& h.usedBits o width i) != w
  || (i == 0 && o.hasDst && refReserved h.dst)
  || (i == 1 && ((h.sources o).any fun k => k < 3 && refReserved (h.src k)))
  || (i == 2 && (h.sources o).contains 3 && refReserved (h.src 3))
  || (i == 3 && match o with
      | .send => !h.imm.getLsbD 31 && h.imm.bits 30 25 != 0
      | .wait => decide (4096 < h.imm.bits 12 0)
      | .observe =>
        h.imm.bits 7 0 == 0 || decide (h.imm.bits 24 16 < 0x100)
        || (width == 1 && (List.range 4).any fun p => h.imm.getLsbD (2 * p) != h.imm.getLsbD (2 * p + 1))
      | _ => false)

/-! ### The engine's map (R80, R84) -/

/-- The lane width of an engine. -/
def Dev.width (d : Dev) (n : Nat) : Nat := laneWidth (d.get LEE_CTL.LANES n)

/-- A region of the map: base and size in map units. -/
abbrev Region := Nat × Nat

/-- The six regions: program, planes A and B, combinational, inbox, model-memory (R80). -/
def Dev.regions (d : Dev) (n : Nat) : List Region :=
  [(d.get LEE_MAP0.PROG_BASE n, d.get LEE_MAP0.PROG_SIZE n),
   (d.get LEE_MAP1.PLANEA_BASE n, d.get LEE_MAP1.PLANE_SIZE n),
   (d.get LEE_MAP1.PLANEB_BASE n, d.get LEE_MAP1.PLANE_SIZE n),
   (d.get LEE_MAP0.COMB_BASE n, d.get LEE_MAP0.COMB_SIZE n),
   (d.get LEE_MAP2.INBOX_BASE n, d.get LEE_MAP2.INBOX_SIZE n),
   (d.get LEE_MAP2.MMEM_BASE n, d.get LEE_MAP2.MMEM_SIZE n)]

/-- Two regions share no map unit; a region of size 0 is absent. -/
def Region.apart (a b : Region) : Bool := a.2 == 0 || b.2 == 0 || decide (a.1 + a.2 ≤ b.1 ∨ b.1 + b.2 ≤ a.1)

/-- No two regions of a list share a map unit. -/
def regionsApart : List Region → Bool
  | [] => true
  | a :: t => t.all (Region.apart a) && regionsApart t

/-- The map is valid (R80). -/
def Dev.mapValid (d : Dev) (n : Nat) : Bool :=
  let rs := d.regions n
  rs.all (fun r => decide (r.1 + r.2 ≤ 2048)) && regionsApart rs
  && (if d.flag LEE_CTL.STREAM n then d.get LEE_MAP0.PROG_SIZE n == 64 else decide (1 ≤ d.get LEE_MAP0.PROG_SIZE n))

/-- A fault cause with its reference and detail (R112). -/
structure LeeFault where
  cause : Nat
  ref : Nat := 15
  info : Nat := 0
deriving DecidableEq, Repr

/-- Base and size of a space in store indices, for the current plane (R84). -/
def Dev.space (d : Dev) (n sp : Nat) : Nat × Nat :=
  let planeB := d.get LEE_CYCLE.PLANE n = 1
  let a := d.get LEE_MAP1.PLANEA_BASE n * 64
  let b := d.get LEE_MAP1.PLANEB_BASE n * 64
  let sz := d.get LEE_MAP1.PLANE_SIZE n * 64
  match sp with
  | 0 => (d.get LEE_MAP0.COMB_BASE n * 64, d.get LEE_MAP0.COMB_SIZE n * 64)
  | 1 => (if planeB then b else a, sz)
  | 2 => (if planeB then a else b, sz)
  | _ => (d.get LEE_MAP2.INBOX_BASE n * 64, d.get LEE_MAP2.INBOX_SIZE n * 64)

/-- Resolve a window reference to its first store index, or to WINDOW_ALIGN or WINDOW_RANGE (R84). -/
def Dev.resolve (d : Dev) (n ref r : Nat) : Except LeeFault Nat :=
  let width := d.width n
  let sp := r / 2 ^ 18
  let (base, size) := d.space n sp
  let off := if sp = 3 then r % 2 ^ 12 * width else r % 2 ^ 17
  if off % width ≠ 0 then .error ⟨0x03, ref, r⟩
  else if size < off + width then .error ⟨0x04, ref, r⟩
  else .ok (base + off)

/-- The first store index of a reference that resolves. -/
def Dev.index (d : Dev) (n r : Nat) : Nat :=
  match d.resolve n 15 r with
  | .ok f => f
  | .error _ => 0

/-- The window that a source names. -/
def Dev.srcWindow (d : Dev) (n : Nat) (h : EvalWord) (k : Nat) : List Word :=
  (d.lee n).window (d.index n (h.src k)) (d.width n)

/-! ### Model memories (R95, R96) -/

/-- A model-memory descriptor. -/
structure Descriptor where
  valid : Bool
  dram : Bool
  aw : Nat
  depth : Nat
  base : Nat
deriving DecidableEq, Repr

/-- Descriptor i of an engine. -/
def Dev.descriptor (d : Dev) (n i : Nat) : Descriptor :=
  ⟨d.flag LEE_MMD_CFG.VALID n i, d.flag LEE_MMD_CFG.LOC n i, d.get LEE_MMD_CFG.AW n i, d.get LEE_MMD_CFG.DEPTH n i,
   d.get LEE_MMD_BASE.BASE n i⟩

/-- A descriptor is usable (R95). -/
def Dev.usable (d : Dev) (n i : Nat) : Bool :=
  let m := d.descriptor n i
  let width := d.width n
  m.valid && decide (1 ≤ m.aw ∧ m.aw ≤ 24 ∧ 1 ≤ m.depth)
  && (if m.dram then
        m.base % 4096 == 0 && mainMemory m.base && rangeOf m.base == rangeOf (m.base + m.depth * width * 64 - 1)
      else
        m.base / 2 ^ 17 == 0 && decide (m.depth * width ≤ 2048)
        && decide (m.base + m.depth * width ≤ d.get LEE_MAP2.MMEM_SIZE n * 64))

/-- The row address of lane k: bit i is lane k of net APOS + i of the address window (R96). -/
def rowAddress (win : List Word) (width apos aw k : Nat) : Nat :=
  (List.range aw).foldr (fun i a => 2 * a + if netOf win width (apos + i) k then 1 else 0) 0

end Sys2Proof.Machine
end

