-- ==== Sys2Proof/Machine/SpanBase.lean ====
section
/-!
DEFINITION. The sending side of the span ports (spec/09, R215, R216, R230 to R232): which port leads to a package, what a packet takes of
credits and of the replay buffer, and what waits for them.
-/

namespace Sys2Proof.Machine

/-- The port is present and enabled by the owner part. -/
def Dev.spanEnabled (d : Dev) (c : Nat) : Bool := decide (c < 4) && bit d.spanMask c && d.flag SPN_CTL.EN c

/-- The port is up. -/
def Dev.spanUp (d : Dev) (c : Nat) : Bool := d.spanEnabled c && d.get SPN_STAT.STATE c == 2

/-- The crossing of the port is broken: it discards what is offered to it and accepts nothing (R207). -/
def Dev.spanBroken (d : Dev) (c : Nat) : Bool := d.broken (.trunk (0x40 + c))

/-- The port is up and what arrives on it is heard. -/
def Dev.spanHears (d : Dev) (c : Nat) : Bool := d.spanUp c && !d.spanBroken c

/-- The state of a port beside its registers. -/
def Dev.span (d : Dev) (c : Nat) : SpanSide := d.spans.find {} c

/-- Change it. -/
def Dev.modSpan (d : Dev) (c : Nat) (f : SpanSide → SpanSide) : Dev := { d with spans := d.spans.set natLt {} c (f (d.span c)) }

/-- The port of the valid route to a package, when it is up (R232). -/
def Dev.spanTo (d : Dev) (pkg : Nat) : Option Nat :=
  let port := d.get SPN_ROUTE.PORT 0 pkg
  if d.flag SPN_ROUTE.VALID 0 pkg && d.get SPN_STAT.STATE port == 2 then some port else none

/-- Credits that a receiver grants by class (R231). -/
def spanCredits : KMap Nat Nat := [(0, 8), (1, 8), (2, 16), (3, 1024), (4, 512)]

/-- The port, the class and the number of flits of a packet of the span protocol: a header of 16 bytes and a body, over payloads of 116
bytes (R229, R231, R326); none for the flits of link management and for packets of the package. -/
def spanShape : Packet → Option (Nat × Nat × Nat)
  | .tsyncReq c | .tsyncResp c _ _ | .ahead c _ => some (c, 1, 1)
  | .token c _ _ => some (c, 2, 1)
  | .spanWindow c w => some (c, 3, (16 + 32 * laneWidth w.lanes + 115) / 116)
  | .spanAck c .. => some (c, 3, 1)
  | .rcopy c _ | .rcopyAck c .. => some (c, 4, 1)
  | _ => none

/-- A packet leaves through a span port: its flits take credits of its class and places of the replay buffer of 2,048 (R215, R216,
R230), or it waits for them behind those of its class. A broken crossing discards it (R207). DESIGN CHOICE, assumption 30. -/
def Dev.emitSpan (d : Dev) (p : Packet) : Dev :=
  match spanShape p with
  | none => d.emit p
  | some (c, cls, n) =>
    let s := d.span c
    let waits := s.waiting.any fun q => (spanShape q).any fun x => x.2.1 == cls
    if d.spanBroken c then d
    else if waits || s.credits.find 0 cls < n || 2048 < s.replay.length + n then
      d.modSpan c fun s => { s with waiting := s.waiting ++ [p] }
    else
      (d.modSpan c fun s =>
        { s with credits := s.credits.set natLt 0 cls (s.credits.find 0 cls - n)
                 replay := s.replay ++ (List.range n).map fun i => ((s.next + i) % 4096, p)
                 next := (s.next + n) % 4096 }).emit p

/-- Credits or places have come back: the packets that wait at a port leave in order as far as they can. -/
def Dev.releaseSpan (d : Dev) (c : Nat) : Dev :=
  (d.span c).waiting.foldl (fun d p => d.emitSpan p) (d.modSpan c fun s => { s with waiting := [] })

/-- A packet of this package for another one leaves by its route, or is discarded and counted where no route is valid or the port is
down (R232, R237). -/
def Dev.sendSpan (d : Dev) (pkg : Nat) (p : Nat → Packet) : Dev :=
  match d.spanTo pkg with
  | some port => d.emitSpan (p port)
  | none => d.bump SPN_CNT.TTL_DROP 1 (d.get SPN_ROUTE.PORT 0 pkg)

/-- A routed packet for another package (R232): its TTL is lowered, and it leaves by this package's route or is discarded and counted.
`send` sends it through a port with its new TTL. -/
def Dev.spanForward (d : Dev) (arrival dpkg ttl : Nat) (send : Nat → Nat → Packet) : Dev :=
  match d.spanTo dpkg with
  | some port => if ttl ≤ 1 then d.bump SPN_CNT.TTL_DROP 1 arrival else d.emitSpan (send port (ttl - 1))
  | none =>
    let port := if d.flag SPN_ROUTE.VALID 0 dpkg then d.get SPN_ROUTE.PORT 0 dpkg else arrival
    d.bump SPN_CNT.TTL_DROP 1 port

end Sys2Proof.Machine
end

