-- ==== Sys2Proof/Machine/Group.lean ====
section
/-!
DEFINITION. Model groups and their barriers (spec/05, R115 to R130): the group commands, the counting of arrivals and tokens,
completion, and broken groups. What a group does to its members' engines is given to it by the engine's own file.
-/

namespace Sys2Proof.Machine

/-- Logical leaf n is a member of group g. -/
def Dev.isMember (d : Dev) (g n : Nat) : Bool := decide (n < 384) && bit (d.get FAB_MG_MEM.MEMBERS 0 (6 * g + n / 64)) (n % 64)

/-- The members of a group. -/
def Dev.members (d : Dev) (g : Nat) : List Nat := (List.range 384).filter (d.isMember g)

/-- The state of a group: 0 FREE, 1 RESERVED, 2 ENABLED. -/
def Dev.groupState (d : Dev) (g : Nat) : Nat := d.get FAB_MG_CTL.STATE 0 g

/-- The span ports of a group's span mask. -/
def Dev.groupPorts (d : Dev) (g : Nat) : List Nat := (List.range 4).filter fun p => bit (d.get FAB_MG_CTL.SPAN 0 g) p

/-- Every local member has arrived in the current generation. -/
def Dev.groupLocal (d : Dev) (g : Nat) : Bool := (d.group g).arrived.length == (d.members g).length

/-- A token of the current generation is held from a port. -/
def Dev.token (d : Dev) (g p : Nat) : Bool := bit (d.get FAB_MG_STAT.TOKENS 0 g) p

/-- A token travels to the neighbour package: (g, GEN[7:0]) on a port. -/
def Dev.sendToken (d : Dev) (g p : Nat) : Dev :=
  let x := d.group g
  (d.emitSpan (.token p g (d.get FAB_MG_STAT.GEN 0 g % 256))).setGroup g { x with sent := x.sent ++ [p] }

/-- Send the tokens that are due, and complete the barrier when every member and every port has arrived (R128). -/
def Dev.groupProgress (d : Dev) (g : Nat) : Dev :=
  let ports := d.groupPorts g
  let d := ports.foldl (fun d p =>
    if d.groupLocal g && !(d.group g).sent.contains p && ports.all (fun q => q == p || d.token g q) then d.sendToken g p
    else d) d
  if d.groupLocal g && ports.all (d.token g) && !(d.members g).isEmpty then
    let x := d.group g
    let d := (((d.put FAB_MG_STAT.GEN (d.get FAB_MG_STAT.GEN 0 g + 1) 0 g).put FAB_MG_STAT.ARRIVED 0 0 g).put
      FAB_MG_STAT.TOKENS (x.held.foldl (fun a p => a ||| (1 <<< p)) 0) 0 g).put FAB_MG_LAST.RING d.ring.toNat 0 g
    let d := d.setGroup g {}
    (d.members g).foldl (fun d n => d.emit (.barrierNotify n)) d
  else d

/-- A member arrives (R128). -/
def Dev.groupArrive (d : Dev) (g n : Nat) : Dev :=
  let x := d.group g
  let d := d.setGroup g { x with arrived := x.arrived ++ [n], first := some (x.first.getD d.ring) }
  (d.put FAB_MG_STAT.ARRIVED (d.get FAB_MG_STAT.ARRIVED 0 g + 1) 0 g).groupProgress g

/-- ENABLE g is refused with INVALID (R116). -/
def Dev.groupInvalid (d : Dev) (g : Nat) : Bool :=
  (d.members g).isEmpty
  || (d.members g).any (fun n => !d.leafPresent n)
  || (List.range 16).any (fun h => h != g && d.groupState h == 2 && (d.members g).any (d.isMember h))
  || d.get FAB_MG_CTL.LANES 0 g == 3
  || (d.groupPorts g).any (fun p => !(bit d.spanMask p && d.flag SPN_CTL.EN p))

/-- A member engine runs or is trapped (R117). -/
def Dev.groupBusy (d : Dev) (g : Nat) : Bool :=
  (d.members g).any fun n => d.flag LEE_STAT.RUN n || d.flag LEE_STAT.TRAPPED n

/-- The answer of a group command (R115): 0 OK, 1 NO_GROUP, 2 BUSY, 3 INVALID, 4 NOT_RESERVED, 5 NOT_ENABLED. -/
def Dev.groupAnswer (d : Dev) (g status : Nat) : Dev :=
  (d.put FAB_MG_RESULT.GROUP g).put FAB_MG_RESULT.STATUS status

/-- The lowest FREE group. -/
def Dev.freeGroup (d : Dev) : Option Nat :=
  (List.range d.groupsHere).find? fun g => d.groupState g == 0

/-- ALLOC (R115). -/
def mgAllocEff (d : Dev) : Dev :=
  match d.freeGroup with
  | some g => (d.put FAB_MG_CTL.STATE 1 0 g).groupAnswer g 0
  | none => d.groupAnswer 0 1

/-- The generation, arrivals and tokens of a group and every member's LEE_BAR become zero, and the members' GROUP becomes
`mark` (R117). -/
def Dev.groupReset (d : Dev) (g mark : Nat) : Dev :=
  let d := (((d.put FAB_MG_STAT.GEN 0 0 g).put FAB_MG_STAT.ARRIVED 0 0 g).put FAB_MG_STAT.TOKENS 0 0 g).setGroup g {}
  (d.members g).foldl (fun d n => ((d.put LEE_STAT.GROUP mark n).put LEE_BAR.GEN 0 n).put LEE_BAR.ARR 0 n) d

/-- ENABLE g (R115 to R117). -/
def mgEnableEff (g : Nat) (d : Dev) : Dev :=
  if 16 ≤ g then d.groupAnswer g 3
  else if d.groupState g ≠ 1 then d.groupAnswer g 4
  else if d.groupInvalid g then d.groupAnswer g 3
  else if d.groupBusy g then d.groupAnswer g 2
  else ((d.put FAB_MG_CTL.STATE 2 0 g).groupReset g g).groupAnswer g 0

/-- DISABLE g (R115, R117): BROKEN and SEQ_ERR clear with it. -/
def mgDisableEff (g : Nat) (d : Dev) : Dev :=
  if 16 ≤ g then d.groupAnswer g 3
  else if d.groupState g ≠ 2 then d.groupAnswer g 5
  else if d.groupBusy g then d.groupAnswer g 2
  else
    let d := (d.put FAB_MG_CTL.STATE 1 0 g).groupReset g 0xFF
    ((d.put FAB_MG_STAT.BROKEN 0 0 g).put FAB_MG_STAT.SEQ_ERR 0 0 g).groupAnswer g 0

/-- FREE g (R115). -/
def mgFreeEff (g : Nat) (d : Dev) : Dev :=
  if 16 ≤ g then d.groupAnswer g 3
  else if d.groupState g ≠ 1 then d.groupAnswer g 4
  else
    let d := ((d.put FAB_MG_CTL.STATE 0 0 g).put FAB_MG_CTL.LANES 0 0 g).put FAB_MG_CTL.SPAN 0 0 g
    ((List.range 6).foldl (fun d k => d.put FAB_MG_MEM.MEMBERS 0 0 (6 * g + k)) d).groupAnswer g 0

/-- A barrier not complete 2^WDOG ticks after its first arrival sets WDOG_EV and raises its event, once in a generation (R130). -/
def barrierWatchdogEff (g : Nat) (d : Dev) : Dev :=
  let x := d.group g
  match x.first with
  | none => d
  | some t =>
    let k := d.get FAB_MG_CTL.WDOG 0 g
    if k = 0 || d.groupState g ≠ 2 || (d.ring - t).toNat < 2 ^ k || x.expired then d
    else ((d.setGroup g { x with expired := true }).put FAB_MG_STAT.WDOG_EV 1 0 g).raise (10 + g)

end Sys2Proof.Machine
end

