-- ==== Sys2Proof/Machine/Protect.lean ====
section
/-!
DEFINITION. Array protection (spec/14, R331 to R341): the correctable-error logs, the remap tables, automatic remap, and the
store test.
-/

namespace Sys2Proof.Machine

/-- A log of R336 with the remap table beside it (none for the core arrays): the registers, the block unit, the first index
and the number of entries, the control register, and the event sources of an error and of the table. -/
structure LogTable where
  loc : RegName
  info : RegName
  remap : Option RegName
  u : Nat
  first : Nat
  size : Nat
  ctl : RegName
  source : Nat
  remapSource : Nat
  refusedBit : Nat

/-- The log and remap table of the evaluation store of the leaf with index j at a site. -/
def storeTable (s j : Nat) : LogTable :=
  ⟨.PRT_SLOG_LOC, .PRT_SLOG_INFO, some .PRT_SREMAP, s, 8 * j, 8, .PRT_CTL, siteSource s j, siteSource s 22, 16⟩
/-- The log and remap table of a bough's L3. -/
def l3Table (s : Nat) : LogTable :=
  ⟨.PRT_L3LOG_LOC, .PRT_L3LOG_INFO, some .PRT_L3REMAP, s, 0, 16, .PRT_CTL, siteSource s 17, siteSource s 22, 17⟩
/-- The log of a bough's L1s and L2s, which have no spares. -/
def coreTable (s : Nat) : LogTable :=
  ⟨.PRT_CLOG_LOC, .PRT_CLOG_INFO, none, s, 0, 16, .PRT_CTL, siteSource s 17, siteSource s 22, 17⟩
/-- The log and remap table of a directory quadrant. -/
def dirTable (q : Nat) : LogTable :=
  ⟨.DIR_CE_LOG_LOC, .DIR_CE_LOG_INFO, some .DIR_REMAP, q, 0, 16, .DIR_CE_CTL, 6 + q, 6 + q, 16⟩

/-- A field of the log's INFO word. -/
def LogTable.fInfo (t : LogTable) (hi lo : Nat) : Fld := ⟨t.info, hi, lo⟩

/-- The table that a command names. -/
def tableOf : RemapTable → LogTable
  | .store s j => storeTable s j
  | .l3 s => l3Table s
  | .dir q => dirTable q

/-- Entry e of the log names the place. -/
def LogTable.names (t : LogTable) (d : Dev) (loc : Word) (e : Nat) : Bool :=
  d.flag (t.fInfo 63 63) t.u (t.first + e) && d.reg ⟨t.loc, t.u, t.first + e⟩ == loc

/-- A remap entry in force names the place: its array number and word are those of the location code. -/
def remapNames (w loc : Word) : Bool :=
  w.bits 63 63 == 1 && w.bits 41 32 == loc.bits 41 32 && w.bits 31 0 == loc.bits 31 0

/-- The remap entry that holds a place. -/
def LogTable.remapOf (t : LogTable) (d : Dev) (loc : Word) : Option Nat :=
  match t.remap with
  | none => none
  | some r => (List.range t.size).find? fun e => remapNames (d.reg ⟨r, t.u, t.first + e⟩) loc

/-- An error at a remapped place is an error of its spare: SCOUNT rises, and at 4 the entry is FAILED (R338). -/
def LogTable.spareError (t : LogTable) (d : Dev) (loc : Word) : Dev :=
  match t.remap, t.remapOf d loc with
  | some r, some e =>
    let d := d.bump ⟨r, 44, 42⟩ 1 t.u (t.first + e)
    if d.get ⟨r, 44, 42⟩ t.u (t.first + e) = 4 then
      (d.put ⟨r, 59, 59⟩ 1 t.u (t.first + e)).raiseSevere t.remapSource { loc := loc }
    else d
  | _, _ => d

/-- Automatic remap of a place whose log entry reached COUNT 4 (R338). -/
def LogTable.autoRemap (t : LogTable) (d : Dev) (loc : Word) (e : Nat) : Dev :=
  match t.remap with
  | none => d
  | some r =>
    match (List.range t.size).find? fun i => d.get ⟨r, 63, 63⟩ t.u (t.first + i) == 0 with
    | none => d.raiseSevere t.remapSource { loc := loc }
    | some i =>
      let w := BitVec.ofNat 64 ((1 <<< 63) + (1 <<< 62) + (1 <<< 60) + (loc.bits 41 32 <<< 32) + loc.bits 31 0)
      ((d.setReg ⟨r, t.u, t.first + i⟩ w).put (t.fInfo 62 62) 1 t.u (t.first + e)).raise t.source { loc := loc }

/-- The ring count the block of a table reads: the die's copy for a bough, the master for the trunk. -/
def LogTable.ringLow (t : LogTable) (d : Dev) : Nat :=
  if t.ctl = RegName.DIR_CE_CTL then d.ringLow else (d.copy t.u).toNat % 2 ^ 32

/-- Log an error of an array at a place (R334, R336, R338) and raise the source's event. -/
def LogTable.log (t : LogTable) (d : Dev) (loc : Word) (ue : Bool) (info : EvInfo := {}) : Dev :=
  let remapped := (t.remapOf d loc).isSome
  let d := t.spareError d loc
  let d :=
    match (List.range t.size).find? (t.names d loc) with
    | some e =>
      let d := d.bump (t.fInfo 47 32) 1 t.u (t.first + e)
      let d := if ue then d.put (t.fInfo 61 61) 1 t.u (t.first + e) else d
      if d.get (t.fInfo 47 32) t.u (t.first + e) = 4 && d.get (t.fInfo 61 61) t.u (t.first + e) = 0
          && !remapped && d.get ⟨t.ctl, 0, 0⟩ t.u = 1 then t.autoRemap d loc e
      else d
    | none =>
      match (List.range t.size).find? fun e => d.get (t.fInfo 63 63) t.u (t.first + e) == 0 with
      | some e =>
        let w := BitVec.ofNat 64 ((1 <<< 63) + (if ue then 1 <<< 61 else 0) + (1 <<< 32) + t.ringLow d)
        (d.setReg ⟨t.loc, t.u, t.first + e⟩ loc).setReg ⟨t.info, t.u, t.first + e⟩ w
      | none => if t.ctl = RegName.PRT_CTL then d.bump PRT_CE_CNT.OVF 1 t.u else d
  d.raise t.source { info with loc := loc }

/-- Count an error of a store, an L3 or a core array of a bough (PRT_CE_CNT). -/
def Dev.countArrayError (d : Dev) (f : Fld) (s : Nat) : Dev := d.bump f 1 s

/-- A store error of a leaf at a store word: counted, logged under the code of the leaf, and raised (R334, R336). -/
def Dev.storeError (d : Dev) (n word : Nat) (ue : Bool) : Dev :=
  let s := d.leafSite n
  let j := n % 16
  (storeTable s j).log (d.countArrayError PRT_CE_CNT.STORE s) (d.leafLoc n (some (10 + 5 * j)) (some word)) ue

/-- A place that a remap entry may name (R333, R337). -/
def placeExists (t : RemapTable) (array word : Nat) : Bool :=
  match t with
  | .store _ j => array == 10 + 5 * j && decide (word < 2 ^ 19)
  | .l3 _ => decide (200 ≤ array ∧ array < 216) && array % 2 == 0 && word % 8 == 0 && decide (word < 2048 * 16 * 8)
  | .dir q => array == 2 + q && decide (word < 2 ^ 21)

/-- A write of a remap entry (R337). A write with V = 1 redirects the place, or is refused; a write with V = 0 undoes the
remap and leaves MACRO as it was. For an L3 the named line is written back if dirty and invalidated: `evict` says how. -/
def remapWrite (evict : Nat → Nat → Nat → Dev → Dev) (t : RemapTable) (entry : Nat) (value : Word) (d : Dev) : Dev :=
  let lt := tableOf t
  match lt.remap with
  | none => d
  | some r =>
    if lt.size ≤ entry then d
    else
      let k := lt.first + entry
      let refuse (d : Dev) : Dev := d.put ⟨lt.ctl, lt.refusedBit, lt.refusedBit⟩ 1 lt.u
      let array := value.bits 41 32
      let word := value.bits 31 0
      let old := d.reg ⟨r, lt.u, k⟩
      let invalidate (a w : Nat) (d : Dev) : Dev :=
        match t with
        | .l3 s => evict s a w d
        | _ => d
      if value.bits 63 63 = 1 then
        if old.bits 63 63 = 1 || !placeExists t array word
            || (List.range lt.size).any (fun e => remapNames (d.reg ⟨r, lt.u, lt.first + e⟩) value) then refuse d
        else
          (invalidate array word d).setReg ⟨r, lt.u, k⟩
            (BitVec.ofNat 64 ((1 <<< 63) + (1 <<< 60) + (array <<< 32) + word))
      else
        let d := if old.bits 63 63 = 1 then invalidate (old.bits 41 32) (old.bits 31 0) d else d
        d.setReg ⟨r, lt.u, k⟩ (BitVec.ofNat 64 ((old.bits 41 32 <<< 32) + word))

end Sys2Proof.Machine
end

