-- ==== Sys2Proof/Machine/Lee.lean ====
section
/-!
DEFINITION. The evaluation engine's shared operations (spec/04, spec/05): faults, stops and starts, the stimulus prefetch, the
pages of streamed mode, exchange messages and acknowledgements, and the issue of a word with its checks.
-/

namespace Sys2Proof.Machine

/-- Change the engine of a leaf. -/
def Dev.modLee (d : Dev) (n : Nat) (f : Lee → Lee) : Dev := d.setLee n (f (d.lee n))

/-- The leaf has an engine: its bough is active and the variant has engines. -/
def Dev.leePresent (d : Dev) (n : Nat) : Bool := d.leafPresent n && d.hasLee

/-- Why issue waits (LEE_STAT.BLOCK). -/
def Dev.block (d : Dev) (n why : Nat) : Dev := d.put LEE_STAT.BLOCK why n

/-- Clear the five state bits of LEE_STAT. -/
def Dev.leeIdle (d : Dev) (n : Nat) : Dev :=
  ((((d.put LEE_STAT.RUN 0 n).put LEE_STAT.STOPPED 0 n).put LEE_STAT.HALTED 0 n).put LEE_STAT.TRAPPED 0 n).put
    LEE_STAT.FAULTED 0 n

/-- Enter a state of LEE_STAT: its bit is the one set. DEDUCED, assumption 41. -/
def Dev.leeEnter (d : Dev) (n : Nat) (f : Fld) : Dev := (((d.leeIdle n).put f 1 n).block n 0)

/-- Set a bit of LEE_IRQ_STAT: 0 TRAP, 1 HALT, 2 FAULT, 3 STOP. -/
def Dev.leeIrq (d : Dev) (n b : Nat) : Dev := d.setIrq ⟨.LEE_IRQ_STAT, 3, 0⟩ b LEE_IRQ.TARGET n

/-- The engine has no DRAM-placed MEMRD under way, after which a word could yet have to be undone (R111). -/
def Lee.settled (e : Lee) : Bool := e.memrds.isEmpty

/-- The STOPPED transition that follows a state reached while EN = 0 (R114, R142); it sets no STOP cause. -/
def Dev.stopAfter (d : Dev) (n : Nat) : Dev :=
  let d := d.modLee n fun e => { e with stopping := false }
  if d.flag LEE_CTL.EN n then d else d.leeEnter n LEE_STAT.STOPPED

/-- Fault the engine at the word at pc (R111). -/
def Dev.leeFault (d : Dev) (n pc : Nat) (f : LeeFault) : Dev :=
  let d := d.modLee n fun e => { e with drain := .none, pipe := [] }
  let d := (d.leeEnter n LEE_STAT.FAULTED).put LEE_PC.PC pc n
  let d := (((d.put LEE_FAULT.VALID 1 n).put LEE_FAULT.CAUSE f.cause n).put LEE_FAULT.REF f.ref n).put LEE_FAULT.PC pc n
  let d := d.put LEE_FAULT_INFO.INFO f.info n
  ((d.leeIrq n 2).raise (d.leafSource n) { mkind := 2, mid := n }).stopAfter n

/-- Fault the engine before its next word, once no earlier word can fault any more: until then the fault waits (R111, R423).
DESIGN CHOICE, assumption 71. -/
def Dev.faultNow (d : Dev) (n pc : Nat) (f : LeeFault) : Dev := if (d.lee n).settled then d.leeFault n pc f else d

/-- The fault of R126, by priority. -/
def Dev.xchFault (d : Dev) (n : Nat) : Option LeeFault :=
  let e := d.lee n
  if d.flag LEE_XCH_STAT.DROP_ERR n then some ⟨0x23, 15, e.dropInfo.getD 0⟩
  else if d.flag LEE_XCH_STAT.STALE_ERR n then some ⟨0x21, 15, e.staleInfo⟩
  else if d.flag LEE_XCH_STAT.OVF_ERR n then some ⟨0x22, 15, e.ovfInfo⟩
  else none

/-- The fault of a member of a broken group (R128, R138). -/
def Dev.groupFault (d : Dev) (g : Nat) : Option LeeFault :=
  if d.flag FAB_MG_STAT.SEQ_ERR 0 g then some ⟨0x24, 15, g⟩
  else if d.flag FAB_MG_STAT.BROKEN 0 g then some ⟨0x25, 15, g⟩ else none

/-- A BARRIER, TRAP or HALT that waits faults as soon as an exchange error is set (R126), and a BARRIER when its group breaks. -/
def Dev.drainCheck (d : Dev) (n : Nat) : Dev :=
  let e := d.lee n
  if e.drain = .none || !d.flag LEE_STAT.RUN n then d
  else match (d.xchFault n).orElse fun _ => if e.drain = .barrier then d.groupFault (d.get LEE_STAT.GROUP n) else none with
    | some f => d.faultNow n (d.get LEE_PC.PC n) f
    | none => d

/-- The limit of the program counter: the words of the program region, or 2^28 in streamed mode (R106, R131). -/
def Dev.pcLimit (d : Dev) (n : Nat) : Nat :=
  if d.flag LEE_CTL.STREAM n then 2 ^ 28 else 8 * d.get LEE_MAP0.PROG_SIZE n

/-! ### Stimulus and pages -/

/-- The bytes of a stimulus entry (R100). -/
def Dev.entryBytes (d : Dev) (n : Nat) : Nat := max (32 * d.width n) 64

/-- The address of stimulus entry c. -/
def Dev.entryAddr (d : Dev) (n c : Nat) : Nat :=
  d.get LEE_STIM_BASE.ADDR n * 4096 + c % 2 ^ d.get LEE_STIM_CTL.LOG2N n * d.entryBytes n

/-- Entries the producer has made available and STIM has not consumed. -/
def Dev.stimAvail (d : Dev) (n : Nat) : Nat :=
  (d.get LEE_STIM_TAIL.TAIL n + 2 ^ 32 - d.get LEE_STIM_CTL.HEAD n) % 2 ^ 32

/-- The request for a line of an entry. -/
def Dev.stimReq (d : Dev) (n c i : Nat) : LeeReq := { addr := d.entryAddr n c + 64 * i, use := .stim c i }

/-- The engine asks for entries from HEAD on, at most eight (R100). -/
def Dev.stimPrefetch (d : Dev) (n : Nat) : Dev :=
  if !d.flag LEE_STAT.RUN n then d else
  let head := d.get LEE_STIM_CTL.HEAD n
  let wanted := (List.range (min 8 (d.stimAvail n))).map fun i => (head + i) % 2 ^ 32
  let e := d.lee n
  let lines := d.entryBytes n / 64
  let missing := wanted.filter fun c => !e.stim.any fun s => s.count == c
  d.setLee n { e with
    stim := e.stim ++ missing.map fun c => ⟨c, List.replicate lines none⟩
    mem := e.mem ++ missing.flatMap fun c => (List.range lines).map fun i => d.stimReq n c i }

/-- The request is for a stimulus entry. -/
def LeeReq.isStim (r : LeeReq) : Bool :=
  match r.use with
  | .stim .. => true
  | _ => false

/-- The request is for a line of a page that meets a condition. -/
def LeeReq.isPage (r : LeeReq) (p : Nat → Bool) : Bool :=
  match r.use with
  | .page q _ => p q
  | _ => false

/-- The request is of a MEMRD or a MEMWR, with the number of its word (R97, R110). -/
def LeeReq.word (r : LeeReq) : Option Nat :=
  match r.use with
  | .row s _ | .write s _ => some s
  | _ => none

/-- The request writes a row. -/
def LeeReq.isWrite (r : LeeReq) : Bool :=
  match r.use with
  | .write .. => true
  | _ => false

/-- The prefetched entries are dropped. -/
def Lee.dropStim (e : Lee) : Lee := { e with stim := [], mem := e.mem.filter fun r => !r.isStim }

/-- The pages of streamed mode are dropped too. -/
def Lee.dropFetched (e : Lee) : Lee := { e.dropStim with pages := [], mem := e.dropStim.mem.filter fun r => !r.isPage fun _ => true }

/-- The requests of MEMRDs and MEMWRs in flight (R110). -/
def Lee.rowReqs (e : Lee) : Nat := (e.mem.filter fun r => r.word.isSome).length

/-- The address of line i of page q (R131). -/
def Dev.pageLineAddr (d : Dev) (n q i : Nat) : Nat := d.get LEE_STREAM.BASE n * 65536 + 65536 * q + 64 * i

/-- The page of the next word (R131). -/
def Dev.pageNow (d : Dev) (n : Nat) : Nat := d.get LEE_PC.PC n / 256

/-- LEE_STREAM_STAT reports the complete pages. -/
def Dev.showPages (d : Dev) (n : Nat) : Dev :=
  let e := d.lee n
  let full (b : Nat) : Option PageBuf := e.pages.find? fun p => p.page % 2 == b && p.got == 1024
  let d := (d.put LEE_STREAM_STAT.V0 (if (full 0).isSome then 1 else 0) n).put LEE_STREAM_STAT.V1
    (if (full 1).isSome then 1 else 0) n
  (d.put LEE_STREAM_STAT.PAGE0 (((full 0).map (·.page)).getD 0) n).put LEE_STREAM_STAT.PAGE1
    (((full 1).map (·.page)).getD 0) n

/-! ### Starting and stopping -/

/-- The checks of an enable, in the order of R423, then the start (R114, R126, R132). -/
def Dev.leeStart (d : Dev) (n : Nat) : Dev :=
  let pc := d.get LEE_PC.PC n
  let g := d.get LEE_STAT.GROUP n
  let d := d.modLee n fun e => { e.dropFetched with evals := 0, pipe := [], drain := .none, busy := []
                                                    startAfterClear := false, stopping := false }
  let d := d.showPages n
  if !d.mapValid n then d.leeFault n pc ⟨0x0F, 15, 0⟩
  else if g ≠ 0xFF && d.get FAB_MG_CTL.LANES 0 g ≠ d.get LEE_CTL.LANES n then d.leeFault n pc ⟨0x10, 15, g⟩
  else if !d.flag LEE_CTL.STREAM n && decide (d.pcLimit n ≤ pc) then d.leeFault n pc ⟨0x06, 15, pc⟩
  else match d.xchFault n with
    | some f => d.leeFault n pc f
    | none => (d.leeEnter n LEE_STAT.RUN).stimPrefetch n

/-- Every issued word has completed (R103): stores are done at issue, so what remains is SENDs, OBSERVE words, MEMRD lines and the rows of
a MEMWR. -/
def Lee.drained (e : Lee) : Bool :=
  e.sends.isEmpty && e.emit.isEmpty && e.settled && e.outs.isEmpty && !e.mem.any LeeReq.isWrite

/-- A write of EN = 1 (R114). In the safe state it is ignored and sets CFG_IGN (R354). -/
def leeEnableEff (n : Nat) (d : Dev) : Dev :=
  if !d.leePresent n then d
  else if d.flag EVC_STAT.SAFE then d.put LEE_STAT.CFG_IGN 1 n
  else if d.flag LEE_CTL.EN n then d
  else
    let d := d.put LEE_CTL.EN 1 n
    if d.flag LEE_STAT.RUN n then d
    else if d.flag LEE_STAT.CLEARING n then d.modLee n fun e => { e with startAfterClear := true }
    else d.leeStart n

/-- A write of EN = 0 (R114, R141). -/
def leeDisableEff (n : Nat) (d : Dev) : Dev :=
  if !d.leePresent n then d
  else
    let wasEn := d.flag LEE_CTL.EN n
    let d := (d.put LEE_CTL.EN 0 n).modLee n fun e => { e with startAfterClear := false }
    if d.flag LEE_STAT.RUN n then d.modLee n fun e => { e with stopping := true }
    else if d.flag LEE_STAT.HALTED n || d.flag LEE_STAT.FAULTED n || d.flag LEE_STAT.TRAPPED n then
      d.leeEnter n LEE_STAT.STOPPED
    else if wasEn then d.leeEnter n LEE_STAT.STOPPED
    else d

/-- A stop ends when every issued word has completed; a TRAP or HALT that drains ends it in its own state (R141, R142).
An EN written 1 during the stop starts the engine again (R114). -/
def leeStopCompleteEff (n : Nat) (d : Dev) : Dev :=
  let e := d.lee n
  if !d.leePresent n || !e.stopping || !e.drained || e.drain = .trap || e.drain = .halt || !d.flag LEE_STAT.RUN n then d
  else
    let d := d.setLee n { e with stopping := false, drain := .none }
    let d := (d.leeEnter n LEE_STAT.STOPPED).leeIrq n 3
    if d.flag LEE_CTL.EN n then d.leeStart n else d

/-- A write of CLEAR, with the EN that the same write carries (R77). DEDUCED, assumption 53. -/
def leeCtlClearEff (n : Nat) (en : Bool) (d : Dev) : Dev :=
  if !d.leePresent n then d
  else if d.flag LEE_STAT.RUN n || d.flag LEE_STAT.TRAPPED n then
    let d := d.put LEE_STAT.BUSY_REFUSED 1 n
    if en then leeEnableEff n d else leeDisableEff n d
  else
    let d := (d.put LEE_STAT.CLEARING 1 n).modLee n fun e => { e with valid := [], store := [] }
    if en then leeEnableEff n d else leeDisableEff n d

/-- The clear completes; a pending enable proceeds (R77). -/
def leeClearDoneEff (n : Nat) (d : Dev) : Dev :=
  if !d.leePresent n || !d.flag LEE_STAT.CLEARING n then d
  else
    let d := d.put LEE_STAT.CLEARING 0 n
    if (d.lee n).startAfterClear then d.leeStart n else d

/-- A write of GO (R103). The stimulus entries, and in streamed mode the pages, are read anew, for the partner leaf may have written them
(R135, R137). DESIGN CHOICE, assumption 81. -/
def leeDoorbellEff (n : Nat) (d : Dev) : Dev :=
  if d.leePresent n && d.flag LEE_STAT.TRAPPED n then
    let d := (d.leeEnter n LEE_STAT.RUN).modLee n Lee.dropFetched
    (if d.flag LEE_CTL.STREAM n then d.showPages n else d).stimPrefetch n
  else d

/-- A write of LEE_STIM_TAIL (R100): once the ring is not empty, STIM no longer waits for that. -/
def leeStimTailEff (n tail : Nat) (d : Dev) : Dev :=
  if !d.leePresent n then d
  else
    let d := d.put LEE_STIM_TAIL.TAIL tail n
    (if d.get LEE_STAT.BLOCK n = 3 && d.stimAvail n != 0 then d.block n 0 else d).stimPrefetch n

/-- The configuration registers of R113, by offset in the LEE block. DEDUCED, assumption 50. -/
def configReg (off : Nat) : Option (RegName × Nat) :=
  if off = 0x10 then some (.LEE_PC, 0)
  else if off = 0x18 then some (.LEE_CYCLE, 0)
  else if off = 0x20 then some (.LEE_MAP0, 0)
  else if off = 0x28 then some (.LEE_MAP1, 0)
  else if off = 0x30 then some (.LEE_MAP2, 0)
  else if off = 0x70 then some (.LEE_LC01, 0)
  else if off = 0x78 then some (.LEE_LC23, 0)
  else if 0x100 ≤ off ∧ off < 0x180 then
    if off % 16 = 0 then some (.LEE_MMD_CFG, (off - 0x100) / 16)
    else if off % 16 = 8 then some (.LEE_MMD_BASE, (off - 0x100) / 16) else none
  else if off = 0x200 then some (.LEE_STIM_BASE, 0)
  else if off = 0x208 then some (.LEE_STIM_CTL, 0)
  else if off = 0x220 then some (.LEE_STREAM, 0)
  else none

/-- Every field of a register takes the bits of a written value; reserved bits stay zero (R7, R8). -/
def writeFields (rows : List FieldRow) (old value : Word) : Word :=
  rows.foldl (fun w f =>
    let v := value.bits f.hi f.lo
    match f.acc with
    | .rw => if f.min ≤ v ∧ v ≤ f.max then w.setBits f.hi f.lo v else w
    | .w1c => w.setBits f.hi f.lo (w.bits f.hi f.lo &&& (2 ^ (f.hi - f.lo + 1) - 1 - v))
    | .w1s => w.setBits f.hi f.lo (w.bits f.hi f.lo ||| v)
    | .ro | .wo | .act => w) old

/-- A configuration write takes effect only while the engine neither runs nor is trapped (R113). At offset 0 it carries the
LANES and STREAM fields of LEE_CTL: as they are it writes nothing; LANES 3 is refused, and STREAM written beside it. A write of
LEE_CYCLE clears both arrival banks (R125), and one of LEE_STIM_BASE or LEE_STIM_CTL drops the prefetched entries.
DEDUCED, assumption 50. -/
def leeConfigWriteEff (n off : Nat) (value : Word) (d : Dev) : Dev :=
  if !d.leePresent n || (off = 0 && value.bits 3 1 = d.get ⟨.LEE_CTL, 3, 1⟩ n) then d
  else if d.flag LEE_STAT.RUN n || d.flag LEE_STAT.TRAPPED n then d.put LEE_STAT.CFG_IGN 1 n
  else if off = 0 then
    let d := d.put LEE_CTL.STREAM (value.bits 3 3) n
    if value.bits 2 1 = 3 then d.put LEE_STAT.CFG_IGN 1 n else d.put LEE_CTL.LANES (value.bits 2 1) n
  else match configReg off with
    | none => d
    | some (r, k) =>
      let d := d.setReg ⟨r, n, k⟩ (writeFields (r.fields.map fun f => { f with acc := .rw }) 0 value)
      match r with
      | .LEE_CYCLE => d.modLee n fun e => { e with arrivals := [] }
      | .LEE_STIM_BASE | .LEE_STIM_CTL => d.modLee n Lee.dropStim
      | _ => d

/-! ### Exchange (R121 to R126, R232) -/

/-- The key of an arrival counter: bank and step. -/
def arrKey (bank step : Nat) : Nat := bank * 256 + step

/-- The number of inbox slots of an engine. -/
def Dev.inboxSlots (d : Dev) (n : Nat) : Nat := 64 * d.get LEE_MAP2.INBOX_SIZE n / d.width n

/-- A delivery acknowledgement goes back to the sender, or over the span link to its package (R121, R232). -/
def Dev.ackXch (d : Dev) (m : XchMsg) (o : XchOutcome) : Dev :=
  match m.remote with
  | none => d.emit (.xchAck m.sleaf m.imm o)
  | some (pkg, tag) =>
    d.sendSpan pkg fun port => .spanAck port (d.get TRK_PKG_ID.PKG_ID) pkg 8 tag o

/-- A message that an engine refuses (R122, R123): another lane width, or a slot beyond its inbox. -/
def Dev.xchReject (d : Dev) (m : XchMsg) : Option XchOutcome :=
  if m.lanes ≠ d.get LEE_CTL.LANES m.dleaf then some .lanesDiffer
  else if d.inboxSlots m.dleaf ≤ m.slot then some .slotBeyond else none

/-- The effect of R123 for a message that its engine does not refuse, and that need not wait. -/
def Dev.deliver (d : Dev) (m : XchMsg) : Dev :=
  let n := m.dleaf
  let width := d.width n
  let mcycle := d.get LEE_CYCLE.MCYCLE n
  if m.mc ≠ mcycle && m.mc ≠ (mcycle + 1) % 2 ^ 40 then
    let d := (d.put LEE_XCH_STAT.STALE_ERR 1 n).bump LEE_XCH_STAT.STALE 1 n
    let d := d.modLee n fun e => { e with staleInfo := m.mc + m.step * 2 ^ 40 }
    (d.ackXch m .stale).drainCheck n
  else
    let bank := m.mc % 2
    let f := d.get LEE_MAP2.INBOX_BASE n * 64 + m.slot * width
    let d := d.modLee n fun e => e.putWords (4 * f) (m.data.take (4 * width))
    let c := (d.lee n).arrivals.find 0 (arrKey bank m.step)
    let d :=
      if c = 8191 then
        (d.put LEE_XCH_STAT.OVF_ERR 1 n).modLee n fun e => { e with ovfInfo := m.step + bank * 256 }
      else d.modLee n fun e => { e with arrivals := e.arrivals.set natLt 0 (arrKey bank m.step) (c + 1) }
    (d.ackXch m .delivered).drainCheck n

/-- A delivery acknowledgement at the sending engine (R121, R122, R143). -/
def deliveryAckEff (n : Nat) (imm : Word) (o : XchOutcome) (d : Dev) : Dev :=
  let d := d.take (.xchAck n imm o)
  let e := d.lee n
  if e.discardAcks.contains imm then d.setLee n { e with discardAcks := e.discardAcks.erase imm }
  else if !e.sends.contains imm then d
  else
    let e := { e with sends := e.sends.erase imm }
    let code := match o with
      | .unreachable => 1
      | .slotBeyond => 2
      | .lanesDiffer => 3
      | _ => 0
    if code = 0 then d.setLee n e
    else
      let first := if d.flag LEE_XCH_STAT.DROP_ERR n then e.dropInfo else none
      let e := { e with dropInfo := some (first.getD (imm.bits 39 0 + code * 2 ^ 56)) }
      (((d.setLee n e).put LEE_XCH_STAT.DROP_ERR 1 n).bump LEE_XCH_STAT.DROPPED 1 n).drainCheck n

/-- A SEND will not be acknowledged: an engine that was reset meanwhile expects its acknowledgement no more (R143). -/
def Dev.ackLost (d : Dev) (m : XchMsg) : Dev :=
  if m.remote.isSome then d else d.modLee m.sleaf fun e => { e with discardAcks := e.discardAcks.erase m.imm }

/-- An arriving window (R123). One that its engine refuses is answered at once; any other waits during a clear, a store test or a LEE
reset. A bough that is isolated is unreachable, which its proxy counts, or whose gate is closed, and so is one behind a lateral
graft that is down (R121, R122, R224). -/
def xchArrivalEff (m : XchMsg) (d : Dev) : Dev :=
  let s := d.leafSite m.dleaf
  let gone := d.take (.xch m)
  if !d.leePresent m.dleaf then gone.ackXch m .unreachable
  else if d.isolated s then (gone.bump FAB_PROXY.XCH 1 0 s).ackXch m .unreachable
  else if (d.gate s).closed then gone.ackXch m .unreachable
  else if d.senderCut m then gone.ackLost m
  else if d.lateralDown m then gone.ackXch m .unreachable
  else match d.xchReject m with
    | some o => (gone.bump LEE_XCH_STAT.REJECT 1 m.dleaf).ackXch m o
    | none => if d.flag LEE_STAT.CLEARING m.dleaf then d else gone.deliver m

/-- Every tag of the table of remote SENDs is in use (R232). -/
def Dev.remoteFull (d : Dev) : Bool := decide (16384 ≤ d.remoteSends.length)

/-- The tag of a new remote SEND: the lowest that is neither in use nor may still see a late ACK, or else the one that has waited longest for
its own. DESIGN CHOICE, assumption 30. -/
def Dev.newTag (d : Dev) : Option Nat :=
  ((List.range 16384).find? fun t => !d.lateTags.contains t && !d.remoteSends.any fun x => x.tag == t).or d.lateTags.head?

/-- A remote SEND leaves by the route of its package with a tag of the table, or gets UNREACHABLE at once (R232). -/
def Dev.sendRemote (d : Dev) (m : XchMsg) (dpkg : Nat) : Dev :=
  match d.newTag, d.spanTo dpkg with
  | none, _ => d
  | some tag, some port =>
    { d.emitSpan (.spanWindow port ⟨d.get TRK_PKG_ID.PKG_ID, dpkg, 8, tag, m.dleaf, m.mc, m.step, m.slot, m.lanes, m.data⟩) with
      remoteSends := d.remoteSends ++ [⟨tag, port, m.sleaf, m.imm⟩], lateTags := d.lateTags.erase tag }
  | some _, none => (d.bump SPN_CNT.UNREACH 1 (d.get SPN_ROUTE.PORT 0 dpkg)).emit (.xchAck m.sleaf m.imm .unreachable)

/-! ### Issue of a word (R87 to R89, R106 to R111, R423) -/

/-- The evaluation word at the program counter, as the store holds it when the word is about to issue (R87, R110, R131).
DESIGN CHOICE, assumption 72. -/
def Dev.fetchWord (d : Dev) (n : Nat) : EvalWord :=
  let pc := d.get LEE_PC.PC n
  let base := d.get LEE_MAP0.PROG_BASE n * 64
  let idx := if d.flag LEE_CTL.STREAM n then base + 2048 * (pc / 256 % 2) + 8 * (pc % 256) else base + 8 * pc
  ⟨(List.range 32).map fun i => (d.lee n).word (4 * idx + i)⟩

/-- The store byte at which the word at the program counter begins. -/
def Dev.wordByte (d : Dev) (n : Nat) : Nat :=
  let pc := d.get LEE_PC.PC n
  let base := d.get LEE_MAP0.PROG_BASE n * 64
  32 * (if d.flag LEE_CTL.STREAM n then base + 2048 * (pc / 256 % 2) + 8 * (pc % 256) else base + 8 * pc)

/-- Loop counter i: its register and its armed and value fields. -/
def loopFields (i : Nat) : Fld × Fld :=
  match i with
  | 0 => (LEE_LC01.ARMED_LO, LEE_LC01.LC_LO)
  | 1 => (LEE_LC01.ARMED_HI, LEE_LC01.LC_HI)
  | 2 => (LEE_LC23.ARMED_LO, LEE_LC23.LC_LO)
  | _ => (LEE_LC23.ARMED_HI, LEE_LC23.LC_HI)

/-- The value of the loop counter that a LOOP tests: COUNT where it is not armed (R105). -/
def Dev.loopValue (d : Dev) (n : Nat) (h : EvalWord) : Nat :=
  let (armed, lc) := loopFields (h.imm.bits 29 28)
  if d.flag armed n then d.get lc n else h.imm.bits 62 32

/-- The program counter value that a word moves to; in resident mode TRAP and HALT complete at the last word (R105, R106, R131). -/
def Dev.nextPc (d : Dev) (n : Nat) (h : EvalWord) (o : Opcode) : Option Nat :=
  let pc := d.get LEE_PC.PC n
  match o with
  | .trap | .halt => if d.flag LEE_CTL.STREAM n then some (pc + 1) else none
  | .jump => some (h.imm.bits 27 0)
  | .loop => some (if 0 < d.loopValue n h then h.imm.bits 27 0 else pc + 1)
  | _ => some (pc + 1)

/-- The first check that a source fails. -/
def Dev.srcFault (d : Dev) (n : Nat) (h : EvalWord) : List Nat → Option LeeFault
  | [] => none
  | k :: t =>
    match d.resolve n k (h.src k) with
    | .error f => some f
    | .ok _ => d.srcFault n h t

/-- The sampled word of the shadow slot (R340): its slot number. -/
def Dev.shadowSlot (d : Dev) (n : Nat) : Option Nat :=
  let c := (d.lee n).evals
  if c % 256 = 255 then some (c / 256 % 32) else none

/-- The first fault cause that a word meets at issue, in the order of R423. DEDUCED, assumption 70. -/
def Dev.issueFault (d : Dev) (n : Nat) (h : EvalWord) (o : Opcode) (err : EngErr) : Option LeeFault :=
  let width := d.width n
  match (List.range 4).find? fun i => h.badField o width i with
  | some i => some ⟨0x02, 15, i⟩
  | none =>
    let imm := h.imm
    let remote := imm.getLsbD 31
    if o = .send && decide (4096 ≤ imm.bits 15 0) then some ⟨0x0A, 15, imm.bits 15 0⟩
    else if o = .send && ((!remote && !d.leafPresent (imm.bits 24 16))
        || (remote && !((List.range 4).any fun p => d.flag SPN_CTL.EN p))
        || (remote && imm.bits 30 25 == d.get TRK_PKG_ID.PKG_ID)) then some ⟨0x0B, 15, imm.toNat⟩
    else match d.srcFault n h (h.sources o) with
      | some f => some f
      | none =>
        let dstFault : Option LeeFault :=
          if !o.hasDst then none
          else if h.dst / 2 ^ 18 = 1 || h.dst / 2 ^ 18 = 3 then some ⟨0x05, 4, h.dst⟩
          else match d.resolve n 4 h.dst with
            | .error f => some f
            | .ok _ => none
        match dstFault with
        | some f => some f
        | none =>
          if (o = .memrd || o = .memwr)
              && (!d.usable n h.mmd || decide (256 < h.apos + (d.descriptor n h.mmd).aw)) then some ⟨0x07, 5, h.mmd⟩
          else match d.nextPc n h o with
            | some p =>
              if d.pcLimit n ≤ p then some ⟨0x06, 15, p⟩
              else if err = .residue then some ⟨0x0D, 15, 0⟩ else none
            | none => if err = .residue then some ⟨0x0D, 15, 0⟩ else none

/-! ### Operand reads, and their interlocks (R107 to R110) -/

/-- The first store indices of the windows that a word reads as operands (R109). -/
def Dev.operands (d : Dev) (n : Nat) (h : EvalWord) (o : Opcode) : List Nat := (h.sources o).map fun k => d.index n (h.src k)

/-- Two runs of store indices overlap. -/
def overlaps (a la b lb : Nat) : Bool := decide (a < b + lb ∧ b < a + la)

/-- A window that the word reads, or writes, awaits the data of an earlier DRAM-placed MEMRD (R108). -/
def Dev.interlocked (d : Dev) (n : Nat) (h : EvalWord) (o : Opcode) : Bool :=
  let ws := d.operands n h o ++ (if o.hasDst then [d.index n h.dst] else [])
  (d.lee n).memrds.any fun m => ws.any fun f => overlaps f (d.width n) m.dst m.width

/-- The clocks that operand reads add to a word's issue interval: the largest number of different store indices in any one bank, less
one; none at L = 64 (R109). -/
def Dev.bankClocks (d : Dev) (n : Nat) (h : EvalWord) (o : Opcode) : Nat :=
  let width := d.width n
  if width = 64 then 0
  else
    let reads := ((d.operands n h o).flatMap fun f => (List.range width).map (f + ·)).eraseDups
    ((List.range 64).map fun b => (reads.filter fun i => i % 64 == b).length).foldl max 1 - 1

/-- The issue interval of a word (R107). A word that waits takes one clock once its condition holds. -/
def Opcode.interval (o : Opcode) (width : Nat) (taken : Bool) : Nat :=
  match o with
  | .eval | .evalm | .mux | .copy | .send | .observe | .stim => if width = 64 then 8 else 1
  | .memrd | .memwr => width
  | .jump => 3
  | .loop => if taken then 3 else 1
  | _ => 1

/-- The clocks from a word's issue until its destination may be read (R107). -/
def Opcode.latency (o : Opcode) (width : Nat) : Nat := if o = .memrd then 11 + width else 12

/-- The store bytes whose code words a word reads, as first byte and count: its operands, the rows of a store-placed memory, and the code
words into which it merges a narrower write (R76, R332). -/
def Dev.storeReads (d : Dev) (n : Nat) (h : EvalWord) (o : Opcode) : List (Nat × Nat) :=
  let width := d.width n
  let ops := (d.operands n h o).map fun f => (32 * f, 32 * width)
  let m := d.descriptor n h.mmd
  let win := d.srcWindow n h 0
  let rows := if (o = .memrd || (o = .memwr && width != 1)) && !m.dram then
      (List.range width).filterMap fun k =>
        let r := rowAddress win width h.apos m.aw k
        if r < m.depth && (o = .memrd || h.weAlways || netOf win width h.wepos k) then
          some (32 * (d.get LEE_MAP2.MMEM_BASE n * 64 + m.base + r * width), 32 * width)
        else none
    else []
  let merge := if o = .evalm || (o = .eval && width = 1) then [(32 * d.index n h.dst + 4 * width * h.dgrp / 8 * 8, max 8 (4 * width))] else []
  ops ++ rows ++ merge

/-- The word meets an error of the code word that holds a store byte: it reads that word, whose block is valid (R76, R111). -/
def Dev.meets (d : Dev) (n : Nat) (h : EvalWord) (o : Opcode) (b : Nat) : Bool :=
  (d.lee n).valid.contains (b / 256) && (d.storeReads n h o).any fun r => decide (r.1 ≤ b ∧ b < r.1 + r.2)

/-- A fault that the engine finds in the data of a word that passed the checks: an uncorrectable store error on an operand
read or on the read of a write merge, or a shadow mismatch of a sampled EVAL or EVALM (R111, R112, R332, R340).
DEDUCED, assumption 70. -/
def Dev.dataFault (d : Dev) (n : Nat) (h : EvalWord) (o : Opcode) (err : EngErr) : Option LeeFault :=
  match err with
  | .storeUe b => if d.meets n h o b then some ⟨0x09, 15, b / 8 * 8⟩ else none
  | .shadow =>
    if o = .eval || o = .evalm then (d.shadowSlot n).map fun s => ⟨0x0E, 15, s⟩ else none
  | _ => none

/-- The engine may issue a word: it runs, no stop is in progress and nothing drains (R141). -/
def Dev.mayIssue (d : Dev) (n : Nat) : Bool :=
  let e := d.lee n
  d.leePresent n && d.copyReady (d.leafSite n) && d.flag LEE_STAT.RUN n && !e.stopping && e.drain = .none
  && !d.flag LEE_STAT.CLEARING n

/-- The page buffer that holds the next word: none while it is not complete, or the failure of its line (R132, R133). -/
def Dev.pageOf (d : Dev) (n : Nat) : Option PageBuf :=
  (d.lee n).pages.find? fun p => p.page == d.pageNow n && p.got == 1024

/-- The fault of a word of a page: its failing line of the lowest address (R133). DESIGN CHOICE, assumption 26. -/
def PageBuf.failure (p : PageBuf) : Option LeeFault :=
  p.bad.head?.map fun b =>
    match b.2 with
    | .poison a => ⟨0x26, 15, a⟩
    | .access a => ⟨0x27, 15, a⟩
    | _ => ⟨0x27, 15, 0⟩

/-- The fetch of the next word meets an error of the code word that holds a store byte: past the header, only EVAL and EVALM are read
(R87, R110). -/
def Dev.fetchMeets (d : Dev) (n b : Nat) : Bool :=
  let op := (d.fetchWord n).op
  let len := if op = 1 || op = 2 then 256 else 32
  (d.lee n).valid.contains (b / 256) && decide (d.wordByte n ≤ b ∧ b < d.wordByte n + len)

/-- The faults met before the word is decoded: the program counter beyond the program (R106), an exchange error (R126), the
page's failure (R133), an uncorrectable error of the fetch (R110). -/
def Dev.fetchFault (d : Dev) (n : Nat) (err : EngErr) : Option LeeFault :=
  let pc := d.get LEE_PC.PC n
  if d.pcLimit n ≤ pc then some ⟨0x06, 15, pc⟩
  else match d.xchFault n with
    | some f => some f
    | none =>
      match (if d.flag LEE_CTL.STREAM n then (d.pageOf n).bind PageBuf.failure else none) with
      | some f => some f
      | none => match err with
        | .storeUe b => if d.fetchMeets n b then some ⟨0x09, 15, b / 8 * 8⟩ else none
        | _ => none

/-! ### What is kept of a word that has issued, and its release (R111) -/

/-- A store word as it is held: none in a block that is not valid. -/
def Lee.held (e : Lee) (w : Nat) : Option Word := if e.valid.contains (w / 32) then some (e.store.find 0 w) else none

/-- Note with the word of a number what a run of store words holds, before that word writes it. -/
def Lee.note (e : Lee) (seq w count : Nat) : Lee :=
  { e with pipe := e.pipe.map fun x =>
      if x.seq == seq then { x with old := (List.range count).map (fun i => (w + i, e.held (w + i))) ++ x.old } else x }

/-- The word issued last writes a run of store words. -/
def Lee.puts (e : Lee) (w : Nat) (l : List Word) : Lee := (e.note (e.seq - 1) w l.length).putWords w l

/-- Undo the write of a store word. -/
def Lee.unput (e : Lee) (p : Nat × Option Word) : Lee :=
  match p.2 with
  | some v => e.putWord p.1 v
  | none => { e with valid := e.valid.erase (p.1 / 32), store := e.store.filter fun q => q.1 / 32 != p.1 / 32 }

/-- Undo what a word has done in the engine (R111): its store writes, the arrivals it took, and the registers it changed. Its counts stay.
DESIGN CHOICE, assumption 71. -/
def Dev.undoWord (d : Dev) (n : Nat) (x : Issued) : Dev :=
  let d := d.modLee n fun e =>
    { x.old.foldl Lee.unput e with
      arrivals := x.took.foldl (fun a p => a.set natLt 0 p.1 (min 8191 (a.find 0 p.1 + p.2))) e.arrivals
      evals := x.evals }
  let d := x.regs.foldl (fun d p => d.setReg p.1 p.2) d
  if x.surplus then d.put LEE_XCH_STAT.SURPLUS 0 n else d

/-- Cancel the words from a number on, the newest first (R111). -/
def Dev.cancelFrom (d : Dev) (n seq : Nat) : Dev :=
  let d := ((d.lee n).pipe.filter fun x => decide (seq ≤ x.seq)).foldl (fun d x => d.undoWord n x) d
  d.modLee n fun e => { e with
    pipe := e.pipe.filter fun x => decide (x.seq < seq)
    memrds := e.memrds.filter fun m => decide (m.seq < seq)
    outs := e.outs.filter fun o => decide (o.1 < seq)
    mem := e.mem.filter fun r => match r.word with
      | some s => decide (s < seq)
      | none => true
    busy := [] }

/-- No earlier word than the one of this number can fault any more. -/
def Lee.mayRelease (e : Lee) (seq : Nat) : Bool := e.memrds.all fun m => decide (seq < m.seq)

/-- What the engine keeps of the words up to a number goes: their effects have left it. -/
def Lee.final (e : Lee) (seq : Nat) : Lee := { e with pipe := e.pipe.filter fun x => decide (seq < x.seq) }

/-- An effect is released: the fabric takes a SEND, or an OBSERVE starts to be emitted. -/
def Dev.releaseOut (d : Dev) (n : Nat) (p : Nat × LeeOut) : Dev :=
  let d := d.modLee n fun e => { e.final p.1 with outs := e.outs.erase p }
  match p.2 with
  | .send m pkg =>
    let d := d.modLee n fun e => { e with sends := e.sends ++ [m.imm] }
    match pkg with
    | none => d.emit (.xch m)
    | some k => d.sendRemote m k
  | .observe words head => d.modLee n fun e => { e with emit := words, emitHead := some head, emitted := 0 }

/-- Release what may be: in order, each once no earlier word can fault (R111), and a remote SEND once it has a tag (R232). -/
def Dev.releaseOuts (d : Dev) (n : Nat) : Dev :=
  (d.lee n).outs.foldl (fun d p =>
    let full := match p.2 with
      | .send _ (some _) => d.remoteFull
      | _ => false
    if (d.lee n).mayRelease p.1 && !full then d.releaseOut n p else d) d

/-- A tag of the table of remote SENDs is free again: engines that wait for one release what they may. -/
def Dev.releaseAll (d : Dev) : Dev := d.lees.foldl (fun d p => if p.2.outs.isEmpty then d else d.releaseOuts p.1) d

/-- An effect leaves the engine once it may. -/
def Dev.leave (d : Dev) (n : Nat) (o : LeeOut) : Dev :=
  (d.modLee n fun e => { e with outs := e.outs ++ [(e.seq - 1, o)] }).releaseOuts n

/-- SENDs that the fabric has not accepted (R110). -/
def Lee.notAccepted (e : Lee) : Nat :=
  (e.outs.filter fun o => match o.2 with
    | .send .. => true
    | _ => false).length

/-- An OBSERVE is in emission, or waits for its release (R101). -/
def Lee.observing (e : Lee) : Bool :=
  !e.emit.isEmpty || e.outs.any fun o => match o.2 with
    | .observe .. => true
    | _ => false

/-! ### Issue -/

/-- A word issues: it is counted with the clocks that its reads add and that the interlock holds it, its program counter value is
remembered, what it may change is kept, and BLOCK clears (R107 to R111). DESIGN CHOICE, assumption 22. -/
def Dev.issued (d : Dev) (n : Nat) (h : EvalWord) (o : Opcode) : Dev :=
  let e := d.lee n
  let width := d.width n
  let pc := d.get LEE_PC.PC n
  let reads := d.operands n h o
  let held := (e.busy.filter fun b => reads.any fun f => overlaps f width b.first b.count).foldl (fun w b => max w (b.clock - e.clock)) 0
  let start := e.clock + held
  let extra := d.bankClocks n h o
  let writes : List LeeBusy :=
    if o.hasDst && !(o = .memrd && (d.descriptor n h.mmd).dram) then [⟨d.index n h.dst, width, start + o.latency width⟩] else []
  let regs := [(⟨.LEE_CYCLE, n, 0⟩ : Reg), ⟨.LEE_LC01, n, 0⟩, ⟨.LEE_LC23, n, 0⟩, ⟨.LEE_STIM_CTL, n, 0⟩]
  let x : Issued := { seq := e.seq, pc := pc, op := h.op, regs := regs.map fun r => (r, d.reg r), evals := e.evals }
  let d := d.setLee n { e with
    lastPc := pc, seq := e.seq + 1, clock := start + extra + o.interval width (decide (0 < d.loopValue n h))
    busy := e.busy.filter (fun b => decide (start < b.clock)) ++ writes
    pipe := if e.settled then (x :: e.pipe).take 12 else x :: e.pipe }
  ((((d.count LEE_CNT.COUNT 1 n 0).count LEE_CNT.COUNT held n 2).count LEE_CNT.COUNT extra n 3)).block n 0

/-- Move the program counter. -/
def Dev.goto (d : Dev) (n pc : Nat) : Dev := d.put LEE_PC.PC pc n

/-- Move the program counter to the following word. -/
def Dev.goNext (d : Dev) (n : Nat) : Dev := d.goto n (d.get LEE_PC.PC n + 1)

/-- Count and log the store error that a word meets. -/
def Dev.noteError (d : Dev) (n : Nat) (h : EvalWord) (o : Opcode) (err : EngErr) : Dev :=
  match err with
  | .storeCe w => if d.meets n h o (8 * w) || d.fetchMeets n (8 * w) then d.storeError n w false else d
  | .storeUe b => if d.meets n h o b || d.fetchMeets n b then d.storeError n (b / 8) true else d
  | _ => d

/-- Issue the next word of an engine if it is the expected one: the faults before decode, ILLEGAL_OP, the checks of R423, the interlock
with the data of a MEMRD, a fault in the word's data, and then its effect. A word of another opcode is not this command. A corrected
store error is counted and logged. DESIGN CHOICE, assumption 72. -/
def Dev.issueWord (d : Dev) (n : Nat) (o : Opcode) (err : EngErr) (body : EvalWord → Dev → Dev) : Dev :=
  if !d.mayIssue n then d
  else
    let pc := d.get LEE_PC.PC n
    let h := d.fetchWord n
    match d.fetchFault n err with
    | some f => if (d.lee n).settled then (d.noteError n h o err).leeFault n pc f else d
    | none =>
      if d.flag LEE_CTL.STREAM n && (d.pageOf n).isNone then d.block n 7
      else
        match Opcode.ofCode h.op with
        | none => d.faultNow n pc ⟨0x01, 15, (h.at 0).toNat⟩
        | some o' =>
          if o' ≠ o then d
          else match d.issueFault n h o err with
            | some f => d.faultNow n pc f
            | none =>
              if d.interlocked n h o then d.block n 4
              else match d.dataFault n h o err with
                | some f => if (d.lee n).settled then (d.noteError n h o err).leeFault n pc f else d
                | none => body h (d.noteError n h o err)

end Sys2Proof.Machine
end

