-- ==== Sys2Proof/Machine/LeeWords.lean ====
section
/-!
DEFINITION. The evaluation words (spec/04 and spec/05, R91 to R105, R124, R127): what each opcode does when it issues, and the
events that complete a word that waits.
-/

namespace Sys2Proof.Machine

/-- A word writes a window at its destination. -/
def Dev.writeDst (d : Dev) (n : Nat) (h : EvalWord) (win : List Word) : Dev :=
  d.modLee n fun e => e.puts (4 * d.index n h.dst) win

/-- NOP. -/
def nopEff (n : Nat) (err : EngErr) (d : Dev) : Dev :=
  d.issueWord n .nop err fun h d => (d.issued n h .nop).goNext n

/-- The result of a LUT slot in lane k (R91). -/
def slotResult (h : EvalWord) (srcs : List (List Word)) (width s k : Nat) : Bool :=
  let v := h.slot s
  let input (i : Nat) : Nat :=
    let f := v / 2 ^ (16 + 10 * i) % 1024
    let sel := f / 256
    if bit h.srcEn sel && netOf (srcs.getD sel []) width (f % 256) k then 1 else 0
  (v % 2 ^ 16).testBit (input 0 + 2 * input 1 + 4 * input 2 + 8 * input 3)

/-- The store words of a window that hold the nets of a 32-net group: the first and their number (R82). -/
def groupWords (width g : Nat) : Nat × Nat := if width = 1 then (g / 2, 1) else (g * (width / 2), width / 2)

/-- The words of group DGRP of the destination after an EVAL or EVALM whose lane mask is `mask`: the nets of the group take the results in
the lanes of the mask, every other net and lane keeps its value (R91, R93). -/
def Dev.evalWords (d : Dev) (n : Nat) (h : EvalWord) (mask : Nat) : List Word :=
  let width := d.width n
  let srcs := (List.range 4).map fun k => if bit h.srcEn k then d.srcWindow n h k else []
  let old := (d.lee n).window (d.index n h.dst) width
  let (first, count) := groupWords width h.dgrp
  (List.range count).map fun i => wordOfBits fun b =>
    let at_ := 64 * (first + i) + b
    let net := at_ / width
    let k := at_ % width
    if net / 32 = h.dgrp && bit mask k then slotResult h srcs width (net % 32) k else netOf old width net k

/-- An EVAL or EVALM writes the words of its group; with no lane in its mask it writes nothing (R93). -/
def Dev.evalWrite (d : Dev) (n : Nat) (h : EvalWord) (mask : Nat) : Dev :=
  if mask % 2 ^ d.width n = 0 then d
  else d.modLee n fun e => e.puts (4 * d.index n h.dst + (groupWords (d.width n) h.dgrp).1) (d.evalWords n h mask)

/-- An EVAL or EVALM counts for the shadow slot (R340). -/
def Dev.evalCounted (d : Dev) (n : Nat) : Dev := d.modLee n fun e => { e with evals := e.evals + 1 }

/-- EVAL (R91). -/
def evalEff (n : Nat) (err : EngErr) (d : Dev) : Dev :=
  d.issueWord n .eval err fun h d =>
    (((d.issued n h .eval).evalCounted n).evalWrite n h (2 ^ 64 - 1)).goNext n

/-- EVALM (R93). -/
def evalmEff (n : Nat) (err : EngErr) (d : Dev) : Dev :=
  d.issueWord n .evalm err fun h d =>
    (((d.issued n h .evalm).evalCounted n).evalWrite n h h.imm.toNat).goNext n

/-- The destination window of MUX (R94). -/
def Dev.muxWindow (d : Dev) (n : Nat) (h : EvalWord) : List Word :=
  let width := d.width n
  let a := d.srcWindow n h 0
  let b := d.srcWindow n h 1
  let c := d.srcWindow n h 2
  windowOf width fun net k =>
    if netOf c width (if h.bcast then h.selnet else net) k then netOf b width net k else netOf a width net k

/-- MUX (R94). -/
def muxEff (n : Nat) (err : EngErr) (d : Dev) : Dev :=
  d.issueWord n .mux err fun h d => ((d.issued n h .mux).writeDst n h (d.muxWindow n h)).goNext n

/-- COPY (R94). -/
def copyEff (n : Nat) (err : EngErr) (d : Dev) : Dev :=
  d.issueWord n .copy err fun h d => ((d.issued n h .copy).writeDst n h (d.srcWindow n h 0)).goNext n

/-! ### Model memories (R95 to R97) -/

/-- The row addresses of the lanes of a MEMRD or MEMWR. -/
def Dev.rows (d : Dev) (n : Nat) (h : EvalWord) : List Nat :=
  let m := d.descriptor n h.mmd
  let win := d.srcWindow n h 0
  (List.range (d.width n)).map fun k => rowAddress win (d.width n) h.apos m.aw k

/-- The store index of a row of a store-placed memory (R95). -/
def Dev.rowIndex (d : Dev) (n i r : Nat) : Nat :=
  d.get LEE_MAP2.MMEM_BASE n * 64 + (d.descriptor n i).base + r * d.width n

/-- The address of the line of row r, lane k of a DRAM-placed memory (R95). -/
def Dev.rowAddr (d : Dev) (n i r k : Nat) : Nat := (d.descriptor n i).base + (r * d.width n + k) * 64

/-- The destination of a store-placed MEMRD: lane k takes lane k of its row, or zero beyond DEPTH (R96). -/
def Dev.memrdWindow (d : Dev) (n : Nat) (h : EvalWord) (rows : List Nat) : List Word :=
  let width := d.width n
  let m := d.descriptor n h.mmd
  let e := d.lee n
  windowOf width fun net k =>
    let r := rows.getD k 0
    r < m.depth && netOf (e.window (d.rowIndex n h.mmd r) width) width net k

/-- Lane accesses with a row address of DEPTH or more count in event 7 (R96). -/
def Dev.countBeyond (d : Dev) (n depth : Nat) (rows : List Nat) : Dev :=
  d.count LEE_CNT.COUNT (rows.filter fun r => decide (depth ≤ r)).length n 7

/-- The destination window of a DRAM-placed MEMRD from its lines: bytes 0 to 31 of the line of a lane hold the row in the
layout of a one-lane window (R95). -/
def MemRd.window (m : MemRd) : List Word :=
  windowOf m.width fun net k =>
    match m.lanes.getD k none with
    | some (.line x) => x.getLsbD net
    | _ => false

/-- The first lane whose line failed. DESIGN CHOICE, assumption 26. -/
def MemRd.failure (m : MemRd) : Option LeeFault :=
  m.lanes.findSome? fun x => match x with
    | some (.poison a) => some ⟨0x08, 5, a⟩
    | some (.access a) => some ⟨0x11, 5, a⟩
    | _ => none

/-- MEMRDs whose lines are all there complete, the oldest first: each writes its destination, or faults and writes nothing, and the later
words are cancelled (R97, R111). The number bounds them. -/
def memrdFinish : Nat → Nat → Dev → Dev
  | 0, _, d => d
  | k + 1, n, d =>
    match (d.lee n).memrds with
    | [] => d
    | m :: rest =>
      if m.lanes.any (·.isNone) then d
      else match m.failure with
        | some f => (d.cancelFrom n m.seq).leeFault n m.pc f
        | none => memrdFinish k n (d.modLee n fun e =>
            ({ e.note m.seq (4 * m.dst) (4 * m.width) with memrds := rest }).putWords (4 * m.dst) m.window)

/-- What follows when a MEMRD may have completed: effects that waited for it are released, a word that it held may issue, and a word that
drains meets the fault that waited. -/
def Dev.memrdGo (d : Dev) (n : Nat) : Dev :=
  let d := memrdFinish (d.lee n).memrds.length n d
  let d := if d.get LEE_STAT.BLOCK n = 4 then d.block n 0 else d
  (d.releaseOuts n).drainCheck n

/-- More than 64 requests of model memories would be in flight (R110). -/
def Dev.tooMany (d : Dev) (n more : Nat) : Bool := decide (64 < (d.lee n).rowReqs + more)

/-- MEMRD (R96, R97). A DRAM-placed one asks for the line of each lane whose row is below DEPTH. -/
def memrdEff (n : Nat) (err : EngErr) (d : Dev) : Dev :=
  d.issueWord n .memrd err fun h d =>
    let m := d.descriptor n h.mmd
    let rows := d.rows n h
    let pc := d.get LEE_PC.PC n
    let dst := d.index n h.dst
    let win := d.memrdWindow n h rows
    let seq := (d.lee n).seq
    let lanes := (List.range (d.width n)).zip rows
    let reqs : List LeeReq := (lanes.filter fun p => decide (p.2 < m.depth)).map fun p =>
      { addr := d.rowAddr n h.mmd p.2 p.1, use := .row seq p.1 }
    if m.dram && d.tooMany n reqs.length then d
    else
      let d := (d.issued n h .memrd).countBeyond n m.depth rows
      if !m.dram then (d.modLee n fun e => e.puts (4 * dst) win).goNext n
      else
        let rd : MemRd := ⟨seq, pc, dst, d.width n, rows.map fun r => if r < m.depth then none else some .zero⟩
        ((d.modLee n fun e => { e with memrds := e.memrds ++ [rd], mem := e.mem ++ reqs }).goNext n).memrdGo n

/-- A model-memory line that has come returns to the oldest MEMRD whose lane waits for it (R97). -/
def memrdReturnEff (n lane : Nat) (d : Dev) : Dev :=
  match (d.lee n).memrds.find? fun m => m.lanes[lane]? == some none with
  | none => d
  | some m =>
    match (d.lee n).mem.find? fun r => r.use == .row m.seq lane && r.came.isSome with
    | none => d
    | some r =>
      (d.modLee n fun e => { e with
        mem := e.mem.erase r
        memrds := e.memrds.map fun y => if y.seq == m.seq then { y with lanes := y.lanes.set lane r.came } else y }).memrdGo n

/-- The lanes that a MEMWR writes, with their rows: enabled and below DEPTH (R96). -/
def Dev.memwrLanes (d : Dev) (n : Nat) (h : EvalWord) (rows : List Nat) : List (Nat × Nat) :=
  let win := d.srcWindow n h 0
  ((List.range (d.width n)).zip rows).filter fun p => h.weAlways || netOf win (d.width n) h.wepos p.1

/-- One lane of a row of a store-placed memory takes lane k of the data window. -/
def Dev.memwrStoreLane (d : Dev) (n i r k : Nat) (data : List Word) : Dev :=
  let width := d.width n
  let f := d.rowIndex n i r
  let old := (d.lee n).window f width
  d.modLee n fun e => e.puts (4 * f) (windowOf width fun net l =>
    if l = k then netOf data width net k else netOf old width net l)

/-- The line that a DRAM-placed row write stores: the lane's nets in bytes 0 to 31 and zero above (R95). -/
def rowLine (data : List Word) (width k : Nat) : Line :=
  BitVec.ofNat 512 ((List.range 256).foldr (fun net a => 2 * a + if netOf data width net k then 1 else 0) 0)

/-- MEMWR (R96, R97). The rows of a DRAM-placed one are written by requests, which may leave once no earlier word can fault. -/
def memwrEff (n : Nat) (err : EngErr) (d : Dev) : Dev :=
  d.issueWord n .memwr err fun h d =>
    let m := d.descriptor n h.mmd
    let rows := d.rows n h
    let data := d.srcWindow n h 1
    let lanes := d.memwrLanes n h rows
    let inside := lanes.filter fun p => decide (p.2 < m.depth)
    let pc := d.get LEE_PC.PC n
    let bad := if m.dram then
        inside.find? fun p => d.memCheck 2 0 true (d.rowAddr n h.mmd p.2 p.1) != .ok
      else none
    match bad with
    | some p =>
      let a := d.rowAddr n h.mmd p.2 p.1
      if (d.lee n).settled then (d.memRefused (d.memCheck 2 0 true a) 2 0 true a).leeFault n pc ⟨0x11, 5, a⟩ else d
    | none =>
      if m.dram && d.tooMany n inside.length then d
      else
        let seq := (d.lee n).seq
        let reqs : List LeeReq := inside.map fun p =>
          { addr := d.rowAddr n h.mmd p.2 p.1, use := .write seq (rowLine data (d.width n) p.1) }
        let d := (d.issued n h .memwr).countBeyond n m.depth (lanes.map (·.2))
        (if m.dram then d.modLee n fun e => { e with mem := e.mem ++ reqs }
         else inside.foldl (fun d p => d.memwrStoreLane n h.mmd p.2 p.1 data) d).goNext n

/-! ### Exchange words -/

/-- SEND (R98, R121, R232). A SEND that finds 1,024 unacknowledged, or 16 not accepted by the fabric, or the remote table full, waits with
BLOCK 6 (R110). -/
def sendEff (n : Nat) (err : EngErr) (d : Dev) : Dev :=
  d.issueWord n .send err fun h d =>
    let imm := h.imm
    let remote := imm.getLsbD 31
    let e := d.lee n
    if decide (1024 ≤ e.sends.length + e.notAccepted) || decide (16 ≤ e.notAccepted) || (remote && d.remoteFull) then d.block n 6
    else
      let m : XchMsg := { sleaf := n, dleaf := imm.bits 24 16, slot := imm.bits 15 0, step := imm.bits 39 32,
                          mc := d.get LEE_CYCLE.MCYCLE n, lanes := d.get LEE_CTL.LANES n, imm := imm,
                          data := d.srcWindow n h 0 }
      ((d.issued n h .send).leave n (.send m (if remote then some (imm.bits 30 25) else none))).goNext n

/-- The arrivals counted for a step of the current cycle (R124). -/
def Dev.arrived (d : Dev) (n step : Nat) : Nat :=
  (d.lee n).arrivals.find 0 (arrKey (d.get LEE_CYCLE.MCYCLE n % 2) step)

/-- Note with the word issued last what it takes, or that it sets SURPLUS. -/
def Lee.noteLast (e : Lee) (f : Issued → Issued) : Lee :=
  { e with pipe := e.pipe.map fun x => if x.seq == e.seq - 1 then f x else x }

/-- A WAIT takes its COUNT and completes (R124). -/
def Dev.waitDone (d : Dev) (n : Nat) (h : EvalWord) (step count : Nat) : Dev :=
  let key := arrKey (d.get LEE_CYCLE.MCYCLE n % 2) step
  let left := d.arrived n step - count
  ((d.issued n h .wait).modLee n fun e =>
    { e.noteLast (fun x => { x with took := [(key, count)] }) with arrivals := e.arrivals.set natLt 0 key left }).goNext n

/-- WAIT (R99, R124). -/
def waitEff (n : Nat) (err : EngErr) (d : Dev) : Dev :=
  d.issueWord n .wait err fun h d =>
    let step := h.imm.bits 39 32
    let count := h.imm.bits 12 0
    if d.arrived n step < count then d.block n 1 else d.waitDone n h step count

/-- A blocked WAIT finds its arrivals (R124). -/
def waitCompleteEff (n : Nat) (d : Dev) : Dev :=
  if d.get LEE_STAT.BLOCK n ≠ 1 then d else waitEff n .none d

/-! ### Stimulus and observation -/

/-- The first line of an entry that failed: the lowest address (R100). DESIGN CHOICE, assumption 26. -/
def StimEntry.failure (s : StimEntry) : Option LeeFault :=
  s.lines.findSome? fun x => match x with
    | some (.poison a) => some ⟨0x0C, 15, a⟩
    | some (.access a) => some ⟨0x11, 15, a⟩
    | _ => none

/-- The window at the start of a stimulus entry. -/
def StimEntry.window (s : StimEntry) (width : Nat) : List Word :=
  (List.range (4 * width)).map fun i => match s.lines.getD (i / 8) none with
    | some (.line x) => lineWord x (i % 8)
    | _ => 0

/-- STIM (R100). While the ring is empty it waits with BLOCK 3, and then for its entry; an entry that failed faults it and HEAD does not
advance. -/
def stimEff (n : Nat) (err : EngErr) (d : Dev) : Dev :=
  d.issueWord n .stim err fun h d =>
    if d.stimAvail n = 0 then d.block n 3
    else
      let head := d.get LEE_STIM_CTL.HEAD n
      match (d.lee n).stim.find? fun s => s.count == head with
      | none => (d.block n 0).stimPrefetch n
      | some s =>
        if s.lines.any (·.isNone) then d.block n 0
        else match s.failure with
          | some f => d.faultNow n (d.get LEE_PC.PC n) f
          | none =>
            let win := s.window (d.width n)
            let d := (d.issued n h .stim).writeDst n h win
            let d := d.modLee n fun e => { e with stim := e.stim.filter fun x => x.count != head }
            ((d.put LEE_STIM_CTL.HEAD (head + 1) n).goNext n).stimPrefetch n

/-- A line of a prefetched entry that has come returns (R100). -/
def stimReturnEff (n entry line : Nat) (d : Dev) : Dev :=
  match (d.lee n).mem.find? fun r => r.use == .stim entry line && r.came.isSome with
  | none => d
  | some r =>
    d.modLee n fun e => { e with
      mem := e.mem.erase r
      stim := e.stim.map fun t => if t.count == entry then { t with lines := t.lines.set line r.came } else t }

/-- The words that an OBSERVE emits: the groups of GMASK in order, as 64-bit words (R101). -/
def observeWords (win : List Word) (width gmask : Nat) : List Word :=
  if width = 1 then ((List.range 4).filter fun i => bit gmask (2 * i)).map fun i => win.getD i 0
  else ((List.range 8).filter (bit gmask)).flatMap fun g =>
    (List.range (width / 2)).map fun i => win.getD (g * (width / 2) + i) 0

/-- OBSERVE (R101). A second OBSERVE waits until the first has emitted its last word, with BLOCK 5. -/
def observeEff (n : Nat) (err : EngErr) (d : Dev) : Dev :=
  d.issueWord n .observe err fun h d =>
    if (d.lee n).observing then d.block n 5
    else
      let words := observeWords (d.srcWindow n h 0) (d.width n) (h.imm.bits 7 0)
      let head := (h.imm.bits 24 16, d.get LEE_CYCLE.MCYCLE n)
      ((d.issued n h .observe).leave n (.observe words head)).goNext n

/-! ### Cycle, barrier and testbench words -/

/-- A bank of arrival counters is cleared. -/
def clearBank (bank : Nat) (a : KMap Nat Nat) : KMap Nat Nat := a.filter fun p => decide (p.1 / 256 ≠ bank)

/-- COMMIT (R86, R125). -/
def commitEff (n : Nat) (err : EngErr) (d : Dev) : Dev :=
  d.issueWord n .commit err fun h d =>
    let mc := d.get LEE_CYCLE.MCYCLE n
    let bank := mc % 2
    let taken := (d.lee n).arrivals.filter fun p => p.1 / 256 == bank && p.2 != 0
    let surplus := !taken.isEmpty
    let sets := surplus && !d.flag LEE_XCH_STAT.SURPLUS n
    let d := (d.issued n h .commit).modLee n fun e =>
      { e.noteLast (fun x => { x with took := taken, surplus := sets }) with arrivals := clearBank bank e.arrivals }
    let d := if surplus then d.put LEE_XCH_STAT.SURPLUS 1 n else d
    ((d.put LEE_CYCLE.PLANE (1 - d.get LEE_CYCLE.PLANE n) n).put LEE_CYCLE.MCYCLE ((mc + 1) % 2 ^ 40) n).goNext n

/-- A BARRIER passes (R127). -/
def Dev.barrierPass (d : Dev) (n : Nat) : Dev :=
  let d := (d.put LEE_BAR.GEN (d.get LEE_BAR.GEN n + 1) n).put LEE_BAR.ARR 0 n
  let d := (d.issued n (d.fetchWord n) .barrier).modLee n fun e => { e with drain := .none, pipe := [] }
  d.goNext n

/-- The group has completed the barrier that the member waits in. -/
def Dev.barrierOver (d : Dev) (n : Nat) : Bool :=
  d.get FAB_MG_STAT.GEN 0 (d.get LEE_STAT.GROUP n) != d.get LEE_BAR.GEN n

/-- A drained BARRIER that waits passes if its arrival is counted and the group has completed it; none does while the engine stops
(R127, R141, R142). -/
def Dev.barrierGo (d : Dev) (n : Nat) : Dev :=
  let e := d.lee n
  if e.drain = .barrier && e.drained && !e.stopping && d.flag LEE_BAR.ARR n && d.barrierOver n then d.barrierPass n else d

/-- BARRIER (R118, R126, R127, R142). A member whose arrival is already counted does not signal again: it waits, or passes at
once if the barrier completed meanwhile. -/
def barrierEff (n : Nat) (err : EngErr) (d : Dev) : Dev :=
  d.issueWord n .barrier err fun _ d =>
    let g := d.get LEE_STAT.GROUP n
    let pc := d.get LEE_PC.PC n
    if g = 0xFF then d.faultNow n pc ⟨0x20, 15, 0⟩
    else match d.groupFault g with
      | some f => d.faultNow n pc f
      | none => ((d.modLee n fun e => { e with drain := .barrier }).block n 2).barrierGo n

/-- A drained BARRIER signals its arrival, once (R127, R128). -/
def barrierArrivalEff (n : Nat) (d : Dev) : Dev :=
  let e := d.lee n
  if e.drain ≠ .barrier || !e.drained || e.stopping then d
  else if d.flag LEE_BAR.ARR n then d.barrierGo n
  else (d.put LEE_BAR.ARR 1 n).groupArrive (d.get LEE_STAT.GROUP n) n

/-- A notification of completion (R127); one that finds the member not waiting is absorbed, and the member finds the
generation when it resumes (R142). -/
def barrierNotifyEff (n : Nat) (d : Dev) : Dev := (d.take (.barrierNotify n)).barrierGo n

/-- TRAP starts to drain (R103). -/
def trapEff (n : Nat) (err : EngErr) (d : Dev) : Dev :=
  d.issueWord n .trap err fun h d => (d.issued n h .trap).modLee n fun e => { e with drain := .trap }

/-- A drained TRAP (R103, R142). -/
def trapDrainedEff (n : Nat) (d : Dev) : Dev :=
  let e := d.lee n
  if e.drain ≠ .trap || !e.drained then d
  else
    let pc := d.get LEE_PC.PC n
    let code := (d.fetchWord n).imm.bits 15 0
    let d := (d.setLee n { e with drain := .none, pipe := [] }).put LEE_TRAP.CODE code n
    let d := (d.put LEE_TRAP.PC pc n).goto n (pc + 1)
    ((d.leeEnter n LEE_STAT.TRAPPED).leeIrq n 0).stopAfter n

/-- HALT starts to drain (R104). -/
def haltEff (n : Nat) (err : EngErr) (d : Dev) : Dev :=
  d.issueWord n .halt err fun h d => (d.issued n h .halt).modLee n fun e => { e with drain := .halt }

/-- A drained HALT (R104, R142). -/
def haltDrainedEff (n : Nat) (d : Dev) : Dev :=
  let e := d.lee n
  if e.drain ≠ .halt || !e.drained then d
  else
    let d := (d.setLee n { e with drain := .none, pipe := [] }).goNext n
    ((d.leeEnter n LEE_STAT.HALTED).leeIrq n 1).stopAfter n

/-- JUMP (R105). -/
def jumpEff (n : Nat) (err : EngErr) (d : Dev) : Dev :=
  d.issueWord n .jump err fun h d => (d.issued n h .jump).goto n (h.imm.bits 27 0)

/-- LOOP (R105). -/
def loopEff (n : Nat) (err : EngErr) (d : Dev) : Dev :=
  d.issueWord n .loop err fun h d =>
    let (armed, lc) := loopFields (h.imm.bits 29 28)
    let v := d.loopValue n h
    let d := d.issued n h .loop
    if 0 < v then ((d.put armed 1 n).put lc (v - 1) n).goto n (h.imm.bits 27 0)
    else ((d.put armed 0 n).put lc 0 n).goNext n

/-- The cause of a fault found after issue, for a word of an OP: 0x11 names the descriptor for a MEMRD or MEMWR (R112); none where a word
of that OP cannot meet it (R111). -/
def lateFault (c : LateCause) (op info : Nat) : Option LeeFault :=
  let mem := op = 0x08 || op = 0x09
  match c with
  | .storeUe => some ⟨0x09, 15, info / 8 * 8⟩
  | .mmemPoison => if op = 0x08 then some ⟨0x08, 5, info⟩ else none
  | .stimPoison => if op = 0x18 then some ⟨0x0C, 15, info⟩ else none
  | .accessError => if mem then some ⟨0x11, 5, info⟩ else if op = 0x18 then some ⟨0x11, 15, info⟩ else none
  | .shadow => if op = 0x01 || op = 0x02 then some ⟨0x0E, 15, info⟩ else none

/-- A fault found after issue, `back` words before the word issued last (R111): that word and the later ones are cancelled, and the engine
faults there. A word whose effects have left the engine can fault no more, and one that follows a MEMRD under way not yet.
DESIGN CHOICE, assumption 71. -/
def leeLateFaultEff (n back : Nat) (cause : LateCause) (info : Nat) (d : Dev) : Dev :=
  if !d.flag LEE_STAT.RUN n then d
  else match (d.lee n).pipe[back]? with
    | none => d
    | some x =>
      match lateFault cause x.op info with
      | none => d
      | some f => if (d.lee n).mayRelease x.seq then (d.cancelFrom n x.seq).leeFault n x.pc f else d

/-! ### Streamed mode (R131 to R133) -/

/-- Ask for the next lines of the pages, in increasing order, while fewer than 32 are in flight (R132). The number bounds the requests. -/
def pageAsk : Nat → Nat → Dev → Dev
  | 0, _, d => d
  | k + 1, n, d =>
    let e := d.lee n
    if 32 ≤ (e.mem.filter fun r => r.isPage fun _ => true).length then d
    else match e.pages.find? fun p => decide (p.next < 1024) with
      | none => d
      | some p =>
        pageAsk k n (d.setLee n { e with
          pages := e.pages.map fun y => if y.page == p.page then { y with next := p.next + 1 } else y
          mem := e.mem ++ [{ addr := d.pageLineAddr n p.page p.next, use := .page p.page p.next }] })

/-- The engine asks for whichever of pages q and q + 1 is not resident; the other page's buffer is dropped (R132). -/
def streamFetchEff (n : Nat) (d : Dev) : Dev :=
  if !d.leePresent n || !d.flag LEE_STAT.RUN n || !d.flag LEE_CTL.STREAM n then d
  else
    let q := d.pageNow n
    let keep := (d.lee n).pages.filter fun p => p.page == q || p.page == q + 1
    let add := [q, q + 1].filter fun x => !keep.any fun p => p.page == x
    let d := d.modLee n fun e => { e with
      pages := keep ++ add.map fun x => { page := x }
      mem := e.mem.filter fun r => !r.isPage fun x => x != q && x != q + 1 }
    pageAsk 32 n (d.showPages n)

/-- A line of a page that has come goes into its buffer, in increasing order; a failure is recorded for the page's turn (R132, R133). -/
def streamReturnEff (n page line : Nat) (d : Dev) : Dev :=
  match (d.lee n).pages.find? fun p => p.page == page with
  | none => d
  | some p =>
    match (d.lee n).mem.find? fun r => r.use == .page page line && r.came.isSome with
    | none => d
    | some r =>
      if p.got ≠ line then d
      else
        let x := r.came.getD .zero
        let idx := d.get LEE_MAP0.PROG_BASE n * 64 + 2048 * (page % 2) + 2 * line
        let d := d.modLee n fun e =>
          let e := match x with
            | .line v => e.putWords (4 * idx) ((List.range 8).map (lineWord v))
            | _ => e
          let bad := match x with
            | .line _ => p.bad
            | x => p.bad ++ [(line, x)]
          { e with mem := e.mem.erase r
                   pages := e.pages.map fun y => if y.page == page then { y with got := line + 1, bad := bad } else y }
        let d := pageAsk 1 n (d.showPages n)
        if d.get LEE_STAT.BLOCK n = 7 && (d.pageOf n).isSome then d.block n 0 else d

/-! ### Broken groups (R128, "When a member is lost") -/

/-- An ENABLED group breaks: BROKEN, its event, and a fault of every member that waits in BARRIER. -/
def Dev.breakGroup (d : Dev) (g : Nat) : Dev :=
  if d.groupState g ≠ 2 || d.flag FAB_MG_STAT.BROKEN 0 g then d
  else
    let d := (d.put FAB_MG_STAT.BROKEN 1 0 g).raiseSevere (10 + g)
    (d.members g).foldl (fun d n => if (d.lee n).drain = .barrier then d.drainCheck n else d) d

/-- Every ENABLED group with a member in a logical bough breaks. -/
def Dev.breakGroupsOf (d : Dev) (b : Nat) : Dev :=
  (List.range 16).foldl (fun d g =>
    if (List.range 16).any fun j => d.isMember g (16 * b + j) then d.breakGroup g else d) d

/-- Every ENABLED group with a span port in its mask breaks. -/
def Dev.breakGroupsOnPort (d : Dev) (p : Nat) : Dev :=
  (List.range 16).foldl (fun d g => if (d.groupPorts g).contains p then d.breakGroup g else d) d

/-- A token (g, gen8) arrives on a port (R128); one out of sequence sets SEQ_ERR and breaks the group. A group that is not
ENABLED or does not name the port has no place for it. -/
def Dev.tokenArrive (d : Dev) (p g gen8 : Nat) : Dev :=
  if d.groupState g ≠ 2 || !(d.groupPorts g).contains p then d
  else
    let gen := d.get FAB_MG_STAT.GEN 0 g
    let x := d.group g
    if gen8 = gen % 256 && !d.token g p then
      (d.put FAB_MG_STAT.TOKENS (setBit (d.get FAB_MG_STAT.TOKENS 0 g) p true) 0 g).groupProgress g
    else if gen8 = (gen + 1) % 256 && !x.held.contains p then d.setGroup g { x with held := x.held ++ [p] }
    else (d.put FAB_MG_STAT.SEQ_ERR 1 0 g).breakGroup g

/-! ### The LEE reset (R143) -/

/-- The registers of an LEE block that a LEE reset sets to their reset values: all but LEE_STAT.GROUP and LEE_BAR. -/
def Dev.resetLeeRegs (d : Dev) (n : Nat) : Dev :=
  let group := d.get LEE_STAT.GROUP n
  let keep (p : Reg × Word) : Bool := !(p.1.name.block == .lee && p.1.u == n) || p.1.name == .LEE_BAR
  { d with regs := d.regs.filter keep }.put LEE_STAT.GROUP group n

/-- LEE_BAR is loaded from the group (R143). -/
def Dev.loadBar (d : Dev) (n : Nat) : Dev :=
  let g := d.get LEE_STAT.GROUP n
  if g = 0xFF then (d.put LEE_BAR.GEN 0 n).put LEE_BAR.ARR 0 n
  else (d.put LEE_BAR.GEN (d.get FAB_MG_STAT.GEN 0 g) n).put LEE_BAR.ARR
    (if (d.group g).arrived.contains n then 1 else 0) n

/-- The IMMs of the SENDs of an engine that are still to be acknowledged: their windows or acknowledgements are under way, held at a gate,
or in the table of remote SENDs. -/
def Dev.acksToCome (d : Dev) (n : Nat) : List Word :=
  let mine (m : XchMsg) : Option Word := if m.sleaf == n && m.remote.isNone then some m.imm else none
  (d.packets.filterMap fun p => match p with
    | .xch m => mine m
    | .xchAck l imm _ => if l == n then some imm else none
    | _ => none)
  ++ (d.fabric.heldAcc.flatMap fun p => p.2.filterMap fun x => match x with
    | .send m => mine m
    | _ => none)
  ++ d.remoteSends.filterMap fun x => if x.leaf == n then some x.imm else none

/-- A LEE reset: the engine is IDLE, the store and its valid bits stay, and the acknowledgements of the SENDs still delivered
will be discarded (R143). -/
def Dev.leeReset (d : Dev) (n : Nat) : Dev :=
  let e := d.lee n
  let e' : Lee := { store := e.store, valid := e.valid, discardAcks := d.acksToCome n, credits := e.credits }
  ((d.setLee n e').resetLeeRegs n).loadBar n

end Sys2Proof.Machine
end

