-- ==== Sys2Proof/Machine/Events.lean ====
section
/-!
DEFINITION. Events (spec/14, R342 to R355, R420): the EVC entry of a source, the severe bits, the first-error latch and the
capture ring, the FAULT_N pin, the compatibility collector, and the safe state.
-/

namespace Sys2Proof.Machine

/-- A source is severe: its sticky bit in EVC_SEV. -/
def Dev.severe (d : Dev) (n : Nat) : Bool := bit (d.get EVC_SEV.SEV 0 (n / 64)) (n % 64)

/-! ### The FAULT_N pin (R349, R350, R420) -/

/-- Some severe source has PIN = 1. -/
def Dev.severePin (d : Dev) : Bool :=
  d.regs.any fun p => p.1.name == .EVC_SEV &&
    (List.range 64).any fun b => p.2.getLsbD b && d.flag EVC_SRC_CTL.PIN 0 (64 * p.1.k + b)

/-- The pin is driven low. -/
def Dev.faultLow (d : Dev) : Bool :=
  if d.flag EVC_STAT.SAFE then true
  else if d.get SIM_STAT.STATE = 3 then true
  else if d.get SIM_STAT.STATE ≠ 2 then false
  else if d.flag EVC_PIN.MODE then d.severePin
  else d.pulse || d.get EVC_PIN.LEVEL == 0

/-- EVC_PIN reports the pin. -/
def Dev.showPin (d : Dev) : Dev := d.put EVC_PIN.LOW (if d.faultLow then 1 else 0)

/-! ### The compatibility collector (R351, R352) -/

/-- The collector samples its inputs: an enabled input whose source is severe sets its pending bit, and a change from 0 to 1
under the mask sends one MSI. -/
def Dev.collect (d : Dev) : Dev :=
  if !d.flag CMP_CTL.EN then d
  else (d.regs.filter fun p => p.1.name == .CMP_SEL).foldl (fun d p =>
    let i := p.1.k
    let r := i / 64
    let old := d.get CMP_PEND.BITS 0 r
    if d.flag CMP_SEL.EN 0 i && d.severe (d.get CMP_SEL.SOURCE 0 i) && !bit old (i % 64) then
      let d := d.put CMP_PEND.BITS (setBit old (i % 64) true) 0 r
      if bit (d.get CMP_MASK.BITS 0 r) (i % 64) then d.sendMsi (d.get CMP_IRQ.TARGET) else d
    else d) d

/-! ### The safe state (R353 to R355) -/

/-- Enter the safe state, or add a cause to it: 0 collector parity, 1 a source with SAFE set, 2 EVC_SAFE, 3 BMC. On entry the
pin is static and low, every leaf takes SAFE_STATE and every engine stops. DEDUCED, assumption 58. -/
def Dev.enterSafe (d : Dev) (cause : Nat) : Dev :=
  let d := d.put EVC_STAT.CAUSES (setBit (d.get EVC_STAT.CAUSES) cause true)
  if d.flag EVC_STAT.SAFE then d
  else
    let d := (d.put EVC_STAT.SAFE 1).put EVC_PIN.MODE 1
    let d := (List.range (16 * d.boughsB)).foldl (fun d n =>
      (leeDisableEff n d).machineCheck n ⟨8, 0, d.mchkLoc n 8⟩) d
    d.showPin

/-- An input's wires read equal (R351). -/
def cmpWireEff (i : Nat) (d : Dev) : Dev :=
  if 128 ≤ i || !d.flag CMP_CTL.EN || !d.flag CMP_SEL.EN 0 i then d
  else (d.put CMP_WIRE.BITS (setBit (d.get CMP_WIRE.BITS 0 (i / 64)) (i % 64) true) 0 (i / 64)).raiseSevere 114

/-- A parity mismatch of a configuration register of the collector (R352): 0 CMP_CTL, 1 CMP_IRQ, 2 and 3 CMP_MASK, 4 on the
CMP_SEL registers. -/
def cmpParityEff (reg : Nat) (d : Dev) : Dev :=
  if 132 ≤ reg then d else (d.put CMP_STAT.PAR_FAULT 1).enterSafe 0

/-! ### The EVC entry of a source (R343 to R348) -/

/-- The entry sends its MSI unless one of the source is being written (R343). -/
def Dev.evcMsi (d : Dev) (n : Nat) : Dev :=
  let t := d.get EVC_SRC_CTL.TARGET 0 n
  if d.evcBusy.contains n || !bit t 31 then d
  else { d.sendMsi t with evcBusy := d.evcBusy ++ [n] }

/-- The words of a capture entry (R348). -/
def captureWords (n : Nat) (sev : Bool) (i : EvInfo) (t : Word) : List Word :=
  [BitVec.ofNat 64 ((if sev then 2 ^ 63 else 0) + (i.access % 8 <<< 60) + (i.mkind % 16 <<< 56) + (i.mid % 2 ^ 20 <<< 36)
    + n % 1024), BitVec.ofNat 64 (i.addr % 2 ^ 48), i.loc, t]

/-- The capture ring takes an event, or counts it as dropped when it is full (R348). -/
def Dev.capture (d : Dev) (n : Nat) (sev : Bool) (i : EvInfo) : Dev :=
  if !d.hasCapture || !d.flag EVC_SRC_CTL.CAP 0 n then d
  else
    let tail := d.get EVC_CAP_TAIL.COUNT
    if (tail + 2 ^ 32 - d.get EVC_CAP_HEAD.COUNT) % 2 ^ 32 = 64 then d.bump EVC_CAP_DROP.COUNT
    else
      let d := (((captureWords n sev i d.ring).zipIdx).foldl (fun d p =>
        d.setReg ⟨.EVC_CAP, 0, 4 * (tail % 64) + p.2⟩ p.1) d)
      d.put EVC_CAP_TAIL.COUNT (tail + 1)

/-- A new severe fault (R344, R347, R349, R353). -/
def Dev.newSevere (d : Dev) (n : Nat) : Dev :=
  let d := d.put EVC_SEV.SEV (setBit (d.get EVC_SEV.SEV 0 (n / 64)) (n % 64) true) 0 (n / 64)
  let d := if d.hasCapture && !d.flag EVC_FIRST.VALID then
      ((d.put EVC_FIRST.VALID 1).put EVC_FIRST.SOURCE n).put EVC_FIRST_RING.RING d.ring.toNat else d
  let d := if d.flag EVC_SRC_CTL.PIN 0 n && !d.flag EVC_PIN.MODE then { d.bump EVC_PIN.PULSES with pulse := true } else d
  let d := if d.flag EVC_SRC_CTL.SAFE 0 n then
      (if bit (d.get EVC_STAT.CAUSES) 1 then d else d.put EVC_STAT.SAFE_SRC n).enterSafe 1 else d
  d.collect.showPin

/-- An event with count p reaches the entry of source n (R344). -/
def Dev.classify (d : Dev) (n p : Nat) (i : EvInfo) : Dev :=
  let t := d.ring
  let win := d.evc.find {} n
  let fresh := !win.opened || decide (2 ^ d.get EVC_SRC_CTL.WLOG2 0 n ≤ (t - win.start).toNat)
  let d := if fresh then
      { (d.put EVC_SRC_STAT.WSTART (t.toNat % 2 ^ 32) 0 n).put EVC_SRC_STAT.COUNT 0 0 n with
        evc := d.evc.set natLt {} n ⟨true, t⟩ } else d
  let d := (d.bump EVC_SRC_STAT.COUNT p 0 n).bump EVC_SRC_STAT.TOTAL p 0 n
  let newSev := (decide (d.get EVC_SRC_CTL.N 0 n ≤ d.get EVC_SRC_STAT.COUNT 0 n) || i.severe) && !d.severe n
  let d := d.capture n newSev i
  let d := if newSev then d.newSevere n else d
  if newSev || d.flag EVC_SRC_CTL.EVERY 0 n then d.evcMsi n else d

/-- EVENT_RECEIVE: the entry takes the pulses, and the acknowledge lets the source send what its accumulator holds
(R206, R343). -/
def eventReceiveEff (n count : Nat) (i : EvInfo) (d : Dev) : Dev :=
  let d := d.take (.event n count i)
  if !d.sourcePresent n || d.pulseLost n then d
  else
    let d := d.classify n count i
    let a := d.evAcc.find {} n
    if a.count = 0 then d
    else { d.send (.event n a.count a.info) with evAcc := d.evAcc.set natLt {} n {} }

/-- The MSI of a source has been performed at its target (R343). -/
def evcMsiCompleteEff (n : Nat) (d : Dev) : Dev := { d with evcBusy := d.evcBusy.filter (· != n) }

/-- A write of 1s to EVC_SEV (R346): the bits clear, the window count stays. -/
def sevClearEff (i : Nat) (mask : Word) (d : Dev) : Dev :=
  if 16 ≤ i then d
  else (d.setReg ⟨.EVC_SEV, 0, i⟩ (d.reg ⟨.EVC_SEV, 0, i⟩ &&& ~~~mask)).collect.showPin

/-- A pulse on FAULT_N ends 2 µs after the last new severe fault (R349). -/
def pulseEndEff (d : Dev) : Dev := { d with pulse := false }.showPin

/-- A write of EVC_SAFE.GO: it acts only from a leaf in M mode (R353). -/
def evcSafeEff (req : Requester) (d : Dev) : Dev :=
  match req with
  | .leaf _ .machine => d.enterSafe 2
  | _ => d

end Sys2Proof.Machine
end

