-- ==== Sys2Proof/Machine/PowerBase.lean ====
section
/-!
DEFINITION. The entry handshake's bookkeeping (spec/15, R363 to R365): refusals, aborted entries and the end of a request. It
stands ahead of the units that may end an entry (an isolation does, "When a wake and a reset meet an entry").
-/

namespace Sys2Proof.Machine

/-- The event source number of a block that answers an entry request (R342, R363). -/
def Dev.hsSource (d : Dev) : HsBlock → Nat
  | .leaf n | .lee n => d.leafSource n
  | .l3c s => siteSource s 17
  | .packer s => siteSource s 25
  | .graft s p => siteSource s (18 + p)
  | .channel m => 58 + m

/-- The handshake count of a block: BPW_HS_CNTj for the leaf with index j, BPW_HS_CNT16 for the other blocks of a bough,
PWR_HS_CNT for a trunk block. -/
def Dev.hsCount (d : Dev) (b : HsBlock) (aborted : Bool) : Dev :=
  let bough (s i : Nat) : Dev :=
    if aborted then d.bump BPW_HS_CNT.ABORTED 1 s i else d.bump BPW_HS_CNT.REFUSED 1 s i
  match b with
  | .leaf n => bough (d.leafSite n) (n % 16)
  | .lee n => bough (d.leafSite n) 16
  | .l3c s | .packer s | .graft s _ => bough s 16
  | .channel _ => if aborted then d.bump PWR_HS_CNT.ABORTED else d.bump PWR_HS_CNT.REFUSED

/-- A block refuses with a reason code of R364. -/
def Dev.hsRefused (d : Dev) (b : HsBlock) (reason : Nat) : Dev :=
  let d := d.hsCount b false
  (((d.put PWR_HS_LAST.VALID 1).put PWR_HS_LAST.REASON reason).put PWR_HS_LAST.BLOCK (d.hsSource b)).put PWR_HS_LAST.RING
    d.ringLow

/-- Every block that had accepted counts the entry as aborted. -/
def Dev.hsAborted (d : Dev) (bs : List HsBlock) : Dev := bs.foldl (fun d b => d.hsCount b true) d

/-- The state PWR_BSTATE reports for a site. -/
def Dev.bstate (d : Dev) (s : Nat) : Nat := d.get ⟨.PWR_BSTATE, 2 * s + 1, 2 * s⟩

/-- Report a site's power state. -/
def Dev.setBstate (d : Dev) (s v : Nat) : Dev := d.put ⟨.PWR_BSTATE, 2 * s + 1, 2 * s⟩ v

/-- The request of PWR_BOUGH_CTL ends. -/
def Dev.boughDone (d : Dev) (result reason : Nat) : Dev :=
  (((d.put PWR_BOUGH_CTL.RESULT result).put PWR_BOUGH_CTL.REASON reason).put PWR_BOUGH_CTL.DONE 1).put PWR_BOUGH_CTL.BUSY 0

/-- The request of PWR_PKG_CTL ends without its state: the package is ACTIVE again (R368). DESIGN CHOICE, assumption 76. -/
def Dev.packageFails (d : Dev) (result reason : Nat) : Dev :=
  let d := match d.power.package with
    | some p => d.hsAborted p.accepted
    | none => d
  { ((d.put PWR_PKG_CTL.RESULT result).put PWR_PKG_CTL.REASON reason).put PWR_PKG_CTL.STATE 0 with
    power := { d.power with package := none } }

/-- An entry of a bough ends without its state: the blocks that had accepted return to service, the L3 is enabled again if it was
before, and the requester is told (R363, R365). DESIGN CHOICE, assumption 76. -/
def Dev.entryFails (d : Dev) (s result reason : Nat) : Dev :=
  match d.power.entries.find? fun p => p.1 == s with
  | none => d
  | some (_, e) =>
    let d := { d.hsAborted e.accepted with power := { d.power with entries := d.power.entries.filter fun p => p.1 != s } }
    let d := d.setBstate s 0
    let d := if e.l3 then ((d.put L3C_CTL.EN 1 s).put L3C_STAT.FLUSHING 0 s) else d
    if e.forPackage then d.packageFails 2 6 else d.boughDone result reason

end Sys2Proof.Machine
end

