-- ==== Sys2Proof/Machine/Home.lean ====
section
/-!
DEFINITION. The home agents (spec/07): requests, snoops, grants, write-backs, directory capacity, the home timeout and purges;
with the isolation of a site, which a home may request (R182, R197).
-/

namespace Sys2Proof.Machine

/-- Change home agent q. -/
def Dev.modHome (d : Dev) (q : Nat) (f : Home → Home) : Dev := d.setHome q (f (d.home q))

/-- Count a directory event (DIR_CNT). -/
def Dev.dirCount (d : Dev) (q i : Nat) (n : Nat := 1) : Dev := d.count DIR_CNT.COUNT n q i

/-- The home of a line number. -/
def Dev.homeOfLine (d : Dev) (line : Nat) : Nat := d.homeOf (64 * line)

/-- The directory set of a line (R163): PA[22:6] xor PA[39:23]. -/
def dirSet (line : Nat) : Nat := (line % 2 ^ 17) ^^^ (line / 2 ^ 17 % 2 ^ 17)

/-- The line's entry. -/
def Dev.entry (d : Dev) (q line : Nat) : DirEntry := (d.home q).dir.find {} line

/-- Replace the line's entry. -/
def Dev.setEntry (d : Dev) (q line : Nat) (e : DirEntry) : Dev :=
  d.modHome q fun h => { h with dir := h.dir.set natLt {} line e }

/-- The open transaction of a line. -/
def Home.txn (h : Home) (line : Nat) : Option HomeTxn := h.txns.find? fun t => t.req.line == line

/-- Replace the open transaction of a line. -/
def Dev.setTxn (d : Dev) (q : Nat) (t : HomeTxn) : Dev :=
  d.modHome q fun h => { h with txns := h.txns.map fun x => if x.req.line == t.req.line then t else x }

/-- The bough that a request travels as: that of an engine too (R168); none for a requester of the trunk. -/
def HomeReq.bough (r : HomeReq) : Option Nat :=
  match r.src with
  | .bough b => some b
  | .lee n => some (n / 16)
  | _ => none

/-- The request is to leave a bough holding the line (R177). -/
def allocates : CohOp → Bool
  | .rdShared | .rdUnique | .upgrade | .claim => true
  | _ => false

/-- Ways of a set in use: valid entries outside the starvation slots, and open transactions that will make one. -/
def Dev.setUse (d : Dev) (q set : Nat) : Nat :=
  let h := d.home q
  let entries := h.dir.filter fun p => p.2.st != .invalid && dirSet p.1 == set && !h.slots.any fun s => s.2 == p.1
  let coming := h.txns.filter fun t => !t.evict && (allocates t.req.op) && dirSet t.req.line == set
    && (h.dir.find {} t.req.line).st == .invalid && !h.slots.any fun s => s.2 == t.req.line
  entries.length + coming.length

/-- The victim of a full set (R177): unpinned, SHARED before EXCL before OWNED, the least recently allocated first. -/
def Dev.dirVictim (d : Dev) (q set : Nat) : Option Nat :=
  let h := d.home q
  let free := h.dir.filter fun p => p.2.st != .invalid && dirSet p.1 == set && (h.txn p.1).isNone
    && !h.slots.any fun s => s.2 == p.1
  let pick (st : DState) : Option Nat :=
    let c := free.filter fun p => p.2.st == st
    (c.find? fun p => c.all fun r => decide (p.2.stamp ≤ r.2.stamp)).map (·.1)
  (pick .shared).orElse fun _ => (pick .excl).orElse fun _ => pick .owned

/-- Send a snoop (R167). -/
def Dev.sendSnoop (d : Dev) (q line : Nat) (kind : Snoop) (fwd : Option Nat) (b : Nat) : Dev :=
  (d.emit (.snoop kind b line fwd)).dirCount q 1

/-- New requests of a channel are held at its input: QUIESCE, a sweep, a re-initialisation, a BIST, or self-refresh (R274 to
R277, R368). -/
def Dev.channelHolds (d : Dev) (m : Nat) : Bool :=
  d.flag MEM_CTL.QUIESCE m || d.flag MEM_TRAIN.BUSY m || d.flag MEM_BIST.BUSY m || d.get MEM_STAT.STATE m == 6

/-- A request goes to a CXL device (R291). -/
def Dev.askCxl (d : Dev) (r : CxlReq) : Dev :=
  match cxlPort r.line with
  | some n => { d with cxl := d.cxl.set natLt [] n (d.cxl.find [] n ++ [r]) }
  | none => d

/-- The entries of a channel's read queue and write queue, and of its real-time queue (R266). -/
def readSlots : Nat := 64

/-- The entries of a channel's real-time queue (R266). -/
def rtSlots : Nat := 16

/-- The entries of the write queue. -/
def MemCh.writes (c : MemCh) : List QueuedWrite := c.queue.filter fun w => !w.rt

/-- The entries of the real-time queue. -/
def MemCh.rt (c : MemCh) : List QueuedWrite := c.queue.filter (·.rt)

/-- Ask memory for a line: the channel's read queue or its input, or the CXL port's. -/
def Dev.askMemory (d : Dev) (q line : Nat) (src : CohReq) : Dev :=
  match rangeOf (64 * line) with
  | .dram =>
    match d.channelOf (64 * line) with
    | some (m, _) =>
      let r : MemRead := { line := line, home := q, src := src, arrived := d.ring }
      let c := d.channel m
      let held := d.channelHolds m || !c.input.isEmpty || decide (readSlots ≤ c.reads.length + c.issued.length)
      d.setChannel m (if held then { c with input := c.input ++ [r] } else { c with reads := c.reads ++ [r] })
    | none => d
  | _ => d.askCxl { line := line, home := q }

/-- A channel accepts a write now (R171, R266): it holds no requests, no earlier write waits, and the queue has an entry free. -/
def Dev.channelTakes (d : Dev) (m : Nat) (trace : Bool) : Bool :=
  let c := d.channel m
  !d.channelHolds m && c.inputWrites.isEmpty
  && if trace then decide (c.rt.length < rtSlots) else decide (c.writes.length < readSlots)

/-- A write enters a channel's queue, from which it has still to be issued, and takes effect; a trace write enters the real-time queue
(R266). One that nobody waits for took effect when it was handed over. DEDUCED, assumption 20. -/
def Dev.acceptWrite (d : Dev) (m : Nat) (w : MemWrite) : Dev :=
  let d := if w.who == .nobody then d else d.setMemLine w.line w.data
  let c := d.channel m
  d.setChannel m { c with queue := c.queue ++ [⟨w.line, w.src, w.trace⟩] }

/-- Hand a line to memory: whether the write is accepted at once, and what follows; one that is not waits at the channel's input. A
write that nobody waits for takes effect all the same. A CXL device has the write to accept (R291), a FAILED channel does without
it (R277). -/
def Dev.putMemory (d : Dev) (w : MemWrite) : Bool × Dev :=
  match rangeOf (64 * w.line) with
  | .dram =>
    match d.channelOf (64 * w.line) with
    | some (m, _) =>
      let d := if w.who == .nobody then d.setMemLine w.line w.data else d
      if d.get MEM_STAT.STATE m == 4 then (true, d)
      else if d.channelTakes m w.trace then (true, d.acceptWrite m w)
      else
        let c := d.channel m
        (false, d.setChannel m { c with inputWrites := c.inputWrites ++ [w] })
    | none => (true, d)
  | .cxl =>
    (true, if d.cxlDown w.line then d.cxlNote w.line else d.askCxl { line := w.line, home := 0, write := true, data := some w.data })
  | _ => (true, d.setMemLine w.line w.data)

/-- Hand a line to memory where nobody waits for the write. -/
def Dev.writeMemory (d : Dev) (line : Nat) (x : LineData) : Dev := (d.putMemory { line := line, data := x }).2

/-- An EXCL entry of a bough. -/
def exclEntry (r : Nat) : DirEntry := { st := .excl, owner := r, sharers := [r] }

/-- Sorted insertion in a list of boughs without repeats. -/
def addSharer (r : Nat) (l : List Nat) : List Nat := insertNat r l

/-- The table of R170. Except for UPGRADE of a recorded requester, the requester is treated as not recorded. -/
def plan (req : HomeReq) (e : DirEntry) : Plan :=
  let r := req.bough.getD 31
  let others := e.sharers.filter (· != r)
  let inv (l : List Nat) : List (Nat × Snoop) := l.map fun b => (b, .inv)
  -- the entry as it stands without the requester
  let st : DState := match e.st with
    | .excl => if e.owner = r then .invalid else .excl
    | .owned => if e.owner = r then (if others.isEmpty then .invalid else .shared) else .owned
    | .shared => if others.isEmpty then .invalid else .shared
    | .invalid => .invalid
  let unique : Plan := match st with
    | .invalid => { grant := .excl, final := exclEntry r }
    | .shared => { snoops := inv others, grant := .excl, final := exclEntry r }
    | .owned => { snoops := (e.owner, .unique) :: inv (others.filter (· != e.owner)), fwd := true, grant := .modified
                  final := exclEntry r }
    | .excl => { snoops := [(e.owner, .unique)], fwd := true, grant := .excl, final := exclEntry r }
  match req.op with
  | .rdShared => match st with
    | .invalid => { grant := .excl, final := exclEntry r }
    | .shared => { grant := .shared, final := { st := .shared, sharers := addSharer r others } }
    | .owned => { snoops := [(e.owner, .shared)], fwd := true, grant := .shared
                  final := { st := .owned, owner := e.owner, sharers := addSharer r others } }
    | .excl => { snoops := [(e.owner, .shared)], fwd := true, grant := .shared
                 final := { st := .owned, owner := e.owner, sharers := addSharer r others } }
  | .rdUnique => unique
  | .upgrade =>
    if (e.st = .shared || e.st = .owned) && e.sharers.contains r then
      { snoops := inv others, noData := true, grant := if e.st = .owned then .modified else .excl, final := exclEntry r }
    else unique
  | .claim => { snoops := inv others, noData := true, grant := .excl, final := exclEntry r }
  | .rdNoalloc => match st with
    | .owned | .excl => { snoops := [(e.owner, .current)], final := e }
    | _ => { final := e }
  | .wrFull => { snoops := inv others, final := {} }
  | .wrPartial => match st with
    | .owned | .excl => { snoops := (e.owner, .unique) :: inv (others.filter (· != e.owner)), final := {} }
    | _ => { snoops := inv others, final := {} }

/-- The destination of forwarded data: the requesting bough, or none when it goes to the home. -/
def HomeTxn.forwardTo (t : HomeTxn) : Option Nat := if t.evict || !(allocates t.req.op) then none else t.req.bough

/-- An entry without a bough (R183), and whether its line is to be poisoned. -/
def purgeEntry (b : Nat) (poison : Bool) (e : DirEntry) : DirEntry × Bool :=
  let rest := e.sharers.filter (· != b)
  let owned := (e.st = .owned || e.st = .excl) && e.owner = b
  if !e.sharers.contains b && !owned then (e, false)
  else if rest.isEmpty then ({ epoch := e.epoch }, owned && poison)
  else if owned then ({ st := .shared, sharers := rest, epoch := e.epoch, stamp := e.stamp }, poison)
  else ({ e with sharers := rest }, false)

/-- Close a transaction: the entry takes its final state, without the boughs that timed out, and what waits goes on in `resume`. -/
def Dev.closeTxn (resume : Nat → Nat → Dev → Dev) (q : Nat) (t : HomeTxn) (d : Dev) : Dev :=
  let d := d.modHome q fun h => { h with txns := h.txns.filter fun x => x.req.line != t.req.line }
  let d := if t.req.op = .rdNoalloc && !t.evict then d
    else
      let e := t.gone.foldl (fun e b => (purgeEntry b false e).1) t.final
      d.setEntry q t.req.line (if e.st = .invalid then { epoch := t.final.epoch } else { e with stamp := t.stamp })
  resume q t.req.line d

/-- Judge a write-back (R175): valid when the entry names the sender as owner with its epoch. -/
def Dev.judgeWb (d : Dev) (q : Nat) (w : HeldWb) : Dev :=
  let e := d.entry q w.line
  if (e.st = .owned || e.st = .excl) && e.owner = w.bough && e.epoch = w.epoch then
    let rest := e.sharers.filter (· != w.bough)
    let e' : DirEntry := if e.st = .excl || rest.isEmpty then { epoch := e.epoch }
      else { st := .shared, sharers := rest, epoch := e.epoch, stamp := e.stamp }
    let (now, d) := (d.setEntry q w.line e').putMemory { line := w.line, data := w.data, who := .wb w.bough, src := some (.bough w.bough) }
    if now then d.emit (.wbAck w.bough w.line true) else d
  else (d.dirCount q 6).emit (.wbAck w.bough w.line false)

/-- The grant and epoch that a transaction gives, and the entry with that epoch (R171). -/
def HomeTxn.granted (t : HomeTxn) (g : Grant) : HomeTxn × Nat :=
  if g = .excl || g = .modified then
    let ep := (t.final.epoch + 1) % 16
    ({ t with final := { t.final with epoch := ep } }, ep)
  else (t, t.final.epoch)

/-- Send the line from the home to the requester with its grant; a requester that keeps a copy owes COMP_ACK, and any other
transaction closes (R171). -/
def Dev.sendData (resume : Nat → Nat → Dev → Dev) (q : Nat) (t : HomeTxn) (g : Grant) (x : LineData) (d : Dev) : Dev :=
  let (t, ep) := t.granted g
  let d := d.emit (.data t.req.src t.req.line g ep x)
  if (allocates t.req.op) then d.setTxn q { t with waitAck := true } else d.closeTxn resume q t

/-- Send a grant without data; DATA_FWD brings the line, or none is sent. A snoop that timed out marks the line poisoned for a
requester that receives data (R181). DEDUCED, assumption 3. -/
def Dev.sendGrant (q : Nat) (t : HomeTxn) (g : Grant) (d : Dev) : Dev :=
  let (t, ep) := t.granted g
  (d.emit (.grant (t.req.bough.getD 31) t.req.line g ep (t.poison && !t.plan.noData))).setTxn q { t with waitAck := true }

/-- A transaction's write has been accepted: WR_COMP goes to the requester and the transaction closes (R171). -/
def Dev.wroteTxn (resume : Nat → Nat → Dev → Dev) (q : Nat) (t : HomeTxn) (d : Dev) : Dev :=
  let d := if t.evict then d else d.emit (.wrComp t.req.src t.req.line t.poison)
  d.closeTxn resume q { t with writing := false }

/-- A transaction writes its line. -/
def Dev.txnWrite (resume : Nat → Nat → Dev → Dev) (q : Nat) (t : HomeTxn) (x : LineData) (d : Dev) : Dev :=
  let (now, d) := (d.setTxn q { t with writing := true }).putMemory
    { line := t.req.line, data := x, trace := t.req.src == .trace && !t.evict, who := .txn q, src := some t.req.src }
  if now then d.wroteTxn resume q t else d

/-- Ask memory for the line of a transaction; a CXL link that is down and a FAILED channel answer with poison at once (R277, R291). -/
def Dev.txnRead (resume : Nat → Nat → Dev → Dev) (q : Nat) (t : HomeTxn) (g : Grant) (d : Dev) : Dev :=
  if d.memDead t.req.line then (d.cxlNote t.req.line).sendData resume q t g (d.memLine t.req.line)
  else (d.setTxn q { t with fromMem := true }).askMemory q t.req.line t.req.src

/-- The grant of a line that comes from memory. -/
def HomeTxn.memoryGrant (t : HomeTxn) : Grant :=
  if !(allocates t.req.op) then .none else if t.final.st = .excl then .excl else .shared

/-- Go on with a transaction whose snoops are all answered (R170, R171, R177, R181). -/
def Dev.advanceTxn (resume : Nat → Nat → Dev → Dev) (q : Nat) (t : HomeTxn) (d : Dev) : Dev :=
  if !t.snoops.isEmpty || t.waitAck || t.fromMem || t.writing then d
  else if t.evict then
    match t.got with
    | some x => d.txnWrite resume q t x
    | none => d.closeTxn resume q t
  else match t.req.op with
    | .rdNoalloc =>
      match t.got with
      | some x => d.sendData resume q t .none x
      | none => d.txnRead resume q t .none
    | .wrFull | .wrPartial =>
      let old := t.got.getD (d.memLine t.req.line)
      let x : LineData := if t.req.op = .wrFull then ⟨t.req.data, false⟩
        else ⟨mergeLine old.data t.req.data t.req.mask, old.poison || t.poison⟩
      if (cxlPort t.req.line).isSome && !d.cxlDown t.req.line then
        (d.setTxn q { t with fromMem := true, poison := x.poison }).askCxl
          { line := t.req.line, home := q, write := true, data := some x, comp := true }
      else d.txnWrite resume q { t with poison := x.poison || d.memDead t.req.line } x
    | _ =>
      if t.plan.noData then d.sendGrant q t t.plan.grant
      else match t.fwd with
        | some ans =>
          let g : Grant := if t.req.op = .rdShared then .shared else if ans = .fwdDirty then .modified else .excl
          let final : DirEntry :=
            if t.req.op = .rdShared && ans = .fwdClean then { t.final with st := .shared, owner := 0 } else t.final
          d.sendGrant q { t with final := final } g
        | none =>
          -- no bough supplied the line: memory does, and a holder that answered I is gone
          let r := t.req.bough.getD 31
          let e := t.found
          let final : DirEntry :=
            if t.plan.fwd && t.req.op = .rdShared && e.st = .excl then { exclEntry r with epoch := e.epoch }
            else if t.plan.fwd && t.req.op = .rdShared then
              { st := .shared, sharers := addSharer r (e.sharers.filter (· != e.owner)), epoch := e.epoch }
            else t.final
          let t := { t with final := final }
          d.txnRead resume q t t.memoryGrant

/-- The line comes from memory for a transaction that asked for it. -/
def Dev.memoryData (resume : Nat → Nat → Dev → Dev) (q line : Nat) (x : LineData) (d : Dev) : Dev :=
  match (d.home q).txn line with
  | none => d
  | some t =>
    if !t.fromMem then d
    else d.sendData resume q { t with fromMem := false } t.memoryGrant ⟨x.data, x.poison || t.poison⟩

/-- Send the snoops of a new transaction and go on with it. An entry that it makes is stamped with its allocation (R177). -/
def Dev.startTxnAt (resume : Nat → Nat → Dev → Dev) (q : Nat) (t : HomeTxn) (d : Dev) : Dev :=
  let h := d.home q
  let t := { t with stamp := if t.found.st = .invalid then h.stamp else t.found.stamp }
  let d := d.setHome q { h with txns := h.txns ++ [t], stamp := h.stamp + 1 }
  let d := t.snoops.foldl (fun d p =>
    d.sendSnoop q t.req.line p.2 (if p.2 = .unique || p.2 = .shared then t.forwardTo else none) p.1) d
  d.advanceTxn resume q t

/-- Open a transaction of a request whose line has none open and whose entry has a place (R168, R170). -/
def Dev.openTxn (resume : Nat → Nat → Dev → Dev) (q : Nat) (req : HomeReq) (d : Dev) : Dev :=
  let e := d.entry q req.line
  let pl := plan req e
  (d.dirCount q 0).startTxnAt resume q
    { req := req, snoops := pl.snoops, found := e, plan := pl, final := { pl.final with epoch := e.epoch } }

/-- Open an eviction of a line's entry (R177): the owner is snooped for its data, every other bough is invalidated. -/
def Dev.openEvict (resume : Nat → Nat → Dev → Dev) (q line : Nat) (d : Dev) : Dev :=
  let e := d.entry q line
  let snoops : List (Nat × Snoop) := (if e.st = .shared then [] else [(e.owner, Snoop.unique)])
    ++ (e.sharers.filter fun s => e.st = .shared || s != e.owner).map fun s => (s, Snoop.inv)
  d.startTxnAt resume q { req := { op := .wrPartial, src := .trace, line := line }, snoops := snoops, evict := true, found := e
                          final := { epoch := e.epoch } }

/-- Evict a victim of a set for what needs its way (R177). -/
def Dev.evictFor (resume : Nat → Nat → Dev → Dev) (q : Nat) (w : HomeWait) (victim : Nat) (d : Dev) : Dev :=
  ((d.modHome q fun h => { h with waiting := h.waiting ++ [(w, victim)] }).dirCount q 3).openEvict resume q victim

/-- A request takes its bough's starvation slot and opens at once (R179). -/
def Dev.takeSlot (resume : Nat → Nat → Dev → Dev) (q : Nat) (req : HomeReq) (d : Dev) : Dev :=
  ((d.modHome q fun h => { h with slots := h.slots ++ [(req.bough.getD 31, req.line)] }).dirCount q 5).openTxn resume q req

/-- Take a request that finds no transaction open on its line: it opens, takes its bough's starvation slot or waits for it, makes room
in its set first, or is refused for capacity (R177 to R179). -/
def Dev.takeUp (resume : Nat → Nat → Dev → Dev) (q : Nat) (req : HomeReq) (d : Dev) : Dev :=
  let set := dirSet req.line
  let b := req.bough.getD 31
  if !(allocates req.op) || (d.entry q req.line).st != .invalid then d.openTxn resume q req
  else if 8 ≤ req.retry then
    if (d.home q).slots.any fun s => s.1 == b then d.modHome q fun h => { h with slotWait := h.slotWait ++ [req] }
    else d.takeSlot resume q req
  else if d.setUse q set < 16 then d.openTxn resume q req
  else match d.dirVictim q set with
    | some v => d.evictFor resume q (.req req) v
    | none => (d.dirCount q 4).emit (.nack b req.line (64 * 2 ^ min req.retry 4))

/-- A starvation slot is free: the oldest request of its bough that waits for it takes it (R179). -/
def Dev.releaseSlot (resume : Nat → Nat → Dev → Dev) (q b line : Nat) (d : Dev) : Dev :=
  let d := d.modHome q fun h => { h with slots := h.slots.filter (· != (b, line)) }
  match (d.home q).slotWait.find? fun r => r.bough == some b with
  | none => d
  | some r => (d.modHome q fun h => { h with slotWait := h.slotWait.erase r }).takeSlot resume q r

/-- The entry of a slot whose transaction has closed moves into its set as soon as a way there is unpinned, evicting a victim (R179). -/
def Dev.moveSlot (resume : Nat → Nat → Dev → Dev) (q b line : Nat) (d : Dev) : Dev :=
  let h := d.home q
  if !h.slots.contains (b, line) || (h.txn line).isSome || h.waiting.any (fun w => w.1 == .slot b line) then d
  else if (d.entry q line).st == .invalid || decide (d.setUse q (dirSet line) < 16) then d.releaseSlot resume q b line
  else match d.dirVictim q (dirSet line) with
    | some v => d.evictFor resume q (.slot b line) v
    | none => d

/-- What waits at a home goes on once a line's transaction has closed: the held write-backs of the line are judged, what waited for
its way takes it, the next request of the line opens, in arrival order, and the entries of slots move. `fuel` bounds the
requests taken. -/
def resumeHome : Nat → Nat → Nat → Dev → Dev
  | 0, _, _, d => d
  | fuel + 1, q, line, d =>
    let held := (d.home q).held.filter fun w => w.line == line
    let d := d.modHome q fun h => { h with held := h.held.filter fun w => w.line != line }
    let d := held.foldl (fun d w => d.judgeWb q w) d
    let d := match (d.home q).waiting.find? fun w => w.2 == line with
      | none => d
      | some w =>
        let d := d.modHome q fun h => { h with waiting := h.waiting.erase w }
        match w.1 with
        | .req r => d.openTxn (resumeHome fuel) q r
        | .slot b l => d.releaseSlot (resumeHome fuel) q b l
    let d := match (d.home q).queue.find? fun r => r.line == line with
      | none => d
      | some r =>
        if ((d.home q).txn line).isSome then d
        else (d.modHome q fun h => { h with queue := h.queue.erase r }).takeUp (resumeHome fuel) q r
    (d.home q).slots.foldl (fun d s => d.moveSlot (resumeHome fuel) q s.1 s.2) d

/-- The number of requests that one close can set going. -/
def resumeFuel (d : Dev) (q : Nat) : Nat :=
  let h := d.home q
  h.queue.length + h.waiting.length + h.slotWait.length + h.slots.length + 2

/-- A request of a line waits at the home for its place. -/
def Home.lineWaits (h : Home) (line : Nat) : Bool :=
  h.queue.any (fun r => r.line == line) || h.slotWait.any (fun r => r.line == line)
  || h.waiting.any fun w => match w.1 with
    | .req r => r.line == line
    | .slot .. => false

/-- Nothing is under way for a line: no transaction and no request at its home, none of any bough, no write-back, and its channel takes
a write. A trunk request for it can then be carried out in one step (R168, R174). DESIGN CHOICE, assumption 19. -/
def Dev.lineIdle (d : Dev) (line : Nat) : Bool :=
  let h := d.home (d.homeOfLine line)
  (h.txn line).isNone && !h.lineWaits line
  && d.boughs.all (fun p => (p.2.txn line).isNone && !p.2.evb.any fun e => e.line == line)
  && match rangeOf (64 * line) with
    | .dram => match d.channelOf (64 * line) with
      | some (m, _) => d.channelTakes m false || d.get MEM_STAT.STATE m == 4
      | none => true
    | _ => true

/-- Nothing is under way for any line of a range of bytes. -/
def Dev.rangeIdle (d : Dev) (a n : Nat) : Bool :=
  (List.range ((a + n + 63) / 64 - a / 64)).all fun i => d.lineIdle (a / 64 + i)

/-- The tracker entries in use (R168): requests from their arrival until their transaction closes. -/
def Home.trackers (h : Home) : Nat :=
  (h.txns.filter fun t => !t.evict).length + h.queue.length + h.slotWait.length
  + (h.waiting.filter fun w => match w.1 with
    | .req _ => true
    | .slot .. => false).length

/-- A requester of the trunk, which shares the 256 trunk credits towards a home (R168). -/
def trunkRequester : CohReq → Bool
  | .bough _ | .lee _ => false
  | _ => true

/-- The trunk credits of a home in use (R168): trunk requests from their arrival until their transaction closes. -/
def Home.trunkUse (h : Home) : Nat :=
  ((h.txns.filter fun t => !t.evict).map (·.req) ++ h.queue ++ h.slotWait
    ++ h.waiting.filterMap fun w => match w.1 with
      | .req r => some r
      | .slot .. => none).countP fun r => trunkRequester r.src

/-- A request arrives at the home (R168): it opens, or waits behind the open transaction of its line. -/
def Dev.homeRequest (d : Dev) (q : Nat) (req : HomeReq) : Dev :=
  let h := d.home q
  if (h.txn req.line).isSome || h.lineWaits req.line then d.modHome q fun h => { h with queue := h.queue ++ [req] }
  else d.takeUp (resumeHome (resumeFuel d q)) q req

/-- The place of a trunk requester in the cyclic order of R169: the translation unit, bulk engines 0 to 7, the trace unit. -/
def trunkPlace : CohReq → Nat
  | .bulk e => e % 8 + 1
  | .trace => 9
  | _ => 0

/-- The rank of a requester among the requests of one clock: boughs from P, then trunk requesters from Q (R169). -/
def rankOf (p q : Nat) (src : CohReq) : Nat :=
  match src with
  | .bough b => (b + 24 - p) % 24
  | .lee n => (n / 16 + 24 - p) % 24
  | x => 24 + (trunkPlace x + 10 - q) % 10

/-- The pointers of R169 as a request is taken. Requests that come in rank order within one ring count come in one fabric clock; one
that does not begins a new clock. P becomes one above the first bough of the clock, Q the requester after its first trunk
requester. DEDUCED, assumption 3. -/
def Home.rotate (h : Home) (ring : Word) (src : CohReq) : Home :=
  let fresh : HomeClock := ⟨ring, h.p, h.q, 0⟩
  let (c, first) := match h.clock with
    | some c => if c.ring = ring && decide (c.rank ≤ rankOf c.p c.q src) then (c, decide (c.rank < 24) && decide (24 ≤ rankOf c.p c.q src))
      else (fresh, true)
    | none => (fresh, true)
  let h := { h with clock := some { c with rank := rankOf c.p c.q src } }
  if !first then h
  else match src with
    | .bough b => { h with p := (b + 1) % 24 }
    | .lee n => { h with p := (n / 16 + 1) % 24 }
    | x => { h with q := (trunkPlace x + 1) % 10 }

/-- The packet of a coherence request. -/
def requestPacket (req : HomeReq) : Packet :=
  match req.src with
  | .bough b => .request b req
  | _ => .nonalloc req

/-- A coherence request of a bough or of an agent that does not cache arrives at its home; nothing is accepted from a bough
whose proxy is engaged (R198), and a trunk request without a credit is not sent yet (R168). -/
def cohRequestEff (op : CohOp) (src : CohReq) (line retry mask : Nat) (data : Line) (d : Dev) : Dev :=
  let req : HomeReq := ⟨op, src, line, retry, mask, data⟩
  if trunkRequester src && decide (256 ≤ (d.home (d.homeOfLine line)).trunkUse) then d else
  let cut := match src with
    | .bough b => ((d.siteOf b).map d.isolated).getD true
    | _ => false
  let d := d.take (requestPacket req)
  if cut then d
  else if !mainMemory (64 * line) then d
  else (d.modHome (d.homeOfLine line) (·.rotate d.ring src)).homeRequest (d.homeOfLine line) req

/-- A message of a bough is not accepted: its proxy is engaged (R198). -/
def Dev.boughCut (d : Dev) (b : Nat) : Bool := ((d.siteOf b).map d.isolated).getD true

/-- A closed gate answers a snoop with I, captures it and raises its event (R201). -/
def Dev.snoopAtGate (d : Dev) (s line : Nat) : Dev :=
  ((d.gateLog 3 s (64 * line)).raise 3).send (.snpRsp (d.boughAt s) line .i ⟨0, false⟩)

/-- COMP_ACK (R171): the transaction that waits for it closes. For an isolated bough only its proxy's is accepted (R198).
DEDUCED, assumption 3. -/
def compAckEff (b line : Nat) (d : Dev) : Dev :=
  let here := d.packets.contains (.compAck b line)
  let d := d.take (.compAck b line)
  let q := d.homeOfLine line
  if d.boughCut b && !here then d
  else match (d.home q).txn line with
    | some t => if t.waitAck && t.req.bough == some b then d.closeTxn (resumeHome (resumeFuel d q)) q t else d
    | none => d

/-- SNP_RSP (R170, R182): the answer is taken off the transaction's list; an answer whose snoop has timed out is discarded and
the line invalidated in that bough. For an isolated bough only its proxy's answer is accepted (R198). -/
def snpRspEff (b line : Nat) (ans : SnpAns) (x : LineData) (d : Dev) : Dev :=
  let here := d.packets.contains (.snpRsp b line ans x)
  let d := d.take (.snpRsp b line ans x)
  let q := d.homeOfLine line
  let h := d.home q
  if d.boughCut b && !here then d
  else if h.late.contains (b, line) then
    (d.modHome q fun h => { h with late := h.late.erase (b, line) }).sendSnoop q line .inv none b
  else match h.txn line with
    | none => d
    | some t =>
      if !t.snoops.any fun p => p.1 == b then d
      else
        let t := { t with
          snoops := t.snoops.filter fun p => p.1 != b
          got := if ans = .dirtyCopy || ans = .dataToHome then some ⟨x.data, x.poison || t.poison⟩ else t.got
          fwd := if ans = .fwdClean || ans = .fwdDirty then some ans else t.fwd }
        let d := if ans = .i then d.dirCount q 2 else d
        (d.setTxn q t).advanceTxn (resumeHome (resumeFuel d q)) q t

/-- WB_DIRTY (R175): judged at once, or held while a transaction on the line is open. -/
def wbDirtyEff (b line : Nat) (owned : Bool) (epoch : Nat) (x : LineData) (d : Dev) : Dev :=
  let d := d.take (.wb b line owned epoch x)
  let q := d.homeOfLine line
  let w : HeldWb := ⟨b, line, owned, epoch, x⟩
  if d.boughCut b then d
  else if ((d.home q).txn line).isSome then d.modHome q fun h => { h with held := h.held ++ [w] } else d.judgeWb q w

/-! ### Purges and isolation (R183, R197) -/

/-- Start a purge of a bough in a quadrant. -/
def Dev.startPurge (d : Dev) (q b : Nat) (poison software : Bool) : Dev :=
  (d.modHome q fun h => { h with purges := h.purges ++ [(b, poison, software)] }).put DIR_PURGE.BUSY 1 q

/-- PURGE_DONE: the walk has removed the bough from every entry of the quadrant, and from what a transaction open meanwhile leaves
(R183). -/
def purgeDoneEff (q : Nat) (d : Dev) : Dev :=
  match (d.home q).purges with
  | [] => d
  | (b, poison, software) :: rest =>
    let d := (d.home q).dir.foldl (fun d p =>
      let (e, bad) := purgeEntry b poison p.2
      let d := if e = p.2 then d else d.setEntry q p.1 e
      if bad then d.writeMemory p.1 { d.memLine p.1 with poison := true } else d) d
    let d := d.modHome q fun h => { h with
      purges := rest, txns := h.txns.map fun t => { t with final := (purgeEntry b false t.final).1 } }
    let d := if software then d.put DIR_PURGE.DONE 1 q else d
    if rest.isEmpty then d.put DIR_PURGE.BUSY 0 q else d

/-- A write of DIR_PURGE.GO (R183): ignored while a purge runs or for a bough of 24 to 31. -/
def dirPurgeEff (q : Nat) (d : Dev) : Dev :=
  let b := d.get DIR_PURGE.BOUGH q
  if 4 ≤ q || d.flag DIR_PURGE.BUSY q || 24 ≤ b then d else d.startPurge q b false true

/-- The packer of a site loses what it holds, on its graft too; every leaf's credits return (R250). -/
def Dev.dropTrace (d : Dev) (s : Nat) : Dev :=
  let d := { d with packers := d.packers.filter fun p => p.1 != s }.lose fun p => match p with
    | .trace t _ => t == s
    | _ => false
  (List.range 16).foldl (fun d j => d.modLee (16 * d.boughAt s + j) fun e => { e with credits := 32 }) d

/-- A packet that a bough has sent and that is discarded at its graft port once its proxy is engaged (R198). -/
def Dev.sentByBough (d : Dev) (b : Nat) (p : Packet) : Bool :=
  match p with
  | .request c _ | .snpRsp c _ _ _ | .compAck c _ | .wb c _ _ _ _ => c == b
  | .xch m => d.senderCut m
  | .msi .. => false
  | .syncAck s _ => d.boughAt s == b && d.siteActive s
  | .event n _ _ => decide (128 ≤ n) && (let s := (n - 128) / 32; d.siteActive s && d.boughAt s == b)
  | .reg .. | .regRead .. | .aperture .. | .mmioRead .. => match d.route3 p with
    | some (_, .bough s _, dst) => d.siteActive s && d.boughAt s == b && dst.node != siteNode s
    | _ => false
  | _ => false

/-- Engage the isolation proxy of a site (R197): its bit, its event, the purge in all four quadrants, and the groups with a
member in the bough. DEDUCED, assumption 49. -/
def Dev.isolate (d : Dev) (s : Nat) : Dev :=
  if !d.siteActive s || d.isolated s then d
  else
    let b := d.boughAt s
    let d := (d.put FAB_ISO_STAT.ISOLATED (setBit (d.get FAB_ISO_STAT.ISOLATED) s true)).raiseSevere (26 + s)
    let d := d.packets.foldl (fun e p => match p with
      | .xch m => if d.senderCut m then e.ackLost m else e
      | _ => e) (d.lose (d.sentByBough b))
    let d := (List.range 4).foldl (fun d q => d.startPurge q b true false) d
    ((d.dropTrace s).breakGroupsOf b).entryFails s 2 10

/-- The timeout count of a bough (DIR_TMO_BOUGH0 and 1): the register index and the field. -/
def tmoField (b : Nat) : Nat × Fld := (b / 12, ⟨.DIR_TMO_BOUGH, 4 * (b % 12) + 3, 4 * (b % 12)⟩)

/-- The KIND of a snoop in DIR_TMO_LOG. -/
def snoopKind : Snoop → Nat
  | .shared => 1
  | .unique => 2
  | .inv => 3
  | .current => 4

/-- The record of a home timeout (R181, R182): log, counts, event, and isolation at the limit. -/
def Dev.tmoRecord (d : Dev) (q b line kind : Nat) : Dev :=
  let d := if d.flag DIR_TMO_LOG.VALID q then d else
    (((d.put DIR_TMO_LOG.VALID 1 q).put DIR_TMO_LOG.BOUGH b q).put DIR_TMO_LOG.KIND kind q).put DIR_TMO_LOG.ADDR line q
  let (k, f) := tmoField b
  let d := ((d.bump f 1 q k).dirCount q 7).raise (6 + q) { addr := 64 * line, access := 4 }
  if d.get DIR_TMO.LIMIT q ≤ d.get f q k then
    match d.siteOf b with
    | some s => d.isolate s
    | none => d
  else d

/-- HOME_TIMEOUT (R181): a snoop or a COMP_ACK not answered in time. DESIGN CHOICE, assumption 5. -/
def homeTimeoutEff (b line : Nat) (d : Dev) : Dev :=
  let q := d.homeOfLine line
  match (d.home q).txn line with
  | none => d
  | some t =>
    let full := t.req.op = .wrFull && !t.evict
    let spoil (d : Dev) : Dev := if full then d else d.writeMemory line { d.memLine line with poison := true }
    match t.snoops.find? fun p => p.1 == b with
    | some (_, k) =>
      let d := (spoil d).setEntry q line (purgeEntry b false (d.entry q line)).1
      let t := { t with snoops := t.snoops.filter fun p => p.1 != b, poison := t.poison || !full, gone := t.gone ++ [b]
                        got := t.got.map fun x => { x with poison := x.poison || !full } }
      let d := (d.modHome q fun h => { h with late := h.late ++ [(b, line)] }).setTxn q t
      (d.tmoRecord q b line (snoopKind k)).advanceTxn (resumeHome (resumeFuel d q)) q t
    | none =>
      if t.waitAck && t.req.bough == some b then
        let d := (spoil d).tmoRecord q b line 5
        d.closeTxn (resumeHome (resumeFuel d q)) q { t with gone := t.gone ++ [b] }
      else d

end Sys2Proof.Machine
end

