-- ==== Sys2Proof/Machine/RootPort.lean ====
section
/-!
DEFINITION. The root ports and the MMIO window as a leaf's accesses see them (spec/12, R283 to R286). Root port r = 4n + k is root
port k of x16 port n. The windows of a root port are those of its type-1 header; the header's layout is that of the PCI Express
Base Specification (PRESUMED), which the spec names and does not restate.
-/

namespace Sys2Proof.Machine

/-- Root port k exists under the bifurcation of its x16 port (R283). -/
def Dev.rpExists (d : Dev) (r : Nat) : Bool :=
  bit d.rpMask (r / 4) && decide (r < 32) &&
    match d.get HIO_CFG.BIFUR (r / 4) with
    | 0 => r % 4 == 0
    | 1 => r % 4 == 0 || r % 4 == 2
    | 2 => r % 4 != 1
    | _ => true

/-- The link of a root port is up, and DPC does not hold it (R287). -/
def Dev.rpUp (d : Dev) (r : Nat) : Bool :=
  bit (d.get HIO_STAT.UP (r / 4)) (r % 4) && !bit (d.get HIO_STAT.DPC (r / 4)) (r % 4)

/-- A byte written to the configuration space of a root port; 0 after reset. -/
def Dev.rpByte (d : Dev) (r off : Nat) : Nat := (d.hio.config.find 0 (4096 * r + off)).toNat

/-- Two bytes of it. -/
def Dev.rpHalf (d : Dev) (r off : Nat) : Nat := d.rpByte r off + 256 * d.rpByte r (off + 1)

/-- The bytes of a root port's header that software sets and the routing of R285 reads: command, bus numbers, and the memory
windows. PRESUMED, assumption 33. -/
def headerByte (off : Nat) : Bool := decide (off = 4 ∨ off = 5 ∨ (0x18 ≤ off ∧ off < 0x1B) ∨ (0x20 ≤ off ∧ off < 0x30))

/-- A bus lies below a root port: between its secondary and its subordinate bus. -/
def Dev.rpHasBus (d : Dev) (r bus : Nat) : Bool :=
  d.rpExists r && decide (0 < bus ∧ d.rpByte r 0x19 ≤ bus ∧ bus ≤ d.rpByte r 0x1A)

/-- An address lies in a memory window of a root port whose memory space is enabled. -/
def Dev.rpHasAddr (d : Dev) (r a : Nat) : Bool :=
  let word (off : Nat) : Nat := d.rpHalf r off / 16 * 2 ^ 20
  let upper (off : Nat) : Nat := (d.rpHalf r off + 2 ^ 16 * d.rpHalf r (off + 2)) * 2 ^ 32
  d.rpExists r && bit (d.rpByte r 4) 1 &&
    (decide (word 0x20 ≤ a ∧ a < word 0x22 + 2 ^ 20)
      || decide (word 0x24 + upper 0x28 ≤ a ∧ a < word 0x26 + upper 0x2C + 2 ^ 20))

/-- DPC holds the root port of a device, so that its requests are discarded as they arrive (R287). -/
def Dev.dpcHeld (d : Dev) (seg rid : Nat) : Bool :=
  (List.range 4).any fun k =>
    bit (d.get HIO_STAT.DPC seg) k && (d.rpHasBus (4 * seg + k) (rid / 256) || rid == 8 * k)

/-- A segment of a present x16 port whose crossing is not broken (R207) and whose device is not held. -/
def Dev.deviceArrives (d : Dev) (seg rid : Nat) : Bool :=
  decide (seg < 8) && bit d.rpMask seg && !d.broken (.trunk (0x30 + seg)) && !d.dpcHeld seg rid

/-- What an address of the MMIO window reaches: a root port's own configuration space, a function that does not exist, what is
below a root port (`cfg` for a configuration access), or nothing. -/
inductive MmioTarget where
  | config (r off : Nat)
  | noFunction
  | below (r : Nat) (cfg : Bool)
  | none
deriving DecidableEq, Repr

/-- Where an access to the MMIO window goes (R285). PRESUMED, assumption 33. -/
def Dev.mmioTarget (d : Dev) (a : Nat) : MmioTarget :=
  let n := (a - 0x0C0000000000) / 2 ^ 38
  let off := (a - 0x0C0000000000) % 2 ^ 38
  let ports := (List.range 4).map fun k => 4 * n + k
  if 8 ≤ n || !bit d.rpMask n then .none
  else if off < 2 ^ 28 then
    let bus := off / 2 ^ 20
    if bus = 0 then
      let r := 4 * n + off / 2 ^ 15 % 32
      if off / 2 ^ 15 % 32 < 4 && off / 2 ^ 12 % 8 = 0 && d.rpExists r then .config r (off % 4096) else .noFunction
    else match ports.find? fun r => d.rpHasBus r bus with
      | some r => .below r true
      | Option.none => .none
  else match ports.find? fun r => d.rpHasAddr r a with
    | some r => .below r false
    | Option.none => .none

/-- A store to the configuration space of a root port. -/
def Dev.rpWrite (d : Dev) (r off v : Nat) : Nat → Dev
  | 0 => d
  | n + 1 =>
    let d := if headerByte off then
      { d with hio := { d.hio with config := d.hio.config.set natLt 0 (4096 * r + off) (BitVec.ofNat 8 v) } } else d
    d.rpWrite r (off + 1) (v / 256) n

/-- A store to the MMIO window completes at its root port (R286): it is on its way to the device, or it is lost where no link is
up, or the crossing is broken (R207). -/
def Dev.mmioStore (d : Dev) (a size : Nat) (v : Word) : Dev :=
  match d.mmioTarget a with
  | .config r off => d.rpWrite r off v.toNat size
  | .below r _ => if d.rpUp r && !d.broken (.trunk (0x30 + r / 4)) then d.emit (.mmioWrite r a size v) else d
  | _ => d

/-- A load of a root port's own configuration space: a header byte reads as written, and any other byte as the PCI Express
specification says, which this model leaves free. -/
def Dev.rpRead (d : Dev) (r off size : Nat) : Word × Dev :=
  let (w, d) := d.freeNext
  (BitVec.ofNat 64 ((List.range size).foldr (fun i (acc : Nat) =>
    256 * acc + (if headerByte (off + i) then d.rpByte r (off + i) else w.bits (8 * i + 7) (8 * i))) 0), d)

/-- A load from the MMIO window: answered at once by a root port or where no link is up, else on its way to the device. -/
def Dev.mmioLoad (d : Dev) (hart a size : Nat) : Dev :=
  let ones : Word := BitVec.allOnes 64
  match d.mmioTarget a with
  | .config r off =>
    let (v, d) := d.rpRead r off size
    d.emit (.ioAnswer hart a v false)
  | .noFunction => d.emit (.ioAnswer hart a ones false)
  | .below r cfg => if d.rpUp r then d.emit (.mmioRead r hart a) else d.emit (.ioAnswer hart a ones (!cfg))
  | .none => d.emit (.ioAnswer hart a ones true)

/-- Every outstanding MMIO read of a root port is answered with all-ones and an error response (R286, R287). -/
def Dev.failMmio (d : Dev) (r : Nat) : Dev :=
  let out := d.packets.filter fun p => match p with
    | .mmioRead q _ _ => q == r
    | _ => false
  let d := d.lose out.contains
  out.foldl (fun (d : Dev) p => match p with
    | .mmioRead _ h a => d.emit (.ioAnswer h a (BitVec.allOnes 64) true)
    | _ => d) d

end Sys2Proof.Machine
end

