-- ==== Sys2Proof/Machine/Cache.lean ====
section
/-!
DEFINITION. The caches of a bough (spec/06) and the bough's side of the coherence protocol (spec/07): accesses of the leaves,
prefetches and CBO.ZERO, fills and victims, the eviction buffers, snoops, the lock commands, and disabling the L3.
-/

namespace Sys2Proof.Machine

/-! ### Requests and write-backs sent by a bough (R168, R176) -/

/-- Credits in use towards a home: requests sent and not answered. -/
def Dev.creditsUsed (d : Dev) (b q : Nat) : Nat :=
  ((d.bough b).txns.filter fun t => t.sent && t.backoff.isNone && d.homeOfLine t.line == q).length

/-- The request message of a transaction. -/
def BoughTxn.request (t : BoughTxn) (b : Nat) : HomeReq := ⟨t.op, .bough b, t.line, t.retry, t.mask, t.value⟩

/-- The part of an access that lies in one line, with the memory type of its page. -/
structure Part where
  line : Nat
  off : Nat
  len : Nat
  pbmt : Pbmt

/-- The next part of an access of which some bytes are done; those on a second page lie at its physical address.
DEDUCED, assumption 28. -/
def nextPart (acc : LeafAccess) (bytesDone : Nat) : Part :=
  let here := 4096 - acc.addr % 4096
  let second := acc.addr2.isSome && decide (here ≤ bytesDone)
  let a := if second then acc.addr2.getD 0 + (bytesDone - here) else acc.addr + bytesDone
  let left := if acc.addr2.isSome && !second then here - bytesDone else acc.size - bytesDone
  ⟨a / 64, a % 64, min left (64 - a % 64), if second then acc.pbmt2 else acc.pbmt⟩

/-- The line that a miss entry waits for. -/
def LeafMiss.line (m : LeafMiss) : Nat :=
  match m.kind with
  | .demand acc => (nextPart acc m.done).line
  | _ => m.addr / 64

/-- The leaves of a bough, by their index in it, with a miss entry that waits for a line and meets a condition. -/
def Dev.waiters (d : Dev) (b line : Nat) (p : MissKind → Bool) : List Nat :=
  (List.range 16).filter fun j => (d.leaf (16 * b + j)).misses.any fun m => m.answer.isNone && m.line == line && p m.kind

/-- A request serves only prefetches: no demand access waits for its line (R69). -/
def Dev.forPrefetch (d : Dev) (b : Nat) (t : BoughTxn) : Bool :=
  t.who.isNone && !t.forLock && (d.waiters b t.line fun k => match k with
    | .prefetch _ | .walk _ (.prefetch ..) => false
    | _ => true).isEmpty && !(d.waiters b t.line fun _ => true).isEmpty

/-- A request may leave: there is a credit, and it waits for the line's write-back, but for the write of a whole line (R150, R422). -/
def Dev.maySend (d : Dev) (b : Nat) (t : BoughTxn) : Bool :=
  !t.sent && decide (d.creditsUsed b (d.homeOfLine t.line) < 32)
  && (t.op == .wrFull || !(d.bough b).evb.any fun e => e.line == t.line)

/-- Send those of some requests that may leave, oldest first. -/
def Dev.sendAmong (d : Dev) (b : Nat) (ts : List BoughTxn) : Dev :=
  ts.foldl (fun d t => if d.maySend b t then (d.setBTxn b { t with sent := true }).emit (.request b (t.request b)) else d) d

/-- Send every request that may leave, oldest first; none is held back by a prefetch (R69). -/
def Dev.sendRequests (d : Dev) (b : Nat) : Dev :=
  let ts := (d.bough b).txns.filter fun t => !t.sent
  (d.sendAmong b (ts.filter fun t => !d.forPrefetch b t)).sendAmong b (ts.filter fun t => d.forPrefetch b t)

/-- Send every write-back for which there is a credit, oldest first (R176). -/
def Dev.sendWriteBacks (d : Dev) (b : Nat) : Dev :=
  (d.bough b).evb.foldl (fun d e =>
    let q := d.homeOfLine e.line
    let used := ((d.bough b).evb.filter fun x => x.sent && d.homeOfLine x.line == q).length
    if e.sent || 32 ≤ used then d
    else
      let d := d.modBough b fun x =>
        { x with evb := x.evb.map fun y => if y.line == e.line && !y.sent then { y with sent := true } else y }
      d.emit (.wb b e.line (e.st == .owned) e.epoch ⟨e.data, e.poison⟩)) d

/-- Start a request for a line, unless one is outstanding. -/
def Dev.startTxn (d : Dev) (b : Nat) (t : BoughTxn) : Dev :=
  if ((d.bough b).txn t.line).isSome then d
  else (d.modBough b fun x => { x with txns := x.txns ++ [t] }).sendRequests b

/-! ### Eviction (R146, R148 to R151) -/

/-- The number of entries in use in a slice's eviction buffer. -/
def Bough.evbUse (x : Bough) (slice : Nat) : Nat := (x.evb.filter fun e => l3Slice e.line == slice).length

/-- What stands in a line's place once it has gone: a locked line keeps its way and its mark (R154, R156). -/
def L3Line.gone (l : L3Line) : L3Line := if l.locked then { way := l.way, locked := true } else {}

/-- The line leaves the bough: its copies in the twigs go first, a dirty line moves into the eviction buffer, and a clean one
is dropped without a message (R146, R166). DESIGN CHOICE, assumption 17. -/
def Dev.evict (d : Dev) (b line : Nat) : Dev :=
  let l := (d.bough b).line line
  let d := (d.clearResv line none).modBough b fun x => x.setLine line l.gone
  if dirtyState l.st then
    (d.modBough b fun x => { x with evb := x.evb ++ [⟨line, l.st, l.data, l.poison, l.epoch, false⟩] }).sendWriteBacks b
  else d

/-- Ways that ordinary fills may use. -/
def Dev.freeWays (d : Dev) (b : Nat) : List Nat :=
  (List.range 16).filter fun w => !bit (d.get L3C_LOCK_WAYS.WAYS (d.boughSite b)) w

/-- The line of a set in a way. -/
def Bough.inWay (x : Bough) (slice set way : Nat) : Option (Nat × L3Line) :=
  x.lines.find? fun p => l3Slice p.1 == slice && l3Set p.1 == set && p.2.way == way

/-- A way for a line among those given: a free one, or one with the least recently used victim that has no transaction open
and is not locked. A dirty victim is chosen only while its slice's eviction buffer has room, and else a clean one (R148,
R151). None when the fill waits. DESIGN CHOICE, assumption 17. -/
def Bough.chooseWay (x : Bough) (line : Nat) (ways : List Nat) : Option (Nat × Option Nat) :=
  let slice := l3Slice line
  let set := l3Set line
  match ways.find? fun w => (x.inWay slice set w).isNone with
  | some w => some (w, none)
  | none =>
    let held := ways.filterMap fun w => x.inWay slice set w
    let usable := held.filter fun p => !p.2.locked && (x.txn p.1).isNone
    let usable := if x.evbUse slice < 32 then usable else usable.filter fun p => !dirtyState p.2.st
    (usable.find? fun p => usable.all fun r => decide (p.2.used ≤ r.2.used)).map fun p => (p.2.way, some p.1)

/-! ### L1 and L2 records (R146, R147) -/

/-- A twig loses a line: so do its L1s. Its data goes into the L3 when that has none and is in service (R146); else a line that only the
twigs held leaves the bough with the last of them (R158). -/
def Dev.dropTwig (d : Dev) (b t line : Nat) : Dev :=
  let l := (d.bough b).line line
  let l' := { l with twigs := l.twigs.filter (· != t), l1 := l.l1.filter fun c => codeTwig c != t
                     writer := if l.writer = some t then none else l.writer
                     l1Writer := if l.l1Writer.map codeTwig = some t then none else l.l1Writer
                     hasData := l.hasData || (dirtyState l.st && d.l3On b) }
  let d := d.modLine b line fun _ => l'
  if l'.twigs.isEmpty && !l'.hasData && ((d.bough b).txn line).isNone then d.evict b line else d

/-- The least recently used of some lines. -/
def oldest (stamp : L3Line → Nat) (ps : KMap Nat L3Line) : Option Nat :=
  (ps.find? fun p => ps.all fun r => decide (stamp p.2 ≤ stamp r.2)).map (·.1)

/-- Record that a twig's L2 holds a line and uses it now. A full set drops its least recently used line that has no transaction open
(R146, R148). -/
def Dev.recordTwig (d : Dev) (b t line : Nat) (write : Bool) : Dev :=
  let x := d.bough b
  let l := x.line line
  let set := x.lines.filter fun p => p.1 != line && p.2.twigs.contains t && l2Set p.1 == l2Set line
  let d := if l.twigs.contains t || set.length < 16 then d else
    match oldest (fun p => p.used2.find 0 t) (set.filter fun p => (x.txn p.1).isNone) with
    | some v => d.dropTwig b t v
    | none => d
  let d := d.modBough b fun x => { x with clock := x.clock + 1 }
  let now := (d.bough b).clock
  d.modLine b line fun l =>
    let l := { l with used2 := l.used2.set natLt 0 t now, used := if l.inL2 t write then l.used else now }
    if write then { l with twigs := [t], l1 := l.l1.filter fun c => codeTwig c == t, writer := some t }
    else { l with twigs := insertNat t l.twigs, writer := if l.writer = some t then l.writer else none
                  l1Writer := if l.writer = some t then l.l1Writer else none }

/-- Record that a leaf's L1 and its twig's L2 hold a line, writable after an access that writes: then no other L1 keeps it. A full L1 set
drops its least recently used line. A use that the L1 serves is no use of the L2 or the L3 (R146 to R148). -/
def Dev.record (d : Dev) (b n line : Nat) (fetch write : Bool) : Dev :=
  let c := l1Code n fetch
  let here := ((d.bough b).line line).inL1 n fetch write
  let d := if here then d.modBough b fun x => { x with clock := x.clock + 1 } else d.recordTwig b (twigOf n) line write
  let set := (d.bough b).lines.filter fun p => p.1 != line && p.2.l1.contains c && l1Set p.1 == l1Set line
  let d := if ((d.bough b).line line).l1.contains c || set.length < 8 then d else
    match oldest (fun p => p.used1.find 0 c) set with
    | some v => d.modLine b v fun m => { m with l1 := m.l1.filter (· != c), l1Writer := if m.l1Writer = some c then none else m.l1Writer }
    | none => d
  let now := (d.bough b).clock
  d.modLine b line fun l =>
    let l := { l with used1 := l.used1.set natLt 0 c now }
    if write then { l with l1 := [c], l1Writer := some c }
    else { l with l1 := insertNat c l.l1, l1Writer := if l.l1Writer = some c then l.l1Writer else none }

/-! ### One access on a held line -/

/-- Bytes of a line as a number. -/
def lineBytes (x : Line) (off len : Nat) : Nat := x.toNat / 256 ^ off % 256 ^ len

/-- A line with bytes replaced. -/
def lineWith (x : Line) (off len v : Nat) : Line :=
  BitVec.ofNat 512 (x.toNat - lineBytes x off len * 256 ^ off + v % 256 ^ len * 256 ^ off)

/-- The result of an atomic memory operation on `size` bytes. -/
def amoResult (op : AmoOp) (size old new : Nat) : Nat :=
  let w := 8 * size
  let a := BitVec.ofNat w old
  let b := BitVec.ofNat w new
  let r : BitVec w := match op with
    | .swap => b
    | .add => a + b
    | .xor => a ^^^ b
    | .and => a &&& b
    | .or => a ||| b
    | .min => if a.slt b then a else b
    | .max => if a.slt b then b else a
    | .minu => if a < b then a else b
    | .maxu => if a < b then b else a
  r.toNat

/-- The value an access gives its register, from the bytes read: sign- or zero-extended. -/
def loadValue (acc : LeafAccess) (v : Nat) : Word :=
  if acc.signed || acc.kind == .amo || acc.kind == .lr then ((BitVec.ofNat (8 * acc.size) v).signExtend 64)
  else BitVec.ofNat 64 v

/-- A conditional store succeeds: the leaf holds the reservation of its line. -/
def Dev.scHolds (d : Dev) (n : Nat) (acc : LeafAccess) : Bool := (d.leaf n).resv == some (acc.addr / 64)

/-- Perform one part of an access on the line its bough holds. A store never consumes poison and leaves the line poisoned
(R71); an access that reads poison changes nothing. DEDUCED, assumption 28. -/
def Dev.performPart (d : Dev) (b n : Nat) (m : LeafMiss) (acc : LeafAccess) : LeafMiss × Dev :=
  let p := nextPart acc m.done
  let l := (d.bough b).line p.line
  let v := lineBytes l.data p.off p.len
  let write := needsWrite acc.kind
  let d := d.record b n p.line (acc.kind == .fetch) write
  let part := acc.value.toNat / 256 ^ m.done
  let m' := { m with done := m.done + p.len, value := m.value + v * 256 ^ m.done
                     poison := m.poison || (l.poison && acc.kind != .store && acc.kind != .sc)
                     bad := if m.poison then m.bad else p.line }
  let store (w : Nat) (d : Dev) : Dev :=
    let d := (d.clearResv p.line (some n)).modLine b p.line fun l =>
      { l with data := lineWith l.data p.off p.len w, st := .modified }
    d.modLeaf n fun x => { x with fetchStale := true }
  match acc.kind with
  | .store | .sc => (m', store part d)
  | .amo => (m', if l.poison then d else store (amoResult acc.op acc.size v part) d)
  | .lr => (m', if l.poison then d else d.modLeaf n fun x => { x with resv := some p.line })
  | _ => (m', d)

/-- A line whose write-back has not left returns from the eviction buffer to its set, or to its locked way; none when no way can be used
yet (R150, R154). -/
def Dev.takeBack (d : Dev) (b : Nat) (e : EvbEntry) : Option Dev :=
  let d := d.modBough b fun x => { x with evb := x.evb.erase e }
  let old := (d.bough b).line e.line
  let back (w : Nat) (d : Dev) : Dev := d.modBough b fun x =>
    x.setLine e.line { st := e.st, data := e.data, poison := e.poison, epoch := e.epoch, way := w, locked := old.locked, used := x.clock }
  if old.locked then some (back old.way d)
  else match (d.bough b).chooseWay e.line (d.freeWays b) with
    | none => none
    | some (w, none) => some (back w d)
    | some (w, some v) => some (back w (d.evict b v))

/-- Ready a line for an access of its own bough: it comes back from the eviction buffer (R150), or, dirty in the data array while that
is flushed, has its write-back issued out of turn (R159). -/
def Dev.fetchBack (d : Dev) (b line : Nat) : Dev :=
  let x := d.bough b
  let l := x.line line
  if d.l3On b then
    match x.evb.find? fun e => e.line == line && !e.sent with
    | some e => (d.takeBack b e).getD d
    | none => d
  else if l.valid && l.hasData && l.twigs.isEmpty && (x.txn line).isNone && decide (x.evbUse (l3Slice line) < 32) then d.evict b line
  else d

/-- Count the lookups and misses that an access of a leaf makes in its L2 and L3 (L3C_CNT, R73); `l1` is whether it counts as a miss of
its L1 too. -/
def Dev.countLookup (d : Dev) (b n line : Nat) (fetch write l1 : Bool) : Dev :=
  let l := (d.bough b).line line
  if l.inL1 n fetch write then d
  else
    let d := if l1 then d.modLeaf n fun x => x.countEvent (if fetch then 0x10 else 0x11) else d
    if l.inL2 (twigOf n) write then d
    else
      let d := (d.l3Count b 0).modLeaf n fun x => x.countEvent 0x12
      if l.valid then d else (d.l3Count b 1).modLeaf n fun x => x.countEvent 0x13

/-- The request that obtains a line for an access: a copy, a writable copy, or write permission for a copy held (R167). -/
def Dev.opFor (d : Dev) (b line : Nat) (write : Bool) : CohOp :=
  if !write then .rdShared else if ((d.bough b).line line).valid then .upgrade else .rdUnique

/-- A part of a cacheable access: performed on a line that the bough holds, or asked for. -/
def Dev.cachedPart (d : Dev) (b n : Nat) (m : LeafMiss) (acc : LeafAccess) (p : Part) : LeafMiss × Dev :=
  let w := needsWrite acc.kind
  let d := d.fetchBack b p.line
  if d.canServe b p.line w then d.performPart b n m acc
  else (m, d.startTxn b { line := p.line, op := d.opFor b p.line w })

/-- The home has nothing open for a line and its bough neither requests it nor writes it back. -/
def Dev.lineQuiet (d : Dev) (b line : Nat) : Bool :=
  let h := d.home (d.homeOfLine line)
  (h.txn line).isNone && !h.lineWaits line && ((d.bough b).txn line).isNone && !(d.bough b).evb.any fun e => e.line == line

/-- An AMO, LR or SC to non-cacheable memory is performed at the line's home in one step, once nothing is open for the line.
DESIGN CHOICE, assumption 18. -/
def Dev.atomicNc (d : Dev) (n : Nat) (m : LeafMiss) (acc : LeafAccess) (p : Part) : LeafMiss × Dev :=
  let x := d.cohRead p.line
  let d := if x.poison then d.cxlNote p.line else d
  let old := lineBytes x.data p.off p.len
  let m' := { m with done := acc.size, value := old, poison := x.poison && acc.kind != .sc, bad := p.line }
  let write (v : Nat) (d : Dev) : Dev :=
    d.cohWritePart p.line ((2 ^ p.len - 1) * 2 ^ p.off) (lineWith 0 p.off p.len v)
  if acc.kind == .sc then (m', write acc.value.toNat d)
  else if x.poison then (m', d)
  else if acc.kind == .lr then (m', d.modLeaf n fun x => { x with resv := some p.line })
  else (m', write (amoResult acc.op acc.size old acc.value.toNat) d)

/-- A part of a non-cacheable access to main memory (R60, R174, R422): a load is served from the bough's own copy or by RD_NOALLOC; before
a WR_PARTIAL the bough's own copy is written back when dirty and dropped when clean. -/
def Dev.ncPart (d : Dev) (b n : Nat) (m : LeafMiss) (acc : LeafAccess) (p : Part) : LeafMiss × Dev :=
  let free := ((d.bough b).txn p.line).isNone
  match acc.kind with
  | .store =>
    let d := if free && ((d.bough b).line p.line).valid then d.evict b p.line else d
    (m, d.startTxn b { line := p.line, op := .wrPartial, mask := (2 ^ p.len - 1) * 2 ^ p.off
                       value := lineWith 0 p.off p.len (acc.value.toNat / 256 ^ m.done), who := some (.leaf n) })
  | .amo | .sc | .lr => if d.lineQuiet b p.line then d.atomicNc n m acc p else (m, d)
  | _ =>
    let d := d.fetchBack b p.line
    let l := (d.bough b).line p.line
    if l.valid && free then
      ({ m with done := m.done + p.len, value := m.value + lineBytes l.data p.off p.len * 256 ^ m.done
                poison := m.poison || l.poison, bad := if m.poison then m.bad else p.line }, d)
    else (m, d.startTxn b { line := p.line, op := .rdNoalloc })

/-- Perform what a demand access can perform now, and ask for what it lacks; a part outside DRAM and CXL memory waits for its response.
`k` bounds the parts: a misaligned access has at most two. -/
def progressAccess : Nat → Nat → Nat → LeafMiss → LeafAccess → Dev → LeafMiss × Dev
  | 0, _, _, m, acc, d => (if acc.size ≤ m.done then { m with answer := some false } else m, d)
  | k + 1, b, n, m, acc, d =>
    if acc.size ≤ m.done then ({ m with answer := some false }, d)
    else
      let p := nextPart acc m.done
      if !mainMemory (64 * p.line) then (m, d)
      else if acc.kind == .sc && !d.scHolds n acc then ({ m with done := acc.size, answer := some true }, d)
      else
        let (m', d) := if p.pbmt == .pma then d.cachedPart b n m acc p else d.ncPart b n m acc p
        if m'.done = m.done then (m', d) else progressAccess k b n m' acc d

/-- The bough loses its own copy of a line, in every state; a write-back already sent stays (R422). -/
def Dev.dropOwn (d : Dev) (b line : Nat) : Dev :=
  (d.clearResv line none).modBough b fun x =>
    { x.setLine line (x.line line).gone with evb := x.evb.filter fun e => e.sent || e.line != line }

/-- What a miss entry can do now. A prefetch and a walk read are done once their line is held, PREFETCH.W once it is writable; CBO.ZERO once
its line is writable, which it fills with zeros (R161), or, not cacheable, once its zeros are written, before which the bough drops
its own copy (R422). -/
def Dev.progress (d : Dev) (n : Nat) (m : LeafMiss) : LeafMiss × Dev :=
  let b := n / 16
  let line := m.addr / 64
  match m.kind with
  | .demand acc => progressAccess 2 b n m acc d
  | .cboZero true =>
    let d := d.fetchBack b line
    if d.canServe b line true then
      let d := (d.clearResv line (some n)).record b n line false true
      ({ m with answer := some false }, d.modLine b line fun l => { l with data := 0, poison := false, st := .modified })
    else (m, d.startTxn b { line := line, op := .claim })
  | .cboZero false =>
    let d := if ((d.bough b).txn line).isSome then d else d.dropOwn b line
    (m, d.startTxn b { line := line, op := .wrFull, mask := 2 ^ 64 - 1, who := some (.leaf n) })
  | .prefetch kind =>
    let w := kind == .write
    let d := d.fetchBack b line
    if d.canServe b line w then ({ m with answer := some false }, d.record b n line (kind == .instr) w)
    else (m, d.startTxn b { line := line, op := d.opFor b line w })
  | .walk .. =>
    let d := d.fetchBack b line
    if d.canServe b line false then ({ m with answer := some false }, d.recordTwig b (twigOf n) line false)
    else (m, d.startTxn b { line := line, op := .rdShared })

/-- A leaf's miss entries that are not answered make what progress they can. -/
def Dev.retryLeaf (d : Dev) (n : Nat) : Dev :=
  let step (s : List LeafMiss × Dev) (m : LeafMiss) : List LeafMiss × Dev :=
    if m.answer.isSome then (s.1 ++ [m], s.2)
    else
      let (m, d) := s.2.progress n m
      (s.1 ++ [m], d)
  let (ms, d) := (d.leaf n).misses.foldl step ([], d)
  if (d.leaf n).misses = ms then d else d.modLeaf n fun l => { l with misses := ms }

/-! ### Requests of the engines, which travel as requests of their bough (R97, R168, R422) -/

/-- A request of an engine may be made: no earlier one of it for the line is outstanding, and the word of a write can no longer be
cancelled (R97, R111). -/
def Lee.mayAsk (e : Lee) (r : LeeReq) : Bool :=
  (match r.use with
   | .write s _ => e.mayRelease s
   | _ => true)
  && !(e.mem.takeWhile (· != r)).any fun x => x.addr / 64 == r.addr / 64 && x.came.isNone

/-- Replace a request of an engine. -/
def Dev.setReq (d : Dev) (n : Nat) (r r' : LeeReq) : Dev :=
  d.modLee n fun e => { e with mem := e.mem.map fun x => if x == r then r' else x }

/-- What a line brings an engine. -/
def fetchedLine (line : Nat) (x : LineData) : Fetched := if x.poison then .poison (64 * line) else .line x.data

/-- Make a request of an engine if it can be made now: a read is refused, served from the bough's own copy, or sent as RD_NOALLOC; a row is
written by WR_FULL, before which the bough drops its own copy (R97, R422). -/
def Dev.leeAsk (d : Dev) (n : Nat) (r : LeeReq) : Dev :=
  let b := n / 16
  let line := r.addr / 64
  let free := ((d.bough b).txn line).isNone
  if r.asked || r.came.isSome || !(d.lee n).mayAsk r then d
  else match r.use with
    | .write s x =>
      if !free then d
      else ((((d.dropOwn b line).setReq n r { r with asked := true }).modLee n fun e => e.final s).startTxn b
        { line := line, op := .wrFull, mask := 2 ^ 64 - 1, value := x, who := some (.lee n) })
    | _ => match d.memCheck 2 0 false r.addr with
      | .ok =>
        let d := d.fetchBack b line
        let l := (d.bough b).line line
        if !((d.bough b).txn line).isNone then d
        else if l.valid then d.setReq n r { r with came := some (fetchedLine line ⟨l.data, l.poison⟩) }
        else (d.setReq n r { r with asked := true }).startTxn b { line := line, op := .rdNoalloc }
      | c => (d.memRefused c 2 0 false r.addr).setReq n r { r with came := some (.access r.addr) }

/-- An engine makes what requests it can, in order. -/
def Dev.leeServe (d : Dev) (n : Nat) : Dev := (d.lee n).mem.foldl (fun d r => d.leeAsk n r) d

/-- An effect on an engine, after which the engine makes what requests it can. -/
def leeThen (n : Nat) (f : Dev → Dev) (d : Dev) : Dev := (f d).leeServe n

/-- The return of a line to an engine, which makes what requests it can before it and after. -/
def leeReturn (n : Nat) (f : Dev → Dev) (d : Dev) : Dev := (f (d.leeServe n)).leeServe n

/-- What the answer of a request that keeps no copy brings an engine: its line, or the end of its own write. -/
def Lee.ncAnswer (e : Lee) (n : Nat) (t : BoughTxn) (x : LineData) : Lee :=
  let here (r : LeeReq) : Bool := r.asked && r.addr / 64 == t.line && r.came.isNone
  if t.op == .rdNoalloc then
    { e with mem := e.mem.map fun r => if here r && !r.isWrite then { r with came := some (fetchedLine t.line x) } else r }
  else if t.who == some (.lee n) then { e with mem := e.mem.filter fun r => !(here r && r.isWrite) }
  else e

/-- Every leaf and every engine of a bough makes what progress it can: the accesses that wait for a line are performed as soon as it is
there, before any later snoop (R173). -/
def Dev.retryBough (d : Dev) (b : Nat) : Dev :=
  let d := (List.range 16).foldl (fun d j => if (d.leaf (16 * b + j)).misses.isEmpty then d else d.retryLeaf (16 * b + j)) d
  (List.range 16).foldl (fun d j => if (d.lee (16 * b + j)).mem.isEmpty then d else d.leeServe (16 * b + j)) d

/-! ### Fills -/

/-- Both the data, if any, and the grant have arrived (R171): the grant, its epoch and the line. -/
def BoughTxn.filled (t : BoughTxn) : Option (Grant × Nat × LineData) :=
  match t.data, t.grant with
  | some (_, x), some (g, ep) => some (g, ep, ⟨x.data, x.poison || t.poison⟩)
  | _, _ => none

/-- The bough-level state of a grant. -/
def grantState : Grant → CState
  | .shared => .shared
  | .excl => .excl
  | .modified => .modified
  | .none => .invalid

/-- The twigs of a bough in which an access waits for a line. -/
def Dev.waitingTwigs (d : Dev) (b line : Nat) : List Nat :=
  ((d.waiters b line fun _ => true).map fun j => j / 4).foldl (fun l t => insertNat t l) []

/-- Put a granted line in its place and send COMP_ACK; false when no way can be used yet. A locked tag keeps its way. While the data
array is out of service the L2s that wait for the line take it and the L3 keeps the tag alone; without one that waits it leaves
the bough (R158, R159). -/
def Dev.placeFill (d : Dev) (b : Nat) (t : BoughTxn) (ways : List Nat) (lock : Bool) (g : Grant) (ep : Nat) (x : LineData) :
    Bool × Dev :=
  let old := (d.bough b).line t.line
  let on := d.l3On b
  let here := if on then old.twigs else (d.waitingTwigs b t.line).foldl (fun l k => insertNat k l) old.twigs
  let newLine (w : Nat) : L3Line :=
    { old with st := grantState g, data := x.data, poison := x.poison, epoch := ep, way := w, locked := old.locked || lock
               hasData := on && (!old.valid || old.hasData), twigs := here, used := (d.bough b).clock }
  let finish (w : Nat) (d : Dev) : Dev :=
    let d := d.modBough b fun y => { y with txns := y.txns.filter fun z => z.line != t.line }
    let d := (d.modLine b t.line fun _ => newLine w).emit (.compAck b t.line)
    if on || !here.isEmpty then d else d.evict b t.line
  if !on && here.isEmpty && g == .modified && 32 ≤ (d.bough b).evbUse (l3Slice t.line) then (false, d)
  else if old.valid || old.locked then (true, finish old.way d)
  else match (d.bough b).chooseWay t.line ways with
    | none => (false, d)
    | some (w, none) => (true, finish w d)
    | some (w, some v) => (true, finish w (d.evict b v))

/-- A request that keeps a copy is filled: the line goes into an unlocked way and what waits for it goes on. A line without data
of its own (UPGRADE, CLAIM) takes its grant in place. The fetch of a lock command waits for its own command. -/
def Dev.fill (d : Dev) (b : Nat) (t : BoughTxn) : Dev :=
  if t.forLock then d
  else match t.filled with
    | none => d
    | some (g, ep, x) =>
      let (ok, d) := d.placeFill b t (d.freeWays b) false g ep x
      if ok then ((d.retryBough b).sendRequests b) else d

/-- Fills that waited for a way or for the eviction buffer try again (R148, R151). -/
def Dev.retryFills (d : Dev) (b : Nat) : Dev := (d.bough b).txns.foldl (fun d t => d.fill b t) d

/-- What the answer of a request that keeps no copy brings a leaf's miss entry: the line of a load, or the end of its own write. -/
def LeafMiss.ncAnswer (m : LeafMiss) (n : Nat) (t : BoughTxn) (x : LineData) : LeafMiss :=
  let mine := t.who == some (.leaf n)
  if m.answer.isSome || m.line != t.line then m
  else match m.kind with
    | .demand acc =>
      let p := nextPart acc m.done
      if p.pbmt == .pma then m
      else if acc.kind == .store then
        if mine && t.op == .wrPartial then
          let m := { m with done := m.done + p.len }
          if acc.size ≤ m.done then { m with answer := some false } else m
        else m
      else if (acc.kind == .load || acc.kind == .fetch || acc.kind == .walk) && t.op == .rdNoalloc then
        let m := { m with done := m.done + p.len, value := m.value + lineBytes x.data p.off p.len * 256 ^ m.done
                          poison := m.poison || x.poison, bad := if m.poison then m.bad else p.line }
        if acc.size ≤ m.done then { m with answer := some false } else m
      else m
    | .cboZero false => if mine && t.op == .wrFull then { m with answer := some false } else m
    | _ => m

/-- A request that keeps no copy is answered: the line is given to the waiting loads and engines, or its writer goes on, and nothing is
kept. -/
def Dev.answerNc (d : Dev) (b : Nat) (t : BoughTxn) (x : LineData) : Dev :=
  let d := d.modBough b fun y => { y with txns := y.txns.filter fun z => z.line != t.line }
  let give (d : Dev) (n : Nat) : Dev := d.modLeaf n fun l => { l with misses := l.misses.map fun m => m.ncAnswer n t x }
  let d := (List.range 16).foldl (fun d j => if (d.leaf (16 * b + j)).misses.isEmpty then d else give d (16 * b + j)) d
  let d := (List.range 16).foldl (fun d j =>
    let n := 16 * b + j
    if (d.lee n).mem.isEmpty then d else d.modLee n fun e => e.ncAnswer n t x) d
  (d.retryBough b).sendRequests b

/-! ### Accesses of the leaves (R59, R60, R68) -/

/-- The access is naturally aligned. -/
def aligned (a size : Nat) : Bool := a % size == 0

/-- An access is atomic: an AMO, LR or SC. -/
def atomicKind (kind : AccKind) : Bool := kind == .amo || kind == .lr || kind == .sc

/-- The bytes of an access on one page: physical address, number and virtual address. -/
structure Portion where
  addr : Nat
  size : Nat
  va : Word

/-- The portions of an access, one for each page it touches. -/
def portions (acc : LeafAccess) : List Portion :=
  match acc.addr2 with
  | none => [⟨acc.addr, acc.size, acc.va⟩]
  | some a =>
    let here := 4096 - acc.addr % 4096
    [⟨acc.addr, here, acc.va⟩, ⟨a, acc.size - here, acc.va + BitVec.ofNat 64 here⟩]

/-- What a portion of an access meets at its physical address: none where it may be made, or the state that its access fault leaves
(R25, R59, R60). A misaligned access to an I/O range is one that crosses into it too. -/
def Dev.checkPortion (d : Dev) (n : Nat) (acc : LeafAccess) (p : Portion) : Option Dev :=
  let cls := d.leafClass n
  let w := needsWrite acc.kind
  let c := d.memCheck cls 0 w p.addr
  let crosses := acc.addr2.isSome || !aligned p.addr p.size
  match rangeOf p.addr with
  | .dram | .cxl =>
    let stop := p.addr + p.size - 1
    let last := d.memCheck cls 0 w stop
    if c != .ok then some (d.memRefused c cls 0 w p.addr)
    else if last != .ok then some (d.memRefused last cls 0 w stop) else none
  | .flash =>
    if c != .ok then some (d.memRefused c cls 0 w p.addr) else if w || acc.kind == .lr then some d else none
  | .reserved => some (d.memRefused (if c == .refused then .refused else .undecoded) cls 0 w p.addr)
  | .mmio =>
    if c == .refused then some (d.memRefused c cls 0 w p.addr)
    else if d.mmioTarget p.addr == .none then some (d.memRefused .undecoded cls 0 w p.addr)
    else if acc.kind == .fetch || atomicKind acc.kind || crosses then some d else none
  | _ =>
    if c == .refused then some (d.memRefused c cls 0 w p.addr)
    else if acc.kind == .fetch || atomicKind acc.kind || crosses then some d else none

/-- What an access meets at its physical addresses before it is made: an exception code, the faulting virtual address, which is that of
its portion (R58), and the state it leaves, or none. -/
def Dev.checkAccess (d : Dev) (n : Nat) (acc : LeafAccess) : Option (Nat × Word × Dev) :=
  (portions acc).findSome? fun p => (d.checkPortion n acc p).map fun d => (accessCode acc.kind false, p.va, d)

/-- The result of an access in its register file: an integer register, a floating-point register, NaN-boxed when narrow, or an
element of a vector register group. -/
def Leaf.setResult (l : Leaf) (acc : LeafAccess) (v : Nat) : Leaf :=
  match acc.file with
  | .x => l.setX acc.rd (loadValue acc v)
  | .f =>
    let w := BitVec.ofNat 64 (if acc.size < 8 then v + (2 ^ 64 - 256 ^ acc.size) else v)
    { l with f := l.f.set natLt 0 acc.rd w }.dirtyF
  | .v _ =>
    let at8 := acc.elem * acc.size
    let r := acc.rd + at8 / 32
    let old := (l.v.find 0 r).toNat
    let shift := 256 ^ (at8 % 32)
    let new := old - old / shift % 256 ^ acc.size * shift + v % 256 ^ acc.size * shift
    { l with v := l.v.set natLt 0 r (BitVec.ofNat 256 new) }.dirtyV

/-- An access of an instruction is done: the last retires the instruction; an element of a vector access before it moves vstart on. -/
def Leaf.retireAccess (l : Leaf) (acc : LeafAccess) : Leaf :=
  match acc.file with
  | .v _ =>
    if acc.last then ((l.setCsr 0x008 0).dirtyV.countEvent 0x40).retire (l.pc + BitVec.ofNat 64 acc.len)
    else (l.setCsr 0x008 (BitVec.ofNat 64 (acc.elem + 1))).dirtyV
  | _ => l.retire (l.pc + BitVec.ofNat 64 acc.len)

/-- An access ends: its register is written and it retires, or its exception or machine check is taken. An error met by a fetch ahead of
an instruction that still waits raises nothing: the fetch is made again (R70). -/
def Dev.finishAccess (d : Dev) (n : Nat) (acc : LeafAccess) (m : LeafMiss) (failed : Bool) : Dev :=
  let l := d.leaf n
  let fault : Dev := d.exception n (accessCode acc.kind false) acc.va 0 (virtual (l.accessMode acc.kind acc.hv))
  if m.poison then
    let code := match acc.kind with
      | .fetch => 5
      | .walk => 6
      | _ => 4
    let a := if code = 6 then acc.addr else if mainMemory acc.addr then m.bad * 64 else acc.addr / 64 * 64
    if acc.kind == .fetch && (d.leaf n).holding then d
    else d.machineCheck n ⟨code, BitVec.ofNat 64 a, d.mchkLoc n code⟩
  else match acc.kind with
    | .fetch | .walk => d
    | .sc => d.setLeaf n ({ l.setX acc.rd (if failed then 1 else 0) with resv := none }.retireAccess acc)
    | .store => if failed then fault else d.setLeaf n (l.retireAccess acc)
    | _ => if failed then fault else d.setLeaf n ((l.setResult acc m.value).retireAccess acc)

/-- The register or aperture write that a store to an I/O range sends. -/
def Dev.sendIo (d : Dev) (n : Nat) (acc : LeafAccess) : Dev :=
  let who : Requester := .leaf n (d.leaf n).mode
  match rangeOf acc.addr with
  | .regs => d.emit (.reg who acc.addr acc.size acc.value)
  | .aperture =>
    let off := acc.addr - 0x0E0000000000
    d.emit (.aperture who (off / 2 ^ 28) (off % 2 ^ 28) acc.size (acc.value.setWidth 512))
  | .mmio => (d.mmioStore acc.addr acc.size acc.value).emit (.ioAnswer n acc.addr 0 false)
  | _ => d

/-- The request that a load from an I/O range sends; a register or an aperture is read where it lies. -/
def Dev.loadIo (d : Dev) (n : Nat) (acc : LeafAccess) : Dev :=
  if rangeOf acc.addr == .mmio then d.mmioLoad n acc.addr acc.size else d

/-- An access needs no miss entry: the leaf's L1 holds what is left of it, or a conditional store fails at once (R68). -/
def Dev.hitsL1 (d : Dev) (n : Nat) (acc : LeafAccess) : Bool :=
  let here (k : Nat) : Bool :=
    let p := nextPart acc k
    let w := needsWrite acc.kind
    mainMemory (64 * p.line) && p.pbmt == .pma && ((d.bough (n / 16)).line p.line).inL1 n (acc.kind == .fetch) w
    && d.canServe (n / 16) p.line w
  let first := (nextPart acc 0).len
  (acc.kind == .sc && !d.scHolds n acc) || (here 0 && (acc.size ≤ first || here first))

/-- An access is made: it hits, or takes a miss entry. -/
def Dev.makeAccess (d : Dev) (n : Nat) (acc : LeafAccess) : Dev :=
  let b := n / 16
  let m : LeafMiss := { addr := acc.addr, kind := .demand acc }
  let d := if mainMemory acc.addr && acc.pbmt == .pma then
    d.countLookup b n (acc.addr / 64) (acc.kind == .fetch) (needsWrite acc.kind) true else d
  let d := if mainMemory acc.addr then d else if acc.kind == .store then d.sendIo n acc else d.loadIo n acc
  let (m, d) := d.progress n m
  match m.answer with
  | some failed => d.finishAccess n acc m failed
  | none => d.modLeaf n fun l => { l with misses := l.misses ++ [m] }

/-- A use that finds all 48 miss entries taken stalls the leaf (R68). -/
def Dev.stall (d : Dev) (n : Nat) (u : LeafUse) : Dev := d.modLeaf n fun l => { l with stalled := some u }

/-- The miss entries of a leaf are all in use (R68). -/
def Leaf.full (l : Leaf) : Bool := decide (48 ≤ l.misses.length)

/-- The miss entry of the read of a page table entry, and its request. -/
def Dev.startWalk (d : Dev) (n vpn a : Nat) (u : LeafUse) : Dev :=
  let d := d.countLookup (n / 16) n (a / 64) false false false
  let (m, d) := d.progress n { addr := a, kind := .walk vpn u }
  d.modLeaf n fun l => { l with misses := l.misses ++ [m] }

/-- The read of a page table entry takes a miss entry, for the use that needs the walk of a page (R68). A prefetch may not have one of
the last four (R69). -/
def Dev.walkMiss (d : Dev) (n vpn a : Nat) (u : LeafUse) : Dev :=
  match u with
  | .prefetch .. =>
    if 44 ≤ (d.leaf n).misses.length then d.modLeaf n fun l => l.countEvent 0x22 else d.startWalk n vpn a u
  | _ => if (d.leaf n).full then d.stall n u else d.startWalk n vpn a u

/-- The instruction of an access cannot be executed: its register file is off, a vector access has no vtype, or a hypervisor load or
store is not for this mode. The exception's code. PRESUMED, assumption 69. -/
def Leaf.accessTrap (l : Leaf) (acc : LeafAccess) : Option Nat :=
  if acc.hv && virtual l.mode then some 22
  else if acc.hv && l.mode = .user && !(l.csrRaw 0x600).getLsbD 9 then some 2
  else match acc.file with
    | .x => none
    | .f => if l.fpOff then some 2 else none
    | .v whole => if l.vecOff || (!whole && (l.csrRaw 0xC21).getLsbD 63) then some 2 else none

/-- Map an access and check it: the access with its physical address, or none where its exception or machine check has been taken or its
walk waits. A misaligned AMO, LR or SC comes first (R59). -/
def Dev.admitAccess (d : Dev) (n : Nat) (acc : LeafAccess) (again : Option Nat := none) : Option LeafAccess × Dev :=
  let hv := virtual ((d.leaf n).accessMode acc.kind acc.hv)
  if atomicKind acc.kind && !aligned acc.va.toNat acc.size then
    (none, d.exception n (accessCode acc.kind true) acc.va 0 hv)
  else match d.mapAccess n acc again with
    | (.trap code va gpa, d) => (none, d.exception n code va gpa hv)
    | (.poison a, d) => (none, d.machineCheck n ⟨6, BitVec.ofNat 64 a, d.mchkLoc n 6⟩)
    | (.miss vpn a, d) => (none, d.walkMiss n vpn a (.access acc))
    | (.ok acc, d) =>
      match d.checkAccess n acc with
      | some (code, va, d) => (none, d.exception n code va 0 hv)
      | none => (some acc, d)

/-- An access goes on from its mapping: it is made, or stalls the leaf where it needs a miss entry and none is free (R68). `array` is what
it meets in the arrays (R334). -/
def Dev.accessGo (d : Dev) (n : Nat) (acc : LeafAccess) (array : LeafAccess → Dev → Dev) (again : Option Nat) : Dev :=
  match d.admitAccess n acc again with
  | (none, d) => d
  | (some acc, d) =>
    let d := array acc d
    if (d.leaf n).full && !d.hitsL1 n acc then d.stall n (.access acc) else d.makeAccess n acc

/-- A fetch, or a walk read, ahead of an instruction that still waits: one that meets an exception or an error, or finds no miss entry, is
not made; it comes again in its turn. DESIGN CHOICE, assumption 16. -/
def Dev.aheadGo (d : Dev) (n : Nat) (acc : LeafAccess) (again : Option Nat) : Dev :=
  if (d.leaf n).full then d
  else match d.mapAccess n acc again with
    | (.ok acc, d') => if (d'.checkAccess n acc).isSome then d else d'.makeAccess n acc
    | (.miss vpn a, d') => d'.walkMiss n vpn a (.access acc)
    | _ => d

/-- LEAF_LOAD_STORE: an interrupt that is due is taken in its place; a failed check takes its exception; an access that finds
all 48 miss entries in use stalls the leaf (R68). A fetch or a walk read may go ahead of an instruction that waits.
DESIGN CHOICE, assumption 15. DESIGN CHOICE, assumption 16. -/
def leafAccessEff (n : Nat) (acc : LeafAccess) (array : LeafAccess → Dev → Dev) (d : Dev) : Dev :=
  if acc.size = 0 || 8 < acc.size then d
  else if !d.leafRuns n then
    if d.leafReady n && !(LeafUse.access acc).holds then d.aheadGo n acc none else d
  else match (d.leaf n).interrupt with
    | some (code, dest) => d.setLeaf n ((d.leaf n).trapTo dest true code 0)
    | none =>
      match (d.leaf n).accessTrap acc with
      | some code => d.instrTrap n code acc.bits
      | none => d.accessGo n acc array none

/-- The exception of CBO.ZERO where an enable of menvcfg, henvcfg or senvcfg is clear (Zicboz). PRESUMED, assumption 69. -/
def Leaf.cbzeTrap (l : Leaf) : Option Nat :=
  let m := (l.csrRaw 0x30A).getLsbD 7
  let h := (l.csrRaw 0x60A).getLsbD 7
  let s := (l.csrRaw 0x10A).getLsbD 7
  match l.mode with
  | .machine => none
  | .super => if m then none else some 2
  | .user => if m && s then none else some 2
  | .vs => if !m then some 2 else if h then none else some 22
  | .vu => if !m then some 2 else if h && s then none else some 22

/-- CBO.ZERO goes on from its mapping: checked as a store to its block, and done at once on a writable line, or through a CLAIM and a
miss entry. On a non-cacheable page its zeros are written by WR_FULL (R60, R174). -/
def Dev.zeroGo (d : Dev) (n addr : Nat) (again : Option Nat) : Dev :=
  let va := BitVec.ofNat 64 addr
  let hv := virtual ((d.leaf n).accessMode .store false)
  match d.mapAccess n { kind := .store, va := BitVec.ofNat 64 (addr / 64 * 64), size := 64 } again with
  | (.trap code _ gpa, d) => d.exception n code va gpa hv
  | (.poison a, d) => d.machineCheck n ⟨6, BitVec.ofNat 64 a, d.mchkLoc n 6⟩
  | (.miss vpn a, d) => d.walkMiss n vpn a (.zero addr)
  | (.ok acc, d) =>
    let a := acc.addr
    let c := d.memCheck (d.leafClass n) 0 true a
    if !mainMemory a || c != .ok then
      (d.memRefused (if rangeOf a == .reserved && c == .ok then .undecoded
        else if mainMemory a || rangeOf a == .flash || c == .refused then c else .ok) (d.leafClass n) 0 true a).exception n 7 va 0 hv
    else
      let cached := acc.pbmt == .pma
      let hit := cached && ((d.bough (n / 16)).line (a / 64)).inL1 n false true && d.canServe (n / 16) (a / 64) true
      if (d.leaf n).full && !hit then d.stall n (.zero addr)
      else
        let d := if cached then d.countLookup (n / 16) n (a / 64) false true true else d
        let (m, d) := d.progress n { addr := a, kind := .cboZero cached }
        match m.answer with
        | some _ => d.modLeaf n fun l => l.retire (l.pc + 4)
        | none => d.modLeaf n fun l => { l with misses := l.misses ++ [m] }

/-- CBO_ZERO (R161). An interrupt that is due is taken in its place. The base register, whose number an illegal instruction reports, is no
operand of the command and free. DESIGN CHOICE, assumption 18. -/
def cboZeroEff (n addr : Nat) (d : Dev) : Dev :=
  if !d.leafRuns n then d
  else match (d.leaf n).interrupt, (d.leaf n).cbzeTrap with
    | some (code, dest), _ => d.setLeaf n ((d.leaf n).trapTo dest true code 0)
    | none, some code =>
      let (rs1, d) := d.freeNext
      d.instrTrap n code (0x0040200F ||| ((rs1 &&& 0x1F) <<< 15))
    | none, none => d.zeroGo n addr none

/-- The kind of access whose permissions a prefetch needs. -/
def prefetchKind : PrefetchKind → AccKind
  | .instr => .fetch
  | .write => .store
  | _ => .load

/-- A prefetch goes on from its mapping. A line that its L1 holds already needs no miss entry. One that would take one of the last four
is discarded (R69), and so is one without a translation or permission, or outside cacheable memory; it raises no exception. A hardware
prefetch names a physical address. -/
def Dev.prefetchGo (d : Dev) (n : Nat) (kind : PrefetchKind) (addr : Nat) (again : Option Nat) : Dev :=
  let acc : LeafAccess := { kind := prefetchKind kind, va := BitVec.ofNat 64 (addr / 64 * 64), size := 64 }
  let (r, d) := if kind == .hardware then (.ok { acc with addr := addr / 64 * 64 }, d) else d.mapAccess n acc again
  match r with
  | .ok acc =>
    let a := acc.addr
    let c := d.memCheck (d.leafClass n) 0 false a
    if !mainMemory a || acc.pbmt != .pma then d
    else if c != .ok then d.memRefused c (d.leafClass n) 0 false a
    else if ((d.bough (n / 16)).line (a / 64)).inL1 n (kind == .instr) (kind == .write) then d
    else if 44 ≤ (d.leaf n).misses.length then d.modLeaf n fun l => l.countEvent 0x22
    else
      let d := d.countLookup (n / 16) n (a / 64) (kind == .instr) (kind == .write) false
      let (m, d) := d.progress n { addr := a, kind := .prefetch kind }
      if m.answer.isSome then d else d.modLeaf n fun l => { l with misses := l.misses ++ [m] }
  | .miss vpn a => d.walkMiss n vpn a (.prefetch kind addr)
  | _ => d

/-- PREFETCH (R69). A Zicbop hint retires; a hardware prefetch is no instruction. -/
def prefetchEff (n : Nat) (kind : PrefetchKind) (addr : Nat) (d : Dev) : Dev :=
  if kind == .hardware then (if d.leafReady n then d.prefetchGo n kind addr none else d)
  else if !d.leafRuns n then d
  else (d.modLeaf n fun l => l.retire (l.pc + 4)).prefetchGo n kind addr none

/-- A use goes on once the walk read it waited for has returned, or once a miss entry is free. -/
def Dev.resumeUse (d : Dev) (n : Nat) (u : LeafUse) (again : Option Nat) : Dev :=
  match u with
  | .access acc => if (d.leaf n).holding then d.aheadGo n acc again else d.accessGo n acc (fun _ d => d) again
  | .zero a => d.zeroGo n a again
  | .prefetch k a => d.prefetchGo n k a again

/-- A miss entry has been freed: a stalled use goes on (R68), and a machine check that waited for the end of an access is taken. -/
def Dev.unstall (d : Dev) (n : Nat) : Dev :=
  let d := match (d.leaf n).stalled with
    | none => d
    | some u => (d.modLeaf n fun l => { l with stalled := none }).resumeUse n u none
  d.deliverPending n

/-! ### Lock commands (R152 to R157) -/

/-- The line is outside what a lock command may fetch, with the status of the failure: 6 ATTR, where a line has no home and is never
cached (R162), 7 ACCESS. DESIGN CHOICE, assumption 17. -/
def Dev.lockRefused (d : Dev) (line : Nat) : Option (Nat × Dev) :=
  let a := 64 * line
  let c := d.memCheck 1 0 false a
  if !mainMemory a then some (6, d)
  else if c != .ok then some (7, d.memRefused c 1 0 false a)
  else none

/-- Count the outcome of a line of a lock command: 0 is locked. -/
def Dev.lockOutcome (d : Dev) (b : Nat) (c : LockCmd) (outcome : Nat) : Dev :=
  let s := d.boughSite b
  let d := if outcome = 0 then d.count L3C_LOCK_STAT.LOCKED 1 s else d.count L3C_LOCK_STAT.FAILED 1 s
  let first := c.firstFail.isNone && outcome != 0
  let d := if first then d.put L3C_LOCK_FAIL.ADDR c.next s else d
  let c' : LockCmd := { c with next := c.next + 1, left := c.left - 1, fetching := false
                               firstFail := if first then some outcome else c.firstFail, waited := false }
  d.modBough b fun x => { x with lock := some c' }

/-- Mark the lock of a way mask away: lines in those ways are ordinary again, and locked tags without a line go. -/
def Dev.unlockWays (d : Dev) (b ways : Nat) : Dev :=
  let s := d.boughSite b
  let d := (d.bough b).lines.foldl (fun d p =>
    if p.2.locked && bit ways p.2.way then
      d.modLine b p.1 fun l => if l.valid then { l with locked := false } else {}
    else d) d
  d.put L3C_LOCK_WAYS.WAYS ((List.range 16).foldl (fun m w => if bit ways w then setBit m w false else m)
    (d.get L3C_LOCK_WAYS.WAYS s)) s

/-- A lock command ends with a status. -/
def Dev.lockEnd (d : Dev) (b status : Nat) : Dev :=
  let s := d.boughSite b
  (((d.modBough b fun x => { x with lock := none }).put L3C_LOCK_STAT.BUSY 0 s).put L3C_LOCK_STAT.DONE 1 s).put
    L3C_LOCK_STAT.STATUS status s

/-- The line's dirty data is in the data array alone. -/
def L3Line.dirtyHere (l : L3Line) : Bool := dirtyState l.st && l.hasData && l.twigs.isEmpty

/-- The order of a flush: by set, a line of a lower set first (R158). -/
def insertBySet (line : Nat) : List Nat → List Nat
  | [] => [line]
  | a :: t => if l3Set line < l3Set a then line :: a :: t else a :: insertBySet line t

/-- A flush goes on: dirty lines of the data array without a transaction open move into the eviction buffers, slice by slice and set by
set, while there is room; when nothing is left the data array is gated. -/
def Dev.flushGo (d : Dev) (b : Nat) : Dev :=
  let s := d.boughSite b
  if !d.flag L3C_STAT.FLUSHING s then d
  else
    let order (sl : Nat) : List Nat :=
      ((d.bough b).lines.filter fun p => p.2.dirtyHere && l3Slice p.1 == sl).foldl (fun l p => insertBySet p.1 l) []
    let d := ((List.range 8).flatMap order).foldl (fun d line =>
      if (d.bough b).evbUse (l3Slice line) < 32 && ((d.bough b).txn line).isNone then d.evict b line else d) d
    if (d.bough b).evb.isEmpty && !(d.bough b).lines.any fun p => p.2.dirtyHere then
      (d.put L3C_STAT.FLUSHING 0 s).put L3C_STAT.DISABLED 1 s
    else d

/-- A disable without a lock command in progress (R158): every way is unlocked and the flush starts. Lines that an L2 holds stay there,
their tags in the L3; clean lines of the data array alone are dropped. DESIGN CHOICE, assumption 17. -/
def Dev.startFlush (d : Dev) (b : Nat) : Dev :=
  let d := (d.unlockWays b 0xFFFF).put L3C_STAT.FLUSHING 1 (d.boughSite b)
  let d := (d.bough b).lines.foldl (fun d p =>
    if p.2.dirtyHere || ((d.bough b).txn p.1).isSome then d
    else if p.2.twigs.isEmpty then (d.clearResv p.1 none).modLine b p.1 fun _ => {}
    else d.modLine b p.1 fun l => { l with hasData := false }) d
  d.flushGo b

/-- The mask ways of a set that hold no locked line. -/
def Bough.lockWays (x : Bough) (line ways : Nat) : List Nat :=
  (List.range 16).filter fun w => bit ways w &&
    match x.inWay (l3Slice line) (l3Set line) w with
    | some p => !p.2.locked
    | none => true

/-- Handle the lines of a lock command until one must be fetched or must wait (R153, R155). The number bounds the lines. -/
def lockRun : Nat → Nat → Dev → Dev
  | 0, _, d => d
  | k + 1, b, d =>
    let x := d.bough b
    match x.lock with
    | none => d
    | some c =>
      if c.fetching then d
      else if c.ending then (d.lockEnd b 3).startFlush b
      else if !d.l3On b then d
      else if c.left = 0 then d.lockEnd b (c.firstFail.getD 0)
      else
        let l := x.line c.next
        if (x.txn c.next).isSome then d.modBough b fun x => { x with lock := some { c with waited := true } }
        else if x.evb.any (fun e => e.line == c.next) then d
        else if l.locked && l.valid then lockRun k b (d.lockOutcome b c 0)
        else match d.lockRefused c.next with
          | some (st, d) => lockRun k b (d.lockOutcome b c st)
          | none =>
            let ways := x.lockWays c.next c.ways
            if l.valid && l.poison && c.waited then lockRun k b (d.lockOutcome b c 8)
            else if l.valid && bit c.ways l.way then
              lockRun k b ((d.modLine b c.next fun l => { l with locked := true }).lockOutcome b c 0)
            else if ways.isEmpty && !l.locked then lockRun k b (d.lockOutcome b c 5)
            else if l.valid then
              match x.chooseWay c.next ways with
              | none => d
              | some (w, v) =>
                let d := match v with
                  | some v => d.evict b v
                  | none => d
                lockRun k b ((d.modLine b c.next fun l => { l with way := w, locked := true }).lockOutcome b c 0)
            else
              (d.modBough b fun x => { x with lock := some { c with fetching := true } }).startTxn b
                { line := c.next, op := .rdShared, forLock := true }

/-- Let a lock command go on. -/
def Dev.lockGo (d : Dev) (b : Nat) : Dev :=
  match (d.bough b).lock with
  | some c => lockRun (c.left + 2) b d
  | none => d

/-- A refused lock or unlock command: DONE and its status. -/
def Dev.lockRefuse (d : Dev) (s status : Nat) : Dev := (d.put L3C_LOCK_STAT.DONE 1 s).put L3C_LOCK_STAT.STATUS status s

/-- The number of ways in a mask. -/
def waysIn (m : Nat) : Nat := ((List.range 16).filter fun w => bit m w).length

/-- PRELOAD_AND_LOCK (R152). -/
def preloadLockEff (s ways : Nat) (d : Dev) : Dev :=
  if !d.siteActive s then d
  else
    let b := d.boughAt s
    let first := d.get L3C_LOCK_ADDR.ADDR s
    let len := d.get L3C_LOCK_LEN.LINES s
    let m := ways % 2 ^ 16
    let all := m ||| d.get L3C_LOCK_WAYS.WAYS s
    if (d.bough b).lock.isSome then d.lockRefuse s 1
    else if m = 0 || len = 0 || 2 ^ 42 < first + len then d.lockRefuse s 4
    else if 12 < waysIn all then d.lockRefuse s 2
    else if !d.flag L3C_CTL.EN s || d.flag L3C_STAT.FLUSHING s then d.lockRefuse s 3
    else
      let d := ((d.put L3C_LOCK_WAYS.WAYS all s).put L3C_LOCK_STAT.BUSY 1 s).put L3C_LOCK_STAT.DONE 0 s
      let d := ((d.put L3C_LOCK_STAT.LOCKED 0 s).put L3C_LOCK_STAT.FAILED 0 s).put L3C_LOCK_STAT.STATUS 0 s
      (d.modBough b fun x => { x with lock := some { next := first, left := len, ways := m } }).lockGo b

/-- LOCK_LINE_FETCH_RETURN (R153): the fetched line is placed in a locked way, or its poison makes it fail; an access of a leaf
that waits for the line goes on. -/
def lockFetchEff (s : Nat) (d : Dev) : Dev :=
  let b := d.boughAt s
  match (d.bough b).lock with
  | none => d
  | some c =>
    match ((d.bough b).txn c.next).bind fun t => t.filled.map fun r => (t, r) with
    | none => d
    | some (t, g, ep, x) =>
      if !d.siteActive s || !c.fetching then d
      else
        let old := (d.bough b).line t.line
        let ways := (d.bough b).lockWays t.line c.ways
        if !x.poison && ways.isEmpty && !old.locked then
          -- another line took the last way meanwhile: an ordinary fill, and CAPACITY
          let (ok, d) := d.placeFill b t (d.freeWays b) false g ep x
          if ok then (((d.lockOutcome b c 5).retryBough b).sendRequests b).lockGo b else d
        else
          let (ok, d) := if x.poison then d.placeFill b t (d.freeWays b) false g ep x else d.placeFill b t ways true g ep x
          if ok then (((d.lockOutcome b c (if x.poison then 8 else 0)).retryBough b).sendRequests b).lockGo b else d

/-- UNLOCK (R157). -/
def unlockEff (s ways : Nat) (d : Dev) : Dev :=
  if !d.siteActive s then d
  else
    let b := d.boughAt s
    if (d.bough b).lock.isSome then d.lockRefuse s 1
    else (d.unlockWays b (ways % 2 ^ 16)).lockRefuse s 0

/-! ### Disabling and enabling the L3 (R158 to R160) -/

/-- L3_DISABLE (R158): a lock command in progress ends after its current line; then the flush starts. -/
def l3DisableEff (s : Nat) (d : Dev) : Dev :=
  if !d.siteActive s || !d.flag L3C_CTL.EN s then d
  else
    let b := d.boughAt s
    let d := d.put L3C_CTL.EN 0 s
    if d.flag L3C_STAT.DISABLED s then
      -- the data array is not in service yet and empty
      (if (d.bough b).lock.isSome then d.lockEnd b 3 else d).unlockWays b 0xFFFF
    else match (d.bough b).lock with
      | some c => (d.modBough b fun x => { x with lock := some { c with ending := true } }).lockGo b
      | none => d.startFlush b

/-- L3_ENABLE (R159, R160). While a disable is in progress it is ignored. -/
def l3EnableEff (s : Nat) (d : Dev) : Dev :=
  if !d.siteActive s || d.flag L3C_CTL.EN s then d
  else if d.flag L3C_STAT.DISABLED s then d.put L3C_CTL.EN 1 s
  else d.put L3C_STAT.EN_IGN 1 s

/-- L3_ENABLE_DONE (R160): every data line is invalid, and the data array is in service; a lock command that waited for it goes on. -/
def l3EnableDoneEff (s : Nat) (d : Dev) : Dev :=
  if d.siteActive s && d.flag L3C_CTL.EN s && d.flag L3C_STAT.DISABLED s then
    let b := d.boughAt s
    let d := d.modBough b fun x => { x with lines := x.lines.map fun p => (p.1, if p.2.valid then { p.2 with hasData := false } else p.2) }
    (d.put L3C_STAT.DISABLED 0 s).lockGo b
  else d

/-! ### Messages to the bough -/

/-- What the bough does after a request of its own has been answered. -/
def Dev.afterAnswer (d : Dev) (b line : Nat) : Dev :=
  match (d.bough b).txn line with
  | none => d
  | some t => ((((d.fill b t).retryFills b).flushGo b).lockGo b)

/-- The proxy of an isolated bough absorbs a grant or a line and completes it to the home (R198). -/
def Dev.absorb (d : Dev) (b line : Nat) : Dev := d.send (.compAck b line)

/-- DATA (R171): the line with its grant, from the home. -/
def dataEff (dst : CohReq) (line : Nat) (g : Grant) (ep : Nat) (x : LineData) (d : Dev) : Dev :=
  let d := d.take (.data dst line g ep x)
  match dst with
  | .bough b =>
    if d.boughCut b then d.absorb b line else
    match (d.bough b).txn line with
    | none => d
    | some t =>
      if t.op == .rdNoalloc then ((d.answerNc b t x).retryFills b).lockGo b
      else
        let here := d.homeOfLine line
        let d := if here != 4 * b / (max 1 d.boughsB) then
          (List.range 16).foldl (fun d j =>
            let n := 16 * b + j
            if (d.leaf n).misses.any fun m => m.addr / 64 == line then d.modLeaf n fun l => l.countEvent 0x15 else d) d
          else d
        (d.setBTxn b { t with data := some (g, x), grant := some (g, ep) }).afterAnswer b line
  | _ => d

/-- DATA_FWD (R171): the line from a snooped bough; the grant comes from the home. -/
def dataFwdEff (b line : Nat) (g : Grant) (x : LineData) (d : Dev) : Dev :=
  let d := d.take (.dataFwd b line g x)
  if d.boughCut b then d.absorb b line else
  match (d.bough b).txn line with
  | none => d
  | some t =>
    let d := (List.range 16).foldl (fun d j =>
      let n := 16 * b + j
      if (d.leaf n).misses.any fun m => m.addr / 64 == line then d.modLeaf n fun l => l.countEvent 0x14 else d) d
    (d.setBTxn b { t with data := some (g, x) }).afterAnswer b line

/-- GRANT (R170, R171): a CLAIM is filled with zeros; an UPGRADE whose copy is still held takes its grant in place; any other
request waits for DATA_FWD. -/
def grantEff (b line : Nat) (g : Grant) (ep : Nat) (poisoned : Bool) (d : Dev) : Dev :=
  let d := d.take (.grant b line g ep poisoned)
  if d.boughCut b then d.absorb b line else
  match (d.bough b).txn line with
  | none => d
  | some t =>
    let l := (d.bough b).line line
    let t := { t with grant := some (g, ep), poison := poisoned }
    let t := if t.op == .claim then { t with data := some (g, ⟨0, false⟩) }
      else if t.op == .upgrade && l.valid then { t with data := some (g, ⟨l.data, l.poison⟩) }
      else t
    (d.setBTxn b t).afterAnswer b line

/-- NACK_RETRY (R178): the request waits out its back-off. -/
def nackEff (b line hint : Nat) (d : Dev) : Dev :=
  let d := d.take (.nack b line hint)
  if d.boughCut b then d else
  match (d.bough b).txn line with
  | some t => (d.setBTxn b { t with backoff := some hint }).sendRequests b
  | none => d

/-- NACK_RETRY_RESEND (R178): the request is sent again with RETRY one higher. -/
def nackResendEff (b line : Nat) (d : Dev) : Dev :=
  match (d.bough b).txn line with
  | some t =>
    if t.backoff.isNone then d
    else (d.setBTxn b { t with backoff := none, sent := false, retry := min (t.retry + 1) 8 }).sendRequests b
  | none => d

/-- WR_COMP (R171, R180). -/
def wrCompEff (dst : CohReq) (line : Nat) (poisoned : Bool) (d : Dev) : Dev :=
  let d := d.take (.wrComp dst line poisoned)
  match dst with
  | .bough b =>
    if d.boughCut b then d else
    match (d.bough b).txn line with
    | some t => if t.op == .wrPartial || t.op == .wrFull then ((d.answerNc b t ⟨0, false⟩).retryFills b).lockGo b else d
    | none => d
  | _ => d

/-- WB_ACK (R176): the eviction buffer entry is freed, whatever the status, and what waited for it goes on. -/
def wbAckEff (b line : Nat) (ok : Bool) (d : Dev) : Dev :=
  let d := d.take (.wbAck b line ok)
  if d.boughCut b then d else
  match (d.bough b).evb.find? fun e => e.line == line && e.sent with
  | none => d
  | some e =>
    let d := (d.modBough b fun x => { x with evb := x.evb.erase e }).sendWriteBacks b
    (((((d.flushGo b).retryFills b).retryBough b).sendRequests b).lockGo b)

/-- The state, data and poison with which a bough answers a snoop: its cache, or its eviction buffer, and whether it was the
buffer (R149). -/
def Bough.snooped (x : Bough) (line : Nat) : CState × LineData × Bool :=
  let l := x.line line
  if l.valid then (l.st, ⟨l.data, l.poison⟩, false)
  else match x.evb.find? fun e => e.line == line with
    | some e => (e.st, ⟨e.data, e.poison⟩, true)
    | none => (.invalid, ⟨0, false⟩, false)

/-- Give the snooped line its new state; an invalidated locked line keeps its place (R156). -/
def Dev.snoopTo (d : Dev) (b line : Nat) (st : CState) (inEvb : Bool) : Dev :=
  if inEvb then
    d.modBough b fun x => { x with evb := x.evb.map fun e => if e.line == line then { e with st := st } else e }
  else if st == .invalid then
    (d.clearResv line none).modBough b fun x =>
      let l := x.line line
      x.setLine line l.gone
  else d.modLine b line fun l => { l with st := st, writer := none, l1Writer := none }

/-- The answers of R172: the answer, the forwarded grant, and the new state. -/
def snoopAnswer (k : Snoop) (st : CState) (home : Bool) : SnpAns × Option Grant × CState :=
  match k, st with
  | _, .invalid => (.i, none, .invalid)
  | .shared, .modified | .shared, .owned => (.fwdDirty, some .shared, .owned)
  | .shared, .excl => (.fwdClean, some .shared, .shared)
  | .shared, .shared => (.clean, none, .shared)
  | .unique, .modified | .unique, .owned => (if home then .dataToHome else .fwdDirty, some .modified, .invalid)
  | .unique, .excl => (if home then .dataToHome else .fwdClean, some .excl, .invalid)
  | .unique, .shared => (.i, none, .invalid)
  | .inv, _ => (.i, none, .invalid)
  | .current, .modified => (.dirtyCopy, none, .modified)
  | .current, .owned => (.dirtyCopy, none, .owned)
  | .current, .excl => (.clean, none, .excl)
  | .current, .shared => (.clean, none, .shared)

/-- A snoop reaches a bough (R149, R172), or the proxy or the closed gate that stands in for it (R198, R201): the answer goes to the home,
the line to the requester or to the home. -/
def snoopEff (k : Snoop) (b line : Nat) (fwd : Option Nat) (d : Dev) : Dev :=
  let d := d.take (.snoop k b line fwd)
  if ((d.siteOf b).map d.isolated).getD true then
    (d.bump FAB_PROXY.SNP 1 0 (d.boughSite b)).send (.snpRsp b line .i ⟨0, false⟩)
  else if (d.gate (d.boughSite b)).closed then d.snoopAtGate (d.boughSite b) line
  else
  let (st, x, inEvb) := (d.bough b).snooped line
  let (ans, g, st') := snoopAnswer k st fwd.isNone
  let d := if inEvb then d.l3Count b 2 else d
  let d := match g, fwd with
    | some g, some r => d.emit (.dataFwd r line g x)
    | _, _ => d
  let data := if ans == .dirtyCopy || ans == .dataToHome then x else ⟨0, false⟩
  let d := if st' == st then d else d.snoopTo b line st' inEvb
  d.emit (.snpRsp b line ans data)

end Sys2Proof.Machine
end

