-- ==== Sys2Proof/Machine/Imsic.lean ====
section
/-!
DEFINITION. Leaf reset and wake (R74, R361), leaf and twig OFF (R361, R362), and MSIs at their interrupt files (R64, R65).
-/

namespace Sys2Proof.Machine

/-- A number of fresh free values, by key from 0. DESIGN CHOICE, assumption 12. -/
def takeFree (count : Nat) (from0 : Nat) : KMap Nat Word :=
  ((List.range count).map fun i => (i, Config.freeWord (from0 + i))).filter fun p => decide (p.2 ≠ 0)

/-- A leaf leaves its L1s (R74, R361): its dirty lines are in the twig's L2, which holds them anyway. -/
def Dev.emptyL1 (d : Dev) (n : Nat) : Dev :=
  let b := n / 16
  (d.bough b).lines.foldl (fun d p =>
    if p.2.l1.any fun c => c / 2 == n % 16 then d.modLine b p.1 (·.leaveL1 n) else d) d

/-- The state of R74: the core's registers are undefined (free values), its interrupt files are disabled, and eip is kept by a
leaf reset only; the machine timer is compared anew (R67). DESIGN CHOICE, assumption 12. -/
def Dev.resetCore (d : Dev) (n : Nat) (keepEip : Bool) : Dev :=
  let l := d.leaf n
  let files := l.imsic.map fun p => (p.1, ({ eip := if keepEip then p.2.eip else [] } : ImsicFile))
  let v := (List.range 32).map fun r =>
    (r, ((List.range 4).foldr (fun k (a : BitVec 256) => a <<< 64 ||| (Config.freeWord (d.free + 64 + 4 * r + k)).setWidth 256) 0))
  let l' : Leaf :=
    { pc := BitVec.ofNat 64 (d.get BGH_RESET_VEC.ADDR (d.leafSite n) * 4)
      x := (takeFree 32 d.free).filter fun p => p.1 != 0
      f := takeFree 32 (d.free + 32)
      v := v.filter fun p => decide (p.2 ≠ 0)
      imsic := files.filter fun p => decide (p.2 ≠ ({} : ImsicFile)) }
  let d := { (d.emptyL1 n).setLeaf n l' with free := d.free + 192 }
  let s := d.leafSite n
  ((d.put BGH_LEAF_STAT.ON_FIC 1 s (n % 16)).put BGH_LEAF_STAT.MC_LOCK 0 s (n % 16)).timerPending n .mtimecmp

/-- A twig whose leaves are all OFF goes OFF when TWIG_AUTO says so: its dirty lines are in the L3, and the L3 records it as
holding nothing (R362). -/
def Dev.twigOff (d : Dev) (s t : Nat) : Dev :=
  let b := d.boughAt s
  if bit (d.get BPW_LEAF_PWR.TWIG_AUTO s) t && (List.range 4).all (fun i => d.get BGH_LEAF_STAT.PSTATE s (4 * t + i) == 2) then
    (d.bough b).lines.foldl (fun d p => if p.2.twigs.contains t then d.dropTwig b t p.1 else d) d
  else d

/-- A leaf goes OFF (R361). -/
def Dev.leafGoesOff (d : Dev) (n : Nat) : Dev :=
  let s := d.leafSite n
  ((d.emptyL1 n).put BGH_LEAF_STAT.PSTATE 2 s (n % 16)).twigOff s (n % 16 / 4)

/-- A leaf wakes from OFF: it starts at BGH_RESET_VEC in the state of R74, on the FIC, and sets its bit in WOKE (R361).
DEDUCED, assumption 32. -/
def Dev.wakeLeaf (d : Dev) (n : Nat) : Dev :=
  let s := d.leafSite n
  let d := (d.resetCore n true).put BGH_LEAF_STAT.PSTATE 0 s (n % 16)
  d.put BPW_STAT.WOKE (setBit (d.get BPW_STAT.WOKE s) (n % 16) true) s

/-- An identity becomes pending in an interrupt file. It ends IDLE when its leaf enables the interrupt; it wakes a leaf from OFF
when it is enabled above the threshold (R65), or is written to the machine-level file, which is how one leaf starts another
(R371, R383). DEDUCED, assumption 32. -/
def Dev.imsicSet (d : Dev) (n file id : Nat) : Dev :=
  if id = 0 || 2047 < id then d
  else
    let d := d.modLeaf n fun l => l.setFile file { l.file file with eip := insertNat id (l.file file).eip }
    let s := d.leafSite n
    if d.get BGH_LEAF_STAT.PSTATE s (n % 16) = 2 then
      if file = 0 || ((d.leaf n).file file).signals id then d.wakeLeaf n else d
    else d.wakeIdle n

end Sys2Proof.Machine
end

