-- ==== Sys2Proof/Machine/Read.lean ====
section
/-!
DEFINITION. Where an access to the register space goes (spec/01, R27 to R30; spec/03, R63), and what a read of a register returns
(R4, R6, R8, R28, R390, R424).
-/

namespace Sys2Proof.Machine

/-! ### The tables that routing registers show (R196) -/

/-- The entry FAB_RT_SEL names exists (R192). -/
def Dev.routeSelected (d : Dev) : Bool :=
  let e := d.get FAB_RT_SEL.ENTRY
  let vn := d.get FAB_RT_SEL.VN
  decide (vn < 6) &&
    (d.get FAB_RT_SEL.KIND == 0
      || (d.siteActive (d.get FAB_RT_SEL.UNIT) && (decide (e < 16) || (vn == 4 && decide (32 ≤ e ∧ e < 56)))))

/-- The value that FAB_RT_DATA reads. -/
def Dev.routeRead (d : Dev) : Nat :=
  let v := if d.flag FAB_RT_SEL.BANK then d.activeBank else 1 - d.activeBank
  if d.routeSelected then
    d.route v (d.get FAB_RT_SEL.KIND) (d.get FAB_RT_SEL.UNIT) (d.get FAB_RT_SEL.VN) (d.get FAB_RT_SEL.ENTRY)
  else 0

/-! ### The register space (R27) -/

/-- The number of units of a block. -/
def Blk.units : Blk → Nat
  | .dir | .spn => 4
  | .grft => 28
  | .mem => 16
  | .hio => 8
  | .db => 64
  | _ => 1

/-- The block at an offset of a site's range, the leaf index of an LEE block, and the offset in the block. -/
def siteRangeBlock (o : Nat) : Option (Blk × Nat × Nat) :=
  if o < 0x10000 then some (.bgh, 0, o)
  else if o < 0x20000 then some (.l3c, 0, o - 0x10000)
  else if o < 0x30000 then some (.grfb, 0, o - 0x20000)
  else if o < 0x40000 then some (.bpw, 0, o - 0x30000)
  else if o < 0x100000 then some (.prt, 0, o - 0x40000)
  else if o < 0x200000 then some (.lee, (o - 0x100000) / 0x10000, o % 0x10000)
  else none

/-- The interrupt file at an offset of a site's range: leaf index, file, and offset in its page (R63). -/
def imsicPage (o : Nat) : Option (Nat × Nat × Nat) :=
  if 0x800000 ≤ o ∧ o < 0x810000 then some ((o - 0x800000) / 0x1000, 0, o % 0x1000)
  else if 0x880000 ≤ o ∧ o < 0x900000 then some ((o - 0x880000) / 0x8000, 1 + (o - 0x880000) / 0x1000 % 8, o % 0x1000)
  else none

/-- The index at which an offset falls in a row of a block's table. -/
def RegRow.index (r : RegRow) (off : Nat) : Option Nat :=
  if off < r.off then none
  else
    let x := off - r.off
    if r.n1 = 1 then (if x = 0 then some 0 else none)
    else
      let i := x / r.s1
      let y := x % r.s1
      if r.n1 ≤ i then none
      else if r.n2 = 1 then (if y = 0 then some i else none)
      else if y % r.s2 = 0 ∧ y / r.s2 < r.n2 then some (i * r.n2 + y / r.s2) else none

/-- The register at an offset of a block. -/
def Blk.regAt (b : Blk) (off : Nat) : Option (RegName × Nat) :=
  b.rows.findSome? fun r => (r.index (off / 8 * 8)).map fun k => (r.name, k)

/-- Where an access to the register space goes: a register, a page of an interrupt file (leaf, file, offset), an offset of a present
block without a register (R28), a test-only register that acts, the block of an absent unit (R4), no block (R28), or an MBX access
that is denied (R390). -/
inductive RegTarget where
  | reg (r : Reg)
  | imsic (leaf file off : Nat)
  | unused
  | test
  | absent
  | noBlock
  | denied
deriving DecidableEq, Repr

/-- The first-error latch and the capture ring, absent from the KS256 and the KS192G (R347). -/
def captureReg : RegName → Bool
  | .EVC_FIRST | .EVC_FIRST_RING | .EVC_CAP_TAIL | .EVC_CAP_HEAD | .EVC_CAP_DROP | .EVC_CAP => true
  | _ => false

/-- The group registers, which read zero and ignore writes on a KS192G. -/
def groupReg : RegName → Bool
  | .FAB_MG_CTL | .FAB_MG_STAT | .FAB_MG_MEM | .FAB_MG_LAST => true
  | _ => false

/-- The unit of a trunk block is absent from the package, or its site is not active (R4, R16, R29, R424). -/
def Dev.unitAbsent (d : Dev) (b : Blk) (u : Nat) : Bool :=
  match b with
  | .grft => !d.siteActive u
  | .spn => !bit d.spanMask u
  | .trc => !d.hasLee
  | .mem => !d.channelPresent u
  | .hio => !bit d.rpMask u
  | _ => false

/-- The doorbell page of an unbound slice reads as zero and ignores writes (R315). -/
def Dev.doorShut (d : Dev) (b : Blk) (u : Nat) : Bool := b == .db && !d.flag BLK_SLICE_CTL.BOUND 0 u

/-- A leaf in M mode, the one requester that MBX answers (R390). -/
def machineLeaf : Requester → Bool
  | .leaf _ .machine => true
  | _ => false

/-- The offsets of the test-only registers that debug enables, by block. DESIGN CHOICE, assumption 64. -/
def testOnly : Blk → List Nat
  | .trk => [0xF00, 0xF08]
  | .fab => [0x11F00, 0xF00, 0xF08]
  | .prt => [0x3F00]
  | .bgh | .lee | .l3c | .dir | .grft | .grfb | .spn | .trc | .mem | .blk | .mbx | .ttu | .hio | .cmp | .age | .bpw => [0xF00]
  | _ => []

/-- What lies at an offset of a block where no register lies. DESIGN CHOICE, assumption 64. -/
def Dev.noReg (d : Dev) (b : Blk) (off : Nat) : RegTarget :=
  if d.mgmt.debug && (testOnly b).contains (off / 8 * 8) then .test else .unused

/-- Where an access goes. DESIGN CHOICE, assumption 31. -/
def Dev.regTarget (d : Dev) (req : Requester) (a : Nat) : RegTarget :=
  match siteOfAddr a with
  | some s =>
    let o := (a - krb - 0x80000000) % 2 ^ 24
    let n := 16 * d.boughAt s
    match imsicPage o with
    | some (j, f, off) => if d.siteActive s then .imsic (n + j) f off else .absent
    | none =>
      match siteRangeBlock o with
      | none => .noBlock
      | some (b, j, off) =>
        if !d.siteActive s || (b == .lee && !d.hasLee) then .absent
        else match b.regAt off with
          | some (r, k) => .reg ⟨r, if b = .lee then n + j else s, k⟩
          | none => d.noReg b off
  | none =>
    match trunkBlock (a - krb) with
    | none => .noBlock
    | some (b, u, off) =>
      if b == .mbx && !machineLeaf req then .denied
      else if b.units ≤ u || d.doorShut b u then .unused
      else if d.unitAbsent b u then .absent
      else match b.regAt off with
        | none => d.noReg b off
        | some (r, k) =>
          if captureReg r && !d.hasCapture then .absent
          else if (groupReg r && d.groupsHere = 0) || (r == .SPN_ROUTE && u != 0) then .unused
          else .reg ⟨r, u, k⟩

/-! ### What a register reads as -/

/-- The staged values of a firewall entry differ from the active ones (R396). -/
def Dev.fwPending (d : Dev) (e : Nat) : Bool :=
  let a : FwEntry := d.firewall.find {} e
  decide (d.get TRK_FW_BASE.ADDR 0 e ≠ a.base ∨ d.get TRK_FW_LIMIT.ADDR 0 e ≠ a.limit ∨ d.get TRK_FW_ACC.RD 0 e ≠ a.rd
    ∨ d.get TRK_FW_ACC.WR 0 e ≠ a.wr ∨ d.get TRK_FW_ACC.SEG 0 e ≠ a.seg)

/-- Entries in use in each slice's eviction buffer, shown up to 15 (L3C_EVB). -/
def Dev.evbShown (d : Dev) (s : Nat) : Nat :=
  (List.range 8).foldr (fun sl a => 16 * a + min 15 ((d.bough (d.boughAt s)).evbUse sl)) 0

/-- A register as a read returns it: what hardware counts is read from where it lies. DESIGN CHOICE, assumption 66. -/
def Dev.readReg (d : Dev) (r : Reg) : Word :=
  let w := d.reg r
  let show1 (f : Fld) (v : Nat) : Word := w.setBits f.hi f.lo v
  match r.name with
  | .TRK_FW_CTL => show1 TRK_FW_CTL.PEND (if d.fwPending r.k then 1 else 0)
  | .TRK_CAP_IO => if d.get SIM_STAT.STATE = 2 then w else 0
  | .SIM_STAT => show1 SIM_STAT.SESSION (if d.mgmt.session.isSome then 1 else 0)
  | .BGH_MTIME => d.copy r.u
  | .BGH_LEAF_STAT => show1 BGH_LEAF_STAT.MISS (d.leaf (16 * d.boughAt r.u + r.k)).misses.length
  | .LEE_PC => if d.flag LEE_STAT.RUN r.u then show1 LEE_PC.PC (d.lee r.u).lastPc else w
  | .L3C_EVB => show1 L3C_EVB.EVB (d.evbShown r.u)
  | .DIR_STAT =>
    let h := d.home r.u
    ((w.setBits 52 48 h.slots.length).setBits 42 32 h.trackers).setBits 21 0
      (h.dir.filter fun p => decide (p.2.st ≠ .invalid)).length
  | .FAB_RT_DATA => BitVec.ofNat 64 d.routeRead
  | .GRF_LANE_ERR =>
    show1 GRF_LANE_ERR.COUNT ((d.grafts.find {} (.trunk r.u)).errs.find 0 (d.get GRF_LANE_ERR.LANE r.u))
  | .GRFB_LANE_ERR =>
    show1 GRFB_LANE_ERR.COUNT ((d.grafts.find {} (.bough r.u r.k)).errs.find 0 (d.get GRFB_LANE_ERR.LANE r.u r.k))
  | .TIM_COUNT => d.ring
  | .MEM_Q =>
    let c := d.channel r.u
    ((w.setBits 23 16 c.rt.length).setBits 15 8 c.writes.length).setBits 7 0 (c.reads.length + c.issued.length)
  | .DB_STAT => show1 DB_STAT.QLOG2 (d.get BLK_SLICE_CTL.QLOG2 0 r.u)
  | n => if n.block = .mem && d.get MEM_STAT.STATE r.u = 0 && n != .MEM_STAT then r.reset else w

/-- A read of the register space by a requester, past the gates: the value, whether it is an error, and what it leaves. A wrong size or
alignment is an error before an absent unit is counted.
DESIGN CHOICE, assumption 31. DESIGN CHOICE, assumption 66. -/
def Dev.regLoad (d : Dev) (req : Requester) (a size : Nat) : Word × Bool × Dev :=
  let ones : Word := BitVec.allOnes 64
  if !(size = 8 || size = 4) || a % size != 0 then (ones, true, d)
  else match d.regTarget req a with
    | .noBlock => (ones, true, d)
    | .denied => (ones, true, d.bump MBX_DENY.COUNT)
    | .absent => (0, false, d.absentAccess (a - krb))
    | .unused => (0, false, d)
    | .test =>
      let (w, d) := d.freeNext
      (if size = 8 then w else BitVec.ofNat 64 (w.toNat % 2 ^ 32), false, d)
    | .imsic _ _ _ => if size = 4 then (0, false, d) else (ones, true, d)
    | .reg r =>
      let w := d.readReg r
      (if size = 8 then w else BitVec.ofNat 64 (w.bits (8 * (a % 8) + 31) (8 * (a % 8))), false, d)

/-- The proxy or the closed gate of a bough stands in the way of an address (R198, R201). DEDUCED, assumption 67. -/
def Dev.siteStands (d : Dev) (a : Nat) : Bool :=
  match siteOfAddr a with
  | some s => d.siteActive s && (d.isolated s || (d.gate s).closed)
  | none => false

/-! ### Answers -/

/-- Answer a requester's access with a value: a leaf that waits for it and a device's read by a message, any other on the bus. -/
def Dev.answerTo (d : Dev) (req : Requester) (addr : Nat) (value : Word) (err : Bool) : Dev :=
  let d := { d with resp := ⟨value, err, false⟩ }
  match req with
  | .leaf hart _ => if (d.leaf hart).misses.any (fun m => m.addr == addr) then d.emit (.ioAnswer hart addr value err) else d
  | .device seg rid =>
    match d.ttu.regReads.find? fun p => p.1 == addr && p.2.seg == seg && p.2.rid == rid with
    | none => d
    | some p =>
      ({ d with ttu := { d.ttu with regReads := d.ttu.regReads.erase p } }).emit
        (.devDone seg rid p.2.tag (!err) false (value.toNat % 256 ^ p.2.size))
  | _ => d

/-- A read of the register space answers its requester. -/
def Dev.regReadGo (d : Dev) (req : Requester) (a size : Nat) : Dev :=
  let (v, err, d) := d.regLoad req a size
  (d.take (.regRead req a size)).answerTo req a v err

end Sys2Proof.Machine
end

