-- ==== Sys2Proof/Machine/Fabric.lean ====
section
/-!
DEFINITION. The fabric (spec/08): routing and route swaps, the isolation proxy, gates and what they hold, and the crossings between
clock domains.
-/

namespace Sys2Proof.Machine

/-- Change the fabric. -/
def Dev.modFabric (d : Dev) (f : Fabric → Fabric) : Dev := { d with fabric := f d.fabric }

/-! ### Routing (R191 to R196) -/

/-- A packet is discarded as unroutable: counted, the first captured, and the event raised (R192). -/
def Dev.unrouted (d : Dev) (vn dnode : Nat) : Dev :=
  let d := d.bump FAB_UNROUTE.COUNT
  let d := if d.flag FAB_UNROUTE.VALID then d else
    ((d.put FAB_UNROUTE.VALID 1).put FAB_UNROUTE.VN vn).put FAB_UNROUTE.DNODE dnode
  d.raise 2

/-- A packet is routed by the bank of its version: it leaves by a port, or is discarded as unroutable and recorded (R192). -/
def Dev.routePacket (d : Dev) (p : MeshPkt) (rv : Nat) : Dev :=
  let port := d.route rv 0 (p.snode / 2) p.vn p.dnode
  if port < 6 then d.modFabric fun f => { f with routed := some (p, rv, port) } else d.unrouted p.vn p.dnode

/-- A packet on the wire that its tables send nowhere is discarded where it enters (R192); one that a ring stop without a graft forwards
nowhere is lost (R190). -/
def Dev.discard (d : Dev) (p : Packet) : Dev :=
  match d.header p with
  | some h => if 6 ≤ d.route (d.versionOf p) 0 (h.snode / 2) h.vn h.dnode then (d.take p).unrouted h.vn h.dnode else d.take p
  | none => d.take p

/-- The accesses held for the wake of a site that are still to be forwarded: its gate is open again (R203). -/
def Dev.forwarding (d : Dev) (s : Nat) : List SitePkt := if (d.gate s).closed then [] else d.fabric.heldAcc.find [] s

/-- A packet for a bough does not overtake the accesses that were held for its wake (R203); an access finds its own place among them. -/
def Dev.afterHeld (d : Dev) (p : Packet) : Bool :=
  match p, d.route3 p with
  | .reg .., _ | .regRead .., _ | .aperture .., _ => true
  | _, some (_, _, .bough s _) => (d.forwarding s).isEmpty
  | _, _ => true

/-- A packet reaches its destination (R184): it acts when it can arrive, is discarded when it has no route, and else waits. -/
def arrive (p : Packet) (f : Dev → Dev) (d : Dev) : Dev :=
  if d.arrives p && d.afterHeld p then f d
  else match d.ahead p with
    | some (_, x) => if !x.held && d.unroutable x then d.discard p else d
    | none => d

/-- A packet of the old version has not been accepted by its destination (R194, step 3). -/
def Dev.undrained (d : Dev) : Bool :=
  d.wire.any fun (x : Sent) => !x.held && (d.route3 x.pkt).isSome && decide (x.rv = d.activeBank)

/-- PACKET_INGRESS: during a swap a changing port holds the packet and any other stamps the new version (R194). -/
def packetIngressEff (p : MeshPkt) (d : Dev) : Dev :=
  let v := d.activeBank
  if 6 ≤ p.vn || 128 ≤ p.dnode || 128 ≤ p.snode then d
  else if !d.flag FAB_ROUTE_SWAP.BUSY then d.routePacket p v
  else if d.changing p.snode then d.modFabric fun f => { f with held := f.held ++ [p] }
  else d.routePacket p (1 - v)

/-- The management core sends the exchange traffic that used a lateral graft through the trunk: entries of the shadow bank, then a swap
(R193, R194, R224). While a swap is in progress it waits for its end. -/
def Dev.rerouteLateral (d : Dev) (low : Nat) : Dev :=
  if d.flag FAB_ROUTE_SWAP.BUSY then
    d.modFabric fun f => { f with reroute := if f.reroute.contains low then f.reroute else f.reroute ++ [low] }
  else
    let v := 1 - d.activeBank
    let d := (List.range 7).foldl (fun d i =>
      let s := low / 7 * 7 + i
      if !d.siteActive s then d
      else (List.range 24).foldl (fun d b =>
        if (d.xchPath d.activeBank 7 s b).contains (.lateral low) then d.setRoute v 1 s 4 (32 + b) 0 else d) d) d
    d.put FAB_ROUTE_SWAP.BUSY 1

/-- The reroutes that waited for a swap follow it (R224). -/
def Dev.rerouteNext (d : Dev) : Dev :=
  match d.fabric.reroute with
  | [] => d
  | low :: rest => (d.modFabric fun f => { f with reroute := rest }).rerouteLateral low

/-- ROUTE_SWAP: a write of GO (R194, R196). -/
def routeSwapEff (d : Dev) : Dev :=
  if d.flag FAB_ROUTE_SWAP.BUSY then d.put FAB_ROUTE_SWAP.REFUSED 1 else d.put FAB_ROUTE_SWAP.BUSY 1

/-- ROUTE_SWAP_DRAIN_DONE (R194, steps 3 to 5): once no packet of the old version is left the new bank is active, the old one becomes its
copy, and the held packets leave with the new version. -/
def routeDrainedEff (d : Dev) : Dev :=
  if !d.flag FAB_ROUTE_SWAP.BUSY || d.undrained then d
  else
    let v := 1 - d.activeBank
    let d := d.put FAB_ROUTE_SWAP.VERSION v
    let held := d.fabric.held
    let d := d.modFabric fun f => { f with bank0 := if v = 0 then f.bank0 else f.bank1
                                           bank1 := if v = 0 then f.bank0 else f.bank1, held := [] }
    let free (x : Sent) : Sent := if x.held then { x with rv := v, held := false } else x
    let d := { d with wire := d.wire.map free }
    let d := held.foldl (fun d p => d.routePacket p v) d
    ((d.put FAB_ROUTE_SWAP.BUSY 0).count FAB_ROUTE_SWAP.SWAPS).rerouteNext

/-- ROUTE_SWAP_DRAIN_TIMEOUT (R195). -/
def routeDrainTimeoutEff (d : Dev) : Dev :=
  if d.flag FAB_ROUTE_SWAP.BUSY then (d.put FAB_ROUTE_SWAP.DRAIN_TMO 1).raise 2 else d

/-- FAB_RT_DATA_WRITE (R196): a write to the shadow bank. -/
def routeWriteEff (value : Nat) (d : Dev) : Dev :=
  if d.flag FAB_RT_SEL.BANK || !d.routeSelected then d
  else if d.flag FAB_ROUTE_SWAP.BUSY then d.put FAB_ROUTE_SWAP.REFUSED 1
  else d.setRoute (1 - d.activeBank) (d.get FAB_RT_SEL.KIND) (d.get FAB_RT_SEL.UNIT) (d.get FAB_RT_SEL.VN)
    (d.get FAB_RT_SEL.ENTRY) (value % 8)

/-! ### The isolation proxy (R197, R198) -/

/-- FAB_ISO_GO. -/
def fabIsoEff (s : Nat) (d : Dev) : Dev := d.isolate s

/-- The physical address of an aperture byte (R24). -/
def apertureAddr (leaf off : Nat) : Nat := 0x0E0000000000 + leaf * 2 ^ 28 + off

/-- The request of an access that is answered is no longer under way. DEDUCED, assumption 54. -/
def Dev.takeAccess (d : Dev) (req : Requester) (addr : Nat) : Dev :=
  { d with wire := d.wire.eraseP fun x => match x.pkt with
      | .regRead r a _ => r == req && a == addr
      | .aperture r leaf off _ _ => r == req && apertureAddr leaf off == addr
      | _ => false }

/-- An access to a bough that a proxy or a gate answers: all-ones for a read, no effect for a write, captured, and its event
raised (R198, R201). -/
def Dev.answerAbsent (d : Dev) (s : Nat) (req : Requester) (addr : Nat) (write : Bool) (kind : Nat) : Dev :=
  let d := ((d.takeAccess req addr).gateLog kind s addr).raise 3
  d.answerTo req addr (if write then 0 else BitVec.allOnes 64) false

/-- What a proxy does with a packet for its bough (R198). -/
def Dev.proxyTreats (d : Dev) (s : Nat) (p : SitePkt) : Dev :=
    let b := d.boughAt s
    match p with
    | .regRead req addr => (d.bump FAB_PROXY.REG 1 0 s).answerAbsent s req addr false 0
    | .regWrite req addr size value =>
      ((d.take (.reg req addr size value)).bump FAB_PROXY.REG 1 0 s).answerAbsent s req addr true 1
    | .aperture req leaf off _ write =>
      (d.bump FAB_PROXY.REG 1 0 s).answerAbsent s req (apertureAddr leaf off) write (if write then 1 else 0)
    | .snoop line _ => ((d.bump FAB_PROXY.SNP 1 0 s).send (.snpRsp b line .i ⟨0, false⟩))
    | .grantOrData line => d.send (.compAck b line)
    | .wbAck _ => d
    | .send m => ((d.take (.xch m)).bump FAB_PROXY.XCH 1 0 s).ackXch m .unreachable
    | .msi h f i => ((d.take (.msi h f i)).bump FAB_PROXY.MSI 1 0 s).raise 3
    | .barrierNotify n => d.take (.barrierNotify n)
    | .ringSync v => d.take (.ringSync s v)
    | .handshake blk => (d.take (.hsReq blk)).send (.hsAccept blk)

/-- PROXY_PACKET (R198). -/
def proxyPacketEff (s : Nat) (p : SitePkt) (d : Dev) : Dev :=
  if !d.siteActive s || !d.isolated s then d else d.proxyTreats s p

/-! ### Gates (R200 to R203) -/

/-- The gate of a site closes and its markers are sent (R200). -/
def Dev.closeGate (d : Dev) (s : Nat) (inReset : Bool) : Dev :=
  let d := d.setGate s { closed := true, inReset := inReset }
  (List.range 6).foldl (fun d vn => d.emit (.marker s vn)) d

/-- A cause that wakes the bough of a site, unless it is held in a reset (R200, R366), or the crossing to the standby domain is broken
(R207). -/
def Dev.wakeCause (d : Dev) (s : Nat) : Dev :=
  if d.broken (.trunk 0x51) || (d.gate s).inReset || d.power.wake.contains s then d
  else { d with power := { d.power with wake := d.power.wake ++ [s] } }

/-- The MSIs held for a site, in arrival order. -/
def Dev.heldMsis (d : Dev) (s : Nat) : List (Nat × Nat × Nat) := d.fabric.pending.find [] s

/-- Replace them; FAB_PEND reports their number. -/
def Dev.setHeldMsis (d : Dev) (s : Nat) (l : List (Nat × Nat × Nat)) : Dev :=
  (d.modFabric fun f => { f with pending := f.pending.set natLt [] s l }).put FAB_PEND.HELD l.length 0 s

/-- Hold an MSI in the pending table of a site (R202). -/
def Dev.holdMsi (d : Dev) (s h f i : Nat) : Dev :=
  let l := d.heldMsis s
  if l.contains (h, f, i) then d
  else if 512 ≤ l.length then ((d.put FAB_PEND.OVF 1 0 s).bump FAB_PEND.DROPPED 1 0 s).raise 2
  else d.setHeldMsis s (l ++ [(h, f, i)])

/-- Deliver every held MSI in arrival order (R202). -/
def Dev.deliverHeld (d : Dev) (s : Nat) : Dev :=
  (d.heldMsis s).foldl (fun d m => d.imsicSet m.1 m.2.1 m.2.2) (d.setHeldMsis s [])

/-- Replace the accesses held for the wake of a site. -/
def Dev.setHeldAcc (d : Dev) (s : Nat) (l : List SitePkt) : Dev :=
  d.modFabric fun f => { f with heldAcc := f.heldAcc.set natLt [] s l }

/-- The size of the register read that a device or a leaf waits for. -/
def Dev.readSize (d : Dev) (req : Requester) (addr : Nat) : Option Nat :=
  match req with
  | .device g r => (d.ttu.regReads.find? fun q => q.1 == addr && q.2.seg == g && q.2.rid == r).map (·.2.size)
  | .leaf n _ => (d.leaf n).misses.findSome? fun m => match m.kind with
    | .demand acc => if m.addr = addr then some acc.size else none
    | _ => none
  | _ => none

/-- Forward the accesses that were held for the wake of a site as far as they are register reads of a device or a leaf (R203); a write or
an aperture access is performed by its own command, and so is an access of a requester that waits for it at once. -/
def Dev.forwardReads (d : Dev) (s : Nat) : List SitePkt → Dev
  | .regRead req addr :: rest =>
    match d.readSize req addr with
    | some size => (d.regReadGo req addr size).forwardReads s rest
    | none => match req with
      | .device .. | .leaf .. => d.forwardReads s rest
      | _ => d.setHeldAcc s (.regRead req addr :: rest)
  | l => d.setHeldAcc s l

/-- The gate of a site opens: held MSIs first, then the held accesses in arrival order (R202, R203). -/
def Dev.openGate (d : Dev) (s : Nat) : Dev :=
  let d := d.deliverHeld s
  let d := (d.setGate s {}).put FAB_GATE_STAT.CLOSED (setBit (d.get FAB_GATE_STAT.CLOSED) s false)
  d.forwardReads s (d.fabric.heldAcc.find [] s)

/-- An access waits for its bough to wake (R203). DEDUCED, assumption 54. -/
def Dev.holdAccess (d : Dev) (s : Nat) (p : SitePkt) : Dev :=
  let l := d.fabric.heldAcc.find [] s
  (if l.contains p then d else d.setHeldAcc s (l ++ [p])).wakeCause s

/-- An access to a bough whose gate is open waits behind those that were held for its wake (R203). -/
def Dev.heldBefore (d : Dev) (s : Nat) (p : SitePkt) : Bool :=
  match d.forwarding s with
  | [] => false
  | q :: _ => q != p

/-- The first of the held accesses has been forwarded; the register reads behind it follow. -/
def Dev.passHeld (d : Dev) (s : Nat) (p : SitePkt) : Dev :=
  match d.forwarding s with
  | q :: rest => if q == p then d.forwardReads s rest else d
  | [] => d

/-- A requester that waits at once for the answer to a register or aperture access, and makes it again while it waits. -/
def immediate : Requester → Bool
  | .leaf .. | .device .. => false
  | _ => true

/-- GATED_PACKET (R201). -/
def gatedPacketEff (s : Nat) (p : SitePkt) (d : Dev) : Dev :=
  if !d.siteActive s || !(d.gate s).closed || d.isolated s then d
  else
    let waits := bit (d.get FAB_WAKE.WAKE) s
    match p with
    | .regRead req addr => if waits then d.holdAccess s p else d.answerAbsent s req addr false 0
    | .regWrite req addr size value =>
      if waits then d.holdAccess s p else (d.take (.reg req addr size value)).answerAbsent s req addr true 1
    | .aperture req leaf off _ write =>
      if waits then d.holdAccess s p else d.answerAbsent s req (apertureAddr leaf off) write (if write then 1 else 0)
    | .snoop line _ => d.snoopAtGate s line
    | .send m => (d.take (.xch m)).ackXch m .unreachable
    | .msi h f i => ((d.take (.msi h f i)).holdMsi s h f i).wakeCause s
    | .ringSync v => d.take (.ringSync s v)
    | .barrierNotify n => d.take (.barrierNotify n)
    | .grantOrData _ | .wbAck _ | .handshake _ => d

/-- The requester of a held access that makes it again finds it answered. -/
def Dev.noteAnswered (d : Dev) (req : Requester) (p : SitePkt) : Dev :=
  if immediate req then d.modFabric fun f => { f with answered := f.answered ++ [p] } else d

/-- WAKE_ACCESS_TIMEOUT (R203): the oldest held access is answered as if the FAB_WAKE bit were clear. -/
def wakeTimeoutEff (s : Nat) (d : Dev) : Dev :=
  if !(d.gate s).closed && !d.isolated s then d
  else match d.fabric.heldAcc.find [] s with
  | [] => d
  | p :: rest =>
    let d := d.setHeldAcc s rest
    match p with
    | .regRead req addr => (d.answerAbsent s req addr false 2).noteAnswered req p
    | .regWrite req addr size value => ((d.take (.reg req addr size value)).answerAbsent s req addr true 2).noteAnswered req p
    | .aperture req leaf off _ write => (d.answerAbsent s req (apertureAddr leaf off) write 2).noteAnswered req p
    | _ => d

/-- MSI_WRITE (R64, R65, R198, R201): a target that does not exist is discarded with an event; a proxy discards it; a closed
gate holds it; else the identity becomes pending in its file. -/
def msiWriteEff (h f i : Nat) (d : Dev) : Dev :=
  let s := d.leafSite h
  if !d.leafPresent h || 9 ≤ f then (d.take (.msi h f i)).raise 5
  else if d.isolated s then proxyPacketEff s (.msi h f i) d
  else if (d.gate s).closed then gatedPacketEff s (.msi h f i) d
  else (d.take (.msi h f i)).imsicSet h f i

/-! ### Crossings (R206 to R209) -/

/-- The crossing exists (R209). -/
def Dev.crossingExists (d : Dev) : Crossing → Bool
  | .trunk n =>
    if n < 0x20 then d.siteActive n
    else if n < 0x30 then d.channelPresent (n - 0x20)
    else if n < 0x40 then bit d.rpMask (n - 0x30)
    else if n < 0x50 then bit d.spanMask (n - 0x40)
    else n == 0x50 || n == 0x51
  | .bough s n => d.siteActive s && (decide (n ≤ 2) || decide (0x10 ≤ n ∧ n < 0x20))

/-- The site whose graft to the trunk a crossing belongs to. -/
def graftSite : Crossing → Option Nat
  | .trunk n => if n < 28 then some n else none
  | .bough s n => if n = 0 then some s else none

/-- The timeout of a graft's crossings is suspended during a link pause, a degrade and a fast retrain (R226, "When a pause meets the
crossing timeout"). -/
def Dev.timeoutSuspended (d : Dev) (x : Crossing) : Bool :=
  let state : Nat := match x with
    | .trunk n => if n < 28 then d.get GRF_STAT.STATE n else 0
    | .bough s n => if n < 3 then d.get GRFB_STAT.STATE s n else 0
  state == 3 || state == 4

/-- The event source of a crossing's faults (R342). -/
def crossingSource : Crossing → Nat
  | .trunk _ => 4
  | .bough s _ => siteSource s 23

/-- A crossing is marked broken: captured, counted and raised; a broken crossing of a graft engages the proxy (R197, R207). -/
def Dev.breakCrossing (d : Dev) (x : Crossing) : Dev :=
  let d := (d.crossingFault x 2).raise (crossingSource x)
  let d := d.modFabric fun f => { f with broken := if f.broken.contains x then f.broken else f.broken ++ [x] }
  match graftSite x with
  | some s => d.isolate s
  | none => d

/-- CDC_TIMEOUT (R207); suspended for a graft's crossings while the graft is paused or trains. -/
def cdcTimeoutEff (x : Crossing) (d : Dev) : Dev :=
  if !d.crossingExists x || d.broken x || d.timeoutSuspended x then d else d.breakCrossing x

/-! #### Resets of one side of a crossing (R208) -/

/-- The crossing is one of a bough die at a site, on either side. -/
def crossingOf (s : Nat) : Crossing → Bool
  | .trunk n => n == s
  | .bough t n => t == s || (n == 1 && t == s + 1) || (n == 2 && t + 1 == s)

/-- The pulses that wait at a crossing are dropped. -/
def Dev.dropPulses (d : Dev) (x : Crossing) : Dev :=
  { d with evAcc := d.evAcc.filter fun p => sourceCrossing p.1 != some x }

/-- A packet that crosses the graft port of a site towards its bough, as the proxy sees it (R198); none for an answer. -/
def Dev.towards (d : Dev) (s : Nat) (p : Packet) : Option (Option SitePkt) :=
  match d.route3 p with
  | some (_, src, .bough t _) =>
    if t != s || src.node == siteNode s then none
    else some (match p with
      | .reg req a size v => some (.regWrite req a size v)
      | .regRead req a _ => some (.regRead req a)
      | .aperture req leaf off size _ => some (.aperture req leaf off size true)
      | .snoop k _ line _ => some (.snoop line k)
      | .data _ line _ _ _ | .dataFwd _ line _ _ | .grant _ line _ _ _ => some (.grantOrData line)
      | .wbAck _ line _ => some (.wbAck line)
      | .xch m => some (.send m)
      | .msi h f i => some (.msi h f i)
      | .barrierNotify n => some (.barrierNotify n)
      | .ringSync _ v => some (.ringSync v)
      | .hsReq b => some (.handshake b)
      | _ => none)
  | _ => none

/-- Steps 1 to 3 of R208 at the graft of a site, and the credits of step 5: what the trunk had forwarded and not seen answered is
answered as its proxy does, what is on the graft is gone, and the pulses outstanding are dropped. -/
def Dev.flushGraft (d : Dev) (s : Nat) : Dev :=
  let out := d.packets.filterMap (d.towards s)
  let d := d.lose fun p => (d.towards s p).isSome || d.sentByBough (d.boughAt s) p
  let d := out.foldl (fun (d : Dev) (p : Option SitePkt) => match p with
    | some p => d.proxyTreats s p
    | none => d) d
  (d.dropPulses (.bough s 0)).dropPulses (.trunk s)

end Sys2Proof.Machine
end

