-- ==== Sys2Proof/Machine/Aperture.lean ====
section
/-!
DEFINITION. The apertures of the evaluation stores (spec/04, R75 to R79; spec/01, R26), for every requester.
-/

namespace Sys2Proof.Machine

/-- The aperture byte is backed: within the first 4 MiB of a leaf that has an engine (R26). -/
def Dev.apertureBacked (d : Dev) (leaf off : Nat) : Bool := d.leePresent leaf && decide (off < 0x400000)

/-- The size and alignment are ones that a requester may use (R78): a leaf 1, 2, 4 or 8 bytes, aligned; SYSACC one word; a device
or a bulk engine any read within a line, and writes of full lines. -/
def apertureSize (req : Requester) (off size : Nat) (write : Bool) : Bool :=
  match req with
  | .device _ _ | .slice _ =>
    if write then size == 64 && off % 64 == 0 else decide (0 < size ∧ size ≤ 64 ∧ off % 64 + size ≤ 64)
  | _ => (size == 1 || size == 2 || size == 4 || size == 8) && off % size == 0

/-- Bytes of a store from a byte offset, little-endian. -/
def Lee.bytes (e : Lee) (off : Nat) : Nat → Nat
  | 0 => 0
  | n + 1 => (e.word (off / 8)).bits (8 * (off % 8) + 7) (8 * (off % 8)) + 256 * e.bytes (off + 1) n

/-- Write bytes into a store from a byte offset; the rest of a word is merged (R76). -/
def Lee.putBytes (e : Lee) (off v : Nat) : Nat → Lee
  | 0 => e
  | n + 1 =>
    let w := (e.word (off / 8)).setBits (8 * (off % 8) + 7) (8 * (off % 8)) (v % 256)
    (e.putWord (off / 8) w).putBytes (off + 1) (v / 256) n

/-- An access to a backed byte waits while its store is being cleared (R77). DEDUCED, assumption 53. -/
def Dev.apertureWaits (d : Dev) (leaf off : Nat) : Bool := d.apertureBacked leaf off && d.flag LEE_STAT.CLEARING leaf

/-- An aperture access past the gates and past a clear: a read of bytes, and whether it is an error. -/
def Dev.apertureLoad (d : Dev) (req : Requester) (leaf off size : Nat) : Nat × Bool × Dev :=
  if !d.apertureBacked leaf off then (256 ^ size - 1, true, d.decodeError (apertureAddr leaf off))
  else if !apertureSize req off size false then (256 ^ size - 1, true, d)
  else ((d.lee leaf).bytes off size, false, d)

/-- A write: refused while the engine runs, when AP_WERR is set (R79). -/
def Dev.apertureStore (d : Dev) (req : Requester) (leaf off size v : Nat) : Bool × Dev :=
  if !d.apertureBacked leaf off then (true, d.decodeError (apertureAddr leaf off))
  else if !apertureSize req off size true then (true, d)
  else if d.flag LEE_STAT.RUN leaf then (true, d.put LEE_STAT.AP_WERR 1 leaf)
  else (false, d.modLee leaf fun e => e.putBytes off v size)

/-- A proxy or a gate answers an access of a requester that waits for it at once: captured, counted and raised, but for one that was
answered already after the wait of R203. -/
def Dev.standAnswer (d : Dev) (s : Nat) (p : SitePkt) (addr : Nat) (write : Bool) : Dev :=
  let kind := if write then 1 else 0
  if d.fabric.answered.contains p then d.modFabric fun f => { f with answered := f.answered.erase p }
  else if d.isolated s then ((d.bump FAB_PROXY.REG 1 0 s).gateLog kind s addr).raise 3
  else (d.gateLog kind s addr).raise 3

/-- The site and the packet of a register or aperture access of a bough. -/
def Dev.sitePkt (d : Dev) (req : Requester) (a size : Nat) (write : Bool) (v : Word) : Option (Nat × SitePkt) :=
  match siteOfAddr a with
  | some s => some (s, if write then .regWrite req a size v else .regRead req a)
  | none =>
    if rangeOf a == .aperture then
      let leaf := (a - 0x0E0000000000) / 2 ^ 28
      some (d.leafSite leaf, .aperture req leaf ((a - 0x0E0000000000) % 2 ^ 28) size write)
    else none

/-- An access of a requester that waits for it at once cannot be answered yet, and what it leaves meanwhile: it is held for a wake, waits
behind those that were, or waits for a clear (R77, R203). Its requester makes it again. DEDUCED, assumption 67. -/
def Dev.accessWaits (d : Dev) (req : Requester) (a size : Nat) (write : Bool) (v : Word) : Option Dev :=
  match d.sitePkt req a size write v with
  | none => none
  | some (s, p) =>
    if !d.siteActive s || d.isolated s then none
    else if (d.gate s).closed then
      if bit (d.get FAB_WAKE.WAKE) s && !d.fabric.answered.contains p then some (d.holdAccess s p) else none
    else if d.heldBefore s p then some d
    else match p with
      | .aperture _ leaf off _ _ => if d.apertureWaits leaf off then some d else none
      | _ => none

/-- Such an access has been forwarded. -/
def Dev.accessMade (d : Dev) (req : Requester) (a size : Nat) (write : Bool) (v : Word) : Dev :=
  match d.sitePkt req a size write v with
  | some (s, p) => d.passHeld s p
  | none => d

/-- The site whose proxy or closed gate stands before a leaf's aperture. -/
def Dev.apertureStands (d : Dev) (leaf : Nat) : Bool :=
  let s := d.leafSite leaf
  d.siteActive s && (d.isolated s || (d.gate s).closed)

/-- An aperture access of a requester that waits for it at once: the bytes, and whether it is an error.
DEDUCED, assumption 53. -/
def Dev.apertureRead (d : Dev) (req : Requester) (a size : Nat) : Nat × Bool × Dev :=
  let leaf := (a - 0x0E0000000000) / 2 ^ 28
  let off := (a - 0x0E0000000000) % 2 ^ 28
  if d.apertureStands leaf then
    (256 ^ size - 1, false, d.standAnswer (d.leafSite leaf) (.aperture req leaf off size false) a false)
  else (d.accessMade req a size false 0).apertureLoad req leaf off size

/-- A write of such a requester, and whether it is an error. -/
def Dev.apertureWrite (d : Dev) (req : Requester) (a size v : Nat) : Bool × Dev :=
  let leaf := (a - 0x0E0000000000) / 2 ^ 28
  let off := (a - 0x0E0000000000) % 2 ^ 28
  if d.apertureStands leaf then (false, d.standAnswer (d.leafSite leaf) (.aperture req leaf off size true) a true)
  else (d.accessMade req a size true (BitVec.ofNat 64 v)).apertureStore req leaf off size v

end Sys2Proof.Machine
end

