-- ==== Sys2Proof/Machine/Graft.lean ====
section
/-!
DEFINITION. Grafts (spec/09, R210 to R226): flits, CRC and replay, lane errors, repair by spares, widths and degrade, training, fast
retrain, and going down; with the delay probe of R241 that follows every change of width.
Lanes are numbered as in R210: data lanes from 0, spares from 256, and 264 and 265 for the two forwarded clocks.
-/

namespace Sys2Proof

/-- The order in which ends are listed. -/
def GraftEnd.code : GraftEnd → Nat
  | .trunk s => s
  | .bough s p => 100 + 3 * s + p

/-- The other end. -/
def GraftEnd.peer : GraftEnd → GraftEnd
  | .trunk s => .bough s 0
  | .bough s 0 => .trunk s
  | .bough s 1 => .bough (s - 1) 2
  | .bough s _ => .bough (s + 1) 1

/-- The graft is lateral. -/
def GraftEnd.lateral : GraftEnd → Bool
  | .bough _ (_ + 1) => true
  | _ => false

/-- The authoritative side of a graft: the trunk, or the bough at the lower position. -/
def GraftEnd.auth (g : GraftEnd) : GraftEnd :=
  match g with
  | .trunk s => .trunk s
  | .bough s 0 => .trunk s
  | .bough s 1 => .bough (s - 1) 2
  | .bough s p => .bough s p

/-- The authoritative end of a graft by its name. -/
def GraftId.auth : GraftId → GraftEnd
  | .vertical s => .trunk s
  | .lateral s => .bough s 2

/-- The event source of an end (R342). -/
def GraftEnd.source : GraftEnd → Nat
  | .trunk s => 26 + s
  | .bough s p => Machine.siteSource s (18 + p)

end Sys2Proof

namespace Sys2Proof.Machine

/-! ### The ends of a graft -/

/-- The order of ends. -/
def endLt (a b : GraftEnd) : Bool := decide (a.code < b.code)

/-- The state of an end. -/
def Dev.side (d : Dev) (g : GraftEnd) : GraftSide := d.grafts.find {} g

/-- Change the state of an end. -/
def Dev.modSide (d : Dev) (g : GraftEnd) (f : GraftSide → GraftSide) : Dev :=
  { d with grafts := d.grafts.set endLt {} g (f (d.side g)) }

/-- The end is one of a graft that can carry traffic (R15): its site is active, and so is the lateral neighbour's. -/
def Dev.endExists (d : Dev) : GraftEnd → Bool
  | .trunk s => d.siteActive s
  | .bough s 0 => d.siteActive s
  | .bough s 1 => d.siteActive s && s % 7 != 0 && d.siteActive (s - 1)
  | .bough s 2 => d.siteActive s && s % 7 != 6 && d.siteActive (s + 1)
  | .bough _ _ => false

/-- A field of the GRF block of an end, given the trunk's and the bough's form of it. -/
def Dev.gget (d : Dev) (g : GraftEnd) (t b : Fld) : Nat :=
  match g with
  | .trunk s => d.get t s
  | .bough s p => d.get b s p

/-- Give such a field a value. -/
def Dev.gput (d : Dev) (g : GraftEnd) (t b : Fld) (v : Nat) : Dev :=
  match g with
  | .trunk s => d.put t v s
  | .bough s p => d.put b v s p

/-- Add to such a field, saturating. -/
def Dev.gbump (d : Dev) (g : GraftEnd) (t b : Fld) (n : Nat := 1) : Dev :=
  match g with
  | .trunk s => d.bump t n s
  | .bough s p => d.bump b n s p

/-- GRF_STAT.STATE of an end: 0 DOWN, 1 TRAINING, 2 UP, 3 PAUSED, 4 RETRAINING. -/
def Dev.gState (d : Dev) (g : GraftEnd) : Nat := d.gget g GRF_STAT.STATE GRFB_STAT.STATE

/-- Both ends of a graft take a state. -/
def Dev.setGState (d : Dev) (g : GraftEnd) (v : Nat) : Dev :=
  (d.gput g GRF_STAT.STATE GRFB_STAT.STATE v).gput g.peer GRF_STAT.STATE GRFB_STAT.STATE v

/-! ### Lane maps (R210, R222, R226) -/

/-- The register index and bit of a lane in GRF_LANE_FAIL and GRF_LANE_MASK. -/
def laneBit (lane : Nat) : Nat × Nat := if lane < 256 then (lane / 64, lane % 64) else (4, lane - 256)

/-- Bit of a lane in a lane register of an end. -/
def Dev.laneFlag (d : Dev) (g : GraftEnd) (t b : RegName) (lane : Nat) : Bool :=
  let (k, i) := laneBit lane
  match g with
  | .trunk s => (d.reg ⟨t, s, k⟩).getLsbD i
  | .bough s p => (d.reg ⟨b, s, 5 * p + k⟩).getLsbD i

/-- Mark a lane of an end failed in GRF_LANE_FAIL. -/
def Dev.markFailed (d : Dev) (g : GraftEnd) (lane : Nat) : Dev :=
  let (k, i) := laneBit lane
  match g with
  | .trunk s => d.put ⟨.GRF_LANE_FAIL, i, i⟩ 1 s k
  | .bough s p => d.put ⟨.GRFB_LANE_FAIL, i, i⟩ 1 s (5 * p + k)

/-- The lane is reported failed. -/
def Dev.laneFailed (d : Dev) (g : GraftEnd) (lane : Nat) : Bool := d.laneFlag g .GRF_LANE_FAIL .GRFB_LANE_FAIL lane

/-- The lane is marked failed by software (R226). -/
def Dev.laneMasked (d : Dev) (g : GraftEnd) (lane : Nat) : Bool := d.laneFlag g .GRF_LANE_MASK .GRFB_LANE_MASK lane

/-- The data lanes of a direction. -/
def dataLanes (g : GraftEnd) : Nat := if g.lateral then 128 else 256

/-- The spare lanes that serve a half. -/
def spareLanes (g : GraftEnd) (h : Nat) : List Nat :=
  let n := if g.lateral then 2 else 4
  (List.range n).map fun i => 256 + n * h + i

/-- The half of a data lane or of a spare. -/
def halfOf (g : GraftEnd) (lane : Nat) : Nat :=
  if lane < 256 then lane / (dataLanes g / 2) else (lane - 256) / (if g.lateral then 2 else 4)

/-- The lanes of a range that are in a failed list. -/
def failedIn (failed : List Nat) (lo n : Nat) : Nat := (failed.filter fun l => decide (lo ≤ l ∧ l < lo + n)).length

/-- Working spares of a half. -/
def workingSpares (g : GraftEnd) (failed : List Nat) (h : Nat) : Nat :=
  ((spareLanes g h).filter fun l => !failed.contains l).length

/-- Half h is whole (R222): its failed data lanes are no more than its working spares, in use or not, and its clock works. -/
def halfWhole (g : GraftEnd) (failed : List Nat) (h : Nat) : Bool :=
  let n := dataLanes g / 2
  decide (failedIn failed (n * h) n ≤ workingSpares g failed h) && !failed.contains (264 + h)

/-- A quarter of a bough-to-trunk graft is whole (R222). -/
def quarterWhole (g : GraftEnd) (failed : List Nat) (q : Nat) : Bool :=
  decide (failedIn failed (64 * q) 64 ≤ workingSpares g failed (q / 2)) && !failed.contains (264 + q / 2)

/-- The first data lane, divided by 64, of the block of a width that a direction forms, if it can (R222): widths are in units
of 64 lanes. -/
def formBlock (g : GraftEnd) (failed : List Nat) (w : Nat) : Option Nat :=
  let full := dataLanes g / 64
  if w = full then (if halfWhole g failed 0 && halfWhole g failed 1 then some 0 else none)
  else if 2 * w = full then ([0, 1].find? (halfWhole g failed)).map (w * ·)
  else if w = 1 then [0, 1, 2, 3].find? (quarterWhole g failed)
  else none

/-- The widths of a graft, widest first. -/
def graftWidths (g : GraftEnd) : List Nat := if g.lateral then [2, 1] else [4, 2, 1]

/-- The largest width that a direction forms, no wider than a bound. -/
def largestWidth (g : GraftEnd) (failed : List Nat) (bound : Nat) : Option Nat :=
  (graftWidths g).find? fun w => decide (w ≤ bound) && (formBlock g failed w).isSome

/-- All lanes of a direction. -/
def allLanes (g : GraftEnd) : List Nat :=
  List.range (dataLanes g) ++ spareLanes g 0 ++ spareLanes g 1 ++ [264, 265]

/-- The lanes an end's receiver counts as failed: reported, or marked by software. -/
def Dev.failedLanes (d : Dev) (g : GraftEnd) : List Nat :=
  (allLanes g).filter fun l => d.laneFailed g l || d.laneMasked g l

/-! ### The spare map (GRF_SPARE) -/

/-- The data lane that spare e replaces. -/
def Dev.spareFor (d : Dev) (g : GraftEnd) (e : Nat) : Option Nat :=
  let used := d.gget g ⟨.GRF_SPARE, 8 * e + 7, 8 * e + 7⟩ ⟨.GRFB_SPARE, 8 * e + 7, 8 * e + 7⟩
  let off := d.gget g ⟨.GRF_SPARE, 8 * e + 6, 8 * e⟩ ⟨.GRFB_SPARE, 8 * e + 6, 8 * e⟩
  if used = 1 then some (halfOf g (256 + e) * (dataLanes g / 2) + off) else none

/-- Set what spare e replaces. -/
def Dev.setSpare (d : Dev) (g : GraftEnd) (e : Nat) (lane : Option Nat) : Dev :=
  let v := match lane with
    | some l => 128 + l % (dataLanes g / 2)
    | none => 0
  d.gput g ⟨.GRF_SPARE, 8 * e + 7, 8 * e⟩ ⟨.GRFB_SPARE, 8 * e + 7, 8 * e⟩ v

/-- The spares of a direction. -/
def spares (g : GraftEnd) : List Nat := (spareLanes g 0 ++ spareLanes g 1).map (· - 256)

/-- The data lanes of the block of a direction: none while it is down. -/
def Dev.blockLanes (d : Dev) (g : GraftEnd) : List Nat :=
  (List.range (64 * d.gget g GRF_STAT.WIDTH GRFB_STAT.WIDTH)).map fun i => 64 * d.gget g GRF_STAT.BLOCK GRFB_STAT.BLOCK + i

/-- GRF_STAT.SPARES counts the spares in use. -/
def Dev.countSpares (d : Dev) (g : GraftEnd) : Dev :=
  d.gput g GRF_STAT.SPARES GRFB_STAT.SPARES (((spares g).filter fun e => (d.spareFor g e).isSome).length)

/-- Map spares to the failed data lanes of the block of a direction (R218, step 6; R222, R223): a working spare that replaces one of them
already stays, and of the rest the lowest lane takes the lowest working spare of its half. -/
def Dev.mapSpares (d : Dev) (g : GraftEnd) (failed : List Nat) : Dev :=
  let bad := (d.blockLanes g).filter failed.contains
  let stays (e : Nat) : Bool := !failed.contains (256 + e) && ((d.spareFor g e).map bad.contains).getD false
  let d := (spares g).foldl (fun d e => if stays e then d else d.setSpare g e none) d
  let d := [0, 1].foldl (fun d h =>
    let open_ := bad.filter fun l => halfOf g l == h && !(spares g).any fun e => d.spareFor g e == some l
    let ok := (spareLanes g h).filter fun l => !failed.contains l && (d.spareFor g (l - 256)).isNone
    (open_.zip ok).foldl (fun d p => d.setSpare g (p.2 - 256) (some p.1)) d) d
  d.countSpares g

/-- The physical lanes of the logical lanes of a direction (R211): data lanes of the block, or the spares that replace them. -/
def Dev.physicalLanes (d : Dev) (g : GraftEnd) : List Nat :=
  (d.blockLanes g).map fun l => ((spares g).find? fun e => d.spareFor g e == some l).elim l (256 + ·)

/-- The physical lanes that carried a differing bit: bit b of a flit travels on logical lane b mod W (R211). -/
def differingLanes (lanes : List Nat) (a b : BitVec 512) : List Nat :=
  (lanes.zipIdx.filter fun p => (List.range (512 / lanes.length)).any fun k =>
    a.getLsbD (lanes.length * k + p.2) != b.getLsbD (lanes.length * k + p.2)).map (·.1)

/-! ### Going down (R223, R224) -/

/-- Credits of R215 that an end's sender starts with. -/
def initialCredits (g : GraftEnd) : KMap Nat Nat :=
  if g.lateral then [(4, 64)] else [(0, 24), (1, 16), (2, 48), (3, 24), (4, 32), (5, 8)]

/-- The exchange windows under way over a lateral graft are answered UNREACHABLE (R208, R224). -/
def Dev.lateralWindows (d : Dev) (g : GraftEnd) : Dev :=
  let low : Nat := match g with
    | .bough s _ => s
    | .trunk s => s
  let lost := d.packets.filter fun p => match p with
    | .xch m => (d.msgPath m (d.versionOf p)).contains (.lateral low)
    | _ => false
  lost.foldl (fun (d : Dev) p => match p with
    | .xch m => d.ackXch m .unreachable
    | _ => d) (d.lose lost.contains)

/-- The exchange windows under way that would pass a lateral graft that is down are answered UNREACHABLE (R224). -/
def Dev.unreachLateral (d : Dev) : Dev :=
  let lost := d.packets.filter fun p => match p with
    | .xch m => d.lateralDown m
    | _ => false
  let d := d.lose lost.contains
  lost.foldl (fun (d : Dev) p => match p with
    | .xch m => d.ackXch m .unreachable
    | _ => d) d

/-- A graft goes down with a cause (R223, R224): replay buffers are discarded, and the site is isolated, or the exchange
traffic rerouted. -/
def Dev.graftDown (d : Dev) (g : GraftEnd) (cause : Nat) : Dev :=
  let off (d : Dev) (e : GraftEnd) : Dev :=
    let d := ((d.gput e GRF_STAT.STATE GRFB_STAT.STATE 0).gput e GRF_STAT.WIDTH GRFB_STAT.WIDTH 0).gput e
      GRF_STAT.CAUSE GRFB_STAT.CAUSE cause
    d.modSide e fun s => { s with replay := [], resend := none, rx := [], bad := [], fails := 0, asked := false, failing := [], later := [] }
  let d := (off (off d g) g.peer).raiseSevere g.auth.source
  match g.auth with
  | .trunk s => d.isolate s
  | .bough s _ => d.unreachLateral.rerouteLateral s

/-! ### Delay and ring count (R240, R241) -/

/-- The trunk measures DELAY anew: a probe leaves at the present master value, an earlier one no longer counts, and no sync is sent
until it is back. -/
def Dev.startProbe (d : Dev) (s : Nat) : Dev :=
  let d := d.lose fun p => match p with
    | .probe t _ => t == s
    | _ => false
  (d.setCopyInfo s { d.copyInfo s with measured := false }).emit (.probe s d.ring)

/-- The trunk sends a sync message to a bough die whose graft is up and measured (R240). A gated bough gets none (R201), but for one that
wakes, whose copy locks before its gate opens (R366). -/
def Dev.sendSync (d : Dev) (s : Nat) : Dev :=
  if d.gState (.trunk s) = 2 && (d.copyInfo s).measured && (!(d.gate s).closed || d.power.waking.contains s)
      && !d.isolated s then d.emit (.ringSync s d.ring) else d

/-- Every bough die whose graft is up gets a sync message. -/
def Dev.syncAll (d : Dev) : Dev := (List.range 28).foldl (fun d s => if d.siteActive s then d.sendSync s else d) d

/-- DELAY_PROBE_RETURN (R241): the answer arrives at T4, which is the present master value (an answer at another time does not come now),
and DELAY is half of what is left of the round trip after the bough's turnaround. The copy is then synchronised. -/
def delayProbeEff (s t4 turn : Nat) (d : Dev) : Dev :=
  if t4 ≠ d.ring.toNat then d else
  match d.packets.findSome? fun p => match p with
    | .probe t t1 => if t = s then some t1 else none
    | _ => none with
  | none => d
  | some t1 =>
    let d := d.take (.probe s t1)
    let d := d.put TIM_SITE.DELAY ((t4 - t1.toNat - turn) / 2) 0 s
    (d.setCopyInfo s { d.copyInfo s with measured := true }).sendSync s

/-! ### Repair and degrade (R219 to R223) -/

/-- Both directions of a graft take a width and their blocks. -/
def Dev.setWidth (d : Dev) (g : GraftEnd) (w : Nat) : Dev :=
  [g, g.peer].foldl (fun d e =>
    (d.gput e GRF_STAT.WIDTH GRFB_STAT.WIDTH w).gput e GRF_STAT.BLOCK GRFB_STAT.BLOCK
      ((formBlock e (d.failedLanes e) w).getD 0)) d

/-- After a pause each sender resends from its oldest unacknowledged SEQ (R221, R223). -/
def Dev.resendAll (d : Dev) (g : GraftEnd) : Dev :=
  [g, g.peer].foldl (fun d e => d.modSide e fun s => { s with resend := s.replay.head?.map (·.1) }) d

/-- A failing lane cannot be repaired: the graft narrows to the widest that both directions form, or goes down (R223). Spares follow the
new blocks, and a change of width has DELAY measured again (R241). -/
def Dev.degrade (d : Dev) (g : GraftEnd) : Dev :=
  let now := d.gget g GRF_STAT.WIDTH GRFB_STAT.WIDTH
  let w := (graftWidths g).find? fun w =>
    decide (w ≤ now) && (formBlock g (d.failedLanes g) w).isSome && (formBlock g.peer (d.failedLanes g.peer) w).isSome
  match w with
  | none => d.graftDown g 3
  | some w =>
    let d := ((d.setWidth g w).raiseSevere g.source).setGState g 2
    let d := ((d.mapSpares g (d.failedLanes g)).mapSpares g.peer (d.failedLanes g.peer)).resendAll g
    match g.auth with
    | .trunk s => d.startProbe s
    | .bough .. => d

/-- The lane is in use: a data lane of the block that no spare replaces, a spare that replaces one, or the clock of a half that the block
touches. -/
def Dev.laneInUse (d : Dev) (g : GraftEnd) (lane : Nat) : Bool :=
  if lane < 256 then (d.blockLanes g).contains lane && !(spares g).any fun e => d.spareFor g e == some lane
  else if lane < 264 then (d.spareFor g (lane - 256)).isSome
  else (d.blockLanes g).any fun l => halfOf g l == lane - 264

/-- Replace one failing lane (R221): a data lane, or a failing spare in use, by an unused working spare of its half; none when
there is none. -/
def Dev.repairLane (d : Dev) (g : GraftEnd) (lane : Nat) : Option Dev :=
  let data := if lane < 256 then some lane else if lane < 264 then d.spareFor g (lane - 256) else none
  let d := if 256 ≤ lane ∧ lane < 264 then d.setSpare g (lane - 256) none else d
  match data with
  | none => none
  | some l =>
    ((spareLanes g (halfOf g l)).find? fun s =>
      !d.laneFailed g s && !d.laneMasked g s && (d.spareFor g (s - 256)).isNone).map fun s =>
        (d.setSpare g (s - 256) (some l)).gbump g GRF_CNT.REPAIRS GRFB_CNT.REPAIRS

/-- A link pause begins (R221, step 1): both sides stop, and the receiver names the lanes that are failing now. -/
def Dev.pause (d : Dev) (g : GraftEnd) (lanes : List Nat) : Dev :=
  ((d.modSide g fun s => { s with failing := lanes, later := [] }).setGState g 3).emit (.repair g)

/-- A lane of an end that became failing during the pause has a second pause, which follows at once. -/
def Dev.nextPause (d : Dev) (g : GraftEnd) : Dev :=
  if d.gState g ≠ 2 then d
  else match [g, g.peer].find? fun e => !(d.side e).later.isEmpty with
    | some e => d.pause e (d.side e).later
    | none => d

/-- The link pause that repairs every lane that its REPAIR names (R221), or narrows the graft when one cannot be repaired (R223). -/
def Dev.linkPause (d : Dev) (g : GraftEnd) : Dev :=
  let lanes := (d.side g).failing
  let d := d.modSide g fun s => { s with failing := [] }
  let (ok, d) := lanes.foldl (fun (r : Bool × Dev) l =>
    if !r.2.laneInUse g l then r
    else match r.2.repairLane g l with
      | some d => (r.1, d)
      | none => (false, r.2)) (true, d)
  let d := d.countSpares g
  (if ok then (d.setGState g 2).resendAll g else d.degrade g).nextPause g

/-- Lanes of an end are failing (R220, R226): they are reported failed, and the receiver asks for a pause if one of them is in use. -/
def Dev.lanesFailing (d : Dev) (g : GraftEnd) (lanes : List Nat) : Dev :=
  let d := lanes.foldl (fun d l => d.markFailed g l) d
  let used := lanes.filter (d.laneInUse g)
  if used.isEmpty then d
  else if d.gState g = 2 then d.pause g used
  else if d.gState g = 3 then d.modSide g fun s => { s with later := s.later ++ used }
  else d

/-- Count an error of a lane; at GRF_CTL.THRESH it is failing (R220). -/
def Dev.laneError (d : Dev) (g : GraftEnd) (lane n : Nat) : Dev :=
  let c := min ((d.side g).errs.find 0 lane + n) 65535
  let d := d.modSide g fun s => { s with errs := s.errs.set natLt 0 lane c }
  if d.gget g GRF_CTL.THRESH GRFB_CTL.THRESH ≤ c && !d.laneFailed g lane then d.lanesFailing g [lane] else d

/-- CTRL_REPAIR (R221). -/
def ctrlRepairEff (g : GraftEnd) (d : Dev) : Dev :=
  let d := d.take (.repair g)
  if d.gState g = 3 then d.linkPause g else d

/-- LANE_ERROR_WINDOW (R220): the counts of the interval are cleared. -/
def laneWindowEff (g : GraftEnd) (d : Dev) : Dev := d.modSide g fun s => { s with errs := [] }

/-- GRAFT_LANE_LOSS_OF_LOCK (R220): the count is the threshold at once. -/
def laneLossEff (g : GraftEnd) (lane : Nat) (d : Dev) : Dev :=
  if !d.endExists g || !(allLanes g).contains lane then d
  else
    let th := d.gget g GRF_CTL.THRESH GRFB_CTL.THRESH
    d.laneError g lane (th - (d.side g).errs.find 0 lane)

/-- GRF_LANE_MASK_WRITE (R226): the register of a block that is present takes the value (R8, R29), and the lanes newly marked act at once
through R221 or R223. -/
def laneMaskEff (g : GraftEnd) (k : Nat) (value : Word) (d : Dev) : Dev :=
  let legal : Word := if k = 4 then 0x3FF else BitVec.allOnes 64
  let (site, r) := match g with
    | .trunk s => (s, (⟨.GRF_LANE_MASK, s, k⟩ : Reg))
    | .bough s p => (s, ⟨.GRFB_LANE_MASK, s, 5 * p + k⟩)
  if !d.siteActive site || 5 ≤ k then d
  else
    let new := value &&& legal
    let lanes := ((List.range 64).filter fun i => new.getLsbD i && !(d.reg r).getLsbD i).map fun i =>
      if k = 4 then 256 + i else 64 * k + i
    let d := d.setReg r new
    if d.endExists g then d.lanesFailing g (lanes.filter (allLanes g).contains) else d

/-! ### Training (R13, R218, R219, R225) -/

/-- Add a record to the training log of the authoritative side. -/
def Dev.trainLog (d : Dev) (g : GraftEnd) (round proposed reply result strap : Nat) : Dev :=
  let a := g.auth
  let i := d.gget a GRF_TRAIN_HEAD.NEXT GRFB_TRAIN_HEAD.NEXT
  let ring := match a with
    | .trunk _ => d.ringLow
    | .bough s _ => (d.copy s).toNat % 2 ^ 32
  let w : Word := BitVec.ofNat 64 (2 ^ 63 + (d.gget a GRF_STAT.GEN GRFB_STAT.GEN <<< 55) + (round <<< 53) + (proposed <<< 49)
    + (reply <<< 45) + (result <<< 41) + (strap % 32 <<< 36) + ring)
  let d := match a with
    | .trunk s => d.setReg ⟨.GRF_TRAIN_LOG, s, i⟩ w
    | .bough s p => d.setReg ⟨.GRFB_TRAIN_LOG, s, 8 * p + i⟩ w
  let d := d.gput a GRF_TRAIN_HEAD.NEXT GRFB_TRAIN_HEAD.NEXT (i + 1)
  if i = 7 then d.gput a GRF_TRAIN_HEAD.WRAPPED GRFB_TRAIN_HEAD.WRAPPED 1 else d

/-- A training starts: GEN counts and both ends are TRAINING (R218). -/
def Dev.startTraining (d : Dev) (g : GraftEnd) : Dev :=
  let a := g.auth
  let gen := (d.gget a GRF_STAT.GEN GRFB_STAT.GEN + 1) % 256
  [a, a.peer].foldl (fun d e =>
    (((d.gput e GRF_STAT.GEN GRFB_STAT.GEN gen).gput e GRF_STAT.STATE GRFB_STAT.STATE 1).gput e
      GRF_STAT.WIDTH GRFB_STAT.WIDTH 0).modSide e fun s => { crc := s.crc, last := s.last }) d

/-- The rounds of the width agreement (R225): the width agreed, or none, with a log record for each round. `left` counts the
rounds left; `known` is the other side's map as far as the authoritative side knows it. -/
def agreeWidth (g : GraftEnd) (auth : List Nat) : Nat → Nat → Option Nat → List (List Nat) → Nat → Dev → Option Nat × Dev
  | 0, _, _, others, _, d =>
    -- three failed rounds: both sides fall to 64 lanes
    let other := others.headD []
    if (formBlock g auth 1).isSome && (formBlock g.peer other 1).isSome then (some 1, d.trainLog g 3 1 1 3 0)
    else (none, d.trainLog g 3 1 0 4 0)
  | left + 1, round, common, others, unknown, d =>
    let other := others.headD []
    let bound := common.getD (dataLanes g / 64)
    let mine := largestWidth g auth bound
    let proposal := if unknown = 0 then mine.bind fun w => largestWidth g.peer other w else mine
    match proposal with
    | none => (none, d.trainLog g round 0 0 4 0)
    | some w =>
      let best := (largestWidth g.peer other (dataLanes g / 64)).getD 0
      if (formBlock g.peer other w).isSome then
        (some w, d.trainLog g round w w (if best = w then 0 else 1) 0)
      else
        let d := d.trainLog g round w best 2 0
        if best = 0 then (none, d.trainLog g round w 0 4 0)
        else agreeWidth g auth left (round + 1) (some best) (if others.length ≤ 1 then others else others.tail) (unknown - 1) d

/-- The failed lanes found by a training, with those that software marks. -/
def Dev.foundFailed (d : Dev) (g : GraftEnd) (found : List Nat) : List Nat :=
  (allLanes g).filter fun l => found.contains l || d.laneMasked g l

/-- Report a failed-lane map in GRF_LANE_FAIL. -/
def Dev.reportFailed (d : Dev) (g : GraftEnd) (failed : List Nat) : Dev :=
  let word (k : Nat) : Word := wordOfBits fun i => failed.contains (if k = 4 then 256 + i else 64 * k + i)
  (List.range 5).foldl (fun d k => match g with
    | .trunk s => d.setReg ⟨.GRF_LANE_FAIL, s, k⟩ (word k)
    | .bough s p => d.setReg ⟨.GRFB_LANE_FAIL, s, 5 * p + k⟩ (word k)) d

/-- Step 8 of R218: SEQ starts at 0 and the credits of R215 are granted. Flits that wait in the replay buffer, as after a fast retrain, are
resent under new SEQs and hold their credits. DESIGN CHOICE, assumption 21. -/
def GraftSide.granted (s : GraftSide) (credits : KMap Nat Nat) : GraftSide :=
  let flits := s.replay.map (·.2)
  { s with
    expect := 0, asked := false, fails := 0, bad := [], failing := [], later := []
    next := flits.length
    replay := flits.zipIdx.map fun p => (p.2, p.1)
    resend := if flits.isEmpty then none else some 0
    credits := flits.foldl (fun c f => match f with
      | some f => let vn := (f.extractLsb' 3 3).toNat; c.set natLt 0 vn (c.find 0 vn - 1)
      | none => c) credits }

/-- Steps 4 to 8 of R218: sweep, width, spares of the chosen block and credits. TRAIN flits of another GEN are logged. The graft is up, or down
with CAUSE NO_AGREEMENT; the result says which. -/
def Dev.train (d : Dev) (g : GraftEnd) (r : TrainResult) : Bool × Dev :=
  let a := g.auth
  let d := (List.range r.stale).foldl (fun d _ => d.trainLog a 0 0 0 7 0) d
  let auth := d.foundFailed a r.auth
  let others := (if r.others.isEmpty then [[]] else r.others).map (d.foundFailed a.peer)
  let last := others.getLastD []
  let d := (d.reportFailed a auth).reportFailed a.peer last
  match agreeWidth a auth 3 1 none others r.unknown d with
  | (none, d) => (false, d.graftDown a 4)
  | (some w, d) =>
    let d := (d.setWidth a w).setGState a 2
    let d := (d.mapSpares a auth).mapSpares a.peer last
    let d := [a, a.peer].foldl (fun d e => d.modSide e fun s => s.granted (initialCredits e)) d
    (true, match a with
      | .trunk s => d.startProbe s
      | .bough .. => d)

/-- A training that fails its step 3: the strap differs from the port's number (R13). -/
def Dev.strapMismatch (d : Dev) (s strap : Nat) : Dev :=
  (d.trainLog (.trunk s) 0 0 0 5 strap).graftDown (.trunk s) 1

/-- GRAFT_TRAINING_TIMEOUT (R218): not up 1 ms after the start. -/
def Dev.trainingTimeout (d : Dev) (i : GraftId) : Dev :=
  let g := i.auth
  if d.gState g = 1 then (d.trainLog g 0 0 0 6 0).graftDown g 2 else d

/-- What a sender still has to resend after a fast retrain: the flits that the other end has not accepted. -/
def GraftSide.pending (s : GraftSide) (expect : Nat) : GraftSide :=
  { s with replay := s.replay.dropWhile fun e => e.1 != expect }

/-- A fast retrain (R219): steps 4 to 8 again; lane error counts are cleared. No packet is lost. -/
def Dev.fastRetrain (d : Dev) (g : GraftEnd) (r : TrainResult) : Bool × Dev :=
  let a := g.auth
  let kept (e : GraftEnd) : GraftSide := { (d.side e).pending (d.side e.peer).expect with errs := [] }
  let d := (d.modSide a fun _ => kept a).modSide a.peer fun _ => kept a.peer
  let d := d.gbump a GRF_CNT.RETRAINS GRFB_CNT.RETRAINS
  d.train a r

/-- A fast retrain starts (R216, R219); a graft that is DOWN or trains ignores it. -/
def Dev.startRetrain (d : Dev) (g : GraftEnd) : Dev :=
  if d.endExists g && 2 ≤ d.gState g then d.setGState g 4 else d

/-- GRAFT_FAST_RETRAIN: the outcome of a fast retrain that a write of GRF_CTL.RETRAIN, eight failed replays or the management core
started. DEDUCED, assumption 59. -/
def graftRetrainEff (i : GraftId) (r : TrainResult) (d : Dev) : Dev :=
  let g := i.auth
  if !d.endExists g || d.gState g ≠ 4 then d else (d.fastRetrain g r).2

/-! ### Flits (R211 to R216) -/

/-- The CRC of R213 over flit bits [495:0], MSB first: polynomial 0x8BB7, initial value 0xFFFF. -/
def flitCrc (f : BitVec 512) : Nat :=
  (List.range 496).foldl (fun c i =>
    let top := (c / 2 ^ 15 % 2 == 1) != f.getLsbD (495 - i)
    let c := c * 2 % 2 ^ 16
    if top then c ^^^ 0x8BB7 else c) 0xFFFF

/-- Bits [hi:lo] of a flit. -/
def flitBits (f : BitVec 512) (hi lo : Nat) : Nat := (f.extractLsb' lo (hi - lo + 1)).toNat

/-- The sender acts on an acknowledgement: every flit before the named SEQ leaves the replay buffer (R216). -/
def GraftSide.acked (s : GraftSide) (ack : Nat) : GraftSide :=
  if s.replay.any fun e => (e.1 + 1) % 256 == ack then
    { s with replay := (s.replay.dropWhile fun e => (e.1 + 1) % 256 != ack).drop 1 }
  else s

/-- Credits come back to a sender. -/
def GraftSide.credited (s : GraftSide) (vn n : Nat) : GraftSide :=
  { s with credits := s.credits.set natLt 0 vn (s.credits.find 0 vn + n) }

/-- A DATA flit takes a credit of its VN. -/
def GraftSide.spend (s : GraftSide) (vn : Nat) : GraftSide :=
  { s with credits := s.credits.set natLt 0 vn (s.credits.find 0 vn - 1) }

/-- The SEQ is of a flit in the replay buffer. -/
def GraftSide.keeps (s : GraftSide) (seq : Nat) : Bool := s.replay.any fun e => e.1 == seq

/-- The SEQ of the DATA flit that a sender sends next: the next to be resent, or a new one. -/
def GraftSide.turn (s : GraftSide) : Nat :=
  match s.resend with
  | some n => if s.keeps n then n else s.next
  | none => s.next

/-- A sender sends its next DATA flit, of a VN, and keeps it until an ACK covers it (R215, R216): a resent one again, or a new one for which it
holds a credit while fewer than 64 are unacknowledged; none when it may not. Of a flit that does not arrive intact the bits are not
known, and its credit is taken with them. A VN that `free` names takes no credit. -/
def GraftSide.sends (s : GraftSide) (vn : Nat) (free : Bool) (f : Option (BitVec 512)) : Option GraftSide :=
  let n := s.turn
  if s.keeps n then
    let known := s.replay.any fun e => e.1 == n && e.2.isSome
    let s := { s with replay := s.replay.map fun e => if e.1 = n then (n, f.or e.2) else e
                      resend := if s.keeps ((n + 1) % 256) then some ((n + 1) % 256) else none }
    some (if known || f.isNone || free then s else s.spend vn)
  else if 64 ≤ s.replay.length || (f.isSome && !free && s.credits.find 0 vn == 0) then none
  else
    let s := { s with replay := s.replay ++ [(n, f)], next := (n + 1) % 256, resend := none }
    some (if f.isNone || free then s else s.spend vn)

/-- A receiver asks once for the flits from the SEQ it expects, and discards what arrives until that flit does (R216). -/
def Dev.askRetry (d : Dev) (g : GraftEnd) : Dev :=
  if (d.side g).asked then d
  else (d.modSide g fun s => { s with asked := true }).emit (.retry g.peer (d.side g).expect)

/-- The expected flit itself fails: it is asked for again, and eight failures in a row start a fast retrain (R216). -/
def Dev.seqFails (d : Dev) (g : GraftEnd) : Dev :=
  let n := (d.side g).fails + 1
  let d := (d.modSide g fun s => { s with fails := n, asked := false }).askRetry g
  if 8 ≤ n then d.setGState g 4 else d

/-- The packet header in the SOP flit of a packet, and its route version (R214). -/
def flitHeader (f : BitVec 512) : MeshPkt × Nat :=
  ({ vn := flitBits f 50 48, dnode := flitBits f 57 51, dstop := flitBits f 61 58, snode := flitBits f 68 62
     sstop := flitBits f 72 69, ring := flitBits f 97 74 }, flitBits f 73 73)

/-- A packet has crossed a graft: at the trunk its router takes it on by the bank of its version (R192, R214). -/
def Dev.packetCrossed (d : Dev) (g : GraftEnd) (h : MeshPkt × Nat) : Dev :=
  let d := d.modSide g fun s => { s with last := some h }
  match g with
  | .trunk _ => d.routePacket h.1 h.2
  | .bough .. => d

/-- A flit of a VN is accepted: its packet is gathered from the SOP flit to the EOP flit (R214); on a lateral graft one of another VN than XCH is
discarded as unroutable (R215). -/
def Dev.flitAccepted (d : Dev) (g : GraftEnd) (vn : Nat) (f : BitVec 512) : Dev :=
  let before := (d.side g).rx.find [] vn
  let flits := if f.getLsbD 6 then [f] else if before.isEmpty then [] else before ++ [f]
  let d := d.modSide g fun s => { s with rx := s.rx.set natLt [] vn (if f.getLsbD 7 then [] else flits) }
  let head := flitHeader (flits.headD f)
  if g.lateral && vn != 4 then d.unrouted vn head.1.dnode
  else if f.getLsbD 7 && !flits.isEmpty then d.packetCrossed g head
  else d

/-- A DATA flit arrives intact (R216, R220): the expected one is accepted, and compared with its copies that failed; any other is
discarded. -/
def Dev.dataArrives (d : Dev) (g : GraftEnd) (f : BitVec 512) : Dev :=
  let s := d.side g
  let seq := flitBits f 15 8
  if seq ≠ s.expect then d.askRetry g
  else
    let lanes := ((s.bad.filter fun b => b.seq == seq).map fun b => differingLanes b.lanes b.flit f).flatten
    let d := d.modSide g fun s =>
      { s with expect := (seq + 1) % 256, asked := false, fails := 0, bad := s.bad.filter fun b => b.seq != seq }
    lanes.foldl (fun d lane => d.laneError g lane 1) (d.flitAccepted g (flitBits f 5 3) f)

/-- A flit of a graft that is in service fails its CRC (R213, R216, R220): one that reads as a DATA flit is the sender's next; its copy is
kept for the comparison. DESIGN CHOICE, assumption 21. -/
def Dev.flitFails (d : Dev) (g : GraftEnd) (f : BitVec 512) : Dev :=
  let p := d.side g.peer
  match if d.gState g = 2 && flitBits f 2 0 == 1 then p.sends 0 false none else none with
  | none => d.askRetry g
  | some q =>
    let d := (d.modSide g.peer fun _ => q).modSide g fun s => { s with bad := s.bad ++ [⟨p.turn, f, d.physicalLanes g⟩] }
    if p.turn = (d.side g).expect then d.seqFails g else d.askRetry g

/-- The sender may have sent this flit (R215, R216): DATA flits leave while the graft is up, in the order of their SEQs, under credits and
the bound of the replay buffer. The sender's state after it. -/
def Dev.flitSent (d : Dev) (g : GraftEnd) (f : BitVec 512) : Option GraftSide :=
  let p := d.side g.peer
  let vn := flitBits f 5 3
  if flitBits f 2 0 ≠ 1 then some p
  else if d.gState g ≠ 2 then none
  else if flitBits f 15 8 = p.turn then p.sends vn (g.lateral && vn != 4) (some f)
  else if flitBits f 15 8 = (d.side g).expect then none
  else some p

/-- A crossing at either end of a graft is broken: it accepts nothing (R207, R209). -/
def Dev.graftBroken (d : Dev) (g : GraftEnd) : Bool :=
  let crossing (e : GraftEnd) : Crossing := match e with
    | .trunk s => .trunk s
    | .bough s p => .bough s p
  d.broken (crossing g) || d.broken (crossing g.peer)

/-- FLIT_RECEIVE (R211 to R216, R220). A flit that its sender may not send does not arrive. DESIGN CHOICE, assumption 21. -/
def flitReceiveEff (g : GraftEnd) (f : BitVec 512) (d : Dev) : Dev :=
  if !d.endExists g || d.gState g = 0 || d.graftBroken g then d
  else if flitCrc f ≠ flitBits f 511 496 then
    let d := d.modSide g fun s => { s with crc := s.crc + 1 }
    if d.gState g = 2 || d.gState g = 3 then d.flitFails g f else d
  else if d.gState g = 1 then d
  else match d.flitSent g f with
    | none => d
    | some p =>
      let d := (d.modSide g.peer fun _ => p).modSide g fun s =>
        let s := if f.getLsbD 24 then s.acked (flitBits f 23 16) else s
        (s.credited (flitBits f 27 25) (flitBits f 33 28)).credited (flitBits f 36 34) (flitBits f 42 37)
      if flitBits f 2 0 = 1 then d.dataArrives g f else d

/-- CTRL_RETRY (R216): the sender resends from the named SEQ; RETRY flits received are counted. -/
def ctrlRetryEff (g : GraftEnd) (seq : Nat) (d : Dev) : Dev :=
  let d := d.take (.retry g seq)
  if !d.endExists g || d.gState g < 2 then d
  else (d.gbump g GRF_CNT.REPLAYS GRFB_CNT.REPLAYS).modSide g fun s => { s with resend := some seq }

end Sys2Proof.Machine
end

