-- ==== Sys2Proof/Machine/Trace.lean ====
section
/-!
DEFINITION. The trace path (spec/10, R245 to R257): staging FIFOs and packers, the trace unit, its DRAM rings, panic, drops and gap
records.
-/

namespace Sys2Proof.Machine

/-! ### Packers (R247 to R250) -/

/-- The packer of a site. -/
def Dev.packer (d : Dev) (s : Nat) : Packer := d.packers.find {} s

/-- Change the packer of a site. -/
def Dev.modPacker (d : Dev) (s : Nat) (f : Packer → Packer) : Dev :=
  { d with packers := d.packers.set natLt {} s (f (d.packer s)) }

/-- The staging FIFO of a leaf index. -/
def Packer.fifo (p : Packer) (j : Nat) : List Staged := p.staging.find [] j

/-- The words of the OBSERVE at the head of a FIFO. -/
def headRun : List Staged → List Staged
  | [] => []
  | w :: t => w :: if w.last then [] else t.takeWhile (fun x => !x.first)

/-- The record at the head of a FIFO is ready: six words of one OBSERVE, or its last word, or an OBSERVE that a later one has cut
off (R248, R249). -/
def ready (fifo : List Staged) : Bool :=
  let r := headRun fifo
  !r.isEmpty && (decide (6 ≤ r.length) || r.any (·.last) || decide (r.length < fifo.length))

/-- A flush: fewer than six words and no last one among them (R249). -/
def isFlush (r : List Staged) : Bool := decide (r.length < 6) && !r.any (·.last)

/-- The packer forms the record at the head of a leaf's FIFO and sends it; the words' credits return to the leaf (R247, R248). -/
def Dev.formRecord (d : Dev) (s j : Nat) : Dev :=
  let p := d.packer s
  let r := (headRun (p.fifo j)).take 6
  match r with
  | [] => d
  | w :: _ =>
    if p.credits = 0 then d
    else
      let n := 16 * d.boughAt s + j
      let rec_ : TraceRec := { ring := w.stamp, mcycle := w.mcycle, leaf := n, valid := 8 * r.length, typ := w.typ
                               payload := r.map (·.word) }
      let d := d.modPacker s fun p => { p with
        staging := p.staging.set natLt [] j ((p.fifo j).drop r.length), next := (j + 1) % 16, credits := p.credits - 1 }
      let d := d.modLee n fun e => { e with credits := e.credits + r.length }
      let d := (d.count TRC_PACK.RECORDS 1 0 s).emit (.trace s rec_)
      if isFlush r then d.bump TRC_PACK.TAILS 1 0 s else d

/-- OBSERVE_EMIT (R101, R248): a word moves into the staging FIFO for a credit, stamped with its die's ring count. The first word
of an OBSERVE has the words of an unfinished one flushed (R249). -/
def observeEmitEff (n : Nat) (d : Dev) : Dev :=
  let e := d.lee n
  match e.emit, e.emitHead with
  | w :: rest, some (typ, mc) =>
    if !d.leePresent n || e.credits = 0 then d
    else
      let s := d.leafSite n
      let j := n % 16
      let first := e.emitted == 0
      let d := if first && !((d.packer s).fifo j).isEmpty && !((d.packer s).fifo j).any (·.last) then d.formRecord s j else d
      let x : Staged := ⟨w, mc, typ, d.copy s, first, rest.isEmpty⟩
      let d := d.modPacker s fun p => { p with staging := p.staging.set natLt [] j (p.fifo j ++ [x]) }
      d.modLee n fun e => { e with credits := e.credits - 1, emit := rest, emitted := e.emitted + 1
                                   emitHead := if rest.isEmpty then none else e.emitHead }
  | _, _ => d

/-- PACKER_RECORD_FORM (R248): the next ready leaf in rotation. -/
def packerFormEff (s : Nat) (d : Dev) : Dev :=
  let p := d.packer s
  match ((List.range 16).map fun i => (p.next + i) % 16).find? fun j => ready (p.fifo j) with
  | some j => if d.siteActive s && !d.isolated s then d.formRecord s j else d
  | none => d

/-- TAIL_TIMEOUT (R249): the words of an unfinished OBSERVE are flushed as one record. -/
def tailTimeoutEff (s n : Nat) (d : Dev) : Dev :=
  let f := (d.packer s).fifo (n % 16)
  if !d.siteActive s || d.isolated s || f.isEmpty || ready f then d else d.formRecord s (n % 16)

/-- Every staging FIFO of a packer is flushed at once (R365, step 1). -/
def Dev.flushPacker (d : Dev) (s : Nat) : Dev :=
  (List.range 16).foldl (fun d j => (List.range 32).foldl (fun d _ => d.formRecord s j) d) d

/-- The records that a packer's staging FIFOs would have formed: one for each six words or fewer of one OBSERVE (R250). -/
def recordsHeld : Nat → List Staged → Nat
  | 0, _ => 0
  | k + 1, f => if f.isEmpty then 0 else 1 + recordsHeld k (f.drop ((headRun f).take 6).length)

/-- The losses of a packer at an orderly bough reset, reported before the gate closes (R250). -/
def Dev.countTraceLoss (d : Dev) (s : Nat) : Dev :=
  d.bump TRC_PACK.LOST (((List.range 16).map fun j => recordsHeld 33 ((d.packer s).fifo j)).foldl (· + ·) 0) 0 s

/-! ### The trace unit (R251 to R257) -/

/-- Change the trace unit. -/
def Dev.modTrace (d : Dev) (f : TraceUnit → TraceUnit) : Dev := { d with trace := f d.trace }

/-- TRC_STAT.FILL and panic follow the buffer (R255). -/
def Dev.showFill (d : Dev) : Dev :=
  let n := d.trace.buffer.length
  let d := d.put TRC_STAT.FILL n
  if n > d.get TRC_CTL.PANIC_ON && !d.flag TRC_STAT.PANIC then (d.put TRC_STAT.PANIC 1).bump TRC_STAT.PANICS
  else if n < d.get TRC_CTL.PANIC_OFF then d.put TRC_STAT.PANIC 0
  else d

/-- The gap accumulator of a ring. -/
def Dev.gap (d : Dev) (r : Nat) : Option Gap := d.trace.gaps.find none r

/-- Replace it; PENDING reports it. -/
def Dev.setGap (d : Dev) (r : Nat) (g : Option Gap) : Dev :=
  (d.modTrace fun t => { t with gaps := t.gaps.set natLt none r g }).put TRC_RING_DROP.PENDING (if g.isSome then 1 else 0) 0 r

/-- A record is dropped (R256): counted, and entered in its ring's gap accumulator but for RING_OFF. Causes: 0 OVERFLOW,
1 RING_FULL, 3 ACCESS; 2 stands for RING_OFF. -/
def Dev.dropRecord (d : Dev) (r cause : Nat) (x : TraceRec) : Dev :=
  let d := d.bump TRC_RING_DROP.RECORDS 1 0 r
  if cause = 2 then d
  else
    let g : Gap := match d.gap r with
      | none => ⟨x.ring, x.ring, x.mcycle, x.mcycle, 1, 1 <<< cause⟩
      | some g => ⟨if x.ring < g.ringLo then x.ring else g.ringLo, if g.ringHi < x.ring then x.ring else g.ringHi,
                   min g.mcLo x.mcycle, max g.mcHi x.mcycle, min (g.count + 1) (2 ^ 32 - 1), setBit g.causes cause true⟩
    d.setGap r (some g)

/-- An ACCESS drop disables its ring, sets its interrupt bit and raises the TRC event (R256). -/
def Dev.ringAccess (d : Dev) (r : Nat) : Dev :=
  ((d.put TRC_RING_CTL.EN 0 0 r).setIrq ⟨.TRC_IRQ_STAT, 11, 0⟩ (8 + r) TRC_IRQ.TARGET).raise 108

/-- TRACE_RECORD_ARRIVAL (R250, R251): a credit returns to the packer; the record is buffered with its ring, or dropped when the
buffer is full. -/
def traceArrivalEff (s : Nat) (x : TraceRec) (d : Dev) : Dev :=
  let d := (d.take (.trace s x)).modPacker s fun p => { p with credits := min 8 (p.credits + 1) }
  let b := x.leaf / 16
  let r := if b < 24 then d.get ⟨.TRC_BMAP, 2 * b + 1, 2 * b⟩ else 0
  if 4096 ≤ d.trace.buffer.length then d.dropRecord r 0 x
  else (d.modTrace fun t => { t with buffer := t.buffer ++ [(x, r)] }).showFill

/-- Records of a ring under way to DRAM. -/
def Dev.ringPending (d : Dev) (r : Nat) : Nat := (d.trace.inflight.filter fun w => w.ring == r).length

/-- The number of the next record of a ring. -/
def Dev.ringNext (d : Dev) (r : Nat) : Nat := d.get TRC_RING_WR.COUNT 0 r + d.ringPending r

/-- The ring is full (R252): stop mode, with WR − RD of 2^LOG2. -/
def Dev.ringFull (d : Dev) (r : Nat) : Bool :=
  !d.flag TRC_RING_CTL.MODE 0 r
  && decide ((d.ringNext r + 2 ^ 32 - d.get TRC_RING_RD.COUNT 0 r) % 2 ^ 32 = 2 ^ d.get TRC_RING_CTL.LOG2 0 r)

/-- A record as its 64-byte line (R245). -/
def traceLine (x : TraceRec) : Line :=
  let head : Word := BitVec.ofNat 64
    (x.mcycle % 2 ^ 40 + (x.leaf % 512 <<< 40) + (x.valid % 64 <<< 49) + (x.typ % 512 <<< 55))
  let word (i : Nat) : Word := x.payload.getD i 0
  let ws : List Word := x.ring :: head :: (List.range 6).map word
  ws.foldr (fun w (a : Line) => (a <<< 64) ||| w.setWidth 512) 0

/-- The gap record of an accumulator (R257). -/
def Gap.record (g : Gap) : TraceRec :=
  { ring := g.ringLo, mcycle := g.mcLo, leaf := 511, valid := 32, typ := 1
    payload := [g.ringHi, BitVec.ofNat 64 (g.mcHi % 2 ^ 40), BitVec.ofNat 64 (g.count + g.causes * 2 ^ 32), 0] }

/-- The address of record n of a ring (R252). -/
def Dev.recordAddr (d : Dev) (r n : Nat) : Nat :=
  d.get TRC_RING_BASE.ADDR 0 r * 4096 + n % 2 ^ d.get TRC_RING_CTL.LOG2 0 r * 64

/-- Write a record at the head of a ring as a full-line write through its home; false when the firewall or the map refuses it. -/
def Dev.writeRecord (d : Dev) (r : Nat) (x : TraceRec) : Bool × Dev :=
  let a := d.recordAddr r (d.ringNext r)
  let c := d.memCheck 5 0 true a
  if c != .ok || rangeOf a != .dram then (false, d.memRefused (if c == .ok then .undecoded else c) 5 0 true a)
  else
    let w := d.trace.written.find 0 r
    let d := if d.flag TRC_RING_CTL.MODE 0 r && decide (2 ^ d.get TRC_RING_CTL.LOG2 0 r ≤ w) then
      d.put TRC_RING_CTL.WRAPPED 1 0 r else d
    let d := d.modTrace fun t => { t with inflight := t.inflight ++ [⟨r, a / 64, false⟩]
                                          written := t.written.set natLt 0 r (w + 1) }
    (true, d.emit (.nonalloc ⟨.wrFull, .trace, a / 64, 0, 0, traceLine x⟩))

/-- Write the gap record of a ring that has room again (R256, R257). -/
def Dev.writeGap (d : Dev) (r : Nat) (g : Gap) : Dev :=
  match d.writeRecord r g.record with
  | (true, d) => ((d.setGap r none).bump TRC_RING_DROP.GAPS 1 0 r).setIrq ⟨.TRC_IRQ_STAT, 11, 0⟩ (4 + r) TRC_IRQ.TARGET
  | (false, d) => (d.setGap r (some { g with causes := setBit g.causes 3 true })).ringAccess r

/-- The first ring that has a gap accumulated and room for a record (R256). -/
def Dev.gapDue (d : Dev) : Option (Nat × Gap) :=
  (List.range 4).findSome? fun r => if d.flag TRC_RING_CTL.EN 0 r && !d.ringFull r then (d.gap r).map fun g => (r, g) else none

/-- TRACE_RECORD_WRITE (R251, R256, R257): a ring that has room again first gets its gap record; else the record at the head of the buffer
goes to its ring, or is dropped. -/
def traceWriteEff (d : Dev) : Dev :=
  match d.gapDue, d.trace.buffer with
  | some (r, g), _ => d.writeGap r g
  | none, [] => d
  | none, (x, r) :: rest =>
    let d := (d.modTrace fun t => { t with buffer := rest }).showFill
    if !d.flag TRC_RING_CTL.EN 0 r then d.dropRecord r 2 x
    else if d.ringFull r then d.dropRecord r 1 x
    else match d.writeRecord r x with
      | (true, d) => d
      | (false, d) => (d.dropRecord r 3 x).ringAccess r

/-- WR advances past every leading record of a ring that has received WR_COMP; reaching the watermark raises WMARK (R253, R254).
`k` bounds the records. -/
def advanceRing : Nat → Nat → Dev → Dev
  | 0, _, d => d
  | k + 1, r, d =>
    match d.trace.inflight.find? fun w => w.ring == r with
    | some w =>
      if !w.done then d
      else
        let d := d.modTrace fun t => { t with inflight := t.inflight.erase w }
        let wr := (d.get TRC_RING_WR.COUNT 0 r + 1) % 2 ^ 32
        let d := d.put TRC_RING_WR.COUNT wr 0 r
        let mark := d.get TRC_RING_CTL.WMARK 0 r
        let d := if mark ≠ 0 && (wr + 2 ^ 32 - d.get TRC_RING_RD.COUNT 0 r) % 2 ^ 32 = mark then
          d.setIrq ⟨.TRC_IRQ_STAT, 11, 0⟩ r TRC_IRQ.TARGET else d
        advanceRing k r d
    | none => d

/-- WR_COMP of a record's write (R253). -/
def Dev.traceDone (d : Dev) (line : Nat) : Dev :=
  match d.trace.inflight.find? fun w => w.line == line && !w.done with
  | none => d
  | some w =>
    let mark : List TraceWrite → List TraceWrite := fun l =>
      (l.takeWhile (· != w)) ++ { w with done := true } :: (l.dropWhile (· != w)).drop 1
    let d := d.modTrace fun t => { t with inflight := mark t.inflight }
    advanceRing d.trace.inflight.length w.ring d

/-- WR_COMP at its requester: a bough's write is done, or a trace record is in its ring (R174, R253). -/
def wrCompleteEff (dst : CohReq) (line : Nat) (poisoned : Bool) (d : Dev) : Dev :=
  match dst with
  | .trace => (d.take (.wrComp dst line poisoned)).traceDone line
  | _ => wrCompEff dst line poisoned d

/-- TRC_RING_CTL_WRITE ("When ring registers change while records are buffered"): accepted whole while EN = 0 or when it clears
EN; else LOG2 and MODE stay. Enabling sets WR to RD and clears WRAPPED and the gap accumulator. -/
def ringCtlEff (r : Nat) (value : Word) (d : Dev) : Dev :=
  if 4 ≤ r then d
  else
    let en := d.flag TRC_RING_CTL.EN 0 r
    let newEn := value.getLsbD 0
    let log2 := value.bits 7 3
    let mode := value.bits 1 1
    let legal := decide (6 ≤ log2 ∧ log2 ≤ 26)
    let d := d.put TRC_RING_CTL.WMARK (value.bits 31 8) 0 r
    let d :=
      if en && newEn then
        if (legal && log2 != d.get TRC_RING_CTL.LOG2 0 r) || mode != d.get TRC_RING_CTL.MODE 0 r then d.put TRC_STAT.CFG_IGN 1 else d
      else
        let d := if legal then d.put TRC_RING_CTL.LOG2 log2 0 r else d
        d.put TRC_RING_CTL.MODE mode 0 r
    let d := if !en && newEn then
        ((d.put TRC_RING_WR.COUNT (d.get TRC_RING_RD.COUNT 0 r) 0 r).put TRC_RING_CTL.WRAPPED 0 0 r).setGap r none
          |>.modTrace fun t => { t with written := t.written.set natLt 0 r 0 }
      else d
    d.put TRC_RING_CTL.EN (if newEn then 1 else 0) 0 r

end Sys2Proof.Machine
end

