-- ==== Sys2Proof/Machine/Memory.lean ====
section
/-!
DEFINITION. The memory controllers (spec/11): queues and the scheduler, refresh and drift, training and interleave sets, filling,
sweeps, re-initialisation, BIST, error correction, poison and the patrol scrub.
-/

namespace Sys2Proof

/-- The capacity of a DIMM in GiB. -/
def Dimm.gib (x : Dimm) : Nat :=
  (if x.x8 then 8 else 16) * (match x.density with
    | 0 => 2
    | 1 => 3
    | _ => 4) * x.ranks * x.stack

/-- The DIMM lies within the limits of R259. -/
def Dimm.supported (x : Dimm) : Bool :=
  x.rdimm && decide (x.density ≤ 2) && (x.ranks == 1 || x.ranks == 2)
  && (x.stack == 1 || ((x.stack == 2 || x.stack == 4) && !x.x8)) && decide (x.gib ≤ 256)

end Sys2Proof

namespace Sys2Proof.Machine

/-- Change a memory channel. -/
def Dev.modChannel (d : Dev) (m : Nat) (f : MemCh → MemCh) : Dev := d.setChannel m (f (d.channel m))

/-- MEM_STAT.STATE: 0 UNUSED, 1 TRAINING, 2 FILLING, 3 READY, 4 FAILED, 5 RETRAINING, 6 SELF_REFRESH, 7 QUIESCED. -/
def Dev.memState (d : Dev) (m : Nat) : Nat := d.get MEM_STAT.STATE m

/-- The channel's DRAM answers: the channel serves, and the crossing of its PHY is not broken (R207). -/
def Dev.phyServes (d : Dev) (m : Nat) : Bool :=
  d.channelPresent m && (d.memState m == 2 || d.memState m == 3 || d.memState m == 7) && !d.broken (.trunk (0x20 + m))

/-- The channel serves requests: FILLING, READY or QUIESCED. -/
def Dev.memServes (d : Dev) (m : Nat) : Bool := d.memState m == 2 || d.memState m == 3 || d.memState m == 7

/-- All three queues are empty (R274, R275). -/
def MemCh.idle (c : MemCh) : Bool := c.reads.isEmpty && c.queue.isEmpty && c.issued.isEmpty

/-- A sweep starts (R274). -/
def Dev.sweepGo (d : Dev) (m : Nat) : Dev :=
  ((d.put MEM_TRAIN.PENDING 0 m).put MEM_TRAIN.BUSY 1 m).put MEM_STAT.STATE 5 m

/-- STATE follows QUIESCE and filling. Once the queues are empty a re-initialisation resets the PHY, and a sweep that is pending starts
on a quiesced channel (R274, R277). -/
def Dev.showMem (d : Dev) (m : Nat) : Dev :=
  if !d.memServes m then d
  else if (d.channel m).reinit && (d.channel m).idle then
    (d.put MEM_STAT.STATE 5 m).modChannel m fun c => { c with reinit := false }
  else if d.flag MEM_TRAIN.PENDING m && d.flag MEM_CTL.QUIESCE m && (d.channel m).idle then d.sweepGo m
  else d.put MEM_STAT.STATE
    (if d.flag MEM_CTL.QUIESCE m && (d.channel m).idle then 7 else if d.flag MEM_INIT.DONE m then 3 else 2) m

/-- Writes held at a channel's input enter its queues in order, as far as there is room; who waits for one goes on (R171, R175). -/
def releaseWrites (m : Nat) : List MemWrite → Dev → Dev
  | [], d => d
  | w :: rest, d =>
    let c := d.channel m
    if (if w.trace then rtSlots ≤ c.rt.length else readSlots ≤ c.writes.length) then d
    else
      let d := (d.modChannel m fun c => { c with inputWrites := c.inputWrites.erase w }).acceptWrite m w
      let d := match w.who with
        | .txn q => match (d.home q).txn w.line with
          | some t => if t.writing then d.wroteTxn (resumeHome (resumeFuel d q)) q t else d
          | none => d
        | .wb b => d.emit (.wbAck b w.line true)
        | .nobody => d
      releaseWrites m rest d

/-- Requests held at the input enter the queues once nothing holds them and there is room (R266). -/
def Dev.releaseInput (d : Dev) (m : Nat) : Dev :=
  if d.channelHolds m then d
  else
    let d := releaseWrites m (d.channel m).inputWrites d
    d.modChannel m fun c =>
      let k := readSlots - c.reads.length - c.issued.length
      { c with reads := c.reads ++ c.input.take k, input := c.input.drop k }

/-! ### DRAM coordinates (R264, R265) -/

/-- The exclusive-or of the bits of a channel address that a mask selects. -/
def parityOf (ca mask : Nat) : Nat := (List.range 48).foldl (fun p i => if bit mask i && bit ca i then 1 - p else p) 0

/-- A mapped bit of a channel's address: 0 to 2 bank group, 3 and 4 bank, 5 subchannel. -/
def Dev.mappedBit (d : Dev) (m i ca : Nat) : Nat := parityOf ca (d.get MEM_XOR.MASK m i)

/-- The coordinates of a line: subchannel, rank, bank group, bank, row, burst index. -/
structure DramPlace where
  sub : Nat
  rank : Nat
  bg : Nat
  ba : Nat
  row : Nat
  burst : Nat
deriving DecidableEq, Repr

/-- The DRAM coordinates of a channel address (R264). -/
def Dev.dramPlace (d : Dev) (m ca : Nat) : DramPlace :=
  let r := d.get MEM_CFG.LRANKS_LOG2 m
  ⟨d.mappedBit m 5 ca, ca / 2 ^ 19 % 2 ^ r,
   d.mappedBit m 0 ca + 2 * d.mappedBit m 1 ca + 4 * d.mappedBit m 2 ca, d.mappedBit m 3 ca + 2 * d.mappedBit m 4 ca,
   ca / 2 ^ (19 + r), ca / 2 ^ 10 % 8 + 8 * (ca / 2 ^ 15 % 16)⟩

/-- The number of a bank among those of a channel. -/
def DramPlace.bank (p : DramPlace) : Nat := ((p.sub * 8 + p.rank) * 8 + p.bg) * 4 + p.ba

/-- The physical address of a channel address (R261, R262 inverted). -/
def Dev.addrOf (d : Dev) (m ca : Nat) : Nat :=
  let g := 2 ^ d.get MEM_IL.GRAN_LOG2 m
  d.get MEM_IL.BASE_HI m * 2 ^ 32 + (ca / g * d.get MEM_IL.N m + d.get MEM_IL.SLOT m) * g + ca % g

/-- The channel address of a line on its channel. -/
def Dev.lineCa (d : Dev) (line : Nat) : Nat := ((d.channelOf (64 * line)).map (·.2)).getD 0

/-! ### Scheduling (R267 to R271) -/

/-- A bank's row is opened by the command for a line. -/
def Dev.openRow (d : Dev) (m line : Nat) : Dev :=
  let p := d.dramPlace m (d.lineCa line)
  d.modChannel m fun c => { c with openRows := c.openRows.set natLt 0 p.bank (p.row + 1) }

/-- The line lies in the open row of its bank. -/
def Dev.rowOpen (d : Dev) (m line : Nat) : Bool :=
  let p := d.dramPlace m (d.lineCa line)
  (d.channel m).openRows.find 0 p.bank == p.row + 1

/-- The write that must be issued first for a queued write to be: an older one to its line or of its source goes before it (R267, R268). -/
def MemCh.before (c : MemCh) : Nat → QueuedWrite → QueuedWrite
  | 0, w => w
  | k + 1, w =>
    match (c.queue.takeWhile (· != w)).find? fun o => o.line == w.line || (w.src.isSome && o.src == w.src) with
    | some o => c.before k o
    | none => w

/-- A write is issued to DRAM, or the one that goes before it. DEDUCED, assumption 20. -/
def Dev.issueWrite (d : Dev) (m : Nat) (w : QueuedWrite) : Dev :=
  let w := (d.channel m).before (d.channel m).queue.length w
  let d := (d.openRow m w.line).modChannel m fun c => { c with queue := c.queue.erase w }
  d.count MEM_CNT.COUNT 1 m 1

/-- A read is issued to DRAM. -/
def Dev.issueRead (d : Dev) (m : Nat) (r : MemRead) : Dev :=
  let d := (d.openRow m r.line).modChannel m fun c => { c with reads := c.reads.erase r, issued := c.issued ++ [r] }
  d.count MEM_CNT.COUNT 1 m 0

/-- A read's line matches a queued write (R268). -/
def MemCh.blocked (c : MemCh) (r : MemRead) : Bool := c.queue.any fun w => w.line == r.line

/-- The write that a waiting read needs (R268, rule 4 of R269). -/
def MemCh.needed (c : MemCh) : Option QueuedWrite := c.reads.findSome? fun r => c.queue.find? fun w => w.line == r.line

/-- Reads that may be issued: no matching write, and no older read of the same source (R267, R268). -/
def MemCh.eligible (c : MemCh) : List MemRead :=
  c.reads.filter fun r => !c.blocked r && !(c.reads.takeWhile (· != r)).any fun o => o.src == r.src

/-- A refresh of a rank. -/
def Dev.refresh (d : Dev) (m rank : Nat) : Dev :=
  d.modChannel m fun c => { c with postponed := c.postponed.set natLt 0 rank (c.postponed.find 0 rank - 1), openRows := [] }

/-- The rank with a refresh that can no longer be postponed: more than four intervals (R271). -/
def MemCh.overdue (c : MemCh) : Option Nat := (c.postponed.find? fun p => decide (4 < p.2)).map (·.1)

/-- Count a read that waits for a matching write, once (MEM_CNT event 3). DESIGN CHOICE, assumption 22. -/
def Dev.countWaits (d : Dev) (m : Nat) : Dev :=
  let c := d.channel m
  let new := (c.reads.filter fun r => c.blocked r && !r.waited).length
  if new = 0 then d
  else (d.count MEM_CNT.COUNT new m 3).modChannel m fun c =>
    { c with reads := c.reads.map fun r => if c.blocked r then { r with waited := true } else r }

/-- Filling (R276): lines are written with zeros in increasing channel address, and FRONT rises to C. -/
def Dev.fill8 (d : Dev) (m lines : Nat) : Dev :=
  let top := d.get MEM_CFG.CAP m * 2 ^ 24
  let front := min top (d.get MEM_INIT.FRONT m + lines)
  let d := d.put MEM_INIT.FRONT front m
  if front = top then (d.put MEM_INIT.DONE 1 m).showMem m else d

/-- MEM_SCHEDULE: the next DRAM command by the first rule of R269 that has work. `lines` is how many lines a filling step
writes. -/
def memScheduleEff (m lines : Nat) (d : Dev) : Dev :=
  if !d.phyServes m then d
  else
    let d := d.countWaits m
    let c := d.channel m
    let done (d : Dev) : Dev := (d.releaseInput m).showMem m
    match c.overdue with
    | some k => done (d.refresh m k)
    | none =>
      if c.drift then done (d.modChannel m fun c => { c with drift := false })
      else match (if d.flag TRC_STAT.PANIC then c.rt.head? else none).or c.needed with
        | some w => done (d.issueWrite m w)
        | none =>
          let draining := if 48 ≤ c.writes.length then true else if c.writes.length ≤ 16 then false else c.draining
          let d := d.modChannel m fun c => { c with draining := draining }
          match if draining then c.writes.head? else none with
          | some w => done (d.issueWrite m w)
          | none =>
            let old := c.eligible.find? fun r => decide (3000 ≤ (d.ring - r.arrived).toNat)
            match (old.orElse fun _ => c.eligible.find? fun r => d.rowOpen m r.line).orElse fun _ => c.eligible.head? with
            | some r => done (d.issueRead m r)
            | none =>
              match c.queue with
              | w :: _ => done (d.issueWrite m w)
              | [] =>
                match c.postponed with
                | (k, _) :: _ => done (d.refresh m k)
                | [] => if d.memState m = 2 then done (d.fill8 m lines) else done d

/-- REFRESH_DUE (R271): a refresh interval of a rank has passed. -/
def refreshDueEff (m rank : Nat) (d : Dev) : Dev :=
  if d.channelPresent m && d.memServes m && decide (rank < 2 ^ d.get MEM_CFG.LRANKS_LOG2 m) then
    d.modChannel m fun c => { c with postponed := c.postponed.set natLt 0 rank (c.postponed.find 0 rank + 1) }
  else d

/-- DRAM_TEMP_POLL (R271): above 85 °C the interval is halved; above 95 °C the channel raises its event. -/
def tempPollEff (m tempC : Nat) (d : Dev) : Dev :=
  if !d.channelPresent m || !d.memServes m then d
  else
    let d := d.put MEM_STAT.HOT (if 85 < tempC then 1 else 0) m
    if 95 < tempC then d.raise (58 + m) else d

/-- DRIFT_TRACK (R273): a tracking slot is due. -/
def driftEff (m : Nat) (d : Dev) : Dev :=
  if d.channelPresent m && (d.memState m == 2 || d.memState m == 3) then d.modChannel m fun c => { c with drift := true } else d

/-! ### Interleave sets, training and filling (R259 to R261, R272, R276) -/

/-- The data rate of a channel: the highest of R259 that every DIMM supports. -/
def channelRate (l : List Dimm) : Option Nat :=
  (if l.length = 1 then [80, 72, 64, 56, 48] else [64, 56, 48]).find? fun r => l.all fun x => x.rates.contains r

/-- The logical ranks of a channel as a power of two, when R259 allows their number. -/
def channelRanks (l : List Dimm) : Option Nat :=
  let n := (l.map fun x => x.ranks * x.stack).foldl (· + ·) 0
  if n = 1 then some 0 else if n = 2 then some 1 else if n = 4 then some 2 else if n = 8 then some 3 else none

/-- The two DIMMs of a channel are identical where R260 asks for it. -/
def dimmsAgree : List Dimm → Bool
  | [a, b] => a.x8 == b.x8 && a.density == b.density && a.ranks == b.ranks && a.stack == b.stack
  | _ => true

/-- A channel fails with a cause: its event is raised, and what waits at it is answered with poison (R272, R277). -/
def Dev.memFail (d : Dev) (m cause : Nat) : Dev :=
  let c := d.channel m
  let d := ((d.put MEM_STAT.STATE 4 m).put MEM_STAT.CAUSE cause m).raise (58 + m)
  let d := ((d.put MEM_TRAIN.BUSY 0 m).put MEM_TRAIN.PENDING 0 m).modChannel m fun c =>
    { c with reads := [], issued := [], input := [], inputWrites := [], queue := [], reinit := false }
  let d := c.inputWrites.foldl (fun d w => match w.who with
    | .txn q => match (d.home q).txn w.line with
      | some t => if t.writing then d.wroteTxn (resumeHome (resumeFuel d q)) q { t with poison := true } else d
      | none => d
    | .wb b => d.emit (.wbAck b w.line true)
    | .nobody => d) d
  (c.issued ++ c.reads ++ c.input).foldl (fun d r => d.memoryData (resumeHome (resumeFuel d r.home)) r.home r.line ⟨0, true⟩) d

/-- Some channel of an interleave set still trains. -/
def Dev.setTraining (d : Dev) (global : Bool) (crown : Nat) : Bool :=
  (List.range 16).any fun m => d.channelPresent m && d.memState m == 1 && (global || m / 4 == crown)

/-- A channel's own capacity in GiB. -/
def Dev.ownCap (d : Dev) (m : Nat) : Nat := ((d.channel m).dimms.map Dimm.gib).foldl (· + ·) 0

/-- A channel of a closed set begins to fill, or keeps its contents (R276). -/
def Dev.beginFill (d : Dev) (m : Nat) : Dev :=
  let c := d.channel m
  let cap := d.get MEM_CFG.CAP m
  let d := d.modChannel m fun c => { c with keep := false, saved := [], savedPoison := [] }
  if c.keep then
    let d := c.saved.foldl (fun d p => d.setByte (d.addrOf m p.1) p.2) d
    let d := c.savedPoison.foldl (fun d l => d.setMemLine (d.addrOf m (64 * l) / 64)
      { d.memLine (d.addrOf m (64 * l) / 64) with poison := true }) d
    let front := min c.front (cap * 2 ^ 24)
    let d := (d.put MEM_STAT.KEPT 1 m).put MEM_INIT.FRONT front m
    if front = cap * 2 ^ 24 then (d.put MEM_INIT.DONE 1 m).put MEM_STAT.STATE 3 m else d.put MEM_STAT.STATE 2 m
  else ((d.put MEM_INIT.FRONT 0 m).put MEM_INIT.DONE 0 m).put MEM_STAT.STATE 2 m

/-- Once no channel of a set trains, the set closes up around those that have not failed (R261): MEM_IL and CAP are published and
each channel fills or keeps its contents. -/
def Dev.closeSet (d : Dev) (global : Bool) (crown : Nat) : Dev :=
  if d.setTraining global crown then d
  else
    let set := (List.range 16).filter fun m =>
      d.channelPresent m && (global || m / 4 == crown) && !(d.channel m).dimms.isEmpty && d.memState m == 2
        && d.get MEM_IL.N m == 0
    let caps := set.map d.ownCap
    let cap := caps.foldl min (caps.headD 0)
    let d := (set.zipIdx).foldl (fun d p =>
      let d := (((d.put MEM_IL.N set.length p.1).put MEM_IL.SLOT p.2 p.1).put MEM_IL.GRAN_LOG2 (if global then 12 else 8) p.1).put
        MEM_IL.BASE_HI (if global then 0 else crown * 2 ^ 9) p.1
      d.put MEM_CFG.CAP cap p.1) d
    set.foldl (fun d m => d.beginFill m) d

/-- MEM_TRAINING_DONE (R260, R272, R276): the SPD and the limits are checked, the configuration is published, and the set closes
when its last channel has trained. -/
def memTrainedEff (m : Nat) (r : MemTrain) (d : Dev) : Dev :=
  if !d.channelPresent m || d.memState m ≠ 1 then d
  else
    let crown := m / 4
    let global := d.flag TRK_CAP.GIL
    let old := (d.channel m).dimms
    let d := d.put MEM_CFG.DIMMS r.dimms.length m
    let d := match r.dimms with
      | [] => d.memFail m 1
      | a :: _ =>
        match channelRate r.dimms, channelRanks r.dimms with
        | some rate, some ranks =>
          if !r.dimms.all Dimm.supported || !dimmsAgree r.dimms || 2 < r.dimms.length then d.memFail m 2
          else if r.fail ≠ 0 then d.memFail m r.fail
          else
            let d := d.modChannel m fun c => { c with dimms := r.dimms, keep := c.keep && old == r.dimms }
            let d := ((((d.put MEM_CFG.RATE rate m).put MEM_CFG.DENSITY a.density m).put MEM_CFG.WIDTH
              (if a.x8 then 1 else 0) m).put MEM_CFG.LRANKS_LOG2 ranks m).put MEM_CFG.CAP (d.ownCap m) m
            d.put MEM_STAT.STATE 2 m
        | _, _ => d.memFail m 2
    d.closeSet global crown

/-! ### Sweeps, re-initialisation, quiescing and BIST (R274, R275, R277) -/

/-- MEM_TRAIN_REQUEST (R274). -/
def memTrainRequestEff (m : Nat) (d : Dev) : Dev :=
  if !d.channelPresent m || !d.memServes m || d.flag MEM_TRAIN.PENDING m || d.flag MEM_TRAIN.BUSY m then d
  else if d.flag MEM_CTL.QUIESCE m && (d.channel m).idle then d.sweepGo m
  else d.put MEM_TRAIN.PENDING 1 m

/-- MEM_SWEEP_START (R274): a pending sweep finds the queues empty. -/
def memSweepStartEff (m : Nat) (d : Dev) : Dev :=
  if d.channelPresent m && d.flag MEM_TRAIN.PENDING m && d.memServes m && (d.channel m).idle then d.sweepGo m else d

/-- The channel serves again after a sweep or a re-initialisation. -/
def Dev.memResume (d : Dev) (m : Nat) : Dev :=
  let d := (d.put MEM_TRAIN.BUSY 0 m).put MEM_STAT.STATE (if d.flag MEM_INIT.DONE m then 3 else 2) m
  (d.releaseInput m).showMem m

/-- MEM_SWEEP_DONE (R272, R274): a step that cannot complete makes the channel FAILED. -/
def memSweepDoneEff (m cause : Nat) (d : Dev) : Dev :=
  if !d.channelPresent m || !d.flag MEM_TRAIN.BUSY m || d.memState m ≠ 5 then d
  else
    let d := (d.put MEM_TRAIN.LAST cause m).bump MEM_TRAIN.SWEEPS 1 m
    if cause = 0 then d.memResume m else d.memFail m cause

/-- MEM_REINIT (R277): requests are held, and once the queues have drained the PHY is reset. -/
def memReinitEff (m : Nat) (d : Dev) : Dev :=
  if !d.channelPresent m || !d.memServes m || d.flag MEM_TRAIN.BUSY m then d
  else
    (((d.put MEM_TRAIN.BUSY 1 m).put MEM_TRAIN.PENDING 0 m).modChannel m fun c => { c with reinit := true }).showMem m

/-- MEM_REINIT_DONE (R277). -/
def memReinitDoneEff (m : Nat) (ok : Bool) (d : Dev) : Dev :=
  if !d.channelPresent m || !d.flag MEM_TRAIN.BUSY m || d.memState m ≠ 5 then d
  else if ok then d.memResume m
  else d.memFail m 7

/-- MEM_QUIESCE: a write of MEM_CTL.QUIESCE (R275). -/
def memQuiesceEff (m : Nat) (on : Bool) (d : Dev) : Dev :=
  if !d.channelPresent m || d.memState m = 0 then d
  else
    ((d.put MEM_CTL.QUIESCE (if on then 1 else 0) m).releaseInput m).showMem m

/-- MEM_BIST (R275): refused with BUSY unless the channel is quiesced and empty. -/
def memBistEff (m : Nat) (all : Bool) (rank : Nat) (d : Dev) : Dev :=
  if !d.channelPresent m || d.memState m = 0 || d.flag MEM_BIST.BUSY m then d
  else
    let d := (d.put MEM_BIST.ALL (if all then 1 else 0) m).put MEM_BIST.RANK rank m
    if d.flag MEM_CTL.QUIESCE m && (d.channel m).idle && d.memServes m then (d.put MEM_BIST.BUSY 1 m).put MEM_BIST.DONE 0 m
    else (d.put MEM_BIST.DONE 1 m).put MEM_BIST.STATUS 1 m

/-- Bytes of memory that a predicate on addresses selects become zero with valid check bits. -/
def Dev.zeroWhere (d : Dev) (p : Nat → Bool) : Dev :=
  { d with mem := d.mem.filter fun e => !p e.1, poison := d.poison.filter fun l => !p (64 * l) }

/-- MEM_BIST_DONE (R275): the tested ranks hold zero with valid check bits. -/
def memBistDoneEff (m : Nat) (pass : Bool) (d : Dev) : Dev :=
  if !d.channelPresent m || !d.flag MEM_BIST.BUSY m then d
  else
    let covered (a : Nat) : Bool := match d.channelOf a with
      | some (k, ca) => k == m && (d.flag MEM_BIST.ALL m || (d.dramPlace m ca).rank == d.get MEM_BIST.RANK m) && rangeOf a == .dram
      | none => false
    let d := d.zeroWhere covered
    let d := ((d.put MEM_BIST.BUSY 0 m).put MEM_BIST.DONE 1 m).put MEM_BIST.STATUS (if pass then 0 else 2) m
    (d.releaseInput m).showMem m

/-! ### Error correction (R278 to R282) -/

/-- Log the first error of any kind: KIND 1 CE, 2 RETRY_OK, 3 UE, 4 SCRUB_CE, 5 SCRUB_UE. -/
def Dev.eccLog (d : Dev) (m line kind device : Nat) : Dev :=
  if d.flag MEM_ECC_LOG.VALID m then d
  else
    let p := d.dramPlace m (d.lineCa line)
    let d := (((d.put MEM_ECC_LOG.VALID 1 m).put MEM_ECC_LOG.KIND kind m).put MEM_ECC_LOG.DEVICE device m).put MEM_ECC_LOG.SUB p.sub m
    let d := (((d.put MEM_ECC_LOG.RANK p.rank m).put MEM_ECC_LOG.BG p.bg m).put MEM_ECC_LOG.BA p.ba m).put MEM_ECC_LOG.ROW p.row m
    (d.put MEM_ECC_LOG.BURST p.burst m).put MEM_ECC_ADDR.ADDR line m

/-- Count a corrected error, and compare with the threshold of the window (R282). -/
def Dev.countCe (d : Dev) (m : Nat) : Dev :=
  let d := (d.bump MEM_ECC_CNT.CE 1 m).modChannel m fun c => { c with ceWindow := c.ceWindow + 1 }
  let c := d.channel m
  let th := d.get MEM_CE_CTL.THRESH m
  if th ≠ 0 && !c.ceHit && th ≤ c.ceWindow then
    ((d.put MEM_STAT.CE_THR 1 m).raise (58 + m)).modChannel m fun c => { c with ceHit := true }
  else d

/-- CE_WINDOW: a window of 2^WIN ticks ends (R282). -/
def ceWindowEff (m : Nat) (d : Dev) : Dev :=
  if d.channelPresent m then d.modChannel m fun c => { c with ceWindow := 0, ceHit := false } else d

/-- An uncorrectable error: counted, logged and raised, and the line holds the poison codeword (R279, R281). -/
def Dev.memUe (d : Dev) (m line kind device : Nat) : Dev :=
  let d := d.storeLine line { d.memLine line with poison := true }
  (((d.bump MEM_ECC_CNT.UE 1 m).put MEM_STAT.UE 1 m).eccLog m line kind device).raise (58 + m) { addr := 64 * line, mkind := 2, mid := m }

/-- DRAM_READ_RETURN (R279, R280): the oldest read issued returns with its data, corrected or poisoned, to its home. -/
def dramReadEff (m : Nat) (ecc : EccOutcome) (device : Nat) (d : Dev) : Dev :=
  match (d.channel m).issued with
  | [] => d
  | r :: rest =>
    if !d.phyServes m then d
    else
      let d := d.modChannel m fun c => { c with issued := rest }
      let poisoned := (d.memLine r.line).poison
      let d := if poisoned then d
        else match ecc with
          | .ok => d
          | .ce => (d.countCe m).eccLog m r.line 1 device
          | .retryOk => (d.bump MEM_ECC_CNT.RETRY_OK 1 m).eccLog m r.line 2 device
          | .ue => d.memUe m r.line 3 device
      (d.memoryData (resumeHome (resumeFuel d r.home)) r.home r.line (d.memLine r.line)).showMem m

/-- PATROL_SCRUB of the line at a channel address (R281). The last line below FRONT ends a pass. -/
def patrolEff (m ca : Nat) (ecc : EccOutcome) (device : Nat) (d : Dev) : Dev :=
  let front := d.get MEM_INIT.FRONT m
  if !d.channelPresent m || !d.memServes m || d.get MEM_SCRUB.PERIOD_H m = 0 || front ≤ ca / 64 then d
  else
    let line := d.addrOf m ca / 64
    let d := if (d.memLine line).poison then d
      else match ecc with
        | .ok => d
        | .ce | .retryOk => (d.countCe m).eccLog m line 4 device
        | .ue => d.memUe m line 5 device
    if ca / 64 + 1 = front then d.bump MEM_SCRUB.PASSES 1 m else d

end Sys2Proof.Machine
end

