-- ==== Sys2Proof/Machine/Ttu.lean ====
section
/-!
DEFINITION. The trunk translation unit (spec/12, R292 to R310): device contexts, the two stages of translation, walks and their
faults, MSI remapping, the fault and page request queues, stall slots, ATS and PRI, translation caches and invalidation.
A walk is a function of the entries read so far: it asks for the next entry, or faults, or ends. Each read of an entry is given
to the walk once, so no entry is formed from two versions.
-/

namespace Sys2Proof.Machine

/-- Bits [hi:lo] of a number. -/
def natBits (v hi lo : Nat) : Nat := v / 2 ^ lo % 2 ^ (hi - lo + 1)

/-! ### The walk as a function of the entries read -/

/-- A device context (R294), with the device it is of. -/
structure TtuCtx where
  s1 : Bool := false
  s2 : Bool := false
  ats : Bool := false
  pri : Bool := false
  stall : Bool := false
  msi : Bool := false
  ptLog2 : Nat := 0
  defPasid : Nat := 0
  ptBase : Nat := 0
  s2Root : Nat := 0
  gscid : Nat := 0
  msiPage : Nat := 0
  irtLog2 : Nat := 0
  irtBase : Nat := 0
deriving DecidableEq, Repr

/-- Where in a walk an entry lies (R302): STAGE, LEVEL, and for stage 2 whether within a stage-1 walk, its level, and the guest
physical address. -/
structure WalkAt where
  stage : Nat := 0
  level : Nat := 0
  inS1 : Bool := false
  s1Level : Nat := 0
  gpa : Nat := 0
deriving DecidableEq, Repr

/-- An entry that a walk needs: its host physical address and size, its table, its tags in the caches, where it lies, and the context
and PASID of the request as far as they are known. -/
structure WalkRead where
  addr : Nat
  bytes : Nat
  table : TtuTable
  pasid : Nat := 0
  gscid : Nat := 0
  key : Nat := 0
  place : WalkAt := {}
  ctx : TtuCtx := {}
  used : Nat := 0
deriving DecidableEq, Repr

/-- What a walk comes to: an entry to read, a fault, an abort without a record, a translation with its page size and permissions,
an MSI with its target word, or a page request that its context accepts. -/
inductive WalkEnd where
  | read (r : WalkRead)
  | fault (cause : Nat) (place : WalkAt) (ctx : TtuCtx) (pasid : Nat)
  | silent
  | translated (hpa log2 : Nat) (r w : Bool) (ctx : TtuCtx)
  | msi (target : Nat)
  | discard
  | pageOk
deriving DecidableEq, Repr

/-- The entries read so far: `look a` is the entry at host physical address a. -/
abbrev Look := Nat → Option Nat

/-- The entry at an address, or the read of it. -/
def need (look : Look) (r : WalkRead) : Except WalkEnd Nat :=
  match look r.addr with
  | some v => .ok v
  | none => .error (.read r)

/-- A word of a device context with a bit outside those listed (R294). -/
def ctxReserved (v : Nat) : Bool :=
  let w (i : Nat) : Nat := natBits v (64 * i + 63) (64 * i)
  natBits (w 0) 7 7 != 0 || natBits (w 0) 15 13 != 0 || natBits (w 0) 63 36 != 0
  || natBits (w 1) 11 0 != 0 || natBits (w 1) 63 48 != 0 || natBits (w 2) 11 0 != 0
  || natBits (w 3) 11 0 != 0 || natBits (w 3) 63 48 != 0 || natBits (w 4) 11 4 != 0 || natBits (w 4) 63 48 != 0
  || v / 2 ^ 320 != 0

/-- A device context from its 64 bytes. -/
def ctxOf (v : Nat) : TtuCtx :=
  let w (i hi lo : Nat) : Nat := natBits v (64 * i + hi) (64 * i + lo)
  { s1 := w 0 1 1 == 1, s2 := w 0 2 2 == 1, ats := w 0 3 3 == 1, pri := w 0 4 4 == 1 && w 0 3 3 == 1, stall := w 0 5 5 == 1
    msi := w 0 6 6 == 1, ptLog2 := w 0 12 8, defPasid := w 0 35 16, ptBase := w 1 47 12, s2Root := w 2 47 12
    gscid := w 2 63 48, msiPage := w 3 47 12, irtLog2 := w 4 3 0, irtBase := w 4 47 12 }

/-- The context of a device (R293, R294); `base` is its segment's level-1 directory. -/
def findCtx (look : Look) (base rid pasid : Nat) : Except WalkEnd TtuCtx := do
  let bad : WalkEnd := .fault 1 {} {} pasid
  let l1 ← need look { addr := base * 4096 + 8 * (rid / 256 % 256), bytes := 8, table := .directory, used := pasid }
  if natBits l1 0 0 = 0 || natBits l1 11 1 != 0 || natBits l1 63 48 != 0 then throw bad
  let v ← need look { addr := natBits l1 47 12 * 4096 + 64 * (rid % 256), bytes := 64, table := .context, used := pasid }
  if natBits v 0 0 = 0 || ctxReserved v then throw bad
  return ctxOf v

/-- An entry of R299 that is not valid at its level: `last` is level 1, `top` the root level of stage 2, where no leaf may lie. -/
def pteBad (e level : Nat) (top : Bool) : Bool :=
  let leaf := natBits e 2 1 != 0
  natBits e 0 0 = 0 || natBits e 5 3 != 0 || natBits e 63 48 != 0
  || (leaf && (natBits e 2 1 = 2 || top || natBits e 47 12 % 2 ^ (9 * (level - 1)) != 0))
  || (!leaf && (level = 1 || natBits e 7 6 != 0))

/-- Access needed: reads, writes (R300). -/
structure Need where
  r : Bool
  w : Bool
deriving DecidableEq, Repr

/-- A permission that an entry lacks. -/
def lacks (n : Need) (r w : Bool) : Bool := (n.r && !r) || (n.w && !w)

/-- A step of a translation: the address, the logarithm of the page size, and what is permitted; `w` is false where D is clear. -/
structure Mapped where
  addr : Nat
  log2 : Nat
  r : Bool
  w : Bool
deriving DecidableEq, Repr

/-- The stage-2 walk from a level down (R298, R299). -/
def stage2From (look : Look) (c : TtuCtx) (pasid gpa : Nat) (n : Need) (place : WalkAt) : Nat → Nat → Except WalkEnd Mapped
  | 0, _ => .error .silent
  | level + 1, table => do
    let l := level + 1
    let place := { place with stage := 2, level := l, gpa := gpa }
    let e ← need look { addr := table * 4096 + 8 * natBits gpa (20 + 9 * level) (12 + 9 * level), bytes := 8, table := .page2 l
                        gscid := c.gscid, key := gpa, place := place, ctx := c, used := pasid }
    if pteBad e l (l == 4) then throw (.fault 1 place c pasid)
    if natBits e 2 1 = 0 then stage2From look c pasid gpa n place level (natBits e 47 12)
    else
      let (r, w) := (natBits e 1 1 == 1, natBits e 2 2 == 1)
      if lacks n r w then throw (.fault 2 place c pasid)
      if natBits e 6 6 = 0 || (n.w && natBits e 7 7 = 0) then throw (.fault 4 place c pasid)
      let log2 := 12 + 9 * level
      return ⟨natBits e 47 12 * 4096 + gpa % 2 ^ log2, log2, r, w && natBits e 7 7 == 1⟩

/-- Stage 2 of a guest physical address; without it the address is the host's. -/
def stage2 (look : Look) (c : TtuCtx) (pasid gpa : Nat) (n : Need) (place : WalkAt) : Except WalkEnd Mapped :=
  if c.s2 then stage2From look c pasid gpa n place 4 c.s2Root else .ok ⟨gpa, 48, true, true⟩

/-- An entry of a stage-1 table at a guest physical address (R298). -/
def needS1 (look : Look) (c : TtuCtx) (pasid gpa bytes : Nat) (table : TtuTable) (key level : Nat) : Except WalkEnd Nat := do
  let m ← stage2 look c pasid gpa ⟨true, false⟩ { inS1 := true, s1Level := level }
  need look { addr := m.addr, bytes := bytes, table := table, pasid := pasid, key := key
              place := { stage := 1, level := level }, ctx := c, used := pasid }

/-- The stage-1 page walk from a level down (R297, R299). -/
def stage1From (look : Look) (c : TtuCtx) (pasid iova : Nat) (n : Need) : Nat → Nat → Except WalkEnd Mapped
  | 0, _ => .error .silent
  | level + 1, table => do
    let l := level + 1
    let place : WalkAt := { stage := 1, level := l }
    let e ← needS1 look c pasid (table * 4096 + 8 * natBits iova (20 + 9 * level) (12 + 9 * level)) 8 (.page1 l) iova l
    if pteBad e l false then throw (.fault 1 place c pasid)
    if natBits e 2 1 = 0 then stage1From look c pasid iova n level (natBits e 47 12)
    else
      let (r, w) := (natBits e 1 1 == 1, natBits e 2 2 == 1)
      if lacks n r w then throw (.fault 2 place c pasid)
      if natBits e 6 6 = 0 || (n.w && natBits e 7 7 = 0) then throw (.fault 4 place c pasid)
      let log2 := 12 + 9 * level
      return ⟨natBits e 47 12 * 4096 + iova % 2 ^ log2, log2, r, w && natBits e 7 7 == 1⟩

/-- Stage 1 (R296, R297). -/
def stage1 (look : Look) (c : TtuCtx) (pasid iova : Nat) (n : Need) : Except WalkEnd Mapped := do
  let atPasid : WalkAt := { stage := 0, level := 1 }
  let atSeg : WalkAt := { stage := 1, level := 5 }
  if !c.s1 then return ⟨iova, 48, true, true⟩
  if 2 ^ c.ptLog2 ≤ pasid then throw (.fault 1 atPasid c pasid)
  let p ← need look { addr := c.ptBase * 4096 + 16 * pasid, bytes := 16, table := .pasid, pasid := pasid
                      place := atPasid, ctx := c, used := pasid }
  if natBits p 0 0 = 0 || natBits p 12 1 != 0 || p / 2 ^ 64 != 0 then throw (.fault 1 atPasid c pasid)
  let s ← needS1 look c pasid (natBits p 47 13 * 8192 + 16 * natBits iova 47 39) 16 .segment iova 5
  if natBits s 0 0 = 0 || natBits s 7 4 != 0 || natBits s 63 35 != 0 || natBits s 75 64 != 0 || natBits s 127 112 != 0 then
    throw (.fault 1 atSeg c pasid)
  if natBits s 34 8 < natBits iova 38 12 then throw (.fault 3 atSeg c pasid)
  let (r, w) := (natBits s 1 1 == 1, natBits s 2 2 == 1)
  if lacks n r w then throw (.fault 2 atSeg c pasid)
  if natBits s 3 3 = 0 then
    let gpa := natBits s 111 76 * 4096 + natBits iova 38 0
    if 2 ^ 48 ≤ gpa then throw (.fault 3 atSeg c pasid)
    return ⟨gpa, 12, r, w⟩
  else
    let m ← stage1From look c pasid iova n 3 (natBits s 111 76)
    return { m with r := m.r && r, w := m.w && w }

/-- Both stages: the host physical address, with the smaller page size and the permissions common to all (R300, R307). -/
def translate (look : Look) (c : TtuCtx) (pasid iova : Nat) (n : Need) : Except WalkEnd WalkEnd := do
  if 2 ^ 48 ≤ iova then throw (.fault 3 { stage := 1, level := 5 } c pasid)
  let m ← stage1 look c pasid iova n
  let h ← stage2 look c pasid m.addr n {}
  let log2 := min m.log2 h.log2
  return .translated h.addr (if log2 = 48 then 12 else log2) (m.r && h.r) (m.w && h.w) c

/-- The interrupt table entry of an MSI (R295). -/
def remapMsi (look : Look) (c : TtuCtx) (data : Nat) : Except WalkEnd WalkEnd := do
  let place : WalkAt := { stage := 0, level := 2 }
  if 2 ^ c.irtLog2 ≤ data then throw (.fault 1 place c c.defPasid)
  let e ← need look { addr := c.irtBase * 4096 + 8 * data, bytes := 8, table := .interrupt, place := place, ctx := c
                      used := c.defPasid }
  return .msi (e % 2 ^ 32)

/-- What a request needs. -/
def devNeed (r : DevReq) : Need :=
  match r.op with
  | .read => ⟨true, false⟩
  | .write => ⟨false, true⟩
  | _ => ⟨true, true⟩

/-- The whole walk of a job (R292 to R300, R306, R307). `ddt` gives the level-1 directory of a segment whose EN is set. -/
def ttuWalk (ddt : Nat → Option Nat) (look : Look) (job : TtuJob) : Except WalkEnd WalkEnd := do
  match job with
  | .access r =>
    match ddt r.seg with
    | none => throw .silent
    | some base =>
      let c ← findCtx look base r.rid (r.pasid.getD 0)
      let pasid := r.pasid.getD c.defPasid
      if r.translated then
        if c.ats then return .translated r.addr 12 true true c else throw (.fault 1 {} c pasid)
      if c.msi && r.addr / 4096 == c.msiPage then
        if r.op == .write && r.size == 4 && r.pasid.isNone && r.addr % 4096 == 0 then remapMsi look c (r.value % 2 ^ 32)
        else throw (.fault 1 { stage := 0, level := 2 } c pasid)
      else translate look c pasid r.addr (devNeed r)
  | .ats r =>
    match ddt r.seg with
    | none => throw .silent
    | some base =>
      let c ← findCtx look base r.rid (r.pasid.getD 0)
      let pasid := r.pasid.getD c.defPasid
      if !c.ats then throw (.fault 1 {} c pasid)
      if c.msi && r.addr / 4096 == c.msiPage then throw (.fault 1 { stage := 0, level := 2 } c pasid)
      translate look c pasid r.addr (devNeed r)
  | .page p =>
    match ddt p.seg with
    | none => throw .silent
    | some base =>
      let c ← findCtx look base p.rid (p.pasid.getD 0)
      if c.pri then return .pageOk else return .discard
  | .msi seg rid data =>
    match ddt seg with
    | none => throw .silent
    | some base =>
      let c ← findCtx look base rid 0
      if c.msi then remapMsi look c data else return .discard

/-- The device of a job. -/
def TtuJob.device : TtuJob → Nat × Nat
  | .access r => (r.seg, r.rid)
  | .ats r => (r.seg, r.rid)
  | .page p => (p.seg, p.rid)
  | .msi seg rid _ => (seg, rid)

/-- The job writes. -/
def TtuJob.writes : TtuJob → Bool
  | .access r | .ats r => (devNeed r).w
  | .page _ => false
  | .msi .. => true

/-! ### Caches (R308) -/

/-- Change the translation unit. -/
def Dev.modTtu (d : Dev) (f : Ttu → Ttu) : Dev := { d with ttu := f d.ttu }

/-- The level-1 directory of a segment whose EN is set. -/
def Dev.ttuDdt (d : Dev) (seg : Nat) : Option Nat :=
  if seg < 9 && d.flag TTU_DDT.EN 0 seg then some (d.get TTU_DDT.BASE 0 seg) else none

/-- A cached copy of an entry that a walk may use. -/
def Dev.ttuCached (d : Dev) (job : TtuJob) (r : WalkRead) : Option TtuCached :=
  let (seg, rid) := job.device
  d.ttu.cache.find? fun c =>
    c.table == r.table && c.addr == r.addr && c.gscid == r.gscid && c.pasid == r.pasid && !(c.noWrite && job.writes)
    && (match r.table with
        | .page2 _ => true
        | _ => c.seg == seg && c.rid == rid)

/-- A read entry goes into the caches: only a valid one, and no leaf with A = 0; a leaf with D = 0 serves reads only. -/
def Dev.ttuFill (d : Dev) (job : TtuJob) (r : WalkRead) (v : Nat) : Dev :=
  let (seg, rid) := job.device
  let leaf := match r.table with
    | .page1 _ | .page2 _ => natBits v 2 1 != 0
    | _ => false
  let valid := r.table == .interrupt || natBits v 0 0 == 1
  if !valid || (leaf && natBits v 6 6 = 0) then d
  else
    let c : TtuCached := { table := r.table, seg := seg, rid := rid, pasid := r.pasid, gscid := r.gscid, key := r.key
                           addr := r.addr, value := v, noWrite := leaf && natBits v 7 7 = 0 }
    d.modTtu fun t => { t with cache := c :: t.cache.filter fun x =>
      !(x.table == c.table && x.addr == c.addr && x.seg == seg && x.rid == rid && x.pasid == c.pasid && x.gscid == c.gscid) }

/-- The range of addresses that an entry covers, as the logarithm of its size: what an invalidation by range compares. -/
def TtuTable.log2 : TtuTable → Nat
  | .segment => 39
  | .page1 l | .page2 l => 12 + 9 * (l - 1)
  | _ => 64

/-- The invalidation covers a cached entry (R310; the OP codes of TTU_INV_CMD). -/
def TtuInval.covers (i : TtuInval) (c : TtuCached) : Bool :=
  let isS2 := match c.table with
    | .page2 _ => true
    | _ => false
  let device (seg rid : Nat) : Bool := !isS2 && c.seg == seg && c.rid == rid
  let inPasid (p : Option Nat) : Bool := match p with
    | some p => c.pasid == p
    | none => true
  let meets (lo hi : Nat) : Bool :=
    let b := c.table.log2
    decide (c.key / 2 ^ b * 2 ^ b ≤ hi ∧ lo < c.key / 2 ^ b * 2 ^ b + 2 ^ b)
  let tagged := c.table != .directory && c.table != .context && c.table != .interrupt
  match i with
  | .context seg rid => device seg rid
  | .pasid seg rid p => device seg rid && tagged && inPasid p
  | .range seg rid p lo hi => device seg rid && tagged && inPasid p && meets lo hi
  | .stage2 g lo hi => isS2 && c.gscid == g && meets lo hi
  | .all => true

/-- Drop what an invalidation covers. -/
def Dev.ttuDrop (d : Dev) (i : TtuInval) : Dev :=
  d.modTtu fun t => { t with cache := t.cache.filter fun c => !i.covers c }

/-! ### Queues (R303, R306) -/

/-- The host physical address lies in a walkable range that counts (R301): one with EN = 1, wholly within the DRAM window or CXL
memory. -/
def Dev.walkable (d : Dev) (a : Nat) : Bool :=
  (List.range 4).any fun w =>
    let lo := d.get TTU_WALK_BASE.ADDR 0 w * 4096
    let hi := d.get TTU_WALK_LIMIT.ADDR 0 w * 4096 + 4095
    d.flag TTU_WALK_BASE.EN 0 w && decide (lo ≤ a ∧ a ≤ hi) && mainMemory lo && rangeOf lo == rangeOf hi

/-- Write bytes from an address as an agent that keeps no copy, line by line (R170). `fuel` bounds the lines. -/
def Dev.cohBytes (d : Dev) : Nat → Nat → Nat → Nat → Dev
  | 0, _, _, _ => d
  | fuel + 1, a, v, n =>
    if n = 0 then d
    else
      let off := a % 64
      let k := min n (64 - off)
      let x : Line := BitVec.ofNat 512 (v % 256 ^ k * 256 ^ off)
      let d := if k = 64 then d.cohWrite (a / 64) x else d.cohWritePart (a / 64) ((2 ^ k - 1) * 2 ^ off) x
      d.cohBytes fuel (a + k) (v / 256 ^ k) (n - k)

/-- Read bytes from an address as an agent that keeps no copy: the bytes little-endian, and whether a line was poisoned. -/
def Dev.cohFetch (d : Dev) : Nat → Nat → Nat → Nat × Bool
  | 0, _, _ => (0, false)
  | fuel + 1, a, n =>
    if n = 0 then (0, false)
    else
      let off := a % 64
      let k := min n (64 - off)
      let x := d.cohRead (a / 64)
      let (v, p) := d.cohFetch fuel (a + k) (n - k)
      (x.data.toNat / 256 ^ off % 256 ^ k + v * 256 ^ k, x.poison || p)

/-- The registers of a queue. -/
structure TtuQueue where
  en : Fld
  base : Fld
  log2 : Fld
  tail : Fld
  head : Fld
  size : Nat
  irq : Fld
deriving DecidableEq, Repr

/-- The fault queue. -/
def faultQueue : TtuQueue :=
  ⟨TTU_FQ_BASE.EN, TTU_FQ_BASE.ADDR, TTU_FQ_BASE.LOG2, TTU_FQ_TAIL.COUNT, TTU_FQ_HEAD.COUNT, 32, TTU_IRQ_STAT.FQ⟩

/-- The page request queue. -/
def pageQueue : TtuQueue :=
  ⟨TTU_PQ_BASE.EN, TTU_PQ_BASE.ADDR, TTU_PQ_BASE.LOG2, TTU_PQ_TAIL.COUNT, TTU_PQ_HEAD.COUNT, 16, TTU_IRQ_STAT.PQ⟩

/-- Set a bit of TTU_IRQ_STAT. -/
def Dev.ttuIrq (d : Dev) (f : Fld) : Dev := d.setIrq ⟨.TTU_IRQ_STAT, 2, 0⟩ f.lo TTU_IRQ.TARGET

/-- Write a record to a queue; none when the queue is disabled, full or refused, and the record is dropped. The write and its
count are one step. -/
def Dev.ttuRecord (d : Dev) (q : TtuQueue) (record : Nat) : Option Dev × Dev :=
  let tail := d.get q.tail
  let head := d.get q.head
  let n := 2 ^ d.get q.log2
  let a := d.get q.base * 4096 + tail % n * q.size
  if !d.flag q.en || (tail + 2 ^ 32 - head) % 2 ^ 32 = n then (none, d)
  else
    let c := d.memCheck 4 0 true a
    if c != .ok || rangeOf a != .dram then (none, d.memRefused (if c == .ok then .undecoded else c) 4 0 true a)
    else
      let d := (d.cohBytes 2 a record q.size).put q.tail (tail + 1)
      (some (if tail = head then d.ttuIrq q.irq else d), d)

/-- TTU_STAT.STALLED: slots in use, 256 as 0xFF. -/
def Dev.showStalls (d : Dev) : Dev :=
  d.put TTU_STAT.STALLED (min 255 (d.ttu.stalls.filter fun p => p.2.isSome).length)

/-- A free stall slot. -/
def Dev.freeSlot (d : Dev) : Option Nat := (List.range 256).find? fun s => (d.ttu.stalls.find none s).isNone

/-- Fill or empty a stall slot. -/
def Dev.setSlot (d : Dev) (s : Nat) (x : Option Stalled) : Dev :=
  (d.modTtu fun t => { t with stalls := t.stalls.set natLt none s x }).showStalls

/-- The next record of a queue can be written now: nothing is under way for its line. -/
def Dev.recordMay (d : Dev) (q : TtuQueue) : Bool :=
  !d.flag q.en || d.rangeIdle (d.get q.base * 4096 + d.get q.tail % 2 ^ d.get q.log2 * q.size) q.size

/-- A faulting request for its record. -/
structure FaultReq where
  seg : Nat
  rid : Nat
  pasid : Option Nat
  iova : Nat
  write : Bool
  stallable : Option Stalled := none
deriving DecidableEq, Repr

/-- The fault record of R302. -/
def faultWords (d : Dev) (cause : Nat) (p : WalkAt) (pasid : Nat) (r : FaultReq) (slot : Option Nat) : Nat :=
  let b (c : Bool) (i : Nat) : Nat := if c then 2 ^ i else 0
  let w0 := cause + p.stage * 2 ^ 8 + p.level * 2 ^ 10 + b p.inS1 13 + (if p.inS1 then p.s1Level * 2 ^ 14 else 0) + b r.write 17
    + b r.pasid.isSome 18 + b slot.isSome 19 + r.seg % 16 * 2 ^ 20 + r.rid % 2 ^ 16 * 2 ^ 24 + pasid % 2 ^ 20 * 2 ^ 40
  let w1 := r.iova % 2 ^ 48 + slot.getD 0 * 2 ^ 48
  w0 + w1 * 2 ^ 64 + (if p.stage = 2 then p.gpa else 0) * 2 ^ 128 + d.ring.toNat * 2 ^ 192

/-- A fault (R302 to R304): counted, recorded, and stalled when its context, its cause, a free slot and its record allow; true when
it is stalled. -/
def Dev.ttuFault (d : Dev) (cause : Nat) (p : WalkAt) (c : TtuCtx) (pasid : Nat) (r : FaultReq) : Bool × Dev :=
  let d := d.bump TTU_CNT.FAULTS
  let slot := if cause = 4 && c.stall && r.stallable.isSome then d.freeSlot else none
  match d.ttuRecord faultQueue (faultWords d cause p pasid r slot) with
  | (some d, _) =>
    match slot with
    | some s => (true, d.setSlot s r.stallable)
    | none => (false, d)
  | (none, d) => (false, (d.bump TTU_STAT.FQ_DROP).put TTU_STAT.FQ_OVF 1)

/-! ### Requests performed (R292, R295, R307) -/

/-- A request is aborted (R292): a non-posted one completes with Unsupported Request, a posted write is discarded. -/
def Dev.devAbort (d : Dev) (r : DevReq) : Dev :=
  if r.op == .write then d else d.emit (.devDone r.seg r.rid r.tag false false 0)

/-- The result of an AtomicOp of R284 on a value of a size in bytes. -/
def devAtomic (r : DevReq) (old : Nat) : Nat :=
  match r.op with
  | .fetchAdd => (old + r.value) % 256 ^ r.size
  | .swap => r.value % 256 ^ r.size
  | .cas => if old = r.compare % 256 ^ r.size then r.value % 256 ^ r.size else old
  | _ => old

/-- The size is one that the operation has (R284). -/
def atomicSize (r : DevReq) : Bool :=
  match r.op with
  | .read | .write => true
  | .cas => r.size == 4 || r.size == 8 || r.size == 16
  | _ => r.size == 4 || r.size == 8

/-- A translated request is performed at its host physical address, after the region firewall as class 3 (R25, R284, R393, R394). In
the safe state writes from I/O are fenced (R354). -/
def Dev.devPerform (d : Dev) (r : DevReq) (a : Nat) : Dev :=
  let write := r.op != .read
  let last := a + r.size - 1
  if write && d.flag EVC_STAT.SAFE then d.devAbort r
  else if !d.fwPermits 3 r.seg write a then (d.fwRefuse 3 r.seg write a).devAbort r
  else if !d.fwPermits 3 r.seg write last then (d.fwRefuse 3 r.seg write last).devAbort r
  else match rangeOf a with
    | .dram | .cxl =>
      if !d.backed a then (d.decodeError a).devAbort r
      else if !d.backed last then (d.decodeError last).devAbort r
      else if !atomicSize r || (write && r.op != .write && a % r.size != 0) then d.devAbort r
      else
        let (old, p) := d.cohFetch 66 a r.size
        let d := if p then d.cxlNote (a / 64) else d
        match r.op with
        | .read => d.emit (.devDone r.seg r.rid r.tag true p old)
        | .write => d.cohBytes 66 a r.value r.size
        | _ => (if p then d else d.cohBytes 2 a (devAtomic r old) r.size).emit (.devDone r.seg r.rid r.tag true p old)
    | .flash =>
      if !d.backed a || !d.backed last then (d.decodeError (if d.backed a then last else a)).devAbort r
      else if write then d.devAbort r
      else d.emit (.devDone r.seg r.rid r.tag true false (d.flashAt (a - 0x0FFFF0000000) r.size))
    | .regs | .aperture =>
      let who : Requester := .device r.seg r.rid
      if r.op == .read then
        let d := d.modTtu fun t => { t with regReads := t.regReads ++ [(a, r)] }
        if rangeOf a == .regs && !d.siteStands a then d.regReadGo who a r.size else d.emit (.regRead who a r.size)
      else if r.op != .write then d.devAbort r
      else if rangeOf a == .regs then d.emit (.reg who a r.size (BitVec.ofNat 64 r.value))
      else
        let off := a - 0x0E0000000000
        d.emit (.aperture who (off / 2 ^ 28) (off % 2 ^ 28) r.size (BitVec.ofNat 512 r.value))
    | .mmio => d.devAbort r
    | .reserved => (d.decodeError a).devAbort r

/-- The MSI of a target word (R295): an entry with EN = 0 delivers nothing and is counted. -/
def Dev.ttuMsi (d : Dev) (target : Nat) : Dev :=
  if bit target 31 then
    (d.sendMsi target).modTtu fun t =>
      { t with msis := t.msis ++ [(target / 2 ^ 11 % 2 ^ 9, target / 2 ^ 20 % 16, target % 2 ^ 11)] }
  else d.bump TTU_CNT.MSI_MASKED

/-- A Page Request record (R306). -/
def pageWords (p : PageReq) : Nat :=
  let b (c : Bool) (i : Nat) : Nat := if c then 2 ^ i else 0
  p.rid % 2 ^ 16 + p.seg % 16 * 2 ^ 16 + p.pasid.getD 0 % 2 ^ 20 * 2 ^ 20 + b p.pasid.isSome 40 + b p.read 41 + b p.write 42
    + b p.last 43 + p.prgi % 512 * 2 ^ 44 + p.page % 2 ^ 52 * 2 ^ 76

/-- A page request that its context accepts is queued, or discarded and counted; the unit itself answers a LAST one with Success. -/
def Dev.pageRequest (d : Dev) (p : PageReq) : Dev :=
  match d.ttuRecord pageQueue (pageWords p) with
  | (some d, _) => d
  | (none, d) =>
    let d := d.bump TTU_STAT.PQ_DROP
    if p.last then d.emit (.prgResponse p.seg p.rid p.pasid p.prgi 0) else d

/-! ### Walks (R301) and what they end in -/

/-- A job of the device waits: one of its requests is stalled, or is being translated again (R305). -/
def Dev.deviceHeld (d : Dev) (seg rid : Nat) : Bool :=
  (d.ttu.stalls.any fun p => match p.2 with
    | some (.device r) => r.seg == seg && r.rid == rid
    | some (.chunk k _ _ _) | some (.fetch k _) | some (.completion k _) => seg == 8 && rid == k
    | none => false)
  || d.ttu.walks.any fun w => w.bypass && w.job.device == (seg, rid)

/-- A job ends with the result of its walk. -/
def Dev.ttuFinish (d : Dev) (job : TtuJob) : WalkEnd → Dev
  | .translated hpa log2 r w c =>
    match job with
    | .access q => d.devPerform q hpa
    | .ats q =>
      let held := (q.seg, q.rid, c.gscid)
      (d.modTtu fun t => { t with atsHeld := if t.atsHeld.contains held then t.atsHeld else t.atsHeld ++ [held] }).emit
        (.atsDone q.seg q.rid q.tag true ⟨hpa / 4096, log2, r, w⟩)
    | _ => d
  | .msi target => d.ttuMsi target
  | .pageOk =>
    match job with
    | .page p => d.pageRequest p
    | _ => d
  | .discard =>
    match job with
    | .page _ => d.bump TTU_STAT.PQ_DROP
    | _ => d
  | .silent =>
    match job with
    | .access q | .ats q => d.devAbort q
    | _ => d
  | .fault cause p c pasid =>
    match job with
    | .access q =>
      let stallable := if q.translated then none else some (Stalled.device q)
      match d.ttuFault cause p c pasid ⟨q.seg, q.rid, q.pasid, q.addr, (devNeed q).w, stallable⟩ with
      | (true, d) => d
      | (false, d) => d.devAbort q
    | .ats q =>
      let denied := c.ats && c.pri && (cause = 4 || (cause = 1 && ((p.stage = 1 && p.level ≤ 3) || p.stage = 2)))
      if denied then d.emit (.atsDone q.seg q.rid q.tag false {})
      else (d.ttuFault cause p c pasid ⟨q.seg, q.rid, q.pasid, q.addr, (devNeed q).w, none⟩).2.devAbort { q with op := .read }
    | .page q => (d.ttuFault cause p c pasid ⟨q.seg, q.rid, q.pasid, q.page * 4096, q.write, none⟩).2.bump TTU_STAT.PQ_DROP
    | .msi seg rid _ => (d.ttuFault cause p c pasid ⟨seg, rid, none, c.msiPage * 4096, true, none⟩).2
  | .read _ => d

/-- What a job does at the end of its walk can be done now: nothing is under way for the lines it reads or writes. -/
def Dev.mayFinish (d : Dev) (job : TtuJob) : WalkEnd → Bool
  | .translated hpa _ _ _ _ => match job with
    | .access q => !mainMemory hpa || d.rangeIdle hpa q.size
    | _ => true
  | .pageOk => d.recordMay pageQueue
  | .fault .. => d.recordMay faultQueue
  | _ => true

/-- Go on with a walk: entries come from the caches while they hold them (a free value says whether an entry has been evicted since,
R310), else a read is made after its check, and its return is awaited. `fuel` bounds the entries of one walk.
DESIGN CHOICE, assumption 34. -/
def Dev.walkOn : Nat → Dev → TtuWalk → Dev
  | 0, d, _ => d
  | fuel + 1, d, w =>
    let look : Look := fun a => (w.got.find? fun p => p.1 == a).map (·.2)
    let (seg, rid) := w.job.device
    let finish (r : WalkEnd) : Dev :=
      if !w.bypass && d.deviceHeld seg rid then d.modTtu fun t => { t with waiting := t.waiting ++ [w.job] }
      else if !d.mayFinish w.job r then d.modTtu fun t => { t with walks := t.walks ++ [{ w with outstanding := 2 ^ 64 }] }
      else d.ttuFinish w.job r
    match ttuWalk d.ttuDdt look w.job with
    | .ok r => finish r
    | .error (.read r) =>
      let (kept, d) := match d.ttuCached w.job r with
        | some c =>
          let (v, d) := d.freeNext
          (if !w.bypass && v.getLsbD 0 then some c.value else none, d)
        | none => (none, d)
      match kept with
      | some v => walkOn fuel d { w with got := w.got ++ [(r.addr, v)] }
      | none =>
        let bad : WalkEnd := .fault 5 r.place r.ctx r.used
        if !d.walkable r.addr then finish bad
        else
          let c := d.memCheck 4 0 false r.addr
          if c != .ok then
            if d.recordMay faultQueue then (d.memRefused c 4 0 false r.addr).ttuFinish w.job bad
            else d.modTtu fun t => { t with walks := t.walks ++ [{ w with outstanding := 2 ^ 64 }] }
          else d.modTtu fun t => { t with walks := t.walks ++ [{ w with outstanding := r.addr }] }
    | .error r => finish r

/-- Start a job: it waits behind a stalled request of its device, or its walk begins. -/
def Dev.startJob (d : Dev) (job : TtuJob) (bypass : Bool := false) : Dev :=
  let (seg, rid) := job.device
  if !bypass && d.deviceHeld seg rid then d.modTtu fun t => { t with waiting := t.waiting ++ [job] }
  else
    let tag := d.ttu.nextTag
    Dev.walkOn 64 (d.modTtu fun t => { t with nextTag := tag + 1 }) { tag := tag, job := job, bypass := bypass }

/-- What waited behind a stalled request of a device goes on in arrival order (R305). -/
def Dev.releaseDevice (d : Dev) (seg rid : Nat) : Dev :=
  if d.deviceHeld seg rid then d
  else
    let jobs := d.ttu.waiting.filter fun j => j.device == (seg, rid)
    jobs.foldl (fun d j => d.startJob j) (d.modTtu fun t => { t with waiting := t.waiting.filter fun j => j.device != (seg, rid) })

/-- A stalled request of a device is aborted, and what waited behind it goes on. -/
def Dev.abortStalled (d : Dev) (slot : Nat) (r : DevReq) : Dev :=
  ((d.setSlot slot none).devAbort r).releaseDevice r.seg r.rid

/-- A stalled request of a device is translated again from the tables (R304). -/
def Dev.resumeStalled (d : Dev) (slot : Nat) (r : DevReq) : Dev :=
  ((d.setSlot slot none).startJob (.access r) true).releaseDevice r.seg r.rid

/-- The entry a walk has outstanding. -/
def Dev.walkWants (d : Dev) (w : TtuWalk) : Option WalkRead :=
  match ttuWalk d.ttuDdt (fun a => (w.got.find? fun p => p.1 == a).map (·.2)) w.job with
  | .error (.read r) => some r
  | _ => none

/-- WALK_READ_RETURN (R301): the entry is read, and the walk goes on or faults with WALK_POISON. While something is under way for
its line it waits behind that, and a walk that has its last entry does what was left to do. -/
def walkReturnEff (tag : Nat) (poison : Bool) (d : Dev) : Dev :=
  match d.ttu.walks.find? fun w => w.tag == tag with
  | none => d
  | some w =>
    let d0 := d
    let d := d.modTtu fun t => { t with walks := t.walks.erase w }
    let (seg, rid) := w.job.device
    match d.walkWants w with
    | none => (d.walkOn 1 w).releaseDevice seg rid
    | some r =>
      if w.outstanding ≠ r.addr then (d.walkOn 64 w).releaseDevice seg rid
      else if !d.rangeIdle r.addr r.bytes || !d.recordMay faultQueue then d0
      else
      let (v, p) := d.cohFetch 3 r.addr r.bytes
      let d := if p || poison then (d.cxlNote (r.addr / 64)).ttuFinish w.job (.fault 6 r.place r.ctx r.used)
        else (d.ttuFill w.job r v).walkOn 64 { w with got := w.got ++ [(r.addr, v)] }
      d.releaseDevice seg rid

/-- The root port withholds flow-control credits from a device: 64 requests wait behind each of its stalls (R305). -/
def Dev.creditsWithheld (d : Dev) (seg rid : Nat) : Bool :=
  let stalls := d.ttu.stalls.filter fun p => match p.2 with
    | some (.device r) => r.seg == seg && r.rid == rid
    | _ => false
  decide (0 < stalls.length ∧ 64 * stalls.length ≤ (d.ttu.waiting.filter fun j => j.device == (seg, rid)).length)

/-- A request of a device reaches the unit. -/
def Dev.deviceReaches (d : Dev) (seg rid : Nat) : Bool := d.deviceArrives seg rid && !d.creditsWithheld seg rid

/-- DEVICE_REQUEST (R292): within one page. -/
def deviceRequestEff (r : DevReq) (d : Dev) : Dev :=
  if !d.deviceReaches r.seg r.rid || r.size = 0 || 4096 < r.addr % 4096 + r.size then d else d.startJob (.access r)

/-- DEVICE_MSI (R295). -/
def deviceMsiEff (seg rid data : Nat) (d : Dev) : Dev :=
  if d.deviceReaches seg rid then d.startJob (.msi seg rid data) else d

/-- ATS_TRANSLATION_REQUEST (R306, R307). -/
def atsRequestEff (r : DevReq) (d : Dev) : Dev :=
  if d.deviceReaches r.seg r.rid then d.startJob (.ats { r with translated := false }) else d

/-- PAGE_REQUEST (R306). -/
def pageRequestEff (p : PageReq) (d : Dev) : Dev := if d.deviceReaches p.seg p.rid then d.startJob (.page p) else d

/-- PRG_RESPONSE (R306): the fields of TTU_PRI_RESP. -/
def prgResponseEff (w : Word) (d : Dev) : Dev :=
  d.emit (.prgResponse (w.bits 19 16) (w.bits 15 0) (if w.getLsbD 59 then some (w.bits 39 20) else none) (w.bits 48 40)
    (w.bits 63 60))

/-! ### Invalidation (R309, R310) -/

/-- The device is one that an invalidation covers. -/
def TtuInval.device (i : TtuInval) (seg rid gscid : Nat) : Bool :=
  match i with
  | .context s r => s == seg && r == rid
  | .pasid s r _ => s == seg && r == rid
  | .range s r _ _ _ => s == seg && r == rid
  | .stage2 g _ _ => g == gscid
  | .all => true

/-- An invalidation starts: covered copies go, and the devices that hold ATS translations are asked. Those are the devices with a
cached context whose ATS is set and those that have been given a translation. -/
def Dev.startInval (d : Dev) (i : TtuInval) : Dev :=
  if d.flag TTU_INV_STAT.BUSY then d.put TTU_INV_STAT.REFUSED 1
  else
    let cached := (d.ttu.cache.filter fun c => c.table == .context && (ctxOf c.value).ats
      && i.device c.seg c.rid (ctxOf c.value).gscid).map fun c => (c.seg, c.rid)
    let held := (d.ttu.atsHeld.filter fun h => i.device h.1 h.2.1 h.2.2).map fun h => (h.1, h.2.1)
    let ask := (cached ++ held.filter fun h => !cached.contains h).filter fun h => decide (h.1 < 8)
    let d := ((d.ttuDrop i).put TTU_INV_STAT.BUSY 1).put TTU_INV_STAT.STATUS 0
    let d := d.modTtu fun t => { t with inval := some i, atsWait := ask }
    ask.foldl (fun d h => d.emit (.atsInval h.1 h.2)) d

/-- The range of TTU_INV_ADDR in bytes. -/
def Dev.invRange (d : Dev) : Nat × Nat :=
  let lo := d.get TTU_INV_ADDR.ADDR * 4096
  (lo, lo + 2 ^ d.get TTU_INV_ADDR.LOG2 * 4096 - 1)

/-- INV_CTX. -/
def invCtxEff (seg rid : Nat) (d : Dev) : Dev := d.startInval (.context seg rid)
/-- INV_PASID; without a PASID it applies to DEF_PASID, and this unit drops every PASID of the device. -/
def invPasidEff (seg rid : Nat) (pasid : Option Nat) (d : Dev) : Dev := d.startInval (.pasid seg rid pasid)
/-- INV_RANGE. -/
def invRangeEff (seg rid : Nat) (pasid : Option Nat) (d : Dev) : Dev :=
  d.startInval (.range seg rid pasid d.invRange.1 d.invRange.2)
/-- INV_S2. -/
def invS2Eff (gscid : Nat) (d : Dev) : Dev := d.startInval (.stage2 gscid d.invRange.1 d.invRange.2)
/-- INV_ALL. -/
def invAllEff (d : Dev) : Dev := d.startInval .all

/-- Requests translated with covered entries that have not completed: walks that have read an entry, register and aperture reads
that are not answered, and writes and MSIs on their way. -/
def Dev.invWaits (d : Dev) (i : TtuInval) : Bool :=
  let covered (seg rid : Nat) : Bool := match i with
    | .stage2 .. => true
    | _ => i.device seg rid 0
  (d.ttu.walks.any fun w => !w.got.isEmpty && covered w.job.device.1 w.job.device.2)
  || (d.ttu.regReads.any fun r => covered r.2.seg r.2.rid)
  || (d.packets.any fun p => match p with
    | .reg (.device seg rid) .. | .aperture (.device seg rid) .. => covered seg rid
    | _ => false)
  || d.ttu.msis.any fun m => d.packets.contains (.msi m.1 m.2.1 m.2.2)

/-- The invalidation completes with a status. -/
def Dev.endInval (d : Dev) (i : TtuInval) (status : Nat) : Dev :=
  let d := (d.ttuDrop i).modTtu fun t =>
    { t with inval := none, atsWait := [], msis := [], atsHeld := t.atsHeld.filter fun h => !i.device h.1 h.2.1 h.2.2 }
  (((d.put TTU_INV_STAT.BUSY 0).put TTU_INV_STAT.DONE 1).put TTU_INV_STAT.STATUS status).ttuIrq TTU_IRQ_STAT.INV

/-- INV_DONE (R310). -/
def invDoneEff (d : Dev) : Dev :=
  match d.ttu.inval with
  | none => d
  | some i => if !d.ttu.atsWait.isEmpty || d.invWaits i then d else d.endInval i (d.get TTU_INV_STAT.STATUS)

/-- ATS_INVALIDATE_RESPONSE (R310). -/
def atsInvResponseEff (seg rid : Nat) (d : Dev) : Dev :=
  (d.take (.atsInval seg rid)).modTtu fun t => { t with atsWait := t.atsWait.filter (· != (seg, rid)) }

/-- ATS_INV_TIMEOUT (R310): the status is ATS_TIMEOUT and the unit raises its event; no device is waited for any more. -/
def atsInvTimeoutEff (d : Dev) : Dev :=
  if d.ttu.inval.isNone || d.ttu.atsWait.isEmpty then d
  else invDoneEff (((d.modTtu fun t => { t with atsWait := [] }).put TTU_INV_STAT.STATUS 1).raise 106)

/-- TTU_QUEUE_ENABLE (R303): EN goes from 0 to 1 and TAIL takes HEAD. -/
def ttuQueueEff (pq : Bool) (d : Dev) : Dev :=
  let q := if pq then pageQueue else faultQueue
  if d.flag q.en then d else (d.put q.en 1).put q.tail (d.get q.head)

end Sys2Proof.Machine
end

