-- ==== Sys2Proof/Machine/Bulk.lean ====
section
/-!
DEFINITION. The bulk engines and their slices (spec/13): binding, queues and doorbells, descriptors and their chunks, the sharing of
engine time, remote copies at both ends, slice reset and engine control; with the commands on stall slots, which may hold a
request of a slice.
A chunk is carried out when it completes: its reads and writes are made line by line in increasing address order, each
translated by the translation unit.
-/

namespace Sys2Proof.Machine

/-- Change the bulk engines. -/
def Dev.modBulk (d : Dev) (f : Bulk → Bulk) : Dev := { d with bulk := f d.bulk }

/-! ### Slices and queues -/

/-- The slice is bound. -/
def Dev.sliceBound (d : Dev) (k : Nat) : Bool := decide (k < 64) && d.flag BLK_SLICE_CTL.BOUND 0 k

/-- Bound slices in increasing number. -/
def Dev.boundSlices (d : Dev) : List Nat := (List.range 64).filter d.sliceBound

/-- A queue. -/
def Dev.bulkQueue (d : Dev) (k i : Nat) : BulkQueue := d.bulk.queues.find {} (1024 * k + i)

/-- Change a queue. -/
def Dev.modQueue (d : Dev) (k i : Nat) (f : BulkQueue → BulkQueue) : Dev :=
  d.modBulk fun b => { b with queues := b.queues.set natLt {} (1024 * k + i) (f (d.bulkQueue k i)) }

/-- DB_STAT.STATE of a queue: 0 DISABLED, 1 ENABLED, 2 ERROR, 3 RESET. -/
def Dev.qState (d : Dev) (k i : Nat) : Nat := d.get DB_STAT.STATE k i

/-- A queue takes a state; BLK_SLICE_STAT.ERRQ counts the queues in ERROR. -/
def Dev.setQState (d : Dev) (k i v : Nat) : Dev :=
  let n := d.get BLK_SLICE_STAT.ERRQ 0 k
  let n := if d.qState k i = 2 then n - 1 else n
  (d.put DB_STAT.STATE v k i).put BLK_SLICE_STAT.ERRQ (if v = 2 then n + 1 else n) 0 k

/-- A queue enters ERROR (R317, R323). -/
def Dev.qError (d : Dev) (k i err : Nat) : Dev := (d.setQState k i 2).put DB_STAT.ERR err k i

/-- The credits of the queues of a slice. -/
def Dev.credits (d : Dev) (k : Nat) : Nat := 2 ^ d.get BLK_SLICE_CTL.QLOG2 0 k

/-- The share of a slice. -/
def Dev.share (d : Dev) (k : Nat) : BulkShare := d.bulk.shares.find {} k

/-- Change the share of a slice. -/
def Dev.modShare (d : Dev) (k : Nat) (f : BulkShare → BulkShare) : Dev :=
  d.modBulk fun b => { b with shares := b.shares.set natLt {} k (f (b.shares.find {} k)) }

/-- The chunk an engine holds. -/
def Dev.engineChunk (d : Dev) (e : Nat) : Option BulkChunk := d.bulk.engines.find none e

/-- Replace it. -/
def Dev.setEngine (d : Dev) (e : Nat) (c : Option BulkChunk) : Dev :=
  d.modBulk fun b => { b with engines := b.engines.set natLt none e c }

/-- The registers that report engines and slices. -/
def Dev.showBulk (d : Dev) : Dev :=
  let mask (f : Nat → Bool) : Nat := (List.range 8).foldl (fun m e => if f e then setBit m e true else m) 0
  let d := d.put BLK_ENG_STAT.BUSY (mask fun e => (d.engineChunk e).isSome)
  let d := d.put BLK_ENG_STAT.STOPPED (mask fun e => (d.engineChunk e).isNone && !bit (d.get BLK_ENG_CTL.EN) e)
  (List.range 64).foldl (fun d k =>
    (d.put BLK_SLICE_STAT.PARKED (d.bulk.parked.filter fun c => c.slice == k).length 0 k).put BLK_SLICE_STAT.INFLIGHT
      (d.bulk.engines.filter fun p => (p.2.map (·.slice)) == some k).length 0 k) d

/-! ### Descriptors (R318, R319) -/

/-- A field of a word of a descriptor. -/
def BulkDesc.field (x : BulkDesc) (w hi lo : Nat) : Nat := (lineWord x.words w).bits hi lo

/-- The operation: 1 COPY, 2 FILL, 3 COMPARE, 4 CRC32C, 5 REMOTE_COPY. -/
def BulkDesc.op (x : BulkDesc) : Nat := x.field 0 3 0
/-- SRC. -/
def BulkDesc.src (x : BulkDesc) : Nat := x.field 1 47 0
/-- DST. -/
def BulkDesc.dst (x : BulkDesc) : Nat := x.field 2 47 0
/-- LEN. -/
def BulkDesc.len (x : BulkDesc) : Nat := x.field 3 31 0

/-- The descriptor is INVALID (R319): OP, a bit that must be zero, LEN, an address beyond 2^48, overlapping ranges of COPY, or the
package's own ID as DPKG. -/
def BulkDesc.invalid (x : BulkDesc) (own : Nat) : Bool :=
  let op := x.op
  let usesSrc := op != 2
  let usesDst := op != 4
  let reserved := x.field 0 7 4 != 0 || x.field 0 31 10 != 0 || x.field 1 63 48 != 0 || x.field 2 63 48 != 0
    || x.field 3 63 32 != 0 || x.field 5 63 6 != 0 || x.field 6 63 0 != 0 || x.field 7 63 0 != 0
    || (!usesSrc && x.src != 0) || (!usesDst && x.dst != 0) || (op != 5 && x.field 5 5 0 != 0)
    || (op != 2 && op != 4 && x.field 4 63 0 != 0) || (op == 4 && x.field 4 63 32 != 0)
  op = 0 || decide (5 < op) || reserved || x.len = 0
  || (usesSrc && decide (2 ^ 48 < x.src + x.len)) || (usesDst && decide (2 ^ 48 < x.dst + x.len))
  || (op == 1 && decide (x.src < x.dst + x.len ∧ x.dst < x.src + x.len))
  || (op == 5 && x.field 5 5 0 == own)

/-- The chunk address: SRC of COMPARE and CRC32C, DST of the others (R311). -/
def BulkDesc.chunkBase (x : BulkDesc) : Nat := if x.op = 3 || x.op = 4 then x.src else x.dst

/-- The chunks run in order, one at a time. -/
def BulkDesc.inOrder (x : BulkDesc) : Bool := x.op = 3 || x.op = 4

/-- The length of the chunk at an offset: to the end of its 4 KiB page. -/
def BulkDesc.chunkLen (x : BulkDesc) (off : Nat) : Nat := min (x.len - off) (4096 - (x.chunkBase + off) % 4096)

/-- Bytes from the start that are complete without a gap. `fuel` bounds the chunks. -/
def gapless (done : List (Nat × Nat)) : Nat → Nat → Nat
  | 0, at_ => at_
  | fuel + 1, at_ =>
    match done.find? fun c => c.1 == at_ with
    | some c => gapless done fuel (at_ + c.2)
    | none => at_

/-- BYTES of R321. -/
def BulkDesc.bytes (x : BulkDesc) : Nat := gapless x.done (x.done.length + 1) 0

/-- Chunks of a descriptor that are under way. -/
def Dev.chunksOf (d : Dev) (k i n : Nat) : List BulkChunk :=
  let mine (c : BulkChunk) : Bool := c.slice == k && c.queue == i && c.n == n
  (d.bulk.engines.filterMap (·.2)).filter mine ++ d.bulk.parked.filter mine ++ d.bulk.ready.filter mine
    ++ d.bulk.remote.filter mine

/-! ### Requests of a slice (R314) -/

/-- Why a request of a slice is not carried out: it stalls, it waits for a line with something under way (R168), or it fails with a
status of R322. -/
inductive BulkStop where
  | stall
  | busy
  | fail (status : Nat)
deriving DecidableEq, Repr

/-- The walk of a request of a slice, its reads made one after another. `fuel` bounds the entries.
DESIGN CHOICE, assumption 34. -/
def Dev.bulkWalk : Nat → Dev → TtuJob → Bool → List (Nat × Nat) → WalkEnd × Dev
  | 0, d, _, _, _ => (.silent, d)
  | fuel + 1, d, job, bypass, got =>
    match ttuWalk d.ttuDdt (fun a => (got.find? fun p => p.1 == a).map (·.2)) job with
    | .ok r => (r, d)
    | .error (.read r) =>
      let (kept, d) := match d.ttuCached job r with
        | some c =>
          let (v, d) := d.freeNext
          (if !bypass && v.getLsbD 0 then some c.value else none, d)
        | none => (none, d)
      match kept with
      | some v => Dev.bulkWalk fuel d job bypass (got ++ [(r.addr, v)])
      | none =>
        let c := d.memCheck 4 0 false r.addr
        if !d.walkable r.addr then (.fault 5 r.place r.ctx r.used, d)
        else if c != .ok then (.fault 5 r.place r.ctx r.used, d.memRefused c 4 0 false r.addr)
        else if !d.rangeIdle r.addr r.bytes then (.read r, d)
        else
          let (v, p) := d.cohFetch 3 r.addr r.bytes
          if p then (.fault 6 r.place r.ctx r.used, d)
          else Dev.bulkWalk fuel (d.ttuFill job r v) job bypass (got ++ [(r.addr, v)])
    | .error r => (r, d)

/-- Translate a request of a slice within one page and check it (R25, R314, R322): its host physical address, or why not. -/
def Dev.bulkTranslate (d : Dev) (k iova size : Nat) (write bypass : Bool) (who : Option Stalled) : Except BulkStop Nat × Dev :=
  if d.deviceHeld 8 k then (.error .stall, d)
  else
    let pasid := d.get BLK_SLICE_CTL.PASID 0 k
    let req : DevReq := { seg := 8, rid := k, pasid := some pasid, addr := iova, size := size, op := if write then .write else .read }
    match d.bulkWalk 64 (.access req) bypass [] with
    | (.translated a _ _ _ _, d) =>
      let bad (d : Dev) : Except BulkStop Nat × Dev := (.error (.fail 0x14), d)
      if !d.fwPermits 3 8 write a then bad (d.fwRefuse 3 8 write a)
      else if rangeOf a == .aperture then (.ok a, d)
      else if !mainMemory a then bad (if rangeOf a == .reserved then d.decodeError a else d)
      else if !d.backed a then bad (d.decodeError a)
      else (.ok a, d)
    | (.read _, d) => (.error .busy, d)
    | (.fault cause p c pasid, d) =>
      if !d.recordMay faultQueue then (.error .busy, d)
      else match d.ttuFault cause p c pasid ⟨8, k, req.pasid, iova, write, who⟩ with
      | (true, d) => (.error .stall, d)
      | (false, d) => (.error (.fail 0x12), d)
    | (_, d) => (.error (.fail 0x12), d)

/-- Read bytes for a slice, within a line at a time: the bytes and whether one was poisoned. -/
def Dev.bulkRead : Nat → Dev → Nat → Nat → Nat → Bool → Option Stalled → Except BulkStop (Nat × Bool) × Dev
  | 0, d, _, _, _, _, _ => (.ok (0, false), d)
  | fuel + 1, d, k, iova, len, bypass, who =>
    if len = 0 then (.ok (0, false), d)
    else
      let m := min len (64 - iova % 64)
      match d.bulkTranslate k iova m false bypass who with
      | (.error e, d) => (.error e, d)
      | (.ok a, d) =>
        if mainMemory a && !d.lineIdle (a / 64) then (.error .busy, d)
        else if let some d := d.accessWaits (.slice k) a m false 0 then (.error .busy, d)
        else
        let (v, p, bad, d) :=
          if rangeOf a == .aperture then
            let (v, err, d) := d.apertureRead (.slice k) a m
            (v, false, err, d)
          else
            let (v, p) := d.cohFetch 2 a m
            (v, p, false, if p then d.cxlNote (a / 64) else d)
        if bad then (.error (.fail 0x14), d) else
        match d.bulkRead fuel k (iova + m) (len - m) bypass who with
        | (.error e, d) => (.error e, d)
        | (.ok (v', p'), d) => (.ok (v + v' * 256 ^ m, p || p'), d)

/-- Write bytes for a slice, within a line at a time. -/
def Dev.bulkWrite : Nat → Dev → Nat → Nat → Nat → Nat → Bool → Option Stalled → Except BulkStop Unit × Dev
  | 0, d, _, _, _, _, _, _ => (.ok (), d)
  | fuel + 1, d, k, iova, v, len, bypass, who =>
    if len = 0 then (.ok (), d)
    else
      let m := min len (64 - iova % 64)
      match d.bulkTranslate k iova m true bypass who with
      | (.error e, d) => (.error e, d)
      | (.ok a, d) =>
        if mainMemory a && !d.lineIdle (a / 64) then (.error .busy, d)
        else if let some d := d.accessWaits (.slice k) a m true (BitVec.ofNat 64 v) then (.error .busy, d)
        else
        let (bad, d) := if rangeOf a == .aperture then d.apertureWrite (.slice k) a m (v % 256 ^ m)
          else (false, d.cohBytes 2 a (v % 256 ^ m) m)
        if bad then (.error (.fail 0x14), d) else d.bulkWrite fuel k (iova + m) (v / 256 ^ m) (len - m) bypass who

/-! ### Completions (R320, R321, R323) -/

/-- A completion record. RESULT is that of an operation that ran to its end (R321). -/
def Dev.completionWords (d : Dev) (x : BulkDesc) (status : Nat) : Nat :=
  let w0 := status + x.op * 2 ^ 8 + x.field 0 63 32 * 2 ^ 32
  let result := if status ≤ 1 then x.result else 0
  w0 + x.bytes % 2 ^ 32 * 2 ^ 64 + result % 2 ^ 32 * 2 ^ 128 + d.ring.toNat * 2 ^ 192

/-- The status of a descriptor that is over. -/
def BulkDesc.status (x : BulkDesc) : Nat := (x.fail.map (·.2)).getD 0

/-- DONE passes the head descriptor, and its MSI follows. One fetched before the queue was last enabled is not counted.
DESIGN CHOICE, assumption 36. -/
def Dev.passDesc (d : Dev) (k i : Nat) (x : BulkDesc) : Dev :=
  let d := d.modQueue k i fun q => { q with descs := q.descs.drop 1 }
  let d := if (d.bulkQueue k i).first ≤ x.n then d.count DB_STAT.DONE 1 k i else d
  if x.field 0 8 8 = 1 && d.flag DB_MSI.EN k i then d.startJob (.msi 8 k (d.get DB_MSI.D k i)) else d

/-- Completion records are written in order for the descriptors at the head that are over. `fuel` bounds them. -/
def Dev.drainQueue : Nat → Dev → Nat → Nat → Dev
  | 0, d, _, _ => d
  | fuel + 1, d, k, i =>
    match (d.bulkQueue k i).descs with
    | [] => d
    | x :: _ =>
      if !x.ended || d.qState k i = 3 || d.get DB_STAT.ERR k i = 3 then d
      else
        let a := d.get DB_COMP.ADDR k i * 4096 + x.place % d.credits k * 32
        match d.bulkWrite 2 k a (d.completionWords x x.status) 32 false (some (.completion k i)) with
        | (.ok _, d) => (d.passDesc k i x).drainQueue fuel k i
        | (.error .stall, d) | (.error .busy, d) => d
        | (.error (.fail _), d) => (d.qError k i 3).raise 107

/-- Completions of a queue that are due. -/
def Dev.drain (d : Dev) (k i : Nat) : Dev := d.drainQueue ((d.bulkQueue k i).descs.length + 1) k i

/-! ### Work of a slice and engine time (R324) -/

/-- The descriptor of a queue from which its next chunk comes. `earlier` says that one before it is not completed; `room` that a
remote chunk can take a tag. -/
def nextDesc (busy : Nat → Bool) (room : Bool) : Bool → List BulkDesc → Option BulkDesc
  | _, [] => none
  | earlier, x :: rest =>
    if x.ended || x.fail.isSome || x.len ≤ x.next then nextDesc busy room true rest
    else if earlier && x.field 0 9 9 = 1 then none
    else if x.op = 5 && !room then (if x.next = 0 then none else nextDesc busy room true rest)
    else if x.inOrder && busy x.n then nextDesc busy room true rest
    else some x

/-- The chunks under way. -/
def Bulk.chunks (b : Bulk) : List BulkChunk := b.remote ++ b.parked ++ b.ready ++ b.engines.filterMap (·.2)

/-- A tag of the table of 2,048 outstanding remote chunks that is free. One whose ACK may still come is taken last, the oldest first.
DESIGN CHOICE, assumption 30. -/
def Dev.freeCtag (d : Dev) : Option Nat :=
  let late := d.bulk.late.filter fun t => !d.bulk.chunks.any fun c => c.ctag == some t
  ((List.range 2048).find? fun t => !d.bulk.late.contains t && !d.bulk.chunks.any fun c => c.ctag == some t).or late.head?

/-- Take a free tag. -/
def Dev.takeCtag (d : Dev) : Option (Nat × Dev) :=
  d.freeCtag.map fun t => (t, d.modBulk fun b => { b with late := b.late.erase t })

/-- The lines of a remote chunk have left, some or all of them: its ACK would be late from now on. -/
def Dev.lateChunk (d : Dev) (c : BulkChunk) : Dev :=
  match c.ctag with
  | some t => if 0 < c.pos then d.modBulk fun b => { b with late := b.late ++ [t] } else d
  | none => d

/-- The descriptor of a queue that has a chunk to take. In the safe state none starts (R354). -/
def Dev.queueWork (d : Dev) (k i : Nat) : Option BulkDesc :=
  (nextDesc (fun n => !(d.chunksOf k i n).isEmpty) d.freeCtag.isSome false (d.bulkQueue k i).descs).filter fun x =>
    !(d.flag EVC_STAT.SAFE && x.next == 0)

/-- The queues of a slice with a chunk to take, from an index on in rotation. -/
def Dev.sliceQueues (d : Dev) (k : Nat) : List Nat :=
  let l := (d.bulk.queues.filter fun p => p.1 / 1024 == k && (d.queueWork k (p.1 % 1024)).isSome).map fun p => p.1 % 1024
  let s := (d.share k).next
  l.filter (s ≤ ·) ++ l.filter (· < s)

/-- The slice has a chunk to give. -/
def Dev.sliceReady (d : Dev) (k : Nat) : Bool :=
  d.sliceBound k && !d.flag BLK_SLICE_STAT.RESETTING 0 k
  && decide ((d.bulk.parked.filter fun c => c.slice == k).length < 8) && !(d.sliceQueues k).isEmpty

/-- The slice has work: a chunk to give, a chunk held or to be resumed, or a descriptor to fetch. -/
def Dev.sliceWork (d : Dev) (k : Nat) : Bool :=
  !(d.sliceQueues k).isEmpty || (d.bulk.engines.any fun p => (p.2.map (·.slice)) == some k)
  || (d.bulk.ready.any fun c => c.slice == k)
  || d.bulk.queues.any fun p => p.1 / 1024 == k && d.qState k (p.1 % 1024) == 1
      && p.2.head != d.get DB_TAIL.TAIL k (p.1 % 1024)

/-- A slice found without work has not had work throughout its epoch. -/
def Dev.noteWork (d : Dev) : Dev :=
  (d.boundSlices.foldl (fun d k => if d.sliceWork k then d else d.modShare k fun s => { s with busy := false }) d).showBulk

/-- Charge the engine time of a chunk up to now. -/
def Dev.charge (d : Dev) (c : BulkChunk) : Dev :=
  let t := (d.ring - c.start).toNat
  (d.modShare c.slice fun s => { s with used := s.used + t }).count BLK_SLICE_TIME.CLOCKS t 0 c.slice

/-! ### Slice reset (R328, R329) -/

/-- Every chunk of the slice is gone from engines, lists and span links. -/
def Dev.sliceQuiet (d : Dev) (k : Nat) : Bool :=
  !(d.bulk.engines.any fun p => (p.2.map (·.slice)) == some k)
  && !(d.bulk.parked ++ d.bulk.ready ++ d.bulk.remote).any fun c => c.slice == k

/-- The records of the started descriptors of a queue in reset, in order, each of which leaves the queue; one whose write fails is
skipped, and false says that one waits for its line (R168). `fuel` bounds them. -/
def Dev.abortRecords : Nat → Dev → Nat → Nat → Bool × Dev
  | 0, d, _, _ => (true, d)
  | fuel + 1, d, k, i =>
    match (d.bulkQueue k i).descs with
    | [] => (true, d)
    | x :: rest =>
      let pass (d : Dev) : Dev := d.modQueue k i fun q => { q with descs := rest }
      if x.ended || 0 < x.next then
        let status := if x.status = 0x18 then 0x18 else 0x17
        let a := d.get DB_COMP.ADDR k i * 4096 + x.place % d.credits k * 32
        match d.bulkWrite 2 k a (d.completionWords x status) 32 false none with
        | (.error .busy, d) => (false, d)
        | (_, d) => Dev.abortRecords fuel (pass d) k i
      else Dev.abortRecords fuel (pass d) k i

/-- Steps 4 and 5 of a slice reset, once every response is back: the queues end in turn. -/
def Dev.finishReset (d : Dev) (k : Nat) : Dev :=
  if !d.flag BLK_SLICE_STAT.RESETTING 0 k || !d.sliceQuiet k then d
  else
    let queues := (List.range 1024).filter fun i => d.qState k i != 0
    let (all, d) := queues.foldl (fun (r : Bool × Dev) i =>
      if !r.1 then r
      else
        let (ok, d) := r.2.abortRecords ((r.2.bulkQueue k i).descs.length + 1) k i
        if !ok then (false, d)
        else
          let d := d.modQueue k i fun _ => {}
          (true, ((d.setQState k i 0).put DB_STAT.ERR 0 k i).put DB_RING.EN 0 k i)) (true, d)
    if !all then d
    else (d.put BLK_SLICE_STAT.RESETTING 0 0 k).put BLK_SLICE_STAT.RESET_DONE 1 0 k

/-! ### Ends of chunks (R311, R322) -/

/-- Change a descriptor of a queue. -/
def Dev.modDesc (d : Dev) (k i n : Nat) (f : BulkDesc → BulkDesc) : Dev :=
  d.modQueue k i fun q => { q with descs := q.descs.map fun x => if x.n == n then f x else x }

/-- The descriptor of a chunk is over when nothing of it is under way, and all of it is complete or it has failed. -/
def Dev.settle (d : Dev) (k i n : Nat) : Dev :=
  let d := if !(d.chunksOf k i n).isEmpty then d
    else d.modDesc k i n fun x => if x.fail.isSome || x.len ≤ x.next then { x with ended := true } else x
  ((d.drain k i).finishReset k).noteWork

/-- A chunk has completed. -/
def Dev.chunkDone (d : Dev) (c : BulkChunk) : Dev :=
  (d.modDesc c.slice c.queue c.n fun x => { x with done := x.done ++ [(c.off, c.len)], crc := if x.op = 4 then c.crc else x.crc
                                                   result := if x.op = 4 then c.crc ^^^ 0xFFFFFFFF
                                                     else if x.op = 3 then x.len else 0 }).settle c.slice c.queue c.n

/-- A chunk has failed: the failure of the lowest offset is the descriptor's. -/
def Dev.chunkFailed (d : Dev) (c : BulkChunk) (status : Nat) : Dev :=
  (d.modDesc c.slice c.queue c.n fun x =>
    { x with fail := match x.fail with
        | some (o, s) => if c.off < o then some (c.off, status) else some (o, s)
        | none => some (c.off, status) }).settle c.slice c.queue c.n

/-- COMPARE finds its first difference at an offset of the descriptor. -/
def Dev.chunkDiffers (d : Dev) (c : BulkChunk) (offset : Nat) : Dev :=
  (d.modDesc c.slice c.queue c.n fun x => { x with fail := some (c.off, 1), result := offset }).settle c.slice c.queue c.n

/-- The slice's chunk is what a stall slot names. -/
def BulkChunk.who (c : BulkChunk) : Stalled := .chunk c.slice c.queue c.n c.off

/-! ### The operations (R311, R312, R326) -/

/-- One byte into the CRC-32C register, reflected. -/
def crcByte (crc b : Nat) : Nat :=
  (List.range 8).foldl (fun c _ => if c % 2 = 1 then c / 2 ^^^ 0x82F63B78 else c / 2) (crc ^^^ b)

/-- n little-endian bytes into the CRC-32C register. -/
def crcBytes : Nat → Nat → Nat → Nat
  | 0, crc, _ => crc
  | n + 1, crc, v => crcBytes n (crcByte crc (v % 256)) (v / 256)

/-- The first of n bytes in which two values differ. -/
def firstDiff : Nat → Nat → Nat → Nat → Option Nat
  | 0, _, _, _ => none
  | n + 1, i, a, b => if a % 256 = b % 256 then firstDiff n (i + 1) (a / 256) (b / 256) else some i

/-- Bytes of the FILL pattern for the addresses from a on. -/
def patternBytes (pattern a : Nat) : Nat → Nat
  | 0 => 0
  | n + 1 => pattern / 256 ^ (a % 8) % 256 + 256 * patternBytes pattern (a + 1) n

/-- How a chunk's run ends. -/
inductive ChunkEnd where
  | done
  | stalled
  | waits
  | failed (status : Nat)
  | differs (offset : Nat)
deriving DecidableEq, Repr

/-- A poisoned read fails its chunk. -/
def readResult (r : Except BulkStop (Nat × Bool)) : Except ChunkEnd Nat :=
  match r with
  | .ok (v, false) => .ok v
  | .ok (_, true) => .error (.failed 0x13)
  | .error .stall => .error .stalled
  | .error .busy => .error .waits
  | .error (.fail s) => .error (.failed s)

/-- The host physical pieces of a range of a slice, page by page, as the translation tables give them: base and length.
DESIGN CHOICE, assumption 36. -/
def Dev.physPieces (d : Dev) (k base len : Nat) (write : Bool) : List (Nat × Nat) :=
  (List.range ((base + len + 4095) / 4096 - base / 4096)).filterMap fun i =>
    let lo := max base ((base / 4096 + i) * 4096)
    let hi := min (base + len) ((base / 4096 + i + 1) * 4096)
    let req : DevReq := { seg := 8, rid := k, pasid := some (d.get BLK_SLICE_CTL.PASID 0 k), addr := lo, size := hi - lo
                          op := if write then .write else .read }
    match (d.bulkWalk 64 (.access req) true []).1 with
    | .translated a _ _ _ _ => some (a, hi - lo)
    | _ => none

/-- The two ranges of a COPY alias the same physical memory through different I/O virtual addresses (R319).
DESIGN CHOICE, assumption 36. -/
def Dev.copyAliases (d : Dev) (k : Nat) (x : BulkDesc) : Bool :=
  let dst := d.physPieces k x.dst x.len true
  (d.physPieces k x.src x.len false).any fun p => dst.any fun q => decide (p.1 < q.1 + q.2 ∧ q.1 < p.1 + p.2)

/-- At most 64 bytes that the spec leaves open. -/
def Dev.freeBytes (d : Dev) (m : Nat) : Nat × Dev :=
  let (v, d) := (List.range 8).foldl (fun (r : Nat × Dev) _ =>
    let (w, d) := r.2.freeNext
    (r.1 * 2 ^ 64 + w.toNat, d)) (0, d)
  (v % 256 ^ m, d)

/-- What a COPY writes for the bytes it has read: those bytes, and where its ranges alias the destination is undefined (R319). -/
def Dev.copied (d : Dev) (k : Nat) (x : BulkDesc) (v m : Nat) : Nat × Dev :=
  if d.copyAliases k x then d.freeBytes m else (v, d)

/-- Carry out a chunk from where it stands, line by line of its chunk address. `fuel` bounds the lines. -/
def Dev.runChunk : Nat → Dev → BulkDesc → BulkChunk → ChunkEnd × BulkChunk × Dev
  | 0, d, _, c => (.done, c, d)
  | fuel + 1, d, x, c =>
    if c.len ≤ c.pos then (.done, c, d)
    else
      let o := c.off + c.pos
      let m := min (c.len - c.pos) (64 - (x.chunkBase + o) % 64)
      let c' : BulkChunk := { c with pos := c.pos + m, bypass := false }
      let who := some c.who
      match x.op with
      | 2 =>
        match d.bulkWrite 2 c.slice (x.dst + o) (patternBytes (x.field 4 63 0) (x.dst + o) m) m c.bypass who with
        | (.ok _, d) => Dev.runChunk fuel d x c'
        | (.error .stall, d) => (.stalled, c, d)
        | (.error .busy, d) => (.waits, c, d)
        | (.error (.fail s), d) => (.failed s, c, d)
      | op =>
        let (r, d) := d.bulkRead 3 c.slice (x.src + o) m c.bypass who
        match readResult r with
        | .error e => (e, c, d)
        | .ok v =>
          if op = 4 then Dev.runChunk fuel d x { c' with crc := crcBytes m c.crc v }
          else if op = 3 then
            let (r, d) := d.bulkRead 3 c.slice (x.dst + o) m c.bypass who
            match readResult r with
            | .error e => (e, c, d)
            | .ok w =>
              match firstDiff m 0 v w with
              | some i => (.differs (o + i), c, d)
              | none => Dev.runChunk fuel d x c'
          else if op = 5 then
            let dpkg := x.field 5 5 0
            match d.spanTo dpkg with
            | none => (.failed 0x15, c, d)
            | some port =>
              let a := x.dst + o
              let first := (x.dst + c.off) / 64
              let pkt : RcopyPkt :=
                { spkg := d.get TRK_PKG_ID.PKG_ID, dpkg := dpkg, ttl := 8, ctag := c.ctag.getD 0, line := a / 64 - first
                  nlines := (x.dst + c.off + c.len - 1) / 64 - first + 1, addr := a / 64 * 64
                  mask := (2 ^ m - 1) * 2 ^ (a % 64), data := BitVec.ofNat 512 (v * 256 ^ (a % 64)) }
              Dev.runChunk fuel (d.emitSpan (.rcopy port pkt)) x { c' with port := port }
          else
            let (v, d) := d.copied c.slice x v m
            match d.bulkWrite 2 c.slice (x.dst + o) v m c.bypass who with
            | (.ok _, d) => Dev.runChunk fuel d x c'
            | (.error .stall, d) => (.stalled, c, d)
            | (.error .busy, d) => (.waits, c, d)
            | (.error (.fail s), d) => (.failed s, c, d)

/-! ### Dispatch and completion (R324, R330) -/

/-- A rotation of a list of slices that starts after one. -/
def rotated (l : List Nat) (from_ : Nat) : List Nat := l.filter (from_ ≤ ·) ++ l.filter (· < from_)

/-- The slice whose chunk a free engine takes: one with budget left that has used the least, else the next in rotation (R324). -/
def Dev.pickSlice (d : Dev) : Option Nat :=
  let l := rotated ((List.range 64).filter d.sliceReady) d.bulk.rot
  let rich := l.filter fun k => decide ((d.share k).used < (d.share k).budget)
  match rich.find? fun k => rich.all fun j => decide ((d.share k).used ≤ (d.share j).used) with
  | some k => some k
  | none => l.head?

/-- A chunk gets the tag it needs: a remote chunk that has none takes one of the table, if one is free (R326). -/
def Dev.tagChunk (d : Dev) (remote : Bool) (c : BulkChunk) : Option (BulkChunk × Dev) :=
  if remote && c.ctag.isNone then d.takeCtag.map fun r => ({ c with ctag := some r.1 }, r.2) else some (c, d)

/-- Take the next chunk of a queue. -/
def Dev.takeChunk (d : Dev) (k i : Nat) : Option (BulkChunk × Dev) :=
  (d.queueWork k i).bind fun x =>
    let len := x.chunkLen x.next
    let c : BulkChunk := { slice := k, queue := i, n := x.n, off := x.next, len := len, crc0 := x.crc, crc := x.crc, start := d.ring }
    (d.tagChunk (x.op == 5) c).map fun r => (r.1, r.2.modDesc k i x.n fun y => { y with next := y.next + len })

/-- The descriptor of a chunk. -/
def Dev.descOf (d : Dev) (c : BulkChunk) : Option BulkDesc := (d.bulkQueue c.slice c.queue).descs.find? fun x => x.n == c.n

/-- The chunk of REMOTE_COPY. -/
def Dev.remoteChunk (d : Dev) (c : BulkChunk) : Bool := (d.descOf c).any fun x => x.op == 5

/-- The first chunk to be taken up again, with its tag. -/
def Dev.takeReady (d : Dev) : Option (BulkChunk × Dev) :=
  (d.bulk.ready.find? fun c => !d.remoteChunk c || c.ctag.isSome || d.freeCtag.isSome).bind fun c =>
    (d.tagChunk (d.remoteChunk c) c).map fun r =>
      ({ r.1 with start := d.ring }, r.2.modBulk fun b => { b with ready := b.ready.erase c })

/-- CHUNK_DISPATCH (R324): a free engine takes up a resumed chunk, or the next one. -/
def chunkDispatchEff (e : Nat) (d : Dev) : Dev :=
  if 8 ≤ e || !bit (d.get BLK_ENG_CTL.EN) e || (d.engineChunk e).isSome then d
  else match d.takeReady with
    | some (c, d) => (d.setEngine e (some c)).showBulk
    | none =>
      match d.pickSlice with
      | none => d
      | some k =>
        match (d.sliceQueues k).head? with
        | none => d
        | some i =>
          match d.takeChunk k i with
          | none => d
          | some (c, d) =>
            (((d.setEngine e (some c)).modBulk fun b => { b with rot := (k + 1) % 64 }).modShare k
              fun s => { s with next := (i + 1) % 1024 }).showBulk

/-- CHUNK_COMPLETE (R311): the chunk of an engine is carried out. A stalled one is parked, at most eight for a slice; a remote one
waits for its acknowledgement; one that meets a line with something under way stays on its engine, to go on from there (R168). -/
def chunkCompleteEff (e : Nat) (d : Dev) : Dev :=
  match d.engineChunk e with
  | none => d
  | some c =>
    match d.descOf c with
    | none => ((d.charge c).setEngine e none).noteWork
    | some x =>
      match d.runChunk 66 x c with
      | (.stalled, c, d) =>
        if 8 ≤ (d.bulk.parked.filter fun y => y.slice == c.slice).length then (d.setEngine e (some c)).showBulk
        else (((d.charge c).setEngine e none).modBulk fun b => { b with parked := b.parked ++ [c] }).noteWork
      | (.done, c, d) =>
        let d := (d.charge c).setEngine e none
        if x.op = 5 then (d.modBulk fun b => { b with remote := b.remote ++ [c] }).noteWork else d.chunkDone c
      | (.failed s, c, d) => (((d.charge c).setEngine e none).lateChunk c).chunkFailed c s
      | (.waits, c, d) => (d.setEngine e (some c)).showBulk
      | (.differs o, c, d) => ((d.charge c).setEngine e none).chunkDiffers c o

/-- EPOCH_BOUNDARY (R324): running chunks are charged to the epoch that ends, and every bound slice gets its budget: an equal part,
one of the clocks left over, and what it still owed to a slice that had work throughout. -/
def epochEff (d : Dev) : Dev :=
  let d := (List.range 8).foldl (fun d e => match d.engineChunk e with
    | some c => (d.charge c).setEngine e (some { c with start := d.ring })
    | none => d) d
  let bound := d.boundSlices
  let n := bound.length
  if n = 0 then d
  else
    let clocks := ((List.range 8).filter fun e => bit (d.get BLK_ENG_CTL.EN) e).length * 1500
    let extra := (rotated bound d.bulk.rotLeft).take (clocks % n)
    let d := bound.foldl (fun d k => d.modShare k fun s =>
      let owed := if s.busy then s.budget - s.used else 0
      { s with budget := clocks / n + (if extra.contains k then 1 else 0) + owed, used := 0, busy := true }) d
    (d.modBulk fun b => { b with rotLeft := match extra.getLast? with
      | some k => (k + 1) % 64
      | none => b.rotLeft }).noteWork

/-! ### Binding and queues (R313, R316, R317, R320) -/

/-- The answer of a bind command: 0 OK, 1 NO_SLICE, 2 BOUND, 3 INVALID, 4 NOT_BOUND, 5 BUSY. -/
def Dev.bindAnswer (d : Dev) (k status : Nat) : Dev := (d.put BLK_BIND_RESULT.SLICE k).put BLK_BIND_RESULT.STATUS status

/-- BIND (R313). -/
def bindEff (pasid qlog2 : Nat) (d : Dev) : Dev :=
  let bound := d.boundSlices
  if qlog2 < 4 || 12 < qlog2 then d.bindAnswer 0 3
  else match bound.find? fun k => d.get BLK_SLICE_CTL.PASID 0 k == pasid % 2 ^ 20 with
    | some k => d.bindAnswer k 2
    | none =>
      match (List.range 64).find? fun k => !d.sliceBound k with
      | none => d.bindAnswer 0 1
      | some k =>
        if d.bulk.limit ≤ bound.length then d.bindAnswer 0 1
        else
          let d := ((d.put BLK_SLICE_CTL.BOUND 1 0 k).put BLK_SLICE_CTL.QLOG2 qlog2 0 k).put BLK_SLICE_CTL.PASID pasid 0 k
          (d.modBulk fun b => { b with shares := b.shares.set natLt {} k {} }).bindAnswer k 0

/-- UNBIND (R313). Descriptors that have been fetched and not started go with the binding. DESIGN CHOICE, assumption 36. -/
def unbindEff (k : Nat) (d : Dev) : Dev :=
  if !d.sliceBound k then d.bindAnswer (k % 64) 4
  else if !d.sliceQuiet k || ((List.range 1024).any fun i => d.qState k i == 1) then d.bindAnswer k 5
  else
    let d := ((d.put BLK_SLICE_CTL.BOUND 0 0 k).put BLK_SLICE_CTL.QLOG2 0 0 k).put BLK_SLICE_CTL.PASID 0 0 k
    (d.modBulk fun b => { b with queues := b.queues.filter fun p => p.1 / 1024 != k }).bindAnswer k 0

/-- QUEUE_ENABLE (R316). Descriptors fetched before the queue was disabled still complete. In the safe state the write is ignored
(R354). -/
def queueEnableEff (k i : Nat) (d : Dev) : Dev :=
  if !d.sliceBound k || 1024 ≤ i || d.qState k i != 0 || d.flag EVC_STAT.SAFE then d
  else
    let d := ((d.modQueue k i fun q => { q with head := 0, first := q.fetched }).put DB_RING.EN 1 k i).put DB_TAIL.TAIL 0 k i
    ((d.put DB_STAT.DONE 0 k i).put DB_STAT.ERR 0 k i).setQState k i 1

/-- QUEUE_DISABLE (R316, R317): fetching stops; fetched descriptors complete. A queue in RESET stays there until its reset is
over. -/
def queueDisableEff (k i : Nat) (d : Dev) : Dev :=
  if !d.sliceBound k || 1024 ≤ i then d
  else
    let d := d.put DB_RING.EN 0 k i
    if d.qState k i = 3 then d else (d.setQState k i 0).noteWork

/-- DB_TAIL_WRITE (R317): more than the credits, or a lower count, is an error. -/
def dbTailEff (k i tail : Nat) (d : Dev) : Dev :=
  let t := tail % 2 ^ 32
  if !d.sliceBound k || 1024 ≤ i then d
  else if d.qState k i ≠ 1 then d.put DB_TAIL.TAIL t k i
  else
    let fromDone (v : Nat) : Nat := (v + 2 ^ 32 - d.get DB_STAT.DONE k i) % 2 ^ 32
    if d.credits k < fromDone t || fromDone t < fromDone (d.get DB_TAIL.TAIL k i) then (d.qError k i 1).noteWork
    else d.put DB_TAIL.TAIL t k i

/-- DESCRIPTOR_FETCH (R319, R320, R323). In the safe state no descriptor starts (R354). DEDUCED, assumption 58. With nothing to fetch,
the queue's records that waited for a line are written (R168). DESIGN CHOICE, assumption 19. -/
def descriptorFetchEff (k i : Nat) (d : Dev) : Dev :=
  let q := d.bulkQueue k i
  if !d.sliceBound k || 1024 ≤ i then d
  else if d.qState k i ≠ 1 || q.head = d.get DB_TAIL.TAIL k i || d.flag EVC_STAT.SAFE then ((d.drain k i).finishReset k).noteWork
  else
    let a := d.get DB_RING.ADDR k i * 4096 + q.head % d.credits k * 64
    match d.bulkRead 2 k a 64 false (some (.fetch k i)) with
    | (.error .stall, d) | (.error .busy, d) => d
    | (.error (.fail _), d) | (.ok (_, true), d) => ((d.qError k i 2).raise 107).noteWork
    | (.ok (v, false), d) =>
      let x : BulkDesc := { n := q.fetched, place := q.head, words := BitVec.ofNat 512 v }
      let status := if x.invalid (d.get TRK_PKG_ID.PKG_ID) then 0x10
        else if x.op = 5 && d.spanMask = 0 then 0x11 else 0
      let x : BulkDesc := { x with ended := status != 0, fail := if status = 0 then none else some (0, status)
                                   crc := if x.op = 4 then x.field 4 31 0 ^^^ 0xFFFFFFFF else 0 }
      let d := d.modQueue k i fun q => { q with head := (q.head + 1) % 2 ^ 32, fetched := q.fetched + 1
                                                descs := q.descs ++ [x] }
      (d.drain k i).noteWork

/-! ### Stall slots (R304, R305) -/

/-- Chunks of a slice that were parked behind a stall go to the first free engine, once no stall of the slice is left. -/
def Dev.unpark (d : Dev) (k : Nat) : Dev :=
  if d.deviceHeld 8 k then d
  else
    let mine := d.bulk.parked.filter fun c => c.slice == k
    (d.releaseDevice 8 k).modBulk fun b => { b with parked := b.parked.filter fun c => c.slice != k, ready := b.ready ++ mine }

/-- A parked chunk. -/
def Dev.parkedChunk (d : Dev) (w : Stalled) : Option BulkChunk := d.bulk.parked.find? fun c => c.who == w

/-- A stalled request is aborted: a device's, or a slice's, whose chunk, fetch or completion fails. -/
def Dev.abortSlot (d : Dev) (slot : Nat) : Dev :=
  match d.ttu.stalls.find none slot with
  | none => d
  | some (.device r) => d.abortStalled slot r
  | some (.chunk k i n o) =>
    let d := d.setSlot slot none
    let d := match d.parkedChunk (.chunk k i n o) with
      | some c => (d.modBulk fun b => { b with parked := b.parked.erase c }).chunkFailed c 0x12
      | none => d
    (d.unpark k).noteWork
  | some (.fetch k i) => (((d.setSlot slot none).qError k i 2).raise 107).unpark k |>.noteWork
  | some (.completion k i) => (((d.setSlot slot none).qError k i 3).raise 107).unpark k |>.noteWork

/-- A stalled request is translated again from the tables. -/
def Dev.resumeSlot (d : Dev) (slot : Nat) : Dev :=
  match d.ttu.stalls.find none slot with
  | none => d
  | some (.device r) => d.resumeStalled slot r
  | some (.chunk k i n o) =>
    let d := d.setSlot slot none
    let d := match d.parkedChunk (.chunk k i n o) with
      | some c => d.modBulk fun b => { b with parked := b.parked.erase c, ready := b.ready ++ [{ c with bypass := true }] }
      | none => d
    (d.unpark k).noteWork
  | some (.fetch k i) => ((descriptorFetchEff k i (d.setSlot slot none)).unpark k).noteWork
  | some (.completion k i) => (((d.setSlot slot none).drain k i).unpark k).noteWork

/-- The slot holds a request. -/
def Dev.slotUsed (d : Dev) (slot : Nat) : Bool := decide (slot < 256) && (d.ttu.stalls.find none slot).isSome

/-- STALL_RESUME (R304). -/
def stallResumeEff (slot : Nat) (d : Dev) : Dev := if d.slotUsed slot then d.resumeSlot slot else d.put TTU_STAT.STALE_CMD 1

/-- STALL_ABORT (R304). -/
def stallAbortEff (slot : Nat) (d : Dev) : Dev := if d.slotUsed slot then d.abortSlot slot else d.put TTU_STAT.STALE_CMD 1

/-- STALL_TIMEOUT (R304). -/
def stallTimeoutEff (slot : Nat) (d : Dev) : Dev := if d.slotUsed slot then (d.abortSlot slot).bump TTU_CNT.STALL_TMO else d

/-- WALK_TIMEOUT (R301): a walk read is not answered in time; a late answer is discarded. Tags from 2^32 on name the engine whose
chunk's walk is not answered. DESIGN CHOICE, assumption 5. -/
def walkTimeoutEff (tag : Nat) (d : Dev) : Dev :=
  if tag < 2 ^ 32 then
    match d.ttu.walks.find? fun w => w.tag == tag with
    | none => d
    | some w =>
      if !d.recordMay faultQueue then d else
      let d := d.modTtu fun t => { t with walks := t.walks.erase w }
      let d := match d.walkWants w with
        | some r => d.ttuFinish w.job (.fault 7 r.place r.ctx r.used)
        | none => d
      d.releaseDevice w.job.device.1 w.job.device.2
  else
    let e := tag - 2 ^ 32
    match d.engineChunk e with
    | none => d
    | some c =>
      match d.descOf c with
      | none => d
      | some x =>
        let iova := (if x.op = 2 then x.dst else x.src) + c.off + c.pos
        let pasid := d.get BLK_SLICE_CTL.PASID 0 c.slice
        let job : TtuJob := .access { seg := 8, rid := c.slice, pasid := some pasid, addr := iova, size := 1
                                      op := if x.op = 2 then .write else .read }
        match ttuWalk d.ttuDdt (fun _ => none) job with
        | .error (.read r) =>
          if !d.recordMay faultQueue then d else
          let d := (d.ttuFault 7 r.place r.ctx r.used ⟨8, c.slice, some pasid, iova, x.op == 2, none⟩).2
          ((d.charge c).setEngine e none).chunkFailed c 0x12
        | _ => d

/-! ### Slice reset and engine control (R328 to R330) -/

/-- SLICE_RESET (R328): its queues stop, parked chunks end with their stalled requests aborted, and what engines hold runs on. -/
def sliceResetEff (k : Nat) (d : Dev) : Dev :=
  if !d.sliceBound k || d.flag BLK_SLICE_STAT.RESETTING 0 k then d
  else
    let d := (d.put BLK_SLICE_STAT.RESETTING 1 0 k).put BLK_SLICE_STAT.RESET_DONE 0 0 k
    let d := (List.range 1024).foldl (fun d i => d.setQState k i 3) d
    let slots := d.ttu.stalls.filterMap fun p => match p.2 with
      | some (.chunk j _ _ _) | some (.fetch j _) | some (.completion j _) => if j = k then some p.1 else none
      | _ => none
    let d := slots.foldl (fun d s => d.setSlot s none) d
    let ended := (d.bulk.parked ++ d.bulk.ready).filter fun c => c.slice == k
    let d := d.modBulk fun b => { b with parked := b.parked.filter fun c => c.slice != k
                                         ready := b.ready.filter fun c => c.slice != k }
    let d := ended.foldl (fun d c => (d.lateChunk c).modDesc k c.queue c.n fun x => { x with fail := some (c.off, 0x17) }) d
    ((d.releaseDevice 8 k).finishReset k).noteWork

/-- An engine is re-initialised (R330): its chunk is re-issued from its start on another engine; one of a slice in reset ends its
descriptor. -/
def Dev.reinit (d : Dev) (e : Nat) : Dev :=
  let d := d.bump BLK_ENG_STAT.REINITS
  match d.engineChunk e with
  | none => d
  | some c =>
    let d := ((d.charge c).setEngine e none).lateChunk c
    if d.flag BLK_SLICE_STAT.RESETTING 0 c.slice then d.chunkFailed c 0x18
    else
      let c : BulkChunk := { c with pos := 0, crc := c.crc0, ctag := if 0 < c.pos then none else c.ctag }
      (d.modBulk fun b => { b with ready := b.ready ++ [c] }).noteWork

/-- SLICE_RESET_ESCALATE (R329). -/
def sliceEscalateEff (k : Nat) (d : Dev) : Dev :=
  if !d.sliceBound k || !d.flag BLK_SLICE_STAT.RESETTING 0 k then d
  else
    let d := (d.bulk.remote.filter fun c => c.slice == k).foldl Dev.lateChunk d
    let d := d.modBulk fun b => { b with remote := b.remote.filter fun c => c.slice != k }
    let d := ((d.put BLK_SLICE_STAT.ESCALATED 1 0 k).raise 107)
    let d := (List.range 8).foldl (fun d e => match d.engineChunk e with
      | some c => if c.slice = k then d.reinit e else d
      | none => d) d
    (d.finishReset k).noteWork

/-- ENGINE_DISABLE (R330). -/
def engineDisableEff (e : Nat) (d : Dev) : Dev :=
  if 8 ≤ e then d else (d.put BLK_ENG_CTL.EN (setBit (d.get BLK_ENG_CTL.EN) e false)).showBulk

/-- ENGINE_ENABLE (R330). In the safe state the write is ignored (R354). -/
def engineEnableEff (e : Nat) (d : Dev) : Dev :=
  if 8 ≤ e || d.flag EVC_STAT.SAFE then d else (d.put BLK_ENG_CTL.EN (setBit (d.get BLK_ENG_CTL.EN) e true)).showBulk

/-- ENGINE_REINIT (R330). -/
def engineReinitEff (e : Nat) (d : Dev) : Dev := if 8 ≤ e then d else (d.reinit e).showBulk

/-! ### Remote copies (R326, R327) -/

/-- A remote chunk ends at its source, whether all of its lines have left or an engine still holds it. -/
def Dev.remoteEnds (d : Dev) (c : BulkChunk) (status : Nat) : Dev :=
  let d := (List.range 8).foldl (fun d e => if d.engineChunk e = some c then (d.charge c).setEngine e none else d) d
  let d := d.modBulk fun b => { b with remote := b.remote.erase c, parked := b.parked.erase c, ready := b.ready.erase c }
  if status = 0 then d.chunkDone c else d.chunkFailed c status

/-- Remote chunks with lines that have left and no ACK. -/
def Dev.outstanding (d : Dev) : List BulkChunk := d.bulk.chunks.filter fun c => c.ctag.isSome && decide (0 < c.pos)

/-- RCOPY_TIMEOUT (R327). -/
def rcopyTimeoutEff (ctag : Nat) (d : Dev) : Dev :=
  match d.bulk.remote.find? fun c => c.ctag == some ctag with
  | some c => (d.lateChunk c).remoteEnds c 0x16
  | none => d

/-- A port goes down: every outstanding remote chunk through it is UNREACHABLE (R327). -/
def Dev.rcopyPortDown (d : Dev) (port : Nat) : Dev :=
  (d.outstanding.filter fun c => c.port == port).foldl (fun d c => (d.lateChunk c).remoteEnds c 0x15) d

/-- Send an RCOPY ACK to the source package. -/
def Dev.sendRcopyAck (d : Dev) (spkg ctag : Nat) (access : Bool) : Dev :=
  d.sendSpan spkg fun port => .rcopyAck port (d.get TRK_PKG_ID.PKG_ID) spkg 8 ctag access

/-- RCOPY_WRITE (R327): a line of a chunk is written here, as class 6 of the region firewall, or the packet goes on. The ACK follows
the last line, or the first that is refused. In the safe state every WRITE is refused (R354). A write waits while something is under way
for its line (R168). -/
def rcopyWriteEff (port : Nat) (p : RcopyPkt) (d : Dev) : Dev :=
  if p.dpkg = d.get TRK_PKG_ID.PKG_ID && mainMemory p.addr && !d.lineIdle (p.addr / 64) then d else
  let d := d.take (.rcopy port p)
  if !d.spanHears port then d
  else if p.dpkg ≠ d.get TRK_PKG_ID.PKG_ID then
    d.spanForward port p.dpkg p.ttl fun q t => .rcopy q { p with ttl := t }
  else
    let x := (d.bulk.arriving.find? fun a => a.port == port && a.spkg == p.spkg && a.ctag == p.ctag).getD
      { port := port, spkg := p.spkg, ctag := p.ctag, nlines := p.nlines }
    let line := p.addr / 64
    let c := d.memCheck 6 0 true (64 * line)
    let safe := d.flag EVC_STAT.SAFE
    let ok := c == .ok && mainMemory (64 * line) && !safe
    let d := if ok then
        (if p.mask % 2 ^ 64 = 2 ^ 64 - 1 then d.cohWrite line p.data else d.cohWritePart line (p.mask % 2 ^ 64) p.data)
      else if safe then d
      else d.memRefused (if c == .ok then .undecoded else c) 6 0 true (64 * line)
    let x' : RcopyIn := { x with lines := if x.lines.contains p.line then x.lines else x.lines ++ [p.line]
                                 refused := x.refused || !ok }
    let whole := decide (x'.nlines ≤ x'.lines.length)
    let d := d.modBulk fun b =>
      { b with arriving := (b.arriving.filter (· != x)) ++ (if whole then [] else [x']) }
    if x'.refused && !x.refused then d.sendRcopyAck p.spkg p.ctag true
    else if whole && !x'.refused then d.sendRcopyAck p.spkg p.ctag false
    else d

/-- RCOPY_ACK (R327): a refusal may come while lines of the chunk are still to leave. A late one is discarded. -/
def rcopyAckEff (port spkg dpkg ttl ctag : Nat) (access : Bool) (d : Dev) : Dev :=
  let d := d.take (.rcopyAck port spkg dpkg ttl ctag access)
  if !d.spanHears port then d
  else if dpkg ≠ d.get TRK_PKG_ID.PKG_ID then
    d.spanForward port dpkg ttl fun q t => .rcopyAck q spkg dpkg t ctag access
  else match (if access then d.outstanding else d.bulk.remote).find? fun c => c.ctag == some ctag with
    | some c => d.remoteEnds c (if access then 0x14 else 0)
    | none => d.modBulk fun b => { b with late := b.late.erase ctag }

end Sys2Proof.Machine
end

