-- ==== Sys2Proof/Machine/Hio.lean ====
section
/-!
DEFINITION. The root ports and CXL ports (spec/12, R283 to R291): configuration, links, MMIO timeouts, DPC and AER, and the CXL
memory ranges.
-/

namespace Sys2Proof.Machine

/-- HIO_RP_CFG_WRITE (R283, R288): BIFUR and CXL only while no link is enabled, CXL on ports 0 to 3 only; bits of root ports that do
not exist are ignored. -/
def hioCfgEff (n : Nat) (value : Word) (d : Dev) : Dev :=
  if 8 ≤ n || !bit d.rpMask n then d
  else
    let free := d.get HIO_CFG.LINK_EN n = 0
    let d := if free then d.put HIO_CFG.BIFUR (value.bits 5 4) n else d
    let d := if free && n < 4 then d.put HIO_CFG.CXL (value.bits 8 8) n else d
    d.put HIO_CFG.LINK_EN ((List.range 4).foldl (fun m k =>
      if d.rpExists (4 * n + k) && bit (value.bits 3 0) k then setBit m k true else m) 0) n

/-- A bit of a root port in a field of HIO_RPn_STAT. -/
def Dev.setRpBit (d : Dev) (f : Fld) (r : Nat) (v : Bool) : Dev := d.put f (setBit (d.get f (r / 4)) (r % 4) v) (r / 4)

/-- ROOT_PORT_LINK_UP (R284): the link of an enabled root port. A port that DPC held has been released by then. -/
def linkUpEff (r : Nat) (d : Dev) : Dev :=
  if d.rpExists r && bit (d.get HIO_CFG.LINK_EN (r / 4)) (r % 4) then
    (d.setRpBit HIO_STAT.UP r true).setRpBit HIO_STAT.DPC r false
  else d

/-- ROOT_PORT_LINK_DOWN (R291). -/
def linkDownEff (r : Nat) (d : Dev) : Dev := if d.rpExists r then d.setRpBit HIO_STAT.UP r false else d

/-- INTX_MESSAGE (R284): discarded and counted. -/
def intxEff (n : Nat) (d : Dev) : Dev :=
  if n < 8 && bit d.rpMask n && !d.broken (.trunk (0x30 + n)) then d.bump HIO_STAT.INTX 1 n else d

/-- MMIO_COMPLETION_TIMEOUT (R286): the oldest read of the root port returns all-ones and an error response. -/
def mmioTimeoutEff (r : Nat) (d : Dev) : Dev :=
  match d.packets.find? fun p => match p with
    | .mmioRead q _ _ => q == r
    | _ => false with
  | some (.mmioRead q h a) => (d.take (.mmioRead q h a)).emit (.ioAnswer h a (BitVec.allOnes 64) true)
  | _ => d

/-- DPC_TRIGGER (R287). -/
def dpcEff (r : Nat) (d : Dev) : Dev :=
  if !d.rpExists r then d
  else
    let d := d.failMmio r
    let d := d.lose fun p => match p with
      | .mmioWrite q _ _ _ => q == r
      | _ => false
    let below (q : DevReq) : Bool := q.seg == r / 4 && (d.rpHasBus r (q.rid / 256) || q.rid == 8 * (r % 4))
    let slots := d.ttu.stalls.filterMap fun p => match p.2 with
      | some (.device q) => if below q then some p.1 else none
      | _ => none
    let d := d.setRpBit HIO_STAT.DPC r true
    (slots.foldl (fun d s => d.abortSlot s) d).raise (74 + r)

/-- AER_ERROR_MESSAGE (R287): the port's event source, and the root port's own MSI, whose enable and data lie in its standard
configuration space and are left free. -/
def aerEff (r : Nat) (d : Dev) : Dev :=
  if !d.rpExists r then d
  else
    let (w, d) := d.freeNext
    let d := if w.getLsbD 16 then d.startJob (.msi (r / 4) (8 * (r % 4)) (w.bits 15 0)) else d
    d.raise (74 + r)

/-! ### CXL memory (R289 to R291) -/

/-- The port carries CXL (R288). -/
def Dev.cxlMode (d : Dev) (n : Nat) : Bool :=
  decide (n < 4) && bit d.cxlMask n && d.flag HIO_CFG.CXL n && d.get HIO_CFG.BIFUR n == 0

/-- CXL_RANGE_ENABLE (R289): a write of EN = 1. -/
def cxlEnableEff (n : Nat) (d : Dev) : Dev :=
  if d.cxlMode n && d.rpUp (4 * n) && !d.flag HIO_CXL.CLOSING n then d.put HIO_CXL.EN 1 n else d

/-- Lines of a port's range with a directory entry at its home. -/
def Dev.cxlEntries (d : Dev) (n : Nat) : List Nat :=
  ((d.home (n / 2)).dir.filter fun p => p.2.st != .invalid && cxlPort p.1 == some n).map (·.1)

/-- Evictions are opened for the entries of a port's range whose line has no transaction open. -/
def Dev.cxlEvict (d : Dev) (n : Nat) : Dev :=
  (d.cxlEntries n).foldl (fun d line =>
    if ((d.home (n / 2)).txn line).isSome then d else d.openEvict (resumeHome (resumeFuel d (n / 2))) (n / 2) line) d

/-- CXL_RANGE_CLOSE (R290, steps 1 and 2). -/
def cxlCloseEff (n : Nat) (d : Dev) : Dev :=
  if 4 ≤ n || !d.flag HIO_CXL.EN n || d.flag HIO_CXL.CLOSING n then d else (d.put HIO_CXL.CLOSING 1 n).cxlEvict n

/-- Something of the range is still open: a transaction, a request to the device, or a write-back or request on its way. -/
def Dev.cxlBusy (d : Dev) (n : Nat) : Bool :=
  let here (line : Nat) : Bool := cxlPort line == some n
  ((d.home (n / 2)).txns.any fun t => here t.req.line) || ((d.home (n / 2)).queue.any fun r => here r.line)
  || ((d.home (n / 2)).slotWait.any fun r => here r.line)
  || ((d.home (n / 2)).waiting.any fun w => match w.1 with
    | .req r => here r.line
    | .slot _ l => here l)
  || !(d.cxl.find [] n).isEmpty
  || d.packets.any fun p => match p with
    | .wb _ line _ _ _ | .request _ { line := line, .. } | .nonalloc { line := line, .. } => here line
    | _ => false

/-- CXL_CLOSE_DONE (R290, step 4). -/
def cxlCloseDoneEff (n : Nat) (d : Dev) : Dev :=
  if 4 ≤ n || !d.flag HIO_CXL.CLOSING n then d
  else if !(d.cxlEntries n).isEmpty then d.cxlEvict n
  else if d.cxlBusy n then d
  else (d.put HIO_CXL.EN 0 n).put HIO_CXL.CLOSING 0 n

/-- The oldest request of a CXL port completes: accepted, or not (`ok`), with poison from the device. -/
def Dev.cxlComplete (d : Dev) (n : Nat) (ok poison : Bool) : Dev :=
  match d.cxl.find [] n with
  | [] => d
  | r :: rest =>
    let d := { d with cxl := d.cxl.set natLt [] n rest }
    let resume := resumeHome (resumeFuel d r.home)
    if r.write then
      let d := match r.data with
        | some x => if ok then d.storeLine r.line x else d
        | none => d
      match (d.home r.home).txn r.line with
      | some t =>
        if r.comp && t.fromMem then
          d.wroteTxn resume r.home { t with fromMem := false, poison := t.poison || !ok }
        else d
      | none => d
    else
      let x := d.storedLine r.line
      d.memoryData resume r.home r.line { x with poison := x.poison || poison || !ok }

/-- CXL_MEM_RESPONSE (R291). -/
def cxlResponseEff (n : Nat) (poison : Bool) (d : Dev) : Dev := d.cxlComplete n true poison

/-- CXL_MEM_TIMEOUT (R291): the request completes as over a link that is down, with the port's event. -/
def cxlTimeoutEff (n : Nat) (d : Dev) : Dev :=
  if (d.cxl.find [] n).isEmpty then d else (d.raise (74 + 4 * n)).cxlComplete n false true

end Sys2Proof.Machine
end

