-- ==== Sys2Proof/Machine/Time.lean ====
section
/-!
DEFINITION. The master ring count and its copies (spec/10, R238 to R243), and what a tick of the fabric clock does.
-/

namespace Sys2Proof.Machine

/-- Step the master forward, count the step, and synchronise every bough (R239). -/
def Dev.stepMaster (d : Dev) (n : Nat) : Dev :=
  ({ d with ring := d.ring + BitVec.ofNat 64 n }.bump TIM_STAT.STEPS).syncAll

/-- TIM_STEP (R239): 1 to 2^62 ticks; any other value has no effect. -/
def timStepEff (add : Word) (d : Dev) : Dev :=
  if add = 0 || 2 ^ 62 < add.toNat then d else d.stepMaster add.toNat

/-- RING_SYNC_PERIOD (R240). -/
def ringSyncPeriodEff (d : Dev) : Dev := d.syncAll

/-- An offset as SYNC_ACK carries it: saturated to −128..127. -/
def saturate8 (x : Int) : Int := max (-128) (min 127 x)

/-- RING_SYNC (R240): a bough loads, steps or slews its copy, and answers. -/
def ringSyncEff (s : Nat) (value : Word) (d : Dev) : Dev :=
  let d := d.take (.ringSync s value)
  if !d.siteActive s || d.isolated s || ((d.gate s).closed && !d.power.waking.contains s) then d
  else
    let c := d.copyInfo s
    let goal : Nat := value.toNat + d.get TIM_SITE.DELAY 0 s
    let offset : Int := (d.copy s).toNat - goal
    let good := if c.loaded && decide (-1 ≤ offset ∧ offset ≤ 1) then min (c.good + 1) 2 else 0
    let c' : CopyState := { c with loaded := true, good := good, ready := c.ready || good == 2
                                   slew := if !c.loaded || decide (offset < -1) then c.slew else decide (1 < offset) }
    let d := d.setCopyInfo s c'
    let d := if !c.loaded then d.setCopy s (BitVec.ofNat 64 goal)
      else if offset < -1 then (d.setCopy s (BitVec.ofNat 64 goal)).bump TIM_SITE.STEPS 1 0 s
      else d
    d.emit (.syncAck s (saturate8 offset))

/-- SYNC_ACK (R240): the trunk records the offset, and whether the copy is locked and slews. -/
def syncAckEff (s : Nat) (offset : Int) (d : Dev) : Dev :=
  let d := d.take (.syncAck s offset)
  if !d.siteActive s || d.isolated s then d
  else
    let c := d.copyInfo s
    let d := d.put TIM_SITE.OFFSET ((offset % 256).toNat) 0 s
    (d.put TIM_SITE.LOCKED (if c.good = 2 then 1 else 0) 0 s).put TIM_SITE.SLEW (if c.slew then 1 else 0) 0 s

/-- Crystal ticks in a number of ring ticks: 32,768 in 1,500,000,000 (R243).
DESIGN CHOICE, assumption 2. DESIGN CHOICE, assumption 29. -/
def crystalAt (ring : Nat) : Nat := ring * 32768 / 1500000000

/-- The state of PWR_PKG_CTL.STATE that stands for SLEEP, in which nothing but the standby domain runs. -/
def Dev.asleep (d : Dev) : Bool := d.power.unpowered

/-- The leaf clocks that pass in one tick (R356, R357): of the FIC at its nominal 750 MHz, one in two ticks; of the PLL clock, 6.0 GHz
over the divisor of the leaf's crown. DESIGN CHOICE, assumption 22. -/
def Dev.leafClocks (d : Dev) (n : Nat) : Nat :=
  let s := d.leafSite n
  let t := (d.copy s).toNat
  let passed (a b : Nat) : Nat := (t + 1) * a / b - t * a / b
  if d.flag BGH_LEAF_STAT.ON_FIC s (n % 16) then passed 1 2
  else
    let code := d.get ⟨.CLK_STAT, 2 * (s / 7) + 1, 2 * (s / 7)⟩
    passed 4 (if code = 0 then 2 else if code = 1 then 3 else if code = 2 then 4 else 6)

/-- What the clocks of a leaf count: mcycle, and the events 0x0001, 0x0020, 0x0021 and 0x0060 of R73. A leaf in IDLE has its clock.
DESIGN CHOICE, assumption 22. -/
def Leaf.clocked (l : Leaf) (k : Nat) (fic : Bool) : Leaf :=
  let l := if (l.csrRaw 0x320).getLsbD 0 then l else l.setCsr 0xB00 (l.csrRaw 0xB00 + BitVec.ofNat 64 k)
  let l := (l.countEvent 0x01 k).countEvent 0x21 (k * l.misses.length)
  let l := if l.stalled.isSome then l.countEvent 0x20 k else l
  if fic then l.countEvent 0x60 k else l

/-- The leaves of a bough count their clocks. -/
def Dev.clockLeaves (d : Dev) (s : Nat) : Dev :=
  (d.siteLeaves s).foldl (fun d n =>
    let k := d.leafClocks n
    if k = 0 || 2 ≤ d.get BGH_LEAF_STAT.PSTATE s (n % 16) then d
    else d.modLeaf n fun l => l.clocked k (d.flag BGH_LEAF_STAT.ON_FIC s (n % 16))) d

/-- The next word of an engine waits for data from memory: of a MEMRD under the interlock, or of its stimulus entry (R108). -/
def Dev.awaitsData (d : Dev) (n : Nat) : Bool :=
  let head := d.get LEE_STIM_CTL.HEAD n
  d.get LEE_STAT.BLOCK n == 4
  || ((d.fetchWord n).op == 0x18 && d.stimAvail n != 0 && !((d.lee n).stim.any fun s => s.count == head && s.lines.all (·.isSome)))

/-- The engines of a bough count their evaluation clocks, one in a tick: those with RUN = 1, those blocked in WAIT and in BARRIER, and those
that wait for data from memory (LEE_CNT events 1, 4, 5 and 6). DESIGN CHOICE, assumption 22. -/
def Dev.clockLees (d : Dev) (s : Nat) : Dev :=
  (d.siteLeaves s).foldl (fun d n =>
    if !d.flag LEE_STAT.RUN n then d
    else
      let d := (d.modLee n fun e => { e with clock := e.clock + 1 }).count LEE_CNT.COUNT 1 n 1
      let d := match d.get LEE_STAT.BLOCK n with
        | 1 => d.count LEE_CNT.COUNT 1 n 4
        | 2 => d.count LEE_CNT.COUNT 1 n 5
        | _ => d
      if d.awaitsData n then d.count LEE_CNT.COUNT 1 n 6 else d) d

/-- Fills that wait for an eviction buffer entry: a dirty victim could be had if the buffer of their slice were not full (R151). -/
def Bough.evbWaits (x : Bough) (ways : List Nat) : Nat :=
  (x.txns.filter fun t => t.filled.isSome && !(x.line t.line).valid && !(x.line t.line).locked && decide (32 ≤ x.evbUse (l3Slice t.line))
    && (x.chooseWay t.line ways).isNone
    && ({ x with evb := [] }.chooseWay t.line ways).isSome).length

/-- The memory controllers count their clocks with panic raised, two in three ticks (MEM_CNT event 2, R270). DESIGN CHOICE,
assumption 22. -/
def Dev.clockMemory (d : Dev) : Dev :=
  let t := d.ring.toNat
  let n := (t + 1) * 2 / 3 - t * 2 / 3
  if !d.flag TRC_STAT.PANIC || n = 0 then d
  else (List.range 16).foldl (fun d m => if d.channelPresent m && d.get MEM_STAT.STATE m ≠ 0 then d.count MEM_CNT.COUNT n m 2 else d) d

/-- What a tick of a bough die does: its leaves and engines count their clocks, its L3 the waits of fills (L3C_CNT event 3), and its ring count copy
counts, but for one increment in 64 ticks while it slews (R240). -/
def Dev.tickBough (d : Dev) (s : Nat) (c : CopyState) : Dev :=
  let d := (d.clockLeaves s).clockLees s
  let b := d.boughAt s
  let waits := (d.bough b).evbWaits (d.freeWays b)
  let d := if waits = 0 then d else d.count L3C_CNT.COUNT waits s 3
  if c.slew && c.phase == 63 then d.setCopyInfo s { c with phase := 0 }
  else (if c.slew then d.setCopyInfo s { c with phase := c.phase + 1 } else d).setCopy s (d.copy s + 1)

/-- A tick of the fabric clock: the master counts, but for one increment in 4,096 ticks while it slews (R235); every bough die whose copy is
loaded ticks while its PLL is locked; the RTC counts its crystal; the memory controllers count panic. While the trunk has no clock (SLEEP,
no supply, or its PLL not locked) only the RTC counts, as long as VSTBY is there. DESIGN CHOICE, assumption 2. DESIGN CHOICE, assumption 29.
-/
def Dev.tick (d : Dev) : Dev :=
  if !d.board.vstby then d
  else if d.asleep || !d.flag CLK_STAT.LOCK then d.count PWR_RTC.COUNT
  else
    let d := d.clockMemory
    let m := d.master
    let held := m.slew != 0 && m.phase == 4095
    let ring := if held then d.ring else d.ring + 1
    let d := if crystalAt d.ring.toNat < crystalAt ring.toNat then d.count PWR_RTC.COUNT else d
    let d := { d with ring := ring }
    let d := if held then
        { d with master := { m with slew := m.slew - 1, phase := 0 } }.put TIM_STAT.SLEWING (if m.slew ≤ 1 then 0 else 1)
      else if m.slew = 0 then d else { d with master := { m with phase := m.phase + 1 } }
    d.copyState.foldl (fun d p =>
      if !p.2.loaded || !d.flag BPW_STAT.PLL_LOCK p.1 then d else d.tickBough p.1 p.2) d

end Sys2Proof.Machine
end

