-- ==== Sys2Proof/Machine/Span.lean ====
section
/-!
DEFINITION. Span links (spec/09, R227 to R237): flits and replay, bring-up and failure, remote exchange windows and their
acknowledgements, and time across packages.
-/

namespace Sys2Proof.Machine

/-! ### Remote SENDs (R232) -/

/-- An outstanding remote SEND ends with UNREACHABLE: an ACK that comes later is discarded (R232, R237). -/
def Dev.endRemoteSend (d : Dev) (x : RemoteSend) : Dev :=
  let d := { d with remoteSends := d.remoteSends.erase x, lateTags := d.lateTags ++ [x.tag] }
  ((d.bump SPN_CNT.UNREACH 1 x.port).emit (.xchAck x.leaf x.imm .unreachable)).releaseAll

/-- XCH_WINDOW_REMOTE (R232): delivered here, or passed on. A window for an engine whose store is being cleared waits (R123). -/
def xchWindowRemoteEff (port : Nat) (w : SpanWindow) (d : Dev) : Dev :=
  let d := d.take (.spanWindow port w)
  if !d.spanHears port then d
  else if w.dpkg ≠ d.get TRK_PKG_ID.PKG_ID then
    d.spanForward port w.dpkg w.ttl fun q t => .spanWindow q { w with ttl := t }
  else
    let m : XchMsg := { sleaf := 0, dleaf := w.dleaf, slot := w.slot, step := w.step, mc := w.mc, lanes := w.lanes, imm := 0
                        remote := some (w.spkg, w.tag), data := w.data }
    xchArrivalEff m (d.emit (.xch m))

/-- XCH_ACK_REMOTE (R232): a late one is discarded. -/
def xchAckRemoteEff (port spkg dpkg ttl tag : Nat) (o : XchOutcome) (d : Dev) : Dev :=
  let d := d.take (.spanAck port spkg dpkg ttl tag o)
  if !d.spanHears port then d
  else if dpkg ≠ d.get TRK_PKG_ID.PKG_ID then d.spanForward port dpkg ttl fun q t => .spanAck q spkg dpkg t tag o
  else match d.remoteSends.find? fun x => x.tag == tag with
    | some x =>
      (({ d with remoteSends := d.remoteSends.erase x }).emit (.xchAck x.leaf x.imm o)).releaseAll
    | none => { d with lateTags := d.lateTags.erase tag }

/-- REMOTE_SEND_TIMEOUT (R232). -/
def remoteSendTimeoutEff (tag : Nat) (d : Dev) : Dev :=
  match d.remoteSends.find? fun x => x.tag == tag with
  | some x => d.endRemoteSend x
  | none => d

/-! ### Bring-up and failure (R230, R233, R236, R237) -/

/-- A port goes down with a cause (R237); `again` says whether it starts to train. -/
def Dev.spanDown (d : Dev) (c cause : Nat) (again : Bool) : Dev :=
  let d := (((d.put SPN_STAT.STATE (if again then 1 else 0) c).put SPN_STAT.CAUSE cause c).put SPN_STAT.LANES 0 c).put
    SPN_TIME.LOCKED 0 c
  let d := (d.modSpan c fun s => { crc := s.crc, last := s.last, dropped := s.dropped, heard := s.heard, offset := s.offset }).raise (54 + c)
  let d := d.breakGroupsOnPort c
  let d := (d.remoteSends.filter fun x => x.port == c).foldl (fun d x => d.endRemoteSend x) d
  d.rcopyPortDown c

/-- A port goes down and retrains while AUTO = 1. -/
def Dev.spanFails (d : Dev) (c cause : Nat) : Dev := d.spanDown c cause (d.flag SPN_CTL.AUTO c)

/-- The lanes that a port uses of those that work (R236, step 3): all 16, a half, or the lowest working group of four. -/
def spanLanes (work : List Nat) : List Nat :=
  let all (lo n : Nat) : Bool := ((List.range n).map (lo + ·)).all work.contains
  match [(0, 16), (0, 8), (8, 8), (0, 4), (4, 4), (8, 4), (12, 4)].find? fun p => all p.1 p.2 with
  | some (lo, n) => (List.range n).map (lo + ·)
  | none => []

/-- SPAN_LOCK_ACQUIRED (R228, R236, steps 1 to 3): of the lanes with lock, each with its lag in codewords, those within the reach of the deskew
are used, and HELLO goes out; with none there is no link. -/
def spanLockEff (c : Nat) (locked : List (Nat × Nat)) (d : Dev) : Dev :=
  if !d.spanEnabled c || d.spanBroken c || d.get SPN_STAT.STATE c ≠ 1 then d
  else
    let lanes := spanLanes ((locked.filter fun l => decide (l.2 ≤ 8)).map (·.1))
    if lanes.isEmpty then d.spanFails c 2
    else ((d.put SPN_STAT.LANES lanes.length c).modSpan c fun s => { s with lanes := lanes, codewords := [] }).emit (.hello c)

/-- HELLO (R230, R233): a loop or a round trip above 1.2 µs, 1,800 ticks, holds the link down. -/
def helloEff (c pkg peerPort beh rtt : Nat) (d : Dev) : Dev :=
  if !d.spanEnabled c || d.spanBroken c || d.get SPN_STAT.STATE c ≠ 1 || d.get SPN_STAT.LANES c = 0 then d
  else
    let d := (((d.put SPN_STAT.PEER_PKG pkg c).put SPN_STAT.PEER_PORT peerPort c).put SPN_STAT.PEER_BEH beh c).put
      SPN_STAT.RTT (min rtt 65535) c
    if pkg = d.get TRK_PKG_ID.PKG_ID then d.spanDown c 3 false
    else if 1800 < rtt then d.spanDown c 4 false
    else (d.modSpan c fun s => { s with hello := true }).emit (.creditInit c)

/-- CREDIT_INIT (R236, step 5): the port is up. -/
def creditInitEff (c : Nat) (d : Dev) : Dev :=
  if !d.spanEnabled c || d.spanBroken c || d.get SPN_STAT.STATE c ≠ 1 || !(d.span c).hello then d
  else (d.put SPN_STAT.STATE 2 c).modSpan c fun s => { s with credits := spanCredits, heard := d.ring }

/-- KEEPALIVE (R237): the port's timeout starts anew. -/
def keepaliveEff (c : Nat) (d : Dev) : Dev :=
  if d.spanHears c then d.modSpan c fun s => { s with heard := d.ring } else d

/-- KEEPALIVE_PERIOD (R237). -/
def keepalivePeriodEff (c : Nat) (d : Dev) : Dev := if d.spanUp c then d.emit (.keepalive c) else d

/-- KEEPALIVE_TIMEOUT (R237). -/
def keepaliveTimeoutEff (c : Nat) (d : Dev) : Dev := if d.spanUp c then d.spanFails c 5 else d

/-- SPAN_LOSS_OF_LOCK (R237): of a lane in use. -/
def spanLossEff (c : Nat) (d : Dev) : Dev := if d.spanUp c then d.spanFails c 1 else d

/-- SPAN_RETRAIN (R236, R237). -/
def spanRetrainEff (c : Nat) (d : Dev) : Dev := if d.spanEnabled c then d.spanDown c 7 true else d

/-! ### Span flits (R229, R230) -/

/-- Bits [hi:lo] of a span flit. -/
def spanBits (f : BitVec 1024) (hi lo : Nat) : Nat := (f.extractLsb' lo (hi - lo + 1)).toNat

/-- The CRC-32C of bytes 0 to 123. -/
def spanCrc (f : BitVec 1024) : Nat := crcBytes 124 0xFFFFFFFF f.toNat ^^^ 0xFFFFFFFF

/-- A codeword begins on a lane in use: what FEC makes of it is counted (R228). -/
def Dev.codewordStarts (d : Dev) (c : Nat) (w : SpanCodeword) : Dev :=
  if !(d.span c).lanes.contains w.lane then d
  else
    let d := match w.fec with
      | .ok => d
      | .corrected => d.bump SPN_FEC.CORR 1 c
      | .uncorrectable => d.bump SPN_FEC.UNCORR 1 c
    d.modSpan c fun s => { s with codewords := s.codewords.set natLt none w.lane (some w) }

/-- The codewords that the lanes in use are receiving. -/
def SpanSide.current (s : SpanSide) : List SpanCodeword := s.lanes.filterMap fun l => s.codewords.find none l

/-- The sequence of a codeword modulo 4,096 (R228). -/
def codewordSeq (w : SpanCodeword) : Nat := (w.header.extractLsb' 4 12).toNat

/-- A codeword of the flit cannot be corrected (R229). -/
def SpanSide.uncorrectable (s : SpanSide) : Bool := s.current.any fun w => w.fec == .uncorrectable

/-- The deskew has every lane in use at one codeword sequence (R228). -/
def SpanSide.aligned (s : SpanSide) : Bool :=
  let good := s.current.filter fun w => w.fec != .uncorrectable
  s.current.length == s.lanes.length && good.all fun w => good.head?.all fun v => codewordSeq v == codewordSeq w

/-- The receiver asks once for a replay from the SEQ it expects (R216, R230). -/
def Dev.spanAsk (d : Dev) (c : Nat) : Dev :=
  if (d.span c).asked then d
  else (d.modSpan c fun s => { s with asked := true }).emit (.spanRetry c (d.span c).expect)

/-- The expected flit fails: sixteen failures in a row take the link down (R230). -/
def Dev.spanSeqFails (d : Dev) (c : Nat) : Dev :=
  let n := (d.span c).fails + 1
  let d := (d.modSpan c fun s => { s with fails := n, asked := false }).spanAsk c
  if 16 ≤ n then d.spanFails c 6 else d

/-- The header of a span packet in payload bytes 0 to 15 of its SOP flit (R231). -/
def spanHeader (flits : List (BitVec 1024)) : SpanPacket :=
  let f := flits.headD 0
  { cls := spanBits f 66 64, opc := spanBits f 71 67, ttl := spanBits f 75 72, spkg := spanBits f 85 80, dpkg := spanBits f 93 88
    fields := f.extractLsb' 96 96, payloads := flits.map (·.extractLsb' 64 928) }

/-- A flit of a packet is accepted: its packet is gathered from SOP to EOP, and one of a class that is not used is discarded and counted
(R229, R231). -/
def SpanSide.accept (s : SpanSide) (f : BitVec 1024) : SpanSide :=
  let cls := spanBits f 8 6
  let before := s.rx.find [] cls
  let flits := if f.getLsbD 4 then [f] else if before.isEmpty then [] else before ++ [f]
  let s := { s with rx := s.rx.set natLt [] cls (if f.getLsbD 5 then [] else flits) }
  if !f.getLsbD 5 || flits.isEmpty then s
  else if 5 ≤ (spanHeader flits).cls then { s with dropped := s.dropped + 1 }
  else { s with last := some (spanHeader flits) }

/-- The sender acts on an acknowledgement and on returned credits (R216, R229). -/
def SpanSide.credited (s : SpanSide) (f : BitVec 1024) : SpanSide :=
  let ack := spanBits f 32 21
  { s with
    replay := if f.getLsbD 33 && s.replay.any (fun e => (e.1 + 1) % 4096 == ack) then
        (s.replay.dropWhile fun e => (e.1 + 1) % 4096 != ack).drop 1 else s.replay
    credits := s.credits.set natLt 0 (spanBits f 36 34) (s.credits.find 0 (spanBits f 36 34) + spanBits f 44 37) }

/-- RETRY: the flits from the named SEQ on leave again, in order (R216, R230). -/
def Dev.spanResend (d : Dev) (c seq : Nat) : Dev :=
  let d := d.bump SPN_CNT.REPLAYS 1 c
  match (d.span c).replay.dropWhile fun e => e.1 != seq with
  | [] => d
  | l => d.emit (.spanReplay c seq l.length)

/-- SPAN_FLIT_RECEIVE (R228 to R231), with the codewords that begin with it: a flit in an uncorrectable codeword counts as a CRC failure.
DESIGN CHOICE, assumption 21. DESIGN CHOICE, assumption 30. -/
def spanFlitEff (c : Nat) (f : BitVec 1024) (codewords : List SpanCodeword) (d : Dev) : Dev :=
  if !d.spanHears c then d
  else
    let d := codewords.foldl (fun d w => d.codewordStarts c w) d
    let s := d.span c
    let seq := spanBits f 20 9
    if !s.aligned then d
    else if s.uncorrectable || spanCrc f ≠ spanBits f 1023 992 then
      let d := d.modSpan c fun s => { s with crc := s.crc + 1 }
      if s.asked && seq ≠ s.expect then d else d.spanSeqFails c
    else
      let d := (d.modSpan c fun s => s.credited f).releaseSpan c
      match spanBits f 3 0 with
      | 1 =>
        if seq ≠ s.expect then d.spanAsk c
        else d.modSpan c fun s => { s.accept f with expect := (s.expect + 1) % 4096, asked := false, fails := 0 }
      | 2 => d.spanResend c seq
      | 3 => d.modSpan c fun s => s.accept f
      | _ => d

/-! ### Time across packages (R235) -/

/-- The upstream port. -/
def Dev.upstream (d : Dev) : Option Nat := (List.range 4).find? fun c => d.flag SPN_CTL.TROLE c

/-- The time root steps its master by the largest AHEAD received, at most once in 2^14 ticks. -/
def Dev.rootAhead (d : Dev) : Dev :=
  let due := match d.master.acted with
    | some t => decide (2 ^ 14 ≤ (d.ring - t).toNat)
    | none => true
  match d.master.ahead with
  | some x =>
    if due then { (d.stepMaster (x + 2 ^ 10)) with master := { d.master with ahead := none, acted := some (d.ring + BitVec.ofNat 64 (x + 2 ^ 10)) } }
    else d
  | none => d

/-- BARRIER_TOKEN (R128, R234): a token of the neighbour package arrives on a port that is up. -/
def barrierTokenEff (c g gen8 : Nat) (d : Dev) : Dev := if d.spanHears c then d.tokenArrive c g gen8 else d

/-- TSYNC_PERIOD (R235). -/
def tsyncPeriodEff (d : Dev) : Dev :=
  match d.upstream with
  | none => d.rootAhead
  | some c =>
    if d.spanUp c then (d.modSpan c fun s => { s with aheadSent := false, sentAt := some d.ring }).emitSpan (.tsyncReq c) else d

/-- TSYNC_REQ (R235): its arrival and the departure of RESP are stamped. -/
def tsyncReqEff (c : Nat) (d : Dev) : Dev := if d.spanHears c then d.emitSpan (.tsyncResp c d.ring d.ring) else d

/-- Send AHEAD upstream, once in an exchange. -/
def Dev.sendAhead (d : Dev) (c x : Nat) : Dev :=
  if (d.span c).aheadSent || !d.spanUp c then d
  else (d.modSpan c fun s => { s with aheadSent := true }).emitSpan (.ahead c x)

/-- An offset in a two's complement field of 32 bits, saturating. -/
def saturate32 (x : Int) : Nat := ((max (-(2 ^ 31)) (min (2 ^ 31 - 1) x)) % 2 ^ 32).toNat

/-- TSYNC_RESP (R235), with the stamps of its exchange: T1 is the one that REQ left with and T4 the ring count now (a response with others
does not come now); T2 and T3 are the neighbour's. -/
def tsyncRespEff (c t1 t2 t3 t4 : Nat) (d : Dev) : Dev :=
  if (d.span c).sentAt.map (·.toNat) ≠ some t1 || t4 ≠ d.ring.toNat || !d.spanHears c || d.upstream ≠ some c then d
  else
    let delay : Int := (((t4 : Int) - t1) - ((t3 : Int) - t2)) / 2
    let offset : Int := (t1 + delay) - t2
    let size := offset.natAbs
    let d := d.modSpan c fun s => { s with sentAt := none }
    let d := (d.put SPN_TIME.DELAY (delay % 2 ^ 16).toNat c).put SPN_TIME.OFFSET (saturate32 offset) c
    let close := if size ≤ 4 then min ((d.span c).close + 1) 8 else 0
    let d := d.modSpan c fun s => { s with offset := offset, close := close }
    let d := if close = 8 then d.put SPN_TIME.LOCKED 1 c else if 8 < size then d.put SPN_TIME.LOCKED 0 c else d
    if offset < 0 then
      ({ d.stepMaster size with master := { d.master with slew := 0 } }.put TIM_STAT.SLEWING 0).put SPN_TIME.FAR 0 c
    else if offset ≤ 2 ^ 10 then
      ({ d with master := { d.master with slew := size } }.put TIM_STAT.SLEWING (if size = 0 then 0 else 1)).put SPN_TIME.FAR 0 c
    else (d.put SPN_TIME.FAR 1 c).sendAhead c size

/-- TSYNC_AHEAD (R235): passed upstream with this package's own offset, or kept for the time root. -/
def tsyncAheadEff (c x : Nat) (d : Dev) : Dev :=
  if !d.spanHears c then d
  else match d.upstream with
    | some u => if u = c then d else d.sendAhead u (x + (d.span u).offset.toNat)
    | none => { d with master := { d.master with ahead := some (max x (d.master.ahead.getD 0)) } }.rootAhead

/-! ### A reset of one side of a crossing (R208) -/

/-- The lateral graft of a crossing: its authoritative side. -/
def lateralOf : Crossing → Option GraftEnd
  | .bough s 1 => some (GraftEnd.bough s 1).auth
  | .bough s 2 => some (.bough s 2)
  | _ => none

/-- Both ends of a graft start again with their initial credits, and what they had received or not seen acknowledged is gone. -/
def Dev.restartSides (d : Dev) (g : GraftEnd) : Dev :=
  [g, g.peer].foldl (fun d e => d.modSide e fun s =>
    { s with rx := [], replay := [], resend := none, bad := [], fails := 0, asked := false, expect := 0, next := 0
             credits := initialCredits e }) d

/-- What the other side of a crossing does when one side enters reset (R208, steps 1 to 3): it answers what it had forwarded and not seen
answered, drops its receive half and the pulses outstanding, and takes its initial credits. -/
def Dev.flushCrossing (d : Dev) (x : Crossing) : Dev :=
  let d := d.dropPulses x
  match graftSite x, lateralOf x with
  | some s, _ => (d.flushGraft s).restartSides (.trunk s)
  | _, some g => (d.lateralWindows g).restartSides g
  | none, none => match x with
    | .trunk n =>
      if 0x30 ≤ n ∧ n < 0x40 then d.failMmio (n - 0x30)
      else if 0x40 ≤ n ∧ n < 0x50 then
        let c := n - 0x40
        let d := (d.remoteSends.filter fun x => x.port == c).foldl (fun d x => d.endRemoteSend x) d
        (d.rcopyPortDown c).modSpan c fun s =>
          { s with replay := [], rx := [], asked := false, fails := 0, expect := 0, next := 0, credits := if s.hello then spanCredits else [] }
      else d
    | _ => d

/-- The two sides exchange READY and the crossing resumes: BROKEN and the accumulator clear (R208, step 5). -/
def Dev.resumeCrossing (d : Dev) (x : Crossing) : Dev :=
  let both (y : Crossing) : Bool := y == x || match graftSite x, lateralOf x with
    | some s, _ => graftSite y == some s
    | _, some g => lateralOf y == some g
    | _, _ => false
  d.modFabric fun f => { f with broken := f.broken.filter fun y => !both y }

/-- CROSSING_RESET: FLUSH_DONE is seen, the reset completes, and the crossing resumes. -/
def crossingResetEff (x : Crossing) (d : Dev) : Dev := if d.crossingExists x then (d.flushCrossing x).resumeCrossing x else d

/-- CROSSING_FLUSH_TIMEOUT (R208): the reset completes, and the crossing is broken. -/
def crossingFlushEff (x : Crossing) (d : Dev) : Dev :=
  if d.crossingExists x then (d.flushCrossing x).breakCrossing x else d

end Sys2Proof.Machine
end

