-- ==== Sys2Proof/Machine/Power.lean ====
section
/-!
DEFINITION. Power, clocks, bough resets and ageing (spec/15): WFI and leaf OFF, the entry handshake, DORMANT-RET and OFF, waking,
package STANDBY, the moves to the PLL clock, the resets of RST_CMD, graft training as it ends a reset, the start of hart 0, and the
guardband.
What happens step by step goes on from `Dev.powerGo`, which the commands that may complete a step end with.
-/

namespace Sys2Proof.Machine

/-- Change the power controller's records. -/
def Dev.modPower (d : Dev) (f : Power → Power) : Dev := { d with power := f d.power }

/-- The state of a leaf as BGH_LEAF_STAT.PSTATE reports it: 0 RUN, 1 IDLE, 2 OFF, 3 held in reset. -/
def Dev.pstate (d : Dev) (n : Nat) : Nat := d.get BGH_LEAF_STAT.PSTATE (d.leafSite n) (n % 16)

/-- Give a leaf a state. -/
def Dev.setPstate (d : Dev) (n v : Nat) : Dev := d.put BGH_LEAF_STAT.PSTATE v (d.leafSite n) (n % 16)

/-- The active sites. -/
def Dev.activeSites (d : Dev) : List Nat := (List.range 28).filter d.siteActive

/-- A leaf's bit of BPW_CLK_SW: its move to the PLL clock is due (R358). -/
def Dev.switchDue (d : Dev) (n : Nat) : Bool := bit (d.get BPW_CLK_SW.SW (d.leafSite n)) (n % 16)

/-! ### WFI (R360, R361) -/

/-- The exception a WFI raises: illegal instruction (code 2) in U-mode or under mstatus.TW, virtual instruction (code 22) in VU-mode
or under hstatus.VTW. PRESUMED, assumption 38. -/
def Leaf.wfiTrap (l : Leaf) : Option Nat :=
  let tw := (l.csrRaw 0x300).getLsbD 21
  match l.mode with
  | .machine => none
  | .super => if tw then some 2 else none
  | .user => some 2
  | .vs => if tw then some 2 else if (l.csrRaw 0x600).getLsbD 21 then some 22 else none
  | .vu => if tw then some 2 else some 22

/-- WFI (R358, R360): it completes at once when an interrupt that mie enables is pending, unless the leaf's move to the PLL clock is
due; else the leaf is IDLE, and asks for OFF when its OFF_EN bit says so. PRESUMED, assumption 38. -/
def wfiEff (n : Nat) (d : Dev) : Dev :=
  if !d.leafRuns n then d
  else
    let l := d.leaf n
    match l.interrupt with
    | some (code, dest) => d.setLeaf n (l.trapTo dest true code 0)
    | none =>
      match l.wfiTrap with
      | some code => d.instrTrap n code 0x10500073
      | none =>
        let d := d.setLeaf n (l.retire (l.pc + 4))
        if l.wakes && !d.switchDue n then d
        else
          let d := d.setPstate n 1
          if bit (d.get BPW_LEAF_PWR.OFF_EN (d.leafSite n)) (n % 16) then
            (d.modPower fun p => { p with leafOff := p.leafOff ++ [n] }).emit (.hsReq (.leaf n))
          else d

/-! ### The entry handshake (R363, R364) -/

/-- The entry in progress at a site. -/
def Dev.entryAt (d : Dev) (s : Nat) : Option BoughEntry := (d.power.entries.find? fun p => p.1 == s).map (·.2)

/-- Record a site's entry. -/
def Dev.setEntryAt (d : Dev) (s : Nat) (e : BoughEntry) : Dev :=
  d.modPower fun p => { p with entries := KMap.place natLt s e (KMap.drop p.entries s) }

/-- The blocks of a bough that an entry asks (R365, step 1): leaves, engines, the L3C, the packer and the graft ports. -/
def Dev.entryBlocks (d : Dev) (s : Nat) : List HsBlock :=
  (d.siteLeaves s).map .leaf ++ (if d.hasLee then (d.siteLeaves s).map .lee else []) ++ [.l3c s]
    ++ (if d.hasLee then [.packer s] else [])
    ++ ((List.range 3).filter fun p => d.endExists (.bough s p)).map (.graft s)

/-- The reason for which a block refuses what it is asked, or none when it accepts (R119, R364). -/
def Dev.hsReason (d : Dev) (b : HsBlock) : Option Nat :=
  match b with
  | .leaf n =>
    if d.pstate n = 2 then none
    else if !d.power.leafOff.contains n then some 1
    else if d.switchDue n then some 5
    else if d.pstate n ≠ 1 || (d.leaf n).wakes then some 4
    else none
  | .lee n =>
    if d.flag LEE_STAT.RUN n || d.flag LEE_STAT.TRAPPED n then some 2
    else if (List.range 16).any (fun g => d.groupState g == 2 && d.isMember g n) then some 3
    else none
  | .channel m =>
    if d.flag MEM_CTL.QUIESCE m || d.flag MEM_TRAIN.BUSY m || d.flag MEM_TRAIN.PENDING m || d.flag MEM_BIST.BUSY m then some 7
    else none
  | .l3c _ | .packer _ | .graft _ _ => none

/-- The site of a block of a bough. -/
def Dev.hsSite (d : Dev) : HsBlock → Option Nat
  | .leaf n | .lee n => some (d.leafSite n)
  | .l3c s | .packer s | .graft s _ => some s
  | .channel _ => none

/-- The entry that waits for a block's answer. -/
def Dev.hsEntry (d : Dev) (b : HsBlock) : Option (Nat × BoughEntry) :=
  d.power.entries.find? fun p => p.2.step == 1 && p.2.waiting.contains b

/-- The leaf whose own entry into OFF waits for this block's answer. -/
def Dev.hsLeaf (d : Dev) : HsBlock → Option Nat
  | .leaf n => if d.power.leafOff.contains n then some n else none
  | _ => none

/-- The requests to some blocks are withdrawn. -/
def Dev.withdraw (d : Dev) (bs : List HsBlock) : Dev :=
  d.lose fun p => match p with
    | .hsReq b => bs.contains b
    | _ => false

/-- Span ports that are down and have AUTO = 1 train again (R236, R368). -/
def Dev.retrainSpans (d : Dev) : Dev :=
  (List.range 4).foldl (fun d c =>
    if d.spanEnabled c && d.flag SPN_CTL.AUTO c && d.get SPN_STAT.STATE c = 0 then d.put SPN_STAT.STATE 1 c else d) d

/-- A block refuses (R363): the refusal is counted and recorded, and the entry ends. -/
def Dev.hsRefuses (d : Dev) (b : HsBlock) (reason : Nat) : Dev :=
  let d := d.hsRefused b reason
  match d.hsLeaf b with
  | some n => d.modPower fun p => { p with leafOff := p.leafOff.erase n, leafDelayed := p.leafDelayed.erase n }
  | none =>
    match d.hsEntry b with
    | some (s, e) => (d.withdraw e.waiting).entryFails s 1 reason
    | none =>
      match d.power.package with
      | some p => ((d.withdraw p.waiting).packageFails 2 reason).retrainSpans
      | none => d

/-- A block accepts; the packer flushes its staging FIFOs at once (R365). -/
def Dev.hsAccepts (d : Dev) (b : HsBlock) : Dev :=
  match d.hsLeaf b with
  | some n =>
    (d.modPower fun p => { p with leafOff := p.leafOff.erase n, leafDelayed := p.leafDelayed.erase n }).leafGoesOff n
  | none =>
    match d.hsEntry b with
    | some (s, e) =>
      let d := d.setEntryAt s { e with waiting := e.waiting.erase b, accepted := e.accepted ++ [b] }
      (match b with
       | .packer t => d.flushPacker t
       | _ => d)
    | none =>
      let k := d.power.package.map fun k =>
        if k.waiting.contains b then { k with waiting := k.waiting.erase b, accepted := k.accepted ++ [b] } else k
      d.modPower fun p => { p with package := k }

/-- A block asks to be asked again: once; a second DELAY is a refusal with TIMEOUT (R363). -/
def Dev.hsDelays (d : Dev) (b : HsBlock) : Dev :=
  match d.hsLeaf b with
  | some n =>
    if d.power.leafDelayed.contains n then d.hsRefuses b 9
    else d.modPower fun p => { p with leafDelayed := p.leafDelayed ++ [n] }
  | none =>
    match d.hsEntry b with
    | some (s, e) =>
      if e.delayed.contains b then d.hsRefuses b 9 else d.setEntryAt s { e with delayed := e.delayed ++ [b] }
    | none =>
      match d.power.package with
      | some p =>
        if !p.waiting.contains b then d
        else if p.delayed.contains b then d.hsRefuses b 9
        else d.modPower fun q => { q with package := some { p with delayed := p.delayed ++ [b] } }
      | none => d

/-- A block has answered DELAY and its answer is still awaited. -/
def Dev.hsDelayed (d : Dev) (b : HsBlock) : Bool :=
  match d.hsLeaf b with
  | some n => d.power.leafDelayed.contains n
  | none =>
    match d.hsEntry b with
    | some (_, e) => e.delayed.contains b
    | none =>
      match d.power.package with
      | some p => p.waiting.contains b && p.delayed.contains b
      | none => false

/-! ### Resetting the registers of a bough (R372) -/

/-- The blocks of a site that a bough reset covers, but for its LEEs. -/
def siteBlock : Blk → Bool
  | .bgh | .l3c | .grfb | .bpw | .prt => true
  | _ => false

/-- Registers of a bough that its reset keeps: identity, lane masks (R226), CE logs and remap tables (R372). -/
def keptOverReset : RegName → Bool
  | .BGH_ID | .GRFB_LANE_MASK | .PRT_SLOG_LOC | .PRT_SLOG_INFO | .PRT_L3LOG_LOC | .PRT_L3LOG_INFO | .PRT_CLOG_LOC
  | .PRT_CLOG_INFO | .PRT_SREMAP | .PRT_L3REMAP => true
  | _ => false

/-- The registers of the bough at a site take their Reset values. DEDUCED, assumption 37. -/
def Dev.resetSiteRegs (d : Dev) (s : Nat) : Dev :=
  { d with regs := d.regs.filter fun p => !(siteBlock p.1.name.block && p.1.u == s) || keptOverReset p.1.name }

/-- The values of BGH_RESET_VEC, BGH_RNMI_VEC and BGH_RNMI_EXC of a bough. -/
def Dev.vectorsOf (d : Dev) (s : Nat) : List Word :=
  [d.reg ⟨.BGH_RESET_VEC, s, 0⟩, d.reg ⟨.BGH_RNMI_VEC, s, 0⟩, d.reg ⟨.BGH_RNMI_EXC, s, 0⟩]

/-- The vectors of R383 step 9: the start of the host boot region, and 0. -/
def bootVectors : List Word := [0x0FFFF0300000, 0, 0]

/-- Write the three vectors of a bough. -/
def Dev.writeVectors (d : Dev) (s : Nat) (v : List Word) : Dev :=
  ((d.setReg ⟨.BGH_RESET_VEC, s, 0⟩ (v.getD 0 0)).setReg ⟨.BGH_RNMI_VEC, s, 0⟩ (v.getD 1 0)).setReg ⟨.BGH_RNMI_EXC, s, 0⟩
    (v.getD 2 0)

/-- What a bough reset leaves (R371, R372): the caches invalid, the registers at their Reset values but those kept, the leaves in
reset, the engines as a LEE reset leaves them with their stores cleared, the groups with a member broken, the trace packer
emptied, and the home timeout counts of the bough clear. -/
def Dev.resetBough (d : Dev) (s : Nat) : Dev :=
  let b := d.boughAt s
  let leaves := d.siteLeaves s
  let d := ((d.dropTrace s).setBough b {}).resetSiteRegs s
  let d := leaves.foldl (fun d n => (d.setLeaf n {}).setPstate n 3) d
  let d := if d.hasLee then leaves.foldl (fun d n => (d.modLee n fun e => { e with store := [], valid := [] }).leeReset n) d else d
  let d := ((d.breakGroupsOf b).setCopyInfo s {}).setCopy s 0
  let d := (d.put TIM_SITE.LOCKED 0 0 s).put TIM_SITE.SLEW 0 0 s
  let (k, f) := tmoField b
  let d := (List.range 4).foldl (fun d q => d.put f 0 q k) d
  let d := d.flushGraft s
  let d := d.withdraw (leaves.map .leaf)
  d.modPower fun p => { p with leafOff := p.leafOff.filter fun n => !leaves.contains n
                               leafDelayed := p.leafDelayed.filter fun n => !leaves.contains n }

/-- A bough whose graft is up after a reset is released (R199, R371): the proxy disengages, the vectors are written, the held MSIs are
delivered and the gate opens, its crossings resume (R208), and leaf index 0 starts as if woken from OFF; the others stay OFF until an MSI
wakes them. -/
def Dev.releaseBough (d : Dev) (s : Nat) (v : List Word) : Dev :=
  let leaves := d.siteLeaves s
  let d := ((d.put BPW_STAT.PLL_LOCK 1 s).writeVectors s v).put FAB_ISO_STAT.ISOLATED (setBit (d.get FAB_ISO_STAT.ISOLATED) s false)
  let d := d.modFabric fun f => { f with broken := f.broken.filter fun x => !crossingOf s x }
  let d := (leaves.foldl (fun d n => d.setPstate n 2) d).openGate s
  let d := if d.pstate (16 * d.boughAt s) = 0 then d else d.wakeLeaf (16 * d.boughAt s)
  d.setBstate s 0

/-- The grafts of a site start to train: its graft to the trunk, and the laterals with active neighbours. -/
def Dev.trainSite (d : Dev) (s : Nat) : Dev :=
  [1, 2].foldl (fun d p => if d.endExists (.bough s p) then d.startTraining (GraftEnd.bough s p).auth else d)
    (d.startTraining (.trunk s))

/-! ### DORMANT-RET and OFF (R365) -/

/-- No transaction, eviction or flush of a bough is under way. -/
def Dev.boughQuiet (d : Dev) (s : Nat) : Bool :=
  let x := d.bough (d.boughAt s)
  x.txns.isEmpty && x.evb.isEmpty && !d.flag L3C_STAT.FLUSHING s

/-- The write-back of a bough (R276, R365, R371): the L1s and L2s into the L3, and then the L3 as a disable does. -/
def Dev.writeBackBough (d : Dev) (s : Nat) : Dev :=
  let b := d.boughAt s
  let d := (List.range 4).foldl (fun d t => (d.bough b).lines.foldl (fun d p =>
    if p.2.twigs.contains t then d.dropTwig b t p.1 else d) d) d
  l3DisableEff s d

/-- The purges that precede a gate are started in every quadrant (R183). -/
def Dev.purgeAll (d : Dev) (s : Nat) : Dev := (List.range 4).foldl (fun d q => d.startPurge q (d.boughAt s) false false) d

/-- They have all ended. -/
def Dev.purged (d : Dev) (s : Nat) : Bool :=
  (List.range 4).all fun q => !(d.home q).purges.any fun p => p.1 == d.boughAt s && !p.2.1 && !p.2.2

/-- All six markers of a gate have come back (R200). DEDUCED, assumption 75. -/
def Dev.gateQuiet (d : Dev) (s : Nat) : Bool := (List.range 6).all (d.gate s).markers.contains

/-- Every set eip bit of every file of a leaf, as MSIs. -/
def Dev.pendingMsis (d : Dev) (n : Nat) : List (Nat × Nat × Nat) :=
  (d.leaf n).imsic.flatMap fun f => f.2.eip.map fun i => (n, f.1, i)

/-- Step 5 and 6 of an entry: OFF copies the pending interrupts into the site's pending table; a retained file that signals, or a
table that is not empty, wakes the bough at once; the caches hold nothing, and the PLL and the ring-count copy stop. -/
def Dev.entryDone (d : Dev) (s : Nat) (e : BoughEntry) : Dev :=
  let leaves := d.siteLeaves s
  let d := d.modPower fun p => { p with
    entries := KMap.drop p.entries s
    vectors := KMap.set natLt [] p.vectors s (if e.target = 2 then d.vectorsOf s else [])
    l3On := if e.l3 && e.target == 1 then p.l3On ++ [s] else p.l3On }
  let d := if e.target = 2 then
      let d := leaves.foldl (fun d n => (d.pendingMsis n).foldl (fun d m => d.holdMsi s m.1 m.2.1 m.2.2) d) d
      if (d.heldMsis s).isEmpty then d else d.wakeCause s
    else if leaves.any (fun n => (d.leaf n).imsic.any fun f => f.2.eip.any f.2.signals) then d.wakeCause s else d
  let d := d.setBough (d.boughAt s) {}
  let d := (d.put BPW_STAT.PLL_LOCK 0 s).setCopyInfo s { d.copyInfo s with good := 0, slew := false, measured := false }
  let d := ((d.put TIM_SITE.LOCKED 0 0 s).put TIM_SITE.SLEW 0 0 s).setBstate s e.target
  if e.forPackage then d else d.boughDone 0 0

/-- A site's entry goes on by one step when what it waits for has come. DESIGN CHOICE, assumption 39. DEDUCED, assumption 75. -/
def Dev.entryGo (d : Dev) (s : Nat) : Dev :=
  match d.entryAt s with
  | none => d
  | some e =>
    let next (d : Dev) : Dev := d.setEntryAt s { e with step := e.step + 1 }
    if e.step = 1 then (if e.waiting.isEmpty then next (d.writeBackBough s) else d)
    else if e.step = 2 then (if d.boughQuiet s then next (d.purgeAll s) else d)
    else if e.step = 3 then (if d.purged s then next (d.closeGate s false) else d)
    else if d.gateQuiet s then d.entryDone s e
    else d

/-- An entry starts: every block of the bough is asked. -/
def Dev.startEntry (d : Dev) (s target : Nat) (forPackage : Bool) : Dev :=
  let blocks := d.entryBlocks s
  let d := (d.setBstate s 3).setEntryAt s { target := target, waiting := blocks, l3 := d.flag L3C_CTL.EN s, forPackage := forPackage }
  blocks.foldl (fun d b => d.emit (.hsReq b)) d

/-- A wake cause before step 4 aborts an entry (R365): a leaf that has accepted, or any leaf once all have, is no longer OFF. -/
def Dev.abortEntry (d : Dev) (s : Nat) : Dev :=
  match d.entryAt s with
  | none => d
  | some e =>
    let woke (n : Nat) : Bool := d.pstate n != 2 && (e.step != 1 || e.accepted.contains (.leaf n))
    if e.step < 4 && (d.siteLeaves s).any woke then (d.withdraw e.waiting).entryFails s 2 0 else d

/-! ### Waking (R366, R367) -/

/-- A wake of the power controller's own, or by PWR_BOUGH_CTL. -/
def Dev.wakeDue (d : Dev) (s : Nat) : Bool := d.power.wake.contains s && (d.bstate s == 1 || d.bstate s == 2) && !d.isolated s

/-- The request of PWR_BOUGH_CTL with TARGET 0 for a site ends. -/
def Dev.wakeAnswered (d : Dev) (s result reason : Nat) : Dev :=
  if d.flag PWR_BOUGH_CTL.BUSY && d.get PWR_BOUGH_CTL.TARGET = 0 && d.get PWR_BOUGH_CTL.SITE = s then d.boughDone result reason else d

/-- A bough that wakes from DORMANT-RET and whose copy is locked: the L3 returns to its state before entry with every line
invalid, the held MSIs are delivered and the gate opens (R366, steps 5 and 6). -/
def Dev.wakeFinish (d : Dev) (s : Nat) : Dev :=
  if !d.power.waking.contains s || (d.copyInfo s).good ≠ 2 || d.power.vectors.any fun p => p.1 == s then d
  else
    let d := if d.power.l3On.contains s then (d.put L3C_CTL.EN 1 s).put L3C_STAT.DISABLED 0 s else d
    let d := d.modPower fun p => { p with waking := p.waking.erase s, l3On := p.l3On.erase s }
    ((d.openGate s).setBstate s 0).wakeAnswered s 0 0

/-- A wake that ends without its bough: its graft is down (R223, R366). -/
def Dev.wakeFails (d : Dev) (s : Nat) : Dev :=
  let d := d.modPower fun p => { p with wake := p.wake.erase s, waking := p.waking.erase s, l3On := p.l3On.erase s,
                                        vectors := KMap.drop p.vectors s }
  (d.setBstate s 0).wakeAnswered s 2 10

/-- BOUGH_WAKE: the wake of a bough that a cause asks for. From DORMANT-RET the PLL locks and the graft retrains from the centres
it kept; from OFF it is a bough reset. -/
def Dev.boughWake (d : Dev) (s : Nat) (r : TrainResult) : Dev :=
  let off := d.bstate s == 2
  let d := (d.modPower fun p => { p with wake := p.wake.erase s, waking := p.waking ++ [s] }).setBstate s 3
  if off then (d.resetBough s).trainSite s
  else
    let (ok, d) := (d.put BPW_STAT.PLL_LOCK 1 s).fastRetrain (.trunk s) r
    if ok then d else d.wakeFails s

/-! ### The resets of RST_CMD (R370, R371) -/

/-- A bough reset holds the bough in reset and trains its graft (R371, step 5). -/
def Dev.holdReset (d : Dev) (o : ResetOp) : Dev :=
  let d := if (d.gate o.site).inReset then d else d.setGate o.site { closed := true, inReset := true }
  let d := (d.put FAB_GATE_STAT.CLOSED (setBit (d.get FAB_GATE_STAT.CLOSED) o.site true)).modPower fun p =>
    { p with reset := some { o with step := 5 } }
  (d.resetBough o.site).trainSite o.site

/-- A forced bough reset: the proxy engages at once, so the purge poisons the lines that the bough owned (R182, R371). -/
def Dev.forceReset (d : Dev) (o : ResetOp) : Dev := (d.isolate o.site).holdReset { o with forced := true }

/-- Step 1 of an orderly reset (R371): the vectors are read, the engines are told to stop, and the leaves issue nothing more. -/
def Dev.stopBough (d : Dev) (s : Nat) : Dev :=
  let leaves := d.siteLeaves s
  let d := d.modPower fun p => { p with reset := some { site := s, step := 1 }, vectors := KMap.set natLt [] p.vectors s (d.vectorsOf s) }
  let d := leaves.foldl (fun d n => leeDisableEff n d) d
  leaves.foldl (fun d n => d.setPstate n 3) d

/-- The bough reset in progress goes on by one step when what it waits for has come. -/
def Dev.resetGo (d : Dev) : Dev :=
  match d.power.reset with
  | none => d
  | some o =>
    let s := o.site
    let leaves := d.siteLeaves s
    let next (d : Dev) : Dev := d.modPower fun p => { p with reset := some { o with step := o.step + 1 } }
    if 5 ≤ o.step then d
    else if d.isolated s then d.forceReset { o with escalated := true }
    else if o.step = 0 then
      (if d.bstate s = 0 && (d.entryAt s).isNone && !d.power.waking.contains s then d.stopBough s else d)
    else if o.step = 1 then
      (if leaves.all (fun n => !d.flag LEE_STAT.RUN n && (d.leaf n).misses.isEmpty && (d.leaf n).stalled.isNone) then
        next (d.writeBackBough s) else d)
    else if o.step = 2 then (if d.boughQuiet s then next (d.purgeAll s) else d)
    else if o.step = 3 then (if d.purged s then next (((d.countTraceLoss s).dropTrace s).closeGate s true) else d)
    else if d.gateQuiet s then d.holdReset o
    else d

/-- RST_CMD reports the end of a command. -/
def Dev.rstDone (d : Dev) (status : Nat) : Dev := ((d.put RST_CMD.STATUS status).put RST_CMD.DONE 1).put RST_CMD.BUSY 0

/-- A write of RST_CMD with an OP of 1 to 4: refused with BUSY while a reset is in progress, and with INVALID where the target does
not exist (R370); else its reset. DEDUCED, assumption 52. -/
def Dev.rstCommand (d : Dev) (target : Nat) (valid : Bool) (go : Dev → Dev) : Dev :=
  if d.flag RST_CMD.BUSY then d.put RST_CMD.STATUS 1
  else
    let d := d.put RST_CMD.TARGET target
    if valid then go d else d.rstDone 2

/-- The site's bough runs, so that a reset of a leaf or an engine of it acts. -/
def Dev.boughOn (d : Dev) (s : Nat) : Bool := d.bstate s == 0 || d.bstate s == 3

/-- A bough reset that has begun ends with its graft up or down (R371): RST_CMD reports it. -/
def Dev.resetEnds (d : Dev) (o : ResetOp) (up : Bool) : Dev :=
  let v := if o.forced then bootVectors else (KMap.find bootVectors d.power.vectors o.site)
  let d := d.modPower fun p => { p with reset := none, vectors := KMap.drop p.vectors o.site }
  (if up then d.releaseBough o.site v else d.setBstate o.site 0).rstDone (if o.escalated then 3 else 0)

/-! ### The start of hart 0 (R383, steps 8 to 11) -/

/-- The ring-count copy of an active bough that can be reached is locked, or its graft is down for good. -/
def Dev.siteReady (d : Dev) (s : Nat) : Bool := d.isolated s || (d.copyInfo s).good == 2

/-- Once every used channel has trained, the vectors are written and every active copy is locked, the firmware places every leaf but
hart 0 in OFF, releases hart 0 and sets READY. -/
def Dev.bootCheck (d : Dev) : Dev :=
  let s0 := (d.siteOf 0).getD 28
  if d.flag MBX_FW.READY || d.get SIM_STAT.STATE ≠ 2 || d.mgmt.firmware.isNone || d.isolated s0 || d.board.warm.isSome
      || (List.range 16).any (fun m => d.channelPresent m && d.memState m == 1) || !d.activeSites.all d.siteReady then d
  else
    let on := d.activeSites.filter fun s => !d.isolated s
    let d := on.foldl (fun d s => (d.siteLeaves s).foldl (fun d n => d.setPstate n 2) d) d
    (((d.resetCore 0 true).setPstate 0 0).put MBX_FW.READY 1).put MBX_FW.BOOT_FAILS 0

/-! ### Package STANDBY and SLEEP (R368, R369) -/

/-- The root ports withhold their credits: from step 4 of an entry until the wake releases them. -/
def Dev.holdsDevices (d : Dev) : Bool :=
  d.get PWR_PKG_CTL.STATE == 2
  || match d.power.package with
    | some p => decide (3 ≤ p.step ∧ p.step ≤ 4)
    | none => false

/-- The job's segment and requester ID. -/
def TtuJob.arrives (j : TtuJob) (d : Dev) : Bool := d.deviceArrives j.device.1 j.device.2

/-- A request of a device: held below its root port, which raises the PWR event source, or served. -/
def Dev.orHold (d : Dev) (j : TtuJob) (go : Dev → Dev) : Dev :=
  if d.holdsDevices && j.arrives d then (d.modPower fun p => { p with heldDev := p.heldDev ++ [j] }).raise 111 else go d

/-- The device requests held are released in arrival order. -/
def Dev.releaseDevices (d : Dev) : Dev :=
  if d.holdsDevices then d
  else d.power.heldDev.foldl (fun (d : Dev) j => match j with
    | .access r => deviceRequestEff r d
    | .ats r => atsRequestEff r d
    | .page r => pageRequestEff r d
    | .msi seg rid data => deviceMsiEff seg rid data d) (d.modPower fun p => { p with heldDev := [] })

/-- Every span port goes down with CAUSE SOFTWARE (R368). -/
def Dev.spansDown (d : Dev) : Dev :=
  (List.range 4).foldl (fun d c => if d.spanEnabled c && d.get SPN_STAT.STATE c ≠ 0 then d.spanDown c 7 false else d) d

/-- The channels that a STANDBY asks: those that are READY, quiesced, or in a sweep or a re-initialisation. -/
def Dev.standbyChannels (d : Dev) : List Nat :=
  (List.range 16).filter fun m => d.channelPresent m && (d.memState m == 3 || d.memState m == 5 || d.memState m == 7)

/-- SLEEP begins: the counts are recorded (R243), and all but the standby domain is off. -/
def Dev.sleepNow (d : Dev) : Dev :=
  (d.put PWR_PKG_CTL.STATE 4).modPower fun p =>
    { p with package := none, sleep := some (d.ring, d.get PWR_RTC.COUNT), unpowered := true }

/-- The entry or wake of the package goes on by one step when what it waits for has come. DESIGN CHOICE, assumption 39. -/
def Dev.packageGo (d : Dev) : Dev :=
  match d.power.package with
  | none => d
  | some p =>
    let goTo (d : Dev) (k : PackageEntry) : Dev := d.modPower fun q => { q with package := some k }
    if p.step = 1 then
      (if d.activeSites.all (fun s => (d.siteLeaves s).all fun n => d.pstate n == 2) then goTo d { p with step := 2 } else d)
    else if p.step = 2 then
      if !d.power.entries.isEmpty || !d.power.waking.isEmpty then d
      else match d.activeSites.find? fun s => d.bstate s == 0 with
        | some s => if d.isolated s then d.packageFails 2 6 else d.startEntry s 1 true
        | none =>
          let ms := d.standbyChannels.map HsBlock.channel
          let d := goTo d.spansDown { p with step := 3, waiting := ms }
          ms.foldl (fun d b => d.emit (.hsReq b)) d
    else if p.step = 3 then
      let ms := (List.range 16).filter fun m => p.accepted.contains (.channel m)
      if !p.waiting.isEmpty || !ms.all (fun m => (d.channel m).idle && (d.channel m).input.isEmpty) then d
      else
        let d := ms.foldl (fun d m => d.put MEM_STAT.STATE 6 m) d
        if p.sleep then d.sleepNow
        else ((d.put PWR_PKG_CTL.STATE 2).put PWR_PKG_CTL.RESULT 0).modPower fun q => { q with package := none }
    else if p.step = 4 then
      if p.waiting.any (fun b => match b with
        | .channel m => d.memState m == 5
        | _ => false) then d
      else
        let d := (goTo d { p with step := 5 }).releaseDevices.retrainSpans
        match d.siteOf 0 with
        | some s => if d.bstate s = 0 then d else d.wakeCause s
        | none => d
    else
      let s := (d.siteOf 0).getD 28
      if d.isolated s then d.packageFails 2 10
      else if d.bstate s ≠ 0 then d
      else
        let d := if d.pstate 0 = 2 then d.wakeLeaf 0 else d
        ((d.put PWR_PKG_CTL.STATE 0).put PWR_PKG_CTL.RESULT 0).modPower fun q => { q with package := none }

/-- Something of the power controller's is in progress. -/
def Dev.powerBusy (d : Dev) : Bool :=
  !d.power.entries.isEmpty || !d.power.waking.isEmpty || d.power.reset.isSome || d.power.package.isSome || !d.power.heldDev.isEmpty

/-- Everything that the power controller has in progress goes on as far as it can; `fuel` bounds the steps that follow one another
at once. -/
def Dev.powerSteps : Nat → Dev → Dev
  | 0, d => d
  | k + 1, d =>
    if !d.powerBusy then d
    else
      let d := (d.power.entries.map (·.1)).foldl (fun d s => (d.abortEntry s).entryGo s) d
      let d := d.power.waking.foldl (fun d s => if d.isolated s then d.wakeFails s else d.wakeFinish s) d
      let d := d.resetGo.packageGo
      (if d.power.heldDev.isEmpty then d else d.releaseDevices).powerSteps k

/-- Everything in progress goes on as far as it can: no chain of steps is longer than eight. -/
def Dev.powerGo (d : Dev) : Dev := d.powerSteps 8

/-! ### Commands: handshakes, entries and wakes -/

/-- HANDSHAKE_RESPONSE (R363): a block answers its request: ACCEPT, or REFUSE with the reason it has, or DELAY of a number of
microseconds within PWR_HS_BOUND. The proxy answers for an isolated bough. -/
def handshakeResponseEff (b : HsBlock) (delay : Option Nat) (d : Dev) : Dev :=
  if d.packets.contains (.hsAccept b) then ((d.take (.hsAccept b)).hsAccepts b).powerGo
  else if !d.packets.contains (.hsReq b) || (d.hsSite b).any d.isolated then d
  else match delay with
    | some t => if t ≤ d.get PWR_HS_BOUND.DELAY_US then ((d.take (.hsReq b)).hsDelays b).powerGo else d
    | none =>
      let d := d.take (.hsReq b)
      (match d.hsReason b with
       | some r => d.hsRefuses b r
       | none => d.hsAccepts b).powerGo

/-- HANDSHAKE_DELAY_EXPIRY (R363): after a DELAY the controller asks again; a request not answered is a refusal with TIMEOUT. -/
def handshakeExpiryEff (b : HsBlock) (d : Dev) : Dev :=
  if d.packets.contains (.hsReq b) then ((d.take (.hsReq b)).hsRefuses b 9).powerGo
  else if d.hsDelayed b then d.emit (.hsReq b)
  else d

/-- A write of PWR_BOUGH_CTL with GO = 1: ignored while a request is in progress; STATE where the site's bough cannot take the
step (R364). DEDUCED, assumption 40. -/
def Dev.boughRequest (d : Dev) (s target : Nat) (ok : Bool) (go : Dev → Dev) : Dev :=
  if d.flag PWR_BOUGH_CTL.BUSY then d
  else
    let d := ((d.put PWR_BOUGH_CTL.TARGET target).put PWR_BOUGH_CTL.SITE s).put PWR_BOUGH_CTL.BUSY 1
    if ok then (go d).powerGo else d.boughDone 1 10

/-- The bough at a site can start an entry: it is ACTIVE, not isolated, and nothing else is in progress there. -/
def Dev.canEnter (d : Dev) (s : Nat) : Bool :=
  d.siteActive s && !d.isolated s && d.bstate s == 0 && !(d.gate s).closed && d.power.reset.all fun o => o.site != s

/-- BOUGH_DORMANT_ENTRY: PWR_BOUGH_CTL with TARGET 1. DEDUCED, assumption 40. -/
def boughDormantEff (s : Nat) (d : Dev) : Dev := d.boughRequest s 1 (d.canEnter s) fun d => d.startEntry s 1 false

/-- BOUGH_OFF_ENTRY: PWR_BOUGH_CTL with TARGET 2. -/
def boughOffEff (s : Nat) (d : Dev) : Dev := d.boughRequest s 2 (d.canEnter s) fun d => d.startEntry s 2 false

/-- PWR_BOUGH_CTL with TARGET 0: a wake cause, for a bough that is DORMANT-RET or OFF. -/
def boughActiveEff (s : Nat) (d : Dev) : Dev :=
  d.boughRequest s 0 (d.siteActive s && !d.isolated s && (d.bstate s == 1 || d.bstate s == 2)) fun d => d.wakeCause s

/-- BOUGH_WAKE (R366, R367): the bough of a site that has a wake cause wakes. -/
def boughWakeEff (s : Nat) (r : TrainResult) (d : Dev) : Dev := if d.wakeDue s then (d.boughWake s r).powerGo else d

/-- A marker of a virtual network cannot come back yet (R200): a packet forwarded ahead of it has still to reach the bough, or one that the
bough has sent has still to arrive. -/
def Dev.markerWaits (d : Dev) (s vn : Nat) : Bool :=
  let into (p : Packet) : Bool := match d.route3 p with
    | some (v, _, .bough t _) => v == vn && t == s
    | _ => false
  let from_ (p : Packet) : Bool := match d.route3 p with
    | some (v, .bough t _, _) => v == vn && t == s
    | _ => false
  ((d.packets.takeWhile fun p => p != .marker s vn).any into) || d.packets.any from_

/-- GATE_CLOSED_MARKER (R200): a marker comes back; the sixth sets the site's bit in FAB_GATE_STAT. -/
def gateMarkerEff (s vn : Nat) (d : Dev) : Dev :=
  if !d.packets.contains (.marker s vn) || d.markerWaits s vn then d
  else
    let g := d.gate s
    let d := (d.take (.marker s vn)).setGate s (if g.closed && !g.markers.contains vn then { g with markers := g.markers ++ [vn] } else g)
    let d := if d.gateQuiet s && (d.gate s).closed then
        d.put FAB_GATE_STAT.CLOSED (setBit (d.get FAB_GATE_STAT.CLOSED) s true)
      else d
    d.powerGo

/-- An agent may request a package state: a leaf in M mode, or the management core (R368). -/
def mayRequest : Requester → Bool
  | .leaf _ .machine | .mgmt => true
  | _ => false

/-- A request of PWR_PKG_CTL is refused with a reason. -/
def Dev.packageRefuses (d : Dev) (reason : Nat) : Dev := (d.put PWR_PKG_CTL.RESULT 1).put PWR_PKG_CTL.REASON reason

/-- PWR_STANDBY_REQ (R368). -/
def standbyReqEff (req : Requester) (d : Dev) : Dev :=
  if !mayRequest req then d
  else if d.get PWR_PKG_CTL.STATE ≠ 0 then d.packageRefuses 10
  else ((d.put PWR_PKG_CTL.STATE 1).modPower fun p => { p with package := some { sleep := false } }).powerGo

/-- STANDBY_LEAF_TIMEOUT (R368): a leaf is still not OFF after 10 ms. -/
def standbyTimeoutEff (d : Dev) : Dev :=
  match d.power.package with
  | some p => if p.step = 1 then d.packageFails 2 1 else d
  | none => d

/-- PWR_SLEEP_REQ (R369): refused without an armed alarm in the future; from STANDBY the steps of R368 are done already. -/
def sleepReqEff (req : Requester) (d : Dev) : Dev :=
  if !mayRequest req then d
  else if d.get PWR_PKG_CTL.STATE ≠ 0 ∧ d.get PWR_PKG_CTL.STATE ≠ 2 then d.packageRefuses 10
  else if !d.flag PWR_RTC_ALARM.EN || decide (d.get PWR_RTC_ALARM.CMP ≤ d.get PWR_RTC.COUNT) then d.packageRefuses 8
  else if d.get PWR_PKG_CTL.STATE = 2 then d.sleepNow
  else ((d.put PWR_PKG_CTL.STATE 4).modPower fun p => { p with package := some { sleep := true } }).powerGo

/-- PWR_WAKE_REQ (R368): by the management core alone; the channels leave self-refresh and sweep first. -/
def wakeReqEff (req : Requester) (d : Dev) : Dev :=
  if req ≠ .mgmt then d
  else if d.get PWR_PKG_CTL.STATE ≠ 2 then d.packageRefuses 10
  else
    let ms := (List.range 16).filter fun m => d.channelPresent m && d.memState m == 6
    let d := (d.put PWR_PKG_CTL.STATE 3).modPower fun p =>
      { p with package := some { sleep := false, step := 4, waiting := ms.map HsBlock.channel } }
    (ms.foldl (fun d m => d.sweepGo m) d).powerGo

/-! ### Commands: clocks (R358, R359) -/

/-- CLOCK_SWITCH_REQUEST: a write of 1s to BPW_CLK_SW; refused without PLL lock (R358). -/
def clockRequestEff (s mask : Nat) (d : Dev) : Dev :=
  if !d.siteActive s || mask % 2 ^ 16 = 0 then d
  else if !d.flag BPW_STAT.PLL_LOCK s then d.put BPW_STAT.CLK_REFUSED 1 s
  else d.put BPW_CLK_SW.SW (d.get BPW_CLK_SW.SW s ||| mask % 2 ^ 16) s

/-- CLOCK_SWITCH (R358): the leaf is in WFI and holds no miss entry; it leaves WFI on its PLL clock. -/
def clockSwitchEff (n : Nat) (d : Dev) : Dev :=
  if !d.leafPresent n || !d.switchDue n || d.pstate n ≠ 1 || !(d.leaf n).misses.isEmpty then d
  else
    let s := d.leafSite n
    let d := d.put BPW_CLK_SW.SW (setBit (d.get BPW_CLK_SW.SW s) (n % 16) false) s
    (d.put BGH_LEAF_STAT.ON_FIC 0 s (n % 16)).setPstate n 0

/-- BOUGH_PLL_LOSS (R359): the leaves and engines of the die stop and its BPW source raises its event; the crossings of its graft stop,
and a CDC_TIMEOUT of the trunk side follows. DEDUCED, assumption 41. -/
def boughPllLossEff (s : Nat) (d : Dev) : Dev :=
  if !d.siteActive s || !d.flag BPW_STAT.PLL_LOCK s then d
  else
    let d := d.put BPW_STAT.PLL_LOCK 0 s
    let d := (d.siteLeaves s).foldl (fun d n =>
      let d := if d.pstate n = 2 then d else d.setPstate n 3
      if d.flag LEE_STAT.RUN n then d.leeEnter n LEE_STAT.STOPPED else d) d
    d.raise (siteSource s 21)

/-! ### Commands: resets (R370, R371, R74, R143) -/

/-- ORDERLY_BOUGH_RESET: RST_CMD OP 1. An isolated bough is reset as forced at once, and a dormant one is woken first. -/
def orderlyResetEff (s : Nat) (d : Dev) : Dev :=
  d.rstCommand s (d.siteActive s) fun d =>
    let d := d.put RST_CMD.BUSY 1
    if d.isolated s then d.forceReset { site := s, step := 5, escalated := true }
    else
      let d := match d.entryAt s with
        | some e => if e.step < 4 then (d.withdraw e.waiting).entryFails s 2 10 else d.wakeCause s
        | none => if d.bstate s = 0 then d else d.wakeCause s
      (d.modPower fun p => { p with reset := some { site := s, step := 0 } }).powerGo

/-- BOUGH_RESET_ESCALATE (R371): an orderly reset that has not come to its training in 1 ms goes on as forced. -/
def resetEscalateEff (d : Dev) : Dev :=
  match d.power.reset with
  | some o => if o.step < 5 then d.forceReset { o with escalated := true } else d
  | none => d

/-- FORCED_BOUGH_RESET: RST_CMD OP 2. -/
def forcedResetEff (s : Nat) (d : Dev) : Dev :=
  d.rstCommand s (d.siteActive s) fun d =>
    let d := d.put RST_CMD.BUSY 1
    let d := if d.power.waking.contains s || d.power.wake.contains s then d.wakeFails s else d
    d.forceReset { site := s, step := 5 }

/-- LEAF_RESET: RST_CMD OP 3, the state of R74. -/
def leafResetEff (n : Nat) (d : Dev) : Dev :=
  d.rstCommand n (decide (n < 16 * d.boughsB)) fun d =>
    let s := d.leafSite n
    let d := if !d.boughOn s || d.pstate n = 3 then d
      else
        let d := (d.withdraw [.leaf n]).modPower fun p => { p with leafOff := p.leafOff.erase n, leafDelayed := p.leafDelayed.erase n }
        ((d.resetCore n true).setPstate n 0).put BPW_CLK_SW.SW (setBit (d.get BPW_CLK_SW.SW s) (n % 16) false) s
    d.rstDone 0

/-- LEE_RESET: RST_CMD OP 4 (R143). -/
def leeResetEff (n : Nat) (d : Dev) : Dev :=
  d.rstCommand n (decide (n < 16 * d.boughsB)) fun d =>
    (if d.hasLee && d.boughOn (d.leafSite n) then d.leeReset n else d).rstDone 0

/-- RST_CMD with another OP (R370). DEDUCED, assumption 52. -/
def rstInvalidEff (target : Nat) (d : Dev) : Dev := d.rstCommand target false id

/-! ### Commands: the end of graft training (R218) -/

/-- A bough whose graft to the trunk has trained: the end of a bough reset, of a wake from OFF, or of its part in the boot. -/
def Dev.graftTrained (d : Dev) (s : Nat) (up : Bool) : Dev :=
  match d.power.reset.filter fun o => o.site == s && o.step == 5 with
  | some o => d.resetEnds o up
  | none =>
    if d.power.waking.contains s then
      if up then
        let v := KMap.find bootVectors d.power.vectors s
        let d := d.modPower fun p => { p with waking := p.waking.erase s, vectors := KMap.drop p.vectors s }
        (d.releaseBough s v).wakeAnswered s 0 0
      else d.wakeFails s
    else if up then (d.put BPW_STAT.PLL_LOCK 1 s).bootCheck
    else d.bootCheck

/-- GRAFT_TRAINING_DONE (R13, R218, R225). -/
def graftTrainedEff (i : GraftId) (r : TrainResult) (d : Dev) : Dev :=
  let g := i.auth
  if !d.endExists g || d.gState g ≠ 1 then d
  else match i with
    | .vertical s =>
      if 28 ≤ r.strap then d
      else if r.strap ≠ s then ((d.strapMismatch s r.strap).graftTrained s false).powerGo
      else
        let (ok, d) := d.train g r
        (d.graftTrained s ok).powerGo
    | .lateral _ => (d.train g r).2

/-- GRAFT_TRAINING_TIMEOUT (R218). -/
def graftTimeoutEff (i : GraftId) (d : Dev) : Dev :=
  if !d.endExists i.auth || d.gState i.auth ≠ 1 then d
  else match i with
    | .vertical s => ((d.trainingTimeout i).graftTrained s false).powerGo
    | .lateral _ => d.trainingTimeout i

/-! ### Ageing (R375, R376, R378) -/

/-- The event source of a die's monitors: a site, or 28 for the trunk. -/
def ageSource (die : Nat) : Nat := if die < 28 then siteSource die 24 else 110

/-- The baselines of a die: the record of its site, or 31 for the trunk. -/
def Dev.testOf (d : Dev) (die : Nat) : TestRecord := d.mgmt.tests.find {} (if die < 28 then die else 31)

/-- WEAR (R375): the worst slowdown in thousandths, limited to 255. -/
def wearOf (base count : List Nat) : Nat :=
  (base.zip count).foldl (fun w p => max w (min 255 (if p.1 = 0 then 0 else (p.1 - p.2) * 1000 / p.1))) 0

/-- MARGIN (R375): the least of the replicas, in steps of 2 ps up to 63. -/
def marginOf (reps : List Nat) : Nat := reps.foldl min 63

/-- The dies of a re-plan: the active sites and the trunk. -/
def Dev.ageDies (d : Dev) : List Nat := d.activeSites ++ [28]

/-- A re-plan starts: a measurement of every active die (R376). -/
def Dev.replan (d : Dev) : Dev :=
  if d.flag AGE_CMD.BUSY then d
  else d.ageDies.foldl (fun d x => d.put AGE_DIE.MEAS 1 0 x) (d.put AGE_CMD.BUSY 1)

/-- AGE_REPLAN: a write of AGE_CMD.GO. -/
def ageReplanEff (d : Dev) : Dev := d.replan

/-- AGE_REPLAN_PERIOD: PERIOD_H hours of ACTIVE or STANDBY time have passed; 0 is off. -/
def ageReplanPeriodEff (d : Dev) : Dev :=
  if d.get AGE_CTL.PERIOD_H ≠ 0 && (d.get PWR_PKG_CTL.STATE == 0 || d.get PWR_PKG_CTL.STATE == 2) then d.replan else d

/-- BUSY clears when no die is measured or settles. -/
def Dev.replanEnds (d : Dev) : Dev :=
  if d.power.settling.isEmpty && (List.range 29).all (fun x => !d.flag AGE_DIE.MEAS 0 x) then d.put AGE_CMD.BUSY 0 else d

/-- A die's guardband step as AGE_DIE shows it. -/
def Dev.setGb (d : Dev) (die gb : Nat) : Dev := (d.put AGE_DIE.GB gb 0 die).put AGE_DIE.REMAIN (20 - gb) 0 die

/-- AGE_MEASURE_DONE (R375, R376): the ring-oscillator counts, normalised to VTEST, and the margins of the replicas. Below the target the
guardband rises by a step and settles; at its limit the die is at the end of its margin; else its step is stored.
DEDUCED, assumption 77. -/
def ageMeasureEff (die : Nat) (ros reps : List Nat) (d : Dev) : Dev :=
  if 29 ≤ die || !d.flag AGE_DIE.MEAS 0 die then d
  else
    let m := marginOf reps
    let gb := d.get AGE_DIE.GB 0 die
    let d := ((d.put AGE_DIE.MEAS 0 0 die).put AGE_DIE.WEAR (wearOf (d.testOf die).ro ros) 0 die).put AGE_DIE.MARGIN m 0 die
    if m < d.get AGE_CTL.TARGET && gb < 20 then
      (d.setGb die (gb + 1)).modPower fun p => { p with settling := p.settling ++ [die] }
    else
      let d := if m < d.get AGE_CTL.TARGET then (d.put AGE_DIE.EOM 1 0 die).raise (ageSource die) else d
      ({ d with nvm := { d.nvm with gb := d.nvm.gb.set natLt 0 die gb } }).replanEnds

/-- GUARDBAND_SETTLE (R376): 100 µs after a step the die is measured again. DEDUCED, assumption 77. -/
def guardbandSettleEff (die : Nat) (d : Dev) : Dev :=
  if d.power.settling.contains die then
    (d.modPower fun p => { p with settling := p.settling.erase die }).put AGE_DIE.MEAS 1 0 die
  else d

/-! ### Commands that may end a step of a power entry, a wake, a reset or the boot -/

/-- WB_ACK: a write-back that a flush waits for may have ended. -/
def wbAckGoEff (b line : Nat) (ok : Bool) (d : Dev) : Dev := (wbAckEff b line ok d).powerGo

/-- PURGE_DONE. -/
def purgeGoEff (q : Nat) (d : Dev) : Dev := (purgeDoneEff q d).powerGo

/-- LEE_STOP_COMPLETE. -/
def leeStopGoEff (n : Nat) (d : Dev) : Dev := (leeStopCompleteEff n d).powerGo

/-- RING_SYNC: a copy may have locked (R240, R366, R383). -/
def ringSyncGoEff (s : Nat) (v : Word) (d : Dev) : Dev :=
  let d := (ringSyncEff s v d).powerGo
  if (d.copyInfo s).good = 2 then d.bootCheck else d

/-- MEM_TRAINING_DONE. -/
def memTrainedGoEff (m : Nat) (r : MemTrain) (d : Dev) : Dev := (memTrainedEff m r d).bootCheck

/-- MEM_SWEEP_DONE. -/
def memSweepGoEff (m cause : Nat) (d : Dev) : Dev := (memSweepDoneEff m cause d).powerGo

/-- MEM_SCHEDULE: a channel that drains for STANDBY may be empty. -/
def memScheduleGoEff (m lines : Nat) (d : Dev) : Dev := (memScheduleEff m lines d).powerGo

/-- DRAM_READ_RETURN. -/
def dramReadGoEff (m : Nat) (ecc : EccOutcome) (device : Nat) (d : Dev) : Dev := (dramReadEff m ecc device d).powerGo

/-- MSI_WRITE: a leaf that wakes ends an entry of its bough that has not closed its gate (R365). -/
def msiGoEff (h f i : Nat) (d : Dev) : Dev := (msiWriteEff h f i d).powerGo

/-- DEVICE_REQUEST, which STANDBY holds (R368). -/
def deviceRequestGoEff (r : DevReq) (d : Dev) : Dev := d.orHold (.access r) (deviceRequestEff r)

/-- DEVICE_MSI. -/
def deviceMsiGoEff (seg rid data : Nat) (d : Dev) : Dev := d.orHold (.msi seg rid data) (deviceMsiEff seg rid data)

/-- ATS_TRANSLATION_REQUEST. -/
def atsRequestGoEff (r : DevReq) (d : Dev) : Dev := d.orHold (.ats r) (atsRequestEff r)

/-- PAGE_REQUEST. -/
def pageRequestGoEff (p : PageReq) (d : Dev) : Dev := d.orHold (.page p) (pageRequestEff p)

end Sys2Proof.Machine
end

