-- ==== Sys2Proof/Machine/Xmss.lean ====
section
/-!
DEFINITION. The hash and the signature scheme of images (R44): SHAKE256 of FIPS 202, and the verification of XMSS with the functions of
NIST SP 800-208 for SHAKE256 with 256-bit outputs (n = 32, w = 16, 67 chains). PRESUMED, assumption 43.
-/

namespace Sys2Proof.Machine

/-! ### SHAKE256 (FIPS 202) -/

/-- Rotate a lane of 64 bits to the left. -/
def rotLane (x n : Nat) : Nat := (x * 2 ^ n + x / 2 ^ (64 - n)) % 2 ^ 64

/-- The rotations of rho, lane x + 5y. -/
def rhoOffsets : List Nat :=
  [0, 1, 62, 28, 27, 36, 44, 6, 55, 20, 3, 10, 43, 25, 39, 41, 45, 15, 21, 8, 18, 2, 61, 56, 14]

/-- The constants of iota. -/
def iotaConstants : List Nat :=
  [0x0000000000000001, 0x0000000000008082, 0x800000000000808A, 0x8000000080008000, 0x000000000000808B, 0x0000000080000001]
  ++ [0x8000000080008081, 0x8000000000008009, 0x000000000000008A, 0x0000000000000088, 0x0000000080008009, 0x000000008000000A]
  ++ [0x000000008000808B, 0x800000000000008B, 0x8000000000008089, 0x8000000000008003, 0x8000000000008002, 0x8000000000000080]
  ++ [0x000000000000800A, 0x800000008000000A, 0x8000000080008081, 0x8000000000008080, 0x0000000080000001, 0x8000000080008008]

/-- A round of KECCAK: theta, rho and pi, chi, and iota. -/
def keccakRound (a : List Nat) (rc : Nat) : List Nat :=
  let c := (List.range 5).map fun x => (List.range 5).foldl (fun v y => v ^^^ a.getD (x + 5 * y) 0) 0
  let t := (List.range 25).map fun i => a.getD i 0 ^^^ c.getD ((i + 4) % 5) 0 ^^^ rotLane (c.getD ((i + 1) % 5) 0) 1
  let b := (List.range 25).map fun i =>
    let k := (i % 5 + 3 * (i / 5)) % 5 + 5 * (i % 5)
    rotLane (t.getD k 0) (rhoOffsets.getD k 0)
  (List.range 25).map fun i =>
    let y := i / 5 * 5
    let v := b.getD i 0 ^^^ ((b.getD (y + (i + 1) % 5) 0 ^^^ (2 ^ 64 - 1)) &&& b.getD (y + (i + 2) % 5) 0)
    if i = 0 then v ^^^ rc else v

/-- KECCAK-f[1600]. -/
def keccak (a : List Nat) : List Nat := iotaConstants.foldl keccakRound a

/-- Bytes as a little-endian number. -/
def leNat (l : List Byte) : Nat := l.foldr (fun b v => b.toNat + 256 * v) 0

/-- A block of 136 bytes enters the state. -/
def absorbBlock (a : List Nat) (block : List Byte) : List Nat :=
  keccak ((List.range 25).map fun i => a.getD i 0 ^^^ leNat ((block.drop (8 * i)).take 8))

/-- All blocks of a message enter, the last one padded. `fuel` bounds them. -/
def absorb : Nat → List Nat → List Byte → List Nat
  | 0, a, _ => a
  | fuel + 1, a, m =>
    if 136 ≤ m.length then absorb fuel (absorbBlock a (m.take 136)) (m.drop 136)
    else
      let l := m ++ [0x1F] ++ List.replicate (135 - m.length) 0
      absorbBlock a (l.set 135 (l.getD 135 0 ||| 0x80))

/-- SHAKE256 with an output of 32 bytes. PRESUMED, assumption 43. -/
def shake256 (m : List Byte) : List Byte :=
  ((absorb (m.length / 136 + 1) (List.replicate 25 0) m).take 4).flatMap fun w =>
    (List.range 8).map fun i => BitVec.ofNat 8 (w / 2 ^ (8 * i))

/-! ### XMSS (RFC 8391 as SP 800-208 takes it over) -/

/-- A number in n bytes, the most significant first. -/
def beBytes (n v : Nat) : List Byte := (List.range n).map fun i => BitVec.ofNat 8 (v / 2 ^ (8 * (n - 1 - i)))

/-- A number of bytes, the most significant first. -/
def beNat (l : List Byte) : Nat := l.foldl (fun v b => 256 * v + b.toNat) 0

/-- The functions of SP 800-208: F (0), H (1), H_msg (2) and PRF (3), under a key. -/
def xmssHash (kind : Nat) (key m : List Byte) : List Byte := shake256 (beBytes 32 kind ++ key ++ m)

/-- An address: its type (0 one-time signature, 1 L-tree, 2 hash tree), its three words, and the word that separates a key from its
masks. The trees lie on layer 0. -/
def xmssAdrs (typ a b c keyMask : Nat) : List Byte := List.replicate 12 0 ++ [typ, a, b, c, keyMask].flatMap (beBytes 4)

/-- Bytes combined with a mask. -/
def xorBytes (a b : List Byte) : List Byte := List.zipWith (· ^^^ ·) a b

/-- Steps of a chain of the one-time signature, from a position on. -/
def wotsChain (seed : List Byte) (ots chain : Nat) : Nat → Nat → List Byte → List Byte
  | 0, _, x => x
  | k + 1, pos, x =>
    let key := xmssHash 3 seed (xmssAdrs 0 ots chain pos 0)
    let mask := xmssHash 3 seed (xmssAdrs 0 ots chain pos 1)
    wotsChain seed ots chain k (pos + 1) (xmssHash 0 key (xorBytes x mask))

/-- Digits of 4 bits, the high one of each byte first. -/
def hexDigits (l : List Byte) : List Nat := l.flatMap fun b => [b.toNat / 16, b.toNat % 16]

/-- The 67 digits of a message: its own, and those of their checksum. -/
def wotsDigits (m : List Byte) : List Nat :=
  let d := hexDigits m
  d ++ (hexDigits (beBytes 2 (16 * d.foldl (fun s x => s + (15 - x)) 0))).take 3

/-- The one-time public key that a signature gives. -/
def wotsKey (seed : List Byte) (ots : Nat) (m sig : List Byte) : List (List Byte) :=
  (wotsDigits m).zipIdx.map fun p => wotsChain seed ots p.2 (15 - p.1) p.1 ((sig.drop (32 * p.2)).take 32)

/-- Two nodes combined. -/
def xmssNode (seed : List Byte) (typ a height index : Nat) (l r : List Byte) : List Byte :=
  let prf (k : Nat) : List Byte := xmssHash 3 seed (xmssAdrs typ a height index k)
  xmssHash 1 (prf 0) (xorBytes l (prf 1) ++ xorBytes r (prf 2))

/-- The nodes of an L-tree one level up; an odd one goes up as it is. -/
def ltreeLevel (seed : List Byte) (tree height : Nat) : Nat → List (List Byte) → List (List Byte)
  | i, l :: r :: rest => xmssNode seed 1 tree height i l r :: ltreeLevel seed tree height (i + 1) rest
  | _, l => l

/-- The root of an L-tree; seven levels for 67 nodes. -/
def ltree (seed : List Byte) (tree : Nat) : Nat → Nat → List (List Byte) → List Byte
  | 0, _, l => l.headD []
  | k + 1, height, l => ltree seed tree k (height + 1) (ltreeLevel seed tree height 0 l)

/-- The path from a leaf to the root. -/
def xmssPath (seed : List Byte) : Nat → Nat → Nat → List Byte → List Byte → List Byte
  | 0, _, _, x, _ => x
  | k + 1, height, index, x, auth =>
    let other := auth.take 32
    let y := if index % 2 = 0 then xmssNode seed 2 0 height (index / 2) x other
      else xmssNode seed 2 0 height (index / 2) other x
    xmssPath seed k (height + 1) (index / 2) y (auth.drop 32)

/-- Verify a signature under a root and a seed, for a tree of a height. PRESUMED, assumption 43. -/
def xmssVerify (height : Nat) (root seed m sig : List Byte) : Bool :=
  let index := beNat (sig.take 4)
  let r := (sig.drop 4).take 32
  let ots := (sig.drop 36).take 2144
  let digest := xmssHash 2 (r ++ root ++ beBytes 32 index) m
  let leaf := ltree seed index 7 0 (wotsKey seed index digest ots)
  xmssPath seed height 0 index leaf (sig.drop 2180) == root

end Sys2Proof.Machine
end

