-- ==== Sys2Proof/Machine/Image.lean ====
section
/-!
DEFINITION. The structure image and the firmware (spec/02, R31 to R54, R421; spec/16, R380, R381): the flash and its directory, the
format of parts, what their verification checks, and what the loader does with them at a package warm reset.
-/

namespace Sys2Proof.Machine

/-! ### The flash (R31 to R34) -/

/-- A range of the flash is erased. -/
def Dev.eraseFlash (d : Dev) (base size : Nat) : Dev :=
  { d with flash := d.flash.filter fun p => decide (p.1 < base ∨ base + size ≤ p.1) }

/-- Bytes are programmed from an offset: a NOR flash clears bits and sets none. -/
def Dev.programFlash (d : Dev) (base : Nat) : List Byte → Dev
  | [] => d
  | b :: rest =>
    let old := d.flash.find 0xFF base
    ({ d with flash := d.flash.set natLt 0xFF base (old &&& b) }).programFlash (base + 1) rest

/-- A part as it is read: bytes by offset. -/
abbrev Blob := Nat → Byte

/-- The flash from an offset. -/
def Dev.flashBlob (d : Dev) (base : Nat) : Blob := fun i => d.flash.find 0xFF (base + i)

/-- n bytes of a part as a little-endian number. -/
def blobAt (b : Blob) (off : Nat) : Nat → Nat
  | 0 => 0
  | n + 1 => (b off).toNat + 256 * blobAt b (off + 1) n

/-- n bytes of a part in order. -/
def blobList (b : Blob) (off n : Nat) : List Byte := (List.range n).map fun i => b (off + i)

/-- n bytes of a part are zero. -/
def blobZero (b : Blob) (off n : Nat) : Bool := (List.range n).all fun i => b (off + i) == 0

/-- A number as n little-endian bytes. -/
def leBytes : Nat → Nat → List Byte
  | 0, _ => []
  | n + 1, v => BitVec.ofNat 8 v :: leBytes n (v / 256)

/-- Bytes as a little-endian number. -/
def ofBytes : List Byte → Nat
  | [] => 0
  | b :: r => b.toNat + 256 * ofBytes r

/-- CRC-32C. -/
def crc32c (n v : Nat) : Nat := crcBytes n 0xFFFFFFFF v ^^^ 0xFFFFFFFF

/-- A directory copy when it is correct (R33). -/
def Dev.directoryCopy (d : Dev) (c : Nat) : Option Directory :=
  let b := d.flashBlob (4096 * c)
  let trial := blobAt b 8 1
  let vt := blobAt b 6 1
  let ot := blobAt b 7 1
  if d.board.flashDead || blobAt b 0x1C 4 ≠ crc32c 28 (blobAt b 0 28) || 1 < blobAt b 4 1 || 2 < blobAt b 5 1 || 3 < trial
      || !blobZero b 9 19 || (if bit trial 0 then 3 else 0) < vt || (if bit trial 1 then 3 else 0) < ot then none
  else some ⟨some c, blobAt b 0 4, blobAt b 4 1, blobAt b 5 1, vt, ot, trial⟩

/-- The directory the loader uses (R33): the correct copy with the higher SEQ, copy 0 of two alike; with none, slots A as
confirmed parts. -/
def Dev.chooseDirectory (d : Dev) : Directory :=
  match d.directoryCopy 0, d.directoryCopy 1 with
  | some a, some b => if a.seq < b.seq then b else a
  | some a, none => a
  | none, some b => b
  | none, none => {}

/-- The bytes of a directory copy. -/
def Directory.bytes (x : Directory) : List Byte :=
  let body := leBytes 4 x.seq ++ [x.vActive, x.oActive, x.vTrial, x.oTrial, x.trial].map (BitVec.ofNat 8) ++ List.replicate 19 0
  body ++ leBytes 4 (crc32c 28 (ofBytes body))

/-- A directory write (R34): into the copy not loaded from, with SEQ one higher; copy 0 with SEQ 1 when no copy was used.
DEDUCED, assumption 46. -/
def Dev.writeDirectory (d : Dev) (x : Directory) : Dev :=
  let old := d.mgmt.dir
  let c := match old.copy with
    | some k => 1 - k
    | none => 0
  let x := { x with copy := some c, seq := (old.seq + 1) % 2 ^ 32 }
  { (d.eraseFlash (4096 * c) 4096).programFlash (4096 * c) x.bytes with mgmt := { d.mgmt with dir := x } }

/-- The flash offset and the size of a slot of R32 and of the firmware slots. -/
def slotBase (k : PartKind) (slot : Nat) : Nat :=
  match k with
  | .vendor => if slot = 0 then 0x10000 else 0x50000
  | .owner => if slot = 0 then 0x90000 else 0xA0000
  | .firmware => if slot = 0 then 0x100000 else 0x200000
/-- The size of a slot. -/
def slotSize : PartKind → Nat
  | .vendor => 0x40000
  | .owner => 0x10000
  | .firmware => 0x100000

/-! ### Parts (R35, R36, R380) -/

/-- A section: TYPE, CRITICAL, and its payload. -/
structure Sect where
  typ : Nat
  crit : Bool
  off : Nat
  size : Nat
deriving DecidableEq, Repr

/-- The sections of a part from an offset: as many as SECTIONS says, filling the rest exactly, their FLAGS and SIZEs as R36 asks. -/
def sectsFrom (b : Blob) (fin : Nat) : Nat → Nat → Option (List Sect)
  | 0, off => if off = fin then some [] else none
  | n + 1, off =>
    let w := blobAt b off 8
    let size := w / 2 ^ 32
    if size < 8 || size % 8 ≠ 0 || fin < off + size || 1 < w / 2 ^ 16 % 2 ^ 16 then none
    else (sectsFrom b fin n (off + size)).map (⟨w % 2 ^ 16, w / 2 ^ 16 % 2 == 1, off + 8, size - 8⟩ :: ·)

/-- A part whose header and sections have the form of R35 and R36. -/
structure SignedPart where
  svn : Nat
  behaviour : Nat
  uid : Nat
  slot : Nat
  len : Nat
  sects : List Sect
deriving DecidableEq, Repr

/-- The checks of step 1 of R44 that all parts share (the BAD_HEADER row of R421). A vendor part with a KEY_SLOT other than the 0 of
R35 fails them too, a choice of the model. DEDUCED, assumption 44. DESIGN CHOICE, assumption 80. -/
def parsePart (b : Blob) (magic maxLen maxSlot : Nat) : Option SignedPart :=
  let len := blobAt b 8 4
  if blobAt b 0 4 ≠ magic || blobAt b 4 2 ≠ 1 || len % 8 ≠ 0 || len < 64 || maxLen < len || blobAt b 0xF 1 ≠ 0
      || !blobZero b 0x21 31 || 63 < blobAt b 0xC 2 || maxSlot < blobAt b 0x20 1 then none
  else (sectsFrom b len (blobAt b 6 2) 64).map fun ss =>
    ⟨blobAt b 0xC 2, blobAt b 0xE 1, blobAt b 0x10 16, blobAt b 0x20 1, len, ss⟩

/-- The first section of a TYPE. -/
def SignedPart.sect (p : SignedPart) (typ : Nat) : Option Sect := p.sects.find? fun s => s.typ == typ

/-- Some TYPE appears twice. -/
def SignedPart.twice (p : SignedPart) : Bool := !(p.sects.map (·.typ)).Nodup

/-- A TYPE outside a list is CRITICAL. -/
def SignedPart.unknown (p : SignedPart) (known : List Nat) : Bool := p.sects.any fun s => s.crit && !known.contains s.typ

/-- The signed message: header, sections and public key. -/
def SignedPart.message (p : SignedPart) (b : Blob) : List Byte := blobList b 0 (p.len + 68)

/-- The hash of the signed message, as a quote reports it (R391). -/
def SignedPart.hash (p : SignedPart) (b : Blob) : Nat := ofBytes (shake256 (p.message b))

/-- The hash of the public key (R44, step 2). PRESUMED, assumption 42. -/
def SignedPart.keyHash (p : SignedPart) (b : Blob) : Nat := ofBytes (shake256 (blobList b p.len 68))

/-- The key carries the identifier of XMSS-SHAKE256_20_256, 0x00000012, and the signature verifies (R44, step 3).
PRESUMED, assumption 42. -/
def SignedPart.signed (p : SignedPart) (b : Blob) : Bool :=
  blobList b p.len 4 == [0, 0, 0, 0x12]
    && xmssVerify 20 (blobList b (p.len + 4) 32) (blobList b (p.len + 36) 32) (p.message b) (blobList b (p.len + 68) 2820)

/-- The code of the first check that fails. DEDUCED, assumption 44. -/
def firstFail (l : List (Bool × Nat)) : Option Nat := (l.find? (·.1)).map (·.2)

/-! ### The vendor part (R37 to R40) -/

/-- What a vendor part brings: its header, its site map, its test records, its remap seed as tables with array and word, and its
hash. -/
structure VendorPart where
  svn : Nat
  behaviour : Nat
  map : List Nat
  tests : KMap Nat TestRecord
  seeds : List (RemapTable × Nat × Nat)
  hash : Nat

/-- The populated sites: those fused, of which a crown has at most its active boughs and one spare, and the package no more spares
than its variant provides (R1, R16). -/
def Dev.populatedSites (d : Dev) : List Nat :=
  ((List.range 4).foldl (fun (r : List Nat × Nat) c =>
    let here := (((List.range 7).map (7 * c + ·)).filter (bit d.fuse.populated)).take (d.boughsFused / 4 + min 1 r.2)
    (r.1 ++ here, r.2 - (here.length - d.boughsFused / 4))) ([], d.sparesFused)).1

/-- The site map is accepted (R38, R39). -/
def Dev.mapOk (d : Dev) (m : List Nat) : Bool :=
  let n := d.boughsFused / 4
  (List.range 28).all (fun s =>
    let e := m.getD s 0
    e / 32 % 2 == 0 && (e / 64 == 1 || e % 32 == 0) && (d.populatedSites.contains s == decide (e / 64 ≠ 0)))
  && (List.range 4).all fun c =>
    let active := ((List.range 7).map fun p => m.getD (7 * c + p) 0).filter fun e => e / 64 == 1
    active.length == n && (List.range n).all fun k => active.contains (0x40 + n * c + k)

/-- A TEST_RESULTS record (R39). -/
def testRecord (b : Blob) (off : Nat) : TestRecord :=
  { vtest := (List.range 4).map fun i => blobAt b (off + 2 + 2 * i) 2
    ro := (List.range 32).map fun i => blobAt b (off + 10 + 2 * i) 2
    cp := (List.range 4).map fun i => blobAt b (off + 74 + 2 * i) 2 }

/-- The place that a REMAP_SEED entry names, or the code it is rejected with (R40). An entry that lacks MV or WV (or TV or LV of a
store), or that names a macro or word of none of the three kinds of array, is out of range. DESIGN CHOICE, assumption 80. -/
def Dev.seedPlace (d : Dev) (m : List Nat) (w : Word) : Except Nat (RemapTable × Nat × Nat) :=
  let crown := w.bits 57 56
  let bough := w.bits 55 51
  let array := w.bits 41 32
  let word := w.bits 31 0
  let at_ (t : RemapTable) : Except Nat (RemapTable × Nat × Nat) :=
    if placeExists t array word then .ok (t, array, word) else .error 0x0B
  if !w.getLsbD 44 || !w.getLsbD 43 then .error 0x0B
  else if bough = 31 then at_ (.dir crown)
  else
    let site : Option Nat := if bough < 24 then m.findIdx? (· == 0x40 + bough) else some (7 * crown + (bough - 24))
    match site with
    | none => .error 9
    | some s =>
      if s / 7 ≠ crown || m.getD s 0 / 64 = 0 then .error 9
      else if array < 200 then
        if !w.getLsbD 46 || !w.getLsbD 45 then .error 0x0B
        else if !d.hasLee then .error 9
        else at_ (.store s (4 * w.bits 50 49 + w.bits 48 47))
      else at_ (.l3 s)

/-- The entries of a REMAP_SEED section. -/
def seedWords (b : Blob) (s : Sect) : List Word :=
  (List.range (blobAt b s.off 4)).map fun i => BitVec.ofNat 64 (blobAt b (s.off + 8 + 8 * i) 8)

/-- Verify a vendor part (R37 to R40, R44, R421): the part, or the code of the first check that fails. Two TEST_RESULTS records of one
SITE are out of range. DESIGN CHOICE, assumption 80. -/
def Dev.checkVendor (d : Dev) (b : Blob) : Except Nat VendorPart :=
  if d.board.flashDead then .error 1
  else match parsePart b 0x4B535650 259256 0 with
    | none => .error 2
    | some p =>
      match p.sect 1, p.sect 2, p.sect 3 with
      | some m, some t, some r =>
        let map := (List.range 28).map fun i => blobAt b (m.off + i) 1
        let n := d.populatedSites.length + 1
        let sites := (List.range n).map fun i => blobAt b (t.off + 128 * i) 1
        let places := (seedWords b r).map (d.seedPlace map)
        let good := places.filterMap fun x => match x with
          | .ok y => some y
          | .error _ => none
        let failed (code : Nat) : Bool := places.any fun x => match x with
          | .ok _ => false
          | .error e => e == code
        match firstFail
          [(p.sects.any fun s => [1, 2, 3].contains s.typ && !s.crit, 2), (p.keyHash b != d.fuse.vendorRoot, 3), (!p.signed b, 5),
           (p.uid != d.fuse.uid, 7), (decide (p.svn < d.fuse.vFloor), 6), (p.behaviour == 0, 0x0A),
           (p.unknown [1, 2, 3], 0x0C), (p.twice, 0x0D),
           (m.size != 32 || t.size != 128 * n || r.size != 8 + 8 * blobAt b r.off 4, 0x0B),
           (!blobZero b (m.off + 28) 4 || !blobZero b (r.off + 4) 4
              || (List.range n).any (fun i => !blobZero b (t.off + 128 * i + 82) 46), 0x0B),
           (!d.mapOk map, 8),
           (sites.any fun s => s != 31 && !d.populatedSites.contains s, 9), (!sites.Nodup, 0x0B),
           (failed 0x0B, 0x0B),
           (!good.Nodup || good.any (fun x => decide ((tableOf x.1).size < (good.filter fun y => y.1 == x.1).length)), 0x0B),
           (failed 9, 9)] with
        | some e => .error e
        | none =>
          .ok { svn := p.svn, behaviour := p.behaviour, map := map, hash := p.hash b, seeds := good
                tests := (List.range n).foldl (fun k i =>
                  KMap.set natLt ({} : TestRecord) k (sites.getD i 0) (testRecord b (t.off + 128 * i))) [] }
      | _, _, _ => .error 2

/-! ### The owner part (R41 to R43, R265) -/

/-- What an owner part sets, each field at its default where a section is absent. -/
structure OwnerPart where
  svn : Nat := 0
  behaviour : Nat := 0
  slot : Nat := 0
  mem : MemSettings
  groups : List Nat := []
  limit : Nat := 64
  pin : Nat := 0
  debug : Bool := false
  firewall : List Nat := []
  pkgHi : Nat := 0
  span : Nat := 0
  clocks : List Nat := []
  hash : Nat := 0

/-- The anchor bits of the six masks (R264). -/
def anchors : List Nat := [7, 8, 9, 13, 14, 6]

/-- The masks in force by default. -/
def defaultMasks : List Nat := (List.range 6).map fun i => (defaultXor i).toNat

/-- The defaults of R41. -/
def Dev.ownerDefaults (d : Dev) : OwnerPart := { mem := { channels := d.memMask, masks := defaultMasks } }

/-- The masks obey R265. -/
def masksOk (l : List Nat) : Bool :=
  (List.range 6).all fun i =>
    let m := l.getD i 0
    decide (m < 2 ^ 48) && m % 64 == 0 && (List.range 6).all fun k => bit m (anchors.getD k 0) == (i == k)

/-- Entry g of a MODEL_GROUPS section as a number of 64 bytes: whether it is enabled, its lanes, ports and members. -/
def groupEn (e : Nat) : Bool := e % 2 == 1
/-- LANES of such an entry. -/
def groupLanes (e : Nat) : Nat := e / 2 % 4
/-- Its SPAN mask. -/
def groupSpan (e : Nat) : Nat := e / 2 ^ 8 % 16
/-- Its MEMBERS. -/
def groupMembers (e : Nat) : Nat := e / 2 ^ 128
/-- The bits of an entry that no field uses are zero. -/
def groupSpare (e : Nat) : Bool := e / 8 % 32 == 0 && e / 2 ^ 12 % 2 ^ 116 == 0

/-- The sections of an owner part: their TYPEs with the sizes of their payloads; FIREWALL's depends on its COUNT. -/
def ownerTypes : List (Nat × Nat) :=
  [(0x101, 56), (0x102, 1024), (0x103, 8), (0x104, 8), (0x105, 8), (0x106, 0), (0x107, 8), (0x108, 8), (0x109, 8)]

/-- The settings of an owner part's sections over the defaults. -/
def Dev.ownerSettings (d : Dev) (b : Blob) (p : SignedPart) : OwnerPart :=
  let byte (typ dflt : Nat) : Nat := match p.sect typ with
    | some s => blobAt b s.off 1
    | none => dflt
  let o := d.ownerDefaults
  { svn := p.svn, behaviour := p.behaviour, slot := p.slot, hash := p.hash b
    mem := match p.sect 0x101 with
      | some s => ⟨blobAt b s.off 1 != 0, blobAt b (s.off + 2) 2, (List.range 6).map fun i => blobAt b (s.off + 8 + 8 * i) 8⟩
      | none => o.mem
    groups := match p.sect 0x102 with
      | some s => (List.range 16).map fun g => blobAt b (s.off + 64 * g) 64
      | none => []
    limit := byte 0x103 64, pin := byte 0x104 0, debug := byte 0x105 0 == 1
    firewall := match p.sect 0x106 with
      | some s => (List.range (blobAt b s.off 1)).map fun e => blobAt b (s.off + 8 + 32 * e) 32
      | none => []
    pkgHi := byte 0x107 0, span := byte 0x108 0
    clocks := match p.sect 0x109 with
      | some s => (List.range 4).map fun c => blobAt b (s.off + c) 1
      | none => [] }

/-- The bytes that no field of a firewall entry uses are zero: bytes 0, 6 and 7 of BASE and of LIMIT, 6 and 7 of ACC, 1 to 7 of CTL
(R36, R396). -/
def entrySpare (b : Blob) (off : Nat) : Bool :=
  [0, 6, 7, 8, 14, 15, 22, 23].all (fun i => b (off + i) == 0) && blobZero b (off + 25) 7

/-- A section's SIZE fits its payload, and every unused byte is zero (R36). -/
def ownerForm (b : Blob) (s : Sect) : Bool :=
  let rest (n : Nat) : Bool := blobZero b (s.off + n) (s.size - n)
  match s.typ with
  | 0x101 => s.size == 56 && blobAt b (s.off + 1) 1 == 0 && blobZero b (s.off + 4) 4
  | 0x102 => s.size == 1024 && (List.range 16).all fun g => groupSpare (blobAt b (s.off + 64 * g) 64)
  | 0x106 => s.size == 8 + 32 * blobAt b s.off 1 && blobZero b (s.off + 1) 7
    && (List.range (blobAt b s.off 1)).all fun e => entrySpare b (s.off + 8 + 32 * e)
  | 0x109 => s.size == 8 && rest 4
  | _ => s.size == 8 && rest 1

/-- Verify an owner part against a behaviour level (R41, R42, R44, R54, R265, R421). The class and segment bits of a FIREWALL entry
name no unit, so those of absent units are let pass. DESIGN CHOICE, assumption 80. -/
def Dev.checkOwner (d : Dev) (b : Blob) (level : Nat) : Except Nat OwnerPart :=
  if d.board.flashDead then .error 1
  else match parsePart b 0x4B534F50 62648 1 with
    | none => .error 2
    | some p =>
      let (state, hash) := if p.slot = 0 then (d.fuse.slot0, d.fuse.hash0) else (d.fuse.slot1, d.fuse.hash1)
      let o := d.ownerSettings b p
      let on := o.groups.filter groupEn
      let range (typ lo hi : Nat) : Bool := match p.sect typ with
        | some s => decide (blobAt b s.off 1 < lo ∨ hi < blobAt b s.off 1)
        | none => false
      match firstFail
        [(state == 0, 3), (state == 2, 4), (p.keyHash b != hash, 3), (!p.signed b, 5),
         (p.uid != 0 && p.uid != d.fuse.uid, 7), (decide (p.svn < d.fuse.oFloor), 6), (decide (level < p.behaviour), 0x0A),
         (p.unknown (ownerTypes.map (·.1)), 0x0C), (p.twice, 0x0D),
         (p.sects.any fun s => (ownerTypes.map (·.1)).contains s.typ && !ownerForm b s, 0x0B),
         (range 0x101 0 1 || range 0x103 1 64 || range 0x104 0 1 || range 0x105 0 1 || range 0x106 0 64 || range 0x107 0 7, 0x0B),
         (!masksOk o.mem.masks, 0x0B), (o.clocks.any (3 < ·), 0x0B), (on.any fun e => groupLanes e == 3, 0x0B),
         ((List.range 384).any fun n => decide (1 < (on.filter fun e => bit (groupMembers e) n).length), 0x0B),
         ((List.range 16).any fun m => bit o.mem.channels m && !d.channelPresent m, 9),
         (on.any fun e => decide (2 ^ (16 * d.boughsFused) ≤ groupMembers e), 9),
         (d.groupsHere == 0 && !on.isEmpty, 9),
         ((List.range 8).any fun c => (bit o.span c || on.any fun e => bit (groupSpan e) c) && !bit d.spanMask c, 9)] with
      | some e => .error e
      | none => .ok o

/-! ### Firmware (R380, R381) -/

/-- What the firmware image says: SEQ, VERSION, SVN and hash. -/
structure FirmwarePart where
  seq : Nat
  version : Nat
  svn : Nat
  hash : Nat
deriving DecidableEq, Repr

/-- The header and the VERSION section of a firmware image: exactly two sections, both CRITICAL (R380). -/
def parseFirmware (b : Blob) : Option (SignedPart × FirmwarePart) :=
  match parsePart b 0x4B534650 521400 0 with
  | none => none
  | some p =>
    match p.sect 0x301, p.sect 0x302 with
    | some _, some v =>
      if p.sects.length ≠ 2 || p.sects.any (fun s => !s.crit) || v.size ≠ 8 || p.behaviour ≠ 0 || p.uid ≠ 0 then none
      else some (p, ⟨blobAt b v.off 4, blobAt b (v.off + 4) 4, p.svn, p.hash b⟩)
    | _, _ => none

/-- Verify a firmware image: R44 with the changes of R380. -/
def Dev.checkFirmware (d : Dev) (b : Blob) : Except Nat FirmwarePart :=
  if d.board.flashDead then .error 1
  else match parseFirmware b with
    | none => .error 2
    | some (p, f) =>
      match firstFail [(p.keyHash b != d.fuse.vendorRoot, 3), (!p.signed b, 5), (decide (p.svn < d.fuse.vFloor), 6)] with
      | some e => .error e
      | none => .ok f

/-- The firmware slots in the order in which the ROM verifies them (R381, R382): the higher SEQ first, unless three boots have
failed; and the slot with the higher SEQ. -/
def Dev.firmwareOrder (d : Dev) : List Nat × Nat :=
  let seq (s : Nat) : Option Nat := (parseFirmware (d.flashBlob (slotBase .firmware s))).map (·.2.seq)
  let high := match seq 0, seq 1 with
    | some a, some b => if a < b then 1 else 0
    | none, some _ => 1
    | _, _ => 0
  (if d.get MBX_FW.BOOT_FAILS = 3 then [1 - high, high] else [high, 1 - high], high)

/-- The ROM verifies and starts a firmware image, or stays in service mode (R381, R392). -/
def Dev.loadFirmware (d : Dev) : Dev :=
  let (order, high) := d.firmwareOrder
  let found := order.findSome? fun s => match d.checkFirmware (d.flashBlob (slotBase .firmware s)) with
    | .ok f => some (s, f)
    | .error _ => none
  match found with
  | none => d
  | some (s, f) =>
    let d := { d with mgmt := { d.mgmt with firmware := some s, fwSeq := f.seq, fHash := f.hash, next := d.nvm.reserved
                                            limit := d.nvm.reserved } }
    (((d.put MBX_FW.FALLBACK (if s = high then 0 else 1)).put MBX_FW.SLOT s).put MBX_FW.SVN f.svn).put MBX_FW.VERSION f.version

/-! ### Loading (R46 to R50) -/

/-- Trial bit and count of a kind in a directory, and the directory that makes a slot active and confirmed. -/
def Directory.confirm (x : Directory) (k : PartKind) (slot : Nat) : Directory :=
  match k with
  | .vendor => { x with vActive := slot, trial := setBit x.trial 0 false, vTrial := 0 }
  | _ => { x with oActive := slot, trial := setBit x.trial 1 false, oTrial := 0 }

/-- The active slot of a kind is in trial. -/
def Directory.inTrial (x : Directory) : PartKind → Bool
  | .vendor => bit x.trial 0
  | .owner => bit x.trial 1
  | .firmware => false

/-- The trial loads left of a kind. -/
def Directory.trialsLeft (x : Directory) : PartKind → Nat
  | .vendor => x.vTrial
  | _ => x.oTrial

/-- The active slot of a kind. DEDUCED, assumption 45. -/
def Directory.active (x : Directory) : PartKind → Nat
  | .vendor => x.vActive
  | _ => x.oActive

/-- The directory with one trial load fewer. -/
def Directory.spend (x : Directory) : PartKind → Directory
  | .vendor => { x with vTrial := x.vTrial - 1 }
  | _ => { x with oTrial := x.oTrial - 1 }

/-- Load one kind of part (R47, R48, R50): the slot and the part, the code of the last failure, and the directory as it is rewritten.
An expired trial is not loaded again. DEDUCED, assumption 45. -/
def Dev.loadKind {α : Type} (d : Dev) (k : PartKind) (check : Dev → Nat → Except Nat α) : Option (Nat × α) × Nat × Dev :=
  let x := d.mgmt.dir
  let a := x.active k
  let other := 1 - a
  if x.inTrial k && x.trialsLeft k = 0 then
    let d := d.writeDirectory (x.confirm k other)
    match check d other with
    | .ok p => (some (other, p), 0x0E, d)
    | .error e => (none, e, d)
  else
    let d := if x.inTrial k then d.writeDirectory (x.spend k) else d
    match check d a with
    | .ok p => (some (a, p), 0, d)
    | .error e =>
      let d := if x.inTrial k then d.writeDirectory (d.mgmt.dir.confirm k other) else d
      match check d other with
      | .ok p => (some (other, p), e, d)
      | .error e => (none, e, d)

/-- The site map is applied, with BGH_ID of the active sites and the guardbands kept in nonvolatile memory (R39, R46 step 4, R378). -/
def Dev.applyMap (d : Dev) (map : List Nat) : Dev :=
  let mask (st : Nat) : Nat := (List.range 28).foldl (fun a s => if map.getD s 0 / 64 = st then a + 2 ^ s else a) 0
  let d := (List.range 4).foldl (fun d c => d.setReg ⟨.SIM_SITEMAP, 0, c⟩
    (BitVec.ofNat 64 ((List.range 7).foldr (fun p a => 256 * a + map.getD (7 * c + p) 0) 0))) d
  let d := (((d.put TRK_CAP.SITE_ACTIVE (mask 1)).put TRK_CAP.SITE_SPARE (mask 2)).put TRK_CAP.BOUGHS d.boughsFused).put
    TRK_CAP.FCAP (if d.hasCapture then 1 else 0)
  let d := d.put TRK_CAP.LEE (if d.hasLee then 1 else 0)
  d.activeSites.foldl (fun d s =>
    let d := (((d.put BGH_ID.STEPPING (d.fuse.boughStepping.find 0x10 s) s).put BGH_ID.POSITION (s % 7) s).put BGH_ID.CROWN (s / 7) s).put
      BGH_ID.BOUGH (d.boughAt s) s
    d.put BGH_ID.SITE s s) d

/-- The entries of the remap seed that name active sites or the directory are loaded, with SEED = 1 (R40, R339). -/
def Dev.applySeed (d : Dev) (seeds : List (RemapTable × Nat × Nat)) : Dev :=
  seeds.foldl (fun d x =>
    let t := tableOf x.1
    let here := match x.1 with
      | .store s _ | .l3 s => d.siteActive s
      | .dir _ => true
    match t.remap, (List.range t.size).find? fun e => match t.remap with
      | some r => d.get ⟨r, 63, 63⟩ t.u (t.first + e) == 0
      | none => false with
    | some r, some e =>
      if here then d.setReg ⟨r, t.u, t.first + e⟩ (BitVec.ofNat 64 ((1 <<< 63) + (1 <<< 61) + (1 <<< 60) + (x.2.1 <<< 32) + x.2.2))
      else d
    | _, _ => d) d

/-- A firewall entry from its staged words (R396). -/
def Dev.commitFirewall (d : Dev) (e : Nat) (en : Bool) : Dev :=
  let x : FwEntry := { base := d.get TRK_FW_BASE.ADDR 0 e, limit := d.get TRK_FW_LIMIT.ADDR 0 e, rd := d.get TRK_FW_ACC.RD 0 e
                       wr := d.get TRK_FW_ACC.WR 0 e, seg := d.get TRK_FW_ACC.SEG 0 e, en := en }
  ({ d with firewall := d.firewall.set natLt {} e x }).put TRK_FW_CTL.EN (if en then 1 else 0) 0 e

/-- The model groups of the owner part with EN = 1 start ENABLED with their members (R43). -/
def Dev.applyGroups (d : Dev) (l : List Nat) : Dev :=
  (l.zipIdx.filter fun p => groupEn p.1).foldl (fun d p =>
    let g := p.2
    let d := ((d.put FAB_MG_CTL.LANES (groupLanes p.1) 0 g).put FAB_MG_CTL.SPAN (groupSpan p.1) 0 g).put FAB_MG_CTL.STATE 2 0 g
    let d := (List.range 6).foldl (fun d k => d.put FAB_MG_MEM.MEMBERS (groupMembers p.1 / 2 ^ (64 * k) % 2 ^ 64) 0 (6 * g + k)) d
    d.groupReset g g) d

/-- The firewall entries of the owner part, each by its four words in register order (R396). -/
def Dev.applyFirewall (d : Dev) (l : List Nat) : Dev :=
  l.zipIdx.foldl (fun d p =>
    let d := (d.put TRK_FW_BASE.ADDR (p.1 / 2 ^ 12 % 2 ^ 36) 0 p.2).put TRK_FW_LIMIT.ADDR (p.1 / 2 ^ 76 % 2 ^ 36) 0 p.2
    let d := ((d.put TRK_FW_ACC.RD (p.1 / 2 ^ 128 % 2 ^ 9) 0 p.2).put TRK_FW_ACC.WR (p.1 / 2 ^ 144 % 2 ^ 9) 0 p.2).put TRK_FW_ACC.SEG
      (p.1 / 2 ^ 160 % 2 ^ 9) 0 p.2
    d.commitFirewall p.2 (bit p.1 192)) d

/-- The owner settings (R43, R46 step 8). A channel keeps its contents only while the MEMORY settings are unchanged (R276). -/
def Dev.applyOwner (d : Dev) (o : OwnerPart) : Dev :=
  let same := d.mgmt.memory == o.mem
  let d := { d with mgmt := { d.mgmt with memory := o.mem, debug := o.debug, oHash := o.hash }, bulk := { d.bulk with limit := o.limit } }
  let d := d.put TRK_CAP.GIL (if o.mem.global then 1 else 0)
  let d := if o.mem.global then (List.range 4).foldl (fun d r =>
      [TRK_NUMA_DIST.TO0, TRK_NUMA_DIST.TO1, TRK_NUMA_DIST.TO2, TRK_NUMA_DIST.TO3].foldl (fun d f => d.put f 10 0 r) d) d else d
  let used := (List.range 16).filter fun m => d.channelPresent m && bit o.mem.channels m
  let d := used.foldl (fun d m =>
    let d := (List.range 6).foldl (fun d i => d.put MEM_XOR.MASK (o.mem.masks.getD i 0) m i) (d.put MEM_STAT.STATE 1 m)
    if same then d else d.modChannel m fun c => { c with keep := false }) d
  let d := ((d.applyGroups o.groups).put EVC_PIN.MODE o.pin).applyFirewall o.firewall
  let d := (List.range 4).foldl (fun d c => if bit o.span c then (d.put SPN_CTL.EN 1 c).put SPN_STAT.STATE 1 c else d) d
  (List.range 4).foldl (fun d c => d.put ⟨.CLK_STAT, 2 * c + 1, 2 * c⟩ (o.clocks.getD c 0)) d

/-- TRK_CAP_IO, TRK_PKG_ID and the identity are published (R46 step 8, R20, R424). -/
def Dev.publish (d : Dev) (pkgHi : Nat) : Dev :=
  let d := ((d.put TRK_CAP_IO.MGROUPS d.groupsHere).put TRK_CAP_IO.BLK 0xFF).put TRK_CAP_IO.CXL d.cxlMask
  let d := ((d.put TRK_CAP_IO.SPAN d.spanMask).put TRK_CAP_IO.RP_X16 d.rpMask).put TRK_CAP_IO.MEM_CH d.memMask
  (d.put TRK_PKG_ID.PINS d.board.pins).put TRK_PKG_ID.PKG_ID (8 * pkgHi + d.board.pins)

/-- SIM_UID_LO and SIM_UID_HI read the unique ID (R424). -/
def Dev.publishUid (d : Dev) : Dev :=
  (d.setReg ⟨.SIM_UID_LO, 0, 0⟩ (BitVec.ofNat 64 d.fuse.uid)).setReg ⟨.SIM_UID_HI, 0, 0⟩ (BitVec.ofNat 64 (d.fuse.uid / 2 ^ 64))

/-- A load that finds no vendor part (R47, R420, R424): the other slot has been tried, so V_FALLBACK is set; VENDOR_FAILED, and
FAULT_N is held low. -/
def Dev.vendorFailed (d : Dev) (err : Nat) : Dev :=
  ((((d.put SIM_STAT.V_ERR err).put SIM_STAT.V_FALLBACK 1).put SIM_STAT.STATE 3).put EVC_PIN.LOW 1).publishUid

/-- The load of the structure image (R46), from the directory to the published registers. One event of R48 tells of a fallback,
of either kind or both, and of a load that fails; a load that fails writes no fresh directory. DESIGN CHOICE, assumption 80. -/
def Dev.loadImage (d : Dev) : Dev :=
  let first := d.chooseDirectory
  let d := { d with mgmt := { d.mgmt with dir := first } }
  match d.loadKind .vendor fun d s => d.checkVendor (d.flashBlob (slotBase .vendor s)) with
  | (none, err, d) => (d.vendorFailed err).raise 0
  | (some (vs, v), vErr, d) =>
    let d := { (d.applyMap v.map).applySeed v.seeds with mgmt := { d.mgmt with tests := v.tests, vHash := v.hash } }
    let checkO (d : Dev) (s : Nat) : Except Nat OwnerPart := d.checkOwner (d.flashBlob (slotBase .owner s)) v.behaviour
    let (found, oErr, d) := if d.mgmt.dir.oActive = 2 then (none, 0, d) else d.loadKind .owner checkO
    let src := (found.map (·.1)).getD 2
    let o := (found.map (·.2)).getD d.ownerDefaults
    let d := if first.copy.isNone then d.writeDirectory { d.mgmt.dir with vActive := vs, oActive := src } else d
    let d := (d.applyOwner o).publish o.pkgHi
    let d := (d.put TRK_ID.BEHAVIOUR v.behaviour).publishUid
    let d := ((d.put SIM_VENDOR.FORMAT 1).put SIM_VENDOR.SVN v.svn).put SIM_VENDOR.BEHAVIOUR v.behaviour
    let d := if src = 2 then d
      else (((d.put SIM_OWNER.FORMAT 1).put SIM_OWNER.SVN o.svn).put SIM_OWNER.BEHAVIOUR o.behaviour).put SIM_OWNER.KEY_SLOT o.slot
    let vBack := vs != first.vActive
    let oBack := src != first.oActive
    let d := ((d.put SIM_STAT.V_ERR vErr).put SIM_STAT.O_ERR oErr).put SIM_STAT.V_TRIAL d.mgmt.dir.vTrial
    let d := ((d.put SIM_STAT.O_TRIAL d.mgmt.dir.oTrial).put SIM_STAT.O_SRC src).put SIM_STAT.V_SLOT vs
    let d := (d.put SIM_STAT.V_FALLBACK (if vBack then 1 else 0)).put SIM_STAT.O_FALLBACK (if oBack then 1 else 0)
    let d := d.put SIM_STAT.STATE 2
    if vBack || oBack then d.raise 0 else d

/-- The steps of R383 after the load: the grafts of the active sites train, every leaf held in reset; the firmware starts and writes
the vectors. -/
def Dev.afterLoad (d : Dev) : Dev :=
  if d.get SIM_STAT.STATE ≠ 2 then d.loadFirmware
  else
    let d := d.activeSites.foldl (fun d s => d.startTraining (.trunk s)) d
    let d := d.activeSites.foldl (fun d s => if d.endExists (.bough s 2) then d.startTraining (.bough s 2) else d) d
    let d := d.activeSites.foldl (fun d s => (d.siteLeaves s).foldl (fun d n => d.setPstate n 3) d) d
    let d := d.loadFirmware
    (if d.mgmt.firmware.isNone then d else d.activeSites.foldl (fun d s => d.writeVectors s bootVectors) d).bootCheck

end Sys2Proof.Machine
end

