-- ==== Sys2Proof/Machine/Supply.lean ====
section
/-!
DEFINITION. Supplies, pins and package resets (spec/15, R370, R372, R276; spec/16, R382, R383; spec/17, R399 to R409): what a power
loss and a package warm reset leave, and when the boot of the package begins.
-/

namespace Sys2Proof.Machine

/-- Change the board's side. -/
def Dev.modBoard (d : Dev) (f : Board → Board) : Dev := { d with board := f d.board }

/-- The dies are powered: VSTBY and PWR_OK are there, the package has not stopped itself, and it is not in SLEEP. -/
def Dev.powered (d : Dev) : Bool := d.board.vstby && d.board.pwrOk && !d.board.stopped && !d.power.unpowered

/-- Background work on the flash is done. -/
def Dev.runJob (d : Dev) (j : FlashJob) : Dev := (d.eraseFlash j.base j.size).programFlash j.base j.program

/-- Background work that a reset or a power loss cuts short has been done or has not: which, the spec leaves open ("When a warm
reset arrives during staging", R34). DESIGN CHOICE, assumption 47. -/
def Dev.cutJob (d : Dev) : Dev :=
  match d.mgmt.background with
  | none => d
  | some j =>
    let (w, d) := d.freeNext
    if w.getLsbD 0 then d.runJob j else d

/-- The registers that are fixed by fuses: the identity, and the OTP state that SIM_OTP reads throughout (R424).
DESIGN CHOICE, assumption 8. -/
def Dev.fuseRegs (d : Dev) : Dev :=
  let d := (d.put TRK_ID.VARIANT d.fuse.variant).put TRK_ID.STEPPING d.fuse.stepping
  let d := (d.put SIM_OTP.O_FLOOR d.fuse.oFloor).put SIM_OTP.V_FLOOR d.fuse.vFloor
  (d.put SIM_OTP.SLOT1 d.fuse.slot1).put SIM_OTP.SLOT0 d.fuse.slot0

/-- The guardbands as AGE_DIE shows them, from a list by die. -/
def Dev.showGb (d : Dev) (gb : KMap Nat Nat) : Dev := gb.foldl (fun d p => if p.1 < 29 then d.setGb p.1 p.2 else d) d

/-- The registers of the standby domain: the RTC and its alarm (R369). -/
def standbyReg : RegName → Bool
  | .PWR_RTC | .PWR_RTC_ALARM => true
  | _ => false

/-- Memory behind CXL devices, which no reset of this package reaches. DEDUCED, assumption 48. -/
def Dev.cxlBytes (d : Dev) : KMap Nat Byte := d.mem.filter fun p => rangeOf p.1 == .cxl

/-- Poisoned lines of CXL memory. -/
def Dev.cxlPoison (d : Dev) : List Nat := d.poison.filter fun l => rangeOf (64 * l) == .cxl

/-- Every die stops (R401, step 2): only the standby domain, the nonvolatile memory, the fuses and the flash keep anything. -/
def Dev.off (d : Dev) : Dev :=
  let d := d.cutJob
  let fails := d.get MBX_FW.BOOT_FAILS
  let new : Dev :=
    { regs := d.regs.filter fun p => standbyReg p.1.name
      mem := d.cxlBytes, poison := d.cxlPoison, free := d.free, flash := d.flash, fuse := d.fuse, nvm := d.nvm
      board := { d.board with warm := none, booting := false, sampled := false, prochotOwn := false } }
  new.put MBX_FW.BOOT_FAILS fails

/-- The dies lose their supply (R369, R401): the cores, engines, caches, directories, links, queues and tables and everything under way
are gone. What stays is the standby domain, the nonvolatile memory and the flash, memory in self-refresh, and the settings of the
channels that the wake from SLEEP needs. DEDUCED, assumption 57. -/
def Dev.dark (d : Dev) : Dev :=
  { regs := d.regs, mem := d.mem, poison := d.poison, free := d.free, ring := d.ring, channels := d.channels
    power := { sleep := d.power.sleep, unpowered := d.power.unpowered }, flash := d.flash, fuse := d.fuse, nvm := d.nvm
    mgmt := { memory := d.mgmt.memory, background := d.mgmt.background }, board := d.board, answer := d.answer }

/-- What a command leaves: where it has cut the supply of the dies, they lose what they hold. DEDUCED, assumption 57. -/
def Dev.settled (d : Dev) : Dev := if d.powered then d else d.dark

/-- The PKG_ID pins are sampled (R20): the board drives the next of its levels, or the same as before. DESIGN CHOICE, assumption 65. -/
def Board.sample (b : Board) : Board :=
  let level := b.coming.head?.getD b.straps % 8
  { b with sampled := true, straps := level, pins := level, coming := b.coming.tail }

/-- Power-on reset (R370, R400): every unit at its Reset values; the warm reset within it begins once SYS_RESET_N is high too. -/
def Dev.powerOn (d : Dev) : Dev :=
  let d := d.off
  let d := d.modBoard fun b =>
    let b := { b with pwrOk := true, stopped := false, thermtrip := false, ringStarts := true, warm := some .power, booting := true
                      sampled := false }
    if b.resetN then b.sample else b
  d.fuseRegs.showGb d.nvm.gb

/-! ### The package warm reset (R276, R370, R372, R382) -/

/-- Registers that a package warm reset keeps: those of the standby domain, the event settings, the first-error latch and the capture
ring (R348, R372). -/
def keptOverWarm : RegName → Bool
  | .EVC_SRC_CTL | .EVC_FIRST | .EVC_FIRST_RING | .EVC_CAP_TAIL | .EVC_CAP_HEAD | .EVC_CAP_DROP | .EVC_CAP => true
  | n => standbyReg n

/-- The boughs that write back early in a warm reset (R276). -/
def Dev.warmSites (d : Dev) : List Nat :=
  d.activeSites.filter fun s => d.bstate s == 0 && d.gState (.trunk s) == 2 && !d.isolated s

/-- The dirty lines of a bough: in its caches, and in its eviction buffers with their owner's epoch still current. -/
def Bough.dirty (b : Bough) : List (Nat × LineData) :=
  (b.lines.filter fun p => dirtyState p.2.st).map (fun p => (p.1, ⟨p.2.data, p.2.poison⟩))
    ++ (b.evb.filter fun e => dirtyState e.st).map fun e => (e.line, ⟨e.data, e.poison⟩)

/-- The early write-back (R276): with `all`, every dirty line; else those that were in time, which the spec leaves open.
DESIGN CHOICE, assumption 47. -/
def Dev.warmWriteBack (d : Dev) (all : Bool) : Dev :=
  (d.warmSites.flatMap fun s => (d.bough (d.boughAt s)).dirty).foldl (fun (d : Dev) p =>
    let (w, d) := d.freeNext
    if all || w.getLsbD 0 then d.setMemLine p.1 p.2 else d) d

/-- What is kept of a channel that is in self-refresh: its bytes and poisoned lines by channel address, and its front. -/
def Dev.keepChannel (d : Dev) (m : Nat) (keep : Bool) : MemCh :=
  let ca (a : Nat) : Option Nat := if rangeOf a == .dram then (d.channelOf a).bind fun x => if x.1 = m then some x.2 else none else none
  { dimms := (d.channel m).dimms
    keep := keep
    front := d.get MEM_INIT.FRONT m
    saved := if keep then d.mem.filterMap fun p => (ca p.1).map fun c => (c, p.2) else []
    savedPoison := if keep then d.poison.filterMap fun l => (ca (64 * l)).map (· / 64) else [] }

/-- The channels after the write-back (R276): each that was READY, FILLING or in self-refresh keeps its contents when all the
write-backs and its own entry were in time, which the spec leaves open; after a loss of the PLL none does. -/
def Dev.warmChannels (d : Dev) (kept : Bool) : KMap Nat MemCh × Dev :=
  ((List.range 16).filter d.channelPresent).foldl (fun (r : KMap Nat MemCh × Dev) m =>
    let (w, d) := r.2.freeNext
    let ok := kept && (d.memState m == 2 || d.memState m == 3 || d.memState m == 6) && w.getLsbD 0
    (r.1.set natLt {} m (d.keepChannel m ok), d)) ([], d)

/-- The bit of RST_CAUSE of a cause. -/
def causeBit : WarmCause → Nat
  | .power => 0
  | .pin => 1
  | .bmc => 2
  | .mgmt => 3
  | .pll => 4
  | .sleep => 5

/-- A package warm reset begins (R276, R370, R372, R424): a boot that has not become ready is counted as failed, dirty lines are
written back, the channels enter self-refresh, and every unit is reset; the image is loaded next. The PKG_ID pins are sampled, but
after SYS_RESET_N only when it rises (R20). DEDUCED, assumption 48. -/
def Dev.warmBegin (d : Dev) (c : WarmCause) : Dev :=
  let d := if d.board.booting && !d.flag MBX_FW.READY then d.put MBX_FW.BOOT_FAILS (min 3 (d.get MBX_FW.BOOT_FAILS + 1)) else d
  let d := d.cutJob
  let (w, d) := d.freeNext
  let all := w.getLsbD 0 || d.warmSites.all fun s => (d.bough (d.boughAt s)).dirty.isEmpty
  let d := if c = .pll then d else d.warmWriteBack all
  let (chs, d) := d.warmChannels (c != .pll && all)
  let stays := c != .pll && c != .sleep && d.flag CLK_STAT.LOCK
  let board := { d.board with warm := some c, booting := true }
  let new : Dev :=
    { regs := d.regs.filter fun p => keptOverWarm p.1.name
      mem := d.cxlBytes, poison := d.cxlPoison, free := d.free, flash := d.flash, fuse := d.fuse, nvm := d.nvm
      ring := d.ring, channels := chs, answer := d.answer, power := { sleep := d.power.sleep }
      mgmt := { memory := d.mgmt.memory }
      board := if board.resetN && c != .pin then board.sample else board }
  let new := (new.put MBX_FW.BOOT_FAILS (d.get MBX_FW.BOOT_FAILS)).put CLK_STAT.LOCK (if stays then 1 else 0)
  let new := new.setReg ⟨.RST_CAUSE, 0, 0⟩ (BitVec.ofNat 64 (2 ^ causeBit c + (min 65535 (d.get RST_CAUSE.COUNT + 1) <<< 32)))
  (new.fuseRegs).showGb ((List.range 29).map fun x => (x, d.get AGE_DIE.GB 0 x))

/-- The master ring count where the trunk PLL locks (R238, R243): 0 after power-on; after SLEEP, rebuilt from the crystal. -/
def Dev.startRing (d : Dev) : Dev :=
  let d := d.put CLK_STAT.LOCK 1
  if d.board.ringStarts then { d with ring := 0 }.modBoard fun b => { b with ringStarts := false }
  else match d.power.sleep with
    | some (m0, c0) =>
      let ticks := ((d.get PWR_RTC.COUNT - c0) * 1500000000 + 32767) / 32768
      ({ d with ring := m0 + BitVec.ofNat 64 (ticks + 1000) }.put TIM_STAT.SLEEP_FIX 1)
    | none => d

/-- The warm reset that has begun goes on (R383): the PLL locks, the image is loaded, and training starts. -/
def Dev.warmLoad (d : Dev) : Dev :=
  let d := d.startRing
  let d := { d.modBoard (fun b => { b with warm := none, sampled := true }) with power := {} }
  d.loadImage.afterLoad

/-- PACKAGE_WARM_RESET (R370, R383): the load of the warm reset that has begun for this cause, once SYS_RESET_N is high and the PLL
can lock; the management core may start one itself. -/
def packageWarmEff (c : WarmCause) (d : Dev) : Dev :=
  if !d.powered || !d.board.resetN || !d.board.refclk then d
  else match d.board.warm with
    | some k => if k = c then d.warmLoad else d
    | none => if c = .mgmt then (d.warmBegin .mgmt).warmLoad else d

/-- BOOT_READY_TIMEOUT (R382): READY is still 0 100 ms after the warm reset began. -/
def bootTimeoutEff (d : Dev) : Dev :=
  if d.board.booting && !d.flag MBX_FW.READY then
    (d.put MBX_FW.BOOT_FAILS (min 3 (d.get MBX_FW.BOOT_FAILS + 1))).modBoard fun b => { b with booting := false }
  else d

/-! ### Pins and supplies (R399 to R409) -/

/-- POWER_ON_RESET (R399, R400): PWR_OK rises with the supplies in range. -/
def powerOnEff (d : Dev) : Dev := if d.board.vstby && !d.board.pwrOk then d.powerOn else d

/-- SYS_RESET_PIN (R400): SYS_RESET_N low for 1 µs starts a warm reset, which waits for the pin to rise; without power and in SLEEP
the pin only takes its level. -/
def resetPinEff (d : Dev) : Dev :=
  if !d.board.resetN then d
  else
    let low (d : Dev) : Dev := d.modBoard fun b => { b with resetN := false }
    if d.powered then low (d.warmBegin .pin) else low d

/-- SYS_RESET_RELEASE (R20, R400): the pin rises, and the PKG_ID pins are sampled for the warm reset that was held. -/
def resetReleaseEff (d : Dev) : Dev :=
  if d.board.resetN then d
  else
    let d := d.modBoard fun b => { b with resetN := true }
    if d.powered && d.board.warm.isSome then d.modBoard Board.sample else d

/-- PWR_OK_DEASSERT (R401, R402): every die stops; a SLEEP ends with its alarm disarmed. -/
def pwrOkFallsEff (d : Dev) : Dev :=
  if !d.board.vstby || !d.board.pwrOk then d
  else
    let d := if d.power.unpowered then d.put PWR_RTC_ALARM.EN 0 else d
    d.off.modBoard fun b => { b with pwrOk := false, stopped := false, thermtrip := false }

/-- SUPPLY_UNDERVOLTAGE (R402): the package stops and waits for PWR_OK to fall. -/
def undervoltageEff (d : Dev) : Dev :=
  if !d.board.vstby || !d.board.pwrOk || d.board.stopped then d
  else d.off.modBoard fun b => { b with stopped := true }

/-- VSTBY_LOSS (R402): as if PWR_OK had fallen; the RTC, the failed-boot count and the sleep record are lost. -/
def vstbyLossEff (d : Dev) : Dev :=
  if !d.board.vstby then d
  else
    let d := d.off
    { d with regs := [] }.modBoard fun b => { b with vstby := false, pwrOk := false, stopped := false, thermtrip := false }

/-- VSTBY_POWER_UP (R399): the standby domain leaves reset, and the RTC counts. -/
def vstbyUpEff (d : Dev) : Dev := if d.board.vstby then d else d.modBoard fun b => { b with vstby := true }

/-- TRUNK_PLL_LOSS (R359, R404): a package warm reset with RST_CAUSE.PLL_LOSS. -/
def trunkPllLossEff (d : Dev) : Dev := if d.powered && d.flag CLK_STAT.LOCK then d.warmBegin .pll else d

/-- REFCLK_LOSS (R404): every root PLL loses lock; the warm reset of the trunk's waits for the clock to return. -/
def refclkLossEff (d : Dev) : Dev := (trunkPllLossEff d).modBoard fun b => { b with refclk := false }

/-- REFCLK_RETURN (R404). -/
def refclkReturnEff (d : Dev) : Dev := d.modBoard fun b => { b with refclk := true }

/-- RTC_ALARM (R369): the RTC has reached CMP; in SLEEP the alarm starts a package warm reset. -/
def rtcAlarmEff (d : Dev) : Dev :=
  if !d.board.vstby || !d.flag PWR_RTC_ALARM.EN || d.get PWR_RTC.COUNT < d.get PWR_RTC_ALARM.CMP then d
  else
    let d := d.put PWR_RTC_ALARM.FIRED 1
    if d.power.unpowered && d.board.pwrOk && !d.board.stopped then d.warmBegin .sleep else d

/-- PROCHOT_ASSERT (R398, R408): a die reaches 100 °C, or the power exceeds the limit; the package drives PROCHOT_N. -/
def prochotEff (overTemp overPower : Bool) (d : Dev) : Dev :=
  if overTemp || overPower then d.modBoard fun b => { b with prochotOwn := true } else d

/-- PROCHOT_INPUT (R408): the board drives the pin. -/
def prochotInputEff (d : Dev) : Dev := d.modBoard fun b => { b with prochotBoard := true }

/-- PROCHOT_RELEASE (R408): every die is below 97 °C and the power below the limit. -/
def prochotReleaseEff (d : Dev) : Dev := d.modBoard fun b => { b with prochotOwn := false }

/-- PROCHOT_BOARD_RELEASE (R408). -/
def prochotBoardEff (d : Dev) : Dev := d.modBoard fun b => { b with prochotBoard := false }

/-- THERMTRIP (R409): a die reaches 120 °C: THERMTRIP_N is driven and every die stops, from any power state, until PWR_OK falls. -/
def thermtripEff (die : Nat) (d : Dev) : Dev :=
  if 29 ≤ die || !d.board.vstby || !d.board.pwrOk then d
  else d.off.modBoard fun b => { b with stopped := true, thermtrip := true }

end Sys2Proof.Machine
end

