-- ==== Sys2Proof/Machine/State.lean ====
section
/-!
DEFINITION. The state of the machine: the package, and the commands that wait for it; what a step may stop with; and the state after
reset.
-/

namespace Sys2Proof.Machine

/-- The package, and the commands that wait, first in, first out. DESIGN CHOICE, assumption 1. -/
structure State where
  dev : Dev := {}
  pending : List Instr := []
deriving DecidableEq, Repr

/-- Faults. The spec turns every error of the package into state (an access error, a fault record, an event), so no meaning raises
this; the constructor stands for a state that the interface has no name for. Nobody raises it: safe. -/
inductive Fault where
  | stuck
deriving DecidableEq, Repr

/-- Refusals: a command without a meaning, by its mnemonic. Raised by `exec`'s arms for commands not yet modelled: safe. -/
inductive Refusal where
  | notModelled (mnemonic : String)
deriving DecidableEq, Repr

/-- The state after reset: PWR_OK has risen on a package with nothing in its flash (R370, R400), its power-on reset done and the
warm reset within it about to load; no command waits. -/
def State.reset : State := { dev := ({ board := { pwrOk := false } } : Dev).powerOn, pending := [] }

end Sys2Proof.Machine
end

