-- ==== Sys2Proof/Machine/Command.lean ====
section
/-!
DEFINITION. How a command's operation acts on the state: it leaves the queue alone, and what cuts the supply of the dies empties them.
-/

namespace Sys2Proof.Machine

/-- An operation of the powered dies: nothing happens while they have no supply (R369, R401, R402). DEDUCED, assumption 3. -/
def State.on (s : State) (f : Dev → Dev) : State := if s.dev.powered then { s with dev := (f s.dev).settled } else s

/-- An operation of the standby domain, the pins and the supplies, which act whether or not the dies are powered. -/
def State.standby (s : State) (f : Dev → Dev) : State := { s with dev := (f s.dev).settled }

end Sys2Proof.Machine
end

