-- ==== Sys2Proof/Machine/Errors.lean ====
section
/-!
DEFINITION. Errors of the arrays outside the stores (spec/14, R334 to R338): the L1s and L2s, the L3, and the directory; remaps that
software writes (R337); and the store test (R341).
-/

namespace Sys2Proof.Machine

/-! ### L1, L2 and L3 (R333, R334) -/

/-- The place of an L1 or L2 word of a leaf: its location code and whether the array is a tag array of the L2, which is held in two
copies. None for a macro that is not of the leaf's L1s or its twig's L2. DEDUCED, assumption 56. -/
def Dev.corePlace (d : Dev) (n array word : Nat) : Option (Word × Bool × Bool) :=
  let j := n % 16
  let t := j / 4
  if 11 + 5 * j ≤ array ∧ array ≤ 14 + 5 * j then some (d.leafLoc n (some array) (some word), false, false)
  else if array = 100 + 2 * t ∨ array = 101 + 2 * t then
    some (d.boughLoc (d.leafSite n) (some t) (some array) (some word), true, array == 101 + 2 * t)
  else none

/-- An error in an L1 or L2 as a leaf accesses a line: counted and logged. An uncorrectable error invalidates a clean line there, to
be fetched again from the L3, and poisons a dirty one in place (R334). -/
def Dev.coreError (d : Dev) (n line array word : Nat) (ue : Bool) : Dev :=
  match d.corePlace n array word with
  | none => d
  | some (loc, inL2, tags) =>
    let s := d.leafSite n
    let b := n / 16
    let t := n % 16 / 4
    let ue := ue && !tags
    let d := (coreTable s).log (d.countArrayError PRT_CE_CNT.CORE s) loc ue
    let l := (d.bough b).line line
    if !ue || !l.twigs.contains t then d
    else if dirtyState l.st && l.writer == some t then d.modLine b line fun l => { l with poison := true }
    else if inL2 then d.dropTwig b t line
    else d.modLine b line (·.leaveL1 n)

/-- An error in the L3 word of a line that the bough holds. An uncorrectable error of a tag copy is corrected from the other copy; one
of the data invalidates a clean line and poisons a dirty one (R331, R334). An automatic remap writes the line back if it is dirty, and
invalidates it (R337, R338); one with a request under way is not invalidated. DEDUCED, assumption 56. -/
def Dev.l3Error (d : Dev) (b line : Nat) (tag ue : Bool) : Dev :=
  let l := (d.bough b).line line
  if !l.valid || !l.hasData then d
  else
    let s := d.boughSite b
    let array := 200 + 2 * l3Slice line + (if tag then 1 else 0)
    let loc := d.boughLoc s none (some array) (some ((l3Set line * 16 + l.way) * 8))
    let ue := ue && !tag
    let before := (l3Table s).remapOf d loc
    let d := (l3Table s).log (d.countArrayError PRT_CE_CNT.L3 s) loc ue
    if !ue then
      (if before.isNone && ((l3Table s).remapOf d loc).isSome && ((d.bough b).txn line).isNone then (d.evict b line).sendWriteBacks b else d)
    else if dirtyState l.st || ((d.bough b).txn line).isSome then d.modLine b line fun l => { l with poison := true }
    else
      (d.clearResv line none).modLine b line fun l => if l.locked then { way := l.way, locked := true } else {}

/-- An error in the eviction buffer's entry of a line: an uncorrectable one poisons it in place (R334). These arrays have no log.
DEDUCED, assumption 56. -/
def Dev.evictError (d : Dev) (b line : Nat) (ue : Bool) : Dev :=
  if !(d.bough b).evb.any fun e => e.line == line then d
  else
    let s := d.boughSite b
    let d := d.raise (siteSource s 17) { loc := d.boughLoc s none (some (216 + l3Slice line)) none }
    if !ue then d
    else d.modBough b fun x => { x with evb := x.evb.map fun e => if e.line == line then { e with poison := true } else e }

/-- The array errors that a leaf's access may meet. -/
def accessErrorEff (n : Nat) (acc : LeafAccess) (err : ArrayErr) (d : Dev) : Dev :=
  if !d.leafRuns n || !mainMemory acc.addr then d
  else match err with
    | .core array word ue => d.coreError n (acc.addr / 64) array word ue
    | .l3 tag ue => d.l3Error (n / 16) (acc.addr / 64) tag ue
    | .evict ue => d.evictError (n / 16) (acc.addr / 64) ue
    | _ => d

/-- LEAF_LOAD_STORE with the error it meets: a residue mismatch of the address generation or a parity error of a register raises its machine
check where the access would be made, unless an interrupt or an exception of the instruction comes first (R70, R71). -/
def leafMemoryEff (n : Nat) (acc : LeafAccess) (err : AccessErr) (d : Dev) : Dev :=
  let check (code : Nat) : Dev :=
    if !d.leafRuns n || (d.leaf n).interrupt.isSome || ((d.leaf n).accessTrap acc).isSome || !(LeafUse.access acc).holds then
      leafAccessEff n acc (fun _ d => d) d
    else d.machineCheck n ⟨code, 0, d.mchkLoc n code⟩
  match err with
  | .none => leafAccessEff n acc (fun _ d => d) d
  | .agu => check 3
  | .regParity => check 7
  | .array e => leafAccessEff n acc (fun a d => accessErrorEff n a e d) d

/-! ### The directory (R334) -/

/-- An uncorrectable directory word of a line: every active bough is sent SNP_UNIQUE with data to the home, dirty data is written to
memory, and the entry is freed. -/
def Dev.openScrub (d : Dev) (q line : Nat) : Dev :=
  let snoops := (List.range d.boughsB).map fun b => (b, Snoop.unique)
  let e := d.entry q line
  d.startTxnAt (resumeHome (resumeFuel d q)) q
    { req := { op := .wrPartial, src := .trace, line := line }, snoops := snoops, evict := true, found := e
      final := { epoch := e.epoch } }

/-- A request meets an error in the directory word of its line; an entry that is not valid reports none (R335). -/
def dirErrorEff (line : Nat) (err : ArrayErr) (d : Dev) : Dev :=
  match err with
  | .dir way ue =>
    let q := d.homeOfLine line
    if (d.entry q line).st = .invalid then d
    else
      let loc := d.trunkLoc q (some (2 + q)) (some (dirSet line * 16 + way % 16))
      let d := (dirTable q).log d loc ue { severe := ue }
      if ue && ((d.home q).txn line).isNone then d.openScrub q line else d
  | _ => d

/-- RD_SHARED with the error it meets at its home (R334): a request held in a tracker word, or a read held in a queue word of its
memory channel, is lost when the error there cannot be corrected. -/
def homeErrorEff (b line retry : Nat) (err : ArrayErr) (d : Dev) : Dev :=
  let q := d.homeOfLine line
  let go (d : Dev) : Dev := cohRequestEff .rdShared (.bough b) line retry 0 0 d
  match err with
  | .tracker ue =>
    let d := d.raise (6 + q) { loc := d.trunkLoc q (some (6 + q)) none, severe := ue }
    if ue then d.take (requestPacket ⟨.rdShared, .bough b, line, retry, 0, 0⟩) else go d
  | .queue ue =>
    match d.channelOf (64 * line) with
    | none => go d
    | some (m, _) =>
      let d := go (d.raise (58 + m) { loc := d.trunkLoc q (some (10 + m)) none, severe := ue })
      if ue then d.modChannel m fun c => { c with reads := c.reads.filter fun r => r.line != line } else d
  | _ => go (dirErrorEff line err d)

/-! ### Remaps by software (R337) -/

/-- The table is there. -/
def Dev.tablePresent (d : Dev) : RemapTable → Bool
  | .store s j => d.siteActive s && decide (j < 16)
  | .l3 s => d.siteActive s
  | .dir q => decide (q < 4)

/-- The L3 line at a place is written back if it is dirty, and invalidated, unless a request of it is under way. DEDUCED, assumption 56. -/
def Dev.flushPlace (s array word : Nat) (d : Dev) : Dev :=
  let b := d.boughAt s
  match (d.bough b).inWay ((array - 200) / 2) (word / 8 / 16) (word / 8 % 16) with
  | none => d
  | some p => if ((d.bough b).txn p.1).isSome then d else (d.evict b p.1).sendWriteBacks b

/-- REMAP_WRITE. -/
def remapWriteEff (t : RemapTable) (entry : Nat) (value : Word) (d : Dev) : Dev :=
  if d.tablePresent t then remapWrite (fun s a w d => d.flushPlace s a w) t entry value d else d

/-! ### The store test (R341) -/

/-- A store test runs on the engine. -/
def Dev.bistRuns (d : Dev) (n : Nat) : Bool :=
  let s := d.leafSite n
  d.flag PRT_SBIST.BUSY s && d.get PRT_SBIST.LEAF s == n % 16

/-- STORE_BIST: a write of PRT_SBIST.GO. A write during a test is ignored. DEDUCED, assumption 55. -/
def storeBistEff (s j : Nat) (d : Dev) : Dev :=
  let n := 16 * d.boughAt s + j
  if !d.siteActive s || 16 ≤ j || !d.leePresent n || d.flag PRT_SBIST.BUSY s then d
  else
    let d := d.put PRT_SBIST.LEAF j s
    if d.flag LEE_CTL.EN n || d.flag LEE_STAT.RUN n || d.flag LEE_STAT.TRAPPED n then
      (d.put PRT_SBIST.DONE 1 s).put PRT_SBIST.STATUS 1 s
    else
      let d := ((d.put PRT_SBIST.BUSY 1 s).put PRT_SBIST.DONE 0 s).put LEE_STAT.CLEARING 1 n
      d.modLee n fun e => { e with valid := [], store := [] }

/-- STORE_BIST_DONE: every valid bit is clear; a failing word is in the store's log and in PRT_SBIST_FAIL. -/
def storeBistDoneEff (s : Nat) (fail : Option Nat) (d : Dev) : Dev :=
  if !d.siteActive s || !d.flag PRT_SBIST.BUSY s then d
  else
    let n := 16 * d.boughAt s + d.get PRT_SBIST.LEAF s
    let d := match fail with
      | some w => ((d.storeError n w true).put PRT_SBIST_FAIL.WORD w s).put PRT_SBIST.STATUS 2 s
      | none => d.put PRT_SBIST.STATUS 0 s
    leeClearDoneEff n ((d.put PRT_SBIST.BUSY 0 s).put PRT_SBIST.DONE 1 s)

/-- LEE_CLEAR_DONE: the end of a clear; a store test ends its own way. -/
def leeClearGoEff (n : Nat) (d : Dev) : Dev := if d.bistRuns n then d else leeClearDoneEff n d

end Sys2Proof.Machine
end

