-- ==== Sys2Proof/Machine/Bus.lean ====
section
/-!
DEFINITION. Writes of registers (spec/00, R4 to R8): which fields a write sets by their access types, and the behaviour that a
register's rule gives its write; reads and writes of apertures; and what returns to a leaf's miss entry.
-/

namespace Sys2Proof.Machine

/-! ### The value of a write (R6, R8) -/

/-- The bits that a write of a size carries, in the place of its address in the register. -/
def placedBits (a size : Nat) (v : Word) : Word :=
  if size = 8 then v else BitVec.ofNat 64 (v.toNat % 2 ^ 32 * 2 ^ (8 * (a % 8)))

/-- A write of half a register as a write of all of it: a field that reads back keeps the bits the write does not carry, and any
other sees zeros there. -/
def wholeWrite (rows : List FieldRow) (old : Word) (a size : Nat) (v : Word) : Word :=
  if size = 8 then v
  else
    let half : Word := BitVec.ofNat 64 ((2 ^ 32 - 1) * 2 ^ (8 * (a % 8)))
    let keep := rows.foldl (fun (w : Word) f =>
      if f.acc = .rw ∨ f.acc = .act then w.setBits f.hi f.lo (2 ^ (f.hi - f.lo + 1) - 1) else w) 0
    placedBits a size v ||| (old &&& keep &&& ~~~half)

/-- One write of a register as its behaviour sees it: the requester, the register, its offset in the block, the bits written, the
whole value, and whether the low and the high half are written. -/
structure RegWrite where
  req : Requester
  reg : Reg
  off : Nat
  raw : Word
  full : Word
  lo : Bool
  hi : Bool

/-- The fields of a register as a write of them all sees them. -/
def RegName.allRw (n : RegName) : List FieldRow := n.fields.map fun f => if f.acc = .act then { f with acc := .rw } else f

/-- Set every field of a register that a write may set. -/
def Dev.storeAll (d : Dev) (w : RegWrite) : Dev := d.setReg w.reg (writeFields w.reg.name.allRw (d.reg w.reg) w.full)

/-! ### Behaviours, by block -/

/-- The group registers and the fabric. -/
def fabWrite (w : RegWrite) (d : Dev) : Dev :=
  let v := w.full
  match w.reg.name with
  | .FAB_MG_CMD =>
    if !w.lo then d
    else match v.bits 7 0 with
      | 1 => mgAllocEff d
      | 2 => mgEnableEff (v.bits 15 8) d
      | 3 => mgDisableEff (v.bits 15 8) d
      | 4 => mgFreeEff (v.bits 15 8) d
      | _ => d.groupAnswer (v.bits 15 8) 3
  | .FAB_MG_CTL => if d.groupState w.reg.k = 1 then d.storeAll w else d
  | .FAB_MG_MEM => if d.groupState (w.reg.k / 6) = 1 then d.storeAll w else d
  | .FAB_ROUTE_SWAP => if v.getLsbD 0 then routeSwapEff d else d
  | .FAB_RT_DATA => if w.lo then routeWriteEff (v.bits 2 0) d else d
  | .FAB_ISO => if v.getLsbD 8 then fabIsoEff (d.get FAB_ISO.SITE) d else d
  | _ => d

/-- Grafts, span links and the ring count. A write of RETRAIN of a graft starts what GRAFT_FAST_RETRAIN carries out. -/
def linkWrite (w : RegWrite) (d : Dev) : Dev :=
  let v := w.full
  let c := w.reg.u
  match w.reg.name with
  | .GRF_LANE_MASK => laneMaskEff (.trunk c) w.reg.k v d
  | .GRFB_LANE_MASK => laneMaskEff (.bough c (w.reg.k / 5)) (w.reg.k % 5) v d
  | .GRF_CTL => if v.getLsbD 16 then d.startRetrain (.trunk c) else d
  | .GRFB_CTL => if v.getLsbD 16 && (GraftEnd.bough c w.reg.k).auth == .bough c w.reg.k then d.startRetrain (.bough c w.reg.k) else d
  | .SPN_CTL =>
    let other := (List.range 4).any fun p => p != c && d.flag SPN_CTL.TROLE p
    let d := if !w.lo then d
      else if v.getLsbD 2 then (if other then d else d.put SPN_CTL.TROLE 1 c) else d.put SPN_CTL.TROLE 0 c
    if v.getLsbD 8 then spanRetrainEff c d else d
  | .TIM_STEP => timStepEff (w.raw &&& BitVec.ofNat 64 (2 ^ 63 - 1)) d
  | _ => d

/-- The trace unit. -/
def trcWrite (w : RegWrite) (d : Dev) : Dev :=
  let v := w.full
  match w.reg.name with
  | .TRC_CTL =>
    if w.hi && decide (v.bits 60 48 < v.bits 44 32 ∧ v.bits 44 32 ≤ 4096) then
      ((d.put TRC_CTL.PANIC_OFF (v.bits 60 48)).put TRC_CTL.PANIC_ON (v.bits 44 32)).showFill
    else d
  | .TRC_RING_BASE => if d.flag TRC_RING_CTL.EN 0 w.reg.k then d.put TRC_STAT.CFG_IGN 1 else d.storeAll w
  | .TRC_RING_CTL => if w.lo then ringCtlEff w.reg.k v d else d
  | _ => d

/-- The memory controllers. -/
def memWrite (w : RegWrite) (d : Dev) : Dev :=
  let v := w.full
  let m := w.reg.u
  match w.reg.name with
  | .MEM_CTL =>
    let d := if w.lo then memQuiesceEff m (v.getLsbD 0) d else d
    let d := if v.getLsbD 4 then memTrainRequestEff m d else d
    if v.getLsbD 8 then memReinitEff m d else d
  | .MEM_BIST => if v.getLsbD 8 then memBistEff m (v.getLsbD 7) (v.bits 2 0) d else d
  | _ => d

/-- A write of TTU_FQ_BASE or TTU_PQ_BASE: LOG2 only while EN = 0 (R303). -/
def ttuQueueWrite (pq : Bool) (w : RegWrite) (d : Dev) : Dev :=
  let q := if pq then pageQueue else faultQueue
  let d := if d.flag q.en then d else d.put q.log2 (w.full.bits 4 0)
  if w.full.getLsbD 63 then ttuQueueEff pq d else d.put q.en 0

/-- The translation unit. -/
def ttuWrite (w : RegWrite) (d : Dev) : Dev :=
  let v := w.full
  let seg := v.bits 19 16
  let rid := v.bits 15 0
  let pasid := if v.getLsbD 59 then some (v.bits 39 20) else none
  match w.reg.name with
  | .TTU_FQ_BASE => ttuQueueWrite false w d
  | .TTU_PQ_BASE => ttuQueueWrite true w d
  | .TTU_INV_CMD =>
    if !w.hi then d
    else match v.bits 63 60 with
      | 1 => invCtxEff seg rid d
      | 2 => invPasidEff seg rid pasid d
      | 3 => invRangeEff seg rid pasid d
      | 4 => invS2Eff rid d
      | 5 => invAllEff d
      | _ => d.put TTU_INV_STAT.REFUSED 1
  | .TTU_STALL_CMD =>
    match v.bits 9 8 with
    | 1 => stallResumeEff (v.bits 7 0) d
    | 2 => stallAbortEff (v.bits 7 0) d
    | _ => d
  | .TTU_PRI_RESP => prgResponseEff v d
  | _ => d

/-- Root ports, the bulk engines and the doorbell pages. -/
def ioWrite (w : RegWrite) (d : Dev) : Dev :=
  let v := w.full
  let k := w.reg.k
  let u := w.reg.u
  match w.reg.name with
  | .HIO_CFG => if w.lo then hioCfgEff u v d else d
  | .HIO_CXL =>
    let d := if w.lo && !d.flag HIO_CXL.EN u && !d.flag HIO_CXL.CLOSING u && decide (v.bits 10 0 ≤ 1024) then
      d.put HIO_CXL.SIZE_G (v.bits 10 0) u else d
    if !w.hi then d else if v.getLsbD 63 then cxlEnableEff u d else cxlCloseEff u d
  | .BLK_ENG_CTL =>
    let old := d.get BLK_ENG_CTL.EN
    let d := (List.range 8).foldl (fun d e =>
      if v.getLsbD e == bit old e then d else if v.getLsbD e then engineEnableEff e d else engineDisableEff e d) d
    (List.range 8).foldl (fun d e => if v.getLsbD (8 + e) then engineReinitEff e d else d) d
  | .BLK_BIND_CMD =>
    if !w.hi then d
    else match v.bits 63 60 with
      | 1 => bindEff (v.bits 19 0) (v.bits 35 32) d
      | 2 => unbindEff (v.bits 25 20) d
      | _ => d.bindAnswer 0 3
  | .BLK_SLICE_CTL => if v.getLsbD 0 then sliceResetEff k d else d
  | .DB_RING =>
    let on := d.flag DB_RING.EN u k
    let d := if on then d else d.put DB_RING.ADDR (v.bits 47 12) u k
    if !w.hi then d else if v.getLsbD 63 then (if on then d else queueEnableEff u k d)
    else if on then queueDisableEff u k d else d
  | .DB_COMP | .DB_MSI => if d.flag DB_RING.EN u k then d else d.storeAll w
  | .DB_TAIL => if w.lo then dbTailEff u k (v.bits 31 0) d else d
  | _ => d

/-- Events, the collector, and array protection. -/
def faultWrite (w : RegWrite) (d : Dev) : Dev :=
  let v := w.full
  let k := w.reg.k
  let u := w.reg.u
  match w.reg.name with
  | .EVC_SEV => sevClearEff k v d
  | .EVC_SAFE => if v.getLsbD 0 then evcSafeEff w.req d else d
  | .EVC_PIN | .EVC_SRC_CTL => d.showPin
  | .CMP_CTL | .CMP_SEL | .CMP_PEND => d.collect
  | .PRT_SREMAP => remapWriteEff (.store u (k / 8)) (k % 8) v d
  | .PRT_L3REMAP => remapWriteEff (.l3 u) k v d
  | .DIR_REMAP => remapWriteEff (.dir u) k v d
  | .PRT_SBIST =>
    if !w.lo || d.flag PRT_SBIST.BUSY u then d
    else if v.getLsbD 8 then storeBistEff u (v.bits 3 0) d else d.put PRT_SBIST.LEAF (v.bits 3 0) u
  | .DIR_PURGE => if v.getLsbD 8 then dirPurgeEff u d else d
  | _ => d

/-- Power, clocks, resets, ageing and the firewall. -/
def powerWrite (w : RegWrite) (d : Dev) : Dev :=
  let v := w.full
  match w.reg.name with
  | .TRK_FW_CTL => if w.lo then d.commitFirewall w.reg.k (v.getLsbD 0) else d
  | .PWR_PKG_CTL =>
    match v.bits 1 0 with
    | 1 => standbyReqEff w.req d
    | 2 => sleepReqEff w.req d
    | 3 => wakeReqEff w.req d
    | _ => d
  | .PWR_BOUGH_CTL =>
    if !v.getLsbD 12 then d
    else match v.bits 9 8 with
      | 0 => boughActiveEff (v.bits 4 0) d
      | 1 => boughDormantEff (v.bits 4 0) d
      | 2 => boughOffEff (v.bits 4 0) d
      | t => d.boughRequest (v.bits 4 0) t false id
  | .RST_CMD =>
    if !w.lo then d
    else
      let t := v.bits 8 0
      match v.bits 15 12 with
      | 1 => orderlyResetEff t d
      | 2 => forcedResetEff t d
      | 3 => leafResetEff t d
      | 4 => leeResetEff t d
      | _ => rstInvalidEff t d
  | .BPW_CLK_SW => clockRequestEff w.reg.u (w.raw.bits 15 0) d
  | .AGE_CMD => if v.getLsbD 0 then ageReplanEff d else d
  | _ => d

/-- The leaves, the engines and the L3 of a bough. -/
def boughWrite (w : RegWrite) (d : Dev) : Dev :=
  let v := w.full
  let n := w.reg.u
  match w.reg.name with
  | .BGH_MTIMECMP => timerWriteEff (16 * d.boughAt n + w.reg.k) .mtimecmp v d
  | .LEE_CTL =>
    if !w.lo then d
    else
      let d := leeConfigWriteEff n 0 v d
      leeThen n (fun d =>
        if v.getLsbD 8 then leeCtlClearEff n (v.getLsbD 0) d
        else if v.getLsbD 0 then leeEnableEff n d else leeDisableEff n d) d
  | .LEE_STIM_TAIL => if w.lo then leeThen n (leeStimTailEff n (v.bits 31 0)) d else d
  | .LEE_DOORBELL => if v.getLsbD 0 then leeThen n (leeDoorbellEff n) d else d
  | .L3C_CTL => if !w.lo then d else if v.getLsbD 0 then l3EnableEff n d else l3DisableEff n d
  | .L3C_LOCK_CMD =>
    if !w.lo then d
    else match v.bits 7 0 with
      | 1 => preloadLockEff n (v.bits 31 16) d
      | 2 => unlockEff n (v.bits 31 16) d
      | _ => d.lockRefuse n 4
  | _ => if (configReg w.off).isSome then leeConfigWriteEff n w.off v d else d

/-! ### The mailbox (R390) -/

/-- The codes of R385. -/
def mailboxCodes : List Nat :=
  [0x01, 0x02, 0x03, 0x10, 0x11, 0x12, 0x18, 0x19, 0x1A, 0x1B, 0x20, 0x21, 0x22, 0x23, 0x24, 0x25, 0x26, 0x27, 0x28,
   0x30, 0x31, 0x32, 0x33, 0x34, 0x40, 0x41]

/-- Put bytes into MBX_DATA from its start. -/
def Dev.mailboxPut (d : Dev) (l : List Byte) : Dev :=
  (List.range ((l.length + 7) / 8)).foldl (fun d i =>
    let w := (List.range 8).foldr (fun j (a : Nat) => 256 * a + (l.getD (8 * i + j) 0).toNat) 0
    d.setReg ⟨.MBX_DATA, 0, i⟩ (BitVec.ofNat 64 w)) d

/-- Bytes of MBX_DATA. -/
def Dev.mailboxBytes (d : Dev) (from_ count : Nat) : List Byte :=
  (List.range count).map fun i =>
    BitVec.ofNat 8 ((d.reg ⟨.MBX_DATA, 0, (from_ + i) / 8⟩).bits (8 * ((from_ + i) % 8) + 7) (8 * ((from_ + i) % 8)))

/-- The answer of the mailbox command in progress: its bytes, RLEN, STATUS, TAG and DONE, whose change from 0 sends the MSI. -/
def Dev.mailboxAnswer (d : Dev) (status : Nat) (l : List Byte) : Dev :=
  let tag := (d.mgmt.mailbox.map fun m => m.2.2).getD 0
  let was := d.flag MBX_STAT.DONE
  let d := (((d.mailboxPut l).put MBX_STAT.RLEN l.length).put MBX_STAT.STATUS status).put MBX_STAT.TAG tag
  let d := { (d.put MBX_STAT.BUSY 0).put MBX_STAT.DONE 1 with mgmt := { d.mgmt with mailbox := none } }
  if was then d else d.sendMsi (d.get MBX_IRQ.TARGET)

/-- Writes of MBX_CMD and MBX_DATA; while a command is in progress they are ignored and set REFUSED. A code that R385 does not list
is answered INVALID at once. -/
def mbxWrite (w : RegWrite) (d : Dev) : Dev :=
  match w.reg.name with
  | .MBX_DATA => if d.flag MBX_STAT.BUSY then d.put MBX_STAT.REFUSED 1 else d.storeAll w
  | .MBX_CMD =>
    if d.flag MBX_STAT.BUSY then d.put MBX_STAT.REFUSED 1
    else
      let op := w.raw.bits 7 0
      let d := { d.put MBX_STAT.BUSY 1 with mgmt := { d.mgmt with mailbox := some (op, w.raw.bits 45 32, w.raw.bits 31 16) } }
      if mailboxCodes.contains op then d else d.mailboxAnswer 3 []
  | _ => d

/-- The behaviour that a register's rule gives its write. -/
def RegWrite.act (w : RegWrite) (d : Dev) : Dev :=
  match w.reg.name.block with
  | .fab => fabWrite w d
  | .grft | .grfb | .spn | .tim => linkWrite w d
  | .trc => trcWrite w d
  | .mem => memWrite w d
  | .ttu => ttuWrite w d
  | .hio | .blk | .db => ioWrite w d
  | .evc | .cmp | .prt | .dir => faultWrite w d
  | .trk | .pwr | .rst | .bpw | .age => powerWrite w d
  | .bgh | .lee | .l3c => boughWrite w d
  | .mbx => mbxWrite w d
  | .sim | .clk => d

/-- A write of a register: its fields by their access types, then its behaviour. Blocks of UNUSED channels ignore writes except
MEM_STAT. A write of a test-only register has no field of its own. -/
def Dev.writeReg (d : Dev) (w : RegWrite) : Dev :=
  let n := w.reg.name
  if n.block = .mem && d.get MEM_STAT.STATE w.reg.u = 0 && n != .MEM_STAT then d
  else w.act (d.setReg w.reg (writeFields n.fields (d.reg w.reg) w.full))

/-- A store to a page of an interrupt file (R63): seteipnum in either byte order sends the identity on.
PRESUMED, assumption 51. -/
def Dev.imsicStore (d : Dev) (n file off : Nat) (v : Word) : Dev :=
  let le := v.toNat % 2 ^ 32
  let be := v.bits 7 0 * 2 ^ 24 + v.bits 15 8 * 2 ^ 16 + v.bits 23 16 * 2 ^ 8 + v.bits 31 24
  let id := if off = 0 then le else if off = 4 then be else 0
  if id = 0 || 2047 < id then d else d.emit (.msi n file id)

/-- A write to the register space by a requester, past the gates, and whether it is an access error. What a test-only register does, the
spec does not lay out. A wrong size or alignment is an error before an absent unit is counted. DESIGN CHOICE, assumption 31. -/
def Dev.regStore (d : Dev) (req : Requester) (a size : Nat) (v : Word) : Bool × Dev :=
  if !(size = 8 || size = 4) || a % size != 0 then (true, d)
  else match d.regTarget req a with
    | .noBlock => (true, d)
    | .denied => (true, d.bump MBX_DENY.COUNT)
    | .absent => (false, d.absentAccess (a - krb))
    | .unused | .test => (false, d)
    | .imsic n f off => if size = 4 then (false, d.imsicStore n f off v) else (true, d)
    | .reg r =>
      let off := (if r.name.block = .lee then a % 0x10000 else 0) / 8 * 8
      (false, d.writeReg
        { req := req, reg := r, off := off, raw := placedBits a size v
          full := wholeWrite r.name.fields (d.reg r) a size v
          lo := size = 8 || a % 8 = 0, hi := size = 8 || a % 8 = 4 })

/-- The access is to an interrupt file, which a closed gate holds as an MSI (R201). -/
def Dev.isImsic (d : Dev) (req : Requester) (a : Nat) : Bool :=
  match d.regTarget req a with
  | .imsic _ _ _ => true
  | _ => false

/-- REGISTER_WRITE. -/
def registerWriteEff (req : Requester) (a size : Nat) (v : Word) (d : Dev) : Dev :=
  if rangeOf a ≠ .regs then d
  else if d.siteStands a && !d.isImsic req a then
    let s := (siteOfAddr a).getD 0
    if d.isolated s then proxyPacketEff s (.regWrite req a size v) d else gatedPacketEff s (.regWrite req a size v) d
  else if (siteOfAddr a).any fun s => d.heldBefore s (.regWrite req a size v) then d
  else
    let (err, d) := (d.take (.reg req a size v)).regStore req a size v
    let d := d.answerTo req a (if err then BitVec.allOnes 64 else 0) err
    match siteOfAddr a with
    | some s => d.passHeld s (.regWrite req a size v)
    | none => d

/-- ABSENT_UNIT_ACCESS (R4): counted; a read returns zero, a write is ignored. -/
def absentUnitEff (req : Requester) (a : Nat) (write : Bool) (d : Dev) : Dev :=
  if rangeOf a = .regs ∧ d.regTarget req a = .absent then
    let d := d.absentAccess (a - krb)
    let d := if write then d else d.takeAccess req a
    d.answerTo req a 0 false
  else d

/-! ### A register access of a requester that waits for it at once: the management core and SYSACC -/

/-- A read. -/
def Dev.busRead (d : Dev) (req : Requester) (a size : Nat) : Word × Bool × Dev :=
  if d.siteStands a then (BitVec.allOnes 64, false, d.standAnswer ((siteOfAddr a).getD 0) (.regRead req a) a false)
  else (d.accessMade req a size false 0).regLoad req a size

/-- A write, and whether it is an access error. -/
def Dev.busWrite (d : Dev) (req : Requester) (a size : Nat) (v : Word) : Bool × Dev :=
  if d.siteStands a && !d.isImsic req a then (false, d.standAnswer ((siteOfAddr a).getD 0) (.regWrite req a size v) a true)
  else (d.accessMade req a size true v).regStore req a size v

/-! ### Apertures (R78, R79) -/

/-- An aperture read is answered: a leaf's in its miss entry, a device's by a completion, any other on the bus. -/
def Dev.apertureAnswer (d : Dev) (req : Requester) (a v : Nat) (err poison : Bool) : Dev :=
  let d := { d with resp := ⟨BitVec.ofNat 64 v, err, poison⟩ }
  match req with
  | .leaf n _ => d.modLeaf n fun l =>
      { l with misses := l.misses.map fun m =>
          if m.addr == a && m.answer.isNone then { m with value := v, poison := poison, answer := some err } else m }
  | .device seg rid =>
    match d.ttu.regReads.find? fun p => p.1 == a && p.2.seg == seg && p.2.rid == rid with
    | none => d
    | some p =>
      (d.modTtu fun t => { t with regReads := t.regReads.erase p }).emit (.devDone seg rid p.2.tag (!err) poison v)
  | _ => d

/-- APERTURE_READ. During a clear it waits, and comes again. An uncorrectable error of a word of a valid block is logged, and the read
returns poison (R77). -/
def apertureReadEff (req : Requester) (leaf off size : Nat) (ue : Bool) (d : Dev) : Dev :=
  let a := apertureAddr leaf off
  let s := d.leafSite leaf
  if d.apertureStands leaf then
    if d.isolated s then proxyPacketEff s (.aperture req leaf off size false) d
    else gatedPacketEff s (.aperture req leaf off size false) d
  else if d.apertureWaits leaf off || d.heldBefore s (.aperture req leaf off size false) then d
  else
    let (v, err, d) := (d.takeAccess req a).apertureLoad req leaf off size
    let bad := ue && !err && (d.lee leaf).valid.contains (off / 256)
    let d := if bad then d.storeError leaf (off / 8) true else d
    (d.apertureAnswer req a v err bad).passHeld s (.aperture req leaf off size false)

/-- APERTURE_WRITE. During a clear it waits. The merge of a write narrower than a word that meets an uncorrectable error is an access error (R332). -/
def apertureWriteEff (req : Requester) (leaf off size : Nat) (v : Line) (ue : Bool) (d : Dev) : Dev :=
  let a := apertureAddr leaf off
  let s := d.leafSite leaf
  if d.apertureStands leaf then
    if d.isolated s then proxyPacketEff s (.aperture req leaf off size true) d
    else gatedPacketEff s (.aperture req leaf off size true) d
  else if d.apertureWaits leaf off || d.heldBefore s (.aperture req leaf off size true) then d
  else
    let d := d.take (.aperture req leaf off size v)
    let merge := ue && decide (size < 8) && d.apertureBacked leaf off && !d.flag LEE_STAT.RUN leaf
      && (d.lee leaf).valid.contains (off / 256)
    let (err, d) := if merge then (true, d.storeError leaf (off / 8) true) else d.apertureStore req leaf off size v.toNat
    (d.answerTo req a (if err then BitVec.allOnes 64 else 0) err).passHeld s (.aperture req leaf off size true)

/-! ### The return of a leaf's access (R59, R68, R286) -/

/-- The answer that has come for an access of a leaf to an address. -/
def Dev.ioAnswerFor (d : Dev) (n a : Nat) : Option (Word × Bool) :=
  d.packets.findSome? fun p => match p with
    | .ioAnswer h x v e => if h == n && x == a then some (v, e) else none
    | _ => none

/-- A device below a root port is stalled, so its completions to MMIO reads wait (R305). DESIGN CHOICE, assumption 35. -/
def Dev.completionHeld (d : Dev) (r : Nat) : Bool :=
  d.ttu.stalls.any fun p => match p.2 with
    | some (.device q) => q.seg == r / 4 && d.rpHasBus r (q.rid / 256)
    | _ => false

/-- The root port at which an MMIO read of a leaf is outstanding. DESIGN CHOICE, assumption 35. -/
def Dev.mmioPending (d : Dev) (n a : Nat) : Option Nat :=
  d.packets.findSome? fun p => match p with
    | .mmioRead r h x => if h == n && x == a then some r else none
    | _ => none

/-- What has come back for an I/O access of a leaf: its value and whether it failed. A register is read where it lies; the value that
a device returns is its own, and free here, and so is whether it completes; a broken crossing lets none return (R207). -/
def Dev.ioReturn (d : Dev) (n : Nat) (acc : LeafAccess) : Option (Word × Bool × Dev) :=
  match d.ioAnswerFor n acc.addr with
  | some (v, e) => some (v, e, d.take (.ioAnswer n acc.addr v e))
  | none =>
    match rangeOf acc.addr with
    | .regs =>
      let who : Requester := .leaf n (d.leaf n).mode
      if acc.kind == .store || d.siteStands acc.addr || (siteOfAddr acc.addr).any (fun s => !(d.forwarding s).isEmpty) then none
      else some (d.regLoad who acc.addr acc.size)
    | .mmio =>
      match d.mmioPending n acc.addr with
      | none => none
      | some r =>
        if d.completionHeld r || d.broken (.trunk (0x30 + r / 4)) then none
        else
          -- a free value says whether the device completes with UR or CA (R285, R286)
          let (failed, d) := (d.take (.mmioRead r n acc.addr)).freeNext
          if failed.getLsbD 0 then some (BitVec.allOnes 64, !(d.mmioTarget acc.addr == .below r true), d)
          else
            let (v, d) := d.freeNext
            some (v, false, d)
    | _ => none

/-- The response for a part of an access that lies in the boot flash: its bytes, or, where the flash has none, an access fault (R25,
R60). -/
def Dev.flashPart (d : Dev) (n : Nat) (m : LeafMiss) (acc : LeafAccess) (p : Part) : LeafMiss × Dev :=
  let a := 64 * p.line + p.off
  match d.memCheck (d.leafClass n) 0 false a with
  | .ok =>
    let m := { m with done := m.done + p.len, value := m.value + d.flashAt (a - 0x0FFFF0000000) p.len * 256 ^ m.done }
    progressAccess 2 (n / 16) n m acc d
  | c => ({ m with answer := some true }, d.memRefused c (d.leafClass n) 0 false a)

/-- MISS_RESPONSE_RETURN (R68): the miss entry is freed, the access that waited is performed or goes on, and then a use that stalled for
want of an entry. A return before the response has come frees nothing. -/
def missReturnEff (n a : Nat) (d : Dev) : Dev :=
  match (d.leaf n).misses.find? fun m => m.addr == a with
  | none => d
  | some m =>
    let (m', d) := if m.answer.isSome then (m, d) else match m.kind with
      | .demand acc =>
        let p := nextPart acc m.done
        if rangeOf (64 * p.line) == .flash then d.flashPart n m acc p else d.progress n m
      | _ => d.progress n m
    let free (d : Dev) : Dev := d.modLeaf n fun l => { l with misses := l.misses.erase m }
    match m'.kind, m'.answer with
    | .demand acc, some failed => ((free d).finishAccess n acc m' failed).unstall n
    | .demand acc, none =>
      if rangeOf acc.addr == .flash || mainMemory acc.addr then
        d.modLeaf n fun l => { l with misses := l.misses.map fun x => if x == m then m' else x }
      else match d.ioReturn n acc with
        | none => d
        | some (v, failed, d) => ((free d).finishAccess n acc { m' with value := v.toNat % 256 ^ acc.size } failed).unstall n
    | .cboZero _, some _ => ((free d).modLeaf n fun l => l.retire (l.pc + 4)).unstall n
    | .prefetch _, some _ => (free d).unstall n
    | .walk vpn u, some _ => ((free d).resumeUse n u (some vpn)).unstall n
    | _, none => d

end Sys2Proof.Machine
end

