-- ==== Sys2Proof/Machine/Manage.lean ====
section
/-!
DEFINITION. Management (spec/16, R384 to R396; spec/02, R45, R49 to R53): the commands that the management core takes on its two
ports, staging, owner keys, attestation, the test access port, and the commit of a firewall entry.
-/

namespace Sys2Proof.Machine

/-! ### The two ports (R384 to R387, R390) -/

/-- What carrying out a command gives: the package after it, the STATUS and the payload of the answer. -/
structure Served where
  dev : Dev
  status : Nat := 0
  payload : List Byte := []

/-- A command: its code of R385, whether the BMC port and the mailbox authorise it, and whether it is answered while MBX_FW.READY is 0
and in service mode (R381, R387). -/
structure MgmtCmd where
  code : Nat
  bmc : Bool := true
  mailbox : Bool := false
  early : Bool := false

/-- Change the management core. -/
def Dev.modMgmt (d : Dev) (f : Mgmt → Mgmt) : Dev := { d with mgmt := f d.mgmt }

/-- The address that the BMC port acknowledges (R384): 0x58 and the latest sample of the PKG_ID pins; none before the first sample,
without power and in SLEEP. -/
def Dev.bmcAddress (d : Dev) : Option Nat := if d.powered && d.board.sampled then some (0x58 + d.board.pins) else none

/-- The BMC port acknowledges its address. DESIGN CHOICE, assumption 60. -/
def Dev.bmcAnswers (d : Dev) : Bool := d.bmcAddress.isSome

/-- Serve a command on a port (R384, R385, R390); a mailbox command reaches the core over its crossing (R207). A BMC frame with a bad PEC is
discarded and counted; a mailbox command is the one that MBX_CMD has put in progress. DESIGN CHOICE, assumption 60. -/
def Dev.serve (d : Dev) (c : MgmtCmd) (port : CmdPort) (go : Dev → Served) : Dev :=
  let notReady := !c.early && !(d.flag MBX_FW.READY && d.mgmt.firmware.isSome)
  match port with
  | .bmc seq pecOk =>
    if !d.bmcAnswers then d
    else if !pecOk then d.bump MBX_BMC.PEC_ERR
    else
      let d := d.count MBX_BMC.FRAMES
      let r : Served := if !c.bmc then { dev := d.bump MBX_BMC.DENIED, status := 2 }
        else if notReady then { dev := d, status := 0x0A }
        else go d
      { r.dev with answer := { seq := seq % 256, status := r.status, payload := r.payload, raised := true } }
  | .mailbox =>
    match d.mgmt.mailbox with
    | none => d
    | some m =>
      if m.1 ≠ c.code || d.broken (.trunk 0x50) then d
      else
        let r : Served := if !c.mailbox then { dev := d, status := 2 }
          else if notReady then { dev := d, status := 0x0A }
          else go d
        r.dev.mailboxAnswer r.status r.payload

/-- A refusal that changes nothing. -/
def Dev.answer0 (d : Dev) (status : Nat) (payload : List Byte := []) : Served := { dev := d, status := status, payload := payload }

/-- Serve an SI_ or FW_ command: BUSY until background work on the flash has completed (R386). -/
def Dev.serveFlash (d : Dev) (code : Nat) (port : CmdPort) (go : Dev → Served) : Dev :=
  d.serve { code := code, early := true } port fun d => if d.mgmt.background.isSome then d.answer0 1 else go d

/-! ### Reports: INFO, TELEMETRY, REG_READ (R385) -/

/-- INFO: MBX_FW, TRK_ID, SIM_VENDOR and SIM_OWNER as words. -/
def infoEff (port : CmdPort) (d : Dev) : Dev :=
  d.serve { code := 0x01, mailbox := true } port fun d =>
    d.answer0 0 ([⟨.MBX_FW, 0, 0⟩, ⟨.TRK_ID, 0, 0⟩, ⟨.SIM_VENDOR, 0, 0⟩, ⟨.SIM_OWNER, 0, 0⟩].flatMap fun r =>
      leBytes 8 (d.readReg r).toNat)

/-- Two bytes of a measurement, which the physical world decides. -/
def Dev.measured (d : Dev) : List Byte × Dev :=
  let (w, d) := d.freeNext
  (leBytes 2 (w.toNat % 2 ^ 16), d)

/-- TELEMETRY: 29 die temperatures, VCCIN in mV, its current in 0.1 A and the package power in 0.1 W. -/
def telemetryEff (port : CmdPort) (d : Dev) : Dev :=
  d.serve { code := 0x02, mailbox := true } port fun d =>
    let r := (List.range 32).foldl (fun (r : List Byte × Dev) i =>
      if i < 28 && !r.2.siteActive i then (r.1 ++ leBytes 2 0x8000, r.2)
      else
        let (b, d) := r.2.measured
        (r.1 ++ b, d)) ([], d)
    { dev := r.2, payload := r.1 }

/-- A register read of the management core, as class 7 of the region firewall (R379, R394, R395). -/
def Dev.mgmtRead (d : Dev) (a : Nat) : Word × Bool × Dev :=
  if !d.fwPermits 7 0 false a then (BitVec.allOnes 64, true, d.fwRefuse 7 0 false a) else d.busRead .mgmt a 8

/-- Reads of consecutive registers, until one is an access error. -/
def Dev.readRegs : Nat → Nat → Served → Served
  | 0, _, r => r
  | n + 1, a, r =>
    let (v, err, d) := r.dev.mgmtRead a
    if err then { dev := d, status := 0x0B, payload := [1] }
    else Dev.readRegs n (a + 8) { dev := d, payload := r.payload ++ leBytes 8 v.toNat }

/-- The address lies in the MBX block. -/
def mbxAddr (a : Nat) : Bool :=
  match siteOfAddr a, trunkBlock (a - krb) with
  | none, some (b, _, _) => b == .mbx
  | _, _ => false

/-- REG_READ: 1 to 16 consecutive registers, not of the MBX block; answered also in service mode and during a load (R381, R424). It waits
where its first register is of a bough that it wakes (R203). -/
def regReadCmdEff (port : CmdPort) (a n : Nat) (d : Dev) : Dev :=
  let served := match port with
    | .bmc _ pecOk => d.bmcAnswers && pecOk
    | .mailbox => false
  if let some d := if served && rangeOf a == .regs && !mbxAddr a then d.accessWaits .mgmt a 8 false 0 else none then d
  else d.serve { code := 0x03, early := true } port fun d =>
    if n = 0 || 16 < n || a % 8 ≠ 0
        || (List.range n).any (fun i => rangeOf (a + 8 * i) != .regs || mbxAddr (a + 8 * i)) then d.answer0 3
    else Dev.readRegs n a { dev := d }

/-! ### Power, resets and the safe state (R385) -/

/-- A request of a package state: REFUSED, with the reason of PWR_PKG_CTL, when the power controller refuses it or ends it at once. -/
def Dev.packageRequest (d : Dev) (go : Dev → Dev) : Served :=
  let r := go d
  if r.get PWR_PKG_CTL.RESULT = 1 ∧ r.get PWR_PKG_CTL.STATE = d.get PWR_PKG_CTL.STATE ∧ !r.power.unpowered then
    { dev := r, status := 0x0B, payload := leBytes 1 (r.get PWR_PKG_CTL.REASON) }
  else { dev := r }

/-- PKG_STANDBY (R368). -/
def pkgStandbyEff (port : CmdPort) (d : Dev) : Dev :=
  d.serve { code := 0x10 } port fun d => d.packageRequest (standbyReqEff .mgmt)

/-- PKG_SLEEP (R369): the alarm is armed first. -/
def pkgSleepEff (port : CmdPort) (cmp : Nat) (d : Dev) : Dev :=
  d.serve { code := 0x11 } port fun d =>
    ((d.put PWR_RTC_ALARM.EN 1).put PWR_RTC_ALARM.CMP cmp).packageRequest (sleepReqEff .mgmt)

/-- PKG_WAKE (R368). -/
def pkgWakeEff (port : CmdPort) (d : Dev) : Dev :=
  d.serve { code := 0x12 } port fun d => d.packageRequest (wakeReqEff .mgmt)

/-- RESET_WARM: a package warm reset begins, with RST_CAUSE.BMC (R370). -/
def resetWarmEff (port : CmdPort) (d : Dev) : Dev :=
  d.serve { code := 0x18, early := d.get SIM_STAT.STATE == 3 && d.mgmt.firmware.isSome } port fun d => { dev := d.warmBegin .bmc }

/-- A command of RST_CMD: REFUSED, with its STATUS, when it is refused with BUSY or INVALID (R370). -/
def Dev.resetRequest (d : Dev) (go : Dev → Dev) : Served :=
  let busy := d.flag RST_CMD.BUSY
  let r := go d
  if busy then { dev := r, status := 0x0B, payload := leBytes 1 1 }
  else if !r.flag RST_CMD.BUSY ∧ r.get RST_CMD.STATUS = 2 then { dev := r, status := 0x0B, payload := leBytes 1 2 }
  else { dev := r }

/-- RESET_UNIT: a reset or a re-initialisation of one unit. A retraining of a graft starts here and ends with
GRAFT_FAST_RETRAIN. DEDUCED, assumption 59. -/
def resetUnitEff (port : CmdPort) (op target : Nat) (d : Dev) : Dev :=
  d.serve { code := 0x19 } port fun d =>
    match op with
    | 1 => d.resetRequest (orderlyResetEff target)
    | 2 => d.resetRequest (forcedResetEff target)
    | 3 => d.resetRequest (leafResetEff target)
    | 4 => d.resetRequest (leeResetEff target)
    | 5 => if target < 64 then { dev := sliceResetEff target d } else d.answer0 3
    | 6 => if target < 8 then { dev := engineReinitEff target d } else d.answer0 3
    | 7 => if d.siteActive target then { dev := d.startRetrain (.trunk target) } else d.answer0 3
    | 8 => if target < 16 ∧ d.channelPresent target then { dev := memReinitEff target d } else d.answer0 3
    | _ => d.answer0 3

/-- ENTER_SAFE (R353). -/
def enterSafeEff (port : CmdPort) (d : Dev) : Dev :=
  d.serve { code := 0x1A } port fun d => { dev := d.enterSafe 3 }

/-- SEV_CLEAR: a write of one register of EVC_SEV. -/
def sevClearCmdEff (port : CmdPort) (i : Nat) (mask : Word) (d : Dev) : Dev :=
  d.serve { code := 0x1B } port fun d => if i < 16 then { dev := sevClearEff i mask d } else d.answer0 3

/-! ### Staging (R49, R50, R386) -/

/-- A warm reset is in progress, up to the end of the load (R49). -/
def Dev.warmBusy (d : Dev) : Bool := d.board.warm.isSome || d.get SIM_STAT.STATE == 1

/-- The fallback bit of a kind. -/
def Dev.fellBack (d : Dev) : PartKind → Bool
  | .vendor => d.flag SIM_STAT.V_FALLBACK
  | .owner => d.flag SIM_STAT.O_FALLBACK
  | .firmware => false

/-- The session, where it is of the kind that a command means: SI_ commands a part's, FW_ commands the firmware's. -/
def Dev.sessionOf (d : Dev) (fw : Bool) : Option Session :=
  d.mgmt.session.filter fun s => (s.kind == .firmware) == fw

/-- Open a session: the slot is erased in the background. -/
def Dev.openSession (d : Dev) (k : PartKind) (slot : Nat) : Served :=
  { dev := d.modMgmt fun m => { m with session := some { kind := k, slot := slot }
                                       background := some { base := slotBase k slot, size := slotSize k } } }

/-- Program bytes into the slot being staged; what was checked before no longer counts. -/
def Dev.stageWrite (d : Dev) (fw : Bool) (off : Nat) (bytes : List Byte) : Served :=
  match d.sessionOf fw with
  | none => d.answer0 4
  | some s =>
    if 240 < bytes.length || slotSize s.kind < off + bytes.length then d.answer0 5
    else { dev := (d.programFlash (slotBase s.kind s.slot + off) bytes).modMgmt fun m =>
             { m with session := some { s with checked := false } } }

/-- The verification of the staged part passed or failed. -/
def Dev.stageChecked (d : Dev) (s : Session) (fail : Option Nat) : Served :=
  let d := d.modMgmt fun m => { m with session := some { s with checked := fail.isNone } }
  match fail with
  | none => { dev := d }
  | some e => { dev := d, status := 8, payload := leBytes 1 e }

/-- The failure of a check. -/
def failOf {α : Type} : Except Nat α → Option Nat
  | .ok _ => none
  | .error e => some e

/-- A session closes without a commit: the slot of a part is left erased. -/
def Dev.abortSession (d : Dev) (s : Session) : Dev :=
  let d := if s.kind = .firmware then d else d.eraseFlash (slotBase s.kind s.slot) (slotSize s.kind)
  d.modMgmt fun m => { m with session := none }

/-- A directory write in the background (R34, R386): the copy not in use is erased and programmed, with SEQ one higher.
DEDUCED, assumption 46. -/
def Dev.directoryJob (d : Dev) (x : Directory) : Dev :=
  let old := d.mgmt.dir
  let c := match old.copy with
    | some k => 1 - k
    | none => 0
  let x := { x with copy := some c, seq := (old.seq + 1) % 2 ^ 32 }
  d.modMgmt fun m => { m with dir := x, background := some { base := 4096 * c, size := 4096, program := x.bytes } }

/-- The directory in which a staged slot is active in trial (R49, R50). -/
def Directory.try (x : Directory) (k : PartKind) (slot trials : Nat) : Directory :=
  match k with
  | .vendor => { x with vActive := slot, trial := setBit x.trial 0 true, vTrial := trials }
  | _ => { x with oActive := slot, trial := setBit x.trial 1 true, oTrial := trials }

/-- SI_STAGE_BEGIN. The inactive slot is the one the directory does not make active; slot A when the package is on owner defaults.
DESIGN CHOICE, assumption 61. -/
def siStageBeginEff (port : CmdPort) (k : PartKind) (d : Dev) : Dev :=
  d.serveFlash 0x20 port fun d =>
    if k = .firmware then d.answer0 3
    else if d.mgmt.session.isSome || d.mgmt.dir.inTrial k || d.warmBusy then d.answer0 1
    else d.openSession k (1 - d.mgmt.dir.active k)

/-- SI_STAGE_WRITE. -/
def siStageWriteEff (port : CmdPort) (off : Nat) (bytes : List Byte) (d : Dev) : Dev :=
  d.serveFlash 0x21 port fun d => d.stageWrite false off bytes

/-- SI_STAGE_CHECK: the staged part is verified under R44 against the present OTP and the package's behaviour level. -/
def siStageCheckEff (port : CmdPort) (d : Dev) : Dev :=
  d.serveFlash 0x22 port fun d =>
    match d.sessionOf false with
    | none => d.answer0 4
    | some s =>
      let b := d.flashBlob (slotBase s.kind s.slot)
      d.stageChecked s (if s.kind = .vendor then failOf (d.checkVendor b) else failOf (d.checkOwner b (d.get TRK_ID.BEHAVIOUR)))

/-- SI_STAGE_ABORT. DESIGN CHOICE, assumption 61. -/
def siStageAbortEff (port : CmdPort) (d : Dev) : Dev :=
  d.serveFlash 0x23 port fun d =>
    match d.sessionOf false with
    | none => d.answer0 4
    | some s => { dev := d.abortSession s }

/-- SI_COMMIT. -/
def siCommitEff (port : CmdPort) (trials : Nat) (d : Dev) : Dev :=
  d.serveFlash 0x24 port fun d =>
    if d.warmBusy then d.answer0 1
    else match d.sessionOf false with
      | none => d.answer0 6
      | some s =>
        if !s.checked then d.answer0 6
        else if trials = 0 || 3 < trials then d.answer0 3
        else { dev := (d.directoryJob (d.mgmt.dir.try s.kind s.slot trials)).modMgmt fun m => { m with session := none } }

/-- SI_CONFIRM. -/
def siConfirmEff (port : CmdPort) (k : PartKind) (d : Dev) : Dev :=
  d.serveFlash 0x25 port fun d =>
    if k = .firmware then d.answer0 3
    else if !d.mgmt.dir.inTrial k then d.answer0 7
    else { dev := d.directoryJob (d.mgmt.dir.confirm k (d.mgmt.dir.active k)) }

/-- SI_ADVANCE_FLOOR (R45, R49): the floor never falls. -/
def siAdvanceFloorEff (port : CmdPort) (k : PartKind) (d : Dev) : Dev :=
  d.serveFlash 0x26 port fun d =>
    if d.mgmt.dir.inTrial k || d.fellBack k then d.answer0 1
    else if d.get SIM_STAT.STATE ≠ 2 then d.answer0 3
    else match k with
      | .vendor => { dev := { d with fuse := { d.fuse with vFloor := max d.fuse.vFloor (d.get SIM_VENDOR.SVN) } }.fuseRegs }
      | .owner =>
        if d.get SIM_STAT.O_SRC = 2 then d.answer0 3
        else { dev := { d with fuse := { d.fuse with oFloor := max d.fuse.oFloor (d.get SIM_OWNER.SVN) } }.fuseRegs }
      | .firmware => d.answer0 3

/-- SESSION_TIMEOUT (R49, R386): no command for 60 s, counted from the end of background work. -/
def sessionTimeoutEff (d : Dev) : Dev :=
  match d.mgmt.background, d.mgmt.session with
  | none, some s => d.abortSession s
  | _, _ => d

/-- FLASH_BACKGROUND_DONE (R386): the erase and the programming after it are done. -/
def flashDoneEff (d : Dev) : Dev :=
  match d.mgmt.background with
  | none => d
  | some j => (d.runJob j).modMgmt fun m => { m with background := none }

/-! ### Owner keys (R51 to R53) -/

/-- Bytes as a part. -/
def blobOf (l : List Byte) : Blob := fun i => l.getD i 0

/-- State and hash of an owner key slot. -/
def Fuse.slot (f : Fuse) (k : Nat) : Nat × Nat := if k = 0 then (f.slot0, f.hash0) else (f.slot1, f.hash1)

/-- Fuse an owner key slot. -/
def Fuse.setSlot (f : Fuse) (k state hash : Nat) : Fuse :=
  if k = 0 then { f with slot0 := state, hash0 := hash } else { f with slot1 := state, hash1 := hash }

/-- The checks of the signature of an object by the key of a slot, with the codes of R421; its length is that of a part. -/
def Dev.objectSigned (d : Dev) (p : SignedPart) (obj : List Byte) (key : Nat) : List (Bool × Nat) :=
  let b := blobOf obj
  let (state, hash) := d.fuse.slot key
  [(obj.length != p.len + 2888, 2), (state == 0, 3), (state == 2, 4), (p.keyHash b != hash, 3), (!p.signed b, 5)]

/-- SI_ENROL_KEY (R52): an empty slot takes the hash that the object's one section brings. -/
def siEnrolEff (port : CmdPort) (obj : List Byte) (d : Dev) : Dev :=
  d.serveFlash 0x27 port fun d =>
    let b := blobOf obj
    match parsePart b 0x4B534550 (obj.length) 1 with
    | none => d.answer0 8 [2]
    | some p =>
      match p.sects with
      | [s] =>
        let free := d.fuse.slot0 == 0 && d.fuse.slot1 == 0 && d.get SIM_STAT.STATE == 2 && d.get SIM_STAT.O_SRC == 2
        let unsigned := free && obj.length == p.len + 68 && blobZero b p.len 68
        let sig := if unsigned then [] else d.objectSigned p obj (1 - p.slot)
        if (d.fuse.slot p.slot).1 ≠ 0 then d.answer0 3
        else match firstFail ([(s.typ != 0x201 || s.size != 32, 2)] ++ sig
            ++ [(p.uid != d.fuse.uid, 7), (p.behaviour != 0, 0x0A)]) with
          | some e => d.answer0 8 (leBytes 1 e)
          | none => { dev := { d with fuse := d.fuse.setSlot p.slot 1 (blobAt b s.off 32) }.fuseRegs }
      | _ => d.answer0 8 [2]

/-- SI_REVOKE_KEY (R53): a slot is revoked under the signature of the other. -/
def siRevokeEff (port : CmdPort) (obj : List Byte) (d : Dev) : Dev :=
  d.serveFlash 0x28 port fun d =>
    match parsePart (blobOf obj) 0x4B535250 (obj.length) 1 with
    | none => d.answer0 8 [2]
    | some p =>
      match firstFail ([(!p.sects.isEmpty, 2)] ++ d.objectSigned p obj (1 - p.slot)
          ++ [(p.uid != d.fuse.uid, 7), (p.behaviour != 0, 0x0A)]) with
      | some e => d.answer0 8 (leBytes 1 e)
      | none => { dev := { d with fuse := d.fuse.setSlot p.slot 2 (d.fuse.slot p.slot).2 }.fuseRegs }

/-! ### Firmware staging (R385) -/

/-- The firmware slot that is not loaded; slot A in service mode. -/
def Dev.spareFirmware (d : Dev) : Nat := (d.mgmt.firmware.map (1 - ·)).getD 0

/-- FW_STAGE_BEGIN. -/
def fwStageBeginEff (port : CmdPort) (d : Dev) : Dev :=
  d.serveFlash 0x30 port fun d =>
    if d.mgmt.session.isSome || d.warmBusy then d.answer0 1 else d.openSession .firmware d.spareFirmware

/-- FW_STAGE_WRITE. -/
def fwStageWriteEff (port : CmdPort) (off : Nat) (bytes : List Byte) (d : Dev) : Dev :=
  d.serveFlash 0x31 port fun d => d.stageWrite true off bytes

/-- FW_STAGE_CHECK: INVALID unless SEQ exceeds that of the loaded image. -/
def fwStageCheckEff (port : CmdPort) (d : Dev) : Dev :=
  d.serveFlash 0x32 port fun d =>
    match d.sessionOf true with
    | none => d.answer0 4
    | some s =>
      let r := d.checkFirmware (d.flashBlob (slotBase .firmware s.slot))
      let old := match r with
        | .ok f => d.mgmt.firmware.isSome && decide (f.seq ≤ d.mgmt.fwSeq)
        | .error _ => false
      if old then d.answer0 3 else d.stageChecked s (failOf r)

/-- FW_STAGE_ABORT. -/
def fwStageAbortEff (port : CmdPort) (d : Dev) : Dev :=
  d.serveFlash 0x33 port fun d =>
    match d.sessionOf true with
    | none => d.answer0 4
    | some s => { dev := d.abortSession s }

/-- FW_REVERT: the first sector of the loaded slot is erased, if the other slot verifies. -/
def fwRevertEff (port : CmdPort) (d : Dev) : Dev :=
  d.serveFlash 0x34 port fun d =>
    match d.mgmt.firmware with
    | none => d.answer0 3
    | some s =>
      match d.checkFirmware (d.flashBlob (slotBase .firmware (1 - s))) with
      | .error e => d.answer0 8 (leBytes 1 e)
      | .ok _ => { dev := d.modMgmt fun m => { m with background := some { base := slotBase .firmware s, size := 4096 } } }

/-! ### Attestation (R391, R392) -/

/-- The first index that is never used. -/
def lastIndex : Nat := 2 ^ 40 - 2 ^ 20

/-- The indexes that remain. -/
def Dev.indexesLeft (d : Dev) : Nat := lastIndex - d.mgmt.next

/-- n bytes of a list, zeros after its end. -/
def bytesOf (l : List Byte) (from_ n : Nat) : List Byte := (List.range n).map fun i => l.getD (from_ + i) 0

/-- ATTEST_KEY: the 68-byte public key and the indexes remaining. -/
def attestKeyEff (port : CmdPort) (d : Dev) : Dev :=
  d.serve { code := 0x40, bmc := false, mailbox := true } port fun d =>
    d.answer0 0 (bytesOf Config.attestKey 0 68 ++ leBytes 8 d.indexesLeft)

/-- The quote body of R391 for a nonce, data and index. -/
def Dev.quoteBody (d : Dev) (nonce data : List Byte) (index : Nat) : List Byte :=
  let flags := (if d.mgmt.debug then 1 else 0) + (if d.get SIM_STAT.O_SRC = 2 then 2 else 0)
    + (if d.flag EVC_STAT.SAFE then 4 else 0) + (if d.flag MBX_FW.FALLBACK then 8 else 0)
  leBytes 4 0x4B535154 ++ leBytes 4 1 ++ leBytes 16 d.fuse.uid ++ leBytes 8 (d.reg ⟨.TRK_ID, 0, 0⟩).toNat
    ++ bytesOf nonce 0 32 ++ bytesOf data 0 64
    ++ leBytes 32 d.mgmt.vHash ++ leBytes 32 (if d.get SIM_STAT.O_SRC = 2 then 0 else d.mgmt.oHash) ++ leBytes 32 d.mgmt.fHash
    ++ leBytes 2 (d.get SIM_VENDOR.SVN) ++ leBytes 2 (d.get SIM_OWNER.SVN) ++ leBytes 2 (d.get MBX_FW.SVN)
    ++ leBytes 1 d.fuse.vFloor ++ leBytes 1 flags ++ leBytes 8 d.ring.toNat ++ leBytes 8 index ++ leBytes 8 0

/-- More indexes are reserved when the reserve is used up (R392); none when they are exhausted. -/
def Dev.reserveIndexes (d : Dev) : Option Dev :=
  if d.mgmt.next ≠ d.mgmt.limit then some d
  else if lastIndex < d.mgmt.limit + 4096 then none
  else
    let top := d.mgmt.limit + 4096
    some ({ d with nvm := { d.nvm with reserved := top } }.modMgmt fun m => { m with limit := top })

/-- The event of the last 2^32 indexes, the first time (R392). DEDUCED, assumption 62. -/
def Dev.noteIndexes (d : Dev) : Dev :=
  if d.indexesLeft < 2 ^ 32 && !d.nvm.low then { d with nvm := { d.nvm with low := true } }.raise 112 else d

/-- ATTEST_QUOTE: the nonce and the data are the payload of the mailbox. -/
def attestQuoteEff (port : CmdPort) (d : Dev) : Dev :=
  d.serve { code := 0x41, bmc := false, mailbox := true } port fun d =>
    let len := (d.mgmt.mailbox.map fun m => m.2.1).getD 0
    if len < 32 || 96 < len then d.answer0 3
    else match d.reserveIndexes with
      | none => d.answer0 9
      | some d =>
        let index := d.mgmt.next
        let body := d.quoteBody (d.mailboxBytes 0 32) (d.mailboxBytes 32 (len - 32)) index
        let d := (d.modMgmt fun m => { m with next := index + 1 }).noteIndexes
        { dev := d, payload := body ++ bytesOf (Config.xmssMtSign index body) 0 5605 }

/-! ### The test access port (R388, R389) -/

/-- A scan through the bypass register, which is one bit long: 64 bits in, lowest first. -/
def Dev.bypassScan (d : Dev) (w : Word) : Dev :=
  { d with tap := { d.tap with out := (w <<< 1) ||| (if d.tap.bypass then 1 else 0), bypass := w.getLsbD 63, drives := false } }

/-- The IDCODE: the high digit of the stepping, 0x4B53, 0x267 and 1. -/
def Dev.idcode (d : Dev) : Nat := d.fuse.stepping / 16 % 16 * 2 ^ 28 + 0x4B53 * 2 ^ 12 + 0x267 * 2 + 1

/-- JTAG_IDCODE. -/
def jtagIdcodeEff (d : Dev) : Dev := { d with tap := { d.tap with out := BitVec.ofNat 64 d.idcode, drives := false } }

/-- JTAG_BYPASS: one bit. -/
def jtagBypassEff (b : Bool) (d : Dev) : Dev :=
  { d with tap := { d.tap with out := if d.tap.bypass then 1 else 0, bypass := b, drives := false } }

/-- A scan of the boundary register: the pins as sampled come out, and the register takes what goes in.
DESIGN CHOICE, assumption 63. -/
def Dev.boundaryScan (d : Dev) (w : Word) (drives : Bool) : Dev :=
  let (pins, d) := d.freeNext
  { d with tap := { d.tap with out := pins, boundary := w, drives := drives } }

/-- JTAG_SAMPLE_PRELOAD. -/
def jtagSampleEff (w : Word) (d : Dev) : Dev := d.boundaryScan w false

/-- JTAG_EXTEST: BYPASS unless debug is enabled. -/
def jtagExtestEff (w : Word) (d : Dev) : Dev := if d.mgmt.debug then d.boundaryScan w true else d.bypassScan w

/-- A read of one word as class 8 of the firewall: the word, and whether it is an access error. What a device returns to it is free. -/
def Dev.sysRead (d : Dev) (a : Nat) : Word × Bool × Dev :=
  let bad (d : Dev) : Word × Bool × Dev := (BitVec.allOnes 64, true, d)
  if a % 8 ≠ 0 then bad d
  else if !d.fwPermits 8 0 false a then bad (d.fwRefuse 8 0 false a)
  else match rangeOf a with
    | .regs => d.busRead .jtag a 8
    | .aperture =>
      let (v, err, d) := d.apertureRead .jtag a 8
      (BitVec.ofNat 64 v, err, d)
    | .dram | .cxl =>
      if !d.backed a then bad (d.decodeError a)
      else
        let x := d.cohRead (a / 64)
        if x.poison then bad (d.cxlNote (a / 64)) else (lineWord x.data (a / 8 % 8), false, d)
    | .flash =>
      if d.backed a then (BitVec.ofNat 64 (d.flashAt (a - 0x0FFFF0000000) 8), false, d) else bad (d.decodeError a)
    | .mmio =>
      match d.mmioTarget a with
      | .config r off =>
        let (v, d) := d.rpRead r off 8
        (v, false, d)
      | .noFunction => (BitVec.allOnes 64, false, d)
      | .below r cfg =>
        if d.rpUp r then
          let (v, d) := d.freeNext
          (v, false, d)
        else (BitVec.allOnes 64, !cfg, d)
      | .none => bad (d.decodeError a)
    | .reserved => bad (d.decodeError a)

/-- A write of one word as class 8, and whether it is an access error. -/
def Dev.sysWrite (d : Dev) (a : Nat) (v : Word) : Bool × Dev :=
  if a % 8 ≠ 0 then (true, d)
  else if !d.fwPermits 8 0 true a then (true, d.fwRefuse 8 0 true a)
  else match rangeOf a with
    | .regs => d.busWrite .jtag a 8 v
    | .aperture => d.apertureWrite .jtag a 8 v.toNat
    | .dram | .cxl =>
      if !d.backed a then (true, d.decodeError a)
      else (false, d.cohWritePart (a / 64) (0xFF <<< (a % 64)) (BitVec.ofNat 512 (v.toNat <<< (8 * (a % 64)))))
    | .mmio => if d.mmioTarget a == .none then (true, d.decodeError a) else (false, d.mmioStore a 8 v)
    | .flash => (true, if d.backed a then d else d.decodeError a)
    | .reserved => (true, d.decodeError a)

/-- JTAG_SYSACC: one 64-bit word at a physical address, as class 8 of the firewall; BYPASS unless debug is enabled. The access
waits while something is under way for its line (R168), or for a wake or a clear (R77, R203). -/
def jtagSysaccEff (a : Nat) (write : Bool) (v : Word) (d : Dev) : Dev :=
  if !d.mgmt.debug then d.bypassScan v
  else if mainMemory a && !d.lineIdle (a / 64) then d
  else if let some d := if d.fwPermits 8 0 write a then d.accessWaits .jtag a 8 write v else none then d
  else if write then
    let (err, d) := d.sysWrite a v
    { d with resp := ⟨if err then BitVec.allOnes 64 else 0, err, false⟩, tap := { d.tap with drives := false } }
  else
    let (w, err, d) := d.sysRead a
    { d with resp := ⟨w, err, false⟩, tap := { d.tap with out := w, drives := false } }

/-- The leaf can be reached for debug: it exists, its bough runs, and it is neither OFF nor held in reset. -/
def Dev.debugReaches (d : Dev) (n : Nat) : Bool := d.leafPresent n && d.bstate (d.leafSite n) == 0 && decide (d.pstate n < 2)

/-- An abstract register of a halted leaf by its number: a CSR, an integer or a floating-point register. -/
def Dev.debugRead (d : Dev) (n r : Nat) : Option Word :=
  if r < 0x1000 then (if csrExists r || r == 0x7B0 || r == 0x7B1 then some (d.readCsr n r) else none)
  else if r < 0x1020 then some ((d.leaf n).getX (r - 0x1000))
  else if r < 0x1040 then some ((d.leaf n).f.find 0 (r - 0x1020))
  else none

/-- A write of an abstract register; of dcsr it sets the mode that a resume returns to. -/
def Dev.debugWrite (d : Dev) (n r : Nat) (v : Word) : Dev :=
  let l := d.leaf n
  if r = 0x7B0 then d.setLeaf n (l.setCsr r ((l.csrRaw r &&& ~~~0x23) ||| (v &&& 0x23)))
  else if r = 0x7B1 then d.setLeaf n (l.setCsr r (v &&& ~~~1))
  else if r < 0x1000 then (if csrExists r && decide (r / 1024 ≠ 3) then d.writeCsr n r v else d)
  else if r < 0x1020 then d.setLeaf n (l.setX (r - 0x1000) v)
  else if r < 0x1040 then d.setLeaf n { l with f := l.f.set natLt 0 (r - 0x1020) v }
  else d

/-- JTAG_DMI (R389): halt, resume and register access; BYPASS unless debug is enabled. A leaf that runs keeps its registers to itself. -/
def jtagDmiEff (op : DmiOp) (d : Dev) : Dev :=
  if !d.mgmt.debug then
    let (w, d) := d.freeNext
    d.bypassScan w
  else
    let d := { d with tap := { d.tap with drives := false } }
    match op with
    | .halt n =>
      let l := d.leaf n
      if !d.debugReaches n || l.halted then d
      else
        let dcsr := 4 * 2 ^ 28 + (if virtual l.mode then 2 ^ 5 else 0) + 3 * 2 ^ 6 + modeCode l.mode
        d.setLeaf n { (l.setCsr 0x7B0 (BitVec.ofNat 64 dcsr)).setCsr 0x7B1 l.pc with halted := true }
    | .resume n =>
      let l := d.leaf n
      if !l.halted then d
      else d.setLeaf n { l with halted := false, pc := l.csrRaw 0x7B1, mode := modeOf ((l.csrRaw 0x7B0).bits 1 0) ((l.csrRaw 0x7B0).getLsbD 5) }
    | .read n r =>
      if !(d.leaf n).halted then d
      else match d.debugRead n r with
        | some w => { d with tap := { d.tap with out := w } }
        | none => d
    | .write n r v => if (d.leaf n).halted then d.debugWrite n r v else d

/-! ### The region firewall -/

/-- FIREWALL_COMMIT (R396): the write of TRK_FWe_CTL. -/
def firewallCommitEff (e : Nat) (en : Bool) (d : Dev) : Dev := if e < 64 then d.commitFirewall e en else d

end Sys2Proof.Machine
end

