-- ==== Sys2Proof/Machine/ClockCommands.lean ====
section
/-!
DEFINITION. Meanings of commands: time base and trace. Each is its operation on the package, by the rule that its row of the table names.
-/

namespace Sys2Proof.Machine

/-- TSYNC_PERIOD (R235). -/
def execTsyncPeriod (s : State) : Host.Outcome State Fault Refusal := .next (s.on tsyncPeriodEff)

/-- TSYNC_REQ (R235). -/
def execTsyncReq (port : Nat) (s : State) : Host.Outcome State Fault Refusal := .next (s.on (tsyncReqEff port))

/-- TSYNC_RESP (R235). -/
def execTsyncResp (port t1 t2 t3 t4 : Nat) (s : State) : Host.Outcome State Fault Refusal :=
  .next (s.on (tsyncRespEff port t1 t2 t3 t4))

/-- TSYNC_AHEAD (R235). -/
def execTsyncAhead (port offset : Nat) (s : State) : Host.Outcome State Fault Refusal := .next (s.on (tsyncAheadEff port offset))

/-- TIM_STEP (R239). -/
def execTimStep (add : Word) (s : State) : Host.Outcome State Fault Refusal := .next (s.on (timStepEff add))

/-- RING_SYNC_PERIOD (R240). -/
def execRingSyncPeriod (s : State) : Host.Outcome State Fault Refusal := .next (s.on ringSyncPeriodEff)

/-- RING_SYNC (R240). -/
def execRingSync (site : Nat) (value : Word) (s : State) : Host.Outcome State Fault Refusal :=
  .next (s.on (arrive (.ringSync site value)
    (ringSyncGoEff site value)))

/-- SYNC_ACK (R240). -/
def execSyncAck (site : Nat) (offset : Int) (s : State) : Host.Outcome State Fault Refusal :=
  .next (s.on (arrive (.syncAck site offset)
    (syncAckEff site offset)))

/-- PACKER_RECORD_FORM (R248). -/
def execPackerRecordForm (site : Nat) (s : State) : Host.Outcome State Fault Refusal := .next (s.on (packerFormEff site))

/-- TAIL_TIMEOUT (R249). -/
def execTailTimeout (site leaf : Nat) (s : State) : Host.Outcome State Fault Refusal := .next (s.on (tailTimeoutEff site leaf))

/-- TRACE_RECORD_ARRIVAL (R251). -/
def execTraceRecordArrival (site : Nat) (record : TraceRec) (s : State) : Host.Outcome State Fault Refusal :=
  .next (s.on (traceArrivalEff site record))

/-- TRACE_RECORD_WRITE (R251). -/
def execTraceRecordWrite (s : State) : Host.Outcome State Fault Refusal := .next (s.on traceWriteEff)

/-- TRC_RING_CTL_WRITE (R252). -/
def execTrcRingCtlWrite (ring : Nat) (value : Word) (s : State) : Host.Outcome State Fault Refusal := .next (s.on (ringCtlEff ring value))

end Sys2Proof.Machine
end

