-- ==== Sys2Proof/Machine/CoherenceCommands.lean ====
section
/-!
DEFINITION. Meanings of commands: coherence. Each is its operation on the package, by the rule that its row of the table names.
-/

namespace Sys2Proof.Machine

/-- RD_SHARED (R170). -/
def execRdShared (bough line retry : Nat) (err : ArrayErr) (s : State) : Host.Outcome State Fault Refusal :=
  .next (s.on (arrive (requestPacket ⟨.rdShared, .bough bough, line, retry, 0, 0⟩) (homeErrorEff bough line retry err)))

/-- RD_UNIQUE (R170). -/
def execRdUnique (bough line retry : Nat) (s : State) : Host.Outcome State Fault Refusal :=
  .next (s.on (arrive (requestPacket ⟨.rdUnique, .bough bough, line, retry, 0, 0⟩) (cohRequestEff .rdUnique (.bough bough) line retry 0 0)))

/-- UPGRADE (R170). -/
def execUpgrade (bough line retry : Nat) (s : State) : Host.Outcome State Fault Refusal :=
  .next (s.on (arrive (requestPacket ⟨.upgrade, .bough bough, line, retry, 0, 0⟩) (cohRequestEff .upgrade (.bough bough) line retry 0 0)))

/-- CLAIM (R170). -/
def execClaim (bough line retry : Nat) (s : State) : Host.Outcome State Fault Refusal :=
  .next (s.on (arrive (requestPacket ⟨.claim, .bough bough, line, retry, 0, 0⟩) (cohRequestEff .claim (.bough bough) line retry 0 0)))

/-- RD_NOALLOC (R170). -/
def execRdNoalloc (src : CohReq) (line : Nat) (s : State) : Host.Outcome State Fault Refusal :=
  .next (s.on (arrive (requestPacket ⟨.rdNoalloc, src, line, 0, 0, 0⟩) (cohRequestEff .rdNoalloc src line 0 0 0)))

/-- WR_FULL (R170). -/
def execWrFull (src : CohReq) (line : Nat) (data : Line) (s : State) : Host.Outcome State Fault Refusal :=
  .next (s.on (arrive (requestPacket ⟨.wrFull, src, line, 0, 0, data⟩) (cohRequestEff .wrFull src line 0 0 data)))

/-- WR_PARTIAL (R170). -/
def execWrPartial (src : CohReq) (line : Nat) (mask : Word) (data : Line) (s : State) : Host.Outcome State Fault Refusal :=
  .next (s.on (arrive (requestPacket ⟨.wrPartial, src, line, 0, mask.toNat, data⟩) (cohRequestEff .wrPartial src line 0 mask.toNat data)))

/-- COMP_ACK (R171). -/
def execCompAck (bough line : Nat) (s : State) : Host.Outcome State Fault Refusal :=
  .next (s.on (arrive (.compAck bough line)
    (compAckEff bough line)))

/-- SNP_RSP (R170). -/
def execSnpRsp (bough line : Nat) (ans : SnpAns) (data : LineData) (s : State) : Host.Outcome State Fault Refusal :=
  .next (s.on (arrive (.snpRsp bough line ans data) (snpRspEff bough line ans data)))

/-- WB_DIRTY (R175). -/
def execWbDirty (bough line : Nat) (owned : Bool) (epoch : Nat) (data : LineData) (s : State) : Host.Outcome State Fault Refusal :=
  .next (s.on (arrive (.wb bough line owned epoch data) (wbDirtyEff bough line owned epoch data)))

/-- SNP_SHARED (R172). -/
def execSnpShared (bough line : Nat) (fwd : Option Nat) (s : State) : Host.Outcome State Fault Refusal :=
  .next (s.on (arrive (.snoop .shared bough line fwd) (snoopEff .shared bough line fwd)))

/-- SNP_UNIQUE (R172). -/
def execSnpUnique (bough line : Nat) (fwd : Option Nat) (s : State) : Host.Outcome State Fault Refusal :=
  .next (s.on (arrive (.snoop .unique bough line fwd) (snoopEff .unique bough line fwd)))

/-- SNP_INV (R172). -/
def execSnpInv (bough line : Nat) (s : State) : Host.Outcome State Fault Refusal :=
  .next (s.on (arrive (.snoop .inv bough line none)
    (snoopEff .inv bough line none)))

/-- SNP_CURRENT (R172). -/
def execSnpCurrent (bough line : Nat) (s : State) : Host.Outcome State Fault Refusal :=
  .next (s.on (arrive (.snoop .current bough line none)
    (snoopEff .current bough line none)))

/-- DATA (R171). -/
def execData (dst : CohReq) (line : Nat) (grant : Grant) (epoch : Nat) (data : LineData) (s : State) : Host.Outcome State Fault Refusal :=
  .next (s.on (arrive (.data dst line grant epoch data) (dataEff dst line grant epoch data)))

/-- DATA_FWD (R171). -/
def execDataFwd (bough line : Nat) (grant : Grant) (data : LineData) (s : State) : Host.Outcome State Fault Refusal :=
  .next (s.on (arrive (.dataFwd bough line grant data) (dataFwdEff bough line grant data)))

/-- GRANT (R171). -/
def execGrant (bough line : Nat) (grant : Grant × Bool) (epoch : Nat) (s : State) : Host.Outcome State Fault Refusal :=
  .next (s.on (arrive (.grant bough line grant.1 epoch grant.2) (grantEff bough line grant.1 epoch grant.2)))

/-- NACK_RETRY (R178). -/
def execNackRetry (bough line hint : Nat) (s : State) : Host.Outcome State Fault Refusal :=
  .next (s.on (arrive (.nack bough line hint)
    (nackEff bough line hint)))

/-- NACK_RETRY_RESEND (R178). -/
def execNackRetryResend (bough line : Nat) (s : State) : Host.Outcome State Fault Refusal := .next (s.on (nackResendEff bough line))

/-- WR_COMP (R174). -/
def execWrComp (dst : CohReq) (line : Nat) (poisoned : Bool) (s : State) : Host.Outcome State Fault Refusal :=
  .next (s.on (arrive (.wrComp dst line poisoned) (wrCompleteEff dst line poisoned)))

/-- WB_ACK (R176). -/
def execWbAck (bough line : Nat) (ok : Bool) (s : State) : Host.Outcome State Fault Refusal :=
  .next (s.on (arrive (.wbAck bough line ok) (wbAckGoEff bough line ok)))

/-- HOME_TIMEOUT (R181). -/
def execHomeTimeout (bough line : Nat) (s : State) : Host.Outcome State Fault Refusal := .next (s.on (homeTimeoutEff bough line))

/-- DIR_PURGE_GO (R183). -/
def execDirPurgeGo (q : Nat) (s : State) : Host.Outcome State Fault Refusal := .next (s.on (dirPurgeEff q))

/-- PURGE_DONE (R183). -/
def execPurgeDone (q : Nat) (s : State) : Host.Outcome State Fault Refusal := .next (s.on (purgeGoEff q))

end Sys2Proof.Machine
end

