-- ==== Sys2Proof/Machine/DramCommands.lean ====
section
/-!
DEFINITION. Meanings of commands: the memory controller. Each is its operation on the package, by the rule that its row of the table names.
-/

namespace Sys2Proof.Machine

/-- MEM_SCHEDULE (R269). -/
def execMemSchedule (channel lines : Nat) (s : State) : Host.Outcome State Fault Refusal := .next (s.on (memScheduleGoEff channel lines))

/-- REFRESH_DUE (R271). -/
def execRefreshDue (channel rank : Nat) (s : State) : Host.Outcome State Fault Refusal := .next (s.on (refreshDueEff channel rank))

/-- DRAM_TEMP_POLL (R271). -/
def execDramTempPoll (channel tempC : Nat) (s : State) : Host.Outcome State Fault Refusal := .next (s.on (tempPollEff channel tempC))

/-- DRIFT_TRACK (R273). -/
def execDriftTrack (channel : Nat) (s : State) : Host.Outcome State Fault Refusal := .next (s.on (driftEff channel))

/-- MEM_TRAINING_DONE (R272). -/
def execMemTrainingDone (channel : Nat) (res : MemTrain) (s : State) : Host.Outcome State Fault Refusal :=
  .next (s.on (memTrainedGoEff channel res))

/-- MEM_TRAIN_REQUEST (R274). -/
def execMemTrainRequest (channel : Nat) (s : State) : Host.Outcome State Fault Refusal := .next (s.on (memTrainRequestEff channel))

/-- MEM_SWEEP_START (R274). -/
def execMemSweepStart (channel : Nat) (s : State) : Host.Outcome State Fault Refusal := .next (s.on (memSweepStartEff channel))

/-- MEM_SWEEP_DONE (R274). -/
def execMemSweepDone (channel cause : Nat) (s : State) : Host.Outcome State Fault Refusal := .next (s.on (memSweepGoEff channel cause))

/-- MEM_REINIT (R277). -/
def execMemReinit (channel : Nat) (s : State) : Host.Outcome State Fault Refusal := .next (s.on (memReinitEff channel))

/-- MEM_REINIT_DONE (R277). -/
def execMemReinitDone (channel : Nat) (ok : Bool) (s : State) : Host.Outcome State Fault Refusal :=
  .next (s.on (memReinitDoneEff channel ok))

/-- MEM_QUIESCE (R275). -/
def execMemQuiesce (channel : Nat) (on : Bool) (s : State) : Host.Outcome State Fault Refusal := .next (s.on (memQuiesceEff channel on))

/-- MEM_BIST (R275). -/
def execMemBist (channel : Nat) (all : Bool) (rank : Nat) (s : State) : Host.Outcome State Fault Refusal :=
  .next (s.on (memBistEff channel all rank))

/-- MEM_BIST_DONE (R275). -/
def execMemBistDone (channel : Nat) (pass : Bool) (s : State) : Host.Outcome State Fault Refusal :=
  .next (s.on (memBistDoneEff channel pass))

/-- DRAM_READ_RETURN (R279). -/
def execDramReadReturn (channel : Nat) (ecc : EccOutcome) (device : Nat) (s : State) : Host.Outcome State Fault Refusal :=
  .next (s.on (dramReadGoEff channel ecc device))

/-- PATROL_SCRUB (R281). -/
def execPatrolScrub (channel ca : Nat) (ecc : EccOutcome) (device : Nat) (s : State) : Host.Outcome State Fault Refusal :=
  .next (s.on (patrolEff channel ca ecc device))

/-- CE_WINDOW (R282). -/
def execCeWindow (channel : Nat) (s : State) : Host.Outcome State Fault Refusal := .next (s.on (ceWindowEff channel))

end Sys2Proof.Machine
end

