-- ==== Sys2Proof/Machine/EngineCommands.lean ====
section
/-!
DEFINITION. Meanings of commands: evaluation engines. Each is its operation on the package, by the rule that its row of the table names.
-/

namespace Sys2Proof.Machine

/-- NOP (R92). -/
def execNop (leaf : Nat) (err : EngErr) (s : State) : Host.Outcome State Fault Refusal := .next (s.on (nopEff leaf err))

/-- EVAL (R91). -/
def execEval (leaf : Nat) (err : EngErr) (s : State) : Host.Outcome State Fault Refusal := .next (s.on (evalEff leaf err))

/-- EVALM (R93). -/
def execEvalm (leaf : Nat) (err : EngErr) (s : State) : Host.Outcome State Fault Refusal := .next (s.on (evalmEff leaf err))

/-- MUX (R94). -/
def execMux (leaf : Nat) (err : EngErr) (s : State) : Host.Outcome State Fault Refusal := .next (s.on (muxEff leaf err))

/-- COPY (R94). -/
def execCopy (leaf : Nat) (err : EngErr) (s : State) : Host.Outcome State Fault Refusal := .next (s.on (copyEff leaf err))

/-- MEMRD (R96). -/
def execMemrd (leaf : Nat) (err : EngErr) (s : State) : Host.Outcome State Fault Refusal := .next (s.on (leeThen leaf (memrdEff leaf err)))

/-- MEMRD_DATA_RETURN (R97). -/
def execMemrdDataReturn (leaf lane : Nat) (s : State) : Host.Outcome State Fault Refusal :=
  .next (s.on (leeReturn leaf (memrdReturnEff leaf lane)))

/-- MEMWR (R96). -/
def execMemwr (leaf : Nat) (err : EngErr) (s : State) : Host.Outcome State Fault Refusal := .next (s.on (leeThen leaf (memwrEff leaf err)))

/-- SEND (R98). -/
def execSend (leaf : Nat) (err : EngErr) (s : State) : Host.Outcome State Fault Refusal := .next (s.on (sendEff leaf err))

/-- WAIT (R124). -/
def execWait (leaf : Nat) (err : EngErr) (s : State) : Host.Outcome State Fault Refusal := .next (s.on (waitEff leaf err))

/-- WAIT_COMPLETE (R124). -/
def execWaitComplete (leaf : Nat) (s : State) : Host.Outcome State Fault Refusal := .next (s.on (waitCompleteEff leaf))

/-- STIM (R100). -/
def execStim (leaf : Nat) (err : EngErr) (s : State) : Host.Outcome State Fault Refusal := .next (s.on (leeThen leaf (stimEff leaf err)))

/-- STIM_PREFETCH_RETURN (R100). -/
def execStimPrefetchReturn (leaf entry line : Nat) (s : State) : Host.Outcome State Fault Refusal :=
  .next (s.on (leeReturn leaf (stimReturnEff leaf entry line)))

/-- OBSERVE (R101). -/
def execObserve (leaf : Nat) (err : EngErr) (s : State) : Host.Outcome State Fault Refusal := .next (s.on (observeEff leaf err))

/-- OBSERVE_EMIT (R248). -/
def execObserveEmit (leaf : Nat) (s : State) : Host.Outcome State Fault Refusal := .next (s.on (observeEmitEff leaf))

/-- COMMIT (R86). -/
def execCommit (leaf : Nat) (err : EngErr) (s : State) : Host.Outcome State Fault Refusal := .next (s.on (commitEff leaf err))

/-- BARRIER (R127). -/
def execBarrier (leaf : Nat) (err : EngErr) (s : State) : Host.Outcome State Fault Refusal := .next (s.on (barrierEff leaf err))

/-- TRAP (R103). -/
def execTrap (leaf : Nat) (err : EngErr) (s : State) : Host.Outcome State Fault Refusal := .next (s.on (trapEff leaf err))

/-- TRAP_DRAINED (R103). -/
def execTrapDrained (leaf : Nat) (s : State) : Host.Outcome State Fault Refusal := .next (s.on (trapDrainedEff leaf))

/-- HALT (R104). -/
def execHalt (leaf : Nat) (err : EngErr) (s : State) : Host.Outcome State Fault Refusal := .next (s.on (haltEff leaf err))

/-- HALT_DRAINED (R104). -/
def execHaltDrained (leaf : Nat) (s : State) : Host.Outcome State Fault Refusal := .next (s.on (haltDrainedEff leaf))

/-- JUMP (R105). -/
def execJump (leaf : Nat) (err : EngErr) (s : State) : Host.Outcome State Fault Refusal := .next (s.on (jumpEff leaf err))

/-- LOOP (R105). -/
def execLoop (leaf : Nat) (err : EngErr) (s : State) : Host.Outcome State Fault Refusal := .next (s.on (loopEff leaf err))

/-- LEE_LATE_FAULT (R111). -/
def execLeeLateFault (leaf back : Nat) (cause : LateCause) (info : Nat) (s : State) : Host.Outcome State Fault Refusal :=
  .next (s.on (leeLateFaultEff leaf back cause info))

end Sys2Proof.Machine
end

