-- ==== Sys2Proof/Machine/EnginesCommands.lean ====
section
/-!
DEFINITION. Meanings of commands: bulk engines. Each is its operation on the package, by the rule that its row of the table names.
-/

namespace Sys2Proof.Machine

/-- BIND (R313). -/
def execBind (pasid qlog2 : Nat) (s : State) : Host.Outcome State Fault Refusal := .next (s.on (bindEff pasid qlog2))

/-- UNBIND (R313). -/
def execUnbind (slice : Nat) (s : State) : Host.Outcome State Fault Refusal := .next (s.on (unbindEff slice))

/-- QUEUE_ENABLE (R316). -/
def execQueueEnable (slice queue : Nat) (s : State) : Host.Outcome State Fault Refusal := .next (s.on (queueEnableEff slice queue))

/-- QUEUE_DISABLE (R316). -/
def execQueueDisable (slice queue : Nat) (s : State) : Host.Outcome State Fault Refusal := .next (s.on (queueDisableEff slice queue))

/-- DB_TAIL_WRITE (R317). -/
def execDbTailWrite (slice queue tail : Nat) (s : State) : Host.Outcome State Fault Refusal := .next (s.on (dbTailEff slice queue tail))

/-- DESCRIPTOR_FETCH (R320). -/
def execDescriptorFetch (slice queue : Nat) (s : State) : Host.Outcome State Fault Refusal := .next (s.on (descriptorFetchEff slice queue))

/-- CHUNK_DISPATCH (R324). -/
def execChunkDispatch (engine : Nat) (s : State) : Host.Outcome State Fault Refusal := .next (s.on (chunkDispatchEff engine))

/-- CHUNK_COMPLETE (R311). -/
def execChunkComplete (engine : Nat) (s : State) : Host.Outcome State Fault Refusal := .next (s.on (chunkCompleteEff engine))

/-- EPOCH_BOUNDARY (R324). -/
def execEpochBoundary (s : State) : Host.Outcome State Fault Refusal := .next (s.on epochEff)

/-- RCOPY_TIMEOUT (R327). -/
def execRcopyTimeout (ctag : Nat) (s : State) : Host.Outcome State Fault Refusal := .next (s.on (rcopyTimeoutEff ctag))

/-- SLICE_RESET (R328). -/
def execSliceReset (slice : Nat) (s : State) : Host.Outcome State Fault Refusal := .next (s.on (sliceResetEff slice))

/-- SLICE_RESET_ESCALATE (R329). -/
def execSliceResetEscalate (slice : Nat) (s : State) : Host.Outcome State Fault Refusal := .next (s.on (sliceEscalateEff slice))

/-- ENGINE_DISABLE (R330). -/
def execEngineDisable (engine : Nat) (s : State) : Host.Outcome State Fault Refusal := .next (s.on (engineDisableEff engine))

/-- ENGINE_ENABLE (R330). -/
def execEngineEnable (engine : Nat) (s : State) : Host.Outcome State Fault Refusal := .next (s.on (engineEnableEff engine))

/-- ENGINE_REINIT (R330). -/
def execEngineReinit (engine : Nat) (s : State) : Host.Outcome State Fault Refusal := .next (s.on (engineReinitEff engine))

end Sys2Proof.Machine
end

