-- ==== Sys2Proof/Machine/FaultCommands.lean ====
section
/-!
DEFINITION. Meanings of commands: array protection and faults. Each is its operation on the package, by the rule that its row of the table names.
-/

namespace Sys2Proof.Machine

/-- EVENT_RECEIVE (R344). -/
def execEventReceive (source count : Nat) (info : EvInfo) (s : State) : Host.Outcome State Fault Refusal :=
  .next (s.on (eventReceiveEff source count info))

/-- EVC_MSI_COMPLETE (R343). -/
def execEvcMsiComplete (source : Nat) (s : State) : Host.Outcome State Fault Refusal := .next (s.on (evcMsiCompleteEff source))

/-- EVC_SEV_CLEAR (R346). -/
def execEvcSevClear (word : Nat) (mask : Word) (s : State) : Host.Outcome State Fault Refusal := .next (s.on (sevClearEff word mask))

/-- FAULT_PIN_PULSE_END (R349). -/
def execFaultPinPulseEnd (s : State) : Host.Outcome State Fault Refusal := .next (s.on pulseEndEff)

/-- EVC_SAFE_GO (R353). -/
def execEvcSafeGo (req : Requester) (s : State) : Host.Outcome State Fault Refusal := .next (s.on (evcSafeEff req))

/-- CMP_WIRE_FAULT (R351). -/
def execCmpWireFault (input : Nat) (s : State) : Host.Outcome State Fault Refusal := .next (s.on (cmpWireEff input))

/-- CMP_PARITY_FAULT (R352). -/
def execCmpParityFault (reg : Nat) (s : State) : Host.Outcome State Fault Refusal := .next (s.on (cmpParityEff reg))

/-- REMAP_WRITE (R337). -/
def execRemapWrite (table : RemapTable) (entry : Nat) (value : Word) (s : State) : Host.Outcome State Fault Refusal :=
  .next (s.on (remapWriteEff table entry value))

/-- STORE_BIST (R341). -/
def execStoreBist (site leafIdx : Nat) (s : State) : Host.Outcome State Fault Refusal := .next (s.on (storeBistEff site leafIdx))

/-- STORE_BIST_DONE (R341). -/
def execStoreBistDone (site : Nat) (fail : Option Nat) (s : State) : Host.Outcome State Fault Refusal :=
  .next (s.on (storeBistDoneEff site fail))

end Sys2Proof.Machine
end

