-- ==== Sys2Proof/Machine/HostIoCommands.lean ====
section
/-!
DEFINITION. Meanings of commands: host I/O. Each is its operation on the package, by the rule that its row of the table names.
-/

namespace Sys2Proof.Machine

/-- INTX_MESSAGE (R284). -/
def execIntxMessage (port : Nat) (s : State) : Host.Outcome State Fault Refusal := .next (s.on (intxEff port))

/-- MMIO_COMPLETION_TIMEOUT (R286). -/
def execMmioCompletionTimeout (rp : Nat) (s : State) : Host.Outcome State Fault Refusal := .next (s.on (mmioTimeoutEff rp))

/-- DPC_TRIGGER (R287). -/
def execDpcTrigger (rp : Nat) (s : State) : Host.Outcome State Fault Refusal := .next (s.on (dpcEff rp))

/-- AER_ERROR_MESSAGE (R287). -/
def execAerErrorMessage (rp : Nat) (s : State) : Host.Outcome State Fault Refusal := .next (s.on (aerEff rp))

/-- HIO_RP_CFG_WRITE (R283). -/
def execHioRpCfgWrite (port : Nat) (value : Word) (s : State) : Host.Outcome State Fault Refusal := .next (s.on (hioCfgEff port value))

/-- ROOT_PORT_LINK_UP (R284). -/
def execRootPortLinkUp (rp : Nat) (s : State) : Host.Outcome State Fault Refusal := .next (s.on (linkUpEff rp))

/-- ROOT_PORT_LINK_DOWN (R291). -/
def execRootPortLinkDown (rp : Nat) (s : State) : Host.Outcome State Fault Refusal := .next (s.on (linkDownEff rp))

/-- CXL_RANGE_ENABLE (R289). -/
def execCxlRangeEnable (port : Nat) (s : State) : Host.Outcome State Fault Refusal := .next (s.on (cxlEnableEff port))

/-- CXL_RANGE_CLOSE (R290). -/
def execCxlRangeClose (port : Nat) (s : State) : Host.Outcome State Fault Refusal := .next (s.on (cxlCloseEff port))

/-- CXL_CLOSE_DONE (R290). -/
def execCxlCloseDone (port : Nat) (s : State) : Host.Outcome State Fault Refusal := .next (s.on (cxlCloseDoneEff port))

/-- CXL_MEM_RESPONSE (R291). -/
def execCxlMemResponse (port : Nat) (poison : Bool) (s : State) : Host.Outcome State Fault Refusal :=
  .next (s.on (cxlResponseEff port poison))

/-- CXL_MEM_TIMEOUT (R291). -/
def execCxlMemTimeout (port : Nat) (s : State) : Host.Outcome State Fault Refusal := .next (s.on (cxlTimeoutEff port))

end Sys2Proof.Machine
end

