-- ==== Sys2Proof/Machine/L3Commands.lean ====
section
/-!
DEFINITION. Meanings of commands: caches. Each is its operation on the package, by the rule that its row of the table names.
-/

namespace Sys2Proof.Machine

/-- PRELOAD_AND_LOCK (R152). -/
def execPreloadAndLock (site ways : Nat) (s : State) : Host.Outcome State Fault Refusal := .next (s.on (preloadLockEff site ways))

/-- LOCK_LINE_FETCH_RETURN (R153). -/
def execLockLineFetchReturn (site : Nat) (s : State) : Host.Outcome State Fault Refusal := .next (s.on (lockFetchEff site))

/-- UNLOCK (R157). -/
def execUnlock (site ways : Nat) (s : State) : Host.Outcome State Fault Refusal := .next (s.on (unlockEff site ways))

/-- L3_DISABLE (R158). -/
def execL3Disable (site : Nat) (s : State) : Host.Outcome State Fault Refusal := .next (s.on (l3DisableEff site))

/-- L3_ENABLE (R160). -/
def execL3Enable (site : Nat) (s : State) : Host.Outcome State Fault Refusal := .next (s.on (l3EnableEff site))

/-- L3_ENABLE_DONE (R160). -/
def execL3EnableDone (site : Nat) (s : State) : Host.Outcome State Fault Refusal := .next (s.on (l3EnableDoneEff site))

end Sys2Proof.Machine
end

