-- ==== Sys2Proof/Machine/LeafCommands.lean ====
section
/-!
DEFINITION. Meanings of commands: leaf cores. Each is its operation on the package, by the rule that its row of the table names.
-/

namespace Sys2Proof.Machine

/-- LEAF_LOAD_STORE (R60). -/
def execLeafLoadStore (hart : Nat) (acc : LeafAccess) (err : AccessErr) (s : State) : Host.Outcome State Fault Refusal :=
  .next (s.on (leafMemoryEff hart acc err))

/-- MISS_RESPONSE_RETURN (R68). -/
def execMissResponseReturn (hart addr : Nat) (s : State) : Host.Outcome State Fault Refusal := .next (s.on (missReturnEff hart addr))

/-- CBO_ZERO (R161). -/
def execCboZero (hart addr : Nat) (s : State) : Host.Outcome State Fault Refusal := .next (s.on (cboZeroEff hart addr))

/-- PREFETCH (R69). -/
def execPrefetch (hart : Nat) (kind : PrefetchKind) (addr : Nat) (s : State) : Host.Outcome State Fault Refusal :=
  .next (s.on (prefetchEff hart kind addr))

/-- FENCE_I (R61). -/
def execFenceI (hart : Nat) (s : State) : Host.Outcome State Fault Refusal := .next (s.on (fenceIEff hart))

/-- WFI (R360). -/
def execWfi (hart : Nat) (s : State) : Host.Outcome State Fault Refusal := .next (s.on (wfiEff hart))

/-- MNRET (R72). -/
def execMnret (hart : Nat) (s : State) : Host.Outcome State Fault Refusal := .next (s.on (mnretEff hart))

/-- MTIMECMP_WRITE (R67). -/
def execMtimecmpWrite (hart : Nat) (cmp : TimerCmp) (value : Word) (s : State) : Host.Outcome State Fault Refusal :=
  .next (s.on (timerWriteEff hart cmp value))

/-- TIMER_COMPARE_MATCH (R67). -/
def execTimerCompareMatch (hart : Nat) (cmp : TimerCmp) (s : State) : Host.Outcome State Fault Refusal :=
  .next (s.on (timerMatchEff hart cmp))

/-- MSI_WRITE (R65). -/
def execMsiWrite (hart file identity : Nat) (s : State) : Host.Outcome State Fault Refusal :=
  .next (s.on (arrive (.msi hart file identity)
    (msiGoEff hart file identity)))

/-- LEAF_INSTRUCTION (R55). -/
def execLeafInstruction (hart : Nat) (insn : LeafInsn) (err : LeafErr) (s : State) : Host.Outcome State Fault Refusal :=
  .next (s.on (leafInsnEff hart insn err))

/-- LOCAL_COUNTER_OVERFLOW (R58). -/
def execLocalCounterOverflow (hart counter : Nat) (s : State) : Host.Outcome State Fault Refusal :=
  .next (s.on (counterOverflowEff hart counter))

end Sys2Proof.Machine
end

