-- ==== Sys2Proof/Machine/LinkCommands.lean ====
section
/-!
DEFINITION. Meanings of commands: grafts and span links. Each is its operation on the package, by the rule that its row of the table names.
-/

namespace Sys2Proof.Machine

/-- FLIT_RECEIVE (R211). -/
def execFlitReceive (g : GraftEnd) (flit : BitVec 512) (s : State) : Host.Outcome State Fault Refusal :=
  .next (s.on (flitReceiveEff g flit))

/-- CTRL_RETRY (R216). -/
def execCtrlRetry (g : GraftEnd) (seq : Nat) (s : State) : Host.Outcome State Fault Refusal := .next (s.on (ctrlRetryEff g seq))

/-- GRAFT_TRAINING_DONE (R218). -/
def execGraftTrainingDone (g : GraftId) (res : TrainResult) (s : State) : Host.Outcome State Fault Refusal :=
  .next (s.on (graftTrainedEff g res))

/-- GRAFT_TRAINING_TIMEOUT (R218). -/
def execGraftTrainingTimeout (g : GraftId) (s : State) : Host.Outcome State Fault Refusal := .next (s.on (graftTimeoutEff g))

/-- GRAFT_FAST_RETRAIN (R219). -/
def execGraftFastRetrain (g : GraftId) (res : TrainResult) (s : State) : Host.Outcome State Fault Refusal :=
  .next (s.on (graftRetrainEff g res))

/-- LANE_ERROR_WINDOW (R220). -/
def execLaneErrorWindow (g : GraftEnd) (s : State) : Host.Outcome State Fault Refusal := .next (s.on (laneWindowEff g))

/-- CTRL_REPAIR (R221). -/
def execCtrlRepair (g : GraftEnd) (s : State) : Host.Outcome State Fault Refusal := .next (s.on (ctrlRepairEff g))

/-- GRF_LANE_MASK_WRITE (R226). -/
def execGrfLaneMaskWrite (g : GraftEnd) (k : Nat) (value : Word) (s : State) : Host.Outcome State Fault Refusal :=
  .next (s.on (laneMaskEff g k value))

/-- GRAFT_LANE_LOSS_OF_LOCK (R220). -/
def execGraftLaneLossOfLock (g : GraftEnd) (lane : Nat) (s : State) : Host.Outcome State Fault Refusal := .next (s.on (laneLossEff g lane))

/-- DELAY_PROBE_RETURN (R241). -/
def execDelayProbeReturn (site t4 turn : Nat) (s : State) : Host.Outcome State Fault Refusal := .next (s.on (delayProbeEff site t4 turn))

/-- SPAN_FLIT_RECEIVE (R229). -/
def execSpanFlitReceive (port : Nat) (flit : BitVec 1024) (codewords : List SpanCodeword) (s : State) :
    Host.Outcome State Fault Refusal :=
  .next (s.on (spanFlitEff port flit codewords))

/-- SPAN_LOCK_ACQUIRED (R236). -/
def execSpanLockAcquired (port : Nat) (locked : List (Nat × Nat)) (s : State) : Host.Outcome State Fault Refusal :=
  .next (s.on (spanLockEff port locked))

/-- HELLO (R233). -/
def execHello (port pkg peerPort beh rtt : Nat) (s : State) : Host.Outcome State Fault Refusal :=
  .next (s.on (helloEff port pkg peerPort beh rtt))

/-- CREDIT_INIT (R236). -/
def execCreditInit (port : Nat) (s : State) : Host.Outcome State Fault Refusal := .next (s.on (creditInitEff port))

/-- KEEPALIVE (R237). -/
def execKeepalive (port : Nat) (s : State) : Host.Outcome State Fault Refusal := .next (s.on (keepaliveEff port))

/-- KEEPALIVE_PERIOD (R237). -/
def execKeepalivePeriod (port : Nat) (s : State) : Host.Outcome State Fault Refusal := .next (s.on (keepalivePeriodEff port))

/-- KEEPALIVE_TIMEOUT (R237). -/
def execKeepaliveTimeout (port : Nat) (s : State) : Host.Outcome State Fault Refusal := .next (s.on (keepaliveTimeoutEff port))

/-- SPAN_LOSS_OF_LOCK (R237). -/
def execSpanLossOfLock (port : Nat) (s : State) : Host.Outcome State Fault Refusal := .next (s.on (spanLossEff port))

/-- SPAN_RETRAIN (R236). -/
def execSpanRetrain (port : Nat) (s : State) : Host.Outcome State Fault Refusal := .next (s.on (spanRetrainEff port))

/-- BARRIER_TOKEN (R128). -/
def execBarrierToken (port group gen8 : Nat) (s : State) : Host.Outcome State Fault Refusal :=
  .next (s.on (barrierTokenEff port group gen8))

/-- XCH_WINDOW_REMOTE (R232). -/
def execXchWindowRemote (port : Nat) (pkt : SpanWindow) (s : State) : Host.Outcome State Fault Refusal :=
  .next (s.on (xchWindowRemoteEff port pkt))

/-- XCH_ACK_REMOTE (R232). -/
def execXchAckRemote (port spkg dpkg ttl tag : Nat) (outcome : XchOutcome) (s : State) : Host.Outcome State Fault Refusal :=
  .next (s.on (xchAckRemoteEff port spkg dpkg ttl tag outcome))

/-- REMOTE_SEND_TIMEOUT (R232). -/
def execRemoteSendTimeout (tag : Nat) (s : State) : Host.Outcome State Fault Refusal := .next (s.on (remoteSendTimeoutEff tag))

/-- RCOPY_WRITE (R327). -/
def execRcopyWrite (port : Nat) (pkt : RcopyPkt) (s : State) : Host.Outcome State Fault Refusal := .next (s.on (rcopyWriteEff port pkt))

/-- RCOPY_ACK (R327). -/
def execRcopyAck (port spkg dpkg ttl ctag : Nat) (access : Bool) (s : State) : Host.Outcome State Fault Refusal :=
  .next (s.on (rcopyAckEff port spkg dpkg ttl ctag access))

end Sys2Proof.Machine
end

