-- ==== Sys2Proof/Machine/ManagementCommands.lean ====
section
/-!
DEFINITION. Meanings of commands: management and security. Each is its operation on the package, by the rule that its row of the table names.
-/

namespace Sys2Proof.Machine

/-- SI_STAGE_BEGIN (R49). -/
def execSiStageBegin (port : CmdPort) (kind : PartKind) (s : State) : Host.Outcome State Fault Refusal :=
  .next (s.on (siStageBeginEff port kind))

/-- SI_STAGE_WRITE (R49). -/
def execSiStageWrite (port : CmdPort) (offset : Nat) (bytes : List Byte) (s : State) : Host.Outcome State Fault Refusal :=
  .next (s.on (siStageWriteEff port offset bytes))

/-- SI_STAGE_CHECK (R49). -/
def execSiStageCheck (port : CmdPort) (s : State) : Host.Outcome State Fault Refusal := .next (s.on (siStageCheckEff port))

/-- SI_STAGE_ABORT (R49). -/
def execSiStageAbort (port : CmdPort) (s : State) : Host.Outcome State Fault Refusal := .next (s.on (siStageAbortEff port))

/-- SI_COMMIT (R49). -/
def execSiCommit (port : CmdPort) (trials : Nat) (s : State) : Host.Outcome State Fault Refusal := .next (s.on (siCommitEff port trials))

/-- SI_CONFIRM (R49). -/
def execSiConfirm (port : CmdPort) (kind : PartKind) (s : State) : Host.Outcome State Fault Refusal := .next (s.on (siConfirmEff port kind))

/-- SI_ADVANCE_FLOOR (R49). -/
def execSiAdvanceFloor (port : CmdPort) (kind : PartKind) (s : State) : Host.Outcome State Fault Refusal :=
  .next (s.on (siAdvanceFloorEff port kind))

/-- SI_ENROL_KEY (R52). -/
def execSiEnrolKey (port : CmdPort) (obj : List Byte) (s : State) : Host.Outcome State Fault Refusal := .next (s.on (siEnrolEff port obj))

/-- SI_REVOKE_KEY (R53). -/
def execSiRevokeKey (port : CmdPort) (obj : List Byte) (s : State) : Host.Outcome State Fault Refusal := .next (s.on (siRevokeEff port obj))

/-- SESSION_TIMEOUT (R49). -/
def execSessionTimeout (s : State) : Host.Outcome State Fault Refusal := .next (s.on sessionTimeoutEff)

/-- FLASH_BACKGROUND_DONE (R386). -/
def execFlashBackgroundDone (s : State) : Host.Outcome State Fault Refusal := .next (s.on flashDoneEff)

/-- INFO (R385). -/
def execInfo (port : CmdPort) (s : State) : Host.Outcome State Fault Refusal := .next (s.on (infoEff port))

/-- TELEMETRY (R385). -/
def execTelemetry (port : CmdPort) (s : State) : Host.Outcome State Fault Refusal := .next (s.on (telemetryEff port))

/-- REG_READ (R385). -/
def execRegRead (port : CmdPort) (addr n : Nat) (s : State) : Host.Outcome State Fault Refusal := .next (s.on (regReadCmdEff port addr n))

/-- PKG_STANDBY (R385). -/
def execPkgStandby (port : CmdPort) (s : State) : Host.Outcome State Fault Refusal := .next (s.on (pkgStandbyEff port))

/-- PKG_SLEEP (R385). -/
def execPkgSleep (port : CmdPort) (cmp : Nat) (s : State) : Host.Outcome State Fault Refusal := .next (s.on (pkgSleepEff port cmp))

/-- PKG_WAKE (R385). -/
def execPkgWake (port : CmdPort) (s : State) : Host.Outcome State Fault Refusal := .next (s.on (pkgWakeEff port))

/-- RESET_WARM (R385). -/
def execResetWarm (port : CmdPort) (s : State) : Host.Outcome State Fault Refusal := .next (s.on (resetWarmEff port))

/-- RESET_UNIT (R385). -/
def execResetUnit (port : CmdPort) (op target : Nat) (s : State) : Host.Outcome State Fault Refusal :=
  .next (s.on (resetUnitEff port op target))

/-- ENTER_SAFE (R385). -/
def execEnterSafe (port : CmdPort) (s : State) : Host.Outcome State Fault Refusal := .next (s.on (enterSafeEff port))

/-- SEV_CLEAR (R385). -/
def execSevClear (port : CmdPort) (word : Nat) (mask : Word) (s : State) : Host.Outcome State Fault Refusal :=
  .next (s.on (sevClearCmdEff port word mask))

/-- FW_STAGE_BEGIN (R385). -/
def execFwStageBegin (port : CmdPort) (s : State) : Host.Outcome State Fault Refusal := .next (s.on (fwStageBeginEff port))

/-- FW_STAGE_WRITE (R385). -/
def execFwStageWrite (port : CmdPort) (offset : Nat) (bytes : List Byte) (s : State) : Host.Outcome State Fault Refusal :=
  .next (s.on (fwStageWriteEff port offset bytes))

/-- FW_STAGE_CHECK (R385). -/
def execFwStageCheck (port : CmdPort) (s : State) : Host.Outcome State Fault Refusal := .next (s.on (fwStageCheckEff port))

/-- FW_STAGE_ABORT (R385). -/
def execFwStageAbort (port : CmdPort) (s : State) : Host.Outcome State Fault Refusal := .next (s.on (fwStageAbortEff port))

/-- FW_REVERT (R385). -/
def execFwRevert (port : CmdPort) (s : State) : Host.Outcome State Fault Refusal := .next (s.on (fwRevertEff port))

/-- ATTEST_KEY (R391). -/
def execAttestKey (port : CmdPort) (s : State) : Host.Outcome State Fault Refusal := .next (s.on (attestKeyEff port))

/-- ATTEST_QUOTE (R391). -/
def execAttestQuote (port : CmdPort) (s : State) : Host.Outcome State Fault Refusal := .next (s.on (attestQuoteEff port))

/-- JTAG_IDCODE (R388). -/
def execJtagIdcode (s : State) : Host.Outcome State Fault Refusal := .next (s.on jtagIdcodeEff)

/-- JTAG_BYPASS (R388). -/
def execJtagBypass (b : Bool) (s : State) : Host.Outcome State Fault Refusal := .next (s.on (jtagBypassEff b))

/-- JTAG_SAMPLE_PRELOAD (R388). -/
def execJtagSamplePreload (shiftIn : Word) (s : State) : Host.Outcome State Fault Refusal := .next (s.on (jtagSampleEff shiftIn))

/-- JTAG_EXTEST (R389). -/
def execJtagExtest (shiftIn : Word) (s : State) : Host.Outcome State Fault Refusal := .next (s.on (jtagExtestEff shiftIn))

/-- JTAG_SYSACC (R389). -/
def execJtagSysacc (addr : Nat) (write : Bool) (value : Word) (s : State) : Host.Outcome State Fault Refusal :=
  .next (s.on (jtagSysaccEff addr write value))

/-- JTAG_DMI (R389). -/
def execJtagDmi (op : DmiOp) (s : State) : Host.Outcome State Fault Refusal := .next (s.on (jtagDmiEff op))

end Sys2Proof.Machine
end

