-- ==== Sys2Proof/Machine/MeshCommands.lean ====
section
/-!
DEFINITION. Meanings of commands: the fabric. Each is its operation on the package, by the rule that its row of the table names.
-/

namespace Sys2Proof.Machine

/-- PACKET_INGRESS (R192). -/
def execPacketIngress (pkt : MeshPkt) (s : State) : Host.Outcome State Fault Refusal := .next (s.on (packetIngressEff pkt))

/-- ROUTE_SWAP (R194). -/
def execRouteSwap (s : State) : Host.Outcome State Fault Refusal := .next (s.on routeSwapEff)

/-- ROUTE_SWAP_DRAIN_DONE (R194). -/
def execRouteSwapDrainDone (s : State) : Host.Outcome State Fault Refusal := .next (s.on routeDrainedEff)

/-- ROUTE_SWAP_DRAIN_TIMEOUT (R195). -/
def execRouteSwapDrainTimeout (s : State) : Host.Outcome State Fault Refusal := .next (s.on routeDrainTimeoutEff)

/-- FAB_RT_DATA_WRITE (R196). -/
def execFabRtDataWrite (value : Nat) (s : State) : Host.Outcome State Fault Refusal := .next (s.on (routeWriteEff value))

/-- FAB_ISO_GO (R197). -/
def execFabIsoGo (site : Nat) (s : State) : Host.Outcome State Fault Refusal := .next (s.on (fabIsoEff site))

/-- PROXY_PACKET (R198). -/
def execProxyPacket (site : Nat) (pkt : SitePkt) (s : State) : Host.Outcome State Fault Refusal := .next (s.on (proxyPacketEff site pkt))

/-- GATE_CLOSED_MARKER (R200). -/
def execGateClosedMarker (site vn : Nat) (s : State) : Host.Outcome State Fault Refusal := .next (s.on (gateMarkerEff site vn))

/-- GATED_PACKET (R201). -/
def execGatedPacket (site : Nat) (pkt : SitePkt) (s : State) : Host.Outcome State Fault Refusal := .next (s.on (gatedPacketEff site pkt))

/-- WAKE_ACCESS_TIMEOUT (R203). -/
def execWakeAccessTimeout (site : Nat) (s : State) : Host.Outcome State Fault Refusal := .next (s.on (wakeTimeoutEff site))

/-- CDC_TIMEOUT (R207). -/
def execCdcTimeout (x : Crossing) (s : State) : Host.Outcome State Fault Refusal := .next (s.on (cdcTimeoutEff x))

/-- CROSSING_RESET (R208). -/
def execCrossingReset (x : Crossing) (s : State) : Host.Outcome State Fault Refusal := .next (s.on (crossingResetEff x))

/-- CROSSING_FLUSH_TIMEOUT (R208). -/
def execCrossingFlushTimeout (x : Crossing) (s : State) : Host.Outcome State Fault Refusal := .next (s.on (crossingFlushEff x))

end Sys2Proof.Machine
end

