-- ==== Sys2Proof/Machine/ModelCommands.lean ====
section
/-!
DEFINITION. Meanings of commands: running models. Each is its operation on the package, by the rule that its row of the table names.
-/

namespace Sys2Proof.Machine

/-- BARRIER_ARRIVAL_SIGNAL (R128). -/
def execBarrierArrivalSignal (leaf : Nat) (s : State) : Host.Outcome State Fault Refusal := .next (s.on (barrierArrivalEff leaf))

/-- BARRIER_NOTIFY (R127). -/
def execBarrierNotify (leaf : Nat) (s : State) : Host.Outcome State Fault Refusal :=
  .next (s.on (arrive (.barrierNotify leaf)
    (barrierNotifyEff leaf)))

/-- BARRIER_WATCHDOG (R130). -/
def execBarrierWatchdog (group : Nat) (s : State) : Host.Outcome State Fault Refusal := .next (s.on (barrierWatchdogEff group))

/-- LEE_CTL_CLEAR (R77). -/
def execLeeCtlClear (leaf : Nat) (en : Bool) (s : State) : Host.Outcome State Fault Refusal := .next (s.on (leeCtlClearEff leaf en))

/-- LEE_CLEAR_DONE (R77). -/
def execLeeClearDone (leaf : Nat) (s : State) : Host.Outcome State Fault Refusal :=
  .next (s.on (leeThen leaf (leeClearGoEff leaf)))

/-- LEE_ENABLE (R114). -/
def execLeeEnable (leaf : Nat) (s : State) : Host.Outcome State Fault Refusal := .next (s.on (leeThen leaf (leeEnableEff leaf)))

/-- LEE_DISABLE (R141). -/
def execLeeDisable (leaf : Nat) (s : State) : Host.Outcome State Fault Refusal := .next (s.on (leeDisableEff leaf))

/-- LEE_STOP_COMPLETE (R141). -/
def execLeeStopComplete (leaf : Nat) (s : State) : Host.Outcome State Fault Refusal :=
  .next (s.on (leeThen leaf (leeStopGoEff leaf)))

/-- LEE_CONFIG_WRITE (R113). -/
def execLeeConfigWrite (leaf offset : Nat) (value : Word) (s : State) : Host.Outcome State Fault Refusal :=
  .next (s.on (leeConfigWriteEff leaf offset value))

/-- LEE_DOORBELL_GO (R103). -/
def execLeeDoorbellGo (leaf : Nat) (s : State) : Host.Outcome State Fault Refusal :=
  .next (s.on (leeThen leaf (leeDoorbellEff leaf)))

/-- LEE_STIM_TAIL_WRITE (R100). -/
def execLeeStimTailWrite (leaf tail : Nat) (s : State) : Host.Outcome State Fault Refusal :=
  .next (s.on (leeThen leaf (leeStimTailEff leaf tail)))

/-- APERTURE_READ (R79). -/
def execApertureRead (req : Requester) (leaf offset size : Nat) (ue : Bool) (s : State) : Host.Outcome State Fault Refusal :=
  .next (s.on (apertureReadEff req leaf offset size ue))

/-- APERTURE_WRITE (R79). -/
def execApertureWrite (req : Requester) (leaf offset size : Nat) (value : Line) (ue : Bool) (s : State) : Host.Outcome State Fault Refusal :=
  .next (s.on (arrive (.aperture req leaf offset size value) (apertureWriteEff req leaf offset size value ue)))

/-- STREAM_PAGE_FETCH (R132). -/
def execStreamPageFetch (leaf : Nat) (s : State) : Host.Outcome State Fault Refusal := .next (s.on (leeThen leaf (streamFetchEff leaf)))

/-- STREAM_PAGE_RETURN (R133). -/
def execStreamPageReturn (leaf page line : Nat) (s : State) : Host.Outcome State Fault Refusal :=
  .next (s.on (leeReturn leaf (streamReturnEff leaf page line)))

/-- MG_ALLOC (R115). -/
def execMgAlloc (s : State) : Host.Outcome State Fault Refusal := .next (s.on mgAllocEff)

/-- MG_ENABLE (R116). -/
def execMgEnable (group : Nat) (s : State) : Host.Outcome State Fault Refusal := .next (s.on (mgEnableEff group))

/-- MG_DISABLE (R117). -/
def execMgDisable (group : Nat) (s : State) : Host.Outcome State Fault Refusal := .next (s.on (mgDisableEff group))

/-- MG_FREE (R115). -/
def execMgFree (group : Nat) (s : State) : Host.Outcome State Fault Refusal := .next (s.on (mgFreeEff group))

/-- XCH_MESSAGE_ARRIVAL (R123). -/
def execXchMessageArrival (msg : XchMsg) (s : State) : Host.Outcome State Fault Refusal :=
  .next (s.on (arrive (.xch msg)
    (xchArrivalEff msg)))

/-- DELIVERY_ACK (R121). -/
def execDeliveryAck (leaf : Nat) (imm : Word) (outcome : XchOutcome) (s : State) : Host.Outcome State Fault Refusal :=
  .next (s.on (arrive (.xchAck leaf imm outcome) (deliveryAckEff leaf imm outcome)))

end Sys2Proof.Machine
end

