-- ==== Sys2Proof/Machine/PackageCommands.lean ====
section
/-!
DEFINITION. Meanings of commands: supplies, pins and package resets. Each is its operation on the package, by the rule that its row of the table names.
-/

namespace Sys2Proof.Machine

/-- RTC_ALARM (R369). -/
def execRtcAlarm (s : State) : Host.Outcome State Fault Refusal := .next (s.standby rtcAlarmEff)

/-- POWER_ON_RESET (R370). -/
def execPowerOnReset (s : State) : Host.Outcome State Fault Refusal := .next (s.standby powerOnEff)

/-- SYS_RESET_PIN (R400). -/
def execSysResetPin (s : State) : Host.Outcome State Fault Refusal := .next (s.standby resetPinEff)

/-- SYS_RESET_RELEASE (R400). -/
def execSysResetRelease (s : State) : Host.Outcome State Fault Refusal := .next (s.standby resetReleaseEff)

/-- PACKAGE_WARM_RESET (R370). -/
def execPackageWarmReset (cause : WarmCause) (s : State) : Host.Outcome State Fault Refusal := .next (s.on (packageWarmEff cause))

/-- BOOT_READY_TIMEOUT (R382). -/
def execBootReadyTimeout (s : State) : Host.Outcome State Fault Refusal := .next (s.standby bootTimeoutEff)

/-- PWR_OK_DEASSERT (R401). -/
def execPwrOkDeassert (s : State) : Host.Outcome State Fault Refusal := .next (s.standby pwrOkFallsEff)

/-- SUPPLY_UNDERVOLTAGE (R402). -/
def execSupplyUndervoltage (s : State) : Host.Outcome State Fault Refusal := .next (s.standby undervoltageEff)

/-- VSTBY_LOSS (R402). -/
def execVstbyLoss (s : State) : Host.Outcome State Fault Refusal := .next (s.standby vstbyLossEff)

/-- VSTBY_POWER_UP (R399). -/
def execVstbyPowerUp (s : State) : Host.Outcome State Fault Refusal := .next (s.standby vstbyUpEff)

/-- REFCLK_LOSS (R404). -/
def execRefclkLoss (s : State) : Host.Outcome State Fault Refusal := .next (s.standby refclkLossEff)

/-- REFCLK_RETURN (R404). -/
def execRefclkReturn (s : State) : Host.Outcome State Fault Refusal := .next (s.standby refclkReturnEff)

/-- PROCHOT_ASSERT (R408). -/
def execProchotAssert (overTemp overPower : Bool) (s : State) : Host.Outcome State Fault Refusal :=
  .next (s.on (prochotEff overTemp overPower))

/-- PROCHOT_INPUT (R408). -/
def execProchotInput (s : State) : Host.Outcome State Fault Refusal := .next (s.standby prochotInputEff)

/-- PROCHOT_RELEASE (R408). -/
def execProchotRelease (s : State) : Host.Outcome State Fault Refusal := .next (s.on prochotReleaseEff)

/-- PROCHOT_BOARD_RELEASE (R408). -/
def execProchotBoardRelease (s : State) : Host.Outcome State Fault Refusal := .next (s.standby prochotBoardEff)

/-- THERMTRIP (R409). -/
def execThermtrip (die : Nat) (s : State) : Host.Outcome State Fault Refusal := .next (s.standby (thermtripEff die))

end Sys2Proof.Machine
end

