-- ==== Sys2Proof/Machine/PowerStateCommands.lean ====
section
/-!
DEFINITION. Meanings of commands: power, clocks and ageing. Each is its operation on the package, by the rule that its row of the table names.
-/

namespace Sys2Proof.Machine

/-- CLOCK_SWITCH_REQUEST (R358). -/
def execClockSwitchRequest (site mask : Nat) (s : State) : Host.Outcome State Fault Refusal := .next (s.on (clockRequestEff site mask))

/-- CLOCK_SWITCH (R358). -/
def execClockSwitch (hart : Nat) (s : State) : Host.Outcome State Fault Refusal := .next (s.on (clockSwitchEff hart))

/-- BOUGH_PLL_LOSS (R359). -/
def execBoughPllLoss (site : Nat) (s : State) : Host.Outcome State Fault Refusal := .next (s.on (boughPllLossEff site))

/-- TRUNK_PLL_LOSS (R359). -/
def execTrunkPllLoss (s : State) : Host.Outcome State Fault Refusal := .next (s.on trunkPllLossEff)

/-- HANDSHAKE_RESPONSE (R363). -/
def execHandshakeResponse (block : HsBlock) (delay : Option Nat) (s : State) : Host.Outcome State Fault Refusal :=
  .next (s.on (arrive (.hsReq block) (handshakeResponseEff block delay)))

/-- HANDSHAKE_DELAY_EXPIRY (R363). -/
def execHandshakeDelayExpiry (block : HsBlock) (s : State) : Host.Outcome State Fault Refusal := .next (s.on (handshakeExpiryEff block))

/-- BOUGH_DORMANT_ENTRY (R365). -/
def execBoughDormantEntry (site : Nat) (s : State) : Host.Outcome State Fault Refusal := .next (s.on (boughDormantEff site))

/-- BOUGH_OFF_ENTRY (R365). -/
def execBoughOffEntry (site : Nat) (s : State) : Host.Outcome State Fault Refusal := .next (s.on (boughOffEff site))

/-- BOUGH_WAKE (R366). -/
def execBoughWake (site : Nat) (res : TrainResult) (s : State) : Host.Outcome State Fault Refusal := .next (s.on (boughWakeEff site res))

/-- PWR_STANDBY_REQ (R368). -/
def execPwrStandbyReq (req : Requester) (s : State) : Host.Outcome State Fault Refusal := .next (s.on (standbyReqEff req))

/-- STANDBY_LEAF_TIMEOUT (R368). -/
def execStandbyLeafTimeout (s : State) : Host.Outcome State Fault Refusal := .next (s.on standbyTimeoutEff)

/-- PWR_SLEEP_REQ (R369). -/
def execPwrSleepReq (req : Requester) (s : State) : Host.Outcome State Fault Refusal := .next (s.on (sleepReqEff req))

/-- PWR_WAKE_REQ (R368). -/
def execPwrWakeReq (req : Requester) (s : State) : Host.Outcome State Fault Refusal := .next (s.on (wakeReqEff req))

/-- ORDERLY_BOUGH_RESET (R371). -/
def execOrderlyBoughReset (site : Nat) (s : State) : Host.Outcome State Fault Refusal := .next (s.on (orderlyResetEff site))

/-- BOUGH_RESET_ESCALATE (R371). -/
def execBoughResetEscalate (s : State) : Host.Outcome State Fault Refusal := .next (s.on resetEscalateEff)

/-- FORCED_BOUGH_RESET (R371). -/
def execForcedBoughReset (site : Nat) (s : State) : Host.Outcome State Fault Refusal := .next (s.on (forcedResetEff site))

/-- LEAF_RESET (R74). -/
def execLeafReset (leaf : Nat) (s : State) : Host.Outcome State Fault Refusal := .next (s.on (leafResetEff leaf))

/-- LEE_RESET (R143). -/
def execLeeReset (leaf : Nat) (s : State) : Host.Outcome State Fault Refusal := .next (s.on (leeResetEff leaf))

/-- AGE_REPLAN_PERIOD (R376). -/
def execAgeReplanPeriod (s : State) : Host.Outcome State Fault Refusal := .next (s.on ageReplanPeriodEff)

/-- AGE_REPLAN (R376). -/
def execAgeReplan (s : State) : Host.Outcome State Fault Refusal := .next (s.on ageReplanEff)

/-- AGE_MEASURE_DONE (R375). -/
def execAgeMeasureDone (die : Nat) (ros reps : List Nat) (s : State) : Host.Outcome State Fault Refusal :=
  .next (s.on (ageMeasureEff die ros reps))

/-- GUARDBAND_SETTLE (R376). -/
def execGuardbandSettle (die : Nat) (s : State) : Host.Outcome State Fault Refusal := .next (s.on (guardbandSettleEff die))

end Sys2Proof.Machine
end

