-- ==== Sys2Proof/Machine/RegisterCommands.lean ====
section
/-!
DEFINITION. Meanings of commands: registers. Each is its operation on the package, by the rule that its row of the table names.
-/

namespace Sys2Proof.Machine

/-- REGISTER_WRITE (R8). -/
def execRegisterWrite (req : Requester) (addr size : Nat) (value : Word) (s : State) : Host.Outcome State Fault Refusal :=
  .next (s.on (arrive (.reg req addr size value) (registerWriteEff req addr size value)))

/-- ABSENT_UNIT_ACCESS (R4). -/
def execAbsentUnitAccess (req : Requester) (addr : Nat) (write : Bool) (s : State) : Host.Outcome State Fault Refusal :=
  .next (s.on (absentUnitEff req addr write))

/-- FIREWALL_COMMIT (R396). -/
def execFirewallCommit (entry : Nat) (en : Bool) (s : State) : Host.Outcome State Fault Refusal := .next (s.on (firewallCommitEff entry en))

end Sys2Proof.Machine
end

