-- ==== Sys2Proof/Machine/TranslateCommands.lean ====
section
/-!
DEFINITION. Meanings of commands: translation. Each is its operation on the package, by the rule that its row of the table names.
-/

namespace Sys2Proof.Machine

/-- DEVICE_REQUEST (R292). -/
def execDeviceRequest (req : DevReq) (s : State) : Host.Outcome State Fault Refusal := .next (s.on (deviceRequestGoEff req))

/-- WALK_READ_RETURN (R301). -/
def execWalkReadReturn (tag : Nat) (poison : Bool) (s : State) : Host.Outcome State Fault Refusal := .next (s.on (walkReturnEff tag poison))

/-- WALK_TIMEOUT (R301). -/
def execWalkTimeout (tag : Nat) (s : State) : Host.Outcome State Fault Refusal := .next (s.on (walkTimeoutEff tag))

/-- DEVICE_MSI (R295). -/
def execDeviceMsi (seg rid data : Nat) (s : State) : Host.Outcome State Fault Refusal := .next (s.on (deviceMsiGoEff seg rid data))

/-- ATS_TRANSLATION_REQUEST (R307). -/
def execAtsTranslationRequest (req : DevReq) (s : State) : Host.Outcome State Fault Refusal := .next (s.on (atsRequestGoEff req))

/-- PAGE_REQUEST (R306). -/
def execPageRequest (pr : PageReq) (s : State) : Host.Outcome State Fault Refusal := .next (s.on (pageRequestGoEff pr))

/-- PRG_RESPONSE (R306). -/
def execPrgResponse (value : Word) (s : State) : Host.Outcome State Fault Refusal := .next (s.on (prgResponseEff value))

/-- STALL_RESUME (R304). -/
def execStallResume (tag : Nat) (s : State) : Host.Outcome State Fault Refusal := .next (s.on (stallResumeEff tag))

/-- STALL_ABORT (R304). -/
def execStallAbort (tag : Nat) (s : State) : Host.Outcome State Fault Refusal := .next (s.on (stallAbortEff tag))

/-- STALL_TIMEOUT (R304). -/
def execStallTimeout (tag : Nat) (s : State) : Host.Outcome State Fault Refusal := .next (s.on (stallTimeoutEff tag))

/-- INV_CTX (R310). -/
def execInvCtx (seg rid : Nat) (s : State) : Host.Outcome State Fault Refusal := .next (s.on (invCtxEff seg rid))

/-- INV_PASID (R310). -/
def execInvPasid (seg rid : Nat) (pasid : Option Nat) (s : State) : Host.Outcome State Fault Refusal :=
  .next (s.on (invPasidEff seg rid pasid))

/-- INV_RANGE (R310). -/
def execInvRange (seg rid : Nat) (pasid : Option Nat) (s : State) : Host.Outcome State Fault Refusal :=
  .next (s.on (invRangeEff seg rid pasid))

/-- INV_S2 (R310). -/
def execInvS2 (gscid : Nat) (s : State) : Host.Outcome State Fault Refusal := .next (s.on (invS2Eff gscid))

/-- INV_ALL (R310). -/
def execInvAll (s : State) : Host.Outcome State Fault Refusal := .next (s.on invAllEff)

/-- INV_DONE (R310). -/
def execInvDone (s : State) : Host.Outcome State Fault Refusal := .next (s.on invDoneEff)

/-- ATS_INVALIDATE_RESPONSE (R310). -/
def execAtsInvalidateResponse (seg rid : Nat) (s : State) : Host.Outcome State Fault Refusal := .next (s.on (atsInvResponseEff seg rid))

/-- ATS_INV_TIMEOUT (R310). -/
def execAtsInvTimeout (s : State) : Host.Outcome State Fault Refusal := .next (s.on atsInvTimeoutEff)

/-- TTU_QUEUE_ENABLE (R303). -/
def execTtuQueueEnable (pq : Bool) (s : State) : Host.Outcome State Fault Refusal := .next (s.on (ttuQueueEff pq))

end Sys2Proof.Machine
end

