-- ==== Sys2Proof/Machine/Dispatch.lean ====
section
/-!
DEFINITION. The dispatch of commands: one arm for each constructor.
-/

namespace Sys2Proof.Machine

def exec (i : Instr) (s : State) : Host.Outcome State Fault Refusal :=
  match i with
  | .registerWrite req addr size value => Sys2Proof.Machine.execRegisterWrite req addr size value s
  | .absentUnitAccess req addr write => Sys2Proof.Machine.execAbsentUnitAccess req addr write s
  | .firewallCommit entry en => Sys2Proof.Machine.execFirewallCommit entry en s
  | .leafLoadStore hart acc err => Sys2Proof.Machine.execLeafLoadStore hart acc err s
  | .missResponseReturn hart addr => Sys2Proof.Machine.execMissResponseReturn hart addr s
  | .cboZero hart addr => Sys2Proof.Machine.execCboZero hart addr s
  | .prefetch hart kind addr => Sys2Proof.Machine.execPrefetch hart kind addr s
  | .fenceI hart => Sys2Proof.Machine.execFenceI hart s
  | .wfi hart => Sys2Proof.Machine.execWfi hart s
  | .mnret hart => Sys2Proof.Machine.execMnret hart s
  | .mtimecmpWrite hart cmp value => Sys2Proof.Machine.execMtimecmpWrite hart cmp value s
  | .timerCompareMatch hart cmp => Sys2Proof.Machine.execTimerCompareMatch hart cmp s
  | .msiWrite hart file identity => Sys2Proof.Machine.execMsiWrite hart file identity s
  | .leafInstruction hart insn err => Sys2Proof.Machine.execLeafInstruction hart insn err s
  | .localCounterOverflow hart counter => Sys2Proof.Machine.execLocalCounterOverflow hart counter s
  | .nop leaf err => Sys2Proof.Machine.execNop leaf err s
  | .eval leaf err => Sys2Proof.Machine.execEval leaf err s
  | .evalm leaf err => Sys2Proof.Machine.execEvalm leaf err s
  | .mux leaf err => Sys2Proof.Machine.execMux leaf err s
  | .copy leaf err => Sys2Proof.Machine.execCopy leaf err s
  | .memrd leaf err => Sys2Proof.Machine.execMemrd leaf err s
  | .memrdDataReturn leaf lane => Sys2Proof.Machine.execMemrdDataReturn leaf lane s
  | .memwr leaf err => Sys2Proof.Machine.execMemwr leaf err s
  | .send leaf err => Sys2Proof.Machine.execSend leaf err s
  | .wait leaf err => Sys2Proof.Machine.execWait leaf err s
  | .waitComplete leaf => Sys2Proof.Machine.execWaitComplete leaf s
  | .stim leaf err => Sys2Proof.Machine.execStim leaf err s
  | .stimPrefetchReturn leaf entry line => Sys2Proof.Machine.execStimPrefetchReturn leaf entry line s
  | .observe leaf err => Sys2Proof.Machine.execObserve leaf err s
  | .observeEmit leaf => Sys2Proof.Machine.execObserveEmit leaf s
  | .commit leaf err => Sys2Proof.Machine.execCommit leaf err s
  | .barrier leaf err => Sys2Proof.Machine.execBarrier leaf err s
  | .trap leaf err => Sys2Proof.Machine.execTrap leaf err s
  | .trapDrained leaf => Sys2Proof.Machine.execTrapDrained leaf s
  | .halt leaf err => Sys2Proof.Machine.execHalt leaf err s
  | .haltDrained leaf => Sys2Proof.Machine.execHaltDrained leaf s
  | .jump leaf err => Sys2Proof.Machine.execJump leaf err s
  | .loop leaf err => Sys2Proof.Machine.execLoop leaf err s
  | .leeLateFault leaf back cause info => Sys2Proof.Machine.execLeeLateFault leaf back cause info s
  | .barrierArrivalSignal leaf => Sys2Proof.Machine.execBarrierArrivalSignal leaf s
  | .barrierNotify leaf => Sys2Proof.Machine.execBarrierNotify leaf s
  | .barrierWatchdog group => Sys2Proof.Machine.execBarrierWatchdog group s
  | .leeCtlClear leaf en => Sys2Proof.Machine.execLeeCtlClear leaf en s
  | .leeClearDone leaf => Sys2Proof.Machine.execLeeClearDone leaf s
  | .leeEnable leaf => Sys2Proof.Machine.execLeeEnable leaf s
  | .leeDisable leaf => Sys2Proof.Machine.execLeeDisable leaf s
  | .leeStopComplete leaf => Sys2Proof.Machine.execLeeStopComplete leaf s
  | .leeConfigWrite leaf offset value => Sys2Proof.Machine.execLeeConfigWrite leaf offset value s
  | .leeDoorbellGo leaf => Sys2Proof.Machine.execLeeDoorbellGo leaf s
  | .leeStimTailWrite leaf tail => Sys2Proof.Machine.execLeeStimTailWrite leaf tail s
  | .apertureRead req leaf offset size ue => Sys2Proof.Machine.execApertureRead req leaf offset size ue s
  | .apertureWrite req leaf offset size value ue => Sys2Proof.Machine.execApertureWrite req leaf offset size value ue s
  | .streamPageFetch leaf => Sys2Proof.Machine.execStreamPageFetch leaf s
  | .streamPageReturn leaf page line => Sys2Proof.Machine.execStreamPageReturn leaf page line s
  | .mgAlloc => Sys2Proof.Machine.execMgAlloc s
  | .mgEnable group => Sys2Proof.Machine.execMgEnable group s
  | .mgDisable group => Sys2Proof.Machine.execMgDisable group s
  | .mgFree group => Sys2Proof.Machine.execMgFree group s
  | .xchMessageArrival msg => Sys2Proof.Machine.execXchMessageArrival msg s
  | .deliveryAck leaf imm outcome => Sys2Proof.Machine.execDeliveryAck leaf imm outcome s
  | .preloadAndLock site ways => Sys2Proof.Machine.execPreloadAndLock site ways s
  | .lockLineFetchReturn site => Sys2Proof.Machine.execLockLineFetchReturn site s
  | .unlock site ways => Sys2Proof.Machine.execUnlock site ways s
  | .l3Disable site => Sys2Proof.Machine.execL3Disable site s
  | .l3Enable site => Sys2Proof.Machine.execL3Enable site s
  | .l3EnableDone site => Sys2Proof.Machine.execL3EnableDone site s
  | .rdShared bough line retry err => Sys2Proof.Machine.execRdShared bough line retry err s
  | .rdUnique bough line retry => Sys2Proof.Machine.execRdUnique bough line retry s
  | .upgrade bough line retry => Sys2Proof.Machine.execUpgrade bough line retry s
  | .claim bough line retry => Sys2Proof.Machine.execClaim bough line retry s
  | .rdNoalloc src line => Sys2Proof.Machine.execRdNoalloc src line s
  | .wrFull src line data => Sys2Proof.Machine.execWrFull src line data s
  | .wrPartial src line mask data => Sys2Proof.Machine.execWrPartial src line mask data s
  | .compAck bough line => Sys2Proof.Machine.execCompAck bough line s
  | .snpRsp bough line ans data => Sys2Proof.Machine.execSnpRsp bough line ans data s
  | .wbDirty bough line owned epoch data => Sys2Proof.Machine.execWbDirty bough line owned epoch data s
  | .snpShared bough line fwd => Sys2Proof.Machine.execSnpShared bough line fwd s
  | .snpUnique bough line fwd => Sys2Proof.Machine.execSnpUnique bough line fwd s
  | .snpInv bough line => Sys2Proof.Machine.execSnpInv bough line s
  | .snpCurrent bough line => Sys2Proof.Machine.execSnpCurrent bough line s
  | .data dst line grant epoch data => Sys2Proof.Machine.execData dst line grant epoch data s
  | .dataFwd bough line grant data => Sys2Proof.Machine.execDataFwd bough line grant data s
  | .grant bough line grant epoch => Sys2Proof.Machine.execGrant bough line grant epoch s
  | .nackRetry bough line hint => Sys2Proof.Machine.execNackRetry bough line hint s
  | .nackRetryResend bough line => Sys2Proof.Machine.execNackRetryResend bough line s
  | .wrComp dst line poisoned => Sys2Proof.Machine.execWrComp dst line poisoned s
  | .wbAck bough line ok => Sys2Proof.Machine.execWbAck bough line ok s
  | .homeTimeout bough line => Sys2Proof.Machine.execHomeTimeout bough line s
  | .dirPurgeGo q => Sys2Proof.Machine.execDirPurgeGo q s
  | .purgeDone q => Sys2Proof.Machine.execPurgeDone q s
  | .packetIngress pkt => Sys2Proof.Machine.execPacketIngress pkt s
  | .routeSwap => Sys2Proof.Machine.execRouteSwap s
  | .routeSwapDrainDone => Sys2Proof.Machine.execRouteSwapDrainDone s
  | .routeSwapDrainTimeout => Sys2Proof.Machine.execRouteSwapDrainTimeout s
  | .fabRtDataWrite value => Sys2Proof.Machine.execFabRtDataWrite value s
  | .fabIsoGo site => Sys2Proof.Machine.execFabIsoGo site s
  | .proxyPacket site pkt => Sys2Proof.Machine.execProxyPacket site pkt s
  | .gateClosedMarker site vn => Sys2Proof.Machine.execGateClosedMarker site vn s
  | .gatedPacket site pkt => Sys2Proof.Machine.execGatedPacket site pkt s
  | .wakeAccessTimeout site => Sys2Proof.Machine.execWakeAccessTimeout site s
  | .cdcTimeout x => Sys2Proof.Machine.execCdcTimeout x s
  | .crossingReset x => Sys2Proof.Machine.execCrossingReset x s
  | .crossingFlushTimeout x => Sys2Proof.Machine.execCrossingFlushTimeout x s
  | .flitReceive g flit => Sys2Proof.Machine.execFlitReceive g flit s
  | .ctrlRetry g seq => Sys2Proof.Machine.execCtrlRetry g seq s
  | .graftTrainingDone g res => Sys2Proof.Machine.execGraftTrainingDone g res s
  | .graftTrainingTimeout g => Sys2Proof.Machine.execGraftTrainingTimeout g s
  | .graftFastRetrain g res => Sys2Proof.Machine.execGraftFastRetrain g res s
  | .laneErrorWindow g => Sys2Proof.Machine.execLaneErrorWindow g s
  | .ctrlRepair g => Sys2Proof.Machine.execCtrlRepair g s
  | .grfLaneMaskWrite g k value => Sys2Proof.Machine.execGrfLaneMaskWrite g k value s
  | .graftLaneLossOfLock g lane => Sys2Proof.Machine.execGraftLaneLossOfLock g lane s
  | .delayProbeReturn site t4 turn => Sys2Proof.Machine.execDelayProbeReturn site t4 turn s
  | .spanFlitReceive port flit codewords => Sys2Proof.Machine.execSpanFlitReceive port flit codewords s
  | .spanLockAcquired port locked => Sys2Proof.Machine.execSpanLockAcquired port locked s
  | .hello port pkg peerPort beh rtt => Sys2Proof.Machine.execHello port pkg peerPort beh rtt s
  | .creditInit port => Sys2Proof.Machine.execCreditInit port s
  | .keepalive port => Sys2Proof.Machine.execKeepalive port s
  | .keepalivePeriod port => Sys2Proof.Machine.execKeepalivePeriod port s
  | .keepaliveTimeout port => Sys2Proof.Machine.execKeepaliveTimeout port s
  | .spanLossOfLock port => Sys2Proof.Machine.execSpanLossOfLock port s
  | .spanRetrain port => Sys2Proof.Machine.execSpanRetrain port s
  | .barrierToken port group gen8 => Sys2Proof.Machine.execBarrierToken port group gen8 s
  | .xchWindowRemote port pkt => Sys2Proof.Machine.execXchWindowRemote port pkt s
  | .xchAckRemote port spkg dpkg ttl tag outcome => Sys2Proof.Machine.execXchAckRemote port spkg dpkg ttl tag outcome s
  | .remoteSendTimeout tag => Sys2Proof.Machine.execRemoteSendTimeout tag s
  | .rcopyWrite port pkt => Sys2Proof.Machine.execRcopyWrite port pkt s
  | .rcopyAck port spkg dpkg ttl ctag access => Sys2Proof.Machine.execRcopyAck port spkg dpkg ttl ctag access s
  | .tsyncPeriod => Sys2Proof.Machine.execTsyncPeriod s
  | .tsyncReq port => Sys2Proof.Machine.execTsyncReq port s
  | .tsyncResp port t1 t2 t3 t4 => Sys2Proof.Machine.execTsyncResp port t1 t2 t3 t4 s
  | .tsyncAhead port offset => Sys2Proof.Machine.execTsyncAhead port offset s
  | .timStep add => Sys2Proof.Machine.execTimStep add s
  | .ringSyncPeriod => Sys2Proof.Machine.execRingSyncPeriod s
  | .ringSync site value => Sys2Proof.Machine.execRingSync site value s
  | .syncAck site offset => Sys2Proof.Machine.execSyncAck site offset s
  | .packerRecordForm site => Sys2Proof.Machine.execPackerRecordForm site s
  | .tailTimeout site leaf => Sys2Proof.Machine.execTailTimeout site leaf s
  | .traceRecordArrival site record => Sys2Proof.Machine.execTraceRecordArrival site record s
  | .traceRecordWrite => Sys2Proof.Machine.execTraceRecordWrite s
  | .trcRingCtlWrite ring value => Sys2Proof.Machine.execTrcRingCtlWrite ring value s
  | .memSchedule channel lines => Sys2Proof.Machine.execMemSchedule channel lines s
  | .refreshDue channel rank => Sys2Proof.Machine.execRefreshDue channel rank s
  | .dramTempPoll channel tempC => Sys2Proof.Machine.execDramTempPoll channel tempC s
  | .driftTrack channel => Sys2Proof.Machine.execDriftTrack channel s
  | .memTrainingDone channel res => Sys2Proof.Machine.execMemTrainingDone channel res s
  | .memTrainRequest channel => Sys2Proof.Machine.execMemTrainRequest channel s
  | .memSweepStart channel => Sys2Proof.Machine.execMemSweepStart channel s
  | .memSweepDone channel cause => Sys2Proof.Machine.execMemSweepDone channel cause s
  | .memReinit channel => Sys2Proof.Machine.execMemReinit channel s
  | .memReinitDone channel ok => Sys2Proof.Machine.execMemReinitDone channel ok s
  | .memQuiesce channel on => Sys2Proof.Machine.execMemQuiesce channel on s
  | .memBist channel all rank => Sys2Proof.Machine.execMemBist channel all rank s
  | .memBistDone channel pass => Sys2Proof.Machine.execMemBistDone channel pass s
  | .dramReadReturn channel ecc device => Sys2Proof.Machine.execDramReadReturn channel ecc device s
  | .patrolScrub channel ca ecc device => Sys2Proof.Machine.execPatrolScrub channel ca ecc device s
  | .ceWindow channel => Sys2Proof.Machine.execCeWindow channel s
  | .deviceRequest req => Sys2Proof.Machine.execDeviceRequest req s
  | .walkReadReturn tag poison => Sys2Proof.Machine.execWalkReadReturn tag poison s
  | .walkTimeout tag => Sys2Proof.Machine.execWalkTimeout tag s
  | .deviceMsi seg rid data => Sys2Proof.Machine.execDeviceMsi seg rid data s
  | .atsTranslationRequest req => Sys2Proof.Machine.execAtsTranslationRequest req s
  | .pageRequest pr => Sys2Proof.Machine.execPageRequest pr s
  | .prgResponse value => Sys2Proof.Machine.execPrgResponse value s
  | .stallResume tag => Sys2Proof.Machine.execStallResume tag s
  | .stallAbort tag => Sys2Proof.Machine.execStallAbort tag s
  | .stallTimeout tag => Sys2Proof.Machine.execStallTimeout tag s
  | .invCtx seg rid => Sys2Proof.Machine.execInvCtx seg rid s
  | .invPasid seg rid pasid => Sys2Proof.Machine.execInvPasid seg rid pasid s
  | .invRange seg rid pasid => Sys2Proof.Machine.execInvRange seg rid pasid s
  | .invS2 gscid => Sys2Proof.Machine.execInvS2 gscid s
  | .invAll => Sys2Proof.Machine.execInvAll s
  | .invDone => Sys2Proof.Machine.execInvDone s
  | .atsInvalidateResponse seg rid => Sys2Proof.Machine.execAtsInvalidateResponse seg rid s
  | .atsInvTimeout => Sys2Proof.Machine.execAtsInvTimeout s
  | .ttuQueueEnable pq => Sys2Proof.Machine.execTtuQueueEnable pq s
  | .intxMessage port => Sys2Proof.Machine.execIntxMessage port s
  | .mmioCompletionTimeout rp => Sys2Proof.Machine.execMmioCompletionTimeout rp s
  | .dpcTrigger rp => Sys2Proof.Machine.execDpcTrigger rp s
  | .aerErrorMessage rp => Sys2Proof.Machine.execAerErrorMessage rp s
  | .hioRpCfgWrite port value => Sys2Proof.Machine.execHioRpCfgWrite port value s
  | .rootPortLinkUp rp => Sys2Proof.Machine.execRootPortLinkUp rp s
  | .rootPortLinkDown rp => Sys2Proof.Machine.execRootPortLinkDown rp s
  | .cxlRangeEnable port => Sys2Proof.Machine.execCxlRangeEnable port s
  | .cxlRangeClose port => Sys2Proof.Machine.execCxlRangeClose port s
  | .cxlCloseDone port => Sys2Proof.Machine.execCxlCloseDone port s
  | .cxlMemResponse port poison => Sys2Proof.Machine.execCxlMemResponse port poison s
  | .cxlMemTimeout port => Sys2Proof.Machine.execCxlMemTimeout port s
  | .bind pasid qlog2 => Sys2Proof.Machine.execBind pasid qlog2 s
  | .unbind slice => Sys2Proof.Machine.execUnbind slice s
  | .queueEnable slice queue => Sys2Proof.Machine.execQueueEnable slice queue s
  | .queueDisable slice queue => Sys2Proof.Machine.execQueueDisable slice queue s
  | .dbTailWrite slice queue tail => Sys2Proof.Machine.execDbTailWrite slice queue tail s
  | .descriptorFetch slice queue => Sys2Proof.Machine.execDescriptorFetch slice queue s
  | .chunkDispatch engine => Sys2Proof.Machine.execChunkDispatch engine s
  | .chunkComplete engine => Sys2Proof.Machine.execChunkComplete engine s
  | .epochBoundary => Sys2Proof.Machine.execEpochBoundary s
  | .rcopyTimeout ctag => Sys2Proof.Machine.execRcopyTimeout ctag s
  | .sliceReset slice => Sys2Proof.Machine.execSliceReset slice s
  | .sliceResetEscalate slice => Sys2Proof.Machine.execSliceResetEscalate slice s
  | .engineDisable engine => Sys2Proof.Machine.execEngineDisable engine s
  | .engineEnable engine => Sys2Proof.Machine.execEngineEnable engine s
  | .engineReinit engine => Sys2Proof.Machine.execEngineReinit engine s
  | .eventReceive source count info => Sys2Proof.Machine.execEventReceive source count info s
  | .evcMsiComplete source => Sys2Proof.Machine.execEvcMsiComplete source s
  | .evcSevClear word mask => Sys2Proof.Machine.execEvcSevClear word mask s
  | .faultPinPulseEnd => Sys2Proof.Machine.execFaultPinPulseEnd s
  | .evcSafeGo req => Sys2Proof.Machine.execEvcSafeGo req s
  | .cmpWireFault input => Sys2Proof.Machine.execCmpWireFault input s
  | .cmpParityFault reg => Sys2Proof.Machine.execCmpParityFault reg s
  | .remapWrite table entry value => Sys2Proof.Machine.execRemapWrite table entry value s
  | .storeBist site leafIdx => Sys2Proof.Machine.execStoreBist site leafIdx s
  | .storeBistDone site fail => Sys2Proof.Machine.execStoreBistDone site fail s
  | .clockSwitchRequest site mask => Sys2Proof.Machine.execClockSwitchRequest site mask s
  | .clockSwitch hart => Sys2Proof.Machine.execClockSwitch hart s
  | .boughPllLoss site => Sys2Proof.Machine.execBoughPllLoss site s
  | .trunkPllLoss => Sys2Proof.Machine.execTrunkPllLoss s
  | .handshakeResponse block delay => Sys2Proof.Machine.execHandshakeResponse block delay s
  | .handshakeDelayExpiry block => Sys2Proof.Machine.execHandshakeDelayExpiry block s
  | .boughDormantEntry site => Sys2Proof.Machine.execBoughDormantEntry site s
  | .boughOffEntry site => Sys2Proof.Machine.execBoughOffEntry site s
  | .boughWake site res => Sys2Proof.Machine.execBoughWake site res s
  | .pwrStandbyReq req => Sys2Proof.Machine.execPwrStandbyReq req s
  | .standbyLeafTimeout => Sys2Proof.Machine.execStandbyLeafTimeout s
  | .pwrSleepReq req => Sys2Proof.Machine.execPwrSleepReq req s
  | .pwrWakeReq req => Sys2Proof.Machine.execPwrWakeReq req s
  | .orderlyBoughReset site => Sys2Proof.Machine.execOrderlyBoughReset site s
  | .boughResetEscalate => Sys2Proof.Machine.execBoughResetEscalate s
  | .forcedBoughReset site => Sys2Proof.Machine.execForcedBoughReset site s
  | .leafReset leaf => Sys2Proof.Machine.execLeafReset leaf s
  | .leeReset leaf => Sys2Proof.Machine.execLeeReset leaf s
  | .ageReplanPeriod => Sys2Proof.Machine.execAgeReplanPeriod s
  | .ageReplan => Sys2Proof.Machine.execAgeReplan s
  | .ageMeasureDone die ros reps => Sys2Proof.Machine.execAgeMeasureDone die ros reps s
  | .guardbandSettle die => Sys2Proof.Machine.execGuardbandSettle die s
  | .rtcAlarm => Sys2Proof.Machine.execRtcAlarm s
  | .powerOnReset => Sys2Proof.Machine.execPowerOnReset s
  | .sysResetPin => Sys2Proof.Machine.execSysResetPin s
  | .sysResetRelease => Sys2Proof.Machine.execSysResetRelease s
  | .packageWarmReset cause => Sys2Proof.Machine.execPackageWarmReset cause s
  | .bootReadyTimeout => Sys2Proof.Machine.execBootReadyTimeout s
  | .pwrOkDeassert => Sys2Proof.Machine.execPwrOkDeassert s
  | .supplyUndervoltage => Sys2Proof.Machine.execSupplyUndervoltage s
  | .vstbyLoss => Sys2Proof.Machine.execVstbyLoss s
  | .vstbyPowerUp => Sys2Proof.Machine.execVstbyPowerUp s
  | .refclkLoss => Sys2Proof.Machine.execRefclkLoss s
  | .refclkReturn => Sys2Proof.Machine.execRefclkReturn s
  | .prochotAssert overTemp overPower => Sys2Proof.Machine.execProchotAssert overTemp overPower s
  | .prochotInput => Sys2Proof.Machine.execProchotInput s
  | .prochotRelease => Sys2Proof.Machine.execProchotRelease s
  | .prochotBoardRelease => Sys2Proof.Machine.execProchotBoardRelease s
  | .thermtrip die => Sys2Proof.Machine.execThermtrip die s
  | .siStageBegin port kind => Sys2Proof.Machine.execSiStageBegin port kind s
  | .siStageWrite port offset bytes => Sys2Proof.Machine.execSiStageWrite port offset bytes s
  | .siStageCheck port => Sys2Proof.Machine.execSiStageCheck port s
  | .siStageAbort port => Sys2Proof.Machine.execSiStageAbort port s
  | .siCommit port trials => Sys2Proof.Machine.execSiCommit port trials s
  | .siConfirm port kind => Sys2Proof.Machine.execSiConfirm port kind s
  | .siAdvanceFloor port kind => Sys2Proof.Machine.execSiAdvanceFloor port kind s
  | .siEnrolKey port obj => Sys2Proof.Machine.execSiEnrolKey port obj s
  | .siRevokeKey port obj => Sys2Proof.Machine.execSiRevokeKey port obj s
  | .sessionTimeout => Sys2Proof.Machine.execSessionTimeout s
  | .flashBackgroundDone => Sys2Proof.Machine.execFlashBackgroundDone s
  | .info port => Sys2Proof.Machine.execInfo port s
  | .telemetry port => Sys2Proof.Machine.execTelemetry port s
  | .regRead port addr n => Sys2Proof.Machine.execRegRead port addr n s
  | .pkgStandby port => Sys2Proof.Machine.execPkgStandby port s
  | .pkgSleep port cmp => Sys2Proof.Machine.execPkgSleep port cmp s
  | .pkgWake port => Sys2Proof.Machine.execPkgWake port s
  | .resetWarm port => Sys2Proof.Machine.execResetWarm port s
  | .resetUnit port op target => Sys2Proof.Machine.execResetUnit port op target s
  | .enterSafe port => Sys2Proof.Machine.execEnterSafe port s
  | .sevClear port word mask => Sys2Proof.Machine.execSevClear port word mask s
  | .fwStageBegin port => Sys2Proof.Machine.execFwStageBegin port s
  | .fwStageWrite port offset bytes => Sys2Proof.Machine.execFwStageWrite port offset bytes s
  | .fwStageCheck port => Sys2Proof.Machine.execFwStageCheck port s
  | .fwStageAbort port => Sys2Proof.Machine.execFwStageAbort port s
  | .fwRevert port => Sys2Proof.Machine.execFwRevert port s
  | .attestKey port => Sys2Proof.Machine.execAttestKey port s
  | .attestQuote port => Sys2Proof.Machine.execAttestQuote port s
  | .jtagIdcode => Sys2Proof.Machine.execJtagIdcode s
  | .jtagBypass b => Sys2Proof.Machine.execJtagBypass b s
  | .jtagSamplePreload shiftIn => Sys2Proof.Machine.execJtagSamplePreload shiftIn s
  | .jtagExtest shiftIn => Sys2Proof.Machine.execJtagExtest shiftIn s
  | .jtagSysacc addr write value => Sys2Proof.Machine.execJtagSysacc addr write value s
  | .jtagDmi op => Sys2Proof.Machine.execJtagDmi op s

end Sys2Proof.Machine
end

