-- ==== Sys2Proof/Machine/Step.lean ====
section
/-!
DEFINITION. One step of the package: the command at the front of the queue, or a tick of the clock when none waits.
-/

namespace Sys2Proof.Machine

/-- Take the command at the front and carry it out on the state with the rest of the queue; with none, the clocks tick (R66, R238,
R369). DESIGN CHOICE, assumption 1. -/
def step (s : State) : Host.Outcome State Fault Refusal :=
  match s.pending with
  | c :: rest => exec c { s with pending := rest }
  | [] => .next (s.standby Dev.tick)

/-- The state with the command that a word spells at the front of its queue; no row of the table has bits, so no word spells one.
DESIGN CHOICE, assumption 7. -/
def State.withFetchWord (s : State) (nbits w : Nat) : State :=
  match decodeTableWord nbits w with
  | some c => { s with pending := c :: s.pending }
  | none => s

end Sys2Proof.Machine
end

