-- ==== Sys2Proof/Safety.lean ====
section
/-!
DEFINITION. The terms in which claims about runs are stated: which commands act on a package whose dies have no supply, what such
dies hold, and the forms that memory and registers keep.
-/

namespace Sys2Proof.Machine

/-- The state with another package in it; the queue stays. -/
abbrev State.withDev (s : State) (d : Dev) : State := { s with dev := d }

/-- The commands of the standby domain, the pins, the reference clock and the supplies: those that act on a package whose dies have
no supply (R369, R370, R399 to R409). -/
def standbyCommand : Instr → Bool
  | .rtcAlarm | .powerOnReset | .sysResetPin | .sysResetRelease | .bootReadyTimeout | .pwrOkDeassert | .supplyUndervoltage
  | .vstbyLoss | .vstbyPowerUp | .refclkLoss | .refclkReturn | .prochotInput | .prochotBoardRelease | .thermtrip _ => true
  | _ => false

/-- The registers that a tick of the clock alone may change: what counts clocks, and the RTC. -/
def countsClocks : RegName → Bool
  | .PWR_RTC | .LEE_CNT | .MEM_CNT | .L3C_CNT => true
  | _ => false

/-- Registers whose writes act on their own fields and on nothing else. -/
def plainRegister : RegName → Bool
  | .TRK_FW_BASE | .TRK_FW_LIMIT | .TRK_FW_ACC | .TRK_DECERR | .SIM_STAT | .SIM_VENDOR | .CLK_STAT | .RST_CAUSE | .AGE_CTL | .AGE_DIE
  | .DIR_TMO | .DIR_TMO_LOG | .DIR_CNT | .DIR_CE_CTL | .MBX_IRQ | .MBX_DENY | .TRC_STAT => true
  | _ => false

/-- What a field reads after a write of `v` to its register, by its access type, where it read `old` (R8). -/
def FieldRow.after (f : FieldRow) (old v : Nat) : Nat :=
  match f.acc with
  | .rw => if f.min ≤ v ∧ v ≤ f.max then v else old
  | .w1c => old &&& (2 ^ (f.hi - f.lo + 1) - 1 - v)
  | .w1s => old ||| v
  | .ro | .wo | .act => old

/-- No access to the bough of an address waits for those that were held for its wake (R203). -/
abbrev Dev.unheld (d : Dev) (a : Nat) : Prop := ((siteOfAddr a).map d.forwarding).getD [] = []

/-- The dies hold nothing: no core, engine, cache, directory, message, link or table entry. -/
def Dev.lifeless (d : Dev) : Prop :=
  d.leaves = [] ∧ d.lees = [] ∧ d.groups = [] ∧ d.boughs = [] ∧ d.homes = [] ∧ d.wire = [] ∧ d.grafts = [] ∧ d.spans = []
    ∧ d.packers = [] ∧ d.firewall = [] ∧ d.remoteSends = [] ∧ d.lateTags = [] ∧ d.cxl = [] ∧ d.evc = [] ∧ d.evAcc = [] ∧ d.fabric = {}
    ∧ d.trace = {} ∧ d.ttu = {} ∧ d.bulk = {} ∧ d.tap = {} ∧ d.copies = []
    ∧ d.copyState = []

/-- A package without supply at its dies holds nothing in them (R369, R401). -/
def State.darkWhenOff (s : State) : Prop := s.dev.powered = false → s.dev.lifeless

/-- The engine issues its next word, which is of this opcode, no check of R106, R110, R126, R133 or R423 stops it, and its windows
await no data (R108). -/
def Dev.wordIssues (d : Dev) (n : Nat) (o : Opcode) : Prop :=
  d.mayIssue n = true ∧ d.fetchFault n .none = none ∧ (d.flag LEE_CTL.STREAM n = true → (d.pageOf n).isSome = true)
    ∧ Opcode.ofCode (d.fetchWord n).op = some o ∧ d.issueFault n (d.fetchWord n) o .none = none
    ∧ d.interlocked n (d.fetchWord n) o = false

/-- What the issue of a word leaves as it was: every other engine, and every part of the package but the engine, its program counter,
its counters and its status, and the registers that the list names. -/
def Dev.engineFrame (d d' : Dev) (n : Nat) (also : List RegName) : Prop :=
  d' = { d with regs := d'.regs, lees := d'.lees } ∧ (∀ m, m ≠ n → d'.lee m = d.lee m)
    ∧ ∀ r : Reg, r.u ≠ n ∨ r.name ∉ [RegName.LEE_PC, .LEE_CNT, .LEE_STAT] ++ also → d'.reg r = d.reg r

/-- A home agent at which nothing is under way. -/
def Home.quiet (h : Home) : Prop :=
  h.txns = [] ∧ h.queue = [] ∧ h.held = [] ∧ h.slots = [] ∧ h.waiting = [] ∧ h.slotWait = []

/-- No leaf of a bough waits for a miss, no engine of it for memory, and no lock command is in progress there. -/
def Dev.boughIdle (d : Dev) (b : Nat) : Prop :=
  (∀ j, j < 16 → (d.leaf (16 * b + j)).misses = [] ∧ (d.lee (16 * b + j)).mem = []) ∧ (d.bough b).lock = none

/-- The fabric reaches a bough: it has a site, and no isolation proxy stands in for it. -/
def Dev.reached (d : Dev) (b : Nat) : Prop := (d.siteOf b).map d.isolated = some false

/-- The place of a remap entry holds nothing that the remap would have to write back or invalidate: no line, where it is of an L3. -/
def Dev.placeEmpty (d : Dev) (t : RemapTable) (array word : Nat) : Prop :=
  match t with
  | .l3 s => (d.bough (d.boughAt s)).inWay ((array - 200) / 2) (word / 8 / 16) (word / 8 % 16) = none
  | _ => True

/-- A packet that can act where it goes now: it has arrived, and overtakes no access held for a wake (R184, R203). -/
def Dev.reaches (d : Dev) (p : Packet) : Prop := d.arrives p = true ∧ d.afterHeld p = true

/-- What is held at a channel's input fits its read queue, and neither a write nor a re-initialisation waits there. -/
def Dev.inputFits (d : Dev) (m : Nat) : Prop :=
  (d.channel m).inputWrites = [] ∧ (d.channel m).reinit = false
    ∧ (d.channel m).reads.length + (d.channel m).issued.length + (d.channel m).input.length ≤ readSlots

/-- The read of a table entry that a walk has made can end now: nothing is under way for the entry, nor for the next fault record
(R168, R301). -/
def Dev.walkReady (d : Dev) (w : TtuWalk) (r : WalkRead) : Prop :=
  w.outstanding = r.addr ∧ d.rangeIdle r.addr r.bytes = true ∧ d.recordMay faultQueue = true

/-- A span port accepts a packet of this class and this many flits at once: its crossing works, nothing waits there, and credits and places
of the replay buffer are left (R215, R230). -/
def Dev.spanFree (d : Dev) (c cls flits : Nat) : Prop :=
  d.spanBroken c = false ∧ (d.span c).waiting = [] ∧ flits ≤ (d.span c).credits.find 0 cls ∧ (d.span c).replay.length + flits ≤ 2048

/-- What an engine that makes its requests for lines of memory leaves as it was: memory, every other engine, its store and its registers, the
home agents, the model groups and the fabric. -/
def Dev.servesOnly (d d' : Dev) (n : Nat) : Prop :=
  d' = { d with regs := d'.regs, wire := d'.wire, evAcc := d'.evAcc, boughs := d'.boughs, leaves := d'.leaves, lees := d'.lees }
    ∧ (∀ m, m ≠ n → d'.lee m = d.lee m) ∧ d'.lee n = { d.lee n with mem := (d'.lee n).mem, pipe := (d'.lee n).pipe }
    ∧ ∀ r : Reg, r.name.block = .lee → d'.reg r = d.reg r

/-- Outside a run of store words, the store reads as before. -/
def Lee.sameOutside (e e' : Lee) (first count : Nat) : Prop := ∀ w, w < first ∨ first + count ≤ w → e'.word w = e.word w

/-- The management core takes frames on the BMC port, and no background work on the flash is under way (R385, R386). -/
def Dev.listens (d : Dev) : Prop := d.powered = true ∧ d.board.sampled = true ∧ d.mgmt.background = none

/-- It listens, its firmware runs and has set MBX_FW.READY (R381, R387). -/
def Dev.manages (d : Dev) : Prop := d.listens ∧ d.flag MBX_FW.READY = true ∧ d.mgmt.firmware.isSome = true

/-- The package after a correct frame with this answer, where the command itself changes nothing: MBX_BMC counts the frame. -/
def Dev.framed (d : Dev) (seq status : Nat) (payload : List Byte) : Dev :=
  { d.count MBX_BMC.FRAMES with answer := { seq := seq % 256, status := status, payload := payload, raised := true } }

/-- The management core is carrying out a mailbox command of this code and length, and its firmware is ready (R390). -/
def Dev.mailboxAsks (d : Dev) (code len : Nat) : Prop :=
  d.powered = true ∧ d.flag MBX_FW.READY = true ∧ d.mgmt.firmware.isSome = true ∧ d.broken (.trunk 0x50) = false
    ∧ ∃ tag, d.mgmt.mailbox = some (code, len, tag)

end Sys2Proof.Machine
end

