-- ==== Sys2Proof/Certificates/Slice0/Obligations.lean ====
section
/-!
DEFINITION. What is claimed of the package, for the provers: one definition for each statement of OBLIGATIONS.json.
-/

open Sys2Proof Sys2Proof.Machine

/-! ### The machine as a whole -/

/-- A step carries out the command at the front of the queue, on the state with the rest of the queue. (The model's choices in this: log entry 1.) -/
def Obligations.StepRunsTheFrontCommand : Prop :=
  ∀ (c : Instr) (rest : List Instr) (d : Dev),
    step { dev := d, pending := c :: rest } = exec c { dev := d, pending := rest }

/-- With no command waiting, the clocks tick and nothing else happens (model's choice, log entry 2): with the trunk's clock there and no slew under way,
the master ring count takes one step (R238), and no register changes but those that count clocks and the RTC; in SLEEP it stands still and only the
RTC may count (R243, R369). (The model's choices in this: log entries 2, 22, 29.) -/
def Obligations.EmptyQueueTicksTheClocks : Prop :=
  (∀ s : State, s.pending = [] → ∃ d : Dev, step s = .next { dev := d, pending := [] }) ∧
  (∀ s : State, s.pending = [] → s.dev.powered = true → s.dev.flag CLK_STAT.LOCK = true → s.dev.master.slew = 0 →
    ∃ d : Dev, step s = .next { dev := d, pending := [] } ∧ d.ring = s.dev.ring + 1 ∧ d.mem = s.dev.mem ∧ d.wire = s.dev.wire
      ∧ ∀ r : Reg, countsClocks r.name = false → d.reg r = s.dev.reg r) ∧
  (∀ s : State, s.pending = [] → s.dev.board.vstby = true → s.dev.power.unpowered = true → s.dev.lifeless →
    ∃ d : Dev, step s = .next { dev := d, pending := [] } ∧ d.ring = s.dev.ring ∧ d.mem = s.dev.mem
      ∧ d.get PWR_RTC.COUNT = (s.dev.get PWR_RTC.COUNT + 1) % 2 ^ 48)

/-- Nothing but the standby domain, the pins and the supplies acts on a package whose dies have no supply: every other command of the table leaves it as
it is. (The model's choices in this: log entry 3.) -/
def Obligations.UnsuppliedDiesIgnoreCommands : Prop :=
  ∀ (c : Instr) (s : State), s.dev.powered = false → standbyCommand c = false → exec c s = .next s

/-- Every step keeps this: a package whose dies have no supply holds nothing in them. (The model's choices in this: log entry 57.) -/
def Obligations.StepKeepsUnsuppliedDiesEmpty : Prop :=
  ∀ s t : State, s.darkWhenOff → step s = .next t → t.darkWhenOff

/-- The state after reset has it. -/
def Obligations.ResetHasNoLifeInUnsuppliedDies : Prop :=
  State.reset.darkWhenOff

/-- Every command of the table answers a next state, from every state: none faults and none is refused. (The model's choices in this: log entry 3.) -/
def Obligations.EveryCommandAnswersANextState : Prop :=
  ∀ (c : Instr) (s : State), ∃ d : Dev, exec c s = .next (s.withDev d)

/-- The state after reset: no command waits, memory lists nothing and is in its canonical form, the ring count is 0, and every register of a block reads
its Reset value but TRK_ID, which is fused. (The model's choices in this: log entries 8, 9, 10, 11.) -/
def Obligations.ResetLeavesResetValues : Prop :=
  State.reset.pending = [] ∧ State.reset.dev.mem = [] ∧ Memory.wf State.reset.dev.mem = true ∧ State.reset.dev.ring = 0
    ∧ State.reset.dev.powered = true
    ∧ ∀ r : Reg, r ≠ ⟨.TRK_ID, 0, 0⟩ → State.reset.dev.reg r = r.reset

/-! ### Registers -/

/-- Register accesses (R4, R6, R8, R396). A write of a size other than 4 or 8 bytes, or that is not aligned to its size, is an access error and changes no
register. A 64-bit write of TRK_FWe_BASE stages its address field, and that alone. A write of a register whose fields are all read-only, in a block
whose registers command nothing, changes no register. A write of a register that acts on its own fields alone gives each of them the value of its
access type, and changes no other register. (The model's choices in this: log entries 31, 67.) -/
def Obligations.RegisterWritesByAccessType : Prop :=
  (∀ (s : State) (req : Requester) (a size : Nat) (v : Word),
    s.dev.powered = true → rangeOf a = .regs → s.dev.siteStands a = false → s.dev.unheld a →
    s.dev.reaches (.reg req a size v) → (size ≠ 4 ∧ size ≠ 8) ∨ a % size ≠ 0 →
    exec (.registerWrite req a size v) s =
      .next (s.withDev ((s.dev.take (.reg req a size v)).answerTo req a (BitVec.allOnes 64) true))) ∧
  (∀ (s : State) (req : Requester) (a e : Nat) (v : Word),
    s.dev.powered = true → rangeOf a = .regs → s.dev.siteStands a = false → s.dev.unheld a → a % 8 = 0 →
    s.dev.reaches (.reg req a 8 v) → s.dev.regTarget req a = .reg ⟨.TRK_FW_BASE, 0, e⟩ →
    exec (.registerWrite req a 8 v) s =
      .next (s.withDev (((s.dev.take (.reg req a 8 v)).put TRK_FW_BASE.ADDR (v.bits 47 12) 0 e).answerTo req a 0 false))) ∧
  (∀ (s : State) (req : Requester) (a : Nat) (v : Word) (r : Reg),
    s.dev.powered = true → rangeOf a = .regs → s.dev.siteStands a = false → s.dev.unheld a → a % 8 = 0 →
    s.dev.reaches (.reg req a 8 v) → s.dev.regTarget req a = .reg r → (r.name.block = .sim ∨ r.name.block = .clk) → (∀ f ∈ r.name.fields, f.acc = .ro) →
    ∃ d : Dev, exec (.registerWrite req a 8 v) s = .next (s.withDev (d.answerTo req a 0 false))
      ∧ d = { s.dev.take (.reg req a 8 v) with regs := d.regs } ∧ ∀ q : Reg, d.reg q = s.dev.reg q) ∧
  (∀ (s : State) (req : Requester) (a : Nat) (v : Word) (r : Reg),
    s.dev.powered = true → rangeOf a = .regs → s.dev.siteStands a = false → s.dev.unheld a → a % 8 = 0 →
    s.dev.reaches (.reg req a 8 v) → s.dev.regTarget req a = .reg r → plainRegister r.name = true →
    ∃ d : Dev, exec (.registerWrite req a 8 v) s = .next (s.withDev (d.answerTo req a 0 false))
      ∧ d = { s.dev.take (.reg req a 8 v) with regs := d.regs } ∧ (∀ q : Reg, q ≠ r → d.reg q = s.dev.reg q)
      ∧ ∀ f ∈ r.name.fields, (d.reg r).bits f.hi f.lo = f.after ((s.dev.reg r).bits f.hi f.lo) (v.bits f.hi f.lo))

/-- An access to a register block of an absent unit is counted in TRK_ABSENT_CNT with its offset; a read returns zero, a write changes nothing, and
neither is an error (R4). -/
def Obligations.AbsentUnitsReadZeroAndCount : Prop :=
  (∀ (s : State) (req : Requester) (a : Nat), s.dev.powered = true → rangeOf a = .regs → s.dev.regTarget req a = .absent →
    exec (.absentUnitAccess req a true) s =
      .next (s.withDev (((s.dev.bump TRK_ABSENT_CNT.COUNT).put TRK_ABSENT_CNT.LAST_OFFSET (a - krb)).answerTo req a 0 false))) ∧
  (∀ (s : State) (req : Requester) (a : Nat), s.dev.powered = true → rangeOf a = .regs → s.dev.regTarget req a = .absent →
    exec (.absentUnitAccess req a false) s =
      .next (s.withDev ((((s.dev.bump TRK_ABSENT_CNT.COUNT).put TRK_ABSENT_CNT.LAST_OFFSET (a - krb)).takeAccess req a).answerTo req a 0 false)))

/-- A commit of an entry of the region firewall makes its staged BASE, LIMIT and ACC active together with EN, and changes nothing else (R396). -/
def Obligations.FirewallCommitTakesTheStagedValues : Prop :=
  ∀ (s : State) (e : Nat) (en : Bool), s.dev.powered = true → e < 64 →
    ∃ d : Dev, exec (.firewallCommit e en) s = .next (s.withDev d)
      ∧ d.firewall.find {} e = { base := s.dev.get TRK_FW_BASE.ADDR 0 e, limit := s.dev.get TRK_FW_LIMIT.ADDR 0 e
                                 rd := s.dev.get TRK_FW_ACC.RD 0 e, wr := s.dev.get TRK_FW_ACC.WR 0 e
                                 seg := s.dev.get TRK_FW_ACC.SEG 0 e, en := en }
      ∧ (∀ e', e' ≠ e → d.firewall.find {} e' = s.dev.firewall.find {} e')
      ∧ d.flag TRK_FW_CTL.EN 0 e = en
      ∧ d = { s.dev with firewall := d.firewall, regs := d.regs }
      ∧ ∀ r : Reg, r ≠ ⟨.TRK_FW_CTL, 0, e⟩ → d.reg r = s.dev.reg r

/-! ### Events, the collector and the safe state -/

/-- An event that reaches the entry of its source (R344). Within an open window that it does not make severe, and with no MSI on every event, no capture
and no pulses waiting at the bough, it adds its count to the window's count and to the total, which saturate, and does nothing else. The first event
of a source opens a window at the ring count. An event that reaches the threshold of its source, or is severe by kind, makes a source that is not
severe a severe one: its bit of EVC_SEV is set, the bits of all other sources stay, and FAULT_N, the safe state, the collector and the capture ring
take no part where PIN, SAFE, CAP and CMP_CTL.EN are 0 (R344). (The model's choices in this: log entry 74.) -/
def Obligations.EventsAreCountedAndRated : Prop :=
  (∀ (s : State) (n p : Nat) (i : EvInfo),
    s.dev.powered = true → s.dev.sourcePresent n = true → s.dev.pulseLost n = false → (s.dev.evc.find {} n).opened = true →
    (s.dev.ring - (s.dev.evc.find {} n).start).toNat < 2 ^ s.dev.get EVC_SRC_CTL.WLOG2 0 n →
    min (s.dev.get EVC_SRC_STAT.COUNT 0 n + p) 255 < s.dev.get EVC_SRC_CTL.N 0 n → i.severe = false →
    s.dev.flag EVC_SRC_CTL.CAP 0 n = false → s.dev.flag EVC_SRC_CTL.EVERY 0 n = false → (s.dev.evAcc.find {} n).count = 0 →
    exec (.eventReceive n p i) s =
      .next (s.withDev (((s.dev.take (.event n p i)).bump EVC_SRC_STAT.COUNT p 0 n).bump EVC_SRC_STAT.TOTAL p 0 n))) ∧
  (∀ (s : State) (n p : Nat) (i : EvInfo),
    s.dev.powered = true → s.dev.sourcePresent n = true → s.dev.pulseLost n = false → (s.dev.evc.find {} n).opened = false →
    min p 255 < s.dev.get EVC_SRC_CTL.N 0 n → i.severe = false →
    s.dev.flag EVC_SRC_CTL.CAP 0 n = false → s.dev.flag EVC_SRC_CTL.EVERY 0 n = false → (s.dev.evAcc.find {} n).count = 0 →
    ∃ d : Dev, exec (.eventReceive n p i) s = .next (s.withDev d)
      ∧ d.get EVC_SRC_STAT.COUNT 0 n = min p 255 ∧ d.get EVC_SRC_STAT.WSTART 0 n = s.dev.ring.toNat % 2 ^ 32
      ∧ d.evc.find {} n = ⟨true, s.dev.ring⟩
      ∧ (∀ r : Reg, r ≠ ⟨.EVC_SRC_STAT, 0, n⟩ → d.reg r = s.dev.reg r)
      ∧ d = { s.dev.take (.event n p i) with regs := d.regs, evc := d.evc }) ∧
  (∀ (s : State) (n p : Nat) (i : EvInfo),
     s.dev.powered = true → s.dev.sourcePresent n = true → s.dev.pulseLost n = false → n < 1024 → (s.dev.evc.find {} n).opened = false →
     (s.dev.get EVC_SRC_CTL.N 0 n ≤ min p 255 ∨ i.severe = true) → s.dev.severe n = false →
     s.dev.flag EVC_SRC_CTL.CAP 0 n = false → s.dev.flag EVC_SRC_CTL.PIN 0 n = false → s.dev.flag EVC_SRC_CTL.SAFE 0 n = false →
     s.dev.flag CMP_CTL.EN = false →
     ∃ d : Dev, exec (.eventReceive n p i) s = .next (s.withDev d)
       ∧ d.severe n = true ∧ (∀ m, m < 1024 → m ≠ n → d.severe m = s.dev.severe m)
       ∧ d.get EVC_SRC_STAT.COUNT 0 n = min p 255 ∧ d.flag EVC_STAT.SAFE = s.dev.flag EVC_STAT.SAFE ∧ d.mem = s.dev.mem)

/-- A source stays severe until software writes 1 to its bit (R346): the bits written 1 clear, the others stay, no register but EVC_SEV and the pin's
report changes, and nothing beside the registers. The end of a pulse on FAULT_N leaves the pin at EVC_PIN.LEVEL (R349). The completion of a source's
MSI lets the next one go and changes nothing else (R343). Two wires of an enabled input of the collector that read equal set the input's bit of
CMP_WIRE and raise source 114, severe by kind (R345, R351); an input that is not enabled does nothing. -/
def Obligations.SevereBitsPinWiresAndMsi : Prop :=
  (∀ (s : State) (i : Nat) (mask : Word), s.dev.powered = true → i < 16 → s.dev.flag CMP_CTL.EN = false →
    ∃ d : Dev, exec (.evcSevClear i mask) s = .next (s.withDev d) ∧ d = { s.dev with regs := d.regs }
      ∧ d.reg ⟨.EVC_SEV, 0, i⟩ = s.dev.reg ⟨.EVC_SEV, 0, i⟩ &&& ~~~mask
      ∧ ∀ r : Reg, r ≠ ⟨.EVC_SEV, 0, i⟩ → r ≠ ⟨.EVC_PIN, 0, 0⟩ → d.reg r = s.dev.reg r) ∧
  (∀ s : State, s.dev.powered = true → s.dev.flag EVC_STAT.SAFE = false → s.dev.get SIM_STAT.STATE = 2 →
    s.dev.flag EVC_PIN.MODE = false →
    exec .faultPinPulseEnd s =
      .next (s.withDev ({ s.dev with pulse := false }.put EVC_PIN.LOW (if s.dev.get EVC_PIN.LEVEL = 0 then 1 else 0)))) ∧
  (∀ (s : State) (n : Nat), s.dev.powered = true →
    exec (.evcMsiComplete n) s = .next (s.withDev ({ s.dev with evcBusy := s.dev.evcBusy.filter (· != n) }))) ∧
  (∀ (s : State) (i : Nat), s.dev.powered = true → i < 128 → s.dev.flag CMP_CTL.EN = true → s.dev.flag CMP_SEL.EN 0 i = true →
    exec (.cmpWireFault i) s =
      .next (s.withDev ((s.dev.put CMP_WIRE.BITS (setBit (s.dev.get CMP_WIRE.BITS 0 (i / 64)) (i % 64) true) 0 (i / 64)).send
        (.event 114 1 { severe := true })))) ∧
  (∀ (s : State) (i : Nat), s.dev.powered = true → s.dev.flag CMP_SEL.EN 0 i = false → exec (.cmpWireFault i) s = .next s)

/-- A write of EVC_SAFE.GO from a leaf in M mode, and a parity mismatch of a configuration register of the collector, place the package in the safe state
and record their cause: FAULT_N is static and low (R350, R352, R353). In the safe state a further cause is recorded and nothing else happens. From any
other requester the write has no effect. -/
def Obligations.SafeStateIsEntered : Prop :=
  (∀ (s : State) (h : Nat), s.dev.powered = true →
    ∃ d : Dev, exec (.evcSafeGo (.leaf h .machine)) s = .next (s.withDev d)
      ∧ d.flag EVC_STAT.SAFE = true ∧ bit (d.get EVC_STAT.CAUSES) 2 = true ∧ (s.dev.flag EVC_STAT.SAFE = false →
        d.flag EVC_PIN.MODE = true ∧ d.flag EVC_PIN.LOW = true)) ∧
  (∀ (s : State) (h : Nat), s.dev.powered = true → s.dev.flag EVC_STAT.SAFE = true →
    exec (.evcSafeGo (.leaf h .machine)) s =
      .next (s.withDev (s.dev.put EVC_STAT.CAUSES (setBit (s.dev.get EVC_STAT.CAUSES) 2 true)))) ∧
  (∀ (s : State) (req : Requester), s.dev.powered = true → machineLeaf req = false → exec (.evcSafeGo req) s = .next s) ∧
  (∀ (s : State) (k : Nat), s.dev.powered = true → k < 132 →
    ∃ d : Dev, exec (.cmpParityFault k) s = .next (s.withDev d)
      ∧ d.flag CMP_STAT.PAR_FAULT = true ∧ d.flag EVC_STAT.SAFE = true ∧ bit (d.get EVC_STAT.CAUSES) 0 = true)

/-- A remap of a place that the array has, into an entry that is free, while no entry of the table names the place, takes effect with its DONE bit; an
entry in force that is written again is left, and the table's REFUSED bit set; and V = 0 undoes a remap: it clears V and the bits of its state, takes
WORD and leaves MACRO as it was (R337). Nothing else changes where no line lies at the place of an L3. A write of PRT_SBIST.GO on an engine that is
neither enabled, running nor trapped starts the test: CLEARING reads 1 and every valid bit of the store clears. On one that is, it is refused with
STATUS BUSY. A test that finds no failing word ends with STATUS OK and the engine's clear ended (R341). -/
def Obligations.RemapsAndStoreTest : Prop :=
  (∀ (s : State) (t : RemapTable) (r : RegName) (e : Nat) (v : Word),
    s.dev.powered = true → s.dev.tablePresent t = true → (tableOf t).remap = some r → e < (tableOf t).size →
    v.bits 63 63 = 1 → (s.dev.reg ⟨r, (tableOf t).u, (tableOf t).first + e⟩).bits 63 63 = 0 →
    s.dev.placeEmpty t (v.bits 41 32) (v.bits 31 0) →
    placeExists t (v.bits 41 32) (v.bits 31 0) = true →
    (∀ e' < (tableOf t).size, remapNames (s.dev.reg ⟨r, (tableOf t).u, (tableOf t).first + e'⟩) v = false) →
    exec (.remapWrite t e v) s =
      .next (s.withDev (s.dev.setReg ⟨r, (tableOf t).u, (tableOf t).first + e⟩
        (BitVec.ofNat 64 ((1 <<< 63) + (1 <<< 60) + (v.bits 41 32 <<< 32) + v.bits 31 0))))) ∧
  (∀ (s : State) (t : RemapTable) (r : RegName) (e : Nat) (v : Word),
    s.dev.powered = true → s.dev.tablePresent t = true → (tableOf t).remap = some r → e < (tableOf t).size →
    v.bits 63 63 = 1 → (s.dev.reg ⟨r, (tableOf t).u, (tableOf t).first + e⟩).bits 63 63 = 1 →
    exec (.remapWrite t e v) s =
      .next (s.withDev (s.dev.put ⟨(tableOf t).ctl, (tableOf t).refusedBit, (tableOf t).refusedBit⟩ 1 (tableOf t).u))) ∧
  (∀ (s : State) (t : RemapTable) (r : RegName) (e : Nat) (v : Word),
    s.dev.powered = true → s.dev.tablePresent t = true → (tableOf t).remap = some r → e < (tableOf t).size → v.bits 63 63 = 0 →
    s.dev.placeEmpty t ((s.dev.reg ⟨r, (tableOf t).u, (tableOf t).first + e⟩).bits 41 32)
      ((s.dev.reg ⟨r, (tableOf t).u, (tableOf t).first + e⟩).bits 31 0) →
    exec (.remapWrite t e v) s =
      .next (s.withDev (s.dev.setReg ⟨r, (tableOf t).u, (tableOf t).first + e⟩
        (BitVec.ofNat 64 (((s.dev.reg ⟨r, (tableOf t).u, (tableOf t).first + e⟩).bits 41 32 <<< 32) + v.bits 31 0))))) ∧
  (∀ (s : State) (site j n : Nat),
    s.dev.powered = true → s.dev.siteActive site = true → j < 16 → n = 16 * s.dev.boughAt site + j → s.dev.leePresent n = true →
    s.dev.flag PRT_SBIST.BUSY site = false → s.dev.flag LEE_CTL.EN n = false → s.dev.flag LEE_STAT.RUN n = false →
    s.dev.flag LEE_STAT.TRAPPED n = false →
    exec (.storeBist site j) s =
      .next (s.withDev (((((s.dev.put PRT_SBIST.LEAF j site).put PRT_SBIST.BUSY 1 site).put PRT_SBIST.DONE 0 site).put LEE_STAT.CLEARING 1 n).setLee n
          { s.dev.lee n with valid := [], store := [] }))) ∧
  (∀ (s : State) (site j n : Nat),
    s.dev.powered = true → s.dev.siteActive site = true → j < 16 → n = 16 * s.dev.boughAt site + j → s.dev.leePresent n = true →
    s.dev.flag PRT_SBIST.BUSY site = false → (s.dev.flag LEE_CTL.EN n = true ∨ s.dev.flag LEE_STAT.RUN n = true ∨
      s.dev.flag LEE_STAT.TRAPPED n = true) →
    exec (.storeBist site j) s =
      .next (s.withDev (((s.dev.put PRT_SBIST.LEAF j site).put PRT_SBIST.DONE 1 site).put PRT_SBIST.STATUS 1 site))) ∧
  (∀ (s : State) (site n : Nat),
    s.dev.powered = true → s.dev.siteActive site = true → s.dev.flag PRT_SBIST.BUSY site = true →
    n = 16 * s.dev.boughAt site + s.dev.get PRT_SBIST.LEAF site → s.dev.leePresent n = true → s.dev.flag LEE_STAT.CLEARING n = true →
    (s.dev.lee n).startAfterClear = false →
    exec (.storeBistDone site none) s =
      .next (s.withDev ((((s.dev.put PRT_SBIST.STATUS 0 site).put PRT_SBIST.BUSY 0 site).put PRT_SBIST.DONE 1 site).put LEE_STAT.CLEARING 0 n)))

/-! ### Evaluation engines: words that compute -/

/-- NOP, JUMP and LOOP (R105). NOP goes on to the following word. JUMP goes to TARGET. LOOP, with a value of its counter above zero (COUNT where it is not
armed), arms it, counts down and goes to TARGET; at zero it disarms it and goes on. None of them changes the store, another engine, or a register of
the engine beside its program counter, its counters, its status and the loop counters. (The model's choices in this: log entries 22, 72.) -/
def Obligations.NopJumpLoopMoveTheProgramCounter : Prop :=
  (∀ (s : State) (n : Nat), s.dev.powered = true → s.dev.wordIssues n .nop →
    ∃ d : Dev, exec (.nop n .none) s = .next (s.withDev d) ∧ s.dev.engineFrame d n []
      ∧ d.get LEE_PC.PC n = (s.dev.get LEE_PC.PC n + 1) % 2 ^ 28 ∧ ∀ w, (d.lee n).word w = (s.dev.lee n).word w) ∧
  (∀ (s : State) (n : Nat), s.dev.powered = true → s.dev.wordIssues n .jump →
    ∃ d : Dev, exec (.jump n .none) s = .next (s.withDev d) ∧ s.dev.engineFrame d n []
      ∧ d.get LEE_PC.PC n = (s.dev.fetchWord n).imm.bits 27 0 ∧ ∀ w, (d.lee n).word w = (s.dev.lee n).word w) ∧
  (∀ (s : State) (n : Nat), s.dev.powered = true → s.dev.wordIssues n .loop → 0 < s.dev.loopValue n (s.dev.fetchWord n) →
    ∃ d : Dev, exec (.loop n .none) s = .next (s.withDev d) ∧ s.dev.engineFrame d n [.LEE_LC01, .LEE_LC23]
      ∧ d.get LEE_PC.PC n = (s.dev.fetchWord n).imm.bits 27 0
      ∧ d.flag (loopFields ((s.dev.fetchWord n).imm.bits 29 28)).1 n = true
      ∧ d.get (loopFields ((s.dev.fetchWord n).imm.bits 29 28)).2 n = s.dev.loopValue n (s.dev.fetchWord n) - 1
      ∧ ∀ w, (d.lee n).word w = (s.dev.lee n).word w) ∧
  (∀ (s : State) (n : Nat), s.dev.powered = true → s.dev.wordIssues n .loop → s.dev.loopValue n (s.dev.fetchWord n) = 0 →
    ∃ d : Dev, exec (.loop n .none) s = .next (s.withDev d) ∧ s.dev.engineFrame d n [.LEE_LC01, .LEE_LC23]
      ∧ d.get LEE_PC.PC n = (s.dev.get LEE_PC.PC n + 1) % 2 ^ 28
      ∧ d.flag (loopFields ((s.dev.fetchWord n).imm.bits 29 28)).1 n = false
      ∧ ∀ w, (d.lee n).word w = (s.dev.lee n).word w)

/-- EVAL and EVALM (R91, R93). In the destination window, the nets of group DGRP take the results of the 32 LUT slots, for EVALM in the lanes of its mask
alone; every other net and lane of the window keeps its value, and so does every store word outside it. (The model's choices in this: log entries 22,
72.) -/
def Obligations.EvalWritesTheResultsOfItsSlots : Prop :=
  (∀ (s : State) (n : Nat), s.dev.powered = true → s.dev.wordIssues n .eval →
    ∃ d : Dev, exec (.eval n .none) s = .next (s.withDev d) ∧ s.dev.engineFrame d n []
      ∧ d.get LEE_PC.PC n = (s.dev.get LEE_PC.PC n + 1) % 2 ^ 28
      ∧ (s.dev.lee n).sameOutside (d.lee n) (4 * s.dev.index n (s.dev.fetchWord n).dst) (4 * s.dev.width n)
      ∧ ∀ net k, net < 256 → k < s.dev.width n →
        netOf ((d.lee n).window (s.dev.index n (s.dev.fetchWord n).dst) (s.dev.width n)) (s.dev.width n) net k =
          if net / 32 = (s.dev.fetchWord n).dgrp then
            slotResult (s.dev.fetchWord n) ((List.range 4).map fun i =>
              if bit (s.dev.fetchWord n).srcEn i then s.dev.srcWindow n (s.dev.fetchWord n) i else []) (s.dev.width n) (net % 32) k
          else netOf ((s.dev.lee n).window (s.dev.index n (s.dev.fetchWord n).dst) (s.dev.width n)) (s.dev.width n) net k) ∧
  (∀ (s : State) (n : Nat), s.dev.powered = true → s.dev.wordIssues n .evalm →
    ∃ d : Dev, exec (.evalm n .none) s = .next (s.withDev d) ∧ s.dev.engineFrame d n []
      ∧ d.get LEE_PC.PC n = (s.dev.get LEE_PC.PC n + 1) % 2 ^ 28
      ∧ (s.dev.lee n).sameOutside (d.lee n) (4 * s.dev.index n (s.dev.fetchWord n).dst) (4 * s.dev.width n)
      ∧ ∀ net k, net < 256 → k < s.dev.width n →
        netOf ((d.lee n).window (s.dev.index n (s.dev.fetchWord n).dst) (s.dev.width n)) (s.dev.width n) net k =
          if net / 32 = (s.dev.fetchWord n).dgrp ∧ (s.dev.fetchWord n).imm.toNat.testBit k = true then
            slotResult (s.dev.fetchWord n) ((List.range 4).map fun i =>
              if bit (s.dev.fetchWord n).srcEn i then s.dev.srcWindow n (s.dev.fetchWord n) i else []) (s.dev.width n) (net % 32) k
          else netOf ((s.dev.lee n).window (s.dev.index n (s.dev.fetchWord n).dst) (s.dev.width n)) (s.dev.width n) net k)

/-- MUX and COPY (R94). Each net and lane of MUX's destination takes source 1 where source 2 has a one in that net, or in net SELNET with BCAST, and
source 0 elsewhere; COPY's destination becomes source 0. Every store word outside the destination keeps its value. (The model's choices in this: log
entries 22, 72.) -/
def Obligations.MuxAndCopyWriteTheirWindow : Prop :=
  (∀ (s : State) (n : Nat), s.dev.powered = true → s.dev.wordIssues n .mux →
    ∃ d : Dev, exec (.mux n .none) s = .next (s.withDev d) ∧ s.dev.engineFrame d n []
      ∧ d.get LEE_PC.PC n = (s.dev.get LEE_PC.PC n + 1) % 2 ^ 28
      ∧ (s.dev.lee n).sameOutside (d.lee n) (4 * s.dev.index n (s.dev.fetchWord n).dst) (4 * s.dev.width n)
      ∧ ∀ net k, net < 256 → k < s.dev.width n →
        netOf ((d.lee n).window (s.dev.index n (s.dev.fetchWord n).dst) (s.dev.width n)) (s.dev.width n) net k =
          if netOf (s.dev.srcWindow n (s.dev.fetchWord n) 2) (s.dev.width n)
              (if (s.dev.fetchWord n).bcast then (s.dev.fetchWord n).selnet else net) k then
            netOf (s.dev.srcWindow n (s.dev.fetchWord n) 1) (s.dev.width n) net k
          else netOf (s.dev.srcWindow n (s.dev.fetchWord n) 0) (s.dev.width n) net k) ∧
  (∀ (s : State) (n : Nat), s.dev.powered = true → s.dev.wordIssues n .copy →
    ∃ d : Dev, exec (.copy n .none) s = .next (s.withDev d) ∧ s.dev.engineFrame d n []
      ∧ d.get LEE_PC.PC n = (s.dev.get LEE_PC.PC n + 1) % 2 ^ 28
      ∧ (s.dev.lee n).sameOutside (d.lee n) (4 * s.dev.index n (s.dev.fetchWord n).dst) (4 * s.dev.width n)
      ∧ ∀ net k, net < 256 → k < s.dev.width n →
        netOf ((d.lee n).window (s.dev.index n (s.dev.fetchWord n).dst) (s.dev.width n)) (s.dev.width n) net k =
          netOf (s.dev.srcWindow n (s.dev.fetchWord n) 0) (s.dev.width n) net k)

/-! ### Evaluation engines: words of memory, exchange, stimulus and control -/

/-- MEMRD and MEMWR of a store-placed model memory (R96). MEMRD puts lane k of the row that lane k addresses into lane k of every net of its destination,
or zero where the row is DEPTH or more. MEMWR puts lane k of every net of source 1 into lane k of the row that each enabled lane addresses below
DEPTH, and every other net and lane of a row keeps its value. A DRAM-placed MEMRD or MEMWR, with room for its requests, asks for the line of each lane
whose row is below DEPTH, and goes on without a store word changed (R95, R97, R110). The last line of a DRAM-placed MEMRD returns (R95, R97): where no
line failed, each lane of the destination takes the nets of its lane's line, and zero where its row lay beyond DEPTH; nothing else changes but that
the MEMRD and its request are over, and a word that it held may issue. After each of them the engine makes what requests it can. (The model's choices
in this: log entries 19, 22, 26.) -/
def Obligations.ModelMemoryWords : Prop :=
  (∀ (s : State) (n : Nat), s.dev.powered = true → s.dev.wordIssues n .memrd →
    (s.dev.descriptor n (s.dev.fetchWord n).mmd).dram = false →
    ∃ d : Dev, exec (.memrd n .none) s = .next (s.withDev (d.leeServe n)) ∧ s.dev.engineFrame d n []
      ∧ d.get LEE_PC.PC n = (s.dev.get LEE_PC.PC n + 1) % 2 ^ 28
      ∧ (s.dev.lee n).sameOutside (d.lee n) (4 * s.dev.index n (s.dev.fetchWord n).dst) (4 * s.dev.width n)
      ∧ ∀ net k, net < 256 → k < s.dev.width n →
        netOf ((d.lee n).window (s.dev.index n (s.dev.fetchWord n).dst) (s.dev.width n)) (s.dev.width n) net k =
          (decide ((s.dev.rows n (s.dev.fetchWord n)).getD k 0 < (s.dev.descriptor n (s.dev.fetchWord n).mmd).depth) &&
            netOf ((s.dev.lee n).window (s.dev.rowIndex n (s.dev.fetchWord n).mmd ((s.dev.rows n (s.dev.fetchWord n)).getD k 0))
              (s.dev.width n)) (s.dev.width n) net k)) ∧
  (∀ (s : State) (n : Nat), s.dev.powered = true → s.dev.wordIssues n .memwr →
    (s.dev.descriptor n (s.dev.fetchWord n).mmd).dram = false →
    ∃ d : Dev, exec (.memwr n .none) s = .next (s.withDev (d.leeServe n)) ∧ s.dev.engineFrame d n []
      ∧ d.get LEE_PC.PC n = (s.dev.get LEE_PC.PC n + 1) % 2 ^ 28
      ∧ ∀ r net k, r < (s.dev.descriptor n (s.dev.fetchWord n).mmd).depth → net < 256 → k < s.dev.width n →
        netOf ((d.lee n).window (s.dev.rowIndex n (s.dev.fetchWord n).mmd r) (s.dev.width n)) (s.dev.width n) net k =
          if (k, r) ∈ s.dev.memwrLanes n (s.dev.fetchWord n) (s.dev.rows n (s.dev.fetchWord n)) then
            netOf (s.dev.srcWindow n (s.dev.fetchWord n) 1) (s.dev.width n) net k
          else netOf ((s.dev.lee n).window (s.dev.rowIndex n (s.dev.fetchWord n).mmd r) (s.dev.width n)) (s.dev.width n) net k) ∧
  (∀ (s : State) (n : Nat), s.dev.powered = true → s.dev.wordIssues n .memrd →
    (s.dev.descriptor n (s.dev.fetchWord n).mmd).dram = true → s.dev.tooMany n 64 = false → (s.dev.lee n).memrds = [] →
    (s.dev.lee n).outs = [] →
    (∃ r ∈ s.dev.rows n (s.dev.fetchWord n), r < (s.dev.descriptor n (s.dev.fetchWord n).mmd).depth) →
    ∃ (d : Dev) (m : MemRd), exec (.memrd n .none) s = .next (s.withDev (d.leeServe n)) ∧ s.dev.engineFrame d n []
      ∧ d.get LEE_PC.PC n = (s.dev.get LEE_PC.PC n + 1) % 2 ^ 28 ∧ (d.lee n).memrds = [m]
      ∧ m.pc = s.dev.get LEE_PC.PC n ∧ m.dst = s.dev.index n (s.dev.fetchWord n).dst ∧ m.width = s.dev.width n
      ∧ (∀ (k r : Nat), (s.dev.rows n (s.dev.fetchWord n))[k]? = some r →
          m.lanes[k]? = some (if r < (s.dev.descriptor n (s.dev.fetchWord n).mmd).depth then none else some .zero))
      ∧ (∀ (k r : Nat), (s.dev.rows n (s.dev.fetchWord n))[k]? = some r → r < (s.dev.descriptor n (s.dev.fetchWord n).mmd).depth →
          ∃ q ∈ (d.lee n).mem, q.addr = s.dev.rowAddr n (s.dev.fetchWord n).mmd r k ∧ q.use = .row m.seq k ∧ q.came = none)
      ∧ ∀ w, (d.lee n).word w = (s.dev.lee n).word w) ∧
  (∀ (s : State) (n : Nat), s.dev.powered = true → s.dev.wordIssues n .memwr →
    (s.dev.descriptor n (s.dev.fetchWord n).mmd).dram = true → s.dev.tooMany n 64 = false →
    (∀ p ∈ s.dev.memwrLanes n (s.dev.fetchWord n) (s.dev.rows n (s.dev.fetchWord n)),
      p.2 < (s.dev.descriptor n (s.dev.fetchWord n).mmd).depth →
      s.dev.memCheck 2 0 true (s.dev.rowAddr n (s.dev.fetchWord n).mmd p.2 p.1) = .ok) →
    ∃ d : Dev, exec (.memwr n .none) s = .next (s.withDev (d.leeServe n)) ∧ s.dev.engineFrame d n []
      ∧ d.get LEE_PC.PC n = (s.dev.get LEE_PC.PC n + 1) % 2 ^ 28
      ∧ (∀ p ∈ s.dev.memwrLanes n (s.dev.fetchWord n) (s.dev.rows n (s.dev.fetchWord n)),
          p.2 < (s.dev.descriptor n (s.dev.fetchWord n).mmd).depth →
          ∃ q ∈ (d.lee n).mem, q.addr = s.dev.rowAddr n (s.dev.fetchWord n).mmd p.2 p.1
            ∧ q.use = .write (s.dev.lee n).seq (rowLine (s.dev.srcWindow n (s.dev.fetchWord n) 1) (s.dev.width n) p.1))
      ∧ ∀ w, (d.lee n).word w = (s.dev.lee n).word w) ∧
  (∀ (s : State) (n lane : Nat) (m : MemRd) (r : LeeReq) (x : Fetched) (e : Dev), s.dev.powered = true → s.dev.leeServe n = e → (e.lee n).memrds = [m] →
    m.lanes[lane]? = some none → (∀ i, i ≠ lane → m.lanes[i]? ≠ some none) →
    ((e.lee n).mem.find? fun r => r.use == .row m.seq lane && r.came.isSome) = some r → r.came = some x →
    (∀ y ∈ some x :: m.lanes, ∀ f, y = some f → (∃ v, f = .line v) ∨ f = .zero) →
    (e.lee n).outs = [] → (e.lee n).drain = .none →
    ∃ d : Dev, exec (.memrdDataReturn n lane) s = .next (s.withDev (d.leeServe n)) ∧ d = { e with lees := d.lees, regs := d.regs }
      ∧ (∀ k, k ≠ n → d.lee k = e.lee k) ∧ (∀ q : Reg, q ≠ ⟨.LEE_STAT, n, 0⟩ → d.reg q = e.reg q)
      ∧ (d.lee n).memrds = [] ∧ (d.lee n).mem = (e.lee n).mem.erase r
      ∧ d.get LEE_STAT.BLOCK n = (if e.get LEE_STAT.BLOCK n = 4 then 0 else e.get LEE_STAT.BLOCK n)
      ∧ (e.lee n).sameOutside (d.lee n) (4 * m.dst) (4 * m.width)
      ∧ ∀ net k, net < 256 → k < m.width →
        netOf ((d.lee n).window m.dst m.width) m.width net k =
          match (m.lanes.set lane (some x)).getD k none with
          | some (.line v) => v.getLsbD net
          | _ => false)

/-- SEND within the package (R98, R121): the window of source 0, stamped with the model cycle and STEP, leaves for its slot, and the engine holds the SEND
until it is acknowledged. WAIT (R99, R124): with COUNT arrivals it takes them from the counter of its step and goes on; with fewer it waits with BLOCK
1, and goes on when they are there. (The model's choices in this: log entries 22, 72.) -/
def Obligations.SendAndWait : Prop :=
  (∀ (s : State) (n : Nat), s.dev.powered = true → s.dev.wordIssues n .send → (s.dev.fetchWord n).imm.getLsbD 31 = false →
    (s.dev.lee n).sends.length < 1024 → (s.dev.lee n).outs = [] → (s.dev.lee n).memrds = [] →
    ∃ d : Dev, exec (.send n .none) s = .next (s.withDev d)
      ∧ d.packets = s.dev.packets ++ [.xch
          { sleaf := n, dleaf := (s.dev.fetchWord n).imm.bits 24 16, slot := (s.dev.fetchWord n).imm.bits 15 0
            step := (s.dev.fetchWord n).imm.bits 39 32, mc := s.dev.get LEE_CYCLE.MCYCLE n
            lanes := s.dev.get LEE_CTL.LANES n, imm := (s.dev.fetchWord n).imm
            data := s.dev.srcWindow n (s.dev.fetchWord n) 0 }]
      ∧ Dev.engineFrame { s.dev with wire := d.wire } d n []
      ∧ (d.lee n).sends = (s.dev.lee n).sends ++ [(s.dev.fetchWord n).imm]
      ∧ d.get LEE_PC.PC n = (s.dev.get LEE_PC.PC n + 1) % 2 ^ 28 ∧ ∀ w, (d.lee n).word w = (s.dev.lee n).word w) ∧
  (∀ (s : State) (n : Nat), s.dev.powered = true → s.dev.wordIssues n .wait →
    (s.dev.fetchWord n).imm.bits 12 0 ≤ s.dev.arrived n ((s.dev.fetchWord n).imm.bits 39 32) →
    ∃ d : Dev, exec (.wait n .none) s = .next (s.withDev d) ∧ s.dev.engineFrame d n []
      ∧ d.get LEE_PC.PC n = (s.dev.get LEE_PC.PC n + 1) % 2 ^ 28
      ∧ d.arrived n ((s.dev.fetchWord n).imm.bits 39 32) =
          s.dev.arrived n ((s.dev.fetchWord n).imm.bits 39 32) - (s.dev.fetchWord n).imm.bits 12 0
      ∧ ∀ w, (d.lee n).word w = (s.dev.lee n).word w) ∧
  (∀ (s : State) (n : Nat), s.dev.powered = true → s.dev.wordIssues n .wait →
    s.dev.arrived n ((s.dev.fetchWord n).imm.bits 39 32) < (s.dev.fetchWord n).imm.bits 12 0 →
    exec (.wait n .none) s = .next (s.withDev (s.dev.put LEE_STAT.BLOCK 1 n))) ∧
  (∀ (s : State) (n : Nat), s.dev.powered = true → s.dev.wordIssues n .wait → s.dev.get LEE_STAT.BLOCK n = 1 →
    (s.dev.fetchWord n).imm.bits 12 0 ≤ s.dev.arrived n ((s.dev.fetchWord n).imm.bits 39 32) →
    ∃ d : Dev, exec (.waitComplete n) s = .next (s.withDev d) ∧ s.dev.engineFrame d n []
      ∧ d.get LEE_PC.PC n = (s.dev.get LEE_PC.PC n + 1) % 2 ^ 28 ∧ d.get LEE_STAT.BLOCK n = 0
      ∧ d.arrived n ((s.dev.fetchWord n).imm.bits 39 32) =
          s.dev.arrived n ((s.dev.fetchWord n).imm.bits 39 32) - (s.dev.fetchWord n).imm.bits 12 0)

/-- STIM (R100): with its entry prefetched and free of failures, the destination takes the entry's window and HEAD advances by one; while HEAD is TAIL it
waits with BLOCK 3. A line of an entry that has come returns into its place of the prefetched entry, and nothing else changes. OBSERVE (R101): with no
OBSERVE in emission, the groups of GMASK of source 0 start to be emitted, as a record of type TYPE and of this model cycle; during one it waits with
BLOCK 5. A word is emitted for a trace credit (R101, R248). (The model's choices in this: log entries 19, 22, 26.) -/
def Obligations.StimulusAndObserveWords : Prop :=
  (∀ (s : State) (n : Nat) (e : StimEntry), s.dev.powered = true → s.dev.wordIssues n .stim → s.dev.stimAvail n ≠ 0 →
    ((s.dev.lee n).stim.find? fun x => x.count == s.dev.get LEE_STIM_CTL.HEAD n) = some e →
    (∀ l ∈ e.lines, ∃ x, l = some (.line x)) →
    ∃ d : Dev, exec (.stim n .none) s = .next (s.withDev (d.leeServe n)) ∧ s.dev.engineFrame d n [.LEE_STIM_CTL]
      ∧ d.get LEE_PC.PC n = (s.dev.get LEE_PC.PC n + 1) % 2 ^ 28
      ∧ d.get LEE_STIM_CTL.HEAD n = (s.dev.get LEE_STIM_CTL.HEAD n + 1) % 2 ^ 32
      ∧ (s.dev.lee n).sameOutside (d.lee n) (4 * s.dev.index n (s.dev.fetchWord n).dst) (4 * s.dev.width n)
      ∧ ∀ i, i < 4 * s.dev.width n →
        (d.lee n).word (4 * s.dev.index n (s.dev.fetchWord n).dst + i) = (e.window (s.dev.width n)).getD i 0) ∧
  (∀ (s : State) (n : Nat), s.dev.powered = true → s.dev.wordIssues n .stim → s.dev.stimAvail n = 0 →
    exec (.stim n .none) s = .next (s.withDev ((s.dev.put LEE_STAT.BLOCK 3 n).leeServe n))) ∧
  (∀ (s : State) (n c i : Nat) (r : LeeReq) (e : Dev), s.dev.powered = true → s.dev.leeServe n = e →
    ((e.lee n).mem.find? fun r => r.use == .stim c i && r.came.isSome) = some r →
    exec (.stimPrefetchReturn n c i) s = .next (s.withDev ((e.setLee n { e.lee n with
      mem := (e.lee n).mem.erase r
      stim := (e.lee n).stim.map fun t => if t.count == c then { t with lines := t.lines.set i r.came } else t }).leeServe n))) ∧
  (∀ (s : State) (n : Nat), s.dev.powered = true → s.dev.wordIssues n .observe → (s.dev.lee n).emit = [] →
    (s.dev.lee n).outs = [] → (s.dev.lee n).memrds = [] →
    ∃ d : Dev, exec (.observe n .none) s = .next (s.withDev d) ∧ s.dev.engineFrame d n []
      ∧ d.get LEE_PC.PC n = (s.dev.get LEE_PC.PC n + 1) % 2 ^ 28
      ∧ (d.lee n).emit = observeWords (s.dev.srcWindow n (s.dev.fetchWord n) 0) (s.dev.width n) ((s.dev.fetchWord n).imm.bits 7 0)
      ∧ (d.lee n).emitHead = some ((s.dev.fetchWord n).imm.bits 24 16, s.dev.get LEE_CYCLE.MCYCLE n)
      ∧ ∀ w, (d.lee n).word w = (s.dev.lee n).word w) ∧
  (∀ (s : State) (n : Nat), s.dev.powered = true → s.dev.wordIssues n .observe → (s.dev.lee n).observing = true →
    exec (.observe n .none) s = .next (s.withDev (s.dev.put LEE_STAT.BLOCK 5 n))) ∧
  (∀ (s : State) (n : Nat) (w : Word) (rest : List Word) (head : Nat × Nat), s.dev.powered = true → s.dev.leePresent n = true →
    (s.dev.lee n).emit = w :: rest → (s.dev.lee n).emitHead = some head → (s.dev.lee n).credits ≠ 0 → (s.dev.lee n).emitted ≠ 0 →
    ∃ d : Dev, exec (.observeEmit n) s = .next (s.withDev d)
      ∧ (d.lee n).emit = rest ∧ (d.lee n).credits = (s.dev.lee n).credits - 1
      ∧ (d.packer (s.dev.leafSite n)).fifo (n % 16) =
          (s.dev.packer (s.dev.leafSite n)).fifo (n % 16) ++ [⟨w, head.2, head.1, s.dev.copy (s.dev.leafSite n), false, rest.isEmpty⟩]
      ∧ d = { s.dev with lees := d.lees, packers := d.packers })

/-- COMMIT (R86, R125): PLANE inverts, MCYCLE advances, every arrival counter of bank MCYCLE[0] clears and the other bank's stay; SURPLUS is set where one
of them was not zero, and is otherwise as it was; the engine does not fault and no data moves. A write of LEE_CYCLE that takes effect clears both
banks. -/
def Obligations.CommitClearsItsBank : Prop :=
  (∀ (s : State) (n : Nat), s.dev.powered = true → s.dev.wordIssues n .commit →
    ∃ d : Dev, exec (.commit n .none) s = .next (s.withDev d) ∧ s.dev.engineFrame d n [.LEE_CYCLE, .LEE_XCH_STAT]
      ∧ d.get LEE_PC.PC n = (s.dev.get LEE_PC.PC n + 1) % 2 ^ 28
      ∧ d.get LEE_CYCLE.PLANE n = 1 - s.dev.get LEE_CYCLE.PLANE n
      ∧ d.get LEE_CYCLE.MCYCLE n = (s.dev.get LEE_CYCLE.MCYCLE n + 1) % 2 ^ 40
      ∧ (∀ step, step < 256 → (d.lee n).arrivals.find 0 (arrKey (s.dev.get LEE_CYCLE.MCYCLE n % 2) step) = 0)
      ∧ (∀ step, step < 256 → (d.lee n).arrivals.find 0 (arrKey (1 - s.dev.get LEE_CYCLE.MCYCLE n % 2) step) =
          (s.dev.lee n).arrivals.find 0 (arrKey (1 - s.dev.get LEE_CYCLE.MCYCLE n % 2) step))
      ∧ (d.flag LEE_XCH_STAT.SURPLUS n = true ↔ s.dev.flag LEE_XCH_STAT.SURPLUS n = true ∨
          ∃ p ∈ (s.dev.lee n).arrivals, p.1 / 256 = s.dev.get LEE_CYCLE.MCYCLE n % 2 ∧ p.2 ≠ 0)
      ∧ d.flag LEE_STAT.FAULTED n = s.dev.flag LEE_STAT.FAULTED n ∧ ∀ w, (d.lee n).word w = (s.dev.lee n).word w) ∧
  (∀ (s : State) (n : Nat) (v : Word), s.dev.powered = true → s.dev.leePresent n = true → s.dev.flag LEE_STAT.RUN n = false →
    s.dev.flag LEE_STAT.TRAPPED n = false →
    ∃ d : Dev, exec (.leeConfigWrite n 0x18 v) s = .next (s.withDev d)
      ∧ d.get LEE_CYCLE.MCYCLE n = v.bits 39 0 ∧ d.get LEE_CYCLE.PLANE n = v.bits 48 48
      ∧ ∀ key, (d.lee n).arrivals.find 0 key = 0)

/-- BARRIER, TRAP and HALT (R103, R104, R127): each drains before it acts. A BARRIER of a member waits with BLOCK 2. A drained TRAP records its code and
its own program counter value, and leaves the engine TRAPPED at the following word with the TRAP cause set; a drained HALT leaves it HALTED there,
with the HALT cause set. A fault found after a word has issued (R111): the word and every later one are cancelled, and LEE_FAULT names the cause and
that word; a requested line or an effect of a cancelled word that waits is gone. A late fault of the word issued last leaves every store word, where
it was an EVAL, EVALM, MUX or COPY, and every arrival counter, where it was a WAIT, as they were before that word. (The model's choices in this: log
entry 71.) -/
def Obligations.DrainsAndLateFaults : Prop :=
  (∀ (s : State) (n : Nat), s.dev.powered = true → s.dev.wordIssues n .barrier → s.dev.get LEE_STAT.GROUP n ≠ 0xFF →
    s.dev.groupFault (s.dev.get LEE_STAT.GROUP n) = none → s.dev.flag LEE_BAR.ARR n = false →
    ∃ d : Dev, exec (.barrier n .none) s = .next (s.withDev d) ∧ s.dev.engineFrame d n []
      ∧ (d.lee n).drain = .barrier ∧ d.get LEE_STAT.BLOCK n = 2 ∧ d.get LEE_PC.PC n = s.dev.get LEE_PC.PC n) ∧
  (∀ (s : State) (n : Nat), s.dev.powered = true → s.dev.wordIssues n .trap →
    ∃ d : Dev, exec (.trap n .none) s = .next (s.withDev d) ∧ s.dev.engineFrame d n []
      ∧ (d.lee n).drain = .trap ∧ d.get LEE_PC.PC n = s.dev.get LEE_PC.PC n) ∧
  (∀ (s : State) (n : Nat), s.dev.powered = true → s.dev.wordIssues n .halt →
    ∃ d : Dev, exec (.halt n .none) s = .next (s.withDev d) ∧ s.dev.engineFrame d n []
      ∧ (d.lee n).drain = .halt ∧ d.get LEE_PC.PC n = s.dev.get LEE_PC.PC n) ∧
  (∀ (s : State) (n : Nat), s.dev.powered = true → (s.dev.lee n).drain = .trap → (s.dev.lee n).drained = true →
    s.dev.flag LEE_CTL.EN n = true →
    ∃ d : Dev, exec (.trapDrained n) s = .next (s.withDev d) ∧ (d.lee n).drain = .none
      ∧ d.get LEE_TRAP.CODE n = (s.dev.fetchWord n).imm.bits 15 0 ∧ d.get LEE_TRAP.PC n = s.dev.get LEE_PC.PC n
      ∧ d.get LEE_PC.PC n = (s.dev.get LEE_PC.PC n + 1) % 2 ^ 28 ∧ d.flag LEE_STAT.TRAPPED n = true ∧ d.flag LEE_STAT.RUN n = false
      ∧ d.flag LEE_IRQ_STAT.TRAP n = true ∧ ∀ w, (d.lee n).word w = (s.dev.lee n).word w) ∧
  (∀ (s : State) (n : Nat), s.dev.powered = true → (s.dev.lee n).drain = .halt → (s.dev.lee n).drained = true →
    s.dev.flag LEE_CTL.EN n = true →
    ∃ d : Dev, exec (.haltDrained n) s = .next (s.withDev d) ∧ (d.lee n).drain = .none
      ∧ d.get LEE_PC.PC n = (s.dev.get LEE_PC.PC n + 1) % 2 ^ 28 ∧ d.flag LEE_STAT.HALTED n = true ∧ d.flag LEE_STAT.RUN n = false
      ∧ d.flag LEE_IRQ_STAT.HALT n = true ∧ ∀ w, (d.lee n).word w = (s.dev.lee n).word w) ∧
  (∀ (s : State) (n back info : Nat) (x : Issued), s.dev.powered = true → s.dev.flag LEE_STAT.RUN n = true →
    (s.dev.lee n).pipe[back]? = some x → (∀ m ∈ (s.dev.lee n).memrds, x.seq < m.seq) →
    ∃ d : Dev, exec (.leeLateFault n back .storeUe info) s = .next (s.withDev d)
      ∧ d.flag LEE_FAULT.VALID n = true ∧ d.get LEE_FAULT.CAUSE n = 0x09 ∧ d.get LEE_FAULT.PC n = x.pc % 2 ^ 28
      ∧ d.get LEE_FAULT_INFO.INFO n = (info / 8 * 8) % 2 ^ 64 ∧ d.get LEE_PC.PC n = x.pc % 2 ^ 28 ∧ d.flag LEE_STAT.RUN n = false
      ∧ (∀ o ∈ (d.lee n).outs, o.1 < x.seq) ∧ (∀ m ∈ (d.lee n).memrds, m.seq < x.seq)
      ∧ (∀ r ∈ (d.lee n).mem, ∀ q, r.word = some q → q < x.seq) ∧ d.mem = s.dev.mem) ∧
  (∀ (s t u : State) (n info : Nat) (o : Opcode) (c : Instr), s.dev.powered = true → s.dev.wordIssues n o → (s.dev.lee n).memrds = [] →
    (∀ y ∈ (s.dev.lee n).pipe, y.seq < (s.dev.lee n).seq) →
    (o, c) ∈ [(.eval, .eval n .none), (.evalm, .evalm n .none), (.mux, .mux n .none), (.copy, .copy n .none)] →
    exec c s = .next t → exec (.leeLateFault n 0 .storeUe info) t = .next u →
    u.dev.get LEE_PC.PC n = s.dev.get LEE_PC.PC n ∧ u.dev.get LEE_FAULT.PC n = s.dev.get LEE_PC.PC n
      ∧ ∀ w, (u.dev.lee n).word w = (s.dev.lee n).word w) ∧
  (∀ (s t u : State) (n info : Nat), s.dev.powered = true → s.dev.wordIssues n .wait → (s.dev.lee n).memrds = [] →
    (∀ y ∈ (s.dev.lee n).pipe, y.seq < (s.dev.lee n).seq) → (∀ p ∈ (s.dev.lee n).arrivals, p.2 ≤ 8191) →
    (s.dev.fetchWord n).imm.bits 12 0 ≤ s.dev.arrived n ((s.dev.fetchWord n).imm.bits 39 32) →
    exec (.wait n .none) s = .next t → exec (.leeLateFault n 0 .storeUe info) t = .next u →
    u.dev.get LEE_PC.PC n = s.dev.get LEE_PC.PC n ∧ ∀ key, (u.dev.lee n).arrivals.find 0 key = (s.dev.lee n).arrivals.find 0 key)

/-! ### Running models -/

/-- The group commands (R115, R116, R117). ALLOC reserves the lowest free group, or answers NO_GROUP; ENABLE of a reserved group that is neither invalid
nor busy makes its members belong to it at generation 0; DISABLE makes them belong to none; FREE clears the group. Each answers OK, and no other group
changes. A group of 16 or more is answered INVALID, and a refused command changes nothing else. -/
def Obligations.GroupCommandsAnswer : Prop :=
  (∀ (s : State) (g : Nat), s.dev.powered = true → g < s.dev.groupsHere → s.dev.groupState g = 0 →
    (∀ h, h < g → s.dev.groupState h ≠ 0) →
    ∃ d : Dev, exec .mgAlloc s = .next (s.withDev d) ∧ d = { s.dev with regs := d.regs } ∧ d.groupState g = 1
      ∧ d.get FAB_MG_RESULT.GROUP = g ∧ d.get FAB_MG_RESULT.STATUS = 0
      ∧ ∀ r : Reg, r ≠ ⟨.FAB_MG_CTL, 0, g⟩ → r ≠ ⟨.FAB_MG_RESULT, 0, 0⟩ → d.reg r = s.dev.reg r) ∧
  (∀ s : State, s.dev.powered = true → (∀ g, g < s.dev.groupsHere → s.dev.groupState g ≠ 0) →
    exec .mgAlloc s = .next (s.withDev ((s.dev.put FAB_MG_RESULT.GROUP 0).put FAB_MG_RESULT.STATUS 1))) ∧
  (∀ (s : State) (g : Nat), s.dev.powered = true → g < 16 → s.dev.groupState g = 1 → s.dev.groupInvalid g = false →
    s.dev.groupBusy g = false →
    ∃ d : Dev, exec (.mgEnable g) s = .next (s.withDev d) ∧ d = { s.dev with regs := d.regs, groups := d.groups }
      ∧ d.groupState g = 2 ∧ d.get FAB_MG_STAT.GEN 0 g = 0 ∧ d.get FAB_MG_STAT.ARRIVED 0 g = 0 ∧ d.get FAB_MG_STAT.TOKENS 0 g = 0
      ∧ d.group g = {} ∧ d.get FAB_MG_RESULT.STATUS = 0
      ∧ (∀ n, s.dev.isMember g n = true → d.get LEE_STAT.GROUP n = g ∧ d.get LEE_BAR.GEN n = 0 ∧ d.get LEE_BAR.ARR n = 0)
      ∧ (∀ n, s.dev.isMember g n = false → d.get LEE_STAT.GROUP n = s.dev.get LEE_STAT.GROUP n)
      ∧ ∀ h, h ≠ g → d.groupState h = s.dev.groupState h ∧ d.group h = s.dev.group h) ∧
  (∀ (s : State) (g : Nat), s.dev.powered = true → g < 16 → s.dev.groupState g = 2 → s.dev.groupBusy g = false →
    ∃ d : Dev, exec (.mgDisable g) s = .next (s.withDev d) ∧ d = { s.dev with regs := d.regs, groups := d.groups }
      ∧ d.groupState g = 1 ∧ d.get FAB_MG_STAT.GEN 0 g = 0 ∧ d.get FAB_MG_STAT.ARRIVED 0 g = 0 ∧ d.group g = {}
      ∧ d.get FAB_MG_RESULT.STATUS = 0 ∧ (∀ n, s.dev.isMember g n = true → d.get LEE_STAT.GROUP n = 0xFF)
      ∧ ∀ h, h ≠ g → d.groupState h = s.dev.groupState h ∧ d.group h = s.dev.group h) ∧
  (∀ (s : State) (g : Nat), s.dev.powered = true → g < 16 → s.dev.groupState g = 1 →
    ∃ d : Dev, exec (.mgFree g) s = .next (s.withDev d) ∧ d = { s.dev with regs := d.regs } ∧ d.groupState g = 0
      ∧ d.get FAB_MG_CTL.LANES 0 g = 0 ∧ d.get FAB_MG_CTL.SPAN 0 g = 0 ∧ (∀ n, d.isMember g n = false)
      ∧ d.get FAB_MG_RESULT.STATUS = 0 ∧ ∀ h, h ≠ g → d.groupState h = s.dev.groupState h) ∧
  (∀ (s : State) (g : Nat), s.dev.powered = true → 16 ≤ g →
    exec (.mgEnable g) s = .next (s.withDev ((s.dev.put FAB_MG_RESULT.GROUP g).put FAB_MG_RESULT.STATUS 3)))

/-- Barriers of a group with no span ports (R127, R128, R130). A drained BARRIER signals its arrival once; while members are missing the arrivals are
counted; the last one completes the barrier: the generation advances, the ring count is kept and every member is notified. A member that is notified
moves to its next word at its next generation. A barrier that lasts 2^WDOG ticks sets WDOG_EV and raises the group's event, once in a generation. -/
def Obligations.BarriersCountTheirArrivals : Prop :=
  (∀ (s : State) (n g : Nat), s.dev.powered = true → (s.dev.lee n).drain = .barrier → (s.dev.lee n).drained = true →
    (s.dev.lee n).stopping = false → s.dev.flag LEE_BAR.ARR n = false → s.dev.get LEE_STAT.GROUP n = g → s.dev.get FAB_MG_CTL.SPAN 0 g = 0 →
    (s.dev.group g).arrived.length + 1 < (s.dev.members g).length → s.dev.get FAB_MG_STAT.ARRIVED 0 g < 384 →
    ∃ d : Dev, exec (.barrierArrivalSignal n) s = .next (s.withDev d) ∧ d = { s.dev with regs := d.regs, groups := d.groups }
      ∧ d.flag LEE_BAR.ARR n = true ∧ d.get FAB_MG_STAT.ARRIVED 0 g = s.dev.get FAB_MG_STAT.ARRIVED 0 g + 1
      ∧ (d.group g).arrived = (s.dev.group g).arrived ++ [n] ∧ d.get FAB_MG_STAT.GEN 0 g = s.dev.get FAB_MG_STAT.GEN 0 g
      ∧ ∀ r : Reg, r ≠ ⟨.LEE_BAR, n, 0⟩ → r ≠ ⟨.FAB_MG_STAT, 0, g⟩ → d.reg r = s.dev.reg r) ∧
  (∀ (s : State) (n g : Nat), s.dev.powered = true → (s.dev.lee n).drain = .barrier → (s.dev.lee n).drained = true →
    (s.dev.lee n).stopping = false → s.dev.flag LEE_BAR.ARR n = false → s.dev.get LEE_STAT.GROUP n = g → s.dev.get FAB_MG_CTL.SPAN 0 g = 0 →
    (s.dev.group g).arrived.length + 1 = (s.dev.members g).length →
    ∃ d : Dev, exec (.barrierArrivalSignal n) s = .next (s.withDev d)
      ∧ d = { s.dev with regs := d.regs, groups := d.groups, wire := d.wire }
      ∧ d.packets = s.dev.packets ++ (s.dev.members g).map .barrierNotify
      ∧ d.flag LEE_BAR.ARR n = true ∧ d.get FAB_MG_STAT.ARRIVED 0 g = 0
      ∧ d.get FAB_MG_STAT.GEN 0 g = (s.dev.get FAB_MG_STAT.GEN 0 g + 1) % 2 ^ 32
      ∧ d.get FAB_MG_LAST.RING 0 g = s.dev.ring.toNat ∧ d.group g = {}) ∧
  (∀ (s : State) (n : Nat), s.dev.powered = true → s.dev.reaches (.barrierNotify n) → (s.dev.lee n).drain = .barrier →
    (s.dev.lee n).drained = true → (s.dev.lee n).stopping = false → s.dev.flag LEE_BAR.ARR n = true →
    s.dev.get FAB_MG_STAT.GEN 0 (s.dev.get LEE_STAT.GROUP n) ≠ s.dev.get LEE_BAR.GEN n →
    ∃ d : Dev, exec (.barrierNotify n) s = .next (s.withDev d)
      ∧ (s.dev.take (.barrierNotify n)).engineFrame d n [.LEE_BAR]
      ∧ (d.lee n).drain = .none ∧ d.get LEE_PC.PC n = (s.dev.get LEE_PC.PC n + 1) % 2 ^ 28 ∧ d.get LEE_STAT.BLOCK n = 0
      ∧ d.get LEE_BAR.GEN n = (s.dev.get LEE_BAR.GEN n + 1) % 2 ^ 32 ∧ d.flag LEE_BAR.ARR n = false
      ∧ ∀ w, (d.lee n).word w = (s.dev.lee n).word w) ∧
  (∀ (s : State) (g : Nat) (t : Word), s.dev.powered = true → g < s.dev.groupsHere → (s.dev.group g).first = some t →
    s.dev.get FAB_MG_CTL.WDOG 0 g ≠ 0 → s.dev.groupState g = 2 → 2 ^ s.dev.get FAB_MG_CTL.WDOG 0 g ≤ (s.dev.ring - t).toNat →
    (s.dev.group g).expired = false →
    exec (.barrierWatchdog g) s =
      .next (s.withDev (((s.dev.setGroup g { s.dev.group g with expired := true }).put FAB_MG_STAT.WDOG_EV 1 0 g).send (.event (10 + g) 1 {})))) ∧
  (∀ (s : State) (g : Nat), s.dev.powered = true → (s.dev.group g).expired = true → exec (.barrierWatchdog g) s = .next s)

/-- Starting and stopping an engine (R77, R103, R114, R141). EN = 1 starts it at LEE_PC once the checks pass; EN = 0 lets a running engine finish its
words, after which it is STOPPED with the STOP cause set, and stops one that is halted, faulted or trapped at once. A clear empties the store and is
refused while the engine runs. GO lets a trapped engine run on. An engine that makes its requests for lines of memory changes no store and no register
of an engine, and no memory. An engine's configuration is written outside a run only (R113): a write while it runs or is trapped sets CFG_IGN and
changes nothing else; otherwise the program counter takes the written value, and the lane width and mode of LEE_CTL theirs. A write of LEE_CTL that
carries the lane width and mode as they are writes nothing. A write of LEE_STIM_TAIL gives TAIL its value, and a STIM that waited for an entry no
longer does once the ring is not empty (R100). (The model's choices in this: log entries 50, 53, 81.) -/
def Obligations.EnginesAndTheirRegisters : Prop :=
  (∀ (s : State) (n : Nat), s.dev.powered = true → s.dev.leePresent n = true → s.dev.flag EVC_STAT.SAFE = false →
    s.dev.flag LEE_CTL.EN n = false → s.dev.flag LEE_STAT.RUN n = false → s.dev.flag LEE_STAT.CLEARING n = false →
    s.dev.mapValid n = true → s.dev.get LEE_STAT.GROUP n = 0xFF → s.dev.get LEE_PC.PC n < s.dev.pcLimit n → s.dev.xchFault n = none →
    ∃ d : Dev, exec (.leeEnable n) s = .next (s.withDev (d.leeServe n)) ∧ d = { s.dev with regs := d.regs, lees := d.lees }
      ∧ d.flag LEE_CTL.EN n = true ∧ d.flag LEE_STAT.RUN n = true ∧ d.flag LEE_STAT.STOPPED n = false
      ∧ d.get LEE_STAT.BLOCK n = 0 ∧ (∀ w, (d.lee n).word w = (s.dev.lee n).word w)
      ∧ ∀ r : Reg, r ≠ ⟨.LEE_CTL, n, 0⟩ → r ≠ ⟨.LEE_STAT, n, 0⟩ → r ≠ ⟨.LEE_STREAM_STAT, n, 0⟩ → d.reg r = s.dev.reg r) ∧
  (∀ (s : State) (n : Nat), s.dev.powered = true → s.dev.leePresent n = true → s.dev.flag LEE_STAT.RUN n = true →
    ∃ d : Dev, exec (.leeDisable n) s = .next (s.withDev d) ∧ d = { s.dev with regs := d.regs, lees := d.lees }
      ∧ d.flag LEE_CTL.EN n = false ∧ (d.lee n).stopping = true ∧ d.flag LEE_STAT.RUN n = true
      ∧ ∀ r : Reg, r ≠ ⟨.LEE_CTL, n, 0⟩ → d.reg r = s.dev.reg r) ∧
  (∀ (s : State) (n : Nat), s.dev.powered = true → s.dev.leePresent n = true → s.dev.flag LEE_STAT.RUN n = false →
    s.dev.flag LEE_STAT.HALTED n || s.dev.flag LEE_STAT.FAULTED n || s.dev.flag LEE_STAT.TRAPPED n →
    ∃ d : Dev, exec (.leeDisable n) s = .next (s.withDev d) ∧ d.flag LEE_CTL.EN n = false ∧ d.flag LEE_STAT.STOPPED n = true
      ∧ d.flag LEE_STAT.HALTED n = false ∧ d.flag LEE_STAT.FAULTED n = false ∧ d.flag LEE_STAT.TRAPPED n = false
      ∧ ∀ r : Reg, r ≠ ⟨.LEE_CTL, n, 0⟩ → r ≠ ⟨.LEE_STAT, n, 0⟩ → d.reg r = s.dev.reg r) ∧
  (∀ (s : State) (n : Nat), s.dev.powered = true → s.dev.powerBusy = false → s.dev.leePresent n = true →
    (s.dev.lee n).stopping = true → (s.dev.lee n).drained = true → (s.dev.lee n).drain = .none → s.dev.flag LEE_STAT.RUN n = true →
    s.dev.flag LEE_CTL.EN n = false →
    ∃ d : Dev, exec (.leeStopComplete n) s = .next (s.withDev (d.leeServe n)) ∧ d = { s.dev with regs := d.regs, lees := d.lees, wire := d.wire }
      ∧ d.flag LEE_STAT.STOPPED n = true ∧ d.flag LEE_STAT.RUN n = false ∧ (d.lee n).stopping = false
      ∧ d.flag LEE_IRQ_STAT.STOP n = true ∧ d.get LEE_PC.PC n = s.dev.get LEE_PC.PC n) ∧
  (∀ (s : State) (n : Nat), s.dev.powered = true → s.dev.leePresent n = true → s.dev.flag LEE_STAT.RUN n = false →
    s.dev.flag LEE_STAT.TRAPPED n = false →
    ∃ d : Dev, exec (.leeCtlClear n false) s = .next (s.withDev d) ∧ d = { s.dev with regs := d.regs, lees := d.lees }
      ∧ d.flag LEE_STAT.CLEARING n = true ∧ (d.lee n).valid = [] ∧ ∀ w, (d.lee n).word w = 0) ∧
  (∀ (s : State) (n : Nat), s.dev.powered = true → s.dev.leePresent n = true → s.dev.flag LEE_STAT.RUN n = true →
    s.dev.flag LEE_CTL.EN n = true → s.dev.flag EVC_STAT.SAFE = false →
    exec (.leeCtlClear n true) s = .next (s.withDev (s.dev.put LEE_STAT.BUSY_REFUSED 1 n))) ∧
  (∀ (s : State) (n : Nat), s.dev.powered = true → s.dev.leePresent n = true → s.dev.flag LEE_STAT.CLEARING n = true →
    s.dev.bistRuns n = false → (s.dev.lee n).startAfterClear = false →
    exec (.leeClearDone n) s = .next (s.withDev ((s.dev.put LEE_STAT.CLEARING 0 n).leeServe n))) ∧
  (∀ (s : State) (n : Nat), s.dev.powered = true → s.dev.leePresent n = true → s.dev.flag LEE_STAT.TRAPPED n = true →
    ∃ d : Dev, exec (.leeDoorbellGo n) s = .next (s.withDev (d.leeServe n)) ∧ d = { s.dev with regs := d.regs, lees := d.lees }
      ∧ d.flag LEE_STAT.RUN n = true ∧ d.flag LEE_STAT.TRAPPED n = false ∧ (∀ w, (d.lee n).word w = (s.dev.lee n).word w)
      ∧ (d.lee n).pages = []
      ∧ ∀ r : Reg, r ≠ ⟨.LEE_STAT, n, 0⟩ → (r ≠ ⟨.LEE_STREAM_STAT, n, 0⟩ ∨ s.dev.flag LEE_CTL.STREAM n = false) → d.reg r = s.dev.reg r) ∧
  (∀ (d : Dev) (n : Nat), d.servesOnly (d.leeServe n) n) ∧
  (∀ (s : State) (n off : Nat) (v : Word), s.dev.powered = true → s.dev.leePresent n = true →
    s.dev.flag LEE_STAT.RUN n || s.dev.flag LEE_STAT.TRAPPED n → (off = 0 → v.bits 3 1 ≠ s.dev.get ⟨.LEE_CTL, 3, 1⟩ n) →
    exec (.leeConfigWrite n off v) s = .next (s.withDev (s.dev.put LEE_STAT.CFG_IGN 1 n))) ∧
  (∀ (s : State) (n : Nat) (v : Word), s.dev.powered = true → v.bits 3 1 = s.dev.get ⟨.LEE_CTL, 3, 1⟩ n →
    exec (.leeConfigWrite n 0 v) s = .next s) ∧
  (∀ (s : State) (n : Nat) (v : Word), s.dev.powered = true → s.dev.leePresent n = true → s.dev.flag LEE_STAT.RUN n = false →
    s.dev.flag LEE_STAT.TRAPPED n = false →
    ∃ d : Dev, exec (.leeConfigWrite n 0x10 v) s = .next (s.withDev d) ∧ d = { s.dev with regs := d.regs }
      ∧ d.get LEE_PC.PC n = v.bits 27 0 ∧ ∀ r : Reg, r ≠ ⟨.LEE_PC, n, 0⟩ → d.reg r = s.dev.reg r) ∧
  (∀ (s : State) (n : Nat) (v : Word), s.dev.powered = true → s.dev.leePresent n = true → s.dev.flag LEE_STAT.RUN n = false →
    s.dev.flag LEE_STAT.TRAPPED n = false → v.bits 2 1 ≠ 3 →
    ∃ d : Dev, exec (.leeConfigWrite n 0 v) s = .next (s.withDev d) ∧ d = { s.dev with regs := d.regs }
      ∧ d.get LEE_CTL.LANES n = v.bits 2 1 ∧ d.get LEE_CTL.STREAM n = v.bits 3 3 ∧ d.get LEE_CTL.EN n = s.dev.get LEE_CTL.EN n
      ∧ ∀ r : Reg, r ≠ ⟨.LEE_CTL, n, 0⟩ → d.reg r = s.dev.reg r) ∧
  (∀ (s : State) (n tail : Nat), s.dev.powered = true → s.dev.leePresent n = true →
    ∃ d : Dev, exec (.leeStimTailWrite n tail) s = .next (s.withDev (d.leeServe n)) ∧ d = { s.dev with regs := d.regs, lees := d.lees }
      ∧ d.get LEE_STIM_TAIL.TAIL n = tail % 2 ^ 32
      ∧ d.get LEE_STAT.BLOCK n =
          (if s.dev.get LEE_STAT.BLOCK n = 3 ∧ d.stimAvail n ≠ 0 then 0 else s.dev.get LEE_STAT.BLOCK n)
      ∧ (s.dev.flag LEE_STAT.RUN n = false → d.lees = s.dev.lees) ∧ (∀ w, (d.lee n).word w = (s.dev.lee n).word w)
      ∧ ∀ r : Reg, r ≠ ⟨.LEE_STIM_TAIL, n, 0⟩ → r ≠ ⟨.LEE_STAT, n, 0⟩ → d.reg r = s.dev.reg r)

/-- Accesses to the aperture of a leaf's store (R26, R78, R79). A read of a size that its requester may use answers the store's bytes in every state of
the engine but a clear. A write is carried out while the engine does not run, and is an access error that sets AP_WERR and leaves the store while it
runs. Past the first 4 MiB nothing is backed: the access is an error and its address is captured. Streamed mode (R131, R132). The pages of the next
word and the following one are fetched and no other kept; a line of a page that has come lands in its place of the store, and the page's count of
lines advances. (The model's choices in this: log entries 19, 26, 53.) -/
def Obligations.AperturesAndStreams : Prop :=
  (∀ (s : State) (h : Nat) (p : Mode) (n off size : Nat), s.dev.powered = true → s.dev.apertureStands n = false →
    s.dev.forwarding (s.dev.leafSite n) = [] → s.dev.flag LEE_STAT.CLEARING n = false →
    s.dev.apertureBacked n off = true → apertureSize (.leaf h p) off size false = true →
    ∃ d : Dev, exec (.apertureRead (.leaf h p) n off size false) s = .next (s.withDev d)
      ∧ d.resp = ⟨BitVec.ofNat 64 ((s.dev.lee n).bytes off size), false, false⟩ ∧ d.lees = s.dev.lees ∧ d.regs = s.dev.regs
      ∧ d.mem = s.dev.mem) ∧
  (∀ (s : State) (h : Nat) (p : Mode) (n off size : Nat) (v : Line), s.dev.powered = true → s.dev.apertureStands n = false →
    s.dev.forwarding (s.dev.leafSite n) = [] → s.dev.flag LEE_STAT.CLEARING n = false → s.dev.reaches (.aperture (.leaf h p) n off size v) →
    s.dev.apertureBacked n off = true → apertureSize (.leaf h p) off size true = true → s.dev.flag LEE_STAT.RUN n = false →
    ∃ d : Dev, exec (.apertureWrite (.leaf h p) n off size v false) s = .next (s.withDev d)
      ∧ d.resp.err = false ∧ d.lee n = (s.dev.lee n).putBytes off v.toNat size ∧ (∀ m, m ≠ n → d.lee m = s.dev.lee m)
      ∧ d.regs = s.dev.regs ∧ d.mem = s.dev.mem) ∧
  (∀ (s : State) (h : Nat) (p : Mode) (n off size : Nat) (v : Line), s.dev.powered = true → s.dev.apertureStands n = false →
    s.dev.forwarding (s.dev.leafSite n) = [] → s.dev.flag LEE_STAT.CLEARING n = false → s.dev.reaches (.aperture (.leaf h p) n off size v) →
    s.dev.apertureBacked n off = true → apertureSize (.leaf h p) off size true = true → s.dev.flag LEE_STAT.RUN n = true →
    ∃ d : Dev, exec (.apertureWrite (.leaf h p) n off size v false) s = .next (s.withDev d)
      ∧ d.resp.err = true ∧ d.lees = s.dev.lees ∧ d.flag LEE_STAT.AP_WERR n = true
      ∧ ∀ r : Reg, r ≠ ⟨.LEE_STAT, n, 0⟩ → d.reg r = s.dev.reg r) ∧
  (∀ (s : State) (h : Nat) (p : Mode) (n off size : Nat), s.dev.powered = true → s.dev.apertureStands n = false →
    s.dev.forwarding (s.dev.leafSite n) = [] → s.dev.apertureBacked n off = false → s.dev.flag TRK_DECERR.VALID = false →
    ∃ d : Dev, exec (.apertureRead (.leaf h p) n off size false) s = .next (s.withDev d)
      ∧ d.resp.err = true ∧ d.flag TRK_DECERR.VALID = true ∧ d.get TRK_DECERR.ADDR = apertureAddr n off % 2 ^ 48
      ∧ d.lees = s.dev.lees) ∧
  (∀ (s : State) (n : Nat), s.dev.powered = true → s.dev.leePresent n = true → s.dev.flag LEE_STAT.RUN n = true →
    s.dev.flag LEE_CTL.STREAM n = true →
    ∃ d : Dev, exec (.streamPageFetch n) s = .next (s.withDev (d.leeServe n)) ∧ d = { s.dev with regs := d.regs, lees := d.lees }
      ∧ (∀ p ∈ (d.lee n).pages, p.page = s.dev.pageNow n ∨ p.page = s.dev.pageNow n + 1)
      ∧ (∃ p ∈ (d.lee n).pages, p.page = s.dev.pageNow n) ∧ (∃ p ∈ (d.lee n).pages, p.page = s.dev.pageNow n + 1)
      ∧ (∀ w, (d.lee n).word w = (s.dev.lee n).word w)
      ∧ ∀ r : Reg, r ≠ ⟨.LEE_STREAM_STAT, n, 0⟩ → d.reg r = s.dev.reg r) ∧
  (∀ (s : State) (n q i : Nat) (p : PageBuf) (r : LeeReq) (v : Line) (e : Dev), s.dev.powered = true → s.dev.leeServe n = e →
    ((e.lee n).pages.find? fun x => x.page == q) = some p → p.got = i →
    ((e.lee n).mem.find? fun r => r.use == .page q i && r.came.isSome) = some r → r.came = some (.line v) →
    ∃ d : Dev, exec (.streamPageReturn n q i) s = .next (s.withDev (d.leeServe n)) ∧ d = { e with regs := d.regs, lees := d.lees }
      ∧ (∀ k, k < 8 → (d.lee n).word (4 * (e.get LEE_MAP0.PROG_BASE n * 64 + 2048 * (q % 2) + 2 * i) + k) = lineWord v k)
      ∧ (e.lee n).sameOutside (d.lee n) (4 * (e.get LEE_MAP0.PROG_BASE n * 64 + 2048 * (q % 2) + 2 * i)) 8
      ∧ (((d.lee n).pages.find? fun x => x.page == q).map (·.got)) = some (i + 1)
      ∧ ∀ r : Reg, r ≠ ⟨.LEE_STREAM_STAT, n, 0⟩ → r ≠ ⟨.LEE_STAT, n, 0⟩ → d.reg r = e.reg r)

/-- Exchange messages (R121, R123). A window of the receiver's lane width and model cycle whose slot it has is put into its inbox, the arrival counter of
its bank and step counts it, and the sender is told; one that an engine cannot take is rejected, counted and changes no store. A delivered
acknowledgement releases the SEND; a refused one is recorded as DROP_ERR too. (The model's choices in this: log entries 4, 53.) -/
def Obligations.ExchangeDelivery : Prop :=
  (∀ (s : State) (m : XchMsg), s.dev.powered = true → s.dev.reaches (.xch m) → s.dev.leePresent m.dleaf = true → s.dev.isolated (s.dev.leafSite m.dleaf) = false →
    (s.dev.gate (s.dev.leafSite m.dleaf)).closed = false → s.dev.senderCut m = false → s.dev.lateralDown m = false →
    s.dev.flag LEE_STAT.CLEARING m.dleaf = false → m.lanes = s.dev.get LEE_CTL.LANES m.dleaf → m.slot < s.dev.inboxSlots m.dleaf →
    m.mc = s.dev.get LEE_CYCLE.MCYCLE m.dleaf → m.remote = none → m.data.length = 4 * s.dev.width m.dleaf →
    (s.dev.lee m.dleaf).drain = .none → (s.dev.lee m.dleaf).arrivals.find 0 (arrKey (m.mc % 2) m.step) < 8191 →
    ∃ d : Dev, exec (.xchMessageArrival m) s = .next (s.withDev d)
      ∧ d = { s.dev with lees := d.lees, wire := d.wire }
      ∧ d.packets = s.dev.packets.erase (.xch m) ++ [.xchAck m.sleaf m.imm .delivered]
      ∧ (∀ k, k ≠ m.dleaf → d.lee k = s.dev.lee k)
      ∧ (∀ i, i < 4 * s.dev.width m.dleaf →
          (d.lee m.dleaf).word (4 * (s.dev.get LEE_MAP2.INBOX_BASE m.dleaf * 64 + m.slot * s.dev.width m.dleaf) + i) = m.data.getD i 0)
      ∧ (s.dev.lee m.dleaf).sameOutside (d.lee m.dleaf)
          (4 * (s.dev.get LEE_MAP2.INBOX_BASE m.dleaf * 64 + m.slot * s.dev.width m.dleaf)) (4 * s.dev.width m.dleaf)
      ∧ ∀ key, (d.lee m.dleaf).arrivals.find 0 key =
          (s.dev.lee m.dleaf).arrivals.find 0 key + if key = arrKey (m.mc % 2) m.step then 1 else 0) ∧
  (∀ (s : State) (m : XchMsg), s.dev.powered = true → s.dev.reaches (.xch m) → s.dev.leePresent m.dleaf = true → s.dev.isolated (s.dev.leafSite m.dleaf) = false →
    (s.dev.gate (s.dev.leafSite m.dleaf)).closed = false → s.dev.senderCut m = false → s.dev.lateralDown m = false →
    m.lanes ≠ s.dev.get LEE_CTL.LANES m.dleaf → m.remote = none →
    exec (.xchMessageArrival m) s = .next (s.withDev
      (((s.dev.take (.xch m)).bump LEE_XCH_STAT.REJECT 1 m.dleaf).emit (.xchAck m.sleaf m.imm .lanesDiffer)))) ∧
  (∀ (s : State) (n : Nat) (imm : Word), s.dev.powered = true → s.dev.reaches (.xchAck n imm .delivered) →
    imm ∈ (s.dev.lee n).sends → imm ∉ (s.dev.lee n).discardAcks →
    exec (.deliveryAck n imm .delivered) s = .next (s.withDev
      ((s.dev.take (.xchAck n imm .delivered)).setLee n { s.dev.lee n with sends := (s.dev.lee n).sends.erase imm }))) ∧
  (∀ (s : State) (n : Nat) (imm : Word), s.dev.powered = true → s.dev.reaches (.xchAck n imm .slotBeyond) →
    imm ∈ (s.dev.lee n).sends → imm ∉ (s.dev.lee n).discardAcks →
    (s.dev.lee n).drain = .none →
    ∃ d : Dev, exec (.deliveryAck n imm .slotBeyond) s = .next (s.withDev d) ∧ d.flag LEE_XCH_STAT.DROP_ERR n = true
      ∧ (d.lee n).sends = (s.dev.lee n).sends.erase imm
      ∧ (s.dev.flag LEE_XCH_STAT.DROP_ERR n = false ∨ (s.dev.lee n).dropInfo = none → (d.lee n).dropInfo = some (imm.bits 39 0 + 2 * 2 ^ 56)))

/-! ### Leaf cores -/

/-- Cached accesses of a leaf (R59, R60, R68). Mapping an access to its physical address changes the leaf's TLB and counters alone. A load of a line that
the bough holds, not poisoned, gives its register the extended bytes of the line, or its floating-point register a double word, and retires; one of a
line that nothing in the bough holds takes a miss entry and does not retire. A store to a line held writable replaces its bytes and leaves the line
modified. The return of an answered miss frees its entry and retires the load. No byte of memory changes. (The model's choices in this: log entries
15, 16, 28.) -/
def Obligations.LeafAccessesRetireOrMiss : Prop :=
  (∀ (s : State) (n : Nat) (raw acc : LeafAccess) (d : Dev), s.dev.admitAccess n raw = (some acc, d) →
    acc = { raw with addr := acc.addr, addr2 := acc.addr2, pbmt := acc.pbmt, pbmt2 := acc.pbmt2 } ∧ d = { s.dev with leaves := d.leaves, free := d.free }
      ∧ (∀ m, m ≠ n → d.leaf m = s.dev.leaf m) ∧ (d.leaf n).x = (s.dev.leaf n).x ∧ (d.leaf n).f = (s.dev.leaf n).f
      ∧ (d.leaf n).v = (s.dev.leaf n).v ∧ (d.leaf n).pc = (s.dev.leaf n).pc ∧ (d.leaf n).mode = (s.dev.leaf n).mode
      ∧ (d.leaf n).misses = (s.dev.leaf n).misses ∧ (d.leaf n).resv = (s.dev.leaf n).resv) ∧
  (∀ (s : State) (n : Nat) (raw acc : LeafAccess), s.dev.powered = true → s.dev.leafRuns n = true → (s.dev.leaf n).interrupt = none →
    (s.dev.leaf n).accessTrap raw = none → (s.dev.admitAccess n raw).1 = some acc → raw.kind = .load → raw.last = true →
    acc.pbmt = .pma → 0 < raw.size → raw.size ≤ 8 → acc.addr % 64 + raw.size ≤ 64 → mainMemory acc.addr = true →
    (s.dev.leaf n).misses.length < 48 → s.dev.canServe (n / 16) (acc.addr / 64) false = true →
    ((s.dev.bough (n / 16)).evb.any fun e => e.line == acc.addr / 64) = false → ((s.dev.bough (n / 16)).line (acc.addr / 64)).poison = false →
    ∃ d : Dev, exec (.leafLoadStore n raw .none) s = .next (s.withDev d)
      ∧ (d.leaf n).pc = (s.dev.leaf n).pc + BitVec.ofNat 64 raw.len
      ∧ (raw.file = .x → raw.rd ≠ 0 → (d.leaf n).getX raw.rd =
          loadValue raw (lineBytes ((s.dev.bough (n / 16)).line (acc.addr / 64)).data (acc.addr % 64) raw.size))
      ∧ (raw.file = .f → raw.size = 8 → (d.leaf n).f.find 0 raw.rd =
          BitVec.ofNat 64 (lineBytes ((s.dev.bough (n / 16)).line (acc.addr / 64)).data (acc.addr % 64) 8))
      ∧ (raw.file ≠ .x → (d.leaf n).x = (s.dev.leaf n).x) ∧ (raw.file ≠ .f → (d.leaf n).f = (s.dev.leaf n).f)
      ∧ (∀ r, r ≠ raw.rd → (d.leaf n).getX r = (s.dev.leaf n).getX r) ∧ (d.leaf n).misses = (s.dev.leaf n).misses ∧ (d.leaf n).mode = (s.dev.leaf n).mode
      ∧ (∀ m, m ≠ n → (d.leaf m).x = (s.dev.leaf m).x ∧ (d.leaf m).pc = (s.dev.leaf m).pc) ∧ d.mem = s.dev.mem) ∧
  (∀ (s : State) (n : Nat) (raw acc : LeafAccess), s.dev.powered = true → s.dev.leafRuns n = true → (s.dev.leaf n).interrupt = none →
    (s.dev.leaf n).accessTrap raw = none → (s.dev.admitAccess n raw).1 = some acc → raw.kind = .load → acc.pbmt = .pma →
    0 < raw.size → raw.size ≤ 8 → mainMemory acc.addr = true → (s.dev.leaf n).misses.length < 48 →
    ((s.dev.bough (n / 16)).line (acc.addr / 64)).valid = false →
    ((s.dev.bough (n / 16)).evb.any fun e => e.line == acc.addr / 64) = false →
    ∃ d : Dev, exec (.leafLoadStore n raw .none) s = .next (s.withDev d)
      ∧ (d.leaf n).misses = (s.dev.leaf n).misses ++ [{ addr := acc.addr, kind := .demand acc }] ∧ (d.leaf n).pc = (s.dev.leaf n).pc
      ∧ (d.leaf n).x = (s.dev.leaf n).x ∧ ((d.bough (n / 16)).txn (acc.addr / 64)).isSome = true ∧ d.mem = s.dev.mem
      ∧ ∀ m, m ≠ n → d.leaf m = s.dev.leaf m) ∧
  (∀ (s : State) (n : Nat) (raw acc : LeafAccess), s.dev.powered = true → s.dev.leafRuns n = true → (s.dev.leaf n).interrupt = none →
    (s.dev.leaf n).accessTrap raw = none → (s.dev.admitAccess n raw).1 = some acc → raw.kind = .store → raw.last = true →
    acc.pbmt = .pma → 0 < raw.size → raw.size ≤ 8 → acc.addr % 64 + raw.size ≤ 64 → mainMemory acc.addr = true →
    (s.dev.leaf n).misses.length < 48 → s.dev.canServe (n / 16) (acc.addr / 64) true = true →
    ((s.dev.bough (n / 16)).evb.any fun e => e.line == acc.addr / 64) = false →
    ∃ d : Dev, exec (.leafLoadStore n raw .none) s = .next (s.withDev d)
      ∧ (d.leaf n).pc = (s.dev.leaf n).pc + BitVec.ofNat 64 raw.len ∧ (d.leaf n).x = (s.dev.leaf n).x
      ∧ ((d.bough (n / 16)).line (acc.addr / 64)).st = .modified
      ∧ ((d.bough (n / 16)).line (acc.addr / 64)).data =
          lineWith ((s.dev.bough (n / 16)).line (acc.addr / 64)).data (acc.addr % 64) raw.size raw.value.toNat
      ∧ d.mem = s.dev.mem) ∧
  (∀ (s : State) (n a : Nat) (m : LeafMiss) (acc : LeafAccess), s.dev.powered = true →
    ((s.dev.leaf n).misses.find? fun x => x.addr == a) = some m → m.kind = .demand acc → m.answer = some false → m.poison = false →
    acc.kind = .load → acc.file = .x → (s.dev.leaf n).stalled = none → (s.dev.leaf n).mchkPending = none →
    ∃ d : Dev, exec (.missResponseReturn n a) s = .next (s.withDev d) ∧ d = { s.dev with leaves := d.leaves }
      ∧ (∀ k, k ≠ n → d.leaf k = s.dev.leaf k) ∧ (d.leaf n).misses = (s.dev.leaf n).misses.erase m
      ∧ (d.leaf n).pc = (s.dev.leaf n).pc + BitVec.ofNat 64 acc.len ∧ (acc.rd ≠ 0 → (d.leaf n).getX acc.rd = loadValue acc m.value)
      ∧ ∀ r, r ≠ acc.rd → (d.leaf n).getX r = (s.dev.leaf n).getX r)

/-- CBO.ZERO of a line held writable fills it with zeros (R161). A prefetch of a line that its bough does not hold takes a miss entry and asks for the
line (R68, R161), and a Zicbop hint retires; where it would take one of the last four entries it is dropped (R69). FENCE.I retires, and later fetches
see every earlier store (R61). WFI retires and leaves the leaf IDLE unless an interrupt that mie enables is pending (R360); neither changes another
register of the core. (The model's choices in this: log entries 16, 18, 38.) -/
def Obligations.LeafHintsFencesAndWfi : Prop :=
  (∀ (s : State) (n a : Nat) (acc : LeafAccess), s.dev.powered = true → s.dev.leafRuns n = true → (s.dev.leaf n).interrupt = none →
    (s.dev.leaf n).cbzeTrap = none →
    (s.dev.mapAccess n { kind := .store, va := BitVec.ofNat 64 (a / 64 * 64), size := 64 }).1 = .ok acc → acc.pbmt = .pma →
    mainMemory acc.addr = true → s.dev.memCheck (s.dev.leafClass n) 0 true acc.addr = .ok →
    s.dev.canServe (n / 16) (acc.addr / 64) true = true → (s.dev.leaf n).misses.length < 48 →
    ((s.dev.bough (n / 16)).evb.any fun e => e.line == acc.addr / 64) = false →
    ∃ d : Dev, exec (.cboZero n a) s = .next (s.withDev d) ∧ ((d.bough (n / 16)).line (acc.addr / 64)).data = 0
      ∧ ((d.bough (n / 16)).line (acc.addr / 64)).poison = false ∧ ((d.bough (n / 16)).line (acc.addr / 64)).st = .modified
      ∧ (d.leaf n).pc = (s.dev.leaf n).pc + 4 ∧ (d.leaf n).x = (s.dev.leaf n).x ∧ d.mem = s.dev.mem) ∧
  (∀ (s : State) (n a : Nat) (k : PrefetchKind) (acc : LeafAccess), s.dev.powered = true → s.dev.leafReady n = true →
    (if k = .hardware then acc = { kind := prefetchKind k, va := BitVec.ofNat 64 (a / 64 * 64), size := 64, addr := a / 64 * 64 }
      else s.dev.leafRuns n = true ∧ ((s.dev.modLeaf n fun l => l.retire (l.pc + 4)).mapAccess n
        { kind := prefetchKind k, va := BitVec.ofNat 64 (a / 64 * 64), size := 64 }).1 = .ok acc) →
    acc.pbmt = .pma → mainMemory acc.addr = true → s.dev.memCheck (s.dev.leafClass n) 0 false acc.addr = .ok →
    (s.dev.leaf n).misses.length < 44 → ((s.dev.bough (n / 16)).line (acc.addr / 64)).valid = false →
    ((s.dev.bough (n / 16)).evb.any fun e => e.line == acc.addr / 64) = false →
    ∃ d : Dev, exec (.prefetch n k a) s = .next (s.withDev d)
      ∧ (d.leaf n).misses = (s.dev.leaf n).misses ++ [{ addr := acc.addr, kind := .prefetch k }]
      ∧ ((d.bough (n / 16)).txn (acc.addr / 64)).isSome = true ∧ (d.leaf n).x = (s.dev.leaf n).x ∧ d.mem = s.dev.mem
      ∧ (d.leaf n).pc = (s.dev.leaf n).pc + (if k = .hardware then 0 else 4) ∧ ∀ m, m ≠ n → d.leaf m = s.dev.leaf m) ∧
  (∀ (s : State) (n a : Nat) (k : PrefetchKind) (acc : LeafAccess), s.dev.powered = true → s.dev.leafRuns n = true → k ≠ .hardware →
    ((s.dev.modLeaf n fun l => l.retire (l.pc + 4)).mapAccess n
      { kind := prefetchKind k, va := BitVec.ofNat 64 (a / 64 * 64), size := 64 }).1 = .ok acc →
    s.dev.memCheck (s.dev.leafClass n) 0 false acc.addr = .ok → 44 ≤ (s.dev.leaf n).misses.length →
    ∃ d : Dev, exec (.prefetch n k a) s = .next (s.withDev d) ∧ d.boughs = s.dev.boughs ∧ d.mem = s.dev.mem
      ∧ (d.leaf n).misses = (s.dev.leaf n).misses ∧ (d.leaf n).pc = (s.dev.leaf n).pc + 4 ∧ (d.leaf n).x = (s.dev.leaf n).x
      ∧ ∀ m, m ≠ n → d.leaf m = s.dev.leaf m) ∧
  (∀ (s : State) (n : Nat), s.dev.powered = true → s.dev.leafRuns n = true →
    ∃ d : Dev, exec (.fenceI n) s = .next (s.withDev d) ∧ d = { s.dev with leaves := d.leaves } ∧ (d.leaf n).fetchStale = false
      ∧ (d.leaf n).pc = (s.dev.leaf n).pc + 4 ∧ (d.leaf n).x = (s.dev.leaf n).x ∧ ∀ m, m ≠ n → d.leaf m = s.dev.leaf m) ∧
  (∀ (s : State) (n : Nat), s.dev.powered = true → s.dev.leafRuns n = true → (s.dev.leaf n).interrupt = none →
    (s.dev.leaf n).wfiTrap = none → (s.dev.leaf n).wakes = false →
    bit (s.dev.get BPW_LEAF_PWR.OFF_EN (s.dev.leafSite n)) (n % 16) = false →
    ∃ d : Dev, exec (.wfi n) s = .next (s.withDev d) ∧ d = { s.dev with regs := d.regs, leaves := d.leaves }
      ∧ d.get BGH_LEAF_STAT.PSTATE (s.dev.leafSite n) (n % 16) = 1 ∧ (d.leaf n).pc = (s.dev.leaf n).pc + 4
      ∧ (d.leaf n).x = (s.dev.leaf n).x ∧ (∀ m, m ≠ n → d.leaf m = s.dev.leaf m)
      ∧ ∀ r : Reg, r ≠ ⟨.BGH_LEAF_STAT, s.dev.leafSite n, n % 16⟩ → d.reg r = s.dev.reg r)

/-- Instructions of a leaf that meets no interrupt and no error (R55). An integer operation writes its register alone and retires; a jump writes the
following pc and goes to its target. ECALL in M mode with NMIs enabled traps to mtvec with the pc in mepc, cause 11, and MIE kept in MPIE. MRET
returns to mepc in the mode of MPP. A residue mismatch with NMIs enabled enters the RNMI handler with the pc in mnepc, its code in mncause, NMIs
disabled and the instruction not retired (R70 to R72). MNRET enables NMIs and goes to mnepc. (The model's choices in this: log entries 14, 68, 69,
81.) -/
def Obligations.LeafInstructionsAndTraps : Prop :=
  (∀ (s : State) (n : Nat) (op : AluOp) (rd rs1 : Nat) (src : RegOrImm) (len : Nat) (bits : Word), s.dev.powered = true →
    s.dev.leafRuns n = true → (s.dev.leaf n).interrupt = none →
    ∃ d : Dev, exec (.leafInstruction n ⟨.alu op rd rs1 src, len, bits⟩ .none) s = .next (s.withDev d)
      ∧ d = { s.dev with leaves := d.leaves }
      ∧ (rd ≠ 0 → (d.leaf n).getX rd = aluResult op ((s.dev.leaf n).getX rs1) (operandValue src (s.dev.leaf n)))
      ∧ (∀ r, r ≠ rd → (d.leaf n).getX r = (s.dev.leaf n).getX r) ∧ (d.leaf n).getX 0 = 0
      ∧ (d.leaf n).pc = (s.dev.leaf n).pc + BitVec.ofNat 64 len ∧ (d.leaf n).mode = (s.dev.leaf n).mode
      ∧ (d.leaf n).csrRaw 0x300 = (s.dev.leaf n).csrRaw 0x300 ∧ (d.leaf n).csrRaw 0x341 = (s.dev.leaf n).csrRaw 0x341
      ∧ (d.leaf n).resv = (s.dev.leaf n).resv ∧ ∀ m, m ≠ n → d.leaf m = s.dev.leaf m) ∧
  (∀ (s : State) (n rd : Nat) (off : Word) (len : Nat) (bits : Word), s.dev.powered = true →
    s.dev.leafRuns n = true → (s.dev.leaf n).interrupt = none →
    ∃ d : Dev, exec (.leafInstruction n ⟨.jal rd off, len, bits⟩ .none) s = .next (s.withDev d) ∧ d = { s.dev with leaves := d.leaves }
      ∧ (rd ≠ 0 → (d.leaf n).getX rd = (s.dev.leaf n).pc + BitVec.ofNat 64 len)
      ∧ (∀ r, r ≠ rd → (d.leaf n).getX r = (s.dev.leaf n).getX r) ∧ (d.leaf n).pc = (s.dev.leaf n).pc + off) ∧
  (∀ (s : State) (n len : Nat) (bits : Word), s.dev.powered = true → s.dev.leafRuns n = true → (s.dev.leaf n).interrupt = none →
    (s.dev.leaf n).mode = .machine → ((s.dev.leaf n).csrRaw 0x744).getLsbD 3 = true →
    ∃ d : Dev, exec (.leafInstruction n ⟨.ecall, len, bits⟩ .none) s = .next (s.withDev d) ∧ d = { s.dev with leaves := d.leaves }
      ∧ (d.leaf n).mode = .machine ∧ (d.leaf n).csrRaw 0x341 = (s.dev.leaf n).pc ∧ (d.leaf n).csrRaw 0x342 = 11
      ∧ (d.leaf n).csrRaw 0x343 = 0 ∧ (d.leaf n).pc = (s.dev.leaf n).csrRaw 0x305 &&& ~~~(3 : Word)
      ∧ ((d.leaf n).csrRaw 0x300).getLsbD 3 = false
      ∧ ((d.leaf n).csrRaw 0x300).getLsbD 7 = ((s.dev.leaf n).csrRaw 0x300).getLsbD 3
      ∧ ((d.leaf n).csrRaw 0x300).bits 12 11 = 3 ∧ (d.leaf n).x = (s.dev.leaf n).x ∧ ∀ m, m ≠ n → d.leaf m = s.dev.leaf m) ∧
  (∀ (s : State) (n len : Nat) (bits : Word), s.dev.powered = true → s.dev.leafRuns n = true → (s.dev.leaf n).interrupt = none →
    (s.dev.leaf n).mode = .machine →
    ∃ d : Dev, exec (.leafInstruction n ⟨.mret, len, bits⟩ .none) s = .next (s.withDev d) ∧ d = { s.dev with leaves := d.leaves }
      ∧ (d.leaf n).pc = (s.dev.leaf n).csrRaw 0x341
      ∧ (d.leaf n).mode = modeOf (((s.dev.leaf n).csrRaw 0x300).bits 12 11) (((s.dev.leaf n).csrRaw 0x300).getLsbD 39)
      ∧ ((d.leaf n).csrRaw 0x300).getLsbD 3 = ((s.dev.leaf n).csrRaw 0x300).getLsbD 7
      ∧ ((d.leaf n).csrRaw 0x300).getLsbD 7 = true ∧ (d.leaf n).x = (s.dev.leaf n).x) ∧
  (∀ (s : State) (n : Nat) (i : LeafInsn), s.dev.powered = true → s.dev.leafRuns n = true → (s.dev.leaf n).interrupt = none →
    usesAlu i.op = true → ((s.dev.leaf n).csrRaw 0x744).getLsbD 3 = true →
    ∃ d : Dev, exec (.leafInstruction n i .alu) s = .next (s.withDev d) ∧ (d.leaf n).csrRaw 0x741 = (s.dev.leaf n).pc
      ∧ (d.leaf n).csrRaw 0x742 = 0x8000000000000001 ∧ ((d.leaf n).csrRaw 0x744).getLsbD 3 = false
      ∧ ((d.leaf n).csrRaw 0x744).bits 12 11 = modeCode (s.dev.leaf n).mode ∧ (d.leaf n).mode = .machine
      ∧ ((d.leaf n).csrRaw 0x7C0).getLsbD 63 = true ∧ ((d.leaf n).csrRaw 0x7C0).bits 39 32 = 1
      ∧ (d.leaf n).pc = BitVec.ofNat 64 (s.dev.get BGH_RNMI_VEC.ADDR (s.dev.leafSite n) * 4) ∧ (d.leaf n).x = (s.dev.leaf n).x) ∧
  (∀ (s : State) (n : Nat), s.dev.powered = true → s.dev.leafRuns n = true → (s.dev.leaf n).mode = .machine →
    (s.dev.leaf n).mchkPending = none →
    ∃ d : Dev, exec (.mnret n) s = .next (s.withDev d) ∧ d = { s.dev with leaves := d.leaves }
      ∧ ((d.leaf n).csrRaw 0x744).getLsbD 3 = true ∧ (d.leaf n).pc = (s.dev.leaf n).csrRaw 0x741
      ∧ (d.leaf n).mode = modeOf (((s.dev.leaf n).csrRaw 0x744).bits 12 11) (((s.dev.leaf n).csrRaw 0x744).getLsbD 7)
      ∧ (d.leaf n).x = (s.dev.leaf n).x)

/-- Address translation, physical memory protection and control registers of a leaf (R55, R57, R58). In M mode without MPRV an access within a page is to
the physical address it names, once the PMP permits it. A load in S mode whose address is not canonical for the page tables in force takes a load page
fault with its address in mtval, and a store in U mode that no PMP entry covers a store access fault, each with the pc in mepc and nothing else of the
core changed. A leaf entry with A clear, or for a store with D clear, admits no access. SFENCE.VMA in S mode empties the TLBs of the entries of the
modes that are not virtual, and under TVM is an illegal instruction whose bits mtval holds. misa reads as R57 says and ignores a write. (The model's
choices in this: log entries 15, 69, 79.) -/
def Obligations.LeafTranslationAndProtection : Prop :=
  (∀ (s : State) (n : Nat) (raw : LeafAccess), raw.kind ≠ .walk → raw.hv = false → (s.dev.leaf n).mode = .machine →
    ((s.dev.leaf n).csrRaw 0x300).getLsbD 17 = false → raw.va.toNat % 4096 + raw.size ≤ 4096 → raw.va.toNat < 2 ^ 48 →
    (s.dev.leaf n).pmpPermits .machine (pmpNeed raw.kind) raw.va.toNat raw.size = true →
    s.dev.mapAccess n raw = (.ok { raw with addr := raw.va.toNat, addr2 := none, pbmt := .pma }, s.dev)) ∧
  (∀ (s : State) (n : Nat) (raw : LeafAccess), s.dev.powered = true → s.dev.leafRuns n = true → (s.dev.leaf n).interrupt = none →
    (s.dev.leaf n).accessTrap raw = none → raw.kind = .load → raw.hv = false → 0 < raw.size → raw.size ≤ 8 →
    (s.dev.leaf n).mode = .super → (s.dev.leaf n).tlb = [] → ((s.dev.leaf n).csrRaw 0x302).getLsbD 13 = false →
    8 ≤ ((s.dev.leaf n).csrRaw 0x180).bits 63 60 → canonical (svLevels (((s.dev.leaf n).csrRaw 0x180).bits 63 60)) raw.va = false →
    ∃ d : Dev, exec (.leafLoadStore n raw .none) s = .next (s.withDev d) ∧ d = { s.dev with leaves := d.leaves }
      ∧ (d.leaf n).mode = .machine ∧ (d.leaf n).csrRaw 0x342 = 13 ∧ (d.leaf n).csrRaw 0x343 = raw.va
      ∧ (d.leaf n).csrRaw 0x341 = (s.dev.leaf n).pc ∧ ((d.leaf n).csrRaw 0x300).bits 12 11 = 1 ∧ (d.leaf n).x = (s.dev.leaf n).x
      ∧ (d.leaf n).misses = (s.dev.leaf n).misses ∧ ∀ m, m ≠ n → d.leaf m = s.dev.leaf m) ∧
  (∀ (s : State) (n : Nat) (raw : LeafAccess), s.dev.powered = true → s.dev.leafRuns n = true → (s.dev.leaf n).interrupt = none →
    (s.dev.leaf n).accessTrap raw = none → raw.kind = .store → raw.hv = false → 0 < raw.size → raw.size ≤ 8 →
    (s.dev.leaf n).mode = .user → ((s.dev.leaf n).csrRaw 0x180).bits 63 60 = 0 → raw.va.toNat < 2 ^ 48 →
    (∀ i, i < 64 → (s.dev.leaf n).pmpRange i = none) → ((s.dev.leaf n).csrRaw 0x302).getLsbD 7 = false →
    ∃ d : Dev, exec (.leafLoadStore n raw .none) s = .next (s.withDev d) ∧ d = { s.dev with leaves := d.leaves }
      ∧ (d.leaf n).mode = .machine ∧ (d.leaf n).csrRaw 0x342 = 7 ∧ (d.leaf n).csrRaw 0x343 = raw.va
      ∧ (d.leaf n).csrRaw 0x341 = (s.dev.leaf n).pc ∧ ((d.leaf n).csrRaw 0x300).bits 12 11 = 0 ∧ (d.leaf n).x = (s.dev.leaf n).x
      ∧ (d.leaf n).misses = (s.dev.leaf n).misses ∧ ∀ m, m ≠ n → d.leaf m = s.dev.leaf m) ∧
  (∀ (bits : Nat) (kind : AccKind) (hx mxr sum user : Bool), bit bits 6 = false ∨ (needsWrite kind = true ∧ bit bits 7 = false) →
    ∃ a, svCheck bits kind hx mxr sum user = some (.page a)) ∧
  (∀ (s : State) (n len : Nat) (bits : Word), s.dev.powered = true → s.dev.leafRuns n = true → (s.dev.leaf n).interrupt = none →
    (s.dev.leaf n).mode = .super → ((s.dev.leaf n).csrRaw 0x300).getLsbD 20 = false →
    ∃ d : Dev, exec (.leafInstruction n ⟨.sfence, len, bits⟩ .none) s = .next (s.withDev d) ∧ d = { s.dev with leaves := d.leaves }
      ∧ (∀ e, e ∈ (d.leaf n).tlb ↔ e ∈ (s.dev.leaf n).tlb ∧ e.virt = true) ∧ (d.leaf n).x = (s.dev.leaf n).x
      ∧ (d.leaf n).pc = (s.dev.leaf n).pc + BitVec.ofNat 64 len ∧ (d.leaf n).mode = .super ∧ ∀ m, m ≠ n → d.leaf m = s.dev.leaf m) ∧
  (∀ (s : State) (n len : Nat) (bits : Word), s.dev.powered = true → s.dev.leafRuns n = true → (s.dev.leaf n).interrupt = none →
    (s.dev.leaf n).mode = .super → ((s.dev.leaf n).csrRaw 0x300).getLsbD 20 = true → ((s.dev.leaf n).csrRaw 0x302).getLsbD 2 = false →
    ∃ d : Dev, exec (.leafInstruction n ⟨.sfence, len, bits⟩ .none) s = .next (s.withDev d) ∧ d = { s.dev with leaves := d.leaves }
      ∧ (d.leaf n).mode = .machine ∧ (d.leaf n).csrRaw 0x342 = 2 ∧ (d.leaf n).csrRaw 0x343 = bits
      ∧ (d.leaf n).csrRaw 0x341 = (s.dev.leaf n).pc ∧ (d.leaf n).tlb = (s.dev.leaf n).tlb ∧ (d.leaf n).x = (s.dev.leaf n).x) ∧
  (∀ (s : State) (n rd rs len : Nat) (bits : Word), s.dev.powered = true → s.dev.leafRuns n = true → (s.dev.leaf n).interrupt = none →
    (s.dev.leaf n).mode = .machine → (s.dev.leaf n).csrRaw 0x301 = 0x80000000003411AF →
    ∃ d : Dev, exec (.leafInstruction n ⟨.csr .rw rd (.reg rs) 0x301, len, bits⟩ .none) s = .next (s.withDev d)
      ∧ d = { s.dev with leaves := d.leaves } ∧ (rd ≠ 0 → (d.leaf n).getX rd = 0x80000000003411AF)
      ∧ (∀ r, r ≠ rd → (d.leaf n).getX r = (s.dev.leaf n).getX r) ∧ (d.leaf n).csrRaw 0x301 = 0x80000000003411AF
      ∧ (d.leaf n).pc = (s.dev.leaf n).pc + BitVec.ofNat 64 len ∧ ∀ m, m ≠ n → d.leaf m = s.dev.leaf m)

/-- Timers and interrupt files (R64, R65, R67, R73). A written comparison value sets its timer's pending bit exactly where the die's ring count copy has
reached it, and a comparison value that is reached sets it. An MSI makes its identity pending in the file it names and leaves every other identity and
file as it was; one for a leaf that does not exist raises event source 5. A counter that overflows sets its OF bit and the pending bit 13. (The
model's choices in this: log entries 32, 51.) -/
def Obligations.TimersAndInterruptFiles : Prop :=
  (∀ (s : State) (n : Nat) (v : Word), s.dev.powered = true → s.dev.leafPresent n = true →
    ∃ d : Dev, exec (.mtimecmpWrite n .mtimecmp v) s = .next (s.withDev d) ∧ d = { s.dev with regs := d.regs, leaves := d.leaves }
      ∧ d.reg ⟨.BGH_MTIMECMP, s.dev.leafSite n, n % 16⟩ = v
      ∧ ((d.leaf n).csrRaw 0x344).getLsbD 7 = decide (v ≤ s.dev.copy (s.dev.leafSite n))
      ∧ (∀ i, i ≠ 7 → ((d.leaf n).csrRaw 0x344).getLsbD i = ((s.dev.leaf n).csrRaw 0x344).getLsbD i)
      ∧ (d.leaf n).x = (s.dev.leaf n).x ∧ ∀ m, m ≠ n → d.leaf m = s.dev.leaf m) ∧
  (∀ (s : State) (n : Nat) (c : TimerCmp), s.dev.powered = true → s.dev.leafPresent n = true →
    (s.dev.leaf n).timerOn c = true → s.dev.compare n c ≤ s.dev.timeFor n c →
    ∃ d : Dev, exec (.timerCompareMatch n c) s = .next (s.withDev d) ∧ d = { s.dev with regs := d.regs, leaves := d.leaves }
      ∧ ((d.leaf n).csrRaw 0x344).getLsbD (timerBit c) = true
      ∧ (∀ i, i ≠ timerBit c → ((d.leaf n).csrRaw 0x344).getLsbD i = ((s.dev.leaf n).csrRaw 0x344).getLsbD i)
      ∧ (d.leaf n).pc = (s.dev.leaf n).pc ∧ (d.leaf n).x = (s.dev.leaf n).x ∧ ∀ m, m ≠ n → d.leaf m = s.dev.leaf m) ∧
  (∀ (s : State) (h f i : Nat), s.dev.powered = true → s.dev.powerBusy = false → s.dev.leafPresent h = true → f < 9 → 0 < i → i < 2048 →
    s.dev.isolated (s.dev.leafSite h) = false → (s.dev.gate (s.dev.leafSite h)).closed = false → s.dev.reaches (.msi h f i) →
    s.dev.get BGH_LEAF_STAT.PSTATE (s.dev.leafSite h) (h % 16) ≠ 2 →
    ∃ d : Dev, exec (.msiWrite h f i) s = .next (s.withDev d) ∧ i ∈ ((d.leaf h).file f).eip
      ∧ (∀ j, j ≠ i → (j ∈ ((d.leaf h).file f).eip ↔ j ∈ ((s.dev.leaf h).file f).eip))
      ∧ (∀ g, g ≠ f → (d.leaf h).file g = (s.dev.leaf h).file g) ∧ (∀ m, m ≠ h → d.leaf m = s.dev.leaf m)
      ∧ d = { s.dev with regs := d.regs, leaves := d.leaves, wire := (s.dev.take (.msi h f i)).wire }) ∧
  (∀ (s : State) (h f i : Nat), s.dev.powered = true → s.dev.powerBusy = false → s.dev.leafPresent h = false →
    s.dev.reaches (.msi h f i) → exec (.msiWrite h f i) s = .next (s.withDev ((s.dev.take (.msi h f i)).send (.event 5 1 {})))) ∧
  (∀ (s : State) (n k : Nat), s.dev.powered = true → s.dev.leafPresent n = true → 3 ≤ k → k ≤ 31 →
    ((s.dev.leaf n).csrRaw (0x320 + k)).getLsbD 63 = false →
    ∃ d : Dev, exec (.localCounterOverflow n k) s = .next (s.withDev d) ∧ d = { s.dev with regs := d.regs, leaves := d.leaves }
      ∧ ((d.leaf n).csrRaw (0x320 + k)).getLsbD 63 = true ∧ ((d.leaf n).csrRaw 0x344).getLsbD 13 = true
      ∧ (d.leaf n).x = (s.dev.leaf n).x ∧ ∀ m, m ≠ n → d.leaf m = s.dev.leaf m)

/-! ### Caches -/

/-- Locking ways of a bough's L3 (R152, R153, R155, R157). A preload of a line that the bough does not hold asks its home for it and is busy; one that
would lock more than 12 ways is refused. The fetched line lands in a locked way, is acknowledged and counted, and ends the command when it was the
last. UNLOCK leaves no line locked in the ways it names, and every line's data and state as they were. Disabling and enabling a bough's L3 (R158 to
R160). Where the data array holds nothing dirty and the eviction buffer is empty, the disable ends at once, and no line has data in the array. An
enable while the disable is in progress is ignored and recorded; after it EN is set, and the array is in service, with no valid data, once the enable
is done. (The model's choices in this: log entry 17.) -/
def Obligations.TheL3LocksAndIsDisabled : Prop :=
  (∀ (s : State) (i ways b : Nat), s.dev.powered = true → s.dev.siteActive i = true → s.dev.boughAt i = b → s.dev.boughSite b = i →
    s.dev.flag L3C_CTL.EN i = true → (s.dev.bough b).lock = none → ways % 2 ^ 16 ≠ 0 → s.dev.get L3C_LOCK_LEN.LINES i ≠ 0 →
    s.dev.get L3C_LOCK_ADDR.ADDR i + s.dev.get L3C_LOCK_LEN.LINES i ≤ 2 ^ 42 →
    waysIn (ways % 2 ^ 16 ||| s.dev.get L3C_LOCK_WAYS.WAYS i) ≤ 12 → s.dev.l3On b = true →
    ((s.dev.bough b).line (s.dev.get L3C_LOCK_ADDR.ADDR i)).valid = false →
    (s.dev.bough b).txn (s.dev.get L3C_LOCK_ADDR.ADDR i) = none → (s.dev.bough b).evb = [] →
    s.dev.lockRefused (s.dev.get L3C_LOCK_ADDR.ADDR i) = none →
    (s.dev.bough b).lockWays (s.dev.get L3C_LOCK_ADDR.ADDR i) (ways % 2 ^ 16) ≠ [] →
    ∃ d : Dev, exec (.preloadAndLock i ways) s = .next (s.withDev d) ∧ d = { s.dev with regs := d.regs, boughs := d.boughs, wire := d.wire }
      ∧ d.flag L3C_LOCK_STAT.BUSY i = true ∧ d.flag L3C_LOCK_STAT.DONE i = false ∧ d.get L3C_LOCK_STAT.LOCKED i = 0
      ∧ d.get L3C_LOCK_WAYS.WAYS i = ways % 2 ^ 16 ||| s.dev.get L3C_LOCK_WAYS.WAYS i
      ∧ ((d.bough b).lock.map (·.fetching)) = some true ∧ ((d.bough b).txn (s.dev.get L3C_LOCK_ADDR.ADDR i)).isSome = true
      ∧ ∀ line, (d.bough b).line line = (s.dev.bough b).line line) ∧
  (∀ (s : State) (i ways : Nat), s.dev.powered = true → s.dev.siteActive i = true → (s.dev.bough (s.dev.boughAt i)).lock = none →
    ways % 2 ^ 16 ≠ 0 → s.dev.get L3C_LOCK_LEN.LINES i ≠ 0 →
    s.dev.get L3C_LOCK_ADDR.ADDR i + s.dev.get L3C_LOCK_LEN.LINES i ≤ 2 ^ 42 →
    12 < waysIn (ways % 2 ^ 16 ||| s.dev.get L3C_LOCK_WAYS.WAYS i) →
    exec (.preloadAndLock i ways) s = .next (s.withDev ((s.dev.put L3C_LOCK_STAT.DONE 1 i).put L3C_LOCK_STAT.STATUS 2 i))) ∧
  (∀ (s : State) (i b w : Nat) (c : LockCmd) (t : BoughTxn) (g : Grant) (ep : Nat) (x : LineData), s.dev.powered = true →
    s.dev.siteActive i = true → s.dev.boughAt i = b → s.dev.boughSite b = i → s.dev.isolated i = false →
    s.dev.l3On b = true → (∀ j, j < 16 → (s.dev.leaf (16 * b + j)).misses = [] ∧ (s.dev.lee (16 * b + j)).mem = []) →
    (s.dev.bough b).lock = some c → c.fetching = true → c.ending = false → c.left = 1 → c.firstFail = none →
    (s.dev.bough b).txns = [t] → t.line = c.next → t.filled = some (g, ep, x) → x.poison = false →
    ((s.dev.bough b).line c.next).valid = false → ((s.dev.bough b).line c.next).locked = false →
    (s.dev.bough b).chooseWay c.next ((s.dev.bough b).lockWays c.next c.ways) = some (w, none) →
    ∃ d : Dev, exec (.lockLineFetchReturn i) s = .next (s.withDev d)
      ∧ ((d.bough b).line c.next).locked = true ∧ ((d.bough b).line c.next).way = w ∧ ((d.bough b).line c.next).data = x.data
      ∧ ((d.bough b).line c.next).st = grantState g ∧ (d.bough b).txns = [] ∧ (d.bough b).lock = none
      ∧ d.packets = s.dev.packets ++ [.compAck b c.next] ∧ d.flag L3C_LOCK_STAT.DONE i = true ∧ d.flag L3C_LOCK_STAT.BUSY i = false
      ∧ d.get L3C_LOCK_STAT.STATUS i = 0 ∧ d.get L3C_LOCK_STAT.LOCKED i = (s.dev.get L3C_LOCK_STAT.LOCKED i + 1) % 2 ^ 24
      ∧ d.mem = s.dev.mem) ∧
  (∀ (s : State) (i ways b : Nat), s.dev.powered = true → s.dev.siteActive i = true → s.dev.boughAt i = b → s.dev.boughSite b = i →
    (s.dev.bough b).lock = none →
    ∃ d : Dev, exec (.unlock i ways) s = .next (s.withDev d) ∧ d = { s.dev with regs := d.regs, boughs := d.boughs }
      ∧ (∀ line, ((d.bough b).line line).locked = true → bit (ways % 2 ^ 16) ((d.bough b).line line).way = false)
      ∧ (∀ line, ((s.dev.bough b).line line).valid = true → ((d.bough b).line line).data = ((s.dev.bough b).line line).data
          ∧ ((d.bough b).line line).st = ((s.dev.bough b).line line).st)
      ∧ (∀ w, w < 16 → bit (d.get L3C_LOCK_WAYS.WAYS i) w = (bit (s.dev.get L3C_LOCK_WAYS.WAYS i) w && !bit ways w))
      ∧ d.flag L3C_LOCK_STAT.DONE i = true ∧ d.get L3C_LOCK_STAT.STATUS i = 0) ∧
  (∀ (s : State) (i b : Nat), s.dev.powered = true → s.dev.siteActive i = true → s.dev.boughAt i = b → s.dev.boughSite b = i →
    s.dev.flag L3C_CTL.EN i = true → s.dev.flag L3C_STAT.DISABLED i = false → (s.dev.bough b).lock = none →
    (s.dev.bough b).evb = [] → (s.dev.bough b).txns = [] →
    (∀ p ∈ (s.dev.bough b).lines, p.2.dirtyHere = false) →
    ∃ d : Dev, exec (.l3Disable i) s = .next (s.withDev d) ∧ d.flag L3C_CTL.EN i = false ∧ d.flag L3C_STAT.DISABLED i = true
      ∧ d.flag L3C_STAT.FLUSHING i = false
      ∧ (∀ line, ((d.bough b).line line).valid = true → ((d.bough b).line line).hasData = false) ∧ d.mem = s.dev.mem) ∧
  (∀ (s : State) (i : Nat), s.dev.powered = true → s.dev.siteActive i = true → s.dev.flag L3C_CTL.EN i = false →
    s.dev.flag L3C_STAT.DISABLED i = false → exec (.l3Enable i) s = .next (s.withDev (s.dev.put L3C_STAT.EN_IGN 1 i))) ∧
  (∀ (s : State) (i : Nat), s.dev.powered = true → s.dev.siteActive i = true → s.dev.flag L3C_CTL.EN i = false →
    s.dev.flag L3C_STAT.DISABLED i = true → exec (.l3Enable i) s = .next (s.withDev (s.dev.put L3C_CTL.EN 1 i))) ∧
  (∀ (s : State) (i b : Nat), s.dev.powered = true → s.dev.siteActive i = true → s.dev.boughAt i = b →
    s.dev.flag L3C_CTL.EN i = true → s.dev.flag L3C_STAT.DISABLED i = true → (s.dev.bough b).lock = none →
    ∃ d : Dev, exec (.l3EnableDone i) s = .next (s.withDev d) ∧ d = { s.dev with regs := d.regs, boughs := d.boughs }
      ∧ d.flag L3C_STAT.DISABLED i = false
      ∧ ∀ line, (d.bough b).line line = if ((s.dev.bough b).line line).valid then { (s.dev.bough b).line line with hasData := false }
          else (s.dev.bough b).line line)

/-! ### Coherence -/

/-- Requests that keep a copy, at a home with nothing under way (R168, R170, R171). RD_SHARED of a line that another bough owns exclusively snoops the
owner with SNP_SHARED for the requester; RD_UNIQUE of a shared line invalidates every other sharer; UPGRADE of the only sharer, and CLAIM of a line
that nobody holds, are granted at once at the next epoch and wait for COMP_ACK. No request changes memory, a bough or the directory before it closes.
Requests that keep no copy, at a home with nothing under way (R168, R170, R180). RD_NOALLOC of an owned line asks the owner for its current data.
WR_FULL and WR_PARTIAL of a DRAM line that nobody holds write it: the whole line, whose poison clears, or the bytes of the mask merged into the line,
which keeps its poison; the sender is told, nothing stays open, and no byte of another line changes. (The model's choices in this: log entries 3, 19,
24.) -/
def Obligations.CoherentRequests : Prop :=
  (∀ (s : State) (b line retry q : Nat), s.dev.powered = true → s.dev.reached b → mainMemory (64 * line) = true →
    s.dev.reaches (.request b ⟨.rdShared, .bough b, line, retry, 0, 0⟩) →
    s.dev.homeOfLine line = q → (s.dev.home q).quiet → (s.dev.entry q line).st = .excl → (s.dev.entry q line).owner ≠ b →
    ∃ d : Dev, exec (.rdShared b line retry .none) s = .next (s.withDev d)
      ∧ d = { s.dev with regs := d.regs, homes := d.homes, wire := d.wire }
      ∧ d.packets = s.dev.packets.erase (.request b ⟨.rdShared, .bough b, line, retry, 0, 0⟩)
          ++ [.snoop .shared (s.dev.entry q line).owner line (some b)]
      ∧ ((d.home q).txn line).map (·.snoops) = some [((s.dev.entry q line).owner, .shared)]
      ∧ (d.home q).dir = (s.dev.home q).dir ∧ ∀ r : Reg, r.name ≠ .DIR_CNT → d.reg r = s.dev.reg r) ∧
  (∀ (s : State) (b line retry q : Nat), s.dev.powered = true → s.dev.reached b → mainMemory (64 * line) = true →
    s.dev.reaches (.request b ⟨.rdUnique, .bough b, line, retry, 0, 0⟩) →
    s.dev.homeOfLine line = q → (s.dev.home q).quiet → (s.dev.entry q line).st = .shared →
    ((s.dev.entry q line).sharers.filter (· != b)) ≠ [] →
    ∃ d : Dev, exec (.rdUnique b line retry) s = .next (s.withDev d)
      ∧ d = { s.dev with regs := d.regs, homes := d.homes, wire := d.wire }
      ∧ d.packets = s.dev.packets.erase (.request b ⟨.rdUnique, .bough b, line, retry, 0, 0⟩)
          ++ ((s.dev.entry q line).sharers.filter (· != b)).map (Packet.snoop .inv · line none)
      ∧ (d.home q).dir = (s.dev.home q).dir) ∧
  (∀ (s : State) (b line retry q : Nat), s.dev.powered = true → s.dev.reached b → mainMemory (64 * line) = true →
    s.dev.reaches (.request b ⟨.upgrade, .bough b, line, retry, 0, 0⟩) →
    s.dev.homeOfLine line = q → (s.dev.home q).quiet → (s.dev.entry q line).st = .shared → (s.dev.entry q line).sharers = [b] →
    ∃ d : Dev, exec (.upgrade b line retry) s = .next (s.withDev d)
      ∧ d = { s.dev with regs := d.regs, homes := d.homes, wire := d.wire }
      ∧ d.packets = s.dev.packets.erase (.request b ⟨.upgrade, .bough b, line, retry, 0, 0⟩)
          ++ [.grant b line .excl (((s.dev.entry q line).epoch + 1) % 16) false]
      ∧ ((d.home q).txn line).map (·.waitAck) = some true ∧ (d.home q).dir = (s.dev.home q).dir) ∧
  (∀ (s : State) (b line retry q : Nat), s.dev.powered = true → s.dev.reached b → mainMemory (64 * line) = true →
    s.dev.reaches (.request b ⟨.claim, .bough b, line, retry, 0, 0⟩) →
    s.dev.homeOfLine line = q → (s.dev.home q).quiet → (s.dev.entry q line).st = .invalid → (s.dev.entry q line).sharers = [] →
    s.dev.setUse q (dirSet line) < 16 →
    ∃ d : Dev, exec (.claim b line retry) s = .next (s.withDev d)
      ∧ d = { s.dev with regs := d.regs, homes := d.homes, wire := d.wire }
      ∧ d.packets = s.dev.packets.erase (.request b ⟨.claim, .bough b, line, retry, 0, 0⟩)
          ++ [.grant b line .excl (((s.dev.entry q line).epoch + 1) % 16) false]
      ∧ ((d.home q).txn line).map (·.waitAck) = some true ∧ (d.home q).dir = (s.dev.home q).dir) ∧
  (∀ (s : State) (src : CohReq) (line q : Nat), s.dev.powered = true → (∀ b, src = .bough b → s.dev.reached b) →
    mainMemory (64 * line) = true → s.dev.homeOfLine line = q → (s.dev.home q).quiet → (s.dev.entry q line).st = .owned →
    HomeReq.bough ⟨.rdNoalloc, src, line, 0, 0, 0⟩ ≠ some (s.dev.entry q line).owner → (s.dev.entry q line).owner < 24 →
    s.dev.reaches (requestPacket ⟨.rdNoalloc, src, line, 0, 0, 0⟩) →
    ∃ d : Dev, exec (.rdNoalloc src line) s = .next (s.withDev d)
      ∧ d = { s.dev with regs := d.regs, homes := d.homes, wire := d.wire }
      ∧ Packet.snoop .current (s.dev.entry q line).owner line none ∈ d.packets ∧ (d.home q).dir = (s.dev.home q).dir) ∧
  (∀ (s : State) (src : CohReq) (line q m : Nat) (r : Nat) (x : Line), s.dev.powered = true → (∀ b, src = .bough b → s.dev.reached b) →
    rangeOf (64 * line) = .dram → s.dev.homeOfLine line = q → (s.dev.home q).quiet → (s.dev.entry q line).st = .invalid →
    (s.dev.entry q line).sharers = [] → s.dev.channelOf (64 * line) = some (m, r) → s.dev.get MEM_STAT.STATE m ≠ 4 →
    s.dev.channelTakes m (src == .trace) = true → s.dev.reaches (requestPacket ⟨.wrFull, src, line, 0, 0, x⟩) →
    ∃ d : Dev, exec (.wrFull src line x) s = .next (s.withDev d) ∧ d.memLine line = ⟨x, false⟩
      ∧ (∀ a, a / 64 ≠ line → d.byte a = s.dev.byte a) ∧ (d.home q).txns = [] ∧ Packet.wrComp src line false ∈ d.packets
      ∧ d.boughs = s.dev.boughs ∧ ∀ r : Reg, r.name ≠ .DIR_CNT → d.reg r = s.dev.reg r) ∧
  (∀ (s : State) (src : CohReq) (line q m : Nat) (r : Nat) (mask : Word) (x : Line), s.dev.powered = true →
    (∀ b, src = .bough b → s.dev.reached b) → rangeOf (64 * line) = .dram → s.dev.homeOfLine line = q → (s.dev.home q).quiet →
    (s.dev.entry q line).st = .invalid → (s.dev.entry q line).sharers = [] → s.dev.channelOf (64 * line) = some (m, r) →
    s.dev.get MEM_STAT.STATE m ≠ 4 → s.dev.channelTakes m (src == .trace) = true →
    s.dev.reaches (requestPacket ⟨.wrPartial, src, line, 0, mask.toNat, x⟩) →
    ∃ d : Dev, exec (.wrPartial src line mask x) s = .next (s.withDev d)
      ∧ d.memLine line = ⟨mergeLine (s.dev.memLine line).data x mask.toNat, (s.dev.memLine line).poison⟩
      ∧ (∀ a, a / 64 ≠ line → d.byte a = s.dev.byte a) ∧ (d.home q).txns = []
      ∧ Packet.wrComp src line (s.dev.memLine line).poison ∈ d.packets ∧ d.boughs = s.dev.boughs)

/-- How transactions go on and end at the home (R171, R175, R181, R183). A dirty copy forwarded for RD_SHARED gives the requester a shared grant; COMP_ACK
gives the entry its final state; a write-back of the recorded owner at its epoch updates memory and is acknowledged, any other is stale and changes no
memory; a snoop that is not answered in time poisons the line and forgets the bough; a purge leaves no entry that names its bough. (The model's
choices in this: log entries 4, 20, 24.) -/
def Obligations.TransactionsAtTheHome : Prop :=
  (∀ (s : State) (b line r q : Nat) (t : HomeTxn) (x : LineData), s.dev.powered = true → s.dev.homeOfLine line = q →
    (b, line) ∉ (s.dev.home q).late → (s.dev.home q).txn line = some t → t.req.op = .rdShared → t.req.src = .bough r →
    t.snoops = [(b, .shared)] → t.evict = false → t.waitAck = false → t.fromMem = false → t.writing = false → t.plan.noData = false →
    s.dev.reached b → s.dev.reaches (.snpRsp b line .fwdDirty x) →
    ∃ d : Dev, exec (.snpRsp b line .fwdDirty x) s = .next (s.withDev d) ∧ d = { s.dev with homes := d.homes, wire := d.wire }
      ∧ d.packets = s.dev.packets.erase (.snpRsp b line .fwdDirty x) ++ [.grant r line .shared t.final.epoch t.poison]
      ∧ ((d.home q).txn line).map (·.waitAck) = some true ∧ (d.home q).dir = (s.dev.home q).dir) ∧
  (∀ (s : State) (b line q : Nat) (t : HomeTxn), s.dev.powered = true → s.dev.homeOfLine line = q → (s.dev.home q).txns = [t] →
    (s.dev.home q).queue = [] → (s.dev.home q).held = [] → (s.dev.home q).slots = [] → (s.dev.home q).waiting = [] →
    s.dev.reached b → s.dev.reaches (.compAck b line) → t.req.line = line → t.req.src = .bough b → t.gone = [] → t.waitAck = true → t.evict = false → t.req.op ≠ .rdNoalloc → t.final.st ≠ .invalid →
    ∃ d : Dev, exec (.compAck b line) s = .next (s.withDev d)
      ∧ d = { s.dev with homes := d.homes, wire := (s.dev.take (.compAck b line)).wire } ∧ (d.home q).txns = []
      ∧ (d.entry q line).st = t.final.st ∧ (d.entry q line).owner = t.final.owner ∧ (d.entry q line).sharers = t.final.sharers
      ∧ (d.entry q line).epoch = t.final.epoch ∧ ∀ k, k ≠ line → d.entry q k = s.dev.entry q k) ∧
  (∀ (s : State) (b line epoch q m : Nat) (owned : Bool) (x : LineData) (r : Nat), s.dev.powered = true →
    s.dev.homeOfLine line = q → s.dev.reached b → s.dev.reaches (.wb b line owned epoch x) →
    s.dev.channelOf (64 * line) = some (m, r) → s.dev.get MEM_STAT.STATE m ≠ 4 → s.dev.channelTakes m false = true →
    (s.dev.home q).txn line = none → rangeOf (64 * line) = .dram → (s.dev.entry q line).st = .excl → (s.dev.entry q line).owner = b →
    (s.dev.entry q line).epoch = epoch →
    ∃ d : Dev, exec (.wbDirty b line owned epoch x) s = .next (s.withDev d) ∧ d.memLine line = x
      ∧ (∀ a, a / 64 ≠ line → d.byte a = s.dev.byte a) ∧ d.entry q line = { epoch := epoch }
      ∧ d.packets = s.dev.packets.erase (.wb b line owned epoch x) ++ [.wbAck b line true] ∧ d.regs = s.dev.regs) ∧
  (∀ (s : State) (b line epoch q : Nat) (owned : Bool) (x : LineData), s.dev.powered = true → s.dev.homeOfLine line = q →
    s.dev.reached b → s.dev.reaches (.wb b line owned epoch x) →
    (s.dev.home q).txn line = none → (s.dev.entry q line).owner ≠ b ∨ (s.dev.entry q line).epoch ≠ epoch →
    exec (.wbDirty b line owned epoch x) s = .next (s.withDev
      (((s.dev.take (.wb b line owned epoch x)).count DIR_CNT.COUNT 1 q 6).emit (.wbAck b line false)))) ∧
  (∀ (s : State) (b line q : Nat) (t : HomeTxn) (k : Snoop), s.dev.powered = true → s.dev.homeOfLine line = q →
    (s.dev.home q).txn line = some t → (t.snoops.find? fun p => p.1 == b) = some (b, k) → (t.snoops.filter fun p => p.1 != b) ≠ [] →
    t.req.op ≠ .wrFull → rangeOf (64 * line) = .dram → (s.dev.channelOf (64 * line)).isSome = true →
    s.dev.get (tmoField b).2 q (tmoField b).1 + 1 < s.dev.get DIR_TMO.LIMIT q →
    ∃ d : Dev, exec (.homeTimeout b line) s = .next (s.withDev d) ∧ (d.memLine line).poison = true
      ∧ (∀ a, d.byte a = s.dev.byte a) ∧ (b, line) ∈ (d.home q).late ∧ b ∉ (d.entry q line).sharers
      ∧ ((d.home q).txn line).map (·.snoops) = some (t.snoops.filter fun p => p.1 != b) ∧ d.flag DIR_TMO_LOG.VALID q = true) ∧
  (∀ (s : State) (q b : Nat), s.dev.powered = true → q < 4 → b < 24 → s.dev.get DIR_PURGE.BOUGH q = b →
    s.dev.flag DIR_PURGE.BUSY q = false →
    ∃ d : Dev, exec (.dirPurgeGo q) s = .next (s.withDev d) ∧ d = { s.dev with regs := d.regs, homes := d.homes }
      ∧ d.flag DIR_PURGE.BUSY q = true ∧ (d.home q).purges = (s.dev.home q).purges ++ [(b, false, true)]
      ∧ (d.home q).dir = (s.dev.home q).dir ∧ ∀ r : Reg, r ≠ ⟨.DIR_PURGE, q, 0⟩ → d.reg r = s.dev.reg r) ∧
  (∀ (s : State) (q b : Nat) (sw : Bool) (rest : List (Nat × Bool × Bool)), s.dev.powered = true → s.dev.powerBusy = false →
    (s.dev.home q).purges = (b, false, sw) :: rest → KMap.wf natLt ({} : DirEntry) (s.dev.home q).dir = true →
    ∃ d : Dev, exec (.purgeDone q) s = .next (s.withDev d) ∧ (d.home q).purges = rest ∧ (∀ line, b ∉ (d.entry q line).sharers)
      ∧ (∀ line, b ∉ (s.dev.entry q line).sharers → (s.dev.entry q line).owner ≠ b → d.entry q line = s.dev.entry q line)
      ∧ (rest = [] → d.flag DIR_PURGE.BUSY q = false) ∧ d.mem = s.dev.mem ∧ d.poison = s.dev.poison)

/-- Snoops that reach a bough (R172, R149): a modified line that is shared goes to the requester and stays owned; one that is taken goes to the requester
and is lost; an invalidated line is lost; a current copy leaves the line as it is. The home is answered each time. (The model's choices in this: log
entry 4.) -/
def Obligations.SnoopsAreAnswered : Prop :=
  (∀ (s : State) (b line r : Nat), s.dev.powered = true → s.dev.reached b → s.dev.reaches (.snoop .shared b line (some r)) →
    (s.dev.gate (s.dev.boughSite b)).closed = false → ((s.dev.bough b).line line).st = .modified →
    ∃ d : Dev, exec (.snpShared b line (some r)) s = .next (s.withDev d)
      ∧ d = { s.dev with boughs := d.boughs, wire := d.wire }
      ∧ d.packets = s.dev.packets.erase (.snoop .shared b line (some r)) ++
          [.dataFwd r line .shared ⟨((s.dev.bough b).line line).data, ((s.dev.bough b).line line).poison⟩,
           .snpRsp b line .fwdDirty ⟨0, false⟩]
      ∧ ((d.bough b).line line).st = .owned ∧ ((d.bough b).line line).data = ((s.dev.bough b).line line).data
      ∧ (∀ k, k ≠ line → (d.bough b).line k = (s.dev.bough b).line k) ∧ ∀ c, c ≠ b → d.bough c = s.dev.bough c) ∧
  (∀ (s : State) (b line r : Nat), s.dev.powered = true → s.dev.reached b → s.dev.reaches (.snoop .unique b line (some r)) →
    (s.dev.gate (s.dev.boughSite b)).closed = false → ((s.dev.bough b).line line).st = .excl →
    ∃ d : Dev, exec (.snpUnique b line (some r)) s = .next (s.withDev d)
      ∧ d.packets = s.dev.packets.erase (.snoop .unique b line (some r)) ++
          [.dataFwd r line .excl ⟨((s.dev.bough b).line line).data, ((s.dev.bough b).line line).poison⟩,
           .snpRsp b line .fwdClean ⟨0, false⟩]
      ∧ ((d.bough b).line line).st = .invalid ∧ (∀ k, k ≠ line → (d.bough b).line k = (s.dev.bough b).line k)
      ∧ (∀ n, (d.leaf n).resv ≠ some line) ∧ d.mem = s.dev.mem ∧ d.regs = s.dev.regs) ∧
  (∀ (s : State) (b line : Nat), s.dev.powered = true → s.dev.reached b → s.dev.reaches (.snoop .inv b line none) →
    (s.dev.gate (s.dev.boughSite b)).closed = false → ((s.dev.bough b).line line).valid = true →
    ∃ d : Dev, exec (.snpInv b line) s = .next (s.withDev d)
      ∧ d.packets = s.dev.packets.erase (.snoop .inv b line none) ++ [.snpRsp b line .i ⟨0, false⟩]
      ∧ ((d.bough b).line line).st = .invalid ∧ (∀ k, k ≠ line → (d.bough b).line k = (s.dev.bough b).line k)
      ∧ (∀ n, (d.leaf n).resv ≠ some line) ∧ d.mem = s.dev.mem ∧ d.regs = s.dev.regs) ∧
  (∀ (s : State) (b line : Nat), s.dev.powered = true → s.dev.reached b → s.dev.reaches (.snoop .current b line none) →
    (s.dev.gate (s.dev.boughSite b)).closed = false → ((s.dev.bough b).line line).st = .modified →
    exec (.snpCurrent b line) s = .next (s.withDev ((s.dev.take (.snoop .current b line none)).emit
      (.snpRsp b line .dirtyCopy ⟨((s.dev.bough b).line line).data, ((s.dev.bough b).line line).poison⟩))))

/-- What a bough does with the answers to its requests (R171, R176, R178). With the line and its grant there, in a set with a free way, the line is placed
in the granted state and COMP_ACK is sent: DATA brings both, DATA_FWD brings the line of a grant that is there, and GRANT of a CLAIM fills zeros. A
refused request waits out its back-off and is sent again with RETRY one higher. WR_COMP ends a partial write, and WB_ACK frees the eviction buffer
entry. (The model's choices in this: log entries 4, 17.) -/
def Obligations.AnswersFillTheBough : Prop :=
  (∀ (s : State) (b line w ep : Nat) (g : Grant) (x : LineData) (t : BoughTxn), s.dev.powered = true → s.dev.boughIdle b →
    (s.dev.bough b).txns = [t] → t.line = line → t.op ≠ .rdNoalloc → t.forLock = false → ((s.dev.bough b).line line).valid = false →
    ((s.dev.bough b).line line).locked = false → (s.dev.bough b).chooseWay line (s.dev.freeWays b) = some (w, none) →
    s.dev.reached b → s.dev.reaches (.data (.bough b) line g ep x) → s.dev.l3On b = true →
    ∃ d : Dev, exec (.data (.bough b) line g ep x) s = .next (s.withDev d)
      ∧ d = { s.dev with boughs := d.boughs, wire := d.wire } ∧ d.packets = s.dev.packets.erase (.data (.bough b) line g ep x) ++ [.compAck b line]
      ∧ ((d.bough b).line line).st = grantState g ∧ ((d.bough b).line line).data = x.data
      ∧ ((d.bough b).line line).poison = (x.poison || t.poison) ∧ ((d.bough b).line line).epoch = ep ∧ ((d.bough b).line line).way = w
      ∧ (d.bough b).txns = [] ∧ ∀ k, k ≠ line → (d.bough b).line k = (s.dev.bough b).line k) ∧
  (∀ (s : State) (b line w ep : Nat) (g g' : Grant) (x : LineData) (t : BoughTxn), s.dev.powered = true → s.dev.boughIdle b →
    (s.dev.bough b).txns = [t] → t.line = line → t.forLock = false → t.grant = some (g', ep) →
    ((s.dev.bough b).line line).valid = false → ((s.dev.bough b).line line).locked = false →
    (s.dev.bough b).chooseWay line (s.dev.freeWays b) = some (w, none) →
    s.dev.reached b → s.dev.reaches (.dataFwd b line g x) → s.dev.l3On b = true →
    ∃ d : Dev, exec (.dataFwd b line g x) s = .next (s.withDev d)
      ∧ d = { s.dev with boughs := d.boughs, wire := d.wire } ∧ d.packets = s.dev.packets.erase (.dataFwd b line g x) ++ [.compAck b line]
      ∧ ((d.bough b).line line).st = grantState g' ∧ ((d.bough b).line line).data = x.data
      ∧ ((d.bough b).line line).epoch = ep ∧ (d.bough b).txns = []) ∧
  (∀ (s : State) (b line w ep : Nat) (g : Grant) (p : Bool) (t : BoughTxn), s.dev.powered = true → s.dev.boughIdle b →
    (s.dev.bough b).txns = [t] → t.line = line → t.op = .claim → t.forLock = false → ((s.dev.bough b).line line).valid = false →
    ((s.dev.bough b).line line).locked = false → (s.dev.bough b).chooseWay line (s.dev.freeWays b) = some (w, none) →
    s.dev.reached b → s.dev.reaches (.grant b line g ep p) → s.dev.l3On b = true →
    ∃ d : Dev, exec (.grant b line (g, p) ep) s = .next (s.withDev d)
      ∧ d = { s.dev with boughs := d.boughs, wire := d.wire } ∧ d.packets = s.dev.packets.erase (.grant b line g ep p) ++ [.compAck b line]
      ∧ ((d.bough b).line line).st = grantState g ∧ ((d.bough b).line line).data = 0 ∧ ((d.bough b).line line).poison = p) ∧
  (∀ (s : State) (b line hint : Nat) (t : BoughTxn), s.dev.powered = true → (s.dev.bough b).txns = [t] → t.line = line → t.sent = true →
    s.dev.reached b → s.dev.reaches (.nack b line hint) →
    ∃ d : Dev, exec (.nackRetry b line hint) s = .next (s.withDev d)
      ∧ d = { s.dev with boughs := d.boughs, wire := (s.dev.take (.nack b line hint)).wire }
      ∧ (d.bough b).txns = [{ t with backoff := some hint }] ∧ (d.bough b).lines = (s.dev.bough b).lines) ∧
  (∀ (s : State) (b line hint : Nat) (t : BoughTxn), s.dev.powered = true → (s.dev.bough b).txns = [t] → t.line = line →
    t.backoff = some hint → (s.dev.bough b).evb = [] →
    s.dev.reached b →
    ∃ d : Dev, exec (.nackRetryResend b line) s = .next (s.withDev d)
      ∧ d = { s.dev with boughs := d.boughs, wire := d.wire }
      ∧ d.packets = s.dev.packets ++ [.request b ⟨t.op, .bough b, line, min (t.retry + 1) 8, t.mask, t.value⟩]
      ∧ (d.bough b).txns = [{ t with backoff := none, sent := true, retry := min (t.retry + 1) 8 }]) ∧
  (∀ (s : State) (b line : Nat) (p : Bool) (t : BoughTxn), s.dev.powered = true → s.dev.boughIdle b → (s.dev.bough b).txns = [t] →
    t.line = line → t.op = .wrPartial →
    s.dev.reached b → s.dev.reaches (.wrComp (.bough b) line p) →
    ∃ d : Dev, exec (.wrComp (.bough b) line p) s = .next (s.withDev d)
      ∧ d = { s.dev with boughs := d.boughs, wire := (s.dev.take (.wrComp (.bough b) line p)).wire } ∧ (d.bough b).txns = []
      ∧ (d.bough b).lines = (s.dev.bough b).lines) ∧
  (∀ (s : State) (b line : Nat) (ok : Bool) (e : EvbEntry), s.dev.powered = true → s.dev.powerBusy = false → s.dev.boughIdle b →
    (s.dev.bough b).txns = [] → (s.dev.bough b).evb = [e] → e.line = line → e.sent = true →
    s.dev.flag L3C_STAT.FLUSHING (s.dev.boughSite b) = false →
    s.dev.reached b → s.dev.reaches (.wbAck b line ok) →
    ∃ d : Dev, exec (.wbAck b line ok) s = .next (s.withDev d)
      ∧ d = { s.dev with boughs := d.boughs, wire := (s.dev.take (.wbAck b line ok)).wire } ∧ (d.bough b).evb = []
      ∧ (d.bough b).lines = (s.dev.bough b).lines)

/-! ### The fabric -/

/-- Routing and route swaps (R191 to R196). A packet leaves by the port that the active bank gives it; one without a route is counted and recorded, and
event source 2 raised; one that enters at a changing port during a swap is held. A swap is started unless one is under way. Its drain is not done
while a packet of the old version is under way; then the other bank is active and both banks are alike. A drain that takes too long is reported and
goes on. A write of FAB_RT_DATA changes the selected entry of the shadow bank and no other. (The model's choices in this: log entries 4, 21.) -/
def Obligations.RoutingAndSwaps : Prop :=
  (∀ (s : State) (p : MeshPkt), s.dev.powered = true → p.vn < 6 → p.dnode < 128 → p.snode < 128 →
    s.dev.flag FAB_ROUTE_SWAP.BUSY = false → s.dev.route s.dev.activeBank 0 (p.snode / 2) p.vn p.dnode < 6 →
    exec (.packetIngress p) s = .next (s.withDev { s.dev with fabric := { s.dev.fabric with
      routed := some (p, s.dev.activeBank, s.dev.route s.dev.activeBank 0 (p.snode / 2) p.vn p.dnode) } })) ∧
  (∀ (s : State) (p : MeshPkt), s.dev.powered = true → p.vn < 6 → p.dnode < 128 → p.snode < 128 →
    s.dev.flag FAB_ROUTE_SWAP.BUSY = false → 6 ≤ s.dev.route s.dev.activeBank 0 (p.snode / 2) p.vn p.dnode →
    ∃ d : Dev, exec (.packetIngress p) s = .next (s.withDev d)
      ∧ d = { s.dev with regs := d.regs, wire := d.wire } ∧ d.packets = s.dev.packets ++ [.event 2 1 {}]
      ∧ d.get FAB_UNROUTE.COUNT = min (s.dev.get FAB_UNROUTE.COUNT + 1) (2 ^ 32 - 1) ∧ d.flag FAB_UNROUTE.VALID = true
      ∧ (s.dev.flag FAB_UNROUTE.VALID = false → d.get FAB_UNROUTE.VN = p.vn ∧ d.get FAB_UNROUTE.DNODE = p.dnode)
      ∧ ∀ r : Reg, r ≠ ⟨.FAB_UNROUTE, 0, 0⟩ → d.reg r = s.dev.reg r) ∧
  (∀ (s : State) (p : MeshPkt), s.dev.powered = true → p.vn < 6 → p.dnode < 128 → p.snode < 128 →
    s.dev.flag FAB_ROUTE_SWAP.BUSY = true → s.dev.changing p.snode = true →
    exec (.packetIngress p) s = .next (s.withDev { s.dev with fabric := { s.dev.fabric with held := s.dev.fabric.held ++ [p] } })) ∧
  (∀ s : State, s.dev.powered = true → s.dev.flag FAB_ROUTE_SWAP.BUSY = false →
    exec .routeSwap s = .next (s.withDev (s.dev.put FAB_ROUTE_SWAP.BUSY 1))) ∧
  (∀ s : State, s.dev.powered = true → s.dev.flag FAB_ROUTE_SWAP.BUSY = true →
    exec .routeSwap s = .next (s.withDev (s.dev.put FAB_ROUTE_SWAP.REFUSED 1))) ∧
  (∀ s : State, s.dev.powered = true → s.dev.undrained = true → exec .routeSwapDrainDone s = .next s) ∧
  (∀ s : State, s.dev.powered = true → s.dev.flag FAB_ROUTE_SWAP.BUSY = true → s.dev.undrained = false → s.dev.fabric.reroute = [] →
    ∃ d : Dev, exec .routeSwapDrainDone s = .next (s.withDev d) ∧ d.flag FAB_ROUTE_SWAP.BUSY = false
      ∧ d.activeBank = 1 - s.dev.activeBank ∧ d.get FAB_ROUTE_SWAP.SWAPS = (s.dev.get FAB_ROUTE_SWAP.SWAPS + 1) % 2 ^ 16
      ∧ d.fabric.held = [] ∧ (∀ v k u vn e, d.route v k u vn e = s.dev.route (1 - s.dev.activeBank) k u vn e) ∧ d.mem = s.dev.mem) ∧
  (∀ s : State, s.dev.powered = true → s.dev.flag FAB_ROUTE_SWAP.BUSY = true →
    exec .routeSwapDrainTimeout s = .next (s.withDev ((s.dev.put FAB_ROUTE_SWAP.DRAIN_TMO 1).send (.event 2 1 {})))) ∧
  (∀ (s : State) (v : Nat), s.dev.powered = true → s.dev.flag FAB_RT_SEL.BANK = false → s.dev.routeSelected = true →
    s.dev.flag FAB_ROUTE_SWAP.BUSY = false →
    ∃ d : Dev, exec (.fabRtDataWrite v) s = .next (s.withDev d) ∧ d = { s.dev with fabric := d.fabric }
      ∧ d.route (1 - s.dev.activeBank) (s.dev.get FAB_RT_SEL.KIND) (s.dev.get FAB_RT_SEL.UNIT) (s.dev.get FAB_RT_SEL.VN)
          (s.dev.get FAB_RT_SEL.ENTRY) = v % 8
      ∧ (∀ k u vn e, d.route s.dev.activeBank k u vn e = s.dev.route s.dev.activeBank k u vn e)
      ∧ ∀ b k u vn e, routeKey k u vn e ≠ routeKey (s.dev.get FAB_RT_SEL.KIND) (s.dev.get FAB_RT_SEL.UNIT) (s.dev.get FAB_RT_SEL.VN)
          (s.dev.get FAB_RT_SEL.ENTRY) → d.route b k u vn e = s.dev.route b k u vn e)

/-- The isolation proxy and the gates (R197 to R203). FAB_ISO.GO isolates an active site, starts a purge of its bough in every quadrant, and does nothing
at a site that is isolated. The proxy answers a register read with ones and no error, counts it, and answers a snoop with I. A closed gate holds an
MSI once and wakes the bough; the markers that come back are remembered. A held read that waits too long is answered with ones, and its kind is
recorded. Crossings (R206 to R208). An acknowledgement that does not come in time breaks its crossing: it is counted and the event of the die's
crossings raised. A reset of one side mends it and drops the pulses that wait at it; a flush that does not end leaves it broken. (The model's choices
in this: log entries 49, 54, 74.) -/
def Obligations.ProxiesGatesAndCrossings : Prop :=
  (∀ (s : State) (i b : Nat), s.dev.powered = true → s.dev.siteActive i = true → s.dev.isolated i = false → s.dev.boughAt i = b →
    ∃ d : Dev, exec (.fabIsoGo i) s = .next (s.withDev d) ∧ d.isolated i = true
      ∧ (∀ j, j < 28 → j ≠ i → d.isolated j = s.dev.isolated j)
      ∧ (∀ q, q < 4 → (d.home q).purges = (s.dev.home q).purges ++ [(b, true, false)] ∧ d.flag DIR_PURGE.BUSY q = true)
      ∧ d.mem = s.dev.mem) ∧
  (∀ (s : State) (i : Nat), s.dev.powered = true → s.dev.isolated i = true → exec (.fabIsoGo i) s = .next s) ∧
  (∀ (s : State) (i a : Nat), s.dev.powered = true → s.dev.siteActive i = true → s.dev.isolated i = true →
    ∃ d : Dev, exec (.proxyPacket i (.regRead .mgmt a)) s = .next (s.withDev d) ∧ d.resp = ⟨BitVec.allOnes 64, false, false⟩
      ∧ d.get FAB_PROXY.REG 0 i = min (s.dev.get FAB_PROXY.REG 0 i + 1) (2 ^ 16 - 1) ∧ Packet.event 3 1 {} ∈ d.packets
      ∧ d.flag FAB_GATE_LOG.VALID = true
      ∧ ∀ r : Reg, r ≠ ⟨.FAB_PROXY, 0, i⟩ → r ≠ ⟨.FAB_GATE_LOG, 0, 0⟩ → d.reg r = s.dev.reg r) ∧
  (∀ (s : State) (i line : Nat) (k : Snoop), s.dev.powered = true → s.dev.siteActive i = true → s.dev.isolated i = true →
    exec (.proxyPacket i (.snoop line k)) s = .next (s.withDev
      ((s.dev.bump FAB_PROXY.SNP 1 0 i).send (.snpRsp (s.dev.boughAt i) line .i ⟨0, false⟩)))) ∧
  (∀ (s : State) (i h f id : Nat), s.dev.powered = true → s.dev.siteActive i = true → (s.dev.gate i).closed = true →
    (s.dev.gate i).inReset = false → s.dev.broken (.trunk 0x51) = false → s.dev.isolated i = false → (h, f, id) ∉ s.dev.heldMsis i → (s.dev.heldMsis i).length < 512 →
    ∃ d : Dev, exec (.gatedPacket i (.msi h f id)) s = .next (s.withDev d)
      ∧ d.heldMsis i = s.dev.heldMsis i ++ [(h, f, id)] ∧ d.get FAB_PEND.HELD 0 i = (s.dev.heldMsis i).length + 1
      ∧ i ∈ d.power.wake ∧ d.leaves = s.dev.leaves ∧ ∀ j, j ≠ i → d.heldMsis j = s.dev.heldMsis j) ∧
  (∀ (s : State) (i vn : Nat), s.dev.powered = true → s.dev.powerBusy = false → Packet.marker i vn ∈ s.dev.packets → s.dev.markerWaits i vn = false →
    (s.dev.gate i).closed = true → vn ∉ (s.dev.gate i).markers →
    ∃ d : Dev, exec (.gateClosedMarker i vn) s = .next (s.withDev d)
      ∧ d = { s.dev with regs := d.regs, fabric := d.fabric, wire := (s.dev.take (.marker i vn)).wire }
      ∧ (d.gate i).markers = (s.dev.gate i).markers ++ [vn] ∧ (d.gate i).closed = true ∧ ∀ j, j ≠ i → d.gate j = s.dev.gate j) ∧
  (∀ (s : State) (i a : Nat) (rest : List SitePkt), s.dev.powered = true → s.dev.fabric.heldAcc.find [] i = .regRead .mgmt a :: rest →
    s.dev.flag FAB_GATE_LOG.VALID = false → (s.dev.gate i).closed = true →
    ∃ d : Dev, exec (.wakeAccessTimeout i) s = .next (s.withDev d) ∧ d.fabric.heldAcc.find [] i = rest
      ∧ d.resp = ⟨BitVec.allOnes 64, false, false⟩ ∧ d.flag FAB_GATE_LOG.VALID = true ∧ d.get FAB_GATE_LOG.KIND = 2
      ∧ Packet.event 3 1 {} ∈ d.packets) ∧
  (∀ (s : State) (n : Nat), s.dev.powered = true → 28 ≤ n → s.dev.crossingExists (.trunk n) = true →
    Crossing.trunk n ∉ s.dev.fabric.broken →
    ∃ d : Dev, exec (.cdcTimeout (.trunk n)) s = .next (s.withDev d)
      ∧ d = { s.dev with regs := d.regs, fabric := { s.dev.fabric with broken := s.dev.fabric.broken ++ [.trunk n] }, wire := d.wire }
      ∧ d.packets = s.dev.packets ++ [.event 4 1 {}]
      ∧ d.get FAB_CDC_CNT.TMO = min (s.dev.get FAB_CDC_CNT.TMO + 1) (2 ^ 32 - 1) ∧ d.flag FAB_CDC_LOG.VALID = true
      ∧ ∀ r : Reg, r ≠ ⟨.FAB_CDC_CNT, 0, 0⟩ → r ≠ ⟨.FAB_CDC_LOG, 0, 0⟩ → d.reg r = s.dev.reg r) ∧
  (∀ (s : State) (n : Nat), s.dev.powered = true → 28 ≤ n → s.dev.crossingExists (.trunk n) = true →
    ∃ d : Dev, exec (.crossingReset (.trunk n)) s = .next (s.withDev d)
      ∧ (∀ x, x ∈ d.fabric.broken ↔ x ∈ s.dev.fabric.broken ∧ x ≠ .trunk n) ∧ d.mem = s.dev.mem
      ∧ (n < 0x30 ∨ 0x50 ≤ n → d = { s.dev with
          fabric := { s.dev.fabric with broken := s.dev.fabric.broken.filter fun x => x != .trunk n }
          evAcc := s.dev.evAcc.filter fun p => sourceCrossing p.1 != some (.trunk n) })) ∧
  (∀ (s : State) (n : Nat), s.dev.powered = true → 28 ≤ n → s.dev.crossingExists (.trunk n) = true →
    ∃ d : Dev, exec (.crossingFlushTimeout (.trunk n)) s = .next (s.withDev d) ∧ Crossing.trunk n ∈ d.fabric.broken
      ∧ d.get FAB_CDC_CNT.TMO = min (s.dev.get FAB_CDC_CNT.TMO + 1) (2 ^ 32 - 1) ∧ Packet.event 4 1 {} ∈ d.packets)

/-! ### Grafts and span links -/

/-- Flits of a graft (R211 to R216, R220). A flit whose CRC fails is counted and kept for comparison, and the flits from the expected SEQ are asked for
again; the eighth failure in a row starts a fast retrain. A data flit with the expected SEQ that its sender may send is taken, and those of its
virtual network gather until the last of a packet, whose header is then read. A RETRY names the SEQ from which the sender resends. The error counts of
an interval are cleared at its end. Lanes and training of grafts (R13, R218 to R224, R226, R241). A training that finds no failed lane brings both
ends up at full width; one whose strap does not match takes the graft down with cause 1 and isolates the site, a die whose strap names no site never
trains, and one that takes too long with cause 2. A fast retrain of a graft without failed lanes is counted and ends up at full width. A pause
replaces a failing lane by a spare, and resends from the oldest unacknowledged SEQ. A lane that software marks, or that loses lock, is reported
failed. A probe that returns gives DELAY half of what is left of its round trip. (The model's choices in this: log entries 21, 59.) -/
def Obligations.GraftLinks : Prop :=
  (∀ (s : State) (g : GraftEnd) (f : BitVec 512), s.dev.powered = true → s.dev.endExists g = true → s.dev.graftBroken g = false →
    s.dev.gState g = 2 → flitCrc f ≠ flitBits f 511 496 → flitBits f 2 0 = 1 →
    ((s.dev.side g.peer).sends 0 false none).isSome = true → (s.dev.side g.peer).turn = (s.dev.side g).expect →
    (s.dev.side g).fails < 7 →
    ∃ d : Dev, exec (.flitReceive g f) s = .next (s.withDev d) ∧ d = { s.dev with grafts := d.grafts, wire := d.wire }
      ∧ d.packets = s.dev.packets ++ [.retry g.peer (s.dev.side g).expect]
      ∧ d.side g = { s.dev.side g with crc := (s.dev.side g).crc + 1, fails := (s.dev.side g).fails + 1, asked := true
                                       bad := (s.dev.side g).bad ++ [⟨(s.dev.side g).expect, f, s.dev.physicalLanes g⟩] }
      ∧ some (d.side g.peer) = (s.dev.side g.peer).sends 0 false none ∧ ∀ h, h ≠ g → h ≠ g.peer → d.side h = s.dev.side h) ∧
  (∀ (s : State) (g : GraftEnd) (f : BitVec 512), s.dev.powered = true → s.dev.endExists g = true → s.dev.graftBroken g = false →
    s.dev.gState g = 2 → flitCrc f ≠ flitBits f 511 496 → flitBits f 2 0 = 1 →
    ((s.dev.side g.peer).sends 0 false none).isSome = true → (s.dev.side g.peer).turn = (s.dev.side g).expect →
    7 ≤ (s.dev.side g).fails →
    ∃ d : Dev, exec (.flitReceive g f) s = .next (s.withDev d) ∧ d.gState g = 4 ∧ d.gState g.peer = 4 ∧ d.mem = s.dev.mem) ∧
  (∀ (s : State) (g : GraftEnd) (f : BitVec 512), s.dev.powered = true → s.dev.endExists g = true → s.dev.graftBroken g = false →
    g.lateral = false → s.dev.gState g = 2 → flitCrc f = flitBits f 511 496 → flitBits f 2 0 = 1 →
    flitBits f 15 8 = (s.dev.side g).expect → (s.dev.flitSent g f).isSome = true → (s.dev.side g).bad = [] → f.getLsbD 7 = false →
    ∃ d : Dev, exec (.flitReceive g f) s = .next (s.withDev d) ∧ d = { s.dev with grafts := d.grafts }
      ∧ (d.side g).expect = ((s.dev.side g).expect + 1) % 256 ∧ (d.side g).fails = 0 ∧ (d.side g).crc = (s.dev.side g).crc
      ∧ (d.side g).rx.find [] (flitBits f 5 3) =
          (if f.getLsbD 6 then [f] else if ((s.dev.side g).rx.find [] (flitBits f 5 3)).isEmpty then []
            else (s.dev.side g).rx.find [] (flitBits f 5 3) ++ [f])
      ∧ ∀ h, h ≠ g → h ≠ g.peer → d.side h = s.dev.side h) ∧
  (∀ (s : State) (g : GraftEnd) (f : BitVec 512), s.dev.powered = true → s.dev.endExists g = true → s.dev.graftBroken g = false →
    g.lateral = false → s.dev.gState g = 2 → flitCrc f = flitBits f 511 496 → flitBits f 2 0 = 1 →
    flitBits f 15 8 = (s.dev.side g).expect → (s.dev.flitSent g f).isSome = true → (s.dev.side g).bad = [] → f.getLsbD 6 = true →
    f.getLsbD 7 = true →
    ∃ d : Dev, exec (.flitReceive g f) s = .next (s.withDev d) ∧ (d.side g).expect = ((s.dev.side g).expect + 1) % 256
      ∧ (d.side g).rx.find [] (flitBits f 5 3) = [] ∧ (d.side g).last = some (flitHeader f) ∧ d.mem = s.dev.mem) ∧
  (∀ (s : State) (g : GraftEnd) (n : Nat), s.dev.powered = true → s.dev.endExists g = true → 2 ≤ s.dev.gState g →
    ∃ d : Dev, exec (.ctrlRetry g n) s = .next (s.withDev d)
      ∧ d = { s.dev with regs := d.regs, grafts := d.grafts, wire := (s.dev.take (.retry g n)).wire }
      ∧ d.side g = { s.dev.side g with resend := some n } ∧ (∀ h, h ≠ g → d.side h = s.dev.side h)
      ∧ d.gget g GRF_CNT.REPLAYS GRFB_CNT.REPLAYS = min (s.dev.gget g GRF_CNT.REPLAYS GRFB_CNT.REPLAYS + 1) (2 ^ 32 - 1)) ∧
  (∀ (s : State) (g : GraftEnd), s.dev.powered = true →
    ∃ d : Dev, exec (.laneErrorWindow g) s = .next (s.withDev d) ∧ d = { s.dev with grafts := d.grafts }
      ∧ d.side g = { s.dev.side g with errs := [] } ∧ ∀ h, h ≠ g → d.side h = s.dev.side h) ∧
  (∀ (s : State) (i : Nat), s.dev.powered = true → s.dev.powerBusy = false → s.dev.flag MBX_FW.READY = true → s.dev.siteActive i = true →
    s.dev.gState (.trunk i) = 1 → s.dev.foundFailed (.trunk i) [] = [] → s.dev.foundFailed (.bough i 0) [] = [] →
    ∃ d : Dev, exec (.graftTrainingDone (.vertical i) { strap := i }) s = .next (s.withDev d)
      ∧ d.get GRF_STAT.STATE i = 2 ∧ d.get GRF_STAT.WIDTH i = 4 ∧ d.get GRFB_STAT.STATE i 0 = 2 ∧ d.get GRFB_STAT.WIDTH i 0 = 4
      ∧ d.get GRF_STAT.SPARES i = 0 ∧ Packet.probe i s.dev.ring ∈ d.packets
      ∧ (∀ t, Packet.probe i t ∈ d.packets → t = s.dev.ring) ∧ (d.side (.trunk i)).expect = 0 ∧ d.mem = s.dev.mem) ∧
  (∀ (s : State) (i : Nat) (r : TrainResult), s.dev.powered = true → s.dev.powerBusy = false → s.dev.flag MBX_FW.READY = true →
    s.dev.siteActive i = true → s.dev.gState (.trunk i) = 1 → r.strap ≠ i → r.strap < 28 →
    ∃ d : Dev, exec (.graftTrainingDone (.vertical i) r) s = .next (s.withDev d)
      ∧ d.get GRF_STAT.STATE i = 0 ∧ d.get GRF_STAT.CAUSE i = 1 ∧ d.isolated i = true ∧ d.mem = s.dev.mem) ∧
  (∀ (s : State) (i : Nat) (r : TrainResult), s.dev.powered = true → 28 ≤ r.strap →
    exec (.graftTrainingDone (.vertical i) r) s = .next s) ∧
  (∀ (s : State) (i : Nat), s.dev.powered = true → s.dev.endExists (.bough i 2) = true → s.dev.gState (.bough i 2) = 1 →
    ∃ d : Dev, exec (.graftTrainingTimeout (.lateral i)) s = .next (s.withDev d)
      ∧ d.get GRFB_STAT.STATE i 2 = 0 ∧ d.get GRFB_STAT.CAUSE i 2 = 2 ∧ d.get GRFB_STAT.STATE (i + 1) 1 = 0
      ∧ (∀ j, d.isolated j = s.dev.isolated j) ∧ d.mem = s.dev.mem) ∧
  (∀ (s : State) (i : GraftId) (r : TrainResult), s.dev.powered = true → s.dev.endExists i.auth = true → s.dev.gState i.auth = 4 →
    r.auth = [] → r.others = [] → r.unknown = 0 → s.dev.foundFailed i.auth [] = [] → s.dev.foundFailed i.auth.peer [] = [] →
    ∃ d : Dev, exec (.graftFastRetrain i r) s = .next (s.withDev d) ∧ d.gState i.auth = 2 ∧ d.gState i.auth.peer = 2
      ∧ d.gget i.auth GRF_STAT.WIDTH GRFB_STAT.WIDTH = dataLanes i.auth / 64
      ∧ d.gget i.auth GRF_CNT.RETRAINS GRFB_CNT.RETRAINS =
          min (s.dev.gget i.auth GRF_CNT.RETRAINS GRFB_CNT.RETRAINS + 1) (2 ^ 16 - 1)) ∧
  (∀ (s : State) (g : GraftEnd) (l : Nat), s.dev.powered = true → s.dev.gState g = 3 → (s.dev.side g).failing = [l] → l < dataLanes g →
    s.dev.laneInUse g l = true → (s.dev.repairLane g l).isSome = true → (s.dev.side g).later = [] → (s.dev.side g.peer).later = [] →
    ∃ d : Dev, exec (.ctrlRepair g) s = .next (s.withDev d) ∧ d.gState g = 2 ∧ d.gState g.peer = 2 ∧ (d.side g).failing = []
      ∧ (d.side g).resend = (s.dev.side g).replay.head?.map (·.1)
      ∧ (∃ e ∈ spares g, d.spareFor g e = some l) ∧ d.gget g GRF_STAT.WIDTH GRFB_STAT.WIDTH = s.dev.gget g GRF_STAT.WIDTH GRFB_STAT.WIDTH
      ∧ d.gget g GRF_CNT.REPAIRS GRFB_CNT.REPAIRS = min (s.dev.gget g GRF_CNT.REPAIRS GRFB_CNT.REPAIRS + 1) (2 ^ 16 - 1)) ∧
  (∀ (s : State) (i k : Nat) (v : Word), s.dev.powered = true → s.dev.siteActive i = true → k < 4 →
    ∃ d : Dev, exec (.grfLaneMaskWrite (.trunk i) k v) s = .next (s.withDev d) ∧ d.reg ⟨.GRF_LANE_MASK, i, k⟩ = v
      ∧ (∀ j, j < 64 → v.getLsbD j = true → (s.dev.reg ⟨.GRF_LANE_MASK, i, k⟩).getLsbD j = false →
          d.laneFailed (.trunk i) (64 * k + j) = true)
      ∧ (v &&& ~~~(s.dev.reg ⟨.GRF_LANE_MASK, i, k⟩) = 0 → d = s.dev.setReg ⟨.GRF_LANE_MASK, i, k⟩ v)) ∧
  (∀ (s : State) (g : GraftEnd) (l : Nat), s.dev.powered = true → s.dev.endExists g = true → (allLanes g).contains l = true →
    ∃ d : Dev, exec (.graftLaneLossOfLock g l) s = .next (s.withDev d) ∧ d.laneFailed g l = true
      ∧ ∀ m, m ∈ allLanes g → m ≠ l → d.laneFailed g m = s.dev.laneFailed g m) ∧
  (∀ (s : State) (i turn : Nat) (t1 : Word), s.dev.powered = true → s.dev.packets = [.probe i t1] →
    ∃ d : Dev, exec (.delayProbeReturn i s.dev.ring.toNat turn) s = .next (s.withDev d)
      ∧ d.get TIM_SITE.DELAY 0 i = ((s.dev.ring.toNat - t1.toNat - turn) / 2) % 2 ^ 16 ∧ (d.copyInfo i).measured = true
      ∧ Packet.probe i t1 ∉ d.packets ∧ ∀ r : Reg, r ≠ ⟨.TIM_SITE, 0, i⟩ → d.reg r = s.dev.reg r)

/-- Span links (R229, R230, R233, R236, R237). A port with a working group of lanes within the reach of the deskew uses it and sends HELLO, and one
without has no link; HELLO of another package within the allowed round trip answers with credits, and HELLO of this package holds the link down;
credits bring the port up. While it is up, KEEPALIVE restarts its timeout and is sent in each period; silence, loss of lock or a write of RETRAIN take
it down with their cause, and it trains again where it may. A data flit with the expected SEQ is taken; an uncorrectable codeword is counted and asked
for again. (The model's choices in this: log entries 21, 30.) -/
def Obligations.SpanLinksComeUpAndFail : Prop :=
  (∀ (s : State) (c : Nat) (locked : List (Nat × Nat)) (lanes : List Nat), s.dev.powered = true → s.dev.spanEnabled c = true →
    s.dev.spanBroken c = false → s.dev.get SPN_STAT.STATE c = 1 →
    spanLanes ((locked.filter fun l => decide (l.2 ≤ 8)).map (·.1)) = lanes → lanes ≠ [] →
    exec (.spanLockAcquired c locked) s = .next (s.withDev
      (((s.dev.put SPN_STAT.LANES lanes.length c).modSpan c fun x => { x with lanes := lanes, codewords := [] }).send (.hello c)))) ∧
  (∀ (s : State) (c : Nat) (locked : List (Nat × Nat)), s.dev.powered = true → s.dev.spanEnabled c = true →
    s.dev.spanBroken c = false → s.dev.get SPN_STAT.STATE c = 1 → s.dev.flag SPN_CTL.AUTO c = false →
    spanLanes ((locked.filter fun l => decide (l.2 ≤ 8)).map (·.1)) = [] →
    ∃ d : Dev, exec (.spanLockAcquired c locked) s = .next (s.withDev d) ∧ d.get SPN_STAT.STATE c = 0 ∧ d.get SPN_STAT.CAUSE c = 2) ∧
  (∀ (s : State) (c pkg peer beh rtt : Nat), s.dev.powered = true → s.dev.spanEnabled c = true → s.dev.get SPN_STAT.STATE c = 1 →
    s.dev.spanBroken c = false → s.dev.get SPN_STAT.LANES c ≠ 0 → pkg ≠ s.dev.get TRK_PKG_ID.PKG_ID → rtt ≤ 1800 →
    ∃ d : Dev, exec (.hello c pkg peer beh rtt) s = .next (s.withDev d)
      ∧ d = { s.dev with regs := d.regs, spans := d.spans, wire := d.wire } ∧ d.packets = s.dev.packets ++ [.creditInit c] ∧ (d.span c).hello = true
      ∧ d.get SPN_STAT.PEER_PKG c = pkg % 64 ∧ d.get SPN_STAT.PEER_PORT c = peer % 4 ∧ d.get SPN_STAT.RTT c = rtt
      ∧ ∀ r : Reg, r ≠ ⟨.SPN_STAT, c, 0⟩ → d.reg r = s.dev.reg r) ∧
  (∀ (s : State) (c peer beh rtt : Nat), s.dev.powered = true → s.dev.spanEnabled c = true → s.dev.get SPN_STAT.STATE c = 1 →
    s.dev.get SPN_STAT.LANES c ≠ 0 → s.dev.spanBroken c = false →
    ∃ d : Dev, exec (.hello c (s.dev.get TRK_PKG_ID.PKG_ID) peer beh rtt) s = .next (s.withDev d)
      ∧ d.get SPN_STAT.STATE c = 0 ∧ d.get SPN_STAT.CAUSE c = 3) ∧
  (∀ (s : State) (c : Nat), s.dev.powered = true → s.dev.spanEnabled c = true → s.dev.get SPN_STAT.STATE c = 1 →
    (s.dev.span c).hello = true → s.dev.spanBroken c = false →
    ∃ d : Dev, exec (.creditInit c) s = .next (s.withDev d) ∧ d = { s.dev with regs := d.regs, spans := d.spans }
      ∧ d.get SPN_STAT.STATE c = 2 ∧ (d.span c).credits = spanCredits ∧ (d.span c).heard = s.dev.ring
      ∧ ∀ r : Reg, r ≠ ⟨.SPN_STAT, c, 0⟩ → d.reg r = s.dev.reg r) ∧
  (∀ (s : State) (c : Nat), s.dev.powered = true → s.dev.spanHears c = true →
    ∃ d : Dev, exec (.keepalive c) s = .next (s.withDev d) ∧ d = { s.dev with spans := d.spans }
      ∧ d.span c = { s.dev.span c with heard := s.dev.ring } ∧ ∀ e, e ≠ c → d.span e = s.dev.span e) ∧
  (∀ (s : State) (c : Nat), s.dev.powered = true → s.dev.spanUp c = true →
    exec (.keepalivePeriod c) s = .next (s.withDev (s.dev.emit (.keepalive c)))) ∧
  (∀ (s : State) (c : Nat), s.dev.powered = true → s.dev.spanUp c = true → s.dev.flag SPN_CTL.AUTO c = false →
    ∃ d : Dev, exec (.keepaliveTimeout c) s = .next (s.withDev d) ∧ d.get SPN_STAT.STATE c = 0 ∧ d.get SPN_STAT.CAUSE c = 5) ∧
  (∀ (s : State) (c : Nat), s.dev.powered = true → s.dev.spanUp c = true → s.dev.flag SPN_CTL.AUTO c = true →
    ∃ d : Dev, exec (.spanLossOfLock c) s = .next (s.withDev d) ∧ d.get SPN_STAT.STATE c = 1 ∧ d.get SPN_STAT.CAUSE c = 1) ∧
  (∀ (s : State) (c : Nat), s.dev.powered = true → s.dev.spanEnabled c = true →
    ∃ d : Dev, exec (.spanRetrain c) s = .next (s.withDev d) ∧ d.get SPN_STAT.STATE c = 1 ∧ d.get SPN_STAT.CAUSE c = 7
      ∧ d.get SPN_STAT.LANES c = 0) ∧
  (∀ (s : State) (c : Nat) (f : BitVec 1024), s.dev.powered = true → s.dev.spanHears c = true → (s.dev.span c).aligned = true →
    (s.dev.span c).uncorrectable = false → (s.dev.span c).waiting = [] → spanCrc f = spanBits f 1023 992 → spanBits f 3 0 = 1 →
    spanBits f 20 9 = (s.dev.span c).expect →
    ∃ d : Dev, exec (.spanFlitReceive c f []) s = .next (s.withDev d) ∧ d = { s.dev with spans := d.spans }
      ∧ (d.span c).expect = ((s.dev.span c).expect + 1) % 4096 ∧ (d.span c).fails = 0 ∧ (d.span c).asked = false
      ∧ (d.span c).rx = ((s.dev.span c).accept f).rx ∧ (d.span c).last = ((s.dev.span c).accept f).last
      ∧ ∀ e, e ≠ c → d.span e = s.dev.span e) ∧
  (∀ (s : State) (c : Nat) (f : BitVec 1024) (w : SpanCodeword), s.dev.powered = true → s.dev.spanHears c = true →
    w.lane ∈ (s.dev.span c).lanes → w.fec = .uncorrectable → ((s.dev.codewordStarts c w).span c).aligned = true →
    (s.dev.span c).asked = false ∨ spanBits f 20 9 = (s.dev.span c).expect → (s.dev.span c).fails < 15 →
    ∃ d : Dev, exec (.spanFlitReceive c f [w]) s = .next (s.withDev d)
      ∧ d = { s.dev with regs := d.regs, spans := d.spans, wire := d.wire }
      ∧ d.packets = s.dev.packets ++ [.spanRetry c (s.dev.span c).expect]
      ∧ d.get SPN_FEC.UNCORR c = min (s.dev.get SPN_FEC.UNCORR c + 1) (2 ^ 32 - 1) ∧ (d.span c).crc = (s.dev.span c).crc + 1
      ∧ (d.span c).fails = (s.dev.span c).fails + 1 ∧ (d.span c).asked = true ∧ (d.span c).expect = (s.dev.span c).expect)

/-- Packets between packages (R128, R232, R234, R327). A token of the current generation is held; a window for another package goes on by this package's
route with one less to live; an acknowledgement ends its remote SEND, and so does its timeout, as UNREACHABLE. The only WRITE of a remote chunk writes
its line and is acknowledged; an acknowledgement ends its remote chunk. (The model's choices in this: log entries 21, 30.) -/
def Obligations.PacketsBetweenPackages : Prop :=
  (∀ (s : State) (c g gen8 : Nat), s.dev.powered = true → s.dev.spanHears c = true → s.dev.groupState g = 2 →
    (s.dev.groupPorts g).contains c = true → gen8 = s.dev.get FAB_MG_STAT.GEN 0 g % 256 → s.dev.token g c = false →
    s.dev.groupLocal g = false →
    exec (.barrierToken c g gen8) s = .next (s.withDev
      (s.dev.put FAB_MG_STAT.TOKENS (setBit (s.dev.get FAB_MG_STAT.TOKENS 0 g) c true) 0 g))) ∧
  (∀ (s : State) (c q : Nat) (w : SpanWindow), s.dev.powered = true → s.dev.spanHears c = true → w.dpkg ≠ s.dev.get TRK_PKG_ID.PKG_ID →
    s.dev.spanTo w.dpkg = some q → 1 < w.ttl →
    ∃ d : Dev, exec (.xchWindowRemote c w) s = .next (s.withDev d)
      ∧ d = (s.dev.take (.spanWindow c w)).emitSpan (.spanWindow q { w with ttl := w.ttl - 1 })
      ∧ (s.dev.spanBroken q = false → (s.dev.span q).waiting = [] → 18 ≤ (s.dev.span q).credits.find 0 3 →
          (s.dev.span q).replay.length < 2000 →
          d.packets = s.dev.packets.erase (.spanWindow c w) ++ [.spanWindow q { w with ttl := w.ttl - 1 }])) ∧
  (∀ (s : State) (c spkg ttl tag : Nat) (o : XchOutcome) (x : RemoteSend), s.dev.powered = true → s.dev.spanHears c = true →
    (s.dev.remoteSends.find? fun y => y.tag == tag) = some x → (∀ p ∈ s.dev.lees, p.2.outs = []) →
    ∃ d : Dev, exec (.xchAckRemote c spkg (s.dev.get TRK_PKG_ID.PKG_ID) ttl tag o) s = .next (s.withDev d)
      ∧ d = { s.dev with remoteSends := s.dev.remoteSends.erase x, wire := d.wire }
      ∧ d.packets = s.dev.packets.erase (.spanAck c spkg (s.dev.get TRK_PKG_ID.PKG_ID) ttl tag o) ++ [.xchAck x.leaf x.imm o]) ∧
  (∀ (s : State) (tag : Nat) (x : RemoteSend), s.dev.powered = true → (s.dev.remoteSends.find? fun y => y.tag == tag) = some x →
    (∀ p ∈ s.dev.lees, p.2.outs = []) →
    ∃ d : Dev, exec (.remoteSendTimeout tag) s = .next (s.withDev d)
      ∧ d = { s.dev with regs := d.regs, remoteSends := s.dev.remoteSends.erase x, lateTags := s.dev.lateTags ++ [tag], wire := d.wire }
      ∧ d.packets = s.dev.packets ++ [.xchAck x.leaf x.imm .unreachable]
      ∧ d.get SPN_CNT.UNREACH x.port = min (s.dev.get SPN_CNT.UNREACH x.port + 1) (2 ^ 16 - 1)) ∧
  (∀ (s : State) (c q line : Nat) (p : RcopyPkt), s.dev.powered = true → s.dev.spanHears c = true → s.dev.lineIdle line = true →
    s.dev.memDead line = false → s.dev.spanBroken q = false → (s.dev.span q).waiting = [] → 0 < (s.dev.span q).credits.find 0 4 →
    (s.dev.span q).replay.length < 2048 →
    p.dpkg = s.dev.get TRK_PKG_ID.PKG_ID → p.nlines = 1 → s.dev.bulk.arriving = [] → p.addr = 64 * line →
    s.dev.memCheck 6 0 true (64 * line) = .ok → rangeOf (64 * line) = .dram → s.dev.flag EVC_STAT.SAFE = false →
    p.mask = 2 ^ 64 - 1 → s.dev.spanTo p.spkg = some q →
    ∃ d : Dev, exec (.rcopyWrite c p) s = .next (s.withDev d) ∧ d.memLine line = ⟨p.data, false⟩
      ∧ (∀ a, a / 64 ≠ line → d.byte a = s.dev.byte a) ∧ d.bulk.arriving = []
      ∧ d.packets = s.dev.packets.erase (.rcopy c p) ++ [.rcopyAck q (s.dev.get TRK_PKG_ID.PKG_ID) p.spkg 8 p.ctag false]) ∧
  (∀ (s : State) (c spkg ttl ctag : Nat) (x : BulkChunk), s.dev.powered = true → s.dev.spanHears c = true →
    (s.dev.outstanding.find? fun y => y.ctag == some ctag) = some x →
    ∃ d : Dev, exec (.rcopyAck c spkg (s.dev.get TRK_PKG_ID.PKG_ID) ttl ctag true) s = .next (s.withDev d)
      ∧ d.bulk.remote = s.dev.bulk.remote.erase x)

/-! ### Time base and trace -/

/-- The ring count and its copies (R235, R239, R240). A step moves the master forward, is counted, and synchronises the boughs, as does each period. A
copy loads its first sync, steps forward when it is behind, slews when it is ahead, and is locked after two good syncs; it answers with its offset,
which the trunk records. An exchange with the upstream package steps the master forward when it is behind, slews it when it is ahead by no more than
2^10 ticks, and else asks the time root, which moves forward. -/
def Obligations.RingCountIsKept : Prop :=
  (∀ (s : State) (add : Word), s.dev.powered = true → add ≠ 0 → add.toNat ≤ 2 ^ 62 →
    ∃ d : Dev, exec (.timStep add) s = .next (s.withDev d) ∧ d = { s.dev with ring := s.dev.ring + add, regs := d.regs, wire := d.wire }
      ∧ d.get TIM_STAT.STEPS = min (s.dev.get TIM_STAT.STEPS + 1) (2 ^ 32 - 1)
      ∧ (∀ i, i < 28 → s.dev.siteActive i = true → s.dev.gState (.trunk i) = 2 → (s.dev.copyInfo i).measured = true →
          (s.dev.gate i).closed = false → s.dev.isolated i = false → Packet.ringSync i (s.dev.ring + add) ∈ d.packets)
      ∧ ∀ r : Reg, r ≠ ⟨.TIM_STAT, 0, 0⟩ → d.reg r = s.dev.reg r) ∧
  (∀ (s : State) (add : Word), s.dev.powered = true → add = 0 ∨ 2 ^ 62 < add.toNat → exec (.timStep add) s = .next s) ∧
  (∀ (s : State), s.dev.powered = true →
    ∃ d : Dev, exec .ringSyncPeriod s = .next (s.withDev d) ∧ d = { s.dev with wire := d.wire }
      ∧ ∀ i, i < 28 → s.dev.siteActive i = true → s.dev.gState (.trunk i) = 2 → (s.dev.copyInfo i).measured = true →
          (s.dev.gate i).closed = false → s.dev.isolated i = false → Packet.ringSync i s.dev.ring ∈ d.packets) ∧
  (∀ (s : State) (i : Nat) (v : Word), s.dev.powered = true → s.dev.powerBusy = false → s.dev.flag MBX_FW.READY = true →
    s.dev.siteActive i = true → s.dev.isolated i = false → (s.dev.gate i).closed = false → (s.dev.copyInfo i).loaded = false →
    s.dev.reaches (.ringSync i v) →
    ∃ (d : Dev) (o : Int), exec (.ringSync i v) s = .next (s.withDev d)
      ∧ d.copy i = v + BitVec.ofNat 64 (s.dev.get TIM_SITE.DELAY 0 i) ∧ (d.copyInfo i).loaded = true
      ∧ d.packets = s.dev.packets.erase (.ringSync i v) ++ [.syncAck i o]
      ∧ d = { s.dev with copies := d.copies, copyState := d.copyState, wire := d.wire }) ∧
  (∀ (s : State) (i : Nat) (v : Word) (o : Int), s.dev.powered = true → s.dev.powerBusy = false → s.dev.flag MBX_FW.READY = true →
    s.dev.siteActive i = true → s.dev.isolated i = false → (s.dev.gate i).closed = false → (s.dev.copyInfo i).loaded = true →
    s.dev.reaches (.ringSync i v) →
    o = ((s.dev.copy i).toNat : Int) - (v.toNat + s.dev.get TIM_SITE.DELAY 0 i : Nat) → -128 ≤ o → o ≤ 127 →
    ∃ d : Dev, exec (.ringSync i v) s = .next (s.withDev d) ∧ d.packets = s.dev.packets.erase (.ringSync i v) ++ [.syncAck i o]
      ∧ (o < -1 → (d.copyInfo i).slew = (s.dev.copyInfo i).slew ∧ d.copy i = v + BitVec.ofNat 64 (s.dev.get TIM_SITE.DELAY 0 i) ∧ (d.copyInfo i).good = 0
          ∧ d.get TIM_SITE.STEPS 0 i = min (s.dev.get TIM_SITE.STEPS 0 i + 1) (2 ^ 16 - 1))
      ∧ (-1 ≤ o → d.copy i = s.dev.copy i ∧ d.regs = s.dev.regs)
      ∧ (1 < o → (d.copyInfo i).slew = true ∧ (d.copyInfo i).good = 0)
      ∧ (-1 ≤ o → o ≤ 1 → (d.copyInfo i).slew = false)
      ∧ (-1 ≤ o → o ≤ 1 → 1 ≤ (s.dev.copyInfo i).good → (d.copyInfo i).good = 2)) ∧
  (∀ (s : State) (i : Nat) (o : Int), s.dev.powered = true → s.dev.siteActive i = true → s.dev.isolated i = false →
    s.dev.reaches (.syncAck i o) →
    ∃ d : Dev, exec (.syncAck i o) s = .next (s.withDev d)
      ∧ d = { s.dev with regs := d.regs, wire := (s.dev.take (.syncAck i o)).wire }
      ∧ d.get TIM_SITE.OFFSET 0 i = (o % 256).toNat
      ∧ (d.flag TIM_SITE.LOCKED 0 i = true ↔ (s.dev.copyInfo i).good = 2) ∧ d.flag TIM_SITE.SLEW 0 i = (s.dev.copyInfo i).slew
      ∧ d.get TIM_SITE.DELAY 0 i = s.dev.get TIM_SITE.DELAY 0 i ∧ ∀ r : Reg, r ≠ ⟨.TIM_SITE, 0, i⟩ → d.reg r = s.dev.reg r) ∧
  (∀ (s : State) (c : Nat), s.dev.powered = true → s.dev.upstream = some c → s.dev.spanUp c = true → s.dev.spanFree c 1 1 →
    ∃ d : Dev, exec .tsyncPeriod s = .next (s.withDev d) ∧ d = { s.dev with spans := d.spans, wire := d.wire }
      ∧ d.packets = s.dev.packets ++ [.tsyncReq c] ∧ (d.span c).aheadSent = false ∧ (d.span c).sentAt = some s.dev.ring) ∧
  (∀ (s : State) (c : Nat), s.dev.powered = true → s.dev.spanHears c = true → s.dev.spanFree c 1 1 →
    ∃ d : Dev, exec (.tsyncReq c) s = .next (s.withDev d) ∧ d = { s.dev with spans := d.spans, wire := d.wire }
      ∧ d.packets = s.dev.packets ++ [.tsyncResp c s.dev.ring s.dev.ring]) ∧
  (∀ (s : State) (c t2 t3 : Nat) (t1 : Word) (y o : Int), s.dev.powered = true → s.dev.spanHears c = true →
    s.dev.upstream = some c → (s.dev.span c).sentAt = some t1 →
    y = (((s.dev.ring.toNat : Int) - t1.toNat) - ((t3 : Int) - t2)) / 2 → o = (t1.toNat : Int) + y - t2 →
    ∃ d : Dev, exec (.tsyncResp c t1.toNat t2 t3 s.dev.ring.toNat) s = .next (s.withDev d)
      ∧ d.get SPN_TIME.DELAY c = (y % 2 ^ 16).toNat ∧ d.mem = s.dev.mem ∧ d.copies = s.dev.copies
      ∧ (o < 0 → d.ring = s.dev.ring + BitVec.ofNat 64 o.natAbs ∧ d.master.slew = 0 ∧ d.flag SPN_TIME.FAR c = false)
      ∧ (0 ≤ o → d.ring = s.dev.ring)
      ∧ (0 ≤ o → o ≤ 2 ^ 10 → d.master.slew = o.natAbs ∧ d.flag SPN_TIME.FAR c = false ∧ (d.flag TIM_STAT.SLEWING = true ↔ o ≠ 0))
      ∧ (2 ^ 10 < o → d.flag SPN_TIME.FAR c = true
          ∧ ((s.dev.span c).aheadSent = false → s.dev.spanFree c 1 1 → Packet.ahead c o.natAbs ∈ d.packets))) ∧
  (∀ (s : State) (c x : Nat), s.dev.powered = true → s.dev.spanHears c = true → s.dev.upstream = none → s.dev.master.acted = none →
    s.dev.master.ahead = none →
    ∃ d : Dev, exec (.tsyncAhead c x) s = .next (s.withDev d) ∧ d.ring = s.dev.ring + BitVec.ofNat 64 (x + 2 ^ 10)
      ∧ d.master.ahead = none ∧ d.master.acted = some d.ring ∧ d.mem = s.dev.mem)

/-- Packers and trace rings (R247 to R257). A packer takes the next ready leaf in rotation, sends its record for one record credit and returns the words'
credits; the tail timeout flushes an unfinished run. The trace unit returns the record credit, buffers the record or counts it dropped, and writes the
record at the head to its ring; a ring that is off or full drops it, one with a gap gets its gap record first, and a refused write disables the ring.
Enabling a ring sets WR to RD; its size and mode stay while it is enabled. -/
def Obligations.TraceRecordsReachTheirRings : Prop :=
  (∀ (s : State) (i t j : Nat), s.dev.powered = true → s.dev.siteActive i = true → s.dev.isolated i = false → t < 16 →
    j = ((s.dev.packer i).next + t) % 16 → ready ((s.dev.packer i).fifo j) = true →
    (∀ k, k < t → ready ((s.dev.packer i).fifo (((s.dev.packer i).next + k) % 16)) = false) → 0 < (s.dev.packer i).credits →
    ∃ (d : Dev) (x : TraceRec) (run : List Staged), exec (.packerRecordForm i) s = .next (s.withDev d)
      ∧ run = (headRun ((s.dev.packer i).fifo j)).take 6 ∧ x.leaf = 16 * s.dev.boughAt i + j ∧ x.payload = run.map (·.word)
      ∧ x.valid = 8 * run.length ∧ run.head?.map (·.stamp) = some x.ring ∧ d.packets = s.dev.packets ++ [.trace i x]
      ∧ (d.packer i).fifo j = ((s.dev.packer i).fifo j).drop run.length ∧ (∀ k, k ≠ j → (d.packer i).fifo k = (s.dev.packer i).fifo k)
      ∧ (d.packer i).credits + 1 = (s.dev.packer i).credits ∧ (d.packer i).next = (j + 1) % 16
      ∧ (d.lee x.leaf).credits = (s.dev.lee x.leaf).credits + run.length
      ∧ d.get TRC_PACK.RECORDS 0 i = (s.dev.get TRC_PACK.RECORDS 0 i + 1) % 2 ^ 32 ∧ d.mem = s.dev.mem) ∧
  (∀ (s : State) (i n : Nat), s.dev.powered = true → s.dev.siteActive i = true → s.dev.isolated i = false →
    (s.dev.packer i).fifo (n % 16) ≠ [] → ready ((s.dev.packer i).fifo (n % 16)) = false → 0 < (s.dev.packer i).credits →
    ∃ (d : Dev) (x : TraceRec), exec (.tailTimeout i n) s = .next (s.withDev d) ∧ d.packets = s.dev.packets ++ [.trace i x]
      ∧ x.payload = ((s.dev.packer i).fifo (n % 16)).map (·.word) ∧ (d.packer i).fifo (n % 16) = []
      ∧ d.get TRC_PACK.TAILS 0 i = min (s.dev.get TRC_PACK.TAILS 0 i + 1) (2 ^ 16 - 1) ∧ d.mem = s.dev.mem) ∧
  (∀ (s : State) (i : Nat) (x : TraceRec), s.dev.powered = true → x.leaf < 384 → s.dev.trace.buffer.length < 4096 →
    ∃ d : Dev, exec (.traceRecordArrival i x) s = .next (s.withDev d)
      ∧ d.trace = { s.dev.trace with buffer :=
          s.dev.trace.buffer ++ [(x, (s.dev.reg ⟨.TRC_BMAP, 0, 0⟩).bits (2 * (x.leaf / 16) + 1) (2 * (x.leaf / 16)))] }
      ∧ d.get TRC_STAT.FILL = s.dev.trace.buffer.length + 1 ∧ (d.packer i).credits = min 8 ((s.dev.packer i).credits + 1)
      ∧ (s.dev.get TRC_CTL.PANIC_OFF ≤ s.dev.get TRC_CTL.PANIC_ON → s.dev.get TRC_CTL.PANIC_ON < s.dev.trace.buffer.length + 1 →
          d.flag TRC_STAT.PANIC = true)
      ∧ d.wire = (s.dev.take (.trace i x)).wire ∧ d.mem = s.dev.mem ∧ ∀ r : Reg, r ≠ ⟨.TRC_STAT, 0, 0⟩ → d.reg r = s.dev.reg r) ∧
  (∀ (s : State) (i r : Nat) (x : TraceRec), s.dev.powered = true → x.leaf < 384 → 4096 ≤ s.dev.trace.buffer.length →
    r = (s.dev.reg ⟨.TRC_BMAP, 0, 0⟩).bits (2 * (x.leaf / 16) + 1) (2 * (x.leaf / 16)) → s.dev.gap r = none →
    ∃ d : Dev, exec (.traceRecordArrival i x) s = .next (s.withDev d) ∧ d.trace.buffer = s.dev.trace.buffer
      ∧ d.gap r = some ⟨x.ring, x.ring, x.mcycle, x.mcycle, 1, 1⟩ ∧ d.flag TRC_RING_DROP.PENDING 0 r = true
      ∧ d.get TRC_RING_DROP.RECORDS 0 r = min (s.dev.get TRC_RING_DROP.RECORDS 0 r + 1) (2 ^ 32 - 1)
      ∧ (d.packer i).credits = min 8 ((s.dev.packer i).credits + 1)) ∧
  (∀ (s : State) (r a : Nat) (x : TraceRec) (rest : List (TraceRec × Nat)), s.dev.powered = true → s.dev.trace.buffer = (x, r) :: rest →
    s.dev.flag TRC_RING_CTL.EN 0 r = true → s.dev.ringFull r = false → s.dev.gapDue = none → a = s.dev.recordAddr r (s.dev.ringNext r) →
    s.dev.memCheck 5 0 true a = .ok → rangeOf a = .dram →
    ∃ d : Dev, exec .traceRecordWrite s = .next (s.withDev d) ∧ d = { s.dev with regs := d.regs, trace := d.trace, wire := d.wire }
      ∧ d.trace.buffer = rest ∧ d.trace.inflight = s.dev.trace.inflight ++ [⟨r, a / 64, false⟩]
      ∧ d.packets = s.dev.packets ++ [.nonalloc ⟨.wrFull, .trace, a / 64, 0, 0, traceLine x⟩]
      ∧ d.get TRC_RING_DROP.RECORDS 0 r = s.dev.get TRC_RING_DROP.RECORDS 0 r
      ∧ d.get TRC_RING_WR.COUNT 0 r = s.dev.get TRC_RING_WR.COUNT 0 r) ∧
  (∀ (s : State) (r : Nat) (x : TraceRec) (rest : List (TraceRec × Nat)), s.dev.powered = true → s.dev.trace.buffer = (x, r) :: rest →
    s.dev.gapDue = none → s.dev.flag TRC_RING_CTL.EN 0 r = false ∨ (s.dev.ringFull r = true ∧ s.dev.gap r = none) →
    ∃ d : Dev, exec .traceRecordWrite s = .next (s.withDev d) ∧ d = { s.dev with regs := d.regs, trace := d.trace }
      ∧ d.trace.buffer = rest ∧ d.trace.inflight = s.dev.trace.inflight
      ∧ d.get TRC_RING_DROP.RECORDS 0 r = min (s.dev.get TRC_RING_DROP.RECORDS 0 r + 1) (2 ^ 32 - 1)
      ∧ (s.dev.flag TRC_RING_CTL.EN 0 r = false → d.gap r = s.dev.gap r)
      ∧ (s.dev.flag TRC_RING_CTL.EN 0 r = true → d.gap r = some ⟨x.ring, x.ring, x.mcycle, x.mcycle, 1, 2⟩)) ∧
  (∀ (s : State) (r a : Nat) (g : Gap), s.dev.powered = true →
    s.dev.gapDue = some (r, g) →
    a = s.dev.recordAddr r (s.dev.ringNext r) → s.dev.memCheck 5 0 true a = .ok → rangeOf a = .dram →
    ∃ d : Dev, exec .traceRecordWrite s = .next (s.withDev d) ∧ d.trace.buffer = s.dev.trace.buffer ∧ d.gap r = none
      ∧ d.flag TRC_RING_DROP.PENDING 0 r = false ∧ d.get TRC_RING_DROP.GAPS 0 r = min (s.dev.get TRC_RING_DROP.GAPS 0 r + 1) (2 ^ 16 - 1)
      ∧ Packet.nonalloc ⟨.wrFull, .trace, a / 64, 0, 0, traceLine g.record⟩ ∈ d.packets ∧ d.mem = s.dev.mem) ∧
  (∀ (s : State) (r a : Nat) (x : TraceRec) (rest : List (TraceRec × Nat)), s.dev.powered = true → s.dev.trace.buffer = (x, r) :: rest →
    r < 4 → s.dev.flag TRC_RING_CTL.EN 0 r = true → s.dev.ringFull r = false → s.dev.gapDue = none →
    a = s.dev.recordAddr r (s.dev.ringNext r) → s.dev.memCheck 5 0 true a ≠ .ok →
    ∃ d : Dev, exec .traceRecordWrite s = .next (s.withDev d) ∧ d.trace.buffer = rest ∧ d.flag TRC_RING_CTL.EN 0 r = false
      ∧ bit (d.get TRC_IRQ_STAT.ACCESS) r = true ∧ d.gap r = some ⟨x.ring, x.ring, x.mcycle, x.mcycle, 1, 8⟩
      ∧ d.trace.inflight = s.dev.trace.inflight ∧ d.mem = s.dev.mem) ∧
  (∀ (s : State) (r : Nat) (v : Word), s.dev.powered = true → r < 4 →
    ∃ d : Dev, exec (.trcRingCtlWrite r v) s = .next (s.withDev d) ∧ d = { s.dev with regs := d.regs, trace := d.trace }
      ∧ d.flag TRC_RING_CTL.EN 0 r = v.getLsbD 0 ∧ d.get TRC_RING_CTL.WMARK 0 r = v.bits 31 8
      ∧ (s.dev.flag TRC_RING_CTL.EN 0 r = true → v.getLsbD 0 = true →
          d.get TRC_RING_CTL.LOG2 0 r = s.dev.get TRC_RING_CTL.LOG2 0 r ∧ d.get TRC_RING_CTL.MODE 0 r = s.dev.get TRC_RING_CTL.MODE 0 r
            ∧ d.trace = s.dev.trace)
      ∧ (s.dev.flag TRC_RING_CTL.EN 0 r = false ∨ v.getLsbD 0 = false → d.get TRC_RING_CTL.MODE 0 r = v.bits 1 1
          ∧ (6 ≤ v.bits 7 3 → v.bits 7 3 ≤ 26 → d.get TRC_RING_CTL.LOG2 0 r = v.bits 7 3))
      ∧ (s.dev.flag TRC_RING_CTL.EN 0 r = false → v.getLsbD 0 = true →
          d.get TRC_RING_WR.COUNT 0 r = s.dev.get TRC_RING_RD.COUNT 0 r ∧ d.flag TRC_RING_CTL.WRAPPED 0 r = false ∧ d.gap r = none)
      ∧ ∀ q : Reg, (q.u ≠ 0 ∨ q.k ≠ r ∨ q.name ∉ [RegName.TRC_RING_CTL, .TRC_RING_WR, .TRC_RING_DROP]) → q ≠ ⟨.TRC_STAT, 0, 0⟩ →
          d.reg q = s.dev.reg q)

/-! ### The memory controller -/

/-- What a channel carries out next (R267 to R271, R276): a refresh that can no longer be postponed, then queued writes once 48 are held, then the oldest
read; a channel with nothing queued fills. Refresh intervals and drift slots are noted, and the temperature is reported. (The model's choices in this:
log entries 5, 20.) -/
def Obligations.MemoryChannelsSchedule : Prop :=
  (∀ (s : State) (m n k p : Nat), s.dev.powered = true → s.dev.powerBusy = false → s.dev.phyServes m = true →
    (s.dev.channel m).inputWrites = [] → (s.dev.channel m).postponed = [(k, p)] → 4 < p →
    ∃ d : Dev, exec (.memSchedule m n) s = .next (s.withDev d) ∧ (d.channel m).postponed.find 0 k = p - 1
      ∧ (d.channel m).queue = (s.dev.channel m).queue ∧ (d.channel m).issued = (s.dev.channel m).issued
      ∧ d.mem = s.dev.mem ∧ ∀ j, j ≠ m → d.channel j = s.dev.channel j) ∧
  (∀ (s : State) (m n : Nat) (c : MemCh) (w : QueuedWrite), s.dev.powered = true → s.dev.powerBusy = false → s.dev.phyServes m = true →
    s.dev.channel m = c → c.inputWrites = [] → c.postponed = [] → c.drift = false →
    s.dev.flag TRC_STAT.PANIC = false → c.needed = none → c.writes.head? = some w → 48 ≤ c.writes.length →
    ∃ d : Dev, exec (.memSchedule m n) s = .next (s.withDev d) ∧ d = { s.dev with regs := d.regs, channels := d.channels }
      ∧ (d.channel m).queue = c.queue.erase (c.before c.queue.length w) ∧ (d.channel m).issued = c.issued ∧ (d.channel m).draining = true
      ∧ d.get MEM_CNT.COUNT m 1 = (s.dev.get MEM_CNT.COUNT m 1 + 1) % 2 ^ 64
      ∧ d.get MEM_CNT.COUNT m 0 = s.dev.get MEM_CNT.COUNT m 0 ∧ ∀ j, j ≠ m → d.channel j = s.dev.channel j) ∧
  (∀ (s : State) (m n : Nat) (r : MemRead) (rest : List MemRead), s.dev.powered = true → s.dev.powerBusy = false →
    s.dev.phyServes m = true → (s.dev.channel m).postponed = [] → (s.dev.channel m).drift = false →
    s.dev.flag TRC_STAT.PANIC = false → (s.dev.channel m).reads = r :: rest → (s.dev.channel m).input = [] →
    (s.dev.channel m).inputWrites = [] → (s.dev.channel m).queue = [] → 3000 ≤ (s.dev.ring - r.arrived).toNat →
    ∃ d : Dev, exec (.memSchedule m n) s = .next (s.withDev d) ∧ d = { s.dev with regs := d.regs, channels := d.channels }
      ∧ (d.channel m).reads = rest ∧ (d.channel m).issued = (s.dev.channel m).issued ++ [r]
      ∧ d.get MEM_CNT.COUNT m 0 = (s.dev.get MEM_CNT.COUNT m 0 + 1) % 2 ^ 64 ∧ ∀ j, j ≠ m → d.channel j = s.dev.channel j) ∧
  (∀ (s : State) (m n : Nat), s.dev.powered = true → s.dev.powerBusy = false → s.dev.phyServes m = true → s.dev.memState m = 2 →
    (s.dev.channel m).postponed = [] → (s.dev.channel m).drift = false → (s.dev.channel m).reads = [] → (s.dev.channel m).input = [] →
    (s.dev.channel m).inputWrites = [] → (s.dev.channel m).queue = [] →
    ∃ d : Dev, exec (.memSchedule m n) s = .next (s.withDev d) ∧ d = { s.dev with regs := d.regs, channels := d.channels }
      ∧ d.get MEM_INIT.FRONT m = min (s.dev.get MEM_CFG.CAP m * 2 ^ 24) (s.dev.get MEM_INIT.FRONT m + n)
      ∧ (s.dev.get MEM_CFG.CAP m * 2 ^ 24 ≤ s.dev.get MEM_INIT.FRONT m + n → d.flag MEM_INIT.DONE m = true)) ∧
  (∀ (s : State) (m k : Nat), s.dev.powered = true → s.dev.channelPresent m = true → s.dev.memServes m = true →
    k < 2 ^ s.dev.get MEM_CFG.LRANKS_LOG2 m →
    ∃ d : Dev, exec (.refreshDue m k) s = .next (s.withDev d) ∧ d = { s.dev with channels := d.channels }
      ∧ (d.channel m).postponed.find 0 k = (s.dev.channel m).postponed.find 0 k + 1
      ∧ (∀ j, j ≠ k → (d.channel m).postponed.find 0 j = (s.dev.channel m).postponed.find 0 j)
      ∧ ∀ j, j ≠ m → d.channel j = s.dev.channel j) ∧
  (∀ (s : State) (m t : Nat), s.dev.powered = true → m < 16 → s.dev.channelPresent m = true → s.dev.memServes m = true →
    s.dev.pulseLost (58 + m) = false → s.dev.eventUnderWay (58 + m) = false →
    ∃ d : Dev, exec (.dramTempPoll m t) s = .next (s.withDev d) ∧ (d.flag MEM_STAT.HOT m = true ↔ 85 < t) ∧ d.channels = s.dev.channels
      ∧ d.mem = s.dev.mem ∧ (t ≤ 95 → d.wire = s.dev.wire) ∧ (95 < t → Packet.event (58 + m) 1 {} ∈ d.packets)
      ∧ d.get MEM_STAT.STATE m = s.dev.get MEM_STAT.STATE m) ∧
  (∀ (s : State) (m : Nat), s.dev.powered = true → s.dev.channelPresent m = true → s.dev.memState m = 3 →
    ∃ d : Dev, exec (.driftTrack m) s = .next (s.withDev d) ∧ d = { s.dev with channels := d.channels }
      ∧ d.channel m = { s.dev.channel m with drift := true } ∧ ∀ j, j ≠ m → d.channel j = s.dev.channel j)

/-- Training and the other states of a channel (R259 to R261, R272, R274 to R277). The last channel of a set to train closes the set around those that
have not failed, and filling begins at channel address 0; a channel without DIMMs fails. A sweep starts once its channel's queues are empty, a
re-initialisation begins once they are, and both end in READY or FILLING, or in FAILED with their cause; a quiesced channel that is empty shows it,
and a BIST runs only there and leaves zeros. -/
def Obligations.MemoryChannelsTrainAndPause : Prop :=
  (∀ (s : State) (m rate ranks : Nat) (a : Dimm), s.dev.powered = true → s.dev.flag MBX_FW.READY = true → m < 16 →
    s.dev.channelPresent m = true → s.dev.memState m = 1 → s.dev.flag TRK_CAP.GIL = false → s.dev.get MEM_IL.N m = 0 →
    (s.dev.channel m).keep = false → (∀ k, k < 16 → k ≠ m → k / 4 = m / 4 → s.dev.memState k = 4) →
    channelRate [a] = some rate → channelRanks [a] = some ranks → a.supported = true →
    ∃ d : Dev, exec (.memTrainingDone m { dimms := [a] }) s = .next (s.withDev d)
      ∧ d.get MEM_IL.N m = 1 ∧ d.get MEM_IL.SLOT m = 0 ∧ d.get MEM_IL.GRAN_LOG2 m = 8 ∧ d.get MEM_IL.BASE_HI m = m / 4 * 2 ^ 9
      ∧ d.get MEM_CFG.CAP m = a.gib ∧ d.get MEM_CFG.RATE m = rate ∧ d.get MEM_CFG.DIMMS m = 1
      ∧ d.get MEM_STAT.STATE m = 2 ∧ d.get MEM_INIT.FRONT m = 0 ∧ d.flag MEM_INIT.DONE m = false
      ∧ d = { s.dev with regs := d.regs, channels := d.channels }) ∧
  (∀ (s : State) (m k f : Nat), s.dev.powered = true → s.dev.flag MBX_FW.READY = true → m < 16 → s.dev.channelPresent m = true →
    s.dev.memState m = 1 → k < 16 → k ≠ m → k / 4 = m / 4 → s.dev.channelPresent k = true → s.dev.memState k = 1 →
    (s.dev.channel m).reads = [] → (s.dev.channel m).input = [] → (s.dev.channel m).issued = [] → (s.dev.channel m).inputWrites = [] →
    s.dev.pulseLost (58 + m) = false → s.dev.eventUnderWay (58 + m) = false →
    ∃ d : Dev, exec (.memTrainingDone m { dimms := [], fail := f }) s = .next (s.withDev d)
      ∧ d.get MEM_STAT.STATE m = 4 ∧ d.get MEM_STAT.CAUSE m = 1 ∧ Packet.event (58 + m) 1 {} ∈ d.packets ∧ d.mem = s.dev.mem) ∧
  (∀ (s : State) (m : Nat), s.dev.powered = true → s.dev.channelPresent m = true → s.dev.memServes m = true →
    s.dev.flag MEM_TRAIN.PENDING m = false → s.dev.flag MEM_TRAIN.BUSY m = false → s.dev.flag MEM_CTL.QUIESCE m = false →
    exec (.memTrainRequest m) s = .next (s.withDev (s.dev.put MEM_TRAIN.PENDING 1 m))) ∧
  (∀ (s : State) (m : Nat), s.dev.powered = true → s.dev.channelPresent m = true → s.dev.memServes m = true →
    s.dev.flag MEM_TRAIN.PENDING m = true → (s.dev.channel m).idle = true →
    ∃ d : Dev, exec (.memSweepStart m) s = .next (s.withDev d) ∧ d = { s.dev with regs := d.regs }
      ∧ d.flag MEM_TRAIN.PENDING m = false ∧ d.flag MEM_TRAIN.BUSY m = true ∧ d.memState m = 5
      ∧ ∀ r : Reg, r ≠ ⟨.MEM_TRAIN, m, 0⟩ → r ≠ ⟨.MEM_STAT, m, 0⟩ → d.reg r = s.dev.reg r) ∧
  (∀ (s : State) (m : Nat), s.dev.powered = true → s.dev.powerBusy = false → s.dev.channelPresent m = true →
    s.dev.flag MEM_TRAIN.BUSY m = true → s.dev.memState m = 5 → s.dev.flag MEM_CTL.QUIESCE m = false → s.dev.flag MEM_BIST.BUSY m = false →
    s.dev.inputFits m →
    ∃ d : Dev, exec (.memSweepDone m 0) s = .next (s.withDev d) ∧ d = { s.dev with regs := d.regs, channels := d.channels }
      ∧ d.flag MEM_TRAIN.BUSY m = false ∧ d.get MEM_TRAIN.LAST m = 0
      ∧ d.get MEM_TRAIN.SWEEPS m = min (s.dev.get MEM_TRAIN.SWEEPS m + 1) (2 ^ 16 - 1)
      ∧ d.memState m = (if s.dev.flag MEM_INIT.DONE m then 3 else 2) ∧ (d.channel m).input = []
      ∧ (d.channel m).reads = (s.dev.channel m).reads ++ (s.dev.channel m).input) ∧
  (∀ (s : State) (m : Nat), s.dev.powered = true → s.dev.channelPresent m = true → s.dev.memServes m = true →
    s.dev.flag MEM_TRAIN.BUSY m = false →
    ∃ d : Dev, exec (.memReinit m) s = .next (s.withDev d) ∧ d = { s.dev with regs := d.regs, channels := d.channels }
      ∧ d.flag MEM_TRAIN.BUSY m = true ∧ d.flag MEM_TRAIN.PENDING m = false ∧ (d.memState m = 5 ↔ (s.dev.channel m).idle = true)
      ∧ d.channel m = { s.dev.channel m with reinit := !(s.dev.channel m).idle }) ∧
  (∀ (s : State) (m : Nat), s.dev.powered = true → m < 16 → s.dev.channelPresent m = true → s.dev.flag MEM_TRAIN.BUSY m = true →
    s.dev.memState m = 5 → (s.dev.channel m).reads = [] → (s.dev.channel m).input = [] → (s.dev.channel m).issued = [] →
    (s.dev.channel m).inputWrites = [] → s.dev.pulseLost (58 + m) = false → s.dev.eventUnderWay (58 + m) = false →
    ∃ d : Dev, exec (.memReinitDone m false) s = .next (s.withDev d) ∧ d.memState m = 4 ∧ d.get MEM_STAT.CAUSE m = 7
      ∧ d.flag MEM_TRAIN.BUSY m = false ∧ Packet.event (58 + m) 1 {} ∈ d.packets) ∧
  (∀ (s : State) (m : Nat), s.dev.powered = true → s.dev.channelPresent m = true → s.dev.memServes m = true →
    (s.dev.channel m).idle = true → (s.dev.channel m).reinit = false → s.dev.flag MEM_TRAIN.PENDING m = false →
    ∃ d : Dev, exec (.memQuiesce m true) s = .next (s.withDev d) ∧ d = { s.dev with regs := d.regs } ∧ d.flag MEM_CTL.QUIESCE m = true
      ∧ d.memState m = 7) ∧
  (∀ (s : State) (m : Nat), s.dev.powered = true → s.dev.channelPresent m = true → s.dev.memServes m = true →
    s.dev.flag MEM_TRAIN.BUSY m = false → s.dev.flag MEM_BIST.BUSY m = false → s.dev.inputFits m →
    ∃ d : Dev, exec (.memQuiesce m false) s = .next (s.withDev d) ∧ d.flag MEM_CTL.QUIESCE m = false
      ∧ d.memState m = (if s.dev.flag MEM_INIT.DONE m then 3 else 2) ∧ (d.channel m).input = []
      ∧ (d.channel m).reads = (s.dev.channel m).reads ++ (s.dev.channel m).input ∧ d.mem = s.dev.mem) ∧
  (∀ (s : State) (m k : Nat) (all : Bool), s.dev.powered = true → s.dev.channelPresent m = true → s.dev.memServes m = true →
    s.dev.flag MEM_BIST.BUSY m = false →
    ∃ d : Dev, exec (.memBist m all k) s = .next (s.withDev d) ∧ d = { s.dev with regs := d.regs }
      ∧ d.flag MEM_BIST.ALL m = all ∧ d.get MEM_BIST.RANK m = k % 8
      ∧ (s.dev.flag MEM_CTL.QUIESCE m = true → (s.dev.channel m).idle = true →
          d.flag MEM_BIST.BUSY m = true ∧ d.flag MEM_BIST.DONE m = false)
      ∧ (s.dev.flag MEM_CTL.QUIESCE m = false ∨ (s.dev.channel m).idle = false →
          d.flag MEM_BIST.BUSY m = false ∧ d.flag MEM_BIST.DONE m = true ∧ d.get MEM_BIST.STATUS m = 1)
      ∧ ∀ r : Reg, r ≠ ⟨.MEM_BIST, m, 0⟩ → d.reg r = s.dev.reg r) ∧
  (∀ (s : State) (m : Nat) (pass : Bool), s.dev.powered = true → s.dev.channelPresent m = true → s.dev.flag MEM_BIST.BUSY m = true →
    s.dev.flag MEM_BIST.ALL m = true → (s.dev.channel m).inputWrites = [] →
    ∃ d : Dev, exec (.memBistDone m pass) s = .next (s.withDev d) ∧ d.flag MEM_BIST.BUSY m = false ∧ d.flag MEM_BIST.DONE m = true
      ∧ d.get MEM_BIST.STATUS m = (if pass then 0 else 2)
      ∧ (∀ a, rangeOf a = .dram → (s.dev.channelOf a).map (·.1) = some m → d.byte a = 0)
      ∧ ∀ a, (s.dev.channelOf a).map (·.1) ≠ some m → d.byte a = s.dev.byte a)

/-- Errors of memory (R278 to R282). A read that returns good gives its line to the transaction that asked; one that cannot be corrected poisons the line,
which goes out poisoned, and is counted and raised. The patrol scrub counts a corrected error and poisons a line that it cannot correct, without
changing data; the end of a window clears its count. (The model's choices in this: log entry 6.) -/
def Obligations.MemoryErrorsAreCountedAndPoison : Prop :=
  (∀ (s : State) (m dev b line : Nat) (r : MemRead) (rest : List MemRead) (t : HomeTxn) (ecc : EccOutcome), s.dev.powered = true →
    s.dev.powerBusy = false → m < 16 → s.dev.phyServes m = true → s.dev.pulseLost (58 + m) = false →
    s.dev.eventUnderWay (58 + m) = false → (s.dev.channel m).issued = r :: rest → r.line = line → rangeOf (64 * line) = .dram → (s.dev.memLine line).poison = false →
    (s.dev.home r.home).txn line = some t → t.fromMem = true → t.poison = false → t.req.op = .rdShared → t.req.src = .bough b →
    t.final.st = .shared → ecc = .ok ∨ ecc = .ue →
    ∃ d : Dev, exec (.dramReadReturn m ecc dev) s = .next (s.withDev d) ∧ (d.channel m).issued = rest
      ∧ ((d.home r.home).txn line).map (·.waitAck) = some true ∧ ((d.home r.home).txn line).map (·.fromMem) = some false
      ∧ Packet.data (.bough b) line .shared t.final.epoch ⟨(s.dev.memLine line).data, decide (ecc = .ue)⟩ ∈ d.packets
      ∧ (d.memLine line).data = (s.dev.memLine line).data ∧ (d.memLine line).poison = decide (ecc = .ue)
      ∧ (ecc = .ue → d.get MEM_ECC_CNT.UE m = min (s.dev.get MEM_ECC_CNT.UE m + 1) (2 ^ 16 - 1) ∧ d.flag MEM_STAT.UE m = true
          ∧ Packet.event (58 + m) 1 { addr := 64 * line, mkind := 2, mid := m } ∈ d.packets)
      ∧ (ecc = .ok → d.mem = s.dev.mem ∧ d.get MEM_ECC_CNT.UE m = s.dev.get MEM_ECC_CNT.UE m)) ∧
  (∀ (s : State) (m ca dev : Nat) (ecc : EccOutcome), s.dev.powered = true → m < 16 → s.dev.channelPresent m = true →
    s.dev.memServes m = true → s.dev.get MEM_SCRUB.PERIOD_H m ≠ 0 → ca / 64 < s.dev.get MEM_INIT.FRONT m →
    (s.dev.memLine (s.dev.addrOf m ca / 64)).poison = false → rangeOf (64 * (s.dev.addrOf m ca / 64)) = .dram →
    s.dev.get MEM_CE_CTL.THRESH m = 0 → s.dev.flag MEM_ECC_LOG.VALID m = false →
    ∃ d : Dev, exec (.patrolScrub m ca ecc dev) s = .next (s.withDev d)
      ∧ (d.memLine (s.dev.addrOf m ca / 64)).data = (s.dev.memLine (s.dev.addrOf m ca / 64)).data
      ∧ (d.memLine (s.dev.addrOf m ca / 64)).poison = decide (ecc = .ue)
      ∧ (ecc = .ce → d.get MEM_ECC_CNT.CE m = min (s.dev.get MEM_ECC_CNT.CE m + 1) (2 ^ 32 - 1) ∧ d.get MEM_ECC_LOG.KIND m = 4)
      ∧ (ecc = .ue → d.get MEM_ECC_CNT.UE m = min (s.dev.get MEM_ECC_CNT.UE m + 1) (2 ^ 16 - 1) ∧ d.get MEM_ECC_LOG.KIND m = 5)
      ∧ d.get MEM_SCRUB.PASSES m = (if ca / 64 + 1 = s.dev.get MEM_INIT.FRONT m then
          min (s.dev.get MEM_SCRUB.PASSES m + 1) (2 ^ 16 - 1) else s.dev.get MEM_SCRUB.PASSES m)
      ∧ ∀ a, a / 64 ≠ s.dev.addrOf m ca / 64 → d.byte a = s.dev.byte a) ∧
  (∀ (s : State) (m : Nat), s.dev.powered = true → s.dev.channelPresent m = true →
    ∃ d : Dev, exec (.ceWindow m) s = .next (s.withDev d) ∧ d = { s.dev with channels := d.channels }
      ∧ d.channel m = { s.dev.channel m with ceWindow := 0, ceHit := false } ∧ ∀ j, j ≠ m → d.channel j = s.dev.channel j)

/-! ### Translation -/

/-- Translation requests (R292 to R301, R306, R307). A request of a device starts a walk, whose first read is its segment's directory. A read that returns
good goes on with the walk, and its end performs the request: a read of DRAM answers with its bytes, an ATS request with the translation, an MSI is
sent on to its target, or counted when its entry is off; and a page request is queued. A read that is poisoned or not answered in time ends the walk
in a fault, which is counted and recorded, or dropped where its queue is off, and the request is aborted. (The model's choices in this: log entries
19, 34.) -/
def Obligations.DeviceRequestsWalkAndEnd : Prop :=
  (∀ (s : State) (c : Instr) (job : TtuJob) (seg rid a : Nat), s.dev.powered = true → s.dev.holdsDevices = false →
    s.dev.deviceReaches seg rid = true → s.dev.deviceHeld seg rid = false → s.dev.flag TTU_DDT.EN 0 seg = true → s.dev.ttu.cache = [] →
    a = s.dev.get TTU_DDT.BASE 0 seg * 4096 + 8 * (rid / 256 % 256) → s.dev.walkable a = true → s.dev.memCheck 4 0 false a = .ok →
    (∃ r : DevReq, c = .deviceRequest r ∧ job = .access r ∧ r.seg = seg ∧ r.rid = rid ∧ r.size ≠ 0 ∧ r.addr % 4096 + r.size ≤ 4096)
      ∨ (∃ data : Nat, c = .deviceMsi seg rid data ∧ job = .msi seg rid data)
      ∨ (∃ r : DevReq, c = .atsTranslationRequest r ∧ job = .ats { r with translated := false } ∧ r.seg = seg ∧ r.rid = rid)
      ∨ (∃ p : PageReq, c = .pageRequest p ∧ job = .page p ∧ p.seg = seg ∧ p.rid = rid) →
    ∃ d : Dev, exec c s = .next (s.withDev d) ∧ d = { s.dev with ttu := { s.dev.ttu with
        nextTag := s.dev.ttu.nextTag + 1
        walks := s.dev.ttu.walks ++ [{ tag := s.dev.ttu.nextTag, job := job, outstanding := a }] } }) ∧
  (∀ (s : State) (t v : Nat) (w : TtuWalk) (r r' : WalkRead), s.dev.powered = true →
    (s.dev.ttu.walks.find? fun x => x.tag == t) = some w → s.dev.walkWants w = some r → s.dev.walkReady w r →
    s.dev.cohFetch 3 r.addr r.bytes = (v, false) →
    ttuWalk s.dev.ttuDdt (fun a => ((w.got ++ [(r.addr, v)]).find? fun p => p.1 == a).map (·.2)) w.job = .error (.read r') →
    (s.dev.ttuFill w.job r v).ttuCached w.job r' = none → s.dev.walkable r'.addr = true → s.dev.memCheck 4 0 false r'.addr = .ok →
    (∀ j ∈ s.dev.ttu.waiting, j.device ≠ w.job.device) →
    ∃ d : Dev, exec (.walkReadReturn t false) s = .next (s.withDev d) ∧ d = { s.dev with ttu := d.ttu }
      ∧ d.ttu.walks = s.dev.ttu.walks.erase w ++ [{ w with got := w.got ++ [(r.addr, v)], outstanding := r'.addr }]) ∧
  (∀ (s : State) (t v : Nat) (w : TtuWalk) (r : WalkRead) (x : WalkEnd), s.dev.powered = true →
    (s.dev.ttu.walks.find? fun y => y.tag == t) = some w → s.dev.walkWants w = some r → s.dev.walkReady w r →
    s.dev.cohFetch 3 r.addr r.bytes = (v, false) →
    ttuWalk s.dev.ttuDdt (fun a => ((w.got ++ [(r.addr, v)]).find? fun p => p.1 == a).map (·.2)) w.job = .ok x →
    s.dev.mayFinish w.job x = true →
    s.dev.deviceHeld w.job.device.1 w.job.device.2 = false → (∀ j ∈ s.dev.ttu.waiting, j.device ≠ w.job.device) →
    ∃ d : Dev, exec (.walkReadReturn t false) s = .next (s.withDev d) ∧ d.ttu.walks = s.dev.ttu.walks.erase w
      ∧ (∀ (q : DevReq) (hpa log2 old : Nat) (rd wr : Bool) (c : TtuCtx), w.job = .access q → x = .translated hpa log2 rd wr c → q.op = .read →
          rangeOf hpa = .dram → s.dev.memCheck 3 q.seg false hpa = .ok → s.dev.memCheck 3 q.seg false (hpa + q.size - 1) = .ok →
          s.dev.cohFetch 66 hpa q.size = (old, false) →
          d.packets = s.dev.packets ++ [.devDone q.seg q.rid q.tag true false old] ∧ d.mem = s.dev.mem)
      ∧ (∀ (q : DevReq) (hpa log2 : Nat) (rd wr : Bool) (c : TtuCtx), w.job = .ats q → x = .translated hpa log2 rd wr c →
          d.packets = s.dev.packets ++ [.atsDone q.seg q.rid q.tag true ⟨hpa / 4096, log2, rd, wr⟩] ∧ (q.seg, q.rid, c.gscid) ∈ d.ttu.atsHeld)
      ∧ (∀ target : Nat, x = .msi target → bit target 31 = true →
          d.packets = s.dev.packets ++ [.msi (target / 2 ^ 11 % 2 ^ 9) (target / 2 ^ 20 % 16) (target % 2 ^ 11)])
      ∧ (∀ target : Nat, x = .msi target → bit target 31 = false → d.wire = s.dev.wire
          ∧ d.get TTU_CNT.MSI_MASKED = min (s.dev.get TTU_CNT.MSI_MASKED + 1) (2 ^ 16 - 1))
      ∧ (∀ p : PageReq, w.job = .page p → x = .pageOk → s.dev.flag TTU_PQ_BASE.EN = false →
          d.get TTU_STAT.PQ_DROP = min (s.dev.get TTU_STAT.PQ_DROP + 1) (2 ^ 16 - 1)
            ∧ d.packets = s.dev.packets ++ (if p.last then [.prgResponse p.seg p.rid p.pasid p.prgi 0] else []))) ∧
  (∀ (s : State) (c : Instr) (t cause a : Nat) (w : TtuWalk) (r : WalkRead) (q : DevReq), s.dev.powered = true →
    (c = .walkReadReturn t true ∧ cause = 6 ∧ rangeOf r.addr = .dram ∧ s.dev.walkReady w r) ∨ (c = .walkTimeout t ∧ cause = 7) → t < 2 ^ 32 →
    s.dev.recordMay faultQueue = true →
    (s.dev.ttu.walks.find? fun x => x.tag == t) = some w → s.dev.walkWants w = some r → w.job = .access q → q.op = .read →
    (∀ j ∈ s.dev.ttu.waiting, j.device ≠ w.job.device) → a = s.dev.get TTU_FQ_BASE.ADDR * 4096
      + s.dev.get TTU_FQ_TAIL.COUNT % 2 ^ s.dev.get TTU_FQ_BASE.LOG2 * 32 →
    ∃ d : Dev, exec c s = .next (s.withDev d) ∧ d.ttu.walks = s.dev.ttu.walks.erase w
      ∧ d.get TTU_CNT.FAULTS = min (s.dev.get TTU_CNT.FAULTS + 1) (2 ^ 32 - 1)
      ∧ Packet.devDone q.seg q.rid q.tag false false 0 ∈ d.packets
      ∧ (s.dev.flag TTU_FQ_BASE.EN = false → d.flag TTU_STAT.FQ_OVF = true
          ∧ d.get TTU_STAT.FQ_DROP = min (s.dev.get TTU_STAT.FQ_DROP + 1) (2 ^ 16 - 1) ∧ d.mem = s.dev.mem)
      ∧ (s.dev.flag TTU_FQ_BASE.EN = true → s.dev.get TTU_FQ_BASE.LOG2 < 32 →
          s.dev.get TTU_FQ_TAIL.COUNT = s.dev.get TTU_FQ_HEAD.COUNT →
          s.dev.memCheck 4 0 true a = .ok → rangeOf a = .dram → s.dev.cohRead (a / 64) = s.dev.memLine (a / 64) →
          d.get TTU_FQ_TAIL.COUNT = (s.dev.get TTU_FQ_TAIL.COUNT + 1) % 2 ^ 32 ∧ d.flag TTU_IRQ_STAT.FQ = true
            ∧ d.byte a = BitVec.ofNat 8 cause ∧ ∀ b, b < a ∨ a + 32 ≤ b → d.byte b = s.dev.byte b))

/-- Stalls, page answers, queues and invalidation (R303 to R306, R308 to R310). RESUME frees a slot and walks again past the caches, ABORT and the timeout
end the request, and a command for an empty slot is stale. An invalidation drops what it covers and asks the devices that hold translations; it ends
when they have answered, or were too slow, and nothing covered is under way; another one meanwhile is refused. Enabling a queue gives it as many
records written as consumed. -/
def Obligations.StallsAndInvalidations : Prop :=
  (∀ (s : State) (slot a : Nat) (q : DevReq), s.dev.powered = true → slot < 256 → s.dev.ttu.stalls.find none slot = some (.device q) →
    s.dev.flag TTU_DDT.EN 0 q.seg = true → q.seg < 8 → s.dev.ttu.cache = [] →
    a = s.dev.get TTU_DDT.BASE 0 q.seg * 4096 + 8 * (q.rid / 256 % 256) → s.dev.walkable a = true → s.dev.memCheck 4 0 false a = .ok →
    ∃ d : Dev, exec (.stallResume slot) s = .next (s.withDev d) ∧ d = { s.dev with regs := d.regs, ttu := d.ttu }
      ∧ d.ttu.walks = s.dev.ttu.walks ++ [{ tag := s.dev.ttu.nextTag, job := .access q, bypass := true, outstanding := a }]
      ∧ d.ttu.stalls.find none slot = none ∧ d.ttu.waiting = s.dev.ttu.waiting) ∧
  (∀ (s : State) (c : Instr) (slot : Nat) (q : DevReq), s.dev.powered = true → slot < 256 →
    c = .stallAbort slot ∨ c = .stallTimeout slot → s.dev.ttu.stalls.find none slot = some (.device q) → q.op ≠ .write →
    (∀ j ∈ s.dev.ttu.waiting, j.device ≠ (q.seg, q.rid)) →
    ∃ d : Dev, exec c s = .next (s.withDev d) ∧ d = { s.dev with regs := d.regs, ttu := d.ttu, wire := d.wire }
      ∧ d.packets = s.dev.packets ++ [.devDone q.seg q.rid q.tag false false 0]
      ∧ d.ttu.stalls.find none slot = none
      ∧ (c = .stallTimeout slot → d.get TTU_CNT.STALL_TMO = min (s.dev.get TTU_CNT.STALL_TMO + 1) (2 ^ 16 - 1))) ∧
  (∀ (s : State) (c : Instr) (slot : Nat), s.dev.powered = true → c = .stallAbort slot ∨ c = .stallResume slot →
    s.dev.slotUsed slot = false → exec c s = .next (s.withDev (s.dev.put TTU_STAT.STALE_CMD 1))) ∧
  (∀ (s : State) (v : Word), s.dev.powered = true →
    exec (.prgResponse v) s = .next (s.withDev (s.dev.emit (.prgResponse (v.bits 19 16) (v.bits 15 0)
      (if v.getLsbD 59 then some (v.bits 39 20) else none) (v.bits 48 40) (v.bits 63 60))))) ∧
  (∀ (s : State) (c : Instr) (i : TtuInval), s.dev.powered = true →
    (∃ seg rid, c = .invCtx seg rid ∧ i = .context seg rid) ∨ (∃ seg rid p, c = .invPasid seg rid p ∧ i = .pasid seg rid p)
      ∨ (∃ seg rid p, c = .invRange seg rid p ∧ i = .range seg rid p (s.dev.get TTU_INV_ADDR.ADDR * 4096)
          (s.dev.get TTU_INV_ADDR.ADDR * 4096 + 2 ^ s.dev.get TTU_INV_ADDR.LOG2 * 4096 - 1))
      ∨ (∃ g, c = .invS2 g ∧ i = .stage2 g (s.dev.get TTU_INV_ADDR.ADDR * 4096)
          (s.dev.get TTU_INV_ADDR.ADDR * 4096 + 2 ^ s.dev.get TTU_INV_ADDR.LOG2 * 4096 - 1))
      ∨ (c = .invAll ∧ i = .all) →
    (s.dev.flag TTU_INV_STAT.BUSY = true → exec c s = .next (s.withDev (s.dev.put TTU_INV_STAT.REFUSED 1))) ∧
    (s.dev.flag TTU_INV_STAT.BUSY = false → ∃ d : Dev, exec c s = .next (s.withDev d)
      ∧ d = { s.dev with regs := d.regs, ttu := d.ttu, wire := d.wire } ∧ d.flag TTU_INV_STAT.BUSY = true
      ∧ d.get TTU_INV_STAT.STATUS = 0 ∧ d.ttu.inval = some i ∧ d.ttu.cache = s.dev.ttu.cache.filter (fun x => !i.covers x)
      ∧ d.ttu.walks = s.dev.ttu.walks ∧ (∀ h ∈ d.ttu.atsWait, Packet.atsInval h.1 h.2 ∈ d.packets)
      ∧ (∀ h ∈ s.dev.ttu.atsHeld, h.1 < 8 → i.device h.1 h.2.1 h.2.2 = true → (h.1, h.2.1) ∈ d.ttu.atsWait)
      ∧ ∀ r : Reg, r ≠ ⟨.TTU_INV_STAT, 0, 0⟩ → d.reg r = s.dev.reg r)) ∧
  (∀ (s : State) (c : Instr) (i : TtuInval) (status : Nat), s.dev.powered = true → s.dev.ttu.inval = some i → s.dev.invWaits i = false →
    (c = .invDone ∧ s.dev.ttu.atsWait = [] ∧ status = s.dev.get TTU_INV_STAT.STATUS)
      ∨ (c = .atsInvTimeout ∧ s.dev.ttu.atsWait ≠ [] ∧ status = 1) →
    ∃ d : Dev, exec c s = .next (s.withDev d) ∧ d.flag TTU_INV_STAT.BUSY = false ∧ d.flag TTU_INV_STAT.DONE = true
      ∧ d.get TTU_INV_STAT.STATUS = status ∧ d.flag TTU_IRQ_STAT.INV = true ∧ d.ttu.inval = none ∧ d.ttu.atsWait = []
      ∧ (∀ x ∈ d.ttu.cache, i.covers x = false) ∧ (c = .atsInvTimeout → Packet.event 106 1 {} ∈ d.packets) ∧ d.mem = s.dev.mem) ∧
  (∀ (s : State) (seg rid : Nat), s.dev.powered = true →
    ∃ d : Dev, exec (.atsInvalidateResponse seg rid) s = .next (s.withDev d)
      ∧ d = { s.dev with wire := (s.dev.take (.atsInval seg rid)).wire
                         ttu := { s.dev.ttu with atsWait := s.dev.ttu.atsWait.filter (· != (seg, rid)) } }) ∧
  (∀ (s : State) (pq : Bool) (q : TtuQueue), s.dev.powered = true → q = (if pq then pageQueue else faultQueue) → s.dev.flag q.en = false →
    ∃ d : Dev, exec (.ttuQueueEnable pq) s = .next (s.withDev d) ∧ d = { s.dev with regs := d.regs } ∧ d.flag q.en = true
      ∧ d.get q.tail = s.dev.get q.head ∧ d.get q.head = s.dev.get q.head ∧ d.get q.base = s.dev.get q.base)

/-! ### Host I/O -/

/-- Root ports and CXL memory (R283 to R291). The bifurcation changes only while no link is enabled, and a link enables only on a root port that exists. A
link that comes up releases a port that DPC held; a trigger of DPC answers the reads that wait below the port with all-ones and an error, as a timeout
answers the oldest. INTx is counted, and an error message raises the port's event. A CXL range opens behind a link that is up, asks its holders for
their copies as it closes, and is gone once nothing of it is open; the device's answer, good or poisoned, completes the oldest request, and one that
does not come completes it with poison. (The model's choices in this: log entries 33, 35.) -/
def Obligations.RootPortsAndCxlMemory : Prop :=
  (∀ (s : State) (n : Nat) (v : Word), s.dev.powered = true → n < 8 → bit s.dev.rpMask n = true →
    ∃ d : Dev, exec (.hioRpCfgWrite n v) s = .next (s.withDev d) ∧ d = { s.dev with regs := d.regs }
      ∧ (s.dev.get HIO_CFG.LINK_EN n = 0 → d.get HIO_CFG.BIFUR n = v.bits 5 4
          ∧ d.get HIO_CFG.CXL n = if n < 4 then v.bits 8 8 else s.dev.get HIO_CFG.CXL n)
      ∧ (s.dev.get HIO_CFG.LINK_EN n ≠ 0 → d.get HIO_CFG.BIFUR n = s.dev.get HIO_CFG.BIFUR n
          ∧ d.get HIO_CFG.CXL n = s.dev.get HIO_CFG.CXL n)
      ∧ (∀ k, k < 4 → bit (d.get HIO_CFG.LINK_EN n) k = (v.getLsbD k && d.rpExists (4 * n + k)))
      ∧ ∀ r : Reg, r ≠ ⟨.HIO_CFG, n, 0⟩ → d.reg r = s.dev.reg r) ∧
  (∀ (s : State) (r : Nat), s.dev.powered = true → s.dev.rpExists r = true → bit (s.dev.get HIO_CFG.LINK_EN (r / 4)) (r % 4) = true →
    ∃ d : Dev, exec (.rootPortLinkUp r) s = .next (s.withDev d) ∧ d = { s.dev with regs := d.regs } ∧ d.rpUp r = true
      ∧ ∀ q, q ≠ r → d.rpUp q = s.dev.rpUp q) ∧
  (∀ (s : State) (r : Nat), s.dev.powered = true → s.dev.rpExists r = true →
    ∃ d : Dev, exec (.rootPortLinkDown r) s = .next (s.withDev d) ∧ d = { s.dev with regs := d.regs } ∧ d.rpUp r = false
      ∧ ∀ q, q ≠ r → d.rpUp q = s.dev.rpUp q) ∧
  (∀ (s : State) (r : Nat), s.dev.powered = true → s.dev.rpExists r = true → s.dev.ttu.stalls = [] →
    s.dev.pulseLost (74 + r) = false → s.dev.eventUnderWay (74 + r) = false →
    ∃ d : Dev, exec (.dpcTrigger r) s = .next (s.withDev d) ∧ bit (d.get HIO_STAT.DPC (r / 4)) (r % 4) = true ∧ d.rpUp r = false
      ∧ (∀ q, q ≠ r → d.rpUp q = s.dev.rpUp q) ∧ Packet.event (74 + r) 1 {} ∈ d.packets
      ∧ (∀ h a, Packet.mmioRead r h a ∈ s.dev.packets → rangeOf a = .mmio → Packet.ioAnswer h a (BitVec.allOnes 64) true ∈ d.packets)
      ∧ (∀ h a, Packet.mmioRead r h a ∉ d.packets) ∧ (∀ a n v, Packet.mmioWrite r a n v ∉ d.packets) ∧ d.mem = s.dev.mem) ∧
  (∀ (s : State) (r h a : Nat) (before after : List Packet), s.dev.powered = true →
    s.dev.packets = before ++ .mmioRead r h a :: after → (∀ h' a', Packet.mmioRead r h' a' ∉ before) → rangeOf a = .mmio →
    ∃ d : Dev, exec (.mmioCompletionTimeout r) s = .next (s.withDev d) ∧ d = { s.dev with wire := d.wire }
      ∧ d.packets = before ++ after ++ [.ioAnswer h a (BitVec.allOnes 64) true]) ∧
  (∀ (s : State) (n : Nat), s.dev.powered = true → n < 8 → bit s.dev.rpMask n = true →
    s.dev.broken (.trunk (0x30 + n)) = false →
    ∃ d : Dev, exec (.intxMessage n) s = .next (s.withDev d) ∧ d = { s.dev with regs := d.regs }
      ∧ d.get HIO_STAT.INTX n = min (s.dev.get HIO_STAT.INTX n + 1) (2 ^ 16 - 1) ∧ d.get HIO_STAT.UP n = s.dev.get HIO_STAT.UP n
      ∧ d.get HIO_STAT.DPC n = s.dev.get HIO_STAT.DPC n) ∧
  (∀ (s : State) (r : Nat), s.dev.powered = true → s.dev.rpExists r = true →
    s.dev.pulseLost (74 + r) = false → s.dev.eventUnderWay (74 + r) = false →
    ∃ d : Dev, exec (.aerErrorMessage r) s = .next (s.withDev d) ∧ Packet.event (74 + r) 1 {} ∈ d.packets) ∧
  (∀ (s : State) (n : Nat), s.dev.powered = true → s.dev.cxlMode n = true → s.dev.rpUp (4 * n) = true →
    s.dev.flag HIO_CXL.CLOSING n = false →
    ∃ d : Dev, exec (.cxlRangeEnable n) s = .next (s.withDev d) ∧ d = { s.dev with regs := d.regs } ∧ d.flag HIO_CXL.EN n = true
      ∧ d.get HIO_CXL.SIZE_G n = s.dev.get HIO_CXL.SIZE_G n ∧ ∀ r : Reg, r ≠ ⟨.HIO_CXL, n, 0⟩ → d.reg r = s.dev.reg r) ∧
  (∀ (s : State) (n : Nat), s.dev.powered = true → n < 4 → s.dev.flag HIO_CXL.EN n = true → s.dev.flag HIO_CXL.CLOSING n = false →
    ∃ d : Dev, exec (.cxlRangeClose n) s = .next (s.withDev d) ∧ d.flag HIO_CXL.CLOSING n = true ∧ d.flag HIO_CXL.EN n = true
      ∧ (s.dev.cxlEntries n = [] → d = { s.dev with regs := d.regs })
      ∧ (∀ line b, s.dev.cxlEntries n = [line] → (s.dev.home (n / 2)).txn line = none → (s.dev.entry (n / 2) line).st = .excl →
          (s.dev.entry (n / 2) line).owner = b → (s.dev.entry (n / 2) line).sharers = [b] →
          d.packets = s.dev.packets ++ [.snoop .unique b line none])) ∧
  (∀ (s : State) (n : Nat), s.dev.powered = true → n < 4 → s.dev.flag HIO_CXL.CLOSING n = true → s.dev.cxlEntries n = [] →
    s.dev.cxlBusy n = false →
    ∃ d : Dev, exec (.cxlCloseDone n) s = .next (s.withDev d) ∧ d = { s.dev with regs := d.regs } ∧ d.flag HIO_CXL.EN n = false
      ∧ d.flag HIO_CXL.CLOSING n = false ∧ ∀ r : Reg, r ≠ ⟨.HIO_CXL, n, 0⟩ → d.reg r = s.dev.reg r) ∧
  (∀ (s : State) (c : Instr) (n b : Nat) (bad : Bool) (r : CxlReq) (rest : List CxlReq) (t : HomeTxn), s.dev.powered = true →
    c = .cxlMemResponse n bad ∨ (c = .cxlMemTimeout n ∧ bad = true) → s.dev.cxl.find [] n = r :: rest → r.write = false →
    (s.dev.home r.home).txn r.line = some t → t.fromMem = true → t.poison = false → t.req.op = .rdShared → t.req.src = .bough b →
    t.final.st = .shared →
    ∃ d : Dev, exec c s = .next (s.withDev d) ∧ d.cxl.find [] n = rest
      ∧ Packet.data (.bough b) r.line .shared t.final.epoch
          ⟨(s.dev.storedLine r.line).data, (s.dev.storedLine r.line).poison || bad⟩ ∈ d.packets
      ∧ (c = .cxlMemTimeout n → n < 8 → bit s.dev.rpMask n = true → s.dev.pulseLost (74 + 4 * n) = false →
          s.dev.eventUnderWay (74 + 4 * n) = false → Packet.event (74 + 4 * n) 1 {} ∈ d.packets)
      ∧ ((d.home r.home).txn r.line).map (·.waitAck) = some true ∧ d.mem = s.dev.mem) ∧
  (∀ (s : State) (n : Nat) (bad : Bool) (r : CxlReq) (rest : List CxlReq) (x : LineData), s.dev.powered = true →
    s.dev.cxl.find [] n = r :: rest → r.write = true → r.data = some x → (s.dev.home r.home).txn r.line = none →
    ∃ d : Dev, exec (.cxlMemResponse n bad) s = .next (s.withDev d) ∧ d.cxl.find [] n = rest ∧ d.storedLine r.line = x
      ∧ d.wire = s.dev.wire ∧ ∀ a, a / 64 ≠ r.line → d.byte a = s.dev.byte a)

/-! ### Bulk engines -/

/-- Slices, queues and doorbells (R313, R316, R317, R328 to R330). BIND gives the lowest unbound slice to a PASID that has none, and UNBIND takes an idle
one back. Enabling a queue starts it from zero, disabling it stops its fetches; a doorbell within the credits makes descriptors available, and one
beyond them, or below the count before, is an error. A reset stops the queues of its slice and ends its parked chunks; an escalated one abandons what
is left. An engine leaves and joins the pool by its EN bit, and a re-initialised one gives its chunk back from the start. -/
def Obligations.BulkSlicesAndQueues : Prop :=
  (∀ (s : State) (pasid q k : Nat), s.dev.powered = true → 4 ≤ q → q ≤ 12 → k < 64 → s.dev.sliceBound k = false →
    (∀ j, j < k → s.dev.sliceBound j = true) → (∀ j, s.dev.sliceBound j = true → s.dev.get BLK_SLICE_CTL.PASID 0 j ≠ pasid % 2 ^ 20) →
    s.dev.boundSlices.length < s.dev.bulk.limit →
    ∃ d : Dev, exec (.bind pasid q) s = .next (s.withDev d) ∧ d = { s.dev with regs := d.regs, bulk := d.bulk }
      ∧ d.sliceBound k = true ∧ d.get BLK_SLICE_CTL.QLOG2 0 k = q ∧ d.get BLK_SLICE_CTL.PASID 0 k = pasid % 2 ^ 20
      ∧ d.get BLK_BIND_RESULT.SLICE = k ∧ d.get BLK_BIND_RESULT.STATUS = 0
      ∧ ∀ j, j ≠ k → d.sliceBound j = s.dev.sliceBound j) ∧
  (∀ (s : State) (pasid q : Nat), s.dev.powered = true → q < 4 ∨ 12 < q →
    ∃ d : Dev, exec (.bind pasid q) s = .next (s.withDev d) ∧ d = { s.dev with regs := d.regs } ∧ d.get BLK_BIND_RESULT.STATUS = 3
      ∧ ∀ r : Reg, r ≠ ⟨.BLK_BIND_RESULT, 0, 0⟩ → d.reg r = s.dev.reg r) ∧
  (∀ (s : State) (k : Nat), s.dev.powered = true → s.dev.sliceBound k = true → s.dev.sliceQuiet k = true →
    (∀ i, i < 1024 → s.dev.qState k i ≠ 1) →
    ∃ d : Dev, exec (.unbind k) s = .next (s.withDev d) ∧ d = { s.dev with regs := d.regs, bulk := d.bulk } ∧ d.sliceBound k = false
      ∧ (∀ i, i < 1024 → d.bulkQueue k i = {}) ∧ (∀ j i, j ≠ k → i < 1024 → d.bulkQueue j i = s.dev.bulkQueue j i)
      ∧ d.get BLK_BIND_RESULT.SLICE = k ∧ d.get BLK_BIND_RESULT.STATUS = 0 ∧ ∀ j, j ≠ k → d.sliceBound j = s.dev.sliceBound j) ∧
  (∀ (s : State) (k i : Nat), s.dev.powered = true → s.dev.sliceBound k = true → i < 1024 → s.dev.qState k i = 0 →
    s.dev.flag EVC_STAT.SAFE = false →
    ∃ d : Dev, exec (.queueEnable k i) s = .next (s.withDev d) ∧ d = { s.dev with regs := d.regs, bulk := d.bulk }
      ∧ d.qState k i = 1 ∧ d.flag DB_RING.EN k i = true ∧ d.get DB_TAIL.TAIL k i = 0 ∧ d.get DB_STAT.DONE k i = 0
      ∧ d.get DB_STAT.ERR k i = 0 ∧ d.bulkQueue k i = { s.dev.bulkQueue k i with head := 0, first := (s.dev.bulkQueue k i).fetched }
      ∧ ∀ j, j ≠ i → j < 1024 → d.bulkQueue k j = s.dev.bulkQueue k j) ∧
  (∀ (s : State) (k i : Nat), s.dev.powered = true → s.dev.sliceBound k = true → i < 1024 → s.dev.qState k i ≠ 3 →
    ∃ d : Dev, exec (.queueDisable k i) s = .next (s.withDev d) ∧ d = { s.dev with regs := d.regs, bulk := d.bulk }
      ∧ d.qState k i = 0 ∧ d.flag DB_RING.EN k i = false ∧ d.bulkQueue k i = s.dev.bulkQueue k i) ∧
  (∀ (s : State) (k i t a b : Nat), s.dev.powered = true → s.dev.sliceBound k = true → i < 1024 → s.dev.qState k i = 1 →
    a = (t % 2 ^ 32 + 2 ^ 32 - s.dev.get DB_STAT.DONE k i) % 2 ^ 32 →
    b = (s.dev.get DB_TAIL.TAIL k i + 2 ^ 32 - s.dev.get DB_STAT.DONE k i) % 2 ^ 32 →
    ∃ d : Dev, exec (.dbTailWrite k i t) s = .next (s.withDev d) ∧ d = { s.dev with regs := d.regs, bulk := d.bulk }
      ∧ (a ≤ 2 ^ s.dev.get BLK_SLICE_CTL.QLOG2 0 k → b ≤ a → d.get DB_TAIL.TAIL k i = t % 2 ^ 32 ∧ d.qState k i = 1
          ∧ ∀ r : Reg, r ≠ ⟨.DB_TAIL, k, i⟩ → d.reg r = s.dev.reg r)
      ∧ (2 ^ s.dev.get BLK_SLICE_CTL.QLOG2 0 k < a ∨ a < b → d.qState k i = 2 ∧ d.get DB_STAT.ERR k i = 1
          ∧ d.get DB_TAIL.TAIL k i = s.dev.get DB_TAIL.TAIL k i)) ∧
  (∀ (s : State) (k e : Nat) (c : BulkChunk), s.dev.powered = true → s.dev.sliceBound k = true →
    s.dev.flag BLK_SLICE_STAT.RESETTING 0 k = false → s.dev.engineChunk e = some c → c.slice = k →
    (∀ j ∈ s.dev.ttu.waiting, j.device ≠ (8, k)) →
    ∃ d : Dev, exec (.sliceReset k) s = .next (s.withDev d)
      ∧ d = { s.dev with regs := d.regs, bulk := d.bulk, ttu := d.ttu } ∧ d.flag BLK_SLICE_STAT.RESETTING 0 k = true
      ∧ d.flag BLK_SLICE_STAT.RESET_DONE 0 k = false ∧ d.engineChunk e = some c
      ∧ (∀ i, i < 1024 → d.qState k i = 3)
      ∧ (∀ x ∈ d.bulk.parked ++ d.bulk.ready, x.slice ≠ k)) ∧
  (∀ (s : State) (k : Nat), s.dev.powered = true → s.dev.sliceBound k = true → s.dev.flag BLK_SLICE_STAT.RESETTING 0 k = true →
    (∀ p ∈ s.dev.bulk.engines, ∀ c, p.2 = some c → c.slice ≠ k) → (∀ c ∈ s.dev.bulk.parked ++ s.dev.bulk.ready, c.slice ≠ k) →
    (∀ i, i < 1024 → (s.dev.bulkQueue k i).descs = []) →
    ∃ d : Dev, exec (.sliceResetEscalate k) s = .next (s.withDev d) ∧ d.flag BLK_SLICE_STAT.ESCALATED 0 k = true
      ∧ d.flag BLK_SLICE_STAT.RESETTING 0 k = false ∧ d.flag BLK_SLICE_STAT.RESET_DONE 0 k = true
      ∧ Packet.event 107 1 {} ∈ d.packets ∧ (∀ c ∈ d.bulk.remote, c.slice ≠ k) ∧ (∀ i, i < 1024 → d.qState k i = 0)
      ∧ d.mem = s.dev.mem) ∧
  (∀ (s : State) (e : Nat) (on : Bool) (c : Instr), s.dev.powered = true → e < 8 →
    (c = .engineDisable e ∧ on = false) ∨ (c = .engineEnable e ∧ on = true ∧ s.dev.flag EVC_STAT.SAFE = false) →
    ∃ d : Dev, exec c s = .next (s.withDev d) ∧ d = { s.dev with regs := d.regs } ∧ bit (d.get BLK_ENG_CTL.EN) e = on
      ∧ (∀ f, f ≠ e → bit (d.get BLK_ENG_CTL.EN) f = bit (s.dev.get BLK_ENG_CTL.EN) f)
      ∧ bit (d.get BLK_ENG_STAT.STOPPED) e = (!on && (s.dev.engineChunk e).isNone)) ∧
  (∀ (s : State) (e : Nat) (c : BulkChunk), s.dev.powered = true → e < 8 → s.dev.engineChunk e = some c → c.ctag = none →
    s.dev.flag BLK_SLICE_STAT.RESETTING 0 c.slice = false →
    ∃ d : Dev, exec (.engineReinit e) s = .next (s.withDev d) ∧ d = { s.dev with regs := d.regs, bulk := d.bulk }
      ∧ d.get BLK_ENG_STAT.REINITS = min (s.dev.get BLK_ENG_STAT.REINITS + 1) (2 ^ 32 - 1)
      ∧ d.engineChunk e = none ∧ d.bulk.ready = s.dev.bulk.ready ++ [{ c with pos := 0, crc := c.crc0 }])

/-- Descriptors and chunks (R311, R318, R319, R322 to R324, R327). A queue with a descriptor available fetches it in order, and one that cannot be fetched
stops its queue; a free engine takes a chunk that waits to be resumed, or the next of the queue whose turn it is. A COPY or FILL of a chunk within a
line writes it, a CRC32C runs over it, and the chunk counts as complete. Every epoch gives each bound slice an equal budget, and a remote chunk that
is not acknowledged in time fails. (The model's choices in this: log entries 19, 36.) -/
def Obligations.BulkDescriptorsAndChunks : Prop :=
  (∀ (s : State) (k i a v : Nat) (x : BulkDesc) (d1 : Dev), s.dev.powered = true → s.dev.sliceBound k = true → i < 1024 →
    s.dev.qState k i = 1 → (s.dev.bulkQueue k i).head ≠ s.dev.get DB_TAIL.TAIL k i → s.dev.flag EVC_STAT.SAFE = false →
    a = s.dev.get DB_RING.ADDR k i * 4096 + (s.dev.bulkQueue k i).head % 2 ^ s.dev.get BLK_SLICE_CTL.QLOG2 0 k * 64 →
    s.dev.bulkRead 2 k a 64 false (some (.fetch k i)) = (.ok (v, false), d1) → d1.bulk = s.dev.bulk →
    (s.dev.bulkQueue k i).descs = [] →
    x = { n := (s.dev.bulkQueue k i).fetched, place := (s.dev.bulkQueue k i).head, words := BitVec.ofNat 512 v } → x.invalid (d1.get TRK_PKG_ID.PKG_ID) = false → x.op ≠ 5 →
    ∃ d : Dev, exec (.descriptorFetch k i) s = .next (s.withDev d) ∧ d.mem = d1.mem ∧ d.wire = d1.wire
      ∧ (d.bulkQueue k i).head = ((s.dev.bulkQueue k i).head + 1) % 2 ^ 32
      ∧ (d.bulkQueue k i).fetched = (s.dev.bulkQueue k i).fetched + 1
      ∧ (d.bulkQueue k i).descs = [{ x with crc := if x.op = 4 then x.field 4 31 0 ^^^ 0xFFFFFFFF else 0 }]) ∧
  (∀ (s : State) (k i a st : Nat) (d1 : Dev), s.dev.powered = true → s.dev.sliceBound k = true → i < 1024 →
    s.dev.qState k i = 1 → (s.dev.bulkQueue k i).head ≠ s.dev.get DB_TAIL.TAIL k i → s.dev.flag EVC_STAT.SAFE = false →
    a = s.dev.get DB_RING.ADDR k i * 4096 + (s.dev.bulkQueue k i).head % 2 ^ s.dev.get BLK_SLICE_CTL.QLOG2 0 k * 64 →
    s.dev.bulkRead 2 k a 64 false (some (.fetch k i)) = (.error (.fail st), d1) →
    ∃ d : Dev, exec (.descriptorFetch k i) s = .next (s.withDev d) ∧ d.qState k i = 2 ∧ d.get DB_STAT.ERR k i = 2
      ∧ Packet.event 107 1 {} ∈ d.packets ∧ d.mem = d1.mem) ∧
  (∀ (s : State) (e : Nat) (c : BulkChunk) (rest : List BulkChunk), s.dev.powered = true → e < 8 →
    bit (s.dev.get BLK_ENG_CTL.EN) e = true → s.dev.engineChunk e = none → s.dev.bulk.ready = c :: rest →
    s.dev.remoteChunk c = false →
    ∃ d : Dev, exec (.chunkDispatch e) s = .next (s.withDev d) ∧ d = { s.dev with regs := d.regs, bulk := d.bulk }
      ∧ d.engineChunk e = some { c with start := s.dev.ring } ∧ d.bulk.ready = rest
      ∧ ∀ f, f ≠ e → d.engineChunk f = s.dev.engineChunk f) ∧
  (∀ (s : State) (e k i : Nat) (is : List Nat) (x : BulkDesc), s.dev.powered = true → e < 8 →
    bit (s.dev.get BLK_ENG_CTL.EN) e = true → s.dev.engineChunk e = none → s.dev.bulk.ready = [] → s.dev.pickSlice = some k →
    s.dev.sliceQueues k = i :: is → s.dev.queueWork k i = some x → x.op ≠ 5 →
    ∃ d : Dev, exec (.chunkDispatch e) s = .next (s.withDev d) ∧ d = { s.dev with regs := d.regs, bulk := d.bulk }
      ∧ d.engineChunk e = some { slice := k, queue := i, n := x.n, off := x.next
                                 len := min (x.len - x.next) (4096 - (x.chunkBase + x.next) % 4096), crc0 := x.crc, crc := x.crc
                                 start := s.dev.ring }
      ∧ (∀ y ∈ (d.bulkQueue k i).descs, y.n = x.n → ∃ z ∈ (s.dev.bulkQueue k i).descs, z.n = x.n
          ∧ y.next = z.next + min (x.len - x.next) (4096 - (x.chunkBase + x.next) % 4096))
      ∧ d.bulk.rot = (k + 1) % 64 ∧ (d.share k).next = (i + 1) % 1024) ∧
  (∀ (s : State) (e m : Nat) (c : BulkChunk) (x y : BulkDesc) (d1 : Dev), s.dev.powered = true → s.dev.engineChunk e = some c →
    (s.dev.bulkQueue c.slice c.queue).descs = [x] → x.n = c.n → x.fail = none → x.ended = false → x.next < x.len → c.pos = 0 →
    0 < c.len → c.len = m → m ≤ 64 - (x.chunkBase + c.off) % 64 →
    (x.op = 2 ∧ s.dev.bulkWrite 2 c.slice (x.dst + c.off) (patternBytes (x.field 4 63 0) (x.dst + c.off) m) m c.bypass (some c.who)
          = (.ok (), d1) ∧ y = { x with done := x.done ++ [(c.off, m)], result := 0 })
      ∨ (x.op = 1 ∧ (∃ (v : Nat) (d0 : Dev), s.dev.bulkRead 3 c.slice (x.src + c.off) m c.bypass (some c.who) = (.ok (v, false), d0)
          ∧ d0.copyAliases c.slice x = false ∧ d0.bulkWrite 2 c.slice (x.dst + c.off) v m c.bypass (some c.who) = (.ok (), d1))
          ∧ y = { x with done := x.done ++ [(c.off, m)], result := 0 })
      ∨ (x.op = 1 ∧ (∃ (v w : Nat) (d0 d2 : Dev), s.dev.bulkRead 3 c.slice (x.src + c.off) m c.bypass (some c.who) = (.ok (v, false), d0)
          ∧ d0.copyAliases c.slice x = true ∧ d0.freeBytes m = (w, d2)
          ∧ d2.bulkWrite 2 c.slice (x.dst + c.off) w m c.bypass (some c.who) = (.ok (), d1))
          ∧ y = { x with done := x.done ++ [(c.off, m)], result := 0 })
      ∨ (x.op = 4 ∧ ∃ v : Nat, s.dev.bulkRead 3 c.slice (x.src + c.off) m c.bypass (some c.who) = (.ok (v, false), d1)
          ∧ y = { x with done := x.done ++ [(c.off, m)], crc := crcBytes m c.crc v, result := crcBytes m c.crc v ^^^ 0xFFFFFFFF }) →
    d1.bulk = s.dev.bulk → d1.flag BLK_SLICE_STAT.RESETTING 0 c.slice = false →
    ∃ d : Dev, exec (.chunkComplete e) s = .next (s.withDev d) ∧ d = { d1 with regs := d.regs, bulk := d.bulk }
      ∧ d.engineChunk e = none ∧ (d.bulkQueue c.slice c.queue).descs = [y]) ∧
  (∀ (s : State), s.dev.powered = true →
    ∃ d : Dev, exec .epochBoundary s = .next (s.withDev d) ∧ d = { s.dev with regs := d.regs, bulk := d.bulk }
      ∧ (∀ k, s.dev.sliceBound k = true → (d.share k).used = 0 ∧
          ((List.range 8).filter fun e => bit (s.dev.get BLK_ENG_CTL.EN) e).length * 1500 / s.dev.boundSlices.length ≤ (d.share k).budget)
      ∧ ∀ e c, e < 8 → s.dev.engineChunk e = some c → d.engineChunk e = some { c with start := s.dev.ring }) ∧
  (∀ (s : State) (ctag : Nat) (c : BulkChunk), s.dev.powered = true → (s.dev.bulk.remote.find? fun y => y.ctag == some ctag) = some c →
    ∃ d : Dev, exec (.rcopyTimeout ctag) s = .next (s.withDev d) ∧ d.bulk.remote = s.dev.bulk.remote.erase c
      ∧ ∀ x ∈ (d.bulkQueue c.slice c.queue).descs, x.n = c.n → x.fail ≠ none)

/-! ### Power states, resets and ageing -/

/-- Power entries and wakes (R363 to R369). A leaf that can goes OFF when it is asked, one with an interrupt pending refuses and the refusal is recorded,
and one may ask to be asked again; a request without an answer counts as refused. An entry of a bough asks all its blocks and notes each that accepts;
a bough that cannot take the step is refused. A bough that wakes from OFF starts as from its reset. STANDBY waits for the leaves and is aborted when
one stays on; SLEEP is refused without an alarm in the future, and from STANDBY it takes the supply away; only the management core wakes the package,
whose channels sweep first. (The model's choices in this: log entries 37, 39, 40.) -/
def Obligations.PowerEntriesAndWakes : Prop :=
  (∀ (s : State) (n : Nat), s.dev.powered = true → s.dev.powerBusy = false → Packet.hsReq (.leaf n) ∈ s.dev.packets →
    Packet.hsAccept (.leaf n) ∉ s.dev.packets → s.dev.isolated (s.dev.leafSite n) = false → n ∈ s.dev.power.leafOff →
    s.dev.switchDue n = false → s.dev.pstate n = 1 →
    ∃ d : Dev, exec (.handshakeResponse (.leaf n) none) s = .next (s.withDev d) ∧ d.power.leafOff = s.dev.power.leafOff.erase n
      ∧ ((s.dev.leaf n).wakes = false → d.pstate n = 2 ∧ d.mem = s.dev.mem)
      ∧ ((s.dev.leaf n).wakes = true → d.pstate n = 1 ∧ d.get PWR_HS_LAST.REASON = 4 ∧ d.flag PWR_HS_LAST.VALID = true
          ∧ d.get BPW_HS_CNT.REFUSED (s.dev.leafSite n) (n % 16) =
              min (s.dev.get BPW_HS_CNT.REFUSED (s.dev.leafSite n) (n % 16) + 1) (2 ^ 32 - 1))) ∧
  (∀ (s : State) (i : Nat) (e : BoughEntry), s.dev.powered = true → s.dev.power.entries = [(i, e)] → s.dev.power.waking = [] →
    s.dev.power.reset = none → s.dev.power.package = none → s.dev.power.heldDev = [] → e.step = 1 → e.accepted = [] →
    .l3c i ∈ e.waiting → e.waiting.erase (.l3c i) ≠ [] → Packet.hsReq (.l3c i) ∈ s.dev.packets → Packet.hsAccept (.l3c i) ∉ s.dev.packets →
    s.dev.isolated i = false →
    ∃ d : Dev, exec (.handshakeResponse (.l3c i) none) s = .next (s.withDev d)
      ∧ d = { s.dev with power := d.power, wire := (s.dev.take (.hsReq (.l3c i))).wire }
      ∧ d.entryAt i = some { e with waiting := e.waiting.erase (.l3c i), accepted := [.l3c i] }) ∧
  (∀ (s : State) (n t : Nat), s.dev.powered = true → s.dev.powerBusy = false → Packet.hsReq (.leaf n) ∈ s.dev.packets →
    Packet.hsAccept (.leaf n) ∉ s.dev.packets → s.dev.isolated (s.dev.leafSite n) = false → n ∈ s.dev.power.leafOff →
    n ∉ s.dev.power.leafDelayed → t ≤ s.dev.get PWR_HS_BOUND.DELAY_US →
    exec (.handshakeResponse (.leaf n) (some t)) s = .next (s.withDev
      { s.dev with wire := (s.dev.take (.hsReq (.leaf n))).wire
                   power := { s.dev.power with leafDelayed := s.dev.power.leafDelayed ++ [n] } })) ∧
  (∀ (s : State) (n : Nat), s.dev.powered = true → s.dev.powerBusy = false → n ∈ s.dev.power.leafOff →
    ∃ d : Dev, exec (.handshakeDelayExpiry (.leaf n)) s = .next (s.withDev d)
      ∧ (Packet.hsReq (.leaf n) ∈ s.dev.packets → d.get PWR_HS_LAST.REASON = 9 ∧ d.flag PWR_HS_LAST.VALID = true
          ∧ d.power.leafOff = s.dev.power.leafOff.erase n)
      ∧ (Packet.hsReq (.leaf n) ∉ s.dev.packets → n ∈ s.dev.power.leafDelayed → d = s.dev.emit (.hsReq (.leaf n)))) ∧
  (∀ (s : State) (i target : Nat) (c : Instr), s.dev.powered = true → s.dev.powerBusy = false → s.dev.flag PWR_BOUGH_CTL.BUSY = false →
    (c = .boughDormantEntry i ∧ target = 1) ∨ (c = .boughOffEntry i ∧ target = 2) →
    ∃ d : Dev, exec c s = .next (s.withDev d) ∧ d = { s.dev with regs := d.regs, power := d.power, wire := d.wire }
      ∧ (s.dev.canEnter i = true → d.flag PWR_BOUGH_CTL.BUSY = true ∧ d.bstate i = 3
          ∧ d.packets = s.dev.packets ++ (s.dev.entryBlocks i).map (Packet.hsReq ·)
          ∧ d.entryAt i = some { target := target, waiting := s.dev.entryBlocks i, l3 := s.dev.flag L3C_CTL.EN i })
      ∧ (s.dev.canEnter i = false → d.flag PWR_BOUGH_CTL.BUSY = false ∧ d.flag PWR_BOUGH_CTL.DONE = true
          ∧ d.get PWR_BOUGH_CTL.RESULT = 1 ∧ d.get PWR_BOUGH_CTL.REASON = 10 ∧ d.power = s.dev.power ∧ d.wire = s.dev.wire)) ∧
  (∀ (s : State) (i : Nat) (r : TrainResult), s.dev.powered = true → s.dev.powerBusy = false → s.dev.siteActive i = true →
    s.dev.wakeDue i = true → s.dev.bstate i = 2 → (∀ p ∈ s.dev.packets, s.dev.towards i p = none) →
    ∃ d : Dev, exec (.boughWake i r) s = .next (s.withDev d) ∧ d.power.waking = [i] ∧ d.power.wake = s.dev.power.wake.erase i
      ∧ d.bstate i = 3 ∧ d.gState (.trunk i) = 1 ∧ (∀ n ∈ s.dev.siteLeaves i, d.leaf n = {}) ∧ d.bough (s.dev.boughAt i) = {}
      ∧ d.mem = s.dev.mem) ∧
  (∀ (s : State) (req : Requester) (i n : Nat), s.dev.powered = true → s.dev.powerBusy = false → mayRequest req = true → i < 28 →
    s.dev.siteActive i = true → n ∈ s.dev.siteLeaves i → s.dev.pstate n ≠ 2 →
    ∃ d : Dev, exec (.pwrStandbyReq req) s = .next (s.withDev d) ∧ d = { s.dev with regs := d.regs, power := d.power }
      ∧ (s.dev.get PWR_PKG_CTL.STATE = 0 → d.get PWR_PKG_CTL.STATE = 1 ∧ d.power = { s.dev.power with package := some { sleep := false } })
      ∧ (s.dev.get PWR_PKG_CTL.STATE ≠ 0 → d.get PWR_PKG_CTL.RESULT = 1 ∧ d.get PWR_PKG_CTL.REASON = 10 ∧ d.power = s.dev.power
          ∧ d.get PWR_PKG_CTL.STATE = s.dev.get PWR_PKG_CTL.STATE)) ∧
  (∀ (s : State) (c : Instr) (req : Requester), s.dev.powered = true → mayRequest req = false →
    c = .pwrStandbyReq req ∨ c = .pwrSleepReq req ∨ c = .pwrWakeReq req → exec c s = .next s) ∧
  (∀ (s : State) (p : PackageEntry), s.dev.powered = true → s.dev.power.package = some p → p.step = 1 → p.accepted = [] →
    ∃ d : Dev, exec .standbyLeafTimeout s = .next (s.withDev d)
      ∧ d = { s.dev with regs := d.regs, power := { s.dev.power with package := none } }
      ∧ d.get PWR_PKG_CTL.STATE = 0 ∧ d.get PWR_PKG_CTL.RESULT = 2 ∧ d.get PWR_PKG_CTL.REASON = 1) ∧
  (∀ (s : State) (req : Requester), s.dev.powered = true → mayRequest req = true → s.dev.get PWR_PKG_CTL.STATE = 2 →
    ∃ d : Dev, exec (.pwrSleepReq req) s = .next (s.withDev d)
      ∧ (s.dev.flag PWR_RTC_ALARM.EN = true → s.dev.get PWR_RTC.COUNT < s.dev.get PWR_RTC_ALARM.CMP →
          d.get PWR_PKG_CTL.STATE = 4 ∧ d.powered = false ∧ d.lifeless ∧ d.mem = s.dev.mem
            ∧ d.power.sleep = some (s.dev.ring, s.dev.get PWR_RTC.COUNT))
      ∧ (s.dev.flag PWR_RTC_ALARM.EN = false ∨ s.dev.get PWR_RTC_ALARM.CMP ≤ s.dev.get PWR_RTC.COUNT →
          d = { s.dev with regs := d.regs } ∧ d.get PWR_PKG_CTL.STATE = 2 ∧ d.get PWR_PKG_CTL.RESULT = 1
            ∧ d.get PWR_PKG_CTL.REASON = 8)) ∧
  (∀ (s : State) (m : Nat), s.dev.powered = true → s.dev.powerBusy = false → m < 16 → s.dev.channelPresent m = true →
    s.dev.memState m = 6 →
    ∃ d : Dev, exec (.pwrWakeReq .mgmt) s = .next (s.withDev d) ∧ d = { s.dev with regs := d.regs, power := d.power }
      ∧ (s.dev.get PWR_PKG_CTL.STATE = 2 → d.get PWR_PKG_CTL.STATE = 3 ∧ d.memState m = 5 ∧ d.flag MEM_TRAIN.BUSY m = true
          ∧ d.power.package = some { sleep := false, step := 4
                                     waiting := ((List.range 16).filter fun k => s.dev.channelPresent k && s.dev.memState k == 6).map
                                       HsBlock.channel })
      ∧ (s.dev.get PWR_PKG_CTL.STATE ≠ 2 → d.get PWR_PKG_CTL.RESULT = 1 ∧ d.get PWR_PKG_CTL.REASON = 10 ∧ d.memState m = 6
          ∧ d.power = s.dev.power))

/-- Clocks, resets of boughs, leaves and engines, and ageing (R74, R143, R358, R359, R370, R371, R375, R376). A leaf moves to its PLL clock in WFI once it
is asked to and the PLL has lock; a PLL that loses lock stops its leaves. An orderly reset stops the bough first, a forced or escalated one isolates
it at once; a leaf reset starts its leaf at the reset vector, and an engine reset keeps the store. A re-plan measures every active die; a die below
the target gets one step more while it may, one above it stores its step, and one at the limit is at the end of its margin. (The model's choices in
this: log entries 37, 40, 41, 77.) -/
def Obligations.ClocksResetsAndAgeing : Prop :=
  (∀ (s : State) (i mask : Nat), s.dev.powered = true → s.dev.siteActive i = true → mask % 2 ^ 16 ≠ 0 →
    ∃ d : Dev, exec (.clockSwitchRequest i mask) s = .next (s.withDev d) ∧ d = { s.dev with regs := d.regs }
      ∧ (s.dev.flag BPW_STAT.PLL_LOCK i = true → d.get BPW_CLK_SW.SW i = s.dev.get BPW_CLK_SW.SW i ||| mask % 2 ^ 16)
      ∧ (s.dev.flag BPW_STAT.PLL_LOCK i = false → d.flag BPW_STAT.CLK_REFUSED i = true
          ∧ d.get BPW_CLK_SW.SW i = s.dev.get BPW_CLK_SW.SW i)) ∧
  (∀ (s : State) (n : Nat), s.dev.powered = true → s.dev.leafPresent n = true → s.dev.switchDue n = true → s.dev.pstate n = 1 →
    (s.dev.leaf n).misses = [] →
    ∃ d : Dev, exec (.clockSwitch n) s = .next (s.withDev d) ∧ d = { s.dev with regs := d.regs } ∧ d.switchDue n = false
      ∧ d.pstate n = 0 ∧ d.flag BGH_LEAF_STAT.ON_FIC (s.dev.leafSite n) (n % 16) = false
      ∧ ∀ m, s.dev.leafSite m = s.dev.leafSite n → m % 16 ≠ n % 16 → d.switchDue m = s.dev.switchDue m ∧ d.pstate m = s.dev.pstate m) ∧
  (∀ (s : State) (i : Nat), s.dev.powered = true → s.dev.siteActive i = true → s.dev.flag BPW_STAT.PLL_LOCK i = true →
    ∃ d : Dev, exec (.boughPllLoss i) s = .next (s.withDev d) ∧ d.flag BPW_STAT.PLL_LOCK i = false
      ∧ (∀ n ∈ s.dev.siteLeaves i, d.pstate n = if s.dev.pstate n = 2 then 2 else 3) ∧ d.mem = s.dev.mem
      ∧ d.boughs = s.dev.boughs) ∧
  (∀ (s : State), s.dev.powered = true → s.dev.flag CLK_STAT.LOCK = true →
    ∃ d : Dev, exec .trunkPllLoss s = .next (s.withDev d) ∧ d.board.warm = some .pll ∧ d.flag RST_CAUSE.PLL_LOSS = true
      ∧ d.flag CLK_STAT.LOCK = false ∧ d.leaves = [] ∧ d.boughs = [] ∧ d.homes = [] ∧ d.wire = [] ∧ d.ring = s.dev.ring) ∧
  (∀ (s : State) (i n : Nat), s.dev.powered = true → s.dev.powerBusy = false → s.dev.flag RST_CMD.BUSY = false →
    s.dev.siteActive i = true → s.dev.isolated i = false → s.dev.bstate i = 0 → n ∈ s.dev.siteLeaves i →
    (s.dev.leaf n).misses ≠ [] →
    ∃ d : Dev, exec (.orderlyBoughReset i) s = .next (s.withDev d) ∧ d.flag RST_CMD.BUSY = true ∧ d.get RST_CMD.TARGET = i
      ∧ d.power.reset = some { site := i, step := 1 } ∧ (∀ k ∈ s.dev.siteLeaves i, d.pstate k = 3)
      ∧ d.mem = s.dev.mem ∧ d.boughs = s.dev.boughs) ∧
  (∀ (s : State) (o : ResetOp), s.dev.powered = true → s.dev.power.reset = some o → o.step < 5 → s.dev.siteActive o.site = true →
    ∃ d : Dev, exec .boughResetEscalate s = .next (s.withDev d) ∧ d.isolated o.site = true
      ∧ d.power.reset = some { o with step := 5, forced := true, escalated := true } ∧ d.gState (.trunk o.site) = 1) ∧
  (∀ (s : State) (i : Nat), s.dev.powered = true → s.dev.flag RST_CMD.BUSY = false → s.dev.siteActive i = true →
    i ∉ s.dev.power.waking → i ∉ s.dev.power.wake →
    ∃ d : Dev, exec (.forcedBoughReset i) s = .next (s.withDev d) ∧ d.flag RST_CMD.BUSY = true ∧ d.isolated i = true
      ∧ d.power.reset = some { site := i, step := 5, forced := true } ∧ d.gState (.trunk i) = 1) ∧
  (∀ (s : State) (n : Nat), s.dev.powered = true → s.dev.flag RST_CMD.BUSY = false → n < 16 * s.dev.boughsB →
    s.dev.boughOn (s.dev.leafSite n) = true → s.dev.pstate n ≠ 3 →
    ∃ d : Dev, exec (.leafReset n) s = .next (s.withDev d) ∧ d.flag RST_CMD.DONE = true ∧ d.get RST_CMD.STATUS = 0
      ∧ d.pstate n = 0 ∧ (d.leaf n).pc = BitVec.ofNat 64 (s.dev.get BGH_RESET_VEC.ADDR (s.dev.leafSite n) * 4)
      ∧ (d.leaf n).mode = .machine ∧ (d.leaf n).tlb = [] ∧ ((d.leaf n).csrRaw 0x744).getLsbD 3 = false ∧ (d.leaf n).csrRaw 0x342 = 0
      ∧ ((d.leaf n).csrRaw 0x180).bits 63 60 = 0 ∧ (d.leaf n).csrRaw 0xC21 = 0x8000000000000000
      ∧ (d.leaf n).misses = [] ∧ (∀ m, m ≠ n → d.leaf m = s.dev.leaf m) ∧ d.mem = s.dev.mem ∧ d.lees = s.dev.lees) ∧
  (∀ (s : State) (n : Nat), s.dev.powered = true → s.dev.flag RST_CMD.BUSY = false → n < 16 * s.dev.boughsB → s.dev.hasLee = true →
    s.dev.boughOn (s.dev.leafSite n) = true →
    ∃ d : Dev, exec (.leeReset n) s = .next (s.withDev d) ∧ d = { s.dev with regs := d.regs, lees := d.lees }
      ∧ d.get RST_CMD.STATUS = 0 ∧ d.flag LEE_STAT.RUN n = false ∧ d.get LEE_PC.PC n = 0
      ∧ (∀ w, (d.lee n).word w = (s.dev.lee n).word w) ∧ (d.lee n).sends = [] ∧ ∀ m, m ≠ n → d.lee m = s.dev.lee m) ∧
  (∀ (s : State) (c : Instr), s.dev.powered = true →
    c = .orderlyBoughReset 31 ∨ c = .forcedBoughReset 31 ∨ c = .leafReset 511 ∨ c = .leeReset 511 →
    ∃ d : Dev, exec c s = .next (s.withDev d) ∧ d = { s.dev with regs := d.regs }
      ∧ (s.dev.flag RST_CMD.BUSY = true → d.get RST_CMD.STATUS = 1)
      ∧ (s.dev.flag RST_CMD.BUSY = false → d.get RST_CMD.STATUS = 2 ∧ d.flag RST_CMD.DONE = true)) ∧
  (∀ (s : State) (c : Instr), s.dev.powered = true → s.dev.flag AGE_CMD.BUSY = false →
    c = .ageReplan ∨ (c = .ageReplanPeriod ∧ s.dev.get AGE_CTL.PERIOD_H ≠ 0 ∧ s.dev.get PWR_PKG_CTL.STATE = 0) →
    ∃ d : Dev, exec c s = .next (s.withDev d) ∧ d = { s.dev with regs := d.regs } ∧ d.flag AGE_CMD.BUSY = true
      ∧ d.flag AGE_DIE.MEAS 0 28 = true ∧ ∀ x, x < 28 → s.dev.siteActive x = true → d.flag AGE_DIE.MEAS 0 x = true) ∧
  (∀ (s : State) (x m gb : Nat) (ros reps : List Nat), s.dev.powered = true → x < 29 → s.dev.flag AGE_DIE.MEAS 0 x = true →
    m = marginOf reps → gb = s.dev.get AGE_DIE.GB 0 x → gb ≤ 20 →
    ∃ d : Dev, exec (.ageMeasureDone x ros reps) s = .next (s.withDev d) ∧ d.flag AGE_DIE.MEAS 0 x = false
      ∧ d.get AGE_DIE.MARGIN 0 x = m ∧ d.mem = s.dev.mem
      ∧ (m < s.dev.get AGE_CTL.TARGET → gb < 20 → d.get AGE_DIE.GB 0 x = gb + 1 ∧ d.get AGE_DIE.REMAIN 0 x = 19 - gb
          ∧ d.power.settling = s.dev.power.settling ++ [x] ∧ d.nvm = s.dev.nvm)
      ∧ (s.dev.get AGE_CTL.TARGET ≤ m → d.get AGE_DIE.GB 0 x = gb ∧ d.nvm.gb.find 0 x = gb ∧ d.wire = s.dev.wire)
      ∧ (m < s.dev.get AGE_CTL.TARGET → gb = 20 → d.flag AGE_DIE.EOM 0 x = true ∧ d.nvm.gb.find 0 x = 20)) ∧
  (∀ (s : State) (x : Nat), s.dev.powered = true → x ∈ s.dev.power.settling →
    exec (.guardbandSettle x) s = .next (s.withDev
      ({ s.dev with power := { s.dev.power with settling := s.dev.power.settling.erase x } }.put AGE_DIE.MEAS 1 0 x)))

/-! ### Supplies, pins and package resets -/

/-- Resets of the package (R276, R369, R370, R372, R382, R383, R400, R404). SYS_RESET_N going low begins a warm reset that keeps the ring count, the fuses
and nonvolatile memory and nothing of the dies; the pin's rise lets it proceed. A warm reset that is let through loads the image: the state becomes
DONE if a vendor part of either slot verifies, VENDOR_FAILED with FAULT_N held low if none does. The RTC alarm in SLEEP starts a warm reset; outside
SLEEP it only sets FIRED. A power-on reset starts from nothing but the standby domain. A boot that is not ready in time counts as failed. Losing
REFCLK loses the trunk's lock. (The model's choices in this: log entries 47, 48.) -/
def Obligations.PackageResets : Prop :=
  (∀ (s : State), s.dev.powered = true → s.dev.board.resetN = true → s.dev.mgmt.background = none →
    ∃ d : Dev, exec .sysResetPin s = .next (s.withDev d) ∧ d.board.warm = some .pin ∧ d.board.resetN = false ∧ d.powered = true
      ∧ d.lifeless ∧ d.flag RST_CAUSE.PIN = true ∧ d.flag RST_CAUSE.PLL_LOSS = false
      ∧ d.get RST_CAUSE.COUNT = min 65535 (s.dev.get RST_CAUSE.COUNT + 1) ∧ d.ring = s.dev.ring
      ∧ (s.dev.warmSites = [] → d.mem = s.dev.cxlBytes)
      ∧ d.fuse = s.dev.fuse ∧ d.nvm = s.dev.nvm ∧ d.flash = s.dev.flash
      ∧ (∀ n, d.reg ⟨.EVC_SRC_CTL, 0, n⟩ = s.dev.reg ⟨.EVC_SRC_CTL, 0, n⟩) ∧ ∀ u k, d.get TRK_FW_BASE.ADDR u k = 0) ∧
  (∀ (s : State), s.dev.powered = false → s.dev.lifeless → s.dev.board.resetN = true →
    ∃ d : Dev, exec .sysResetPin s = .next (s.withDev d) ∧ d.board = { s.dev.board with resetN := false } ∧ d.lifeless
      ∧ d.regs = s.dev.regs ∧ d.mem = s.dev.mem ∧ d.powered = false) ∧
  (∀ (s : State) (level : Nat), s.dev.powered = true → s.dev.board.resetN = false →
    level = s.dev.board.coming.head?.getD s.dev.board.straps % 8 →
    exec .sysResetRelease s = .next (s.withDev
      { s.dev with board :=
          if s.dev.board.warm.isSome then
            { s.dev.board with resetN := true, sampled := true, straps := level, pins := level, coming := s.dev.board.coming.tail }
          else { s.dev.board with resetN := true } })) ∧
  (∀ (s : State) (c : WarmCause) (a : Nat), s.dev.powered = true → s.dev.board.resetN = true → s.dev.board.refclk = true →
    s.dev.board.warm = some c → a = s.dev.chooseDirectory.vActive → s.dev.chooseDirectory.inTrial .vendor = false →
    ∃ d : Dev, exec (.packageWarmReset c) s = .next (s.withDev d) ∧ d.board.warm = none ∧ d.board.sampled = true
      ∧ d.flag CLK_STAT.LOCK = true ∧ d.fuse = s.dev.fuse
      ∧ (s.dev.board.ringStarts = true → d.ring = 0 ∧ d.board.ringStarts = false)
      ∧ (s.dev.board.ringStarts = false → s.dev.power.sleep = none → d.ring = s.dev.ring)
      ∧ ((∃ x v, (x = a ∨ x = 1 - a) ∧ s.dev.checkVendor (s.dev.flashBlob (slotBase .vendor x)) = .ok v) →
          d.get SIM_STAT.STATE = 2)
      ∧ ((∀ x v, x = a ∨ x = 1 - a → s.dev.checkVendor (s.dev.flashBlob (slotBase .vendor x)) ≠ .ok v) →
          d.get SIM_STAT.STATE = 3 ∧ d.flag EVC_PIN.LOW = true)
      ∧ (s.dev.board.flashDead = true → d.get SIM_STAT.V_ERR = 1)) ∧
  (∀ (s : State), s.dev.powered = true → s.dev.board.resetN = true → s.dev.board.refclk = true → s.dev.board.warm = none →
    s.dev.board.flashDead = true →
    ∃ d : Dev, exec (.packageWarmReset .mgmt) s = .next (s.withDev d) ∧ d.flag RST_CAUSE.MGMT = true
      ∧ d.get SIM_STAT.STATE = 3 ∧ d.get SIM_STAT.V_ERR = 1 ∧ d.leaves = [] ∧ d.boughs = []
      ∧ (s.dev.warmSites = [] → d.mem = s.dev.cxlBytes)) ∧
  (∀ (s : State), s.dev.powered = true → s.dev.flag PWR_RTC_ALARM.EN = true → s.dev.get PWR_RTC_ALARM.CMP ≤ s.dev.get PWR_RTC.COUNT →
    exec .rtcAlarm s = .next (s.withDev (s.dev.put PWR_RTC_ALARM.FIRED 1))) ∧
  (∀ (s : State), s.dev.board.vstby = true → s.dev.board.pwrOk = true → s.dev.board.stopped = false → s.dev.power.unpowered = true →
    s.dev.flag PWR_RTC_ALARM.EN = true → s.dev.get PWR_RTC_ALARM.CMP ≤ s.dev.get PWR_RTC.COUNT →
    ∃ d : Dev, exec .rtcAlarm s = .next (s.withDev d) ∧ d.powered = true ∧ d.board.warm = some .sleep
      ∧ d.flag RST_CAUSE.SLEEP_WAKE = true ∧ d.flag PWR_RTC_ALARM.FIRED = true ∧ d.flag CLK_STAT.LOCK = false
      ∧ d.get PWR_RTC.COUNT = s.dev.get PWR_RTC.COUNT ∧ d.power.sleep = s.dev.power.sleep) ∧
  (∀ (s : State), s.dev.board.vstby = true → s.dev.board.pwrOk = false →
    ∃ d : Dev, exec .powerOnReset s = .next (s.withDev d) ∧ d.powered = true ∧ d.board.warm = some .power ∧ d.board.booting = true
      ∧ d.board.ringStarts = true ∧ d.lifeless ∧ d.mem = s.dev.cxlBytes ∧ d.get PWR_RTC.COUNT = s.dev.get PWR_RTC.COUNT
      ∧ (s.dev.board.resetN = true → d.board.pins = s.dev.board.coming.head?.getD s.dev.board.straps % 8 ∧ d.board.sampled = true)
      ∧ (s.dev.board.resetN = false → d.board.pins = s.dev.board.pins ∧ d.board.sampled = false)
      ∧ d.get MBX_FW.BOOT_FAILS = s.dev.get MBX_FW.BOOT_FAILS ∧ d.fuse = s.dev.fuse ∧ d.nvm = s.dev.nvm) ∧
  (∀ (s : State), s.dev.powered = true → s.dev.board.booting = true → s.dev.flag MBX_FW.READY = false →
    ∃ d : Dev, exec .bootReadyTimeout s = .next (s.withDev d)
      ∧ d = { s.dev with regs := d.regs, board := { s.dev.board with booting := false } }
      ∧ d.get MBX_FW.BOOT_FAILS = min 3 (s.dev.get MBX_FW.BOOT_FAILS + 1)) ∧
  (∀ (s : State), s.dev.powered = true →
    ∃ d : Dev, exec .refclkLoss s = .next (s.withDev d) ∧ d.board.refclk = false ∧ d.ring = s.dev.ring
      ∧ (s.dev.flag CLK_STAT.LOCK = true → d.board.warm = some .pll ∧ d.flag RST_CAUSE.PLL_LOSS = true
          ∧ d.flag CLK_STAT.LOCK = false ∧ d.lifeless)
      ∧ (s.dev.flag CLK_STAT.LOCK = false → d = { s.dev with board := { s.dev.board with refclk := false } })) ∧
  (∀ (s : State), s.dev.powered = true →
    exec .refclkReturn s = .next (s.withDev { s.dev with board := { s.dev.board with refclk := true } }))

/-- Supplies and board pins (R399, R401, R402, R408, R409). Where PWR_OK falls, a supply leaves its range, VSTBY is lost or a die reaches 120 °C, every
die stops: what stays is the standby domain (lost with VSTBY), the nonvolatile memory and the fuses, and memory behind CXL devices. PROCHOT_N is
driven by the package and the board each. (The model's choices in this: log entries 47, 48, 57, 65.) -/
def Obligations.SuppliesAndPins : Prop :=
  (∀ (s : State) (c : Instr) (die : Nat), s.dev.board.vstby = true → s.dev.board.pwrOk = true → die < 29 →
    c = .pwrOkDeassert ∨ (c = .supplyUndervoltage ∧ s.dev.board.stopped = false) ∨ c = .thermtrip die →
    ∃ d : Dev, exec c s = .next (s.withDev d) ∧ d.powered = false ∧ d.lifeless ∧ d.mem = s.dev.cxlBytes ∧ d.nvm = s.dev.nvm
      ∧ d.fuse = s.dev.fuse ∧ d.board.vstby = true ∧ d.get PWR_RTC.COUNT = s.dev.get PWR_RTC.COUNT
      ∧ d.get MBX_FW.BOOT_FAILS = s.dev.get MBX_FW.BOOT_FAILS ∧ d.power.unpowered = false
      ∧ (c = .pwrOkDeassert → d.board.pwrOk = false ∧ d.board.stopped = false ∧ d.board.thermtrip = false
          ∧ (s.dev.power.unpowered = true → d.flag PWR_RTC_ALARM.EN = false)
          ∧ (s.dev.power.unpowered = false → d.flag PWR_RTC_ALARM.EN = s.dev.flag PWR_RTC_ALARM.EN))
      ∧ (c = .supplyUndervoltage → d.board.pwrOk = true ∧ d.board.stopped = true ∧ d.board.thermtrip = s.dev.board.thermtrip)
      ∧ (c = .thermtrip die → d.board.pwrOk = true ∧ d.board.stopped = true ∧ d.board.thermtrip = true)) ∧
  (∀ (s : State), s.dev.board.vstby = true →
    ∃ d : Dev, exec .vstbyLoss s = .next (s.withDev d) ∧ d.powered = false ∧ d.board.vstby = false ∧ d.board.pwrOk = false
      ∧ d.lifeless ∧ d.get PWR_RTC.COUNT = 0 ∧ d.get MBX_FW.BOOT_FAILS = 0 ∧ d.power.sleep = none ∧ d.nvm = s.dev.nvm
      ∧ d.fuse = s.dev.fuse) ∧
  (∀ (s : State), s.dev.board.vstby = false → s.dev.board.pwrOk = false → s.dev.lifeless →
    ∃ d : Dev, exec .vstbyPowerUp s = .next (s.withDev d) ∧ d.board = { s.dev.board with vstby := true } ∧ d.powered = false
      ∧ d.lifeless ∧ d.regs = s.dev.regs ∧ d.mem = s.dev.mem) ∧
  (∀ (s : State) (t p : Bool), s.dev.powered = true →
    exec (.prochotAssert t p) s = .next (s.withDev
      { s.dev with board := { s.dev.board with prochotOwn := s.dev.board.prochotOwn || t || p } })
    ∧ exec .prochotRelease s = .next (s.withDev { s.dev with board := { s.dev.board with prochotOwn := false } })
    ∧ exec .prochotInput s = .next (s.withDev { s.dev with board := { s.dev.board with prochotBoard := true } })
    ∧ exec .prochotBoardRelease s = .next (s.withDev { s.dev with board := { s.dev.board with prochotBoard := false } }))

/-! ### Management commands -/

/-- The BMC port and the mailbox (R381, R385 to R387, R390, R391). A frame with a bad PEC is counted and otherwise ignored. ATTEST_ commands are denied on
the BMC port, and the BMC's commands on the mailbox. Before the firmware is ready the answer is NOT_READY, and while the flash works SI_ and FW_
commands are answered BUSY. INFO, TELEMETRY and REG_READ report and change nothing else; the power commands act as their requests do, with REFUSED and
the reason when the request is refused; resets, the safe state and EVC_SEV likewise. A quote takes one attestation index, which is never used again.
(The model's choices in this: log entries 43, 60, 62.) -/
def Obligations.ManagementCommands : Prop :=
  (∀ (s : State) (c : Instr) (p : CmdPort) (seq a n cmp op t i : Nat) (k : PartKind) (mask : Word) (l : List Byte),
    s.dev.powered = true → s.dev.board.sampled = true → p = .bmc seq false →
    c ∈ [Instr.info p, .telemetry p, .regRead p a n, .pkgStandby p, .pkgSleep p cmp, .pkgWake p, .resetWarm p, .resetUnit p op t,
      .enterSafe p, .sevClear p i mask, .siStageBegin p k, .siStageWrite p a l, .siStageCheck p, .siStageAbort p, .siCommit p n,
      .siConfirm p k, .siAdvanceFloor p k, .siEnrolKey p l, .siRevokeKey p l, .fwStageBegin p, .fwStageWrite p a l, .fwStageCheck p,
      .fwStageAbort p, .fwRevert p, .attestKey p, .attestQuote p] →
    exec c s = .next (s.withDev (s.dev.bump MBX_BMC.PEC_ERR))) ∧
  (∀ (s : State) (c : Instr) (seq : Nat), s.dev.powered = true → s.dev.board.sampled = true →
    c = .attestKey (.bmc seq true) ∨ c = .attestQuote (.bmc seq true) →
    ∃ d : Dev, exec c s = .next (s.withDev d) ∧ d = { s.dev with regs := d.regs, answer := ⟨seq % 256, 2, [], true⟩ }
      ∧ d.get MBX_BMC.DENIED = min (s.dev.get MBX_BMC.DENIED + 1) 65535
      ∧ d.get MBX_BMC.FRAMES = (s.dev.get MBX_BMC.FRAMES + 1) % 2 ^ 32
      ∧ ∀ r : Reg, r ≠ ⟨.MBX_BMC, 0, 0⟩ → d.reg r = s.dev.reg r) ∧
  (∀ (s : State) (len : Nat), s.dev.mailboxAsks 0x18 len →
    exec (.resetWarm .mailbox) s = .next (s.withDev (s.dev.mailboxAnswer 2 []))) ∧
  (∀ (s : State) (c : Instr) (p : CmdPort) (seq cmp op t i : Nat) (mask : Word), s.dev.powered = true → s.dev.board.sampled = true →
    s.dev.flag MBX_FW.READY = false ∨ s.dev.mgmt.firmware = none → p = .bmc seq true →
    (c = .resetWarm p → s.dev.mgmt.firmware = none ∨ s.dev.get SIM_STAT.STATE ≠ 3) →
    c ∈ [Instr.info p, .telemetry p, .pkgStandby p, .pkgSleep p cmp, .pkgWake p, .resetWarm p, .resetUnit p op t, .enterSafe p,
      .sevClear p i mask] →
    exec c s = .next (s.withDev (s.dev.framed seq 0x0A []))) ∧
  (∀ (s : State) (c : Instr) (p : CmdPort) (seq a n : Nat) (k : PartKind) (l : List Byte) (j : FlashJob), s.dev.powered = true →
    s.dev.board.sampled = true → s.dev.mgmt.background = some j → p = .bmc seq true →
    c ∈ [Instr.siStageBegin p k, .siStageWrite p a l, .siStageCheck p, .siStageAbort p, .siCommit p n, .siConfirm p k,
      .siAdvanceFloor p k, .siEnrolKey p l, .siRevokeKey p l, .fwStageBegin p, .fwStageWrite p a l, .fwStageCheck p,
      .fwStageAbort p, .fwRevert p] →
    exec c s = .next (s.withDev (s.dev.framed seq 1 []))) ∧
  (∀ (s : State) (seq : Nat), s.dev.manages →
    ∃ l : List Byte, exec (.info (.bmc seq true)) s = .next (s.withDev (s.dev.framed seq 0 l))
      ∧ l = [⟨.MBX_FW, 0, 0⟩, ⟨.TRK_ID, 0, 0⟩, ⟨.SIM_VENDOR, 0, 0⟩, ⟨.SIM_OWNER, 0, 0⟩].flatMap (fun r => leBytes 8 (s.dev.reg r).toNat)
      ∧ l.length = 32) ∧
  (∀ (s : State) (seq : Nat), s.dev.manages →
    ∃ d : Dev, exec (.telemetry (.bmc seq true)) s = .next (s.withDev d)
      ∧ d = { s.dev.framed seq 0 d.answer.payload with free := d.free } ∧ d.answer.payload.length = 64
      ∧ ∀ i, i < 28 → s.dev.siteActive i = false → d.answer.payload.getD (2 * i) 1 = 0 ∧ d.answer.payload.getD (2 * i + 1) 1 = 0x80) ∧
  (∀ (s : State) (seq : Nat), s.dev.powered = true → s.dev.board.sampled = true →
    exec (.regRead (.bmc seq true) krb 1) s = .next (s.withDev (s.dev.framed seq 0 (leBytes 8 (s.dev.reg ⟨.TRK_ID, 0, 0⟩).toNat)))) ∧
  (∀ (s : State) (seq a n : Nat), s.dev.powered = true → s.dev.board.sampled = true → n = 0 ∨ 16 < n ∨ a % 8 ≠ 0 →
    s.dev.accessWaits .mgmt a 8 false 0 = none →
    exec (.regRead (.bmc seq true) a n) s = .next (s.withDev (s.dev.framed seq 3 []))) ∧
  (∀ (s : State) (seq a : Nat), s.dev.powered = true → s.dev.board.sampled = true → a % 8 = 0 → rangeOf a = .regs →
    mbxAddr a = false → s.dev.fwPermits 7 0 false a = false → s.dev.accessWaits .mgmt a 8 false 0 = none →
    ∃ d : Dev, exec (.regRead (.bmc seq true) a 1) s = .next (s.withDev d) ∧ d.answer = ⟨seq % 256, 0x0B, [1], true⟩
      ∧ d.get TRK_FW_CNT.COUNT = min (s.dev.get TRK_FW_CNT.COUNT + 1) (2 ^ TRK_FW_CNT.COUNT.width - 1)) ∧
  (∀ (s : State) (seq i n : Nat), s.dev.manages → s.dev.powerBusy = false → i < 28 → s.dev.siteActive i = true →
    n ∈ s.dev.siteLeaves i → s.dev.pstate n ≠ 2 →
    ∃ d : Dev, exec (.pkgStandby (.bmc seq true)) s = .next (s.withDev d)
      ∧ d = { s.dev with regs := d.regs, power := d.power, answer := d.answer }
      ∧ (s.dev.get PWR_PKG_CTL.STATE = 0 → d.get PWR_PKG_CTL.STATE = 1 ∧ d.answer = ⟨seq % 256, 0, [], true⟩
          ∧ d.power = { s.dev.power with package := some { sleep := false } })
      ∧ (s.dev.get PWR_PKG_CTL.STATE ≠ 0 → d.power = s.dev.power ∧ d.answer = ⟨seq % 256, 0x0B, [10], true⟩)) ∧
  (∀ (s : State) (seq cmp : Nat), s.dev.manages → s.dev.get PWR_PKG_CTL.STATE = 2 → cmp < 2 ^ 48 →
    ∃ d : Dev, exec (.pkgSleep (.bmc seq true) cmp) s = .next (s.withDev d) ∧ d.flag PWR_RTC_ALARM.EN = true
      ∧ d.get PWR_RTC_ALARM.CMP = cmp
      ∧ (s.dev.get PWR_RTC.COUNT < cmp → d.powered = false ∧ d.lifeless ∧ d.get PWR_PKG_CTL.STATE = 4
          ∧ d.answer = ⟨seq % 256, 0, [], true⟩)
      ∧ (cmp ≤ s.dev.get PWR_RTC.COUNT → d = { s.dev with regs := d.regs, answer := ⟨seq % 256, 0x0B, [8], true⟩ }
          ∧ d.get PWR_PKG_CTL.STATE = 2)) ∧
  (∀ (s : State) (seq m : Nat), s.dev.manages → s.dev.powerBusy = false → m < 16 → s.dev.channelPresent m = true →
    s.dev.memState m = 6 →
    ∃ d : Dev, exec (.pkgWake (.bmc seq true)) s = .next (s.withDev d)
      ∧ d = { s.dev with regs := d.regs, power := d.power, answer := d.answer }
      ∧ (s.dev.get PWR_PKG_CTL.STATE = 2 → d.get PWR_PKG_CTL.STATE = 3 ∧ d.memState m = 5 ∧ d.answer = ⟨seq % 256, 0, [], true⟩)
      ∧ (s.dev.get PWR_PKG_CTL.STATE ≠ 2 → d.memState m = 6 ∧ d.answer = ⟨seq % 256, 0x0B, [10], true⟩)) ∧
  (∀ (s : State) (seq : Nat), s.dev.manages →
    ∃ d : Dev, exec (.resetWarm (.bmc seq true)) s = .next (s.withDev d) ∧ d.board.warm = some .bmc ∧ d.flag RST_CAUSE.BMC = true
      ∧ d.lifeless ∧ d.powered = true ∧ d.ring = s.dev.ring ∧ d.answer = ⟨seq % 256, 0, [], true⟩) ∧
  (∀ (s : State) (seq n : Nat), s.dev.manages → s.dev.flag RST_CMD.BUSY = false → n < 16 * s.dev.boughsB → s.dev.hasLee = true →
    s.dev.boughOn (s.dev.leafSite n) = true →
    ∃ d : Dev, exec (.resetUnit (.bmc seq true) 4 n) s = .next (s.withDev d)
      ∧ d = { s.dev with regs := d.regs, lees := d.lees, answer := ⟨seq % 256, 0, [], true⟩ }
      ∧ d.flag LEE_STAT.RUN n = false ∧ d.get LEE_PC.PC n = 0 ∧ ∀ w, (d.lee n).word w = (s.dev.lee n).word w) ∧
  (∀ (s : State) (seq op t : Nat), s.dev.manages → op = 0 ∨ 8 < op →
    exec (.resetUnit (.bmc seq true) op t) s = .next (s.withDev (s.dev.framed seq 3 []))) ∧
  (∀ (s : State) (seq : Nat), s.dev.manages →
    ∃ d : Dev, exec (.enterSafe (.bmc seq true)) s = .next (s.withDev d) ∧ d.answer = ⟨seq % 256, 0, [], true⟩
      ∧ d.flag EVC_STAT.SAFE = true ∧ bit (d.get EVC_STAT.CAUSES) 3 = true
      ∧ (s.dev.flag EVC_STAT.SAFE = false → d.flag EVC_PIN.MODE = true ∧ d.flag EVC_PIN.LOW = true)) ∧
  (∀ (s : State) (seq i : Nat) (mask : Word), s.dev.manages → s.dev.flag CMP_CTL.EN = false →
    ∃ d : Dev, exec (.sevClear (.bmc seq true) i mask) s = .next (s.withDev d)
      ∧ d = { s.dev with regs := d.regs, answer := d.answer }
      ∧ (i < 16 → d.answer = ⟨seq % 256, 0, [], true⟩ ∧ d.reg ⟨.EVC_SEV, 0, i⟩ = s.dev.reg ⟨.EVC_SEV, 0, i⟩ &&& ~~~mask)
      ∧ (16 ≤ i → d.answer = ⟨seq % 256, 3, [], true⟩ ∧ ∀ k, d.reg ⟨.EVC_SEV, 0, k⟩ = s.dev.reg ⟨.EVC_SEV, 0, k⟩)
      ∧ ∀ r : Reg, r ≠ ⟨.EVC_SEV, 0, i⟩ → r ≠ ⟨.EVC_PIN, 0, 0⟩ → r ≠ ⟨.MBX_BMC, 0, 0⟩ → d.reg r = s.dev.reg r) ∧
  (∀ (s : State) (len : Nat), s.dev.mailboxAsks 0x40 len →
    ∃ l : List Byte, exec (.attestKey .mailbox) s = .next (s.withDev (s.dev.mailboxAnswer 0 l)) ∧ l.length = 76
      ∧ l.drop 68 = leBytes 8 (2 ^ 40 - 2 ^ 20 - s.dev.mgmt.next)) ∧
  (∀ (s : State) (len : Nat), s.dev.mailboxAsks 0x41 len →
    ∃ d : Dev, exec (.attestQuote .mailbox) s = .next (s.withDev d) ∧ d.mgmt.mailbox = none ∧ d.flag MBX_STAT.BUSY = false
      ∧ d.flag MBX_STAT.DONE = true
      ∧ (len < 32 ∨ 96 < len → d = s.dev.mailboxAnswer 3 [])
      ∧ (32 ≤ len → len ≤ 96 → s.dev.mgmt.next ≠ s.dev.mgmt.limit → d.mgmt.next = s.dev.mgmt.next + 1
          ∧ d.mgmt.limit = s.dev.mgmt.limit ∧ d.nvm.reserved = s.dev.nvm.reserved ∧ d.get MBX_STAT.STATUS = 0)
      ∧ (32 ≤ len → len ≤ 96 → s.dev.mgmt.next = s.dev.mgmt.limit → s.dev.mgmt.limit + 4096 ≤ 2 ^ 40 - 2 ^ 20 →
          d.mgmt.next = s.dev.mgmt.next + 1 ∧ d.nvm.reserved = s.dev.mgmt.limit + 4096 ∧ d.mgmt.limit = s.dev.mgmt.limit + 4096)
      ∧ (32 ≤ len → len ≤ 96 → s.dev.mgmt.next = s.dev.mgmt.limit → 2 ^ 40 - 2 ^ 20 < s.dev.mgmt.limit + 4096 →
          d = s.dev.mailboxAnswer 9 [])) ∧
  (∀ (d : Dev) (nonce data : List Byte) (index : Nat),
    (d.quoteBody nonce data index).length = 256 ∧ (d.quoteBody nonce data index).drop 0xF0 = leBytes 8 index ++ leBytes 8 0)

/-! ### Staging, keys and the test access port -/

/-- Staging, commit and floors (R34, R45, R49, R50, R386). A session opens on the inactive slot, whose erase runs in the background; what is written lands
at the slot and undoes an earlier check; a check verifies and records its outcome; an abort or the timeout closes the session and leaves a part's slot
erased. A commit needs a checked session and makes its slot active in trial, a confirmation ends the trial, and a floor only rises. Background work
erases its range and then programs it. (The model's choices in this: log entries 45, 46, 61, 80.) -/
def Obligations.StagingAndCommit : Prop :=
  (∀ (s : State) (c : Instr) (seq slot : Nat) (k : PartKind), s.dev.listens → s.dev.warmBusy = false →
    (c = .siStageBegin (.bmc seq true) k ∧ k ≠ .firmware ∧ slot = 1 - s.dev.mgmt.dir.active k)
      ∨ (c = .fwStageBegin (.bmc seq true) ∧ k = .firmware ∧ slot = (s.dev.mgmt.firmware.map (1 - ·)).getD 0) →
    ∃ d : Dev, exec c s = .next (s.withDev d)
      ∧ (s.dev.mgmt.session = none → s.dev.mgmt.dir.inTrial k = false →
          d = { s.dev.framed seq 0 [] with
                mgmt := { s.dev.mgmt with session := some { kind := k, slot := slot }
                                          background := some { base := slotBase k slot, size := slotSize k } } })
      ∧ (s.dev.mgmt.session.isSome = true ∨ s.dev.mgmt.dir.inTrial k = true → d = s.dev.framed seq 1 [])) ∧
  (∀ (s : State) (seq : Nat), s.dev.listens →
    exec (.siStageBegin (.bmc seq true) .firmware) s = .next (s.withDev (s.dev.framed seq 3 []))) ∧
  (∀ (s : State) (c : Instr) (seq off : Nat) (l : List Byte) (fw : Bool), s.dev.listens →
    (c = .siStageWrite (.bmc seq true) off l ∧ fw = false) ∨ (c = .fwStageWrite (.bmc seq true) off l ∧ fw = true) →
    (s.dev.sessionOf fw = none → exec c s = .next (s.withDev (s.dev.framed seq 4 []))) ∧
    ∀ x, s.dev.sessionOf fw = some x →
      (240 < l.length ∨ slotSize x.kind < off + l.length → exec c s = .next (s.withDev (s.dev.framed seq 5 []))) ∧
      (l.length ≤ 240 → off + l.length ≤ slotSize x.kind →
        ∃ d : Dev, exec c s = .next (s.withDev d)
          ∧ d = { s.dev.framed seq 0 [] with flash := d.flash, mgmt := { s.dev.mgmt with session := some { x with checked := false } } }
          ∧ (∀ i, i < l.length → d.flash.find 0xFF (slotBase x.kind x.slot + off + i) =
              s.dev.flash.find 0xFF (slotBase x.kind x.slot + off + i) &&& l.getD i 0)
          ∧ ∀ a, a < slotBase x.kind x.slot + off ∨ slotBase x.kind x.slot + off + l.length ≤ a →
              d.flash.find 0xFF a = s.dev.flash.find 0xFF a)) ∧
  (∀ (s : State) (c : Instr) (seq : Nat) (x : Session) (fail : Option Nat), s.dev.listens → s.dev.mgmt.session = some x →
    (c = .siStageCheck (.bmc seq true) ∧ x.kind = .vendor
        ∧ fail = failOf (s.dev.checkVendor (s.dev.flashBlob (slotBase .vendor x.slot))))
      ∨ (c = .siStageCheck (.bmc seq true) ∧ x.kind = .owner
        ∧ fail = failOf (s.dev.checkOwner (s.dev.flashBlob (slotBase .owner x.slot)) (s.dev.get TRK_ID.BEHAVIOUR)))
      ∨ (c = .fwStageCheck (.bmc seq true) ∧ x.kind = .firmware ∧ s.dev.mgmt.firmware = none
        ∧ fail = failOf (s.dev.checkFirmware (s.dev.flashBlob (slotBase .firmware x.slot)))) →
    ∃ d : Dev, exec c s = .next (s.withDev d)
      ∧ (fail = none → d = { s.dev.framed seq 0 [] with mgmt := { s.dev.mgmt with session := some { x with checked := true } } })
      ∧ (∀ e, fail = some e →
          d = { s.dev.framed seq 8 (leBytes 1 e) with mgmt := { s.dev.mgmt with session := some { x with checked := false } } })) ∧
  (∀ (s : State) (seq : Nat) (x : Session), s.dev.listens → s.dev.mgmt.session = some x → x.kind = .firmware →
    s.dev.mgmt.firmware.isSome = true →
    exec (.fwStageCheck (.bmc seq true)) s = .next (s.withDev
      (match s.dev.checkFirmware (s.dev.flashBlob (slotBase .firmware x.slot)) with
        | .error e => { s.dev.framed seq 8 (leBytes 1 e) with
                        mgmt := { s.dev.mgmt with session := some { x with checked := false } } }
        | .ok f =>
          if f.seq ≤ s.dev.mgmt.fwSeq then s.dev.framed seq 3 []
          else { s.dev.framed seq 0 [] with mgmt := { s.dev.mgmt with session := some { x with checked := true } } }))) ∧
  (∀ (s : State) (c : Instr) (seq : Nat) (x : Session), s.dev.listens → s.dev.mgmt.session = some x →
    (c = .siStageAbort (.bmc seq true) ∧ x.kind ≠ .firmware) ∨ (c = .fwStageAbort (.bmc seq true) ∧ x.kind = .firmware)
      ∨ c = .sessionTimeout →
    ∃ d : Dev, exec c s = .next (s.withDev d) ∧ d.mgmt = { s.dev.mgmt with session := none } ∧ d.mem = s.dev.mem
      ∧ (c ≠ .sessionTimeout → d.answer = ⟨seq % 256, 0, [], true⟩)
      ∧ (x.kind = .firmware → d.flash = s.dev.flash)
      ∧ (x.kind ≠ .firmware → ∀ a, d.flash.find 0xFF a =
          if slotBase x.kind x.slot ≤ a ∧ a < slotBase x.kind x.slot + slotSize x.kind then 0xFF else s.dev.flash.find 0xFF a)) ∧
  (∀ (s : State) (c : Instr) (seq n : Nat), s.dev.listens → s.dev.warmBusy = false →
    c = .siCommit (.bmc seq true) n ∨ c = .siStageAbort (.bmc seq true) ∨ c = .fwStageAbort (.bmc seq true)
      ∨ c = .siStageCheck (.bmc seq true) ∨ c = .fwStageCheck (.bmc seq true) → s.dev.mgmt.session = none →
    exec c s = .next (s.withDev (s.dev.framed seq (if c = .siCommit (.bmc seq true) n then 6 else 4) []))) ∧
  (∀ (s : State) (seq n : Nat) (x : Session), s.dev.listens → s.dev.warmBusy = false → s.dev.mgmt.session = some x →
    x.kind ≠ .firmware →
    ∃ d : Dev, exec (.siCommit (.bmc seq true) n) s = .next (s.withDev d)
      ∧ (x.checked = false → d = s.dev.framed seq 6 [])
      ∧ (x.checked = true → n = 0 ∨ 3 < n → d = s.dev.framed seq 3 [])
      ∧ (x.checked = true → 1 ≤ n → n ≤ 3 → d = { s.dev.framed seq 0 [] with mgmt := d.mgmt } ∧ d.mgmt.session = none
          ∧ d.mgmt.dir.active x.kind = x.slot ∧ d.mgmt.dir.inTrial x.kind = true ∧ d.mgmt.dir.trialsLeft x.kind = n
          ∧ d.mgmt.dir.seq = (s.dev.mgmt.dir.seq + 1) % 2 ^ 32
          ∧ ∃ cp, d.mgmt.dir.copy = some cp ∧ s.dev.mgmt.dir.copy ≠ some cp
              ∧ d.mgmt.background = some { base := 4096 * cp, size := 4096, program := d.mgmt.dir.bytes })) ∧
  (∀ (s : State) (seq : Nat) (k : PartKind), s.dev.listens →
    ∃ d : Dev, exec (.siConfirm (.bmc seq true) k) s = .next (s.withDev d)
      ∧ (k = .firmware → d = s.dev.framed seq 3 [])
      ∧ (k ≠ .firmware → s.dev.mgmt.dir.inTrial k = false → d = s.dev.framed seq 7 [])
      ∧ (s.dev.mgmt.dir.inTrial k = true → d = { s.dev.framed seq 0 [] with mgmt := d.mgmt }
          ∧ d.mgmt.dir.active k = s.dev.mgmt.dir.active k ∧ d.mgmt.dir.inTrial k = false ∧ d.mgmt.background.isSome = true)) ∧
  (∀ (s : State) (seq : Nat) (k : PartKind), s.dev.listens →
    ∃ d : Dev, exec (.siAdvanceFloor (.bmc seq true) k) s = .next (s.withDev d)
      ∧ (s.dev.mgmt.dir.inTrial k = true ∨ s.dev.fellBack k = true → d = s.dev.framed seq 1 [])
      ∧ (s.dev.mgmt.dir.inTrial k = false → s.dev.fellBack k = false → s.dev.get SIM_STAT.STATE = 2 →
          (k = .vendor → d.answer = ⟨seq % 256, 0, [], true⟩
            ∧ d.fuse = { s.dev.fuse with vFloor := max s.dev.fuse.vFloor (s.dev.get SIM_VENDOR.SVN) })
          ∧ (k = .owner → s.dev.get SIM_STAT.O_SRC ≠ 2 → d.answer = ⟨seq % 256, 0, [], true⟩
            ∧ d.fuse = { s.dev.fuse with oFloor := max s.dev.fuse.oFloor (s.dev.get SIM_OWNER.SVN) }))
      ∧ d.mem = s.dev.mem ∧ d.flash = s.dev.flash ∧ d.mgmt = s.dev.mgmt) ∧
  (∀ (s : State) (j : FlashJob), s.dev.powered = true → s.dev.mgmt.background = some j →
    ∃ d : Dev, exec .flashBackgroundDone s = .next (s.withDev d)
      ∧ d = { s.dev with flash := d.flash, mgmt := { s.dev.mgmt with background := none } }
      ∧ (j.program.length ≤ j.size → ∀ a, d.flash.find 0xFF a =
          if j.base ≤ a ∧ a < j.base + j.size then j.program.getD (a - j.base) 0xFF else s.dev.flash.find 0xFF a)) ∧
  (∀ (s : State), s.dev.powered = true → s.dev.mgmt.background.isSome = true → exec .sessionTimeout s = .next s) ∧
  (∀ (s : State) (seq f : Nat), s.dev.listens → s.dev.mgmt.firmware = some f →
    exec (.fwRevert (.bmc seq true)) s = .next (s.withDev
      (match s.dev.checkFirmware (s.dev.flashBlob (slotBase .firmware (1 - f))) with
        | .error e => s.dev.framed seq 8 (leBytes 1 e)
        | .ok _ => { s.dev.framed seq 0 [] with
                     mgmt := { s.dev.mgmt with background := some { base := slotBase .firmware f, size := 4096 } } }))) ∧
  (∀ (s : State) (seq : Nat), s.dev.listens → s.dev.mgmt.firmware = none →
    exec (.fwRevert (.bmc seq true)) s = .next (s.withDev (s.dev.framed seq 3 [])))

/-- Owner keys (R51 to R53). While both slots are empty and the package runs on owner defaults, an unsigned object enrols a hash in the slot it names; a
slot that is not empty takes none. A slot is revoked under a signature of the other, enrolled slot, and keeps its hash; a revoked key signs nothing.
(The model's choices in this: log entries 42, 43, 61.) -/
def Obligations.OwnerKeys : Prop :=
  (∀ (s : State) (seq : Nat) (obj : List Byte) (p : SignedPart) (x : Sect), s.dev.listens →
    parsePart (blobOf obj) 0x4B534550 obj.length 1 = some p → p.sects = [x] → s.dev.fuse.slot0 = 0 → s.dev.fuse.slot1 = 0 →
    s.dev.get SIM_STAT.STATE = 2 → s.dev.get SIM_STAT.O_SRC = 2 → obj.length = p.len + 68 →
    blobZero (blobOf obj) p.len 68 = true →
    x.typ = 0x201 → x.size = 32 → p.behaviour = 0 →
    ∃ d : Dev, exec (.siEnrolKey (.bmc seq true) obj) s = .next (s.withDev d) ∧ d.mem = s.dev.mem ∧ d.mgmt = s.dev.mgmt
      ∧ (p.uid = s.dev.fuse.uid → d.answer = ⟨seq % 256, 0, [], true⟩
          ∧ d.fuse.slot p.slot = (1, blobAt (blobOf obj) x.off 32)
          ∧ d.fuse = s.dev.fuse.setSlot p.slot 1 (blobAt (blobOf obj) x.off 32))
      ∧ (p.uid ≠ s.dev.fuse.uid → d = s.dev.framed seq 8 [7])) ∧
  (∀ (s : State) (seq : Nat) (obj : List Byte) (p : SignedPart) (x : Sect), s.dev.listens →
    parsePart (blobOf obj) 0x4B534550 obj.length 1 = some p → p.sects = [x] → (s.dev.fuse.slot p.slot).1 ≠ 0 →
    exec (.siEnrolKey (.bmc seq true) obj) s = .next (s.withDev (s.dev.framed seq 3 []))) ∧
  (∀ (s : State) (seq : Nat) (obj : List Byte) (p : SignedPart), s.dev.listens →
    parsePart (blobOf obj) 0x4B535250 obj.length 1 = some p → p.sects = [] → obj.length = p.len + 2888 →
    (s.dev.fuse.slot (1 - p.slot)).1 = 1 → p.keyHash (blobOf obj) = (s.dev.fuse.slot (1 - p.slot)).2 → p.uid = s.dev.fuse.uid →
    p.behaviour = 0 →
    ∃ d : Dev, exec (.siRevokeKey (.bmc seq true) obj) s = .next (s.withDev d) ∧ d.mem = s.dev.mem ∧ d.mgmt = s.dev.mgmt
      ∧ (p.signed (blobOf obj) = true → d.answer = ⟨seq % 256, 0, [], true⟩
          ∧ d.fuse = s.dev.fuse.setSlot p.slot 2 (s.dev.fuse.slot p.slot).2)
      ∧ (p.signed (blobOf obj) = false → d = s.dev.framed seq 8 [5])) ∧
  (∀ (s : State) (seq : Nat) (obj : List Byte) (p : SignedPart), s.dev.listens →
    parsePart (blobOf obj) 0x4B535250 obj.length 1 = some p → p.sects = [] → obj.length = p.len + 2888 →
    (s.dev.fuse.slot (1 - p.slot)).1 = 2 →
    exec (.siRevokeKey (.bmc seq true) obj) s = .next (s.withDev (s.dev.framed seq 8 [4])))

/-- The test access port (R388, R389). IDCODE, BYPASS and SAMPLE/PRELOAD act always; EXTEST, SYSACC and DMI act as BYPASS while debug is not enabled. With
debug enabled SYSACC reads and writes a word of memory as class 8 of the firewall, and DMI halts and resumes a leaf and reads and writes its registers
while it is halted. (The model's choices in this: log entries 19, 63.) -/
def Obligations.TestAccessPort : Prop :=
  (∀ (s : State), s.dev.powered = true →
    exec .jtagIdcode s = .next (s.withDev { s.dev with tap := { s.dev.tap with
      out := BitVec.ofNat 64 (s.dev.fuse.stepping / 16 % 16 * 2 ^ 28 + 0x04B534CF), drives := false } })) ∧
  (∀ (s : State) (b : Bool), s.dev.powered = true →
    exec (.jtagBypass b) s = .next (s.withDev { s.dev with tap := { s.dev.tap with
      out := if s.dev.tap.bypass then 1 else 0, bypass := b, drives := false } })) ∧
  (∀ (s : State) (w : Word), s.dev.powered = true →
    ∃ d : Dev, exec (.jtagSamplePreload w) s = .next (s.withDev d)
      ∧ d = { s.dev with free := d.free, tap := { s.dev.tap with out := d.tap.out, boundary := w, drives := false } }) ∧
  (∀ (s : State) (w : Word), s.dev.powered = true →
    ∃ d : Dev, exec (.jtagExtest w) s = .next (s.withDev d) ∧ d = { s.dev with free := d.free, tap := d.tap }
      ∧ (s.dev.mgmt.debug = true → d.tap.boundary = w ∧ d.tap.drives = true)
      ∧ (s.dev.mgmt.debug = false → d.tap.drives = false ∧ d.tap.boundary = s.dev.tap.boundary ∧ d.tap.bypass = w.getLsbD 63
          ∧ d.tap.out = (w <<< 1) ||| (if s.dev.tap.bypass then 1 else 0))) ∧
  (∀ (s : State) (a : Nat) (write : Bool) (v : Word) (op : DmiOp) (c : Instr), s.dev.powered = true → s.dev.mgmt.debug = false →
    c = .jtagSysacc a write v ∨ c = .jtagDmi op →
    ∃ d : Dev, exec c s = .next (s.withDev d) ∧ d = { s.dev with free := d.free, tap := d.tap } ∧ d.tap.drives = false
      ∧ d.tap.boundary = s.dev.tap.boundary) ∧
  (∀ (s : State) (a : Nat) (v : Word), s.dev.powered = true → s.dev.mgmt.debug = true → a % 8 = 0 → rangeOf a = .dram →
    s.dev.backed a = true → s.dev.fwPermits 8 0 false a = true → (s.dev.cohRead (a / 64)).poison = false →
    s.dev.lineIdle (a / 64) = true →
    exec (.jtagSysacc a false v) s = .next (s.withDev
      { s.dev with resp := ⟨lineWord (s.dev.cohRead (a / 64)).data (a / 8 % 8), false, false⟩
                   tap := { s.dev.tap with out := lineWord (s.dev.cohRead (a / 64)).data (a / 8 % 8), drives := false } })) ∧
  (∀ (s : State) (a : Nat) (write : Bool) (v : Word), s.dev.powered = true → s.dev.mgmt.debug = true → a % 8 = 0 →
    s.dev.fwPermits 8 0 write a = false → (mainMemory a = true → s.dev.lineIdle (a / 64) = true) →
    ∃ d : Dev, exec (.jtagSysacc a write v) s = .next (s.withDev d) ∧ d.resp = ⟨BitVec.allOnes 64, true, false⟩ ∧ d.mem = s.dev.mem
      ∧ d.get TRK_FW_CNT.COUNT = min (s.dev.get TRK_FW_CNT.COUNT + 1) (2 ^ TRK_FW_CNT.COUNT.width - 1)) ∧
  (∀ (s : State) (n : Nat), s.dev.powered = true → s.dev.mgmt.debug = true → s.dev.debugReaches n = true →
    (s.dev.leaf n).halted = false →
    ∃ d : Dev, exec (.jtagDmi (.halt n)) s = .next (s.withDev d)
      ∧ d = { s.dev with leaves := d.leaves, tap := { s.dev.tap with drives := false } }
      ∧ (d.leaf n).halted = true ∧ (d.leaf n).csrRaw 0x7B1 = (s.dev.leaf n).pc ∧ (d.leaf n).x = (s.dev.leaf n).x
      ∧ ((d.leaf n).csrRaw 0x7B0).bits 1 0 = modeCode (s.dev.leaf n).mode ∧ ∀ m, m ≠ n → d.leaf m = s.dev.leaf m) ∧
  (∀ (s : State) (n : Nat), s.dev.powered = true → s.dev.mgmt.debug = true → (s.dev.leaf n).halted = true →
    ∃ d : Dev, exec (.jtagDmi (.resume n)) s = .next (s.withDev d)
      ∧ d = { s.dev with leaves := d.leaves, tap := { s.dev.tap with drives := false } }
      ∧ (d.leaf n).halted = false ∧ (d.leaf n).pc = (s.dev.leaf n).csrRaw 0x7B1 ∧ (d.leaf n).x = (s.dev.leaf n).x
      ∧ ∀ m, m ≠ n → d.leaf m = s.dev.leaf m) ∧
  (∀ (s : State) (n r : Nat) (v : Word), s.dev.powered = true → s.dev.mgmt.debug = true → (s.dev.leaf n).halted = true →
    0x1000 ≤ r → r < 0x1020 →
    exec (.jtagDmi (.read n r)) s = .next (s.withDev
      { s.dev with tap := { s.dev.tap with drives := false, out := (s.dev.leaf n).getX (r - 0x1000) } })
    ∧ ∃ d : Dev, exec (.jtagDmi (.write n r v)) s = .next (s.withDev d)
      ∧ d = { s.dev with leaves := d.leaves, tap := { s.dev.tap with drives := false } }
      ∧ (d.leaf n).getX (r - 0x1000) = (if r = 0x1000 then 0 else v) ∧ (d.leaf n).halted = true
      ∧ ∀ m, m ≠ n → d.leaf m = s.dev.leaf m) ∧
  (∀ (s : State) (n r : Nat) (v : Word), s.dev.powered = true → s.dev.mgmt.debug = true → (s.dev.leaf n).halted = false →
    exec (.jtagDmi (.write n r v)) s = .next (s.withDev { s.dev with tap := { s.dev.tap with drives := false } }))
end

