-- ==== Sys2Proof/Laws/Bits.lean ====
section
/-!
SUPPORT. Laws of bit fields of a word: a field reads what was written to it, and a write leaves the bits outside its field alone.
-/

namespace Sys2Proof

theorem Word.getLsbD_setBits (w : Word) (hi lo v i : Nat) (hlo : lo ≤ hi) (hi64 : hi < 64) :
    (w.setBits hi lo v).getLsbD i = if lo ≤ i ∧ i ≤ hi then v.testBit (i - lo) else w.getLsbD i := by
  by_cases h64 : i < 64
  · have hm : (BitVec.ofNat 64 ((2 ^ (hi - lo + 1) - 1) <<< lo)).getLsbD i = decide (lo ≤ i ∧ i ≤ hi) := by
      rw [BitVec.getLsbD_ofNat]
      simp only [h64, decide_true, Bool.true_and, Nat.testBit_shiftLeft, Nat.testBit_two_pow_sub_one]
      by_cases h1 : lo ≤ i <;> by_cases h2 : i ≤ hi <;> simp [h1, h2] <;> omega
    simp only [Word.setBits, BitVec.getLsbD_or, BitVec.getLsbD_and, BitVec.getLsbD_not, hm, h64, decide_true, Bool.true_and]
    rw [BitVec.getLsbD_ofNat]
    simp only [h64, decide_true, Bool.true_and, Nat.testBit_shiftLeft]
    by_cases h : lo ≤ i ∧ i ≤ hi
    · simp [h]
    · simp [h]
  · have h1 : (w.setBits hi lo v).getLsbD i = false := BitVec.getLsbD_of_ge _ _ (by omega)
    have h2 : w.getLsbD i = false := BitVec.getLsbD_of_ge _ _ (by omega)
    have h3 : ¬ (lo ≤ i ∧ i ≤ hi) := by omega
    simp [h1, h2, h3]

theorem Word.testBit_bits (w : Word) (hi lo i : Nat) :
    (w.bits hi lo).testBit i = (decide (i < hi - lo + 1) && w.getLsbD (lo + i)) := by
  simp [Word.bits, Nat.testBit_mod_two_pow, Nat.testBit_shiftRight, BitVec.getLsbD]

/-- A field reads what was written to it. -/
theorem Word.bits_setBits_same (w : Word) (hi lo v : Nat) (hlo : lo ≤ hi) (hi64 : hi < 64) :
    (w.setBits hi lo v).bits hi lo = v % 2 ^ (hi - lo + 1) := by
  apply Nat.eq_of_testBit_eq
  intro i
  rw [Word.testBit_bits, Nat.testBit_mod_two_pow]
  by_cases h : i < hi - lo + 1
  · rw [Word.getLsbD_setBits w hi lo v _ hlo hi64]
    have : lo ≤ lo + i ∧ lo + i ≤ hi := by omega
    simp [this, h]
  · simp [h]

/-- A write of a field leaves a field beside it alone. -/
theorem Word.bits_setBits_other (w : Word) (hi lo v hi' lo' : Nat) (hlo : lo ≤ hi) (hi64 : hi < 64) (hlo' : lo' ≤ hi')
    (h : hi < lo' ∨ hi' < lo) : (w.setBits hi lo v).bits hi' lo' = w.bits hi' lo' := by
  apply Nat.eq_of_testBit_eq
  intro i
  rw [Word.testBit_bits, Word.testBit_bits]
  by_cases hi1 : i < hi' - lo' + 1
  · rw [Word.getLsbD_setBits w hi lo v _ hlo hi64]
    have : ¬ (lo ≤ lo' + i ∧ lo' + i ≤ hi) := by omega
    simp [this]
  · simp [hi1]

theorem Word.bits_lt (w : Word) (hi lo : Nat) : w.bits hi lo < 2 ^ (hi - lo + 1) := Nat.mod_lt _ (by positivity)

end Sys2Proof
end

