-- ==== Sys2Proof/Laws/KMap.lean ====
section
/-!
SUPPORT. Laws of sparse data by key: a read after a write, and that writes keep the canonical form.
-/

namespace Sys2Proof.Machine

section
variable {κ α : Type}

theorem KMap.find_place_same [DecidableEq κ] (lt : κ → κ → Bool) (dflt a : α) (k : κ) :
    ∀ m : KMap κ α, (∀ p ∈ m, p.1 ≠ k) → KMap.find dflt (KMap.place lt k a m) k = a
  | [], _ => by simp [KMap.place, KMap.find]
  | (k', b) :: t, h => by
    have hk : k' ≠ k := h (k', b) (by simp)
    unfold KMap.place
    split
    · simp only [KMap.find, hk, if_false]
      exact KMap.find_place_same lt dflt a k t fun p hp => h p (by simp [hp])
    · simp [KMap.find]

theorem KMap.find_place_other [DecidableEq κ] (lt : κ → κ → Bool) (dflt a : α) (k j : κ) (hj : j ≠ k) :
    ∀ m : KMap κ α, KMap.find dflt (KMap.place lt k a m) j = KMap.find dflt m j
  | [] => by simp [KMap.place, KMap.find, Ne.symm hj]
  | (k', b) :: t => by
    unfold KMap.place
    split
    · simp only [KMap.find]
      split
      · rfl
      · exact KMap.find_place_other lt dflt a k j hj t
    · simp [KMap.find, Ne.symm hj]

theorem KMap.find_drop_same [DecidableEq κ] (dflt : α) (k : κ) : ∀ m : KMap κ α, KMap.find dflt (m.drop k) k = dflt
  | [] => rfl
  | (k', b) :: t => by
    by_cases h : k' = k
    · simpa [KMap.drop, h] using KMap.find_drop_same dflt k t
    · simpa [KMap.drop, h, KMap.find] using KMap.find_drop_same dflt k t

theorem KMap.find_drop_other [DecidableEq κ] (dflt : α) (k j : κ) (hj : j ≠ k) :
    ∀ m : KMap κ α, KMap.find dflt (m.drop k) j = KMap.find dflt m j
  | [] => rfl
  | (k', b) :: t => by
    by_cases h : k' = k
    · subst h
      simpa [KMap.drop, KMap.find, Ne.symm hj] using KMap.find_drop_other dflt k' j hj t
    · have := KMap.find_drop_other dflt k j hj t
      simp only [KMap.drop] at this
      simp only [KMap.drop, List.filter_cons, h, ne_eq, not_false_eq_true, decide_true, if_true, KMap.find, this]

/-- A read after a write of the same key. -/
@[simp] theorem KMap.find_set_same [DecidableEq κ] [DecidableEq α] (lt : κ → κ → Bool) (dflt a : α) (m : KMap κ α) (k : κ) :
    KMap.find dflt (KMap.set lt dflt m k a) k = a := by
  unfold KMap.set
  split
  · rename_i h
    rw [KMap.find_drop_same, h]
  · exact KMap.find_place_same lt dflt a k _ fun p hp => by
      simp only [KMap.drop, List.mem_filter, decide_eq_true_eq] at hp
      exact hp.2

/-- A write of a key leaves every other key alone. -/
theorem KMap.find_set_other [DecidableEq κ] [DecidableEq α] (lt : κ → κ → Bool) (dflt dflt' a : α) (m : KMap κ α) {k j : κ} (hj : j ≠ k) :
    KMap.find dflt' (KMap.set lt dflt m k a) j = KMap.find dflt' m j := by
  unfold KMap.set
  split
  · exact KMap.find_drop_other dflt' k j hj m
  · rw [KMap.find_place_other lt dflt' a k j hj, KMap.find_drop_other dflt' k j hj]

/-! ### The canonical form -/

/-- Rising keys are rising pairwise, for a transitive order. -/
theorem KMap.rising_iff (lt : κ → κ → Bool) (htrans : ∀ a b c, lt a b = true → lt b c = true → lt a c = true) :
    ∀ m : KMap κ α, KMap.rising lt m = true ↔ m.Pairwise fun a b => lt a.1 b.1 = true
  | [] => by simp [KMap.rising]
  | [a] => by simp [KMap.rising]
  | a :: b :: t => by
    have ih := KMap.rising_iff lt htrans (b :: t)
    simp only [KMap.rising, Bool.and_eq_true, ih]
    rw [List.pairwise_cons (l := b :: t)]
    constructor
    · rintro ⟨h1, h2⟩
      refine ⟨fun x hx => ?_, h2⟩
      rcases List.mem_cons.1 hx with rfl | hx
      · exact h1
      · exact htrans _ _ _ h1 ((List.pairwise_cons.1 h2).1 x hx)
    · rintro ⟨h1, h2⟩
      exact ⟨h1 b (by simp), h2⟩

theorem KMap.pairwise_place (lt : κ → κ → Bool) (htri : ∀ a b, a ≠ b → lt a b = false → lt b a = true)
    (htrans : ∀ a b c, lt a b = true → lt b c = true → lt a c = true) (k : κ) (a : α) :
    ∀ m : KMap κ α, (m.Pairwise fun x y => lt x.1 y.1 = true) → (∀ p ∈ m, p.1 ≠ k) →
      (KMap.place lt k a m).Pairwise fun x y => lt x.1 y.1 = true
  | [], _, _ => by simp [KMap.place]
  | (k', b) :: t, h, hk => by
    have hk' : k' ≠ k := hk (k', b) (by simp)
    rw [List.pairwise_cons] at h
    unfold KMap.place
    split
    · rename_i hlt
      rw [List.pairwise_cons]
      refine ⟨fun x hx => ?_, KMap.pairwise_place lt htri htrans k a t h.2 fun p hp => hk p (by simp [hp])⟩
      have : x = (k, a) ∨ x ∈ t := by
        clear h hk hlt
        induction t with
        | nil => simpa [KMap.place] using hx
        | cons q t ih =>
          unfold KMap.place at hx
          split at hx
          · rcases List.mem_cons.1 hx with rfl | hx
            · simp
            · rcases ih hx with h | h
              · exact .inl h
              · exact .inr (by simp [h])
          · rcases List.mem_cons.1 hx with rfl | hx
            · simp
            · exact .inr hx
      rcases this with rfl | hx
      · exact hlt
      · exact h.1 x hx
    · rename_i hlt
      have hlt' : lt k k' = true := htri k' k hk' (by simpa using hlt)
      rw [List.pairwise_cons, List.pairwise_cons]
      refine ⟨fun x hx => ?_, h.1, h.2⟩
      rcases List.mem_cons.1 hx with rfl | hx
      · exact hlt'
      · exact htrans _ _ _ hlt' (h.1 x hx)

theorem KMap.mem_place (lt : κ → κ → Bool) (k : κ) (a : α) (x : κ × α) :
    ∀ m : KMap κ α, x ∈ KMap.place lt k a m → x = (k, a) ∨ x ∈ m
  | [], h => by simpa [KMap.place] using h
  | q :: t, h => by
    unfold KMap.place at h
    split at h
    · rcases List.mem_cons.1 h with rfl | h
      · simp
      · rcases KMap.mem_place lt k a x t h with h | h
        · exact .inl h
        · exact .inr (by simp [h])
    · rcases List.mem_cons.1 h with rfl | h
      · simp
      · exact .inr h

/-- A filter keeps the canonical form. -/
theorem KMap.wf_filter [DecidableEq κ] [DecidableEq α] (lt : κ → κ → Bool) (htrans : ∀ a b c, lt a b = true → lt b c = true → lt a c = true)
    (dflt : α) (m : KMap κ α) (f : κ × α → Bool) (h : KMap.wf lt dflt m = true) : KMap.wf lt dflt (m.filter f) = true := by
  simp only [KMap.wf, Bool.and_eq_true, KMap.rising_iff lt htrans] at *
  refine ⟨h.1.filter f, ?_⟩
  simp only [List.all_eq_true] at *
  exact fun x hx => h.2 x (List.mem_filter.1 hx).1

/-- A write keeps the canonical form. -/
theorem KMap.wf_set [DecidableEq κ] [DecidableEq α] (lt : κ → κ → Bool) (htri : ∀ a b, a ≠ b → lt a b = false → lt b a = true)
    (htrans : ∀ a b c, lt a b = true → lt b c = true → lt a c = true) (dflt : α) (m : KMap κ α) (k : κ) (a : α)
    (h : KMap.wf lt dflt m = true) : KMap.wf lt dflt (KMap.set lt dflt m k a) = true := by
  have hd : KMap.wf lt dflt (m.drop k) = true := KMap.wf_filter lt htrans dflt m _ h
  unfold KMap.set
  split
  · exact hd
  · rename_i ha
    simp only [KMap.wf, Bool.and_eq_true, KMap.rising_iff lt htrans, List.all_eq_true] at *
    refine ⟨KMap.pairwise_place lt htri htrans k a _ hd.1 fun p hp => ?_, fun x hx => ?_⟩
    · simp only [KMap.drop, List.mem_filter, decide_eq_true_eq] at hp
      exact hp.2
    · rcases KMap.mem_place lt k a x _ hx with rfl | hx
      · simpa using ha
      · exact hd.2 x hx

end

theorem natLt_total (a b : Nat) (h : a ≠ b) (hn : natLt a b = false) : natLt b a = true := by
  simp only [natLt, decide_eq_true_eq, decide_eq_false_iff_not] at *
  omega

theorem natLt_trans (a b c : Nat) (h : natLt a b = true) (h' : natLt b c = true) : natLt a c = true := by
  simp only [natLt, decide_eq_true_eq] at *
  omega

end Sys2Proof.Machine
end

