-- ==== Sys2Proof/Laws/State.lean ====
section
/-!
SUPPORT. One lemma for each field of the package under each of its updates, so that no proof unfolds a record update; and what a
register and a field read after a write.
-/

namespace Sys2Proof.Machine

/-! ### setReg -/

@[simp] theorem Dev.setReg_mem (d : Dev) (r : Reg) (w : Word) : (d.setReg r w).mem = d.mem := rfl
@[simp] theorem Dev.setReg_poison (d : Dev) (r : Reg) (w : Word) : (d.setReg r w).poison = d.poison := rfl
@[simp] theorem Dev.setReg_wire (d : Dev) (r : Reg) (w : Word) : (d.setReg r w).wire = d.wire := rfl
@[simp] theorem Dev.setReg_resp (d : Dev) (r : Reg) (w : Word) : (d.setReg r w).resp = d.resp := rfl
@[simp] theorem Dev.setReg_free (d : Dev) (r : Reg) (w : Word) : (d.setReg r w).free = d.free := rfl
@[simp] theorem Dev.setReg_ring (d : Dev) (r : Reg) (w : Word) : (d.setReg r w).ring = d.ring := rfl
@[simp] theorem Dev.setReg_copies (d : Dev) (r : Reg) (w : Word) : (d.setReg r w).copies = d.copies := rfl
@[simp] theorem Dev.setReg_leaves (d : Dev) (r : Reg) (w : Word) : (d.setReg r w).leaves = d.leaves := rfl
@[simp] theorem Dev.setReg_lees (d : Dev) (r : Reg) (w : Word) : (d.setReg r w).lees = d.lees := rfl
@[simp] theorem Dev.setReg_groups (d : Dev) (r : Reg) (w : Word) : (d.setReg r w).groups = d.groups := rfl
@[simp] theorem Dev.setReg_boughs (d : Dev) (r : Reg) (w : Word) : (d.setReg r w).boughs = d.boughs := rfl
@[simp] theorem Dev.setReg_homes (d : Dev) (r : Reg) (w : Word) : (d.setReg r w).homes = d.homes := rfl
@[simp] theorem Dev.setReg_fabric (d : Dev) (r : Reg) (w : Word) : (d.setReg r w).fabric = d.fabric := rfl
@[simp] theorem Dev.setReg_evc (d : Dev) (r : Reg) (w : Word) : (d.setReg r w).evc = d.evc := rfl
@[simp] theorem Dev.setReg_evcBusy (d : Dev) (r : Reg) (w : Word) : (d.setReg r w).evcBusy = d.evcBusy := rfl
@[simp] theorem Dev.setReg_evAcc (d : Dev) (r : Reg) (w : Word) : (d.setReg r w).evAcc = d.evAcc := rfl
@[simp] theorem Dev.setReg_pulse (d : Dev) (r : Reg) (w : Word) : (d.setReg r w).pulse = d.pulse := rfl
@[simp] theorem Dev.setReg_firewall (d : Dev) (r : Reg) (w : Word) : (d.setReg r w).firewall = d.firewall := rfl
@[simp] theorem Dev.setReg_remoteSends (d : Dev) (r : Reg) (w : Word) : (d.setReg r w).remoteSends = d.remoteSends := rfl
@[simp] theorem Dev.setReg_lateTags (d : Dev) (r : Reg) (w : Word) : (d.setReg r w).lateTags = d.lateTags := rfl
@[simp] theorem Dev.setReg_channels (d : Dev) (r : Reg) (w : Word) : (d.setReg r w).channels = d.channels := rfl
@[simp] theorem Dev.setReg_cxl (d : Dev) (r : Reg) (w : Word) : (d.setReg r w).cxl = d.cxl := rfl
@[simp] theorem Dev.setReg_grafts (d : Dev) (r : Reg) (w : Word) : (d.setReg r w).grafts = d.grafts := rfl
@[simp] theorem Dev.setReg_spans (d : Dev) (r : Reg) (w : Word) : (d.setReg r w).spans = d.spans := rfl
@[simp] theorem Dev.setReg_copyState (d : Dev) (r : Reg) (w : Word) : (d.setReg r w).copyState = d.copyState := rfl
@[simp] theorem Dev.setReg_master (d : Dev) (r : Reg) (w : Word) : (d.setReg r w).master = d.master := rfl
@[simp] theorem Dev.setReg_packers (d : Dev) (r : Reg) (w : Word) : (d.setReg r w).packers = d.packers := rfl
@[simp] theorem Dev.setReg_trace (d : Dev) (r : Reg) (w : Word) : (d.setReg r w).trace = d.trace := rfl
@[simp] theorem Dev.setReg_power (d : Dev) (r : Reg) (w : Word) : (d.setReg r w).power = d.power := rfl
@[simp] theorem Dev.setReg_ttu (d : Dev) (r : Reg) (w : Word) : (d.setReg r w).ttu = d.ttu := rfl
@[simp] theorem Dev.setReg_hio (d : Dev) (r : Reg) (w : Word) : (d.setReg r w).hio = d.hio := rfl
@[simp] theorem Dev.setReg_flash (d : Dev) (r : Reg) (w : Word) : (d.setReg r w).flash = d.flash := rfl
@[simp] theorem Dev.setReg_bulk (d : Dev) (r : Reg) (w : Word) : (d.setReg r w).bulk = d.bulk := rfl
@[simp] theorem Dev.setReg_fuse (d : Dev) (r : Reg) (w : Word) : (d.setReg r w).fuse = d.fuse := rfl
@[simp] theorem Dev.setReg_nvm (d : Dev) (r : Reg) (w : Word) : (d.setReg r w).nvm = d.nvm := rfl
@[simp] theorem Dev.setReg_mgmt (d : Dev) (r : Reg) (w : Word) : (d.setReg r w).mgmt = d.mgmt := rfl
@[simp] theorem Dev.setReg_board (d : Dev) (r : Reg) (w : Word) : (d.setReg r w).board = d.board := rfl
@[simp] theorem Dev.setReg_tap (d : Dev) (r : Reg) (w : Word) : (d.setReg r w).tap = d.tap := rfl
@[simp] theorem Dev.setReg_answer (d : Dev) (r : Reg) (w : Word) : (d.setReg r w).answer = d.answer := rfl

/-! ### put -/

@[simp] theorem Dev.put_mem (d : Dev) (f : Fld) (v u k : Nat) : (d.put f v u k).mem = d.mem := rfl
@[simp] theorem Dev.put_poison (d : Dev) (f : Fld) (v u k : Nat) : (d.put f v u k).poison = d.poison := rfl
@[simp] theorem Dev.put_wire (d : Dev) (f : Fld) (v u k : Nat) : (d.put f v u k).wire = d.wire := rfl
@[simp] theorem Dev.put_resp (d : Dev) (f : Fld) (v u k : Nat) : (d.put f v u k).resp = d.resp := rfl
@[simp] theorem Dev.put_free (d : Dev) (f : Fld) (v u k : Nat) : (d.put f v u k).free = d.free := rfl
@[simp] theorem Dev.put_ring (d : Dev) (f : Fld) (v u k : Nat) : (d.put f v u k).ring = d.ring := rfl
@[simp] theorem Dev.put_copies (d : Dev) (f : Fld) (v u k : Nat) : (d.put f v u k).copies = d.copies := rfl
@[simp] theorem Dev.put_leaves (d : Dev) (f : Fld) (v u k : Nat) : (d.put f v u k).leaves = d.leaves := rfl
@[simp] theorem Dev.put_lees (d : Dev) (f : Fld) (v u k : Nat) : (d.put f v u k).lees = d.lees := rfl
@[simp] theorem Dev.put_groups (d : Dev) (f : Fld) (v u k : Nat) : (d.put f v u k).groups = d.groups := rfl
@[simp] theorem Dev.put_boughs (d : Dev) (f : Fld) (v u k : Nat) : (d.put f v u k).boughs = d.boughs := rfl
@[simp] theorem Dev.put_homes (d : Dev) (f : Fld) (v u k : Nat) : (d.put f v u k).homes = d.homes := rfl
@[simp] theorem Dev.put_fabric (d : Dev) (f : Fld) (v u k : Nat) : (d.put f v u k).fabric = d.fabric := rfl
@[simp] theorem Dev.put_evc (d : Dev) (f : Fld) (v u k : Nat) : (d.put f v u k).evc = d.evc := rfl
@[simp] theorem Dev.put_evcBusy (d : Dev) (f : Fld) (v u k : Nat) : (d.put f v u k).evcBusy = d.evcBusy := rfl
@[simp] theorem Dev.put_evAcc (d : Dev) (f : Fld) (v u k : Nat) : (d.put f v u k).evAcc = d.evAcc := rfl
@[simp] theorem Dev.put_pulse (d : Dev) (f : Fld) (v u k : Nat) : (d.put f v u k).pulse = d.pulse := rfl
@[simp] theorem Dev.put_firewall (d : Dev) (f : Fld) (v u k : Nat) : (d.put f v u k).firewall = d.firewall := rfl
@[simp] theorem Dev.put_remoteSends (d : Dev) (f : Fld) (v u k : Nat) : (d.put f v u k).remoteSends = d.remoteSends := rfl
@[simp] theorem Dev.put_lateTags (d : Dev) (f : Fld) (v u k : Nat) : (d.put f v u k).lateTags = d.lateTags := rfl
@[simp] theorem Dev.put_channels (d : Dev) (f : Fld) (v u k : Nat) : (d.put f v u k).channels = d.channels := rfl
@[simp] theorem Dev.put_cxl (d : Dev) (f : Fld) (v u k : Nat) : (d.put f v u k).cxl = d.cxl := rfl
@[simp] theorem Dev.put_grafts (d : Dev) (f : Fld) (v u k : Nat) : (d.put f v u k).grafts = d.grafts := rfl
@[simp] theorem Dev.put_spans (d : Dev) (f : Fld) (v u k : Nat) : (d.put f v u k).spans = d.spans := rfl
@[simp] theorem Dev.put_copyState (d : Dev) (f : Fld) (v u k : Nat) : (d.put f v u k).copyState = d.copyState := rfl
@[simp] theorem Dev.put_master (d : Dev) (f : Fld) (v u k : Nat) : (d.put f v u k).master = d.master := rfl
@[simp] theorem Dev.put_packers (d : Dev) (f : Fld) (v u k : Nat) : (d.put f v u k).packers = d.packers := rfl
@[simp] theorem Dev.put_trace (d : Dev) (f : Fld) (v u k : Nat) : (d.put f v u k).trace = d.trace := rfl
@[simp] theorem Dev.put_power (d : Dev) (f : Fld) (v u k : Nat) : (d.put f v u k).power = d.power := rfl
@[simp] theorem Dev.put_ttu (d : Dev) (f : Fld) (v u k : Nat) : (d.put f v u k).ttu = d.ttu := rfl
@[simp] theorem Dev.put_hio (d : Dev) (f : Fld) (v u k : Nat) : (d.put f v u k).hio = d.hio := rfl
@[simp] theorem Dev.put_flash (d : Dev) (f : Fld) (v u k : Nat) : (d.put f v u k).flash = d.flash := rfl
@[simp] theorem Dev.put_bulk (d : Dev) (f : Fld) (v u k : Nat) : (d.put f v u k).bulk = d.bulk := rfl
@[simp] theorem Dev.put_fuse (d : Dev) (f : Fld) (v u k : Nat) : (d.put f v u k).fuse = d.fuse := rfl
@[simp] theorem Dev.put_nvm (d : Dev) (f : Fld) (v u k : Nat) : (d.put f v u k).nvm = d.nvm := rfl
@[simp] theorem Dev.put_mgmt (d : Dev) (f : Fld) (v u k : Nat) : (d.put f v u k).mgmt = d.mgmt := rfl
@[simp] theorem Dev.put_board (d : Dev) (f : Fld) (v u k : Nat) : (d.put f v u k).board = d.board := rfl
@[simp] theorem Dev.put_tap (d : Dev) (f : Fld) (v u k : Nat) : (d.put f v u k).tap = d.tap := rfl
@[simp] theorem Dev.put_answer (d : Dev) (f : Fld) (v u k : Nat) : (d.put f v u k).answer = d.answer := rfl

/-! ### bump -/

@[simp] theorem Dev.bump_mem (d : Dev) (f : Fld) (n u k : Nat) : (d.bump f n u k).mem = d.mem := rfl
@[simp] theorem Dev.bump_poison (d : Dev) (f : Fld) (n u k : Nat) : (d.bump f n u k).poison = d.poison := rfl
@[simp] theorem Dev.bump_wire (d : Dev) (f : Fld) (n u k : Nat) : (d.bump f n u k).wire = d.wire := rfl
@[simp] theorem Dev.bump_resp (d : Dev) (f : Fld) (n u k : Nat) : (d.bump f n u k).resp = d.resp := rfl
@[simp] theorem Dev.bump_free (d : Dev) (f : Fld) (n u k : Nat) : (d.bump f n u k).free = d.free := rfl
@[simp] theorem Dev.bump_ring (d : Dev) (f : Fld) (n u k : Nat) : (d.bump f n u k).ring = d.ring := rfl
@[simp] theorem Dev.bump_copies (d : Dev) (f : Fld) (n u k : Nat) : (d.bump f n u k).copies = d.copies := rfl
@[simp] theorem Dev.bump_leaves (d : Dev) (f : Fld) (n u k : Nat) : (d.bump f n u k).leaves = d.leaves := rfl
@[simp] theorem Dev.bump_lees (d : Dev) (f : Fld) (n u k : Nat) : (d.bump f n u k).lees = d.lees := rfl
@[simp] theorem Dev.bump_groups (d : Dev) (f : Fld) (n u k : Nat) : (d.bump f n u k).groups = d.groups := rfl
@[simp] theorem Dev.bump_boughs (d : Dev) (f : Fld) (n u k : Nat) : (d.bump f n u k).boughs = d.boughs := rfl
@[simp] theorem Dev.bump_homes (d : Dev) (f : Fld) (n u k : Nat) : (d.bump f n u k).homes = d.homes := rfl
@[simp] theorem Dev.bump_fabric (d : Dev) (f : Fld) (n u k : Nat) : (d.bump f n u k).fabric = d.fabric := rfl
@[simp] theorem Dev.bump_evc (d : Dev) (f : Fld) (n u k : Nat) : (d.bump f n u k).evc = d.evc := rfl
@[simp] theorem Dev.bump_evcBusy (d : Dev) (f : Fld) (n u k : Nat) : (d.bump f n u k).evcBusy = d.evcBusy := rfl
@[simp] theorem Dev.bump_evAcc (d : Dev) (f : Fld) (n u k : Nat) : (d.bump f n u k).evAcc = d.evAcc := rfl
@[simp] theorem Dev.bump_pulse (d : Dev) (f : Fld) (n u k : Nat) : (d.bump f n u k).pulse = d.pulse := rfl
@[simp] theorem Dev.bump_firewall (d : Dev) (f : Fld) (n u k : Nat) : (d.bump f n u k).firewall = d.firewall := rfl
@[simp] theorem Dev.bump_remoteSends (d : Dev) (f : Fld) (n u k : Nat) : (d.bump f n u k).remoteSends = d.remoteSends := rfl
@[simp] theorem Dev.bump_lateTags (d : Dev) (f : Fld) (n u k : Nat) : (d.bump f n u k).lateTags = d.lateTags := rfl
@[simp] theorem Dev.bump_channels (d : Dev) (f : Fld) (n u k : Nat) : (d.bump f n u k).channels = d.channels := rfl
@[simp] theorem Dev.bump_cxl (d : Dev) (f : Fld) (n u k : Nat) : (d.bump f n u k).cxl = d.cxl := rfl
@[simp] theorem Dev.bump_grafts (d : Dev) (f : Fld) (n u k : Nat) : (d.bump f n u k).grafts = d.grafts := rfl
@[simp] theorem Dev.bump_spans (d : Dev) (f : Fld) (n u k : Nat) : (d.bump f n u k).spans = d.spans := rfl
@[simp] theorem Dev.bump_copyState (d : Dev) (f : Fld) (n u k : Nat) : (d.bump f n u k).copyState = d.copyState := rfl
@[simp] theorem Dev.bump_master (d : Dev) (f : Fld) (n u k : Nat) : (d.bump f n u k).master = d.master := rfl
@[simp] theorem Dev.bump_packers (d : Dev) (f : Fld) (n u k : Nat) : (d.bump f n u k).packers = d.packers := rfl
@[simp] theorem Dev.bump_trace (d : Dev) (f : Fld) (n u k : Nat) : (d.bump f n u k).trace = d.trace := rfl
@[simp] theorem Dev.bump_power (d : Dev) (f : Fld) (n u k : Nat) : (d.bump f n u k).power = d.power := rfl
@[simp] theorem Dev.bump_ttu (d : Dev) (f : Fld) (n u k : Nat) : (d.bump f n u k).ttu = d.ttu := rfl
@[simp] theorem Dev.bump_hio (d : Dev) (f : Fld) (n u k : Nat) : (d.bump f n u k).hio = d.hio := rfl
@[simp] theorem Dev.bump_flash (d : Dev) (f : Fld) (n u k : Nat) : (d.bump f n u k).flash = d.flash := rfl
@[simp] theorem Dev.bump_bulk (d : Dev) (f : Fld) (n u k : Nat) : (d.bump f n u k).bulk = d.bulk := rfl
@[simp] theorem Dev.bump_fuse (d : Dev) (f : Fld) (n u k : Nat) : (d.bump f n u k).fuse = d.fuse := rfl
@[simp] theorem Dev.bump_nvm (d : Dev) (f : Fld) (n u k : Nat) : (d.bump f n u k).nvm = d.nvm := rfl
@[simp] theorem Dev.bump_mgmt (d : Dev) (f : Fld) (n u k : Nat) : (d.bump f n u k).mgmt = d.mgmt := rfl
@[simp] theorem Dev.bump_board (d : Dev) (f : Fld) (n u k : Nat) : (d.bump f n u k).board = d.board := rfl
@[simp] theorem Dev.bump_tap (d : Dev) (f : Fld) (n u k : Nat) : (d.bump f n u k).tap = d.tap := rfl
@[simp] theorem Dev.bump_answer (d : Dev) (f : Fld) (n u k : Nat) : (d.bump f n u k).answer = d.answer := rfl

/-! ### count -/

@[simp] theorem Dev.count_mem (d : Dev) (f : Fld) (n u k : Nat) : (d.count f n u k).mem = d.mem := rfl
@[simp] theorem Dev.count_poison (d : Dev) (f : Fld) (n u k : Nat) : (d.count f n u k).poison = d.poison := rfl
@[simp] theorem Dev.count_wire (d : Dev) (f : Fld) (n u k : Nat) : (d.count f n u k).wire = d.wire := rfl
@[simp] theorem Dev.count_resp (d : Dev) (f : Fld) (n u k : Nat) : (d.count f n u k).resp = d.resp := rfl
@[simp] theorem Dev.count_free (d : Dev) (f : Fld) (n u k : Nat) : (d.count f n u k).free = d.free := rfl
@[simp] theorem Dev.count_ring (d : Dev) (f : Fld) (n u k : Nat) : (d.count f n u k).ring = d.ring := rfl
@[simp] theorem Dev.count_copies (d : Dev) (f : Fld) (n u k : Nat) : (d.count f n u k).copies = d.copies := rfl
@[simp] theorem Dev.count_leaves (d : Dev) (f : Fld) (n u k : Nat) : (d.count f n u k).leaves = d.leaves := rfl
@[simp] theorem Dev.count_lees (d : Dev) (f : Fld) (n u k : Nat) : (d.count f n u k).lees = d.lees := rfl
@[simp] theorem Dev.count_groups (d : Dev) (f : Fld) (n u k : Nat) : (d.count f n u k).groups = d.groups := rfl
@[simp] theorem Dev.count_boughs (d : Dev) (f : Fld) (n u k : Nat) : (d.count f n u k).boughs = d.boughs := rfl
@[simp] theorem Dev.count_homes (d : Dev) (f : Fld) (n u k : Nat) : (d.count f n u k).homes = d.homes := rfl
@[simp] theorem Dev.count_fabric (d : Dev) (f : Fld) (n u k : Nat) : (d.count f n u k).fabric = d.fabric := rfl
@[simp] theorem Dev.count_evc (d : Dev) (f : Fld) (n u k : Nat) : (d.count f n u k).evc = d.evc := rfl
@[simp] theorem Dev.count_evcBusy (d : Dev) (f : Fld) (n u k : Nat) : (d.count f n u k).evcBusy = d.evcBusy := rfl
@[simp] theorem Dev.count_evAcc (d : Dev) (f : Fld) (n u k : Nat) : (d.count f n u k).evAcc = d.evAcc := rfl
@[simp] theorem Dev.count_pulse (d : Dev) (f : Fld) (n u k : Nat) : (d.count f n u k).pulse = d.pulse := rfl
@[simp] theorem Dev.count_firewall (d : Dev) (f : Fld) (n u k : Nat) : (d.count f n u k).firewall = d.firewall := rfl
@[simp] theorem Dev.count_remoteSends (d : Dev) (f : Fld) (n u k : Nat) : (d.count f n u k).remoteSends = d.remoteSends := rfl
@[simp] theorem Dev.count_lateTags (d : Dev) (f : Fld) (n u k : Nat) : (d.count f n u k).lateTags = d.lateTags := rfl
@[simp] theorem Dev.count_channels (d : Dev) (f : Fld) (n u k : Nat) : (d.count f n u k).channels = d.channels := rfl
@[simp] theorem Dev.count_cxl (d : Dev) (f : Fld) (n u k : Nat) : (d.count f n u k).cxl = d.cxl := rfl
@[simp] theorem Dev.count_grafts (d : Dev) (f : Fld) (n u k : Nat) : (d.count f n u k).grafts = d.grafts := rfl
@[simp] theorem Dev.count_spans (d : Dev) (f : Fld) (n u k : Nat) : (d.count f n u k).spans = d.spans := rfl
@[simp] theorem Dev.count_copyState (d : Dev) (f : Fld) (n u k : Nat) : (d.count f n u k).copyState = d.copyState := rfl
@[simp] theorem Dev.count_master (d : Dev) (f : Fld) (n u k : Nat) : (d.count f n u k).master = d.master := rfl
@[simp] theorem Dev.count_packers (d : Dev) (f : Fld) (n u k : Nat) : (d.count f n u k).packers = d.packers := rfl
@[simp] theorem Dev.count_trace (d : Dev) (f : Fld) (n u k : Nat) : (d.count f n u k).trace = d.trace := rfl
@[simp] theorem Dev.count_power (d : Dev) (f : Fld) (n u k : Nat) : (d.count f n u k).power = d.power := rfl
@[simp] theorem Dev.count_ttu (d : Dev) (f : Fld) (n u k : Nat) : (d.count f n u k).ttu = d.ttu := rfl
@[simp] theorem Dev.count_hio (d : Dev) (f : Fld) (n u k : Nat) : (d.count f n u k).hio = d.hio := rfl
@[simp] theorem Dev.count_flash (d : Dev) (f : Fld) (n u k : Nat) : (d.count f n u k).flash = d.flash := rfl
@[simp] theorem Dev.count_bulk (d : Dev) (f : Fld) (n u k : Nat) : (d.count f n u k).bulk = d.bulk := rfl
@[simp] theorem Dev.count_fuse (d : Dev) (f : Fld) (n u k : Nat) : (d.count f n u k).fuse = d.fuse := rfl
@[simp] theorem Dev.count_nvm (d : Dev) (f : Fld) (n u k : Nat) : (d.count f n u k).nvm = d.nvm := rfl
@[simp] theorem Dev.count_mgmt (d : Dev) (f : Fld) (n u k : Nat) : (d.count f n u k).mgmt = d.mgmt := rfl
@[simp] theorem Dev.count_board (d : Dev) (f : Fld) (n u k : Nat) : (d.count f n u k).board = d.board := rfl
@[simp] theorem Dev.count_tap (d : Dev) (f : Fld) (n u k : Nat) : (d.count f n u k).tap = d.tap := rfl
@[simp] theorem Dev.count_answer (d : Dev) (f : Fld) (n u k : Nat) : (d.count f n u k).answer = d.answer := rfl

/-! ### send -/

@[simp] theorem Dev.send_regs (d : Dev) (p : Packet) : (d.send p).regs = d.regs := rfl
@[simp] theorem Dev.send_mem (d : Dev) (p : Packet) : (d.send p).mem = d.mem := rfl
@[simp] theorem Dev.send_poison (d : Dev) (p : Packet) : (d.send p).poison = d.poison := rfl
@[simp] theorem Dev.send_resp (d : Dev) (p : Packet) : (d.send p).resp = d.resp := rfl
@[simp] theorem Dev.send_free (d : Dev) (p : Packet) : (d.send p).free = d.free := rfl
@[simp] theorem Dev.send_ring (d : Dev) (p : Packet) : (d.send p).ring = d.ring := rfl
@[simp] theorem Dev.send_copies (d : Dev) (p : Packet) : (d.send p).copies = d.copies := rfl
@[simp] theorem Dev.send_leaves (d : Dev) (p : Packet) : (d.send p).leaves = d.leaves := rfl
@[simp] theorem Dev.send_lees (d : Dev) (p : Packet) : (d.send p).lees = d.lees := rfl
@[simp] theorem Dev.send_groups (d : Dev) (p : Packet) : (d.send p).groups = d.groups := rfl
@[simp] theorem Dev.send_boughs (d : Dev) (p : Packet) : (d.send p).boughs = d.boughs := rfl
@[simp] theorem Dev.send_homes (d : Dev) (p : Packet) : (d.send p).homes = d.homes := rfl
@[simp] theorem Dev.send_fabric (d : Dev) (p : Packet) : (d.send p).fabric = d.fabric := rfl
@[simp] theorem Dev.send_evc (d : Dev) (p : Packet) : (d.send p).evc = d.evc := rfl
@[simp] theorem Dev.send_evcBusy (d : Dev) (p : Packet) : (d.send p).evcBusy = d.evcBusy := rfl
@[simp] theorem Dev.send_evAcc (d : Dev) (p : Packet) : (d.send p).evAcc = d.evAcc := rfl
@[simp] theorem Dev.send_pulse (d : Dev) (p : Packet) : (d.send p).pulse = d.pulse := rfl
@[simp] theorem Dev.send_firewall (d : Dev) (p : Packet) : (d.send p).firewall = d.firewall := rfl
@[simp] theorem Dev.send_remoteSends (d : Dev) (p : Packet) : (d.send p).remoteSends = d.remoteSends := rfl
@[simp] theorem Dev.send_lateTags (d : Dev) (p : Packet) : (d.send p).lateTags = d.lateTags := rfl
@[simp] theorem Dev.send_channels (d : Dev) (p : Packet) : (d.send p).channels = d.channels := rfl
@[simp] theorem Dev.send_cxl (d : Dev) (p : Packet) : (d.send p).cxl = d.cxl := rfl
@[simp] theorem Dev.send_grafts (d : Dev) (p : Packet) : (d.send p).grafts = d.grafts := rfl
@[simp] theorem Dev.send_spans (d : Dev) (p : Packet) : (d.send p).spans = d.spans := rfl
@[simp] theorem Dev.send_copyState (d : Dev) (p : Packet) : (d.send p).copyState = d.copyState := rfl
@[simp] theorem Dev.send_master (d : Dev) (p : Packet) : (d.send p).master = d.master := rfl
@[simp] theorem Dev.send_packers (d : Dev) (p : Packet) : (d.send p).packers = d.packers := rfl
@[simp] theorem Dev.send_trace (d : Dev) (p : Packet) : (d.send p).trace = d.trace := rfl
@[simp] theorem Dev.send_power (d : Dev) (p : Packet) : (d.send p).power = d.power := rfl
@[simp] theorem Dev.send_ttu (d : Dev) (p : Packet) : (d.send p).ttu = d.ttu := rfl
@[simp] theorem Dev.send_hio (d : Dev) (p : Packet) : (d.send p).hio = d.hio := rfl
@[simp] theorem Dev.send_flash (d : Dev) (p : Packet) : (d.send p).flash = d.flash := rfl
@[simp] theorem Dev.send_bulk (d : Dev) (p : Packet) : (d.send p).bulk = d.bulk := rfl
@[simp] theorem Dev.send_fuse (d : Dev) (p : Packet) : (d.send p).fuse = d.fuse := rfl
@[simp] theorem Dev.send_nvm (d : Dev) (p : Packet) : (d.send p).nvm = d.nvm := rfl
@[simp] theorem Dev.send_mgmt (d : Dev) (p : Packet) : (d.send p).mgmt = d.mgmt := rfl
@[simp] theorem Dev.send_board (d : Dev) (p : Packet) : (d.send p).board = d.board := rfl
@[simp] theorem Dev.send_tap (d : Dev) (p : Packet) : (d.send p).tap = d.tap := rfl
@[simp] theorem Dev.send_answer (d : Dev) (p : Packet) : (d.send p).answer = d.answer := rfl

/-! ### emit -/

@[simp] theorem Dev.emit_regs (d : Dev) (p : Packet) : (d.emit p).regs = d.regs := by unfold Dev.emit; split <;> rfl
@[simp] theorem Dev.emit_mem (d : Dev) (p : Packet) : (d.emit p).mem = d.mem := by unfold Dev.emit; split <;> rfl
@[simp] theorem Dev.emit_poison (d : Dev) (p : Packet) : (d.emit p).poison = d.poison := by unfold Dev.emit; split <;> rfl
@[simp] theorem Dev.emit_resp (d : Dev) (p : Packet) : (d.emit p).resp = d.resp := by unfold Dev.emit; split <;> rfl
@[simp] theorem Dev.emit_free (d : Dev) (p : Packet) : (d.emit p).free = d.free := by unfold Dev.emit; split <;> rfl
@[simp] theorem Dev.emit_ring (d : Dev) (p : Packet) : (d.emit p).ring = d.ring := by unfold Dev.emit; split <;> rfl
@[simp] theorem Dev.emit_copies (d : Dev) (p : Packet) : (d.emit p).copies = d.copies := by unfold Dev.emit; split <;> rfl
@[simp] theorem Dev.emit_leaves (d : Dev) (p : Packet) : (d.emit p).leaves = d.leaves := by unfold Dev.emit; split <;> rfl
@[simp] theorem Dev.emit_lees (d : Dev) (p : Packet) : (d.emit p).lees = d.lees := by unfold Dev.emit; split <;> rfl
@[simp] theorem Dev.emit_groups (d : Dev) (p : Packet) : (d.emit p).groups = d.groups := by unfold Dev.emit; split <;> rfl
@[simp] theorem Dev.emit_boughs (d : Dev) (p : Packet) : (d.emit p).boughs = d.boughs := by unfold Dev.emit; split <;> rfl
@[simp] theorem Dev.emit_homes (d : Dev) (p : Packet) : (d.emit p).homes = d.homes := by unfold Dev.emit; split <;> rfl
@[simp] theorem Dev.emit_fabric (d : Dev) (p : Packet) : (d.emit p).fabric = d.fabric := by unfold Dev.emit; split <;> rfl
@[simp] theorem Dev.emit_evc (d : Dev) (p : Packet) : (d.emit p).evc = d.evc := by unfold Dev.emit; split <;> rfl
@[simp] theorem Dev.emit_evcBusy (d : Dev) (p : Packet) : (d.emit p).evcBusy = d.evcBusy := by unfold Dev.emit; split <;> rfl
@[simp] theorem Dev.emit_evAcc (d : Dev) (p : Packet) : (d.emit p).evAcc = d.evAcc := by unfold Dev.emit; split <;> rfl
@[simp] theorem Dev.emit_pulse (d : Dev) (p : Packet) : (d.emit p).pulse = d.pulse := by unfold Dev.emit; split <;> rfl
@[simp] theorem Dev.emit_firewall (d : Dev) (p : Packet) : (d.emit p).firewall = d.firewall := by unfold Dev.emit; split <;> rfl
@[simp] theorem Dev.emit_remoteSends (d : Dev) (p : Packet) : (d.emit p).remoteSends = d.remoteSends := by unfold Dev.emit; split <;> rfl
@[simp] theorem Dev.emit_lateTags (d : Dev) (p : Packet) : (d.emit p).lateTags = d.lateTags := by unfold Dev.emit; split <;> rfl
@[simp] theorem Dev.emit_channels (d : Dev) (p : Packet) : (d.emit p).channels = d.channels := by unfold Dev.emit; split <;> rfl
@[simp] theorem Dev.emit_cxl (d : Dev) (p : Packet) : (d.emit p).cxl = d.cxl := by unfold Dev.emit; split <;> rfl
@[simp] theorem Dev.emit_grafts (d : Dev) (p : Packet) : (d.emit p).grafts = d.grafts := by unfold Dev.emit; split <;> rfl
@[simp] theorem Dev.emit_spans (d : Dev) (p : Packet) : (d.emit p).spans = d.spans := by unfold Dev.emit; split <;> rfl
@[simp] theorem Dev.emit_copyState (d : Dev) (p : Packet) : (d.emit p).copyState = d.copyState := by unfold Dev.emit; split <;> rfl
@[simp] theorem Dev.emit_master (d : Dev) (p : Packet) : (d.emit p).master = d.master := by unfold Dev.emit; split <;> rfl
@[simp] theorem Dev.emit_packers (d : Dev) (p : Packet) : (d.emit p).packers = d.packers := by unfold Dev.emit; split <;> rfl
@[simp] theorem Dev.emit_trace (d : Dev) (p : Packet) : (d.emit p).trace = d.trace := by unfold Dev.emit; split <;> rfl
@[simp] theorem Dev.emit_power (d : Dev) (p : Packet) : (d.emit p).power = d.power := by unfold Dev.emit; split <;> rfl
@[simp] theorem Dev.emit_ttu (d : Dev) (p : Packet) : (d.emit p).ttu = d.ttu := by unfold Dev.emit; split <;> rfl
@[simp] theorem Dev.emit_hio (d : Dev) (p : Packet) : (d.emit p).hio = d.hio := by unfold Dev.emit; split <;> rfl
@[simp] theorem Dev.emit_flash (d : Dev) (p : Packet) : (d.emit p).flash = d.flash := by unfold Dev.emit; split <;> rfl
@[simp] theorem Dev.emit_bulk (d : Dev) (p : Packet) : (d.emit p).bulk = d.bulk := by unfold Dev.emit; split <;> rfl
@[simp] theorem Dev.emit_fuse (d : Dev) (p : Packet) : (d.emit p).fuse = d.fuse := by unfold Dev.emit; split <;> rfl
@[simp] theorem Dev.emit_nvm (d : Dev) (p : Packet) : (d.emit p).nvm = d.nvm := by unfold Dev.emit; split <;> rfl
@[simp] theorem Dev.emit_mgmt (d : Dev) (p : Packet) : (d.emit p).mgmt = d.mgmt := by unfold Dev.emit; split <;> rfl
@[simp] theorem Dev.emit_board (d : Dev) (p : Packet) : (d.emit p).board = d.board := by unfold Dev.emit; split <;> rfl
@[simp] theorem Dev.emit_tap (d : Dev) (p : Packet) : (d.emit p).tap = d.tap := by unfold Dev.emit; split <;> rfl
@[simp] theorem Dev.emit_answer (d : Dev) (p : Packet) : (d.emit p).answer = d.answer := by unfold Dev.emit; split <;> rfl

/-! ### take -/

@[simp] theorem Dev.take_regs (d : Dev) (p : Packet) : (d.take p).regs = d.regs := rfl
@[simp] theorem Dev.take_mem (d : Dev) (p : Packet) : (d.take p).mem = d.mem := rfl
@[simp] theorem Dev.take_poison (d : Dev) (p : Packet) : (d.take p).poison = d.poison := rfl
@[simp] theorem Dev.take_resp (d : Dev) (p : Packet) : (d.take p).resp = d.resp := rfl
@[simp] theorem Dev.take_free (d : Dev) (p : Packet) : (d.take p).free = d.free := rfl
@[simp] theorem Dev.take_ring (d : Dev) (p : Packet) : (d.take p).ring = d.ring := rfl
@[simp] theorem Dev.take_copies (d : Dev) (p : Packet) : (d.take p).copies = d.copies := rfl
@[simp] theorem Dev.take_leaves (d : Dev) (p : Packet) : (d.take p).leaves = d.leaves := rfl
@[simp] theorem Dev.take_lees (d : Dev) (p : Packet) : (d.take p).lees = d.lees := rfl
@[simp] theorem Dev.take_groups (d : Dev) (p : Packet) : (d.take p).groups = d.groups := rfl
@[simp] theorem Dev.take_boughs (d : Dev) (p : Packet) : (d.take p).boughs = d.boughs := rfl
@[simp] theorem Dev.take_homes (d : Dev) (p : Packet) : (d.take p).homes = d.homes := rfl
@[simp] theorem Dev.take_fabric (d : Dev) (p : Packet) : (d.take p).fabric = d.fabric := rfl
@[simp] theorem Dev.take_evc (d : Dev) (p : Packet) : (d.take p).evc = d.evc := rfl
@[simp] theorem Dev.take_evcBusy (d : Dev) (p : Packet) : (d.take p).evcBusy = d.evcBusy := rfl
@[simp] theorem Dev.take_evAcc (d : Dev) (p : Packet) : (d.take p).evAcc = d.evAcc := rfl
@[simp] theorem Dev.take_pulse (d : Dev) (p : Packet) : (d.take p).pulse = d.pulse := rfl
@[simp] theorem Dev.take_firewall (d : Dev) (p : Packet) : (d.take p).firewall = d.firewall := rfl
@[simp] theorem Dev.take_remoteSends (d : Dev) (p : Packet) : (d.take p).remoteSends = d.remoteSends := rfl
@[simp] theorem Dev.take_lateTags (d : Dev) (p : Packet) : (d.take p).lateTags = d.lateTags := rfl
@[simp] theorem Dev.take_channels (d : Dev) (p : Packet) : (d.take p).channels = d.channels := rfl
@[simp] theorem Dev.take_cxl (d : Dev) (p : Packet) : (d.take p).cxl = d.cxl := rfl
@[simp] theorem Dev.take_grafts (d : Dev) (p : Packet) : (d.take p).grafts = d.grafts := rfl
@[simp] theorem Dev.take_spans (d : Dev) (p : Packet) : (d.take p).spans = d.spans := rfl
@[simp] theorem Dev.take_copyState (d : Dev) (p : Packet) : (d.take p).copyState = d.copyState := rfl
@[simp] theorem Dev.take_master (d : Dev) (p : Packet) : (d.take p).master = d.master := rfl
@[simp] theorem Dev.take_packers (d : Dev) (p : Packet) : (d.take p).packers = d.packers := rfl
@[simp] theorem Dev.take_trace (d : Dev) (p : Packet) : (d.take p).trace = d.trace := rfl
@[simp] theorem Dev.take_power (d : Dev) (p : Packet) : (d.take p).power = d.power := rfl
@[simp] theorem Dev.take_ttu (d : Dev) (p : Packet) : (d.take p).ttu = d.ttu := rfl
@[simp] theorem Dev.take_hio (d : Dev) (p : Packet) : (d.take p).hio = d.hio := rfl
@[simp] theorem Dev.take_flash (d : Dev) (p : Packet) : (d.take p).flash = d.flash := rfl
@[simp] theorem Dev.take_bulk (d : Dev) (p : Packet) : (d.take p).bulk = d.bulk := rfl
@[simp] theorem Dev.take_fuse (d : Dev) (p : Packet) : (d.take p).fuse = d.fuse := rfl
@[simp] theorem Dev.take_nvm (d : Dev) (p : Packet) : (d.take p).nvm = d.nvm := rfl
@[simp] theorem Dev.take_mgmt (d : Dev) (p : Packet) : (d.take p).mgmt = d.mgmt := rfl
@[simp] theorem Dev.take_board (d : Dev) (p : Packet) : (d.take p).board = d.board := rfl
@[simp] theorem Dev.take_tap (d : Dev) (p : Packet) : (d.take p).tap = d.tap := rfl
@[simp] theorem Dev.take_answer (d : Dev) (p : Packet) : (d.take p).answer = d.answer := rfl

/-! ### setLeaf -/

@[simp] theorem Dev.setLeaf_regs (d : Dev) (n : Nat) (l : Leaf) : (d.setLeaf n l).regs = d.regs := rfl
@[simp] theorem Dev.setLeaf_mem (d : Dev) (n : Nat) (l : Leaf) : (d.setLeaf n l).mem = d.mem := rfl
@[simp] theorem Dev.setLeaf_poison (d : Dev) (n : Nat) (l : Leaf) : (d.setLeaf n l).poison = d.poison := rfl
@[simp] theorem Dev.setLeaf_wire (d : Dev) (n : Nat) (l : Leaf) : (d.setLeaf n l).wire = d.wire := rfl
@[simp] theorem Dev.setLeaf_resp (d : Dev) (n : Nat) (l : Leaf) : (d.setLeaf n l).resp = d.resp := rfl
@[simp] theorem Dev.setLeaf_free (d : Dev) (n : Nat) (l : Leaf) : (d.setLeaf n l).free = d.free := rfl
@[simp] theorem Dev.setLeaf_ring (d : Dev) (n : Nat) (l : Leaf) : (d.setLeaf n l).ring = d.ring := rfl
@[simp] theorem Dev.setLeaf_copies (d : Dev) (n : Nat) (l : Leaf) : (d.setLeaf n l).copies = d.copies := rfl
@[simp] theorem Dev.setLeaf_lees (d : Dev) (n : Nat) (l : Leaf) : (d.setLeaf n l).lees = d.lees := rfl
@[simp] theorem Dev.setLeaf_groups (d : Dev) (n : Nat) (l : Leaf) : (d.setLeaf n l).groups = d.groups := rfl
@[simp] theorem Dev.setLeaf_boughs (d : Dev) (n : Nat) (l : Leaf) : (d.setLeaf n l).boughs = d.boughs := rfl
@[simp] theorem Dev.setLeaf_homes (d : Dev) (n : Nat) (l : Leaf) : (d.setLeaf n l).homes = d.homes := rfl
@[simp] theorem Dev.setLeaf_fabric (d : Dev) (n : Nat) (l : Leaf) : (d.setLeaf n l).fabric = d.fabric := rfl
@[simp] theorem Dev.setLeaf_evc (d : Dev) (n : Nat) (l : Leaf) : (d.setLeaf n l).evc = d.evc := rfl
@[simp] theorem Dev.setLeaf_evcBusy (d : Dev) (n : Nat) (l : Leaf) : (d.setLeaf n l).evcBusy = d.evcBusy := rfl
@[simp] theorem Dev.setLeaf_evAcc (d : Dev) (n : Nat) (l : Leaf) : (d.setLeaf n l).evAcc = d.evAcc := rfl
@[simp] theorem Dev.setLeaf_pulse (d : Dev) (n : Nat) (l : Leaf) : (d.setLeaf n l).pulse = d.pulse := rfl
@[simp] theorem Dev.setLeaf_firewall (d : Dev) (n : Nat) (l : Leaf) : (d.setLeaf n l).firewall = d.firewall := rfl
@[simp] theorem Dev.setLeaf_remoteSends (d : Dev) (n : Nat) (l : Leaf) : (d.setLeaf n l).remoteSends = d.remoteSends := rfl
@[simp] theorem Dev.setLeaf_lateTags (d : Dev) (n : Nat) (l : Leaf) : (d.setLeaf n l).lateTags = d.lateTags := rfl
@[simp] theorem Dev.setLeaf_channels (d : Dev) (n : Nat) (l : Leaf) : (d.setLeaf n l).channels = d.channels := rfl
@[simp] theorem Dev.setLeaf_cxl (d : Dev) (n : Nat) (l : Leaf) : (d.setLeaf n l).cxl = d.cxl := rfl
@[simp] theorem Dev.setLeaf_grafts (d : Dev) (n : Nat) (l : Leaf) : (d.setLeaf n l).grafts = d.grafts := rfl
@[simp] theorem Dev.setLeaf_spans (d : Dev) (n : Nat) (l : Leaf) : (d.setLeaf n l).spans = d.spans := rfl
@[simp] theorem Dev.setLeaf_copyState (d : Dev) (n : Nat) (l : Leaf) : (d.setLeaf n l).copyState = d.copyState := rfl
@[simp] theorem Dev.setLeaf_master (d : Dev) (n : Nat) (l : Leaf) : (d.setLeaf n l).master = d.master := rfl
@[simp] theorem Dev.setLeaf_packers (d : Dev) (n : Nat) (l : Leaf) : (d.setLeaf n l).packers = d.packers := rfl
@[simp] theorem Dev.setLeaf_trace (d : Dev) (n : Nat) (l : Leaf) : (d.setLeaf n l).trace = d.trace := rfl
@[simp] theorem Dev.setLeaf_power (d : Dev) (n : Nat) (l : Leaf) : (d.setLeaf n l).power = d.power := rfl
@[simp] theorem Dev.setLeaf_ttu (d : Dev) (n : Nat) (l : Leaf) : (d.setLeaf n l).ttu = d.ttu := rfl
@[simp] theorem Dev.setLeaf_hio (d : Dev) (n : Nat) (l : Leaf) : (d.setLeaf n l).hio = d.hio := rfl
@[simp] theorem Dev.setLeaf_flash (d : Dev) (n : Nat) (l : Leaf) : (d.setLeaf n l).flash = d.flash := rfl
@[simp] theorem Dev.setLeaf_bulk (d : Dev) (n : Nat) (l : Leaf) : (d.setLeaf n l).bulk = d.bulk := rfl
@[simp] theorem Dev.setLeaf_fuse (d : Dev) (n : Nat) (l : Leaf) : (d.setLeaf n l).fuse = d.fuse := rfl
@[simp] theorem Dev.setLeaf_nvm (d : Dev) (n : Nat) (l : Leaf) : (d.setLeaf n l).nvm = d.nvm := rfl
@[simp] theorem Dev.setLeaf_mgmt (d : Dev) (n : Nat) (l : Leaf) : (d.setLeaf n l).mgmt = d.mgmt := rfl
@[simp] theorem Dev.setLeaf_board (d : Dev) (n : Nat) (l : Leaf) : (d.setLeaf n l).board = d.board := rfl
@[simp] theorem Dev.setLeaf_tap (d : Dev) (n : Nat) (l : Leaf) : (d.setLeaf n l).tap = d.tap := rfl
@[simp] theorem Dev.setLeaf_answer (d : Dev) (n : Nat) (l : Leaf) : (d.setLeaf n l).answer = d.answer := rfl

/-! ### setLee -/

@[simp] theorem Dev.setLee_regs (d : Dev) (n : Nat) (l : Lee) : (d.setLee n l).regs = d.regs := rfl
@[simp] theorem Dev.setLee_mem (d : Dev) (n : Nat) (l : Lee) : (d.setLee n l).mem = d.mem := rfl
@[simp] theorem Dev.setLee_poison (d : Dev) (n : Nat) (l : Lee) : (d.setLee n l).poison = d.poison := rfl
@[simp] theorem Dev.setLee_wire (d : Dev) (n : Nat) (l : Lee) : (d.setLee n l).wire = d.wire := rfl
@[simp] theorem Dev.setLee_resp (d : Dev) (n : Nat) (l : Lee) : (d.setLee n l).resp = d.resp := rfl
@[simp] theorem Dev.setLee_free (d : Dev) (n : Nat) (l : Lee) : (d.setLee n l).free = d.free := rfl
@[simp] theorem Dev.setLee_ring (d : Dev) (n : Nat) (l : Lee) : (d.setLee n l).ring = d.ring := rfl
@[simp] theorem Dev.setLee_copies (d : Dev) (n : Nat) (l : Lee) : (d.setLee n l).copies = d.copies := rfl
@[simp] theorem Dev.setLee_leaves (d : Dev) (n : Nat) (l : Lee) : (d.setLee n l).leaves = d.leaves := rfl
@[simp] theorem Dev.setLee_groups (d : Dev) (n : Nat) (l : Lee) : (d.setLee n l).groups = d.groups := rfl
@[simp] theorem Dev.setLee_boughs (d : Dev) (n : Nat) (l : Lee) : (d.setLee n l).boughs = d.boughs := rfl
@[simp] theorem Dev.setLee_homes (d : Dev) (n : Nat) (l : Lee) : (d.setLee n l).homes = d.homes := rfl
@[simp] theorem Dev.setLee_fabric (d : Dev) (n : Nat) (l : Lee) : (d.setLee n l).fabric = d.fabric := rfl
@[simp] theorem Dev.setLee_evc (d : Dev) (n : Nat) (l : Lee) : (d.setLee n l).evc = d.evc := rfl
@[simp] theorem Dev.setLee_evcBusy (d : Dev) (n : Nat) (l : Lee) : (d.setLee n l).evcBusy = d.evcBusy := rfl
@[simp] theorem Dev.setLee_evAcc (d : Dev) (n : Nat) (l : Lee) : (d.setLee n l).evAcc = d.evAcc := rfl
@[simp] theorem Dev.setLee_pulse (d : Dev) (n : Nat) (l : Lee) : (d.setLee n l).pulse = d.pulse := rfl
@[simp] theorem Dev.setLee_firewall (d : Dev) (n : Nat) (l : Lee) : (d.setLee n l).firewall = d.firewall := rfl
@[simp] theorem Dev.setLee_remoteSends (d : Dev) (n : Nat) (l : Lee) : (d.setLee n l).remoteSends = d.remoteSends := rfl
@[simp] theorem Dev.setLee_lateTags (d : Dev) (n : Nat) (l : Lee) : (d.setLee n l).lateTags = d.lateTags := rfl
@[simp] theorem Dev.setLee_channels (d : Dev) (n : Nat) (l : Lee) : (d.setLee n l).channels = d.channels := rfl
@[simp] theorem Dev.setLee_cxl (d : Dev) (n : Nat) (l : Lee) : (d.setLee n l).cxl = d.cxl := rfl
@[simp] theorem Dev.setLee_grafts (d : Dev) (n : Nat) (l : Lee) : (d.setLee n l).grafts = d.grafts := rfl
@[simp] theorem Dev.setLee_spans (d : Dev) (n : Nat) (l : Lee) : (d.setLee n l).spans = d.spans := rfl
@[simp] theorem Dev.setLee_copyState (d : Dev) (n : Nat) (l : Lee) : (d.setLee n l).copyState = d.copyState := rfl
@[simp] theorem Dev.setLee_master (d : Dev) (n : Nat) (l : Lee) : (d.setLee n l).master = d.master := rfl
@[simp] theorem Dev.setLee_packers (d : Dev) (n : Nat) (l : Lee) : (d.setLee n l).packers = d.packers := rfl
@[simp] theorem Dev.setLee_trace (d : Dev) (n : Nat) (l : Lee) : (d.setLee n l).trace = d.trace := rfl
@[simp] theorem Dev.setLee_power (d : Dev) (n : Nat) (l : Lee) : (d.setLee n l).power = d.power := rfl
@[simp] theorem Dev.setLee_ttu (d : Dev) (n : Nat) (l : Lee) : (d.setLee n l).ttu = d.ttu := rfl
@[simp] theorem Dev.setLee_hio (d : Dev) (n : Nat) (l : Lee) : (d.setLee n l).hio = d.hio := rfl
@[simp] theorem Dev.setLee_flash (d : Dev) (n : Nat) (l : Lee) : (d.setLee n l).flash = d.flash := rfl
@[simp] theorem Dev.setLee_bulk (d : Dev) (n : Nat) (l : Lee) : (d.setLee n l).bulk = d.bulk := rfl
@[simp] theorem Dev.setLee_fuse (d : Dev) (n : Nat) (l : Lee) : (d.setLee n l).fuse = d.fuse := rfl
@[simp] theorem Dev.setLee_nvm (d : Dev) (n : Nat) (l : Lee) : (d.setLee n l).nvm = d.nvm := rfl
@[simp] theorem Dev.setLee_mgmt (d : Dev) (n : Nat) (l : Lee) : (d.setLee n l).mgmt = d.mgmt := rfl
@[simp] theorem Dev.setLee_board (d : Dev) (n : Nat) (l : Lee) : (d.setLee n l).board = d.board := rfl
@[simp] theorem Dev.setLee_tap (d : Dev) (n : Nat) (l : Lee) : (d.setLee n l).tap = d.tap := rfl
@[simp] theorem Dev.setLee_answer (d : Dev) (n : Nat) (l : Lee) : (d.setLee n l).answer = d.answer := rfl

/-! ### setGroup -/

@[simp] theorem Dev.setGroup_regs (d : Dev) (n : Nat) (l : Group) : (d.setGroup n l).regs = d.regs := rfl
@[simp] theorem Dev.setGroup_mem (d : Dev) (n : Nat) (l : Group) : (d.setGroup n l).mem = d.mem := rfl
@[simp] theorem Dev.setGroup_poison (d : Dev) (n : Nat) (l : Group) : (d.setGroup n l).poison = d.poison := rfl
@[simp] theorem Dev.setGroup_wire (d : Dev) (n : Nat) (l : Group) : (d.setGroup n l).wire = d.wire := rfl
@[simp] theorem Dev.setGroup_resp (d : Dev) (n : Nat) (l : Group) : (d.setGroup n l).resp = d.resp := rfl
@[simp] theorem Dev.setGroup_free (d : Dev) (n : Nat) (l : Group) : (d.setGroup n l).free = d.free := rfl
@[simp] theorem Dev.setGroup_ring (d : Dev) (n : Nat) (l : Group) : (d.setGroup n l).ring = d.ring := rfl
@[simp] theorem Dev.setGroup_copies (d : Dev) (n : Nat) (l : Group) : (d.setGroup n l).copies = d.copies := rfl
@[simp] theorem Dev.setGroup_leaves (d : Dev) (n : Nat) (l : Group) : (d.setGroup n l).leaves = d.leaves := rfl
@[simp] theorem Dev.setGroup_lees (d : Dev) (n : Nat) (l : Group) : (d.setGroup n l).lees = d.lees := rfl
@[simp] theorem Dev.setGroup_boughs (d : Dev) (n : Nat) (l : Group) : (d.setGroup n l).boughs = d.boughs := rfl
@[simp] theorem Dev.setGroup_homes (d : Dev) (n : Nat) (l : Group) : (d.setGroup n l).homes = d.homes := rfl
@[simp] theorem Dev.setGroup_fabric (d : Dev) (n : Nat) (l : Group) : (d.setGroup n l).fabric = d.fabric := rfl
@[simp] theorem Dev.setGroup_evc (d : Dev) (n : Nat) (l : Group) : (d.setGroup n l).evc = d.evc := rfl
@[simp] theorem Dev.setGroup_evcBusy (d : Dev) (n : Nat) (l : Group) : (d.setGroup n l).evcBusy = d.evcBusy := rfl
@[simp] theorem Dev.setGroup_evAcc (d : Dev) (n : Nat) (l : Group) : (d.setGroup n l).evAcc = d.evAcc := rfl
@[simp] theorem Dev.setGroup_pulse (d : Dev) (n : Nat) (l : Group) : (d.setGroup n l).pulse = d.pulse := rfl
@[simp] theorem Dev.setGroup_firewall (d : Dev) (n : Nat) (l : Group) : (d.setGroup n l).firewall = d.firewall := rfl
@[simp] theorem Dev.setGroup_remoteSends (d : Dev) (n : Nat) (l : Group) : (d.setGroup n l).remoteSends = d.remoteSends := rfl
@[simp] theorem Dev.setGroup_lateTags (d : Dev) (n : Nat) (l : Group) : (d.setGroup n l).lateTags = d.lateTags := rfl
@[simp] theorem Dev.setGroup_channels (d : Dev) (n : Nat) (l : Group) : (d.setGroup n l).channels = d.channels := rfl
@[simp] theorem Dev.setGroup_cxl (d : Dev) (n : Nat) (l : Group) : (d.setGroup n l).cxl = d.cxl := rfl
@[simp] theorem Dev.setGroup_grafts (d : Dev) (n : Nat) (l : Group) : (d.setGroup n l).grafts = d.grafts := rfl
@[simp] theorem Dev.setGroup_spans (d : Dev) (n : Nat) (l : Group) : (d.setGroup n l).spans = d.spans := rfl
@[simp] theorem Dev.setGroup_copyState (d : Dev) (n : Nat) (l : Group) : (d.setGroup n l).copyState = d.copyState := rfl
@[simp] theorem Dev.setGroup_master (d : Dev) (n : Nat) (l : Group) : (d.setGroup n l).master = d.master := rfl
@[simp] theorem Dev.setGroup_packers (d : Dev) (n : Nat) (l : Group) : (d.setGroup n l).packers = d.packers := rfl
@[simp] theorem Dev.setGroup_trace (d : Dev) (n : Nat) (l : Group) : (d.setGroup n l).trace = d.trace := rfl
@[simp] theorem Dev.setGroup_power (d : Dev) (n : Nat) (l : Group) : (d.setGroup n l).power = d.power := rfl
@[simp] theorem Dev.setGroup_ttu (d : Dev) (n : Nat) (l : Group) : (d.setGroup n l).ttu = d.ttu := rfl
@[simp] theorem Dev.setGroup_hio (d : Dev) (n : Nat) (l : Group) : (d.setGroup n l).hio = d.hio := rfl
@[simp] theorem Dev.setGroup_flash (d : Dev) (n : Nat) (l : Group) : (d.setGroup n l).flash = d.flash := rfl
@[simp] theorem Dev.setGroup_bulk (d : Dev) (n : Nat) (l : Group) : (d.setGroup n l).bulk = d.bulk := rfl
@[simp] theorem Dev.setGroup_fuse (d : Dev) (n : Nat) (l : Group) : (d.setGroup n l).fuse = d.fuse := rfl
@[simp] theorem Dev.setGroup_nvm (d : Dev) (n : Nat) (l : Group) : (d.setGroup n l).nvm = d.nvm := rfl
@[simp] theorem Dev.setGroup_mgmt (d : Dev) (n : Nat) (l : Group) : (d.setGroup n l).mgmt = d.mgmt := rfl
@[simp] theorem Dev.setGroup_board (d : Dev) (n : Nat) (l : Group) : (d.setGroup n l).board = d.board := rfl
@[simp] theorem Dev.setGroup_tap (d : Dev) (n : Nat) (l : Group) : (d.setGroup n l).tap = d.tap := rfl
@[simp] theorem Dev.setGroup_answer (d : Dev) (n : Nat) (l : Group) : (d.setGroup n l).answer = d.answer := rfl

/-! ### setBough -/

@[simp] theorem Dev.setBough_regs (d : Dev) (n : Nat) (l : Bough) : (d.setBough n l).regs = d.regs := rfl
@[simp] theorem Dev.setBough_mem (d : Dev) (n : Nat) (l : Bough) : (d.setBough n l).mem = d.mem := rfl
@[simp] theorem Dev.setBough_poison (d : Dev) (n : Nat) (l : Bough) : (d.setBough n l).poison = d.poison := rfl
@[simp] theorem Dev.setBough_wire (d : Dev) (n : Nat) (l : Bough) : (d.setBough n l).wire = d.wire := rfl
@[simp] theorem Dev.setBough_resp (d : Dev) (n : Nat) (l : Bough) : (d.setBough n l).resp = d.resp := rfl
@[simp] theorem Dev.setBough_free (d : Dev) (n : Nat) (l : Bough) : (d.setBough n l).free = d.free := rfl
@[simp] theorem Dev.setBough_ring (d : Dev) (n : Nat) (l : Bough) : (d.setBough n l).ring = d.ring := rfl
@[simp] theorem Dev.setBough_copies (d : Dev) (n : Nat) (l : Bough) : (d.setBough n l).copies = d.copies := rfl
@[simp] theorem Dev.setBough_leaves (d : Dev) (n : Nat) (l : Bough) : (d.setBough n l).leaves = d.leaves := rfl
@[simp] theorem Dev.setBough_lees (d : Dev) (n : Nat) (l : Bough) : (d.setBough n l).lees = d.lees := rfl
@[simp] theorem Dev.setBough_groups (d : Dev) (n : Nat) (l : Bough) : (d.setBough n l).groups = d.groups := rfl
@[simp] theorem Dev.setBough_homes (d : Dev) (n : Nat) (l : Bough) : (d.setBough n l).homes = d.homes := rfl
@[simp] theorem Dev.setBough_fabric (d : Dev) (n : Nat) (l : Bough) : (d.setBough n l).fabric = d.fabric := rfl
@[simp] theorem Dev.setBough_evc (d : Dev) (n : Nat) (l : Bough) : (d.setBough n l).evc = d.evc := rfl
@[simp] theorem Dev.setBough_evcBusy (d : Dev) (n : Nat) (l : Bough) : (d.setBough n l).evcBusy = d.evcBusy := rfl
@[simp] theorem Dev.setBough_evAcc (d : Dev) (n : Nat) (l : Bough) : (d.setBough n l).evAcc = d.evAcc := rfl
@[simp] theorem Dev.setBough_pulse (d : Dev) (n : Nat) (l : Bough) : (d.setBough n l).pulse = d.pulse := rfl
@[simp] theorem Dev.setBough_firewall (d : Dev) (n : Nat) (l : Bough) : (d.setBough n l).firewall = d.firewall := rfl
@[simp] theorem Dev.setBough_remoteSends (d : Dev) (n : Nat) (l : Bough) : (d.setBough n l).remoteSends = d.remoteSends := rfl
@[simp] theorem Dev.setBough_lateTags (d : Dev) (n : Nat) (l : Bough) : (d.setBough n l).lateTags = d.lateTags := rfl
@[simp] theorem Dev.setBough_channels (d : Dev) (n : Nat) (l : Bough) : (d.setBough n l).channels = d.channels := rfl
@[simp] theorem Dev.setBough_cxl (d : Dev) (n : Nat) (l : Bough) : (d.setBough n l).cxl = d.cxl := rfl
@[simp] theorem Dev.setBough_grafts (d : Dev) (n : Nat) (l : Bough) : (d.setBough n l).grafts = d.grafts := rfl
@[simp] theorem Dev.setBough_spans (d : Dev) (n : Nat) (l : Bough) : (d.setBough n l).spans = d.spans := rfl
@[simp] theorem Dev.setBough_copyState (d : Dev) (n : Nat) (l : Bough) : (d.setBough n l).copyState = d.copyState := rfl
@[simp] theorem Dev.setBough_master (d : Dev) (n : Nat) (l : Bough) : (d.setBough n l).master = d.master := rfl
@[simp] theorem Dev.setBough_packers (d : Dev) (n : Nat) (l : Bough) : (d.setBough n l).packers = d.packers := rfl
@[simp] theorem Dev.setBough_trace (d : Dev) (n : Nat) (l : Bough) : (d.setBough n l).trace = d.trace := rfl
@[simp] theorem Dev.setBough_power (d : Dev) (n : Nat) (l : Bough) : (d.setBough n l).power = d.power := rfl
@[simp] theorem Dev.setBough_ttu (d : Dev) (n : Nat) (l : Bough) : (d.setBough n l).ttu = d.ttu := rfl
@[simp] theorem Dev.setBough_hio (d : Dev) (n : Nat) (l : Bough) : (d.setBough n l).hio = d.hio := rfl
@[simp] theorem Dev.setBough_flash (d : Dev) (n : Nat) (l : Bough) : (d.setBough n l).flash = d.flash := rfl
@[simp] theorem Dev.setBough_bulk (d : Dev) (n : Nat) (l : Bough) : (d.setBough n l).bulk = d.bulk := rfl
@[simp] theorem Dev.setBough_fuse (d : Dev) (n : Nat) (l : Bough) : (d.setBough n l).fuse = d.fuse := rfl
@[simp] theorem Dev.setBough_nvm (d : Dev) (n : Nat) (l : Bough) : (d.setBough n l).nvm = d.nvm := rfl
@[simp] theorem Dev.setBough_mgmt (d : Dev) (n : Nat) (l : Bough) : (d.setBough n l).mgmt = d.mgmt := rfl
@[simp] theorem Dev.setBough_board (d : Dev) (n : Nat) (l : Bough) : (d.setBough n l).board = d.board := rfl
@[simp] theorem Dev.setBough_tap (d : Dev) (n : Nat) (l : Bough) : (d.setBough n l).tap = d.tap := rfl
@[simp] theorem Dev.setBough_answer (d : Dev) (n : Nat) (l : Bough) : (d.setBough n l).answer = d.answer := rfl

/-! ### setHome -/

@[simp] theorem Dev.setHome_regs (d : Dev) (n : Nat) (l : Home) : (d.setHome n l).regs = d.regs := rfl
@[simp] theorem Dev.setHome_mem (d : Dev) (n : Nat) (l : Home) : (d.setHome n l).mem = d.mem := rfl
@[simp] theorem Dev.setHome_poison (d : Dev) (n : Nat) (l : Home) : (d.setHome n l).poison = d.poison := rfl
@[simp] theorem Dev.setHome_wire (d : Dev) (n : Nat) (l : Home) : (d.setHome n l).wire = d.wire := rfl
@[simp] theorem Dev.setHome_resp (d : Dev) (n : Nat) (l : Home) : (d.setHome n l).resp = d.resp := rfl
@[simp] theorem Dev.setHome_free (d : Dev) (n : Nat) (l : Home) : (d.setHome n l).free = d.free := rfl
@[simp] theorem Dev.setHome_ring (d : Dev) (n : Nat) (l : Home) : (d.setHome n l).ring = d.ring := rfl
@[simp] theorem Dev.setHome_copies (d : Dev) (n : Nat) (l : Home) : (d.setHome n l).copies = d.copies := rfl
@[simp] theorem Dev.setHome_leaves (d : Dev) (n : Nat) (l : Home) : (d.setHome n l).leaves = d.leaves := rfl
@[simp] theorem Dev.setHome_lees (d : Dev) (n : Nat) (l : Home) : (d.setHome n l).lees = d.lees := rfl
@[simp] theorem Dev.setHome_groups (d : Dev) (n : Nat) (l : Home) : (d.setHome n l).groups = d.groups := rfl
@[simp] theorem Dev.setHome_boughs (d : Dev) (n : Nat) (l : Home) : (d.setHome n l).boughs = d.boughs := rfl
@[simp] theorem Dev.setHome_fabric (d : Dev) (n : Nat) (l : Home) : (d.setHome n l).fabric = d.fabric := rfl
@[simp] theorem Dev.setHome_evc (d : Dev) (n : Nat) (l : Home) : (d.setHome n l).evc = d.evc := rfl
@[simp] theorem Dev.setHome_evcBusy (d : Dev) (n : Nat) (l : Home) : (d.setHome n l).evcBusy = d.evcBusy := rfl
@[simp] theorem Dev.setHome_evAcc (d : Dev) (n : Nat) (l : Home) : (d.setHome n l).evAcc = d.evAcc := rfl
@[simp] theorem Dev.setHome_pulse (d : Dev) (n : Nat) (l : Home) : (d.setHome n l).pulse = d.pulse := rfl
@[simp] theorem Dev.setHome_firewall (d : Dev) (n : Nat) (l : Home) : (d.setHome n l).firewall = d.firewall := rfl
@[simp] theorem Dev.setHome_remoteSends (d : Dev) (n : Nat) (l : Home) : (d.setHome n l).remoteSends = d.remoteSends := rfl
@[simp] theorem Dev.setHome_lateTags (d : Dev) (n : Nat) (l : Home) : (d.setHome n l).lateTags = d.lateTags := rfl
@[simp] theorem Dev.setHome_channels (d : Dev) (n : Nat) (l : Home) : (d.setHome n l).channels = d.channels := rfl
@[simp] theorem Dev.setHome_cxl (d : Dev) (n : Nat) (l : Home) : (d.setHome n l).cxl = d.cxl := rfl
@[simp] theorem Dev.setHome_grafts (d : Dev) (n : Nat) (l : Home) : (d.setHome n l).grafts = d.grafts := rfl
@[simp] theorem Dev.setHome_spans (d : Dev) (n : Nat) (l : Home) : (d.setHome n l).spans = d.spans := rfl
@[simp] theorem Dev.setHome_copyState (d : Dev) (n : Nat) (l : Home) : (d.setHome n l).copyState = d.copyState := rfl
@[simp] theorem Dev.setHome_master (d : Dev) (n : Nat) (l : Home) : (d.setHome n l).master = d.master := rfl
@[simp] theorem Dev.setHome_packers (d : Dev) (n : Nat) (l : Home) : (d.setHome n l).packers = d.packers := rfl
@[simp] theorem Dev.setHome_trace (d : Dev) (n : Nat) (l : Home) : (d.setHome n l).trace = d.trace := rfl
@[simp] theorem Dev.setHome_power (d : Dev) (n : Nat) (l : Home) : (d.setHome n l).power = d.power := rfl
@[simp] theorem Dev.setHome_ttu (d : Dev) (n : Nat) (l : Home) : (d.setHome n l).ttu = d.ttu := rfl
@[simp] theorem Dev.setHome_hio (d : Dev) (n : Nat) (l : Home) : (d.setHome n l).hio = d.hio := rfl
@[simp] theorem Dev.setHome_flash (d : Dev) (n : Nat) (l : Home) : (d.setHome n l).flash = d.flash := rfl
@[simp] theorem Dev.setHome_bulk (d : Dev) (n : Nat) (l : Home) : (d.setHome n l).bulk = d.bulk := rfl
@[simp] theorem Dev.setHome_fuse (d : Dev) (n : Nat) (l : Home) : (d.setHome n l).fuse = d.fuse := rfl
@[simp] theorem Dev.setHome_nvm (d : Dev) (n : Nat) (l : Home) : (d.setHome n l).nvm = d.nvm := rfl
@[simp] theorem Dev.setHome_mgmt (d : Dev) (n : Nat) (l : Home) : (d.setHome n l).mgmt = d.mgmt := rfl
@[simp] theorem Dev.setHome_board (d : Dev) (n : Nat) (l : Home) : (d.setHome n l).board = d.board := rfl
@[simp] theorem Dev.setHome_tap (d : Dev) (n : Nat) (l : Home) : (d.setHome n l).tap = d.tap := rfl
@[simp] theorem Dev.setHome_answer (d : Dev) (n : Nat) (l : Home) : (d.setHome n l).answer = d.answer := rfl

/-! ### setGate -/

@[simp] theorem Dev.setGate_regs (d : Dev) (n : Nat) (l : Gate) : (d.setGate n l).regs = d.regs := rfl
@[simp] theorem Dev.setGate_mem (d : Dev) (n : Nat) (l : Gate) : (d.setGate n l).mem = d.mem := rfl
@[simp] theorem Dev.setGate_poison (d : Dev) (n : Nat) (l : Gate) : (d.setGate n l).poison = d.poison := rfl
@[simp] theorem Dev.setGate_wire (d : Dev) (n : Nat) (l : Gate) : (d.setGate n l).wire = d.wire := rfl
@[simp] theorem Dev.setGate_resp (d : Dev) (n : Nat) (l : Gate) : (d.setGate n l).resp = d.resp := rfl
@[simp] theorem Dev.setGate_free (d : Dev) (n : Nat) (l : Gate) : (d.setGate n l).free = d.free := rfl
@[simp] theorem Dev.setGate_ring (d : Dev) (n : Nat) (l : Gate) : (d.setGate n l).ring = d.ring := rfl
@[simp] theorem Dev.setGate_copies (d : Dev) (n : Nat) (l : Gate) : (d.setGate n l).copies = d.copies := rfl
@[simp] theorem Dev.setGate_leaves (d : Dev) (n : Nat) (l : Gate) : (d.setGate n l).leaves = d.leaves := rfl
@[simp] theorem Dev.setGate_lees (d : Dev) (n : Nat) (l : Gate) : (d.setGate n l).lees = d.lees := rfl
@[simp] theorem Dev.setGate_groups (d : Dev) (n : Nat) (l : Gate) : (d.setGate n l).groups = d.groups := rfl
@[simp] theorem Dev.setGate_boughs (d : Dev) (n : Nat) (l : Gate) : (d.setGate n l).boughs = d.boughs := rfl
@[simp] theorem Dev.setGate_homes (d : Dev) (n : Nat) (l : Gate) : (d.setGate n l).homes = d.homes := rfl
@[simp] theorem Dev.setGate_evc (d : Dev) (n : Nat) (l : Gate) : (d.setGate n l).evc = d.evc := rfl
@[simp] theorem Dev.setGate_evcBusy (d : Dev) (n : Nat) (l : Gate) : (d.setGate n l).evcBusy = d.evcBusy := rfl
@[simp] theorem Dev.setGate_evAcc (d : Dev) (n : Nat) (l : Gate) : (d.setGate n l).evAcc = d.evAcc := rfl
@[simp] theorem Dev.setGate_pulse (d : Dev) (n : Nat) (l : Gate) : (d.setGate n l).pulse = d.pulse := rfl
@[simp] theorem Dev.setGate_firewall (d : Dev) (n : Nat) (l : Gate) : (d.setGate n l).firewall = d.firewall := rfl
@[simp] theorem Dev.setGate_remoteSends (d : Dev) (n : Nat) (l : Gate) : (d.setGate n l).remoteSends = d.remoteSends := rfl
@[simp] theorem Dev.setGate_lateTags (d : Dev) (n : Nat) (l : Gate) : (d.setGate n l).lateTags = d.lateTags := rfl
@[simp] theorem Dev.setGate_channels (d : Dev) (n : Nat) (l : Gate) : (d.setGate n l).channels = d.channels := rfl
@[simp] theorem Dev.setGate_cxl (d : Dev) (n : Nat) (l : Gate) : (d.setGate n l).cxl = d.cxl := rfl
@[simp] theorem Dev.setGate_grafts (d : Dev) (n : Nat) (l : Gate) : (d.setGate n l).grafts = d.grafts := rfl
@[simp] theorem Dev.setGate_spans (d : Dev) (n : Nat) (l : Gate) : (d.setGate n l).spans = d.spans := rfl
@[simp] theorem Dev.setGate_copyState (d : Dev) (n : Nat) (l : Gate) : (d.setGate n l).copyState = d.copyState := rfl
@[simp] theorem Dev.setGate_master (d : Dev) (n : Nat) (l : Gate) : (d.setGate n l).master = d.master := rfl
@[simp] theorem Dev.setGate_packers (d : Dev) (n : Nat) (l : Gate) : (d.setGate n l).packers = d.packers := rfl
@[simp] theorem Dev.setGate_trace (d : Dev) (n : Nat) (l : Gate) : (d.setGate n l).trace = d.trace := rfl
@[simp] theorem Dev.setGate_power (d : Dev) (n : Nat) (l : Gate) : (d.setGate n l).power = d.power := rfl
@[simp] theorem Dev.setGate_ttu (d : Dev) (n : Nat) (l : Gate) : (d.setGate n l).ttu = d.ttu := rfl
@[simp] theorem Dev.setGate_hio (d : Dev) (n : Nat) (l : Gate) : (d.setGate n l).hio = d.hio := rfl
@[simp] theorem Dev.setGate_flash (d : Dev) (n : Nat) (l : Gate) : (d.setGate n l).flash = d.flash := rfl
@[simp] theorem Dev.setGate_bulk (d : Dev) (n : Nat) (l : Gate) : (d.setGate n l).bulk = d.bulk := rfl
@[simp] theorem Dev.setGate_fuse (d : Dev) (n : Nat) (l : Gate) : (d.setGate n l).fuse = d.fuse := rfl
@[simp] theorem Dev.setGate_nvm (d : Dev) (n : Nat) (l : Gate) : (d.setGate n l).nvm = d.nvm := rfl
@[simp] theorem Dev.setGate_mgmt (d : Dev) (n : Nat) (l : Gate) : (d.setGate n l).mgmt = d.mgmt := rfl
@[simp] theorem Dev.setGate_board (d : Dev) (n : Nat) (l : Gate) : (d.setGate n l).board = d.board := rfl
@[simp] theorem Dev.setGate_tap (d : Dev) (n : Nat) (l : Gate) : (d.setGate n l).tap = d.tap := rfl
@[simp] theorem Dev.setGate_answer (d : Dev) (n : Nat) (l : Gate) : (d.setGate n l).answer = d.answer := rfl

/-! ### setChannel -/

@[simp] theorem Dev.setChannel_regs (d : Dev) (n : Nat) (l : MemCh) : (d.setChannel n l).regs = d.regs := rfl
@[simp] theorem Dev.setChannel_mem (d : Dev) (n : Nat) (l : MemCh) : (d.setChannel n l).mem = d.mem := rfl
@[simp] theorem Dev.setChannel_poison (d : Dev) (n : Nat) (l : MemCh) : (d.setChannel n l).poison = d.poison := rfl
@[simp] theorem Dev.setChannel_wire (d : Dev) (n : Nat) (l : MemCh) : (d.setChannel n l).wire = d.wire := rfl
@[simp] theorem Dev.setChannel_resp (d : Dev) (n : Nat) (l : MemCh) : (d.setChannel n l).resp = d.resp := rfl
@[simp] theorem Dev.setChannel_free (d : Dev) (n : Nat) (l : MemCh) : (d.setChannel n l).free = d.free := rfl
@[simp] theorem Dev.setChannel_ring (d : Dev) (n : Nat) (l : MemCh) : (d.setChannel n l).ring = d.ring := rfl
@[simp] theorem Dev.setChannel_copies (d : Dev) (n : Nat) (l : MemCh) : (d.setChannel n l).copies = d.copies := rfl
@[simp] theorem Dev.setChannel_leaves (d : Dev) (n : Nat) (l : MemCh) : (d.setChannel n l).leaves = d.leaves := rfl
@[simp] theorem Dev.setChannel_lees (d : Dev) (n : Nat) (l : MemCh) : (d.setChannel n l).lees = d.lees := rfl
@[simp] theorem Dev.setChannel_groups (d : Dev) (n : Nat) (l : MemCh) : (d.setChannel n l).groups = d.groups := rfl
@[simp] theorem Dev.setChannel_boughs (d : Dev) (n : Nat) (l : MemCh) : (d.setChannel n l).boughs = d.boughs := rfl
@[simp] theorem Dev.setChannel_homes (d : Dev) (n : Nat) (l : MemCh) : (d.setChannel n l).homes = d.homes := rfl
@[simp] theorem Dev.setChannel_fabric (d : Dev) (n : Nat) (l : MemCh) : (d.setChannel n l).fabric = d.fabric := rfl
@[simp] theorem Dev.setChannel_evc (d : Dev) (n : Nat) (l : MemCh) : (d.setChannel n l).evc = d.evc := rfl
@[simp] theorem Dev.setChannel_evcBusy (d : Dev) (n : Nat) (l : MemCh) : (d.setChannel n l).evcBusy = d.evcBusy := rfl
@[simp] theorem Dev.setChannel_evAcc (d : Dev) (n : Nat) (l : MemCh) : (d.setChannel n l).evAcc = d.evAcc := rfl
@[simp] theorem Dev.setChannel_pulse (d : Dev) (n : Nat) (l : MemCh) : (d.setChannel n l).pulse = d.pulse := rfl
@[simp] theorem Dev.setChannel_firewall (d : Dev) (n : Nat) (l : MemCh) : (d.setChannel n l).firewall = d.firewall := rfl
@[simp] theorem Dev.setChannel_remoteSends (d : Dev) (n : Nat) (l : MemCh) : (d.setChannel n l).remoteSends = d.remoteSends := rfl
@[simp] theorem Dev.setChannel_lateTags (d : Dev) (n : Nat) (l : MemCh) : (d.setChannel n l).lateTags = d.lateTags := rfl
@[simp] theorem Dev.setChannel_cxl (d : Dev) (n : Nat) (l : MemCh) : (d.setChannel n l).cxl = d.cxl := rfl
@[simp] theorem Dev.setChannel_grafts (d : Dev) (n : Nat) (l : MemCh) : (d.setChannel n l).grafts = d.grafts := rfl
@[simp] theorem Dev.setChannel_spans (d : Dev) (n : Nat) (l : MemCh) : (d.setChannel n l).spans = d.spans := rfl
@[simp] theorem Dev.setChannel_copyState (d : Dev) (n : Nat) (l : MemCh) : (d.setChannel n l).copyState = d.copyState := rfl
@[simp] theorem Dev.setChannel_master (d : Dev) (n : Nat) (l : MemCh) : (d.setChannel n l).master = d.master := rfl
@[simp] theorem Dev.setChannel_packers (d : Dev) (n : Nat) (l : MemCh) : (d.setChannel n l).packers = d.packers := rfl
@[simp] theorem Dev.setChannel_trace (d : Dev) (n : Nat) (l : MemCh) : (d.setChannel n l).trace = d.trace := rfl
@[simp] theorem Dev.setChannel_power (d : Dev) (n : Nat) (l : MemCh) : (d.setChannel n l).power = d.power := rfl
@[simp] theorem Dev.setChannel_ttu (d : Dev) (n : Nat) (l : MemCh) : (d.setChannel n l).ttu = d.ttu := rfl
@[simp] theorem Dev.setChannel_hio (d : Dev) (n : Nat) (l : MemCh) : (d.setChannel n l).hio = d.hio := rfl
@[simp] theorem Dev.setChannel_flash (d : Dev) (n : Nat) (l : MemCh) : (d.setChannel n l).flash = d.flash := rfl
@[simp] theorem Dev.setChannel_bulk (d : Dev) (n : Nat) (l : MemCh) : (d.setChannel n l).bulk = d.bulk := rfl
@[simp] theorem Dev.setChannel_fuse (d : Dev) (n : Nat) (l : MemCh) : (d.setChannel n l).fuse = d.fuse := rfl
@[simp] theorem Dev.setChannel_nvm (d : Dev) (n : Nat) (l : MemCh) : (d.setChannel n l).nvm = d.nvm := rfl
@[simp] theorem Dev.setChannel_mgmt (d : Dev) (n : Nat) (l : MemCh) : (d.setChannel n l).mgmt = d.mgmt := rfl
@[simp] theorem Dev.setChannel_board (d : Dev) (n : Nat) (l : MemCh) : (d.setChannel n l).board = d.board := rfl
@[simp] theorem Dev.setChannel_tap (d : Dev) (n : Nat) (l : MemCh) : (d.setChannel n l).tap = d.tap := rfl
@[simp] theorem Dev.setChannel_answer (d : Dev) (n : Nat) (l : MemCh) : (d.setChannel n l).answer = d.answer := rfl

/-! ### setCopy -/

@[simp] theorem Dev.setCopy_regs (d : Dev) (n : Nat) (t : Word) : (d.setCopy n t).regs = d.regs := rfl
@[simp] theorem Dev.setCopy_mem (d : Dev) (n : Nat) (t : Word) : (d.setCopy n t).mem = d.mem := rfl
@[simp] theorem Dev.setCopy_poison (d : Dev) (n : Nat) (t : Word) : (d.setCopy n t).poison = d.poison := rfl
@[simp] theorem Dev.setCopy_wire (d : Dev) (n : Nat) (t : Word) : (d.setCopy n t).wire = d.wire := rfl
@[simp] theorem Dev.setCopy_resp (d : Dev) (n : Nat) (t : Word) : (d.setCopy n t).resp = d.resp := rfl
@[simp] theorem Dev.setCopy_free (d : Dev) (n : Nat) (t : Word) : (d.setCopy n t).free = d.free := rfl
@[simp] theorem Dev.setCopy_ring (d : Dev) (n : Nat) (t : Word) : (d.setCopy n t).ring = d.ring := rfl
@[simp] theorem Dev.setCopy_leaves (d : Dev) (n : Nat) (t : Word) : (d.setCopy n t).leaves = d.leaves := rfl
@[simp] theorem Dev.setCopy_lees (d : Dev) (n : Nat) (t : Word) : (d.setCopy n t).lees = d.lees := rfl
@[simp] theorem Dev.setCopy_groups (d : Dev) (n : Nat) (t : Word) : (d.setCopy n t).groups = d.groups := rfl
@[simp] theorem Dev.setCopy_boughs (d : Dev) (n : Nat) (t : Word) : (d.setCopy n t).boughs = d.boughs := rfl
@[simp] theorem Dev.setCopy_homes (d : Dev) (n : Nat) (t : Word) : (d.setCopy n t).homes = d.homes := rfl
@[simp] theorem Dev.setCopy_fabric (d : Dev) (n : Nat) (t : Word) : (d.setCopy n t).fabric = d.fabric := rfl
@[simp] theorem Dev.setCopy_evc (d : Dev) (n : Nat) (t : Word) : (d.setCopy n t).evc = d.evc := rfl
@[simp] theorem Dev.setCopy_evcBusy (d : Dev) (n : Nat) (t : Word) : (d.setCopy n t).evcBusy = d.evcBusy := rfl
@[simp] theorem Dev.setCopy_evAcc (d : Dev) (n : Nat) (t : Word) : (d.setCopy n t).evAcc = d.evAcc := rfl
@[simp] theorem Dev.setCopy_pulse (d : Dev) (n : Nat) (t : Word) : (d.setCopy n t).pulse = d.pulse := rfl
@[simp] theorem Dev.setCopy_firewall (d : Dev) (n : Nat) (t : Word) : (d.setCopy n t).firewall = d.firewall := rfl
@[simp] theorem Dev.setCopy_remoteSends (d : Dev) (n : Nat) (t : Word) : (d.setCopy n t).remoteSends = d.remoteSends := rfl
@[simp] theorem Dev.setCopy_lateTags (d : Dev) (n : Nat) (t : Word) : (d.setCopy n t).lateTags = d.lateTags := rfl
@[simp] theorem Dev.setCopy_channels (d : Dev) (n : Nat) (t : Word) : (d.setCopy n t).channels = d.channels := rfl
@[simp] theorem Dev.setCopy_cxl (d : Dev) (n : Nat) (t : Word) : (d.setCopy n t).cxl = d.cxl := rfl
@[simp] theorem Dev.setCopy_grafts (d : Dev) (n : Nat) (t : Word) : (d.setCopy n t).grafts = d.grafts := rfl
@[simp] theorem Dev.setCopy_spans (d : Dev) (n : Nat) (t : Word) : (d.setCopy n t).spans = d.spans := rfl
@[simp] theorem Dev.setCopy_copyState (d : Dev) (n : Nat) (t : Word) : (d.setCopy n t).copyState = d.copyState := rfl
@[simp] theorem Dev.setCopy_master (d : Dev) (n : Nat) (t : Word) : (d.setCopy n t).master = d.master := rfl
@[simp] theorem Dev.setCopy_packers (d : Dev) (n : Nat) (t : Word) : (d.setCopy n t).packers = d.packers := rfl
@[simp] theorem Dev.setCopy_trace (d : Dev) (n : Nat) (t : Word) : (d.setCopy n t).trace = d.trace := rfl
@[simp] theorem Dev.setCopy_power (d : Dev) (n : Nat) (t : Word) : (d.setCopy n t).power = d.power := rfl
@[simp] theorem Dev.setCopy_ttu (d : Dev) (n : Nat) (t : Word) : (d.setCopy n t).ttu = d.ttu := rfl
@[simp] theorem Dev.setCopy_hio (d : Dev) (n : Nat) (t : Word) : (d.setCopy n t).hio = d.hio := rfl
@[simp] theorem Dev.setCopy_flash (d : Dev) (n : Nat) (t : Word) : (d.setCopy n t).flash = d.flash := rfl
@[simp] theorem Dev.setCopy_bulk (d : Dev) (n : Nat) (t : Word) : (d.setCopy n t).bulk = d.bulk := rfl
@[simp] theorem Dev.setCopy_fuse (d : Dev) (n : Nat) (t : Word) : (d.setCopy n t).fuse = d.fuse := rfl
@[simp] theorem Dev.setCopy_nvm (d : Dev) (n : Nat) (t : Word) : (d.setCopy n t).nvm = d.nvm := rfl
@[simp] theorem Dev.setCopy_mgmt (d : Dev) (n : Nat) (t : Word) : (d.setCopy n t).mgmt = d.mgmt := rfl
@[simp] theorem Dev.setCopy_board (d : Dev) (n : Nat) (t : Word) : (d.setCopy n t).board = d.board := rfl
@[simp] theorem Dev.setCopy_tap (d : Dev) (n : Nat) (t : Word) : (d.setCopy n t).tap = d.tap := rfl
@[simp] theorem Dev.setCopy_answer (d : Dev) (n : Nat) (t : Word) : (d.setCopy n t).answer = d.answer := rfl

/-! ### setByte -/

@[simp] theorem Dev.setByte_regs (d : Dev) (a : Nat) (b : Byte) : (d.setByte a b).regs = d.regs := rfl
@[simp] theorem Dev.setByte_poison (d : Dev) (a : Nat) (b : Byte) : (d.setByte a b).poison = d.poison := rfl
@[simp] theorem Dev.setByte_wire (d : Dev) (a : Nat) (b : Byte) : (d.setByte a b).wire = d.wire := rfl
@[simp] theorem Dev.setByte_resp (d : Dev) (a : Nat) (b : Byte) : (d.setByte a b).resp = d.resp := rfl
@[simp] theorem Dev.setByte_free (d : Dev) (a : Nat) (b : Byte) : (d.setByte a b).free = d.free := rfl
@[simp] theorem Dev.setByte_ring (d : Dev) (a : Nat) (b : Byte) : (d.setByte a b).ring = d.ring := rfl
@[simp] theorem Dev.setByte_copies (d : Dev) (a : Nat) (b : Byte) : (d.setByte a b).copies = d.copies := rfl
@[simp] theorem Dev.setByte_leaves (d : Dev) (a : Nat) (b : Byte) : (d.setByte a b).leaves = d.leaves := rfl
@[simp] theorem Dev.setByte_lees (d : Dev) (a : Nat) (b : Byte) : (d.setByte a b).lees = d.lees := rfl
@[simp] theorem Dev.setByte_groups (d : Dev) (a : Nat) (b : Byte) : (d.setByte a b).groups = d.groups := rfl
@[simp] theorem Dev.setByte_boughs (d : Dev) (a : Nat) (b : Byte) : (d.setByte a b).boughs = d.boughs := rfl
@[simp] theorem Dev.setByte_homes (d : Dev) (a : Nat) (b : Byte) : (d.setByte a b).homes = d.homes := rfl
@[simp] theorem Dev.setByte_fabric (d : Dev) (a : Nat) (b : Byte) : (d.setByte a b).fabric = d.fabric := rfl
@[simp] theorem Dev.setByte_evc (d : Dev) (a : Nat) (b : Byte) : (d.setByte a b).evc = d.evc := rfl
@[simp] theorem Dev.setByte_evcBusy (d : Dev) (a : Nat) (b : Byte) : (d.setByte a b).evcBusy = d.evcBusy := rfl
@[simp] theorem Dev.setByte_evAcc (d : Dev) (a : Nat) (b : Byte) : (d.setByte a b).evAcc = d.evAcc := rfl
@[simp] theorem Dev.setByte_pulse (d : Dev) (a : Nat) (b : Byte) : (d.setByte a b).pulse = d.pulse := rfl
@[simp] theorem Dev.setByte_firewall (d : Dev) (a : Nat) (b : Byte) : (d.setByte a b).firewall = d.firewall := rfl
@[simp] theorem Dev.setByte_remoteSends (d : Dev) (a : Nat) (b : Byte) : (d.setByte a b).remoteSends = d.remoteSends := rfl
@[simp] theorem Dev.setByte_lateTags (d : Dev) (a : Nat) (b : Byte) : (d.setByte a b).lateTags = d.lateTags := rfl
@[simp] theorem Dev.setByte_channels (d : Dev) (a : Nat) (b : Byte) : (d.setByte a b).channels = d.channels := rfl
@[simp] theorem Dev.setByte_cxl (d : Dev) (a : Nat) (b : Byte) : (d.setByte a b).cxl = d.cxl := rfl
@[simp] theorem Dev.setByte_grafts (d : Dev) (a : Nat) (b : Byte) : (d.setByte a b).grafts = d.grafts := rfl
@[simp] theorem Dev.setByte_spans (d : Dev) (a : Nat) (b : Byte) : (d.setByte a b).spans = d.spans := rfl
@[simp] theorem Dev.setByte_copyState (d : Dev) (a : Nat) (b : Byte) : (d.setByte a b).copyState = d.copyState := rfl
@[simp] theorem Dev.setByte_master (d : Dev) (a : Nat) (b : Byte) : (d.setByte a b).master = d.master := rfl
@[simp] theorem Dev.setByte_packers (d : Dev) (a : Nat) (b : Byte) : (d.setByte a b).packers = d.packers := rfl
@[simp] theorem Dev.setByte_trace (d : Dev) (a : Nat) (b : Byte) : (d.setByte a b).trace = d.trace := rfl
@[simp] theorem Dev.setByte_power (d : Dev) (a : Nat) (b : Byte) : (d.setByte a b).power = d.power := rfl
@[simp] theorem Dev.setByte_ttu (d : Dev) (a : Nat) (b : Byte) : (d.setByte a b).ttu = d.ttu := rfl
@[simp] theorem Dev.setByte_hio (d : Dev) (a : Nat) (b : Byte) : (d.setByte a b).hio = d.hio := rfl
@[simp] theorem Dev.setByte_flash (d : Dev) (a : Nat) (b : Byte) : (d.setByte a b).flash = d.flash := rfl
@[simp] theorem Dev.setByte_bulk (d : Dev) (a : Nat) (b : Byte) : (d.setByte a b).bulk = d.bulk := rfl
@[simp] theorem Dev.setByte_fuse (d : Dev) (a : Nat) (b : Byte) : (d.setByte a b).fuse = d.fuse := rfl
@[simp] theorem Dev.setByte_nvm (d : Dev) (a : Nat) (b : Byte) : (d.setByte a b).nvm = d.nvm := rfl
@[simp] theorem Dev.setByte_mgmt (d : Dev) (a : Nat) (b : Byte) : (d.setByte a b).mgmt = d.mgmt := rfl
@[simp] theorem Dev.setByte_board (d : Dev) (a : Nat) (b : Byte) : (d.setByte a b).board = d.board := rfl
@[simp] theorem Dev.setByte_tap (d : Dev) (a : Nat) (b : Byte) : (d.setByte a b).tap = d.tap := rfl
@[simp] theorem Dev.setByte_answer (d : Dev) (a : Nat) (b : Byte) : (d.setByte a b).answer = d.answer := rfl

/-! ### modBulk -/

@[simp] theorem Dev.modBulk_regs (d : Dev) (f : Bulk → Bulk) : (d.modBulk f).regs = d.regs := rfl
@[simp] theorem Dev.modBulk_mem (d : Dev) (f : Bulk → Bulk) : (d.modBulk f).mem = d.mem := rfl
@[simp] theorem Dev.modBulk_poison (d : Dev) (f : Bulk → Bulk) : (d.modBulk f).poison = d.poison := rfl
@[simp] theorem Dev.modBulk_wire (d : Dev) (f : Bulk → Bulk) : (d.modBulk f).wire = d.wire := rfl
@[simp] theorem Dev.modBulk_resp (d : Dev) (f : Bulk → Bulk) : (d.modBulk f).resp = d.resp := rfl
@[simp] theorem Dev.modBulk_free (d : Dev) (f : Bulk → Bulk) : (d.modBulk f).free = d.free := rfl
@[simp] theorem Dev.modBulk_ring (d : Dev) (f : Bulk → Bulk) : (d.modBulk f).ring = d.ring := rfl
@[simp] theorem Dev.modBulk_copies (d : Dev) (f : Bulk → Bulk) : (d.modBulk f).copies = d.copies := rfl
@[simp] theorem Dev.modBulk_leaves (d : Dev) (f : Bulk → Bulk) : (d.modBulk f).leaves = d.leaves := rfl
@[simp] theorem Dev.modBulk_lees (d : Dev) (f : Bulk → Bulk) : (d.modBulk f).lees = d.lees := rfl
@[simp] theorem Dev.modBulk_groups (d : Dev) (f : Bulk → Bulk) : (d.modBulk f).groups = d.groups := rfl
@[simp] theorem Dev.modBulk_boughs (d : Dev) (f : Bulk → Bulk) : (d.modBulk f).boughs = d.boughs := rfl
@[simp] theorem Dev.modBulk_homes (d : Dev) (f : Bulk → Bulk) : (d.modBulk f).homes = d.homes := rfl
@[simp] theorem Dev.modBulk_fabric (d : Dev) (f : Bulk → Bulk) : (d.modBulk f).fabric = d.fabric := rfl
@[simp] theorem Dev.modBulk_evc (d : Dev) (f : Bulk → Bulk) : (d.modBulk f).evc = d.evc := rfl
@[simp] theorem Dev.modBulk_evcBusy (d : Dev) (f : Bulk → Bulk) : (d.modBulk f).evcBusy = d.evcBusy := rfl
@[simp] theorem Dev.modBulk_evAcc (d : Dev) (f : Bulk → Bulk) : (d.modBulk f).evAcc = d.evAcc := rfl
@[simp] theorem Dev.modBulk_pulse (d : Dev) (f : Bulk → Bulk) : (d.modBulk f).pulse = d.pulse := rfl
@[simp] theorem Dev.modBulk_firewall (d : Dev) (f : Bulk → Bulk) : (d.modBulk f).firewall = d.firewall := rfl
@[simp] theorem Dev.modBulk_remoteSends (d : Dev) (f : Bulk → Bulk) : (d.modBulk f).remoteSends = d.remoteSends := rfl
@[simp] theorem Dev.modBulk_lateTags (d : Dev) (f : Bulk → Bulk) : (d.modBulk f).lateTags = d.lateTags := rfl
@[simp] theorem Dev.modBulk_channels (d : Dev) (f : Bulk → Bulk) : (d.modBulk f).channels = d.channels := rfl
@[simp] theorem Dev.modBulk_cxl (d : Dev) (f : Bulk → Bulk) : (d.modBulk f).cxl = d.cxl := rfl
@[simp] theorem Dev.modBulk_grafts (d : Dev) (f : Bulk → Bulk) : (d.modBulk f).grafts = d.grafts := rfl
@[simp] theorem Dev.modBulk_spans (d : Dev) (f : Bulk → Bulk) : (d.modBulk f).spans = d.spans := rfl
@[simp] theorem Dev.modBulk_copyState (d : Dev) (f : Bulk → Bulk) : (d.modBulk f).copyState = d.copyState := rfl
@[simp] theorem Dev.modBulk_master (d : Dev) (f : Bulk → Bulk) : (d.modBulk f).master = d.master := rfl
@[simp] theorem Dev.modBulk_packers (d : Dev) (f : Bulk → Bulk) : (d.modBulk f).packers = d.packers := rfl
@[simp] theorem Dev.modBulk_trace (d : Dev) (f : Bulk → Bulk) : (d.modBulk f).trace = d.trace := rfl
@[simp] theorem Dev.modBulk_power (d : Dev) (f : Bulk → Bulk) : (d.modBulk f).power = d.power := rfl
@[simp] theorem Dev.modBulk_ttu (d : Dev) (f : Bulk → Bulk) : (d.modBulk f).ttu = d.ttu := rfl
@[simp] theorem Dev.modBulk_hio (d : Dev) (f : Bulk → Bulk) : (d.modBulk f).hio = d.hio := rfl
@[simp] theorem Dev.modBulk_flash (d : Dev) (f : Bulk → Bulk) : (d.modBulk f).flash = d.flash := rfl
@[simp] theorem Dev.modBulk_fuse (d : Dev) (f : Bulk → Bulk) : (d.modBulk f).fuse = d.fuse := rfl
@[simp] theorem Dev.modBulk_nvm (d : Dev) (f : Bulk → Bulk) : (d.modBulk f).nvm = d.nvm := rfl
@[simp] theorem Dev.modBulk_mgmt (d : Dev) (f : Bulk → Bulk) : (d.modBulk f).mgmt = d.mgmt := rfl
@[simp] theorem Dev.modBulk_board (d : Dev) (f : Bulk → Bulk) : (d.modBulk f).board = d.board := rfl
@[simp] theorem Dev.modBulk_tap (d : Dev) (f : Bulk → Bulk) : (d.modBulk f).tap = d.tap := rfl
@[simp] theorem Dev.modBulk_answer (d : Dev) (f : Bulk → Bulk) : (d.modBulk f).answer = d.answer := rfl

/-! ### modFabric -/

@[simp] theorem Dev.modFabric_regs (d : Dev) (f : Fabric → Fabric) : (d.modFabric f).regs = d.regs := rfl
@[simp] theorem Dev.modFabric_mem (d : Dev) (f : Fabric → Fabric) : (d.modFabric f).mem = d.mem := rfl
@[simp] theorem Dev.modFabric_poison (d : Dev) (f : Fabric → Fabric) : (d.modFabric f).poison = d.poison := rfl
@[simp] theorem Dev.modFabric_wire (d : Dev) (f : Fabric → Fabric) : (d.modFabric f).wire = d.wire := rfl
@[simp] theorem Dev.modFabric_resp (d : Dev) (f : Fabric → Fabric) : (d.modFabric f).resp = d.resp := rfl
@[simp] theorem Dev.modFabric_free (d : Dev) (f : Fabric → Fabric) : (d.modFabric f).free = d.free := rfl
@[simp] theorem Dev.modFabric_ring (d : Dev) (f : Fabric → Fabric) : (d.modFabric f).ring = d.ring := rfl
@[simp] theorem Dev.modFabric_copies (d : Dev) (f : Fabric → Fabric) : (d.modFabric f).copies = d.copies := rfl
@[simp] theorem Dev.modFabric_leaves (d : Dev) (f : Fabric → Fabric) : (d.modFabric f).leaves = d.leaves := rfl
@[simp] theorem Dev.modFabric_lees (d : Dev) (f : Fabric → Fabric) : (d.modFabric f).lees = d.lees := rfl
@[simp] theorem Dev.modFabric_groups (d : Dev) (f : Fabric → Fabric) : (d.modFabric f).groups = d.groups := rfl
@[simp] theorem Dev.modFabric_boughs (d : Dev) (f : Fabric → Fabric) : (d.modFabric f).boughs = d.boughs := rfl
@[simp] theorem Dev.modFabric_homes (d : Dev) (f : Fabric → Fabric) : (d.modFabric f).homes = d.homes := rfl
@[simp] theorem Dev.modFabric_evc (d : Dev) (f : Fabric → Fabric) : (d.modFabric f).evc = d.evc := rfl
@[simp] theorem Dev.modFabric_evcBusy (d : Dev) (f : Fabric → Fabric) : (d.modFabric f).evcBusy = d.evcBusy := rfl
@[simp] theorem Dev.modFabric_evAcc (d : Dev) (f : Fabric → Fabric) : (d.modFabric f).evAcc = d.evAcc := rfl
@[simp] theorem Dev.modFabric_pulse (d : Dev) (f : Fabric → Fabric) : (d.modFabric f).pulse = d.pulse := rfl
@[simp] theorem Dev.modFabric_firewall (d : Dev) (f : Fabric → Fabric) : (d.modFabric f).firewall = d.firewall := rfl
@[simp] theorem Dev.modFabric_remoteSends (d : Dev) (f : Fabric → Fabric) : (d.modFabric f).remoteSends = d.remoteSends := rfl
@[simp] theorem Dev.modFabric_lateTags (d : Dev) (f : Fabric → Fabric) : (d.modFabric f).lateTags = d.lateTags := rfl
@[simp] theorem Dev.modFabric_channels (d : Dev) (f : Fabric → Fabric) : (d.modFabric f).channels = d.channels := rfl
@[simp] theorem Dev.modFabric_cxl (d : Dev) (f : Fabric → Fabric) : (d.modFabric f).cxl = d.cxl := rfl
@[simp] theorem Dev.modFabric_grafts (d : Dev) (f : Fabric → Fabric) : (d.modFabric f).grafts = d.grafts := rfl
@[simp] theorem Dev.modFabric_spans (d : Dev) (f : Fabric → Fabric) : (d.modFabric f).spans = d.spans := rfl
@[simp] theorem Dev.modFabric_copyState (d : Dev) (f : Fabric → Fabric) : (d.modFabric f).copyState = d.copyState := rfl
@[simp] theorem Dev.modFabric_master (d : Dev) (f : Fabric → Fabric) : (d.modFabric f).master = d.master := rfl
@[simp] theorem Dev.modFabric_packers (d : Dev) (f : Fabric → Fabric) : (d.modFabric f).packers = d.packers := rfl
@[simp] theorem Dev.modFabric_trace (d : Dev) (f : Fabric → Fabric) : (d.modFabric f).trace = d.trace := rfl
@[simp] theorem Dev.modFabric_power (d : Dev) (f : Fabric → Fabric) : (d.modFabric f).power = d.power := rfl
@[simp] theorem Dev.modFabric_ttu (d : Dev) (f : Fabric → Fabric) : (d.modFabric f).ttu = d.ttu := rfl
@[simp] theorem Dev.modFabric_hio (d : Dev) (f : Fabric → Fabric) : (d.modFabric f).hio = d.hio := rfl
@[simp] theorem Dev.modFabric_flash (d : Dev) (f : Fabric → Fabric) : (d.modFabric f).flash = d.flash := rfl
@[simp] theorem Dev.modFabric_bulk (d : Dev) (f : Fabric → Fabric) : (d.modFabric f).bulk = d.bulk := rfl
@[simp] theorem Dev.modFabric_fuse (d : Dev) (f : Fabric → Fabric) : (d.modFabric f).fuse = d.fuse := rfl
@[simp] theorem Dev.modFabric_nvm (d : Dev) (f : Fabric → Fabric) : (d.modFabric f).nvm = d.nvm := rfl
@[simp] theorem Dev.modFabric_mgmt (d : Dev) (f : Fabric → Fabric) : (d.modFabric f).mgmt = d.mgmt := rfl
@[simp] theorem Dev.modFabric_board (d : Dev) (f : Fabric → Fabric) : (d.modFabric f).board = d.board := rfl
@[simp] theorem Dev.modFabric_tap (d : Dev) (f : Fabric → Fabric) : (d.modFabric f).tap = d.tap := rfl
@[simp] theorem Dev.modFabric_answer (d : Dev) (f : Fabric → Fabric) : (d.modFabric f).answer = d.answer := rfl

/-! ### modSide -/

@[simp] theorem Dev.modSide_regs (d : Dev) (g : GraftEnd) (f : GraftSide → GraftSide) : (d.modSide g f).regs = d.regs := rfl
@[simp] theorem Dev.modSide_mem (d : Dev) (g : GraftEnd) (f : GraftSide → GraftSide) : (d.modSide g f).mem = d.mem := rfl
@[simp] theorem Dev.modSide_poison (d : Dev) (g : GraftEnd) (f : GraftSide → GraftSide) : (d.modSide g f).poison = d.poison := rfl
@[simp] theorem Dev.modSide_wire (d : Dev) (g : GraftEnd) (f : GraftSide → GraftSide) : (d.modSide g f).wire = d.wire := rfl
@[simp] theorem Dev.modSide_resp (d : Dev) (g : GraftEnd) (f : GraftSide → GraftSide) : (d.modSide g f).resp = d.resp := rfl
@[simp] theorem Dev.modSide_free (d : Dev) (g : GraftEnd) (f : GraftSide → GraftSide) : (d.modSide g f).free = d.free := rfl
@[simp] theorem Dev.modSide_ring (d : Dev) (g : GraftEnd) (f : GraftSide → GraftSide) : (d.modSide g f).ring = d.ring := rfl
@[simp] theorem Dev.modSide_copies (d : Dev) (g : GraftEnd) (f : GraftSide → GraftSide) : (d.modSide g f).copies = d.copies := rfl
@[simp] theorem Dev.modSide_leaves (d : Dev) (g : GraftEnd) (f : GraftSide → GraftSide) : (d.modSide g f).leaves = d.leaves := rfl
@[simp] theorem Dev.modSide_lees (d : Dev) (g : GraftEnd) (f : GraftSide → GraftSide) : (d.modSide g f).lees = d.lees := rfl
@[simp] theorem Dev.modSide_groups (d : Dev) (g : GraftEnd) (f : GraftSide → GraftSide) : (d.modSide g f).groups = d.groups := rfl
@[simp] theorem Dev.modSide_boughs (d : Dev) (g : GraftEnd) (f : GraftSide → GraftSide) : (d.modSide g f).boughs = d.boughs := rfl
@[simp] theorem Dev.modSide_homes (d : Dev) (g : GraftEnd) (f : GraftSide → GraftSide) : (d.modSide g f).homes = d.homes := rfl
@[simp] theorem Dev.modSide_fabric (d : Dev) (g : GraftEnd) (f : GraftSide → GraftSide) : (d.modSide g f).fabric = d.fabric := rfl
@[simp] theorem Dev.modSide_evc (d : Dev) (g : GraftEnd) (f : GraftSide → GraftSide) : (d.modSide g f).evc = d.evc := rfl
@[simp] theorem Dev.modSide_evcBusy (d : Dev) (g : GraftEnd) (f : GraftSide → GraftSide) : (d.modSide g f).evcBusy = d.evcBusy := rfl
@[simp] theorem Dev.modSide_evAcc (d : Dev) (g : GraftEnd) (f : GraftSide → GraftSide) : (d.modSide g f).evAcc = d.evAcc := rfl
@[simp] theorem Dev.modSide_pulse (d : Dev) (g : GraftEnd) (f : GraftSide → GraftSide) : (d.modSide g f).pulse = d.pulse := rfl
@[simp] theorem Dev.modSide_firewall (d : Dev) (g : GraftEnd) (f : GraftSide → GraftSide) : (d.modSide g f).firewall = d.firewall := rfl
@[simp] theorem Dev.modSide_remoteSends (d : Dev) (g : GraftEnd) (f : GraftSide → GraftSide) : (d.modSide g f).remoteSends = d.remoteSends := rfl
@[simp] theorem Dev.modSide_lateTags (d : Dev) (g : GraftEnd) (f : GraftSide → GraftSide) : (d.modSide g f).lateTags = d.lateTags := rfl
@[simp] theorem Dev.modSide_channels (d : Dev) (g : GraftEnd) (f : GraftSide → GraftSide) : (d.modSide g f).channels = d.channels := rfl
@[simp] theorem Dev.modSide_cxl (d : Dev) (g : GraftEnd) (f : GraftSide → GraftSide) : (d.modSide g f).cxl = d.cxl := rfl
@[simp] theorem Dev.modSide_spans (d : Dev) (g : GraftEnd) (f : GraftSide → GraftSide) : (d.modSide g f).spans = d.spans := rfl
@[simp] theorem Dev.modSide_copyState (d : Dev) (g : GraftEnd) (f : GraftSide → GraftSide) : (d.modSide g f).copyState = d.copyState := rfl
@[simp] theorem Dev.modSide_master (d : Dev) (g : GraftEnd) (f : GraftSide → GraftSide) : (d.modSide g f).master = d.master := rfl
@[simp] theorem Dev.modSide_packers (d : Dev) (g : GraftEnd) (f : GraftSide → GraftSide) : (d.modSide g f).packers = d.packers := rfl
@[simp] theorem Dev.modSide_trace (d : Dev) (g : GraftEnd) (f : GraftSide → GraftSide) : (d.modSide g f).trace = d.trace := rfl
@[simp] theorem Dev.modSide_power (d : Dev) (g : GraftEnd) (f : GraftSide → GraftSide) : (d.modSide g f).power = d.power := rfl
@[simp] theorem Dev.modSide_ttu (d : Dev) (g : GraftEnd) (f : GraftSide → GraftSide) : (d.modSide g f).ttu = d.ttu := rfl
@[simp] theorem Dev.modSide_hio (d : Dev) (g : GraftEnd) (f : GraftSide → GraftSide) : (d.modSide g f).hio = d.hio := rfl
@[simp] theorem Dev.modSide_flash (d : Dev) (g : GraftEnd) (f : GraftSide → GraftSide) : (d.modSide g f).flash = d.flash := rfl
@[simp] theorem Dev.modSide_bulk (d : Dev) (g : GraftEnd) (f : GraftSide → GraftSide) : (d.modSide g f).bulk = d.bulk := rfl
@[simp] theorem Dev.modSide_fuse (d : Dev) (g : GraftEnd) (f : GraftSide → GraftSide) : (d.modSide g f).fuse = d.fuse := rfl
@[simp] theorem Dev.modSide_nvm (d : Dev) (g : GraftEnd) (f : GraftSide → GraftSide) : (d.modSide g f).nvm = d.nvm := rfl
@[simp] theorem Dev.modSide_mgmt (d : Dev) (g : GraftEnd) (f : GraftSide → GraftSide) : (d.modSide g f).mgmt = d.mgmt := rfl
@[simp] theorem Dev.modSide_board (d : Dev) (g : GraftEnd) (f : GraftSide → GraftSide) : (d.modSide g f).board = d.board := rfl
@[simp] theorem Dev.modSide_tap (d : Dev) (g : GraftEnd) (f : GraftSide → GraftSide) : (d.modSide g f).tap = d.tap := rfl
@[simp] theorem Dev.modSide_answer (d : Dev) (g : GraftEnd) (f : GraftSide → GraftSide) : (d.modSide g f).answer = d.answer := rfl

/-! ### modHome -/

@[simp] theorem Dev.modHome_regs (d : Dev) (q : Nat) (f : Home → Home) : (d.modHome q f).regs = d.regs := rfl
@[simp] theorem Dev.modHome_mem (d : Dev) (q : Nat) (f : Home → Home) : (d.modHome q f).mem = d.mem := rfl
@[simp] theorem Dev.modHome_poison (d : Dev) (q : Nat) (f : Home → Home) : (d.modHome q f).poison = d.poison := rfl
@[simp] theorem Dev.modHome_wire (d : Dev) (q : Nat) (f : Home → Home) : (d.modHome q f).wire = d.wire := rfl
@[simp] theorem Dev.modHome_resp (d : Dev) (q : Nat) (f : Home → Home) : (d.modHome q f).resp = d.resp := rfl
@[simp] theorem Dev.modHome_free (d : Dev) (q : Nat) (f : Home → Home) : (d.modHome q f).free = d.free := rfl
@[simp] theorem Dev.modHome_ring (d : Dev) (q : Nat) (f : Home → Home) : (d.modHome q f).ring = d.ring := rfl
@[simp] theorem Dev.modHome_copies (d : Dev) (q : Nat) (f : Home → Home) : (d.modHome q f).copies = d.copies := rfl
@[simp] theorem Dev.modHome_leaves (d : Dev) (q : Nat) (f : Home → Home) : (d.modHome q f).leaves = d.leaves := rfl
@[simp] theorem Dev.modHome_lees (d : Dev) (q : Nat) (f : Home → Home) : (d.modHome q f).lees = d.lees := rfl
@[simp] theorem Dev.modHome_groups (d : Dev) (q : Nat) (f : Home → Home) : (d.modHome q f).groups = d.groups := rfl
@[simp] theorem Dev.modHome_boughs (d : Dev) (q : Nat) (f : Home → Home) : (d.modHome q f).boughs = d.boughs := rfl
@[simp] theorem Dev.modHome_fabric (d : Dev) (q : Nat) (f : Home → Home) : (d.modHome q f).fabric = d.fabric := rfl
@[simp] theorem Dev.modHome_evc (d : Dev) (q : Nat) (f : Home → Home) : (d.modHome q f).evc = d.evc := rfl
@[simp] theorem Dev.modHome_evcBusy (d : Dev) (q : Nat) (f : Home → Home) : (d.modHome q f).evcBusy = d.evcBusy := rfl
@[simp] theorem Dev.modHome_evAcc (d : Dev) (q : Nat) (f : Home → Home) : (d.modHome q f).evAcc = d.evAcc := rfl
@[simp] theorem Dev.modHome_pulse (d : Dev) (q : Nat) (f : Home → Home) : (d.modHome q f).pulse = d.pulse := rfl
@[simp] theorem Dev.modHome_firewall (d : Dev) (q : Nat) (f : Home → Home) : (d.modHome q f).firewall = d.firewall := rfl
@[simp] theorem Dev.modHome_remoteSends (d : Dev) (q : Nat) (f : Home → Home) : (d.modHome q f).remoteSends = d.remoteSends := rfl
@[simp] theorem Dev.modHome_lateTags (d : Dev) (q : Nat) (f : Home → Home) : (d.modHome q f).lateTags = d.lateTags := rfl
@[simp] theorem Dev.modHome_channels (d : Dev) (q : Nat) (f : Home → Home) : (d.modHome q f).channels = d.channels := rfl
@[simp] theorem Dev.modHome_cxl (d : Dev) (q : Nat) (f : Home → Home) : (d.modHome q f).cxl = d.cxl := rfl
@[simp] theorem Dev.modHome_grafts (d : Dev) (q : Nat) (f : Home → Home) : (d.modHome q f).grafts = d.grafts := rfl
@[simp] theorem Dev.modHome_spans (d : Dev) (q : Nat) (f : Home → Home) : (d.modHome q f).spans = d.spans := rfl
@[simp] theorem Dev.modHome_copyState (d : Dev) (q : Nat) (f : Home → Home) : (d.modHome q f).copyState = d.copyState := rfl
@[simp] theorem Dev.modHome_master (d : Dev) (q : Nat) (f : Home → Home) : (d.modHome q f).master = d.master := rfl
@[simp] theorem Dev.modHome_packers (d : Dev) (q : Nat) (f : Home → Home) : (d.modHome q f).packers = d.packers := rfl
@[simp] theorem Dev.modHome_trace (d : Dev) (q : Nat) (f : Home → Home) : (d.modHome q f).trace = d.trace := rfl
@[simp] theorem Dev.modHome_power (d : Dev) (q : Nat) (f : Home → Home) : (d.modHome q f).power = d.power := rfl
@[simp] theorem Dev.modHome_ttu (d : Dev) (q : Nat) (f : Home → Home) : (d.modHome q f).ttu = d.ttu := rfl
@[simp] theorem Dev.modHome_hio (d : Dev) (q : Nat) (f : Home → Home) : (d.modHome q f).hio = d.hio := rfl
@[simp] theorem Dev.modHome_flash (d : Dev) (q : Nat) (f : Home → Home) : (d.modHome q f).flash = d.flash := rfl
@[simp] theorem Dev.modHome_bulk (d : Dev) (q : Nat) (f : Home → Home) : (d.modHome q f).bulk = d.bulk := rfl
@[simp] theorem Dev.modHome_fuse (d : Dev) (q : Nat) (f : Home → Home) : (d.modHome q f).fuse = d.fuse := rfl
@[simp] theorem Dev.modHome_nvm (d : Dev) (q : Nat) (f : Home → Home) : (d.modHome q f).nvm = d.nvm := rfl
@[simp] theorem Dev.modHome_mgmt (d : Dev) (q : Nat) (f : Home → Home) : (d.modHome q f).mgmt = d.mgmt := rfl
@[simp] theorem Dev.modHome_board (d : Dev) (q : Nat) (f : Home → Home) : (d.modHome q f).board = d.board := rfl
@[simp] theorem Dev.modHome_tap (d : Dev) (q : Nat) (f : Home → Home) : (d.modHome q f).tap = d.tap := rfl
@[simp] theorem Dev.modHome_answer (d : Dev) (q : Nat) (f : Home → Home) : (d.modHome q f).answer = d.answer := rfl

/-! ### modLeaf -/

@[simp] theorem Dev.modLeaf_regs (d : Dev) (n : Nat) (f : Leaf → Leaf) : (d.modLeaf n f).regs = d.regs := rfl
@[simp] theorem Dev.modLeaf_mem (d : Dev) (n : Nat) (f : Leaf → Leaf) : (d.modLeaf n f).mem = d.mem := rfl
@[simp] theorem Dev.modLeaf_poison (d : Dev) (n : Nat) (f : Leaf → Leaf) : (d.modLeaf n f).poison = d.poison := rfl
@[simp] theorem Dev.modLeaf_wire (d : Dev) (n : Nat) (f : Leaf → Leaf) : (d.modLeaf n f).wire = d.wire := rfl
@[simp] theorem Dev.modLeaf_resp (d : Dev) (n : Nat) (f : Leaf → Leaf) : (d.modLeaf n f).resp = d.resp := rfl
@[simp] theorem Dev.modLeaf_free (d : Dev) (n : Nat) (f : Leaf → Leaf) : (d.modLeaf n f).free = d.free := rfl
@[simp] theorem Dev.modLeaf_ring (d : Dev) (n : Nat) (f : Leaf → Leaf) : (d.modLeaf n f).ring = d.ring := rfl
@[simp] theorem Dev.modLeaf_copies (d : Dev) (n : Nat) (f : Leaf → Leaf) : (d.modLeaf n f).copies = d.copies := rfl
@[simp] theorem Dev.modLeaf_lees (d : Dev) (n : Nat) (f : Leaf → Leaf) : (d.modLeaf n f).lees = d.lees := rfl
@[simp] theorem Dev.modLeaf_groups (d : Dev) (n : Nat) (f : Leaf → Leaf) : (d.modLeaf n f).groups = d.groups := rfl
@[simp] theorem Dev.modLeaf_boughs (d : Dev) (n : Nat) (f : Leaf → Leaf) : (d.modLeaf n f).boughs = d.boughs := rfl
@[simp] theorem Dev.modLeaf_homes (d : Dev) (n : Nat) (f : Leaf → Leaf) : (d.modLeaf n f).homes = d.homes := rfl
@[simp] theorem Dev.modLeaf_fabric (d : Dev) (n : Nat) (f : Leaf → Leaf) : (d.modLeaf n f).fabric = d.fabric := rfl
@[simp] theorem Dev.modLeaf_evc (d : Dev) (n : Nat) (f : Leaf → Leaf) : (d.modLeaf n f).evc = d.evc := rfl
@[simp] theorem Dev.modLeaf_evcBusy (d : Dev) (n : Nat) (f : Leaf → Leaf) : (d.modLeaf n f).evcBusy = d.evcBusy := rfl
@[simp] theorem Dev.modLeaf_evAcc (d : Dev) (n : Nat) (f : Leaf → Leaf) : (d.modLeaf n f).evAcc = d.evAcc := rfl
@[simp] theorem Dev.modLeaf_pulse (d : Dev) (n : Nat) (f : Leaf → Leaf) : (d.modLeaf n f).pulse = d.pulse := rfl
@[simp] theorem Dev.modLeaf_firewall (d : Dev) (n : Nat) (f : Leaf → Leaf) : (d.modLeaf n f).firewall = d.firewall := rfl
@[simp] theorem Dev.modLeaf_remoteSends (d : Dev) (n : Nat) (f : Leaf → Leaf) : (d.modLeaf n f).remoteSends = d.remoteSends := rfl
@[simp] theorem Dev.modLeaf_lateTags (d : Dev) (n : Nat) (f : Leaf → Leaf) : (d.modLeaf n f).lateTags = d.lateTags := rfl
@[simp] theorem Dev.modLeaf_channels (d : Dev) (n : Nat) (f : Leaf → Leaf) : (d.modLeaf n f).channels = d.channels := rfl
@[simp] theorem Dev.modLeaf_cxl (d : Dev) (n : Nat) (f : Leaf → Leaf) : (d.modLeaf n f).cxl = d.cxl := rfl
@[simp] theorem Dev.modLeaf_grafts (d : Dev) (n : Nat) (f : Leaf → Leaf) : (d.modLeaf n f).grafts = d.grafts := rfl
@[simp] theorem Dev.modLeaf_spans (d : Dev) (n : Nat) (f : Leaf → Leaf) : (d.modLeaf n f).spans = d.spans := rfl
@[simp] theorem Dev.modLeaf_copyState (d : Dev) (n : Nat) (f : Leaf → Leaf) : (d.modLeaf n f).copyState = d.copyState := rfl
@[simp] theorem Dev.modLeaf_master (d : Dev) (n : Nat) (f : Leaf → Leaf) : (d.modLeaf n f).master = d.master := rfl
@[simp] theorem Dev.modLeaf_packers (d : Dev) (n : Nat) (f : Leaf → Leaf) : (d.modLeaf n f).packers = d.packers := rfl
@[simp] theorem Dev.modLeaf_trace (d : Dev) (n : Nat) (f : Leaf → Leaf) : (d.modLeaf n f).trace = d.trace := rfl
@[simp] theorem Dev.modLeaf_power (d : Dev) (n : Nat) (f : Leaf → Leaf) : (d.modLeaf n f).power = d.power := rfl
@[simp] theorem Dev.modLeaf_ttu (d : Dev) (n : Nat) (f : Leaf → Leaf) : (d.modLeaf n f).ttu = d.ttu := rfl
@[simp] theorem Dev.modLeaf_hio (d : Dev) (n : Nat) (f : Leaf → Leaf) : (d.modLeaf n f).hio = d.hio := rfl
@[simp] theorem Dev.modLeaf_flash (d : Dev) (n : Nat) (f : Leaf → Leaf) : (d.modLeaf n f).flash = d.flash := rfl
@[simp] theorem Dev.modLeaf_bulk (d : Dev) (n : Nat) (f : Leaf → Leaf) : (d.modLeaf n f).bulk = d.bulk := rfl
@[simp] theorem Dev.modLeaf_fuse (d : Dev) (n : Nat) (f : Leaf → Leaf) : (d.modLeaf n f).fuse = d.fuse := rfl
@[simp] theorem Dev.modLeaf_nvm (d : Dev) (n : Nat) (f : Leaf → Leaf) : (d.modLeaf n f).nvm = d.nvm := rfl
@[simp] theorem Dev.modLeaf_mgmt (d : Dev) (n : Nat) (f : Leaf → Leaf) : (d.modLeaf n f).mgmt = d.mgmt := rfl
@[simp] theorem Dev.modLeaf_board (d : Dev) (n : Nat) (f : Leaf → Leaf) : (d.modLeaf n f).board = d.board := rfl
@[simp] theorem Dev.modLeaf_tap (d : Dev) (n : Nat) (f : Leaf → Leaf) : (d.modLeaf n f).tap = d.tap := rfl
@[simp] theorem Dev.modLeaf_answer (d : Dev) (n : Nat) (f : Leaf → Leaf) : (d.modLeaf n f).answer = d.answer := rfl

/-! ### modLee -/

@[simp] theorem Dev.modLee_regs (d : Dev) (n : Nat) (f : Lee → Lee) : (d.modLee n f).regs = d.regs := rfl
@[simp] theorem Dev.modLee_mem (d : Dev) (n : Nat) (f : Lee → Lee) : (d.modLee n f).mem = d.mem := rfl
@[simp] theorem Dev.modLee_poison (d : Dev) (n : Nat) (f : Lee → Lee) : (d.modLee n f).poison = d.poison := rfl
@[simp] theorem Dev.modLee_wire (d : Dev) (n : Nat) (f : Lee → Lee) : (d.modLee n f).wire = d.wire := rfl
@[simp] theorem Dev.modLee_resp (d : Dev) (n : Nat) (f : Lee → Lee) : (d.modLee n f).resp = d.resp := rfl
@[simp] theorem Dev.modLee_free (d : Dev) (n : Nat) (f : Lee → Lee) : (d.modLee n f).free = d.free := rfl
@[simp] theorem Dev.modLee_ring (d : Dev) (n : Nat) (f : Lee → Lee) : (d.modLee n f).ring = d.ring := rfl
@[simp] theorem Dev.modLee_copies (d : Dev) (n : Nat) (f : Lee → Lee) : (d.modLee n f).copies = d.copies := rfl
@[simp] theorem Dev.modLee_leaves (d : Dev) (n : Nat) (f : Lee → Lee) : (d.modLee n f).leaves = d.leaves := rfl
@[simp] theorem Dev.modLee_groups (d : Dev) (n : Nat) (f : Lee → Lee) : (d.modLee n f).groups = d.groups := rfl
@[simp] theorem Dev.modLee_boughs (d : Dev) (n : Nat) (f : Lee → Lee) : (d.modLee n f).boughs = d.boughs := rfl
@[simp] theorem Dev.modLee_homes (d : Dev) (n : Nat) (f : Lee → Lee) : (d.modLee n f).homes = d.homes := rfl
@[simp] theorem Dev.modLee_fabric (d : Dev) (n : Nat) (f : Lee → Lee) : (d.modLee n f).fabric = d.fabric := rfl
@[simp] theorem Dev.modLee_evc (d : Dev) (n : Nat) (f : Lee → Lee) : (d.modLee n f).evc = d.evc := rfl
@[simp] theorem Dev.modLee_evcBusy (d : Dev) (n : Nat) (f : Lee → Lee) : (d.modLee n f).evcBusy = d.evcBusy := rfl
@[simp] theorem Dev.modLee_evAcc (d : Dev) (n : Nat) (f : Lee → Lee) : (d.modLee n f).evAcc = d.evAcc := rfl
@[simp] theorem Dev.modLee_pulse (d : Dev) (n : Nat) (f : Lee → Lee) : (d.modLee n f).pulse = d.pulse := rfl
@[simp] theorem Dev.modLee_firewall (d : Dev) (n : Nat) (f : Lee → Lee) : (d.modLee n f).firewall = d.firewall := rfl
@[simp] theorem Dev.modLee_remoteSends (d : Dev) (n : Nat) (f : Lee → Lee) : (d.modLee n f).remoteSends = d.remoteSends := rfl
@[simp] theorem Dev.modLee_lateTags (d : Dev) (n : Nat) (f : Lee → Lee) : (d.modLee n f).lateTags = d.lateTags := rfl
@[simp] theorem Dev.modLee_channels (d : Dev) (n : Nat) (f : Lee → Lee) : (d.modLee n f).channels = d.channels := rfl
@[simp] theorem Dev.modLee_cxl (d : Dev) (n : Nat) (f : Lee → Lee) : (d.modLee n f).cxl = d.cxl := rfl
@[simp] theorem Dev.modLee_grafts (d : Dev) (n : Nat) (f : Lee → Lee) : (d.modLee n f).grafts = d.grafts := rfl
@[simp] theorem Dev.modLee_spans (d : Dev) (n : Nat) (f : Lee → Lee) : (d.modLee n f).spans = d.spans := rfl
@[simp] theorem Dev.modLee_copyState (d : Dev) (n : Nat) (f : Lee → Lee) : (d.modLee n f).copyState = d.copyState := rfl
@[simp] theorem Dev.modLee_master (d : Dev) (n : Nat) (f : Lee → Lee) : (d.modLee n f).master = d.master := rfl
@[simp] theorem Dev.modLee_packers (d : Dev) (n : Nat) (f : Lee → Lee) : (d.modLee n f).packers = d.packers := rfl
@[simp] theorem Dev.modLee_trace (d : Dev) (n : Nat) (f : Lee → Lee) : (d.modLee n f).trace = d.trace := rfl
@[simp] theorem Dev.modLee_power (d : Dev) (n : Nat) (f : Lee → Lee) : (d.modLee n f).power = d.power := rfl
@[simp] theorem Dev.modLee_ttu (d : Dev) (n : Nat) (f : Lee → Lee) : (d.modLee n f).ttu = d.ttu := rfl
@[simp] theorem Dev.modLee_hio (d : Dev) (n : Nat) (f : Lee → Lee) : (d.modLee n f).hio = d.hio := rfl
@[simp] theorem Dev.modLee_flash (d : Dev) (n : Nat) (f : Lee → Lee) : (d.modLee n f).flash = d.flash := rfl
@[simp] theorem Dev.modLee_bulk (d : Dev) (n : Nat) (f : Lee → Lee) : (d.modLee n f).bulk = d.bulk := rfl
@[simp] theorem Dev.modLee_fuse (d : Dev) (n : Nat) (f : Lee → Lee) : (d.modLee n f).fuse = d.fuse := rfl
@[simp] theorem Dev.modLee_nvm (d : Dev) (n : Nat) (f : Lee → Lee) : (d.modLee n f).nvm = d.nvm := rfl
@[simp] theorem Dev.modLee_mgmt (d : Dev) (n : Nat) (f : Lee → Lee) : (d.modLee n f).mgmt = d.mgmt := rfl
@[simp] theorem Dev.modLee_board (d : Dev) (n : Nat) (f : Lee → Lee) : (d.modLee n f).board = d.board := rfl
@[simp] theorem Dev.modLee_tap (d : Dev) (n : Nat) (f : Lee → Lee) : (d.modLee n f).tap = d.tap := rfl
@[simp] theorem Dev.modLee_answer (d : Dev) (n : Nat) (f : Lee → Lee) : (d.modLee n f).answer = d.answer := rfl

/-! ### modBough -/

@[simp] theorem Dev.modBough_regs (d : Dev) (n : Nat) (f : Bough → Bough) : (d.modBough n f).regs = d.regs := rfl
@[simp] theorem Dev.modBough_mem (d : Dev) (n : Nat) (f : Bough → Bough) : (d.modBough n f).mem = d.mem := rfl
@[simp] theorem Dev.modBough_poison (d : Dev) (n : Nat) (f : Bough → Bough) : (d.modBough n f).poison = d.poison := rfl
@[simp] theorem Dev.modBough_wire (d : Dev) (n : Nat) (f : Bough → Bough) : (d.modBough n f).wire = d.wire := rfl
@[simp] theorem Dev.modBough_resp (d : Dev) (n : Nat) (f : Bough → Bough) : (d.modBough n f).resp = d.resp := rfl
@[simp] theorem Dev.modBough_free (d : Dev) (n : Nat) (f : Bough → Bough) : (d.modBough n f).free = d.free := rfl
@[simp] theorem Dev.modBough_ring (d : Dev) (n : Nat) (f : Bough → Bough) : (d.modBough n f).ring = d.ring := rfl
@[simp] theorem Dev.modBough_copies (d : Dev) (n : Nat) (f : Bough → Bough) : (d.modBough n f).copies = d.copies := rfl
@[simp] theorem Dev.modBough_leaves (d : Dev) (n : Nat) (f : Bough → Bough) : (d.modBough n f).leaves = d.leaves := rfl
@[simp] theorem Dev.modBough_lees (d : Dev) (n : Nat) (f : Bough → Bough) : (d.modBough n f).lees = d.lees := rfl
@[simp] theorem Dev.modBough_groups (d : Dev) (n : Nat) (f : Bough → Bough) : (d.modBough n f).groups = d.groups := rfl
@[simp] theorem Dev.modBough_homes (d : Dev) (n : Nat) (f : Bough → Bough) : (d.modBough n f).homes = d.homes := rfl
@[simp] theorem Dev.modBough_fabric (d : Dev) (n : Nat) (f : Bough → Bough) : (d.modBough n f).fabric = d.fabric := rfl
@[simp] theorem Dev.modBough_evc (d : Dev) (n : Nat) (f : Bough → Bough) : (d.modBough n f).evc = d.evc := rfl
@[simp] theorem Dev.modBough_evcBusy (d : Dev) (n : Nat) (f : Bough → Bough) : (d.modBough n f).evcBusy = d.evcBusy := rfl
@[simp] theorem Dev.modBough_evAcc (d : Dev) (n : Nat) (f : Bough → Bough) : (d.modBough n f).evAcc = d.evAcc := rfl
@[simp] theorem Dev.modBough_pulse (d : Dev) (n : Nat) (f : Bough → Bough) : (d.modBough n f).pulse = d.pulse := rfl
@[simp] theorem Dev.modBough_firewall (d : Dev) (n : Nat) (f : Bough → Bough) : (d.modBough n f).firewall = d.firewall := rfl
@[simp] theorem Dev.modBough_remoteSends (d : Dev) (n : Nat) (f : Bough → Bough) : (d.modBough n f).remoteSends = d.remoteSends := rfl
@[simp] theorem Dev.modBough_lateTags (d : Dev) (n : Nat) (f : Bough → Bough) : (d.modBough n f).lateTags = d.lateTags := rfl
@[simp] theorem Dev.modBough_channels (d : Dev) (n : Nat) (f : Bough → Bough) : (d.modBough n f).channels = d.channels := rfl
@[simp] theorem Dev.modBough_cxl (d : Dev) (n : Nat) (f : Bough → Bough) : (d.modBough n f).cxl = d.cxl := rfl
@[simp] theorem Dev.modBough_grafts (d : Dev) (n : Nat) (f : Bough → Bough) : (d.modBough n f).grafts = d.grafts := rfl
@[simp] theorem Dev.modBough_spans (d : Dev) (n : Nat) (f : Bough → Bough) : (d.modBough n f).spans = d.spans := rfl
@[simp] theorem Dev.modBough_copyState (d : Dev) (n : Nat) (f : Bough → Bough) : (d.modBough n f).copyState = d.copyState := rfl
@[simp] theorem Dev.modBough_master (d : Dev) (n : Nat) (f : Bough → Bough) : (d.modBough n f).master = d.master := rfl
@[simp] theorem Dev.modBough_packers (d : Dev) (n : Nat) (f : Bough → Bough) : (d.modBough n f).packers = d.packers := rfl
@[simp] theorem Dev.modBough_trace (d : Dev) (n : Nat) (f : Bough → Bough) : (d.modBough n f).trace = d.trace := rfl
@[simp] theorem Dev.modBough_power (d : Dev) (n : Nat) (f : Bough → Bough) : (d.modBough n f).power = d.power := rfl
@[simp] theorem Dev.modBough_ttu (d : Dev) (n : Nat) (f : Bough → Bough) : (d.modBough n f).ttu = d.ttu := rfl
@[simp] theorem Dev.modBough_hio (d : Dev) (n : Nat) (f : Bough → Bough) : (d.modBough n f).hio = d.hio := rfl
@[simp] theorem Dev.modBough_flash (d : Dev) (n : Nat) (f : Bough → Bough) : (d.modBough n f).flash = d.flash := rfl
@[simp] theorem Dev.modBough_bulk (d : Dev) (n : Nat) (f : Bough → Bough) : (d.modBough n f).bulk = d.bulk := rfl
@[simp] theorem Dev.modBough_fuse (d : Dev) (n : Nat) (f : Bough → Bough) : (d.modBough n f).fuse = d.fuse := rfl
@[simp] theorem Dev.modBough_nvm (d : Dev) (n : Nat) (f : Bough → Bough) : (d.modBough n f).nvm = d.nvm := rfl
@[simp] theorem Dev.modBough_mgmt (d : Dev) (n : Nat) (f : Bough → Bough) : (d.modBough n f).mgmt = d.mgmt := rfl
@[simp] theorem Dev.modBough_board (d : Dev) (n : Nat) (f : Bough → Bough) : (d.modBough n f).board = d.board := rfl
@[simp] theorem Dev.modBough_tap (d : Dev) (n : Nat) (f : Bough → Bough) : (d.modBough n f).tap = d.tap := rfl
@[simp] theorem Dev.modBough_answer (d : Dev) (n : Nat) (f : Bough → Bough) : (d.modBough n f).answer = d.answer := rfl

/-! ### modMgmt -/

@[simp] theorem Dev.modMgmt_regs (d : Dev) (f : Mgmt → Mgmt) : (d.modMgmt f).regs = d.regs := rfl
@[simp] theorem Dev.modMgmt_mem (d : Dev) (f : Mgmt → Mgmt) : (d.modMgmt f).mem = d.mem := rfl
@[simp] theorem Dev.modMgmt_poison (d : Dev) (f : Mgmt → Mgmt) : (d.modMgmt f).poison = d.poison := rfl
@[simp] theorem Dev.modMgmt_wire (d : Dev) (f : Mgmt → Mgmt) : (d.modMgmt f).wire = d.wire := rfl
@[simp] theorem Dev.modMgmt_resp (d : Dev) (f : Mgmt → Mgmt) : (d.modMgmt f).resp = d.resp := rfl
@[simp] theorem Dev.modMgmt_free (d : Dev) (f : Mgmt → Mgmt) : (d.modMgmt f).free = d.free := rfl
@[simp] theorem Dev.modMgmt_ring (d : Dev) (f : Mgmt → Mgmt) : (d.modMgmt f).ring = d.ring := rfl
@[simp] theorem Dev.modMgmt_copies (d : Dev) (f : Mgmt → Mgmt) : (d.modMgmt f).copies = d.copies := rfl
@[simp] theorem Dev.modMgmt_leaves (d : Dev) (f : Mgmt → Mgmt) : (d.modMgmt f).leaves = d.leaves := rfl
@[simp] theorem Dev.modMgmt_lees (d : Dev) (f : Mgmt → Mgmt) : (d.modMgmt f).lees = d.lees := rfl
@[simp] theorem Dev.modMgmt_groups (d : Dev) (f : Mgmt → Mgmt) : (d.modMgmt f).groups = d.groups := rfl
@[simp] theorem Dev.modMgmt_boughs (d : Dev) (f : Mgmt → Mgmt) : (d.modMgmt f).boughs = d.boughs := rfl
@[simp] theorem Dev.modMgmt_homes (d : Dev) (f : Mgmt → Mgmt) : (d.modMgmt f).homes = d.homes := rfl
@[simp] theorem Dev.modMgmt_fabric (d : Dev) (f : Mgmt → Mgmt) : (d.modMgmt f).fabric = d.fabric := rfl
@[simp] theorem Dev.modMgmt_evc (d : Dev) (f : Mgmt → Mgmt) : (d.modMgmt f).evc = d.evc := rfl
@[simp] theorem Dev.modMgmt_evcBusy (d : Dev) (f : Mgmt → Mgmt) : (d.modMgmt f).evcBusy = d.evcBusy := rfl
@[simp] theorem Dev.modMgmt_evAcc (d : Dev) (f : Mgmt → Mgmt) : (d.modMgmt f).evAcc = d.evAcc := rfl
@[simp] theorem Dev.modMgmt_pulse (d : Dev) (f : Mgmt → Mgmt) : (d.modMgmt f).pulse = d.pulse := rfl
@[simp] theorem Dev.modMgmt_firewall (d : Dev) (f : Mgmt → Mgmt) : (d.modMgmt f).firewall = d.firewall := rfl
@[simp] theorem Dev.modMgmt_remoteSends (d : Dev) (f : Mgmt → Mgmt) : (d.modMgmt f).remoteSends = d.remoteSends := rfl
@[simp] theorem Dev.modMgmt_lateTags (d : Dev) (f : Mgmt → Mgmt) : (d.modMgmt f).lateTags = d.lateTags := rfl
@[simp] theorem Dev.modMgmt_channels (d : Dev) (f : Mgmt → Mgmt) : (d.modMgmt f).channels = d.channels := rfl
@[simp] theorem Dev.modMgmt_cxl (d : Dev) (f : Mgmt → Mgmt) : (d.modMgmt f).cxl = d.cxl := rfl
@[simp] theorem Dev.modMgmt_grafts (d : Dev) (f : Mgmt → Mgmt) : (d.modMgmt f).grafts = d.grafts := rfl
@[simp] theorem Dev.modMgmt_spans (d : Dev) (f : Mgmt → Mgmt) : (d.modMgmt f).spans = d.spans := rfl
@[simp] theorem Dev.modMgmt_copyState (d : Dev) (f : Mgmt → Mgmt) : (d.modMgmt f).copyState = d.copyState := rfl
@[simp] theorem Dev.modMgmt_master (d : Dev) (f : Mgmt → Mgmt) : (d.modMgmt f).master = d.master := rfl
@[simp] theorem Dev.modMgmt_packers (d : Dev) (f : Mgmt → Mgmt) : (d.modMgmt f).packers = d.packers := rfl
@[simp] theorem Dev.modMgmt_trace (d : Dev) (f : Mgmt → Mgmt) : (d.modMgmt f).trace = d.trace := rfl
@[simp] theorem Dev.modMgmt_power (d : Dev) (f : Mgmt → Mgmt) : (d.modMgmt f).power = d.power := rfl
@[simp] theorem Dev.modMgmt_ttu (d : Dev) (f : Mgmt → Mgmt) : (d.modMgmt f).ttu = d.ttu := rfl
@[simp] theorem Dev.modMgmt_hio (d : Dev) (f : Mgmt → Mgmt) : (d.modMgmt f).hio = d.hio := rfl
@[simp] theorem Dev.modMgmt_flash (d : Dev) (f : Mgmt → Mgmt) : (d.modMgmt f).flash = d.flash := rfl
@[simp] theorem Dev.modMgmt_bulk (d : Dev) (f : Mgmt → Mgmt) : (d.modMgmt f).bulk = d.bulk := rfl
@[simp] theorem Dev.modMgmt_fuse (d : Dev) (f : Mgmt → Mgmt) : (d.modMgmt f).fuse = d.fuse := rfl
@[simp] theorem Dev.modMgmt_nvm (d : Dev) (f : Mgmt → Mgmt) : (d.modMgmt f).nvm = d.nvm := rfl
@[simp] theorem Dev.modMgmt_board (d : Dev) (f : Mgmt → Mgmt) : (d.modMgmt f).board = d.board := rfl
@[simp] theorem Dev.modMgmt_tap (d : Dev) (f : Mgmt → Mgmt) : (d.modMgmt f).tap = d.tap := rfl
@[simp] theorem Dev.modMgmt_answer (d : Dev) (f : Mgmt → Mgmt) : (d.modMgmt f).answer = d.answer := rfl

/-! ### modChannel -/

@[simp] theorem Dev.modChannel_regs (d : Dev) (n : Nat) (f : MemCh → MemCh) : (d.modChannel n f).regs = d.regs := rfl
@[simp] theorem Dev.modChannel_mem (d : Dev) (n : Nat) (f : MemCh → MemCh) : (d.modChannel n f).mem = d.mem := rfl
@[simp] theorem Dev.modChannel_poison (d : Dev) (n : Nat) (f : MemCh → MemCh) : (d.modChannel n f).poison = d.poison := rfl
@[simp] theorem Dev.modChannel_wire (d : Dev) (n : Nat) (f : MemCh → MemCh) : (d.modChannel n f).wire = d.wire := rfl
@[simp] theorem Dev.modChannel_resp (d : Dev) (n : Nat) (f : MemCh → MemCh) : (d.modChannel n f).resp = d.resp := rfl
@[simp] theorem Dev.modChannel_free (d : Dev) (n : Nat) (f : MemCh → MemCh) : (d.modChannel n f).free = d.free := rfl
@[simp] theorem Dev.modChannel_ring (d : Dev) (n : Nat) (f : MemCh → MemCh) : (d.modChannel n f).ring = d.ring := rfl
@[simp] theorem Dev.modChannel_copies (d : Dev) (n : Nat) (f : MemCh → MemCh) : (d.modChannel n f).copies = d.copies := rfl
@[simp] theorem Dev.modChannel_leaves (d : Dev) (n : Nat) (f : MemCh → MemCh) : (d.modChannel n f).leaves = d.leaves := rfl
@[simp] theorem Dev.modChannel_lees (d : Dev) (n : Nat) (f : MemCh → MemCh) : (d.modChannel n f).lees = d.lees := rfl
@[simp] theorem Dev.modChannel_groups (d : Dev) (n : Nat) (f : MemCh → MemCh) : (d.modChannel n f).groups = d.groups := rfl
@[simp] theorem Dev.modChannel_boughs (d : Dev) (n : Nat) (f : MemCh → MemCh) : (d.modChannel n f).boughs = d.boughs := rfl
@[simp] theorem Dev.modChannel_homes (d : Dev) (n : Nat) (f : MemCh → MemCh) : (d.modChannel n f).homes = d.homes := rfl
@[simp] theorem Dev.modChannel_fabric (d : Dev) (n : Nat) (f : MemCh → MemCh) : (d.modChannel n f).fabric = d.fabric := rfl
@[simp] theorem Dev.modChannel_evc (d : Dev) (n : Nat) (f : MemCh → MemCh) : (d.modChannel n f).evc = d.evc := rfl
@[simp] theorem Dev.modChannel_evcBusy (d : Dev) (n : Nat) (f : MemCh → MemCh) : (d.modChannel n f).evcBusy = d.evcBusy := rfl
@[simp] theorem Dev.modChannel_evAcc (d : Dev) (n : Nat) (f : MemCh → MemCh) : (d.modChannel n f).evAcc = d.evAcc := rfl
@[simp] theorem Dev.modChannel_pulse (d : Dev) (n : Nat) (f : MemCh → MemCh) : (d.modChannel n f).pulse = d.pulse := rfl
@[simp] theorem Dev.modChannel_firewall (d : Dev) (n : Nat) (f : MemCh → MemCh) : (d.modChannel n f).firewall = d.firewall := rfl
@[simp] theorem Dev.modChannel_remoteSends (d : Dev) (n : Nat) (f : MemCh → MemCh) : (d.modChannel n f).remoteSends = d.remoteSends := rfl
@[simp] theorem Dev.modChannel_lateTags (d : Dev) (n : Nat) (f : MemCh → MemCh) : (d.modChannel n f).lateTags = d.lateTags := rfl
@[simp] theorem Dev.modChannel_cxl (d : Dev) (n : Nat) (f : MemCh → MemCh) : (d.modChannel n f).cxl = d.cxl := rfl
@[simp] theorem Dev.modChannel_grafts (d : Dev) (n : Nat) (f : MemCh → MemCh) : (d.modChannel n f).grafts = d.grafts := rfl
@[simp] theorem Dev.modChannel_spans (d : Dev) (n : Nat) (f : MemCh → MemCh) : (d.modChannel n f).spans = d.spans := rfl
@[simp] theorem Dev.modChannel_copyState (d : Dev) (n : Nat) (f : MemCh → MemCh) : (d.modChannel n f).copyState = d.copyState := rfl
@[simp] theorem Dev.modChannel_master (d : Dev) (n : Nat) (f : MemCh → MemCh) : (d.modChannel n f).master = d.master := rfl
@[simp] theorem Dev.modChannel_packers (d : Dev) (n : Nat) (f : MemCh → MemCh) : (d.modChannel n f).packers = d.packers := rfl
@[simp] theorem Dev.modChannel_trace (d : Dev) (n : Nat) (f : MemCh → MemCh) : (d.modChannel n f).trace = d.trace := rfl
@[simp] theorem Dev.modChannel_power (d : Dev) (n : Nat) (f : MemCh → MemCh) : (d.modChannel n f).power = d.power := rfl
@[simp] theorem Dev.modChannel_ttu (d : Dev) (n : Nat) (f : MemCh → MemCh) : (d.modChannel n f).ttu = d.ttu := rfl
@[simp] theorem Dev.modChannel_hio (d : Dev) (n : Nat) (f : MemCh → MemCh) : (d.modChannel n f).hio = d.hio := rfl
@[simp] theorem Dev.modChannel_flash (d : Dev) (n : Nat) (f : MemCh → MemCh) : (d.modChannel n f).flash = d.flash := rfl
@[simp] theorem Dev.modChannel_bulk (d : Dev) (n : Nat) (f : MemCh → MemCh) : (d.modChannel n f).bulk = d.bulk := rfl
@[simp] theorem Dev.modChannel_fuse (d : Dev) (n : Nat) (f : MemCh → MemCh) : (d.modChannel n f).fuse = d.fuse := rfl
@[simp] theorem Dev.modChannel_nvm (d : Dev) (n : Nat) (f : MemCh → MemCh) : (d.modChannel n f).nvm = d.nvm := rfl
@[simp] theorem Dev.modChannel_mgmt (d : Dev) (n : Nat) (f : MemCh → MemCh) : (d.modChannel n f).mgmt = d.mgmt := rfl
@[simp] theorem Dev.modChannel_board (d : Dev) (n : Nat) (f : MemCh → MemCh) : (d.modChannel n f).board = d.board := rfl
@[simp] theorem Dev.modChannel_tap (d : Dev) (n : Nat) (f : MemCh → MemCh) : (d.modChannel n f).tap = d.tap := rfl
@[simp] theorem Dev.modChannel_answer (d : Dev) (n : Nat) (f : MemCh → MemCh) : (d.modChannel n f).answer = d.answer := rfl

/-! ### modPower -/

@[simp] theorem Dev.modPower_regs (d : Dev) (f : Power → Power) : (d.modPower f).regs = d.regs := rfl
@[simp] theorem Dev.modPower_mem (d : Dev) (f : Power → Power) : (d.modPower f).mem = d.mem := rfl
@[simp] theorem Dev.modPower_poison (d : Dev) (f : Power → Power) : (d.modPower f).poison = d.poison := rfl
@[simp] theorem Dev.modPower_wire (d : Dev) (f : Power → Power) : (d.modPower f).wire = d.wire := rfl
@[simp] theorem Dev.modPower_resp (d : Dev) (f : Power → Power) : (d.modPower f).resp = d.resp := rfl
@[simp] theorem Dev.modPower_free (d : Dev) (f : Power → Power) : (d.modPower f).free = d.free := rfl
@[simp] theorem Dev.modPower_ring (d : Dev) (f : Power → Power) : (d.modPower f).ring = d.ring := rfl
@[simp] theorem Dev.modPower_copies (d : Dev) (f : Power → Power) : (d.modPower f).copies = d.copies := rfl
@[simp] theorem Dev.modPower_leaves (d : Dev) (f : Power → Power) : (d.modPower f).leaves = d.leaves := rfl
@[simp] theorem Dev.modPower_lees (d : Dev) (f : Power → Power) : (d.modPower f).lees = d.lees := rfl
@[simp] theorem Dev.modPower_groups (d : Dev) (f : Power → Power) : (d.modPower f).groups = d.groups := rfl
@[simp] theorem Dev.modPower_boughs (d : Dev) (f : Power → Power) : (d.modPower f).boughs = d.boughs := rfl
@[simp] theorem Dev.modPower_homes (d : Dev) (f : Power → Power) : (d.modPower f).homes = d.homes := rfl
@[simp] theorem Dev.modPower_fabric (d : Dev) (f : Power → Power) : (d.modPower f).fabric = d.fabric := rfl
@[simp] theorem Dev.modPower_evc (d : Dev) (f : Power → Power) : (d.modPower f).evc = d.evc := rfl
@[simp] theorem Dev.modPower_evcBusy (d : Dev) (f : Power → Power) : (d.modPower f).evcBusy = d.evcBusy := rfl
@[simp] theorem Dev.modPower_evAcc (d : Dev) (f : Power → Power) : (d.modPower f).evAcc = d.evAcc := rfl
@[simp] theorem Dev.modPower_pulse (d : Dev) (f : Power → Power) : (d.modPower f).pulse = d.pulse := rfl
@[simp] theorem Dev.modPower_firewall (d : Dev) (f : Power → Power) : (d.modPower f).firewall = d.firewall := rfl
@[simp] theorem Dev.modPower_remoteSends (d : Dev) (f : Power → Power) : (d.modPower f).remoteSends = d.remoteSends := rfl
@[simp] theorem Dev.modPower_lateTags (d : Dev) (f : Power → Power) : (d.modPower f).lateTags = d.lateTags := rfl
@[simp] theorem Dev.modPower_channels (d : Dev) (f : Power → Power) : (d.modPower f).channels = d.channels := rfl
@[simp] theorem Dev.modPower_cxl (d : Dev) (f : Power → Power) : (d.modPower f).cxl = d.cxl := rfl
@[simp] theorem Dev.modPower_grafts (d : Dev) (f : Power → Power) : (d.modPower f).grafts = d.grafts := rfl
@[simp] theorem Dev.modPower_spans (d : Dev) (f : Power → Power) : (d.modPower f).spans = d.spans := rfl
@[simp] theorem Dev.modPower_copyState (d : Dev) (f : Power → Power) : (d.modPower f).copyState = d.copyState := rfl
@[simp] theorem Dev.modPower_master (d : Dev) (f : Power → Power) : (d.modPower f).master = d.master := rfl
@[simp] theorem Dev.modPower_packers (d : Dev) (f : Power → Power) : (d.modPower f).packers = d.packers := rfl
@[simp] theorem Dev.modPower_trace (d : Dev) (f : Power → Power) : (d.modPower f).trace = d.trace := rfl
@[simp] theorem Dev.modPower_ttu (d : Dev) (f : Power → Power) : (d.modPower f).ttu = d.ttu := rfl
@[simp] theorem Dev.modPower_hio (d : Dev) (f : Power → Power) : (d.modPower f).hio = d.hio := rfl
@[simp] theorem Dev.modPower_flash (d : Dev) (f : Power → Power) : (d.modPower f).flash = d.flash := rfl
@[simp] theorem Dev.modPower_bulk (d : Dev) (f : Power → Power) : (d.modPower f).bulk = d.bulk := rfl
@[simp] theorem Dev.modPower_fuse (d : Dev) (f : Power → Power) : (d.modPower f).fuse = d.fuse := rfl
@[simp] theorem Dev.modPower_nvm (d : Dev) (f : Power → Power) : (d.modPower f).nvm = d.nvm := rfl
@[simp] theorem Dev.modPower_mgmt (d : Dev) (f : Power → Power) : (d.modPower f).mgmt = d.mgmt := rfl
@[simp] theorem Dev.modPower_board (d : Dev) (f : Power → Power) : (d.modPower f).board = d.board := rfl
@[simp] theorem Dev.modPower_tap (d : Dev) (f : Power → Power) : (d.modPower f).tap = d.tap := rfl
@[simp] theorem Dev.modPower_answer (d : Dev) (f : Power → Power) : (d.modPower f).answer = d.answer := rfl

/-! ### modSpan -/

@[simp] theorem Dev.modSpan_regs (d : Dev) (n : Nat) (f : SpanSide → SpanSide) : (d.modSpan n f).regs = d.regs := rfl
@[simp] theorem Dev.modSpan_mem (d : Dev) (n : Nat) (f : SpanSide → SpanSide) : (d.modSpan n f).mem = d.mem := rfl
@[simp] theorem Dev.modSpan_poison (d : Dev) (n : Nat) (f : SpanSide → SpanSide) : (d.modSpan n f).poison = d.poison := rfl
@[simp] theorem Dev.modSpan_wire (d : Dev) (n : Nat) (f : SpanSide → SpanSide) : (d.modSpan n f).wire = d.wire := rfl
@[simp] theorem Dev.modSpan_resp (d : Dev) (n : Nat) (f : SpanSide → SpanSide) : (d.modSpan n f).resp = d.resp := rfl
@[simp] theorem Dev.modSpan_free (d : Dev) (n : Nat) (f : SpanSide → SpanSide) : (d.modSpan n f).free = d.free := rfl
@[simp] theorem Dev.modSpan_ring (d : Dev) (n : Nat) (f : SpanSide → SpanSide) : (d.modSpan n f).ring = d.ring := rfl
@[simp] theorem Dev.modSpan_copies (d : Dev) (n : Nat) (f : SpanSide → SpanSide) : (d.modSpan n f).copies = d.copies := rfl
@[simp] theorem Dev.modSpan_leaves (d : Dev) (n : Nat) (f : SpanSide → SpanSide) : (d.modSpan n f).leaves = d.leaves := rfl
@[simp] theorem Dev.modSpan_lees (d : Dev) (n : Nat) (f : SpanSide → SpanSide) : (d.modSpan n f).lees = d.lees := rfl
@[simp] theorem Dev.modSpan_groups (d : Dev) (n : Nat) (f : SpanSide → SpanSide) : (d.modSpan n f).groups = d.groups := rfl
@[simp] theorem Dev.modSpan_boughs (d : Dev) (n : Nat) (f : SpanSide → SpanSide) : (d.modSpan n f).boughs = d.boughs := rfl
@[simp] theorem Dev.modSpan_homes (d : Dev) (n : Nat) (f : SpanSide → SpanSide) : (d.modSpan n f).homes = d.homes := rfl
@[simp] theorem Dev.modSpan_fabric (d : Dev) (n : Nat) (f : SpanSide → SpanSide) : (d.modSpan n f).fabric = d.fabric := rfl
@[simp] theorem Dev.modSpan_evc (d : Dev) (n : Nat) (f : SpanSide → SpanSide) : (d.modSpan n f).evc = d.evc := rfl
@[simp] theorem Dev.modSpan_evcBusy (d : Dev) (n : Nat) (f : SpanSide → SpanSide) : (d.modSpan n f).evcBusy = d.evcBusy := rfl
@[simp] theorem Dev.modSpan_evAcc (d : Dev) (n : Nat) (f : SpanSide → SpanSide) : (d.modSpan n f).evAcc = d.evAcc := rfl
@[simp] theorem Dev.modSpan_pulse (d : Dev) (n : Nat) (f : SpanSide → SpanSide) : (d.modSpan n f).pulse = d.pulse := rfl
@[simp] theorem Dev.modSpan_firewall (d : Dev) (n : Nat) (f : SpanSide → SpanSide) : (d.modSpan n f).firewall = d.firewall := rfl
@[simp] theorem Dev.modSpan_remoteSends (d : Dev) (n : Nat) (f : SpanSide → SpanSide) : (d.modSpan n f).remoteSends = d.remoteSends := rfl
@[simp] theorem Dev.modSpan_lateTags (d : Dev) (n : Nat) (f : SpanSide → SpanSide) : (d.modSpan n f).lateTags = d.lateTags := rfl
@[simp] theorem Dev.modSpan_channels (d : Dev) (n : Nat) (f : SpanSide → SpanSide) : (d.modSpan n f).channels = d.channels := rfl
@[simp] theorem Dev.modSpan_cxl (d : Dev) (n : Nat) (f : SpanSide → SpanSide) : (d.modSpan n f).cxl = d.cxl := rfl
@[simp] theorem Dev.modSpan_grafts (d : Dev) (n : Nat) (f : SpanSide → SpanSide) : (d.modSpan n f).grafts = d.grafts := rfl
@[simp] theorem Dev.modSpan_copyState (d : Dev) (n : Nat) (f : SpanSide → SpanSide) : (d.modSpan n f).copyState = d.copyState := rfl
@[simp] theorem Dev.modSpan_master (d : Dev) (n : Nat) (f : SpanSide → SpanSide) : (d.modSpan n f).master = d.master := rfl
@[simp] theorem Dev.modSpan_packers (d : Dev) (n : Nat) (f : SpanSide → SpanSide) : (d.modSpan n f).packers = d.packers := rfl
@[simp] theorem Dev.modSpan_trace (d : Dev) (n : Nat) (f : SpanSide → SpanSide) : (d.modSpan n f).trace = d.trace := rfl
@[simp] theorem Dev.modSpan_power (d : Dev) (n : Nat) (f : SpanSide → SpanSide) : (d.modSpan n f).power = d.power := rfl
@[simp] theorem Dev.modSpan_ttu (d : Dev) (n : Nat) (f : SpanSide → SpanSide) : (d.modSpan n f).ttu = d.ttu := rfl
@[simp] theorem Dev.modSpan_hio (d : Dev) (n : Nat) (f : SpanSide → SpanSide) : (d.modSpan n f).hio = d.hio := rfl
@[simp] theorem Dev.modSpan_flash (d : Dev) (n : Nat) (f : SpanSide → SpanSide) : (d.modSpan n f).flash = d.flash := rfl
@[simp] theorem Dev.modSpan_bulk (d : Dev) (n : Nat) (f : SpanSide → SpanSide) : (d.modSpan n f).bulk = d.bulk := rfl
@[simp] theorem Dev.modSpan_fuse (d : Dev) (n : Nat) (f : SpanSide → SpanSide) : (d.modSpan n f).fuse = d.fuse := rfl
@[simp] theorem Dev.modSpan_nvm (d : Dev) (n : Nat) (f : SpanSide → SpanSide) : (d.modSpan n f).nvm = d.nvm := rfl
@[simp] theorem Dev.modSpan_mgmt (d : Dev) (n : Nat) (f : SpanSide → SpanSide) : (d.modSpan n f).mgmt = d.mgmt := rfl
@[simp] theorem Dev.modSpan_board (d : Dev) (n : Nat) (f : SpanSide → SpanSide) : (d.modSpan n f).board = d.board := rfl
@[simp] theorem Dev.modSpan_tap (d : Dev) (n : Nat) (f : SpanSide → SpanSide) : (d.modSpan n f).tap = d.tap := rfl
@[simp] theorem Dev.modSpan_answer (d : Dev) (n : Nat) (f : SpanSide → SpanSide) : (d.modSpan n f).answer = d.answer := rfl

/-! ### modBoard -/

@[simp] theorem Dev.modBoard_regs (d : Dev) (f : Board → Board) : (d.modBoard f).regs = d.regs := rfl
@[simp] theorem Dev.modBoard_mem (d : Dev) (f : Board → Board) : (d.modBoard f).mem = d.mem := rfl
@[simp] theorem Dev.modBoard_poison (d : Dev) (f : Board → Board) : (d.modBoard f).poison = d.poison := rfl
@[simp] theorem Dev.modBoard_wire (d : Dev) (f : Board → Board) : (d.modBoard f).wire = d.wire := rfl
@[simp] theorem Dev.modBoard_resp (d : Dev) (f : Board → Board) : (d.modBoard f).resp = d.resp := rfl
@[simp] theorem Dev.modBoard_free (d : Dev) (f : Board → Board) : (d.modBoard f).free = d.free := rfl
@[simp] theorem Dev.modBoard_ring (d : Dev) (f : Board → Board) : (d.modBoard f).ring = d.ring := rfl
@[simp] theorem Dev.modBoard_copies (d : Dev) (f : Board → Board) : (d.modBoard f).copies = d.copies := rfl
@[simp] theorem Dev.modBoard_leaves (d : Dev) (f : Board → Board) : (d.modBoard f).leaves = d.leaves := rfl
@[simp] theorem Dev.modBoard_lees (d : Dev) (f : Board → Board) : (d.modBoard f).lees = d.lees := rfl
@[simp] theorem Dev.modBoard_groups (d : Dev) (f : Board → Board) : (d.modBoard f).groups = d.groups := rfl
@[simp] theorem Dev.modBoard_boughs (d : Dev) (f : Board → Board) : (d.modBoard f).boughs = d.boughs := rfl
@[simp] theorem Dev.modBoard_homes (d : Dev) (f : Board → Board) : (d.modBoard f).homes = d.homes := rfl
@[simp] theorem Dev.modBoard_fabric (d : Dev) (f : Board → Board) : (d.modBoard f).fabric = d.fabric := rfl
@[simp] theorem Dev.modBoard_evc (d : Dev) (f : Board → Board) : (d.modBoard f).evc = d.evc := rfl
@[simp] theorem Dev.modBoard_evcBusy (d : Dev) (f : Board → Board) : (d.modBoard f).evcBusy = d.evcBusy := rfl
@[simp] theorem Dev.modBoard_evAcc (d : Dev) (f : Board → Board) : (d.modBoard f).evAcc = d.evAcc := rfl
@[simp] theorem Dev.modBoard_pulse (d : Dev) (f : Board → Board) : (d.modBoard f).pulse = d.pulse := rfl
@[simp] theorem Dev.modBoard_firewall (d : Dev) (f : Board → Board) : (d.modBoard f).firewall = d.firewall := rfl
@[simp] theorem Dev.modBoard_remoteSends (d : Dev) (f : Board → Board) : (d.modBoard f).remoteSends = d.remoteSends := rfl
@[simp] theorem Dev.modBoard_lateTags (d : Dev) (f : Board → Board) : (d.modBoard f).lateTags = d.lateTags := rfl
@[simp] theorem Dev.modBoard_channels (d : Dev) (f : Board → Board) : (d.modBoard f).channels = d.channels := rfl
@[simp] theorem Dev.modBoard_cxl (d : Dev) (f : Board → Board) : (d.modBoard f).cxl = d.cxl := rfl
@[simp] theorem Dev.modBoard_grafts (d : Dev) (f : Board → Board) : (d.modBoard f).grafts = d.grafts := rfl
@[simp] theorem Dev.modBoard_spans (d : Dev) (f : Board → Board) : (d.modBoard f).spans = d.spans := rfl
@[simp] theorem Dev.modBoard_copyState (d : Dev) (f : Board → Board) : (d.modBoard f).copyState = d.copyState := rfl
@[simp] theorem Dev.modBoard_master (d : Dev) (f : Board → Board) : (d.modBoard f).master = d.master := rfl
@[simp] theorem Dev.modBoard_packers (d : Dev) (f : Board → Board) : (d.modBoard f).packers = d.packers := rfl
@[simp] theorem Dev.modBoard_trace (d : Dev) (f : Board → Board) : (d.modBoard f).trace = d.trace := rfl
@[simp] theorem Dev.modBoard_power (d : Dev) (f : Board → Board) : (d.modBoard f).power = d.power := rfl
@[simp] theorem Dev.modBoard_ttu (d : Dev) (f : Board → Board) : (d.modBoard f).ttu = d.ttu := rfl
@[simp] theorem Dev.modBoard_hio (d : Dev) (f : Board → Board) : (d.modBoard f).hio = d.hio := rfl
@[simp] theorem Dev.modBoard_flash (d : Dev) (f : Board → Board) : (d.modBoard f).flash = d.flash := rfl
@[simp] theorem Dev.modBoard_bulk (d : Dev) (f : Board → Board) : (d.modBoard f).bulk = d.bulk := rfl
@[simp] theorem Dev.modBoard_fuse (d : Dev) (f : Board → Board) : (d.modBoard f).fuse = d.fuse := rfl
@[simp] theorem Dev.modBoard_nvm (d : Dev) (f : Board → Board) : (d.modBoard f).nvm = d.nvm := rfl
@[simp] theorem Dev.modBoard_mgmt (d : Dev) (f : Board → Board) : (d.modBoard f).mgmt = d.mgmt := rfl
@[simp] theorem Dev.modBoard_tap (d : Dev) (f : Board → Board) : (d.modBoard f).tap = d.tap := rfl
@[simp] theorem Dev.modBoard_answer (d : Dev) (f : Board → Board) : (d.modBoard f).answer = d.answer := rfl

/-! ### modPacker -/

@[simp] theorem Dev.modPacker_regs (d : Dev) (n : Nat) (f : Packer → Packer) : (d.modPacker n f).regs = d.regs := rfl
@[simp] theorem Dev.modPacker_mem (d : Dev) (n : Nat) (f : Packer → Packer) : (d.modPacker n f).mem = d.mem := rfl
@[simp] theorem Dev.modPacker_poison (d : Dev) (n : Nat) (f : Packer → Packer) : (d.modPacker n f).poison = d.poison := rfl
@[simp] theorem Dev.modPacker_wire (d : Dev) (n : Nat) (f : Packer → Packer) : (d.modPacker n f).wire = d.wire := rfl
@[simp] theorem Dev.modPacker_resp (d : Dev) (n : Nat) (f : Packer → Packer) : (d.modPacker n f).resp = d.resp := rfl
@[simp] theorem Dev.modPacker_free (d : Dev) (n : Nat) (f : Packer → Packer) : (d.modPacker n f).free = d.free := rfl
@[simp] theorem Dev.modPacker_ring (d : Dev) (n : Nat) (f : Packer → Packer) : (d.modPacker n f).ring = d.ring := rfl
@[simp] theorem Dev.modPacker_copies (d : Dev) (n : Nat) (f : Packer → Packer) : (d.modPacker n f).copies = d.copies := rfl
@[simp] theorem Dev.modPacker_leaves (d : Dev) (n : Nat) (f : Packer → Packer) : (d.modPacker n f).leaves = d.leaves := rfl
@[simp] theorem Dev.modPacker_lees (d : Dev) (n : Nat) (f : Packer → Packer) : (d.modPacker n f).lees = d.lees := rfl
@[simp] theorem Dev.modPacker_groups (d : Dev) (n : Nat) (f : Packer → Packer) : (d.modPacker n f).groups = d.groups := rfl
@[simp] theorem Dev.modPacker_boughs (d : Dev) (n : Nat) (f : Packer → Packer) : (d.modPacker n f).boughs = d.boughs := rfl
@[simp] theorem Dev.modPacker_homes (d : Dev) (n : Nat) (f : Packer → Packer) : (d.modPacker n f).homes = d.homes := rfl
@[simp] theorem Dev.modPacker_fabric (d : Dev) (n : Nat) (f : Packer → Packer) : (d.modPacker n f).fabric = d.fabric := rfl
@[simp] theorem Dev.modPacker_evc (d : Dev) (n : Nat) (f : Packer → Packer) : (d.modPacker n f).evc = d.evc := rfl
@[simp] theorem Dev.modPacker_evcBusy (d : Dev) (n : Nat) (f : Packer → Packer) : (d.modPacker n f).evcBusy = d.evcBusy := rfl
@[simp] theorem Dev.modPacker_evAcc (d : Dev) (n : Nat) (f : Packer → Packer) : (d.modPacker n f).evAcc = d.evAcc := rfl
@[simp] theorem Dev.modPacker_pulse (d : Dev) (n : Nat) (f : Packer → Packer) : (d.modPacker n f).pulse = d.pulse := rfl
@[simp] theorem Dev.modPacker_firewall (d : Dev) (n : Nat) (f : Packer → Packer) : (d.modPacker n f).firewall = d.firewall := rfl
@[simp] theorem Dev.modPacker_remoteSends (d : Dev) (n : Nat) (f : Packer → Packer) : (d.modPacker n f).remoteSends = d.remoteSends := rfl
@[simp] theorem Dev.modPacker_lateTags (d : Dev) (n : Nat) (f : Packer → Packer) : (d.modPacker n f).lateTags = d.lateTags := rfl
@[simp] theorem Dev.modPacker_channels (d : Dev) (n : Nat) (f : Packer → Packer) : (d.modPacker n f).channels = d.channels := rfl
@[simp] theorem Dev.modPacker_cxl (d : Dev) (n : Nat) (f : Packer → Packer) : (d.modPacker n f).cxl = d.cxl := rfl
@[simp] theorem Dev.modPacker_grafts (d : Dev) (n : Nat) (f : Packer → Packer) : (d.modPacker n f).grafts = d.grafts := rfl
@[simp] theorem Dev.modPacker_spans (d : Dev) (n : Nat) (f : Packer → Packer) : (d.modPacker n f).spans = d.spans := rfl
@[simp] theorem Dev.modPacker_copyState (d : Dev) (n : Nat) (f : Packer → Packer) : (d.modPacker n f).copyState = d.copyState := rfl
@[simp] theorem Dev.modPacker_master (d : Dev) (n : Nat) (f : Packer → Packer) : (d.modPacker n f).master = d.master := rfl
@[simp] theorem Dev.modPacker_trace (d : Dev) (n : Nat) (f : Packer → Packer) : (d.modPacker n f).trace = d.trace := rfl
@[simp] theorem Dev.modPacker_power (d : Dev) (n : Nat) (f : Packer → Packer) : (d.modPacker n f).power = d.power := rfl
@[simp] theorem Dev.modPacker_ttu (d : Dev) (n : Nat) (f : Packer → Packer) : (d.modPacker n f).ttu = d.ttu := rfl
@[simp] theorem Dev.modPacker_hio (d : Dev) (n : Nat) (f : Packer → Packer) : (d.modPacker n f).hio = d.hio := rfl
@[simp] theorem Dev.modPacker_flash (d : Dev) (n : Nat) (f : Packer → Packer) : (d.modPacker n f).flash = d.flash := rfl
@[simp] theorem Dev.modPacker_bulk (d : Dev) (n : Nat) (f : Packer → Packer) : (d.modPacker n f).bulk = d.bulk := rfl
@[simp] theorem Dev.modPacker_fuse (d : Dev) (n : Nat) (f : Packer → Packer) : (d.modPacker n f).fuse = d.fuse := rfl
@[simp] theorem Dev.modPacker_nvm (d : Dev) (n : Nat) (f : Packer → Packer) : (d.modPacker n f).nvm = d.nvm := rfl
@[simp] theorem Dev.modPacker_mgmt (d : Dev) (n : Nat) (f : Packer → Packer) : (d.modPacker n f).mgmt = d.mgmt := rfl
@[simp] theorem Dev.modPacker_board (d : Dev) (n : Nat) (f : Packer → Packer) : (d.modPacker n f).board = d.board := rfl
@[simp] theorem Dev.modPacker_tap (d : Dev) (n : Nat) (f : Packer → Packer) : (d.modPacker n f).tap = d.tap := rfl
@[simp] theorem Dev.modPacker_answer (d : Dev) (n : Nat) (f : Packer → Packer) : (d.modPacker n f).answer = d.answer := rfl

/-! ### modTrace -/

@[simp] theorem Dev.modTrace_regs (d : Dev) (f : TraceUnit → TraceUnit) : (d.modTrace f).regs = d.regs := rfl
@[simp] theorem Dev.modTrace_mem (d : Dev) (f : TraceUnit → TraceUnit) : (d.modTrace f).mem = d.mem := rfl
@[simp] theorem Dev.modTrace_poison (d : Dev) (f : TraceUnit → TraceUnit) : (d.modTrace f).poison = d.poison := rfl
@[simp] theorem Dev.modTrace_wire (d : Dev) (f : TraceUnit → TraceUnit) : (d.modTrace f).wire = d.wire := rfl
@[simp] theorem Dev.modTrace_resp (d : Dev) (f : TraceUnit → TraceUnit) : (d.modTrace f).resp = d.resp := rfl
@[simp] theorem Dev.modTrace_free (d : Dev) (f : TraceUnit → TraceUnit) : (d.modTrace f).free = d.free := rfl
@[simp] theorem Dev.modTrace_ring (d : Dev) (f : TraceUnit → TraceUnit) : (d.modTrace f).ring = d.ring := rfl
@[simp] theorem Dev.modTrace_copies (d : Dev) (f : TraceUnit → TraceUnit) : (d.modTrace f).copies = d.copies := rfl
@[simp] theorem Dev.modTrace_leaves (d : Dev) (f : TraceUnit → TraceUnit) : (d.modTrace f).leaves = d.leaves := rfl
@[simp] theorem Dev.modTrace_lees (d : Dev) (f : TraceUnit → TraceUnit) : (d.modTrace f).lees = d.lees := rfl
@[simp] theorem Dev.modTrace_groups (d : Dev) (f : TraceUnit → TraceUnit) : (d.modTrace f).groups = d.groups := rfl
@[simp] theorem Dev.modTrace_boughs (d : Dev) (f : TraceUnit → TraceUnit) : (d.modTrace f).boughs = d.boughs := rfl
@[simp] theorem Dev.modTrace_homes (d : Dev) (f : TraceUnit → TraceUnit) : (d.modTrace f).homes = d.homes := rfl
@[simp] theorem Dev.modTrace_fabric (d : Dev) (f : TraceUnit → TraceUnit) : (d.modTrace f).fabric = d.fabric := rfl
@[simp] theorem Dev.modTrace_evc (d : Dev) (f : TraceUnit → TraceUnit) : (d.modTrace f).evc = d.evc := rfl
@[simp] theorem Dev.modTrace_evcBusy (d : Dev) (f : TraceUnit → TraceUnit) : (d.modTrace f).evcBusy = d.evcBusy := rfl
@[simp] theorem Dev.modTrace_evAcc (d : Dev) (f : TraceUnit → TraceUnit) : (d.modTrace f).evAcc = d.evAcc := rfl
@[simp] theorem Dev.modTrace_pulse (d : Dev) (f : TraceUnit → TraceUnit) : (d.modTrace f).pulse = d.pulse := rfl
@[simp] theorem Dev.modTrace_firewall (d : Dev) (f : TraceUnit → TraceUnit) : (d.modTrace f).firewall = d.firewall := rfl
@[simp] theorem Dev.modTrace_remoteSends (d : Dev) (f : TraceUnit → TraceUnit) : (d.modTrace f).remoteSends = d.remoteSends := rfl
@[simp] theorem Dev.modTrace_lateTags (d : Dev) (f : TraceUnit → TraceUnit) : (d.modTrace f).lateTags = d.lateTags := rfl
@[simp] theorem Dev.modTrace_channels (d : Dev) (f : TraceUnit → TraceUnit) : (d.modTrace f).channels = d.channels := rfl
@[simp] theorem Dev.modTrace_cxl (d : Dev) (f : TraceUnit → TraceUnit) : (d.modTrace f).cxl = d.cxl := rfl
@[simp] theorem Dev.modTrace_grafts (d : Dev) (f : TraceUnit → TraceUnit) : (d.modTrace f).grafts = d.grafts := rfl
@[simp] theorem Dev.modTrace_spans (d : Dev) (f : TraceUnit → TraceUnit) : (d.modTrace f).spans = d.spans := rfl
@[simp] theorem Dev.modTrace_copyState (d : Dev) (f : TraceUnit → TraceUnit) : (d.modTrace f).copyState = d.copyState := rfl
@[simp] theorem Dev.modTrace_master (d : Dev) (f : TraceUnit → TraceUnit) : (d.modTrace f).master = d.master := rfl
@[simp] theorem Dev.modTrace_packers (d : Dev) (f : TraceUnit → TraceUnit) : (d.modTrace f).packers = d.packers := rfl
@[simp] theorem Dev.modTrace_power (d : Dev) (f : TraceUnit → TraceUnit) : (d.modTrace f).power = d.power := rfl
@[simp] theorem Dev.modTrace_ttu (d : Dev) (f : TraceUnit → TraceUnit) : (d.modTrace f).ttu = d.ttu := rfl
@[simp] theorem Dev.modTrace_hio (d : Dev) (f : TraceUnit → TraceUnit) : (d.modTrace f).hio = d.hio := rfl
@[simp] theorem Dev.modTrace_flash (d : Dev) (f : TraceUnit → TraceUnit) : (d.modTrace f).flash = d.flash := rfl
@[simp] theorem Dev.modTrace_bulk (d : Dev) (f : TraceUnit → TraceUnit) : (d.modTrace f).bulk = d.bulk := rfl
@[simp] theorem Dev.modTrace_fuse (d : Dev) (f : TraceUnit → TraceUnit) : (d.modTrace f).fuse = d.fuse := rfl
@[simp] theorem Dev.modTrace_nvm (d : Dev) (f : TraceUnit → TraceUnit) : (d.modTrace f).nvm = d.nvm := rfl
@[simp] theorem Dev.modTrace_mgmt (d : Dev) (f : TraceUnit → TraceUnit) : (d.modTrace f).mgmt = d.mgmt := rfl
@[simp] theorem Dev.modTrace_board (d : Dev) (f : TraceUnit → TraceUnit) : (d.modTrace f).board = d.board := rfl
@[simp] theorem Dev.modTrace_tap (d : Dev) (f : TraceUnit → TraceUnit) : (d.modTrace f).tap = d.tap := rfl
@[simp] theorem Dev.modTrace_answer (d : Dev) (f : TraceUnit → TraceUnit) : (d.modTrace f).answer = d.answer := rfl

/-! ### modTtu -/

@[simp] theorem Dev.modTtu_regs (d : Dev) (f : Ttu → Ttu) : (d.modTtu f).regs = d.regs := rfl
@[simp] theorem Dev.modTtu_mem (d : Dev) (f : Ttu → Ttu) : (d.modTtu f).mem = d.mem := rfl
@[simp] theorem Dev.modTtu_poison (d : Dev) (f : Ttu → Ttu) : (d.modTtu f).poison = d.poison := rfl
@[simp] theorem Dev.modTtu_wire (d : Dev) (f : Ttu → Ttu) : (d.modTtu f).wire = d.wire := rfl
@[simp] theorem Dev.modTtu_resp (d : Dev) (f : Ttu → Ttu) : (d.modTtu f).resp = d.resp := rfl
@[simp] theorem Dev.modTtu_free (d : Dev) (f : Ttu → Ttu) : (d.modTtu f).free = d.free := rfl
@[simp] theorem Dev.modTtu_ring (d : Dev) (f : Ttu → Ttu) : (d.modTtu f).ring = d.ring := rfl
@[simp] theorem Dev.modTtu_copies (d : Dev) (f : Ttu → Ttu) : (d.modTtu f).copies = d.copies := rfl
@[simp] theorem Dev.modTtu_leaves (d : Dev) (f : Ttu → Ttu) : (d.modTtu f).leaves = d.leaves := rfl
@[simp] theorem Dev.modTtu_lees (d : Dev) (f : Ttu → Ttu) : (d.modTtu f).lees = d.lees := rfl
@[simp] theorem Dev.modTtu_groups (d : Dev) (f : Ttu → Ttu) : (d.modTtu f).groups = d.groups := rfl
@[simp] theorem Dev.modTtu_boughs (d : Dev) (f : Ttu → Ttu) : (d.modTtu f).boughs = d.boughs := rfl
@[simp] theorem Dev.modTtu_homes (d : Dev) (f : Ttu → Ttu) : (d.modTtu f).homes = d.homes := rfl
@[simp] theorem Dev.modTtu_fabric (d : Dev) (f : Ttu → Ttu) : (d.modTtu f).fabric = d.fabric := rfl
@[simp] theorem Dev.modTtu_evc (d : Dev) (f : Ttu → Ttu) : (d.modTtu f).evc = d.evc := rfl
@[simp] theorem Dev.modTtu_evcBusy (d : Dev) (f : Ttu → Ttu) : (d.modTtu f).evcBusy = d.evcBusy := rfl
@[simp] theorem Dev.modTtu_evAcc (d : Dev) (f : Ttu → Ttu) : (d.modTtu f).evAcc = d.evAcc := rfl
@[simp] theorem Dev.modTtu_pulse (d : Dev) (f : Ttu → Ttu) : (d.modTtu f).pulse = d.pulse := rfl
@[simp] theorem Dev.modTtu_firewall (d : Dev) (f : Ttu → Ttu) : (d.modTtu f).firewall = d.firewall := rfl
@[simp] theorem Dev.modTtu_remoteSends (d : Dev) (f : Ttu → Ttu) : (d.modTtu f).remoteSends = d.remoteSends := rfl
@[simp] theorem Dev.modTtu_lateTags (d : Dev) (f : Ttu → Ttu) : (d.modTtu f).lateTags = d.lateTags := rfl
@[simp] theorem Dev.modTtu_channels (d : Dev) (f : Ttu → Ttu) : (d.modTtu f).channels = d.channels := rfl
@[simp] theorem Dev.modTtu_cxl (d : Dev) (f : Ttu → Ttu) : (d.modTtu f).cxl = d.cxl := rfl
@[simp] theorem Dev.modTtu_grafts (d : Dev) (f : Ttu → Ttu) : (d.modTtu f).grafts = d.grafts := rfl
@[simp] theorem Dev.modTtu_spans (d : Dev) (f : Ttu → Ttu) : (d.modTtu f).spans = d.spans := rfl
@[simp] theorem Dev.modTtu_copyState (d : Dev) (f : Ttu → Ttu) : (d.modTtu f).copyState = d.copyState := rfl
@[simp] theorem Dev.modTtu_master (d : Dev) (f : Ttu → Ttu) : (d.modTtu f).master = d.master := rfl
@[simp] theorem Dev.modTtu_packers (d : Dev) (f : Ttu → Ttu) : (d.modTtu f).packers = d.packers := rfl
@[simp] theorem Dev.modTtu_trace (d : Dev) (f : Ttu → Ttu) : (d.modTtu f).trace = d.trace := rfl
@[simp] theorem Dev.modTtu_power (d : Dev) (f : Ttu → Ttu) : (d.modTtu f).power = d.power := rfl
@[simp] theorem Dev.modTtu_hio (d : Dev) (f : Ttu → Ttu) : (d.modTtu f).hio = d.hio := rfl
@[simp] theorem Dev.modTtu_flash (d : Dev) (f : Ttu → Ttu) : (d.modTtu f).flash = d.flash := rfl
@[simp] theorem Dev.modTtu_bulk (d : Dev) (f : Ttu → Ttu) : (d.modTtu f).bulk = d.bulk := rfl
@[simp] theorem Dev.modTtu_fuse (d : Dev) (f : Ttu → Ttu) : (d.modTtu f).fuse = d.fuse := rfl
@[simp] theorem Dev.modTtu_nvm (d : Dev) (f : Ttu → Ttu) : (d.modTtu f).nvm = d.nvm := rfl
@[simp] theorem Dev.modTtu_mgmt (d : Dev) (f : Ttu → Ttu) : (d.modTtu f).mgmt = d.mgmt := rfl
@[simp] theorem Dev.modTtu_board (d : Dev) (f : Ttu → Ttu) : (d.modTtu f).board = d.board := rfl
@[simp] theorem Dev.modTtu_tap (d : Dev) (f : Ttu → Ttu) : (d.modTtu f).tap = d.tap := rfl
@[simp] theorem Dev.modTtu_answer (d : Dev) (f : Ttu → Ttu) : (d.modTtu f).answer = d.answer := rfl

/-! ### Registers and fields under the updates of other parts -/

@[simp] theorem Dev.reg_send (d : Dev) (p : Packet) (r0 : Reg) : (d.send p).reg r0 = d.reg r0 := rfl
@[simp] theorem Dev.get_send (d : Dev) (p : Packet) (f0 : Fld) (i j : Nat) : (d.send p).get f0 i j = d.get f0 i j := rfl
@[simp] theorem Dev.flag_send (d : Dev) (p : Packet) (f0 : Fld) (i j : Nat) : (d.send p).flag f0 i j = d.flag f0 i j := rfl
@[simp] theorem Dev.reg_emit (d : Dev) (p : Packet) (r0 : Reg) : (d.emit p).reg r0 = d.reg r0 := by unfold Dev.emit; split <;> rfl
@[simp] theorem Dev.get_emit (d : Dev) (p : Packet) (f0 : Fld) (i j : Nat) : (d.emit p).get f0 i j = d.get f0 i j := by unfold Dev.emit; split <;> rfl
@[simp] theorem Dev.flag_emit (d : Dev) (p : Packet) (f0 : Fld) (i j : Nat) : (d.emit p).flag f0 i j = d.flag f0 i j := by unfold Dev.emit; split <;> rfl
@[simp] theorem Dev.reg_take (d : Dev) (p : Packet) (r0 : Reg) : (d.take p).reg r0 = d.reg r0 := rfl
@[simp] theorem Dev.get_take (d : Dev) (p : Packet) (f0 : Fld) (i j : Nat) : (d.take p).get f0 i j = d.get f0 i j := rfl
@[simp] theorem Dev.flag_take (d : Dev) (p : Packet) (f0 : Fld) (i j : Nat) : (d.take p).flag f0 i j = d.flag f0 i j := rfl
@[simp] theorem Dev.reg_setLeaf (d : Dev) (n : Nat) (l : Leaf) (r0 : Reg) : (d.setLeaf n l).reg r0 = d.reg r0 := rfl
@[simp] theorem Dev.get_setLeaf (d : Dev) (n : Nat) (l : Leaf) (f0 : Fld) (i j : Nat) : (d.setLeaf n l).get f0 i j = d.get f0 i j := rfl
@[simp] theorem Dev.flag_setLeaf (d : Dev) (n : Nat) (l : Leaf) (f0 : Fld) (i j : Nat) : (d.setLeaf n l).flag f0 i j = d.flag f0 i j := rfl
@[simp] theorem Dev.reg_setLee (d : Dev) (n : Nat) (l : Lee) (r0 : Reg) : (d.setLee n l).reg r0 = d.reg r0 := rfl
@[simp] theorem Dev.get_setLee (d : Dev) (n : Nat) (l : Lee) (f0 : Fld) (i j : Nat) : (d.setLee n l).get f0 i j = d.get f0 i j := rfl
@[simp] theorem Dev.flag_setLee (d : Dev) (n : Nat) (l : Lee) (f0 : Fld) (i j : Nat) : (d.setLee n l).flag f0 i j = d.flag f0 i j := rfl
@[simp] theorem Dev.reg_setGroup (d : Dev) (n : Nat) (l : Group) (r0 : Reg) : (d.setGroup n l).reg r0 = d.reg r0 := rfl
@[simp] theorem Dev.get_setGroup (d : Dev) (n : Nat) (l : Group) (f0 : Fld) (i j : Nat) : (d.setGroup n l).get f0 i j = d.get f0 i j := rfl
@[simp] theorem Dev.flag_setGroup (d : Dev) (n : Nat) (l : Group) (f0 : Fld) (i j : Nat) : (d.setGroup n l).flag f0 i j = d.flag f0 i j := rfl
@[simp] theorem Dev.reg_setBough (d : Dev) (n : Nat) (l : Bough) (r0 : Reg) : (d.setBough n l).reg r0 = d.reg r0 := rfl
@[simp] theorem Dev.get_setBough (d : Dev) (n : Nat) (l : Bough) (f0 : Fld) (i j : Nat) : (d.setBough n l).get f0 i j = d.get f0 i j := rfl
@[simp] theorem Dev.flag_setBough (d : Dev) (n : Nat) (l : Bough) (f0 : Fld) (i j : Nat) : (d.setBough n l).flag f0 i j = d.flag f0 i j := rfl
@[simp] theorem Dev.reg_setHome (d : Dev) (n : Nat) (l : Home) (r0 : Reg) : (d.setHome n l).reg r0 = d.reg r0 := rfl
@[simp] theorem Dev.get_setHome (d : Dev) (n : Nat) (l : Home) (f0 : Fld) (i j : Nat) : (d.setHome n l).get f0 i j = d.get f0 i j := rfl
@[simp] theorem Dev.flag_setHome (d : Dev) (n : Nat) (l : Home) (f0 : Fld) (i j : Nat) : (d.setHome n l).flag f0 i j = d.flag f0 i j := rfl
@[simp] theorem Dev.reg_setGate (d : Dev) (n : Nat) (l : Gate) (r0 : Reg) : (d.setGate n l).reg r0 = d.reg r0 := rfl
@[simp] theorem Dev.get_setGate (d : Dev) (n : Nat) (l : Gate) (f0 : Fld) (i j : Nat) : (d.setGate n l).get f0 i j = d.get f0 i j := rfl
@[simp] theorem Dev.flag_setGate (d : Dev) (n : Nat) (l : Gate) (f0 : Fld) (i j : Nat) : (d.setGate n l).flag f0 i j = d.flag f0 i j := rfl
@[simp] theorem Dev.reg_setChannel (d : Dev) (n : Nat) (l : MemCh) (r0 : Reg) : (d.setChannel n l).reg r0 = d.reg r0 := rfl
@[simp] theorem Dev.get_setChannel (d : Dev) (n : Nat) (l : MemCh) (f0 : Fld) (i j : Nat) : (d.setChannel n l).get f0 i j = d.get f0 i j := rfl
@[simp] theorem Dev.flag_setChannel (d : Dev) (n : Nat) (l : MemCh) (f0 : Fld) (i j : Nat) : (d.setChannel n l).flag f0 i j = d.flag f0 i j := rfl
@[simp] theorem Dev.reg_setCopy (d : Dev) (n : Nat) (t : Word) (r0 : Reg) : (d.setCopy n t).reg r0 = d.reg r0 := rfl
@[simp] theorem Dev.get_setCopy (d : Dev) (n : Nat) (t : Word) (f0 : Fld) (i j : Nat) : (d.setCopy n t).get f0 i j = d.get f0 i j := rfl
@[simp] theorem Dev.flag_setCopy (d : Dev) (n : Nat) (t : Word) (f0 : Fld) (i j : Nat) : (d.setCopy n t).flag f0 i j = d.flag f0 i j := rfl
@[simp] theorem Dev.reg_setByte (d : Dev) (a : Nat) (b : Byte) (r0 : Reg) : (d.setByte a b).reg r0 = d.reg r0 := rfl
@[simp] theorem Dev.get_setByte (d : Dev) (a : Nat) (b : Byte) (f0 : Fld) (i j : Nat) : (d.setByte a b).get f0 i j = d.get f0 i j := rfl
@[simp] theorem Dev.flag_setByte (d : Dev) (a : Nat) (b : Byte) (f0 : Fld) (i j : Nat) : (d.setByte a b).flag f0 i j = d.flag f0 i j := rfl
@[simp] theorem Dev.reg_modBulk (d : Dev) (f : Bulk → Bulk) (r0 : Reg) : (d.modBulk f).reg r0 = d.reg r0 := rfl
@[simp] theorem Dev.get_modBulk (d : Dev) (f : Bulk → Bulk) (f0 : Fld) (i j : Nat) : (d.modBulk f).get f0 i j = d.get f0 i j := rfl
@[simp] theorem Dev.flag_modBulk (d : Dev) (f : Bulk → Bulk) (f0 : Fld) (i j : Nat) : (d.modBulk f).flag f0 i j = d.flag f0 i j := rfl
@[simp] theorem Dev.reg_modFabric (d : Dev) (f : Fabric → Fabric) (r0 : Reg) : (d.modFabric f).reg r0 = d.reg r0 := rfl
@[simp] theorem Dev.get_modFabric (d : Dev) (f : Fabric → Fabric) (f0 : Fld) (i j : Nat) : (d.modFabric f).get f0 i j = d.get f0 i j := rfl
@[simp] theorem Dev.flag_modFabric (d : Dev) (f : Fabric → Fabric) (f0 : Fld) (i j : Nat) : (d.modFabric f).flag f0 i j = d.flag f0 i j := rfl
@[simp] theorem Dev.reg_modSide (d : Dev) (g : GraftEnd) (f : GraftSide → GraftSide) (r0 : Reg) : (d.modSide g f).reg r0 = d.reg r0 := rfl
@[simp] theorem Dev.get_modSide (d : Dev) (g : GraftEnd) (f : GraftSide → GraftSide) (f0 : Fld) (i j : Nat) : (d.modSide g f).get f0 i j = d.get f0 i j := rfl
@[simp] theorem Dev.flag_modSide (d : Dev) (g : GraftEnd) (f : GraftSide → GraftSide) (f0 : Fld) (i j : Nat) : (d.modSide g f).flag f0 i j = d.flag f0 i j := rfl
@[simp] theorem Dev.reg_modHome (d : Dev) (q : Nat) (f : Home → Home) (r0 : Reg) : (d.modHome q f).reg r0 = d.reg r0 := rfl
@[simp] theorem Dev.get_modHome (d : Dev) (q : Nat) (f : Home → Home) (f0 : Fld) (i j : Nat) : (d.modHome q f).get f0 i j = d.get f0 i j := rfl
@[simp] theorem Dev.flag_modHome (d : Dev) (q : Nat) (f : Home → Home) (f0 : Fld) (i j : Nat) : (d.modHome q f).flag f0 i j = d.flag f0 i j := rfl
@[simp] theorem Dev.reg_modLeaf (d : Dev) (n : Nat) (f : Leaf → Leaf) (r0 : Reg) : (d.modLeaf n f).reg r0 = d.reg r0 := rfl
@[simp] theorem Dev.get_modLeaf (d : Dev) (n : Nat) (f : Leaf → Leaf) (f0 : Fld) (i j : Nat) : (d.modLeaf n f).get f0 i j = d.get f0 i j := rfl
@[simp] theorem Dev.flag_modLeaf (d : Dev) (n : Nat) (f : Leaf → Leaf) (f0 : Fld) (i j : Nat) : (d.modLeaf n f).flag f0 i j = d.flag f0 i j := rfl
@[simp] theorem Dev.reg_modLee (d : Dev) (n : Nat) (f : Lee → Lee) (r0 : Reg) : (d.modLee n f).reg r0 = d.reg r0 := rfl
@[simp] theorem Dev.get_modLee (d : Dev) (n : Nat) (f : Lee → Lee) (f0 : Fld) (i j : Nat) : (d.modLee n f).get f0 i j = d.get f0 i j := rfl
@[simp] theorem Dev.flag_modLee (d : Dev) (n : Nat) (f : Lee → Lee) (f0 : Fld) (i j : Nat) : (d.modLee n f).flag f0 i j = d.flag f0 i j := rfl
@[simp] theorem Dev.reg_modBough (d : Dev) (n : Nat) (f : Bough → Bough) (r0 : Reg) : (d.modBough n f).reg r0 = d.reg r0 := rfl
@[simp] theorem Dev.get_modBough (d : Dev) (n : Nat) (f : Bough → Bough) (f0 : Fld) (i j : Nat) : (d.modBough n f).get f0 i j = d.get f0 i j := rfl
@[simp] theorem Dev.flag_modBough (d : Dev) (n : Nat) (f : Bough → Bough) (f0 : Fld) (i j : Nat) : (d.modBough n f).flag f0 i j = d.flag f0 i j := rfl
@[simp] theorem Dev.reg_modMgmt (d : Dev) (f : Mgmt → Mgmt) (r0 : Reg) : (d.modMgmt f).reg r0 = d.reg r0 := rfl
@[simp] theorem Dev.get_modMgmt (d : Dev) (f : Mgmt → Mgmt) (f0 : Fld) (i j : Nat) : (d.modMgmt f).get f0 i j = d.get f0 i j := rfl
@[simp] theorem Dev.flag_modMgmt (d : Dev) (f : Mgmt → Mgmt) (f0 : Fld) (i j : Nat) : (d.modMgmt f).flag f0 i j = d.flag f0 i j := rfl
@[simp] theorem Dev.reg_modChannel (d : Dev) (n : Nat) (f : MemCh → MemCh) (r0 : Reg) : (d.modChannel n f).reg r0 = d.reg r0 := rfl
@[simp] theorem Dev.get_modChannel (d : Dev) (n : Nat) (f : MemCh → MemCh) (f0 : Fld) (i j : Nat) : (d.modChannel n f).get f0 i j = d.get f0 i j := rfl
@[simp] theorem Dev.flag_modChannel (d : Dev) (n : Nat) (f : MemCh → MemCh) (f0 : Fld) (i j : Nat) : (d.modChannel n f).flag f0 i j = d.flag f0 i j := rfl
@[simp] theorem Dev.reg_modPower (d : Dev) (f : Power → Power) (r0 : Reg) : (d.modPower f).reg r0 = d.reg r0 := rfl
@[simp] theorem Dev.get_modPower (d : Dev) (f : Power → Power) (f0 : Fld) (i j : Nat) : (d.modPower f).get f0 i j = d.get f0 i j := rfl
@[simp] theorem Dev.flag_modPower (d : Dev) (f : Power → Power) (f0 : Fld) (i j : Nat) : (d.modPower f).flag f0 i j = d.flag f0 i j := rfl
@[simp] theorem Dev.reg_modSpan (d : Dev) (n : Nat) (f : SpanSide → SpanSide) (r0 : Reg) : (d.modSpan n f).reg r0 = d.reg r0 := rfl
@[simp] theorem Dev.get_modSpan (d : Dev) (n : Nat) (f : SpanSide → SpanSide) (f0 : Fld) (i j : Nat) : (d.modSpan n f).get f0 i j = d.get f0 i j := rfl
@[simp] theorem Dev.flag_modSpan (d : Dev) (n : Nat) (f : SpanSide → SpanSide) (f0 : Fld) (i j : Nat) : (d.modSpan n f).flag f0 i j = d.flag f0 i j := rfl
@[simp] theorem Dev.reg_modBoard (d : Dev) (f : Board → Board) (r0 : Reg) : (d.modBoard f).reg r0 = d.reg r0 := rfl
@[simp] theorem Dev.get_modBoard (d : Dev) (f : Board → Board) (f0 : Fld) (i j : Nat) : (d.modBoard f).get f0 i j = d.get f0 i j := rfl
@[simp] theorem Dev.flag_modBoard (d : Dev) (f : Board → Board) (f0 : Fld) (i j : Nat) : (d.modBoard f).flag f0 i j = d.flag f0 i j := rfl
@[simp] theorem Dev.reg_modPacker (d : Dev) (n : Nat) (f : Packer → Packer) (r0 : Reg) : (d.modPacker n f).reg r0 = d.reg r0 := rfl
@[simp] theorem Dev.get_modPacker (d : Dev) (n : Nat) (f : Packer → Packer) (f0 : Fld) (i j : Nat) : (d.modPacker n f).get f0 i j = d.get f0 i j := rfl
@[simp] theorem Dev.flag_modPacker (d : Dev) (n : Nat) (f : Packer → Packer) (f0 : Fld) (i j : Nat) : (d.modPacker n f).flag f0 i j = d.flag f0 i j := rfl
@[simp] theorem Dev.reg_modTrace (d : Dev) (f : TraceUnit → TraceUnit) (r0 : Reg) : (d.modTrace f).reg r0 = d.reg r0 := rfl
@[simp] theorem Dev.get_modTrace (d : Dev) (f : TraceUnit → TraceUnit) (f0 : Fld) (i j : Nat) : (d.modTrace f).get f0 i j = d.get f0 i j := rfl
@[simp] theorem Dev.flag_modTrace (d : Dev) (f : TraceUnit → TraceUnit) (f0 : Fld) (i j : Nat) : (d.modTrace f).flag f0 i j = d.flag f0 i j := rfl
@[simp] theorem Dev.reg_modTtu (d : Dev) (f : Ttu → Ttu) (r0 : Reg) : (d.modTtu f).reg r0 = d.reg r0 := rfl
@[simp] theorem Dev.get_modTtu (d : Dev) (f : Ttu → Ttu) (f0 : Fld) (i j : Nat) : (d.modTtu f).get f0 i j = d.get f0 i j := rfl
@[simp] theorem Dev.flag_modTtu (d : Dev) (f : Ttu → Ttu) (f0 : Fld) (i j : Nat) : (d.modTtu f).flag f0 i j = d.flag f0 i j := rfl

/-! ### freeNext -/

@[simp] theorem Dev.freeNext_fst (d : Dev) : d.freeNext.1 = Config.freeWord d.free := rfl
@[simp] theorem Dev.freeNext_regs (d : Dev) : d.freeNext.2.regs = d.regs := rfl
@[simp] theorem Dev.freeNext_mem (d : Dev) : d.freeNext.2.mem = d.mem := rfl
@[simp] theorem Dev.freeNext_poison (d : Dev) : d.freeNext.2.poison = d.poison := rfl
@[simp] theorem Dev.freeNext_wire (d : Dev) : d.freeNext.2.wire = d.wire := rfl
@[simp] theorem Dev.freeNext_resp (d : Dev) : d.freeNext.2.resp = d.resp := rfl
@[simp] theorem Dev.freeNext_ring (d : Dev) : d.freeNext.2.ring = d.ring := rfl
@[simp] theorem Dev.freeNext_copies (d : Dev) : d.freeNext.2.copies = d.copies := rfl
@[simp] theorem Dev.freeNext_leaves (d : Dev) : d.freeNext.2.leaves = d.leaves := rfl
@[simp] theorem Dev.freeNext_lees (d : Dev) : d.freeNext.2.lees = d.lees := rfl
@[simp] theorem Dev.freeNext_groups (d : Dev) : d.freeNext.2.groups = d.groups := rfl
@[simp] theorem Dev.freeNext_boughs (d : Dev) : d.freeNext.2.boughs = d.boughs := rfl
@[simp] theorem Dev.freeNext_homes (d : Dev) : d.freeNext.2.homes = d.homes := rfl
@[simp] theorem Dev.freeNext_fabric (d : Dev) : d.freeNext.2.fabric = d.fabric := rfl
@[simp] theorem Dev.freeNext_evc (d : Dev) : d.freeNext.2.evc = d.evc := rfl
@[simp] theorem Dev.freeNext_evcBusy (d : Dev) : d.freeNext.2.evcBusy = d.evcBusy := rfl
@[simp] theorem Dev.freeNext_evAcc (d : Dev) : d.freeNext.2.evAcc = d.evAcc := rfl
@[simp] theorem Dev.freeNext_pulse (d : Dev) : d.freeNext.2.pulse = d.pulse := rfl
@[simp] theorem Dev.freeNext_firewall (d : Dev) : d.freeNext.2.firewall = d.firewall := rfl
@[simp] theorem Dev.freeNext_remoteSends (d : Dev) : d.freeNext.2.remoteSends = d.remoteSends := rfl
@[simp] theorem Dev.freeNext_lateTags (d : Dev) : d.freeNext.2.lateTags = d.lateTags := rfl
@[simp] theorem Dev.freeNext_channels (d : Dev) : d.freeNext.2.channels = d.channels := rfl
@[simp] theorem Dev.freeNext_cxl (d : Dev) : d.freeNext.2.cxl = d.cxl := rfl
@[simp] theorem Dev.freeNext_grafts (d : Dev) : d.freeNext.2.grafts = d.grafts := rfl
@[simp] theorem Dev.freeNext_spans (d : Dev) : d.freeNext.2.spans = d.spans := rfl
@[simp] theorem Dev.freeNext_copyState (d : Dev) : d.freeNext.2.copyState = d.copyState := rfl
@[simp] theorem Dev.freeNext_master (d : Dev) : d.freeNext.2.master = d.master := rfl
@[simp] theorem Dev.freeNext_packers (d : Dev) : d.freeNext.2.packers = d.packers := rfl
@[simp] theorem Dev.freeNext_trace (d : Dev) : d.freeNext.2.trace = d.trace := rfl
@[simp] theorem Dev.freeNext_power (d : Dev) : d.freeNext.2.power = d.power := rfl
@[simp] theorem Dev.freeNext_ttu (d : Dev) : d.freeNext.2.ttu = d.ttu := rfl
@[simp] theorem Dev.freeNext_hio (d : Dev) : d.freeNext.2.hio = d.hio := rfl
@[simp] theorem Dev.freeNext_flash (d : Dev) : d.freeNext.2.flash = d.flash := rfl
@[simp] theorem Dev.freeNext_bulk (d : Dev) : d.freeNext.2.bulk = d.bulk := rfl
@[simp] theorem Dev.freeNext_fuse (d : Dev) : d.freeNext.2.fuse = d.fuse := rfl
@[simp] theorem Dev.freeNext_nvm (d : Dev) : d.freeNext.2.nvm = d.nvm := rfl
@[simp] theorem Dev.freeNext_mgmt (d : Dev) : d.freeNext.2.mgmt = d.mgmt := rfl
@[simp] theorem Dev.freeNext_board (d : Dev) : d.freeNext.2.board = d.board := rfl
@[simp] theorem Dev.freeNext_tap (d : Dev) : d.freeNext.2.tap = d.tap := rfl
@[simp] theorem Dev.freeNext_answer (d : Dev) : d.freeNext.2.answer = d.answer := rfl

/-! ### Packets under way -/

/-- What a unit sends, if anything, is one packet more under way. -/
theorem Dev.emit_frame (d : Dev) (p : Packet) : ∃ w, d.emit p = { d with wire := w } := by
  unfold Dev.emit; split <;> exact ⟨_, rfl⟩

/-- A packet that no engaged proxy cuts is sent. -/
theorem Dev.emit_send {d : Dev} {p : Packet} (h : d.cutAtPort p = false) : d.emit p = d.send p := by simp [Dev.emit, h]

@[simp] theorem Dev.sent_pkt (d : Dev) (p : Packet) : (d.sent p).pkt = p := by
  unfold Dev.sent; dsimp only; split <;> [rfl; (split <;> rfl)]

@[simp] theorem Dev.packets_send (d : Dev) (p : Packet) : (d.send p).packets = d.packets ++ [p] := by
  simp [Dev.packets, Dev.send]

/-- A packet that arrives is under way once less. -/
@[simp] theorem Dev.packets_take (d : Dev) (p : Packet) : (d.take p).packets = d.packets.erase p := by
  unfold Dev.packets Dev.take
  dsimp only
  induction d.wire with
  | nil => rfl
  | cons a t ih =>
    by_cases h : a.pkt = p
    · simp [h]
    · have hb : (a.pkt == p) = false := by simp [h]
      simp [hb, ih]

/-! ### Registers and fields -/

@[simp] theorem Dev.reg_setReg_same (d : Dev) (r : Reg) (w : Word) : (d.setReg r w).reg r = w := by
  simp [Dev.reg, Dev.setReg]

theorem Dev.reg_setReg_other (d : Dev) {r q : Reg} (w : Word) (h : q ≠ r) : (d.setReg r w).reg q = d.reg q := by
  simp [Dev.reg, Dev.setReg, KMap.find_set_other _ _ _ _ _ h]

theorem Dev.reg_put_other (d : Dev) (f : Fld) (v u k : Nat) {q : Reg} (h : q ≠ ⟨f.reg, u, k⟩) :
    (d.put f v u k).reg q = d.reg q := Dev.reg_setReg_other d _ h

theorem Dev.reg_put_same (d : Dev) (f : Fld) (v u k : Nat) :
    (d.put f v u k).reg ⟨f.reg, u, k⟩ = (d.reg ⟨f.reg, u, k⟩).setBits f.hi f.lo v := Dev.reg_setReg_same d _ _

/-- A field reads what was put into it, as far as it is wide. -/
theorem Dev.get_put_same (d : Dev) (f : Fld) (v u k : Nat) (h1 : f.lo ≤ f.hi) (h2 : f.hi < 64) :
    (d.put f v u k).get f u k = v % 2 ^ (f.hi - f.lo + 1) := by
  simp only [Dev.get, Dev.reg_put_same, Word.bits_setBits_same _ _ _ _ h1 h2]

/-- A field of another register keeps its value. -/
theorem Dev.get_put_reg (d : Dev) (f g : Fld) (v u k u' k' : Nat) (h : (⟨g.reg, u', k'⟩ : Reg) ≠ ⟨f.reg, u, k⟩) :
    (d.put f v u k).get g u' k' = d.get g u' k' := by
  simp only [Dev.get, Dev.reg_put_other d f v u k h]

/-- A field beside it in the same register keeps its value. -/
theorem Dev.get_put_beside (d : Dev) (f g : Fld) (v u k : Nat) (hr : g.reg = f.reg) (h1 : f.lo ≤ f.hi) (h2 : f.hi < 64)
    (h3 : g.lo ≤ g.hi) (h4 : f.hi < g.lo ∨ g.hi < f.lo) : (d.put f v u k).get g u k = d.get g u k := by
  simp only [Dev.get, hr, Dev.reg_put_same, Word.bits_setBits_other _ _ _ _ _ _ h1 h2 h3 h4]

/-- A field of a register of another name keeps its value. -/
theorem Dev.get_put_name (d : Dev) (f g : Fld) (v u k u' k' : Nat) (h : g.reg ≠ f.reg) :
    (d.put f v u k).get g u' k' = d.get g u' k' :=
  Dev.get_put_reg d f g v u k u' k' fun e => h (congrArg Reg.name e)

/-- A field of a register of the same name in another unit or place keeps its value. -/
theorem Dev.get_put_index (d : Dev) (f g : Fld) (v u k u' k' : Nat) (h : u' ≠ u ∨ k' ≠ k) :
    (d.put f v u k).get g u' k' = d.get g u' k' :=
  Dev.get_put_reg d f g v u k u' k' fun e => h.elim (fun h => h (congrArg Reg.u e)) fun h => h (congrArg Reg.k e)

/-- The same of a one-bit field. -/
theorem Dev.flag_put_name (d : Dev) (f g : Fld) (v u k u' k' : Nat) (h : g.reg ≠ f.reg) :
    (d.put f v u k).flag g u' k' = d.flag g u' k' := by simp [Dev.flag, Dev.get_put_name d f g v u k u' k' h]

/-- A one-bit field beside a field that is put keeps its value. -/
theorem Dev.flag_put_beside (d : Dev) (f g : Fld) (v u k : Nat) (hr : g.reg = f.reg) (h1 : f.lo ≤ f.hi) (h2 : f.hi < 64)
    (h3 : g.lo ≤ g.hi) (h4 : f.hi < g.lo ∨ g.hi < f.lo) : (d.put f v u k).flag g u k = d.flag g u k := by
  simp [Dev.flag, Dev.get_put_beside d f g v u k hr h1 h2 h3 h4]

/-- A one-bit field reads what was put into it. -/
theorem Dev.flag_put_same (d : Dev) (f : Fld) (v u k : Nat) (h1 : f.lo ≤ f.hi) (h2 : f.hi < 64) :
    (d.put f v u k).flag f u k = (v % 2 ^ (f.hi - f.lo + 1) != 0) := by simp only [Dev.flag, Dev.get_put_same d f v u k h1 h2]

/-- A register of another name than the field's keeps its value. -/
theorem Dev.reg_put_name (d : Dev) (f : Fld) (v u k : Nat) (q : Reg) (h : q.name ≠ f.reg) : (d.put f v u k).reg q = d.reg q :=
  Dev.reg_put_other d f v u k fun e => h (congrArg Reg.name e)

/-- Registers read the same where their list is the same. -/
theorem Dev.reg_of_regs {d d' : Dev} (h : d'.regs = d.regs) (r : Reg) : d'.reg r = d.reg r := by simp [Dev.reg, h]

theorem Dev.get_of_regs {d d' : Dev} (h : d'.regs = d.regs) (f : Fld) (u k : Nat) : d'.get f u k = d.get f u k := by
  simp [Dev.get, Dev.reg_of_regs h]

theorem Dev.flag_of_regs {d d' : Dev} (h : d'.regs = d.regs) (f : Fld) (u k : Nat) : d'.flag f u k = d.flag f u k := by
  simp [Dev.flag, Dev.get_of_regs h]

/-! ### Units -/

@[simp] theorem Dev.leaf_setLeaf (d : Dev) (n : Nat) (l : Leaf) : (d.setLeaf n l).leaf n = l := by simp [Dev.leaf, Dev.setLeaf]
theorem Dev.leaf_setLeaf_other (d : Dev) {n m : Nat} (l : Leaf) (h : m ≠ n) : (d.setLeaf n l).leaf m = d.leaf m := by
  simp [Dev.leaf, Dev.setLeaf, KMap.find_set_other _ _ _ _ _ h]
@[simp] theorem Dev.lee_setLee (d : Dev) (n : Nat) (l : Lee) : (d.setLee n l).lee n = l := by simp [Dev.lee, Dev.setLee]
theorem Dev.lee_setLee_other (d : Dev) {n m : Nat} (l : Lee) (h : m ≠ n) : (d.setLee n l).lee m = d.lee m := by
  simp [Dev.lee, Dev.setLee, KMap.find_set_other _ _ _ _ _ h]
@[simp] theorem Dev.byte_setByte (d : Dev) (a : Nat) (b : Byte) : (d.setByte a b).byte a = b := by simp [Dev.byte, Dev.setByte]
theorem Dev.byte_setByte_other (d : Dev) {a c : Nat} (b : Byte) (h : c ≠ a) : (d.setByte a b).byte c = d.byte c := by
  simp [Dev.byte, Dev.setByte, KMap.find_set_other _ _ _ _ _ h]

/-! ### What the units' presence depends on -/

/-- Which sites are active depends on the registers alone. -/
theorem Dev.siteActive_of {d d' : Dev} (h : d'.regs = d.regs) (n : Nat) : d'.siteActive n = d.siteActive n := by
  simp [Dev.siteActive, Dev.get, Dev.reg, h]

/-- Which logical bough a site holds depends on the registers alone. -/
theorem Dev.boughAt_of {d d' : Dev} (h : d'.regs = d.regs) (n : Nat) : d'.boughAt n = d.boughAt n := by
  simp [Dev.boughAt, Dev.mapEntry, Dev.reg, h]

/-- At which site a leaf lies depends on the registers alone. -/
theorem Dev.leafSite_of {d d' : Dev} (h : d'.regs = d.regs) (n : Nat) : d'.leafSite n = d.leafSite n := by
  simp [Dev.leafSite, Dev.siteOf, Dev.mapEntry, Dev.reg, h]

/-- Which leaves exist depends on the registers alone. -/
theorem Dev.leafPresent_of {d d' : Dev} (h : d'.regs = d.regs) (n : Nat) : d'.leafPresent n = d.leafPresent n := by
  have e : d'.boughsB = d.boughsB := by simp [Dev.boughsB, Dev.get, Dev.reg, h]
  unfold Dev.leafPresent
  rw [e]

theorem Dev.siteActive_put (d : Dev) (f : Fld) (v u k n : Nat) (h : RegName.TRK_CAP ≠ f.reg) :
    (d.put f v u k).siteActive n = d.siteActive n := by
  simp only [Dev.siteActive, Dev.get_put_name d f TRK_CAP.SITE_ACTIVE v u k 0 0 h]

theorem Dev.boughAt_put (d : Dev) (f : Fld) (v u k n : Nat) (h : RegName.SIM_SITEMAP ≠ f.reg) :
    (d.put f v u k).boughAt n = d.boughAt n := by
  simp only [Dev.boughAt, Dev.mapEntry]; rw [Dev.reg_put_name _ _ _ _ _ _ h]

theorem Dev.leafSite_put (d : Dev) (f : Fld) (v u k n : Nat) (h : RegName.SIM_SITEMAP ≠ f.reg) :
    (d.put f v u k).leafSite n = d.leafSite n := by
  have e : ∀ s, (d.put f v u k).mapEntry s = d.mapEntry s := fun s => by
    simp only [Dev.mapEntry]; rw [Dev.reg_put_name _ _ _ _ _ _ h]
  simp only [Dev.leafSite, Dev.siteOf, e]

theorem Dev.leafPresent_put (d : Dev) (f : Fld) (v u k n : Nat) (h : RegName.TRK_CAP ≠ f.reg) :
    (d.put f v u k).leafPresent n = d.leafPresent n := by
  unfold Dev.leafPresent Dev.boughsB
  rw [Dev.get_put_name d f TRK_CAP.BOUGHS v u k 0 0 h]

theorem Dev.leePresent_put (d : Dev) (f : Fld) (v u k n : Nat) (h : RegName.TRK_CAP ≠ f.reg) :
    (d.put f v u k).leePresent n = d.leePresent n := by
  simp only [Dev.leePresent, Dev.leafPresent_put d f v u k n h]; rfl

/-! ### Power and commands -/

theorem Dev.settled_of_powered {d : Dev} (h : d.powered = true) : d.settled = d := by simp [Dev.settled, h]

/-- Whether the dies are powered depends on the board and on SLEEP alone. -/
theorem Dev.powered_of {d d' : Dev} (hb : d'.board = d.board) (hp : d'.power = d.power) : d'.powered = d.powered := by
  simp [Dev.powered, hb, hp]

theorem State.on_dev (s : State) (f : Dev → Dev) (h : s.dev.powered = true) : s.on f = { s with dev := (f s.dev).settled } := by
  simp [State.on, h]

theorem State.on_off (s : State) (f : Dev → Dev) (h : s.dev.powered = false) : s.on f = s := by simp [State.on, h]

@[simp] theorem State.on_pending (s : State) (f : Dev → Dev) : (s.on f).pending = s.pending := by
  unfold State.on; split <;> rfl

@[simp] theorem State.standby_pending (s : State) (f : Dev → Dev) : (s.standby f).pending = s.pending := rfl

/-- An operation that leaves the board and the power controller alone acts on powered dies as it is. -/
theorem State.on_powered (s : State) (f : Dev → Dev) (h : s.dev.powered = true) (hb : (f s.dev).board = s.dev.board)
    (hp : (f s.dev).power = s.dev.power) : s.on f = { s with dev := f s.dev } := by
  rw [State.on_dev s f h, Dev.settled_of_powered ((Dev.powered_of hb hp).trans h)]

end Sys2Proof.Machine
end

