-- ==== Sys2Proof/Laws/Command.lean ====
section
/-!
SUPPORT. What any command does to the state as a whole: it is an operation of the powered dies, or one of the standby domain.
-/

namespace Sys2Proof.Machine

/-- A command of the dies is an operation that a supply lets act. -/
theorem exec_on (c : Instr) (s : State) (h : standbyCommand c = false) : ∃ f : Dev → Dev, exec c s = .next (s.on f) := by
  cases c <;> first | exact ⟨_, rfl⟩ | exact absurd h (by simp [standbyCommand])

/-- Every command is an operation of the dies or of the standby domain. -/
theorem exec_shape (c : Instr) (s : State) :
    (∃ f : Dev → Dev, exec c s = .next (s.on f)) ∨ (∃ f : Dev → Dev, exec c s = .next (s.standby f)) := by
  cases c <;> first | exact .inl ⟨_, rfl⟩ | exact .inr ⟨_, rfl⟩

/-- What the standby domain does to dies without supply leaves nothing in them. -/
theorem Dev.settled_dark (d : Dev) (h : d.settled.powered = false) : d.settled.lifeless := by
  unfold Dev.settled at h ⊢
  split
  · rename_i hp; rw [if_pos hp, hp] at h; cases h
  · simp [Dev.lifeless, Dev.dark]

end Sys2Proof.Machine
end

