-- ==== Sys2Proof/Laws/Bus.lean ====
section
/-!
SUPPORT. What the operations of the register bus do: where an access goes depends on the registers, the fuses and the debug enable
alone; a write of read-only fields changes nothing; and an answer touches the bus, the messages and the device reads alone.
-/

namespace Sys2Proof.Machine

/-- Where an access goes depends on the registers, the fuses and the debug enable alone. -/
theorem Dev.regTarget_of {d d' : Dev} (hr : d'.regs = d.regs) (hf : d'.fuse = d.fuse) (hm : d'.mgmt = d.mgmt) (req : Requester)
    (a : Nat) : d'.regTarget req a = d.regTarget req a := by
  have h1 : ∀ s, d'.boughAt s = d.boughAt s := fun s => by simp [Dev.boughAt, Dev.mapEntry, Dev.reg, hr]
  have h2 : ∀ s, d'.siteActive s = d.siteActive s := fun s => by simp [Dev.siteActive, Dev.get, Dev.reg, hr]
  have h3 : d'.hasLee = d.hasLee := by simp [Dev.hasLee, hf]
  have h4 : d'.hasCapture = d.hasCapture := by simp [Dev.hasCapture, hf]
  have h5 : d'.groupsHere = d.groupsHere := by simp [Dev.groupsHere, hf]
  have h6 : ∀ b o, d'.noReg b o = d.noReg b o := fun b o => by simp [Dev.noReg, hm]
  have h7 : ∀ b u, d'.doorShut b u = d.doorShut b u := fun b u => by simp [Dev.doorShut, Dev.flag, Dev.get, Dev.reg, hr]
  have h8 : ∀ b u, d'.unitAbsent b u = d.unitAbsent b u := fun b u => by
    simp [Dev.unitAbsent, h2, h3, Dev.spanMask, Dev.rpMask, Dev.channelPresent, Dev.memMask, hf]
  unfold Dev.regTarget
  simp only [h1, h2, h3, h4, h5, h6, h7, h8]

@[simp] theorem Dev.regTarget_take (d : Dev) (p : Packet) (req : Requester) (a : Nat) :
    (d.take p).regTarget req a = d.regTarget req a := by
  apply Dev.regTarget_of
  · exact Dev.take_regs d p
  · exact Dev.take_fuse d p
  · exact Dev.take_mgmt d p

/-- A write of read-only fields alone changes no bit. -/
theorem writeFields_ro (l : List FieldRow) (h : ∀ f ∈ l, f.acc = .ro) (old v : Word) : writeFields l old v = old := by
  unfold writeFields
  induction l generalizing old with
  | nil => rfl
  | cons a l ih =>
    simp only [List.foldl_cons, h a List.mem_cons_self]
    exact ih (fun f hf => h f (List.mem_cons_of_mem _ hf)) old

/-- A field of a word is below 2^64. -/
theorem Word.bits_le (w : Word) (hi lo : Nat) : w.bits hi lo ≤ 2 ^ 64 - 1 := by
  have h1 : w.bits hi lo ≤ w.toNat >>> lo := Nat.mod_le _ _
  have h2 : w.toNat >>> lo ≤ w.toNat := by rw [Nat.shiftRight_eq_div_pow]; exact Nat.div_le_self _ _
  have h3 := w.isLt
  omega

/-- A write of a register with one read-write field gives that field the written bits. -/
theorem writeFields_one (hi lo rst : Nat) (old v : Word) :
    writeFields [.of hi lo .rw rst] old v = old.setBits hi lo (v.bits hi lo) := by
  have h : v.bits hi lo ≤ 2 ^ 64 - 1 := Word.bits_le v hi lo
  simp only [writeFields, FieldRow.of, List.foldl_cons, List.foldl_nil]
  rw [if_pos ⟨Nat.zero_le _, h⟩]

/-- A register given the value it has reads as before, as does every other. -/
theorem Dev.reg_setReg_self (d : Dev) (r q : Reg) : (d.setReg r (d.reg r)).reg q = d.reg q := by
  by_cases h : q = r
  · subst h; exact Dev.reg_setReg_same d _ _
  · exact Dev.reg_setReg_other d _ h

/-- An answer touches the bus, the messages and the device reads that wait, and nothing else. -/
theorem Dev.answerTo_frame (d : Dev) (req : Requester) (a : Nat) (v : Word) (e : Bool) :
    ∃ r w t, d.answerTo req a v e = { d with resp := r, wire := w, ttu := t } := by
  have send : ∀ (x : Dev) (p : Packet) (r : BusAnswer) (t : Ttu), x = { d with resp := r, ttu := t } →
      ∃ r w t, x.emit p = { d with resp := r, wire := w, ttu := t } := fun x p r t h => by
    obtain ⟨w, hw⟩ := x.emit_frame p
    exact ⟨r, w, t, by rw [hw, h]⟩
  unfold Dev.answerTo
  dsimp only
  split
  · split
    · exact send _ _ _ _ rfl
    · exact ⟨_, _, _, rfl⟩
  · split
    · exact ⟨_, _, _, rfl⟩
    · exact send _ _ _ _ rfl
  · exact ⟨_, _, _, rfl⟩

@[simp] theorem Dev.answerTo_regs (d : Dev) (req : Requester) (a : Nat) (v : Word) (e : Bool) :
    (d.answerTo req a v e).regs = d.regs := by
  obtain ⟨r, w, t, h⟩ := d.answerTo_frame req a v e; rw [h]

@[simp] theorem Dev.answerTo_board (d : Dev) (req : Requester) (a : Nat) (v : Word) (e : Bool) :
    (d.answerTo req a v e).board = d.board := by
  obtain ⟨r, w, t, h⟩ := d.answerTo_frame req a v e; rw [h]

@[simp] theorem Dev.answerTo_power (d : Dev) (req : Requester) (a : Nat) (v : Word) (e : Bool) :
    (d.answerTo req a v e).power = d.power := by
  obtain ⟨r, w, t, h⟩ := d.answerTo_frame req a v e; rw [h]

@[simp] theorem Dev.answerTo_mem (d : Dev) (req : Requester) (a : Nat) (v : Word) (e : Bool) :
    (d.answerTo req a v e).mem = d.mem := by
  obtain ⟨r, w, t, h⟩ := d.answerTo_frame req a v e; rw [h]

end Sys2Proof.Machine
end

