-- ==== Sys2Proof/Laws/Events.lean ====
section
/-!
SUPPORT. What raising an event, sending an interrupt and entering the safe state do, each said once.
-/

namespace Sys2Proof.Machine

/-- The registers in which a clock-domain crossing captures and counts its faults. -/
def cdcReg : RegName → Bool
  | .FAB_CDC_LOG | .FAB_CDC_CNT | .BGH_CDC_LOG | .BGH_CDC_CNT => true
  | _ => false

/-- Which sources a present unit owns depends on the registers and the fuses alone. -/
theorem Dev.sourcePresent_of {d d' : Dev} (hr : d'.regs = d.regs) (hf : d'.fuse = d.fuse) (n : Nat) :
    d'.sourcePresent n = d.sourcePresent n := by
  have h1 : ∀ s, d'.siteActive s = d.siteActive s := fun s => by simp [Dev.siteActive, Dev.get, Dev.reg, hr]
  have h2 : d'.groupsHere = d.groupsHere := by simp [Dev.groupsHere, hf]
  have h3 : d'.spanMask = d.spanMask := by simp [Dev.spanMask, hf]
  have h4 : d'.memMask = d.memMask := by simp [Dev.memMask, hf]
  have h5 : d'.rpMask = d.rpMask := by simp [Dev.rpMask, hf]
  have h6 : d'.hasLee = d.hasLee := by simp [Dev.hasLee, hf]
  simp only [Dev.sourcePresent, h1, h2, h3, h4, h5, h6]

@[simp] theorem Dev.sourcePresent_take (d : Dev) (p : Packet) (n : Nat) : (d.take p).sourcePresent n = d.sourcePresent n := by
  apply Dev.sourcePresent_of
  · exact Dev.take_regs d p
  · exact Dev.take_fuse d p

/-- A crossing fault changes registers alone. -/
theorem Dev.crossingFault_frame (d : Dev) (x : Crossing) (kind : Nat) :
    ∃ r, d.crossingFault x kind = { d with regs := r } := by
  unfold Dev.crossingFault
  split <;> dsimp only <;> split <;> split <;> exact ⟨_, rfl⟩

/-- A crossing fault changes the registers of crossings alone. -/
theorem Dev.crossingFault_reg (d : Dev) (x : Crossing) (kind : Nat) (q : Reg) (h : cdcReg q.name = false) :
    (d.crossingFault x kind).reg q = d.reg q := by
  have hn : ∀ f : Fld, cdcReg f.reg = true → q.name ≠ f.reg := fun f hf e => by rw [e, hf] at h; cases h
  unfold Dev.crossingFault Dev.bump
  split <;> dsimp only <;> split <;> split <;>
    simp only [Dev.reg_put_name _ _ _ _ _ _ (hn FAB_CDC_CNT.OVF rfl), Dev.reg_put_name _ _ _ _ _ _ (hn FAB_CDC_CNT.TMO rfl),
      Dev.reg_put_name _ _ _ _ _ _ (hn FAB_CDC_LOG.VALID rfl), Dev.reg_put_name _ _ _ _ _ _ (hn FAB_CDC_LOG.KIND rfl),
      Dev.reg_put_name _ _ _ _ _ _ (hn FAB_CDC_LOG.XING rfl), Dev.reg_put_name _ _ _ _ _ _ (hn FAB_CDC_LOG.RING rfl),
      Dev.reg_put_name _ _ _ _ _ _ (hn BGH_CDC_CNT.OVF rfl), Dev.reg_put_name _ _ _ _ _ _ (hn BGH_CDC_CNT.TMO rfl),
      Dev.reg_put_name _ _ _ _ _ _ (hn BGH_CDC_LOG.VALID rfl), Dev.reg_put_name _ _ _ _ _ _ (hn BGH_CDC_LOG.KIND rfl),
      Dev.reg_put_name _ _ _ _ _ _ (hn BGH_CDC_LOG.XING rfl), Dev.reg_put_name _ _ _ _ _ _ (hn BGH_CDC_LOG.RING rfl)]

/-- Raising an event touches the messages, the accumulators and the registers of crossings, and nothing else. -/
theorem Dev.raise_frame (d : Dev) (n : Nat) (i : EvInfo) :
    ∃ r w a, d.raise n i = { d with regs := r, wire := w, evAcc := a } := by
  unfold Dev.raise
  split
  · exact ⟨_, _, _, rfl⟩
  · split
    · exact ⟨_, _, _, rfl⟩
    · rename_i x _
      dsimp only
      split
      · exact ⟨_, _, _, rfl⟩
      · split
        · exact ⟨_, _, _, rfl⟩
        · obtain ⟨r, h⟩ := d.crossingFault_frame x 1
          exact ⟨r, d.wire, d.evAcc, h⟩

/-- A source of a present unit whose pulses no crossing carries sends its event at once. -/
theorem Dev.raise_near (d : Dev) (n : Nat) (i : EvInfo) (hp : d.sourcePresent n = true) (hl : d.pulseLost n = false)
    (hn : sourceCrossing n = none) : d.raise n i = d.send (.event n 1 i) := by
  simp [Dev.raise, hp, hl, hn]

/-- Over a crossing an event is sent at once where none of its source is on its way there. -/
theorem Dev.raise_first (d : Dev) (n : Nat) (i : EvInfo) (hp : d.sourcePresent n = true) (hl : d.pulseLost n = false)
    (hw : d.eventUnderWay n = false) : d.raise n i = d.send (.event n 1 i) := by
  unfold Dev.raise
  simp only [hp, hl, hw]
  cases sourceCrossing n <;> rfl

@[simp] theorem Dev.raise_reg (d : Dev) (n : Nat) (i : EvInfo) (q : Reg) (h : cdcReg q.name = false) :
    (d.raise n i).reg q = d.reg q := by
  unfold Dev.raise
  split
  · rfl
  · split
    · rfl
    · dsimp only
      split
      · rfl
      · split
        · rfl
        · exact Dev.crossingFault_reg _ _ _ _ h

@[simp] theorem Dev.raise_mem (d : Dev) (n : Nat) (i : EvInfo) : (d.raise n i).mem = d.mem := by
  obtain ⟨r, w, a, h⟩ := d.raise_frame n i; rw [h]

@[simp] theorem Dev.raise_board (d : Dev) (n : Nat) (i : EvInfo) : (d.raise n i).board = d.board := by
  obtain ⟨r, w, a, h⟩ := d.raise_frame n i; rw [h]

@[simp] theorem Dev.raise_power (d : Dev) (n : Nat) (i : EvInfo) : (d.raise n i).power = d.power := by
  obtain ⟨r, w, a, h⟩ := d.raise_frame n i; rw [h]

@[simp] theorem Dev.raise_leaves (d : Dev) (n : Nat) (i : EvInfo) : (d.raise n i).leaves = d.leaves := by
  obtain ⟨r, w, a, h⟩ := d.raise_frame n i; rw [h]

@[simp] theorem Dev.raise_ring (d : Dev) (n : Nat) (i : EvInfo) : (d.raise n i).ring = d.ring := by
  obtain ⟨r, w, a, h⟩ := d.raise_frame n i; rw [h]

@[simp] theorem Dev.raise_fuse (d : Dev) (n : Nat) (i : EvInfo) : (d.raise n i).fuse = d.fuse := by
  obtain ⟨r, w, a, h⟩ := d.raise_frame n i; rw [h]

/-- A field of a register that no crossing owns keeps its value. -/
theorem Dev.raise_get (d : Dev) (n : Nat) (i : EvInfo) (f : Fld) (u k : Nat) (h : cdcReg f.reg = false) :
    (d.raise n i).get f u k = d.get f u k := by
  unfold Dev.get; rw [Dev.raise_reg _ _ _ _ h]

theorem Dev.raise_flag (d : Dev) (n : Nat) (i : EvInfo) (f : Fld) (u k : Nat) (h : cdcReg f.reg = false) :
    (d.raise n i).flag f u k = d.flag f u k := by
  unfold Dev.flag; rw [Dev.raise_get _ _ _ _ _ _ h]

/-- An interrupt is a message and nothing else. -/
theorem Dev.sendMsi_frame (d : Dev) (t : Nat) : ∃ w, d.sendMsi t = { d with wire := w } := by
  unfold Dev.sendMsi
  split
  · exact Dev.emit_frame _ _
  · exact ⟨_, rfl⟩

@[simp] theorem Dev.sendMsi_regs (d : Dev) (t : Nat) : (d.sendMsi t).regs = d.regs := by
  obtain ⟨w, h⟩ := d.sendMsi_frame t; rw [h]
@[simp] theorem Dev.sendMsi_board (d : Dev) (t : Nat) : (d.sendMsi t).board = d.board := by
  obtain ⟨w, h⟩ := d.sendMsi_frame t; rw [h]
@[simp] theorem Dev.sendMsi_power (d : Dev) (t : Nat) : (d.sendMsi t).power = d.power := by
  obtain ⟨w, h⟩ := d.sendMsi_frame t; rw [h]
@[simp] theorem Dev.sendMsi_mem (d : Dev) (t : Nat) : (d.sendMsi t).mem = d.mem := by
  obtain ⟨w, h⟩ := d.sendMsi_frame t; rw [h]

/-- A target word with EN = 0 delivers nothing. -/
theorem Dev.sendMsi_off (d : Dev) (t : Nat) (h : bit t 31 = false) : d.sendMsi t = d := by simp [Dev.sendMsi, h]

end Sys2Proof.Machine
end

