-- ==== Sys2Proof/Laws/Leaf.lean ====
section
/-!
SUPPORT. Laws of leaf cores: control and status registers after a write, what counting an event, taking an exception and mapping an
access can change.
-/

namespace Sys2Proof.Machine

/-! ### Control and status registers -/

@[simp] theorem Leaf.csrRaw_setCsr (l : Leaf) (c : Nat) (v : Word) : (l.setCsr c v).csrRaw c = v := by
  simp [Leaf.csrRaw, Leaf.setCsr]

theorem Leaf.csrRaw_setCsr_other (l : Leaf) {c c' : Nat} (v : Word) (h : c' ≠ c) : (l.setCsr c v).csrRaw c' = l.csrRaw c' := by
  simp only [Leaf.csrRaw, Leaf.setCsr]
  exact KMap.find_set_other natLt (csrReset c) (csrReset c') v l.csr h

@[simp] theorem Leaf.setCsr_x (l : Leaf) (c : Nat) (v : Word) : (l.setCsr c v).x = l.x := rfl
@[simp] theorem Leaf.setCsr_f (l : Leaf) (c : Nat) (v : Word) : (l.setCsr c v).f = l.f := rfl
@[simp] theorem Leaf.setCsr_v (l : Leaf) (c : Nat) (v : Word) : (l.setCsr c v).v = l.v := rfl
@[simp] theorem Leaf.setCsr_pc (l : Leaf) (c : Nat) (v : Word) : (l.setCsr c v).pc = l.pc := rfl
@[simp] theorem Leaf.setCsr_mode (l : Leaf) (c : Nat) (v : Word) : (l.setCsr c v).mode = l.mode := rfl
@[simp] theorem Leaf.setCsr_resv (l : Leaf) (c : Nat) (v : Word) : (l.setCsr c v).resv = l.resv := rfl
@[simp] theorem Leaf.setCsr_misses (l : Leaf) (c : Nat) (v : Word) : (l.setCsr c v).misses = l.misses := rfl
@[simp] theorem Leaf.setCsr_tlb (l : Leaf) (c : Nat) (v : Word) : (l.setCsr c v).tlb = l.tlb := rfl

/-- A change of a leaf that its control and status registers and its TLBs take alone. -/
def Leaf.onlyCsrTlb (l l' : Leaf) : Prop := ∃ c t, l' = { l with csr := c, tlb := t }

theorem Leaf.onlyCsrTlb_refl (l : Leaf) : l.onlyCsrTlb l := ⟨l.csr, l.tlb, rfl⟩

theorem Leaf.onlyCsrTlb.trans {a b c : Leaf} (h : a.onlyCsrTlb b) (h' : b.onlyCsrTlb c) : a.onlyCsrTlb c := by
  obtain ⟨x, y, rfl⟩ := h
  obtain ⟨u, v, rfl⟩ := h'
  exact ⟨u, v, rfl⟩

theorem Leaf.onlyCsrTlb_setCsr (l : Leaf) (c : Nat) (v : Word) : l.onlyCsrTlb (l.setCsr c v) := ⟨_, l.tlb, rfl⟩

/-- Counting an event changes counters alone. -/
theorem Leaf.onlyCsrTlb_countEvent (l : Leaf) (code : Nat) : l.onlyCsrTlb (l.countEvent code) := by
  unfold Leaf.countEvent
  generalize List.range 29 = ks
  induction ks generalizing l with
  | nil => exact l.onlyCsrTlb_refl
  | cons k t ih =>
    simp only [List.foldl_cons]
    refine Leaf.onlyCsrTlb.trans ?_ (ih _)
    split
    · exact l.onlyCsrTlb_setCsr _ _
    · exact l.onlyCsrTlb_refl

/-! ### Exceptions -/

/-- Taking an exception changes the leaf that takes it and nothing else. -/
theorem Dev.exception_frame (d : Dev) (n code : Nat) (tval : Word) (gpa : Nat) (hv : Bool) :
    ∃ l, d.exception n code tval gpa hv = d.setLeaf n l := by
  unfold Dev.exception
  dsimp only
  split <;> exact ⟨_, rfl⟩

/-- Taking a trap leaves the registers, the reservation and the miss entries of the leaf. -/
theorem Leaf.trapTo_frame (l : Leaf) (dest : Mode) (i : Bool) (code : Nat) (tval : Word) (gpa : Nat) (gva : Bool) :
    (l.trapTo dest i code tval gpa gva).x = l.x ∧ (l.trapTo dest i code tval gpa gva).f = l.f
      ∧ (l.trapTo dest i code tval gpa gva).v = l.v ∧ (l.trapTo dest i code tval gpa gva).resv = l.resv
      ∧ (l.trapTo dest i code tval gpa gva).misses = l.misses ∧ (l.trapTo dest i code tval gpa gva).tlb = l.tlb := by
  cases dest <;> simp only [Leaf.trapTo, Leaf.setCsr_x, Leaf.setCsr_f, Leaf.setCsr_v, Leaf.setCsr_resv, Leaf.setCsr_misses,
    Leaf.setCsr_tlb, and_self]

/-! ### Mapping an access -/

/-- A change that a leaf's control and status registers and TLBs, and the count of free values, take alone. -/
structure Dev.MapsOnly (d : Dev) (n : Nat) (d' : Dev) : Prop where
  rest : d' = { d with leaves := d'.leaves, free := d'.free }
  others : ∀ m, m ≠ n → d'.leaf m = d.leaf m
  own : (d.leaf n).onlyCsrTlb (d'.leaf n)

theorem Dev.mapsOnly_refl (d : Dev) (n : Nat) : d.MapsOnly n d := ⟨rfl, fun _ _ => rfl, (d.leaf n).onlyCsrTlb_refl⟩

theorem Dev.mapsOnly_modLeaf {d d' : Dev} {n : Nat} {g : Leaf → Leaf} (h : d.MapsOnly n d') (hg : ∀ l : Leaf, l.onlyCsrTlb (g l)) :
    d.MapsOnly n (d'.modLeaf n g) := by
  refine ⟨?_, fun m hm => ?_, ?_⟩
  · rw [h.rest]
    rfl
  · rw [Dev.modLeaf, Dev.leaf_setLeaf_other _ _ hm, h.others m hm]
  · rw [Dev.modLeaf, Dev.leaf_setLeaf]
    exact h.own.trans (hg _)

theorem Dev.mapsOnly_freeNext {d d' : Dev} {n : Nat} (h : d.MapsOnly n d') : d.MapsOnly n d'.freeNext.2 :=
  ⟨by rw [h.rest]; rfl, h.others, h.own⟩

/-- Translating a page changes the leaf's TLBs and counters, and takes free values, alone. -/
theorem Dev.mapPage_frame (d : Dev) (n : Nat) (m : Mode) (kind : AccKind) (hx : Bool) (va : Word)
    (again : Option Nat) : d.MapsOnly n (d.mapPage n m kind hx va again).2 := by
  have htlb : ∀ (p : TlbEntry → Bool) (l : Leaf), l.onlyCsrTlb { l with tlb := l.tlb.filter p } := fun _ l => ⟨l.csr, _, rfl⟩
  have hins : ∀ (e : TlbEntry) (l : Leaf), l.onlyCsrTlb ({ l with tlb := e :: l.tlb }.countEvent 0x32) := fun e l =>
    Leaf.onlyCsrTlb.trans ⟨l.csr, _, rfl⟩ (Leaf.onlyCsrTlb_countEvent _ _)
  have hev : ∀ (c : Nat) (l : Leaf), l.onlyCsrTlb (l.countEvent c) := fun c l => l.onlyCsrTlb_countEvent c
  have hev2 : ∀ (l : Leaf), l.onlyCsrTlb ((l.countEvent 0x32).countEvent 0x33) := fun l => (hev 0x32 l).trans (hev 0x33 _)
  have walk : ∀ d' : Dev, d.MapsOnly n d' → ∀ c, ∀ b : Bool,
      d.MapsOnly n (if b then d'.modLeaf n fun l => { l with tlb := l.tlb.filter fun e => !e.hits ((d.leaf n).world m) kind va }
        else (d'.modLeaf n fun l => { l with tlb := l.tlb.filter fun e => !e.hits ((d.leaf n).world m) kind va }).modLeaf n
          fun l => l.countEvent c) := fun d' h c b => by
    split
    · exact Dev.mapsOnly_modLeaf h (htlb _)
    · exact Dev.mapsOnly_modLeaf (Dev.mapsOnly_modLeaf h (htlb _)) (hev c)
  unfold Dev.mapPage
  dsimp only
  split
  · exact d.mapsOnly_refl n
  · cases (d.leaf n).tlb.find? fun e => e.hits ((d.leaf n).world m) kind va && e.admits ((d.leaf n).world m) kind hx with
    | none =>
      have h := walk d (d.mapsOnly_refl n) (if kind == .fetch then 0x30 else 0x31) (again == some (va.toNat / 4096))
      dsimp only
      split
      · dsimp only; exact Dev.mapsOnly_modLeaf h (hins _)
      · dsimp only; exact Dev.mapsOnly_modLeaf h hev2
      · dsimp only; exact Dev.mapsOnly_modLeaf h hev2
      · dsimp only; exact Dev.mapsOnly_modLeaf h (hev _)
      · dsimp only; exact Dev.mapsOnly_modLeaf h (hev _)
      · dsimp only; exact h
    | some e =>
      have hf := Dev.mapsOnly_freeNext (d.mapsOnly_refl n)
      dsimp only
      split
      · exact hf
      · have h := walk _ hf (if kind == .fetch then 0x30 else 0x31) (again == some (va.toNat / 4096))
        split
        · dsimp only; exact Dev.mapsOnly_modLeaf h (hins _)
        · dsimp only; exact Dev.mapsOnly_modLeaf h hev2
        · dsimp only; exact Dev.mapsOnly_modLeaf h hev2
        · dsimp only; exact Dev.mapsOnly_modLeaf h (hev _)
        · dsimp only; exact Dev.mapsOnly_modLeaf h (hev _)
        · dsimp only; exact h

end Sys2Proof.Machine
end

