-- ==== Sys2Proof/Laws/Lee.lean ====
section
/-!
SUPPORT. The evaluation store and its windows: a word written is read back and no other changes; a window built from its nets has those
nets; and what the issue of a word comes to when no check stops it.
-/

namespace Sys2Proof.Machine

theorem mem_insertNat (n : Nat) (l : List Nat) (m : Nat) : m ∈ insertNat n l ↔ m = n ∨ m ∈ l := by
  induction l with
  | nil => simp [insertNat]
  | cons a t ih =>
    unfold insertNat
    split
    · simp only [List.mem_cons, ih]; tauto
    · split
      · rename_i h; subst h; simp
      · simp

/-- A key that a filter keeps is found as before. -/
theorem KMap.find_filter {κ α : Type} [DecidableEq κ] (dflt : α) (p : κ → Bool) (m : KMap κ α) (k : κ) (h : p k = true) :
    KMap.find dflt (m.filter fun x => p x.1) k = KMap.find dflt m k := by
  induction m with
  | nil => rfl
  | cons a t ih =>
    obtain ⟨k', v⟩ := a
    by_cases hk : k' = k
    · subst hk; simp [List.filter, h, KMap.find]
    · cases hp : p k' <;> simp [List.filter, hp, KMap.find, hk, ih]

/-- A key that a filter drops reads as the default. -/
theorem KMap.find_filter_none {κ α : Type} [DecidableEq κ] (dflt : α) (p : κ → Bool) (m : KMap κ α) (k : κ) (h : p k = false) :
    KMap.find dflt (m.filter fun x => p x.1) k = dflt := by
  induction m with
  | nil => rfl
  | cons a t ih =>
    obtain ⟨k', v⟩ := a
    by_cases hk : k' = k
    · subst hk; simp [List.filter, h, ih]
    · cases hp : p k' <;> simp [List.filter, hp, KMap.find, hk, ih]

/-- A store word reads what was written to it, and every other word as before (R76). -/
theorem Lee.word_putWord (e : Lee) (w : Nat) (v : Word) (w' : Nat) :
    (e.putWord w v).word w' = if w' = w then v else e.word w' := by
  unfold Lee.putWord
  by_cases hv : e.valid.contains (w / 32) = true
  · rw [if_pos hv]
    unfold Lee.word
    dsimp only
    by_cases h : w' = w
    · subst h; simp only [hv, if_true, KMap.find_set_same]
    · rw [if_neg h]
      split
      · exact KMap.find_set_other _ _ _ _ _ h
      · rfl
  · rw [if_neg hv]
    unfold Lee.word
    dsimp only
    have hm : ∀ k, (insertNat (w / 32) e.valid).contains k = (k == w / 32 || e.valid.contains k) := fun k => by
      rw [Bool.eq_iff_iff]; simp [mem_insertNat]
    simp only [hm]
    by_cases h : w' = w
    · subst h; simp
    · rw [if_neg h, KMap.find_set_other _ _ _ _ _ h]
      by_cases hb : w' / 32 = w / 32
      · have hd := KMap.find_filter_none (0 : Word) (fun k => k / 32 != w / 32) e.store w' (by simp [hb])
        rw [hd, hb, if_neg hv]; simp
      · have hd := KMap.find_filter (0 : Word) (fun k => k / 32 != w / 32) e.store w' (by simp [hb])
        rw [hd]; simp [hb]

/-- A run of store words reads what was written to it, and every other word as before. -/
theorem Lee.word_putWords (e : Lee) (w : Nat) (l : List Word) (w' : Nat) :
    (e.putWords w l).word w' = if w ≤ w' ∧ w' < w + l.length then l.getD (w' - w) 0 else e.word w' := by
  induction l generalizing e w with
  | nil => simp only [Lee.putWords, List.length_nil]; rw [if_neg]; omega
  | cons v t ih =>
    simp only [Lee.putWords, ih, Lee.word_putWord, List.length_cons]
    by_cases h : w' = w
    · subst h; rw [if_neg (by omega), if_pos rfl, if_pos (by omega)]; simp
    · by_cases h2 : w + 1 ≤ w' ∧ w' < w + 1 + t.length
      · rw [if_pos h2, if_pos (by omega)]
        obtain ⟨k, hk⟩ : ∃ k, w' - w = k + 1 := ⟨w' - w - 1, by omega⟩
        rw [hk, List.getD_cons_succ]; congr 1; omega
      · rw [if_neg h2, if_neg h, if_neg (by omega)]

/-- Outside the run every store word reads as before. -/
theorem Lee.putWords_outside (e : Lee) (w : Nat) (l : List Word) : e.sameOutside (e.putWords w l) w l.length := by
  intro w' h
  rw [Lee.word_putWords, if_neg (by omega)]

/-- The bits of a number built from its bits. -/
theorem testBit_foldr_bits (f : Nat → Bool) (n b : Nat) :
    ((List.range n).foldr (fun i a => 2 * a + if f i then 1 else 0) 0).testBit b = (decide (b < n) && f b) := by
  induction n generalizing f b with
  | zero => simp
  | succ n ih =>
    rw [List.range_succ_eq_map, List.foldr_cons, List.foldr_map]
    cases b with
    | zero => cases f 0 <;> simp [Nat.testBit_zero]
    | succ b =>
      have h := ih (fun i => f (i + 1)) b
      rw [Nat.testBit_succ]
      have e : (2 * (List.range n).foldr (fun x y => 2 * y + if f x.succ then 1 else 0) 0 + if f 0 then 1 else 0) / 2
          = (List.range n).foldr (fun x y => 2 * y + if f (x + 1) then 1 else 0) 0 := by
        cases f 0 <;> (simp; try omega)
      rw [e, h]; simp

/-- The bits of a word built from its bits. -/
theorem getLsbD_wordOfBits (f : Nat → Bool) (b : Nat) (h : b < 64) : (wordOfBits f).getLsbD b = f b := by
  unfold wordOfBits
  rw [BitVec.getLsbD_ofNat, testBit_foldr_bits]
  simp [h]

/-- A window built from its nets has those nets (R82). -/
theorem netOf_windowOf (width n k : Nat) (f : Nat → Nat → Bool) (hn : n < 256) (hk : k < width) :
    netOf (windowOf width f) width n k = f n k := by
  have h1 : n * width + k < 256 * width := by nlinarith
  have h2 : (n * width + k) / 64 < 4 * width := by omega
  unfold netOf windowOf
  rw [List.getD_eq_getElem?_getD, List.getElem?_map, List.getElem?_range h2]
  simp only [Option.map_some, Option.getD_some]
  rw [getLsbD_wordOfBits _ _ (Nat.mod_lt _ (by decide)), Nat.div_add_mod]
  rw [Nat.mul_comm n width, Nat.mul_add_div (by omega), Nat.div_eq_of_lt hk, Nat.mul_add_mod, Nat.mod_eq_of_lt hk, Nat.add_zero]

@[simp] theorem length_windowOf (width : Nat) (f : Nat → Nat → Bool) : (windowOf width f).length = 4 * width := by
  simp [windowOf]

/-- The nets of the window that a run of words was written to are those of the run. -/
theorem netOf_window_putWords (e : Lee) (f width n k : Nat) (l : List Word) (hl : l.length = 4 * width) (hn : n < 256)
    (hk : k < width) : netOf ((e.putWords (4 * f) l).window f width) width n k = netOf l width n k := by
  have h1 : n * width + k < 256 * width := by nlinarith
  have h2 : (n * width + k) / 64 < 4 * width := by omega
  unfold netOf Lee.window
  rw [List.getD_eq_getElem?_getD, List.getElem?_map, List.getElem?_range h2]
  simp only [Option.map_some, Option.getD_some]
  rw [Lee.word_putWords, if_pos (by omega)]
  congr 1
  · congr 1; omega

/-- The nets of a window after a run of its words was written: those in the run are the run's, every other is as before (R82, R91). -/
theorem netOf_window_puts_part (e : Lee) (f width n k first : Nat) (l : List Word) (hn : n < 256) (hk : k < width) : netOf ((e.putWords (4 * f + first) l).window f width) width n k =
      if 64 * first ≤ n * width + k ∧ n * width + k < 64 * (first + l.length) then
        (l.getD ((n * width + k) / 64 - first) 0).getLsbD ((n * width + k) % 64)
      else netOf (e.window f width) width n k := by
  have h1 : n * width + k < 256 * width := by nlinarith
  have h2 : (n * width + k) / 64 < 4 * width := by omega
  unfold netOf Lee.window
  simp only [List.getD_eq_getElem?_getD, List.getElem?_map, List.getElem?_range h2, Option.map_some, Option.getD_some,
    Lee.word_putWords]
  by_cases h : 64 * first ≤ n * width + k ∧ n * width + k < 64 * (first + l.length)
  · rw [if_pos h, if_pos (by omega)]
    have e : 4 * f + (n * width + k) / 64 - (4 * f + first) = (n * width + k) / 64 - first := by omega
    rw [e]
  · rw [if_neg h, if_neg (by omega)]

/-- Issue of a word that no check stops is its effect. -/
theorem Dev.issueWord_ok (d : Dev) (n : Nat) (o : Opcode) (body : EvalWord → Dev → Dev) (h : d.wordIssues n o) :
    d.issueWord n o .none body = body (d.fetchWord n) d := by
  obtain ⟨h1, h2, h3, h4, h5, h6⟩ := h
  unfold Dev.issueWord
  rw [h1]
  dsimp only
  have hs : (d.flag LEE_CTL.STREAM n && (d.pageOf n).isNone) = false := by
    cases hf : d.flag LEE_CTL.STREAM n with
    | false => rfl
    | true => have := h3 hf; cases hp : d.pageOf n with
      | none => rw [hp] at this; cases this
      | some p => rfl
  rw [h2]
  simp only [Bool.not_true, Bool.false_eq_true, if_false, hs, h4, ne_eq, not_true_eq_false, h5, h6, Dev.dataFault, Dev.noteError]

/-! ### The parts of an issue -/

@[simp] theorem Dev.lee_put (d : Dev) (f : Fld) (v u k m : Nat) : (d.put f v u k).lee m = d.lee m := rfl
@[simp] theorem Dev.lee_count (d : Dev) (f : Fld) (v u k m : Nat) : (d.count f v u k).lee m = d.lee m := rfl
@[simp] theorem Dev.lee_send (d : Dev) (p : Packet) (m : Nat) : (d.send p).lee m = d.lee m := rfl
@[simp] theorem Dev.lee_emit (d : Dev) (p : Packet) (m : Nat) : (d.emit p).lee m = d.lee m := by
  obtain ⟨w, h⟩ := d.emit_frame p; rw [h]; rfl

/-- An engine that is changed is changed so, and every other stays. -/
theorem Dev.lee_modLee (d : Dev) (n : Nat) (g : Lee → Lee) (m : Nat) :
    (d.modLee n g).lee m = if m = n then g (d.lee n) else d.lee m := by
  unfold Dev.modLee
  by_cases h : m = n
  · subst h; simp
  · rw [if_neg h, Dev.lee_setLee_other _ _ h]

/-- Only registers and engines differ. -/
def Dev.leeOnly (d d' : Dev) : Prop := ∃ r l, d' = { d with regs := r, lees := l }

theorem Dev.leeOnly.refl (d : Dev) : d.leeOnly d := ⟨_, _, rfl⟩
theorem Dev.leeOnly.put {d d' : Dev} (h : d.leeOnly d') (f : Fld) (v u k : Nat) : d.leeOnly (d'.put f v u k) := by
  obtain ⟨r, l, h⟩ := h; subst h; exact ⟨_, _, rfl⟩
theorem Dev.leeOnly.modLee {d d' : Dev} (h : d.leeOnly d') (n : Nat) (g : Lee → Lee) : d.leeOnly (d'.modLee n g) := by
  obtain ⟨r, l, h⟩ := h; subst h; exact ⟨_, _, rfl⟩
theorem Dev.leeOnly.setLee {d d' : Dev} (h : d.leeOnly d') (n : Nat) (e : Lee) : d.leeOnly (d'.setLee n e) := by
  obtain ⟨r, l, h⟩ := h; subst h; exact ⟨_, _, rfl⟩
theorem Dev.leeOnly.issued {d d' : Dev} (h : d.leeOnly d') (n : Nat) (w : EvalWord) (o : Opcode) :
    d.leeOnly (d'.issued n w o) := by
  unfold Dev.issued Dev.block Dev.count
  exact ((((h.setLee _ _).put _ _ _ _).put _ _ _ _).put _ _ _ _).put _ _ _ _
theorem Dev.leeOnly.eq {d d' : Dev} (h : d.leeOnly d') : d' = { d with regs := d'.regs, lees := d'.lees } := by
  obtain ⟨r, l, h⟩ := h; subst h; rfl
theorem Dev.leeOnly.board {d d' : Dev} (h : d.leeOnly d') : d'.board = d.board := by obtain ⟨r, l, h⟩ := h; subst h; rfl
theorem Dev.leeOnly.power {d d' : Dev} (h : d.leeOnly d') : d'.power = d.power := by obtain ⟨r, l, h⟩ := h; subst h; rfl

/-- A change of an engine that what it remembers of issue takes alone. -/
def Lee.onlyIssue (e e' : Lee) : Prop :=
  e' = { e with lastPc := e'.lastPc, seq := e'.seq, clock := e'.clock, busy := e'.busy, pipe := e'.pipe }

/-- What the issue of a word leaves of the engine, before the word's own effect: all but what it remembers of issue. -/
theorem Dev.issued_lee (d : Dev) (n : Nat) (w : EvalWord) (o : Opcode) : (d.lee n).onlyIssue ((d.issued n w o).lee n) := by
  unfold Dev.issued Dev.block
  simp only [Dev.lee_put, Dev.lee_count, Dev.lee_setLee]
  rfl

/-- The issue of a word leaves every other engine. -/
theorem Dev.issued_lee_other (d : Dev) {n m : Nat} (w : EvalWord) (o : Opcode) (h : m ≠ n) :
    (d.issued n w o).lee m = d.lee m := by
  unfold Dev.issued Dev.block
  simp only [Dev.lee_put, Dev.lee_count, Dev.lee_setLee_other _ _ h]

/-- The issue of a word changes the engine's counters and status alone among registers. -/
theorem Dev.issued_reg (d : Dev) (n : Nat) (w : EvalWord) (o : Opcode) (r : Reg) (h : ∀ k, r ≠ ⟨.LEE_CNT, n, k⟩)
    (h2 : r ≠ ⟨.LEE_STAT, n, 0⟩) : (d.issued n w o).reg r = d.reg r := by
  unfold Dev.issued Dev.block
  dsimp only
  rw [Dev.reg_put_other _ LEE_STAT.BLOCK _ _ _ h2]
  unfold Dev.count
  rw [Dev.reg_put_other _ LEE_CNT.COUNT _ _ _ (h 3), Dev.reg_put_other _ LEE_CNT.COUNT _ _ _ (h 2),
    Dev.reg_put_other _ LEE_CNT.COUNT _ _ _ (h 0)]
  rfl

/-- Noting what a word overwrites leaves the store. -/
@[simp] theorem Lee.word_note (e : Lee) (seq w count w' : Nat) : (e.note seq w count).word w' = e.word w' := rfl

/-- A run of store words that the word issued last writes reads as written, and every other word as before. -/
theorem Lee.word_puts (e : Lee) (w : Nat) (l : List Word) (w' : Nat) :
    (e.puts w l).word w' = if w ≤ w' ∧ w' < w + l.length then l.getD (w' - w) 0 else e.word w' := by
  unfold Lee.puts
  rw [Lee.word_putWords, Lee.word_note]

theorem Dev.goto_pc (d : Dev) (n v : Nat) : (d.goto n v).get LEE_PC.PC n = v % 2 ^ 28 :=
  Dev.get_put_same _ _ _ _ _ (by decide) (by decide)

theorem Dev.goto_reg (d : Dev) (n v : Nat) (r : Reg) (h : r ≠ ⟨.LEE_PC, n, 0⟩) : (d.goto n v).reg r = d.reg r :=
  Dev.reg_put_other _ LEE_PC.PC _ _ _ h

theorem Dev.writeDst_lee (d : Dev) (n m : Nat) (h : EvalWord) (w : List Word) :
    (d.writeDst n h w).lee m = if m = n then (d.lee n).puts (4 * d.index n h.dst) w else d.lee m := Dev.lee_modLee _ _ _ _

/-- Where a reference resolves depends on the engine's map, lanes and plane alone. -/
theorem Dev.index_of {d d' : Dev} (n r : Nat)
    (h : ∀ x : Reg, x.name = .LEE_CYCLE ∨ x.name = .LEE_MAP1 ∨ x.name = .LEE_MAP0 ∨ x.name = .LEE_MAP2 ∨ x.name = .LEE_CTL →
      d'.reg x = d.reg x) : d'.index n r = d.index n r := by
  unfold Dev.index Dev.resolve Dev.width Dev.space Dev.get
  simp only [h ⟨LEE_CYCLE.PLANE.reg, n, 0⟩ (by simp [LEE_CYCLE.PLANE]),
    h ⟨LEE_MAP1.PLANEA_BASE.reg, n, 0⟩ (by simp [LEE_MAP1.PLANEA_BASE]),
    h ⟨LEE_MAP1.PLANEB_BASE.reg, n, 0⟩ (by simp [LEE_MAP1.PLANEB_BASE]),
    h ⟨LEE_MAP1.PLANE_SIZE.reg, n, 0⟩ (by simp [LEE_MAP1.PLANE_SIZE]),
    h ⟨LEE_MAP0.COMB_BASE.reg, n, 0⟩ (by simp [LEE_MAP0.COMB_BASE]),
    h ⟨LEE_MAP0.COMB_SIZE.reg, n, 0⟩ (by simp [LEE_MAP0.COMB_SIZE]),
    h ⟨LEE_MAP2.INBOX_BASE.reg, n, 0⟩ (by simp [LEE_MAP2.INBOX_BASE]),
    h ⟨LEE_MAP2.INBOX_SIZE.reg, n, 0⟩ (by simp [LEE_MAP2.INBOX_SIZE]), h ⟨LEE_CTL.LANES.reg, n, 0⟩ (by simp [LEE_CTL.LANES])]

theorem Dev.length_evalWords (d : Dev) (n : Nat) (h : EvalWord) (m : Nat) :
    (d.evalWords n h m).length = (groupWords (d.width n) h.dgrp).2 := by simp [Dev.evalWords]

theorem Dev.length_muxWindow (d : Dev) (n : Nat) (h : EvalWord) : (d.muxWindow n h).length = 4 * d.width n := by
  unfold Dev.muxWindow; exact length_windowOf _ _

theorem Dev.length_memrdWindow (d : Dev) (n : Nat) (h : EvalWord) (rows : List Nat) :
    (d.memrdWindow n h rows).length = 4 * d.width n := by
  unfold Dev.memrdWindow; exact length_windowOf _ _

/-- A lane is one of at most 64. -/
theorem Dev.width_le (d : Dev) (n : Nat) : d.width n ≤ 64 := by
  unfold Dev.width laneWidth; split <;> decide

end Sys2Proof.Machine
end

