-- ==== Sys2Proof/Laws/Memory.lean ====
section
/-!
SUPPORT. Memory keeps its canonical form under every operation that changes it, and a write changes what it writes and nothing else.
-/

namespace Sys2Proof.Machine

theorem Dev.setByte_wf (d : Dev) (a : Nat) (b : Byte) (h : Memory.wf d.mem = true) : Memory.wf (d.setByte a b).mem = true :=
  KMap.wf_set natLt natLt_total natLt_trans 0 d.mem a b h

theorem Dev.putBytes_wf (a v : Nat) : ∀ (n : Nat) (d : Dev), Memory.wf d.mem = true → Memory.wf (d.putBytes a v n).mem = true := by
  intro n
  induction n generalizing a v with
  | zero => exact fun d h => h
  | succ n ih => exact fun d h => ih (a + 1) (v / 256) _ (d.setByte_wf a _ h)

theorem Dev.zeroWhere_wf (d : Dev) (p : Nat → Bool) (h : Memory.wf d.mem = true) : Memory.wf (d.zeroWhere p).mem = true :=
  KMap.wf_filter natLt natLt_trans 0 d.mem _ h

theorem Dev.cxlBytes_wf (d : Dev) (h : Memory.wf d.mem = true) : Memory.wf d.cxlBytes = true :=
  KMap.wf_filter natLt natLt_trans 0 d.mem _ h

/-- The bytes that a channel kept come back (R276). -/
theorem Dev.restore_wf (f : Nat → Nat) (l : List (Nat × Byte)) (d : Dev) (h : Memory.wf d.mem = true) :
    Memory.wf (l.foldl (fun (d : Dev) p => d.setByte (f p.1) p.2) d).mem = true := by
  induction l generalizing d with
  | nil => exact h
  | cons p l ih => exact ih _ (d.setByte_wf _ _ h)

@[simp] theorem Dev.setByte_byte_same (d : Dev) (a : Nat) (b : Byte) : (d.setByte a b).byte a = b :=
  KMap.find_set_same natLt 0 b d.mem a

theorem Dev.setByte_byte_other (d : Dev) {a a' : Nat} (b : Byte) (h : a' ≠ a) : (d.setByte a b).byte a' = d.byte a' :=
  KMap.find_set_other natLt 0 0 b d.mem h

/-- Memory after reset has the canonical form. -/
theorem State.reset_mem_wf : Memory.wf State.reset.dev.mem = true := by decide

end Sys2Proof.Machine
end

