-- ==== Sys2Proof/Laws/All.lean ====
section
/-!
SUPPORT. The law files together, for the provers.
-/
end

