-- ==== Sys2Proof/Machine/Lands.lean ====
section
/-!
DEFINITION. The land map (spec/17, R411 to R417): the net of each land of the package, by row and column. It is the same on every
variant and no command changes it.
-/

namespace Sys2Proof.Machine

/-- A signal of a DDR5 channel template (R413); `sub` is 0 for subchannel A and 1 for B, `dimm` is of one subchannel, and `t` marks the
true signal of a pair. -/
inductive DdrSignal where
  | dq (sub i : Nat)
  | dqs (sub k : Nat) (t : Bool)
  | ca (sub i : Nat)
  | cs (sub i : Nat)
  | par (sub : Nat)
  | ck (sub dimm : Nat) (t : Bool)
  | resetN | alertN | hscl | hsda
deriving DecidableEq, Repr

/-- A management or clock land (R416). -/
inductive MgmtLand where
  | refclkP | refclkN | xtalIn | xtalOut | pwrOk | sysResetN | faultN | thermtripN | prochotN
  | pkgId (i : Nat) | i3cScl | i3cSda | tck | tms | tdi | tdo | trstN | spiClk | spiCsN | spiIo (i : Nat)
  | vccinSense | vssSense
deriving DecidableEq, Repr

/-- The net of a land. A lane's signal is a transmit or receive pair's positive or negative side. -/
inductive LandNet where
  | vccin | vss | vddq | vstby
  | ddr (channel : Nat) (s : DdrSignal)
  | pcie (port lane : Nat) (tx positive : Bool)
  | span (port lane : Nat) (tx positive : Bool)
  | mgmt (s : MgmtLand)
deriving DecidableEq, Repr

/-- The position holds a land (R411). -/
def landPopulated (r c : Nat) : Bool :=
  decide (1 ≤ r ∧ r ≤ 106 ∧ 1 ≤ c ∧ c ≤ 106) && !decide (33 ≤ r ∧ r ≤ 74 ∧ 33 ≤ c ∧ c ≤ 74)
  && !(decide (r ≤ 4 ∨ 103 ≤ r) && decide (c ≤ 4 ∨ 103 ≤ c))

/-- The centre of a land in half millimetres from the package centre, with the land side facing the viewer (R411). -/
def landCentre (r c : Nat) : Int × Int := (2 * (c : Int) - 107, 107 - 2 * (r : Int))

/-- The power field (R412), less the unpopulated square. -/
def inPowerField (r c : Nat) : Bool := decide (21 ≤ r ∧ r ≤ 86 ∧ 21 ≤ c ∧ c ≤ 86)

/-- Row i, column j of a channel template (R413). -/
def ddrNet (ch i j : Nat) : LandNet :=
  let half (sub : Nat) (k : Nat) : LandNet :=
    if k = 0 then .ddr ch (.dq sub j)
    else if k = 1 then .ddr ch (.dq sub (20 + j))
    else if k = 2 then .ddr ch (.dqs sub (j / 2) (j % 2 == 0))
    else if j < 14 then .ddr ch (.ca sub j)
    else if j < 18 then .ddr ch (.cs sub (j - 14))
    else if j = 18 then .ddr ch (.par sub)
    else .vddq
  match i with
  | 0 => half 0 0
  | 1 => half 0 1
  | 2 => half 0 2
  | 3 => .vss
  | 4 => half 0 3
  | 5 => half 1 3
  | 6 => half 1 2
  | 7 => half 1 1
  | 8 => half 1 0
  | _ =>
    if j < 8 then .ddr ch (.ck (j / 4) (j / 2 % 2) (j % 2 == 0))
    else if j = 8 then .ddr ch .resetN
    else if j = 9 then .ddr ch .alertN
    else if j = 10 then .ddr ch .hscl
    else if j = 11 then .ddr ch .hsda
    else .vddq

/-- Row i, column j of a lane template (R414): the lane, whether it transmits, and whether it is the positive side. -/
def laneAt (i j : Nat) : Option (Nat × Bool × Bool) :=
  let lane (high : Nat) (tx : Bool) : Option (Nat × Bool × Bool) := some (8 * high + j / 2, tx, j % 2 == 0)
  match i with
  | 1 => lane 0 true
  | 3 => lane 1 true
  | 5 => lane 0 false
  | 7 => lane 1 false
  | _ => none

/-- The origins of the channel, x16 port and span port templates (R415). -/
def ddrOrigins : List (Nat × Nat) :=
  [(1, 5), (1, 25), (11, 5), (11, 25), (1, 63), (1, 83), (11, 63), (11, 83)]
  ++ [(87, 5), (87, 25), (97, 5), (97, 25), (87, 63), (87, 83), (97, 63), (97, 83)]
/-- Those of the x16 ports. -/
def pcieOrigins : List (Nat × Nat) := [(21, 3), (29, 3), (21, 89), (29, 89), (55, 3), (63, 3), (55, 89), (63, 89)]
/-- Those of the span ports. -/
def spanOrigins : List (Nat × Nat) := [(37, 3), (37, 89), (71, 3), (71, 89)]

/-- The template of a size that holds a position: its number and the offset in it. -/
def inTemplate (origins : List (Nat × Nat)) (rows cols r c : Nat) : Option (Nat × Nat × Nat) :=
  (origins.zipIdx.find? fun o => decide (o.1.1 ≤ r ∧ r < o.1.1 + rows ∧ o.1.2 ≤ c ∧ c < o.1.2 + cols)).map fun o =>
    (o.2, r - o.1.1, c - o.1.2)

/-- The management and clock lands (R416). -/
def mgmtNet (r c : Nat) : LandNet :=
  match r, c with
  | 2, 52 => .mgmt .refclkP | 2, 53 => .mgmt .refclkN
  | 4, 48 => .mgmt .xtalIn | 4, 50 => .mgmt .xtalOut
  | 6, 46 => .mgmt .pwrOk | 6, 47 => .mgmt .sysResetN | 6, 48 => .mgmt .faultN | 6, 49 => .mgmt .thermtripN | 6, 50 => .mgmt .prochotN
  | 8, 46 => .mgmt (.pkgId 0) | 8, 47 => .mgmt (.pkgId 1) | 8, 48 => .mgmt (.pkgId 2)
  | 8, 50 => .mgmt .i3cScl | 8, 51 => .mgmt .i3cSda
  | 10, 46 => .mgmt .tck | 10, 47 => .mgmt .tms | 10, 48 => .mgmt .tdi | 10, 49 => .mgmt .tdo | 10, 50 => .mgmt .trstN
  | 12, 46 => .mgmt .spiClk | 12, 47 => .mgmt .spiCsN
  | 12, 48 => .mgmt (.spiIo 0) | 12, 49 => .mgmt (.spiIo 1) | 12, 50 => .mgmt (.spiIo 2) | 12, 51 => .mgmt (.spiIo 3)
  | 14, 46 | 14, 47 | 14, 48 | 14, 49 => .vstby
  | 16, 54 => .mgmt .vccinSense | 16, 55 => .mgmt .vssSense
  | _, _ => .vss

/-- The net of a land, if the position holds one (R412 to R416). -/
def landNet (r c : Nat) : Option LandNet :=
  if !landPopulated r c then none
  else if inPowerField r c then some (if (r + c) % 2 = 1 then .vccin else .vss)
  else match inTemplate ddrOrigins 10 20 r c, inTemplate pcieOrigins 8 16 r c, inTemplate spanOrigins 8 16 r c with
    | some (n, i, j), _, _ => some (ddrNet n i j)
    | none, some (n, i, j), _ => some ((laneAt i j).elim .vss fun l => .pcie n l.1 l.2.1 l.2.2)
    | none, none, some (n, i, j) => some ((laneAt i j).elim .vss fun l => .span n l.1 l.2.1 l.2.2)
    | none, none, none => some (mgmtNet r c)

end Sys2Proof.Machine
end

