-- ==== Sys2Proof/WellFormed.lean ====
section
/-!
DEFINITION. Commands whose operands the package can be given: numbers of units, addresses and fields within their widths. A command
outside this has a meaning too; no meaning rests on it.
-/

namespace Sys2Proof

/-- The end of a graft that a site has: its trunk side, or one of the three ports of its bough (R210). -/
def graftEndOk : GraftEnd → Bool
  | .trunk s => decide (s < 28)
  | .bough s k => decide (s < 28 ∧ k < 3)

/-- A graft: of a site to the trunk, or from a site towards the next position of its crown (R15). -/
def graftIdOk : GraftId → Bool
  | .vertical s => decide (s < 28)
  | .lateral s => decide (s < 28 ∧ s % 7 < 6)

/-- A crossing: the trunk die or a bough die, and its number in an octet (R209). -/
def crossingOk : Crossing → Bool
  | .trunk n => decide (n < 256)
  | .bough s n => decide (s < 28 ∧ n < 256)

/-- A frame of the BMC port has an 8-bit SEQ (R384). -/
def portOk : CmdPort → Bool
  | .bmc seq _ => decide (seq < 256)
  | .mailbox => true

/-- A device of a segment, with a request of 1 to 4,096 bytes (R284, R292). -/
def deviceOk (r : DevReq) : Bool :=
  decide (r.seg < 8 ∧ r.rid < 2 ^ 16 ∧ r.addr < 2 ^ 64 ∧ 1 ≤ r.size ∧ r.size ≤ 4096)

/-- The operands of a command are within their widths. DESIGN CHOICE, assumption 78. -/
def Instr.wellFormed : Instr → Bool
  | .registerWrite _ addr size _ => decide (addr < 2 ^ 48) && (size == 4 || size == 8)
  | .absentUnitAccess _ addr _ => decide (addr < 2 ^ 48)
  | .firewallCommit entry _ => decide (entry < 64)
  | .leafLoadStore hart acc _ => decide (hart < 384) && (decide (acc.addr < 2 ^ 48) && [1, 2, 4, 8].contains acc.size)
  | .missResponseReturn hart addr => decide (hart < 384) && decide (addr < 2 ^ 48)
  | .cboZero hart addr => decide (hart < 384) && decide (addr < 2 ^ 64)
  | .prefetch hart _ addr => decide (hart < 384) && decide (addr < 2 ^ 64)
  | .fenceI hart => decide (hart < 384)
  | .wfi hart => decide (hart < 384)
  | .mnret hart => decide (hart < 384)
  | .mtimecmpWrite hart _ _ => decide (hart < 384)
  | .timerCompareMatch hart _ => decide (hart < 384)
  | .msiWrite hart file identity => decide (hart < 384) && decide (file < 9) && decide (identity < 2048)
  | .leafInstruction hart _ _ => decide (hart < 384)
  | .localCounterOverflow hart counter => decide (hart < 384) && decide (counter < 32)
  | .nop leaf _ => decide (leaf < 384)
  | .eval leaf _ => decide (leaf < 384)
  | .evalm leaf _ => decide (leaf < 384)
  | .mux leaf _ => decide (leaf < 384)
  | .copy leaf _ => decide (leaf < 384)
  | .memrd leaf _ => decide (leaf < 384)
  | .memrdDataReturn leaf lane => decide (leaf < 384) && decide (lane < 64)
  | .memwr leaf _ => decide (leaf < 384)
  | .send leaf _ => decide (leaf < 384)
  | .wait leaf _ => decide (leaf < 384)
  | .waitComplete leaf => decide (leaf < 384)
  | .stim leaf _ => decide (leaf < 384)
  | .stimPrefetchReturn leaf _ line => decide (leaf < 384) && decide (line < 32)
  | .observe leaf _ => decide (leaf < 384)
  | .observeEmit leaf => decide (leaf < 384)
  | .commit leaf _ => decide (leaf < 384)
  | .barrier leaf _ => decide (leaf < 384)
  | .trap leaf _ => decide (leaf < 384)
  | .trapDrained leaf => decide (leaf < 384)
  | .halt leaf _ => decide (leaf < 384)
  | .haltDrained leaf => decide (leaf < 384)
  | .jump leaf _ => decide (leaf < 384)
  | .loop leaf _ => decide (leaf < 384)
  | .leeLateFault leaf _ _ _ => decide (leaf < 384)
  | .barrierArrivalSignal leaf => decide (leaf < 384)
  | .barrierNotify leaf => decide (leaf < 384)
  | .barrierWatchdog group => decide (group < 16)
  | .leeCtlClear leaf _ => decide (leaf < 384)
  | .leeClearDone leaf => decide (leaf < 384)
  | .leeEnable leaf => decide (leaf < 384)
  | .leeDisable leaf => decide (leaf < 384)
  | .leeStopComplete leaf => decide (leaf < 384)
  | .leeConfigWrite leaf offset _ => decide (leaf < 384) && decide (offset < 2 ^ 16)
  | .leeDoorbellGo leaf => decide (leaf < 384)
  | .leeStimTailWrite leaf tail => decide (leaf < 384) && decide (tail < 2 ^ 32)
  | .apertureRead _ leaf offset size _ => decide (leaf < 384) && decide (offset < 2 ^ 28) && decide (1 ≤ size ∧ size ≤ 64)
  | .apertureWrite _ leaf offset size _ _ => decide (leaf < 384) && decide (offset < 2 ^ 28) && decide (1 ≤ size ∧ size ≤ 64)
  | .streamPageFetch leaf => decide (leaf < 384)
  | .streamPageReturn leaf page line => decide (leaf < 384) && decide (page < 2 ^ 20) && decide (line < 1024)
  | .mgAlloc => true
  | .mgEnable group => decide (group < 256)
  | .mgDisable group => decide (group < 256)
  | .mgFree group => decide (group < 256)
  | .xchMessageArrival _ => true
  | .deliveryAck leaf _ _ => decide (leaf < 384)
  | .preloadAndLock site ways => decide (site < 28) && decide (ways < 2 ^ 16)
  | .lockLineFetchReturn site => decide (site < 28)
  | .unlock site ways => decide (site < 28) && decide (ways < 2 ^ 16)
  | .l3Disable site => decide (site < 28)
  | .l3Enable site => decide (site < 28)
  | .l3EnableDone site => decide (site < 28)
  | .rdShared bough line retry _ => decide (bough < 24) && decide (line < 2 ^ 42) && decide (retry < 16)
  | .rdUnique bough line retry => decide (bough < 24) && decide (line < 2 ^ 42) && decide (retry < 16)
  | .upgrade bough line retry => decide (bough < 24) && decide (line < 2 ^ 42) && decide (retry < 16)
  | .claim bough line retry => decide (bough < 24) && decide (line < 2 ^ 42) && decide (retry < 16)
  | .rdNoalloc _ line => decide (line < 2 ^ 42)
  | .wrFull _ line _ => decide (line < 2 ^ 42)
  | .wrPartial _ line _ _ => decide (line < 2 ^ 42)
  | .compAck bough line => decide (bough < 24) && decide (line < 2 ^ 42)
  | .snpRsp bough line _ _ => decide (bough < 24) && decide (line < 2 ^ 42)
  | .wbDirty bough line _ epoch _ => decide (bough < 24) && decide (line < 2 ^ 42) && decide (epoch < 16)
  | .snpShared bough line _ => decide (bough < 24) && decide (line < 2 ^ 42)
  | .snpUnique bough line _ => decide (bough < 24) && decide (line < 2 ^ 42)
  | .snpInv bough line => decide (bough < 24) && decide (line < 2 ^ 42)
  | .snpCurrent bough line => decide (bough < 24) && decide (line < 2 ^ 42)
  | .data _ line _ epoch _ => decide (line < 2 ^ 42) && decide (epoch < 16)
  | .dataFwd bough line _ _ => decide (bough < 24) && decide (line < 2 ^ 42)
  | .grant bough line _ epoch => decide (bough < 24) && decide (line < 2 ^ 42) && decide (epoch < 16)
  | .nackRetry bough line hint => decide (bough < 24) && decide (line < 2 ^ 42) && decide (hint ≤ 1024)
  | .nackRetryResend bough line => decide (bough < 24) && decide (line < 2 ^ 42)
  | .wrComp _ line _ => decide (line < 2 ^ 42)
  | .wbAck bough line _ => decide (bough < 24) && decide (line < 2 ^ 42)
  | .homeTimeout bough line => decide (bough < 24) && decide (line < 2 ^ 42)
  | .dirPurgeGo q => decide (q < 4)
  | .purgeDone q => decide (q < 4)
  | .packetIngress _ => true
  | .routeSwap => true
  | .routeSwapDrainDone => true
  | .routeSwapDrainTimeout => true
  | .fabRtDataWrite value => decide (value < 8)
  | .fabIsoGo site => decide (site < 28)
  | .proxyPacket site _ => decide (site < 28)
  | .gateClosedMarker site vn => decide (site < 28) && decide (vn < 6)
  | .gatedPacket site _ => decide (site < 28)
  | .wakeAccessTimeout site => decide (site < 28)
  | .cdcTimeout x => crossingOk x
  | .crossingReset x => crossingOk x
  | .crossingFlushTimeout x => crossingOk x
  | .flitReceive g _ => graftEndOk g
  | .ctrlRetry g _ => graftEndOk g
  | .graftTrainingDone g res => graftIdOk g && decide (res.strap < 32)
  | .graftTrainingTimeout g => graftIdOk g
  | .graftFastRetrain g res => graftIdOk g && decide (res.strap < 32)
  | .laneErrorWindow g => graftEndOk g
  | .ctrlRepair g => graftEndOk g
  | .grfLaneMaskWrite g _ _ => graftEndOk g
  | .graftLaneLossOfLock g _ => graftEndOk g
  | .delayProbeReturn site t4 _ => decide (site < 28) && decide (t4 < 2 ^ 64)
  | .spanFlitReceive port _ codewords => decide (port < 4) && codewords.all fun w => decide (w.lane < 16)
  | .spanLockAcquired port locked => decide (port < 4) && locked.all fun l => decide (l.1 < 16)
  | .hello port pkg peerPort beh _ => decide (port < 4) && decide (pkg < 64) && decide (peerPort < 4) && decide (beh < 256)
  | .creditInit port => decide (port < 4)
  | .keepalive port => decide (port < 4)
  | .keepalivePeriod port => decide (port < 4)
  | .keepaliveTimeout port => decide (port < 4)
  | .spanLossOfLock port => decide (port < 4)
  | .spanRetrain port => decide (port < 4)
  | .barrierToken port group gen8 => decide (port < 4) && decide (group < 16) && decide (gen8 < 256)
  | .xchWindowRemote port _ => decide (port < 4)
  | .xchAckRemote port spkg dpkg _ _ _ => decide (port < 4) && decide (spkg < 64) && decide (dpkg < 64)
  | .remoteSendTimeout _ => true
  | .rcopyWrite port _ => decide (port < 4)
  | .rcopyAck port spkg dpkg _ _ _ => decide (port < 4) && decide (spkg < 64) && decide (dpkg < 64)
  | .tsyncPeriod => true
  | .tsyncReq port => decide (port < 4)
  | .tsyncResp port t1 t2 t3 t4 =>
    decide (port < 4) && decide (t1 < 2 ^ 64) && decide (t2 < 2 ^ 64) && decide (t3 < 2 ^ 64) && decide (t4 < 2 ^ 64)
  | .tsyncAhead port offset => decide (port < 4) && decide (offset < 2 ^ 64)
  | .timStep _ => true
  | .ringSyncPeriod => true
  | .ringSync site _ => decide (site < 28)
  | .syncAck site _ => decide (site < 28)
  | .packerRecordForm site => decide (site < 28)
  | .tailTimeout site leaf => decide (site < 28) && decide (leaf < 384)
  | .traceRecordArrival site _ => decide (site < 28)
  | .traceRecordWrite => true
  | .trcRingCtlWrite ring _ => decide (ring < 16)
  | .memSchedule channel _ => decide (channel < 16)
  | .refreshDue channel rank => decide (channel < 16) && decide (rank < 8)
  | .dramTempPoll channel _ => decide (channel < 16)
  | .driftTrack channel => decide (channel < 16)
  | .memTrainingDone channel _ => decide (channel < 16)
  | .memTrainRequest channel => decide (channel < 16)
  | .memSweepStart channel => decide (channel < 16)
  | .memSweepDone channel _ => decide (channel < 16)
  | .memReinit channel => decide (channel < 16)
  | .memReinitDone channel _ => decide (channel < 16)
  | .memQuiesce channel _ => decide (channel < 16)
  | .memBist channel _ rank => decide (channel < 16) && decide (rank < 8)
  | .memBistDone channel _ => decide (channel < 16)
  | .dramReadReturn channel _ _ => decide (channel < 16)
  | .patrolScrub channel _ _ _ => decide (channel < 16)
  | .ceWindow channel => decide (channel < 16)
  | .deviceRequest req => deviceOk req
  | .walkReadReturn _ _ => true
  | .walkTimeout _ => true
  | .deviceMsi seg rid _ => decide (seg < 9) && decide (rid < 2 ^ 16)
  | .atsTranslationRequest req => deviceOk req
  | .pageRequest _ => true
  | .prgResponse _ => true
  | .stallResume tag => decide (tag < 256)
  | .stallAbort tag => decide (tag < 256)
  | .stallTimeout tag => decide (tag < 256)
  | .invCtx seg rid => decide (seg < 9) && decide (rid < 2 ^ 16)
  | .invPasid seg rid _ => decide (seg < 9) && decide (rid < 2 ^ 16)
  | .invRange seg rid _ => decide (seg < 9) && decide (rid < 2 ^ 16)
  | .invS2 gscid => decide (gscid < 2 ^ 16)
  | .invAll => true
  | .invDone => true
  | .atsInvalidateResponse seg rid => decide (seg < 9) && decide (rid < 2 ^ 16)
  | .atsInvTimeout => true
  | .ttuQueueEnable _ => true
  | .intxMessage port => decide (port < 8)
  | .mmioCompletionTimeout rp => decide (rp < 32)
  | .dpcTrigger rp => decide (rp < 32)
  | .aerErrorMessage rp => decide (rp < 32)
  | .hioRpCfgWrite port _ => decide (port < 8)
  | .rootPortLinkUp rp => decide (rp < 32)
  | .rootPortLinkDown rp => decide (rp < 32)
  | .cxlRangeEnable port => decide (port < 8)
  | .cxlRangeClose port => decide (port < 8)
  | .cxlCloseDone port => decide (port < 8)
  | .cxlMemResponse port _ => decide (port < 8)
  | .cxlMemTimeout port => decide (port < 8)
  | .bind pasid qlog2 => decide (pasid < 2 ^ 20) && decide (qlog2 < 16)
  | .unbind slice => decide (slice < 64)
  | .queueEnable slice queue => decide (slice < 64) && decide (queue < 1024)
  | .queueDisable slice queue => decide (slice < 64) && decide (queue < 1024)
  | .dbTailWrite slice queue tail => decide (slice < 64) && decide (queue < 1024) && decide (tail < 2 ^ 32)
  | .descriptorFetch slice queue => decide (slice < 64) && decide (queue < 1024)
  | .chunkDispatch engine => decide (engine < 8)
  | .chunkComplete engine => decide (engine < 8)
  | .epochBoundary => true
  | .rcopyTimeout _ => true
  | .sliceReset slice => decide (slice < 64)
  | .sliceResetEscalate slice => decide (slice < 64)
  | .engineDisable engine => decide (engine < 8)
  | .engineEnable engine => decide (engine < 8)
  | .engineReinit engine => decide (engine < 8)
  | .eventReceive source _ _ => decide (source < 1024)
  | .evcMsiComplete source => decide (source < 1024)
  | .evcSevClear word _ => decide (word < 16)
  | .faultPinPulseEnd => true
  | .evcSafeGo _ => true
  | .cmpWireFault input => decide (input < 128)
  | .cmpParityFault reg => decide (reg < 132)
  | .remapWrite _ entry _ => decide (entry < 16)
  | .storeBist site leafIdx => decide (site < 28) && decide (leafIdx < 16)
  | .storeBistDone site _ => decide (site < 28)
  | .clockSwitchRequest site mask => decide (site < 28) && decide (mask < 2 ^ 16)
  | .clockSwitch hart => decide (hart < 384)
  | .boughPllLoss site => decide (site < 28)
  | .trunkPllLoss => true
  | .handshakeResponse _ _ => true
  | .handshakeDelayExpiry _ => true
  | .boughDormantEntry site => decide (site < 28)
  | .boughOffEntry site => decide (site < 28)
  | .boughWake site res => decide (site < 28) && decide (res.strap < 32)
  | .pwrStandbyReq _ => true
  | .standbyLeafTimeout => true
  | .pwrSleepReq _ => true
  | .pwrWakeReq _ => true
  | .orderlyBoughReset site => decide (site < 512)
  | .boughResetEscalate => true
  | .forcedBoughReset site => decide (site < 512)
  | .leafReset leaf => decide (leaf < 512)
  | .leeReset leaf => decide (leaf < 512)
  | .ageReplanPeriod => true
  | .ageReplan => true
  | .ageMeasureDone die _ _ => decide (die < 29)
  | .guardbandSettle die => decide (die < 29)
  | .rtcAlarm => true
  | .powerOnReset => true
  | .sysResetPin => true
  | .sysResetRelease => true
  | .packageWarmReset _ => true
  | .bootReadyTimeout => true
  | .pwrOkDeassert => true
  | .supplyUndervoltage => true
  | .vstbyLoss => true
  | .vstbyPowerUp => true
  | .refclkLoss => true
  | .refclkReturn => true
  | .prochotAssert _ _ => true
  | .prochotInput => true
  | .prochotRelease => true
  | .prochotBoardRelease => true
  | .thermtrip die => decide (die < 29)
  | .siStageBegin port _ => portOk port
  | .siStageWrite port offset bytes => portOk port && decide (offset < 2 ^ 32) && decide (bytes.length ≤ 244)
  | .siStageCheck port => portOk port
  | .siStageAbort port => portOk port
  | .siCommit port trials => portOk port && decide (trials < 256)
  | .siConfirm port _ => portOk port
  | .siAdvanceFloor port _ => portOk port
  | .siEnrolKey port obj => portOk port && decide (obj.length ≤ 2 ^ 18)
  | .siRevokeKey port obj => portOk port && decide (obj.length ≤ 2 ^ 18)
  | .sessionTimeout => true
  | .flashBackgroundDone => true
  | .info port => portOk port
  | .telemetry port => portOk port
  | .regRead port addr _ => portOk port && decide (addr < 2 ^ 48)
  | .pkgStandby port => portOk port
  | .pkgSleep port cmp => portOk port && decide (cmp < 2 ^ 48)
  | .pkgWake port => portOk port
  | .resetWarm port => portOk port
  | .resetUnit port op target => portOk port && decide (op < 256) && decide (target < 2 ^ 16)
  | .enterSafe port => portOk port
  | .sevClear port word _ => portOk port && decide (word < 16)
  | .fwStageBegin port => portOk port
  | .fwStageWrite port offset bytes => portOk port && decide (offset < 2 ^ 32) && decide (bytes.length ≤ 244)
  | .fwStageCheck port => portOk port
  | .fwStageAbort port => portOk port
  | .fwRevert port => portOk port
  | .attestKey port => portOk port
  | .attestQuote port => portOk port
  | .jtagIdcode => true
  | .jtagBypass _ => true
  | .jtagSamplePreload _ => true
  | .jtagExtest _ => true
  | .jtagSysacc addr _ _ => decide (addr < 2 ^ 48)
  | .jtagDmi _ => true

end Sys2Proof
end

