-- ==== Sys2Proof/Tests/Slice0.lean ====
section
/-!
SUPPORT. Tests: commands that are refused as ill-formed; single commands on small states, with results from the spec; and for every
statement with hypotheses, states and operands that meet them clause by clause.
-/

set_option linter.unusedVariables false

namespace Sys2Proof.Tests

open Sys2Proof.Machine

-- one theorem after another: many at once need more memory than the check allows
set_option Elab.async false

/-- A package in a state, with nothing waiting. -/
abbrev W (d : Dev) : State := { dev := d }

/-- Fields of registers written: field, value, unit, index. -/
def puts (d : Dev) (l : List (Fld × Nat × Nat × Nat)) : Dev := l.foldl (fun d x => d.put x.1 x.2.1 x.2.2.1 x.2.2.2) d

/-- A package that runs with two boughs, at sites 0 and 1, and 1 GB of memory on channel 0. -/
def b0 : Dev :=
  { regs := [(⟨.TRK_CAP, 0, 0⟩, 0x6200000000000003), (⟨.SIM_SITEMAP, 0, 0⟩, 0x4140), (⟨.SIM_STAT, 0, 0⟩, 2),
             (⟨.MEM_CFG, 0, 0⟩, 0x100000000), (⟨.MEM_STAT, 0, 0⟩, 3), (⟨.MEM_IL, 0, 0⟩, 1), (⟨.MEM_INIT, 0, 0⟩, 0x8000000040000000),
             (⟨.MBX_FW, 0, 0⟩, 0x8000000000000000), (⟨.CLK_STAT, 0, 0⟩, 0x8000000000000000)]
    copyState := [(0, { loaded := true, good := 2, ready := true }), (1, { loaded := true, good := 2, ready := true })]
    mgmt := { firmware := some 0 }
    board := { sampled := true } }

/-- Engine 0 runs a program of eight words whose first has these header words, over a combinational region of 64 indices. -/
def eng (w0 w1 w2 w3 : Word) (l : List (Fld × Nat × Nat × Nat) := []) : Dev :=
  { puts b0 ([(LEE_STAT.RUN, 1, 0, 0), (LEE_CTL.EN, 1, 0, 0), (LEE_MAP0.PROG_SIZE, 1, 0, 0), (LEE_MAP0.COMB_BASE, 1, 0, 0),
              (LEE_MAP0.COMB_SIZE, 1, 0, 0)] ++ l) with
    lees := [(0, { valid := [0], store := [(0, w0), (1, w1), (2, w2), (3, w3)] })] }

/-- A FILL of 16 bytes at 0x4000 with 0xAB in each word, of which the first chunk of 8 bytes has been given out. -/
def fillDesc : BulkDesc := { n := 0, words := BitVec.ofNat 512 (2 + 2 ^ 142 + 2 ^ 196 + 0xAB * 2 ^ 256), next := 8 }

/-- That chunk. -/
def fillChunk : BulkChunk := { slice := 0, queue := 0, n := 0, off := 0, len := 8 }

/-- Slice 0 is bound, its device context in memory translates nothing, and engine 0 holds that chunk. -/
def fillDev : Dev :=
  { puts b0 [(TTU_DDT.EN, 1, 0, 8), (TTU_DDT.BASE, 16, 0, 8), (TTU_WALK_BASE.EN, 1, 0, 3), (TTU_WALK_LIMIT.ADDR, 0xFFFF, 0, 3),
             (BLK_SLICE_CTL.BOUND, 1, 0, 0), (BLK_SLICE_CTL.QLOG2, 4, 0, 0), (DB_STAT.STATE, 1, 0, 0), (DB_TAIL.TAIL, 1, 0, 0),
             (DB_RING.ADDR, 3, 0, 0)] with
    mem := [(0x3000, 2), (0x3011, 0x40), (0x3018, 16), (0x3020, 0xAB), (0x10000, 1), (0x10001, 0x10), (0x10002, 1), (0x11000, 1)]
    bulk := { engines := [(0, some fillChunk)]
              queues := [(0, { head := 1, descs := [fillDesc] })] } }

/-! ### Ill-formed commands -/

/-- Each of these has one operand outside its width, and is refused. -/
theorem test_wf_refuses_1 :
  ([.registerWrite .mgmt (2 ^ 48) 8 0, .registerWrite .mgmt 0 2 0, .absentUnitAccess .mgmt (2 ^ 48) false,
    .firewallCommit 64 false, .leafLoadStore 384 { kind := .load, addr := 0, size := 8 } .none,
    .leafLoadStore 0 { kind := .walk, addr := 2 ^ 48, size := 8 } .none,
    .leafLoadStore 0 { kind := .load, addr := 0, size := 3 } .none, .missResponseReturn 384 0, .missResponseReturn 0 (2 ^ 48),
    .cboZero 384 0, .cboZero 0 (2 ^ 64), .prefetch 384 .read 0, .prefetch 0 .read (2 ^ 64), .fenceI 384, .wfi 384, .mnret 384,
    .mtimecmpWrite 384 .stimecmp 0, .timerCompareMatch 384 .stimecmp, .msiWrite 384 0 0, .msiWrite 0 9 0, .msiWrite 0 0 2048,
    .leafInstruction 384 ⟨.ecall, 4, 0⟩ .none, .localCounterOverflow 384 0, .localCounterOverflow 0 32, .nop 384 .none,
    .eval 384 .none, .evalm 384 .none, .mux 384 .none, .copy 384 .none, .memrd 384 .none, .memrdDataReturn 384 0,
    .memrdDataReturn 0 64, .memwr 384 .none, .send 384 .none, .wait 384 .none, .waitComplete 384] : List Instr).all (fun i => !i.wellFormed) := by decide +kernel

/-- Each of these has one operand outside its width, and is refused. -/
theorem test_wf_refuses_2 :
  ([.stim 384 .none, .stimPrefetchReturn 384 0 0, .stimPrefetchReturn 0 0 32, .observe 384 .none, .observeEmit 384,
    .commit 384 .none, .barrier 384 .none, .trap 384 .none, .trapDrained 384, .halt 384 .none, .haltDrained 384,
    .jump 384 .none, .loop 384 .none, .leeLateFault 384 0 .shadow 0, .barrierArrivalSignal 384, .barrierNotify 384,
    .barrierWatchdog 16, .leeCtlClear 384 false, .leeClearDone 384, .leeEnable 384, .leeDisable 384, .leeStopComplete 384,
    .leeConfigWrite 384 0 0, .leeConfigWrite 0 (2 ^ 16) 0, .leeDoorbellGo 384, .leeStimTailWrite 384 0,
    .leeStimTailWrite 0 (2 ^ 32), .apertureRead .mgmt 384 0 1 false, .apertureRead .mgmt 0 (2 ^ 28) 1 false,
    .apertureRead .mgmt 0 0 0 false, .apertureRead .mgmt 0 0 65 false, .apertureWrite .mgmt 384 0 1 0 false,
    .apertureWrite .mgmt 0 (2 ^ 28) 1 0 false, .apertureWrite .mgmt 0 0 0 0 false, .apertureWrite .mgmt 0 0 65 0 false,
    .streamPageFetch 384] : List Instr).all (fun i => !i.wellFormed) := by decide +kernel

/-- Each of these has one operand outside its width, and is refused. -/
theorem test_wf_refuses_3 :
  ([.streamPageReturn 384 0 0, .streamPageReturn 0 (2 ^ 20) 0, .streamPageReturn 0 0 1024, .mgEnable 256, .mgDisable 256,
    .mgFree 256, .deliveryAck 384 0 .delivered, .preloadAndLock 28 0, .preloadAndLock 0 (2 ^ 16), .lockLineFetchReturn 28,
    .unlock 28 0, .unlock 0 (2 ^ 16), .l3Disable 28, .l3Enable 28, .l3EnableDone 28, .rdShared 24 0 0 .none,
    .rdShared 0 (2 ^ 42) 0 .none, .rdShared 0 0 16 .none, .rdUnique 24 0 0, .rdUnique 0 (2 ^ 42) 0, .rdUnique 0 0 16,
    .upgrade 24 0 0, .upgrade 0 (2 ^ 42) 0, .upgrade 0 0 16, .claim 24 0 0, .claim 0 (2 ^ 42) 0, .claim 0 0 16,
    .rdNoalloc .trace (2 ^ 42), .wrFull .trace (2 ^ 42) 0, .wrPartial .trace (2 ^ 42) 0 0, .compAck 24 0, .compAck 0 (2 ^ 42),
    .snpRsp 24 0 .i ⟨0, false⟩, .snpRsp 0 (2 ^ 42) .i ⟨0, false⟩, .wbDirty 24 0 false 0 ⟨0, false⟩,
    .wbDirty 0 (2 ^ 42) false 0 ⟨0, false⟩] : List Instr).all (fun i => !i.wellFormed) := by decide +kernel

/-- Each of these has one operand outside its width, and is refused. -/
theorem test_wf_refuses_4 :
  ([.wbDirty 0 0 false 16 ⟨0, false⟩, .snpShared 24 0 none, .snpShared 0 (2 ^ 42) none, .snpUnique 24 0 none,
    .snpUnique 0 (2 ^ 42) none, .snpInv 24 0, .snpInv 0 (2 ^ 42), .snpCurrent 24 0, .snpCurrent 0 (2 ^ 42),
    .data .trace (2 ^ 42) .shared 0 ⟨0, false⟩, .data .trace 0 .shared 16 ⟨0, false⟩, .dataFwd 24 0 .shared ⟨0, false⟩,
    .dataFwd 0 (2 ^ 42) .shared ⟨0, false⟩, .grant 24 0 (.shared, false) 0, .grant 0 (2 ^ 42) (.shared, false) 0, .grant 0 0 (.shared, false) 16,
    .nackRetry 24 0 0, .nackRetry 0 (2 ^ 42) 0, .nackRetry 0 0 1025, .nackRetryResend 24 0, .nackRetryResend 0 (2 ^ 42),
    .wrComp .trace (2 ^ 42) false, .wbAck 24 0 false, .wbAck 0 (2 ^ 42) false, .homeTimeout 24 0, .homeTimeout 0 (2 ^ 42),
    .dirPurgeGo 4, .purgeDone 4, .fabRtDataWrite 8, .fabIsoGo 28, .proxyPacket 28 (.handshake (.leaf 0)),
    .gateClosedMarker 28 0, .gateClosedMarker 0 6, .gatedPacket 28 (.handshake (.leaf 0)), .wakeAccessTimeout 28,
    .cdcTimeout (.trunk 256)] : List Instr).all (fun i => !i.wellFormed) := by decide +kernel

/-- Each of these has one operand outside its width, and is refused. -/
theorem test_wf_refuses_5 :
  ([.cdcTimeout (.bough 28 0), .crossingReset (.trunk 256), .crossingReset (.bough 28 0), .crossingFlushTimeout (.trunk 256),
    .crossingFlushTimeout (.bough 28 0), .flitReceive (.bough 0 3) 0, .flitReceive (.trunk 28) 0, .ctrlRetry (.bough 0 3) 0,
    .ctrlRetry (.trunk 28) 0, .graftTrainingDone (.lateral 6) { strap := 0 }, .graftTrainingDone (.vertical 28) { strap := 0 },
    .graftTrainingDone (.vertical 0) { strap := 32 },
    .graftTrainingTimeout (.lateral 6), .graftTrainingTimeout (.vertical 28), .graftFastRetrain (.lateral 6) { strap := 0 },
    .graftFastRetrain (.vertical 28) { strap := 0 }, .graftFastRetrain (.vertical 0) { strap := 32 }, .laneErrorWindow (.bough 0 3), .laneErrorWindow (.trunk 28),
    .ctrlRepair (.bough 0 3), .ctrlRepair (.trunk 28), .grfLaneMaskWrite (.bough 0 3) 0 0, .grfLaneMaskWrite (.trunk 28) 0 0,
    .graftLaneLossOfLock (.bough 0 3) 0, .graftLaneLossOfLock (.trunk 28) 0, .delayProbeReturn 28 0 0, .delayProbeReturn 0 (2 ^ 64) 0,
    .spanFlitReceive 4 0 [], .spanFlitReceive 0 0 [⟨16, 0, .ok⟩], .spanLockAcquired 4 [], .spanLockAcquired 0 [(16, 0)], .hello 4 0 0 0 0, .hello 0 64 0 0 0, .hello 0 0 4 0 0, .hello 0 0 0 256 0,
    .creditInit 4, .keepalive 4, .keepalivePeriod 4, .keepaliveTimeout 4, .spanLossOfLock 4,
    .spanRetrain 4] : List Instr).all (fun i => !i.wellFormed) := by decide +kernel

/-- Each of these has one operand outside its width, and is refused. -/
theorem test_wf_refuses_6 :
  ([.barrierToken 4 0 0, .barrierToken 0 16 0, .barrierToken 0 0 256, .xchWindowRemote 4 ⟨0, 0, 0, 0, 0, 0, 0, 0, 0, []⟩,
    .xchAckRemote 4 0 0 0 0 .delivered, .xchAckRemote 0 64 0 0 0 .delivered, .xchAckRemote 0 0 64 0 0 .delivered,
    .rcopyWrite 4 ⟨0, 0, 0, 0, 0, 0, 0, 0, 0⟩, .rcopyAck 4 0 0 0 0 false, .rcopyAck 0 64 0 0 0 false,
    .rcopyAck 0 0 64 0 0 false, .tsyncReq 4, .tsyncResp 4 0 0 0 0, .tsyncResp 0 (2 ^ 64) 0 0 0, .tsyncResp 0 0 (2 ^ 64) 0 0,
    .tsyncResp 0 0 0 (2 ^ 64) 0, .tsyncResp 0 0 0 0 (2 ^ 64), .tsyncAhead 4 0, .tsyncAhead 0 (2 ^ 64), .ringSync 28 0,
    .syncAck 28 0, .packerRecordForm 28, .tailTimeout 28 0, .tailTimeout 0 384, .traceRecordArrival 28 ⟨0, 0, 0, 0, 0, []⟩,
    .trcRingCtlWrite 16 0, .memSchedule 16 0, .refreshDue 16 0, .refreshDue 0 8, .dramTempPoll 16 0, .driftTrack 16,
    .memTrainingDone 16 {}, .memTrainRequest 16, .memSweepStart 16, .memSweepDone 16 0, .memReinit 16, .memReinitDone 16 false,
    .memQuiesce 16 false, .memBist 16 false 0, .memBist 0 false 8] : List Instr).all (fun i => !i.wellFormed) := by decide +kernel

/-- Each of these has one operand outside its width, and is refused. -/
theorem test_wf_refuses_7 :
  ([.memBistDone 16 false, .dramReadReturn 16 .ok 0, .patrolScrub 16 0 .ok 0, .ceWindow 16,
    .deviceRequest { seg := 8, rid := 0, addr := 0, size := 1 },
    .deviceRequest { seg := 0, rid := 2 ^ 16, addr := 0, size := 1 },
    .deviceRequest { seg := 0, rid := 0, addr := 2 ^ 64, size := 1 },
    .deviceRequest { seg := 0, rid := 0, addr := 0, size := 0 },
    .deviceRequest { seg := 0, rid := 0, addr := 0, size := 4097 }, .deviceMsi 9 0 0, .deviceMsi 0 (2 ^ 16) 0,
    .atsTranslationRequest { seg := 8, rid := 0, addr := 0, size := 1 },
    .atsTranslationRequest { seg := 0, rid := 2 ^ 16, addr := 0, size := 1 },
    .atsTranslationRequest { seg := 0, rid := 0, addr := 2 ^ 64, size := 1 },
    .atsTranslationRequest { seg := 0, rid := 0, addr := 0, size := 0 },
    .atsTranslationRequest { seg := 0, rid := 0, addr := 0, size := 4097 }, .stallResume 256, .stallAbort 256,
    .stallTimeout 256, .invCtx 9 0, .invCtx 0 (2 ^ 16), .invPasid 9 0 none, .invPasid 0 (2 ^ 16) none, .invRange 9 0 none,
    .invRange 0 (2 ^ 16) none, .invS2 (2 ^ 16), .atsInvalidateResponse 9 0, .atsInvalidateResponse 0 (2 ^ 16), .intxMessage 8,
    .mmioCompletionTimeout 32, .dpcTrigger 32, .aerErrorMessage 32, .hioRpCfgWrite 8 0, .rootPortLinkUp 32,
    .rootPortLinkDown 32, .cxlRangeEnable 8] : List Instr).all (fun i => !i.wellFormed) := by decide +kernel

/-- Each of these has one operand outside its width, and is refused. -/
theorem test_wf_refuses_8 :
  ([.cxlRangeClose 8, .cxlCloseDone 8, .cxlMemResponse 8 false, .cxlMemTimeout 8, .bind (2 ^ 20) 0, .bind 0 16, .unbind 64,
    .queueEnable 64 0, .queueEnable 0 1024, .queueDisable 64 0, .queueDisable 0 1024, .dbTailWrite 64 0 0,
    .dbTailWrite 0 1024 0, .dbTailWrite 0 0 (2 ^ 32), .descriptorFetch 64 0, .descriptorFetch 0 1024, .chunkDispatch 8,
    .chunkComplete 8, .sliceReset 64, .sliceResetEscalate 64, .engineDisable 8, .engineEnable 8, .engineReinit 8,
    .eventReceive 1024 0 {}, .evcMsiComplete 1024, .evcSevClear 16 0, .cmpWireFault 128, .cmpParityFault 132,
    .remapWrite (.dir 0) 16 0, .storeBist 28 0, .storeBist 0 16, .storeBistDone 28 none, .clockSwitchRequest 28 0,
    .clockSwitchRequest 0 (2 ^ 16), .clockSwitch 384, .boughPllLoss 28] : List Instr).all (fun i => !i.wellFormed) := by decide +kernel

/-- Each of these has one operand outside its width, and is refused. -/
theorem test_wf_refuses_9 :
  ([.boughDormantEntry 28, .boughOffEntry 28, .boughWake 28 { strap := 0 }, .boughWake 0 { strap := 32 }, .orderlyBoughReset 512, .forcedBoughReset 512,
    .leafReset 512, .leeReset 512, .ageMeasureDone 29 [] [], .guardbandSettle 29, .thermtrip 29,
    .siStageBegin (.bmc 256 true) .vendor, .siStageWrite .mailbox (2 ^ 32) [],
    .siStageWrite .mailbox 0 (List.replicate (244 + 1) 0), .siStageWrite (.bmc 256 true) 0 [], .siStageCheck (.bmc 256 true),
    .siStageAbort (.bmc 256 true), .siCommit .mailbox 256, .siCommit (.bmc 256 true) 0, .siConfirm (.bmc 256 true) .vendor,
    .siAdvanceFloor (.bmc 256 true) .vendor, .siEnrolKey (.bmc 256 true) [], .siRevokeKey (.bmc 256 true) [],
    .info (.bmc 256 true), .telemetry (.bmc 256 true), .regRead .mailbox (2 ^ 48) 0, .regRead (.bmc 256 true) 0 0,
    .pkgStandby (.bmc 256 true), .pkgSleep .mailbox (2 ^ 48), .pkgSleep (.bmc 256 true) 0, .pkgWake (.bmc 256 true),
    .resetWarm (.bmc 256 true), .resetUnit .mailbox 256 0, .resetUnit .mailbox 0 (2 ^ 16), .resetUnit (.bmc 256 true) 0 0,
    .enterSafe (.bmc 256 true), .sevClear .mailbox 16 0] : List Instr).all (fun i => !i.wellFormed) := by decide +kernel

/-- Each of these has one operand outside its width, and is refused. -/
theorem test_wf_refuses_10 :
  ([.sevClear (.bmc 256 true) 0 0, .fwStageBegin (.bmc 256 true), .fwStageWrite .mailbox (2 ^ 32) [],
    .fwStageWrite .mailbox 0 (List.replicate (244 + 1) 0), .fwStageWrite (.bmc 256 true) 0 [], .fwStageCheck (.bmc 256 true),
    .fwStageAbort (.bmc 256 true), .fwRevert (.bmc 256 true), .attestKey (.bmc 256 true), .attestQuote (.bmc 256 true),
    .jtagSysacc (2 ^ 48) false 0] : List Instr).all (fun i => !i.wellFormed) := by decide +kernel

/-- With every operand at the end of its width a command is well-formed. -/
theorem test_wf_admits_1 :
  ([.registerWrite .mgmt (2 ^ 48 - 1) 8 0, .absentUnitAccess .mgmt (2 ^ 48 - 1) false, .firewallCommit 63 false,
    .leafLoadStore 383 { kind := .load, addr := 0, size := 8 } .none, .missResponseReturn 383 (2 ^ 48 - 1),
    .cboZero 383 (2 ^ 48 - 1), .prefetch 383 .read (2 ^ 48 - 1), .fenceI 383, .wfi 383, .mnret 383,
    .mtimecmpWrite 383 .stimecmp 0, .timerCompareMatch 383 .stimecmp, .msiWrite 383 8 2047,
    .leafInstruction 383 ⟨.ecall, 4, 0⟩ .none, .localCounterOverflow 383 31, .nop 383 .none, .eval 383 .none, .evalm 383 .none,
    .mux 383 .none, .copy 383 .none, .memrd 383 .none, .memrdDataReturn 383 63, .memwr 383 .none, .send 383 .none,
    .wait 383 .none, .waitComplete 383, .stim 383 .none, .stimPrefetchReturn 383 0 31, .observe 383 .none, .observeEmit 383,
    .commit 383 .none, .barrier 383 .none, .trap 383 .none, .trapDrained 383, .halt 383 .none, .haltDrained 383,
    .jump 383 .none, .loop 383 .none, .leeLateFault 383 0 .shadow 0, .barrierArrivalSignal 383, .barrierNotify 383,
    .barrierWatchdog 15, .leeCtlClear 383 false, .leeClearDone 383, .leeEnable 383, .leeDisable 383, .leeStopComplete 383,
    .leeConfigWrite 383 (2 ^ 16 - 1) 0] : List Instr).all Instr.wellFormed := by decide +kernel

/-- With every operand at the end of its width a command is well-formed. -/
theorem test_wf_admits_2 :
  ([.leeDoorbellGo 383, .leeStimTailWrite 383 (2 ^ 32 - 1), .apertureRead .mgmt 383 (2 ^ 28 - 1) 1 false,
    .apertureWrite .mgmt 383 (2 ^ 28 - 1) 1 0 false, .streamPageFetch 383, .streamPageReturn 383 (2 ^ 20 - 1) 1023,
    .mgEnable 255, .mgDisable 255, .mgFree 255, .deliveryAck 383 0 .delivered, .preloadAndLock 27 (2 ^ 16 - 1),
    .lockLineFetchReturn 27, .unlock 27 (2 ^ 16 - 1), .l3Disable 27, .l3Enable 27, .l3EnableDone 27,
    .rdShared 23 (2 ^ 42 - 1) 15 .none, .rdUnique 23 (2 ^ 42 - 1) 15, .upgrade 23 (2 ^ 42 - 1) 15, .claim 23 (2 ^ 42 - 1) 15,
    .rdNoalloc .trace (2 ^ 42 - 1), .wrFull .trace (2 ^ 42 - 1) 0, .wrPartial .trace (2 ^ 42 - 1) 0 0,
    .compAck 23 (2 ^ 42 - 1), .snpRsp 23 (2 ^ 42 - 1) .i ⟨0, false⟩, .wbDirty 23 (2 ^ 42 - 1) false 15 ⟨0, false⟩,
    .snpShared 23 (2 ^ 42 - 1) none, .snpUnique 23 (2 ^ 42 - 1) none, .snpInv 23 (2 ^ 42 - 1), .snpCurrent 23 (2 ^ 42 - 1),
    .data .trace (2 ^ 42 - 1) .shared 15 ⟨0, false⟩, .dataFwd 23 (2 ^ 42 - 1) .shared ⟨0, false⟩,
    .grant 23 (2 ^ 42 - 1) (.shared, false) 15, .nackRetry 23 (2 ^ 42 - 1) 1024, .nackRetryResend 23 (2 ^ 42 - 1),
    .wrComp .trace (2 ^ 42 - 1) false, .wbAck 23 (2 ^ 42 - 1) false, .homeTimeout 23 (2 ^ 42 - 1), .dirPurgeGo 3, .purgeDone 3,
    .fabRtDataWrite 7, .fabIsoGo 27, .proxyPacket 27 (.handshake (.leaf 0)), .gateClosedMarker 27 5,
    .gatedPacket 27 (.handshake (.leaf 0)), .wakeAccessTimeout 27, .cdcTimeout (.bough 27 255), .crossingReset (.bough 27 255)] : List Instr).all Instr.wellFormed := by decide +kernel

/-- With every operand at the end of its width a command is well-formed. -/
theorem test_wf_admits_3 :
  ([.crossingFlushTimeout (.bough 27 255), .flitReceive (.bough 27 2) 0, .ctrlRetry (.bough 27 2) 0,
    .graftTrainingDone (.lateral 26) { strap := 0 }, .graftTrainingTimeout (.lateral 26),
    .graftFastRetrain (.lateral 26) { strap := 0 }, .laneErrorWindow (.bough 27 2), .ctrlRepair (.bough 27 2),
    .grfLaneMaskWrite (.bough 27 2) 0 0, .graftLaneLossOfLock (.bough 27 2) 0, .delayProbeReturn 27 (2 ^ 64 - 1) 0,
    .spanFlitReceive 3 0 [⟨15, 0, .ok⟩], .spanLockAcquired 3 [(15, 0)], .hello 3 63 3 255 0, .creditInit 3, .keepalive 3, .keepalivePeriod 3,
    .keepaliveTimeout 3, .spanLossOfLock 3, .spanRetrain 3, .barrierToken 3 15 255,
    .xchWindowRemote 3 ⟨0, 0, 0, 0, 0, 0, 0, 0, 0, []⟩, .xchAckRemote 3 63 63 0 0 .delivered,
    .rcopyWrite 3 ⟨0, 0, 0, 0, 0, 0, 0, 0, 0⟩, .rcopyAck 3 63 63 0 0 false, .tsyncReq 3, .tsyncResp 3 (2 ^ 64 - 1) (2 ^ 64 - 1) (2 ^ 64 - 1) (2 ^ 64 - 1),
    .tsyncAhead 3 (2 ^ 64 - 1), .ringSync 27 0, .syncAck 27 0, .packerRecordForm 27, .tailTimeout 27 383,
    .traceRecordArrival 27 ⟨0, 0, 0, 0, 0, []⟩, .trcRingCtlWrite 15 0, .memSchedule 15 0, .refreshDue 15 7, .dramTempPoll 15 0,
    .driftTrack 15, .memTrainingDone 15 {}, .memTrainRequest 15, .memSweepStart 15, .memSweepDone 15 0, .memReinit 15,
    .memReinitDone 15 false, .memQuiesce 15 false, .memBist 15 false 7, .memBistDone 15 false, .dramReadReturn 15 .ok 0] : List Instr).all Instr.wellFormed := by decide +kernel

/-- With every operand at the end of its width a command is well-formed. -/
theorem test_wf_admits_4 :
  ([.patrolScrub 15 0 .ok 0, .ceWindow 15, .deviceRequest { seg := 7, rid := 2 ^ 16 - 1, addr := 2 ^ 64 - 1, size := 4096 },
    .deviceMsi 8 (2 ^ 16 - 1) 0, .atsTranslationRequest { seg := 7, rid := 2 ^ 16 - 1, addr := 2 ^ 64 - 1, size := 4096 },
    .stallResume 255, .stallAbort 255, .stallTimeout 255, .invCtx 8 (2 ^ 16 - 1), .invPasid 8 (2 ^ 16 - 1) none,
    .invRange 8 (2 ^ 16 - 1) none, .invS2 (2 ^ 16 - 1), .atsInvalidateResponse 8 (2 ^ 16 - 1), .intxMessage 7,
    .mmioCompletionTimeout 31, .dpcTrigger 31, .aerErrorMessage 31, .hioRpCfgWrite 7 0, .rootPortLinkUp 31,
    .rootPortLinkDown 31, .cxlRangeEnable 7, .cxlRangeClose 7, .cxlCloseDone 7, .cxlMemResponse 7 false, .cxlMemTimeout 7,
    .bind (2 ^ 20 - 1) 15, .unbind 63, .queueEnable 63 1023, .queueDisable 63 1023, .dbTailWrite 63 1023 (2 ^ 32 - 1),
    .descriptorFetch 63 1023, .chunkDispatch 7, .chunkComplete 7, .sliceReset 63, .sliceResetEscalate 63, .engineDisable 7,
    .engineEnable 7, .engineReinit 7, .eventReceive 1023 0 {}, .evcMsiComplete 1023, .evcSevClear 15 0, .cmpWireFault 127,
    .cmpParityFault 131, .remapWrite (.dir 0) 15 0, .storeBist 27 15, .storeBistDone 27 none,
    .clockSwitchRequest 27 (2 ^ 16 - 1), .clockSwitch 383] : List Instr).all Instr.wellFormed := by decide +kernel

/-- With every operand at the end of its width a command is well-formed. -/
theorem test_wf_admits_5 :
  ([.boughPllLoss 27, .boughDormantEntry 27, .boughOffEntry 27, .boughWake 27 { strap := 0 }, .orderlyBoughReset 511,
    .forcedBoughReset 511, .leafReset 511, .leeReset 511, .ageMeasureDone 28 [] [], .guardbandSettle 28, .thermtrip 28,
    .siStageBegin (.bmc 255 true) .vendor, .siStageWrite (.bmc 255 true) (2 ^ 32 - 1) [], .siStageCheck (.bmc 255 true),
    .siStageAbort (.bmc 255 true), .siCommit (.bmc 255 true) 255, .siConfirm (.bmc 255 true) .vendor,
    .siAdvanceFloor (.bmc 255 true) .vendor, .siEnrolKey (.bmc 255 true) [], .siRevokeKey (.bmc 255 true) [],
    .info (.bmc 255 true), .telemetry (.bmc 255 true), .regRead (.bmc 255 true) (2 ^ 48 - 1) 0, .pkgStandby (.bmc 255 true),
    .pkgSleep (.bmc 255 true) (2 ^ 48 - 1), .pkgWake (.bmc 255 true), .resetWarm (.bmc 255 true),
    .resetUnit (.bmc 255 true) 255 (2 ^ 16 - 1), .enterSafe (.bmc 255 true), .sevClear (.bmc 255 true) 15 0,
    .fwStageBegin (.bmc 255 true), .fwStageWrite (.bmc 255 true) (2 ^ 32 - 1) [], .fwStageCheck (.bmc 255 true),
    .fwStageAbort (.bmc 255 true), .fwRevert (.bmc 255 true), .attestKey (.bmc 255 true), .attestQuote (.bmc 255 true),
    .jtagSysacc (2 ^ 48 - 1) false 0] : List Instr).all Instr.wellFormed := by decide +kernel

/-- An object longer than the largest part is refused (R52). -/
theorem test_wf_refuses_objects :
    (Instr.siEnrolKey .mailbox (List.replicate (2 ^ 18 + 1) 0)).wellFormed = false
    ∧ (Instr.siRevokeKey .mailbox (List.replicate (2 ^ 18 + 1) 0)).wellFormed = false := by
  simp only [Instr.wellFormed, List.length_replicate]; decide

/-! ### Single commands on small states; the results are computed by hand from the rules named -/

/-- The package after one command. -/
def run (c : Instr) (d : Dev) : Dev :=
  match exec c (W d) with
  | .next t => t.dev
  | _ => d

/-- The packets under way, without their versions. -/
def sentNow (d : Dev) : List Packet := d.wire.map (·.pkt)

/-- A line of bough 0. -/
def withLine (l : L3Line) (d : Dev := b0) : Dev := { d with boughs := [(0, { lines := [(5, l)] })] }

/-- A directory entry of line 5. -/
def withEntry (e : DirEntry) : Dev := { b0 with homes := [(0, { dir := [(5, e)] })] }

/-- Engine 0 at an evaluation word, with net 0 and net 1 of the window at index 64 set. -/
def engStore (words : KMap Nat Word) : Dev :=
  { eng 0 0 0 0 with lees := [(0, { valid := [0, 8], store := words })] }

/-- R91: slot 0 computes the conjunction of nets 0 and 1 (inputs 2 and 3 name net 0 too, so TT = 0x8000) into net 0 of the window
at 65. -/
theorem test_eval_conjunction :
    ((run (.eval 0 .none) (engStore [(0, 0x1000000000010001), (4, 0x4008000), (256, 3)])).lee 0).word 260 = 1 := by decide +kernel

/-- R91: with only net 0 set the conjunction is 0, and constant nets follow from TT = 0xFFFF (slot 1, bytes 39 and 40). -/
theorem test_eval_constant :
    ((run (.eval 0 .none) (engStore [(0, 0x1000000000010001), (4, 0xFF00000004008000), (5, 0xFF), (256, 1)])).lee 0).word 260 = 2 := by
  decide +kernel

/-- R93: LMASK = 0 writes nothing. -/
theorem test_evalm_masked :
    ((run (.evalm 0 .none) (engStore [(0, 0x1000000000010002), (4, 0xFFFF), (256, 3)])).lee 0).word 260 = 0 := by decide +kernel

/-- R94: without BCAST, MUX takes SRC1 where SRC2 is 1: SRC0 = 0xF0 at 64, SRC1 = 0xCC at 65, SRC2 = 0xAA at 66, DST at 67. -/
theorem test_mux :
    ((run (.mux 0 .none) (engStore [(0, 0x30003), (1, 0x20000100000), (256, 0xF0), (260, 0xCC), (264, 0xAA)])).lee 0).word 268
      = 0xD8 := by decide +kernel

/-- R94: COPY to the window at 65. -/
theorem test_copy :
    ((run (.copy 0 .none) (engStore [(0, 0x10004), (259, 0x8000000000000001)])).lee 0).word 263 = 0x8000000000000001 := by
  decide +kernel

/-- R89: an OP outside the table faults with ILLEGAL_OP (code 0x01); REF is 15 and the word has no effect (R110). -/
theorem test_illegal_op :
    let d := run (.nop 0 .none) (engStore [(0, 0x3E)])
    d.get LEE_FAULT.CAUSE 0 = 1 ∧ d.get LEE_FAULT.REF 0 = 15 ∧ d.flag LEE_STAT.FAULTED 0 = true ∧ d.get LEE_PC.PC 0 = 0 := by decide +kernel

/-- R86: COMMIT inverts the plane and adds 1 to the 40-bit model cycle, which wraps. -/
theorem test_commit_wraps :
    let d := run (.commit 0 .none) (puts (engStore [(0, 0x20)]) [(LEE_CYCLE.MCYCLE, 2 ^ 40 - 1, 0, 0)])
    d.get LEE_CYCLE.MCYCLE 0 = 0 ∧ d.get LEE_CYCLE.PLANE 0 = 1 := by decide +kernel

/-- The RISC-V base: dividing the most negative number by -1 gives it back. -/
theorem test_div_overflow :
    ((run (.leafInstruction 0 ⟨.alu .div 3 1 (.reg 2), 4, 0⟩ .none)
      { b0 with leaves := [(0, { x := [(1, 0x8000000000000000), (2, 0xFFFFFFFFFFFFFFFF)] })] }).leaf 0).getX 3
      = 0x8000000000000000 := by decide +kernel

/-- The RISC-V base: x0 discards what is written to it. -/
theorem test_x0 :
    ((run (.leafInstruction 0 ⟨.lui 0 0x1000, 4, 0⟩ .none) b0).leaf 0).getX 0 = 0 := by decide +kernel

/-- Sv39 by the RISC-V privileged specification: pages 1, 2 and 3 of memory map page 0 to page 5 for loads and stores, with A set and
D clear; their lines are held. -/
def paged : Dev :=
  { b0 with
    boughs := [(0, { lines := [(0x40, { st := .shared, data := 0x801, twigs := [0] }), (0x80, { st := .shared, data := 0xC01, twigs := [0] }),
                               (0xC0, { st := .shared, data := 0x1447, twigs := [0] })] })]
    leaves := [(0, { mode := .super, csr := [(0x180, 0x8000000000000001), (0x3A0, 0x1F), (0x3B0, 0x3FFFFFFFFFFF)] })] }

/-- In single precision 1/3 to nearest is 0x3EAAAAAB, inexact; half of the least normal double is subnormal and exact; a single that
is not NaN-boxed counts as a NaN; a conversion of -1 to an unsigned word is invalid and gives 0 (by hand from R55, R58). -/
theorem test_fp_results :
    fpResult .div false .rne 0xFFFFFFFF3F800000 0xFFFFFFFF40400000 0 0 = (0xFFFFFFFF3EAAAAAB, 1)
      ∧ fpResult .mul true .rne 0x0010000000000000 0x3FE0000000000000 0 0 = (0x0008000000000000, 0)
      ∧ fpResult .add false .rup 0x3F800000 0xFFFFFFFF3F800000 0 0 = (0xFFFFFFFF7FC00000, 0)
      ∧ fpResult .toWu true .rtz 0xBFF0000000000000 0 0 0 = (0, 16) := by decide +kernel

/-- A load through three levels reaches its page, and the walk counts nothing but its events. -/
theorem test_sv39_load :
    (paged.mapAccess 0 { kind := .load, va := 0x123, size := 1 }).1 = .ok { kind := .load, va := 0x123, size := 1, addr := 0x5123 } := by
  decide +kernel

/-- R58: D is never set by hardware, so a store to the same page is a store page fault with its address. -/
theorem test_svade_store :
    let l := (run (.leafLoadStore 0 { kind := .store, va := 0x123, size := 1 } .none) paged).leaf 0
    l.mode = .machine ∧ l.csrRaw 0x342 = 15 ∧ l.csrRaw 0x343 = 0x123 := by decide +kernel

/-- The RISC-V hypervisor extension: VSSIP, number 2, is taken in VS mode as number 1. -/
theorem test_vs_interrupt :
    let l := (run (.leafInstruction 0 ⟨.ecall, 4, 0⟩ .none)
      { b0 with leaves := [(0, { mode := .vs, csr := [(0x200, 0x0000000200000002), (0x304, 4), (0x603, 4), (0x645, 4), (0x744, 8)] })] }).leaf 0
    l.mode = .vs ∧ l.csrRaw 0x242 = 0x8000000000000001 ∧ (l.csrRaw 0x200).getLsbD 1 = false := by decide +kernel

/-- R170: RD_SHARED that finds no entry asks memory and snoops nobody. -/
theorem test_rd_shared_none :
    let d := run (.rdShared 0 5 0 .none) b0
    (d.channel 0).reads.length = 1 ∧ d.wire = [] := by decide +kernel

/-- R170: RD_UNIQUE that finds OWNED sends SNP_UNIQUE to the owner and SNP_INV to the other sharer. -/
theorem test_rd_unique_owned :
    sentNow (run (.rdUnique 0 5 0) (withEntry { st := .owned, owner := 1, sharers := [0, 1, 7] }))
      = [.snoop .unique 1 5 (some 0), .snoop .inv 7 5 none] := by decide +kernel

/-- R170, R171: UPGRADE by the only sharer is granted E with the epoch one higher modulo 16. -/
theorem test_upgrade_alone :
    sentNow (run (.upgrade 0 5 0) (withEntry { st := .shared, sharers := [0], epoch := 15 })) = [.grant 0 5 .excl 0 false] := by
  decide +kernel

/-- R175: a write-back whose epoch is not the entry's is answered but not written. -/
theorem test_stale_write_back :
    let d := run (.wbDirty 1 5 false 2 ⟨9, false⟩) (withEntry { st := .excl, owner := 1, sharers := [1], epoch := 3 })
    (sentNow d) = [.wbAck 1 5 false] ∧ d.mem = [] := by decide +kernel

/-- R180: WR_PARTIAL leaves a poisoned line poisoned and says so. -/
theorem test_wr_partial_poisoned :
    let d := run (.wrPartial .trace 5 1 0xFF) { b0 with poison := [5] }
    (sentNow d) = [.wrComp .trace 5 true] ∧ d.poison = [5] := by decide +kernel

/-- R172: SNP_SHARED finds the line modified: the bough forwards it dirty and keeps it as owner. -/
theorem test_snp_shared_modified :
    let d := run (.snpShared 0 5 (some 1)) (withLine { st := .modified, data := 9 })
    ((d.bough 0).line 5).st = .owned ∧ (sentNow d).contains (.snpRsp 0 5 .fwdDirty ⟨0, false⟩) := by decide +kernel

/-- R145, by hand: PA = 0x1240 has the fields 1 (bits 8:6), 1 (11:9) and 1 (14:12), so slice 1; its set is 1 xor nothing: PA[19:9] = 9. -/
theorem test_l3_place : l3Slice (0x1240 / 64) = 1 ∧ l3Set (0x1240 / 64) = 9 := by decide +kernel

/-- R163, by hand: PA[39:23] = 1 and PA[22:6] = 5 give set 4. -/
theorem test_dir_set : dirSet ((2 ^ 23 + 5 * 64) / 64) = 4 := by decide +kernel

/-- R344: the count that reaches N makes the source severe; totals saturate at 0xFFFF. -/
theorem test_event_severe :
    let d := run (.eventReceive 3 200 {}) (puts b0 [(EVC_SRC_CTL.N, 200, 0, 3), (EVC_SRC_STAT.TOTAL, 0xFFFE, 0, 3)])
    d.severe 3 = true ∧ d.get EVC_SRC_STAT.TOTAL 0 3 = 0xFFFF := by decide +kernel

/-- The check value of CRC-32C over the nine digits "123456789". -/
theorem test_crc32c : crc32c 9 (ofBytes [0x31, 0x32, 0x33, 0x34, 0x35, 0x36, 0x37, 0x38, 0x39]) = 0xE3069283 := by decide +kernel

/-- R284: CAS that does not find its compare value writes nothing and answers the old value. -/
theorem test_cas_fails : devAtomic { seg := 0, rid := 0, addr := 0, size := 4, op := .cas, value := 7, compare := 3 } 5 = 5 := by
  decide +kernel

/-- R284: FetchAdd wraps at its size. -/
theorem test_fetch_add_wraps :
    devAtomic { seg := 0, rid := 0, addr := 0, size := 4, op := .fetchAdd, value := 2 } 0xFFFFFFFF = 1 := by decide +kernel

/-- R311: a chunk ends with the 4 KiB page of its chunk address. -/
theorem test_chunk_length : fillDesc.chunkLen 0 = 16 ∧ fillDesc.chunkBase = 0x4000 := by decide +kernel

/-- R317: a tail that goes back puts the queue in ERROR (state 2) with ERR = CREDIT. -/
theorem test_tail_backwards :
    (run (.dbTailWrite 0 0 4) (puts b0 [(BLK_SLICE_CTL.BOUND, 1, 0, 0), (BLK_SLICE_CTL.QLOG2, 4, 0, 0), (DB_STAT.STATE, 1, 0, 0),
      (DB_TAIL.TAIL, 5, 0, 0)])).qState 0 0 = 2 := by decide +kernel

/-- R8, W1C: of TTU_STAT's bits 63 and 62, both set, the one written with 1 is cleared and the other kept. -/
theorem test_w1c :
    writeFields (RegName.fields .TTU_STAT) 0xC000000000000000 0x8000000000000000 = 0x4000000000000000 := by decide +kernel

/-- The V extension (R55): VADD.VV under a mask wraps modulo 2^8 in its active element 1 and leaves element 0 as it was, where vtype
keeps inactive elements. -/
theorem test_vector_add_masked :
    ((run (.leafInstruction 0 ⟨.vector, 4, 0x2180D7⟩ .none)
      { b0 with leaves := [(0, { csr := [(0x300, 0x600), (0xC20, 2), (0xC21, 0)], v := [(0, 2), (1, 0x5455), (2, 0xFF01), (3, 0x0203)] })] }).leaf 0).v.find 0 1
      = 0x155 := by decide +kernel

/-- The V extension: VNCLIPU of 253 by one place, 126.5, rounds up under rnu and to even under rne, and does not saturate. -/
theorem test_vector_clip : (narrowElem 46 0 8 253 1).map (·.bits) = some 127 ∧ (narrowElem 46 1 8 253 1).map (·.bits) = some 126 := by
  decide +kernel

/-- The V extension, its table of VFREC7: the estimate of 1/1.0 is 127/128. -/
theorem test_vector_rec7 : (FpFmt.rec7 (fpFmt false) .rne 0x3F800000).bits = 0x3F7F0000 := by decide +kernel

/-- FIPS 202: the first 32 bytes of SHAKE256 of the empty string. -/
theorem test_shake256 :
    shake256 [] = [0x46, 0xB9, 0xDD, 0x2B, 0x0B, 0xA8, 0x8D, 0x13, 0x23, 0x3B, 0x3F, 0xEB, 0x74, 0x3E, 0xEB, 0x24,
                   0x3F, 0xCD, 0x52, 0xEA, 0x62, 0xB8, 0x1B, 0x82, 0xB5, 0x0C, 0x27, 0x64, 0x6E, 0xD5, 0x76, 0x2F] := by decide +kernel

/-- The land map (spec/17): signals of a DDR channel and of a root port, and a ground. -/
theorem test_lands :
    landNet 103 12 = some (.ddr 10 (.dqs 1 3 false)) ∧ landNet 70 12 = some (.pcie 5 12 false false) ∧ landNet 47 103 = some .vss := by
  decide +kernel

/-! ### Witnesses of the statements -/

/-- States and operands that meet the hypotheses of EmptyQueueTicksTheClocks, clause by clause. -/
theorem test_meets_empty_queue_ticks_the_clocks :
  (∃ (s : State), (s.pending = [])) ∧
  (∃ (s : State), (s.pending = []) ∧ (s.dev.powered = true) ∧ (s.dev.flag CLK_STAT.LOCK = true) ∧ (s.dev.master.slew = 0)) ∧
  (∃ (s : State), (s.pending = []) ∧ (s.dev.board.vstby = true) ∧ (s.dev.power.unpowered = true) ∧ (s.dev.lifeless)) :=
  ⟨⟨W {},
     by (repeat' apply And.intro) <;> first | decide +kernel | rfl⟩,
   ⟨W b0,
     by (repeat' apply And.intro) <;> first | decide +kernel | rfl⟩,
   ⟨W { power := { unpowered := true } },
     by (repeat' apply And.intro) <;> first | decide +kernel | rfl⟩⟩

/-- States and operands that meet the hypotheses of UnsuppliedDiesIgnoreCommands, clause by clause. -/
theorem test_meets_unsupplied_dies_ignore_commands :
  (∃ (c : Instr) (s : State), (s.dev.powered = false) ∧ (standbyCommand c = false)) :=
  ⟨.mgAlloc, W { board := { pwrOk := false } },
     by (repeat' apply And.intro) <;> first | decide +kernel | rfl⟩

/-- States and operands that meet the hypotheses of StepKeepsUnsuppliedDiesEmpty, clause by clause. -/
theorem test_meets_step_keeps_unsupplied_dies_empty :
  (∃ (s t : State), (s.darkWhenOff) ∧ (step s = .next t)) :=
  ⟨W { board := { pwrOk := false } }, _,
     by
     refine ⟨fun _ => ?_, rfl⟩
     (repeat' apply And.intro) <;> rfl⟩

/-- States and operands that meet the hypotheses of RegisterWritesByAccessType, clause by clause. -/
theorem test_meets_register_writes_by_access_type :
  (∃ (s : State) (req : Requester) (a size : Nat) (v : Word), (s.dev.powered = true) ∧ (rangeOf a = .regs) ∧ (s.dev.siteStands a = false) ∧ (s.dev.unheld a) ∧
    (s.dev.reaches (.reg req a size v)) ∧ ((size ≠ 4 ∧ size ≠ 8) ∨ a % size ≠ 0)) ∧
  (∃ (s : State) (req : Requester) (a e : Nat) (v : Word), (s.dev.powered = true) ∧ (rangeOf a = .regs) ∧ (s.dev.siteStands a = false) ∧ (s.dev.unheld a) ∧ (a % 8 = 0) ∧
    (s.dev.reaches (.reg req a 8 v)) ∧ (s.dev.regTarget req a = .reg ⟨.TRK_FW_BASE, 0, e⟩)) ∧
  (∃ (s : State) (req : Requester) (a : Nat) (v : Word) (r : Reg), (s.dev.powered = true) ∧ (rangeOf a = .regs) ∧ (s.dev.siteStands a = false) ∧ (s.dev.unheld a) ∧ (a % 8 =
    0) ∧ (s.dev.reaches (.reg req a 8 v)) ∧ (s.dev.regTarget req a = .reg r) ∧ ((r.name.block = .sim ∨ r.name.block = .clk)) ∧ ((∀ f ∈ r.name.fields, f.acc = .ro))) ∧
  (∃ (s : State) (req : Requester) (a : Nat) (v : Word) (r : Reg), (s.dev.powered = true) ∧ (rangeOf a = .regs) ∧ (s.dev.siteStands a = false) ∧ (s.dev.unheld a) ∧ (a % 8 =
    0) ∧ (s.dev.reaches (.reg req a 8 v)) ∧ (s.dev.regTarget req a = .reg r) ∧ (plainRegister r.name = true)) :=
  ⟨⟨W b0, .mgmt, krb, 2, 0,
     by (repeat' apply And.intro) <;> first | decide +kernel | rfl⟩,
   ⟨W b0, .mgmt, krb + 0x1000 + 32 * 63, 63, 0,
     by (repeat' apply And.intro) <;> first | decide +kernel | rfl⟩,
   ⟨W b0, .mgmt, krb + 0x10000, 0, ⟨.SIM_STAT, 0, 0⟩,
     by (repeat' apply And.intro) <;> first | decide +kernel | rfl⟩,
   ⟨W b0, .mgmt, krb + 0x1000 + 32 * 63, 5, ⟨.TRK_FW_BASE, 0, 63⟩,
     by (repeat' apply And.intro) <;> first | decide +kernel | rfl⟩⟩

/-- States and operands that meet the hypotheses of AbsentUnitsReadZeroAndCount, clause by clause. -/
theorem test_meets_absent_units_read_zero_and_count :
  (∃ (s : State) (req : Requester) (a : Nat), (s.dev.powered = true) ∧ (rangeOf a = .regs) ∧ (s.dev.regTarget req a = .absent)) ∧
  (∃ (s : State) (req : Requester) (a : Nat), (s.dev.powered = true) ∧ (rangeOf a = .regs) ∧ (s.dev.regTarget req a = .absent)) :=
  ⟨⟨W b0, .mgmt, krb + 0x82000000,
     by (repeat' apply And.intro) <;> first | decide +kernel | rfl⟩,
   ⟨W b0, .mgmt, krb + 0x82000000,
     by (repeat' apply And.intro) <;> first | decide +kernel | rfl⟩⟩

/-- States and operands that meet the hypotheses of FirewallCommitTakesTheStagedValues, clause by clause. -/
theorem test_meets_firewall_commit_takes_the_staged_values :
  (∃ (s : State) (e : Nat) (en : Bool), (s.dev.powered = true) ∧ (e < 64)) :=
  ⟨W b0, 63, true,
     by (repeat' apply And.intro) <;> first | decide +kernel | rfl⟩

/-- States and operands that meet the hypotheses of EventsAreCountedAndRated, clause by clause. -/
theorem test_meets_events_are_counted_and_rated :
  (∃ (s : State) (n p : Nat) (i : EvInfo), (s.dev.powered = true) ∧ (s.dev.sourcePresent n = true) ∧ (s.dev.pulseLost n = false) ∧ ((s.dev.evc.find {} n).opened = true) ∧
    ((s.dev.ring - (s.dev.evc.find {} n).start).toNat < 2 ^ s.dev.get EVC_SRC_CTL.WLOG2 0 n) ∧ (min (s.dev.get EVC_SRC_STAT.COUNT 0 n + p) 255 < s.dev.get EVC_SRC_CTL.N 0
    n) ∧ (i.severe = false) ∧ (s.dev.flag EVC_SRC_CTL.CAP 0 n = false) ∧ (s.dev.flag EVC_SRC_CTL.EVERY 0 n = false) ∧ ((s.dev.evAcc.find {} n).count = 0)) ∧
  (∃ (s : State) (n p : Nat) (i : EvInfo), (s.dev.powered = true) ∧ (s.dev.sourcePresent n = true) ∧ (s.dev.pulseLost n = false) ∧ ((s.dev.evc.find {} n).opened = false) ∧
    (min p 255 < s.dev.get EVC_SRC_CTL.N 0 n) ∧ (i.severe = false) ∧ (s.dev.flag EVC_SRC_CTL.CAP 0 n = false) ∧ (s.dev.flag EVC_SRC_CTL.EVERY 0 n = false) ∧
    ((s.dev.evAcc.find {} n).count = 0)) ∧
  (∃ (s : State) (n p : Nat) (i : EvInfo), (s.dev.powered = true) ∧ (s.dev.sourcePresent n = true) ∧ (s.dev.pulseLost n = false) ∧ (n < 1024) ∧ ((s.dev.evc.find {}
    n).opened = false) ∧ ((s.dev.get EVC_SRC_CTL.N 0 n ≤ min p 255 ∨ i.severe = true)) ∧ (s.dev.severe n = false) ∧ (s.dev.flag EVC_SRC_CTL.CAP 0 n = false) ∧ (s.dev.flag
    EVC_SRC_CTL.PIN 0 n = false) ∧ (s.dev.flag EVC_SRC_CTL.SAFE 0 n = false) ∧ (s.dev.flag CMP_CTL.EN = false)) :=
  ⟨⟨W { puts b0 [(EVC_SRC_CTL.N, 5, 0, 3), (EVC_SRC_CTL.CAP, 0, 0, 3), (EVC_SRC_CTL.PIN, 0, 0, 3), (EVC_SRC_CTL.SAFE, 0, 0, 3), (EVC_SRC_CTL.EVERY, 0, 0, 3)] with evc := [(3, { opened := true })] },
     3, 1, {},
     by (repeat' apply And.intro) <;> first | decide +kernel | rfl⟩,
   ⟨W (puts b0 [(EVC_SRC_CTL.N, 5, 0, 3), (EVC_SRC_CTL.CAP, 0, 0, 3), (EVC_SRC_CTL.PIN, 0, 0, 3), (EVC_SRC_CTL.SAFE, 0, 0, 3), (EVC_SRC_CTL.EVERY, 0, 0, 3)]), 3, 4, {},
     by (repeat' apply And.intro) <;> first | decide +kernel | rfl⟩,
   ⟨W (puts b0 [(EVC_SRC_CTL.N, 5, 0, 3), (EVC_SRC_CTL.CAP, 0, 0, 3), (EVC_SRC_CTL.PIN, 0, 0, 3), (EVC_SRC_CTL.SAFE, 0, 0, 3), (EVC_SRC_CTL.EVERY, 0, 0, 3)]), 3, 5, {},
     by (repeat' apply And.intro) <;> first | decide +kernel | rfl⟩⟩

/-- States and operands that meet the hypotheses of SevereBitsPinWiresAndMsi, clause by clause. -/
theorem test_meets_severe_bits_pin_wires_and_msi :
  (∃ (s : State) (i : Nat) (mask : Word), (s.dev.powered = true) ∧ (i < 16) ∧ (s.dev.flag CMP_CTL.EN = false)) ∧
  (∃ (s : State), (s.dev.powered = true) ∧ (s.dev.flag EVC_STAT.SAFE = false) ∧ (s.dev.get SIM_STAT.STATE = 2) ∧ (s.dev.flag EVC_PIN.MODE = false)) ∧
  (∃ (s : State) (n : Nat), (s.dev.powered = true)) ∧
  (∃ (s : State) (i : Nat), (s.dev.powered = true) ∧ (i < 128) ∧ (s.dev.flag CMP_CTL.EN = true) ∧ (s.dev.flag CMP_SEL.EN 0 i = true)) ∧
  (∃ (s : State) (i : Nat), (s.dev.powered = true) ∧ (s.dev.flag CMP_SEL.EN 0 i = false)) :=
  ⟨⟨W b0, 15, 1,
     by (repeat' apply And.intro) <;> first | decide +kernel | rfl⟩,
   ⟨W (puts b0 [(EVC_PIN.MODE, 0, 0, 0)]),
     by (repeat' apply And.intro) <;> first | decide +kernel | rfl⟩,
   ⟨W b0, 3,
     by (repeat' apply And.intro) <;> first | decide +kernel | rfl⟩,
   ⟨W (puts b0 [(CMP_CTL.EN, 1, 0, 0), (CMP_SEL.EN, 1, 0, 127)]), 127,
     by (repeat' apply And.intro) <;> first | decide +kernel | rfl⟩,
   ⟨W b0, 0,
     by (repeat' apply And.intro) <;> first | decide +kernel | rfl⟩⟩

/-- States and operands that meet the hypotheses of SafeStateIsEntered, clause by clause. -/
theorem test_meets_safe_state_is_entered :
  (∃ (s : State) (h : Nat), (s.dev.powered = true)) ∧
  (∃ (s : State) (h : Nat), (s.dev.powered = true) ∧ (s.dev.flag EVC_STAT.SAFE = true)) ∧
  (∃ (s : State) (req : Requester), (s.dev.powered = true) ∧ (machineLeaf req = false)) ∧
  (∃ (s : State) (k : Nat), (s.dev.powered = true) ∧ (k < 132)) :=
  ⟨⟨W b0, 0,
     by (repeat' apply And.intro) <;> first | decide +kernel | rfl⟩,
   ⟨W (puts b0 [(EVC_STAT.SAFE, 1, 0, 0)]), 0,
     by (repeat' apply And.intro) <;> first | decide +kernel | rfl⟩,
   ⟨W b0, .mgmt,
     by (repeat' apply And.intro) <;> first | decide +kernel | rfl⟩,
   ⟨W b0, 131,
     by (repeat' apply And.intro) <;> first | decide +kernel | rfl⟩⟩

/-- States and operands that meet the hypotheses of RemapsAndStoreTest, clause by clause. -/
theorem test_meets_remaps_and_store_test :
  (∃ (s : State) (t : RemapTable) (r : RegName) (e : Nat) (v : Word), (s.dev.powered = true) ∧ (s.dev.tablePresent t = true) ∧ ((tableOf t).remap = some r) ∧ (e < (tableOf
    t).size) ∧ (v.bits 63 63 = 1) ∧ ((s.dev.reg ⟨r, (tableOf t).u, (tableOf t).first + e⟩).bits 63 63 = 0) ∧ (s.dev.placeEmpty t (v.bits 41 32) (v.bits 31 0)) ∧
    (placeExists t (v.bits 41 32) (v.bits 31 0) = true) ∧ ((∀ e' < (tableOf t).size, remapNames (s.dev.reg ⟨r, (tableOf t).u, (tableOf t).first + e'⟩) v = false))) ∧
  (∃ (s : State) (t : RemapTable) (r : RegName) (e : Nat) (v : Word), (s.dev.powered = true) ∧ (s.dev.tablePresent t = true) ∧ ((tableOf t).remap = some r) ∧ (e < (tableOf
    t).size) ∧ (v.bits 63 63 = 1) ∧ ((s.dev.reg ⟨r, (tableOf t).u, (tableOf t).first + e⟩).bits 63 63 = 1)) ∧
  (∃ (s : State) (t : RemapTable) (r : RegName) (e : Nat) (v : Word), (s.dev.powered = true) ∧ (s.dev.tablePresent t = true) ∧ ((tableOf t).remap = some r) ∧ (e < (tableOf
    t).size) ∧ (v.bits 63 63 = 0) ∧ (s.dev.placeEmpty t ((s.dev.reg ⟨r, (tableOf t).u, (tableOf t).first + e⟩).bits 41 32) ((s.dev.reg ⟨r, (tableOf t).u, (tableOf
    t).first + e⟩).bits 31 0))) ∧
  (∃ (s : State) (site j n : Nat), (s.dev.powered = true) ∧ (s.dev.siteActive site = true) ∧ (j < 16) ∧ (n = 16 * s.dev.boughAt site + j) ∧ (s.dev.leePresent n = true) ∧
    (s.dev.flag PRT_SBIST.BUSY site = false) ∧ (s.dev.flag LEE_CTL.EN n = false) ∧ (s.dev.flag LEE_STAT.RUN n = false) ∧ (s.dev.flag LEE_STAT.TRAPPED n = false)) ∧
  (∃ (s : State) (site j n : Nat), (s.dev.powered = true) ∧ (s.dev.siteActive site = true) ∧ (j < 16) ∧ (n = 16 * s.dev.boughAt site + j) ∧ (s.dev.leePresent n = true) ∧
    (s.dev.flag PRT_SBIST.BUSY site = false) ∧ ((s.dev.flag LEE_CTL.EN n = true ∨ s.dev.flag LEE_STAT.RUN n = true ∨ s.dev.flag LEE_STAT.TRAPPED n = true))) ∧
  (∃ (s : State) (site n : Nat), (s.dev.powered = true) ∧ (s.dev.siteActive site = true) ∧ (s.dev.flag PRT_SBIST.BUSY site = true) ∧ (n = 16 * s.dev.boughAt site +
    s.dev.get PRT_SBIST.LEAF site) ∧ (s.dev.leePresent n = true) ∧ (s.dev.flag LEE_STAT.CLEARING n = true) ∧ ((s.dev.lee n).startAfterClear = false)) :=
  ⟨⟨W b0, .dir 0, .DIR_REMAP, 0, 0x8000000200000005,
     by (repeat' apply And.intro) <;> first | decide +kernel | rfl | exact trivial⟩,
   ⟨W (puts b0 [(⟨.DIR_REMAP, 63, 63⟩, 1, 0, 0)]), .dir 0, .DIR_REMAP, 0, 0x8000000200000005,
     by (repeat' apply And.intro) <;> first | decide +kernel | rfl⟩,
   ⟨W (puts b0 [(⟨.DIR_REMAP, 63, 63⟩, 1, 0, 0)]), .dir 0, .DIR_REMAP, 0, 0x0,
     by (repeat' apply And.intro) <;> first | decide +kernel | rfl | exact trivial⟩,
   ⟨W b0, 1, 15, 31,
     by (repeat' apply And.intro) <;> first | decide +kernel | rfl⟩,
   ⟨W (puts b0 [(LEE_CTL.EN, 1, 31, 0)]), 1, 15, 31,
     by (repeat' apply And.intro) <;> first | decide +kernel | rfl⟩,
   ⟨W (puts b0 [(PRT_SBIST.BUSY, 1, 0, 0), (PRT_SBIST.LEAF, 3, 0, 0), (LEE_STAT.CLEARING, 1, 3, 0)]), 0, 3,
     by (repeat' apply And.intro) <;> first | decide +kernel | rfl⟩⟩

/-- States and operands that meet the hypotheses of NopJumpLoopMoveTheProgramCounter, clause by clause. -/
theorem test_meets_nop_jump_loop_move_the_program_counter :
  (∃ (s : State) (n : Nat), (s.dev.powered = true) ∧ (s.dev.wordIssues n .nop)) ∧
  (∃ (s : State) (n : Nat), (s.dev.powered = true) ∧ (s.dev.wordIssues n .jump)) ∧
  (∃ (s : State) (n : Nat), (s.dev.powered = true) ∧ (s.dev.wordIssues n .loop) ∧ (0 < s.dev.loopValue n (s.dev.fetchWord n))) ∧
  (∃ (s : State) (n : Nat), (s.dev.powered = true) ∧ (s.dev.wordIssues n .loop) ∧ (s.dev.loopValue n (s.dev.fetchWord n) = 0)) :=
  ⟨⟨W (eng 0 0 0 0), 0,
     by (repeat' apply And.intro) <;> first | decide +kernel | rfl⟩,
   ⟨W (eng 0x30 0 0 7), 0,
     by (repeat' apply And.intro) <;> first | decide +kernel | rfl⟩,
   ⟨W (eng 0x31 0 0 0x0000000300000000), 0,
     by (repeat' apply And.intro) <;> first | decide +kernel | rfl⟩,
   ⟨W (eng 0x31 0 0 0), 0,
     by (repeat' apply And.intro) <;> first | decide +kernel | rfl⟩⟩

/-- States and operands that meet the hypotheses of EvalWritesTheResultsOfItsSlots, clause by clause. -/
theorem test_meets_eval_writes_the_results_of_its_slots :
  (∃ (s : State) (n : Nat), (s.dev.powered = true) ∧ (s.dev.wordIssues n .eval)) ∧
  (∃ (s : State) (n : Nat), (s.dev.powered = true) ∧ (s.dev.wordIssues n .evalm)) :=
  ⟨⟨W (eng 0x1000000000000001 0 0 0), 0,
     by (repeat' apply And.intro) <;> first | decide +kernel | rfl⟩,
   ⟨W (eng 0x2 0 0 1), 0,
     by (repeat' apply And.intro) <;> first | decide +kernel | rfl⟩⟩

/-- States and operands that meet the hypotheses of MuxAndCopyWriteTheirWindow, clause by clause. -/
theorem test_meets_mux_and_copy_write_their_window :
  (∃ (s : State) (n : Nat), (s.dev.powered = true) ∧ (s.dev.wordIssues n .mux)) ∧
  (∃ (s : State) (n : Nat), (s.dev.powered = true) ∧ (s.dev.wordIssues n .copy)) :=
  ⟨⟨W (eng 3 0 0 0), 0,
     by (repeat' apply And.intro) <;> first | decide +kernel | rfl⟩,
   ⟨W (eng 4 0 0 0), 0,
     by (repeat' apply And.intro) <;> first | decide +kernel | rfl⟩⟩

/-- States and operands that meet the hypotheses of ModelMemoryWords, clause by clause. -/
theorem test_meets_model_memory_words :
  (∃ (s : State) (n : Nat), (s.dev.powered = true) ∧ (s.dev.wordIssues n .memrd) ∧ ((s.dev.descriptor n (s.dev.fetchWord n).mmd).dram = false)) ∧
  (∃ (s : State) (n : Nat), (s.dev.powered = true) ∧ (s.dev.wordIssues n .memwr) ∧ ((s.dev.descriptor n (s.dev.fetchWord n).mmd).dram = false)) ∧
  (∃ (s : State) (n : Nat), (s.dev.powered = true) ∧ (s.dev.wordIssues n .memrd) ∧ ((s.dev.descriptor n (s.dev.fetchWord n).mmd).dram = true) ∧ (s.dev.tooMany n 64 = false)
    ∧ ((s.dev.lee n).memrds = []) ∧ ((s.dev.lee n).outs = []) ∧ ((∃ r ∈ s.dev.rows n (s.dev.fetchWord n), r < (s.dev.descriptor n (s.dev.fetchWord n).mmd).depth))) ∧
  (∃ (s : State) (n : Nat), (s.dev.powered = true) ∧ (s.dev.wordIssues n .memwr) ∧ ((s.dev.descriptor n (s.dev.fetchWord n).mmd).dram = true) ∧ (s.dev.tooMany n 64 = false)
    ∧ ((∀ p ∈ s.dev.memwrLanes n (s.dev.fetchWord n) (s.dev.rows n (s.dev.fetchWord n)), p.2 < (s.dev.descriptor n (s.dev.fetchWord n).mmd).depth → s.dev.memCheck 2 0
    true (s.dev.rowAddr n (s.dev.fetchWord n).mmd p.2 p.1) = .ok))) ∧
  (∃ (s : State) (n lane : Nat) (m : MemRd) (r : LeeReq) (x : Fetched) (e : Dev), (s.dev.powered = true) ∧ (s.dev.leeServe n = e) ∧ ((e.lee n).memrds = [m]) ∧
    (m.lanes[lane]? = some none) ∧ ((∀ i, i ≠ lane → m.lanes[i]? ≠ some none)) ∧ (((e.lee n).mem.find? fun r => r.use == .row m.seq lane && r.came.isSome) = some r) ∧
    (r.came = some x) ∧ ((∀ y ∈ some x :: m.lanes, ∀ f, y = some f → (∃ v, f = .line v) ∨ f = .zero)) ∧ ((e.lee n).outs = []) ∧ ((e.lee n).drain = .none)) :=
  ⟨⟨W (eng 8 0 0 0 [(LEE_MMD_CFG.VALID, 1, 0, 0), (LEE_MMD_CFG.AW, 1, 0, 0), (LEE_MMD_CFG.DEPTH, 2, 0, 0), (LEE_MAP2.MMEM_BASE, 2, 0, 0), (LEE_MAP2.MMEM_SIZE, 1, 0, 0)]),
     0,
     by (repeat' apply And.intro) <;> first | decide +kernel | rfl⟩,
   ⟨W (eng 9 0 0 0 [(LEE_MMD_CFG.VALID, 1, 0, 0), (LEE_MMD_CFG.AW, 1, 0, 0), (LEE_MMD_CFG.DEPTH, 2, 0, 0), (LEE_MAP2.MMEM_BASE, 2, 0, 0), (LEE_MAP2.MMEM_SIZE, 1, 0, 0)]),
     0,
     by (repeat' apply And.intro) <;> first | decide +kernel | rfl⟩,
   ⟨W (eng 8 0 0 0 [(LEE_MMD_CFG.VALID, 1, 0, 0), (LEE_MMD_CFG.LOC, 1, 0, 0), (LEE_MMD_CFG.AW, 1, 0, 0), (LEE_MMD_CFG.DEPTH, 2, 0, 0), (LEE_MMD_BASE.BASE, 0x4000, 0, 0)]),
     0,
     by (repeat' apply And.intro) <;> first | decide +kernel | rfl⟩,
   ⟨W (eng 9 0 0 0 [(LEE_MMD_CFG.VALID, 1, 0, 0), (LEE_MMD_CFG.LOC, 1, 0, 0), (LEE_MMD_CFG.AW, 1, 0, 0), (LEE_MMD_CFG.DEPTH, 2, 0, 0), (LEE_MMD_BASE.BASE, 0x4000, 0, 0)]),
     0,
     by (repeat' apply And.intro) <;> first | decide +kernel | rfl⟩,
   ⟨W { b0 with lees := [(0, { mem := [⟨0, .row 0 0, true, some (.line 5)⟩], memrds := [⟨0, 0, 256, 1, [none]⟩] })] }, 0, 0, ⟨0, 0, 256, 1, [none]⟩,
     ⟨0, .row 0 0, true, some (.line 5)⟩, .line 5, { b0 with lees := [(0, { mem := [⟨0, .row 0 0, true, some (.line 5)⟩], memrds := [⟨0, 0, 256, 1, [none]⟩] })] },
     by
     refine ⟨by decide +kernel, rfl, by decide +kernel, by decide +kernel, ?_, by decide +kernel, by decide +kernel, ?_, by decide +kernel, by decide +kernel⟩
     · intro i h; cases i <;> simp_all
     · intro y h f hf; simp at h; rcases h with h | h <;> subst h <;> simp_all; exact Or.inl ⟨5, hf.symm⟩⟩⟩

/-- States and operands that meet the hypotheses of SendAndWait, clause by clause. -/
theorem test_meets_send_and_wait :
  (∃ (s : State) (n : Nat), (s.dev.powered = true) ∧ (s.dev.wordIssues n .send) ∧ ((s.dev.fetchWord n).imm.getLsbD 31 = false) ∧ ((s.dev.lee n).sends.length < 1024) ∧
    ((s.dev.lee n).outs = []) ∧ ((s.dev.lee n).memrds = [])) ∧
  (∃ (s : State) (n : Nat), (s.dev.powered = true) ∧ (s.dev.wordIssues n .wait) ∧ ((s.dev.fetchWord n).imm.bits 12 0 ≤ s.dev.arrived n ((s.dev.fetchWord n).imm.bits 39
    32))) ∧
  (∃ (s : State) (n : Nat), (s.dev.powered = true) ∧ (s.dev.wordIssues n .wait) ∧ (s.dev.arrived n ((s.dev.fetchWord n).imm.bits 39 32) < (s.dev.fetchWord n).imm.bits 12
    0)) ∧
  (∃ (s : State) (n : Nat), (s.dev.powered = true) ∧ (s.dev.wordIssues n .wait) ∧ (s.dev.get LEE_STAT.BLOCK n = 1) ∧ ((s.dev.fetchWord n).imm.bits 12 0 ≤ s.dev.arrived n
    ((s.dev.fetchWord n).imm.bits 39 32))) :=
  ⟨⟨W (eng 0x10 0 0 0), 0,
     by (repeat' apply And.intro) <;> first | decide +kernel | rfl⟩,
   ⟨W (eng 0x11 0 0 0), 0,
     by (repeat' apply And.intro) <;> first | decide +kernel | rfl⟩,
   ⟨W (eng 0x11 0 0 1), 0,
     by (repeat' apply And.intro) <;> first | decide +kernel | rfl⟩,
   ⟨W (eng 0x11 0 0 0 [(LEE_STAT.BLOCK, 1, 0, 0)]), 0,
     by (repeat' apply And.intro) <;> first | decide +kernel | rfl⟩⟩

/-- States and operands that meet the hypotheses of StimulusAndObserveWords, clause by clause. -/
theorem test_meets_stimulus_and_observe_words :
  (∃ (s : State) (n : Nat) (e : StimEntry), (s.dev.powered = true) ∧ (s.dev.wordIssues n .stim) ∧ (s.dev.stimAvail n ≠ 0) ∧ (((s.dev.lee n).stim.find? fun x => x.count ==
    s.dev.get LEE_STIM_CTL.HEAD n) = some e) ∧ ((∀ l ∈ e.lines, ∃ x, l = some (.line x)))) ∧
  (∃ (s : State) (n : Nat), (s.dev.powered = true) ∧ (s.dev.wordIssues n .stim) ∧ (s.dev.stimAvail n = 0)) ∧
  (∃ (s : State) (n c i : Nat) (r : LeeReq) (e : Dev), (s.dev.powered = true) ∧ (s.dev.leeServe n = e) ∧ (((e.lee n).mem.find? fun r => r.use == .stim c i && r.came.isSome)
    = some r)) ∧
  (∃ (s : State) (n : Nat), (s.dev.powered = true) ∧ (s.dev.wordIssues n .observe) ∧ ((s.dev.lee n).emit = []) ∧ ((s.dev.lee n).outs = []) ∧ ((s.dev.lee n).memrds = [])) ∧
  (∃ (s : State) (n : Nat), (s.dev.powered = true) ∧ (s.dev.wordIssues n .observe) ∧ ((s.dev.lee n).observing = true)) ∧
  (∃ (s : State) (n : Nat) (w : Word) (rest : List Word) (head : Nat × Nat), (s.dev.powered = true) ∧ (s.dev.leePresent n = true) ∧ ((s.dev.lee n).emit = w :: rest) ∧
    ((s.dev.lee n).emitHead = some head) ∧ ((s.dev.lee n).credits ≠ 0) ∧ ((s.dev.lee n).emitted ≠ 0)) :=
  ⟨⟨W { eng 0x18 0 0 0 [(LEE_STIM_TAIL.TAIL, 1, 0, 0)] with lees := [(0, { valid := [0], store := [(0, 0x18)], stim := [⟨0, [some (.line 0)]⟩] })] }, 0,
     ⟨0, [some (.line 0)]⟩,
     by (repeat' apply And.intro) <;> first | (intro l h; simp_all; done) | decide +kernel⟩,
   ⟨W (eng 0x18 0 0 0), 0,
     by (repeat' apply And.intro) <;> first | decide +kernel | rfl⟩,
   ⟨W { b0 with lees := [(0, { stim := [⟨0, [none]⟩], mem := [⟨0, .stim 0 0, true, some (.line 5)⟩] })] }, 0, 0, 0, ⟨0, .stim 0 0, true, some (.line 5)⟩,
     { b0 with lees := [(0, { stim := [⟨0, [none]⟩], mem := [⟨0, .stim 0 0, true, some (.line 5)⟩] })] },
     by (repeat' apply And.intro) <;> first | decide +kernel | rfl⟩,
   ⟨W (eng 0x19 0 0 0x01000003), 0,
     by (repeat' apply And.intro) <;> first | decide +kernel | rfl⟩,
   ⟨W { eng 0x19 0 0 0x01000003 with lees := [(0, { valid := [0], store := [(0, 0x19), (3, 0x01000003)], emit := [1] })] }, 0,
     by (repeat' apply And.intro) <;> first | decide +kernel | rfl⟩,
   ⟨W { b0 with lees := [(0, { emit := [1], emitHead := some (0x100, 0), emitted := 1 })] }, 0, 1, [], (0x100, 0),
     by (repeat' apply And.intro) <;> first | decide +kernel | rfl⟩⟩

/-- States and operands that meet the hypotheses of CommitClearsItsBank, clause by clause. -/
theorem test_meets_commit_clears_its_bank :
  (∃ (s : State) (n : Nat), (s.dev.powered = true) ∧ (s.dev.wordIssues n .commit)) ∧
  (∃ (s : State) (n : Nat) (v : Word), (s.dev.powered = true) ∧ (s.dev.leePresent n = true) ∧ (s.dev.flag LEE_STAT.RUN n = false) ∧ (s.dev.flag LEE_STAT.TRAPPED n = false)) :=
  ⟨⟨W (eng 0x20 0 0 0), 0,
     by (repeat' apply And.intro) <;> first | decide +kernel | rfl⟩,
   ⟨W b0, 0, 5,
     by (repeat' apply And.intro) <;> first | decide +kernel | rfl⟩⟩

/-- States and operands that meet the hypotheses of DrainsAndLateFaults, clause by clause. -/
theorem test_meets_drains_and_late_faults :
  (∃ (s : State) (n : Nat), (s.dev.powered = true) ∧ (s.dev.wordIssues n .barrier) ∧ (s.dev.get LEE_STAT.GROUP n ≠ 0xFF) ∧ (s.dev.groupFault (s.dev.get LEE_STAT.GROUP n) =
    none) ∧ (s.dev.flag LEE_BAR.ARR n = false)) ∧
  (∃ (s : State) (n : Nat), (s.dev.powered = true) ∧ (s.dev.wordIssues n .trap)) ∧
  (∃ (s : State) (n : Nat), (s.dev.powered = true) ∧ (s.dev.wordIssues n .halt)) ∧
  (∃ (s : State) (n : Nat), (s.dev.powered = true) ∧ ((s.dev.lee n).drain = .trap) ∧ ((s.dev.lee n).drained = true) ∧ (s.dev.flag LEE_CTL.EN n = true)) ∧
  (∃ (s : State) (n : Nat), (s.dev.powered = true) ∧ ((s.dev.lee n).drain = .halt) ∧ ((s.dev.lee n).drained = true) ∧ (s.dev.flag LEE_CTL.EN n = true)) ∧
  (∃ (s : State) (n back info : Nat) (x : Issued), (s.dev.powered = true) ∧ (s.dev.flag LEE_STAT.RUN n = true) ∧ ((s.dev.lee n).pipe[back]? = some x) ∧ ((∀ m ∈ (s.dev.lee
    n).memrds, x.seq < m.seq))) ∧
  (∃ (s t u : State) (n info : Nat) (o : Opcode) (c : Instr), (s.dev.powered = true) ∧ (s.dev.wordIssues n o) ∧ ((s.dev.lee n).memrds = []) ∧ ((∀ y ∈ (s.dev.lee n).pipe,
    y.seq < (s.dev.lee n).seq)) ∧ ((o, c) ∈ [(.eval, .eval n .none), (.evalm, .evalm n .none), (.mux, .mux n .none), (.copy, .copy n .none)])) ∧
  (∃ (s t u : State) (n info : Nat), (s.dev.powered = true) ∧ (s.dev.wordIssues n .wait) ∧ ((s.dev.lee n).memrds = []) ∧ ((∀ y ∈ (s.dev.lee n).pipe, y.seq < (s.dev.lee
    n).seq)) ∧ ((∀ p ∈ (s.dev.lee n).arrivals, p.2 ≤ 8191)) ∧ ((s.dev.fetchWord n).imm.bits 12 0 ≤ s.dev.arrived n ((s.dev.fetchWord n).imm.bits 39 32))) :=
  ⟨⟨W (eng 0x21 0 0 0 [(LEE_STAT.GROUP, 2, 0, 0)]), 0,
     by (repeat' apply And.intro) <;> first | decide +kernel | rfl⟩,
   ⟨W (eng 0x28 0 0 0), 0,
     by (repeat' apply And.intro) <;> first | decide +kernel | rfl⟩,
   ⟨W (eng 0x3F 0 0 0), 0,
     by (repeat' apply And.intro) <;> first | decide +kernel | rfl⟩,
   ⟨W { b0 with regs := (puts b0 [(LEE_CTL.EN, 1, 0, 0)]).regs, lees := [(0, { drain := .trap })] }, 0,
     by (repeat' apply And.intro) <;> first | decide +kernel | rfl⟩,
   ⟨W { b0 with regs := (puts b0 [(LEE_CTL.EN, 1, 0, 0)]).regs, lees := [(0, { drain := .halt })] }, 0,
     by (repeat' apply And.intro) <;> first | decide +kernel | rfl⟩,
   ⟨W { eng 0 0 0 0 with lees := [(0, { pipe := [{ seq := 0, pc := 0, op := 0, regs := [], evals := 0 }] })] }, 0, 0, 4,
     { seq := 0, pc := 0, op := 0, regs := [], evals := 0 },
     by (repeat' apply And.intro) <;> first | decide +kernel | rfl⟩,
   ⟨W (eng 0x4 0 0 0), W b0, W b0, 0, 0, .copy, .copy 0 .none,
     by (repeat' apply And.intro) <;> first | decide +kernel | rfl⟩,
   ⟨W (eng 0x11 0 0 0), W b0, W b0, 0, 0,
     by (repeat' apply And.intro) <;> first | decide +kernel | rfl⟩⟩

/-- States and operands that meet the hypotheses of GroupCommandsAnswer, clause by clause. -/
theorem test_meets_group_commands_answer :
  (∃ (s : State) (g : Nat), (s.dev.powered = true) ∧ (g < s.dev.groupsHere) ∧ (s.dev.groupState g = 0) ∧ ((∀ h, h < g → s.dev.groupState h ≠ 0))) ∧
  (∃ (s : State), (s.dev.powered = true) ∧ ((∀ g, g < s.dev.groupsHere → s.dev.groupState g ≠ 0))) ∧
  (∃ (s : State) (g : Nat), (s.dev.powered = true) ∧ (g < 16) ∧ (s.dev.groupState g = 1) ∧ (s.dev.groupInvalid g = false) ∧ (s.dev.groupBusy g = false)) ∧
  (∃ (s : State) (g : Nat), (s.dev.powered = true) ∧ (g < 16) ∧ (s.dev.groupState g = 2) ∧ (s.dev.groupBusy g = false)) ∧
  (∃ (s : State) (g : Nat), (s.dev.powered = true) ∧ (g < 16) ∧ (s.dev.groupState g = 1)) ∧
  (∃ (s : State) (g : Nat), (s.dev.powered = true) ∧ (16 ≤ g)) :=
  ⟨⟨W b0, 0,
     by (repeat' apply And.intro) <;> first | decide +kernel | rfl⟩,
   ⟨W (puts b0 ((List.range 16).map fun g => (FAB_MG_CTL.STATE, 1, 0, g))),
     by (repeat' apply And.intro) <;> first | decide +kernel | rfl⟩,
   ⟨W (puts b0 [(FAB_MG_CTL.STATE, 1, 0, 15), (FAB_MG_MEM.MEMBERS, 1, 0, 90)]), 15,
     by (repeat' apply And.intro) <;> first | decide +kernel | rfl⟩,
   ⟨W (puts b0 [(FAB_MG_CTL.STATE, 2, 0, 15)]), 15,
     by (repeat' apply And.intro) <;> first | decide +kernel | rfl⟩,
   ⟨W (puts b0 [(FAB_MG_CTL.STATE, 1, 0, 15)]), 15,
     by (repeat' apply And.intro) <;> first | decide +kernel | rfl⟩,
   ⟨W b0, 16,
     by (repeat' apply And.intro) <;> first | decide +kernel | rfl⟩⟩

/-- States and operands that meet the hypotheses of BarriersCountTheirArrivals, clause by clause. -/
theorem test_meets_barriers_count_their_arrivals :
  (∃ (s : State) (n g : Nat), (s.dev.powered = true) ∧ ((s.dev.lee n).drain = .barrier) ∧ ((s.dev.lee n).drained = true) ∧ ((s.dev.lee n).stopping = false) ∧ (s.dev.flag
    LEE_BAR.ARR n = false) ∧ (s.dev.get LEE_STAT.GROUP n = g) ∧ (s.dev.get FAB_MG_CTL.SPAN 0 g = 0) ∧ ((s.dev.group g).arrived.length + 1 < (s.dev.members g).length) ∧
    (s.dev.get FAB_MG_STAT.ARRIVED 0 g < 384)) ∧
  (∃ (s : State) (n g : Nat), (s.dev.powered = true) ∧ ((s.dev.lee n).drain = .barrier) ∧ ((s.dev.lee n).drained = true) ∧ ((s.dev.lee n).stopping = false) ∧ (s.dev.flag
    LEE_BAR.ARR n = false) ∧ (s.dev.get LEE_STAT.GROUP n = g) ∧ (s.dev.get FAB_MG_CTL.SPAN 0 g = 0) ∧ ((s.dev.group g).arrived.length + 1 = (s.dev.members g).length)) ∧
  (∃ (s : State) (n : Nat), (s.dev.powered = true) ∧ (s.dev.reaches (.barrierNotify n)) ∧ ((s.dev.lee n).drain = .barrier) ∧ ((s.dev.lee n).drained = true) ∧ ((s.dev.lee
    n).stopping = false) ∧ (s.dev.flag LEE_BAR.ARR n = true) ∧ (s.dev.get FAB_MG_STAT.GEN 0 (s.dev.get LEE_STAT.GROUP n) ≠ s.dev.get LEE_BAR.GEN n)) ∧
  (∃ (s : State) (g : Nat) (t : Word), (s.dev.powered = true) ∧ (g < s.dev.groupsHere) ∧ ((s.dev.group g).first = some t) ∧ (s.dev.get FAB_MG_CTL.WDOG 0 g ≠ 0) ∧
    (s.dev.groupState g = 2) ∧ (2 ^ s.dev.get FAB_MG_CTL.WDOG 0 g ≤ (s.dev.ring - t).toNat) ∧ ((s.dev.group g).expired = false)) ∧
  (∃ (s : State) (g : Nat), (s.dev.powered = true) ∧ ((s.dev.group g).expired = true)) :=
  ⟨⟨W { b0 with regs := (puts b0 [(LEE_STAT.GROUP, 0, 0, 0), (FAB_MG_CTL.STATE, 2, 0, 0), (FAB_MG_MEM.MEMBERS, 3, 0, 0)]).regs, lees := [(0, { drain := .barrier })] },
     0, 0,
     by (repeat' apply And.intro) <;> first | decide +kernel | rfl⟩,
   ⟨W { b0 with regs := (puts b0 [(LEE_STAT.GROUP, 0, 0, 0), (FAB_MG_CTL.STATE, 2, 0, 0), (FAB_MG_MEM.MEMBERS, 1, 0, 0)]).regs, lees := [(0, { drain := .barrier })] },
     0, 0,
     by (repeat' apply And.intro) <;> first | decide +kernel | rfl⟩,
   ⟨W { b0 with regs := (puts b0 [(LEE_STAT.GROUP, 0, 0, 0), (FAB_MG_CTL.STATE, 2, 0, 0), (FAB_MG_MEM.MEMBERS, 1, 0, 0), (LEE_BAR.ARR, 1, 0, 0), (FAB_MG_STAT.GEN, 1, 0, 0)]).regs, lees := [(0, { drain := .barrier })] },
     0,
     by (repeat' apply And.intro) <;> first | decide +kernel | rfl⟩,
   ⟨W { b0 with regs := (puts b0 [(FAB_MG_CTL.STATE, 2, 0, 0), (FAB_MG_CTL.WDOG, 3, 0, 0)]).regs, groups := [(0, { first := some 0 })], ring := 8 }, 0, 0,
     by (repeat' apply And.intro) <;> first | decide +kernel | rfl⟩,
   ⟨W { b0 with groups := [(15, { expired := true })] }, 15,
     by (repeat' apply And.intro) <;> first | decide +kernel | rfl⟩⟩

/-- States and operands that meet the hypotheses of EnginesAndTheirRegisters, clause by clause. -/
theorem test_meets_engines_and_their_registers :
  (∃ (s : State) (n : Nat), (s.dev.powered = true) ∧ (s.dev.leePresent n = true) ∧ (s.dev.flag EVC_STAT.SAFE = false) ∧ (s.dev.flag LEE_CTL.EN n = false) ∧ (s.dev.flag
    LEE_STAT.RUN n = false) ∧ (s.dev.flag LEE_STAT.CLEARING n = false) ∧ (s.dev.mapValid n = true) ∧ (s.dev.get LEE_STAT.GROUP n = 0xFF) ∧ (s.dev.get LEE_PC.PC n <
    s.dev.pcLimit n) ∧ (s.dev.xchFault n = none)) ∧
  (∃ (s : State) (n : Nat), (s.dev.powered = true) ∧ (s.dev.leePresent n = true) ∧ (s.dev.flag LEE_STAT.RUN n = true)) ∧
  (∃ (s : State) (n : Nat), (s.dev.powered = true) ∧ (s.dev.leePresent n = true) ∧ (s.dev.flag LEE_STAT.RUN n = false) ∧ (s.dev.flag LEE_STAT.HALTED n || s.dev.flag
    LEE_STAT.FAULTED n || s.dev.flag LEE_STAT.TRAPPED n)) ∧
  (∃ (s : State) (n : Nat), (s.dev.powered = true) ∧ (s.dev.powerBusy = false) ∧ (s.dev.leePresent n = true) ∧ ((s.dev.lee n).stopping = true) ∧ ((s.dev.lee n).drained =
    true) ∧ ((s.dev.lee n).drain = .none) ∧ (s.dev.flag LEE_STAT.RUN n = true) ∧ (s.dev.flag LEE_CTL.EN n = false)) ∧
  (∃ (s : State) (n : Nat), (s.dev.powered = true) ∧ (s.dev.leePresent n = true) ∧ (s.dev.flag LEE_STAT.RUN n = false) ∧ (s.dev.flag LEE_STAT.TRAPPED n = false)) ∧
  (∃ (s : State) (n : Nat), (s.dev.powered = true) ∧ (s.dev.leePresent n = true) ∧ (s.dev.flag LEE_STAT.RUN n = true) ∧ (s.dev.flag LEE_CTL.EN n = true) ∧ (s.dev.flag
    EVC_STAT.SAFE = false)) ∧
  (∃ (s : State) (n : Nat), (s.dev.powered = true) ∧ (s.dev.leePresent n = true) ∧ (s.dev.flag LEE_STAT.CLEARING n = true) ∧ (s.dev.bistRuns n = false) ∧ ((s.dev.lee
    n).startAfterClear = false)) ∧
  (∃ (s : State) (n : Nat), (s.dev.powered = true) ∧ (s.dev.leePresent n = true) ∧ (s.dev.flag LEE_STAT.TRAPPED n = true)) ∧
  (∃ (s : State) (n off : Nat) (v : Word), (s.dev.powered = true) ∧ (s.dev.leePresent n = true) ∧ (s.dev.flag LEE_STAT.RUN n || s.dev.flag LEE_STAT.TRAPPED n) ∧ ((off = 0 →
    v.bits 3 1 ≠ s.dev.get ⟨.LEE_CTL, 3, 1⟩ n))) ∧
  (∃ (s : State) (n : Nat) (v : Word), (s.dev.powered = true) ∧ (v.bits 3 1 = s.dev.get ⟨.LEE_CTL, 3, 1⟩ n)) ∧
  (∃ (s : State) (n : Nat) (v : Word), (s.dev.powered = true) ∧ (s.dev.leePresent n = true) ∧ (s.dev.flag LEE_STAT.RUN n = false) ∧ (s.dev.flag LEE_STAT.TRAPPED n = false)) ∧
  (∃ (s : State) (n : Nat) (v : Word), (s.dev.powered = true) ∧ (s.dev.leePresent n = true) ∧ (s.dev.flag LEE_STAT.RUN n = false) ∧ (s.dev.flag LEE_STAT.TRAPPED n = false)
    ∧ (v.bits 2 1 ≠ 3)) ∧
  (∃ (s : State) (n tail : Nat), (s.dev.powered = true) ∧ (s.dev.leePresent n = true)) :=
  ⟨⟨W (puts b0 [(LEE_MAP0.PROG_SIZE, 1, 0, 0)]), 0,
     by (repeat' apply And.intro) <;> first | decide +kernel | rfl⟩,
   ⟨W (eng 0 0 0 0), 0,
     by (repeat' apply And.intro) <;> first | decide +kernel | rfl⟩,
   ⟨W (puts b0 [(LEE_STAT.HALTED, 1, 0, 0)]), 0,
     by (repeat' apply And.intro) <;> first | decide +kernel | rfl⟩,
   ⟨W { b0 with regs := (puts b0 [(LEE_STAT.RUN, 1, 0, 0)]).regs, lees := [(0, { stopping := true })] }, 0,
     by (repeat' apply And.intro) <;> first | decide +kernel | rfl⟩,
   ⟨W b0, 0,
     by (repeat' apply And.intro) <;> first | decide +kernel | rfl⟩,
   ⟨W (eng 0 0 0 0), 0,
     by (repeat' apply And.intro) <;> first | decide +kernel | rfl⟩,
   ⟨W (puts b0 [(LEE_STAT.CLEARING, 1, 0, 0)]), 0,
     by (repeat' apply And.intro) <;> first | decide +kernel | rfl⟩,
   ⟨W (puts b0 [(LEE_STAT.TRAPPED, 1, 0, 0)]), 0,
     by (repeat' apply And.intro) <;> first | decide +kernel | rfl⟩,
   ⟨W (eng 0 0 0 0), 0, 0, 4,
     by (repeat' apply And.intro) <;> first | decide +kernel | rfl⟩,
   ⟨W b0, 31, 1,
     by (repeat' apply And.intro) <;> first | decide +kernel | rfl⟩,
   ⟨W b0, 0, 1,
     by (repeat' apply And.intro) <;> first | decide +kernel | rfl⟩,
   ⟨W b0, 0, 4,
     by (repeat' apply And.intro) <;> first | decide +kernel | rfl⟩,
   ⟨W b0, 31, 2 ^ 32 - 1,
     by (repeat' apply And.intro) <;> first | decide +kernel | rfl⟩⟩

/-- States and operands that meet the hypotheses of AperturesAndStreams, clause by clause. -/
theorem test_meets_apertures_and_streams :
  (∃ (s : State) (h : Nat) (p : Mode) (n off size : Nat), (s.dev.powered = true) ∧ (s.dev.apertureStands n = false) ∧ (s.dev.forwarding (s.dev.leafSite n) = []) ∧
    (s.dev.flag LEE_STAT.CLEARING n = false) ∧ (s.dev.apertureBacked n off = true) ∧ (apertureSize (.leaf h p) off size false = true)) ∧
  (∃ (s : State) (h : Nat) (p : Mode) (n off size : Nat) (v : Line), (s.dev.powered = true) ∧ (s.dev.apertureStands n = false) ∧ (s.dev.forwarding (s.dev.leafSite n) = [])
    ∧ (s.dev.flag LEE_STAT.CLEARING n = false) ∧ (s.dev.reaches (.aperture (.leaf h p) n off size v)) ∧ (s.dev.apertureBacked n off = true) ∧ (apertureSize (.leaf h p)
    off size true = true) ∧ (s.dev.flag LEE_STAT.RUN n = false)) ∧
  (∃ (s : State) (h : Nat) (p : Mode) (n off size : Nat) (v : Line), (s.dev.powered = true) ∧ (s.dev.apertureStands n = false) ∧ (s.dev.forwarding (s.dev.leafSite n) = [])
    ∧ (s.dev.flag LEE_STAT.CLEARING n = false) ∧ (s.dev.reaches (.aperture (.leaf h p) n off size v)) ∧ (s.dev.apertureBacked n off = true) ∧ (apertureSize (.leaf h p)
    off size true = true) ∧ (s.dev.flag LEE_STAT.RUN n = true)) ∧
  (∃ (s : State) (h : Nat) (p : Mode) (n off size : Nat), (s.dev.powered = true) ∧ (s.dev.apertureStands n = false) ∧ (s.dev.forwarding (s.dev.leafSite n) = []) ∧
    (s.dev.apertureBacked n off = false) ∧ (s.dev.flag TRK_DECERR.VALID = false)) ∧
  (∃ (s : State) (n : Nat), (s.dev.powered = true) ∧ (s.dev.leePresent n = true) ∧ (s.dev.flag LEE_STAT.RUN n = true) ∧ (s.dev.flag LEE_CTL.STREAM n = true)) ∧
  (∃ (s : State) (n q i : Nat) (p : PageBuf) (r : LeeReq) (v : Line) (e : Dev), (s.dev.powered = true) ∧ (s.dev.leeServe n = e) ∧ (((e.lee n).pages.find? fun x => x.page ==
    q) = some p) ∧ (p.got = i) ∧ (((e.lee n).mem.find? fun r => r.use == .page q i && r.came.isSome) = some r) ∧ (r.came = some (.line v))) :=
  ⟨⟨W b0, 0, .machine, 31, 0x3FFFF8, 8,
     by (repeat' apply And.intro) <;> first | decide +kernel | rfl⟩,
   ⟨W b0, 0, .machine, 0, 8, 4, 1,
     by (repeat' apply And.intro) <;> first | decide +kernel | rfl⟩,
   ⟨W (eng 0 0 0 0), 0, .machine, 0, 8, 4, 1,
     by (repeat' apply And.intro) <;> first | decide +kernel | rfl⟩,
   ⟨W b0, 0, .machine, 32, 0, 8,
     by (repeat' apply And.intro) <;> first | decide +kernel | rfl⟩,
   ⟨W (eng 0 0 0 0 [(LEE_CTL.STREAM, 1, 0, 0)]), 0,
     by (repeat' apply And.intro) <;> first | decide +kernel | rfl⟩,
   ⟨W { b0 with lees := [(0, { pages := [⟨0, 1024, 1023, []⟩], mem := [⟨0, .page 0 1023, true, some (.line 5)⟩] })] }, 0, 0, 1023, ⟨0, 1024, 1023, []⟩,
     ⟨0, .page 0 1023, true, some (.line 5)⟩, 5, { b0 with lees := [(0, { pages := [⟨0, 1024, 1023, []⟩], mem := [⟨0, .page 0 1023, true, some (.line 5)⟩] })] },
     by (repeat' apply And.intro) <;> first | decide +kernel | rfl⟩⟩

/-- States and operands that meet the hypotheses of ExchangeDelivery, clause by clause. -/
theorem test_meets_exchange_delivery :
  (∃ (s : State) (m : XchMsg), (s.dev.powered = true) ∧ (s.dev.reaches (.xch m)) ∧ (s.dev.leePresent m.dleaf = true) ∧ (s.dev.isolated (s.dev.leafSite m.dleaf) = false) ∧
    ((s.dev.gate (s.dev.leafSite m.dleaf)).closed = false) ∧ (s.dev.senderCut m = false) ∧ (s.dev.lateralDown m = false) ∧ (s.dev.flag LEE_STAT.CLEARING m.dleaf = false)
    ∧ (m.lanes = s.dev.get LEE_CTL.LANES m.dleaf) ∧ (m.slot < s.dev.inboxSlots m.dleaf) ∧ (m.mc = s.dev.get LEE_CYCLE.MCYCLE m.dleaf) ∧ (m.remote = none) ∧ (m.data.length
    = 4 * s.dev.width m.dleaf) ∧ ((s.dev.lee m.dleaf).drain = .none) ∧ ((s.dev.lee m.dleaf).arrivals.find 0 (arrKey (m.mc % 2) m.step) < 8191)) ∧
  (∃ (s : State) (m : XchMsg), (s.dev.powered = true) ∧ (s.dev.reaches (.xch m)) ∧ (s.dev.leePresent m.dleaf = true) ∧ (s.dev.isolated (s.dev.leafSite m.dleaf) = false) ∧
    ((s.dev.gate (s.dev.leafSite m.dleaf)).closed = false) ∧ (s.dev.senderCut m = false) ∧ (s.dev.lateralDown m = false) ∧ (m.lanes ≠ s.dev.get LEE_CTL.LANES m.dleaf) ∧
    (m.remote = none)) ∧
  (∃ (s : State) (n : Nat) (imm : Word), (s.dev.powered = true) ∧ (s.dev.reaches (.xchAck n imm .delivered)) ∧ (imm ∈ (s.dev.lee n).sends) ∧ (imm ∉ (s.dev.lee
    n).discardAcks)) ∧
  (∃ (s : State) (n : Nat) (imm : Word), (s.dev.powered = true) ∧ (s.dev.reaches (.xchAck n imm .slotBeyond)) ∧ (imm ∈ (s.dev.lee n).sends) ∧ (imm ∉ (s.dev.lee
    n).discardAcks) ∧ ((s.dev.lee n).drain = .none)) :=
  ⟨⟨W (puts b0 [(LEE_MAP2.INBOX_SIZE, 1, 0, 0)]), ⟨1, 0, 0, 0, 0, 0, 0, none, [0, 0, 0, 0]⟩,
     by (repeat' apply And.intro) <;> first | decide +kernel | rfl⟩,
   ⟨W b0, ⟨1, 0, 0, 0, 0, 1, 0, none, [0, 0, 0, 0]⟩,
     by (repeat' apply And.intro) <;> first | decide +kernel | rfl⟩,
   ⟨W { b0 with lees := [(0, { sends := [7] })] }, 0, 7,
     by (repeat' apply And.intro) <;> first | decide +kernel | rfl⟩,
   ⟨W { b0 with lees := [(0, { sends := [7] })] }, 0, 7,
     by (repeat' apply And.intro) <;> first | decide +kernel | rfl⟩⟩

/-- States and operands that meet the hypotheses of LeafAccessesRetireOrMiss, clause by clause. -/
theorem test_meets_leaf_accesses_retire_or_miss :
  (∃ (s : State) (n : Nat) (raw acc : LeafAccess) (d : Dev), (s.dev.admitAccess n raw = (some acc, d))) ∧
  (∃ (s : State) (n : Nat) (raw acc : LeafAccess), (s.dev.powered = true) ∧ (s.dev.leafRuns n = true) ∧ ((s.dev.leaf n).interrupt = none) ∧ ((s.dev.leaf n).accessTrap raw =
    none) ∧ ((s.dev.admitAccess n raw).1 = some acc) ∧ (raw.kind = .load) ∧ (raw.last = true) ∧ (acc.pbmt = .pma) ∧ (0 < raw.size) ∧ (raw.size ≤ 8) ∧ (acc.addr % 64 +
    raw.size ≤ 64) ∧ (mainMemory acc.addr = true) ∧ ((s.dev.leaf n).misses.length < 48) ∧ (s.dev.canServe (n / 16) (acc.addr / 64) false = true) ∧ (((s.dev.bough (n /
    16)).evb.any fun e => e.line == acc.addr / 64) = false) ∧ (((s.dev.bough (n / 16)).line (acc.addr / 64)).poison = false)) ∧
  (∃ (s : State) (n : Nat) (raw acc : LeafAccess), (s.dev.powered = true) ∧ (s.dev.leafRuns n = true) ∧ ((s.dev.leaf n).interrupt = none) ∧ ((s.dev.leaf n).accessTrap raw =
    none) ∧ ((s.dev.admitAccess n raw).1 = some acc) ∧ (raw.kind = .load) ∧ (acc.pbmt = .pma) ∧ (0 < raw.size) ∧ (raw.size ≤ 8) ∧ (mainMemory acc.addr = true) ∧
    ((s.dev.leaf n).misses.length < 48) ∧ (((s.dev.bough (n / 16)).line (acc.addr / 64)).valid = false) ∧ (((s.dev.bough (n / 16)).evb.any fun e => e.line == acc.addr /
    64) = false)) ∧
  (∃ (s : State) (n : Nat) (raw acc : LeafAccess), (s.dev.powered = true) ∧ (s.dev.leafRuns n = true) ∧ ((s.dev.leaf n).interrupt = none) ∧ ((s.dev.leaf n).accessTrap raw =
    none) ∧ ((s.dev.admitAccess n raw).1 = some acc) ∧ (raw.kind = .store) ∧ (raw.last = true) ∧ (acc.pbmt = .pma) ∧ (0 < raw.size) ∧ (raw.size ≤ 8) ∧ (acc.addr % 64 +
    raw.size ≤ 64) ∧ (mainMemory acc.addr = true) ∧ ((s.dev.leaf n).misses.length < 48) ∧ (s.dev.canServe (n / 16) (acc.addr / 64) true = true) ∧ (((s.dev.bough (n /
    16)).evb.any fun e => e.line == acc.addr / 64) = false)) ∧
  (∃ (s : State) (n a : Nat) (m : LeafMiss) (acc : LeafAccess), (s.dev.powered = true) ∧ (((s.dev.leaf n).misses.find? fun x => x.addr == a) = some m) ∧ (m.kind = .demand
    acc) ∧ (m.answer = some false) ∧ (m.poison = false) ∧ (acc.kind = .load) ∧ (acc.file = .x) ∧ ((s.dev.leaf n).stalled = none) ∧ ((s.dev.leaf n).mchkPending = none)) :=
  ⟨⟨W b0, 0, { kind := .load, va := 56, size := 8 }, { kind := .load, va := 56, size := 8, addr := 56 }, b0,
     by (repeat' apply And.intro) <;> first | decide +kernel | rfl⟩,
   ⟨W { b0 with boughs := [(0, { lines := [(0, { st := .shared })] })] }, 0, { kind := .load, va := 56, size := 8 }, { kind := .load, va := 56, size := 8, addr := 56 },
     by (repeat' apply And.intro) <;> first | decide +kernel | rfl⟩,
   ⟨W b0, 0, { kind := .load, va := 60, size := 8 }, { kind := .load, va := 60, size := 8, addr := 60 },
     by (repeat' apply And.intro) <;> first | decide +kernel | rfl⟩,
   ⟨W { b0 with boughs := [(0, { lines := [(0, { st := .modified })] })] }, 31 - 31, { kind := .store, va := 63, size := 1 },
     { kind := .store, va := 63, size := 1, addr := 63 },
     by (repeat' apply And.intro) <;> first | decide +kernel | rfl⟩,
   ⟨W { b0 with leaves := [(0, { misses := [{ addr := 0, kind := .demand { kind := .load, va := 0, size := 8 }, done := 8, value := 5, answer := some false }] })] }, 0,
     0, { addr := 0, kind := .demand { kind := .load, va := 0, size := 8 }, done := 8, value := 5, answer := some false }, { kind := .load, va := 0, size := 8 },
     by (repeat' apply And.intro) <;> first | decide +kernel | rfl⟩⟩

/-- States and operands that meet the hypotheses of LeafHintsFencesAndWfi, clause by clause. -/
theorem test_meets_leaf_hints_fences_and_wfi :
  (∃ (s : State) (n a : Nat) (acc : LeafAccess), (s.dev.powered = true) ∧ (s.dev.leafRuns n = true) ∧ ((s.dev.leaf n).interrupt = none) ∧ ((s.dev.leaf n).cbzeTrap = none) ∧
    ((s.dev.mapAccess n { kind := .store, va := BitVec.ofNat 64 (a / 64 * 64), size := 64 }).1 = .ok acc) ∧ (acc.pbmt = .pma) ∧ (mainMemory acc.addr = true) ∧
    (s.dev.memCheck (s.dev.leafClass n) 0 true acc.addr = .ok) ∧ (s.dev.canServe (n / 16) (acc.addr / 64) true = true) ∧ ((s.dev.leaf n).misses.length < 48) ∧
    (((s.dev.bough (n / 16)).evb.any fun e => e.line == acc.addr / 64) = false)) ∧
  (∃ (s : State) (n a : Nat) (k : PrefetchKind) (acc : LeafAccess), (s.dev.powered = true) ∧ (s.dev.leafReady n = true) ∧ ((if k = .hardware then acc =
    { kind := prefetchKind k, va := BitVec.ofNat 64 (a / 64 * 64), size := 64, addr := a / 64 * 64 } else s.dev.leafRuns n = true ∧ ((s.dev.modLeaf n fun l => l.retire
    (l.pc + 4)).mapAccess n { kind := prefetchKind k, va := BitVec.ofNat 64 (a / 64 * 64), size := 64 }).1 = .ok acc)) ∧ (acc.pbmt = .pma) ∧ (mainMemory acc.addr = true)
    ∧ (s.dev.memCheck (s.dev.leafClass n) 0 false acc.addr = .ok) ∧ ((s.dev.leaf n).misses.length < 44) ∧ (((s.dev.bough (n / 16)).line (acc.addr / 64)).valid = false) ∧
    (((s.dev.bough (n / 16)).evb.any fun e => e.line == acc.addr / 64) = false)) ∧
  (∃ (s : State) (n a : Nat) (k : PrefetchKind) (acc : LeafAccess), (s.dev.powered = true) ∧ (s.dev.leafRuns n = true) ∧ (k ≠ .hardware) ∧ (((s.dev.modLeaf n fun l =>
    l.retire (l.pc + 4)).mapAccess n { kind := prefetchKind k, va := BitVec.ofNat 64 (a / 64 * 64), size := 64 }).1 = .ok acc) ∧ (s.dev.memCheck (s.dev.leafClass n) 0
    false acc.addr = .ok) ∧ (44 ≤ (s.dev.leaf n).misses.length)) ∧
  (∃ (s : State) (n : Nat), (s.dev.powered = true) ∧ (s.dev.leafRuns n = true)) ∧
  (∃ (s : State) (n : Nat), (s.dev.powered = true) ∧ (s.dev.leafRuns n = true) ∧ ((s.dev.leaf n).interrupt = none) ∧ ((s.dev.leaf n).wfiTrap = none) ∧ ((s.dev.leaf n).wakes
    = false) ∧ (bit (s.dev.get BPW_LEAF_PWR.OFF_EN (s.dev.leafSite n)) (n % 16) = false)) :=
  ⟨⟨W { b0 with boughs := [(0, { lines := [(0, { st := .excl })] })] }, 15, 63, { kind := .store, va := 0, size := 64 },
     by (repeat' apply And.intro) <;> first | decide +kernel | rfl⟩,
   ⟨W { b0 with leaves := [(0, { misses := List.replicate 43 { addr := 64, kind := .prefetch .read } })] }, 0, 0, .read, { kind := .load, va := 0, size := 64 },
     by (repeat' apply And.intro) <;> first | decide +kernel | rfl⟩,
   ⟨W { b0 with leaves := [(0, { misses := List.replicate 44 { addr := 64, kind := .prefetch .read } })] }, 0, 0, .read, { kind := .load, va := 0, size := 64 },
     by (repeat' apply And.intro) <;> first | decide +kernel | rfl⟩,
   ⟨W b0, 31,
     by (repeat' apply And.intro) <;> first | decide +kernel | rfl⟩,
   ⟨W b0, 31,
     by (repeat' apply And.intro) <;> first | decide +kernel | rfl⟩⟩

/-- States and operands that meet the hypotheses of LeafInstructionsAndTraps, clause by clause. -/
theorem test_meets_leaf_instructions_and_traps :
  (∃ (s : State) (n : Nat) (op : AluOp) (rd rs1 : Nat) (src : RegOrImm) (len : Nat) (bits : Word), (s.dev.powered = true) ∧ (s.dev.leafRuns n = true) ∧ ((s.dev.leaf
    n).interrupt = none)) ∧
  (∃ (s : State) (n rd : Nat) (off : Word) (len : Nat) (bits : Word), (s.dev.powered = true) ∧ (s.dev.leafRuns n = true) ∧ ((s.dev.leaf n).interrupt = none)) ∧
  (∃ (s : State) (n len : Nat) (bits : Word), (s.dev.powered = true) ∧ (s.dev.leafRuns n = true) ∧ ((s.dev.leaf n).interrupt = none) ∧ ((s.dev.leaf n).mode = .machine) ∧
    (((s.dev.leaf n).csrRaw 0x744).getLsbD 3 = true)) ∧
  (∃ (s : State) (n len : Nat) (bits : Word), (s.dev.powered = true) ∧ (s.dev.leafRuns n = true) ∧ ((s.dev.leaf n).interrupt = none) ∧ ((s.dev.leaf n).mode = .machine)) ∧
  (∃ (s : State) (n : Nat) (i : LeafInsn), (s.dev.powered = true) ∧ (s.dev.leafRuns n = true) ∧ ((s.dev.leaf n).interrupt = none) ∧ (usesAlu i.op = true) ∧ (((s.dev.leaf
    n).csrRaw 0x744).getLsbD 3 = true)) ∧
  (∃ (s : State) (n : Nat), (s.dev.powered = true) ∧ (s.dev.leafRuns n = true) ∧ ((s.dev.leaf n).mode = .machine) ∧ ((s.dev.leaf n).mchkPending = none)) :=
  ⟨⟨W b0, 31, .add, 0, 0, .imm 0, 4, 0,
     by (repeat' apply And.intro) <;> first | decide +kernel | rfl⟩,
   ⟨W b0, 0, 0, 0, 4, 0,
     by (repeat' apply And.intro) <;> first | decide +kernel | rfl⟩,
   ⟨W { b0 with leaves := [(0, { mode := .machine, csr := [(0x744, 8)] })] }, 0, 4, 0,
     by (repeat' apply And.intro) <;> first | decide +kernel | rfl⟩,
   ⟨W b0, 0, 4, 0,
     by (repeat' apply And.intro) <;> first | decide +kernel | rfl⟩,
   ⟨W { b0 with leaves := [(0, { mode := .user, csr := [(0x744, 8)] })] }, 0, ⟨.lui 31 0, 4, 0⟩,
     by (repeat' apply And.intro) <;> first | decide +kernel | rfl⟩,
   ⟨W b0, 0,
     by (repeat' apply And.intro) <;> first | decide +kernel | rfl⟩⟩

/-- States and operands that meet the hypotheses of LeafTranslationAndProtection, clause by clause. -/
theorem test_meets_leaf_translation_and_protection :
  (∃ (s : State) (n : Nat) (raw : LeafAccess), (raw.kind ≠ .walk) ∧ (raw.hv = false) ∧ ((s.dev.leaf n).mode = .machine) ∧ (((s.dev.leaf n).csrRaw 0x300).getLsbD 17 = false)
    ∧ (raw.va.toNat % 4096 + raw.size ≤ 4096) ∧ (raw.va.toNat < 2 ^ 48) ∧ ((s.dev.leaf n).pmpPermits .machine (pmpNeed raw.kind) raw.va.toNat raw.size = true)) ∧
  (∃ (s : State) (n : Nat) (raw : LeafAccess), (s.dev.powered = true) ∧ (s.dev.leafRuns n = true) ∧ ((s.dev.leaf n).interrupt = none) ∧ ((s.dev.leaf n).accessTrap raw =
    none) ∧ (raw.kind = .load) ∧ (raw.hv = false) ∧ (0 < raw.size) ∧ (raw.size ≤ 8) ∧ ((s.dev.leaf n).mode = .super) ∧ ((s.dev.leaf n).tlb = []) ∧ (((s.dev.leaf n).csrRaw
    0x302).getLsbD 13 = false) ∧ (8 ≤ ((s.dev.leaf n).csrRaw 0x180).bits 63 60) ∧ (canonical (svLevels (((s.dev.leaf n).csrRaw 0x180).bits 63 60)) raw.va = false)) ∧
  (∃ (s : State) (n : Nat) (raw : LeafAccess), (s.dev.powered = true) ∧ (s.dev.leafRuns n = true) ∧ ((s.dev.leaf n).interrupt = none) ∧ ((s.dev.leaf n).accessTrap raw =
    none) ∧ (raw.kind = .store) ∧ (raw.hv = false) ∧ (0 < raw.size) ∧ (raw.size ≤ 8) ∧ ((s.dev.leaf n).mode = .user) ∧ (((s.dev.leaf n).csrRaw 0x180).bits 63 60 = 0) ∧
    (raw.va.toNat < 2 ^ 48) ∧ ((∀ i, i < 64 → (s.dev.leaf n).pmpRange i = none)) ∧ (((s.dev.leaf n).csrRaw 0x302).getLsbD 7 = false)) ∧
  (∃ (bits : Nat) (kind : AccKind) (hx mxr sum user : Bool), (bit bits 6 = false ∨ (needsWrite kind = true ∧ bit bits 7 = false))) ∧
  (∃ (s : State) (n len : Nat) (bits : Word), (s.dev.powered = true) ∧ (s.dev.leafRuns n = true) ∧ ((s.dev.leaf n).interrupt = none) ∧ ((s.dev.leaf n).mode = .super) ∧
    (((s.dev.leaf n).csrRaw 0x300).getLsbD 20 = false)) ∧
  (∃ (s : State) (n len : Nat) (bits : Word), (s.dev.powered = true) ∧ (s.dev.leafRuns n = true) ∧ ((s.dev.leaf n).interrupt = none) ∧ ((s.dev.leaf n).mode = .super) ∧
    (((s.dev.leaf n).csrRaw 0x300).getLsbD 20 = true) ∧ (((s.dev.leaf n).csrRaw 0x302).getLsbD 2 = false)) ∧
  (∃ (s : State) (n rd rs len : Nat) (bits : Word), (s.dev.powered = true) ∧ (s.dev.leafRuns n = true) ∧ ((s.dev.leaf n).interrupt = none) ∧ ((s.dev.leaf n).mode =
    .machine) ∧ ((s.dev.leaf n).csrRaw 0x301 = 0x80000000003411AF)) :=
  ⟨⟨W b0, 0, { kind := .load, va := 0xFFFFFFFFFFF8, size := 8 },
     by (repeat' apply And.intro) <;> first | decide +kernel | rfl⟩,
   ⟨W { b0 with leaves := [(0, { mode := .super, csr := [(0x180, 0x8000000000000000)] })] }, 0, { kind := .load, va := 0x4000000000, size := 1 },
     by (repeat' apply And.intro) <;> first | decide +kernel | rfl⟩,
   ⟨W { b0 with leaves := [(0, { mode := .user, csr := [] })] }, 0, { kind := .store, va := 0xFFFFFFFFFFFF, size := 1 },
     by (repeat' apply And.intro) <;> first | decide +kernel | rfl⟩,
   ⟨0x81, .store, true, true, true, true,
     by decide⟩,
   ⟨W { b0 with leaves := [(0, { mode := .super, csr := [] })] }, 0, 4, 0,
     by (repeat' apply And.intro) <;> first | decide +kernel | rfl⟩,
   ⟨W { b0 with leaves := [(0, { mode := .super, csr := [(0x300, 0x0000000A00100000)] })] }, 0, 4, 0,
     by (repeat' apply And.intro) <;> first | decide +kernel | rfl⟩,
   ⟨W b0, 0, 1, 2, 4, 0,
     by (repeat' apply And.intro) <;> first | decide +kernel | rfl⟩⟩

/-- States and operands that meet the hypotheses of TimersAndInterruptFiles, clause by clause. -/
theorem test_meets_timers_and_interrupt_files :
  (∃ (s : State) (n : Nat) (v : Word), (s.dev.powered = true) ∧ (s.dev.leafPresent n = true)) ∧
  (∃ (s : State) (n : Nat) (c : TimerCmp), (s.dev.powered = true) ∧ (s.dev.leafPresent n = true) ∧ ((s.dev.leaf n).timerOn c = true) ∧ (s.dev.compare n c ≤ s.dev.timeFor n
    c)) ∧
  (∃ (s : State) (h f i : Nat), (s.dev.powered = true) ∧ (s.dev.powerBusy = false) ∧ (s.dev.leafPresent h = true) ∧ (f < 9) ∧ (0 < i) ∧ (i < 2048) ∧ (s.dev.isolated
    (s.dev.leafSite h) = false) ∧ ((s.dev.gate (s.dev.leafSite h)).closed = false) ∧ (s.dev.reaches (.msi h f i)) ∧ (s.dev.get BGH_LEAF_STAT.PSTATE (s.dev.leafSite h) (h
    % 16) ≠ 2)) ∧
  (∃ (s : State) (h f i : Nat), (s.dev.powered = true) ∧ (s.dev.powerBusy = false) ∧ (s.dev.leafPresent h = false) ∧ (s.dev.reaches (.msi h f i))) ∧
  (∃ (s : State) (n k : Nat), (s.dev.powered = true) ∧ (s.dev.leafPresent n = true) ∧ (3 ≤ k) ∧ (k ≤ 31) ∧ (((s.dev.leaf n).csrRaw (0x320 + k)).getLsbD 63 = false)) :=
  ⟨⟨W b0, 31, 0,
     by (repeat' apply And.intro) <;> first | decide +kernel | rfl⟩,
   ⟨W { b0 with leaves := [(0, { csr := [(0x30A, 0x8000000000000000)] })] }, 0, .stimecmp,
     by (repeat' apply And.intro) <;> first | decide +kernel | rfl⟩,
   ⟨W b0, 31, 8, 2047,
     by (repeat' apply And.intro) <;> first | decide +kernel | rfl⟩,
   ⟨W b0, 32, 0, 1,
     by (repeat' apply And.intro) <;> first | decide +kernel | rfl⟩,
   ⟨W b0, 0, 31,
     by (repeat' apply And.intro) <;> first | decide +kernel | rfl⟩⟩

/-- States and operands that meet the hypotheses of TheL3LocksAndIsDisabled, clause by clause. -/
theorem test_meets_the_l3_locks_and_is_disabled :
  (∃ (s : State) (i ways b : Nat), (s.dev.powered = true) ∧ (s.dev.siteActive i = true) ∧ (s.dev.boughAt i = b) ∧ (s.dev.boughSite b = i) ∧ (s.dev.flag L3C_CTL.EN i = true)
    ∧ ((s.dev.bough b).lock = none) ∧ (ways % 2 ^ 16 ≠ 0) ∧ (s.dev.get L3C_LOCK_LEN.LINES i ≠ 0) ∧ (s.dev.get L3C_LOCK_ADDR.ADDR i + s.dev.get L3C_LOCK_LEN.LINES i ≤ 2 ^
    42) ∧ (waysIn (ways % 2 ^ 16 ||| s.dev.get L3C_LOCK_WAYS.WAYS i) ≤ 12) ∧ (s.dev.l3On b = true) ∧ (((s.dev.bough b).line (s.dev.get L3C_LOCK_ADDR.ADDR i)).valid =
    false) ∧ ((s.dev.bough b).txn (s.dev.get L3C_LOCK_ADDR.ADDR i) = none) ∧ ((s.dev.bough b).evb = []) ∧ (s.dev.lockRefused (s.dev.get L3C_LOCK_ADDR.ADDR i) = none) ∧
    ((s.dev.bough b).lockWays (s.dev.get L3C_LOCK_ADDR.ADDR i) (ways % 2 ^ 16) ≠ [])) ∧
  (∃ (s : State) (i ways : Nat), (s.dev.powered = true) ∧ (s.dev.siteActive i = true) ∧ ((s.dev.bough (s.dev.boughAt i)).lock = none) ∧ (ways % 2 ^ 16 ≠ 0) ∧ (s.dev.get
    L3C_LOCK_LEN.LINES i ≠ 0) ∧ (s.dev.get L3C_LOCK_ADDR.ADDR i + s.dev.get L3C_LOCK_LEN.LINES i ≤ 2 ^ 42) ∧ (12 < waysIn (ways % 2 ^ 16 ||| s.dev.get L3C_LOCK_WAYS.WAYS
    i))) ∧
  (∃ (s : State) (i b w : Nat) (c : LockCmd) (t : BoughTxn) (g : Grant) (ep : Nat) (x : LineData), (s.dev.powered = true) ∧ (s.dev.siteActive i = true) ∧ (s.dev.boughAt i =
    b) ∧ (s.dev.boughSite b = i) ∧ (s.dev.isolated i = false) ∧ (s.dev.l3On b = true) ∧ ((∀ j, j < 16 → (s.dev.leaf (16 * b + j)).misses = [] ∧ (s.dev.lee (16 * b +
    j)).mem = [])) ∧ ((s.dev.bough b).lock = some c) ∧ (c.fetching = true) ∧ (c.ending = false) ∧ (c.left = 1) ∧ (c.firstFail = none) ∧ ((s.dev.bough b).txns = [t]) ∧
    (t.line = c.next) ∧ (t.filled = some (g, ep, x)) ∧ (x.poison = false) ∧ (((s.dev.bough b).line c.next).valid = false) ∧ (((s.dev.bough b).line c.next).locked = false)
    ∧ ((s.dev.bough b).chooseWay c.next ((s.dev.bough b).lockWays c.next c.ways) = some (w, none))) ∧
  (∃ (s : State) (i ways b : Nat), (s.dev.powered = true) ∧ (s.dev.siteActive i = true) ∧ (s.dev.boughAt i = b) ∧ (s.dev.boughSite b = i) ∧ ((s.dev.bough b).lock = none)) ∧
  (∃ (s : State) (i b : Nat), (s.dev.powered = true) ∧ (s.dev.siteActive i = true) ∧ (s.dev.boughAt i = b) ∧ (s.dev.boughSite b = i) ∧ (s.dev.flag L3C_CTL.EN i = true) ∧
    (s.dev.flag L3C_STAT.DISABLED i = false) ∧ ((s.dev.bough b).lock = none) ∧ ((s.dev.bough b).evb = []) ∧ ((s.dev.bough b).txns = []) ∧ ((∀ p ∈ (s.dev.bough b).lines,
    p.2.dirtyHere = false))) ∧
  (∃ (s : State) (i : Nat), (s.dev.powered = true) ∧ (s.dev.siteActive i = true) ∧ (s.dev.flag L3C_CTL.EN i = false) ∧ (s.dev.flag L3C_STAT.DISABLED i = false)) ∧
  (∃ (s : State) (i : Nat), (s.dev.powered = true) ∧ (s.dev.siteActive i = true) ∧ (s.dev.flag L3C_CTL.EN i = false) ∧ (s.dev.flag L3C_STAT.DISABLED i = true)) ∧
  (∃ (s : State) (i b : Nat), (s.dev.powered = true) ∧ (s.dev.siteActive i = true) ∧ (s.dev.boughAt i = b) ∧ (s.dev.flag L3C_CTL.EN i = true) ∧ (s.dev.flag
    L3C_STAT.DISABLED i = true) ∧ ((s.dev.bough b).lock = none)) :=
  ⟨⟨W { puts b0 [(L3C_LOCK_LEN.LINES, 1, 0, 0), (L3C_LOCK_ADDR.ADDR, 0, 0, 0)] with boughs := [] }, 0, 0xFFF, 0,
     by (repeat' apply And.intro) <;> first | decide +kernel | rfl⟩,
   ⟨W { puts b0 [(L3C_LOCK_LEN.LINES, 1, 0, 0), (L3C_LOCK_ADDR.ADDR, 2 ^ 42 - 1, 0, 0)] with boughs := [] }, 0, 0x1FFF,
     by (repeat' apply And.intro) <;> first | decide +kernel | rfl⟩,
   ⟨W { b0 with boughs := [(0, { lock := some { next := 5, left := 1, ways := 0x1, fetching := true }, txns := [{ line := 5, op := .rdShared, data := some (.shared, ⟨0, false⟩), grant := some (.shared, 0) }] })] },
     0, 0, 0, { next := 5, left := 1, ways := 0x1, fetching := true }, { line := 5, op := .rdShared, data := some (.shared, ⟨0, false⟩), grant := some (.shared, 0) },
     .shared, 0, ⟨0, false⟩,
     by
     refine ⟨by decide +kernel, by decide +kernel, by decide +kernel, by decide +kernel, by decide +kernel, ?_⟩
     (repeat' apply And.intro) <;> decide +kernel⟩,
   ⟨W b0, 1, 0xFFFF, 1,
     by (repeat' apply And.intro) <;> first | decide +kernel | rfl⟩,
   ⟨W b0, 0, 0,
     by (repeat' apply And.intro) <;> first | decide +kernel | rfl⟩,
   ⟨W (puts b0 [(L3C_CTL.EN, 0, 0, 0)]), 0,
     by (repeat' apply And.intro) <;> first | decide +kernel | rfl⟩,
   ⟨W (puts b0 [(L3C_CTL.EN, 0, 0, 0), (L3C_STAT.DISABLED, 1, 0, 0)]), 0,
     by (repeat' apply And.intro) <;> first | decide +kernel | rfl⟩,
   ⟨W (puts b0 [(L3C_STAT.DISABLED, 1, 0, 0)]), 0, 0,
     by (repeat' apply And.intro) <;> first | decide +kernel | rfl⟩⟩

/-- States and operands that meet the hypotheses of CoherentRequests, clause by clause. -/
theorem test_meets_coherent_requests :
  (∃ (s : State) (b line retry q : Nat), (s.dev.powered = true) ∧ (s.dev.reached b) ∧ (mainMemory (64 * line) = true) ∧ (s.dev.reaches (.request b ⟨.rdShared, .bough b,
    line, retry, 0, 0⟩)) ∧ (s.dev.homeOfLine line = q) ∧ ((s.dev.home q).quiet) ∧ ((s.dev.entry q line).st = .excl) ∧ ((s.dev.entry q line).owner ≠ b)) ∧
  (∃ (s : State) (b line retry q : Nat), (s.dev.powered = true) ∧ (s.dev.reached b) ∧ (mainMemory (64 * line) = true) ∧ (s.dev.reaches (.request b ⟨.rdUnique, .bough b,
    line, retry, 0, 0⟩)) ∧ (s.dev.homeOfLine line = q) ∧ ((s.dev.home q).quiet) ∧ ((s.dev.entry q line).st = .shared) ∧ (((s.dev.entry q line).sharers.filter (· != b)) ≠
    [])) ∧
  (∃ (s : State) (b line retry q : Nat), (s.dev.powered = true) ∧ (s.dev.reached b) ∧ (mainMemory (64 * line) = true) ∧ (s.dev.reaches (.request b ⟨.upgrade, .bough b,
    line, retry, 0, 0⟩)) ∧ (s.dev.homeOfLine line = q) ∧ ((s.dev.home q).quiet) ∧ ((s.dev.entry q line).st = .shared) ∧ ((s.dev.entry q line).sharers = [b])) ∧
  (∃ (s : State) (b line retry q : Nat), (s.dev.powered = true) ∧ (s.dev.reached b) ∧ (mainMemory (64 * line) = true) ∧ (s.dev.reaches (.request b ⟨.claim, .bough b, line,
    retry, 0, 0⟩)) ∧ (s.dev.homeOfLine line = q) ∧ ((s.dev.home q).quiet) ∧ ((s.dev.entry q line).st = .invalid) ∧ ((s.dev.entry q line).sharers = []) ∧ (s.dev.setUse q
    (dirSet line) < 16)) ∧
  (∃ (s : State) (src : CohReq) (line q : Nat), (s.dev.powered = true) ∧ ((∀ b, src = .bough b → s.dev.reached b)) ∧ (mainMemory (64 * line) = true) ∧ (s.dev.homeOfLine
    line = q) ∧ ((s.dev.home q).quiet) ∧ ((s.dev.entry q line).st = .owned) ∧ (HomeReq.bough ⟨.rdNoalloc, src, line, 0, 0, 0⟩ ≠ some (s.dev.entry q line).owner) ∧
    ((s.dev.entry q line).owner < 24) ∧ (s.dev.reaches (requestPacket ⟨.rdNoalloc, src, line, 0, 0, 0⟩))) ∧
  (∃ (s : State) (src : CohReq) (line q m : Nat) (r : Nat) (x : Line), (s.dev.powered = true) ∧ ((∀ b, src = .bough b → s.dev.reached b)) ∧ (rangeOf (64 * line) = .dram) ∧
    (s.dev.homeOfLine line = q) ∧ ((s.dev.home q).quiet) ∧ ((s.dev.entry q line).st = .invalid) ∧ ((s.dev.entry q line).sharers = []) ∧ (s.dev.channelOf (64 * line) =
    some (m, r)) ∧ (s.dev.get MEM_STAT.STATE m ≠ 4) ∧ (s.dev.channelTakes m (src == .trace) = true) ∧ (s.dev.reaches (requestPacket ⟨.wrFull, src, line, 0, 0, x⟩))) ∧
  (∃ (s : State) (src : CohReq) (line q m : Nat) (r : Nat) (mask : Word) (x : Line), (s.dev.powered = true) ∧ ((∀ b, src = .bough b → s.dev.reached b)) ∧ (rangeOf (64 *
    line) = .dram) ∧ (s.dev.homeOfLine line = q) ∧ ((s.dev.home q).quiet) ∧ ((s.dev.entry q line).st = .invalid) ∧ ((s.dev.entry q line).sharers = []) ∧ (s.dev.channelOf
    (64 * line) = some (m, r)) ∧ (s.dev.get MEM_STAT.STATE m ≠ 4) ∧ (s.dev.channelTakes m (src == .trace) = true) ∧ (s.dev.reaches (requestPacket ⟨.wrPartial, src, line,
    0, mask.toNat, x⟩))) :=
  ⟨⟨W { b0 with homes := [(0, { dir := [(0, { st := .excl, owner := 1, sharers := [] })] })] }, 0, 0, 0, 0,
     by (repeat' apply And.intro) <;> first | decide +kernel | rfl⟩,
   ⟨W { b0 with homes := [(0, { dir := [(0, { st := .shared, owner := 0, sharers := [0, 1] })] })] }, 0, 0, 0, 0,
     by (repeat' apply And.intro) <;> first | decide +kernel | rfl⟩,
   ⟨W { b0 with homes := [(0, { dir := [(0, { st := .shared, owner := 0, sharers := [0] })] })] }, 0, 0, 0, 0,
     by (repeat' apply And.intro) <;> first | decide +kernel | rfl⟩,
   ⟨W b0, 0, 0, 0, 0,
     by (repeat' apply And.intro) <;> first | decide +kernel | rfl⟩,
   ⟨W { b0 with homes := [(0, { dir := [(0, { st := .owned, owner := 1, sharers := [] })] })] }, .bough 0, 0, 0,
     by (repeat' apply And.intro) <;> first | decide +kernel | (intro b h; cases h; rfl)⟩,
   ⟨W b0, .trace, 0, 0, 0, 0, 0,
     by (repeat' apply And.intro) <;> first | (intro b h; cases h; done) | decide +kernel | rfl⟩,
   ⟨W b0, .lee 0, 0, 0, 0, 0, 0, 0,
     by (repeat' apply And.intro) <;> first | (intro b h; cases h; done) | decide +kernel | rfl⟩⟩

/-- States and operands that meet the hypotheses of TransactionsAtTheHome, clause by clause. -/
theorem test_meets_transactions_at_the_home :
  (∃ (s : State) (b line r q : Nat) (t : HomeTxn) (x : LineData), (s.dev.powered = true) ∧ (s.dev.homeOfLine line = q) ∧ ((b, line) ∉ (s.dev.home q).late) ∧ ((s.dev.home
    q).txn line = some t) ∧ (t.req.op = .rdShared) ∧ (t.req.src = .bough r) ∧ (t.snoops = [(b, .shared)]) ∧ (t.evict = false) ∧ (t.waitAck = false) ∧ (t.fromMem = false)
    ∧ (t.writing = false) ∧ (t.plan.noData = false) ∧ (s.dev.reached b) ∧ (s.dev.reaches (.snpRsp b line .fwdDirty x))) ∧
  (∃ (s : State) (b line q : Nat) (t : HomeTxn), (s.dev.powered = true) ∧ (s.dev.homeOfLine line = q) ∧ ((s.dev.home q).txns = [t]) ∧ ((s.dev.home q).queue = []) ∧
    ((s.dev.home q).held = []) ∧ ((s.dev.home q).slots = []) ∧ ((s.dev.home q).waiting = []) ∧ (s.dev.reached b) ∧ (s.dev.reaches (.compAck b line)) ∧ (t.req.line = line)
    ∧ (t.req.src = .bough b) ∧ (t.gone = []) ∧ (t.waitAck = true) ∧ (t.evict = false) ∧ (t.req.op ≠ .rdNoalloc) ∧ (t.final.st ≠ .invalid)) ∧
  (∃ (s : State) (b line epoch q m : Nat) (owned : Bool) (x : LineData) (r : Nat), (s.dev.powered = true) ∧ (s.dev.homeOfLine line = q) ∧ (s.dev.reached b) ∧ (s.dev.reaches
    (.wb b line owned epoch x)) ∧ (s.dev.channelOf (64 * line) = some (m, r)) ∧ (s.dev.get MEM_STAT.STATE m ≠ 4) ∧ (s.dev.channelTakes m false = true) ∧ ((s.dev.home
    q).txn line = none) ∧ (rangeOf (64 * line) = .dram) ∧ ((s.dev.entry q line).st = .excl) ∧ ((s.dev.entry q line).owner = b) ∧ ((s.dev.entry q line).epoch = epoch)) ∧
  (∃ (s : State) (b line epoch q : Nat) (owned : Bool) (x : LineData), (s.dev.powered = true) ∧ (s.dev.homeOfLine line = q) ∧ (s.dev.reached b) ∧ (s.dev.reaches (.wb b line
    owned epoch x)) ∧ ((s.dev.home q).txn line = none) ∧ ((s.dev.entry q line).owner ≠ b ∨ (s.dev.entry q line).epoch ≠ epoch)) ∧
  (∃ (s : State) (b line q : Nat) (t : HomeTxn) (k : Snoop), (s.dev.powered = true) ∧ (s.dev.homeOfLine line = q) ∧ ((s.dev.home q).txn line = some t) ∧ ((t.snoops.find?
    fun p => p.1 == b) = some (b, k)) ∧ ((t.snoops.filter fun p => p.1 != b) ≠ []) ∧ (t.req.op ≠ .wrFull) ∧ (rangeOf (64 * line) = .dram) ∧ ((s.dev.channelOf (64 *
    line)).isSome = true) ∧ (s.dev.get (tmoField b).2 q (tmoField b).1 + 1 < s.dev.get DIR_TMO.LIMIT q)) ∧
  (∃ (s : State) (q b : Nat), (s.dev.powered = true) ∧ (q < 4) ∧ (b < 24) ∧ (s.dev.get DIR_PURGE.BOUGH q = b) ∧ (s.dev.flag DIR_PURGE.BUSY q = false)) ∧
  (∃ (s : State) (q b : Nat) (sw : Bool) (rest : List (Nat × Bool × Bool)), (s.dev.powered = true) ∧ (s.dev.powerBusy = false) ∧ ((s.dev.home q).purges = (b, false, sw) ::
    rest) ∧ (KMap.wf natLt ({} : DirEntry) (s.dev.home q).dir = true)) :=
  ⟨⟨W { b0 with homes := [(0, { txns := [{ req := { op := .rdShared, src := .bough 0, line := 0 }, snoops := [(1, .shared)] }] })] }, 1, 0, 0, 0,
     { req := { op := .rdShared, src := .bough 0, line := 0 }, snoops := [(1, .shared)] }, ⟨0, false⟩,
     by (repeat' apply And.intro) <;> first | decide +kernel | rfl⟩,
   ⟨W { b0 with homes := [(0, { txns := [{ req := { op := .rdShared, src := .bough 0, line := 0 }, waitAck := true, final := exclEntry 0 }] })] }, 0, 0, 0,
     { req := { op := .rdShared, src := .bough 0, line := 0 }, waitAck := true, final := exclEntry 0 },
     by (repeat' apply And.intro) <;> first | decide +kernel | rfl⟩,
   ⟨W { b0 with homes := [(0, { dir := [(0, { st := .excl, owner := 1, sharers := [1] })] })] }, 1, 0, 0, 0, 0, false, ⟨5, false⟩, 0,
     by (repeat' apply And.intro) <;> first | decide +kernel | rfl⟩,
   ⟨W { b0 with homes := [(0, { dir := [(0, { st := .excl, owner := 1, sharers := [1] })] })] }, 1, 0, 15, 0, false, ⟨5, false⟩,
     by (repeat' apply And.intro) <;> first | decide +kernel | rfl⟩,
   ⟨W { b0 with homes := [(0, { txns := [{ req := { op := .rdUnique, src := .bough 0, line := 0 }, snoops := [(1, .inv), (2, .inv)] }] })] }, 1, 0, 0,
     { req := { op := .rdUnique, src := .bough 0, line := 0 }, snoops := [(1, .inv), (2, .inv)] }, .inv,
     by (repeat' apply And.intro) <;> first | decide +kernel | rfl⟩,
   ⟨W (puts b0 [(DIR_PURGE.BOUGH, 23, 3, 0)]), 3, 23,
     by (repeat' apply And.intro) <;> first | decide +kernel | rfl⟩,
   ⟨W { b0 with homes := [(3, { purges := [(23, false, true)] })] }, 3, 23, true, [],
     by (repeat' apply And.intro) <;> first | decide +kernel | rfl⟩⟩

/-- States and operands that meet the hypotheses of SnoopsAreAnswered, clause by clause. -/
theorem test_meets_snoops_are_answered :
  (∃ (s : State) (b line r : Nat), (s.dev.powered = true) ∧ (s.dev.reached b) ∧ (s.dev.reaches (.snoop .shared b line (some r))) ∧ ((s.dev.gate (s.dev.boughSite b)).closed
    = false) ∧ (((s.dev.bough b).line line).st = .modified)) ∧
  (∃ (s : State) (b line r : Nat), (s.dev.powered = true) ∧ (s.dev.reached b) ∧ (s.dev.reaches (.snoop .unique b line (some r))) ∧ ((s.dev.gate (s.dev.boughSite b)).closed
    = false) ∧ (((s.dev.bough b).line line).st = .excl)) ∧
  (∃ (s : State) (b line : Nat), (s.dev.powered = true) ∧ (s.dev.reached b) ∧ (s.dev.reaches (.snoop .inv b line none)) ∧ ((s.dev.gate (s.dev.boughSite b)).closed = false)
    ∧ (((s.dev.bough b).line line).valid = true)) ∧
  (∃ (s : State) (b line : Nat), (s.dev.powered = true) ∧ (s.dev.reached b) ∧ (s.dev.reaches (.snoop .current b line none)) ∧ ((s.dev.gate (s.dev.boughSite b)).closed =
    false) ∧ (((s.dev.bough b).line line).st = .modified)) :=
  ⟨⟨W { b0 with boughs := [(0, { lines := [(0, { st := .modified })] })] }, 0, 0, 1,
     by (repeat' apply And.intro) <;> first | decide +kernel | rfl⟩,
   ⟨W { b0 with boughs := [(0, { lines := [(0, { st := .excl })] })] }, 0, 0, 1,
     by (repeat' apply And.intro) <;> first | decide +kernel | rfl⟩,
   ⟨W { b0 with boughs := [(0, { lines := [(0, { st := .shared })] })] }, 0, 0,
     by (repeat' apply And.intro) <;> first | decide +kernel | rfl⟩,
   ⟨W { b0 with boughs := [(0, { lines := [(0, { st := .modified })] })] }, 0, 0,
     by (repeat' apply And.intro) <;> first | decide +kernel | rfl⟩⟩

/-- States and operands that meet the hypotheses of AnswersFillTheBough, clause by clause. -/
theorem test_meets_answers_fill_the_bough :
  (∃ (s : State) (b line w ep : Nat) (g : Grant) (x : LineData) (t : BoughTxn), (s.dev.powered = true) ∧ (s.dev.boughIdle b) ∧ ((s.dev.bough b).txns = [t]) ∧ (t.line =
    line) ∧ (t.op ≠ .rdNoalloc) ∧ (t.forLock = false) ∧ (((s.dev.bough b).line line).valid = false) ∧ (((s.dev.bough b).line line).locked = false) ∧ ((s.dev.bough
    b).chooseWay line (s.dev.freeWays b) = some (w, none)) ∧ (s.dev.reached b) ∧ (s.dev.reaches (.data (.bough b) line g ep x)) ∧ (s.dev.l3On b = true)) ∧
  (∃ (s : State) (b line w ep : Nat) (g g' : Grant) (x : LineData) (t : BoughTxn), (s.dev.powered = true) ∧ (s.dev.boughIdle b) ∧ ((s.dev.bough b).txns = [t]) ∧ (t.line =
    line) ∧ (t.forLock = false) ∧ (t.grant = some (g', ep)) ∧ (((s.dev.bough b).line line).valid = false) ∧ (((s.dev.bough b).line line).locked = false) ∧ ((s.dev.bough
    b).chooseWay line (s.dev.freeWays b) = some (w, none)) ∧ (s.dev.reached b) ∧ (s.dev.reaches (.dataFwd b line g x)) ∧ (s.dev.l3On b = true)) ∧
  (∃ (s : State) (b line w ep : Nat) (g : Grant) (p : Bool) (t : BoughTxn), (s.dev.powered = true) ∧ (s.dev.boughIdle b) ∧ ((s.dev.bough b).txns = [t]) ∧ (t.line = line) ∧
    (t.op = .claim) ∧ (t.forLock = false) ∧ (((s.dev.bough b).line line).valid = false) ∧ (((s.dev.bough b).line line).locked = false) ∧ ((s.dev.bough b).chooseWay line
    (s.dev.freeWays b) = some (w, none)) ∧ (s.dev.reached b) ∧ (s.dev.reaches (.grant b line g ep p)) ∧ (s.dev.l3On b = true)) ∧
  (∃ (s : State) (b line hint : Nat) (t : BoughTxn), (s.dev.powered = true) ∧ ((s.dev.bough b).txns = [t]) ∧ (t.line = line) ∧ (t.sent = true) ∧ (s.dev.reached b) ∧
    (s.dev.reaches (.nack b line hint))) ∧
  (∃ (s : State) (b line hint : Nat) (t : BoughTxn), (s.dev.powered = true) ∧ ((s.dev.bough b).txns = [t]) ∧ (t.line = line) ∧ (t.backoff = some hint) ∧ ((s.dev.bough
    b).evb = []) ∧ (s.dev.reached b)) ∧
  (∃ (s : State) (b line : Nat) (p : Bool) (t : BoughTxn), (s.dev.powered = true) ∧ (s.dev.boughIdle b) ∧ ((s.dev.bough b).txns = [t]) ∧ (t.line = line) ∧ (t.op =
    .wrPartial) ∧ (s.dev.reached b) ∧ (s.dev.reaches (.wrComp (.bough b) line p))) ∧
  (∃ (s : State) (b line : Nat) (ok : Bool) (e : EvbEntry), (s.dev.powered = true) ∧ (s.dev.powerBusy = false) ∧ (s.dev.boughIdle b) ∧ ((s.dev.bough b).txns = []) ∧
    ((s.dev.bough b).evb = [e]) ∧ (e.line = line) ∧ (e.sent = true) ∧ (s.dev.flag L3C_STAT.FLUSHING (s.dev.boughSite b) = false) ∧ (s.dev.reached b) ∧ (s.dev.reaches
    (.wbAck b line ok))) :=
  ⟨⟨W { b0 with boughs := [(0, { txns := [{ line := 0, op := .rdShared, sent := true }] })] }, 0, 0, 0, 0, .excl, ⟨7, false⟩,
     { line := 0, op := .rdShared, sent := true },
     by
     refine ⟨rfl, ⟨by decide +kernel, by decide +kernel⟩, ?_⟩
     (repeat' apply And.intro) <;> first | decide +kernel | rfl⟩,
   ⟨W { b0 with boughs := [(0, { txns := [{ line := 0, op := .rdShared, sent := true, grant := some (.shared, 0) }] })] }, 0, 0, 0, 0, .shared, .shared, ⟨7, false⟩,
     { line := 0, op := .rdShared, sent := true, grant := some (.shared, 0) },
     by
     refine ⟨rfl, ⟨by decide +kernel, by decide +kernel⟩, ?_⟩
     (repeat' apply And.intro) <;> first | decide +kernel | rfl⟩,
   ⟨W { b0 with boughs := [(0, { txns := [{ line := 0, op := .claim, sent := true }] })] }, 0, 0, 0, 0, .excl, false, { line := 0, op := .claim, sent := true },
     by
     refine ⟨rfl, ⟨by decide +kernel, by decide +kernel⟩, ?_⟩
     (repeat' apply And.intro) <;> first | decide +kernel | rfl⟩,
   ⟨W { b0 with boughs := [(0, { txns := [{ line := 0, op := .rdShared, sent := true }] })] }, 0, 0, 64, { line := 0, op := .rdShared, sent := true },
     by (repeat' apply And.intro) <;> first | decide +kernel | rfl⟩,
   ⟨W { b0 with boughs := [(0, { txns := [{ line := 0, op := .rdShared, sent := true, backoff := some 64 }] })] }, 0, 0, 64,
     { line := 0, op := .rdShared, sent := true, backoff := some 64 },
     by (repeat' apply And.intro) <;> first | decide +kernel | rfl⟩,
   ⟨W { b0 with boughs := [(0, { txns := [{ line := 0, op := .wrPartial, sent := true }] })] }, 0, 0, false, { line := 0, op := .wrPartial, sent := true },
     by
     refine ⟨rfl, ⟨by decide +kernel, by decide +kernel⟩, ?_⟩
     (repeat' apply And.intro) <;> first | decide +kernel | rfl⟩,
   ⟨W { b0 with boughs := [(0, { evb := [{ line := 0, st := .modified, data := 0, poison := false, epoch := 0, sent := true }] })] }, 0, 0, true,
     { line := 0, st := .modified, data := 0, poison := false, epoch := 0, sent := true },
     by
     refine ⟨rfl, by decide +kernel, ⟨by decide +kernel, by decide +kernel⟩, ?_⟩
     (repeat' apply And.intro) <;> first | decide +kernel | rfl⟩⟩

/-- States and operands that meet the hypotheses of RoutingAndSwaps, clause by clause. -/
theorem test_meets_routing_and_swaps :
  (∃ (s : State) (p : MeshPkt), (s.dev.powered = true) ∧ (p.vn < 6) ∧ (p.dnode < 128) ∧ (p.snode < 128) ∧ (s.dev.flag FAB_ROUTE_SWAP.BUSY = false) ∧ (s.dev.route
    s.dev.activeBank 0 (p.snode / 2) p.vn p.dnode < 6)) ∧
  (∃ (s : State) (p : MeshPkt), (s.dev.powered = true) ∧ (p.vn < 6) ∧ (p.dnode < 128) ∧ (p.snode < 128) ∧ (s.dev.flag FAB_ROUTE_SWAP.BUSY = false) ∧ (6 ≤ s.dev.route
    s.dev.activeBank 0 (p.snode / 2) p.vn p.dnode)) ∧
  (∃ (s : State) (p : MeshPkt), (s.dev.powered = true) ∧ (p.vn < 6) ∧ (p.dnode < 128) ∧ (p.snode < 128) ∧ (s.dev.flag FAB_ROUTE_SWAP.BUSY = true) ∧ (s.dev.changing p.snode
    = true)) ∧
  (∃ (s : State), (s.dev.powered = true) ∧ (s.dev.flag FAB_ROUTE_SWAP.BUSY = false)) ∧
  (∃ (s : State), (s.dev.powered = true) ∧ (s.dev.flag FAB_ROUTE_SWAP.BUSY = true)) ∧
  (∃ (s : State), (s.dev.powered = true) ∧ (s.dev.undrained = true)) ∧
  (∃ (s : State), (s.dev.powered = true) ∧ (s.dev.flag FAB_ROUTE_SWAP.BUSY = true) ∧ (s.dev.undrained = false) ∧ (s.dev.fabric.reroute = [])) ∧
  (∃ (s : State), (s.dev.powered = true) ∧ (s.dev.flag FAB_ROUTE_SWAP.BUSY = true)) ∧
  (∃ (s : State) (v : Nat), (s.dev.powered = true) ∧ (s.dev.flag FAB_RT_SEL.BANK = false) ∧ (s.dev.routeSelected = true) ∧ (s.dev.flag FAB_ROUTE_SWAP.BUSY = false)) :=
  ⟨⟨W b0, ⟨5, 127, 0, 127, 0, 0⟩,
     by (repeat' apply And.intro) <;> first | decide +kernel | rfl⟩,
   ⟨W { puts b0 [(FAB_ROUTE_SWAP.BUSY, 0, 0, 0)] with fabric := { bank0 := [(routeKey 0 0 0 0, 7)] } }, ⟨0, 0, 0, 1, 0, 0⟩,
     by (repeat' apply And.intro) <;> first | decide +kernel | rfl⟩,
   ⟨W { puts b0 [(FAB_ROUTE_SWAP.BUSY, 1, 0, 0)] with fabric := { bank1 := [(routeKey 0 0 0 0, 7)] } }, ⟨0, 0, 0, 1, 0, 0⟩,
     by (repeat' apply And.intro) <;> first | decide +kernel | rfl⟩,
   ⟨W b0,
     by (repeat' apply And.intro) <;> first | decide +kernel | rfl⟩,
   ⟨W { puts b0 [(FAB_ROUTE_SWAP.BUSY, 1, 0, 0)] with fabric := { bank1 := [(routeKey 0 0 0 0, 7)] } },
     by (repeat' apply And.intro) <;> first | decide +kernel | rfl⟩,
   ⟨W { puts b0 [(FAB_ROUTE_SWAP.BUSY, 1, 0, 0)] with wire := [{ pkt := .snoop .shared 0 0 none }] },
     by (repeat' apply And.intro) <;> first | decide +kernel | rfl⟩,
   ⟨W { puts b0 [(FAB_ROUTE_SWAP.BUSY, 1, 0, 0)] with fabric := { bank1 := [(routeKey 0 0 0 0, 7)] } },
     by (repeat' apply And.intro) <;> first | decide +kernel | rfl⟩,
   ⟨W (puts b0 [(FAB_ROUTE_SWAP.BUSY, 1, 0, 0)]),
     by (repeat' apply And.intro) <;> first | decide +kernel | rfl⟩,
   ⟨W b0, 7,
     by (repeat' apply And.intro) <;> first | decide +kernel | rfl⟩⟩

/-- States and operands that meet the hypotheses of ProxiesGatesAndCrossings, clause by clause. -/
theorem test_meets_proxies_gates_and_crossings :
  (∃ (s : State) (i b : Nat), (s.dev.powered = true) ∧ (s.dev.siteActive i = true) ∧ (s.dev.isolated i = false) ∧ (s.dev.boughAt i = b)) ∧
  (∃ (s : State) (i : Nat), (s.dev.powered = true) ∧ (s.dev.isolated i = true)) ∧
  (∃ (s : State) (i a : Nat), (s.dev.powered = true) ∧ (s.dev.siteActive i = true) ∧ (s.dev.isolated i = true)) ∧
  (∃ (s : State) (i line : Nat) (k : Snoop), (s.dev.powered = true) ∧ (s.dev.siteActive i = true) ∧ (s.dev.isolated i = true)) ∧
  (∃ (s : State) (i h f id : Nat), (s.dev.powered = true) ∧ (s.dev.siteActive i = true) ∧ ((s.dev.gate i).closed = true) ∧ ((s.dev.gate i).inReset = false) ∧ (s.dev.broken
    (.trunk 0x51) = false) ∧ (s.dev.isolated i = false) ∧ ((h, f, id) ∉ s.dev.heldMsis i) ∧ ((s.dev.heldMsis i).length < 512)) ∧
  (∃ (s : State) (i vn : Nat), (s.dev.powered = true) ∧ (s.dev.powerBusy = false) ∧ (Packet.marker i vn ∈ s.dev.packets) ∧ (s.dev.markerWaits i vn = false) ∧ ((s.dev.gate
    i).closed = true) ∧ (vn ∉ (s.dev.gate i).markers)) ∧
  (∃ (s : State) (i a : Nat) (rest : List SitePkt), (s.dev.powered = true) ∧ (s.dev.fabric.heldAcc.find [] i = .regRead .mgmt a :: rest) ∧ (s.dev.flag FAB_GATE_LOG.VALID =
    false) ∧ ((s.dev.gate i).closed = true)) ∧
  (∃ (s : State) (n : Nat), (s.dev.powered = true) ∧ (28 ≤ n) ∧ (s.dev.crossingExists (.trunk n) = true) ∧ (Crossing.trunk n ∉ s.dev.fabric.broken)) ∧
  (∃ (s : State) (n : Nat), (s.dev.powered = true) ∧ (28 ≤ n) ∧ (s.dev.crossingExists (.trunk n) = true)) ∧
  (∃ (s : State) (n : Nat), (s.dev.powered = true) ∧ (28 ≤ n) ∧ (s.dev.crossingExists (.trunk n) = true)) :=
  ⟨⟨W b0, 1, 1,
     by (repeat' apply And.intro) <;> first | decide +kernel | rfl⟩,
   ⟨W (puts b0 [(FAB_ISO_STAT.ISOLATED, 2, 0, 0)]), 1,
     by (repeat' apply And.intro) <;> first | decide +kernel | rfl⟩,
   ⟨W (puts b0 [(FAB_ISO_STAT.ISOLATED, 2, 0, 0)]), 1, krb,
     by (repeat' apply And.intro) <;> first | decide +kernel | rfl⟩,
   ⟨W (puts b0 [(FAB_ISO_STAT.ISOLATED, 2, 0, 0)]), 1, 0, .shared,
     by (repeat' apply And.intro) <;> first | decide +kernel | rfl⟩,
   ⟨W { b0 with fabric := { gates := [(1, { closed := true })] } }, 1, 31, 8, 2047,
     by (repeat' apply And.intro) <;> first | decide +kernel | rfl⟩,
   ⟨W { b0 with fabric := { gates := [(1, { closed := true })] }, wire := [{ pkt := .marker 1 5 }] }, 1, 5,
     by (repeat' apply And.intro) <;> first | decide +kernel | rfl⟩,
   ⟨W { b0 with fabric := { gates := [(1, { closed := true })], heldAcc := [(1, [.regRead .mgmt krb])] } }, 1, krb, [],
     by (repeat' apply And.intro) <;> first | decide +kernel | rfl⟩,
   ⟨W b0, 0x51,
     by (repeat' apply And.intro) <;> first | decide +kernel | rfl⟩,
   ⟨W b0, 0x50,
     by (repeat' apply And.intro) <;> first | decide +kernel | rfl⟩,
   ⟨W b0, 0x20,
     by (repeat' apply And.intro) <;> first | decide +kernel | rfl⟩⟩

/-- States and operands that meet the hypotheses of GraftLinks, clause by clause. -/
theorem test_meets_graft_links :
  (∃ (s : State) (g : GraftEnd) (f : BitVec 512), (s.dev.powered = true) ∧ (s.dev.endExists g = true) ∧ (s.dev.graftBroken g = false) ∧ (s.dev.gState g = 2) ∧ (flitCrc f ≠
    flitBits f 511 496) ∧ (flitBits f 2 0 = 1) ∧ (((s.dev.side g.peer).sends 0 false none).isSome = true) ∧ ((s.dev.side g.peer).turn = (s.dev.side g).expect) ∧
    ((s.dev.side g).fails < 7)) ∧
  (∃ (s : State) (g : GraftEnd) (f : BitVec 512), (s.dev.powered = true) ∧ (s.dev.endExists g = true) ∧ (s.dev.graftBroken g = false) ∧ (s.dev.gState g = 2) ∧ (flitCrc f ≠
    flitBits f 511 496) ∧ (flitBits f 2 0 = 1) ∧ (((s.dev.side g.peer).sends 0 false none).isSome = true) ∧ ((s.dev.side g.peer).turn = (s.dev.side g).expect) ∧ (7 ≤
    (s.dev.side g).fails)) ∧
  (∃ (s : State) (g : GraftEnd) (f : BitVec 512), (s.dev.powered = true) ∧ (s.dev.endExists g = true) ∧ (s.dev.graftBroken g = false) ∧ (g.lateral = false) ∧ (s.dev.gState
    g = 2) ∧ (flitCrc f = flitBits f 511 496) ∧ (flitBits f 2 0 = 1) ∧ (flitBits f 15 8 = (s.dev.side g).expect) ∧ ((s.dev.flitSent g f).isSome = true) ∧ ((s.dev.side
    g).bad = []) ∧ (f.getLsbD 7 = false)) ∧
  (∃ (s : State) (g : GraftEnd) (f : BitVec 512), (s.dev.powered = true) ∧ (s.dev.endExists g = true) ∧ (s.dev.graftBroken g = false) ∧ (g.lateral = false) ∧ (s.dev.gState
    g = 2) ∧ (flitCrc f = flitBits f 511 496) ∧ (flitBits f 2 0 = 1) ∧ (flitBits f 15 8 = (s.dev.side g).expect) ∧ ((s.dev.flitSent g f).isSome = true) ∧ ((s.dev.side
    g).bad = []) ∧ (f.getLsbD 6 = true) ∧ (f.getLsbD 7 = true)) ∧
  (∃ (s : State) (g : GraftEnd) (n : Nat), (s.dev.powered = true) ∧ (s.dev.endExists g = true) ∧ (2 ≤ s.dev.gState g)) ∧
  (∃ (s : State) (g : GraftEnd), (s.dev.powered = true)) ∧
  (∃ (s : State) (i : Nat), (s.dev.powered = true) ∧ (s.dev.powerBusy = false) ∧ (s.dev.flag MBX_FW.READY = true) ∧ (s.dev.siteActive i = true) ∧ (s.dev.gState (.trunk i) =
    1) ∧ (s.dev.foundFailed (.trunk i) [] = []) ∧ (s.dev.foundFailed (.bough i 0) [] = [])) ∧
  (∃ (s : State) (i : Nat) (r : TrainResult), (s.dev.powered = true) ∧ (s.dev.powerBusy = false) ∧ (s.dev.flag MBX_FW.READY = true) ∧ (s.dev.siteActive i = true) ∧
    (s.dev.gState (.trunk i) = 1) ∧ (r.strap ≠ i) ∧ (r.strap < 28)) ∧
  (∃ (s : State) (i : Nat) (r : TrainResult), (s.dev.powered = true) ∧ (28 ≤ r.strap)) ∧
  (∃ (s : State) (i : Nat), (s.dev.powered = true) ∧ (s.dev.endExists (.bough i 2) = true) ∧ (s.dev.gState (.bough i 2) = 1)) ∧
  (∃ (s : State) (i : GraftId) (r : TrainResult), (s.dev.powered = true) ∧ (s.dev.endExists i.auth = true) ∧ (s.dev.gState i.auth = 4) ∧ (r.auth = []) ∧ (r.others = []) ∧
    (r.unknown = 0) ∧ (s.dev.foundFailed i.auth [] = []) ∧ (s.dev.foundFailed i.auth.peer [] = [])) ∧
  (∃ (s : State) (g : GraftEnd) (l : Nat), (s.dev.powered = true) ∧ (s.dev.gState g = 3) ∧ ((s.dev.side g).failing = [l]) ∧ (l < dataLanes g) ∧ (s.dev.laneInUse g l = true)
    ∧ ((s.dev.repairLane g l).isSome = true) ∧ ((s.dev.side g).later = []) ∧ ((s.dev.side g.peer).later = [])) ∧
  (∃ (s : State) (i k : Nat) (v : Word), (s.dev.powered = true) ∧ (s.dev.siteActive i = true) ∧ (k < 4)) ∧
  (∃ (s : State) (g : GraftEnd) (l : Nat), (s.dev.powered = true) ∧ (s.dev.endExists g = true) ∧ ((allLanes g).contains l = true)) ∧
  (∃ (s : State) (i turn : Nat) (t1 : Word), (s.dev.powered = true) ∧ (s.dev.packets = [.probe i t1])) :=
  ⟨⟨W (puts b0 [(GRF_STAT.STATE, 2, 0, 0)]), .trunk 0, 1,
     by (repeat' apply And.intro) <;> first | decide +kernel | rfl⟩,
   ⟨W { puts b0 [(GRF_STAT.STATE, 2, 0, 0)] with grafts := [(.trunk 0, { fails := 7 })] }, .trunk 0, 1,
     by (repeat' apply And.intro) <;> first | decide +kernel | rfl⟩,
   ⟨W { puts b0 [(GRF_STAT.STATE, 2, 0, 0)] with grafts := [(.bough 0 0, { credits := [(0, 1)] })] }, .trunk 0, 65#512 ||| 42787#512 <<< 496,
     by (repeat' apply And.intro) <;> first | decide +kernel | rfl⟩,
   ⟨W { puts b0 [(GRF_STAT.STATE, 2, 0, 0)] with grafts := [(.bough 0 0, { credits := [(0, 1)] })] }, .trunk 0, 193#512 ||| 40338#512 <<< 496,
     by (repeat' apply And.intro) <;> first | decide +kernel | rfl⟩,
   ⟨W (puts b0 [(GRF_STAT.STATE, 2, 0, 0)]), .trunk 0, 255,
     by (repeat' apply And.intro) <;> first | decide +kernel | rfl⟩,
   ⟨W b0, .trunk 27,
     by (repeat' apply And.intro) <;> first | decide +kernel | rfl⟩,
   ⟨W (puts b0 [(GRF_STAT.STATE, 1, 0, 0)]), 0,
     by (repeat' apply And.intro) <;> first | decide +kernel | rfl⟩,
   ⟨W (puts b0 [(GRF_STAT.STATE, 1, 0, 0)]), 0, { strap := 1 },
     by (repeat' apply And.intro) <;> first | decide +kernel | rfl⟩,
   ⟨W b0, 0, { strap := 31 },
     by (repeat' apply And.intro) <;> first | decide +kernel | rfl⟩,
   ⟨W (puts b0 [(GRFB_STAT.STATE, 1, 0, 2)]), 0,
     by (repeat' apply And.intro) <;> first | decide +kernel | rfl⟩,
   ⟨W (puts b0 [(GRF_STAT.STATE, 4, 0, 0)]), .vertical 0, { strap := 0 },
     by (repeat' apply And.intro) <;> first | decide +kernel | rfl⟩,
   ⟨W { puts b0 [(GRF_STAT.STATE, 3, 0, 0), (GRF_STAT.WIDTH, 4, 0, 0)] with grafts := [(.trunk 0, { failing := [255] })] }, .trunk 0, 255,
     by (repeat' apply And.intro) <;> first | decide +kernel | rfl⟩,
   ⟨W b0, 1, 3, 0,
     by (repeat' apply And.intro) <;> first | decide +kernel | rfl⟩,
   ⟨W b0, .trunk 1, 265,
     by (repeat' apply And.intro) <;> first | decide +kernel | rfl⟩,
   ⟨W { b0 with wire := [{ pkt := .probe 1 5 }] }, 1, 9, 5,
     by (repeat' apply And.intro) <;> first | decide +kernel | rfl⟩⟩

/-- States and operands that meet the hypotheses of SpanLinksComeUpAndFail, clause by clause. -/
theorem test_meets_span_links_come_up_and_fail :
  (∃ (s : State) (c : Nat) (locked : List (Nat × Nat)) (lanes : List Nat), (s.dev.powered = true) ∧ (s.dev.spanEnabled c = true) ∧ (s.dev.spanBroken c = false) ∧ (s.dev.get
    SPN_STAT.STATE c = 1) ∧ (spanLanes ((locked.filter fun l => decide (l.2 ≤ 8)).map (·.1)) = lanes) ∧ (lanes ≠ [])) ∧
  (∃ (s : State) (c : Nat) (locked : List (Nat × Nat)), (s.dev.powered = true) ∧ (s.dev.spanEnabled c = true) ∧ (s.dev.spanBroken c = false) ∧ (s.dev.get SPN_STAT.STATE c =
    1) ∧ (s.dev.flag SPN_CTL.AUTO c = false) ∧ (spanLanes ((locked.filter fun l => decide (l.2 ≤ 8)).map (·.1)) = [])) ∧
  (∃ (s : State) (c pkg peer beh rtt : Nat), (s.dev.powered = true) ∧ (s.dev.spanEnabled c = true) ∧ (s.dev.get SPN_STAT.STATE c = 1) ∧ (s.dev.spanBroken c = false) ∧
    (s.dev.get SPN_STAT.LANES c ≠ 0) ∧ (pkg ≠ s.dev.get TRK_PKG_ID.PKG_ID) ∧ (rtt ≤ 1800)) ∧
  (∃ (s : State) (c peer beh rtt : Nat), (s.dev.powered = true) ∧ (s.dev.spanEnabled c = true) ∧ (s.dev.get SPN_STAT.STATE c = 1) ∧ (s.dev.get SPN_STAT.LANES c ≠ 0) ∧
    (s.dev.spanBroken c = false)) ∧
  (∃ (s : State) (c : Nat), (s.dev.powered = true) ∧ (s.dev.spanEnabled c = true) ∧ (s.dev.get SPN_STAT.STATE c = 1) ∧ ((s.dev.span c).hello = true) ∧ (s.dev.spanBroken c =
    false)) ∧
  (∃ (s : State) (c : Nat), (s.dev.powered = true) ∧ (s.dev.spanHears c = true)) ∧
  (∃ (s : State) (c : Nat), (s.dev.powered = true) ∧ (s.dev.spanUp c = true)) ∧
  (∃ (s : State) (c : Nat), (s.dev.powered = true) ∧ (s.dev.spanUp c = true) ∧ (s.dev.flag SPN_CTL.AUTO c = false)) ∧
  (∃ (s : State) (c : Nat), (s.dev.powered = true) ∧ (s.dev.spanUp c = true) ∧ (s.dev.flag SPN_CTL.AUTO c = true)) ∧
  (∃ (s : State) (c : Nat), (s.dev.powered = true) ∧ (s.dev.spanEnabled c = true)) ∧
  (∃ (s : State) (c : Nat) (f : BitVec 1024), (s.dev.powered = true) ∧ (s.dev.spanHears c = true) ∧ ((s.dev.span c).aligned = true) ∧ ((s.dev.span c).uncorrectable = false)
    ∧ ((s.dev.span c).waiting = []) ∧ (spanCrc f = spanBits f 1023 992) ∧ (spanBits f 3 0 = 1) ∧ (spanBits f 20 9 = (s.dev.span c).expect)) ∧
  (∃ (s : State) (c : Nat) (f : BitVec 1024) (w : SpanCodeword), (s.dev.powered = true) ∧ (s.dev.spanHears c = true) ∧ (w.lane ∈ (s.dev.span c).lanes) ∧ (w.fec =
    .uncorrectable) ∧ (((s.dev.codewordStarts c w).span c).aligned = true) ∧ ((s.dev.span c).asked = false ∨ spanBits f 20 9 = (s.dev.span c).expect) ∧ ((s.dev.span
    c).fails < 15)) :=
  ⟨⟨W (puts b0 [(SPN_CTL.EN, 1, 3, 0), (SPN_STAT.STATE, 1, 3, 0)]), 3, (List.range 8).map fun i => (8 + i, 8), [8, 9, 10, 11, 12, 13, 14, 15],
     by (repeat' apply And.intro) <;> first | decide +kernel | rfl⟩,
   ⟨W (puts b0 [(SPN_CTL.EN, 1, 3, 0), (SPN_STAT.STATE, 1, 3, 0), (SPN_CTL.AUTO, 0, 3, 0)]), 3, [(0, 9)],
     by (repeat' apply And.intro) <;> first | decide +kernel | rfl⟩,
   ⟨W (puts b0 [(SPN_CTL.EN, 1, 3, 0), (SPN_STAT.STATE, 1, 3, 0), (SPN_STAT.LANES, 16, 3, 0)]), 3, 7, 0, 0, 1800,
     by (repeat' apply And.intro) <;> first | decide +kernel | rfl⟩,
   ⟨W (puts b0 [(SPN_CTL.EN, 1, 3, 0), (SPN_STAT.STATE, 1, 3, 0), (SPN_STAT.LANES, 4, 3, 0)]), 3, 0, 0, 0,
     by (repeat' apply And.intro) <;> first | decide +kernel | rfl⟩,
   ⟨W { puts b0 [(SPN_CTL.EN, 1, 3, 0), (SPN_STAT.STATE, 1, 3, 0)] with spans := [(3, { hello := true })] }, 3,
     by (repeat' apply And.intro) <;> first | decide +kernel | rfl⟩,
   ⟨W (puts b0 [(SPN_CTL.EN, 1, 3, 0), (SPN_STAT.STATE, 2, 3, 0)]), 3,
     by (repeat' apply And.intro) <;> first | decide +kernel | rfl⟩,
   ⟨W (puts b0 [(SPN_CTL.EN, 1, 3, 0), (SPN_STAT.STATE, 2, 3, 0)]), 3,
     by (repeat' apply And.intro) <;> first | decide +kernel | rfl⟩,
   ⟨W (puts b0 [(SPN_CTL.EN, 1, 3, 0), (SPN_STAT.STATE, 2, 3, 0), (SPN_CTL.AUTO, 0, 3, 0)]), 3,
     by (repeat' apply And.intro) <;> first | decide +kernel | rfl⟩,
   ⟨W { puts b0 [(SPN_CTL.EN, 1, 3, 0), (SPN_STAT.STATE, 2, 3, 0), (SPN_CTL.AUTO, 1, 3, 0)] with spans := [(3, { lanes := [15] })] }, 3,
     by (repeat' apply And.intro) <;> first | decide +kernel | rfl⟩,
   ⟨W (puts b0 [(SPN_CTL.EN, 1, 3, 0), (SPN_STAT.STATE, 0, 3, 0)]), 3,
     by (repeat' apply And.intro) <;> first | decide +kernel | rfl⟩,
   ⟨W { puts b0 [(SPN_CTL.EN, 1, 3, 0), (SPN_STAT.STATE, 2, 3, 0)] with spans := [(3, { lanes := [0], codewords := [(0, some ⟨0, 0, .ok⟩)] })] }, 3,
     1#1024 ||| BitVec.ofNat 1024 (2 ^ 992 * spanCrc 1),
     by (repeat' apply And.intro) <;> first | decide +kernel | rfl⟩,
   ⟨W { puts b0 [(SPN_CTL.EN, 1, 3, 0), (SPN_STAT.STATE, 2, 3, 0)] with spans := [(3, { lanes := [0], fails := 14 })] }, 3, 0, ⟨0, 0, .uncorrectable⟩,
     by (repeat' apply And.intro) <;> first | decide +kernel | rfl | exact Or.inl rfl⟩⟩

/-- States and operands that meet the hypotheses of PacketsBetweenPackages, clause by clause. -/
theorem test_meets_packets_between_packages :
  (∃ (s : State) (c g gen8 : Nat), (s.dev.powered = true) ∧ (s.dev.spanHears c = true) ∧ (s.dev.groupState g = 2) ∧ ((s.dev.groupPorts g).contains c = true) ∧ (gen8 =
    s.dev.get FAB_MG_STAT.GEN 0 g % 256) ∧ (s.dev.token g c = false) ∧ (s.dev.groupLocal g = false)) ∧
  (∃ (s : State) (c q : Nat) (w : SpanWindow), (s.dev.powered = true) ∧ (s.dev.spanHears c = true) ∧ (w.dpkg ≠ s.dev.get TRK_PKG_ID.PKG_ID) ∧ (s.dev.spanTo w.dpkg = some q)
    ∧ (1 < w.ttl)) ∧
  (∃ (s : State) (c spkg ttl tag : Nat) (o : XchOutcome) (x : RemoteSend), (s.dev.powered = true) ∧ (s.dev.spanHears c = true) ∧ ((s.dev.remoteSends.find? fun y => y.tag ==
    tag) = some x) ∧ ((∀ p ∈ s.dev.lees, p.2.outs = []))) ∧
  (∃ (s : State) (tag : Nat) (x : RemoteSend), (s.dev.powered = true) ∧ ((s.dev.remoteSends.find? fun y => y.tag == tag) = some x) ∧ ((∀ p ∈ s.dev.lees, p.2.outs = []))) ∧
  (∃ (s : State) (c q line : Nat) (p : RcopyPkt), (s.dev.powered = true) ∧ (s.dev.spanHears c = true) ∧ (s.dev.lineIdle line = true) ∧ (s.dev.memDead line = false) ∧
    (s.dev.spanBroken q = false) ∧ ((s.dev.span q).waiting = []) ∧ (0 < (s.dev.span q).credits.find 0 4) ∧ ((s.dev.span q).replay.length < 2048) ∧ (p.dpkg = s.dev.get
    TRK_PKG_ID.PKG_ID) ∧ (p.nlines = 1) ∧ (s.dev.bulk.arriving = []) ∧ (p.addr = 64 * line) ∧ (s.dev.memCheck 6 0 true (64 * line) = .ok) ∧ (rangeOf (64 * line) = .dram)
    ∧ (s.dev.flag EVC_STAT.SAFE = false) ∧ (p.mask = 2 ^ 64 - 1) ∧ (s.dev.spanTo p.spkg = some q)) ∧
  (∃ (s : State) (c spkg ttl ctag : Nat) (x : BulkChunk), (s.dev.powered = true) ∧ (s.dev.spanHears c = true) ∧ ((s.dev.outstanding.find? fun y => y.ctag == some ctag) =
    some x)) :=
  ⟨⟨W (puts b0 [(SPN_CTL.EN, 1, 3, 0), (SPN_STAT.STATE, 2, 3, 0), (FAB_MG_CTL.STATE, 2, 0, 0), (FAB_MG_CTL.SPAN, 8, 0, 0), (FAB_MG_MEM.MEMBERS, 1, 0, 0)]), 3, 0, 0,
     by (repeat' apply And.intro) <;> first | decide +kernel | rfl⟩,
   ⟨W (puts b0 [(SPN_CTL.EN, 1, 3, 0), (SPN_STAT.STATE, 2, 3, 0), (SPN_ROUTE.VALID, 1, 0, 2), (SPN_ROUTE.PORT, 3, 0, 2)]), 3, 3,
     { spkg := 2, dpkg := 2, ttl := 2, tag := 1, dleaf := 0, mc := 0, step := 0, slot := 0, lanes := 0 },
     by (repeat' apply And.intro) <;> first | decide +kernel | rfl⟩,
   ⟨W { (puts b0 [(SPN_CTL.EN, 1, 3, 0), (SPN_STAT.STATE, 2, 3, 0)]) with remoteSends := [{ tag := 4095, port := 3, leaf := 0, imm := 0 }] }, 3, 2, 3, 4095, .delivered,
     { tag := 4095, port := 3, leaf := 0, imm := 0 },
     by (repeat' apply And.intro) <;> first | decide +kernel | rfl⟩,
   ⟨W { b0 with remoteSends := [{ tag := 4095, port := 3, leaf := 0, imm := 0 }] }, 4095, { tag := 4095, port := 3, leaf := 0, imm := 0 },
     by (repeat' apply And.intro) <;> first | decide +kernel | rfl⟩,
   ⟨W { puts b0 [(SPN_CTL.EN, 1, 3, 0), (SPN_STAT.STATE, 2, 3, 0), (SPN_ROUTE.VALID, 1, 0, 2), (SPN_ROUTE.PORT, 3, 0, 2)] with spans := [(3, { credits := [(4, 1)] })] },
     3, 3, 1, { spkg := 2, dpkg := 0, ttl := 3, ctag := 7, line := 0, nlines := 1, addr := 64, mask := 2 ^ 64 - 1, data := 0 },
     by (repeat' apply And.intro) <;> first | decide +kernel | rfl⟩,
   ⟨W { (puts b0 [(SPN_CTL.EN, 1, 3, 0), (SPN_STAT.STATE, 2, 3, 0)]) with bulk := { remote := [{ slice := 0, queue := 0, n := 0, off := 0, len := 64, pos := 64, ctag := some 7 }] } },
     3, 2, 3, 7, { slice := 0, queue := 0, n := 0, off := 0, len := 64, pos := 64, ctag := some 7 },
     by (repeat' apply And.intro) <;> first | decide +kernel | rfl⟩⟩

/-- States and operands that meet the hypotheses of RingCountIsKept, clause by clause. -/
theorem test_meets_ring_count_is_kept :
  (∃ (s : State) (add : Word), (s.dev.powered = true) ∧ (add ≠ 0) ∧ (add.toNat ≤ 2 ^ 62)) ∧
  (∃ (s : State) (add : Word), (s.dev.powered = true) ∧ (add = 0 ∨ 2 ^ 62 < add.toNat)) ∧
  (∃ (s : State), (s.dev.powered = true)) ∧
  (∃ (s : State) (i : Nat) (v : Word), (s.dev.powered = true) ∧ (s.dev.powerBusy = false) ∧ (s.dev.flag MBX_FW.READY = true) ∧ (s.dev.siteActive i = true) ∧ (s.dev.isolated
    i = false) ∧ ((s.dev.gate i).closed = false) ∧ ((s.dev.copyInfo i).loaded = false) ∧ (s.dev.reaches (.ringSync i v))) ∧
  (∃ (s : State) (i : Nat) (v : Word) (o : Int), (s.dev.powered = true) ∧ (s.dev.powerBusy = false) ∧ (s.dev.flag MBX_FW.READY = true) ∧ (s.dev.siteActive i = true) ∧
    (s.dev.isolated i = false) ∧ ((s.dev.gate i).closed = false) ∧ ((s.dev.copyInfo i).loaded = true) ∧ (s.dev.reaches (.ringSync i v)) ∧ (o = ((s.dev.copy i).toNat :
    Int) - (v.toNat + s.dev.get TIM_SITE.DELAY 0 i : Nat)) ∧ (-128 ≤ o) ∧ (o ≤ 127)) ∧
  (∃ (s : State) (i : Nat) (o : Int), (s.dev.powered = true) ∧ (s.dev.siteActive i = true) ∧ (s.dev.isolated i = false) ∧ (s.dev.reaches (.syncAck i o))) ∧
  (∃ (s : State) (c : Nat), (s.dev.powered = true) ∧ (s.dev.upstream = some c) ∧ (s.dev.spanUp c = true) ∧ (s.dev.spanFree c 1 1)) ∧
  (∃ (s : State) (c : Nat), (s.dev.powered = true) ∧ (s.dev.spanHears c = true) ∧ (s.dev.spanFree c 1 1)) ∧
  (∃ (s : State) (c t2 t3 : Nat) (t1 : Word) (y o : Int), (s.dev.powered = true) ∧ (s.dev.spanHears c = true) ∧ (s.dev.upstream = some c) ∧ ((s.dev.span c).sentAt = some
    t1) ∧ (y = (((s.dev.ring.toNat : Int) - t1.toNat) - ((t3 : Int) - t2)) / 2) ∧ (o = (t1.toNat : Int) + y - t2)) ∧
  (∃ (s : State) (c x : Nat), (s.dev.powered = true) ∧ (s.dev.spanHears c = true) ∧ (s.dev.upstream = none) ∧ (s.dev.master.acted = none) ∧ (s.dev.master.ahead = none)) :=
  ⟨⟨W b0, 2 ^ 62,
     by (repeat' apply And.intro) <;> first | decide +kernel | rfl⟩,
   ⟨W b0, 0,
     by (repeat' apply And.intro) <;> first | decide +kernel | rfl⟩,
   ⟨W b0,
     by (repeat' apply And.intro) <;> first | decide +kernel | rfl⟩,
   ⟨W { b0 with copyState := [] }, 0, 5,
     by (repeat' apply And.intro) <;> first | decide +kernel | rfl⟩,
   ⟨W b0, 0, 100, -100,
     by (repeat' apply And.intro) <;> first | decide +kernel | rfl⟩,
   ⟨W b0, 1, -128,
     by (repeat' apply And.intro) <;> first | decide +kernel | rfl⟩,
   ⟨W { puts b0 [(SPN_CTL.EN, 1, 3, 0), (SPN_STAT.STATE, 2, 3, 0), (SPN_CTL.TROLE, 1, 3, 0)] with spans := [(3, { credits := [(1, 1)] })] }, 3,
     by (repeat' apply And.intro) <;> first | decide +kernel | rfl⟩,
   ⟨W { puts b0 [(SPN_CTL.EN, 1, 3, 0), (SPN_STAT.STATE, 2, 3, 0)] with spans := [(3, { credits := [(1, 1)] })] }, 3,
     by (repeat' apply And.intro) <;> first | decide +kernel | rfl⟩,
   ⟨W { puts b0 [(SPN_CTL.EN, 1, 3, 0), (SPN_STAT.STATE, 2, 3, 0), (SPN_CTL.TROLE, 1, 3, 0)] with spans := [(3, { sentAt := some 20 })], ring := 50 }, 3, 0, 10, 20, 10,
     30,
     by (repeat' apply And.intro) <;> first | decide +kernel | rfl⟩,
   ⟨W (puts b0 [(SPN_CTL.EN, 1, 3, 0), (SPN_STAT.STATE, 2, 3, 0)]), 3, 0,
     by (repeat' apply And.intro) <;> first | decide +kernel | rfl⟩⟩

/-- States and operands that meet the hypotheses of TraceRecordsReachTheirRings, clause by clause. -/
theorem test_meets_trace_records_reach_their_rings :
  (∃ (s : State) (i t j : Nat), (s.dev.powered = true) ∧ (s.dev.siteActive i = true) ∧ (s.dev.isolated i = false) ∧ (t < 16) ∧ (j = ((s.dev.packer i).next + t) % 16) ∧
    (ready ((s.dev.packer i).fifo j) = true) ∧ ((∀ k, k < t → ready ((s.dev.packer i).fifo (((s.dev.packer i).next + k) % 16)) = false)) ∧ (0 < (s.dev.packer i).credits)) ∧
  (∃ (s : State) (i n : Nat), (s.dev.powered = true) ∧ (s.dev.siteActive i = true) ∧ (s.dev.isolated i = false) ∧ ((s.dev.packer i).fifo (n % 16) ≠ []) ∧ (ready
    ((s.dev.packer i).fifo (n % 16)) = false) ∧ (0 < (s.dev.packer i).credits)) ∧
  (∃ (s : State) (i : Nat) (x : TraceRec), (s.dev.powered = true) ∧ (x.leaf < 384) ∧ (s.dev.trace.buffer.length < 4096)) ∧
  (∃ (s : State) (i r : Nat) (x : TraceRec), (s.dev.powered = true) ∧ (x.leaf < 384) ∧ (4096 ≤ s.dev.trace.buffer.length) ∧ (r = (s.dev.reg ⟨.TRC_BMAP, 0, 0⟩).bits (2 *
    (x.leaf / 16) + 1) (2 * (x.leaf / 16))) ∧ (s.dev.gap r = none)) ∧
  (∃ (s : State) (r a : Nat) (x : TraceRec) (rest : List (TraceRec × Nat)), (s.dev.powered = true) ∧ (s.dev.trace.buffer = (x, r) :: rest) ∧ (s.dev.flag TRC_RING_CTL.EN 0 r
    = true) ∧ (s.dev.ringFull r = false) ∧ (s.dev.gapDue = none) ∧ (a = s.dev.recordAddr r (s.dev.ringNext r)) ∧ (s.dev.memCheck 5 0 true a = .ok) ∧ (rangeOf a = .dram)) ∧
  (∃ (s : State) (r : Nat) (x : TraceRec) (rest : List (TraceRec × Nat)), (s.dev.powered = true) ∧ (s.dev.trace.buffer = (x, r) :: rest) ∧ (s.dev.gapDue = none) ∧
    (s.dev.flag TRC_RING_CTL.EN 0 r = false ∨ (s.dev.ringFull r = true ∧ s.dev.gap r = none))) ∧
  (∃ (s : State) (r a : Nat) (g : Gap), (s.dev.powered = true) ∧ (s.dev.gapDue = some (r, g)) ∧ (a = s.dev.recordAddr r (s.dev.ringNext r)) ∧ (s.dev.memCheck 5 0 true a =
    .ok) ∧ (rangeOf a = .dram)) ∧
  (∃ (s : State) (r a : Nat) (x : TraceRec) (rest : List (TraceRec × Nat)), (s.dev.powered = true) ∧ (s.dev.trace.buffer = (x, r) :: rest) ∧ (r < 4) ∧ (s.dev.flag
    TRC_RING_CTL.EN 0 r = true) ∧ (s.dev.ringFull r = false) ∧ (s.dev.gapDue = none) ∧ (a = s.dev.recordAddr r (s.dev.ringNext r)) ∧ (s.dev.memCheck 5 0 true a ≠ .ok)) ∧
  (∃ (s : State) (r : Nat) (v : Word), (s.dev.powered = true) ∧ (r < 4)) :=
  ⟨⟨W { b0 with packers := [(0, { staging := [(15, [⟨0, 0, 0, 0, true, true⟩])] })] }, 0, 15, 15,
     by (repeat' apply And.intro) <;> first | decide +kernel | rfl⟩,
   ⟨W { b0 with packers := [(0, { staging := [(15, [⟨0, 0, 0, 0, true, false⟩])] })] }, 0, 15,
     by (repeat' apply And.intro) <;> first | decide +kernel | rfl⟩,
   ⟨W b0, 0, { ring := 0, mcycle := 0, leaf := 383, valid := 0, typ := 0 },
     by (repeat' apply And.intro) <;> first | decide +kernel | rfl⟩,
   ⟨W { b0 with trace := { buffer := List.replicate 4096 ({ ring := 0, mcycle := 0, leaf := 383, valid := 0, typ := 0 }, 0) } }, 0, 0,
     { ring := 0, mcycle := 0, leaf := 383, valid := 0, typ := 0 },
     by (repeat' apply And.intro) <;> first | decide +kernel | rfl⟩,
   ⟨W { puts b0 [(TRC_RING_CTL.EN, 1, 0, 3), (TRC_RING_CTL.LOG2, 6, 0, 3)] with trace := { buffer := [({ ring := 0, mcycle := 0, leaf := 383, valid := 0, typ := 0 }, 3)] } },
     3, 0, { ring := 0, mcycle := 0, leaf := 383, valid := 0, typ := 0 }, [],
     by (repeat' apply And.intro) <;> first | decide +kernel | rfl⟩,
   ⟨W { puts b0 [] with trace := { buffer := [({ ring := 0, mcycle := 0, leaf := 383, valid := 0, typ := 0 }, 3)] } }, 3,
     { ring := 0, mcycle := 0, leaf := 383, valid := 0, typ := 0 }, [],
     by (repeat' apply And.intro) <;> first | decide +kernel | rfl⟩,
   ⟨W { puts b0 [(TRC_RING_CTL.EN, 1, 0, 3), (TRC_RING_CTL.LOG2, 6, 0, 3)] with trace := { buffer := [({ ring := 0, mcycle := 0, leaf := 383, valid := 0, typ := 0 }, 3)], gaps := [(3, some { ringLo := 0, ringHi := 0, mcLo := 0, mcHi := 0, count := 1, causes := 1 })] } },
     3, 0, { ringLo := 0, ringHi := 0, mcLo := 0, mcHi := 0, count := 1, causes := 1 },
     by (repeat' apply And.intro) <;> first | decide +kernel | rfl⟩,
   ⟨W { puts b0 [(TRC_RING_CTL.EN, 1, 0, 3), (TRC_RING_CTL.LOG2, 6, 0, 3), (TRC_RING_BASE.ADDR, 2 ^ 36 - 1, 0, 3)] with trace := { buffer := [({ ring := 0, mcycle := 0, leaf := 383, valid := 0, typ := 0 }, 3)] } },
     3, (2 ^ 36 - 1) * 4096, { ring := 0, mcycle := 0, leaf := 383, valid := 0, typ := 0 }, [],
     by (repeat' apply And.intro) <;> first | decide +kernel | rfl⟩,
   ⟨W b0, 3, 0,
     by (repeat' apply And.intro) <;> first | decide +kernel | rfl⟩⟩

/-- States and operands that meet the hypotheses of MemoryChannelsSchedule, clause by clause. -/
theorem test_meets_memory_channels_schedule :
  (∃ (s : State) (m n k p : Nat), (s.dev.powered = true) ∧ (s.dev.powerBusy = false) ∧ (s.dev.phyServes m = true) ∧ ((s.dev.channel m).inputWrites = []) ∧ ((s.dev.channel
    m).postponed = [(k, p)]) ∧ (4 < p)) ∧
  (∃ (s : State) (m n : Nat) (c : MemCh) (w : QueuedWrite), (s.dev.powered = true) ∧ (s.dev.powerBusy = false) ∧ (s.dev.phyServes m = true) ∧ (s.dev.channel m = c) ∧
    (c.inputWrites = []) ∧ (c.postponed = []) ∧ (c.drift = false) ∧ (s.dev.flag TRC_STAT.PANIC = false) ∧ (c.needed = none) ∧ (c.writes.head? = some w) ∧ (48 ≤
    c.writes.length)) ∧
  (∃ (s : State) (m n : Nat) (r : MemRead) (rest : List MemRead), (s.dev.powered = true) ∧ (s.dev.powerBusy = false) ∧ (s.dev.phyServes m = true) ∧ ((s.dev.channel
    m).postponed = []) ∧ ((s.dev.channel m).drift = false) ∧ (s.dev.flag TRC_STAT.PANIC = false) ∧ ((s.dev.channel m).reads = r :: rest) ∧ ((s.dev.channel m).input = [])
    ∧ ((s.dev.channel m).inputWrites = []) ∧ ((s.dev.channel m).queue = []) ∧ (3000 ≤ (s.dev.ring - r.arrived).toNat)) ∧
  (∃ (s : State) (m n : Nat), (s.dev.powered = true) ∧ (s.dev.powerBusy = false) ∧ (s.dev.phyServes m = true) ∧ (s.dev.memState m = 2) ∧ ((s.dev.channel m).postponed = [])
    ∧ ((s.dev.channel m).drift = false) ∧ ((s.dev.channel m).reads = []) ∧ ((s.dev.channel m).input = []) ∧ ((s.dev.channel m).inputWrites = []) ∧ ((s.dev.channel
    m).queue = [])) ∧
  (∃ (s : State) (m k : Nat), (s.dev.powered = true) ∧ (s.dev.channelPresent m = true) ∧ (s.dev.memServes m = true) ∧ (k < 2 ^ s.dev.get MEM_CFG.LRANKS_LOG2 m)) ∧
  (∃ (s : State) (m t : Nat), (s.dev.powered = true) ∧ (m < 16) ∧ (s.dev.channelPresent m = true) ∧ (s.dev.memServes m = true) ∧ (s.dev.pulseLost (58 + m) = false) ∧
    (s.dev.eventUnderWay (58 + m) = false)) ∧
  (∃ (s : State) (m : Nat), (s.dev.powered = true) ∧ (s.dev.channelPresent m = true) ∧ (s.dev.memState m = 3)) :=
  ⟨⟨W { b0 with channels := [(0, { postponed := [(0, 5)] })] }, 0, 0, 0, 5,
     by (repeat' apply And.intro) <;> first | decide +kernel | rfl⟩,
   ⟨W { b0 with channels := [(0, { queue := List.replicate 48 { line := 0 } })] }, 0, 0, { queue := List.replicate 48 { line := 0 } }, { line := 0 },
     by (repeat' apply And.intro) <;> first | decide +kernel | rfl⟩,
   ⟨W { b0 with channels := [(0, { reads := [{ line := 0, home := 0, src := .bough 0, arrived := 0 }] })], ring := 3000 }, 0, 0,
     { line := 0, home := 0, src := .bough 0, arrived := 0 }, [],
     by (repeat' apply And.intro) <;> first | decide +kernel | rfl⟩,
   ⟨W (puts b0 [(MEM_STAT.STATE, 2, 0, 0)]), 0, 0,
     by (repeat' apply And.intro) <;> first | decide +kernel | rfl⟩,
   ⟨W b0, 0, 0,
     by (repeat' apply And.intro) <;> first | decide +kernel | rfl⟩,
   ⟨W b0, 0, 0,
     by (repeat' apply And.intro) <;> first | decide +kernel | rfl⟩,
   ⟨W b0, 0,
     by (repeat' apply And.intro) <;> first | decide +kernel | rfl⟩⟩

/-- States and operands that meet the hypotheses of MemoryChannelsTrainAndPause, clause by clause. -/
theorem test_meets_memory_channels_train_and_pause :
  (∃ (s : State) (m rate ranks : Nat) (a : Dimm), (s.dev.powered = true) ∧ (s.dev.flag MBX_FW.READY = true) ∧ (m < 16) ∧ (s.dev.channelPresent m = true) ∧ (s.dev.memState m
    = 1) ∧ (s.dev.flag TRK_CAP.GIL = false) ∧ (s.dev.get MEM_IL.N m = 0) ∧ ((s.dev.channel m).keep = false) ∧ ((∀ k, k < 16 → k ≠ m → k / 4 = m / 4 → s.dev.memState k =
    4)) ∧ (channelRate [a] = some rate) ∧ (channelRanks [a] = some ranks) ∧ (a.supported = true)) ∧
  (∃ (s : State) (m k f : Nat), (s.dev.powered = true) ∧ (s.dev.flag MBX_FW.READY = true) ∧ (m < 16) ∧ (s.dev.channelPresent m = true) ∧ (s.dev.memState m = 1) ∧ (k < 16) ∧
    (k ≠ m) ∧ (k / 4 = m / 4) ∧ (s.dev.channelPresent k = true) ∧ (s.dev.memState k = 1) ∧ ((s.dev.channel m).reads = []) ∧ ((s.dev.channel m).input = []) ∧
    ((s.dev.channel m).issued = []) ∧ ((s.dev.channel m).inputWrites = []) ∧ (s.dev.pulseLost (58 + m) = false) ∧ (s.dev.eventUnderWay (58 + m) = false)) ∧
  (∃ (s : State) (m : Nat), (s.dev.powered = true) ∧ (s.dev.channelPresent m = true) ∧ (s.dev.memServes m = true) ∧ (s.dev.flag MEM_TRAIN.PENDING m = false) ∧ (s.dev.flag
    MEM_TRAIN.BUSY m = false) ∧ (s.dev.flag MEM_CTL.QUIESCE m = false)) ∧
  (∃ (s : State) (m : Nat), (s.dev.powered = true) ∧ (s.dev.channelPresent m = true) ∧ (s.dev.memServes m = true) ∧ (s.dev.flag MEM_TRAIN.PENDING m = true) ∧
    ((s.dev.channel m).idle = true)) ∧
  (∃ (s : State) (m : Nat), (s.dev.powered = true) ∧ (s.dev.powerBusy = false) ∧ (s.dev.channelPresent m = true) ∧ (s.dev.flag MEM_TRAIN.BUSY m = true) ∧ (s.dev.memState m
    = 5) ∧ (s.dev.flag MEM_CTL.QUIESCE m = false) ∧ (s.dev.flag MEM_BIST.BUSY m = false) ∧ (s.dev.inputFits m)) ∧
  (∃ (s : State) (m : Nat), (s.dev.powered = true) ∧ (s.dev.channelPresent m = true) ∧ (s.dev.memServes m = true) ∧ (s.dev.flag MEM_TRAIN.BUSY m = false)) ∧
  (∃ (s : State) (m : Nat), (s.dev.powered = true) ∧ (m < 16) ∧ (s.dev.channelPresent m = true) ∧ (s.dev.flag MEM_TRAIN.BUSY m = true) ∧ (s.dev.memState m = 5) ∧
    ((s.dev.channel m).reads = []) ∧ ((s.dev.channel m).input = []) ∧ ((s.dev.channel m).issued = []) ∧ ((s.dev.channel m).inputWrites = []) ∧ (s.dev.pulseLost (58 + m) =
    false) ∧ (s.dev.eventUnderWay (58 + m) = false)) ∧
  (∃ (s : State) (m : Nat), (s.dev.powered = true) ∧ (s.dev.channelPresent m = true) ∧ (s.dev.memServes m = true) ∧ ((s.dev.channel m).idle = true) ∧ ((s.dev.channel
    m).reinit = false) ∧ (s.dev.flag MEM_TRAIN.PENDING m = false)) ∧
  (∃ (s : State) (m : Nat), (s.dev.powered = true) ∧ (s.dev.channelPresent m = true) ∧ (s.dev.memServes m = true) ∧ (s.dev.flag MEM_TRAIN.BUSY m = false) ∧ (s.dev.flag
    MEM_BIST.BUSY m = false) ∧ (s.dev.inputFits m)) ∧
  (∃ (s : State) (m k : Nat) (all : Bool), (s.dev.powered = true) ∧ (s.dev.channelPresent m = true) ∧ (s.dev.memServes m = true) ∧ (s.dev.flag MEM_BIST.BUSY m = false)) ∧
  (∃ (s : State) (m : Nat) (pass : Bool), (s.dev.powered = true) ∧ (s.dev.channelPresent m = true) ∧ (s.dev.flag MEM_BIST.BUSY m = true) ∧ (s.dev.flag MEM_BIST.ALL m =
    true) ∧ ((s.dev.channel m).inputWrites = [])) :=
  ⟨⟨W (puts b0 [(TRK_CAP.GIL, 0, 0, 0), (MEM_IL.N, 0, 0, 0), (MEM_STAT.STATE, 1, 0, 0), (MEM_STAT.STATE, 4, 1, 0), (MEM_STAT.STATE, 4, 2, 0), (MEM_STAT.STATE, 4, 3, 0)]),
     0, 64, 0, { rates := [64] },
     by (repeat' apply And.intro) <;> first | decide +kernel | rfl⟩,
   ⟨W (puts b0 [(MEM_STAT.STATE, 1, 15, 0), (MEM_STAT.STATE, 1, 14, 0)]), 15, 14, 0,
     by (repeat' apply And.intro) <;> first | decide +kernel | rfl⟩,
   ⟨W b0, 0,
     by (repeat' apply And.intro) <;> first | decide +kernel | rfl⟩,
   ⟨W (puts b0 [(MEM_TRAIN.PENDING, 1, 0, 0)]), 0,
     by (repeat' apply And.intro) <;> first | decide +kernel | rfl⟩,
   ⟨W (puts b0 [(MEM_TRAIN.BUSY, 1, 0, 0), (MEM_STAT.STATE, 5, 0, 0)]), 0,
     by (repeat' apply And.intro) <;> first | decide +kernel | rfl⟩,
   ⟨W b0, 0,
     by (repeat' apply And.intro) <;> first | decide +kernel | rfl⟩,
   ⟨W (puts b0 [(MEM_TRAIN.BUSY, 1, 0, 0), (MEM_STAT.STATE, 5, 0, 0)]), 0,
     by (repeat' apply And.intro) <;> first | decide +kernel | rfl⟩,
   ⟨W b0, 0,
     by (repeat' apply And.intro) <;> first | decide +kernel | rfl⟩,
   ⟨W b0, 0,
     by (repeat' apply And.intro) <;> first | decide +kernel | rfl⟩,
   ⟨W b0, 0, 63, false,
     by (repeat' apply And.intro) <;> first | decide +kernel | rfl⟩,
   ⟨W (puts b0 [(MEM_BIST.BUSY, 1, 0, 0), (MEM_BIST.ALL, 1, 0, 0)]), 0, true,
     by (repeat' apply And.intro) <;> first | decide +kernel | rfl⟩⟩

/-- States and operands that meet the hypotheses of MemoryErrorsAreCountedAndPoison, clause by clause. -/
theorem test_meets_memory_errors_are_counted_and_poison :
  (∃ (s : State) (m dev b line : Nat) (r : MemRead) (rest : List MemRead) (t : HomeTxn) (ecc : EccOutcome), (s.dev.powered = true) ∧ (s.dev.powerBusy = false) ∧ (m < 16) ∧
    (s.dev.phyServes m = true) ∧ (s.dev.pulseLost (58 + m) = false) ∧ (s.dev.eventUnderWay (58 + m) = false) ∧ ((s.dev.channel m).issued = r :: rest) ∧ (r.line = line) ∧
    (rangeOf (64 * line) = .dram) ∧ ((s.dev.memLine line).poison = false) ∧ ((s.dev.home r.home).txn line = some t) ∧ (t.fromMem = true) ∧ (t.poison = false) ∧ (t.req.op
    = .rdShared) ∧ (t.req.src = .bough b) ∧ (t.final.st = .shared) ∧ (ecc = .ok ∨ ecc = .ue)) ∧
  (∃ (s : State) (m ca dev : Nat) (ecc : EccOutcome), (s.dev.powered = true) ∧ (m < 16) ∧ (s.dev.channelPresent m = true) ∧ (s.dev.memServes m = true) ∧ (s.dev.get
    MEM_SCRUB.PERIOD_H m ≠ 0) ∧ (ca / 64 < s.dev.get MEM_INIT.FRONT m) ∧ ((s.dev.memLine (s.dev.addrOf m ca / 64)).poison = false) ∧ (rangeOf (64 * (s.dev.addrOf m ca /
    64)) = .dram) ∧ (s.dev.get MEM_CE_CTL.THRESH m = 0) ∧ (s.dev.flag MEM_ECC_LOG.VALID m = false)) ∧
  (∃ (s : State) (m : Nat), (s.dev.powered = true) ∧ (s.dev.channelPresent m = true)) :=
  ⟨⟨W { b0 with channels := [(0, { issued := [{ line := 0, home := 0, src := .bough 0, arrived := 0 }] })], homes := [(0, { txns := [{ req := { op := .rdShared, src := .bough 0, line := 0 }, fromMem := true, final := { st := .shared, sharers := [0] } }] })] },
     0, 17, 0, 0, { line := 0, home := 0, src := .bough 0, arrived := 0 }, [],
     { req := { op := .rdShared, src := .bough 0, line := 0 }, fromMem := true, final := { st := .shared, sharers := [0] } }, .ue,
     by (repeat' apply And.intro) <;> first | decide +kernel | rfl⟩,
   ⟨W (puts b0 [(MEM_SCRUB.PERIOD_H, 1, 0, 0), (MEM_CE_CTL.THRESH, 0, 0, 0)]), 0, 0, 0, .ce,
     by (repeat' apply And.intro) <;> first | decide +kernel | rfl⟩,
   ⟨W b0, 15,
     by (repeat' apply And.intro) <;> first | decide +kernel | rfl⟩⟩

/-- States and operands that meet the hypotheses of DeviceRequestsWalkAndEnd, clause by clause. -/
theorem test_meets_device_requests_walk_and_end :
  (∃ (s : State) (c : Instr) (job : TtuJob) (seg rid a : Nat), (s.dev.powered = true) ∧ (s.dev.holdsDevices = false) ∧ (s.dev.deviceReaches seg rid = true) ∧
    (s.dev.deviceHeld seg rid = false) ∧ (s.dev.flag TTU_DDT.EN 0 seg = true) ∧ (s.dev.ttu.cache = []) ∧ (a = s.dev.get TTU_DDT.BASE 0 seg * 4096 + 8 * (rid / 256 % 256))
    ∧ (s.dev.walkable a = true) ∧ (s.dev.memCheck 4 0 false a = .ok) ∧ ((∃ r : DevReq, c = .deviceRequest r ∧ job = .access r ∧ r.seg = seg ∧ r.rid = rid ∧ r.size ≠ 0 ∧
    r.addr % 4096 + r.size ≤ 4096) ∨ (∃ data : Nat, c = .deviceMsi seg rid data ∧ job = .msi seg rid data) ∨ (∃ r : DevReq, c = .atsTranslationRequest r ∧ job = .ats
    { r with translated := false } ∧ r.seg = seg ∧ r.rid = rid) ∨ (∃ p : PageReq, c = .pageRequest p ∧ job = .page p ∧ p.seg = seg ∧ p.rid = rid))) ∧
  (∃ (s : State) (t v : Nat) (w : TtuWalk) (r r' : WalkRead), (s.dev.powered = true) ∧ ((s.dev.ttu.walks.find? fun x => x.tag == t) = some w) ∧ (s.dev.walkWants w = some r)
    ∧ (s.dev.walkReady w r) ∧ (s.dev.cohFetch 3 r.addr r.bytes = (v, false)) ∧ (ttuWalk s.dev.ttuDdt (fun a => ((w.got ++ [(r.addr, v)]).find? fun p => p.1 == a).map
    (·.2)) w.job = .error (.read r')) ∧ ((s.dev.ttuFill w.job r v).ttuCached w.job r' = none) ∧ (s.dev.walkable r'.addr = true) ∧ (s.dev.memCheck 4 0 false r'.addr = .ok)
    ∧ ((∀ j ∈ s.dev.ttu.waiting, j.device ≠ w.job.device))) ∧
  (∃ (s : State) (t v : Nat) (w : TtuWalk) (r : WalkRead) (x : WalkEnd), (s.dev.powered = true) ∧ ((s.dev.ttu.walks.find? fun y => y.tag == t) = some w) ∧ (s.dev.walkWants
    w = some r) ∧ (s.dev.walkReady w r) ∧ (s.dev.cohFetch 3 r.addr r.bytes = (v, false)) ∧ (ttuWalk s.dev.ttuDdt (fun a => ((w.got ++ [(r.addr, v)]).find? fun p => p.1 ==
    a).map (·.2)) w.job = .ok x) ∧ (s.dev.mayFinish w.job x = true) ∧ (s.dev.deviceHeld w.job.device.1 w.job.device.2 = false) ∧ ((∀ j ∈ s.dev.ttu.waiting, j.device ≠
    w.job.device))) ∧
  (∃ (s : State) (c : Instr) (t cause a : Nat) (w : TtuWalk) (r : WalkRead) (q : DevReq), (s.dev.powered = true) ∧ ((c = .walkReadReturn t true ∧ cause = 6 ∧ rangeOf r.addr
    = .dram ∧ s.dev.walkReady w r) ∨ (c = .walkTimeout t ∧ cause = 7)) ∧ (t < 2 ^ 32) ∧ (s.dev.recordMay faultQueue = true) ∧ ((s.dev.ttu.walks.find? fun x => x.tag == t)
    = some w) ∧ (s.dev.walkWants w = some r) ∧ (w.job = .access q) ∧ (q.op = .read) ∧ ((∀ j ∈ s.dev.ttu.waiting, j.device ≠ w.job.device)) ∧ (a = s.dev.get
    TTU_FQ_BASE.ADDR * 4096 + s.dev.get TTU_FQ_TAIL.COUNT % 2 ^ s.dev.get TTU_FQ_BASE.LOG2 * 32)) :=
  ⟨⟨W { puts b0 [(TTU_DDT.EN, 1, 0, 7), (TTU_DDT.BASE, 16, 0, 7), (TTU_WALK_BASE.EN, 1, 0, 3), (TTU_WALK_LIMIT.ADDR, 0xFFFF, 0, 3)] with mem := [(0x10000, 1), (0x10001, 0x10), (0x10002, 1), (0x11000, 1)] },
     .deviceRequest { seg := 7, rid := 0, addr := 0x5000, size := 4096 }, .access { seg := 7, rid := 0, addr := 0x5000, size := 4096 }, 7, 0, 0x10000,
     by
     (repeat' apply And.intro) <;> first | decide +kernel | rfl | exact Or.inl ⟨{ seg := 7, rid := 0, addr := 0x5000, size := 4096 }, rfl, rfl, rfl, rfl, by decide, by decide⟩⟩,
   ⟨W { puts b0 [(TTU_DDT.EN, 1, 0, 7), (TTU_DDT.BASE, 16, 0, 7), (TTU_WALK_BASE.EN, 1, 0, 3), (TTU_WALK_LIMIT.ADDR, 0xFFFF, 0, 3)] with mem := [(0x10000, 1), (0x10001, 0x10), (0x10002, 1), (0x11000, 1)], ttu := { walks := [{ tag := 0, job := .access { seg := 7, rid := 0, addr := 0x5000, size := 4096 }, outstanding := 0x10000 }] } },
     0, 0x11001, { tag := 0, job := .access { seg := 7, rid := 0, addr := 0x5000, size := 4096 }, outstanding := 0x10000 },
     { addr := 0x10000, bytes := 8, table := .directory }, { addr := 0x11000, bytes := 64, table := .context },
     by (repeat' apply And.intro) <;> first | decide +kernel | rfl⟩,
   ⟨W { puts b0 [(TTU_DDT.EN, 1, 0, 7), (TTU_DDT.BASE, 16, 0, 7), (TTU_WALK_BASE.EN, 1, 0, 3), (TTU_WALK_LIMIT.ADDR, 0xFFFF, 0, 3)] with mem := [(0x10000, 1), (0x10001, 0x10), (0x10002, 1), (0x11000, 1)], ttu := { walks := [{ tag := 0, job := .access { seg := 7, rid := 0, addr := 0x5000, size := 4096 }, got := [(0x10000, 0x11001)], outstanding := 0x11000 }] } },
     0, 1, { tag := 0, job := .access { seg := 7, rid := 0, addr := 0x5000, size := 4096 }, got := [(0x10000, 0x11001)], outstanding := 0x11000 },
     { addr := 0x11000, bytes := 64, table := .context }, .translated 0x5000 12 true true {},
     by (repeat' apply And.intro) <;> first | decide +kernel | rfl⟩,
   ⟨W { puts b0 [(TTU_DDT.EN, 1, 0, 7), (TTU_DDT.BASE, 16, 0, 7), (TTU_WALK_BASE.EN, 1, 0, 3), (TTU_WALK_LIMIT.ADDR, 0xFFFF, 0, 3)] with mem := [(0x10000, 1), (0x10001, 0x10), (0x10002, 1), (0x11000, 1)], ttu := { walks := [{ tag := 0, job := .access { seg := 7, rid := 0, addr := 0x5000, size := 4096 }, got := [(0x10000, 0x11001)], outstanding := 0x11000 }] } },
     .walkTimeout 0, 0, 7, 0, { tag := 0, job := .access { seg := 7, rid := 0, addr := 0x5000, size := 4096 }, got := [(0x10000, 0x11001)], outstanding := 0x11000 },
     { addr := 0x11000, bytes := 64, table := .context }, { seg := 7, rid := 0, addr := 0x5000, size := 4096 },
     by
     (repeat' apply And.intro) <;> first | decide +kernel | rfl | exact Or.inr ⟨rfl, rfl⟩⟩⟩

/-- States and operands that meet the hypotheses of StallsAndInvalidations, clause by clause. -/
theorem test_meets_stalls_and_invalidations :
  (∃ (s : State) (slot a : Nat) (q : DevReq), (s.dev.powered = true) ∧ (slot < 256) ∧ (s.dev.ttu.stalls.find none slot = some (.device q)) ∧ (s.dev.flag TTU_DDT.EN 0 q.seg
    = true) ∧ (q.seg < 8) ∧ (s.dev.ttu.cache = []) ∧ (a = s.dev.get TTU_DDT.BASE 0 q.seg * 4096 + 8 * (q.rid / 256 % 256)) ∧ (s.dev.walkable a = true) ∧ (s.dev.memCheck 4
    0 false a = .ok)) ∧
  (∃ (s : State) (c : Instr) (slot : Nat) (q : DevReq), (s.dev.powered = true) ∧ (slot < 256) ∧ (c = .stallAbort slot ∨ c = .stallTimeout slot) ∧ (s.dev.ttu.stalls.find
    none slot = some (.device q)) ∧ (q.op ≠ .write) ∧ ((∀ j ∈ s.dev.ttu.waiting, j.device ≠ (q.seg, q.rid)))) ∧
  (∃ (s : State) (c : Instr) (slot : Nat), (s.dev.powered = true) ∧ (c = .stallAbort slot ∨ c = .stallResume slot) ∧ (s.dev.slotUsed slot = false)) ∧
  (∃ (s : State) (v : Word), (s.dev.powered = true)) ∧
  (∃ (s : State) (c : Instr) (i : TtuInval), (s.dev.powered = true) ∧ ((∃ seg rid, c = .invCtx seg rid ∧ i = .context seg rid) ∨ (∃ seg rid p, c = .invPasid seg rid p ∧ i =
    .pasid seg rid p) ∨ (∃ seg rid p, c = .invRange seg rid p ∧ i = .range seg rid p (s.dev.get TTU_INV_ADDR.ADDR * 4096) (s.dev.get TTU_INV_ADDR.ADDR * 4096 + 2 ^
    s.dev.get TTU_INV_ADDR.LOG2 * 4096 - 1)) ∨ (∃ g, c = .invS2 g ∧ i = .stage2 g (s.dev.get TTU_INV_ADDR.ADDR * 4096) (s.dev.get TTU_INV_ADDR.ADDR * 4096 + 2 ^ s.dev.get
    TTU_INV_ADDR.LOG2 * 4096 - 1)) ∨ (c = .invAll ∧ i = .all))) ∧
  (∃ (s : State) (c : Instr) (i : TtuInval) (status : Nat), (s.dev.powered = true) ∧ (s.dev.ttu.inval = some i) ∧ (s.dev.invWaits i = false) ∧ ((c = .invDone ∧
    s.dev.ttu.atsWait = [] ∧ status = s.dev.get TTU_INV_STAT.STATUS) ∨ (c = .atsInvTimeout ∧ s.dev.ttu.atsWait ≠ [] ∧ status = 1))) ∧
  (∃ (s : State) (seg rid : Nat), (s.dev.powered = true)) ∧
  (∃ (s : State) (pq : Bool) (q : TtuQueue), (s.dev.powered = true) ∧ (q = (if pq then pageQueue else faultQueue)) ∧ (s.dev.flag q.en = false)) :=
  ⟨⟨W { puts b0 [(TTU_DDT.EN, 1, 0, 7), (TTU_DDT.BASE, 16, 0, 7), (TTU_WALK_BASE.EN, 1, 0, 3), (TTU_WALK_LIMIT.ADDR, 0xFFFF, 0, 3)] with mem := [(0x10000, 1), (0x10001, 0x10), (0x10002, 1), (0x11000, 1)], ttu := { stalls := [(255, some (.device { seg := 7, rid := 0, addr := 0x5000, size := 4096 }))] } },
     255, 0x10000, { seg := 7, rid := 0, addr := 0x5000, size := 4096 },
     by (repeat' apply And.intro) <;> first | decide +kernel | rfl⟩,
   ⟨W { b0 with ttu := { stalls := [(255, some (.device { seg := 7, rid := 0, addr := 0x5000, size := 4096 }))] } }, .stallAbort 255, 255,
     { seg := 7, rid := 0, addr := 0x5000, size := 4096 },
     by
     (repeat' apply And.intro) <;> first | decide +kernel | rfl | exact Or.inl rfl⟩,
   ⟨W b0, .stallResume 256, 256,
     by
     (repeat' apply And.intro) <;> first | decide +kernel | rfl | exact Or.inr rfl⟩,
   ⟨W b0, 0,
     by (repeat' apply And.intro) <;> first | decide +kernel | rfl⟩,
   ⟨W b0, .invAll, .all,
     ⟨by decide +kernel, Or.inr (Or.inr (Or.inr (Or.inr ⟨rfl, rfl⟩)))⟩⟩,
   ⟨W { b0 with ttu := { inval := some .all, atsWait := [(0, 0)] } }, .atsInvTimeout, .all, 1,
     by
     (repeat' apply And.intro) <;> first | decide +kernel | rfl | exact Or.inr ⟨rfl, by decide, rfl⟩⟩,
   ⟨W b0, 0, 0,
     by (repeat' apply And.intro) <;> first | decide +kernel | rfl⟩,
   ⟨W b0, true, pageQueue,
     by (repeat' apply And.intro) <;> first | decide +kernel | rfl⟩⟩

/-- States and operands that meet the hypotheses of RootPortsAndCxlMemory, clause by clause. -/
theorem test_meets_root_ports_and_cxl_memory :
  (∃ (s : State) (n : Nat) (v : Word), (s.dev.powered = true) ∧ (n < 8) ∧ (bit s.dev.rpMask n = true)) ∧
  (∃ (s : State) (r : Nat), (s.dev.powered = true) ∧ (s.dev.rpExists r = true) ∧ (bit (s.dev.get HIO_CFG.LINK_EN (r / 4)) (r % 4) = true)) ∧
  (∃ (s : State) (r : Nat), (s.dev.powered = true) ∧ (s.dev.rpExists r = true)) ∧
  (∃ (s : State) (r : Nat), (s.dev.powered = true) ∧ (s.dev.rpExists r = true) ∧ (s.dev.ttu.stalls = []) ∧ (s.dev.pulseLost (74 + r) = false) ∧ (s.dev.eventUnderWay (74 +
    r) = false)) ∧
  (∃ (s : State) (r h a : Nat) (before after : List Packet), (s.dev.powered = true) ∧ (s.dev.packets = before ++ .mmioRead r h a :: after) ∧ ((∀ h' a', Packet.mmioRead r h'
    a' ∉ before)) ∧ (rangeOf a = .mmio)) ∧
  (∃ (s : State) (n : Nat), (s.dev.powered = true) ∧ (n < 8) ∧ (bit s.dev.rpMask n = true) ∧ (s.dev.broken (.trunk (0x30 + n)) = false)) ∧
  (∃ (s : State) (r : Nat), (s.dev.powered = true) ∧ (s.dev.rpExists r = true) ∧ (s.dev.pulseLost (74 + r) = false) ∧ (s.dev.eventUnderWay (74 + r) = false)) ∧
  (∃ (s : State) (n : Nat), (s.dev.powered = true) ∧ (s.dev.cxlMode n = true) ∧ (s.dev.rpUp (4 * n) = true) ∧ (s.dev.flag HIO_CXL.CLOSING n = false)) ∧
  (∃ (s : State) (n : Nat), (s.dev.powered = true) ∧ (n < 4) ∧ (s.dev.flag HIO_CXL.EN n = true) ∧ (s.dev.flag HIO_CXL.CLOSING n = false)) ∧
  (∃ (s : State) (n : Nat), (s.dev.powered = true) ∧ (n < 4) ∧ (s.dev.flag HIO_CXL.CLOSING n = true) ∧ (s.dev.cxlEntries n = []) ∧ (s.dev.cxlBusy n = false)) ∧
  (∃ (s : State) (c : Instr) (n b : Nat) (bad : Bool) (r : CxlReq) (rest : List CxlReq) (t : HomeTxn), (s.dev.powered = true) ∧ (c = .cxlMemResponse n bad ∨ (c =
    .cxlMemTimeout n ∧ bad = true)) ∧ (s.dev.cxl.find [] n = r :: rest) ∧ (r.write = false) ∧ ((s.dev.home r.home).txn r.line = some t) ∧ (t.fromMem = true) ∧ (t.poison =
    false) ∧ (t.req.op = .rdShared) ∧ (t.req.src = .bough b) ∧ (t.final.st = .shared)) ∧
  (∃ (s : State) (n : Nat) (bad : Bool) (r : CxlReq) (rest : List CxlReq) (x : LineData), (s.dev.powered = true) ∧ (s.dev.cxl.find [] n = r :: rest) ∧ (r.write = true) ∧
    (r.data = some x) ∧ ((s.dev.home r.home).txn r.line = none)) :=
  ⟨⟨W b0, 7, 0,
     by (repeat' apply And.intro) <;> first | decide +kernel | rfl⟩,
   ⟨W (puts b0 [(HIO_CFG.LINK_EN, 15, 7, 0), (HIO_CFG.BIFUR, 3, 7, 0)]), 31,
     by (repeat' apply And.intro) <;> first | decide +kernel | rfl⟩,
   ⟨W b0, 28,
     by (repeat' apply And.intro) <;> first | decide +kernel | rfl⟩,
   ⟨W b0, 28,
     by (repeat' apply And.intro) <;> first | decide +kernel | rfl⟩,
   ⟨W { b0 with wire := [{ pkt := .mmioRead 0 1 0x0C0000000000 }] }, 0, 1, 0x0C0000000000, [], [],
     by
     (repeat' apply And.intro) <;> first | decide +kernel | rfl | (intro h' a' h; cases h)⟩,
   ⟨W b0, 7,
     by (repeat' apply And.intro) <;> first | decide +kernel | rfl⟩,
   ⟨W b0, 0,
     by (repeat' apply And.intro) <;> first | decide +kernel | rfl⟩,
   ⟨W (puts b0 [(HIO_CFG.CXL, 1, 3, 0), (HIO_STAT.UP, 1, 3, 0)]), 3,
     by (repeat' apply And.intro) <;> first | decide +kernel | rfl⟩,
   ⟨W (puts b0 [(HIO_CXL.EN, 1, 3, 0)]), 3,
     by (repeat' apply And.intro) <;> first | decide +kernel | rfl⟩,
   ⟨W (puts b0 [(HIO_CXL.CLOSING, 1, 3, 0)]), 3,
     by (repeat' apply And.intro) <;> first | decide +kernel | rfl⟩,
   ⟨W { b0 with cxl := [(0, [{ line := 2 ^ 37, home := 0 }])], homes := [(0, { txns := [{ req := { op := .rdShared, src := .bough 0, line := 2 ^ 37 }, fromMem := true, final := { st := .shared, sharers := [0] } }] })] },
     .cxlMemTimeout 0, 0, 0, true, { line := 2 ^ 37, home := 0 }, [],
     { req := { op := .rdShared, src := .bough 0, line := 2 ^ 37 }, fromMem := true, final := { st := .shared, sharers := [0] } },
     by
     (repeat' apply And.intro) <;> first | decide +kernel | rfl | exact Or.inr ⟨rfl, rfl⟩⟩,
   ⟨W { b0 with cxl := [(0, [{ line := 2 ^ 37, home := 0, write := true, data := some ⟨3, false⟩ }])] }, 0, false,
     { line := 2 ^ 37, home := 0, write := true, data := some ⟨3, false⟩ }, [], ⟨3, false⟩,
     by (repeat' apply And.intro) <;> first | decide +kernel | rfl⟩⟩

/-- States and operands that meet the hypotheses of BulkSlicesAndQueues, clause by clause. -/
theorem test_meets_bulk_slices_and_queues :
  (∃ (s : State) (pasid q k : Nat), (s.dev.powered = true) ∧ (4 ≤ q) ∧ (q ≤ 12) ∧ (k < 64) ∧ (s.dev.sliceBound k = false) ∧ ((∀ j, j < k → s.dev.sliceBound j = true)) ∧ ((∀
    j, s.dev.sliceBound j = true → s.dev.get BLK_SLICE_CTL.PASID 0 j ≠ pasid % 2 ^ 20)) ∧ (s.dev.boundSlices.length < s.dev.bulk.limit)) ∧
  (∃ (s : State) (pasid q : Nat), (s.dev.powered = true) ∧ (q < 4 ∨ 12 < q)) ∧
  (∃ (s : State) (k : Nat), (s.dev.powered = true) ∧ (s.dev.sliceBound k = true) ∧ (s.dev.sliceQuiet k = true) ∧ ((∀ i, i < 1024 → s.dev.qState k i ≠ 1))) ∧
  (∃ (s : State) (k i : Nat), (s.dev.powered = true) ∧ (s.dev.sliceBound k = true) ∧ (i < 1024) ∧ (s.dev.qState k i = 0) ∧ (s.dev.flag EVC_STAT.SAFE = false)) ∧
  (∃ (s : State) (k i : Nat), (s.dev.powered = true) ∧ (s.dev.sliceBound k = true) ∧ (i < 1024) ∧ (s.dev.qState k i ≠ 3)) ∧
  (∃ (s : State) (k i t a b : Nat), (s.dev.powered = true) ∧ (s.dev.sliceBound k = true) ∧ (i < 1024) ∧ (s.dev.qState k i = 1) ∧ (a = (t % 2 ^ 32 + 2 ^ 32 - s.dev.get
    DB_STAT.DONE k i) % 2 ^ 32) ∧ (b = (s.dev.get DB_TAIL.TAIL k i + 2 ^ 32 - s.dev.get DB_STAT.DONE k i) % 2 ^ 32)) ∧
  (∃ (s : State) (k e : Nat) (c : BulkChunk), (s.dev.powered = true) ∧ (s.dev.sliceBound k = true) ∧ (s.dev.flag BLK_SLICE_STAT.RESETTING 0 k = false) ∧ (s.dev.engineChunk
    e = some c) ∧ (c.slice = k) ∧ ((∀ j ∈ s.dev.ttu.waiting, j.device ≠ (8, k)))) ∧
  (∃ (s : State) (k : Nat), (s.dev.powered = true) ∧ (s.dev.sliceBound k = true) ∧ (s.dev.flag BLK_SLICE_STAT.RESETTING 0 k = true) ∧ ((∀ p ∈ s.dev.bulk.engines, ∀ c, p.2 =
    some c → c.slice ≠ k)) ∧ ((∀ c ∈ s.dev.bulk.parked ++ s.dev.bulk.ready, c.slice ≠ k)) ∧ ((∀ i, i < 1024 → (s.dev.bulkQueue k i).descs = []))) ∧
  (∃ (s : State) (e : Nat) (on : Bool) (c : Instr), (s.dev.powered = true) ∧ (e < 8) ∧ ((c = .engineDisable e ∧ on = false) ∨ (c = .engineEnable e ∧ on = true ∧ s.dev.flag
    EVC_STAT.SAFE = false))) ∧
  (∃ (s : State) (e : Nat) (c : BulkChunk), (s.dev.powered = true) ∧ (e < 8) ∧ (s.dev.engineChunk e = some c) ∧ (c.ctag = none) ∧ (s.dev.flag BLK_SLICE_STAT.RESETTING 0
    c.slice = false)) :=
  ⟨⟨W b0, 5, 12, 0,
     by
     have hb : ∀ j, j < 64 → b0.sliceBound j = true → b0.get BLK_SLICE_CTL.PASID 0 j ≠ 5 % 2 ^ 20 := by decide +kernel
     have hl : ∀ j, b0.sliceBound j = true → b0.get BLK_SLICE_CTL.PASID 0 j ≠ 5 % 2 ^ 20 := fun j h => hb j (by
       unfold Dev.sliceBound at h; simp at h; exact h.1) h
     (repeat' apply And.intro) <;> first | exact hl | decide +kernel⟩,
   ⟨W b0, 5, 13,
     by
     (repeat' apply And.intro) <;> first | decide +kernel | rfl | exact Or.inr (by decide)⟩,
   ⟨W (puts b0 [(BLK_SLICE_CTL.BOUND, 1, 0, 0), (BLK_SLICE_CTL.QLOG2, 4, 0, 0)]), 0,
     by (repeat' apply And.intro) <;> first | decide +kernel | rfl⟩,
   ⟨W (puts b0 [(BLK_SLICE_CTL.BOUND, 1, 0, 0), (BLK_SLICE_CTL.QLOG2, 4, 0, 0)]), 0, 1023,
     by (repeat' apply And.intro) <;> first | decide +kernel | rfl⟩,
   ⟨W (puts b0 [(BLK_SLICE_CTL.BOUND, 1, 0, 0), (BLK_SLICE_CTL.QLOG2, 4, 0, 0)]), 0, 1023,
     by (repeat' apply And.intro) <;> first | decide +kernel | rfl⟩,
   ⟨W (puts b0 [(BLK_SLICE_CTL.BOUND, 1, 0, 0), (BLK_SLICE_CTL.QLOG2, 4, 0, 0), (DB_STAT.STATE, 1, 0, 1023), (DB_TAIL.TAIL, 2 ^ 32 - 1, 0, 1023), (DB_STAT.DONE, 2 ^ 32 - 1, 0, 1023)]),
     0, 1023, 3, 4, 0,
     by (repeat' apply And.intro) <;> first | decide +kernel | rfl⟩,
   ⟨W { puts b0 [(BLK_SLICE_CTL.BOUND, 1, 0, 0), (BLK_SLICE_CTL.QLOG2, 4, 0, 0)] with bulk := { engines := [(7, some { slice := 0, queue := 0, n := 0, off := 0, len := 8 })] } },
     0, 7, { slice := 0, queue := 0, n := 0, off := 0, len := 8 },
     by (repeat' apply And.intro) <;> first | decide +kernel | rfl⟩,
   ⟨W (puts b0 [(BLK_SLICE_CTL.BOUND, 1, 0, 0), (BLK_SLICE_CTL.QLOG2, 4, 0, 0), (BLK_SLICE_STAT.RESETTING, 1, 0, 0)]), 0,
     by
     (repeat' apply And.intro) <;> first | decide +kernel | rfl | (intro p h; cases h)⟩,
   ⟨W b0, 7, false, .engineDisable 7,
     by
     (repeat' apply And.intro) <;> first | decide +kernel | rfl | exact Or.inl ⟨rfl, rfl⟩⟩,
   ⟨W { b0 with bulk := { engines := [(7, some { slice := 0, queue := 0, n := 0, off := 0, len := 8 })] } }, 7, { slice := 0, queue := 0, n := 0, off := 0, len := 8 },
     by (repeat' apply And.intro) <;> first | decide +kernel | rfl⟩⟩

/-- States and operands that meet the hypotheses of BulkDescriptorsAndChunks, clause by clause. -/
theorem test_meets_bulk_descriptors_and_chunks :
  (∃ (s : State) (k i a v : Nat) (x : BulkDesc) (d1 : Dev), (s.dev.powered = true) ∧ (s.dev.sliceBound k = true) ∧ (i < 1024) ∧ (s.dev.qState k i = 1) ∧ ((s.dev.bulkQueue k
    i).head ≠ s.dev.get DB_TAIL.TAIL k i) ∧ (s.dev.flag EVC_STAT.SAFE = false) ∧ (a = s.dev.get DB_RING.ADDR k i * 4096 + (s.dev.bulkQueue k i).head % 2 ^ s.dev.get
    BLK_SLICE_CTL.QLOG2 0 k * 64) ∧ (s.dev.bulkRead 2 k a 64 false (some (.fetch k i)) = (.ok (v, false), d1)) ∧ (d1.bulk = s.dev.bulk) ∧ ((s.dev.bulkQueue k i).descs =
    []) ∧ (x = { n := (s.dev.bulkQueue k i).fetched, place := (s.dev.bulkQueue k i).head, words := BitVec.ofNat 512 v }) ∧ (x.invalid (d1.get TRK_PKG_ID.PKG_ID) = false)
    ∧ (x.op ≠ 5)) ∧
  (∃ (s : State) (k i a st : Nat) (d1 : Dev), (s.dev.powered = true) ∧ (s.dev.sliceBound k = true) ∧ (i < 1024) ∧ (s.dev.qState k i = 1) ∧ ((s.dev.bulkQueue k i).head ≠
    s.dev.get DB_TAIL.TAIL k i) ∧ (s.dev.flag EVC_STAT.SAFE = false) ∧ (a = s.dev.get DB_RING.ADDR k i * 4096 + (s.dev.bulkQueue k i).head % 2 ^ s.dev.get
    BLK_SLICE_CTL.QLOG2 0 k * 64) ∧ (s.dev.bulkRead 2 k a 64 false (some (.fetch k i)) = (.error (.fail st), d1))) ∧
  (∃ (s : State) (e : Nat) (c : BulkChunk) (rest : List BulkChunk), (s.dev.powered = true) ∧ (e < 8) ∧ (bit (s.dev.get BLK_ENG_CTL.EN) e = true) ∧ (s.dev.engineChunk e =
    none) ∧ (s.dev.bulk.ready = c :: rest) ∧ (s.dev.remoteChunk c = false)) ∧
  (∃ (s : State) (e k i : Nat) (is : List Nat) (x : BulkDesc), (s.dev.powered = true) ∧ (e < 8) ∧ (bit (s.dev.get BLK_ENG_CTL.EN) e = true) ∧ (s.dev.engineChunk e = none) ∧
    (s.dev.bulk.ready = []) ∧ (s.dev.pickSlice = some k) ∧ (s.dev.sliceQueues k = i :: is) ∧ (s.dev.queueWork k i = some x) ∧ (x.op ≠ 5)) ∧
  (∃ (s : State) (e m : Nat) (c : BulkChunk) (x y : BulkDesc) (d1 : Dev), (s.dev.powered = true) ∧ (s.dev.engineChunk e = some c) ∧ ((s.dev.bulkQueue c.slice c.queue).descs
    = [x]) ∧ (x.n = c.n) ∧ (x.fail = none) ∧ (x.ended = false) ∧ (x.next < x.len) ∧ (c.pos = 0) ∧ (0 < c.len) ∧ (c.len = m) ∧ (m ≤ 64 - (x.chunkBase + c.off) % 64) ∧
    ((x.op = 2 ∧ s.dev.bulkWrite 2 c.slice (x.dst + c.off) (patternBytes (x.field 4 63 0) (x.dst + c.off) m) m c.bypass (some c.who) = (.ok (), d1) ∧ y =
    { x with done := x.done ++ [(c.off, m)], result := 0 }) ∨ (x.op = 1 ∧ (∃ (v : Nat) (d0 : Dev), s.dev.bulkRead 3 c.slice (x.src + c.off) m c.bypass (some c.who) = (.ok
    (v, false), d0) ∧ d0.copyAliases c.slice x = false ∧ d0.bulkWrite 2 c.slice (x.dst + c.off) v m c.bypass (some c.who) = (.ok (), d1)) ∧ y =
    { x with done := x.done ++ [(c.off, m)], result := 0 }) ∨ (x.op = 1 ∧ (∃ (v w : Nat) (d0 d2 : Dev), s.dev.bulkRead 3 c.slice (x.src + c.off) m c.bypass (some c.who) =
    (.ok (v, false), d0) ∧ d0.copyAliases c.slice x = true ∧ d0.freeBytes m = (w, d2) ∧ d2.bulkWrite 2 c.slice (x.dst + c.off) w m c.bypass (some c.who) = (.ok (), d1)) ∧
    y = { x with done := x.done ++ [(c.off, m)], result := 0 }) ∨ (x.op = 4 ∧ ∃ v : Nat, s.dev.bulkRead 3 c.slice (x.src + c.off) m c.bypass (some c.who) = (.ok (v,
    false), d1) ∧ y = { x with done := x.done ++ [(c.off, m)], crc := crcBytes m c.crc v, result := crcBytes m c.crc v ^^^ 0xFFFFFFFF })) ∧ (d1.bulk = s.dev.bulk) ∧
    (d1.flag BLK_SLICE_STAT.RESETTING 0 c.slice = false)) ∧
  (∃ (s : State), (s.dev.powered = true)) ∧
  (∃ (s : State) (ctag : Nat) (c : BulkChunk), (s.dev.powered = true) ∧ ((s.dev.bulk.remote.find? fun y => y.ctag == some ctag) = some c)) :=
  ⟨⟨W { puts b0 [(TTU_DDT.EN, 1, 0, 8), (TTU_DDT.BASE, 16, 0, 8), (TTU_WALK_BASE.EN, 1, 0, 3), (TTU_WALK_LIMIT.ADDR, 0xFFFF, 0, 3), (BLK_SLICE_CTL.BOUND, 1, 0, 0), (BLK_SLICE_CTL.QLOG2, 4, 0, 0), (DB_STAT.STATE, 1, 0, 0), (DB_TAIL.TAIL, 1, 0, 0), (DB_RING.ADDR, 3, 0, 0)] with mem := [(0x3000, 2), (0x3011, 0x40), (0x3018, 8), (0x3020, 0xAB), (0x10000, 1), (0x10001, 0x10), (0x10002, 1), (0x11000, 1)] },
     0, 0, 0x3000, (2 + 2 ^ 142 + 2 ^ 195 + 0xAB * 2 ^ 256), { n := 0, words := BitVec.ofNat 512 (2 + 2 ^ 142 + 2 ^ 195 + 0xAB * 2 ^ 256) },
     (Dev.bulkRead 2 { puts b0 [(TTU_DDT.EN, 1, 0, 8), (TTU_DDT.BASE, 16, 0, 8), (TTU_WALK_BASE.EN, 1, 0, 3), (TTU_WALK_LIMIT.ADDR, 0xFFFF, 0, 3), (BLK_SLICE_CTL.BOUND, 1, 0, 0), (BLK_SLICE_CTL.QLOG2, 4, 0, 0), (DB_STAT.STATE, 1, 0, 0), (DB_TAIL.TAIL, 1, 0, 0), (DB_RING.ADDR, 3, 0, 0)] with mem := [(0x3000, 2), (0x3011, 0x40), (0x3018, 8), (0x3020, 0xAB), (0x10000, 1), (0x10001, 0x10), (0x10002, 1), (0x11000, 1)] } 0 0x3000 64 false (some (.fetch 0 0))).2,
     by
     (repeat' apply And.intro) <;> first | decide +kernel | rfl | exact Prod.ext (by decide +kernel) rfl⟩,
   ⟨W (puts b0 [(BLK_SLICE_CTL.BOUND, 1, 0, 0), (BLK_SLICE_CTL.QLOG2, 4, 0, 0), (DB_STAT.STATE, 1, 0, 0), (DB_TAIL.TAIL, 1, 0, 0), (DB_RING.ADDR, 3, 0, 0)]), 0, 0,
     0x3000, 0x12,
     (Dev.bulkRead 2 (puts b0 [(BLK_SLICE_CTL.BOUND, 1, 0, 0), (BLK_SLICE_CTL.QLOG2, 4, 0, 0), (DB_STAT.STATE, 1, 0, 0), (DB_TAIL.TAIL, 1, 0, 0), (DB_RING.ADDR, 3, 0, 0)]) 0 0x3000 64 false (some (.fetch 0 0))).2,
     by
     (repeat' apply And.intro) <;> first | decide +kernel | rfl | exact Prod.ext (by decide +kernel) rfl⟩,
   ⟨W { puts b0 [(BLK_ENG_CTL.EN, 255, 0, 0)] with bulk := { ready := [{ slice := 0, queue := 0, n := 0, off := 0, len := 8 }] } }, 7,
     { slice := 0, queue := 0, n := 0, off := 0, len := 8 }, [],
     by (repeat' apply And.intro) <;> first | decide +kernel | rfl⟩,
   ⟨W { puts b0 [(BLK_ENG_CTL.EN, 255, 0, 0), (BLK_SLICE_CTL.BOUND, 1, 0, 0), (BLK_SLICE_CTL.QLOG2, 4, 0, 0)] with bulk := { queues := [(0, { descs := [{ n := 0, words := BitVec.ofNat 512 (2 + 2 ^ 142 + 2 ^ 195 + 0xAB * 2 ^ 256) }] })] } },
     7, 0, 0, [], { n := 0, words := BitVec.ofNat 512 (2 + 2 ^ 142 + 2 ^ 195 + 0xAB * 2 ^ 256) },
     by (repeat' apply And.intro) <;> first | decide +kernel | rfl⟩,
   ⟨W fillDev, 0, 8, fillChunk, fillDesc, _,
     ((W fillDev).dev.bulkWrite 2 fillChunk.slice (fillDesc.dst + fillChunk.off) (patternBytes (fillDesc.field 4 63 0) (fillDesc.dst + fillChunk.off) 8) 8 fillChunk.bypass (some fillChunk.who)).2,
     by
     (repeat' apply And.intro) <;> first | decide +kernel | exact Or.inl ⟨by decide +kernel, Prod.ext (by decide +kernel) (by dsimp only), rfl⟩⟩,
   ⟨W b0,
     by (repeat' apply And.intro) <;> first | decide +kernel | rfl⟩,
   ⟨W { b0 with bulk := { remote := [{ slice := 0, queue := 0, n := 0, off := 0, len := 64, ctag := some 7 }] } }, 7,
     { slice := 0, queue := 0, n := 0, off := 0, len := 64, ctag := some 7 },
     by (repeat' apply And.intro) <;> first | decide +kernel | rfl⟩⟩

/-- States and operands that meet the hypotheses of PowerEntriesAndWakes, clause by clause. -/
theorem test_meets_power_entries_and_wakes :
  (∃ (s : State) (n : Nat), (s.dev.powered = true) ∧ (s.dev.powerBusy = false) ∧ (Packet.hsReq (.leaf n) ∈ s.dev.packets) ∧ (Packet.hsAccept (.leaf n) ∉ s.dev.packets) ∧
    (s.dev.isolated (s.dev.leafSite n) = false) ∧ (n ∈ s.dev.power.leafOff) ∧ (s.dev.switchDue n = false) ∧ (s.dev.pstate n = 1)) ∧
  (∃ (s : State) (i : Nat) (e : BoughEntry), (s.dev.powered = true) ∧ (s.dev.power.entries = [(i, e)]) ∧ (s.dev.power.waking = []) ∧ (s.dev.power.reset = none) ∧
    (s.dev.power.package = none) ∧ (s.dev.power.heldDev = []) ∧ (e.step = 1) ∧ (e.accepted = []) ∧ (.l3c i ∈ e.waiting) ∧ (e.waiting.erase (.l3c i) ≠ []) ∧ (Packet.hsReq
    (.l3c i) ∈ s.dev.packets) ∧ (Packet.hsAccept (.l3c i) ∉ s.dev.packets) ∧ (s.dev.isolated i = false)) ∧
  (∃ (s : State) (n t : Nat), (s.dev.powered = true) ∧ (s.dev.powerBusy = false) ∧ (Packet.hsReq (.leaf n) ∈ s.dev.packets) ∧ (Packet.hsAccept (.leaf n) ∉ s.dev.packets) ∧
    (s.dev.isolated (s.dev.leafSite n) = false) ∧ (n ∈ s.dev.power.leafOff) ∧ (n ∉ s.dev.power.leafDelayed) ∧ (t ≤ s.dev.get PWR_HS_BOUND.DELAY_US)) ∧
  (∃ (s : State) (n : Nat), (s.dev.powered = true) ∧ (s.dev.powerBusy = false) ∧ (n ∈ s.dev.power.leafOff)) ∧
  (∃ (s : State) (i target : Nat) (c : Instr), (s.dev.powered = true) ∧ (s.dev.powerBusy = false) ∧ (s.dev.flag PWR_BOUGH_CTL.BUSY = false) ∧ ((c = .boughDormantEntry i ∧
    target = 1) ∨ (c = .boughOffEntry i ∧ target = 2))) ∧
  (∃ (s : State) (i : Nat) (r : TrainResult), (s.dev.powered = true) ∧ (s.dev.powerBusy = false) ∧ (s.dev.siteActive i = true) ∧ (s.dev.wakeDue i = true) ∧ (s.dev.bstate i
    = 2) ∧ ((∀ p ∈ s.dev.packets, s.dev.towards i p = none))) ∧
  (∃ (s : State) (req : Requester) (i n : Nat), (s.dev.powered = true) ∧ (s.dev.powerBusy = false) ∧ (mayRequest req = true) ∧ (i < 28) ∧ (s.dev.siteActive i = true) ∧ (n ∈
    s.dev.siteLeaves i) ∧ (s.dev.pstate n ≠ 2)) ∧
  (∃ (s : State) (c : Instr) (req : Requester), (s.dev.powered = true) ∧ (mayRequest req = false) ∧ (c = .pwrStandbyReq req ∨ c = .pwrSleepReq req ∨ c = .pwrWakeReq req)) ∧
  (∃ (s : State) (p : PackageEntry), (s.dev.powered = true) ∧ (s.dev.power.package = some p) ∧ (p.step = 1) ∧ (p.accepted = [])) ∧
  (∃ (s : State) (req : Requester), (s.dev.powered = true) ∧ (mayRequest req = true) ∧ (s.dev.get PWR_PKG_CTL.STATE = 2)) ∧
  (∃ (s : State) (m : Nat), (s.dev.powered = true) ∧ (s.dev.powerBusy = false) ∧ (m < 16) ∧ (s.dev.channelPresent m = true) ∧ (s.dev.memState m = 6)) :=
  ⟨⟨W { puts b0 [(BGH_LEAF_STAT.PSTATE, 1, 0, 0)] with power := { leafOff := [0] }, wire := [{ pkt := .hsReq (.leaf 0) }] }, 0,
     by (repeat' apply And.intro) <;> first | decide +kernel | rfl⟩,
   ⟨W { b0 with power := { entries := [(1, { target := 1, waiting := [.l3c 1, .leaf 16] })] }, wire := [{ pkt := .hsReq (.l3c 1) }] }, 1,
     { target := 1, waiting := [.l3c 1, .leaf 16] },
     by (repeat' apply And.intro) <;> first | decide +kernel | rfl⟩,
   ⟨W { b0 with power := { leafOff := [0] }, wire := [{ pkt := .hsReq (.leaf 0) }] }, 0, 0,
     by (repeat' apply And.intro) <;> first | decide +kernel | rfl⟩,
   ⟨W { b0 with power := { leafOff := [31] } }, 31,
     by (repeat' apply And.intro) <;> first | decide +kernel | rfl⟩,
   ⟨W b0, 1, 2, .boughOffEntry 1,
     by
     (repeat' apply And.intro) <;> first | decide +kernel | rfl | exact Or.inr ⟨rfl, rfl⟩⟩,
   ⟨W { puts b0 [(⟨.PWR_BSTATE, 3, 2⟩, 2, 0, 0)] with power := { wake := [1] } }, 1, { strap := 1 },
     by (repeat' apply And.intro) <;> first | decide +kernel | rfl⟩,
   ⟨W b0, .leaf 31 .machine, 1, 31,
     by (repeat' apply And.intro) <;> first | decide +kernel | rfl⟩,
   ⟨W b0, .pwrWakeReq .bmc, .bmc,
     by
     (repeat' apply And.intro) <;> first | decide +kernel | rfl | exact Or.inr (Or.inr rfl)⟩,
   ⟨W { b0 with power := { package := some { sleep := false } } }, { sleep := false },
     by (repeat' apply And.intro) <;> first | decide +kernel | rfl⟩,
   ⟨W (puts b0 [(PWR_PKG_CTL.STATE, 2, 0, 0)]), .mgmt,
     by (repeat' apply And.intro) <;> first | decide +kernel | rfl⟩,
   ⟨W (puts b0 [(MEM_STAT.STATE, 6, 15, 0)]), 15,
     by (repeat' apply And.intro) <;> first | decide +kernel | rfl⟩⟩

/-- States and operands that meet the hypotheses of ClocksResetsAndAgeing, clause by clause. -/
theorem test_meets_clocks_resets_and_ageing :
  (∃ (s : State) (i mask : Nat), (s.dev.powered = true) ∧ (s.dev.siteActive i = true) ∧ (mask % 2 ^ 16 ≠ 0)) ∧
  (∃ (s : State) (n : Nat), (s.dev.powered = true) ∧ (s.dev.leafPresent n = true) ∧ (s.dev.switchDue n = true) ∧ (s.dev.pstate n = 1) ∧ ((s.dev.leaf n).misses = [])) ∧
  (∃ (s : State) (i : Nat), (s.dev.powered = true) ∧ (s.dev.siteActive i = true) ∧ (s.dev.flag BPW_STAT.PLL_LOCK i = true)) ∧
  (∃ (s : State), (s.dev.powered = true) ∧ (s.dev.flag CLK_STAT.LOCK = true)) ∧
  (∃ (s : State) (i n : Nat), (s.dev.powered = true) ∧ (s.dev.powerBusy = false) ∧ (s.dev.flag RST_CMD.BUSY = false) ∧ (s.dev.siteActive i = true) ∧ (s.dev.isolated i =
    false) ∧ (s.dev.bstate i = 0) ∧ (n ∈ s.dev.siteLeaves i) ∧ ((s.dev.leaf n).misses ≠ [])) ∧
  (∃ (s : State) (o : ResetOp), (s.dev.powered = true) ∧ (s.dev.power.reset = some o) ∧ (o.step < 5) ∧ (s.dev.siteActive o.site = true)) ∧
  (∃ (s : State) (i : Nat), (s.dev.powered = true) ∧ (s.dev.flag RST_CMD.BUSY = false) ∧ (s.dev.siteActive i = true) ∧ (i ∉ s.dev.power.waking) ∧ (i ∉ s.dev.power.wake)) ∧
  (∃ (s : State) (n : Nat), (s.dev.powered = true) ∧ (s.dev.flag RST_CMD.BUSY = false) ∧ (n < 16 * s.dev.boughsB) ∧ (s.dev.boughOn (s.dev.leafSite n) = true) ∧
    (s.dev.pstate n ≠ 3)) ∧
  (∃ (s : State) (n : Nat), (s.dev.powered = true) ∧ (s.dev.flag RST_CMD.BUSY = false) ∧ (n < 16 * s.dev.boughsB) ∧ (s.dev.hasLee = true) ∧ (s.dev.boughOn (s.dev.leafSite
    n) = true)) ∧
  (∃ (s : State) (c : Instr), (s.dev.powered = true) ∧ (c = .orderlyBoughReset 31 ∨ c = .forcedBoughReset 31 ∨ c = .leafReset 511 ∨ c = .leeReset 511)) ∧
  (∃ (s : State) (c : Instr), (s.dev.powered = true) ∧ (s.dev.flag AGE_CMD.BUSY = false) ∧ (c = .ageReplan ∨ (c = .ageReplanPeriod ∧ s.dev.get AGE_CTL.PERIOD_H ≠ 0 ∧
    s.dev.get PWR_PKG_CTL.STATE = 0))) ∧
  (∃ (s : State) (x m gb : Nat) (ros reps : List Nat), (s.dev.powered = true) ∧ (x < 29) ∧ (s.dev.flag AGE_DIE.MEAS 0 x = true) ∧ (m = marginOf reps) ∧ (gb = s.dev.get
    AGE_DIE.GB 0 x) ∧ (gb ≤ 20)) ∧
  (∃ (s : State) (x : Nat), (s.dev.powered = true) ∧ (x ∈ s.dev.power.settling)) :=
  ⟨⟨W b0, 1, 0x8000,
     by (repeat' apply And.intro) <;> first | decide +kernel | rfl⟩,
   ⟨W (puts b0 [(BPW_CLK_SW.SW, 0x8000, 1, 0), (BGH_LEAF_STAT.PSTATE, 1, 1, 15)]), 31,
     by (repeat' apply And.intro) <;> first | decide +kernel | rfl⟩,
   ⟨W (puts b0 [(BPW_STAT.PLL_LOCK, 1, 1, 0)]), 1,
     by (repeat' apply And.intro) <;> first | decide +kernel | rfl⟩,
   ⟨W b0,
     by (repeat' apply And.intro) <;> first | decide +kernel | rfl⟩,
   ⟨W { b0 with leaves := [(31, { misses := [{ addr := 0, kind := .prefetch .read }] })] }, 1, 31,
     by (repeat' apply And.intro) <;> first | decide +kernel | rfl⟩,
   ⟨W { b0 with power := { reset := some ⟨1, 4, false, false⟩ } }, ⟨1, 4, false, false⟩,
     by (repeat' apply And.intro) <;> first | decide +kernel | rfl⟩,
   ⟨W b0, 1,
     by (repeat' apply And.intro) <;> first | decide +kernel | rfl⟩,
   ⟨W b0, 31,
     by (repeat' apply And.intro) <;> first | decide +kernel | rfl⟩,
   ⟨W b0, 31,
     by (repeat' apply And.intro) <;> first | decide +kernel | rfl⟩,
   ⟨W b0, .leeReset 511,
     by
     (repeat' apply And.intro) <;> first | decide +kernel | rfl | exact Or.inr (Or.inr (Or.inr rfl))⟩,
   ⟨W b0, .ageReplan,
     by
     (repeat' apply And.intro) <;> first | decide +kernel | rfl | exact Or.inl rfl⟩,
   ⟨W (puts b0 [(AGE_DIE.MEAS, 1, 0, 28), (AGE_DIE.GB, 20, 0, 28)]), 28, 7, 20, [], [7],
     by (repeat' apply And.intro) <;> first | decide +kernel | rfl⟩,
   ⟨W { b0 with power := { settling := [28] } }, 28,
     by (repeat' apply And.intro) <;> first | decide +kernel | rfl⟩⟩

/-- States and operands that meet the hypotheses of PackageResets, clause by clause. -/
theorem test_meets_package_resets :
  (∃ (s : State), (s.dev.powered = true) ∧ (s.dev.board.resetN = true) ∧ (s.dev.mgmt.background = none)) ∧
  (∃ (s : State), (s.dev.powered = false) ∧ (s.dev.lifeless) ∧ (s.dev.board.resetN = true)) ∧
  (∃ (s : State) (level : Nat), (s.dev.powered = true) ∧ (s.dev.board.resetN = false) ∧ (level = s.dev.board.coming.head?.getD s.dev.board.straps % 8)) ∧
  (∃ (s : State) (c : WarmCause) (a : Nat), (s.dev.powered = true) ∧ (s.dev.board.resetN = true) ∧ (s.dev.board.refclk = true) ∧ (s.dev.board.warm = some c) ∧ (a =
    s.dev.chooseDirectory.vActive) ∧ (s.dev.chooseDirectory.inTrial .vendor = false)) ∧
  (∃ (s : State), (s.dev.powered = true) ∧ (s.dev.board.resetN = true) ∧ (s.dev.board.refclk = true) ∧ (s.dev.board.warm = none) ∧ (s.dev.board.flashDead = true)) ∧
  (∃ (s : State), (s.dev.powered = true) ∧ (s.dev.flag PWR_RTC_ALARM.EN = true) ∧ (s.dev.get PWR_RTC_ALARM.CMP ≤ s.dev.get PWR_RTC.COUNT)) ∧
  (∃ (s : State), (s.dev.board.vstby = true) ∧ (s.dev.board.pwrOk = true) ∧ (s.dev.board.stopped = false) ∧ (s.dev.power.unpowered = true) ∧ (s.dev.flag PWR_RTC_ALARM.EN =
    true) ∧ (s.dev.get PWR_RTC_ALARM.CMP ≤ s.dev.get PWR_RTC.COUNT)) ∧
  (∃ (s : State), (s.dev.board.vstby = true) ∧ (s.dev.board.pwrOk = false)) ∧
  (∃ (s : State), (s.dev.powered = true) ∧ (s.dev.board.booting = true) ∧ (s.dev.flag MBX_FW.READY = false)) ∧
  (∃ (s : State), (s.dev.powered = true)) ∧
  (∃ (s : State), (s.dev.powered = true)) :=
  ⟨⟨W b0,
     by (repeat' apply And.intro) <;> first | decide +kernel | rfl⟩,
   ⟨W { board := { pwrOk := false } },
     by (repeat' apply And.intro) <;> first | decide +kernel | rfl⟩,
   ⟨W { b0 with board := { sampled := true, resetN := false, warm := some .pin, coming := [13] } }, 5,
     by (repeat' apply And.intro) <;> first | decide +kernel | rfl⟩,
   ⟨W { b0 with board := { sampled := true, warm := some .mgmt } }, .mgmt, 0,
     by (repeat' apply And.intro) <;> first | decide +kernel | rfl⟩,
   ⟨W { b0 with board := { sampled := true, flashDead := true } },
     by (repeat' apply And.intro) <;> first | decide +kernel | rfl⟩,
   ⟨W (puts b0 [(PWR_RTC_ALARM.EN, 1, 0, 0)]),
     by (repeat' apply And.intro) <;> first | decide +kernel | rfl⟩,
   ⟨W { puts b0 [(PWR_RTC_ALARM.EN, 1, 0, 0)] with power := { unpowered := true } },
     by (repeat' apply And.intro) <;> first | decide +kernel | rfl⟩,
   ⟨W { board := { pwrOk := false } },
     by (repeat' apply And.intro) <;> first | decide +kernel | rfl⟩,
   ⟨W { puts b0 [(MBX_FW.READY, 0, 0, 0)] with board := { booting := true } },
     by (repeat' apply And.intro) <;> first | decide +kernel | rfl⟩,
   ⟨W b0,
     by (repeat' apply And.intro) <;> first | decide +kernel | rfl⟩,
   ⟨W b0,
     by (repeat' apply And.intro) <;> first | decide +kernel | rfl⟩⟩

/-- States and operands that meet the hypotheses of SuppliesAndPins, clause by clause. -/
theorem test_meets_supplies_and_pins :
  (∃ (s : State) (c : Instr) (die : Nat), (s.dev.board.vstby = true) ∧ (s.dev.board.pwrOk = true) ∧ (die < 29) ∧ (c = .pwrOkDeassert ∨ (c = .supplyUndervoltage ∧
    s.dev.board.stopped = false) ∨ c = .thermtrip die)) ∧
  (∃ (s : State), (s.dev.board.vstby = true)) ∧
  (∃ (s : State), (s.dev.board.vstby = false) ∧ (s.dev.board.pwrOk = false) ∧ (s.dev.lifeless)) ∧
  (∃ (s : State) (t p : Bool), (s.dev.powered = true)) :=
  ⟨⟨W b0, .thermtrip 28, 28,
     by
     (repeat' apply And.intro) <;> first | decide +kernel | rfl | exact Or.inr (Or.inr rfl)⟩,
   ⟨W b0,
     by (repeat' apply And.intro) <;> first | decide +kernel | rfl⟩,
   ⟨W { board := { vstby := false, pwrOk := false } },
     by (repeat' apply And.intro) <;> first | decide +kernel | rfl⟩,
   ⟨W b0, true, true,
     by (repeat' apply And.intro) <;> first | decide +kernel | rfl⟩⟩

/-- States and operands that meet the hypotheses of ManagementCommands, clause by clause. -/
theorem test_meets_management_commands :
  (∃ (s : State) (c : Instr) (p : CmdPort) (seq a n cmp op t i : Nat) (k : PartKind) (mask : Word) (l : List Byte), (s.dev.powered = true) ∧ (s.dev.board.sampled = true) ∧
    (p = .bmc seq false) ∧ (c ∈ [Instr.info p, .telemetry p, .regRead p a n, .pkgStandby p, .pkgSleep p cmp, .pkgWake p, .resetWarm p, .resetUnit p op t, .enterSafe p,
    .sevClear p i mask, .siStageBegin p k, .siStageWrite p a l, .siStageCheck p, .siStageAbort p, .siCommit p n, .siConfirm p k, .siAdvanceFloor p k, .siEnrolKey p l,
    .siRevokeKey p l, .fwStageBegin p, .fwStageWrite p a l, .fwStageCheck p, .fwStageAbort p, .fwRevert p, .attestKey p, .attestQuote p])) ∧
  (∃ (s : State) (c : Instr) (seq : Nat), (s.dev.powered = true) ∧ (s.dev.board.sampled = true) ∧ (c = .attestKey (.bmc seq true) ∨ c = .attestQuote (.bmc seq true))) ∧
  (∃ (s : State) (len : Nat), (s.dev.mailboxAsks 0x18 len)) ∧
  (∃ (s : State) (c : Instr) (p : CmdPort) (seq cmp op t i : Nat) (mask : Word), (s.dev.powered = true) ∧ (s.dev.board.sampled = true) ∧ (s.dev.flag MBX_FW.READY = false ∨
    s.dev.mgmt.firmware = none) ∧ (p = .bmc seq true) ∧ ((c = .resetWarm p → s.dev.mgmt.firmware = none ∨ s.dev.get SIM_STAT.STATE ≠ 3)) ∧ (c ∈ [Instr.info p, .telemetry
    p, .pkgStandby p, .pkgSleep p cmp, .pkgWake p, .resetWarm p, .resetUnit p op t, .enterSafe p, .sevClear p i mask])) ∧
  (∃ (s : State) (c : Instr) (p : CmdPort) (seq a n : Nat) (k : PartKind) (l : List Byte) (j : FlashJob), (s.dev.powered = true) ∧ (s.dev.board.sampled = true) ∧
    (s.dev.mgmt.background = some j) ∧ (p = .bmc seq true) ∧ (c ∈ [Instr.siStageBegin p k, .siStageWrite p a l, .siStageCheck p, .siStageAbort p, .siCommit p n,
    .siConfirm p k, .siAdvanceFloor p k, .siEnrolKey p l, .siRevokeKey p l, .fwStageBegin p, .fwStageWrite p a l, .fwStageCheck p, .fwStageAbort p, .fwRevert p])) ∧
  (∃ (s : State) (seq : Nat), (s.dev.manages)) ∧
  (∃ (s : State) (seq : Nat), (s.dev.manages)) ∧
  (∃ (s : State) (seq : Nat), (s.dev.powered = true) ∧ (s.dev.board.sampled = true)) ∧
  (∃ (s : State) (seq a n : Nat), (s.dev.powered = true) ∧ (s.dev.board.sampled = true) ∧ (n = 0 ∨ 16 < n ∨ a % 8 ≠ 0) ∧ (s.dev.accessWaits .mgmt a 8 false 0 = none)) ∧
  (∃ (s : State) (seq a : Nat), (s.dev.powered = true) ∧ (s.dev.board.sampled = true) ∧ (a % 8 = 0) ∧ (rangeOf a = .regs) ∧ (mbxAddr a = false) ∧ (s.dev.fwPermits 7 0 false
    a = false) ∧ (s.dev.accessWaits .mgmt a 8 false 0 = none)) ∧
  (∃ (s : State) (seq i n : Nat), (s.dev.manages) ∧ (s.dev.powerBusy = false) ∧ (i < 28) ∧ (s.dev.siteActive i = true) ∧ (n ∈ s.dev.siteLeaves i) ∧ (s.dev.pstate n ≠ 2)) ∧
  (∃ (s : State) (seq cmp : Nat), (s.dev.manages) ∧ (s.dev.get PWR_PKG_CTL.STATE = 2) ∧ (cmp < 2 ^ 48)) ∧
  (∃ (s : State) (seq m : Nat), (s.dev.manages) ∧ (s.dev.powerBusy = false) ∧ (m < 16) ∧ (s.dev.channelPresent m = true) ∧ (s.dev.memState m = 6)) ∧
  (∃ (s : State) (seq : Nat), (s.dev.manages)) ∧
  (∃ (s : State) (seq n : Nat), (s.dev.manages) ∧ (s.dev.flag RST_CMD.BUSY = false) ∧ (n < 16 * s.dev.boughsB) ∧ (s.dev.hasLee = true) ∧ (s.dev.boughOn (s.dev.leafSite n) =
    true)) ∧
  (∃ (s : State) (seq op t : Nat), (s.dev.manages) ∧ (op = 0 ∨ 8 < op)) ∧
  (∃ (s : State) (seq : Nat), (s.dev.manages)) ∧
  (∃ (s : State) (seq i : Nat) (mask : Word), (s.dev.manages) ∧ (s.dev.flag CMP_CTL.EN = false)) ∧
  (∃ (s : State) (len : Nat), (s.dev.mailboxAsks 0x40 len)) ∧
  (∃ (s : State) (len : Nat), (s.dev.mailboxAsks 0x41 len)) :=
  ⟨⟨W b0, .info (.bmc 0 false), .bmc 0 false, 0, 0, 0, 0, 0, 0, 0, .vendor, 0, [],
     by
     (repeat' apply And.intro) <;> first | decide +kernel | rfl | exact List.mem_cons_self⟩,
   ⟨W b0, .attestQuote (.bmc 0 true), 0,
     by
     (repeat' apply And.intro) <;> first | decide +kernel | rfl | exact Or.inr rfl⟩,
   ⟨W { b0 with mgmt := { firmware := some 0, mailbox := some (0x18, 0, 5) } }, 0,
     by
     (repeat' apply And.intro) <;> first | decide +kernel | rfl | exact ⟨_, rfl⟩⟩,
   ⟨W { b0 with mgmt := {} }, .info (.bmc 0 true), .bmc 0 true, 0, 0, 0, 0, 0, 0,
     by
     (repeat' apply And.intro) <;> first | decide +kernel | rfl | exact Or.inr rfl | exact List.mem_cons_self⟩,
   ⟨W { b0 with mgmt := { background := some ⟨0, 0, []⟩ } }, .siStageBegin (.bmc 0 true) .vendor, .bmc 0 true, 0, 0, 0, .vendor, [], ⟨0, 0, []⟩,
     by
     (repeat' apply And.intro) <;> first | decide +kernel | rfl | exact List.mem_cons_self⟩,
   ⟨W b0, 255,
     by (repeat' apply And.intro) <;> first | decide +kernel | rfl⟩,
   ⟨W b0, 0,
     by (repeat' apply And.intro) <;> first | decide +kernel | rfl⟩,
   ⟨W b0, 0,
     by (repeat' apply And.intro) <;> first | decide +kernel | rfl⟩,
   ⟨W b0, 0, krb, 17,
     by
     (repeat' apply And.intro) <;> first | decide +kernel | rfl | exact Or.inr (Or.inl (by decide))⟩,
   ⟨W { b0 with firewall := [(0, { base := 0xF0000010, limit := 0xF0000010, en := true })] }, 0, krb + 0x10FF8,
     by (repeat' apply And.intro) <;> first | decide +kernel | rfl⟩,
   ⟨W b0, 0, 1, 31,
     by (repeat' apply And.intro) <;> first | decide +kernel | rfl⟩,
   ⟨W (puts b0 [(PWR_PKG_CTL.STATE, 2, 0, 0)]), 0, 2 ^ 48 - 1,
     by (repeat' apply And.intro) <;> first | decide +kernel | rfl⟩,
   ⟨W (puts b0 [(MEM_STAT.STATE, 6, 15, 0)]), 0, 15,
     by (repeat' apply And.intro) <;> first | decide +kernel | rfl⟩,
   ⟨W b0, 0,
     by (repeat' apply And.intro) <;> first | decide +kernel | rfl⟩,
   ⟨W b0, 0, 31,
     by (repeat' apply And.intro) <;> first | decide +kernel | rfl⟩,
   ⟨W b0, 0, 9, 0,
     by
     (repeat' apply And.intro) <;> first | decide +kernel | rfl | exact Or.inr (by decide)⟩,
   ⟨W b0, 0,
     by (repeat' apply And.intro) <;> first | decide +kernel | rfl⟩,
   ⟨W b0, 0, 15, 1,
     by (repeat' apply And.intro) <;> first | decide +kernel | rfl⟩,
   ⟨W { b0 with mgmt := { firmware := some 0, mailbox := some (0x40, 0, 5) } }, 0,
     by
     (repeat' apply And.intro) <;> first | decide +kernel | rfl | exact ⟨_, rfl⟩⟩,
   ⟨W { b0 with mgmt := { firmware := some 0, mailbox := some (0x41, 0, 5) } }, 0,
     by
     (repeat' apply And.intro) <;> first | decide +kernel | rfl | exact ⟨_, rfl⟩⟩⟩

/-- States and operands that meet the hypotheses of StagingAndCommit, clause by clause. -/
theorem test_meets_staging_and_commit :
  (∃ (s : State) (c : Instr) (seq slot : Nat) (k : PartKind), (s.dev.listens) ∧ (s.dev.warmBusy = false) ∧ ((c = .siStageBegin (.bmc seq true) k ∧ k ≠ .firmware ∧ slot = 1
    - s.dev.mgmt.dir.active k) ∨ (c = .fwStageBegin (.bmc seq true) ∧ k = .firmware ∧ slot = (s.dev.mgmt.firmware.map (1 - ·)).getD 0))) ∧
  (∃ (s : State) (seq : Nat), (s.dev.listens)) ∧
  (∃ (s : State) (c : Instr) (seq off : Nat) (l : List Byte) (fw : Bool), (s.dev.listens) ∧ ((c = .siStageWrite (.bmc seq true) off l ∧ fw = false) ∨ (c = .fwStageWrite
    (.bmc seq true) off l ∧ fw = true))) ∧
  (∃ (s : State) (c : Instr) (seq : Nat) (x : Session) (fail : Option Nat), (s.dev.listens) ∧ (s.dev.mgmt.session = some x) ∧ ((c = .siStageCheck (.bmc seq true) ∧ x.kind =
    .vendor ∧ fail = failOf (s.dev.checkVendor (s.dev.flashBlob (slotBase .vendor x.slot)))) ∨ (c = .siStageCheck (.bmc seq true) ∧ x.kind = .owner ∧ fail = failOf
    (s.dev.checkOwner (s.dev.flashBlob (slotBase .owner x.slot)) (s.dev.get TRK_ID.BEHAVIOUR))) ∨ (c = .fwStageCheck (.bmc seq true) ∧ x.kind = .firmware ∧
    s.dev.mgmt.firmware = none ∧ fail = failOf (s.dev.checkFirmware (s.dev.flashBlob (slotBase .firmware x.slot)))))) ∧
  (∃ (s : State) (seq : Nat) (x : Session), (s.dev.listens) ∧ (s.dev.mgmt.session = some x) ∧ (x.kind = .firmware) ∧ (s.dev.mgmt.firmware.isSome = true)) ∧
  (∃ (s : State) (c : Instr) (seq : Nat) (x : Session), (s.dev.listens) ∧ (s.dev.mgmt.session = some x) ∧ ((c = .siStageAbort (.bmc seq true) ∧ x.kind ≠ .firmware) ∨ (c =
    .fwStageAbort (.bmc seq true) ∧ x.kind = .firmware) ∨ c = .sessionTimeout)) ∧
  (∃ (s : State) (c : Instr) (seq n : Nat), (s.dev.listens) ∧ (s.dev.warmBusy = false) ∧ (c = .siCommit (.bmc seq true) n ∨ c = .siStageAbort (.bmc seq true) ∨ c =
    .fwStageAbort (.bmc seq true) ∨ c = .siStageCheck (.bmc seq true) ∨ c = .fwStageCheck (.bmc seq true)) ∧ (s.dev.mgmt.session = none)) ∧
  (∃ (s : State) (seq n : Nat) (x : Session), (s.dev.listens) ∧ (s.dev.warmBusy = false) ∧ (s.dev.mgmt.session = some x) ∧ (x.kind ≠ .firmware)) ∧
  (∃ (s : State) (seq : Nat) (k : PartKind), (s.dev.listens)) ∧
  (∃ (s : State) (seq : Nat) (k : PartKind), (s.dev.listens)) ∧
  (∃ (s : State) (j : FlashJob), (s.dev.powered = true) ∧ (s.dev.mgmt.background = some j)) ∧
  (∃ (s : State), (s.dev.powered = true) ∧ (s.dev.mgmt.background.isSome = true)) ∧
  (∃ (s : State) (seq f : Nat), (s.dev.listens) ∧ (s.dev.mgmt.firmware = some f)) ∧
  (∃ (s : State) (seq : Nat), (s.dev.listens) ∧ (s.dev.mgmt.firmware = none)) :=
  ⟨⟨W b0, .siStageBegin (.bmc 0 true) .owner, 0, 1, .owner,
     by
     (repeat' apply And.intro) <;> first | decide +kernel | rfl | exact Or.inl ⟨rfl, by decide, rfl⟩⟩,
   ⟨W b0, 0,
     by (repeat' apply And.intro) <;> first | decide +kernel | rfl⟩,
   ⟨W { b0 with mgmt := { firmware := some 0, session := some { kind := .owner, slot := 1 } } }, .siStageWrite (.bmc 0 true) 0 [], 0, 0, [], false,
     by
     (repeat' apply And.intro) <;> first | decide +kernel | rfl | exact Or.inl ⟨rfl, rfl⟩⟩,
   ⟨W { b0 with mgmt := { firmware := some 0, session := some { kind := .vendor, slot := 1 } } }, .siStageCheck (.bmc 0 true), 0, { kind := .vendor, slot := 1 }, _,
     by
     (repeat' apply And.intro) <;> first | decide +kernel | rfl | exact Or.inl ⟨rfl, rfl, rfl⟩⟩,
   ⟨W { b0 with mgmt := { firmware := some 0, session := some { kind := .firmware, slot := 1 } } }, 0, { kind := .firmware, slot := 1 },
     by (repeat' apply And.intro) <;> first | decide +kernel | rfl⟩,
   ⟨W { b0 with mgmt := { firmware := some 0, session := some { kind := .owner, slot := 1 } } }, .sessionTimeout, 0, { kind := .owner, slot := 1 },
     by
     (repeat' apply And.intro) <;> first | decide +kernel | rfl | exact Or.inr (Or.inr rfl)⟩,
   ⟨W b0, .siCommit (.bmc 0 true) 3, 0, 3,
     by
     (repeat' apply And.intro) <;> first | decide +kernel | rfl | exact Or.inl rfl⟩,
   ⟨W { b0 with mgmt := { firmware := some 0, session := some { kind := .owner, slot := 1 } } }, 0, 3, { kind := .owner, slot := 1 },
     by (repeat' apply And.intro) <;> first | decide +kernel | rfl⟩,
   ⟨W b0, 0, .vendor,
     by (repeat' apply And.intro) <;> first | decide +kernel | rfl⟩,
   ⟨W b0, 0, .owner,
     by (repeat' apply And.intro) <;> first | decide +kernel | rfl⟩,
   ⟨W { b0 with mgmt := { background := some ⟨0, 0, []⟩ } }, ⟨0, 0, []⟩,
     by (repeat' apply And.intro) <;> first | decide +kernel | rfl⟩,
   ⟨W { b0 with mgmt := { background := some ⟨0, 0, []⟩ } },
     by (repeat' apply And.intro) <;> first | decide +kernel | rfl⟩,
   ⟨W b0, 0, 0,
     by (repeat' apply And.intro) <;> first | decide +kernel | rfl⟩,
   ⟨W { b0 with mgmt := {} }, 0,
     by (repeat' apply And.intro) <;> first | decide +kernel | rfl⟩⟩

/-- States and operands that meet the hypotheses of OwnerKeys, clause by clause. -/
theorem test_meets_owner_keys :
  (∃ (s : State) (seq : Nat) (obj : List Byte) (p : SignedPart) (x : Sect), (s.dev.listens) ∧ (parsePart (blobOf obj) 0x4B534550 obj.length 1 = some p) ∧ (p.sects = [x]) ∧
    (s.dev.fuse.slot0 = 0) ∧ (s.dev.fuse.slot1 = 0) ∧ (s.dev.get SIM_STAT.STATE = 2) ∧ (s.dev.get SIM_STAT.O_SRC = 2) ∧ (obj.length = p.len + 68) ∧ (blobZero (blobOf obj)
    p.len 68 = true) ∧ (x.typ = 0x201) ∧ (x.size = 32) ∧ (p.behaviour = 0)) ∧
  (∃ (s : State) (seq : Nat) (obj : List Byte) (p : SignedPart) (x : Sect), (s.dev.listens) ∧ (parsePart (blobOf obj) 0x4B534550 obj.length 1 = some p) ∧ (p.sects = [x]) ∧
    ((s.dev.fuse.slot p.slot).1 ≠ 0)) ∧
  (∃ (s : State) (seq : Nat) (obj : List Byte) (p : SignedPart), (s.dev.listens) ∧ (parsePart (blobOf obj) 0x4B535250 obj.length 1 = some p) ∧ (p.sects = []) ∧ (obj.length
    = p.len + 2888) ∧ ((s.dev.fuse.slot (1 - p.slot)).1 = 1) ∧ (p.keyHash (blobOf obj) = (s.dev.fuse.slot (1 - p.slot)).2) ∧ (p.uid = s.dev.fuse.uid) ∧ (p.behaviour = 0)) ∧
  (∃ (s : State) (seq : Nat) (obj : List Byte) (p : SignedPart), (s.dev.listens) ∧ (parsePart (blobOf obj) 0x4B535250 obj.length 1 = some p) ∧ (p.sects = []) ∧ (obj.length
    = p.len + 2888) ∧ ((s.dev.fuse.slot (1 - p.slot)).1 = 2)) :=
  ⟨⟨W (puts b0 [(SIM_STAT.O_SRC, 2, 0, 0)]), 0,
     ([0x50, 0x45, 0x53, 0x4B, 1, 0, 1, 0, 104] ++ List.replicate 55 0 ++ [1, 2, 0, 0, 0x28, 0, 0, 0] ++ List.replicate 32 0 ++ List.replicate 68 0),
     ⟨0, 0, 0, 0, 104, [⟨0x201, false, 72, 32⟩]⟩, ⟨0x201, false, 72, 32⟩,
     by
     (repeat' apply And.intro) <;> first | decide +kernel | simp⟩,
   ⟨W { b0 with fuse := { slot0 := 2 } }, 0, ([0x50, 0x45, 0x53, 0x4B, 1, 0, 1, 0, 104] ++ List.replicate 55 0 ++ [1, 2, 0, 0, 0x28, 0, 0, 0] ++ List.replicate 32 0),
     ⟨0, 0, 0, 0, 104, [⟨0x201, false, 72, 32⟩]⟩, ⟨0x201, false, 72, 32⟩,
     by
     (repeat' apply And.intro) <;> first | decide +kernel | simp⟩,
   ⟨W { b0 with fuse := { slot1 := 1, hash1 := SignedPart.keyHash ⟨0, 0, 0, 0, 64, []⟩ (blobOf ([0x50, 0x52, 0x53, 0x4B, 1, 0, 0, 0, 64] ++ List.replicate 55 0 ++ List.replicate 2888 0)) } },
     0, ([0x50, 0x52, 0x53, 0x4B, 1, 0, 0, 0, 64] ++ List.replicate 55 0 ++ List.replicate 2888 0), ⟨0, 0, 0, 0, 64, []⟩,
     ⟨⟨by decide +kernel, by decide +kernel, rfl⟩, by decide +kernel, rfl, by decide +kernel, by decide +kernel,
     by unfold Fuse.slot; rw [if_neg (by decide)], rfl, rfl⟩⟩,
   ⟨W { b0 with fuse := { slot1 := 2 } }, 0, ([0x50, 0x52, 0x53, 0x4B, 1, 0, 0, 0, 64] ++ List.replicate 55 0 ++ List.replicate 2888 0), ⟨0, 0, 0, 0, 64, []⟩,
     by
     (repeat' apply And.intro) <;> first | decide +kernel | simp⟩⟩

/-- States and operands that meet the hypotheses of TestAccessPort, clause by clause. -/
theorem test_meets_test_access_port :
  (∃ (s : State), (s.dev.powered = true)) ∧
  (∃ (s : State) (b : Bool), (s.dev.powered = true)) ∧
  (∃ (s : State) (w : Word), (s.dev.powered = true)) ∧
  (∃ (s : State) (w : Word), (s.dev.powered = true)) ∧
  (∃ (s : State) (a : Nat) (write : Bool) (v : Word) (op : DmiOp) (c : Instr), (s.dev.powered = true) ∧ (s.dev.mgmt.debug = false) ∧ (c = .jtagSysacc a write v ∨ c =
    .jtagDmi op)) ∧
  (∃ (s : State) (a : Nat) (v : Word), (s.dev.powered = true) ∧ (s.dev.mgmt.debug = true) ∧ (a % 8 = 0) ∧ (rangeOf a = .dram) ∧ (s.dev.backed a = true) ∧ (s.dev.fwPermits 8
    0 false a = true) ∧ ((s.dev.cohRead (a / 64)).poison = false) ∧ (s.dev.lineIdle (a / 64) = true)) ∧
  (∃ (s : State) (a : Nat) (write : Bool) (v : Word), (s.dev.powered = true) ∧ (s.dev.mgmt.debug = true) ∧ (a % 8 = 0) ∧ (s.dev.fwPermits 8 0 write a = false) ∧
    ((mainMemory a = true → s.dev.lineIdle (a / 64) = true))) ∧
  (∃ (s : State) (n : Nat), (s.dev.powered = true) ∧ (s.dev.mgmt.debug = true) ∧ (s.dev.debugReaches n = true) ∧ ((s.dev.leaf n).halted = false)) ∧
  (∃ (s : State) (n : Nat), (s.dev.powered = true) ∧ (s.dev.mgmt.debug = true) ∧ ((s.dev.leaf n).halted = true)) ∧
  (∃ (s : State) (n r : Nat) (v : Word), (s.dev.powered = true) ∧ (s.dev.mgmt.debug = true) ∧ ((s.dev.leaf n).halted = true) ∧ (0x1000 ≤ r) ∧ (r < 0x1020)) ∧
  (∃ (s : State) (n r : Nat) (v : Word), (s.dev.powered = true) ∧ (s.dev.mgmt.debug = true) ∧ ((s.dev.leaf n).halted = false)) :=
  ⟨⟨W b0,
     by (repeat' apply And.intro) <;> first | decide +kernel | rfl⟩,
   ⟨W b0, true,
     by (repeat' apply And.intro) <;> first | decide +kernel | rfl⟩,
   ⟨W b0, 1,
     by (repeat' apply And.intro) <;> first | decide +kernel | rfl⟩,
   ⟨W b0, 1,
     by (repeat' apply And.intro) <;> first | decide +kernel | rfl⟩,
   ⟨W b0, 0, true, 0, .halt 0, .jtagDmi (.halt 0),
     by
     (repeat' apply And.intro) <;> first | decide +kernel | rfl | exact Or.inr rfl⟩,
   ⟨W { b0 with mgmt := { debug := true } }, 8, 0,
     by (repeat' apply And.intro) <;> first | decide +kernel | rfl⟩,
   ⟨W { b0 with mgmt := { debug := true }, firewall := [(0, { base := 0, limit := 0, en := true })] }, 0xFF8, true, 0,
     by (repeat' apply And.intro) <;> first | decide +kernel | rfl⟩,
   ⟨W { b0 with mgmt := { debug := true } }, 31,
     by (repeat' apply And.intro) <;> first | decide +kernel | rfl⟩,
   ⟨W { b0 with mgmt := { debug := true }, leaves := [(31, { halted := true })] }, 31,
     by (repeat' apply And.intro) <;> first | decide +kernel | rfl⟩,
   ⟨W { b0 with mgmt := { debug := true }, leaves := [(31, { halted := true })] }, 31, 0x101F, 0,
     by (repeat' apply And.intro) <;> first | decide +kernel | rfl⟩,
   ⟨W { b0 with mgmt := { debug := true } }, 31, 0x1000, 0,
     by (repeat' apply And.intro) <;> first | decide +kernel | rfl⟩⟩

end Sys2Proof.Tests
end

section
/-!
PROOFS. What holds of every command, what reset leaves, and register accesses (spec/00_scope.md, R4 to R9).
-/

namespace Sys2Proof.Machine

/-! ### How a command acts on the state -/

/-- An operation of the dies leaves the queue alone. -/
theorem State.on_eq_withDev (s : State) (f : Dev → Dev) : ∃ d : Dev, s.on f = s.withDev d := by
  unfold State.on
  split
  · exact ⟨_, rfl⟩
  · exact ⟨s.dev, rfl⟩

/-- Settles O6, by the two shapes that a command's meaning has. -/
theorem everyCommandAnswersANextState : Obligations.EveryCommandAnswersANextState := by
  unfold Obligations.EveryCommandAnswersANextState
  intro c s
  rcases exec_shape c s with ⟨f, h⟩ | ⟨f, h⟩
  · obtain ⟨d, hd⟩ := s.on_eq_withDev f
    exact ⟨d, by rw [h, hd]⟩
  · exact ⟨(f s.dev).settled, h⟩

/-! ### The state after reset (R9, R370) -/

/-- Of the registers that a power-on reset writes from fuses and nonvolatile memory, TRK_ID alone gets a value that is not its Reset
value: VARIANT 1 and STEPPING 0x10 (assumption 8). -/
theorem State.reset_regs :
    State.reset.dev.regs = [(⟨.TRK_ID, 0, 0⟩, (Reg.reset ⟨.TRK_ID, 0, 0⟩).setBits 31 16 0x0110)] := by
  decide

/-- Settles O7: the register file lists TRK_ID alone, and an unlisted register reads its Reset value. -/
theorem resetLeavesResetValues : Obligations.ResetLeavesResetValues := by
  unfold Obligations.ResetLeavesResetValues
  refine ⟨rfl, rfl, rfl, rfl, rfl, fun r hr => ?_⟩
  simp [Dev.reg, State.reset_regs, KMap.find, hr.symm]

/-! ### Commands that end in an answer -/

/-- On powered dies, an operation that answers a requester, with the board and the power controller left as they were, leaves what it
has made of the package. -/
theorem State.on_answerTo (s : State) (f : Dev → Dev) (d : Dev) (req : Requester) (a : Nat) (v : Word) (e : Bool)
    (hp : s.dev.powered = true) (hf : f s.dev = d.answerTo req a v e) (hb : d.board = s.dev.board) (hw : d.power = s.dev.power) :
    s.on f = s.withDev (d.answerTo req a v e) := by
  rw [State.on_powered s f hp (by simp [hf, hb]) (by simp [hf, hw]), hf]

/-! ### Accesses to blocks of absent units (R4) -/

theorem exec_absentUnitAccess (req : Requester) (a : Nat) (write : Bool) (s : State) :
    exec (.absentUnitAccess req a write) s = .next (s.on (absentUnitEff req a write)) := rfl

/-- An access to an absent unit counts it and answers zero; the request of a read is no longer under way. -/
theorem exec_absentUnitAccess_absent (s : State) (req : Requester) (a : Nat) (write : Bool) (hp : s.dev.powered = true)
    (hr : rangeOf a = .regs) (ht : s.dev.regTarget req a = .absent) :
    exec (.absentUnitAccess req a write) s = .next (s.withDev
      ((if write then s.dev.absentAccess (a - krb) else (s.dev.absentAccess (a - krb)).takeAccess req a).answerTo req a 0 false)) := by
  have heff : absentUnitEff req a write s.dev = _ := if_pos ⟨hr, ht⟩
  rw [exec_absentUnitAccess, s.on_answerTo _ _ req a 0 false hp heff (by cases write <;> rfl) (by cases write <;> rfl)]

/-- Settles O9: a write and a read are the two cases of an access to an absent unit. -/
theorem absentUnitsReadZeroAndCount : Obligations.AbsentUnitsReadZeroAndCount := by
  unfold Obligations.AbsentUnitsReadZeroAndCount
  exact ⟨fun s req a => exec_absentUnitAccess_absent s req a true, fun s req a => exec_absentUnitAccess_absent s req a false⟩

/-! ### The fields of a register under a write (R7, R8) -/

/-- Two fields that share no bit. -/
abbrev FieldRow.beside (f g : FieldRow) : Prop := f.hi < g.lo ∨ g.hi < f.lo

/-- A field that lies within a register. -/
abbrev FieldRow.inWord (f : FieldRow) : Prop := f.lo ≤ f.hi ∧ f.hi < 64

/-- Every row of the register tables lies within its register, and shares no bit with another of the same register. -/
theorem RegName.fields_laidOut (n : RegName) : n.fields.Pairwise FieldRow.beside ∧ ∀ f ∈ n.fields, f.inWord := by
  cases n <;> decide

/-- What one field makes of a register in a write of `v`. -/
def FieldRow.write (f : FieldRow) (v w : Word) : Word :=
  match f.acc with
  | .rw => if f.min ≤ v.bits f.hi f.lo ∧ v.bits f.hi f.lo ≤ f.max then w.setBits f.hi f.lo (v.bits f.hi f.lo) else w
  | .w1c => w.setBits f.hi f.lo (w.bits f.hi f.lo &&& (2 ^ (f.hi - f.lo + 1) - 1 - v.bits f.hi f.lo))
  | .w1s => w.setBits f.hi f.lo (w.bits f.hi f.lo ||| v.bits f.hi f.lo)
  | .ro | .wo | .act => w

/-- The fields of a write take effect one by one. -/
theorem writeFields_cons (f : FieldRow) (l : List FieldRow) (old v : Word) :
    writeFields (f :: l) old v = writeFields l (f.write v old) v := rfl

/-- A field sets its own bits or nothing. -/
theorem FieldRow.write_eq (f : FieldRow) (v w : Word) : f.write v w = w ∨ ∃ x, f.write v w = w.setBits f.hi f.lo x := by
  unfold FieldRow.write
  split
  · split
    · exact .inr ⟨_, rfl⟩
    · exact .inl rfl
  · exact .inr ⟨_, rfl⟩
  · exact .inr ⟨_, rfl⟩
  all_goals exact .inl rfl

/-- A field that is written reads what its access type makes of its old and its written bits. -/
theorem FieldRow.bits_write_same (f : FieldRow) (v w : Word) (hf : f.inWord) :
    (f.write v w).bits f.hi f.lo = f.after (w.bits f.hi f.lo) (v.bits f.hi f.lo) := by
  obtain ⟨hlo, hhi⟩ := hf
  have reads : ∀ x, x < 2 ^ (f.hi - f.lo + 1) → (w.setBits f.hi f.lo x).bits f.hi f.lo = x := fun x hx => by
    rw [Word.bits_setBits_same _ _ _ _ hlo hhi, Nat.mod_eq_of_lt hx]
  have hw := w.bits_lt f.hi f.lo
  have hv := v.bits_lt f.hi f.lo
  unfold FieldRow.write FieldRow.after
  cases f.acc with
  | rw =>
    dsimp only
    split
    · exact reads _ hv
    · rfl
  | w1c => exact reads _ (Nat.lt_of_le_of_lt Nat.and_le_left hw)
  | w1s => exact reads _ (Nat.or_lt_two_pow hw hv)
  | ro | wo | act => rfl

/-- A field beside the one that is written keeps its bits. -/
theorem FieldRow.bits_write_beside (f g : FieldRow) (v w : Word) (hf : f.inWord) (hg : g.inWord) (h : f.beside g) :
    (f.write v w).bits g.hi g.lo = w.bits g.hi g.lo := by
  rcases f.write_eq v w with e | ⟨x, e⟩
  · rw [e]
  · rw [e, Word.bits_setBits_other _ _ _ _ _ _ hf.1 hf.2 hg.1 h]

/-- A write of fields that all lie beside a field leaves its bits alone. -/
theorem writeFields_bits_beside (l : List FieldRow) (g : FieldRow) (old v : Word) (hl : ∀ f ∈ l, f.inWord) (hg : g.inWord)
    (h : ∀ f ∈ l, g.beside f) : (writeFields l old v).bits g.hi g.lo = old.bits g.hi g.lo := by
  induction l generalizing old with
  | nil => rfl
  | cons f l ih =>
    rw [List.forall_mem_cons] at hl h
    rw [writeFields_cons, ih _ hl.2 h.2, f.bits_write_beside g v old hl.1 hg h.1.symm]

/-- Each field of a write reads what its access type makes of its bits, whatever the others do. -/
theorem writeFields_bits (l : List FieldRow) (old v : Word) (hd : l.Pairwise FieldRow.beside) (hl : ∀ f ∈ l, f.inWord) (g : FieldRow)
    (hg : g ∈ l) : (writeFields l old v).bits g.hi g.lo = g.after (old.bits g.hi g.lo) (v.bits g.hi g.lo) := by
  induction l generalizing old with
  | nil => cases hg
  | cons f l ih =>
    rw [List.forall_mem_cons] at hl
    obtain ⟨hf, hd⟩ := List.pairwise_cons.1 hd
    rw [writeFields_cons]
    rcases List.mem_cons.1 hg with rfl | hg
    · rw [writeFields_bits_beside l g _ v hl.2 hl.1 hf, g.bits_write_same v old hl.1]
    · rw [ih _ hd hl.2 hg, f.bits_write_beside g v old hl.1 (hl.2 g hg) (hf g hg)]

/-! ### The behaviour of a write beside its fields -/

/-- SIM and CLK command nothing. -/
theorem RegWrite.act_simClk (w : RegWrite) (d : Dev) (h : w.reg.name.block = .sim ∨ w.reg.name.block = .clk) : w.act d = d := by
  unfold RegWrite.act
  rcases h with h | h <;> rw [h]

/-- A plain register's write does nothing beside its fields. -/
theorem RegWrite.act_plain (w : RegWrite) (d : Dev) (h : plainRegister w.reg.name = true) : w.act d = d := by
  unfold RegWrite.act
  generalize hn : w.reg.name = n at h
  cases n <;> simp [plainRegister, RegName.block, powerWrite, faultWrite, mbxWrite, trcWrite, hn] at h ⊢

/-- No plain register belongs to a memory channel. -/
theorem plainRegister_block {n : RegName} (h : plainRegister n = true) : n.block ≠ .mem := by
  cases n <;> simp [plainRegister, RegName.block] at h ⊢

/-- Where a register's write has no behaviour of its own, its fields alone are written. -/
theorem Dev.writeReg_of_act (d : Dev) (w : RegWrite) (hb : w.reg.name.block ≠ .mem) (ha : ∀ x : Dev, w.act x = x) :
    d.writeReg w = d.setReg w.reg (writeFields w.reg.name.fields (d.reg w.reg) w.full) := by
  simp [Dev.writeReg, hb, ha]

/-! ### Writes on the register bus -/

/-- A write of a wrong size or alignment is an access error and stores nothing. -/
theorem Dev.regStore_misfit (d : Dev) (req : Requester) (a size : Nat) (v : Word) (h : (size ≠ 4 ∧ size ≠ 8) ∨ a % size ≠ 0) :
    d.regStore req a size v = (true, d) := by
  unfold Dev.regStore
  rw [if_pos]
  rcases h with ⟨h4, h8⟩ | h
  · simp [h4, h8]
  · simp [h]

/-- A 64-bit write that goes to a register is a write of it whole. -/
theorem Dev.regStore_whole (d : Dev) (req : Requester) (a : Nat) (v : Word) (r : Reg) (ha : a % 8 = 0)
    (ht : d.regTarget req a = .reg r) : ∃ w : RegWrite, w.reg = r ∧ w.full = v ∧ d.regStore req a 8 v = (false, d.writeReg w) :=
  ⟨{ req := req, reg := r, off := (if r.name.block = .lee then a % 0x10000 else 0) / 8 * 8, raw := v, full := v, lo := true, hi := true },
    rfl, rfl, by simp [Dev.regStore, ht, ha, placedBits, wholeWrite]⟩

/-- A 64-bit write of a register without a behaviour of its own sets its fields. -/
theorem Dev.regStore_fields (d : Dev) (req : Requester) (a : Nat) (v : Word) (r : Reg) (ha : a % 8 = 0)
    (ht : d.regTarget req a = .reg r) (hb : r.name.block ≠ .mem) (hact : ∀ (w : RegWrite) (x : Dev), w.reg = r → w.act x = x) :
    d.regStore req a 8 v = (false, d.setReg r (writeFields r.name.fields (d.reg r) v)) := by
  obtain ⟨w, rfl, rfl, hw⟩ := d.regStore_whole req a v r ha ht
  rw [hw, d.writeReg_of_act w hb fun x => hact w x rfl]

/-- Which accesses are still to be forwarded to a site depends on the fabric alone. -/
theorem Dev.forwarding_of {d d' : Dev} (h : d'.fabric = d.fabric) (n : Nat) : d'.forwarding n = d.forwarding n := by
  unfold Dev.forwarding Dev.gate
  rw [h]

/-- To an address that no held access waits for, nothing is to be forwarded. -/
theorem Dev.unheld.forwarding {d : Dev} {a n : Nat} (h : d.unheld a) (hn : siteOfAddr a = some n) : d.forwarding n = [] := by
  simpa [Dev.unheld, hn] using h

/-- Where nothing is to be forwarded, no access waits for another. -/
theorem Dev.heldBefore_nil {d : Dev} {n : Nat} (h : d.forwarding n = []) (p : SitePkt) : d.heldBefore n p = false := by
  simp [Dev.heldBefore, h]

/-- Where nothing is to be forwarded, an access that is made lets none follow. -/
theorem Dev.passHeld_nil {d : Dev} {n : Nat} (h : d.forwarding n = []) (p : SitePkt) : d.passHeld n p = d := by
  simp [Dev.passHeld, h]

@[simp] theorem Dev.answerTo_fabric (d : Dev) (req : Requester) (a : Nat) (v : Word) (e : Bool) :
    (d.answerTo req a v e).fabric = d.fabric := by
  obtain ⟨r, w, t, h⟩ := d.answerTo_frame req a v e; rw [h]

/-- A packet that can act where it goes acts. -/
theorem arrive_of_reaches {d : Dev} {p : Packet} (h : d.reaches p) (f : Dev → Dev) : arrive p f d = f d := by
  obtain ⟨ha, hh⟩ := h
  simp [arrive, ha, hh]

theorem exec_registerWrite_eq (req : Requester) (a size : Nat) (v : Word) (s : State) :
    exec (.registerWrite req a size v) s = .next (s.on (arrive (.reg req a size v) (registerWriteEff req a size v))) := rfl

/-- A write that no gate, no proxy and no held access stands before stores and answers. -/
theorem registerWriteEff_stores (d d' : Dev) (req : Requester) (a size : Nat) (v : Word) (err : Bool) (hr : rangeOf a = .regs)
    (hs : d.siteStands a = false) (hu : d.unheld a) (hst : (d.take (.reg req a size v)).regStore req a size v = (err, d'))
    (hf : d'.fabric = d.fabric) :
    registerWriteEff req a size v d = d'.answerTo req a (if err then BitVec.allOnes 64 else 0) err := by
  have hnone : ((siteOfAddr a).any fun n => d.heldBefore n (.regWrite req a size v)) = false := by
    cases hn : siteOfAddr a with
    | none => rfl
    | some n => exact Dev.heldBefore_nil (hu.forwarding hn) _
  unfold registerWriteEff
  simp only [hr, hs, hnone, hst, ne_eq, not_true_eq_false, Bool.false_and, Bool.false_eq_true, if_false]
  cases hn : siteOfAddr a with
  | none => rfl
  | some n =>
    have hpass := (Dev.forwarding_of ((d'.answerTo_fabric req a (if err then BitVec.allOnes 64 else 0) err).trans hf) n).trans
      (hu.forwarding hn)
    exact Dev.passHeld_nil hpass _

/-- REGISTER_WRITE of such a write, where what it stores changes registers alone. -/
theorem exec_registerWrite_stores (s : State) (req : Requester) (a size : Nat) (v : Word) (err : Bool) (g : KMap Reg Word)
    (hp : s.dev.powered = true) (hr : rangeOf a = .regs) (hs : s.dev.siteStands a = false) (hu : s.dev.unheld a)
    (hreach : s.dev.reaches (.reg req a size v))
    (hst : (s.dev.take (.reg req a size v)).regStore req a size v = (err, { s.dev.take (.reg req a size v) with regs := g })) :
    exec (.registerWrite req a size v) s = .next (s.withDev
      ({ s.dev.take (.reg req a size v) with regs := g }.answerTo req a (if err then BitVec.allOnes 64 else 0) err)) := by
  have heff := registerWriteEff_stores s.dev _ req a size v err hr hs hu hst rfl
  rw [exec_registerWrite_eq, s.on_answerTo _ _ req a _ err hp ((arrive_of_reaches hreach _).trans heff) rfl rfl]

/-- A 64-bit REGISTER_WRITE of a register without a behaviour of its own. -/
theorem exec_registerWrite_fields (s : State) (req : Requester) (a : Nat) (v : Word) (r : Reg)
    (hp : s.dev.powered = true) (hr : rangeOf a = .regs) (hs : s.dev.siteStands a = false) (hu : s.dev.unheld a) (ha : a % 8 = 0)
    (hreach : s.dev.reaches (.reg req a 8 v)) (ht : s.dev.regTarget req a = .reg r) (hb : r.name.block ≠ .mem)
    (hact : ∀ (w : RegWrite) (x : Dev), w.reg = r → w.act x = x) :
    exec (.registerWrite req a 8 v) s = .next (s.withDev
      (((s.dev.take (.reg req a 8 v)).setReg r (writeFields r.name.fields (s.dev.reg r) v)).answerTo req a 0 false)) :=
  exec_registerWrite_stores s req a 8 v false _ hp hr hs hu hreach
    (Dev.regStore_fields _ req a v r ha ((s.dev.regTarget_take _ req a).trans ht) hb hact)

/-- Settles O8: a misfit stores nothing, and the writes of its other clauses set the fields of one register and do nothing beside. -/
theorem registerWritesByAccessType : Obligations.RegisterWritesByAccessType := by
  unfold Obligations.RegisterWritesByAccessType
  refine ⟨?misfit, ?staged, ?readOnly, ?plain⟩
  case misfit =>
    intro s req a size v hp hr hs hu hreach hsize
    exact exec_registerWrite_stores s req a size v true _ hp hr hs hu hreach (Dev.regStore_misfit _ req a size v hsize)
  case staged =>
    intro s req a e v hp hr hs hu ha hreach ht
    have hone : writeFields (RegName.fields .TRK_FW_BASE) (s.dev.reg ⟨.TRK_FW_BASE, 0, e⟩) v
        = (s.dev.reg ⟨.TRK_FW_BASE, 0, e⟩).setBits 47 12 (v.bits 47 12) := writeFields_one 47 12 0 _ v
    rw [exec_registerWrite_fields s req a v _ hp hr hs hu ha hreach ht (plainRegister_block rfl) fun w x h => w.act_plain x (by rw [h]; rfl), hone]
    rfl
  case readOnly =>
    intro s req a v r hp hr hs hu ha hreach ht hblock hro
    have hmem : r.name.block ≠ .mem := by rcases hblock with h | h <;> simp [h]
    refine ⟨_, exec_registerWrite_fields s req a v r hp hr hs hu ha hreach ht hmem fun w x h => w.act_simClk x (h ▸ hblock), rfl,
      fun q => ?_⟩
    rw [writeFields_ro _ hro]
    exact Dev.reg_setReg_self (s.dev.take _) r q
  case plain =>
    intro s req a v r hp hr hs hu ha hreach ht hplain
    obtain ⟨hbeside, hin⟩ := r.name.fields_laidOut
    refine ⟨_, exec_registerWrite_fields s req a v r hp hr hs hu ha hreach ht (plainRegister_block hplain)
      fun w x h => w.act_plain x (h ▸ hplain), rfl, fun q hq => Dev.reg_setReg_other _ _ hq, fun f hf => ?_⟩
    rw [Dev.reg_setReg_same, writeFields_bits _ _ v hbeside hin f hf]

end Sys2Proof.Machine
end

section
/-!
PROOFS. What an operation leaves of memory, of the supply and of the registers that others own.
-/

namespace Sys2Proof.Machine

/-! ### What stays -/

/-- Memory, the board, the power controller and the registers of the names that `K` holds are as they were. -/
structure Dev.Stays (K : RegName → Bool) (d d' : Dev) : Prop where
  mem : d'.mem = d.mem
  board : d'.board = d.board
  power : d'.power = d.power
  reg : ∀ r : Reg, K r.name = true → d'.reg r = d.reg r

namespace Dev.Stays

variable {K : RegName → Bool} {d d' d'' : Dev}

theorem refl (d : Dev) : d.Stays K d := ⟨rfl, rfl, rfl, fun _ _ => rfl⟩

theorem trans (h : d.Stays K d') (h' : d'.Stays K d'') : d.Stays K d'' :=
  ⟨h'.mem.trans h.mem, h'.board.trans h.board, h'.power.trans h.power, fun r hr => (h'.reg r hr).trans (h.reg r hr)⟩

/-- What every step of a fold lets stay, the fold does. -/
theorem foldl {β : Type} {f : Dev → β → Dev} (hf : ∀ (x : Dev) (b : β), x.Stays K (f x b)) (l : List β) (d : Dev) : d.Stays K (l.foldl f d) :=
  List.foldlRecOn l f (refl d) fun _ h b _ => h.trans (hf _ b)

/-- A choice between what lets stay and nothing. -/
theorem ite {c : Prop} [Decidable c] (h : d.Stays K d') : d.Stays K (if c then d' else d) := by
  split
  · exact h
  · exact refl d

theorem get (h : d.Stays K d') (f : Fld) (u k : Nat) (hf : K f.reg = true) : d'.get f u k = d.get f u k := by
  unfold Dev.get; rw [h.reg _ hf]

theorem flag (h : d.Stays K d') (f : Fld) (u k : Nat) (hf : K f.reg = true) : d'.flag f u k = d.flag f u k := by
  unfold Dev.flag; rw [h.get f u k hf]

theorem put (d : Dev) (f : Fld) (v u k : Nat) (hf : K f.reg = false) : d.Stays K (d.put f v u k) :=
  ⟨rfl, rfl, rfl, fun r hr => d.reg_put_name f v u k r fun e => by rw [e, hf] at hr; cases hr⟩

theorem bump (d : Dev) (f : Fld) (n u k : Nat) (hf : K f.reg = false) : d.Stays K (d.bump f n u k) := put d f _ u k hf

theorem emit (d : Dev) (p : Packet) : d.Stays K (d.emit p) :=
  ⟨by simp, by simp, by simp, fun r _ => by simp⟩

theorem raise (d : Dev) (n : Nat) (i : EvInfo) (hK : ∀ q, cdcReg q = true → K q = false) : d.Stays K (d.raise n i) :=
  ⟨by simp, by simp, by simp, fun r hr => Dev.raise_reg d n i r (by
    cases h : cdcReg r.name with
    | false => rfl
    | true => rw [hK _ h] at hr; cases hr)⟩

end Dev.Stays

/-- An operation that lets the board and the power controller stay acts on powered dies as it is. -/
theorem State.on_stays {K : RegName → Bool} (s : State) (f : Dev → Dev) (hp : s.dev.powered = true) (h : s.dev.Stays K (f s.dev)) :
    s.on f = s.withDev (f s.dev) := s.on_powered f hp h.board h.power

/-! ### Requests of an engine -/

/-- Nothing is said of any register. -/
def noRegister : RegName → Bool := fun _ => false

theorem Dev.setLeaf_stays {K : RegName → Bool} (d : Dev) (n : Nat) (l : Leaf) : d.Stays K (d.setLeaf n l) :=
  ⟨rfl, rfl, rfl, fun _ _ => rfl⟩

theorem Dev.clearResv_stays {K : RegName → Bool} (d : Dev) (line : Nat) (keep : Option Nat) : d.Stays K (d.clearResv line keep) :=
  Dev.Stays.foldl (fun x (p : Nat × Leaf) => .ite (x.setLeaf_stays p.1 _)) _ _

theorem Dev.modBough_stays {K : RegName → Bool} (d : Dev) (b : Nat) (f : Bough → Bough) : d.Stays K (d.modBough b f) :=
  ⟨rfl, rfl, rfl, fun _ _ => rfl⟩

theorem Dev.modLee_stays {K : RegName → Bool} (d : Dev) (n : Nat) (f : Lee → Lee) : d.Stays K (d.modLee n f) :=
  ⟨rfl, rfl, rfl, fun _ _ => rfl⟩

theorem Dev.dropOwn_stays {K : RegName → Bool} (d : Dev) (b line : Nat) : d.Stays K (d.dropOwn b line) :=
  (d.clearResv_stays line none).trans (Dev.modBough_stays _ _ _)

theorem Dev.sendAmong_stays {K : RegName → Bool} (d : Dev) (b : Nat) (ts : List BoughTxn) : d.Stays K (d.sendAmong b ts) :=
  Dev.Stays.foldl (fun x _ => .ite ((x.modBough_stays _ _).trans (.emit _ _))) _ _

theorem Dev.startTxn_stays {K : RegName → Bool} (d : Dev) (b : Nat) (t : BoughTxn) : d.Stays K (d.startTxn b t) := by
  unfold Dev.startTxn
  split
  · exact .refl d
  · exact (d.modBough_stays b _).trans ((Dev.sendAmong_stays _ _ _).trans (Dev.sendAmong_stays _ _ _))

theorem Dev.sendWriteBacks_stays {K : RegName → Bool} (d : Dev) (b : Nat) : d.Stays K (d.sendWriteBacks b) :=
  Dev.Stays.foldl (fun x e => by
    dsimp only
    split
    · exact .refl x
    · exact (x.modBough_stays _ _).trans (.emit _ _)) _ _

theorem Dev.evict_stays {K : RegName → Bool} (d : Dev) (b line : Nat) : d.Stays K (d.evict b line) := by
  have h : d.Stays K ((d.clearResv line none).modBough b fun x => x.setLine line (((d.bough b).line line).gone)) :=
    (d.clearResv_stays line none).trans (Dev.modBough_stays _ _ _)
  unfold Dev.evict
  dsimp only
  split
  · exact h.trans ((Dev.modBough_stays _ _ _).trans (Dev.sendWriteBacks_stays _ _))
  · exact h

/-- A line that comes back from the eviction buffer changes its bough, and one that has to go for it leaves by a message. -/
theorem Dev.takeBack_stays {K : RegName → Bool} {d d' : Dev} (b : Nat) (e : EvbEntry) (h : d.takeBack b e = some d') : d.Stays K d' := by
  unfold Dev.takeBack at h
  dsimp only at h
  split at h
  · obtain rfl := Option.some.inj h
    exact (d.modBough_stays b _).trans (Dev.modBough_stays _ _ _)
  · split at h
    · cases h
    · obtain rfl := Option.some.inj h
      exact (d.modBough_stays b _).trans (Dev.modBough_stays _ _ _)
    · obtain rfl := Option.some.inj h
      exact (d.modBough_stays b _).trans ((Dev.evict_stays _ _ _).trans (Dev.modBough_stays _ _ _))

theorem Dev.fetchBack_stays {K : RegName → Bool} (d : Dev) (b line : Nat) : d.Stays K (d.fetchBack b line) := by
  unfold Dev.fetchBack
  dsimp only
  split
  · split
    · rename_i e _
      cases h : d.takeBack b e with
      | none => exact .refl d
      | some d' => exact d.takeBack_stays b e h
    · exact .refl d
  · exact .ite (d.evict_stays b line)

theorem Dev.decodeError_stays (d : Dev) (a : Nat) : d.Stays noRegister (d.decodeError a) := by
  have h : d.Stays noRegister (if d.flag TRK_DECERR.VALID then d else (d.put TRK_DECERR.VALID 1).put TRK_DECERR.ADDR a) := by
    split
    · exact .refl d
    · exact (Dev.Stays.put d _ _ _ _ rfl).trans (.put _ _ _ _ _ rfl)
  exact h.trans (.raise _ _ _ fun _ _ => rfl)

theorem Dev.fwRefuse_stays (d : Dev) (cls seg : Nat) (write : Bool) (a : Nat) : d.Stays noRegister (d.fwRefuse cls seg write a) := by
  have put : ∀ (x : Dev) (f : Fld) (v : Nat), x.Stays noRegister (x.put f v) := fun x f v => .put x f v _ _ rfl
  unfold Dev.fwRefuse
  refine (Dev.Stays.bump d TRK_FW_CNT.COUNT 1 0 0 rfl).trans (.trans ?_ (.raise _ _ _ fun _ _ => rfl))
  split
  · exact .refl _
  · exact ((((put _ _ _).trans (put _ _ _)).trans (put _ _ _)).trans (put _ _ _)).trans (put _ _ _)

theorem Dev.memRefused_stays (d : Dev) (c : MemCheck) (cls seg : Nat) (write : Bool) (a : Nat) :
    d.Stays noRegister (d.memRefused c cls seg write a) := by
  cases c with
  | ok => exact .refl d
  | refused => exact d.fwRefuse_stays cls seg write a
  | undecoded => exact d.decodeError_stays a

/-- A request that an engine makes leaves memory and the supply as they were. -/
theorem Dev.leeAsk_stays (d : Dev) (n : Nat) (r : LeeReq) : d.Stays noRegister (d.leeAsk n r) := by
  unfold Dev.leeAsk
  dsimp only
  split
  · exact .refl d
  · split
    · split
      · exact .refl d
      · exact (d.dropOwn_stays _ _).trans ((Dev.modLee_stays _ _ _).trans ((Dev.modLee_stays _ _ _).trans (Dev.startTxn_stays _ _ _)))
    · split
      · have h := d.fetchBack_stays (K := noRegister) (n / 16) (r.addr / 64)
        split
        · exact h
        · split
          · exact h.trans (Dev.modLee_stays _ _ _)
          · exact h.trans ((Dev.modLee_stays _ _ _).trans (Dev.startTxn_stays _ _ _))
      · exact (Dev.memRefused_stays d _ _ _ _ _).trans (Dev.modLee_stays _ _ _)

theorem Dev.leeServe_stays (d : Dev) (n : Nat) : d.Stays noRegister (d.leeServe n) :=
  Dev.Stays.foldl (fun x r => x.leeAsk_stays n r) _ _

end Sys2Proof.Machine
end

section
/-!
PROOFS. Apertures of the evaluation stores, and the pages of streamed mode (R26, R78, R79, R131, R132).
-/

namespace Sys2Proof.Machine

/-! ### Accesses to the aperture (R26, R78, R79) -/

theorem exec_apertureRead_eq (req : Requester) (n off size : Nat) (ue : Bool) (s : State) :
    exec (.apertureRead req n off size ue) s = .next (s.on (apertureReadEff req n off size ue)) := rfl

theorem exec_apertureWrite_eq (req : Requester) (n off size : Nat) (v : Line) (ue : Bool) (s : State) :
    exec (.apertureWrite req n off size v ue) s =
      .next (s.on (arrive (.aperture req n off size v) (apertureWriteEff req n off size v ue))) := rfl

/-- A byte that nothing backs waits for no clear, and a backed one waits for a clear alone. -/
theorem Dev.apertureWaits_false {d : Dev} {n off : Nat} (h : d.apertureBacked n off = false ∨ d.flag LEE_STAT.CLEARING n = false) :
    d.apertureWaits n off = false := by
  rcases h with h | h <;> simp [Dev.apertureWaits, h]

/-- A leaf's APERTURE_READ that no gate, no proxy, no held access and no clear stands before is answered with what the load gives. -/
theorem exec_apertureRead_open (s : State) (d' : Dev) (h : Nat) (p : Mode) (n off size v : Nat) (err : Bool) (hp : s.dev.powered = true)
    (hs : s.dev.apertureStands n = false) (hf : s.dev.forwarding (s.dev.leafSite n) = []) (hw : s.dev.apertureWaits n off = false)
    (hl : (s.dev.takeAccess (.leaf h p) (apertureAddr n off)).apertureLoad (.leaf h p) n off size = (v, err, d'))
    (hfab : d'.fabric = s.dev.fabric) (hb : d'.board = s.dev.board) (hpow : d'.power = s.dev.power) :
    exec (.apertureRead (.leaf h p) n off size false) s =
      .next (s.withDev (d'.apertureAnswer (.leaf h p) (apertureAddr n off) v err false)) := by
  have hpass : (d'.apertureAnswer (.leaf h p) (apertureAddr n off) v err false).forwarding (s.dev.leafSite n) = [] :=
    (Dev.forwarding_of (show _ = s.dev.fabric from hfab) _).trans hf
  have heff : apertureReadEff (.leaf h p) n off size false s.dev = d'.apertureAnswer (.leaf h p) (apertureAddr n off) v err false := by
    unfold apertureReadEff
    simp only [hs, hw, Dev.heldBefore_nil hf, hl, Bool.false_eq_true, if_false, Bool.or_self, Bool.false_and]
    exact Dev.passHeld_nil hpass _
  rw [exec_apertureRead_eq, s.on_powered _ hp (by rw [heff]; exact hb) (by rw [heff]; exact hpow), heff]

/-- A leaf's APERTURE_WRITE that nothing stands before is answered with what the store gives. -/
theorem exec_apertureWrite_open (s : State) (d' : Dev) (h : Nat) (p : Mode) (n off size : Nat) (v : Line) (err : Bool)
    (hp : s.dev.powered = true) (hreach : s.dev.reaches (.aperture (.leaf h p) n off size v))
    (hs : s.dev.apertureStands n = false) (hf : s.dev.forwarding (s.dev.leafSite n) = []) (hw : s.dev.apertureWaits n off = false)
    (hst : (s.dev.take (.aperture (.leaf h p) n off size v)).apertureStore (.leaf h p) n off size v.toNat = (err, d'))
    (hfab : d'.fabric = s.dev.fabric) (hb : d'.board = s.dev.board) (hpow : d'.power = s.dev.power) :
    exec (.apertureWrite (.leaf h p) n off size v false) s =
      .next (s.withDev (d'.answerTo (.leaf h p) (apertureAddr n off) (if err then BitVec.allOnes 64 else 0) err)) := by
  have hpass : (d'.answerTo (.leaf h p) (apertureAddr n off) (if err then BitVec.allOnes 64 else 0) err).forwarding
      (s.dev.leafSite n) = [] := (Dev.forwarding_of ((Dev.answerTo_fabric _ _ _ _ _).trans hfab) _).trans hf
  have heff : apertureWriteEff (.leaf h p) n off size v false s.dev =
      d'.answerTo (.leaf h p) (apertureAddr n off) (if err then BitVec.allOnes 64 else 0) err := by
    unfold apertureWriteEff
    simp only [hs, hw, Dev.heldBefore_nil hf, hst, Bool.false_eq_true, if_false, Bool.or_self, Bool.false_and]
    exact Dev.passHeld_nil hpass _
  rw [exec_apertureWrite_eq, s.on_answerTo _ _ _ _ _ _ hp ((arrive_of_reaches hreach _).trans heff) hb hpow]

@[simp] theorem Dev.answerTo_lees (d : Dev) (req : Requester) (a : Nat) (v : Word) (e : Bool) : (d.answerTo req a v e).lees = d.lees := by
  obtain ⟨r, w, t, h⟩ := d.answerTo_frame req a v e; rw [h]

/-- An answer to a leaf stands on the bus. -/
theorem Dev.answerTo_leaf_resp (d : Dev) (h : Nat) (p : Mode) (a : Nat) (v : Word) (e : Bool) :
    (d.answerTo (.leaf h p) a v e).resp = ⟨v, e, false⟩ := by
  unfold Dev.answerTo
  dsimp only
  split
  · rw [Dev.emit_resp]
  · rfl

theorem Dev.answerTo_stays {K : RegName → Bool} (d : Dev) (req : Requester) (a : Nat) (v : Word) (e : Bool) :
    d.Stays K (d.answerTo req a v e) :=
  ⟨by simp, by simp, by simp, fun _ _ => Dev.reg_of_regs (by simp) _⟩

/-- An access that nothing backs: its first address is captured. -/
theorem Dev.decodeError_first (d : Dev) (a : Nat) (h : d.flag TRK_DECERR.VALID = false) :
    (d.decodeError a).flag TRK_DECERR.VALID = true ∧ (d.decodeError a).get TRK_DECERR.ADDR = a % 2 ^ 48 := by
  have hput : d.decodeError a = ((d.put TRK_DECERR.VALID 1).put TRK_DECERR.ADDR a).raise 1 { addr := a } := by
    simp [Dev.decodeError, h]
  rw [hput]
  constructor
  · rw [Dev.raise_flag _ _ _ _ _ _ rfl, Dev.flag_put_beside _ TRK_DECERR.ADDR TRK_DECERR.VALID _ _ _ rfl (by decide) (by decide) (by decide) (by decide),
      Dev.flag_put_same _ _ _ _ _ (by decide) (by decide)]
    decide
  · rw [Dev.raise_get _ _ _ _ _ _ rfl, Dev.get_put_same _ _ _ _ _ (by decide) (by decide)]
    rfl

/-- A decode error touches registers, messages and event accumulators alone. -/
theorem Dev.decodeError_frame (d : Dev) (a : Nat) : ∃ r w e, d.decodeError a = { d with regs := r, wire := w, evAcc := e } := by
  unfold Dev.decodeError
  split
  · exact d.raise_frame _ _
  · exact Dev.raise_frame _ _ _

/-! ### Streamed mode (R131, R132) -/

theorem exec_streamPageFetch_eq (n : Nat) (s : State) :
    exec (.streamPageFetch n) s = .next (s.on (leeThen n (streamFetchEff n))) := rfl

theorem exec_streamPageReturn_eq (n q i : Nat) (s : State) :
    exec (.streamPageReturn n q i) s = .next (s.on (leeReturn n (streamReturnEff n q i))) := rfl

/-- What a page buffer holds, beside what is asked for: its page, and how many of its lines have come. -/
def PageBuf.held (p : PageBuf) : Nat × Nat := (p.page, p.got)

/-- Asking for lines of pages: only engines differ, no store word does, and every page buffer holds what it held. -/
structure Dev.AsksPages (d : Dev) (n : Nat) (d' : Dev) : Prop where
  rest : d' = { d with lees := d'.lees }
  word : ∀ w, (d'.lee n).word w = (d.lee n).word w
  held : (d'.lee n).pages.map PageBuf.held = (d.lee n).pages.map PageBuf.held

theorem pageAsk_asksPages (k n : Nat) (d : Dev) : d.AsksPages n (pageAsk k n d) := by
  induction k generalizing d with
  | zero => exact ⟨rfl, fun _ => rfl, rfl⟩
  | succ k ih =>
    unfold pageAsk
    dsimp only
    split
    · exact ⟨rfl, fun _ => rfl, rfl⟩
    · split
      · exact ⟨rfl, fun _ => rfl, rfl⟩
      · rename_i p _
        obtain ⟨hrest, hword, hheld⟩ := ih (d.setLee n { d.lee n with
          pages := (d.lee n).pages.map fun y => if y.page == p.page then { y with next := p.next + 1 } else y
          mem := (d.lee n).mem ++ [{ addr := d.pageLineAddr n p.page p.next, use := .page p.page p.next }] })
        refine ⟨by rw [hrest]; rfl, fun w => ?_, ?_⟩
        · rw [hword, Dev.lee_setLee]; rfl
        · rw [hheld, Dev.lee_setLee, List.map_map]
          refine List.map_congr_left fun y _ => ?_
          dsimp only [Function.comp]
          split <;> rfl

/-- The report of complete pages changes LEE_STREAM_STAT alone. -/
theorem Dev.showPages_reg (d : Dev) (n : Nat) (r : Reg) (h : r ≠ ⟨.LEE_STREAM_STAT, n, 0⟩) : (d.showPages n).reg r = d.reg r := by
  unfold Dev.showPages
  dsimp only
  rw [Dev.reg_put_other _ LEE_STREAM_STAT.PAGE1 _ _ _ h, Dev.reg_put_other _ LEE_STREAM_STAT.PAGE0 _ _ _ h,
    Dev.reg_put_other _ LEE_STREAM_STAT.V1 _ _ _ h, Dev.reg_put_other _ LEE_STREAM_STAT.V0 _ _ _ h]

@[simp] theorem Dev.showPages_lee (d : Dev) (n m : Nat) : (d.showPages n).lee m = d.lee m := rfl

theorem Dev.leeOnly.showPages {d d' : Dev} (h : d.leeOnly d') (n : Nat) : d.leeOnly (d'.showPages n) := by
  obtain ⟨r, l, rfl⟩ := h; exact ⟨_, _, rfl⟩

theorem Dev.leeOnly.asksPages {d d' d'' : Dev} {n : Nat} (h : d.leeOnly d') (ha : d'.AsksPages n d'') : d.leeOnly d'' := by
  obtain ⟨r, l, rfl⟩ := h; exact ⟨_, _, ha.rest⟩

theorem Dev.leeOnly.stays {d d' : Dev} (h : d.leeOnly d') : d.Stays noRegister d' := by
  obtain ⟨r, l, rfl⟩ := h; exact ⟨rfl, rfl, rfl, fun _ h => by cases h⟩

/-- Asking for lines of pages changes no register. -/
theorem Dev.AsksPages.reg {d d' : Dev} {n : Nat} (h : d.AsksPages n d') (r : Reg) : d'.reg r = d.reg r := by
  rw [h.rest]; rfl

/-- The pages that an engine keeps when it turns to page q, and those that it begins. -/
def turnPages (l : List PageBuf) (q : Nat) : List PageBuf :=
  let keep := l.filter fun p => p.page == q || p.page == q + 1
  keep ++ ([q, q + 1].filter fun x => !keep.any fun p => p.page == x).map fun x => { page := x }

/-- An engine that turns to page q holds buffers of pages q and q + 1 and no other. -/
theorem mem_turnPages (l : List PageBuf) (q x : Nat) : x ∈ (turnPages l q).map (·.page) ↔ x = q ∨ x = q + 1 := by
  unfold turnPages
  simp only [List.map_append, List.map_map, List.mem_append, List.mem_map, List.mem_filter, Function.comp]
  constructor
  · rintro (⟨p, ⟨_, hp⟩, rfl⟩ | ⟨y, ⟨hy, _⟩, rfl⟩)
    · simpa using hp
    · simpa using hy
  · intro hx
    by_cases h : ∃ p ∈ l, p.page = x
    · obtain ⟨p, hp, rfl⟩ := h
      exact .inl ⟨p, ⟨hp, by simpa using hx⟩, rfl⟩
    · refine .inr ⟨x, ⟨by simpa using hx, ?_⟩, rfl⟩
      simp only [Bool.not_eq_true', List.any_eq_false, List.mem_filter]
      rintro p ⟨hp, _⟩ hpx
      exact h ⟨p, hp, by simpa using hpx⟩

/-- A running streamed engine keeps and begins the pages of the next word and the following one, and asks for their lines (R132). -/
theorem streamFetchEff_run (d : Dev) (n : Nat) (hl : d.leePresent n = true) (hr : d.flag LEE_STAT.RUN n = true)
    (hs : d.flag LEE_CTL.STREAM n = true) : streamFetchEff n d =
      pageAsk 32 n ((d.modLee n fun e => { e with
        pages := turnPages (d.lee n).pages (d.pageNow n)
        mem := e.mem.filter fun r => !r.isPage fun x => x != d.pageNow n && x != d.pageNow n + 1 }).showPages n) := by
  unfold streamFetchEff
  rw [hl, hr, hs]
  rfl

/-- What a page fetch of a running streamed engine leaves: the two pages and no other, the store as it was, and no register but
LEE_STREAM_STAT changed. -/
theorem streamFetchEff_spec (d : Dev) (n : Nat) (hl : d.leePresent n = true) (hr : d.flag LEE_STAT.RUN n = true)
    (hs : d.flag LEE_CTL.STREAM n = true) : d.leeOnly (streamFetchEff n d)
      ∧ (∀ x, x ∈ ((streamFetchEff n d).lee n).pages.map (·.page) ↔ x = d.pageNow n ∨ x = d.pageNow n + 1)
      ∧ (∀ w, ((streamFetchEff n d).lee n).word w = (d.lee n).word w)
      ∧ ∀ r : Reg, r ≠ ⟨.LEE_STREAM_STAT, n, 0⟩ → (streamFetchEff n d).reg r = d.reg r := by
  rw [streamFetchEff_run d n hl hr hs]
  have ha := pageAsk_asksPages 32 n ((d.modLee n fun e => { e with
    pages := turnPages (d.lee n).pages (d.pageNow n)
    mem := e.mem.filter fun r => !r.isPage fun x => x != d.pageNow n && x != d.pageNow n + 1 }).showPages n)
  refine ⟨(((Dev.leeOnly.refl d).modLee n _).showPages n).asksPages ha, fun x => ?_, fun w => ?_, fun r hr => ?_⟩
  · have hpages := congrArg (List.map Prod.fst) ha.held
    rw [List.map_map, List.map_map, Dev.showPages_lee, Dev.lee_modLee, if_pos rfl] at hpages
    exact (congrArg (x ∈ ·) hpages).to_iff.trans (mem_turnPages _ _ x)
  · rw [ha.word, Dev.showPages_lee, Dev.lee_modLee, if_pos rfl]; rfl
  · rw [ha.reg, Dev.showPages_reg _ _ _ hr, Dev.reg_modLee]

/-- Writing a run of store words changes the store and its valid bits alone. -/
theorem Lee.putWords_pages (e : Lee) (w : Nat) (l : List Word) : (e.putWords w l).pages = e.pages := by
  induction l generalizing e w with
  | nil => rfl
  | cons v t ih =>
    rw [Lee.putWords, ih]
    unfold Lee.putWord
    split <;> rfl

/-- What a line of page q brings its engine: the line's words in their place, and one more line of its buffer come (R132). -/
def Lee.takeLine (e : Lee) (q i first : Nat) (bad : List (Nat × Fetched)) (r : LeeReq) (v : Line) : Lee :=
  { e.putWords first ((List.range 8).map (lineWord v)) with
    mem := (e.putWords first ((List.range 8).map (lineWord v))).mem.erase r
    pages := (e.putWords first ((List.range 8).map (lineWord v))).pages.map
      fun y => if y.page == q then { y with got := i + 1, bad := bad } else y }

theorem Lee.word_takeLine (e : Lee) (q i first : Nat) (bad : List (Nat × Fetched)) (r : LeeReq) (v : Line) (w : Nat) :
    (e.takeLine q i first bad r v).word w =
      if first ≤ w ∧ w < first + 8 then ((List.range 8).map (lineWord v)).getD (w - first) 0 else e.word w := by
  have hw : (e.takeLine q i first bad r v).word w = (e.putWords first ((List.range 8).map (lineWord v))).word w := by
    unfold Lee.takeLine
    generalize e.putWords first ((List.range 8).map (lineWord v)) = e'
    rfl
  rw [hw, Lee.word_putWords, List.length_map, List.length_range]

/-- The buffer of the page has the line. -/
theorem Lee.got_takeLine (e : Lee) (q i first : Nat) (bad : List (Nat × Fetched)) (r : LeeReq) (v : Line) (p : PageBuf)
    (h : (e.pages.find? fun x => x.page == q) = some p) :
    (((e.takeLine q i first bad r v).pages.find? fun x => x.page == q).map (·.got)) = some (i + 1) := by
  have hpred : ((fun x : PageBuf => x.page == q) ∘ fun y => if y.page == q then { y with got := i + 1, bad := bad } else y)
      = fun x => x.page == q := by
    funext y
    simp only [Function.comp]
    split <;> rfl
  have hpq : p.page = q := by simpa using List.find?_some h
  unfold Lee.takeLine
  rw [List.find?_map, Lee.putWords_pages, hpred, h]
  simp [hpq]

/-- How many lines of a page have come depends on what the buffers hold alone. -/
theorem got_of_held {l l' : List PageBuf} (h : l'.map PageBuf.held = l.map PageBuf.held) (q : Nat) :
    ((l'.find? fun x => x.page == q).map (·.got)) = ((l.find? fun x => x.page == q).map (·.got)) := by
  have key : ∀ m : List PageBuf, ((m.find? fun x => x.page == q).map (·.got)) = ((m.map PageBuf.held).find? fun x => x.1 == q).map (·.2) :=
    fun m => by rw [List.find?_map, Option.map_map]; rfl
  rw [key, key, h]

/-- A line of a page that has come is put in its place, the next is asked for, and an engine that waited for its page goes on (R132). -/
theorem streamReturnEff_line (d : Dev) (n q : Nat) (p : PageBuf) (r : LeeReq) (v : Line)
    (hp : ((d.lee n).pages.find? fun x => x.page == q) = some p)
    (hr : ((d.lee n).mem.find? fun r => r.use == .page q p.got && r.came.isSome) = some r) (hc : r.came = some (.line v)) :
    ∃ d' : Dev, ((d.modLee n fun e => e.takeLine q p.got (4 * (d.get LEE_MAP0.PROG_BASE n * 64 + 2048 * (q % 2) + 2 * p.got)) p.bad r v).showPages n).AsksPages n d'
      ∧ streamReturnEff n q p.got d = if d'.get LEE_STAT.BLOCK n = 7 && (d'.pageOf n).isSome then d'.block n 0 else d' := by
  refine ⟨_, pageAsk_asksPages 1 n _, ?_⟩
  unfold streamReturnEff
  rw [hp]
  dsimp only
  rw [hr]
  dsimp only
  rw [hc, if_neg (by simp)]
  rfl

/-- What the return of a line of a page leaves. -/
theorem streamReturnEff_spec (d : Dev) (n q : Nat) (p : PageBuf) (r : LeeReq) (v : Line)
    (hp : ((d.lee n).pages.find? fun x => x.page == q) = some p)
    (hr : ((d.lee n).mem.find? fun r => r.use == .page q p.got && r.came.isSome) = some r) (hc : r.came = some (.line v)) :
    d.leeOnly (streamReturnEff n q p.got d)
      ∧ (∀ w, ((streamReturnEff n q p.got d).lee n).word w =
          ((d.lee n).takeLine q p.got (4 * (d.get LEE_MAP0.PROG_BASE n * 64 + 2048 * (q % 2) + 2 * p.got)) p.bad r v).word w)
      ∧ ((((streamReturnEff n q p.got d).lee n).pages.find? fun x => x.page == q).map (·.got)) = some (p.got + 1)
      ∧ ∀ x : Reg, x ≠ ⟨.LEE_STREAM_STAT, n, 0⟩ → x ≠ ⟨.LEE_STAT, n, 0⟩ → (streamReturnEff n q p.got d).reg x = d.reg x := by
  obtain ⟨d', ha, heff⟩ := streamReturnEff_line d n q p r v hp hr hc
  have honly := (((Dev.leeOnly.refl d).modLee n fun e =>
    e.takeLine q p.got (4 * (d.get LEE_MAP0.PROG_BASE n * 64 + 2048 * (q % 2) + 2 * p.got)) p.bad r v).showPages n).asksPages ha
  have hlee : (streamReturnEff n q p.got d).lee n = d'.lee n := by rw [heff]; split <;> rfl
  rw [hlee]
  refine ⟨?_, fun w => ?_, ?_, fun x hx hx2 => ?_⟩
  · rw [heff]
    split
    · exact honly.put _ _ _ _
    · exact honly
  · rw [ha.word, Dev.showPages_lee, Dev.lee_modLee, if_pos rfl]
  · rw [got_of_held ha.held, Dev.showPages_lee, Dev.lee_modLee, if_pos rfl, Lee.got_takeLine _ _ _ _ _ _ _ p hp]
  · have hblock : (streamReturnEff n q p.got d).reg x = d'.reg x := by
      rw [heff]
      split
      · exact Dev.reg_put_other _ LEE_STAT.BLOCK _ _ _ hx2
      · rfl
    rw [hblock, ha.reg, Dev.showPages_reg _ _ _ hx, Dev.reg_modLee]

/-- Settles O26: a leaf's access that nothing stands before is one load or store of its engine; a page fetch and the return of a line change
their engine's pages and store alone. -/
theorem aperturesAndStreams : Obligations.AperturesAndStreams := by
  unfold Obligations.AperturesAndStreams
  refine ⟨?read, ?write, ?refused, ?unbacked, ?fetch, ?line⟩
  case read =>
    intro s h p n off size hp hs hf hc hb hz
    have hl : (s.dev.takeAccess (.leaf h p) (apertureAddr n off)).apertureLoad (.leaf h p) n off size
        = ((s.dev.lee n).bytes off size, false, s.dev.takeAccess (.leaf h p) (apertureAddr n off)) := by
      unfold Dev.apertureLoad
      rw [show (s.dev.takeAccess (.leaf h p) (apertureAddr n off)).apertureBacked n off = true from hb, hz]
      rfl
    exact ⟨_, exec_apertureRead_open s _ h p n off size _ false hp hs hf (Dev.apertureWaits_false (.inr hc)) hl rfl rfl rfl,
      rfl, rfl, rfl, rfl⟩
  case write =>
    intro s h p n off size v hp hs hf hc hreach hb hz hrun
    have hst : (s.dev.take (.aperture (.leaf h p) n off size v)).apertureStore (.leaf h p) n off size v.toNat
        = (false, (s.dev.take (.aperture (.leaf h p) n off size v)).modLee n fun e => e.putBytes off v.toNat size) := by
      unfold Dev.apertureStore
      rw [show (s.dev.take (.aperture (.leaf h p) n off size v)).apertureBacked n off = true from hb, hz, Dev.flag_take, hrun]
      rfl
    refine ⟨_, exec_apertureWrite_open s _ h p n off size v false hp hreach hs hf (Dev.apertureWaits_false (.inr hc)) hst rfl rfl rfl,
      ?_, ?_, fun m hm => ?_, Dev.answerTo_regs _ _ _ _ _, Dev.answerTo_mem _ _ _ _ _⟩
    · rw [Dev.answerTo_leaf_resp]
    · rw [Dev.lee, Dev.answerTo_lees]; exact (Dev.lee_modLee _ _ _ _).trans (if_pos rfl)
    · rw [Dev.lee, Dev.answerTo_lees]; exact (Dev.lee_modLee _ _ _ _).trans (if_neg hm)
  case refused =>
    intro s h p n off size v hp hs hf hc hreach hb hz hrun
    have hst : (s.dev.take (.aperture (.leaf h p) n off size v)).apertureStore (.leaf h p) n off size v.toNat
        = (true, (s.dev.take (.aperture (.leaf h p) n off size v)).put LEE_STAT.AP_WERR 1 n) := by
      unfold Dev.apertureStore
      rw [show (s.dev.take (.aperture (.leaf h p) n off size v)).apertureBacked n off = true from hb, hz, Dev.flag_take, hrun]
      rfl
    refine ⟨_, exec_apertureWrite_open s _ h p n off size v true hp hreach hs hf (Dev.apertureWaits_false (.inr hc)) hst rfl rfl rfl,
      ?_, Dev.answerTo_lees _ _ _ _ _, ?_, fun r hr => ?_⟩
    · rw [Dev.answerTo_leaf_resp]
    · rw [Dev.flag_of_regs (Dev.answerTo_regs _ _ _ _ _), Dev.flag_put_same _ _ _ _ _ (by decide) (by decide)]
      decide
    · rw [Dev.reg_of_regs (Dev.answerTo_regs _ _ _ _ _), Dev.reg_put_other _ LEE_STAT.AP_WERR _ _ _ hr, Dev.reg_take]
  case unbacked =>
    intro s h p n off size hp hs hf hb hv
    have hl : (s.dev.takeAccess (.leaf h p) (apertureAddr n off)).apertureLoad (.leaf h p) n off size
        = (256 ^ size - 1, true, (s.dev.takeAccess (.leaf h p) (apertureAddr n off)).decodeError (apertureAddr n off)) := by
      unfold Dev.apertureLoad
      rw [show (s.dev.takeAccess (.leaf h p) (apertureAddr n off)).apertureBacked n off = false from hb]
      rfl
    obtain ⟨r, w, e, hframe⟩ := (s.dev.takeAccess (.leaf h p) (apertureAddr n off)).decodeError_frame (apertureAddr n off)
    obtain ⟨hvalid, haddr⟩ := (s.dev.takeAccess (.leaf h p) (apertureAddr n off)).decodeError_first (apertureAddr n off) hv
    have hlees : ((s.dev.takeAccess (.leaf h p) (apertureAddr n off)).decodeError (apertureAddr n off)).lees = s.dev.lees := by
      rw [hframe]; rfl
    exact ⟨_, exec_apertureRead_open s _ h p n off size _ true hp hs hf (Dev.apertureWaits_false (.inl hb)) hl (by rw [hframe]; rfl)
      (by rw [hframe]; rfl) (by rw [hframe]; rfl), rfl, hvalid, haddr, hlees⟩
  case fetch =>
    intro s n hp hl hr hs
    obtain ⟨honly, hpages, hword, hreg⟩ := streamFetchEff_spec s.dev n hl hr hs
    refine ⟨_, ?_, honly.eq, fun p hm => (hpages _).1 (List.mem_map_of_mem hm), List.mem_map.1 ((hpages _).2 (.inl rfl)),
      List.mem_map.1 ((hpages _).2 (.inr rfl)), hword, hreg⟩
    rw [exec_streamPageFetch_eq, s.on_stays _ hp (honly.stays.trans (Dev.leeServe_stays _ n))]
    rfl
  case line =>
    intro s n q i p r v e hp he hpage hi hr hc
    subst hi
    obtain ⟨honly, hword, hgot, hreg⟩ := streamReturnEff_spec e n q p r v hpage hr hc
    refine ⟨_, ?_, honly.eq, fun k hk => ?_, fun w hw => ?_, hgot, hreg⟩
    · subst he
      rw [exec_streamPageReturn_eq,
        s.on_stays _ hp ((s.dev.leeServe_stays n).trans (honly.stays.trans (Dev.leeServe_stays _ n)))]
      rfl
    · rw [hword, Lee.word_takeLine, if_pos (by omega), Nat.add_sub_cancel_left]
      simp [hk]
    · rw [hword, Lee.word_takeLine, if_neg (by omega)]

end Sys2Proof.Machine
end

section
/-!
PROOFS. The ends of a graft: fields of the GRF blocks, and what each graft operation rewrites of them (R210 to R226).
-/

namespace Sys2Proof.Machine

/-! ### Register fields that an operation rewrites -/

/-- Two fields that share no bit: of different registers, or beside each other. -/
abbrev Fld.apart (q f : Fld) : Prop :=
  q.reg ≠ f.reg ∨ (q.lo ≤ q.hi ∧ q.hi < 64 ∧ f.lo ≤ f.hi ∧ f.hi < 64 ∧ (f.hi < q.lo ∨ q.hi < f.lo))

/-- A register as one field. -/
abbrev wholeReg (n : RegName) : Fld := ⟨n, 63, 0⟩

theorem Fld.reg_ne_of_apart_whole {q : Fld} {n : RegName} (h : q.apart (wholeReg n)) : q.reg ≠ n := by
  rcases h with h | h
  · exact h
  · dsimp only at h; omega

theorem Dev.get_put_apart (d : Dev) (f q : Fld) (v u k u' k' : Nat) (h : q.apart f) : (d.put f v u k).get q u' k' = d.get q u' k' := by
  by_cases hr : (⟨q.reg, u', k'⟩ : Reg) = ⟨f.reg, u, k⟩
  · obtain ⟨hq, rfl, rfl⟩ := Reg.mk.inj hr
    rcases h with h | ⟨hqlo, _, hlo, hhi, hb⟩
    · exact absurd hq h
    · exact d.get_put_beside f q v u' k' hq hlo hhi hqlo hb
  · exact d.get_put_reg f q v u k u' k' hr

/-- An operation that rewrites registers alone, and of them the fields of a list alone. -/
structure Dev.Rewrites (fs : List Fld) (d d' : Dev) : Prop where
  rest : d' = { d with regs := d'.regs }
  get : ∀ (q : Fld) (u k : Nat), (∀ f ∈ fs, q.apart f) → d'.get q u k = d.get q u k

namespace Dev.Rewrites

variable {fs gs : List Fld} {d d' d'' : Dev}

theorem refl (fs : List Fld) (d : Dev) : d.Rewrites fs d := ⟨rfl, fun _ _ _ _ => rfl⟩

theorem trans (h : d.Rewrites fs d') (h' : d'.Rewrites gs d'') : d.Rewrites (fs ++ gs) d'' :=
  ⟨by rw [h'.rest, h.rest], fun q u k hq => by
    rw [List.forall_mem_append] at hq
    exact (h'.get q u k hq.2).trans (h.get q u k hq.1)⟩

/-- A step that rewrites no other fields. -/
theorem andThen (h : d.Rewrites fs d') (h' : d'.Rewrites fs d'') : d.Rewrites fs d'' :=
  ⟨by rw [h'.rest, h.rest], fun q u k hq => (h'.get q u k hq).trans (h.get q u k hq)⟩

theorem foldl {β : Type} {f : Dev → β → Dev} (hf : ∀ (x : Dev) (b : β), x.Rewrites fs (f x b)) (l : List β) (d : Dev) :
    d.Rewrites fs (l.foldl f d) :=
  List.foldlRecOn l f (refl fs d) fun _ h b _ => h.andThen (hf _ b)

theorem mono (h : d.Rewrites fs d') (hs : fs ⊆ gs) : d.Rewrites gs d' :=
  ⟨h.rest, fun q u k hq => h.get q u k fun f hf => hq f (hs hf)⟩

theorem put (d : Dev) (f : Fld) (v u k : Nat) : d.Rewrites [f] (d.put f v u k) :=
  ⟨rfl, fun q u' k' hq => d.get_put_apart f q v u k u' k' (hq f (List.mem_singleton_self f))⟩

theorem setReg (d : Dev) (r : Reg) (w : Word) : d.Rewrites [wholeReg r.name] (d.setReg r w) :=
  ⟨rfl, fun q u k hq => by
    have hn := Fld.reg_ne_of_apart_whole (hq _ (List.mem_singleton_self _))
    unfold Dev.get
    rw [d.reg_setReg_other w fun e => hn (congrArg Reg.name e)]⟩

/-- A field is part of its register. -/
theorem put_whole (d : Dev) (f : Fld) (v u k : Nat) : d.Rewrites [wholeReg f.reg] (d.put f v u k) :=
  setReg d ⟨f.reg, u, k⟩ _

theorem reg (h : d.Rewrites fs d') (r : Reg) (hr : ∀ f ∈ fs, r.name ≠ f.reg) : d'.reg r = d.reg r := by
  have h' := h.get (wholeReg r.name) r.u r.k fun f hf => .inl (hr f hf)
  change (d'.reg r).toNat >>> 0 % 2 ^ 64 = (d.reg r).toNat >>> 0 % 2 ^ 64 at h'
  rw [Nat.shiftRight_zero, Nat.shiftRight_zero, Nat.mod_eq_of_lt (BitVec.isLt _), Nat.mod_eq_of_lt (BitVec.isLt _)] at h'
  exact BitVec.eq_of_toNat_eq h'

theorem flag (h : d.Rewrites fs d') (q : Fld) (u k : Nat) (hq : ∀ f ∈ fs, q.apart f) : d'.flag q u k = d.flag q u k := by
  unfold Dev.flag; rw [h.get q u k hq]

theorem stays {K : RegName → Bool} (h : d.Rewrites fs d') (hK : ∀ f ∈ fs, K f.reg = false) : d.Stays K d' :=
  ⟨by rw [h.rest], by rw [h.rest], by rw [h.rest], fun r hr => h.reg r fun f hf e => by rw [e, hK f hf] at hr; cases hr⟩

theorem gget (h : d.Rewrites fs d') (g : GraftEnd) (t b : Fld) (ht : ∀ f ∈ fs, t.apart f) (hb : ∀ f ∈ fs, b.apart f) :
    d'.gget g t b = d.gget g t b := by
  cases g with
  | trunk s => exact h.get t s 0 ht
  | bough s p => exact h.get b s p hb

theorem side (h : d.Rewrites fs d') (g : GraftEnd) : d'.side g = d.side g := by rw [h.rest]; rfl

end Dev.Rewrites

/-! ### The two ends -/

theorem graftPeer_ne (g : GraftEnd) : g.peer ≠ g := by
  match g with
  | .trunk s => simp [GraftEnd.peer]
  | .bough s 0 => simp [GraftEnd.peer]
  | .bough s 1 => simp [GraftEnd.peer]
  | .bough s (p + 2) => simp [GraftEnd.peer]

@[simp] theorem Dev.side_modSide_same (d : Dev) (g : GraftEnd) (f : GraftSide → GraftSide) : (d.modSide g f).side g = f (d.side g) := by
  simp [Dev.side, Dev.modSide]

theorem Dev.side_modSide_other (d : Dev) {g h : GraftEnd} (f : GraftSide → GraftSide) (hne : h ≠ g) :
    (d.modSide g f).side h = d.side h := by
  simp [Dev.side, Dev.modSide, KMap.find_set_other _ _ _ _ _ hne]

theorem Dev.gget_modSide (d : Dev) (g h : GraftEnd) (f : GraftSide → GraftSide) (t b : Fld) :
    (d.modSide g f).gget h t b = d.gget h t b := rfl

/-- The trunk's and the bough's form of one field of the GRF block. -/
abbrev Twin (t b : Fld) : Prop :=
  t.reg.block = .grft ∧ b.reg.block = .grfb ∧ t.lo = b.lo ∧ t.hi = b.hi ∧ t.lo ≤ t.hi ∧ t.hi < 64

theorem Dev.gget_gput_same (d : Dev) (g : GraftEnd) {t b : Fld} (v : Nat) (h : Twin t b) :
    (d.gput g t b v).gget g t b = v % 2 ^ (t.hi - t.lo + 1) := by
  obtain ⟨_, _, hlo, hhi, hle, hlt⟩ := h
  cases g with
  | trunk s => exact d.get_put_same t v s 0 hle hlt
  | bough s p => rw [hlo, hhi]; exact d.get_put_same b v s p (by omega) (by omega)

/-- A field of one end is not a field of another. -/
theorem Dev.gget_gput_end (d : Dev) {g e : GraftEnd} {t b t' b' : Fld} (v : Nat) (h : Twin t b) (h' : Twin t' b') (hne : e ≠ g) :
    (d.gput g t b v).gget e t' b' = d.gget e t' b' := by
  have hother : ∀ {f q : Fld}, f.reg.block = .grft → q.reg.block = .grfb → f.reg ≠ q.reg := fun hf hq e => by
    rw [e, hq] at hf; cases hf
  cases g with
  | trunk s => cases e with
    | trunk s' => exact d.get_put_index t t' v s 0 s' 0 (.inl fun e => hne (by rw [e]))
    | bough s' p' => exact d.get_put_name t b' v s 0 s' p' (hother h.1 h'.2.1).symm
  | bough s p => cases e with
    | trunk s' => exact d.get_put_name b t' v s p s' 0 (hother h'.1 h.2.1)
    | bough s' p' =>
      refine d.get_put_index b b' v s p s' p' ?_
      by_contra hc
      rw [not_or, not_not, not_not] at hc
      exact hne (by rw [hc.1, hc.2])

theorem Dev.gput_rewrites (d : Dev) (g : GraftEnd) (t b : Fld) (v : Nat) : d.Rewrites [t, b] (d.gput g t b v) := by
  cases g with
  | trunk s => exact (Dev.Rewrites.put d t v s 0).mono (by simp)
  | bough s p => exact (Dev.Rewrites.put d b v s p).mono (by simp)

theorem Dev.gbump_rewrites (d : Dev) (g : GraftEnd) (t b : Fld) (n : Nat) : d.Rewrites [t, b] (d.gbump g t b n) := by
  cases g with
  | trunk s => exact (Dev.Rewrites.put d t _ s 0).mono (by simp)
  | bough s p => exact (Dev.Rewrites.put d b _ s p).mono (by simp)

/-- A count of an end saturates at the width of its field. -/
theorem Dev.gget_gbump_same (d : Dev) (g : GraftEnd) {t b : Fld} (n : Nat) (h : Twin t b) :
    (d.gbump g t b n).gget g t b = min (d.gget g t b + n) (2 ^ (t.hi - t.lo + 1) - 1) := by
  have hput : d.gbump g t b n = d.gput g t b (min (d.gget g t b + n) (2 ^ (t.hi - t.lo + 1) - 1)) := by
    cases g with
    | trunk s => rfl
    | bough s p =>
      obtain ⟨_, _, hlo, hhi, _⟩ := h
      rw [hlo, hhi]; rfl
  have hpos : 0 < 2 ^ (t.hi - t.lo + 1) := by positivity
  rw [hput, d.gget_gput_same g _ h, Nat.mod_eq_of_lt (by omega)]

/-! ### GRF_STAT -/

/-- GRF_STAT.STATE of the two ends. -/
abbrev stateFlds : List Fld := [GRF_STAT.STATE, GRFB_STAT.STATE]

/-- GRF_STAT.WIDTH and BLOCK of the two ends. -/
abbrev widthFlds : List Fld := [GRF_STAT.WIDTH, GRFB_STAT.WIDTH, GRF_STAT.BLOCK, GRFB_STAT.BLOCK]

/-- GRF_STAT.SPARES of the two ends. -/
abbrev sparesFlds : List Fld := [GRF_STAT.SPARES, GRFB_STAT.SPARES]

theorem Dev.setGState_rewrites (d : Dev) (g : GraftEnd) (v : Nat) : d.Rewrites stateFlds (d.setGState g v) :=
  (d.gput_rewrites g _ _ v).andThen (Dev.gput_rewrites _ g.peer _ _ v)

/-- Both ends have the state that a graft takes. -/
theorem Dev.gState_setGState (d : Dev) (g : GraftEnd) (v : Nat) (hv : v < 8) :
    (d.setGState g v).gState g = v ∧ (d.setGState g v).gState g.peer = v := by
  unfold Dev.setGState Dev.gState
  rw [Dev.gget_gput_end _ v (by decide) (by decide) (graftPeer_ne g).symm, Dev.gget_gput_same _ g v (by decide),
    Dev.gget_gput_same _ g.peer v (by decide)]
  exact ⟨Nat.mod_eq_of_lt hv, Nat.mod_eq_of_lt hv⟩

/-- An end takes a width and its block. -/
theorem Dev.setWidth_rewrites (d : Dev) (g : GraftEnd) (w : Nat) : d.Rewrites widthFlds (d.setWidth g w) :=
  Dev.Rewrites.foldl (fun x e => (x.gput_rewrites e _ _ w).trans (Dev.gput_rewrites _ e _ _ _)) [g, g.peer] d

theorem Dev.gget_setWidth (d : Dev) (g : GraftEnd) (w : Nat) (hw : w < 16) :
    (d.setWidth g w).gget g GRF_STAT.WIDTH GRFB_STAT.WIDTH = w ∧ (d.setWidth g w).gget g.peer GRF_STAT.WIDTH GRFB_STAT.WIDTH = w := by
  have hblock : ∀ (x : Dev) (e h : GraftEnd) (v : Nat), (x.gput e GRF_STAT.BLOCK GRFB_STAT.BLOCK v).gget h GRF_STAT.WIDTH GRFB_STAT.WIDTH
      = x.gget h GRF_STAT.WIDTH GRFB_STAT.WIDTH := fun x e h v => (x.gput_rewrites e _ _ v).gget h _ _ (by decide) (by decide)
  unfold Dev.setWidth
  simp only [List.foldl_cons, List.foldl_nil, hblock]
  rw [Dev.gget_gput_end _ w (by decide) (by decide) (graftPeer_ne g).symm, hblock, Dev.gget_gput_same _ g w (by decide),
    Dev.gget_gput_same _ g.peer w (by decide)]
  exact ⟨Nat.mod_eq_of_lt hw, Nat.mod_eq_of_lt hw⟩

/-! ### The spare map (GRF_SPARE) -/

/-- A part of a field that is written reads its part of the value. -/
theorem Word.bits_setBits_within (w : Word) (hi lo v hi' lo' : Nat) (h1 : lo ≤ lo') (h2 : lo' ≤ hi') (h3 : hi' ≤ hi) (h4 : hi < 64) :
    (w.setBits hi lo v).bits hi' lo' = v >>> (lo' - lo) % 2 ^ (hi' - lo' + 1) := by
  apply Nat.eq_of_testBit_eq
  intro i
  rw [Word.testBit_bits, Nat.testBit_mod_two_pow, Nat.testBit_shiftRight]
  by_cases h : i < hi' - lo' + 1
  · have hin : lo ≤ lo' + i ∧ lo' + i ≤ hi := by omega
    have hidx : lo' + i - lo = lo' - lo + i := by omega
    rw [Word.getLsbD_setBits w hi lo v _ (by omega) h4]
    simp [hin, hidx]
  · simp [h]

/-- The GRF_SPARE registers of the two ends. -/
abbrev spareRegs : List Fld := [wholeReg .GRF_SPARE, wholeReg .GRFB_SPARE]

theorem Dev.gput_rewrites_whole (d : Dev) (g : GraftEnd) (t b : Fld) (v : Nat) :
    d.Rewrites [wholeReg t.reg, wholeReg b.reg] (d.gput g t b v) := by
  cases g with
  | trunk s => exact (Dev.Rewrites.put_whole d t v s 0).mono (by simp)
  | bough s p => exact (Dev.Rewrites.put_whole d b v s p).mono (by simp)

theorem Dev.setSpare_rewrites (d : Dev) (g : GraftEnd) (e : Nat) (l : Option Nat) : d.Rewrites spareRegs (d.setSpare g e l) :=
  d.gput_rewrites_whole g ⟨.GRF_SPARE, 8 * e + 7, 8 * e⟩ ⟨.GRFB_SPARE, 8 * e + 7, 8 * e⟩ _

/-- A part of what an end's entry for a spare was given. -/
theorem Dev.gget_setSpare_entry (d : Dev) (g : GraftEnd) (e v hi lo : Nat) (he : e < 8) (h1 : lo ≤ hi) (h2 : hi < 8) :
    (d.gput g ⟨.GRF_SPARE, 8 * e + 7, 8 * e⟩ ⟨.GRFB_SPARE, 8 * e + 7, 8 * e⟩ v).gget g
      ⟨.GRF_SPARE, 8 * e + hi, 8 * e + lo⟩ ⟨.GRFB_SPARE, 8 * e + hi, 8 * e + lo⟩ = v >>> lo % 2 ^ (hi - lo + 1) := by
  have hbits : ∀ w : Word, (w.setBits (8 * e + 7) (8 * e) v).bits (8 * e + hi) (8 * e + lo) = v >>> lo % 2 ^ (hi - lo + 1) := fun w => by
    rw [Word.bits_setBits_within w _ _ v _ _ (by omega) (by omega) (by omega) (by omega), Nat.add_sub_cancel_left,
      Nat.add_sub_add_left]
  cases g with
  | trunk s => unfold Dev.gput Dev.gget Dev.get; dsimp only; rw [Dev.reg_put_same]; exact hbits _
  | bough s p => unfold Dev.gput Dev.gget Dev.get; dsimp only; rw [Dev.reg_put_same]; exact hbits _

/-- A spare that is given no lane replaces none. -/
theorem Dev.spareFor_setSpare_none (d : Dev) (g : GraftEnd) (e : Nat) (he : e < 8) : (d.setSpare g e none).spareFor g e = none := by
  have hused := d.gget_setSpare_entry g e 0 7 7 he (by omega) (by omega)
  unfold Dev.spareFor Dev.setSpare
  dsimp only
  rw [hused, if_neg (by decide)]

/-- A spare that is given a lane replaces the lane of its own half at that place. -/
theorem Dev.spareFor_setSpare_some (d : Dev) (g : GraftEnd) (e l : Nat) (he : e < 8) :
    (d.setSpare g e (some l)).spareFor g e = some (halfOf g (256 + e) * (dataLanes g / 2) + l % (dataLanes g / 2)) := by
  have hl : l % (dataLanes g / 2) < 128 := by
    unfold dataLanes
    split <;> omega
  have hused := d.gget_setSpare_entry g e (128 + l % (dataLanes g / 2)) 7 7 he (by omega) (by omega)
  have hoff := d.gget_setSpare_entry g e (128 + l % (dataLanes g / 2)) 6 0 he (by omega) (by omega)
  rw [Nat.shiftRight_eq_div_pow] at hused hoff
  unfold Dev.spareFor Dev.setSpare
  dsimp only
  rw [hused, if_pos (by omega)]
  rw [show 8 * e + 0 = 8 * e from rfl] at hoff
  rw [hoff]
  congr 2
  omega

/-- What another spare replaces stays. -/
theorem Dev.spareFor_setSpare_other (d : Dev) (g : GraftEnd) {e e' : Nat} (l : Option Nat) (he : e < 8) (he' : e' < 8) (hne : e' ≠ e) :
    (d.setSpare g e l).spareFor g e' = d.spareFor g e' := by
  have hget : ∀ v hi lo : Nat, lo ≤ hi → hi < 8 →
      (d.gput g ⟨.GRF_SPARE, 8 * e + 7, 8 * e⟩ ⟨.GRFB_SPARE, 8 * e + 7, 8 * e⟩ v).gget g
        ⟨.GRF_SPARE, 8 * e' + hi, 8 * e' + lo⟩ ⟨.GRFB_SPARE, 8 * e' + hi, 8 * e' + lo⟩
      = d.gget g ⟨.GRF_SPARE, 8 * e' + hi, 8 * e' + lo⟩ ⟨.GRFB_SPARE, 8 * e' + hi, 8 * e' + lo⟩ := fun v hi lo h1 h2 => by
    have hbeside : ∀ n, Fld.apart ⟨n, 8 * e' + hi, 8 * e' + lo⟩ ⟨n, 8 * e + 7, 8 * e⟩ := fun n => .inr (by dsimp only; omega)
    cases g with
    | trunk s => exact d.get_put_apart _ _ _ _ _ _ _ (hbeside _)
    | bough s p => exact d.get_put_apart _ _ _ _ _ _ _ (hbeside _)
  have hused := fun v => hget v 7 7 (by omega) (by omega)
  have hoff := fun v => hget v 6 0 (by omega) (by omega)
  unfold Dev.spareFor Dev.setSpare
  dsimp only
  rw [hused]
  rw [show 8 * e' + 0 = 8 * e' from rfl] at hoff
  rw [hoff]

/-- The lanes of the spares of a half. -/
theorem mem_spareLanes (g : GraftEnd) (h l : Nat) :
    l ∈ spareLanes g h ↔ ∃ i < (if g.lateral then 2 else 4), l = 256 + (if g.lateral then 2 else 4) * h + i := by
  unfold spareLanes
  simp only [List.mem_map, List.mem_range]
  exact exists_congr fun i => and_congr_right fun _ => eq_comm

/-- A spare of either half is one of the eight of GRF_SPARE, and serves its half. -/
theorem spare_of_mem_spareLanes (g : GraftEnd) {h l : Nat} (hh : h < 2) (hl : l ∈ spareLanes g h) :
    256 ≤ l ∧ l - 256 < 8 ∧ l - 256 ∈ spares g ∧ halfOf g (256 + (l - 256)) = h := by
  have hmem : l - 256 ∈ spares g := by
    unfold spares
    refine List.mem_map_of_mem (f := (· - 256)) (List.mem_append.2 ?_)
    rcases (by omega : h = 0 ∨ h = 1) with rfl | rfl
    · exact .inl hl
    · exact .inr hl
  rw [mem_spareLanes] at hl
  obtain ⟨i, hi, rfl⟩ := hl
  refine ⟨by omega, ?_, hmem, ?_⟩
  · split at hi <;> simp_all <;> omega
  · unfold halfOf
    rw [if_neg (by omega)]
    split at hi <;> simp_all <;> omega

theorem lt_of_mem_spares {g : GraftEnd} {e : Nat} (h : e ∈ spares g) : e < 8 := by
  unfold spares at h
  obtain ⟨l, hl, rfl⟩ := List.mem_map.1 h
  rcases List.mem_append.1 hl with hl | hl
  · exact (spare_of_mem_spareLanes g (by decide) hl).2.1
  · exact (spare_of_mem_spareLanes g (by decide) hl).2.1

theorem Dev.countSpares_rewrites (d : Dev) (g : GraftEnd) : d.Rewrites sparesFlds (d.countSpares g) := d.gput_rewrites g _ _ _

/-- Mapping spares sets entries of GRF_SPARE, and counts them. -/
theorem Dev.mapSpares_eq (d : Dev) (g : GraftEnd) (failed : List Nat) :
    ∃ x, d.Rewrites spareRegs x ∧ d.mapSpares g failed = x.countSpares g := by
  refine ⟨_, .andThen (.foldl (fun x e => ?_) _ d) (.foldl (fun x h => .foldl (fun y p => y.setSpare_rewrites g _ _) _ x) _ _), rfl⟩
  dsimp only
  split
  · exact .refl _ x
  · exact x.setSpare_rewrites g e none

theorem Dev.mapSpares_rewrites (d : Dev) (g : GraftEnd) (failed : List Nat) :
    d.Rewrites (spareRegs ++ sparesFlds) (d.mapSpares g failed) := by
  obtain ⟨x, hx, heq⟩ := d.mapSpares_eq g failed
  rw [heq]
  exact hx.trans (x.countSpares_rewrites g)

/-- The spares of one end are not counted at another. -/
theorem Dev.spares_mapSpares_end (d : Dev) {g e : GraftEnd} (failed : List Nat) (hne : e ≠ g) :
    (d.mapSpares g failed).gget e GRF_STAT.SPARES GRFB_STAT.SPARES = d.gget e GRF_STAT.SPARES GRFB_STAT.SPARES := by
  obtain ⟨x, hx, heq⟩ := d.mapSpares_eq g failed
  rw [heq, Dev.countSpares, Dev.gget_gput_end _ _ (by decide) (by decide) hne, hx.gget e _ _ (by decide) (by decide)]

/-- Spares given no lane, one after another, replace none. -/
theorem Dev.spareFor_foldl_none (g : GraftEnd) (l : List Nat) (hl : ∀ e ∈ l, e < 8) (d : Dev) (e : Nat) (he : e < 8)
    (h : e ∈ l ∨ d.spareFor g e = none) : (l.foldl (fun d e => d.setSpare g e none) d).spareFor g e = none := by
  induction l generalizing d with
  | nil => simpa using h
  | cons a t ih =>
    rw [List.forall_mem_cons] at hl
    refine ih hl.2 _ ?_
    by_cases ha : e = a
    · subst ha; exact .inr (d.spareFor_setSpare_none g e he)
    · rw [d.spareFor_setSpare_other g none hl.1 he ha]
      simpa [ha] using h

/-- Where no lane has failed no spare is in use. -/
theorem Dev.mapSpares_nil (d : Dev) (g : GraftEnd) : d.mapSpares g [] = ((spares g).foldl (fun d e => d.setSpare g e none) d).countSpares g := by
  have hbad : (d.blockLanes g).filter ([] : List Nat).contains = [] := by simp
  have hstays : ∀ o : Option Nat, (o.map ([] : List Nat).contains).getD false = false := fun o => by cases o <;> rfl
  unfold Dev.mapSpares
  simp [hbad, hstays]

theorem Dev.spares_mapSpares_nil (d : Dev) (g : GraftEnd) : (d.mapSpares g []).gget g GRF_STAT.SPARES GRFB_STAT.SPARES = 0 := by
  have hnone : ((spares g).filter fun e => (((spares g).foldl (fun d e => d.setSpare g e none) d).spareFor g e).isSome) = [] :=
    List.filter_eq_nil_iff.2 fun e he => by
      rw [Dev.spareFor_foldl_none g _ (fun _ h => lt_of_mem_spares h) d e (lt_of_mem_spares he) (.inl he)]
      simp
  rw [Dev.mapSpares_nil, Dev.countSpares, hnone, Dev.gget_gput_same _ g _ (by decide)]
  rfl

/-! ### Training (R218, R225) -/

/-- The training logs of the two sides. -/
abbrev trainRegs : List Fld := [wholeReg .GRF_TRAIN_LOG, wholeReg .GRFB_TRAIN_LOG, wholeReg .GRF_TRAIN_HEAD, wholeReg .GRFB_TRAIN_HEAD]

/-- The maps of failed lanes of the two ends. -/
abbrev failRegs : List Fld := [wholeReg .GRF_LANE_FAIL, wholeReg .GRFB_LANE_FAIL]

/-- What a training that brings a graft up rewrites. -/
abbrev trainFlds : List Fld := trainRegs ++ failRegs ++ widthFlds ++ stateFlds ++ spareRegs ++ sparesFlds

theorem Dev.trainLog_rewrites (d : Dev) (g : GraftEnd) (round proposed reply result strap : Nat) :
    d.Rewrites trainRegs (d.trainLog g round proposed reply result strap) := by
  have next : ∀ (x : Dev) (v : Nat), x.Rewrites trainRegs (x.gput g.auth GRF_TRAIN_HEAD.NEXT GRFB_TRAIN_HEAD.NEXT v) := fun x v =>
    (x.gput_rewrites_whole g.auth _ _ v).mono (by decide)
  have wrapped : ∀ (x : Dev) (v : Nat), x.Rewrites trainRegs (x.gput g.auth GRF_TRAIN_HEAD.WRAPPED GRFB_TRAIN_HEAD.WRAPPED v) := fun x v =>
    (x.gput_rewrites_whole g.auth _ _ v).mono (by decide)
  have entry : ∀ (i : Nat) (w : Word), d.Rewrites trainRegs (match g.auth with
      | .trunk s => d.setReg ⟨.GRF_TRAIN_LOG, s, i⟩ w
      | .bough s p => d.setReg ⟨.GRFB_TRAIN_LOG, s, 8 * p + i⟩ w) := fun i w => by
    cases g.auth with
    | trunk s => exact (Dev.Rewrites.setReg d _ w).mono (by simp)
    | bough s p => exact (Dev.Rewrites.setReg d _ w).mono (by simp)
  unfold Dev.trainLog
  dsimp only
  split
  · exact ((entry _ _).andThen (next _ _)).andThen (wrapped _ _)
  · exact (entry _ _).andThen (next _ _)

theorem Dev.reportFailed_rewrites (d : Dev) (g : GraftEnd) (failed : List Nat) : d.Rewrites failRegs (d.reportFailed g failed) :=
  .foldl (fun x k => by
    cases g with
    | trunk s => exact (Dev.Rewrites.setReg x _ _).mono (by simp)
    | bough s p => exact (Dev.Rewrites.setReg x _ _).mono (by simp)) _ _

/-- The lanes that a training finds failed depend on what software marks alone. -/
theorem Dev.Rewrites.foundFailed {fs : List Fld} {d d' : Dev} (h : d.Rewrites fs d') (g : GraftEnd) (found : List Nat)
    (hfs : ∀ f ∈ fs, RegName.GRF_LANE_MASK ≠ f.reg ∧ RegName.GRFB_LANE_MASK ≠ f.reg) : d'.foundFailed g found = d.foundFailed g found := by
  have hmask : ∀ l, d'.laneMasked g l = d.laneMasked g l := fun l => by
    unfold Dev.laneMasked Dev.laneFlag
    cases g with
    | trunk s => dsimp only; rw [h.reg _ fun f hf => (hfs f hf).1]
    | bough s p => dsimp only; rw [h.reg _ fun f hf => (hfs f hf).2]
  unfold Dev.foundFailed
  simp only [hmask]

/-- With no failed lane a half is whole. -/
theorem halfWhole_nil (g : GraftEnd) (h : Nat) : halfWhole g [] h = true := by simp [halfWhole, failedIn]

/-- With no failed lane a direction forms its full width (R222). -/
theorem formBlock_full (g : GraftEnd) : formBlock g [] (dataLanes g / 64) = some 0 := by simp [formBlock, halfWhole_nil]

theorem largestWidth_full (g : GraftEnd) : largestWidth g [] (dataLanes g / 64) = some (dataLanes g / 64) := by
  have hwidest : ∃ t, graftWidths g = dataLanes g / 64 :: t := by
    unfold graftWidths dataLanes
    split
    · exact ⟨_, rfl⟩
    · exact ⟨_, rfl⟩
  obtain ⟨t, ht⟩ := hwidest
  simp [largestWidth, ht, formBlock_full]

/-- With no failed lane on either side the first round agrees on the full width (R225). -/
theorem agreeWidth_clean (g : GraftEnd) (hg : dataLanes g.peer = dataLanes g) (d : Dev) : agreeWidth g [] 3 1 none [[]] 0 d =
    (some (dataLanes g / 64), d.trainLog g 1 (dataLanes g / 64) (dataLanes g / 64) 0 0) := by
  have hlargest := largestWidth_full g.peer
  have hform := formBlock_full g.peer
  rw [hg] at hlargest hform
  simp [agreeWidth, largestWidth_full, hlargest, hform]

/-- Both ends start with the credits of R215. -/
def Dev.grantCredits (d : Dev) (g : GraftEnd) : Dev :=
  [g, g.peer].foldl (fun d e => d.modSide e fun s => s.granted (initialCredits e)) d

/-- The last step of a training: credits, and for the trunk a new measure of DELAY (R218, step 8; R241). -/
def Dev.opened (d : Dev) (i : GraftId) : Dev :=
  match i with
  | .vertical s => (d.grantCredits i.auth).startProbe s
  | .lateral _ => d.grantCredits i.auth

/-- A graft is up, both ways at full width. -/
structure Dev.UpFull (d : Dev) (g : GraftEnd) : Prop where
  state : d.gState g = 2
  statePeer : d.gState g.peer = 2
  width : d.gget g GRF_STAT.WIDTH GRFB_STAT.WIDTH = dataLanes g / 64
  widthPeer : d.gget g.peer GRF_STAT.WIDTH GRFB_STAT.WIDTH = dataLanes g / 64
  spares : d.gget g GRF_STAT.SPARES GRFB_STAT.SPARES = 0

theorem Dev.gget_of_regs {d d' : Dev} (h : d'.regs = d.regs) (g : GraftEnd) (t b : Fld) : d'.gget g t b = d.gget g t b := by
  cases g <;> exact Dev.get_of_regs h _ _ _

theorem Dev.UpFull.of_regs {d d' : Dev} {g : GraftEnd} (h : d.UpFull g) (hr : d'.regs = d.regs) : d'.UpFull g :=
  ⟨(Dev.gget_of_regs hr _ _ _).trans h.state, (Dev.gget_of_regs hr _ _ _).trans h.statePeer, (Dev.gget_of_regs hr _ _ _).trans h.width,
    (Dev.gget_of_regs hr _ _ _).trans h.widthPeer, (Dev.gget_of_regs hr _ _ _).trans h.spares⟩

/-- A width and its state, and spares mapped for no failed lane: the graft is up. -/
theorem Dev.upFull_of_clean (d : Dev) (g : GraftEnd) :
    ((((d.setWidth g (dataLanes g / 64)).setGState g 2).mapSpares g []).mapSpares g.peer []).UpFull g := by
  have hw : dataLanes g / 64 < 16 := by unfold dataLanes; split <;> decide
  obtain ⟨hstate, hstatePeer⟩ := (d.setWidth g (dataLanes g / 64)).gState_setGState g 2 (by decide)
  obtain ⟨hwidth, hwidthPeer⟩ := d.gget_setWidth g _ hw
  have hset := (d.setWidth g (dataLanes g / 64)).setGState_rewrites g 2
  have hmap := (((d.setWidth g (dataLanes g / 64)).setGState g 2).mapSpares_rewrites g []).andThen (Dev.mapSpares_rewrites _ g.peer [])
  constructor
  · exact (hmap.gget _ _ _ (by decide) (by decide)).trans hstate
  · exact (hmap.gget _ _ _ (by decide) (by decide)).trans hstatePeer
  · exact (hmap.gget _ _ _ (by decide) (by decide)).trans ((hset.gget _ _ _ (by decide) (by decide)).trans hwidth)
  · exact (hmap.gget _ _ _ (by decide) (by decide)).trans ((hset.gget _ _ _ (by decide) (by decide)).trans hwidthPeer)
  · exact (Dev.spares_mapSpares_end _ [] (graftPeer_ne g).symm).trans (Dev.spares_mapSpares_nil _ g)

/-- A training that finds no failed lane brings the graft up at full width, and grants credits; the trunk then measures DELAY (R218). -/
theorem Dev.train_clean (d : Dev) (i : GraftId) (r : TrainResult) (hr : r.auth = []) (ho : r.others = []) (hu : r.unknown = 0)
    (hf : d.foundFailed i.auth [] = []) (hf' : d.foundFailed i.auth.peer [] = []) :
    ∃ x : Dev, d.Rewrites trainFlds x ∧ x.UpFull i.auth ∧ d.train i.auth r = (true, x.opened i) := by
  have hself : i.auth.auth = i.auth := by cases i <;> rfl
  have hlanes : dataLanes i.auth.peer = dataLanes i.auth := by cases i <;> rfl
  have hstale := Dev.Rewrites.foldl (fun x (_ : Nat) => x.trainLog_rewrites i.auth 0 0 0 7 0) (List.range r.stale) d
  have hauth := (hstale.foundFailed i.auth [] (by decide)).trans hf
  have hpeer := (hstale.foundFailed i.auth.peer [] (by decide)).trans hf'
  have hrep := ((hstale.trans (Dev.reportFailed_rewrites _ i.auth [])).trans (Dev.reportFailed_rewrites _ i.auth.peer [])).trans
    (Dev.trainLog_rewrites _ i.auth 1 (dataLanes i.auth / 64) (dataLanes i.auth / 64) 0 0)
  have hup := ((hrep.trans (Dev.setWidth_rewrites _ i.auth (dataLanes i.auth / 64))).trans (Dev.setGState_rewrites _ i.auth 2)).trans
    ((Dev.mapSpares_rewrites _ i.auth []).andThen (Dev.mapSpares_rewrites _ i.auth.peer []))
  refine ⟨_, hup.mono (by decide), Dev.upFull_of_clean _ i.auth, ?_⟩
  unfold Dev.train
  simp only [hself, hr, ho, hu, List.isEmpty_nil, if_true, List.map_cons, List.map_nil, hauth, hpeer, List.getLastD_cons,
    List.getLastD_nil, agreeWidth_clean _ hlanes]
  cases i <;> rfl

end Sys2Proof.Machine
end

section
/-!
PROOFS. Lanes and training of grafts (R13, R218 to R226, R241).
-/

namespace Sys2Proof.Machine

/-! ### The trunk's delay probe (R241) -/

/-- A probe to a site. -/
def Packet.probes (p : Packet) (s : Nat) : Bool :=
  match p with
  | .probe t _ => t == s
  | _ => false

/-- What a probe's start leaves: its copy's record, and the packets under way, of which it is the only probe to its site. -/
theorem Dev.startProbe_spec (d : Dev) (s : Nat) : ∃ w c, d.startProbe s = { d with wire := w, copyState := c }
    ∧ (d.startProbe s).packets = (d.packets.filter fun p => !p.probes s) ++ [.probe s d.ring] := by
  have hcut : ∀ x : Dev, x.cutAtPort (.probe s d.ring) = false := fun _ => rfl
  have hlose : (d.lose fun p => p.probes s).packets = d.packets.filter fun p => !p.probes s := by
    simp only [Dev.packets, Dev.lose, List.filter_map]; rfl
  have hstart : d.startProbe s = (((d.lose fun p => p.probes s).setCopyInfo s { d.copyInfo s with measured := false }).send (.probe s d.ring)) :=
    Dev.emit_send (hcut _)
  refine ⟨_, _, hstart, ?_⟩
  rw [hstart, Dev.packets_send, ← hlose]
  rfl

/-- The last step of a training touches the ends, the packets under way and the copies' records alone. -/
theorem Dev.opened_frame (d : Dev) (i : GraftId) : ∃ g w c, d.opened i = { d with grafts := g, wire := w, copyState := c } := by
  cases i with
  | vertical s =>
    obtain ⟨w, c, h, _⟩ := (d.grantCredits (.trunk s)).startProbe_spec s
    exact ⟨_, w, c, h⟩
  | lateral s => exact ⟨_, _, _, rfl⟩

/-! ### The end of a graft's training at an idle power controller -/

/-- Once the firmware is ready the boot is over. -/
theorem Dev.bootCheck_ready (d : Dev) (h : d.flag MBX_FW.READY = true) : d.bootCheck = d := by simp [Dev.bootCheck, h]

theorem Dev.powerBusy_of {d d' : Dev} (h : d'.power = d.power) : d'.powerBusy = d.powerBusy := by simp [Dev.powerBusy, h]

/-- With nothing in progress the power controller does nothing. -/
theorem Dev.powerGo_idle (d : Dev) (h : d.powerBusy = false) : d.powerGo = d := by
  unfold Dev.powerGo Dev.powerSteps
  simp [h]

/-- Outside a reset, a wake and the boot, a bough whose graft has trained has its PLL locked. -/
theorem Dev.graftTrained_idle (d : Dev) (s : Nat) (up : Bool) (h : d.powerBusy = false) (hf : d.flag MBX_FW.READY = true) :
    d.graftTrained s up = if up then d.put BPW_STAT.PLL_LOCK 1 s else d := by
  simp only [Dev.powerBusy, Bool.or_eq_false_iff, Option.isSome_eq_false_iff, Option.isNone_iff_eq_none, Bool.not_eq_false'] at h
  obtain ⟨⟨⟨⟨_, hwaking⟩, hreset⟩, _⟩, _⟩ := h
  have hready : (d.put BPW_STAT.PLL_LOCK 1 s).flag MBX_FW.READY = true := (d.flag_put_name _ _ _ _ _ _ _ (by decide)).trans hf
  unfold Dev.graftTrained
  rw [hreset, List.isEmpty_iff.1 hwaking]
  cases up with
  | false => exact d.bootCheck_ready hf
  | true => exact Dev.bootCheck_ready _ hready

/-! ### Commands of training -/

theorem Dev.lt_of_siteActive {d : Dev} {s : Nat} (h : d.siteActive s = true) : s < 28 := by
  unfold Dev.siteActive at h
  simp only [Bool.and_eq_true, decide_eq_true_eq] at h
  exact h.1

theorem exec_graftTrainingDone_eq (i : GraftId) (r : TrainResult) (s : State) :
    exec (.graftTrainingDone i r) s = .next (s.on (graftTrainedEff i r)) := rfl

theorem exec_graftTrainingTimeout_eq (i : GraftId) (s : State) :
    exec (.graftTrainingTimeout i) s = .next (s.on (graftTimeoutEff i)) := rfl

theorem exec_graftFastRetrain_eq (i : GraftId) (r : TrainResult) (s : State) :
    exec (.graftFastRetrain i r) s = .next (s.on (graftRetrainEff i r)) := rfl

/-- A training that finds no failed lane brings both ends up at full width, and the trunk measures DELAY anew (R218, R241). -/
theorem exec_graftTrainingDone_clean (s : State) (i : Nat) (hp : s.dev.powered = true) (hb : s.dev.powerBusy = false)
    (hf : s.dev.flag MBX_FW.READY = true) (ha : s.dev.siteActive i = true) (hs : s.dev.gState (.trunk i) = 1)
    (hl : s.dev.foundFailed (.trunk i) [] = []) (hl' : s.dev.foundFailed (.bough i 0) [] = []) :
    ∃ x : Dev, s.dev.Rewrites trainFlds x ∧ x.UpFull (.trunk i) ∧ exec (.graftTrainingDone (.vertical i) { strap := i }) s =
      .next (s.withDev ((x.opened (.vertical i)).put BPW_STAT.PLL_LOCK 1 i)) := by
  obtain ⟨x, hx, hup, htrain⟩ := s.dev.train_clean (.vertical i) { strap := i } rfl rfl rfl hl hl'
  refine ⟨x, hx, hup, ?_⟩
  change s.dev.train (.trunk i) { strap := i } = (true, x.opened (.vertical i)) at htrain
  have hi : i < 28 := Dev.lt_of_siteActive ha
  obtain ⟨g, w, c, hopen⟩ := x.opened_frame (.vertical i)
  have hpower : (x.opened (.vertical i)).power = s.dev.power := by rw [hopen, hx.rest]
  have hready : (x.opened (.vertical i)).flag MBX_FW.READY = true := by
    rw [hopen]; exact (hx.flag MBX_FW.READY 0 0 (by decide)).trans hf
  have hbusy := (Dev.powerBusy_of hpower).trans hb
  have heff : graftTrainedEff (.vertical i) { strap := i } s.dev = (x.opened (.vertical i)).put BPW_STAT.PLL_LOCK 1 i := by
    unfold graftTrainedEff
    simp only [GraftId.auth, Dev.endExists, ha, hs, htrain]
    rw [if_neg (by simp), if_neg (by omega), if_neg (by simp)]
    exact (congrArg Dev.powerGo (Dev.graftTrained_idle _ i true hbusy hready)).trans (Dev.powerGo_idle _ hbusy)
  rw [exec_graftTrainingDone_eq, s.on_powered _ hp (by rw [heff, hopen, hx.rest]; rfl) (by rw [heff, hopen, hx.rest]; rfl), heff]

/-- What an end of a graft that retrains keeps: what the other end has not accepted, and no lane error count (R219). -/
def Dev.keptSide (d : Dev) (g : GraftEnd) : GraftSide := { (d.side g).pending (d.side g.peer).expect with errs := [] }

/-- Both ends keep what they keep. -/
def Dev.keepPending (d : Dev) (g : GraftEnd) : Dev := (d.modSide g fun _ => d.keptSide g).modSide g.peer fun _ => d.keptSide g.peer

theorem Dev.fastRetrain_eq (d : Dev) (i : GraftId) (r : TrainResult) : d.fastRetrain i.auth r =
    ((d.keepPending i.auth).gbump i.auth GRF_CNT.RETRAINS GRFB_CNT.RETRAINS 1).train i.auth r := by
  cases i <;> rfl

/-- A fast retrain of a graft without failed lanes is counted, and ends up at full width (R219). -/
theorem exec_graftFastRetrain_clean (s : State) (i : GraftId) (r : TrainResult) (hp : s.dev.powered = true)
    (he : s.dev.endExists i.auth = true) (hs : s.dev.gState i.auth = 4) (hr : r.auth = []) (ho : r.others = []) (hu : r.unknown = 0)
    (hl : s.dev.foundFailed i.auth [] = []) (hl' : s.dev.foundFailed i.auth.peer [] = []) :
    ∃ d : Dev, exec (.graftFastRetrain i r) s = .next (s.withDev d) ∧ d.UpFull i.auth
      ∧ d.gget i.auth GRF_CNT.RETRAINS GRFB_CNT.RETRAINS =
          min (s.dev.gget i.auth GRF_CNT.RETRAINS GRFB_CNT.RETRAINS + 1) (2 ^ 16 - 1) := by
  have hcount := (s.dev.keepPending i.auth).gbump_rewrites i.auth GRF_CNT.RETRAINS GRFB_CNT.RETRAINS 1
  obtain ⟨x, hx, hup, htrain⟩ := Dev.train_clean _ i r hr ho hu
    ((hcount.foundFailed i.auth [] (by decide)).trans hl) ((hcount.foundFailed i.auth.peer [] (by decide)).trans hl')
  obtain ⟨g, w, c, hopen⟩ := x.opened_frame i
  have hregs : (x.opened i).regs = x.regs := by rw [hopen]
  have heff : graftRetrainEff i r s.dev = x.opened i := by
    unfold graftRetrainEff
    simp only [he, hs, Dev.fastRetrain_eq, htrain]
    rfl
  refine ⟨x.opened i, ?_, hup.of_regs hregs, ?_⟩
  · rw [exec_graftFastRetrain_eq, s.on_powered _ hp (by rw [heff, hopen, hx.rest, hcount.rest]; rfl)
      (by rw [heff, hopen, hx.rest, hcount.rest]; rfl), heff]
  · rw [Dev.gget_of_regs hregs, hx.gget _ _ _ (by decide) (by decide), Dev.gget_gbump_same _ _ _ (by decide)]
    rfl

end Sys2Proof.Machine
end

section
/-!
PROOFS. A graft that goes down, and the isolation of its site (R197, R223, R224).
-/

namespace Sys2Proof.Machine

/-! ### What stays when a graft goes down -/

/-- The registers that no consequence of a graft's going down writes but the graft itself: those that say which sites are active and
which are isolated, and that the firmware is ready. -/
def siteRegs : RegName → Bool
  | .TRK_CAP | .FAB_ISO_STAT | .MBX_FW => true
  | _ => false

/-- Those and the graft's own registers. -/
def graftRegs (n : RegName) : Bool := siteRegs n || n.block == .grft || n.block == .grfb

theorem Dev.Stays.mono {K K' : RegName → Bool} {d d' : Dev} (h : d.Stays K d') (hK : ∀ n, K' n = true → K n = true) : d.Stays K' d' :=
  ⟨h.mem, h.board, h.power, fun r hr => h.reg r (hK _ hr)⟩

theorem siteRegs_graftRegs (n : RegName) (h : siteRegs n = true) : graftRegs n = true := by simp [graftRegs, h]

theorem graftRegs_of_cdcReg (n : RegName) (h : cdcReg n = true) : graftRegs n = false := by
  unfold cdcReg at h
  split at h
  · rfl
  · rfl
  · rfl
  · rfl
  · cases h

theorem Dev.raise_stays (d : Dev) (n : Nat) (i : EvInfo) : d.Stays graftRegs (d.raise n i) := .raise d n i graftRegs_of_cdcReg

theorem Dev.sendMsi_stays {K : RegName → Bool} (d : Dev) (t : Nat) : d.Stays K (d.sendMsi t) := by
  obtain ⟨w, h⟩ := d.sendMsi_frame t
  rw [h]
  exact ⟨rfl, rfl, rfl, fun _ _ => rfl⟩

theorem Dev.setIrq_stays {K : RegName → Bool} (d : Dev) (f : Fld) (b : Nat) (t : Fld) (u : Nat) (hf : K f.reg = false) :
    d.Stays K (d.setIrq f b t u) := by
  unfold Dev.setIrq
  dsimp only
  split
  · exact .refl d
  · exact (Dev.Stays.put d f _ u 0 hf).trans (Dev.sendMsi_stays _ _)

/-! ### Engines that fault -/

theorem Dev.leeEnter_stays (d : Dev) (n : Nat) (f : Fld) (hf : graftRegs f.reg = false) : d.Stays graftRegs (d.leeEnter n f) := by
  have put : ∀ (x : Dev) (g : Fld) (v : Nat), graftRegs g.reg = false → x.Stays graftRegs (x.put g v n) := fun x g v hg => .put x g v n 0 hg
  have idle : d.Stays graftRegs (d.leeIdle n) :=
    ((((put d _ _ rfl).trans (put _ _ _ rfl)).trans (put _ _ _ rfl)).trans (put _ _ _ rfl)).trans (put _ _ _ rfl)
  exact (idle.trans (put _ f 1 hf)).trans (put _ LEE_STAT.BLOCK 0 rfl)

theorem Dev.stopAfter_stays (d : Dev) (n : Nat) : d.Stays graftRegs (d.stopAfter n) := by
  have h : d.Stays graftRegs (d.modLee n fun e => { e with stopping := false }) := Dev.modLee_stays _ _ _
  unfold Dev.stopAfter
  dsimp only
  split
  · exact h
  · exact h.trans (Dev.leeEnter_stays _ n _ rfl)

theorem Dev.leeFault_stays (d : Dev) (n pc : Nat) (f : LeeFault) : d.Stays graftRegs (d.leeFault n pc f) := by
  have put : ∀ (x : Dev) (g : Fld) (v : Nat), graftRegs g.reg = false → x.Stays graftRegs (x.put g v n) := fun x g v hg => .put x g v n 0 hg
  have enter : d.Stays graftRegs (((d.modLee n fun e => { e with drain := .none, pipe := [] }).leeEnter n LEE_STAT.FAULTED).put LEE_PC.PC pc n) :=
    ((d.modLee_stays n _).trans (Dev.leeEnter_stays _ n _ rfl)).trans (put _ _ _ rfl)
  have record := (((enter.trans (put _ LEE_FAULT.VALID 1 rfl)).trans (put _ LEE_FAULT.CAUSE f.cause rfl)).trans
    (put _ LEE_FAULT.REF f.ref rfl)).trans ((put _ LEE_FAULT.PC pc rfl).trans (put _ LEE_FAULT_INFO.INFO f.info rfl))
  exact ((record.trans (Dev.setIrq_stays _ ⟨.LEE_IRQ_STAT, 3, 0⟩ 2 LEE_IRQ.TARGET n rfl)).trans (Dev.raise_stays _ _ _)).trans
    (Dev.stopAfter_stays _ n)

theorem Dev.drainCheck_stays (d : Dev) (n : Nat) : d.Stays graftRegs (d.drainCheck n) := by
  unfold Dev.drainCheck
  dsimp only
  split
  · exact .refl d
  · split
    · exact .ite (d.leeFault_stays n _ _)
    · exact .refl d

theorem Dev.breakGroup_stays (d : Dev) (g : Nat) : d.Stays graftRegs (d.breakGroup g) := by
  unfold Dev.breakGroup
  split
  · exact .refl d
  · exact ((Dev.Stays.put d FAB_MG_STAT.BROKEN 1 0 g rfl).trans (Dev.raise_stays _ _ _)).trans
      (.foldl (fun x n => .ite (x.drainCheck_stays n)) _ _)

theorem Dev.breakGroupsOf_stays (d : Dev) (b : Nat) : d.Stays graftRegs (d.breakGroupsOf b) :=
  .foldl (fun x g => .ite (x.breakGroup_stays g)) _ _

/-! ### Isolation (R197) -/

theorem Dev.lose_stays {K : RegName → Bool} (d : Dev) (f : Packet → Bool) : d.Stays K (d.lose f) := ⟨rfl, rfl, rfl, fun _ _ => rfl⟩

theorem Dev.ackLost_stays {K : RegName → Bool} (d : Dev) (m : XchMsg) : d.Stays K (d.ackLost m) := by
  unfold Dev.ackLost
  split
  · exact .refl d
  · exact d.modLee_stays _ _

theorem Dev.startPurge_stays (d : Dev) (q b : Nat) (poison software : Bool) : d.Stays graftRegs (d.startPurge q b poison software) :=
  .trans (d' := d.modHome q fun h => { h with purges := h.purges ++ [(b, poison, software)] }) ⟨rfl, rfl, rfl, fun _ _ => rfl⟩
    (.put _ DIR_PURGE.BUSY 1 q 0 rfl)

theorem Dev.dropTrace_stays {K : RegName → Bool} (d : Dev) (s : Nat) : d.Stays K (d.dropTrace s) :=
  .trans (d' := { d with packers := d.packers.filter fun p => p.1 != s }) ⟨rfl, rfl, rfl, fun _ _ => rfl⟩
    ((Dev.lose_stays _ _).trans (.foldl (fun x _ => x.modLee_stays _ _) _ _))

/-- Where no entry of a power state is under way none fails. -/
theorem Dev.entryFails_idle (d : Dev) (s result reason : Nat) (h : d.powerBusy = false) : d.entryFails s result reason = d := by
  have he : d.power.entries = [] := by
    simp only [Dev.powerBusy, Bool.or_eq_false_iff, Bool.not_eq_false', List.isEmpty_iff] at h
    exact h.1.1.1.1
  simp [Dev.entryFails, he]

theorem bit_setBit (m s : Nat) : bit (setBit m s true) s = true := by
  simp [bit, setBit, Nat.testBit_or, Nat.testBit_shiftLeft]

/-- The bit of an isolated site is set. -/
theorem Dev.isolated_put (d : Dev) (s : Nat) (hs : s < 28) :
    (d.put FAB_ISO_STAT.ISOLATED (setBit (d.get FAB_ISO_STAT.ISOLATED) s true)).isolated s = true := by
  unfold Dev.isolated
  rw [Dev.get_put_same _ _ _ _ _ (by decide) (by decide), bit, Nat.testBit_mod_two_pow]
  simp only [Bool.and_eq_true, decide_eq_true_eq]
  exact ⟨hs, bit_setBit _ s⟩

/-- What follows the bit of an isolated site: its event, the messages that are lost, the purges, and the groups that break. -/
theorem Dev.isolate_eq (d : Dev) (s : Nat) (ha : d.siteActive s = true) (hi : d.isolated s = false) (hb : d.powerBusy = false) :
    (d.put FAB_ISO_STAT.ISOLATED (setBit (d.get FAB_ISO_STAT.ISOLATED) s true)).Stays graftRegs (d.isolate s) := by
  unfold Dev.isolate
  rw [ha, hi, if_neg (by simp)]
  dsimp only
  generalize hx : d.put FAB_ISO_STAT.ISOLATED _ = x
  have hraise := x.raise_stays (26 + s) { severe := true }
  have hlost := hraise.trans ((Dev.lose_stays _ (Dev.sentByBough (x.raiseSevere (26 + s)) (d.boughAt s))).trans
    (.foldl (f := fun (e : Dev) (p : Packet) => match p with
      | .xch m => if (x.raiseSevere (26 + s)).senderCut m then e.ackLost m else e
      | _ => e) (fun e p => by
        split
        · exact .ite (e.ackLost_stays _)
        · exact .refl e) (x.raiseSevere (26 + s)).packets _))
  have hpurge := hlost.trans (.foldl (fun e q => e.startPurge_stays q (d.boughAt s) true false) (List.range 4) _)
  have htail := hpurge.trans ((Dev.dropTrace_stays _ s).trans (Dev.breakGroupsOf_stays _ (d.boughAt s)))
  have hbusy : x.powerBusy = false := by rw [← hx]; exact hb
  have hidle := Dev.entryFails_idle _ s 2 10 ((Dev.powerBusy_of htail.power).trans hbusy)
  exact hidle.symm ▸ htail

/-- Isolating an active site sets its bit, and leaves memory, the supply, the graft's registers and those that say which sites are active. -/
theorem Dev.isolate_spec (d : Dev) (s : Nat) (ha : d.siteActive s = true) (hb : d.powerBusy = false) :
    (d.isolate s).isolated s = true ∧ d.Stays (fun n => graftRegs n && n != .FAB_ISO_STAT) (d.isolate s) := by
  cases hi : d.isolated s with
  | true =>
    have heq : d.isolate s = d := by simp [Dev.isolate, hi]
    rw [heq]
    exact ⟨hi, .refl d⟩
  | false =>
    have htail := d.isolate_eq s ha hi hb
    refine ⟨?_, .trans (.put d _ _ 0 0 rfl) (htail.mono fun n hn => (Bool.and_eq_true _ _ ▸ hn).1)⟩
    unfold Dev.isolated
    rw [htail.get _ _ _ rfl]
    exact d.isolated_put s (Dev.lt_of_siteActive ha)

/-! ### A graft goes down (R223, R224) -/

/-- One end of a graft that goes down: its status, and what it has under way. -/
def Dev.endDown (d : Dev) (e : GraftEnd) (cause : Nat) : Dev :=
  (((d.gput e GRF_STAT.STATE GRFB_STAT.STATE 0).gput e GRF_STAT.WIDTH GRFB_STAT.WIDTH 0).gput e GRF_STAT.CAUSE GRFB_STAT.CAUSE cause).modSide
    e fun s => { s with replay := [], resend := none, rx := [], bad := [], fails := 0, asked := false, failing := [], later := [] }

theorem Dev.graftDown_vertical (d : Dev) (s cause : Nat) : d.graftDown (.trunk s) cause =
    (((d.endDown (.trunk s) cause).endDown (.bough s 0) cause).raiseSevere (26 + s)).isolate s := rfl

theorem Dev.graftDown_lateral (d : Dev) (s cause : Nat) : d.graftDown (.bough s 2) cause =
    ((((d.endDown (.bough s 2) cause).endDown (.bough (s + 1) 1) cause).raiseSevere (siteSource s 20)).unreachLateral).rerouteLateral s := rfl

theorem Dev.endDown_stays (d : Dev) (e : GraftEnd) (cause : Nat) : d.Stays siteRegs (d.endDown e cause) := by
  have gput : ∀ (x : Dev) (t b : Fld) (v : Nat), (∀ f ∈ [t, b], siteRegs f.reg = false) → x.Stays siteRegs (x.gput e t b v) :=
    fun x t b v h => (x.gput_rewrites e t b v).stays h
  exact (((gput d _ _ _ (by decide)).trans (gput _ _ _ _ (by decide))).trans (gput _ _ _ _ (by decide))).trans
    ⟨rfl, rfl, rfl, fun _ _ => rfl⟩

/-- An end that goes down is DOWN with its cause. -/
theorem Dev.endDown_status (d : Dev) (e : GraftEnd) (cause : Nat) (hc : cause < 16) :
    (d.endDown e cause).gState e = 0 ∧ (d.endDown e cause).gget e GRF_STAT.CAUSE GRFB_STAT.CAUSE = cause := by
  have hcause : ∀ (x : Dev), (x.gput e GRF_STAT.CAUSE GRFB_STAT.CAUSE cause).gget e GRF_STAT.STATE GRFB_STAT.STATE
      = x.gget e GRF_STAT.STATE GRFB_STAT.STATE := fun x => (x.gput_rewrites e _ _ _).gget e _ _ (by decide) (by decide)
  have hwidth : ∀ (x : Dev), (x.gput e GRF_STAT.WIDTH GRFB_STAT.WIDTH 0).gget e GRF_STAT.STATE GRFB_STAT.STATE
      = x.gget e GRF_STAT.STATE GRFB_STAT.STATE := fun x => (x.gput_rewrites e _ _ _).gget e _ _ (by decide) (by decide)
  unfold Dev.endDown Dev.gState
  rw [Dev.gget_modSide, Dev.gget_modSide, hcause, hwidth, Dev.gget_gput_same _ e 0 (by decide), Dev.gget_gput_same _ e cause (by decide)]
  exact ⟨rfl, Nat.mod_eq_of_lt hc⟩

/-- The status of another end stays. -/
theorem Dev.gget_endDown_end (d : Dev) {e h : GraftEnd} (cause : Nat) {t b : Fld} (ht : Twin t b) (hne : h ≠ e) :
    (d.endDown e cause).gget h t b = d.gget h t b := by
  unfold Dev.endDown
  rw [Dev.gget_modSide, Dev.gget_gput_end _ _ (by decide) ht hne, Dev.gget_gput_end _ _ (by decide) ht hne,
    Dev.gget_gput_end _ _ (by decide) ht hne]

/-- Both ends of a graft that goes down are DOWN with their cause. -/
theorem Dev.endsDown_status (d : Dev) (g : GraftEnd) (cause : Nat) (hc : cause < 16) :
    ((d.endDown g cause).endDown g.peer cause).gState g = 0 ∧ ((d.endDown g cause).endDown g.peer cause).gState g.peer = 0
      ∧ ((d.endDown g cause).endDown g.peer cause).gget g GRF_STAT.CAUSE GRFB_STAT.CAUSE = cause := by
  obtain ⟨hstate, hcause⟩ := d.endDown_status g cause hc
  refine ⟨?_, (Dev.endDown_status _ g.peer cause hc).1, ?_⟩
  · exact (Dev.gget_endDown_end _ cause (by decide) (graftPeer_ne g).symm).trans hstate
  · exact (Dev.gget_endDown_end _ cause (by decide) (graftPeer_ne g).symm).trans hcause

/-- The registers of grafts. -/
theorem Dev.Stays.gget {K : RegName → Bool} {d d' : Dev} (h : d.Stays K d') (g : GraftEnd) (t b : Fld) (ht : K t.reg = true)
    (hb : K b.reg = true) : d'.gget g t b = d.gget g t b := by
  cases g with
  | trunk s => exact h.get t s 0 ht
  | bough s p => exact h.get b s p hb

theorem Dev.siteActive_of_stays {K : RegName → Bool} {d d' : Dev} (h : d.Stays K d') (hK : K .TRK_CAP = true) (s : Nat) :
    d'.siteActive s = d.siteActive s := by
  unfold Dev.siteActive
  rw [h.get TRK_CAP.SITE_ACTIVE 0 0 hK]

/-- A graft between the trunk and a bough that goes down takes its site with it. -/
theorem Dev.graftDown_vertical_spec (d : Dev) (s cause : Nat) (hc : cause < 16) (ha : d.siteActive s = true) (hb : d.powerBusy = false) :
    (d.graftDown (.trunk s) cause).gState (.trunk s) = 0
      ∧ (d.graftDown (.trunk s) cause).gget (.trunk s) GRF_STAT.CAUSE GRFB_STAT.CAUSE = cause
      ∧ (d.graftDown (.trunk s) cause).isolated s = true
      ∧ d.Stays (fun n => siteRegs n && n != .FAB_ISO_STAT) (d.graftDown (.trunk s) cause) := by
  rw [Dev.graftDown_vertical]
  obtain ⟨hstate, _, hcause⟩ := d.endsDown_status (.trunk s) cause hc
  have hdown := (d.endDown_stays (.trunk s) cause).trans (Dev.endDown_stays _ (.bough s 0) cause)
  have hraise := Dev.raise_stays ((d.endDown (.trunk s) cause).endDown (.bough s 0) cause) (26 + s) { severe := true }
  have hall := hdown.trans (hraise.mono siteRegs_graftRegs)
  obtain ⟨hiso, htail⟩ := Dev.isolate_spec _ s ((Dev.siteActive_of_stays hall rfl s).trans ha) ((Dev.powerBusy_of hall.power).trans hb)
  refine ⟨?_, ?_, hiso, (hall.mono fun n hn => ?_).trans (htail.mono fun n hn => ?_)⟩
  · exact (htail.gget _ _ _ rfl rfl).trans ((hraise.gget _ _ _ rfl rfl).trans hstate)
  · exact (htail.gget _ _ _ rfl rfl).trans ((hraise.gget _ _ _ rfl rfl).trans hcause)
  · rw [Bool.and_eq_true] at hn; exact hn.1
  · rw [Bool.and_eq_true] at hn ⊢; exact ⟨siteRegs_graftRegs n hn.1, hn.2⟩

/-! ### Exchange traffic of a lateral graft that goes down -/

theorem Dev.emitSpan_stays {K : RegName → Bool} (d : Dev) (p : Packet) : d.Stays K (d.emitSpan p) := by
  have span : ∀ (c : Nat) (f : SpanSide → SpanSide), d.Stays K (d.modSpan c f) := fun _ _ => ⟨rfl, rfl, rfl, fun _ _ => rfl⟩
  unfold Dev.emitSpan
  split
  · exact .emit d p
  · dsimp only
    split
    · exact .refl d
    · split
      · exact span _ _
      · exact (span _ _).trans (.emit _ p)

theorem Dev.ackXch_stays (d : Dev) (m : XchMsg) (o : XchOutcome) : d.Stays graftRegs (d.ackXch m o) := by
  unfold Dev.ackXch
  split
  · exact .emit d _
  · unfold Dev.sendSpan
    split
    · exact d.emitSpan_stays _
    · exact .bump d SPN_CNT.TTL_DROP 1 _ 0 rfl

theorem Dev.unreachLateral_stays (d : Dev) : d.Stays graftRegs d.unreachLateral := by
  refine (d.lose_stays _).trans (.foldl (fun x p => ?_) _ _)
  split
  · exact x.ackXch_stays _ _
  · exact .refl x

theorem Dev.setRoute_stays {K : RegName → Bool} (d : Dev) (v kind unit vn entry value : Nat) : d.Stays K (d.setRoute v kind unit vn entry value) :=
  ⟨rfl, rfl, rfl, fun _ _ => rfl⟩

theorem Dev.rerouteLateral_stays (d : Dev) (low : Nat) : d.Stays graftRegs (d.rerouteLateral low) := by
  unfold Dev.rerouteLateral
  split
  · exact ⟨rfl, rfl, rfl, fun _ _ => rfl⟩
  · refine .trans (.foldl (fun x i => ?_) _ _) (.put _ FAB_ROUTE_SWAP.BUSY 1 0 0 rfl)
    dsimp only
    split
    · exact .refl x
    · exact .foldl (fun y b => .ite (y.setRoute_stays _ _ _ _ _ _)) _ _

/-- A lateral graft that goes down isolates no site. -/
theorem Dev.graftDown_lateral_spec (d : Dev) (s cause : Nat) (hc : cause < 16) :
    (d.graftDown (.bough s 2) cause).gState (.bough s 2) = 0
      ∧ (d.graftDown (.bough s 2) cause).gget (.bough s 2) GRF_STAT.CAUSE GRFB_STAT.CAUSE = cause
      ∧ (d.graftDown (.bough s 2) cause).gState (.bough (s + 1) 1) = 0
      ∧ d.Stays siteRegs (d.graftDown (.bough s 2) cause) := by
  rw [Dev.graftDown_lateral]
  obtain ⟨hstate, hpeer, hcause⟩ := d.endsDown_status (.bough s 2) cause hc
  have hdown := (d.endDown_stays (.bough s 2) cause).trans (Dev.endDown_stays _ (.bough (s + 1) 1) cause)
  have htail := (Dev.raise_stays ((d.endDown (.bough s 2) cause).endDown (.bough (s + 1) 1) cause) (siteSource s 20) { severe := true }).trans
    ((Dev.unreachLateral_stays _).trans (Dev.rerouteLateral_stays _ s))
  exact ⟨(htail.gget _ _ _ rfl rfl).trans hstate, (htail.gget _ _ _ rfl rfl).trans hcause, (htail.gget _ _ _ rfl rfl).trans hpeer,
    hdown.trans (htail.mono siteRegs_graftRegs)⟩

/-! ### Trainings that fail -/

/-- A training whose strap does not match takes the graft down with cause 1 and isolates the site (R13). -/
theorem exec_graftTrainingDone_strap (s : State) (i : Nat) (r : TrainResult) (hp : s.dev.powered = true) (hb : s.dev.powerBusy = false)
    (hf : s.dev.flag MBX_FW.READY = true) (ha : s.dev.siteActive i = true) (hs : s.dev.gState (.trunk i) = 1) (hr : r.strap ≠ i)
    (hr' : r.strap < 28) : exec (.graftTrainingDone (.vertical i) r) s = .next (s.withDev (s.dev.strapMismatch i r.strap)) := by
  have hlog := (s.dev.trainLog_rewrites (.trunk i) 0 0 0 5 r.strap).stays (K := siteRegs) (by decide)
  obtain ⟨_, _, _, hdown⟩ := Dev.graftDown_vertical_spec _ i 1 (by decide) ((Dev.siteActive_of_stays hlog rfl i).trans ha)
    ((Dev.powerBusy_of hlog.power).trans hb)
  have hbusy : (s.dev.strapMismatch i r.strap).powerBusy = false := (Dev.powerBusy_of (hdown.power.trans hlog.power)).trans hb
  have hready : (s.dev.strapMismatch i r.strap).flag MBX_FW.READY = true := ((hdown.flag _ _ _ rfl).trans (hlog.flag _ _ _ rfl)).trans hf
  have heff : graftTrainedEff (.vertical i) r s.dev = s.dev.strapMismatch i r.strap := by
    unfold graftTrainedEff
    simp only [GraftId.auth, Dev.endExists, ha, hs]
    rw [if_neg (by simp), if_neg (by omega), if_pos hr, Dev.graftTrained_idle _ i false hbusy hready]
    exact Dev.powerGo_idle _ hbusy
  rw [exec_graftTrainingDone_eq, s.on_powered _ hp (by rw [heff]; exact hdown.board.trans hlog.board)
    (by rw [heff]; exact hdown.power.trans hlog.power), heff]

/-- A die whose strap names no site never trains (R13). -/
theorem exec_graftTrainingDone_noSite (s : State) (i : Nat) (r : TrainResult) (hp : s.dev.powered = true) (hr : 28 ≤ r.strap) :
    exec (.graftTrainingDone (.vertical i) r) s = .next s := by
  have heff : graftTrainedEff (.vertical i) r s.dev = s.dev := by
    unfold graftTrainedEff
    dsimp only
    rw [if_pos hr, ite_self]
  rw [exec_graftTrainingDone_eq, s.on_powered _ hp (by rw [heff]) (by rw [heff]), heff]

/-- A lateral graft that trains for too long goes down with cause 2 (R218). -/
theorem exec_graftTrainingTimeout_lateral (s : State) (i : Nat) (hp : s.dev.powered = true) (he : s.dev.endExists (.bough i 2) = true)
    (hs : s.dev.gState (.bough i 2) = 1) : exec (.graftTrainingTimeout (.lateral i)) s =
      .next (s.withDev ((s.dev.trainLog (.bough i 2) 0 0 0 6 0).graftDown (.bough i 2) 2)) := by
  have hlog := (s.dev.trainLog_rewrites (.bough i 2) 0 0 0 6 0).stays (K := siteRegs) (by decide)
  obtain ⟨_, _, _, hdown⟩ := (s.dev.trainLog (.bough i 2) 0 0 0 6 0).graftDown_lateral_spec i 2 (by decide)
  have heff : graftTimeoutEff (.lateral i) s.dev = (s.dev.trainLog (.bough i 2) 0 0 0 6 0).graftDown (.bough i 2) 2 := by
    unfold graftTimeoutEff Dev.trainingTimeout
    simp only [GraftId.auth, he, hs]
    rfl
  rw [exec_graftTrainingTimeout_eq, s.on_stays _ hp (by rw [heff]; exact hlog.trans hdown), heff]

end Sys2Proof.Machine
end

section
/-!
PROOFS. Lanes of grafts: failing lanes, repair by spares, and the delay probe's return (R220, R221, R226, R241).
-/

namespace Sys2Proof.Machine

/-! ### Failed lanes (R220, R226) -/

/-- The lanes of a graft lie in the five registers of a lane map one after another. -/
theorem laneBit_eq {l : Nat} (h : l < 320) : laneBit l = (l / 64, l % 64) := by
  unfold laneBit
  split
  · rfl
  · rw [Prod.mk.injEq]; omega

theorem lt_of_mem_allLanes {g : GraftEnd} {l : Nat} (h : l ∈ allLanes g) : l < 320 := by
  have hdata : dataLanes g ≤ 256 := by unfold dataLanes; split <;> omega
  unfold allLanes at h
  simp only [List.mem_append, List.mem_range, List.mem_cons, List.not_mem_nil, or_false] at h
  rcases h with ((h | h) | h) | h
  · omega
  · have := spare_of_mem_spareLanes g (by decide) h; omega
  · have := spare_of_mem_spareLanes g (by decide) h; omega
  · omega

theorem Dev.markFailed_rewrites (d : Dev) (g : GraftEnd) (l : Nat) : d.Rewrites failRegs (d.markFailed g l) := by
  cases g with
  | trunk s => exact (Dev.Rewrites.put_whole d _ 1 _ _).mono (by simp)
  | bough s p => exact (Dev.Rewrites.put_whole d _ 1 _ _).mono (by simp)

/-- A bit of a register in which one bit is set. -/
theorem Dev.getLsbD_put_bit (d : Dev) (n : RegName) (u k k' i i' : Nat) (hi : i < 64) :
    ((d.put ⟨n, i, i⟩ 1 u k).reg ⟨n, u, k'⟩).getLsbD i' = (decide (k' = k ∧ i' = i) || (d.reg ⟨n, u, k'⟩).getLsbD i') := by
  by_cases hk : k' = k
  · subst hk
    rw [Dev.reg_put_same d ⟨n, i, i⟩, Word.getLsbD_setBits _ _ _ _ _ (le_refl i) hi]
    by_cases he : i' = i
    · subst he; simp
    · rw [if_neg (by omega)]; simp [he]
  · rw [d.reg_put_other ⟨n, i, i⟩ 1 u k fun e => hk (congrArg Reg.k e)]
    simp [hk]

/-- A lane that is marked failed is reported failed, and every other as before. -/
theorem Dev.laneFailed_markFailed (d : Dev) (g : GraftEnd) {l m : Nat} (hl : l < 320) (hm : m < 320) :
    (d.markFailed g l).laneFailed g m = (decide (m = l) || d.laneFailed g m) := by
  have hplace : m / 64 = l / 64 ∧ m % 64 = l % 64 ↔ m = l := by omega
  unfold Dev.markFailed Dev.laneFailed Dev.laneFlag
  rw [laneBit_eq hl, laneBit_eq hm]
  cases g with
  | trunk s =>
    dsimp only
    rw [Dev.getLsbD_put_bit _ _ _ _ _ _ _ (by omega)]
    simp only [hplace]
  | bough s p =>
    dsimp only
    rw [Dev.getLsbD_put_bit _ _ _ _ _ _ _ (by omega)]
    simp only [Nat.add_left_cancel_iff, hplace]

/-- The lanes that are marked failed one after another. -/
theorem Dev.laneFailed_foldl_markFailed (g : GraftEnd) (lanes : List Nat) (hl : ∀ l ∈ lanes, l < 320) (d : Dev) {m : Nat} (hm : m < 320) :
    (lanes.foldl (fun d l => d.markFailed g l) d).laneFailed g m = (decide (m ∈ lanes) || d.laneFailed g m) := by
  induction lanes generalizing d with
  | nil => simp
  | cons a t ih =>
    rw [List.forall_mem_cons] at hl
    rw [List.foldl_cons, ih hl.2, Dev.laneFailed_markFailed d g hl.1 hm]
    by_cases ha : m = a
    · simp [ha]
    · simp [ha]

/-- The registers of reported lanes. -/
def failMaps (n : RegName) : Bool := n == .GRF_LANE_FAIL || n == .GRFB_LANE_FAIL

/-- The registers of lanes that software marks. -/
def maskMaps (n : RegName) : Bool := n == .GRF_LANE_MASK || n == .GRFB_LANE_MASK

theorem Dev.Stays.laneFailed {d d' : Dev} (h : d.Stays failMaps d') (g : GraftEnd) (l : Nat) : d'.laneFailed g l = d.laneFailed g l := by
  unfold Dev.laneFailed Dev.laneFlag
  cases g with
  | trunk s => dsimp only; rw [h.reg _ rfl]
  | bough s p => dsimp only; rw [h.reg _ rfl]

theorem Dev.modSide_stays {K : RegName → Bool} (d : Dev) (g : GraftEnd) (f : GraftSide → GraftSide) : d.Stays K (d.modSide g f) :=
  ⟨rfl, rfl, rfl, fun _ _ => rfl⟩

/-- A pause changes the state of the graft alone among registers. -/
theorem Dev.pause_stays {K : RegName → Bool} (d : Dev) (g : GraftEnd) (lanes : List Nat) (hK : ∀ f ∈ stateFlds, K f.reg = false) :
    d.Stays K (d.pause g lanes) :=
  ((d.modSide_stays g _).trans ((Dev.setGState_rewrites _ g 3).stays hK)).trans (.emit _ _)

/-- Lanes that fail are reported failed; what the receiver then asks for leaves the lane maps. -/
theorem Dev.lanesFailing_stays {K : RegName → Bool} (d : Dev) (g : GraftEnd) (lanes : List Nat) (hK : ∀ f ∈ stateFlds, K f.reg = false) :
    (lanes.foldl (fun d l => d.markFailed g l) d).Stays K (d.lanesFailing g lanes) := by
  unfold Dev.lanesFailing
  dsimp only
  split
  · exact .refl _
  · split
    · exact Dev.pause_stays _ g _ hK
    · exact .ite (Dev.modSide_stays _ g _)

theorem Dev.lanesFailing_masks (d : Dev) (g : GraftEnd) (lanes : List Nat) : d.Stays maskMaps (d.lanesFailing g lanes) :=
  ((Dev.Rewrites.foldl (fun x l => x.markFailed_rewrites g l) lanes d).stays (by decide)).trans (d.lanesFailing_stays g lanes (by decide))

theorem Dev.laneFailed_lanesFailing (d : Dev) (g : GraftEnd) (lanes : List Nat) (hl : ∀ l ∈ lanes, l < 320) {m : Nat} (hm : m < 320) :
    (d.lanesFailing g lanes).laneFailed g m = (decide (m ∈ lanes) || d.laneFailed g m) := by
  rw [(d.lanesFailing_stays g lanes (by decide)).laneFailed, Dev.laneFailed_foldl_markFailed g lanes hl d hm]

/-- A lane whose errors reach the threshold is reported failed (R220). -/
theorem Dev.laneError_threshold (d : Dev) (g : GraftEnd) (l n : Nat) (hl : l < 320)
    (hth : d.gget g GRF_CTL.THRESH GRFB_CTL.THRESH ≤ min ((d.side g).errs.find 0 l + n) 65535) :
    d.Stays maskMaps (d.laneError g l n) ∧ ∀ m, m < 320 → (d.laneError g l n).laneFailed g m = (decide (m = l) || d.laneFailed g m) := by
  unfold Dev.laneError
  dsimp only
  have hside := d.modSide_stays (K := maskMaps) g fun s => { s with errs := s.errs.set natLt 0 l (min ((d.side g).errs.find 0 l + n) 65535) }
  split
  · refine ⟨hside.trans (Dev.lanesFailing_masks _ g [l]), fun m hm => ?_⟩
    rw [Dev.laneFailed_lanesFailing _ g [l] (by simpa using hl) hm]
    simp only [List.mem_singleton]
    rfl
  · rename_i hfail
    rw [Dev.gget_modSide] at hfail
    simp only [hth, decide_true, Bool.true_and, Bool.not_eq_true', Bool.not_eq_false] at hfail
    refine ⟨hside, fun m _ => ?_⟩
    by_cases hm : m = l
    · subst hm; simpa using hfail
    · simp only [hm, decide_false, Bool.false_or]; rfl

theorem exec_graftLaneLossOfLock_eq (g : GraftEnd) (l : Nat) (s : State) :
    exec (.graftLaneLossOfLock g l) s = .next (s.on (laneLossEff g l)) := rfl

/-- A lane that loses lock is reported failed, and no other (R220). -/
theorem exec_graftLaneLossOfLock_lane (s : State) (g : GraftEnd) (l : Nat) (hp : s.dev.powered = true) (he : s.dev.endExists g = true)
    (hl : (allLanes g).contains l = true) : ∃ d : Dev, exec (.graftLaneLossOfLock g l) s = .next (s.withDev d)
      ∧ ∀ m, m ∈ allLanes g → d.laneFailed g m = (decide (m = l) || s.dev.laneFailed g m) := by
  have hth : s.dev.gget g GRF_CTL.THRESH GRFB_CTL.THRESH < 256 := by
    cases g with
    | trunk s => exact Word.bits_lt _ 7 0
    | bough s p => exact Word.bits_lt _ 7 0
  obtain ⟨hstays, hfailed⟩ := s.dev.laneError_threshold g l
    (s.dev.gget g GRF_CTL.THRESH GRFB_CTL.THRESH - (s.dev.side g).errs.find 0 l) (lt_of_mem_allLanes (by simpa using hl)) (by omega)
  have heff : laneLossEff g l s.dev =
      s.dev.laneError g l (s.dev.gget g GRF_CTL.THRESH GRFB_CTL.THRESH - (s.dev.side g).errs.find 0 l) := by
    unfold laneLossEff
    rw [he, hl]
    rfl
  refine ⟨_, ?_, fun m hm => hfailed m (lt_of_mem_allLanes hm)⟩
  rw [exec_graftLaneLossOfLock_eq, s.on_stays _ hp (by rw [heff]; exact hstays), heff]

/-! ### Lanes that software marks (R226) -/

theorem exec_grfLaneMaskWrite_eq (g : GraftEnd) (k : Nat) (v : Word) (s : State) :
    exec (.grfLaneMaskWrite g k v) s = .next (s.on (laneMaskEff g k v)) := rfl

/-- The lanes of register k of a map that a value marks and an old one does not. -/
def newlyMarked (k : Nat) (old v : Word) : List Nat :=
  ((List.range 64).filter fun i => v.getLsbD i && !old.getLsbD i).map fun i => 64 * k + i

theorem mem_newlyMarked (k : Nat) (old v : Word) (l : Nat) :
    l ∈ newlyMarked k old v ↔ ∃ j < 64, v.getLsbD j = true ∧ old.getLsbD j = false ∧ l = 64 * k + j := by
  simp only [newlyMarked, List.mem_map, List.mem_filter, List.mem_range, Bool.and_eq_true, Bool.not_eq_true']
  exact ⟨fun ⟨j, ⟨hj, hv, ho⟩, he⟩ => ⟨j, hj, hv, ho, he.symm⟩, fun ⟨j, hj, hv, ho, he⟩ => ⟨j, ⟨hj, hv, ho⟩, he.symm⟩⟩

/-- A write of a mask register of a trunk port: the register takes the value, and the lanes newly marked fail. -/
theorem laneMaskEff_trunk (d : Dev) (i k : Nat) (v : Word) (ha : d.siteActive i = true) (hk : k < 4) :
    laneMaskEff (.trunk i) k v d =
      (d.setReg ⟨.GRF_LANE_MASK, i, k⟩ v).lanesFailing (.trunk i) (newlyMarked k (d.reg ⟨.GRF_LANE_MASK, i, k⟩) v) := by
  have hlegal : v &&& BitVec.allOnes 64 = v := BitVec.and_allOnes
  have hactive : (d.setReg ⟨.GRF_LANE_MASK, i, k⟩ v).siteActive i = true := by
    unfold Dev.siteActive
    rw [(Dev.Rewrites.setReg d ⟨.GRF_LANE_MASK, i, k⟩ v).get TRK_CAP.SITE_ACTIVE 0 0
      fun f hf => by rw [List.mem_singleton.1 hf]; exact .inl (show RegName.TRK_CAP ≠ .GRF_LANE_MASK by decide)]
    exact ha
  have hlanes : (newlyMarked k (d.reg ⟨.GRF_LANE_MASK, i, k⟩) v).filter (allLanes (.trunk i)).contains
      = newlyMarked k (d.reg ⟨.GRF_LANE_MASK, i, k⟩) v := List.filter_eq_self.2 fun l hl => by
    obtain ⟨j, hj, _, _, rfl⟩ := (mem_newlyMarked _ _ _ _).1 hl
    have hdata : 64 * k + j < dataLanes (.trunk i) := show 64 * k + j < 256 by omega
    simp [allLanes, hdata]
  have hk4 : k ≠ 4 := by omega
  unfold laneMaskEff
  simp only [hk4, if_false, hlegal, ha, Dev.endExists, hactive, if_true]
  rw [if_neg (by simp; omega)]
  exact congrArg _ hlanes

/-- What the receiver does when no lane fails is nothing. -/
theorem Dev.lanesFailing_nil (d : Dev) (g : GraftEnd) : d.lanesFailing g [] = d := rfl

/-- A value that marks no further lane marks none newly. -/
theorem newlyMarked_nil (k : Nat) (old v : Word) (h : v &&& ~~~old = 0) : newlyMarked k old v = [] := by
  refine List.eq_nil_iff_forall_not_mem.2 fun l hl => ?_
  obtain ⟨j, hj, hv, ho, _⟩ := (mem_newlyMarked _ _ _ _).1 hl
  have hbit : (v &&& ~~~old).getLsbD j = false := by rw [h]; exact BitVec.getLsbD_zero
  rw [BitVec.getLsbD_and, BitVec.getLsbD_not, hv, ho, decide_eq_true hj] at hbit
  cases hbit

/-- A lane that software marks is reported failed (R226). -/
theorem exec_grfLaneMaskWrite_trunk (s : State) (i k : Nat) (v : Word) (hp : s.dev.powered = true) (ha : s.dev.siteActive i = true)
    (hk : k < 4) : exec (.grfLaneMaskWrite (.trunk i) k v) s = .next (s.withDev
      ((s.dev.setReg ⟨.GRF_LANE_MASK, i, k⟩ v).lanesFailing (.trunk i) (newlyMarked k (s.dev.reg ⟨.GRF_LANE_MASK, i, k⟩) v))) := by
  have hset := (Dev.Rewrites.setReg s.dev ⟨.GRF_LANE_MASK, i, k⟩ v).stays (K := noRegister) (fun _ _ => rfl)
  have hfail := (Dev.lanesFailing_masks (s.dev.setReg ⟨.GRF_LANE_MASK, i, k⟩ v) (.trunk i)
    (newlyMarked k (s.dev.reg ⟨.GRF_LANE_MASK, i, k⟩) v)).mono (K' := noRegister) (fun _ h => by cases h)
  have heff := laneMaskEff_trunk s.dev i k v ha hk
  rw [exec_grfLaneMaskWrite_eq, s.on_stays _ hp (by rw [heff]; exact hset.trans hfail), heff]

/-! ### Repair by a spare (R221) -/

theorem exec_ctrlRepair_eq (g : GraftEnd) (s : State) : exec (.ctrlRepair g) s = .next (s.on (ctrlRepairEff g)) := rfl

/-- A failing data lane is replaced by the first spare of its half that works and is unused. -/
theorem Dev.repairLane_data (d : Dev) (g : GraftEnd) (l : Nat) (hl : l < 256) : d.repairLane g l =
    ((spareLanes g (halfOf g l)).find? fun s => !d.laneFailed g s && !d.laneMasked g s && (d.spareFor g (s - 256)).isNone).map fun s =>
      (d.setSpare g (s - 256) (some l)).gbump g GRF_CNT.REPAIRS GRFB_CNT.REPAIRS := by
  unfold Dev.repairLane
  have hdata : ¬(256 ≤ l ∧ l < 264) := by omega
  simp only [hl, if_true, hdata, if_false]

theorem Dev.Rewrites.spareFor {fs : List Fld} {d d' : Dev} (h : d.Rewrites fs d') (g : GraftEnd) (e : Nat)
    (hfs : ∀ f ∈ fs, RegName.GRF_SPARE ≠ f.reg ∧ RegName.GRFB_SPARE ≠ f.reg) : d'.spareFor g e = d.spareFor g e := by
  unfold Dev.spareFor
  rw [h.gget _ _ _ (fun f hf => .inl (hfs f hf).1) (fun f hf => .inl (hfs f hf).2),
    h.gget _ _ _ (fun f hf => .inl (hfs f hf).1) (fun f hf => .inl (hfs f hf).2)]

/-- A data lane has the place in its half that it has, and its half is one of two. -/
theorem halfOf_data (g : GraftEnd) {l : Nat} (h : l < dataLanes g) :
    halfOf g l < 2 ∧ halfOf g l * (dataLanes g / 2) + l % (dataLanes g / 2) = l := by
  have hdata : dataLanes g = 128 ∨ dataLanes g = 256 := by
    unfold dataLanes
    split
    · exact .inl rfl
    · exact .inr rfl
  unfold halfOf
  rw [if_pos (by omega)]
  rcases hdata with hd | hd
  · rw [hd] at h ⊢; omega
  · rw [hd] at h ⊢; omega

/-- Both senders resend from their oldest unacknowledged SEQ. -/
theorem Dev.resendAll_eq (d : Dev) (g : GraftEnd) : d.resendAll g =
    (d.modSide g fun s => { s with resend := s.replay.head?.map (·.1) }).modSide g.peer
      fun s => { s with resend := s.replay.head?.map (·.1) } := rfl

/-- With no lane left over from the pause none follows. -/
theorem Dev.nextPause_none (d : Dev) (g : GraftEnd) (h : (d.side g).later = []) (h' : (d.side g.peer).later = []) : d.nextPause g = d := by
  unfold Dev.nextPause
  split
  · rfl
  · simp [h, h']

/-- What a pause rewrites that replaces one lane by a spare. -/
abbrev repairFlds : List Fld := spareRegs ++ [GRF_CNT.REPAIRS, GRFB_CNT.REPAIRS] ++ sparesFlds ++ stateFlds

/-- A pause whose one lane a spare replaces: registers, and then both senders resend. -/
theorem Dev.linkPause_repair (d : Dev) (g : GraftEnd) (l : Nat) (hf : (d.side g).failing = [l]) (hl : l < dataLanes g)
    (hu : d.laneInUse g l = true) (hr : (d.repairLane g l).isSome = true) (hla : (d.side g).later = []) (hla' : (d.side g.peer).later = []) :
    ∃ x : Dev, (d.modSide g fun s => { s with failing := [] }).Rewrites repairFlds x ∧ d.linkPause g = x.resendAll g
      ∧ x.gState g = 2 ∧ x.gState g.peer = 2 ∧ (∃ e ∈ spares g, x.spareFor g e = some l)
      ∧ x.gget g GRF_CNT.REPAIRS GRFB_CNT.REPAIRS = min (d.gget g GRF_CNT.REPAIRS GRFB_CNT.REPAIRS + 1) (2 ^ 16 - 1) := by
  have hl256 : l < 256 := by unfold dataLanes at hl; split at hl <;> omega
  obtain ⟨hhalf, hplace⟩ := halfOf_data g hl
  rw [d.repairLane_data g l hl256, Option.isSome_map, Option.isSome_iff_exists] at hr
  obtain ⟨sp, hsp⟩ := hr
  obtain ⟨_, hsp8, hmem, hhalfsp⟩ := spare_of_mem_spareLanes g hhalf (List.mem_of_find?_eq_some hsp)
  generalize hy : d.modSide g (fun s => { s with failing := [] }) = y
  have hrepair : y.repairLane g l = some ((y.setSpare g (sp - 256) (some l)).gbump g GRF_CNT.REPAIRS GRFB_CNT.REPAIRS) := by
    rw [y.repairLane_data g l hl256, ← hy]
    exact congrArg (Option.map _) hsp
  have hset := y.setSpare_rewrites g (sp - 256) (some l)
  have hbump := (y.setSpare g (sp - 256) (some l)).gbump_rewrites g GRF_CNT.REPAIRS GRFB_CNT.REPAIRS 1
  generalize hz : (y.setSpare g (sp - 256) (some l)).gbump g GRF_CNT.REPAIRS GRFB_CNT.REPAIRS = z at hrepair hbump
  have hcount := (z.countSpares_rewrites g).trans (Dev.setGState_rewrites _ g 2)
  have hall := ((hset.trans hbump).trans (z.countSpares_rewrites g)).trans (Dev.setGState_rewrites _ g 2)
  obtain ⟨hstate, hstate'⟩ := (z.countSpares g).gState_setGState g 2 (by decide)
  refine ⟨_, hall, ?_, hstate, hstate', ⟨sp - 256, hmem, ?_⟩, ?_⟩
  · have huse : y.laneInUse g l = true := by rw [← hy]; exact hu
    have hpause : d.linkPause g = ((((z.countSpares g).setGState g 2).resendAll g).nextPause g) := by
      unfold Dev.linkPause
      rw [hf]
      simp only [hy, List.foldl_cons, List.foldl_nil, huse, hrepair]
      rfl
    rw [hpause, Dev.nextPause_none]
    · rw [Dev.resendAll_eq, Dev.side_modSide_other _ _ (graftPeer_ne g).symm, Dev.side_modSide_same, hall.side, ← hy,
        Dev.side_modSide_same]
      exact hla
    · rw [Dev.resendAll_eq, Dev.side_modSide_same, Dev.side_modSide_other _ _ (graftPeer_ne g), hall.side, ← hy,
        Dev.side_modSide_other _ _ (graftPeer_ne g)]
      exact hla'
  · rw [hcount.spareFor g _ (by decide), hbump.spareFor g _ (by decide), y.spareFor_setSpare_some g _ l hsp8, hhalfsp, hplace]
  · rw [hcount.gget _ _ _ (by decide) (by decide), ← hz, Dev.gget_gbump_same _ _ _ (by decide), hset.gget _ _ _ (by decide) (by decide), ← hy]
    rfl

/-- A pause replaces a failing lane by a spare, and both senders resend from the oldest unacknowledged SEQ (R221). -/
theorem exec_ctrlRepair_spare (s : State) (g : GraftEnd) (l : Nat) (hp : s.dev.powered = true) (hs : s.dev.gState g = 3)
    (hf : (s.dev.side g).failing = [l]) (hl : l < dataLanes g) (hu : s.dev.laneInUse g l = true)
    (hr : (s.dev.repairLane g l).isSome = true) (hla : (s.dev.side g).later = []) (hla' : (s.dev.side g.peer).later = []) :
    ∃ d : Dev, exec (.ctrlRepair g) s = .next (s.withDev d) ∧ d.gState g = 2 ∧ d.gState g.peer = 2 ∧ (d.side g).failing = []
      ∧ (d.side g).resend = (s.dev.side g).replay.head?.map (·.1) ∧ (∃ e ∈ spares g, d.spareFor g e = some l)
      ∧ d.gget g GRF_STAT.WIDTH GRFB_STAT.WIDTH = s.dev.gget g GRF_STAT.WIDTH GRFB_STAT.WIDTH
      ∧ d.gget g GRF_CNT.REPAIRS GRFB_CNT.REPAIRS = min (s.dev.gget g GRF_CNT.REPAIRS GRFB_CNT.REPAIRS + 1) (2 ^ 16 - 1) := by
  have hrepair : ((s.dev.take (.repair g)).repairLane g l).isSome = true := by
    have hl256 : l < 256 := by unfold dataLanes at hl; split at hl <;> omega
    rw [Dev.repairLane_data _ g l hl256, Option.isSome_map] at hr ⊢
    exact hr
  obtain ⟨x, hx, hpause, hstate, hstate', hspare, hcount⟩ :=
    (s.dev.take (.repair g)).linkPause_repair g l hf hl hu hrepair hla hla'
  have heff : ctrlRepairEff g s.dev = x.resendAll g := by
    unfold ctrlRepairEff
    rw [← hpause]
    exact if_pos hs
  have hside : (x.resendAll g).side g = { s.dev.side g with failing := [], resend := (s.dev.side g).replay.head?.map (·.1) } := by
    rw [Dev.resendAll_eq, Dev.side_modSide_other _ _ (graftPeer_ne g).symm, Dev.side_modSide_same, hx.side, Dev.side_modSide_same]
    rfl
  refine ⟨x.resendAll g, ?_, hstate, hstate', by rw [hside], by rw [hside], hspare, ?_, hcount⟩
  · rw [exec_ctrlRepair_eq, s.on_powered _ hp (by rw [heff, Dev.resendAll_eq, hx.rest]; rfl)
      (by rw [heff, Dev.resendAll_eq, hx.rest]; rfl), heff]
  · exact hx.gget g _ _ (by decide) (by decide)

end Sys2Proof.Machine
end

section
/-!
PROOFS. Flits of a graft, and the delay probe's return (R211 to R216, R220, R241).
-/

namespace Sys2Proof.Machine

theorem exec_flitReceive_eq (g : GraftEnd) (f : BitVec 512) (s : State) :
    exec (.flitReceive g f) s = .next (s.on (flitReceiveEff g f)) := rfl

theorem exec_ctrlRetry_eq (g : GraftEnd) (n : Nat) (s : State) : exec (.ctrlRetry g n) s = .next (s.on (ctrlRetryEff g n)) := rfl

theorem exec_laneErrorWindow_eq (g : GraftEnd) (s : State) : exec (.laneErrorWindow g) s = .next (s.on (laneWindowEff g)) := rfl

theorem exec_delayProbeReturn_eq (i t4 turn : Nat) (s : State) :
    exec (.delayProbeReturn i t4 turn) s = .next (s.on (delayProbeEff i t4 turn)) := rfl

/-! ### A flit that fails its CRC (R213, R216, R220) -/

/-- A DATA flit whose CRC fails is counted and kept, and its sender has sent it. -/
def Dev.badKept (d : Dev) (g : GraftEnd) (f : BitVec 512) (q : GraftSide) : Dev :=
  ((d.modSide g fun s => { s with crc := s.crc + 1 }).modSide g.peer fun _ => q).modSide g
    fun s => { s with bad := s.bad ++ [⟨(d.side g.peer).turn, f, d.physicalLanes g⟩] }

/-- The receiver asks again for the flits from the SEQ that it expects, once more in vain. -/
def Dev.asksAgain (d : Dev) (g : GraftEnd) : Dev :=
  ((d.modSide g fun s => { s with fails := (d.side g).fails + 1, asked := false }).modSide g fun s => { s with asked := true }).send
    (.retry g.peer (d.side g).expect)

theorem Dev.side_send (d : Dev) (p : Packet) (g : GraftEnd) : (d.send p).side g = d.side g := rfl

theorem Dev.seqFails_eq (d : Dev) (g : GraftEnd) :
    d.seqFails g = if 8 ≤ (d.side g).fails + 1 then (d.asksAgain g).setGState g 4 else d.asksAgain g := by
  have hcut : ∀ (x : Dev) (n : Nat), x.cutAtPort (.retry g.peer n) = false := fun _ _ => rfl
  have hask : (d.modSide g fun s => { s with fails := (d.side g).fails + 1, asked := false }).askRetry g = d.asksAgain g := by
    unfold Dev.askRetry Dev.asksAgain
    rw [Dev.side_modSide_same, if_neg (by simp), Dev.emit_send (hcut _ _)]
  unfold Dev.seqFails
  dsimp only
  rw [hask]

/-- The expected DATA flit fails its CRC. -/
theorem flitReceiveEff_bad (d : Dev) (g : GraftEnd) (f : BitVec 512) (q : GraftSide) (he : d.endExists g = true)
    (hb : d.graftBroken g = false) (hs : d.gState g = 2) (hc : flitCrc f ≠ flitBits f 511 496) (ht : flitBits f 2 0 = 1)
    (hq : (d.side g.peer).sends 0 false none = some q) (hturn : (d.side g.peer).turn = (d.side g).expect) :
    flitReceiveEff g f d = (d.badKept g f q).seqFails g := by
  generalize hx : d.modSide g (fun s => { s with crc := s.crc + 1 }) = x
  have hxs : x.gState g = 2 := by rw [← hx]; exact hs
  have hpeer : x.side g.peer = d.side g.peer := by rw [← hx]; exact d.side_modSide_other _ (graftPeer_ne g)
  have hlanes : x.physicalLanes g = d.physicalLanes g := by rw [← hx]; rfl
  have hexpect : ((d.badKept g f q).side g).expect = (d.side g).expect := by
    unfold Dev.badKept
    rw [Dev.side_modSide_same, Dev.side_modSide_other _ _ (graftPeer_ne g).symm, Dev.side_modSide_same]
  have hfails : x.flitFails g f = (d.badKept g f q).seqFails g := by
    unfold Dev.flitFails
    simp only [hxs, ht, beq_self_eq_true, decide_true, Bool.and_self, if_true, hpeer, hlanes, hq]
    rw [← hx]
    exact if_pos (hturn.trans hexpect.symm)
  unfold flitReceiveEff
  rw [he, hb, hs, if_neg (by simp), if_pos hc, hx]
  dsimp only
  rw [if_pos (by simp [hxs])]
  exact hfails

/-- The receiver's side when a flit has failed and been asked for again. -/
theorem Dev.side_asksAgain_badKept (d : Dev) (g : GraftEnd) (f : BitVec 512) (q : GraftSide) :
    ((d.badKept g f q).asksAgain g).side g =
      { d.side g with crc := (d.side g).crc + 1, fails := (d.side g).fails + 1, asked := true
                      bad := (d.side g).bad ++ [⟨(d.side g.peer).turn, f, d.physicalLanes g⟩] } := by
  unfold Dev.asksAgain Dev.badKept
  simp only [Dev.side_send, Dev.side_modSide_same, Dev.side_modSide_other _ _ (graftPeer_ne g).symm]

theorem Dev.side_asksAgain_badKept_peer (d : Dev) (g : GraftEnd) (f : BitVec 512) (q : GraftSide) :
    ((d.badKept g f q).asksAgain g).side g.peer = q := by
  unfold Dev.asksAgain Dev.badKept
  simp only [Dev.side_send, Dev.side_modSide_same, Dev.side_modSide_other _ _ (graftPeer_ne g)]

theorem Dev.side_asksAgain_badKept_other (d : Dev) (g h : GraftEnd) (f : BitVec 512) (q : GraftSide) (hg : h ≠ g) (hp : h ≠ g.peer) :
    ((d.badKept g f q).asksAgain g).side h = d.side h := by
  unfold Dev.asksAgain Dev.badKept
  simp only [Dev.side_send, Dev.side_modSide_other _ _ hg, Dev.side_modSide_other _ _ hp]

theorem Dev.badKept_frame (d : Dev) (g : GraftEnd) (f : BitVec 512) (q : GraftSide) : ∃ gr, d.badKept g f q = { d with grafts := gr } :=
  ⟨_, rfl⟩

theorem Dev.asksAgain_frame (d : Dev) (g : GraftEnd) : ∃ gr w, d.asksAgain g = { d with grafts := gr, wire := w } := ⟨_, _, rfl⟩

theorem Dev.packets_asksAgain (d : Dev) (g : GraftEnd) : (d.asksAgain g).packets = d.packets ++ [.retry g.peer (d.side g).expect] :=
  Dev.packets_send _ _

/-- Counting, keeping and asking again touch the ends and the packets under way alone. -/
theorem Dev.asksAgain_badKept_frame (d : Dev) (g : GraftEnd) (f : BitVec 512) (q : GraftSide) :
    ∃ gr w, (d.badKept g f q).asksAgain g = { d with grafts := gr, wire := w } := by
  obtain ⟨gr, hkept⟩ := d.badKept_frame g f q
  obtain ⟨gr', w, hask⟩ := (d.badKept g f q).asksAgain_frame g
  exact ⟨gr', w, by rw [hask, hkept]⟩

theorem Dev.fails_badKept (d : Dev) (g : GraftEnd) (f : BitVec 512) (q : GraftSide) :
    ((d.badKept g f q).side g).fails = (d.side g).fails ∧ ((d.badKept g f q).side g).expect = (d.side g).expect := by
  unfold Dev.badKept
  simp only [Dev.side_modSide_same, Dev.side_modSide_other _ _ (graftPeer_ne g).symm, and_self]

theorem Dev.packets_asksAgain_badKept (d : Dev) (g : GraftEnd) (f : BitVec 512) (q : GraftSide) :
    ((d.badKept g f q).asksAgain g).packets = d.packets ++ [.retry g.peer (d.side g).expect] := by
  obtain ⟨gr, hkept⟩ := d.badKept_frame g f q
  have hpackets : (d.badKept g f q).packets = d.packets := by rw [hkept]; rfl
  rw [Dev.packets_asksAgain, hpackets, (d.fails_badKept g f q).2]

/-- Fewer than eight failures in a row: the flits are asked for again. -/
theorem exec_flitReceive_bad (s : State) (g : GraftEnd) (f : BitVec 512) (q : GraftSide) (hp : s.dev.powered = true)
    (heff : flitReceiveEff g f s.dev = (s.dev.badKept g f q).seqFails g) (hn : (s.dev.side g).fails < 7) :
    exec (.flitReceive g f) s = .next (s.withDev ((s.dev.badKept g f q).asksAgain g)) := by
  have hx : flitReceiveEff g f s.dev = (s.dev.badKept g f q).asksAgain g := by
    rw [heff, Dev.seqFails_eq, (s.dev.fails_badKept g f q).1, if_neg (by omega)]
  obtain ⟨gr, w, hframe⟩ := s.dev.asksAgain_badKept_frame g f q
  rw [exec_flitReceive_eq, s.on_powered _ hp (by rw [hx, hframe]) (by rw [hx, hframe]), hx]

/-- The eighth failure in a row starts a fast retrain. -/
theorem exec_flitReceive_retrain (s : State) (g : GraftEnd) (f : BitVec 512) (q : GraftSide) (hp : s.dev.powered = true)
    (heff : flitReceiveEff g f s.dev = (s.dev.badKept g f q).seqFails g) (hn : 7 ≤ (s.dev.side g).fails) :
    exec (.flitReceive g f) s = .next (s.withDev (((s.dev.badKept g f q).asksAgain g).setGState g 4)) := by
  have hx : flitReceiveEff g f s.dev = ((s.dev.badKept g f q).asksAgain g).setGState g 4 := by
    rw [heff, Dev.seqFails_eq, (s.dev.fails_badKept g f q).1, if_pos (by omega)]
  have hset := ((s.dev.badKept g f q).asksAgain g).setGState_rewrites g 4
  obtain ⟨gr, w, hframe⟩ := s.dev.asksAgain_badKept_frame g f q
  rw [exec_flitReceive_eq, s.on_powered _ hp (by rw [hx, hset.rest, hframe]) (by rw [hx, hset.rest, hframe]), hx]

/-! ### A data flit that arrives (R214 to R216) -/

/-- The acknowledgement and the credits that a flit carries come to the sender of its end. -/
def GraftSide.told (s : GraftSide) (f : BitVec 512) : GraftSide :=
  ((if f.getLsbD 24 then s.acked (flitBits f 23 16) else s).credited (flitBits f 27 25) (flitBits f 33 28)).credited
    (flitBits f 36 34) (flitBits f 42 37)

/-- They change the sender's buffer and credits alone. -/
theorem GraftSide.told_frame (s : GraftSide) (f : BitVec 512) : ∃ r c, s.told f = { s with replay := r, credits := c } := by
  have hack : ∃ r, (if f.getLsbD 24 then s.acked (flitBits f 23 16) else s) = { s with replay := r } := by
    unfold GraftSide.acked
    split
    · split
      · exact ⟨_, rfl⟩
      · exact ⟨_, rfl⟩
    · exact ⟨_, rfl⟩
  obtain ⟨r, hr⟩ := hack
  unfold GraftSide.told
  rw [hr]
  exact ⟨_, _, rfl⟩

/-- A receiver takes the flit that it expects, with no failed copy to compare it with. -/
def GraftSide.takes (s : GraftSide) : GraftSide := { s with expect := (s.expect + 1) % 256, asked := false, fails := 0, bad := [] }

/-- The state in which a data flit is accepted: its sender has sent it, and its receiver has taken it. -/
def Dev.flitTaken (d : Dev) (g : GraftEnd) (f : BitVec 512) (p : GraftSide) : Dev :=
  ((d.modSide g.peer fun _ => p).modSide g fun s => s.told f).modSide g GraftSide.takes

theorem Dev.side_flitTaken (d : Dev) (g : GraftEnd) (f : BitVec 512) (p : GraftSide) :
    (d.flitTaken g f p).side g = ((d.side g).told f).takes := by
  unfold Dev.flitTaken
  simp only [Dev.side_modSide_same, Dev.side_modSide_other _ _ (graftPeer_ne g).symm]

theorem Dev.flitTaken_frame (d : Dev) (g : GraftEnd) (f : BitVec 512) (p : GraftSide) : ∃ gr, d.flitTaken g f p = { d with grafts := gr } :=
  ⟨_, rfl⟩

theorem Dev.side_flitTaken_other (d : Dev) (g h : GraftEnd) (f : BitVec 512) (p : GraftSide) (hg : h ≠ g) (hp : h ≠ g.peer) :
    (d.flitTaken g f p).side h = d.side h := by
  unfold Dev.flitTaken
  simp only [Dev.side_modSide_other _ _ hg, Dev.side_modSide_other _ _ hp]

/-- A change of an end to what it is at that end. -/
theorem Dev.modSide_congr (d : Dev) (g : GraftEnd) {f f' : GraftSide → GraftSide} (h : f (d.side g) = f' (d.side g)) :
    d.modSide g f = d.modSide g f' := by
  exact congrArg (fun x => { d with grafts := d.grafts.set endLt {} g x }) h

/-- The expected data flit with no failed copies is taken, and accepted. -/
theorem Dev.dataArrives_expected (d : Dev) (g : GraftEnd) (f : BitVec 512) (hseq : flitBits f 15 8 = (d.side g).expect)
    (hbad : (d.side g).bad = []) : d.dataArrives g f = (d.modSide g GraftSide.takes).flitAccepted g (flitBits f 5 3) f := by
  have htakes : d.modSide g (fun s => { s with expect := (flitBits f 15 8 + 1) % 256, asked := false, fails := 0, bad := s.bad.filter fun b => b.seq != flitBits f 15 8 })
      = d.modSide g GraftSide.takes := d.modSide_congr g (by simp [GraftSide.takes, hseq, hbad])
  unfold Dev.dataArrives
  dsimp only
  rw [if_neg (not_not.2 hseq), htakes, hbad]
  rfl

/-- A data flit that its sender may send and its receiver expects. -/
theorem flitReceiveEff_data (d : Dev) (g : GraftEnd) (f : BitVec 512) (p : GraftSide) (he : d.endExists g = true)
    (hb : d.graftBroken g = false) (hs : d.gState g = 2) (hc : flitCrc f = flitBits f 511 496) (ht : flitBits f 2 0 = 1)
    (hseq : flitBits f 15 8 = (d.side g).expect) (hp : d.flitSent g f = some p) (hbad : (d.side g).bad = []) :
    flitReceiveEff g f d = (d.flitTaken g f p).flitAccepted g (flitBits f 5 3) f := by
  obtain ⟨r, c, htold⟩ := (d.side g).told_frame f
  have hside : ((d.modSide g.peer fun _ => p).modSide g fun s => s.told f).side g = (d.side g).told f := by
    rw [Dev.side_modSide_same, Dev.side_modSide_other _ _ (graftPeer_ne g).symm]
  have harrives := Dev.dataArrives_expected ((d.modSide g.peer fun _ => p).modSide g fun s => s.told f) g f
    (by rw [hside, htold]; exact hseq) (by rw [hside, htold]; exact hbad)
  unfold flitReceiveEff
  simp only [he, hb, hs, hp]
  rw [if_neg (by simp), if_neg (not_not.2 hc), if_neg (by decide), if_pos ht]
  exact harrives

/-- The flits of a packet of a VN so far, with one that is accepted. -/
def GraftSide.gathers (s : GraftSide) (vn : Nat) (f : BitVec 512) : List (BitVec 512) :=
  if f.getLsbD 6 then [f] else if (s.rx.find [] vn).isEmpty then [] else s.rx.find [] vn ++ [f]

/-- A flit of a vertical graft that is not the last of its packet is gathered. -/
theorem Dev.flitAccepted_gathers (d : Dev) (g : GraftEnd) (vn : Nat) (f : BitVec 512) (hg : g.lateral = false) (hf : f.getLsbD 7 = false) :
    d.flitAccepted g vn f = d.modSide g fun s => { s with rx := s.rx.set natLt [] vn ((d.side g).gathers vn f) } := by
  unfold Dev.flitAccepted
  simp only [hg, hf, Bool.false_and, Bool.false_eq_true, if_false]
  rfl

/-- A packet of one flit crosses a vertical graft. -/
theorem Dev.flitAccepted_packet (d : Dev) (g : GraftEnd) (vn : Nat) (f : BitVec 512) (hg : g.lateral = false) (hf : f.getLsbD 6 = true)
    (hf' : f.getLsbD 7 = true) :
    d.flitAccepted g vn f = (d.modSide g fun s => { s with rx := s.rx.set natLt [] vn [] }).packetCrossed g (flitHeader f) := by
  unfold Dev.flitAccepted
  simp only [hg, hf, hf', if_true, Bool.false_and, Bool.false_eq_true, if_false]
  rfl

/-- A packet that is discarded as unroutable leaves the grafts, memory and the supply. -/
theorem Dev.unrouted_stays (d : Dev) (vn dnode : Nat) : d.Stays noRegister (d.unrouted vn dnode) ∧ (d.unrouted vn dnode).grafts = d.grafts := by
  have put : ∀ (x : Dev) (f : Fld) (v : Nat), x.Stays noRegister (x.put f v) := fun x f v => .put x f v _ _ rfl
  have hcount : d.Stays noRegister (d.bump FAB_UNROUTE.COUNT) := .bump d _ _ _ _ rfl
  unfold Dev.unrouted
  dsimp only
  split
  · refine ⟨hcount.trans (.raise _ _ _ fun _ _ => rfl), ?_⟩
    obtain ⟨r, w, a, h⟩ := (d.bump FAB_UNROUTE.COUNT).raise_frame 2 {}
    rw [h]; rfl
  · refine ⟨(((hcount.trans (put _ _ _)).trans (put _ _ _)).trans (put _ _ _)).trans (.raise _ _ _ fun _ _ => rfl), ?_⟩
    obtain ⟨r, w, a, h⟩ := ((((d.bump FAB_UNROUTE.COUNT).put FAB_UNROUTE.VALID 1).put FAB_UNROUTE.VN vn).put FAB_UNROUTE.DNODE dnode).raise_frame 2 {}
    rw [h]; rfl

theorem Dev.routePacket_stays (d : Dev) (p : MeshPkt) (rv : Nat) :
    d.Stays noRegister (d.routePacket p rv) ∧ (d.routePacket p rv).grafts = d.grafts := by
  unfold Dev.routePacket
  dsimp only
  split
  · exact ⟨⟨rfl, rfl, rfl, fun _ _ => rfl⟩, rfl⟩
  · exact d.unrouted_stays _ _

/-- A packet that has crossed is the last of its end; its route leaves the grafts, memory and the supply. -/
theorem Dev.packetCrossed_spec (d : Dev) (g : GraftEnd) (h : MeshPkt × Nat) : d.Stays noRegister (d.packetCrossed g h)
    ∧ (d.packetCrossed g h).side g = { d.side g with last := some h } := by
  have hlast := d.modSide_stays (K := noRegister) g fun s => { s with last := some h }
  have hside := d.side_modSide_same g fun s => { s with last := some h }
  unfold Dev.packetCrossed
  dsimp only
  split
  · obtain ⟨hstays, hgrafts⟩ := Dev.routePacket_stays (d.modSide _ fun s => { s with last := some h }) h.1 h.2
    refine ⟨hlast.trans hstays, ?_⟩
    rw [← hside]
    unfold Dev.side
    rw [hgrafts]
  · exact ⟨hlast, hside⟩

/-! ### The delay probe's return (R241) -/

/-- A sync message that is sent, where one is, is the only thing that changes. -/
theorem Dev.sendSync_spec (d : Dev) (i : Nat) : (∃ w, d.sendSync i = { d with wire := w })
    ∧ ∀ p ∈ (d.sendSync i).packets, p ∈ d.packets ∨ p = .ringSync i d.ring := by
  unfold Dev.sendSync
  split
  · refine ⟨d.emit_frame _, fun p hp => ?_⟩
    unfold Dev.emit at hp
    split at hp
    · exact .inl hp
    · simpa using hp
  · exact ⟨⟨_, rfl⟩, fun p hp => .inl hp⟩

/-- The trunk's state once the probe's round trip is known. -/
def Dev.delayKnown (d : Dev) (i t4 turn : Nat) (t1 : Word) : Dev :=
  ((d.take (.probe i t1)).put TIM_SITE.DELAY ((t4 - t1.toNat - turn) / 2) 0 i).setCopyInfo i
    { ((d.take (.probe i t1)).put TIM_SITE.DELAY ((t4 - t1.toNat - turn) / 2) 0 i).copyInfo i with measured := true }

/-- A probe that returns gives DELAY, and the copy is then synchronised. -/
theorem exec_delayProbeReturn_delay (s : State) (i turn : Nat) (t1 : Word) (hp : s.dev.powered = true)
    (hw : s.dev.packets = [.probe i t1]) : exec (.delayProbeReturn i s.dev.ring.toNat turn) s =
      .next (s.withDev ((s.dev.delayKnown i s.dev.ring.toNat turn t1).sendSync i)) := by
  have heff : delayProbeEff i s.dev.ring.toNat turn s.dev = (s.dev.delayKnown i s.dev.ring.toNat turn t1).sendSync i := by
    unfold delayProbeEff
    simp only [ne_eq, not_true_eq_false, if_false, hw, List.findSome?_cons, if_true]
    rfl
  obtain ⟨⟨w, hsync⟩, _⟩ := (s.dev.delayKnown i s.dev.ring.toNat turn t1).sendSync_spec i
  rw [exec_delayProbeReturn_eq, s.on_powered _ hp (by rw [heff, hsync]; rfl) (by rw [heff, hsync]; rfl), heff]

/-- What the trunk then has: DELAY, a measured copy, and no probe under way. -/
theorem Dev.delayKnown_spec (d : Dev) (i t4 turn : Nat) (t1 : Word) (hw : d.packets = [.probe i t1]) :
    (d.delayKnown i t4 turn t1).get TIM_SITE.DELAY 0 i = (t4 - t1.toNat - turn) / 2 % 2 ^ 16
      ∧ ((d.delayKnown i t4 turn t1).copyInfo i).measured = true ∧ (d.delayKnown i t4 turn t1).packets = []
      ∧ ∀ r : Reg, r ≠ ⟨.TIM_SITE, 0, i⟩ → (d.delayKnown i t4 turn t1).reg r = d.reg r := by
  refine ⟨(d.take (.probe i t1)).get_put_same TIM_SITE.DELAY _ 0 i (by decide) (by decide), ?_, ?_, fun r hr => ?_⟩
  · simp [Dev.delayKnown, Dev.copyInfo, Dev.setCopyInfo]
  · have htake : (d.take (.probe i t1)).packets = [] := by rw [Dev.packets_take, hw, List.erase_cons_head]
    exact htake
  · exact (d.take (.probe i t1)).reg_put_other TIM_SITE.DELAY _ 0 i hr

/-! ### RETRY, and the interval of the error counts (R216, R220) -/

/-- A RETRY is counted, and its sender resends from the named SEQ. -/
theorem ctrlRetryEff_up (d : Dev) (g : GraftEnd) (n : Nat) (he : d.endExists g = true) (hs : 2 ≤ d.gState g) : ctrlRetryEff g n d =
    ((d.take (.retry g n)).gbump g GRF_CNT.REPLAYS GRFB_CNT.REPLAYS).modSide g fun s => { s with resend := some n } := by
  have hexists : (d.take (.retry g n)).endExists g = true := he
  have hstate : ¬(d.take (.retry g n)).gState g < 2 := not_lt.2 hs
  unfold ctrlRetryEff
  simp [hexists, hstate]

end Sys2Proof.Machine
end

section
/-!
PROOFS. Grafts: flits, lanes and training, put together (spec/09, R13, R211 to R226, R241).
-/

namespace Sys2Proof.Machine

/-- A flit whose CRC fails is counted, kept and asked for again (R213, R216, R220). -/
theorem flit_crc_fails (s : State) (g : GraftEnd) (f : BitVec 512) (hp : s.dev.powered = true) (he : s.dev.endExists g = true)
    (hb : s.dev.graftBroken g = false) (hs : s.dev.gState g = 2) (hc : flitCrc f ≠ flitBits f 511 496) (ht : flitBits f 2 0 = 1)
    (hq : ((s.dev.side g.peer).sends 0 false none).isSome = true) (hturn : (s.dev.side g.peer).turn = (s.dev.side g).expect)
    (hn : (s.dev.side g).fails < 7) :
    ∃ d : Dev, exec (.flitReceive g f) s = .next (s.withDev d) ∧ d = { s.dev with grafts := d.grafts, wire := d.wire }
      ∧ d.packets = s.dev.packets ++ [.retry g.peer (s.dev.side g).expect]
      ∧ d.side g = { s.dev.side g with crc := (s.dev.side g).crc + 1, fails := (s.dev.side g).fails + 1, asked := true
                                       bad := (s.dev.side g).bad ++ [⟨(s.dev.side g).expect, f, s.dev.physicalLanes g⟩] }
      ∧ some (d.side g.peer) = (s.dev.side g.peer).sends 0 false none ∧ ∀ h, h ≠ g → h ≠ g.peer → d.side h = s.dev.side h := by
  obtain ⟨q, hq⟩ := Option.isSome_iff_exists.1 hq
  have heff := flitReceiveEff_bad s.dev g f q he hb hs hc ht hq hturn
  obtain ⟨gr, w, hframe⟩ := s.dev.asksAgain_badKept_frame g f q
  refine ⟨_, exec_flitReceive_bad s g f q hp heff hn, by rw [hframe], s.dev.packets_asksAgain_badKept g f q, ?_, ?_,
    fun h hg hgp => s.dev.side_asksAgain_badKept_other g h f q hg hgp⟩
  · rw [s.dev.side_asksAgain_badKept, hturn]
  · rw [s.dev.side_asksAgain_badKept_peer, hq]

/-- The eighth failure in a row starts a fast retrain (R216). -/
theorem flit_crc_retrain (s : State) (g : GraftEnd) (f : BitVec 512) (hp : s.dev.powered = true) (he : s.dev.endExists g = true)
    (hb : s.dev.graftBroken g = false) (hs : s.dev.gState g = 2) (hc : flitCrc f ≠ flitBits f 511 496) (ht : flitBits f 2 0 = 1)
    (hq : ((s.dev.side g.peer).sends 0 false none).isSome = true) (hturn : (s.dev.side g.peer).turn = (s.dev.side g).expect)
    (hn : 7 ≤ (s.dev.side g).fails) :
    ∃ d : Dev, exec (.flitReceive g f) s = .next (s.withDev d) ∧ d.gState g = 4 ∧ d.gState g.peer = 4 ∧ d.mem = s.dev.mem := by
  obtain ⟨q, hq⟩ := Option.isSome_iff_exists.1 hq
  have heff := flitReceiveEff_bad s.dev g f q he hb hs hc ht hq hturn
  obtain ⟨gr, w, hframe⟩ := s.dev.asksAgain_badKept_frame g f q
  obtain ⟨hstate, hstate'⟩ := ((s.dev.badKept g f q).asksAgain g).gState_setGState g 4 (by decide)
  exact ⟨_, exec_flitReceive_retrain s g f q hp heff hn, hstate, hstate',
    by rw [(((s.dev.badKept g f q).asksAgain g).setGState_rewrites g 4).rest, hframe]⟩

/-- A data flit with the expected SEQ is taken, and its packet's flits gather (R214 to R216). -/
theorem flit_data_gathers (s : State) (g : GraftEnd) (f : BitVec 512) (hp : s.dev.powered = true) (he : s.dev.endExists g = true)
    (hb : s.dev.graftBroken g = false) (hg : g.lateral = false) (hs : s.dev.gState g = 2) (hc : flitCrc f = flitBits f 511 496)
    (ht : flitBits f 2 0 = 1) (hseq : flitBits f 15 8 = (s.dev.side g).expect) (hsent : (s.dev.flitSent g f).isSome = true)
    (hbad : (s.dev.side g).bad = []) (hf : f.getLsbD 7 = false) :
    ∃ d : Dev, exec (.flitReceive g f) s = .next (s.withDev d) ∧ d = { s.dev with grafts := d.grafts }
      ∧ (d.side g).expect = ((s.dev.side g).expect + 1) % 256 ∧ (d.side g).fails = 0 ∧ (d.side g).crc = (s.dev.side g).crc
      ∧ (d.side g).rx.find [] (flitBits f 5 3) = (s.dev.side g).gathers (flitBits f 5 3) f
      ∧ ∀ h, h ≠ g → h ≠ g.peer → d.side h = s.dev.side h := by
  obtain ⟨p, hsent⟩ := Option.isSome_iff_exists.1 hsent
  obtain ⟨r, c, htold⟩ := (s.dev.side g).told_frame f
  have hside := (s.dev.side_flitTaken g f p).trans (congrArg GraftSide.takes htold)
  have heff := (flitReceiveEff_data s.dev g f p he hb hs hc ht hseq hsent hbad).trans
    (Dev.flitAccepted_gathers _ g (flitBits f 5 3) f hg hf)
  obtain ⟨gr, hframe⟩ := s.dev.flitTaken_frame g f p
  refine ⟨_, by rw [exec_flitReceive_eq, s.on_powered _ hp (by rw [heff, hframe]; rfl) (by rw [heff, hframe]; rfl), heff], ?_, ?_, ?_, ?_, ?_,
    fun h hh hh' => ?_⟩
  · rw [hframe]; rfl
  · rw [Dev.side_modSide_same, hside]; rfl
  · rw [Dev.side_modSide_same, hside]; rfl
  · rw [Dev.side_modSide_same, hside]; rfl
  · rw [Dev.side_modSide_same, hside, KMap.find_set_same]; rfl
  · rw [Dev.side_modSide_other _ _ hh, s.dev.side_flitTaken_other g h f p hh hh']

/-- With the last flit of a packet its header is read (R214). -/
theorem flit_data_packet (s : State) (g : GraftEnd) (f : BitVec 512) (hp : s.dev.powered = true) (he : s.dev.endExists g = true)
    (hb : s.dev.graftBroken g = false) (hg : g.lateral = false) (hs : s.dev.gState g = 2) (hc : flitCrc f = flitBits f 511 496)
    (ht : flitBits f 2 0 = 1) (hseq : flitBits f 15 8 = (s.dev.side g).expect) (hsent : (s.dev.flitSent g f).isSome = true)
    (hbad : (s.dev.side g).bad = []) (hf : f.getLsbD 6 = true) (hf' : f.getLsbD 7 = true) :
    ∃ d : Dev, exec (.flitReceive g f) s = .next (s.withDev d) ∧ (d.side g).expect = ((s.dev.side g).expect + 1) % 256
      ∧ (d.side g).rx.find [] (flitBits f 5 3) = [] ∧ (d.side g).last = some (flitHeader f) ∧ d.mem = s.dev.mem := by
  obtain ⟨p, hsent⟩ := Option.isSome_iff_exists.1 hsent
  obtain ⟨r, c, htold⟩ := (s.dev.side g).told_frame f
  have hside := (s.dev.side_flitTaken g f p).trans (congrArg GraftSide.takes htold)
  have heff := (flitReceiveEff_data s.dev g f p he hb hs hc ht hseq hsent hbad).trans
    (Dev.flitAccepted_packet _ g (flitBits f 5 3) f hg hf hf')
  obtain ⟨gr, hframe⟩ := s.dev.flitTaken_frame g f p
  have htaken : s.dev.Stays noRegister (s.dev.flitTaken g f p) := by rw [hframe]; exact ⟨rfl, rfl, rfl, fun _ _ => rfl⟩
  obtain ⟨hcross, hlast⟩ := Dev.packetCrossed_spec
    ((s.dev.flitTaken g f p).modSide g fun s => { s with rx := s.rx.set natLt [] (flitBits f 5 3) [] }) g (flitHeader f)
  have hstays := (htaken.trans (Dev.modSide_stays _ g _)).trans hcross
  refine ⟨_, by rw [exec_flitReceive_eq, s.on_stays _ hp (by rw [heff]; exact hstays), heff], ?_, ?_, by rw [hlast], hstays.mem⟩
  · rw [hlast, Dev.side_modSide_same, hside]; rfl
  · rw [hlast, Dev.side_modSide_same, KMap.find_set_same]

/-- A RETRY names the SEQ from which the sender resends (R216). -/
theorem ctrlRetry_resends (s : State) (g : GraftEnd) (n : Nat) (hp : s.dev.powered = true) (he : s.dev.endExists g = true)
    (hs : 2 ≤ s.dev.gState g) :
    ∃ d : Dev, exec (.ctrlRetry g n) s = .next (s.withDev d)
      ∧ d = { s.dev with regs := d.regs, grafts := d.grafts, wire := (s.dev.take (.retry g n)).wire }
      ∧ d.side g = { s.dev.side g with resend := some n } ∧ (∀ h, h ≠ g → d.side h = s.dev.side h)
      ∧ d.gget g GRF_CNT.REPLAYS GRFB_CNT.REPLAYS = min (s.dev.gget g GRF_CNT.REPLAYS GRFB_CNT.REPLAYS + 1) (2 ^ 32 - 1) := by
  have hcount := (s.dev.take (.retry g n)).gbump_rewrites g GRF_CNT.REPLAYS GRFB_CNT.REPLAYS 1
  have heff := ctrlRetryEff_up s.dev g n he hs
  refine ⟨_, by rw [exec_ctrlRetry_eq, s.on_powered _ hp (by rw [heff, hcount.rest]; rfl) (by rw [heff, hcount.rest]; rfl), heff], ?_, ?_,
    fun h hh => ?_, ?_⟩
  · rw [hcount.rest]; rfl
  · rw [Dev.side_modSide_same, hcount.side]; rfl
  · rw [Dev.side_modSide_other _ _ hh, hcount.side]; rfl
  · rw [Dev.gget_modSide, Dev.gget_gbump_same _ _ _ (by decide)]; rfl

/-- The error counts of an interval are cleared at its end (R220). -/
theorem laneErrorWindow_clears (s : State) (g : GraftEnd) (hp : s.dev.powered = true) :
    ∃ d : Dev, exec (.laneErrorWindow g) s = .next (s.withDev d) ∧ d = { s.dev with grafts := d.grafts }
      ∧ d.side g = { s.dev.side g with errs := [] } ∧ ∀ h, h ≠ g → d.side h = s.dev.side h :=
  ⟨laneWindowEff g s.dev, by rw [exec_laneErrorWindow_eq, s.on_powered _ hp rfl rfl], rfl, s.dev.side_modSide_same g _,
    fun _ hh => s.dev.side_modSide_other _ hh⟩

/-- The ends' credits of a graft that opens: its SEQs start anew. -/
theorem Dev.expect_opened (d : Dev) (i : Nat) : ((d.opened (.vertical i)).side (.trunk i)).expect = 0 := by
  obtain ⟨w, c, hprobe, _⟩ := (d.grantCredits (.trunk i)).startProbe_spec i
  have hgranted : ((d.grantCredits (.trunk i)).side (.trunk i)).expect = 0 := by
    unfold Dev.grantCredits
    simp only [List.foldl_cons, List.foldl_nil]
    rw [Dev.side_modSide_other _ _ (graftPeer_ne (.trunk i)).symm, Dev.side_modSide_same]
    rfl
  have hopened : d.opened (.vertical i) = (d.grantCredits (.trunk i)).startProbe i := rfl
  rw [hopened, hprobe]
  exact hgranted

/-- The packets under way when the trunk's graft opens: its only probe left now. -/
theorem Dev.probe_mem_opened (d : Dev) (i : Nat) (t : Word) : Packet.probe i t ∈ (d.opened (.vertical i)).packets ↔ t = d.ring := by
  obtain ⟨_, _, _, hpackets⟩ := (d.grantCredits (.trunk i)).startProbe_spec i
  have hopened : d.opened (.vertical i) = (d.grantCredits (.trunk i)).startProbe i := rfl
  rw [hopened, hpackets]
  simp only [List.mem_append, List.mem_filter, List.mem_singleton, Packet.probes, beq_self_eq_true, Bool.not_true, Bool.false_eq_true,
    and_false, false_or, Packet.probe.injEq, true_and]
  rfl

/-- A training that finds no failed lane brings both ends up at full width, and starts a probe (R218, R241). -/
theorem training_clean (s : State) (i : Nat) (hp : s.dev.powered = true) (hb : s.dev.powerBusy = false)
    (hf : s.dev.flag MBX_FW.READY = true) (ha : s.dev.siteActive i = true) (hs : s.dev.gState (.trunk i) = 1)
    (hl : s.dev.foundFailed (.trunk i) [] = []) (hl' : s.dev.foundFailed (.bough i 0) [] = []) :
    ∃ d : Dev, exec (.graftTrainingDone (.vertical i) { strap := i }) s = .next (s.withDev d)
      ∧ d.get GRF_STAT.STATE i = 2 ∧ d.get GRF_STAT.WIDTH i = 4 ∧ d.get GRFB_STAT.STATE i 0 = 2 ∧ d.get GRFB_STAT.WIDTH i 0 = 4
      ∧ d.get GRF_STAT.SPARES i = 0 ∧ Packet.probe i s.dev.ring ∈ d.packets
      ∧ (∀ t, Packet.probe i t ∈ d.packets → t = s.dev.ring) ∧ (d.side (.trunk i)).expect = 0 ∧ d.mem = s.dev.mem := by
  obtain ⟨x, hx, hup, hexec⟩ := exec_graftTrainingDone_clean s i hp hb hf ha hs hl hl'
  obtain ⟨gr, w, c, hopen⟩ := x.opened_frame (.vertical i)
  have hring : x.ring = s.dev.ring := by rw [hx.rest]
  have hlock := Dev.Rewrites.put (x.opened (.vertical i)) BPW_STAT.PLL_LOCK 1 i 0
  have hget : ∀ (q : Fld) (u k : Nat), (∀ f ∈ [BPW_STAT.PLL_LOCK], q.apart f) →
      ((x.opened (.vertical i)).put BPW_STAT.PLL_LOCK 1 i).get q u k = x.get q u k := fun q u k hq =>
    (hlock.get q u k hq).trans (Dev.get_of_regs (by rw [hopen]) q u k)
  have hfull : dataLanes (.trunk i) / 64 = 4 := by simp [dataLanes, GraftEnd.lateral]
  refine ⟨_, hexec, (hget _ _ _ (by decide)).trans hup.state, (hget _ _ _ (by decide)).trans (hup.width.trans hfull),
    (hget _ _ _ (by decide)).trans hup.statePeer, (hget _ _ _ (by decide)).trans (hup.widthPeer.trans hfull),
    (hget _ _ _ (by decide)).trans hup.spares, (x.probe_mem_opened i _).2 hring.symm,
    fun t ht => ((x.probe_mem_opened i t).1 ht).trans hring, x.expect_opened i, ?_⟩
  rw [hlock.rest, hopen, hx.rest]

/-- A training whose strap does not match takes the graft down, and isolates the site (R13). -/
theorem training_strap (s : State) (i : Nat) (r : TrainResult) (hp : s.dev.powered = true) (hb : s.dev.powerBusy = false)
    (hf : s.dev.flag MBX_FW.READY = true) (ha : s.dev.siteActive i = true) (hs : s.dev.gState (.trunk i) = 1) (hr : r.strap ≠ i)
    (hr' : r.strap < 28) :
    ∃ d : Dev, exec (.graftTrainingDone (.vertical i) r) s = .next (s.withDev d)
      ∧ d.get GRF_STAT.STATE i = 0 ∧ d.get GRF_STAT.CAUSE i = 1 ∧ d.isolated i = true ∧ d.mem = s.dev.mem := by
  have hlog := (s.dev.trainLog_rewrites (.trunk i) 0 0 0 5 r.strap).stays (K := siteRegs) (by decide)
  obtain ⟨hstate, hcause, hiso, hdown⟩ := Dev.graftDown_vertical_spec _ i 1 (by decide)
    ((Dev.siteActive_of_stays hlog rfl i).trans ha) ((Dev.powerBusy_of hlog.power).trans hb)
  exact ⟨_, exec_graftTrainingDone_strap s i r hp hb hf ha hs hr hr', hstate, hcause, hiso, hdown.mem.trans hlog.mem⟩

/-- A lateral graft that trains for too long goes down at both ends, and isolates no site (R218, R223). -/
theorem training_timeout (s : State) (i : Nat) (hp : s.dev.powered = true) (he : s.dev.endExists (.bough i 2) = true)
    (hs : s.dev.gState (.bough i 2) = 1) :
    ∃ d : Dev, exec (.graftTrainingTimeout (.lateral i)) s = .next (s.withDev d)
      ∧ d.get GRFB_STAT.STATE i 2 = 0 ∧ d.get GRFB_STAT.CAUSE i 2 = 2 ∧ d.get GRFB_STAT.STATE (i + 1) 1 = 0
      ∧ (∀ j, d.isolated j = s.dev.isolated j) ∧ d.mem = s.dev.mem := by
  have hlog := (s.dev.trainLog_rewrites (.bough i 2) 0 0 0 6 0).stays (K := siteRegs) (by decide)
  obtain ⟨hstate, hcause, hpeer, hdown⟩ := (s.dev.trainLog (.bough i 2) 0 0 0 6 0).graftDown_lateral_spec i 2 (by decide)
  have hall := hlog.trans hdown
  refine ⟨_, exec_graftTrainingTimeout_lateral s i hp he hs, hstate, hcause, hpeer, fun j => ?_, hall.mem⟩
  unfold Dev.isolated
  rw [hall.get _ _ _ rfl]

/-- A lane that software marks newly is reported failed (R226). -/
theorem laneMask_fails (s : State) (i k : Nat) (v : Word) (hp : s.dev.powered = true) (ha : s.dev.siteActive i = true) (hk : k < 4) :
    ∃ d : Dev, exec (.grfLaneMaskWrite (.trunk i) k v) s = .next (s.withDev d) ∧ d.reg ⟨.GRF_LANE_MASK, i, k⟩ = v
      ∧ (∀ j, j < 64 → v.getLsbD j = true → (s.dev.reg ⟨.GRF_LANE_MASK, i, k⟩).getLsbD j = false →
          d.laneFailed (.trunk i) (64 * k + j) = true)
      ∧ (v &&& ~~~(s.dev.reg ⟨.GRF_LANE_MASK, i, k⟩) = 0 → d = s.dev.setReg ⟨.GRF_LANE_MASK, i, k⟩ v) := by
  have hlt : ∀ l ∈ newlyMarked k (s.dev.reg ⟨.GRF_LANE_MASK, i, k⟩) v, l < 320 := fun l hl => by
    obtain ⟨j, _, _, _, rfl⟩ := (mem_newlyMarked _ _ _ _).1 hl; omega
  refine ⟨_, exec_grfLaneMaskWrite_trunk s i k v hp ha hk, ?_, fun j hj hv ho => ?_, fun h => ?_⟩
  · rw [(Dev.lanesFailing_masks _ _ _).reg _ rfl, Dev.reg_setReg_same]
  · have hmem := (mem_newlyMarked k _ v _).2 ⟨j, hj, hv, ho, rfl⟩
    rw [Dev.laneFailed_lanesFailing _ _ _ hlt (by omega), decide_eq_true hmem, Bool.true_or]
  · rw [newlyMarked_nil k _ v h, Dev.lanesFailing_nil]

/-- A lane that loses lock is reported failed, and every other as before (R220). -/
theorem laneLoss_fails (s : State) (g : GraftEnd) (l : Nat) (hp : s.dev.powered = true) (he : s.dev.endExists g = true)
    (hl : (allLanes g).contains l = true) :
    ∃ d : Dev, exec (.graftLaneLossOfLock g l) s = .next (s.withDev d) ∧ d.laneFailed g l = true
      ∧ ∀ m, m ∈ allLanes g → m ≠ l → d.laneFailed g m = s.dev.laneFailed g m := by
  obtain ⟨d, hexec, hfailed⟩ := exec_graftLaneLossOfLock_lane s g l hp he hl
  refine ⟨d, hexec, ?_, fun m hm hne => ?_⟩
  · rw [hfailed l (by simpa using hl), decide_eq_true rfl, Bool.true_or]
  · rw [hfailed m hm, decide_eq_false hne, Bool.false_or]

/-- A probe that returns gives DELAY half of what is left of its round trip (R241). -/
theorem probe_returns (s : State) (i turn : Nat) (t1 : Word) (hp : s.dev.powered = true) (hw : s.dev.packets = [.probe i t1]) :
    ∃ d : Dev, exec (.delayProbeReturn i s.dev.ring.toNat turn) s = .next (s.withDev d)
      ∧ d.get TIM_SITE.DELAY 0 i = ((s.dev.ring.toNat - t1.toNat - turn) / 2) % 2 ^ 16 ∧ (d.copyInfo i).measured = true
      ∧ Packet.probe i t1 ∉ d.packets ∧ ∀ r : Reg, r ≠ ⟨.TIM_SITE, 0, i⟩ → d.reg r = s.dev.reg r := by
  obtain ⟨hdelay, hmeasured, hpackets, hregs⟩ := s.dev.delayKnown_spec i s.dev.ring.toNat turn t1 hw
  obtain ⟨⟨w, hsync⟩, hsent⟩ := (s.dev.delayKnown i s.dev.ring.toNat turn t1).sendSync_spec i
  refine ⟨_, exec_delayProbeReturn_delay s i turn t1 hp hw, ?_, ?_, fun hmem => ?_, fun r hr => ?_⟩
  · rw [hsync]; exact hdelay
  · rw [hsync]; exact hmeasured
  · rcases hsent _ hmem with h | h
    · rw [hpackets] at h; cases h
    · cases h
  · rw [hsync]; exact hregs r hr

/-- Settles O40: flits, lanes and training of grafts, each clause by its own theorem above. -/
theorem graftLinks : Obligations.GraftLinks := by
  unfold Obligations.GraftLinks
  refine ⟨flit_crc_fails, flit_crc_retrain, flit_data_gathers, flit_data_packet, ctrlRetry_resends, laneErrorWindow_clears, training_clean,
    training_strap, exec_graftTrainingDone_noSite, training_timeout, ?fastRetrain, exec_ctrlRepair_spare, laneMask_fails, laneLoss_fails,
    probe_returns⟩
  case fastRetrain =>
    intro s i r hp he hs hr ho hu hl hl'
    obtain ⟨d, hexec, hup, hcount⟩ := exec_graftFastRetrain_clean s i r hp he hs hr ho hu hl hl'
    exact ⟨d, hexec, hup.state, hup.statePeer, hup.width, hcount⟩

end Sys2Proof.Machine
end

section
/-!
PROOFS. Frames on the BMC port that bring a command of the flash, and what erasing and programming leave in it (spec/02, spec/16, R31, R385, R386).
-/

namespace Sys2Proof.Machine

/-! ### A command of the flash on the BMC port -/

/-- The package after a correct frame whose command has given this. -/
def Served.framed (r : Served) (seq : Nat) : Dev :=
  { r.dev with answer := { seq := seq % 256, status := r.status, payload := r.payload, raised := true } }

/-- The package while a frame's command is carried out: the frame is counted. -/
abbrev Dev.heard (d : Dev) : Dev := d.count MBX_BMC.FRAMES

theorem Dev.serveFlash_listens (d : Dev) (hl : d.listens) (code seq : Nat) (go : Dev → Served) :
    d.serveFlash code (.bmc seq true) go = (go d.heard).framed seq := by
  obtain ⟨hp, hs, hb⟩ := hl
  simp [Dev.serveFlash, Dev.serve, Dev.bmcAnswers, Dev.bmcAddress, hp, hs, hb, Served.framed]

/-- Where the core listens, a command of the flash leaves what its body has made of the package, and its answer. -/
theorem exec_flashCommand {c : Instr} {s : State} {code seq : Nat} {go : Dev → Served} {r : Served}
    (hc : exec c s = .next (s.on fun d => d.serveFlash code (.bmc seq true) go)) (hl : s.dev.listens) (hgo : go s.dev.heard = r)
    (hp : r.dev.powered = true) : exec c s = .next (s.withDev (r.framed seq)) := by
  subst hgo
  rw [hc, s.on_dev _ hl.1, s.dev.serveFlash_listens hl, Dev.settled_of_powered (d := (go s.dev.heard).framed seq) hp]

/-- A refusal leaves the count of the frame and the answer. -/
theorem exec_flashRefused {c : Instr} {s : State} {code seq status : Nat} {payload : List Byte} {go : Dev → Served}
    (hc : exec c s = .next (s.on fun d => d.serveFlash code (.bmc seq true) go)) (hl : s.dev.listens)
    (hgo : go s.dev.heard = s.dev.heard.answer0 status payload) : exec c s = .next (s.withDev (s.dev.framed seq status payload)) :=
  exec_flashCommand hc hl hgo hl.1

theorem Dev.heard_get (d : Dev) (f : Fld) (u k : Nat) (h : f.reg ≠ .MBX_BMC) : d.heard.get f u k = d.get f u k :=
  Dev.get_put_name _ _ _ _ _ _ _ _ h

@[simp] theorem Dev.heard_warmBusy (d : Dev) : d.heard.warmBusy = d.warmBusy := by
  unfold Dev.warmBusy
  rw [d.heard_get _ _ _ (by decide), Dev.count_board]

@[simp] theorem Dev.heard_fellBack (d : Dev) (k : PartKind) : d.heard.fellBack k = d.fellBack k := by
  cases k with
  | vendor => exact congrArg (· != 0) (d.heard_get SIM_STAT.V_FALLBACK 0 0 (by decide))
  | owner => exact congrArg (· != 0) (d.heard_get SIM_STAT.O_FALLBACK 0 0 (by decide))
  | firmware => rfl

@[simp] theorem Dev.heard_sessionOf (d : Dev) (fw : Bool) : d.heard.sessionOf fw = d.sessionOf fw := rfl

/-! ### The flash -/

/-- What is erased reads all ones, and the rest as before. -/
theorem Dev.find_eraseFlash (d : Dev) (base size a : Nat) : (d.eraseFlash base size).flash.find 0xFF a =
    if base ≤ a ∧ a < base + size then 0xFF else d.flash.find 0xFF a := by
  by_cases h : base ≤ a ∧ a < base + size
  · rw [if_pos h]
    exact KMap.find_filter_none _ (fun k => decide (k < base ∨ base + size ≤ k)) _ _ (by simp; omega)
  · rw [if_neg h]
    exact KMap.find_filter _ (fun k => decide (k < base ∨ base + size ≤ k)) _ _ (by simp; omega)

/-- Programming changes the flash alone. -/
theorem Dev.programFlash_frame (l : List Byte) (d : Dev) (base : Nat) :
    d.programFlash base l = { d with flash := (d.programFlash base l).flash } := by
  induction l generalizing d base with
  | nil => rfl
  | cons b l ih => unfold Dev.programFlash; rw [ih]

theorem Byte.and_ones (b : Byte) : b &&& 0xFF = b := BitVec.and_allOnes

/-- Programming clears bits of its bytes; past the last of them nothing is cleared. -/
theorem Dev.find_programFlash (l : List Byte) (d : Dev) (base a : Nat) : (d.programFlash base l).flash.find 0xFF a =
    if base ≤ a then d.flash.find 0xFF a &&& l.getD (a - base) 0xFF else d.flash.find 0xFF a := by
  induction l generalizing d base with
  | nil => rw [List.getD_nil, Byte.and_ones, ite_self]; rfl
  | cons b l ih =>
    unfold Dev.programFlash
    rw [ih]
    rcases lt_trichotomy a base with h | rfl | h
    · rw [if_neg (by omega), if_neg (by omega), KMap.find_set_other _ _ _ _ _ (by omega)]
    · rw [if_neg (by omega), if_pos le_rfl, KMap.find_set_same, Nat.sub_self]; rfl
    · rw [if_pos (by omega), if_pos (by omega), KMap.find_set_other _ _ _ _ _ (by omega),
        show a - base = a - (base + 1) + 1 by omega, List.getD_cons_succ]

/-- The work of a job: its range is erased and then programmed. -/
theorem Dev.find_runJob (d : Dev) (j : FlashJob) (hj : j.program.length ≤ j.size) (a : Nat) : (d.runJob j).flash.find 0xFF a =
    if j.base ≤ a ∧ a < j.base + j.size then j.program.getD (a - j.base) 0xFF else d.flash.find 0xFF a := by
  unfold Dev.runJob
  rw [Dev.find_programFlash, Dev.find_eraseFlash]
  by_cases hlo : j.base ≤ a
  · by_cases hhi : a < j.base + j.size
    · rw [if_pos hlo, if_pos ⟨hlo, hhi⟩, BitVec.and_comm, if_pos ⟨hlo, hhi⟩, Byte.and_ones]
    · rw [if_pos hlo, if_neg (by omega), if_neg (by omega), List.getD_eq_default _ _ (by omega), Byte.and_ones]
  · rw [if_neg hlo, if_neg (by omega), if_neg (by omega)]

theorem Dev.runJob_frame (d : Dev) (j : FlashJob) : d.runJob j = { d with flash := (d.runJob j).flash } :=
  Dev.programFlash_frame j.program (d.eraseFlash j.base j.size) j.base

/-! ### The checks of parts read the fuses and the board alone -/

@[simp] theorem Dev.heard_flashBlob (d : Dev) (base : Nat) : d.heard.flashBlob base = d.flashBlob base := rfl

theorem Dev.checkVendor_of {d d' : Dev} (hb : d'.board = d.board) (hf : d'.fuse = d.fuse) (b : Blob) : d'.checkVendor b = d.checkVendor b := by
  have hsites : d'.populatedSites = d.populatedSites := by simp [Dev.populatedSites, Dev.boughsFused, Dev.sparesFused, hf]
  have hmap : d'.mapOk = d.mapOk := by funext m; simp [Dev.mapOk, Dev.boughsFused, hsites, hf]
  have hseed : d'.seedPlace = d.seedPlace := by funext m w; simp [Dev.seedPlace, Dev.hasLee, hf]
  unfold Dev.checkVendor
  rw [hb, hf, hsites, hmap, hseed]

theorem Dev.checkOwner_of {d d' : Dev} (hb : d'.board = d.board) (hf : d'.fuse = d.fuse) (b : Blob) (level : Nat) :
    d'.checkOwner b level = d.checkOwner b level := by
  have hmem : d'.memMask = d.memMask := by simp [Dev.memMask, hf]
  have hset : d'.ownerSettings = d.ownerSettings := by funext b p; simp [Dev.ownerSettings, Dev.ownerDefaults, hmem]
  have hchannel : d'.channelPresent = d.channelPresent := by funext m; simp [Dev.channelPresent, hmem]
  have hboughs : d'.boughsFused = d.boughsFused := by simp [Dev.boughsFused, hf]
  have hgroups : d'.groupsHere = d.groupsHere := by simp [Dev.groupsHere, hf]
  have hspan : d'.spanMask = d.spanMask := by simp [Dev.spanMask, hf]
  unfold Dev.checkOwner
  rw [hb, hf, hset, hchannel, hboughs, hgroups, hspan]

theorem Dev.checkFirmware_of {d d' : Dev} (hb : d'.board = d.board) (hf : d'.fuse = d.fuse) (b : Blob) :
    d'.checkFirmware b = d.checkFirmware b := by
  unfold Dev.checkFirmware
  rw [hb, hf]

@[simp] theorem Dev.heard_checkVendor (d : Dev) (b : Blob) : d.heard.checkVendor b = d.checkVendor b :=
  Dev.checkVendor_of (d.count_board ..) (d.count_fuse ..) b

@[simp] theorem Dev.heard_checkOwner (d : Dev) (b : Blob) (level : Nat) : d.heard.checkOwner b level = d.checkOwner b level :=
  Dev.checkOwner_of (d.count_board ..) (d.count_fuse ..) b level

@[simp] theorem Dev.heard_checkFirmware (d : Dev) (b : Blob) : d.heard.checkFirmware b = d.checkFirmware b :=
  Dev.checkFirmware_of (d.count_board ..) (d.count_fuse ..) b

end Sys2Proof.Machine
end

section
/-!
PROOFS. Staging, commit, confirmation and floors (spec/02, R34, R45, R49, R50, R385, R386).
-/

namespace Sys2Proof.Machine

/-! ### Sessions -/

/-- The session is one that the command means. -/
theorem Dev.sessionOf_of {d : Dev} {x : Session} {fw : Bool} (h : d.mgmt.session = some x) (hk : x.kind = .firmware ↔ fw = true) :
    d.sessionOf fw = some x := by
  rw [Dev.sessionOf, h, Option.filter_some, if_pos]
  cases fw <;> simp_all

theorem Dev.sessionOf_none {d : Dev} (h : d.mgmt.session = none) (fw : Bool) : d.sessionOf fw = none := by
  rw [Dev.sessionOf, h, Option.filter_none]

/-- Staging begins on the slot that is not in use, unless a session is open or the slot in use is in trial (R49). -/
theorem stageBegin_opens (s : State) (c : Instr) (seq slot : Nat) (k : PartKind) (hl : s.dev.listens) (hw : s.dev.warmBusy = false)
    (hc : (c = .siStageBegin (.bmc seq true) k ∧ k ≠ .firmware ∧ slot = 1 - s.dev.mgmt.dir.active k)
      ∨ (c = .fwStageBegin (.bmc seq true) ∧ k = .firmware ∧ slot = (s.dev.mgmt.firmware.map (1 - ·)).getD 0)) :
    ∃ d : Dev, exec c s = .next (s.withDev d)
      ∧ (s.dev.mgmt.session = none → s.dev.mgmt.dir.inTrial k = false →
          d = { s.dev.framed seq 0 [] with
                mgmt := { s.dev.mgmt with session := some { kind := k, slot := slot }
                                          background := some { base := slotBase k slot, size := slotSize k } } })
      ∧ (s.dev.mgmt.session.isSome = true ∨ s.dev.mgmt.dir.inTrial k = true → d = s.dev.framed seq 1 []) := by
  by_cases hbusy : s.dev.mgmt.session.isSome = true ∨ s.dev.mgmt.dir.inTrial k = true
  · refine ⟨s.dev.framed seq 1 [], ?_, fun hs ht => by simp [hs, ht] at hbusy, fun _ => rfl⟩
    rcases hc with ⟨rfl, hk, -⟩ | ⟨rfl, rfl, -⟩
    · exact exec_flashRefused rfl hl (by rw [if_neg hk, if_pos (by simpa using .inl hbusy)])
    · exact exec_flashRefused rfl hl (if_pos (by simpa [Directory.inTrial, hw] using hbusy))
  · refine ⟨(s.dev.heard.openSession k slot).framed seq, ?_, fun _ _ => rfl, fun h => absurd h hbusy⟩
    rcases hc with ⟨rfl, hk, rfl⟩ | ⟨rfl, rfl, rfl⟩
    · exact exec_flashCommand rfl hl (by rw [if_neg hk, if_neg (by simpa [hw] using hbusy)]; rfl) hl.1
    · exact exec_flashCommand rfl hl (if_neg (by simpa [Directory.inTrial, hw] using hbusy)) hl.1

theorem siStageBegin_firmware (s : State) (seq : Nat) (hl : s.dev.listens) :
    exec (.siStageBegin (.bmc seq true) .firmware) s = .next (s.withDev (s.dev.framed seq 3 [])) :=
  exec_flashRefused rfl hl (if_pos rfl)

/-! ### Writing the staged slot -/

/-- The two commands that write the staged slot differ in the sessions they mean. -/
theorem exec_stageWrite (s : State) {c : Instr} {seq off : Nat} {l : List Byte} {fw : Bool}
    (hc : (c = .siStageWrite (.bmc seq true) off l ∧ fw = false) ∨ (c = .fwStageWrite (.bmc seq true) off l ∧ fw = true)) :
    ∃ code, exec c s = .next (s.on fun d => d.serveFlash code (.bmc seq true) fun d => d.stageWrite fw off l) := by
  rcases hc with ⟨rfl, rfl⟩ | ⟨rfl, rfl⟩ <;> exact ⟨_, rfl⟩

/-- A write outside the slot, or of more than 240 bytes, is refused; another clears bits of its bytes, and what was checked before no longer
counts (R49). -/
theorem stageWrite_programs (s : State) (c : Instr) (seq off : Nat) (l : List Byte) (fw : Bool) (hl : s.dev.listens)
    (hc : (c = .siStageWrite (.bmc seq true) off l ∧ fw = false) ∨ (c = .fwStageWrite (.bmc seq true) off l ∧ fw = true)) :
    (s.dev.sessionOf fw = none → exec c s = .next (s.withDev (s.dev.framed seq 4 []))) ∧
    ∀ x, s.dev.sessionOf fw = some x →
      (240 < l.length ∨ slotSize x.kind < off + l.length → exec c s = .next (s.withDev (s.dev.framed seq 5 []))) ∧
      (l.length ≤ 240 → off + l.length ≤ slotSize x.kind →
        ∃ d : Dev, exec c s = .next (s.withDev d)
          ∧ d = { s.dev.framed seq 0 [] with flash := d.flash, mgmt := { s.dev.mgmt with session := some { x with checked := false } } }
          ∧ (∀ i, i < l.length → d.flash.find 0xFF (slotBase x.kind x.slot + off + i) =
              s.dev.flash.find 0xFF (slotBase x.kind x.slot + off + i) &&& l.getD i 0)
          ∧ ∀ a, a < slotBase x.kind x.slot + off ∨ slotBase x.kind x.slot + off + l.length ≤ a →
              d.flash.find 0xFF a = s.dev.flash.find 0xFF a) := by
  obtain ⟨code, hexec⟩ := exec_stageWrite s hc
  refine ⟨fun hs => exec_flashRefused hexec hl (by simp [Dev.stageWrite, hs]), fun x hx => ⟨fun hout => ?_, fun hlen hoff => ?_⟩⟩
  · exact exec_flashRefused hexec hl (by simp [Dev.stageWrite, hx, hout])
  · have hframe := Dev.programFlash_frame l s.dev.heard (slotBase x.kind x.slot + off)
    have hfind := Dev.find_programFlash l s.dev.heard (slotBase x.kind x.slot + off)
    have hgo : s.dev.heard.stageWrite fw off l = { dev := (s.dev.heard.programFlash (slotBase x.kind x.slot + off) l).modMgmt fun m =>
        { m with session := some { x with checked := false } } } := by
      simp [Dev.stageWrite, hx, hlen, hoff]
    refine ⟨_, exec_flashCommand hexec hl hgo (by rw [hframe]; exact hl.1), by rw [hframe]; rfl, fun i hi => ?_, fun a ha => ?_⟩
    · refine (hfind _).trans ?_
      rw [if_pos (by omega), Nat.add_sub_cancel_left, List.getD_eq_getElem _ _ hi, List.getD_eq_getElem _ _ hi]; rfl
    · refine (hfind a).trans ?_
      rcases ha with ha | ha
      · rw [if_neg (by omega)]; rfl
      · rw [List.getD_eq_default _ _ (by omega), Byte.and_ones, ite_self]; rfl

/-! ### Checking the staged slot -/

/-- A check records whether the staged part or firmware verifies (R49). -/
theorem stageCheck_records (s : State) (c : Instr) (seq : Nat) (x : Session) (fail : Option Nat) (hl : s.dev.listens)
    (hs : s.dev.mgmt.session = some x)
    (hc : (c = .siStageCheck (.bmc seq true) ∧ x.kind = .vendor
        ∧ fail = failOf (s.dev.checkVendor (s.dev.flashBlob (slotBase .vendor x.slot))))
      ∨ (c = .siStageCheck (.bmc seq true) ∧ x.kind = .owner
        ∧ fail = failOf (s.dev.checkOwner (s.dev.flashBlob (slotBase .owner x.slot)) (s.dev.get TRK_ID.BEHAVIOUR)))
      ∨ (c = .fwStageCheck (.bmc seq true) ∧ x.kind = .firmware ∧ s.dev.mgmt.firmware = none
        ∧ fail = failOf (s.dev.checkFirmware (s.dev.flashBlob (slotBase .firmware x.slot))))) :
    ∃ d : Dev, exec c s = .next (s.withDev d)
      ∧ (fail = none → d = { s.dev.framed seq 0 [] with mgmt := { s.dev.mgmt with session := some { x with checked := true } } })
      ∧ (∀ e, fail = some e →
          d = { s.dev.framed seq 8 (leBytes 1 e) with mgmt := { s.dev.mgmt with session := some { x with checked := false } } }) := by
  have hp : (s.dev.heard.stageChecked x fail).dev.powered = true := by cases fail <;> exact hl.1
  refine ⟨(s.dev.heard.stageChecked x fail).framed seq, ?_, fun h => by rw [h]; rfl, fun e h => by rw [h]; rfl⟩
  rcases hc with ⟨rfl, hk, rfl⟩ | ⟨rfl, hk, rfl⟩ | ⟨rfl, hk, hfw, rfl⟩
  · refine exec_flashCommand rfl hl ?_ hp
    rw [Dev.heard_sessionOf, Dev.sessionOf_of hs (by simp [hk])]
    simp [hk]
  · refine exec_flashCommand rfl hl ?_ hp
    rw [Dev.heard_sessionOf, Dev.sessionOf_of hs (by simp [hk]), s.dev.heard_get _ _ _ (by decide)]
    simp [hk]
  · refine exec_flashCommand rfl hl ?_ hp
    rw [Dev.heard_sessionOf, Dev.sessionOf_of hs (by simp [hk])]
    cases hcheck : s.dev.checkFirmware (s.dev.flashBlob (slotBase .firmware x.slot)) <;> simp [hcheck, hfw]

/-- An image that is not newer than the running firmware is not staged (R385). -/
theorem fwStageCheck_newer (s : State) (seq : Nat) (x : Session) (hl : s.dev.listens) (hs : s.dev.mgmt.session = some x)
    (hk : x.kind = .firmware) (hfw : s.dev.mgmt.firmware.isSome = true) :
    exec (.fwStageCheck (.bmc seq true)) s = .next (s.withDev
      (match s.dev.checkFirmware (s.dev.flashBlob (slotBase .firmware x.slot)) with
        | .error e => { s.dev.framed seq 8 (leBytes 1 e) with
                        mgmt := { s.dev.mgmt with session := some { x with checked := false } } }
        | .ok f =>
          if f.seq ≤ s.dev.mgmt.fwSeq then s.dev.framed seq 3 []
          else { s.dev.framed seq 0 [] with mgmt := { s.dev.mgmt with session := some { x with checked := true } } })) := by
  have hsession := Dev.sessionOf_of (fw := true) hs (by simp [hk])
  cases hcheck : s.dev.checkFirmware (s.dev.flashBlob (slotBase .firmware x.slot)) with
  | error e => exact exec_flashCommand (r := s.dev.heard.stageChecked x (some e)) rfl hl (by simp [hsession, hcheck, failOf]) hl.1
  | ok f =>
    by_cases hold : f.seq ≤ s.dev.mgmt.fwSeq
    · rw [exec_flashRefused (status := 3) (payload := []) rfl hl (by simp [hsession, hcheck, hfw, hold])]
      simp [hold]
    · rw [exec_flashCommand (r := s.dev.heard.stageChecked x none) rfl hl (by simp [hsession, hcheck, hold, failOf]) hl.1]
      simp only [hold, if_false]
      rfl

/-! ### Closing a session -/

/-- An aborted session leaves a part's slot erased, and firmware's slot as it was (R49, R385). -/
theorem Dev.abortSession_flash (d : Dev) (x : Session) : (x.kind = .firmware → (d.abortSession x).flash = d.flash)
    ∧ (x.kind ≠ .firmware → ∀ a, (d.abortSession x).flash.find 0xFF a =
        if slotBase x.kind x.slot ≤ a ∧ a < slotBase x.kind x.slot + slotSize x.kind then 0xFF else d.flash.find 0xFF a) := by
  unfold Dev.abortSession
  refine ⟨fun h => by rw [if_pos h]; rfl, fun h a => ?_⟩
  rw [if_neg h]
  exact d.find_eraseFlash _ _ a

theorem Dev.abortSession_frame (d : Dev) (x : Session) :
    d.abortSession x = { d with flash := (d.abortSession x).flash, mgmt := { d.mgmt with session := none } } := by
  unfold Dev.abortSession
  split <;> rfl

theorem Dev.abortSession_mgmt (d : Dev) (x : Session) : (d.abortSession x).mgmt = { d.mgmt with session := none } := by
  rw [d.abortSession_frame x]

theorem Dev.abortSession_mem (d : Dev) (x : Session) : (d.abortSession x).mem = d.mem := by
  rw [d.abortSession_frame x]

theorem Dev.abortSession_powered (d : Dev) (x : Session) : (d.abortSession x).powered = d.powered := by
  rw [d.abortSession_frame x]
  rfl

theorem exec_stageAbort (s : State) {c : Instr} {seq : Nat} {x : Session} (hl : s.dev.listens) (hs : s.dev.mgmt.session = some x)
    (hc : (c = .siStageAbort (.bmc seq true) ∧ x.kind ≠ .firmware) ∨ (c = .fwStageAbort (.bmc seq true) ∧ x.kind = .firmware)) :
    exec c s = .next (s.withDev (Served.framed { dev := s.dev.heard.abortSession x } seq)) := by
  have hp := (s.dev.heard.abortSession_powered x).trans hl.1
  rcases hc with ⟨rfl, hk⟩ | ⟨rfl, hk⟩
  · exact exec_flashCommand rfl hl (by rw [Dev.heard_sessionOf, Dev.sessionOf_of hs (by simp [hk])]) hp
  · exact exec_flashCommand rfl hl (by rw [Dev.heard_sessionOf, Dev.sessionOf_of hs (by simp [hk])]) hp

theorem exec_sessionTimeout_closes (s : State) {x : Session} (hl : s.dev.listens) (hs : s.dev.mgmt.session = some x) :
    exec .sessionTimeout s = .next (s.withDev (s.dev.abortSession x)) := by
  obtain ⟨hp, -, hb⟩ := hl
  have heff : sessionTimeoutEff s.dev = s.dev.abortSession x := by simp [sessionTimeoutEff, hb, hs]
  refine congrArg Host.Outcome.next ((s.on_dev _ hp).trans ?_)
  rw [heff, Dev.settled_of_powered ((s.dev.abortSession_powered x).trans hp)]

/-- An abort and the timeout close the session (R49, R386). -/
theorem session_closes (s : State) (c : Instr) (seq : Nat) (x : Session) (hl : s.dev.listens) (hs : s.dev.mgmt.session = some x)
    (hc : (c = .siStageAbort (.bmc seq true) ∧ x.kind ≠ .firmware) ∨ (c = .fwStageAbort (.bmc seq true) ∧ x.kind = .firmware)
      ∨ c = .sessionTimeout) :
    ∃ d : Dev, exec c s = .next (s.withDev d) ∧ d.mgmt = { s.dev.mgmt with session := none } ∧ d.mem = s.dev.mem
      ∧ (c ≠ .sessionTimeout → d.answer = ⟨seq % 256, 0, [], true⟩)
      ∧ (x.kind = .firmware → d.flash = s.dev.flash)
      ∧ (x.kind ≠ .firmware → ∀ a, d.flash.find 0xFF a =
          if slotBase x.kind x.slot ≤ a ∧ a < slotBase x.kind x.slot + slotSize x.kind then 0xFF else s.dev.flash.find 0xFF a) := by
  by_cases ht : c = .sessionTimeout
  · subst ht
    exact ⟨_, exec_sessionTimeout_closes s hl hs, s.dev.abortSession_mgmt x, s.dev.abortSession_mem x, fun h => absurd rfl h,
      s.dev.abortSession_flash x⟩
  · exact ⟨_, exec_stageAbort s hl hs (by simpa [ht] using hc), s.dev.heard.abortSession_mgmt x, s.dev.heard.abortSession_mem x,
      fun _ => rfl, s.dev.heard.abortSession_flash x⟩

/-- Without a session nothing is committed, aborted or checked (R49). -/
theorem noSession_refused (s : State) (c : Instr) (seq n : Nat) (hl : s.dev.listens) (hw : s.dev.warmBusy = false)
    (hc : c = .siCommit (.bmc seq true) n ∨ c = .siStageAbort (.bmc seq true) ∨ c = .fwStageAbort (.bmc seq true)
      ∨ c = .siStageCheck (.bmc seq true) ∨ c = .fwStageCheck (.bmc seq true)) (hs : s.dev.mgmt.session = none) :
    exec c s = .next (s.withDev (s.dev.framed seq (if c = .siCommit (.bmc seq true) n then 6 else 4) [])) := by
  have hnone := Dev.sessionOf_none hs
  rcases hc with rfl | rfl | rfl | rfl | rfl
  · rw [if_pos rfl]
    exact exec_flashRefused rfl hl (by simp [hw, hnone])
  · exact exec_flashRefused rfl hl (by simp [hnone])
  · exact exec_flashRefused rfl hl (by simp [hnone])
  · exact exec_flashRefused rfl hl (by simp [hnone])
  · exact exec_flashRefused rfl hl (by simp [hnone])

/-! ### The directory (R33, R34, R49, R50) -/

/-- The slot of a kind that a staged part takes is active, in trial, with its trial loads. -/
theorem Directory.try_spec (x : Directory) {k : PartKind} (slot n : Nat) (hk : k ≠ .firmware) :
    (x.try k slot n).active k = slot ∧ (x.try k slot n).inTrial k = true ∧ (x.try k slot n).trialsLeft k = n := by
  cases k with
  | vendor => exact ⟨rfl, bit_setBit x.trial 0, rfl⟩
  | owner => exact ⟨rfl, bit_setBit x.trial 1, rfl⟩
  | firmware => exact absurd rfl hk

theorem bit_setBit_false (m b : Nat) : bit (setBit m b false) b = false := by
  by_cases h : m.testBit b = true
  · have hodd : m / 2 ^ b % 2 = 1 := by simpa [Nat.testBit_eq_decide_div_mod_eq] using h
    have hdiv : (m - 2 ^ b) / 2 ^ b = m / 2 ^ b - 1 := by simpa using Nat.sub_mul_div m (2 ^ b) 1
    simp only [bit, setBit, h, Bool.false_eq_true, if_false, if_true, Nat.one_shiftLeft, Nat.testBit_eq_decide_div_mod_eq, hdiv,
      decide_eq_false_iff_not]
    omega
  · simp [bit, setBit, h]

/-- A confirmation makes the slot active and ends its trial. -/
theorem Directory.confirm_spec (x : Directory) (k : PartKind) (slot : Nat) :
    (x.confirm k slot).active k = slot ∧ (x.confirm k slot).inTrial k = false := by
  cases k with
  | vendor => exact ⟨rfl, bit_setBit_false x.trial 0⟩
  | owner => exact ⟨rfl, bit_setBit_false x.trial 1⟩
  | firmware => exact ⟨rfl, rfl⟩

/-- The directory as it is written: in the copy not in use, with SEQ one higher (R34). -/
def Directory.written (x old : Directory) (cp : Nat) : Directory := { x with copy := some cp, seq := (old.seq + 1) % 2 ^ 32 }

@[simp] theorem Directory.written_active (x old : Directory) (cp : Nat) (k : PartKind) : (x.written old cp).active k = x.active k := by
  cases k <;> rfl

@[simp] theorem Directory.written_inTrial (x old : Directory) (cp : Nat) (k : PartKind) : (x.written old cp).inTrial k = x.inTrial k := by
  cases k <;> rfl

@[simp] theorem Directory.written_trialsLeft (x old : Directory) (cp : Nat) (k : PartKind) :
    (x.written old cp).trialsLeft k = x.trialsLeft k := by
  cases k <;> rfl

/-- A directory write goes to a copy that is not the one in use. -/
theorem Dev.directoryJob_spec (d : Dev) (x : Directory) : ∃ cp, d.mgmt.dir.copy ≠ some cp ∧
    d.directoryJob x = d.modMgmt fun m => { m with dir := x.written d.mgmt.dir cp
                                                   background := some { base := 4096 * cp, size := 4096
                                                                        program := (x.written d.mgmt.dir cp).bytes } } := by
  cases hc : d.mgmt.dir.copy with
  | none => exact ⟨0, by simp, by simp [Dev.directoryJob, Directory.written, hc]⟩
  | some k =>
    have hother : k ≠ 1 - k := by omega
    exact ⟨1 - k, by simpa using hother, by simp [Dev.directoryJob, Directory.written, hc]⟩

/-- A commit needs a checked session, and makes its slot active in trial (R49, R50). -/
theorem siCommit_starts_trial (s : State) (seq n : Nat) (x : Session) (hl : s.dev.listens) (hw : s.dev.warmBusy = false)
    (hs : s.dev.mgmt.session = some x) (hk : x.kind ≠ .firmware) :
    ∃ d : Dev, exec (.siCommit (.bmc seq true) n) s = .next (s.withDev d)
      ∧ (x.checked = false → d = s.dev.framed seq 6 [])
      ∧ (x.checked = true → n = 0 ∨ 3 < n → d = s.dev.framed seq 3 [])
      ∧ (x.checked = true → 1 ≤ n → n ≤ 3 → d = { s.dev.framed seq 0 [] with mgmt := d.mgmt } ∧ d.mgmt.session = none
          ∧ d.mgmt.dir.active x.kind = x.slot ∧ d.mgmt.dir.inTrial x.kind = true ∧ d.mgmt.dir.trialsLeft x.kind = n
          ∧ d.mgmt.dir.seq = (s.dev.mgmt.dir.seq + 1) % 2 ^ 32
          ∧ ∃ cp, d.mgmt.dir.copy = some cp ∧ s.dev.mgmt.dir.copy ≠ some cp
              ∧ d.mgmt.background = some { base := 4096 * cp, size := 4096, program := d.mgmt.dir.bytes }) := by
  have hsession := Dev.sessionOf_of (fw := false) hs (by simp [hk])
  by_cases hchecked : x.checked = true
  · by_cases hn : n = 0 ∨ 3 < n
    · exact ⟨_, exec_flashRefused (status := 3) (payload := []) rfl hl (by simp [hw, hsession, hchecked, hn]), fun h => by simp [hchecked] at h,
        fun _ _ => rfl, fun _ h h' => by omega⟩
    · obtain ⟨cp, hcopy, hjob⟩ := s.dev.heard.directoryJob_spec (s.dev.mgmt.dir.try x.kind x.slot n)
      obtain ⟨hactive, htrial, hleft⟩ := s.dev.mgmt.dir.try_spec x.slot n hk
      have hexec : exec (.siCommit (.bmc seq true) n) s = .next (s.withDev (Served.framed
          { dev := (s.dev.heard.directoryJob (s.dev.mgmt.dir.try x.kind x.slot n)).modMgmt fun m => { m with session := none } } seq)) :=
        exec_flashCommand rfl hl (by simp [hw, hsession, hchecked, hn]) (by rw [hjob]; exact hl.1)
      rw [hjob] at hexec
      exact ⟨_, hexec, fun h => by simp [hchecked] at h, fun _ h => absurd h hn, fun _ _ _ => ⟨rfl, rfl,
        (Directory.written_active _ _ _ _).trans hactive, (Directory.written_inTrial _ _ _ _).trans htrial,
        (Directory.written_trialsLeft _ _ _ _).trans hleft, rfl, cp, rfl, hcopy, rfl⟩⟩
  · exact ⟨_, exec_flashRefused (status := 6) (payload := []) rfl hl (by simp [hw, hsession, hchecked]), fun _ => rfl,
        fun h => absurd h hchecked, fun h => absurd h hchecked⟩

/-- A confirmation ends the trial of the active slot (R49). -/
theorem siConfirm_ends_trial (s : State) (seq : Nat) (k : PartKind) (hl : s.dev.listens) :
    ∃ d : Dev, exec (.siConfirm (.bmc seq true) k) s = .next (s.withDev d)
      ∧ (k = .firmware → d = s.dev.framed seq 3 [])
      ∧ (k ≠ .firmware → s.dev.mgmt.dir.inTrial k = false → d = s.dev.framed seq 7 [])
      ∧ (s.dev.mgmt.dir.inTrial k = true → d = { s.dev.framed seq 0 [] with mgmt := d.mgmt }
          ∧ d.mgmt.dir.active k = s.dev.mgmt.dir.active k ∧ d.mgmt.dir.inTrial k = false ∧ d.mgmt.background.isSome = true) := by
  by_cases hk : k = .firmware
  · subst hk
    exact ⟨_, exec_flashRefused rfl hl (if_pos rfl), fun _ => rfl, fun h => absurd rfl h, fun h => by simp [Directory.inTrial] at h⟩
  · by_cases ht : s.dev.mgmt.dir.inTrial k = true
    · obtain ⟨cp, -, hjob⟩ := s.dev.heard.directoryJob_spec (s.dev.mgmt.dir.confirm k (s.dev.mgmt.dir.active k))
      obtain ⟨hactive, htrial⟩ := s.dev.mgmt.dir.confirm_spec k (s.dev.mgmt.dir.active k)
      have hexec : exec (.siConfirm (.bmc seq true) k) s = .next (s.withDev (Served.framed
          { dev := s.dev.heard.directoryJob (s.dev.mgmt.dir.confirm k (s.dev.mgmt.dir.active k)) } seq)) :=
        exec_flashCommand rfl hl (by simp [hk, ht]) (by rw [hjob]; exact hl.1)
      rw [hjob] at hexec
      exact ⟨_, hexec, fun h => absurd h hk, fun _ h => by simp [ht] at h, fun _ => ⟨rfl,
        (Directory.written_active _ _ _ _).trans hactive, (Directory.written_inTrial _ _ _ _).trans htrial, rfl⟩⟩
    · exact ⟨_, exec_flashRefused (status := 7) (payload := []) rfl hl (by simp [hk, ht]), fun h => absurd h hk, fun _ _ => rfl,
        fun h => absurd h ht⟩

/-! ### Floors (R45) -/

/-- A floor rises to the version that is loaded, and never falls (R45, R49). -/
theorem siAdvanceFloor_raises (s : State) (seq : Nat) (k : PartKind) (hl : s.dev.listens) :
    ∃ d : Dev, exec (.siAdvanceFloor (.bmc seq true) k) s = .next (s.withDev d)
      ∧ (s.dev.mgmt.dir.inTrial k = true ∨ s.dev.fellBack k = true → d = s.dev.framed seq 1 [])
      ∧ (s.dev.mgmt.dir.inTrial k = false → s.dev.fellBack k = false → s.dev.get SIM_STAT.STATE = 2 →
          (k = .vendor → d.answer = ⟨seq % 256, 0, [], true⟩
            ∧ d.fuse = { s.dev.fuse with vFloor := max s.dev.fuse.vFloor (s.dev.get SIM_VENDOR.SVN) })
          ∧ (k = .owner → s.dev.get SIM_STAT.O_SRC ≠ 2 → d.answer = ⟨seq % 256, 0, [], true⟩
            ∧ d.fuse = { s.dev.fuse with oFloor := max s.dev.fuse.oFloor (s.dev.get SIM_OWNER.SVN) }))
      ∧ d.mem = s.dev.mem ∧ d.flash = s.dev.flash ∧ d.mgmt = s.dev.mgmt := by
  have hstate := s.dev.heard_get SIM_STAT.STATE 0 0 (by decide)
  by_cases hbusy : s.dev.mgmt.dir.inTrial k = true ∨ s.dev.fellBack k = true
  · exact ⟨_, exec_flashRefused (status := 1) (payload := []) rfl hl (by simp [hbusy]), fun _ => rfl,
      fun h h' => by simp [h, h'] at hbusy, rfl, rfl, rfl⟩
  · by_cases hs : s.dev.get SIM_STAT.STATE = 2
    · cases k with
      | vendor =>
        have hsvn := s.dev.heard_get SIM_VENDOR.SVN 0 0 (by decide)
        exact ⟨_, exec_flashCommand (r := { dev := Dev.fuseRegs { s.dev.heard with
            fuse := { s.dev.fuse with vFloor := max s.dev.fuse.vFloor (s.dev.get SIM_VENDOR.SVN) } } }) rfl hl
            (by simp [hbusy, hstate, hs, hsvn]) hl.1,
          fun h => absurd h hbusy, fun _ _ _ => ⟨fun _ => ⟨rfl, rfl⟩, nofun⟩, rfl, rfl, rfl⟩
      | owner =>
        have hsrc := s.dev.heard_get SIM_STAT.O_SRC 0 0 (by decide)
        have hsvn := s.dev.heard_get SIM_OWNER.SVN 0 0 (by decide)
        by_cases hdefault : s.dev.get SIM_STAT.O_SRC = 2
        · exact ⟨_, exec_flashRefused (status := 3) (payload := []) rfl hl (by simp [hbusy, hstate, hs, hsrc, hdefault]),
            fun h => absurd h hbusy, fun _ _ _ => ⟨nofun, fun _ h => absurd hdefault h⟩, rfl, rfl, rfl⟩
        · exact ⟨_, exec_flashCommand (r := { dev := Dev.fuseRegs { s.dev.heard with
              fuse := { s.dev.fuse with oFloor := max s.dev.fuse.oFloor (s.dev.get SIM_OWNER.SVN) } } }) rfl hl
              (by simp [hbusy, hstate, hs, hsrc, hdefault, hsvn]) hl.1,
            fun h => absurd h hbusy, fun _ _ _ => ⟨nofun, fun _ _ => ⟨rfl, rfl⟩⟩, rfl, rfl, rfl⟩
      | firmware =>
        exact ⟨_, exec_flashRefused (status := 3) (payload := []) rfl hl (by simp [hbusy, hstate, hs]), fun h => absurd h hbusy,
          fun _ _ _ => ⟨nofun, nofun⟩, rfl, rfl, rfl⟩
    · exact ⟨_, exec_flashRefused (status := 3) (payload := []) rfl hl (by simp [hbusy, hstate, hs]), fun h => absurd h hbusy,
        fun _ _ h => absurd h hs, rfl, rfl, rfl⟩

/-! ### Background work and the revert of the firmware (R385, R386) -/

/-- Background work erases its range and then programs it (R386). -/
theorem flashBackgroundDone_runs (s : State) (j : FlashJob) (hp : s.dev.powered = true) (hj : s.dev.mgmt.background = some j) :
    ∃ d : Dev, exec .flashBackgroundDone s = .next (s.withDev d)
      ∧ d = { s.dev with flash := d.flash, mgmt := { s.dev.mgmt with background := none } }
      ∧ (j.program.length ≤ j.size → ∀ a, d.flash.find 0xFF a =
          if j.base ≤ a ∧ a < j.base + j.size then j.program.getD (a - j.base) 0xFF else s.dev.flash.find 0xFF a) := by
  have heff : flashDoneEff s.dev = { s.dev with flash := (s.dev.runJob j).flash, mgmt := { s.dev.mgmt with background := none } } := by
    simp only [flashDoneEff, hj]
    rw [s.dev.runJob_frame j]
    rfl
  have hexec : exec .flashBackgroundDone s = .next (s.withDev (flashDoneEff s.dev)) :=
    congrArg Host.Outcome.next (s.on_powered _ hp (by rw [heff]) (by rw [heff]))
  rw [heff] at hexec
  exact ⟨_, hexec, rfl, s.dev.find_runJob j⟩

/-- While work on the flash is under way no session times out (R386). -/
theorem sessionTimeout_waits (s : State) (hp : s.dev.powered = true) (hb : s.dev.mgmt.background.isSome = true) :
    exec .sessionTimeout s = .next s := by
  obtain ⟨j, hj⟩ := Option.isSome_iff_exists.1 hb
  have heff : sessionTimeoutEff s.dev = s.dev := by simp [sessionTimeoutEff, hj]
  refine congrArg Host.Outcome.next ((s.on_powered _ hp ?_ ?_).trans ?_) <;> rw [heff]

/-- A revert of the firmware erases the first sector of the loaded slot, if the other slot verifies (R385). -/
theorem fwRevert_erases (s : State) (seq f : Nat) (hl : s.dev.listens) (hf : s.dev.mgmt.firmware = some f) :
    exec (.fwRevert (.bmc seq true)) s = .next (s.withDev
      (match s.dev.checkFirmware (s.dev.flashBlob (slotBase .firmware (1 - f))) with
        | .error e => s.dev.framed seq 8 (leBytes 1 e)
        | .ok _ => { s.dev.framed seq 0 [] with
                     mgmt := { s.dev.mgmt with background := some { base := slotBase .firmware f, size := 4096 } } })) := by
  cases hcheck : s.dev.checkFirmware (s.dev.flashBlob (slotBase .firmware (1 - f))) with
  | error e => exact exec_flashRefused rfl hl (by simp [hf, hcheck])
  | ok p =>
    exact exec_flashCommand (r := { dev := s.dev.heard.modMgmt fun m =>
      { m with background := some { base := slotBase .firmware f, size := 4096 } } }) rfl hl (by simp [hf, hcheck]) hl.1

theorem fwRevert_serviceMode (s : State) (seq : Nat) (hl : s.dev.listens) (hf : s.dev.mgmt.firmware = none) :
    exec (.fwRevert (.bmc seq true)) s = .next (s.withDev (s.dev.framed seq 3 [])) :=
  exec_flashRefused rfl hl (by simp [hf])

/-- Settles O58: staging, commit, confirmation and floors, each clause by its own theorem above. -/
theorem stagingAndCommit : Obligations.StagingAndCommit := by
  unfold Obligations.StagingAndCommit
  exact ⟨stageBegin_opens, siStageBegin_firmware, stageWrite_programs, stageCheck_records, fwStageCheck_newer, session_closes,
    noSession_refused, siCommit_starts_trial, siConfirm_ends_trial, siAdvanceFloor_raises, flashBackgroundDone_runs,
    sessionTimeout_waits, fwRevert_erases, fwRevert_serviceMode⟩

end Sys2Proof.Machine
end

section
/-!
PROOFS. Owner keys: enrolment and revocation (spec/02, R51 to R53).
-/

namespace Sys2Proof.Machine

theorem Fuse.slot_setSlot (f : Fuse) (k state hash : Nat) : (f.setSlot k state hash).slot k = (state, hash) := by
  unfold Fuse.slot Fuse.setSlot
  by_cases h : k = 0 <;> simp [h]

/-- While both slots are empty the slot that an object names is. -/
theorem Fuse.slot_empty {f : Fuse} (h0 : f.slot0 = 0) (h1 : f.slot1 = 0) (k : Nat) : (f.slot k).1 = 0 := by
  unfold Fuse.slot
  split
  · exact h0
  · exact h1

/-! ### The first check that fails -/

@[simp] theorem firstFail_nil : firstFail [] = none := rfl

@[simp] theorem firstFail_cons (b : Bool) (e : Nat) (l : List (Bool × Nat)) :
    firstFail ((b, e) :: l) = if b = true then some e else firstFail l := by
  cases b <;> rfl

@[simp] theorem leBytes_one (v : Nat) : leBytes 1 v = [BitVec.ofNat 8 v] := rfl

/-- Under the key of an enrolled slot an object passes by its signature alone. -/
theorem Dev.firstFail_objectSigned {d : Dev} {p : SignedPart} {obj : List Byte} {key : Nat} (hlen : obj.length = p.len + 2888)
    (henrolled : (d.fuse.slot key).1 = 1) (hkey : p.keyHash (blobOf obj) = (d.fuse.slot key).2) (l : List (Bool × Nat)) :
    firstFail (d.objectSigned p obj key ++ l) = if p.signed (blobOf obj) = true then firstFail l else some 5 := by
  cases hsigned : p.signed (blobOf obj) <;> simp [Dev.objectSigned, hlen, henrolled, hkey, hsigned]

/-- The key of a revoked slot signs nothing (R53). -/
theorem Dev.firstFail_objectSigned_revoked {d : Dev} {p : SignedPart} {obj : List Byte} {key : Nat} (hlen : obj.length = p.len + 2888)
    (hrevoked : (d.fuse.slot key).1 = 2) (l : List (Bool × Nat)) : firstFail (d.objectSigned p obj key ++ l) = some 4 := by
  simp [Dev.objectSigned, hlen, hrevoked]

@[simp] theorem Dev.heard_objectSigned (d : Dev) (p : SignedPart) (obj : List Byte) (key : Nat) :
    d.heard.objectSigned p obj key = d.objectSigned p obj key := rfl

/-! ### Enrolment and revocation -/

/-- A slot that is not empty takes no hash (R52). -/
theorem siEnrolKey_taken (s : State) (seq : Nat) (obj : List Byte) (p : SignedPart) (x : Sect) (hl : s.dev.listens)
    (hparse : parsePart (blobOf obj) 0x4B534550 obj.length 1 = some p) (hsect : p.sects = [x]) (htaken : (s.dev.fuse.slot p.slot).1 ≠ 0) :
    exec (.siEnrolKey (.bmc seq true) obj) s = .next (s.withDev (s.dev.framed seq 3 [])) :=
  exec_flashRefused rfl hl (by simp [hparse, hsect, htaken])

/-- While both slots are empty on owner defaults, an unsigned object of this package enrols its hash (R52). -/
theorem siEnrolKey_unsigned (s : State) (seq : Nat) (obj : List Byte) (p : SignedPart) (x : Sect) (hl : s.dev.listens)
    (hparse : parsePart (blobOf obj) 0x4B534550 obj.length 1 = some p) (hsect : p.sects = [x]) (h0 : s.dev.fuse.slot0 = 0)
    (h1 : s.dev.fuse.slot1 = 0) (hstate : s.dev.get SIM_STAT.STATE = 2) (hsrc : s.dev.get SIM_STAT.O_SRC = 2)
    (hlen : obj.length = p.len + 68) (hzero : blobZero (blobOf obj) p.len 68 = true) (htyp : x.typ = 0x201) (hsize : x.size = 32)
    (hbeh : p.behaviour = 0) :
    ∃ d : Dev, exec (.siEnrolKey (.bmc seq true) obj) s = .next (s.withDev d) ∧ d.mem = s.dev.mem ∧ d.mgmt = s.dev.mgmt
      ∧ (p.uid = s.dev.fuse.uid → d.answer = ⟨seq % 256, 0, [], true⟩
          ∧ d.fuse.slot p.slot = (1, blobAt (blobOf obj) x.off 32)
          ∧ d.fuse = s.dev.fuse.setSlot p.slot 1 (blobAt (blobOf obj) x.off 32))
      ∧ (p.uid ≠ s.dev.fuse.uid → d = s.dev.framed seq 8 [7]) := by
  have hempty := Fuse.slot_empty h0 h1 p.slot
  have hstate' := (s.dev.heard_get SIM_STAT.STATE 0 0 (by decide)).trans hstate
  have hsrc' := (s.dev.heard_get SIM_STAT.O_SRC 0 0 (by decide)).trans hsrc
  by_cases huid : p.uid = s.dev.fuse.uid
  · refine ⟨_, exec_flashCommand (r := { dev := Dev.fuseRegs { s.dev.heard with
        fuse := s.dev.fuse.setSlot p.slot 1 (blobAt (blobOf obj) x.off 32) } }) rfl hl ?_ hl.1, rfl, rfl,
      fun _ => ⟨rfl, s.dev.fuse.slot_setSlot p.slot 1 _, rfl⟩, fun h => absurd huid h⟩
    simp [hparse, hsect, hempty, hstate', hsrc', h0, h1, ← hlen, hzero, htyp, hsize, hbeh, huid]
  · refine ⟨_, exec_flashRefused (status := 8) (payload := [7]) rfl hl ?_, rfl, rfl, fun h => absurd h huid, fun _ => rfl⟩
    simp [hparse, hsect, hempty, hstate', hsrc', h0, h1, ← hlen, hzero, htyp, hsize, huid]

/-- A slot is revoked under a signature of the other, enrolled slot, and keeps its hash (R53). -/
theorem siRevokeKey_signed (s : State) (seq : Nat) (obj : List Byte) (p : SignedPart) (hl : s.dev.listens)
    (hparse : parsePart (blobOf obj) 0x4B535250 obj.length 1 = some p) (hsect : p.sects = []) (hlen : obj.length = p.len + 2888)
    (henrolled : (s.dev.fuse.slot (1 - p.slot)).1 = 1) (hkey : p.keyHash (blobOf obj) = (s.dev.fuse.slot (1 - p.slot)).2)
    (huid : p.uid = s.dev.fuse.uid) (hbeh : p.behaviour = 0) :
    ∃ d : Dev, exec (.siRevokeKey (.bmc seq true) obj) s = .next (s.withDev d) ∧ d.mem = s.dev.mem ∧ d.mgmt = s.dev.mgmt
      ∧ (p.signed (blobOf obj) = true → d.answer = ⟨seq % 256, 0, [], true⟩
          ∧ d.fuse = s.dev.fuse.setSlot p.slot 2 (s.dev.fuse.slot p.slot).2)
      ∧ (p.signed (blobOf obj) = false → d = s.dev.framed seq 8 [5]) := by
  cases hsigned : p.signed (blobOf obj) with
  | true =>
    refine ⟨_, exec_flashCommand (r := { dev := Dev.fuseRegs { s.dev.heard with
        fuse := s.dev.fuse.setSlot p.slot 2 (s.dev.fuse.slot p.slot).2 } }) rfl hl ?_ hl.1, rfl, rfl, fun _ => ⟨rfl, rfl⟩, nofun⟩
    simp [hparse, Dev.firstFail_objectSigned hlen henrolled hkey, hsect, hsigned, huid, hbeh]
  | false =>
    refine ⟨_, exec_flashRefused (status := 8) (payload := [5]) rfl hl ?_, rfl, rfl, nofun, fun _ => rfl⟩
    simp [hparse, Dev.firstFail_objectSigned hlen henrolled hkey, hsect, hsigned]

/-- A revoked key signs nothing (R53). -/
theorem siRevokeKey_revoked (s : State) (seq : Nat) (obj : List Byte) (p : SignedPart) (hl : s.dev.listens)
    (hparse : parsePart (blobOf obj) 0x4B535250 obj.length 1 = some p) (hsect : p.sects = []) (hlen : obj.length = p.len + 2888)
    (hrevoked : (s.dev.fuse.slot (1 - p.slot)).1 = 2) :
    exec (.siRevokeKey (.bmc seq true) obj) s = .next (s.withDev (s.dev.framed seq 8 [4])) := by
  refine exec_flashRefused rfl hl ?_
  simp [hparse, Dev.firstFail_objectSigned_revoked hlen hrevoked, hsect]

/-- Settles O59: owner keys, each clause by its own theorem above. -/
theorem ownerKeys : Obligations.OwnerKeys := by
  unfold Obligations.OwnerKeys
  exact ⟨siEnrolKey_unsigned, siEnrolKey_taken, siRevokeKey_signed, siRevokeKey_revoked⟩

end Sys2Proof.Machine
end

section
/-!
PROOFS. What the shared operations of a leaf core leave: its integer registers after a write, counting and retiring, and traps to
M mode (R55, R58, R72).
-/

namespace Sys2Proof.Machine

/-! ### Commands that change one leaf -/

/-- A command whose operation replaces the core of one leaf does so on powered dies. -/
theorem exec_of_setLeaf {c : Instr} {s : State} {f : Dev → Dev} {n : Nat} {l : Leaf} (he : exec c s = .next (s.on f))
    (hp : s.dev.powered = true) (h : f s.dev = s.dev.setLeaf n l) : exec c s = .next (s.withDev (s.dev.setLeaf n l)) := by
  rw [he, s.on_powered f hp (by rw [h]; rfl) (by rw [h]; rfl), h]

/-- Of two replacements of one leaf's core the later stands. -/
theorem Dev.leaf_modLeaf (d : Dev) (n : Nat) (f : Leaf → Leaf) : (d.modLeaf n f).leaf n = f (d.leaf n) := d.leaf_setLeaf n _

theorem Dev.leaf_modLeaf_other (d : Dev) {n m : Nat} (f : Leaf → Leaf) (h : m ≠ n) : (d.modLeaf n f).leaf m = d.leaf m :=
  d.leaf_setLeaf_other _ h

/-! ### Integer registers -/

@[simp] theorem Leaf.getX_zero (l : Leaf) : l.getX 0 = 0 := rfl

/-- An integer register reads what was written to it; x0 reads zero. -/
theorem Leaf.getX_setX_same (l : Leaf) {r : Nat} (v : Word) (hr : r ≠ 0) : (l.setX r v).getX r = v := by
  simp [Leaf.getX, Leaf.setX, hr]

/-- A write of an integer register leaves every other alone. -/
theorem Leaf.getX_setX_other (l : Leaf) {r q : Nat} (v : Word) (h : q ≠ r) : (l.setX r v).getX q = l.getX q := by
  unfold Leaf.getX Leaf.setX
  split
  · rfl
  · split
    · rfl
    · exact KMap.find_set_other _ _ _ _ _ h

/-- A write of an integer register changes the integer registers alone. -/
theorem Leaf.setX_eq (l : Leaf) (r : Nat) (v : Word) : l.setX r v = { l with x := (l.setX r v).x } := by
  unfold Leaf.setX; split <;> rfl

@[simp] theorem Leaf.setX_pc (l : Leaf) (r : Nat) (v : Word) : (l.setX r v).pc = l.pc := by rw [l.setX_eq]
@[simp] theorem Leaf.setX_mode (l : Leaf) (r : Nat) (v : Word) : (l.setX r v).mode = l.mode := by rw [l.setX_eq]
@[simp] theorem Leaf.setX_resv (l : Leaf) (r : Nat) (v : Word) : (l.setX r v).resv = l.resv := by rw [l.setX_eq]
@[simp] theorem Leaf.setX_misses (l : Leaf) (r : Nat) (v : Word) : (l.setX r v).misses = l.misses := by rw [l.setX_eq]
@[simp] theorem Leaf.csrRaw_setX (l : Leaf) (r : Nat) (v : Word) (c : Nat) : (l.setX r v).csrRaw c = l.csrRaw c := by
  rw [l.setX_eq]; rfl

/-! ### Counting and retiring -/

/-- A change of a leaf that its counters of cycles, of instructions and of events take alone. -/
structure Leaf.Counts (l l' : Leaf) : Prop where
  rest : l' = { l with csr := l'.csr }
  csr : ∀ c, c < 0xB00 ∨ 0xB1F < c → l'.csrRaw c = l.csrRaw c

namespace Leaf.Counts

variable {l l' l'' : Leaf}

theorem refl (l : Leaf) : l.Counts l := ⟨rfl, fun _ _ => rfl⟩

theorem trans (h : l.Counts l') (h' : l'.Counts l'') : l.Counts l'' :=
  ⟨by rw [h'.rest, h.rest], fun c hc => (h'.csr c hc).trans (h.csr c hc)⟩

theorem setCsr (l : Leaf) {k : Nat} (v : Word) (hk : 0xB00 ≤ k ∧ k ≤ 0xB1F) : l.Counts (l.setCsr k v) :=
  ⟨rfl, fun c hc => l.csrRaw_setCsr_other v (by omega)⟩

/-- An event of R73 is counted in counters alone. -/
theorem countEvent (l : Leaf) (code times : Nat) : l.Counts (l.countEvent code times) := by
  unfold Leaf.countEvent
  refine List.foldlRecOn (List.range 29) _ (refl l) fun x hx k hk => hx.trans ?_
  have hk29 := List.mem_range.1 hk
  dsimp only
  split
  · exact setCsr x _ ⟨by omega, by omega⟩
  · exact refl x

theorem retire (l : Leaf) (pc : Word) : ({ l with pc := pc, retried := false } : Leaf).Counts (l.retire pc) := by
  have h := countEvent { l with pc := pc, retried := false } 2 1
  unfold Leaf.retire
  dsimp only
  split
  · exact h
  · exact h.trans (setCsr _ _ ⟨by decide, by decide⟩)

end Leaf.Counts

/-- Retiring an instruction leaves every control and status register but the counters. -/
theorem Leaf.csrRaw_retire (l : Leaf) (pc : Word) {c : Nat} (hc : c < 0xB00 ∨ 0xB1F < c) : (l.retire pc).csrRaw c = l.csrRaw c :=
  (Leaf.Counts.retire l pc).csr c hc

@[simp] theorem Leaf.retire_pc (l : Leaf) (pc : Word) : (l.retire pc).pc = pc := by rw [(Leaf.Counts.retire l pc).rest]
@[simp] theorem Leaf.retire_x (l : Leaf) (pc : Word) : (l.retire pc).x = l.x := by rw [(Leaf.Counts.retire l pc).rest]
@[simp] theorem Leaf.retire_f (l : Leaf) (pc : Word) : (l.retire pc).f = l.f := by rw [(Leaf.Counts.retire l pc).rest]
@[simp] theorem Leaf.retire_mode (l : Leaf) (pc : Word) : (l.retire pc).mode = l.mode := by rw [(Leaf.Counts.retire l pc).rest]
@[simp] theorem Leaf.retire_resv (l : Leaf) (pc : Word) : (l.retire pc).resv = l.resv := by rw [(Leaf.Counts.retire l pc).rest]
@[simp] theorem Leaf.retire_misses (l : Leaf) (pc : Word) : (l.retire pc).misses = l.misses := by rw [(Leaf.Counts.retire l pc).rest]
@[simp] theorem Leaf.retire_tlb (l : Leaf) (pc : Word) : (l.retire pc).tlb = l.tlb := by rw [(Leaf.Counts.retire l pc).rest]
@[simp] theorem Leaf.retire_fetchStale (l : Leaf) (pc : Word) : (l.retire pc).fetchStale = l.fetchStale := by
  rw [(Leaf.Counts.retire l pc).rest]
@[simp] theorem Leaf.retire_mchkPending (l : Leaf) (pc : Word) : (l.retire pc).mchkPending = l.mchkPending := by
  rw [(Leaf.Counts.retire l pc).rest]
@[simp] theorem Leaf.getX_retire (l : Leaf) (pc : Word) (r : Nat) : (l.retire pc).getX r = l.getX r := by
  simp [Leaf.getX]

/-! ### Traps to M mode -/

/-- A leaf goes on in a mode at an address. -/
def Leaf.goesTo (l : Leaf) (m : Mode) (pc : Word) : Leaf := { l with mode := m, pc := pc }

@[simp] theorem Leaf.csrRaw_goesTo (l : Leaf) (m : Mode) (pc : Word) (c : Nat) : (l.goesTo m pc).csrRaw c = l.csrRaw c := rfl

/-- What a leaf that takes an exception in M mode is like: the handler's address, the saved pc, cause, value, mode and enable; its
registers, its miss entries and its TLBs are as they were (R55). -/
structure Leaf.TrapsToM (l : Leaf) (code : Nat) (tval : Word) (l' : Leaf) : Prop where
  mode : l'.mode = .machine
  pc : l'.pc = l.csrRaw 0x305 &&& ~~~(3 : Word)
  mepc : l'.csrRaw 0x341 = l.pc
  mcause : l'.csrRaw 0x342 = BitVec.ofNat 64 code
  mtval : l'.csrRaw 0x343 = tval
  mpp : (l'.csrRaw 0x300).bits 12 11 = modeCode l.mode
  mie : (l'.csrRaw 0x300).getLsbD 3 = false
  mpie : (l'.csrRaw 0x300).getLsbD 7 = (l.csrRaw 0x300).getLsbD 3
  x : l'.x = l.x
  misses : l'.misses = l.misses
  tlb : l'.tlb = l.tlb

/-- mstatus after an exception taken in M mode: MPP, MPIE, MIE, MPV and GVA. -/
def trapStatus (st : Word) (pp v gva : Nat) : Word :=
  ((((st.setBits 12 11 pp).setBits 7 7 (st.bits 3 3)).setBits 3 3 0).setBits 39 39 v).setBits 38 38 gva

theorem modeCode_lt (m : Mode) : modeCode m < 4 := by cases m <;> decide

/-- The fields of mstatus that a trap to M mode saves. -/
theorem trapStatus_fields (st : Word) (pp v gva : Nat) (hpp : pp < 4) : (trapStatus st pp v gva).bits 12 11 = pp
    ∧ (trapStatus st pp v gva).getLsbD 3 = false ∧ (trapStatus st pp v gva).getLsbD 7 = st.getLsbD 3 := by
  unfold trapStatus
  refine ⟨?_, ?_, ?_⟩
  · rw [Word.bits_setBits_other _ _ _ _ _ _ (by decide) (by decide) (by decide) (by decide),
      Word.bits_setBits_other _ _ _ _ _ _ (by decide) (by decide) (by decide) (by decide),
      Word.bits_setBits_other _ _ _ _ _ _ (by decide) (by decide) (by decide) (by decide),
      Word.bits_setBits_other _ _ _ _ _ _ (by decide) (by decide) (by decide) (by decide),
      Word.bits_setBits_same _ _ _ _ (by decide) (by decide)]
    exact Nat.mod_eq_of_lt hpp
  · rw [Word.getLsbD_setBits _ _ _ _ _ (by decide) (by decide), Word.getLsbD_setBits _ _ _ _ _ (by decide) (by decide),
      Word.getLsbD_setBits _ _ _ _ _ (by decide) (by decide)]
    rfl
  · rw [Word.getLsbD_setBits _ _ _ _ _ (by decide) (by decide), Word.getLsbD_setBits _ _ _ _ _ (by decide) (by decide),
      Word.getLsbD_setBits _ _ _ _ _ (by decide) (by decide), Word.getLsbD_setBits _ _ _ _ _ (by decide) (by decide)]
    exact Word.testBit_bits st 3 3 0

/-- A trap to M mode writes its control and status registers and goes to the handler. -/
theorem Leaf.trapTo_machine_eq (l : Leaf) (i : Bool) (code : Nat) (tval : Word) (gpa : Nat) (gva : Bool) :
    l.trapTo .machine i code tval gpa gva =
      ((((((l.setCsr 0x300 (trapStatus (l.csrRaw 0x300) (modeCode l.mode) (if virtual l.mode then 1 else 0) (if gva then 1 else 0))).setCsr
        0x341 l.pc).setCsr 0x342 (causeWord i code)).setCsr 0x343 tval).setCsr 0x34A 0).setCsr 0x34B (BitVec.ofNat 64 (gpa / 4))).goesTo
          .machine (vectorTo (l.csrRaw 0x305) i code) := rfl

theorem Leaf.trapTo_machine (l : Leaf) (code : Nat) (tval : Word) (gpa : Nat) (gva : Bool) :
    l.TrapsToM code tval (l.trapTo .machine false code tval gpa gva) := by
  obtain ⟨hx, _, _, _, hmisses, htlb⟩ := l.trapTo_frame .machine false code tval gpa gva
  obtain ⟨hmpp, hmie, hmpie⟩ := trapStatus_fields (l.csrRaw 0x300) (modeCode l.mode) (if virtual l.mode then 1 else 0)
    (if gva then 1 else 0) (modeCode_lt l.mode)
  have hst : (l.trapTo .machine false code tval gpa gva).csrRaw 0x300 =
      trapStatus (l.csrRaw 0x300) (modeCode l.mode) (if virtual l.mode then 1 else 0) (if gva then 1 else 0) := by
    simp [Leaf.trapTo_machine_eq, Leaf.csrRaw_setCsr_other]
  exact {
    mode := rfl
    pc := rfl
    mepc := by simp [Leaf.trapTo_machine_eq, Leaf.csrRaw_setCsr_other]
    mcause := by simp [Leaf.trapTo_machine_eq, Leaf.csrRaw_setCsr_other, causeWord]
    mtval := by simp [Leaf.trapTo_machine_eq, Leaf.csrRaw_setCsr_other]
    mpp := by rw [hst, hmpp]
    mie := by rw [hst, hmie]
    mpie := by rw [hst, hmpie]
    x := hx
    misses := hmisses
    tlb := htlb }

/-- An exception is taken in M mode where that mode meets it with NMIs enabled, or medeleg does not delegate it from a lower one. -/
theorem Dev.exception_toM (d : Dev) (n code : Nat) (tval : Word) (gpa : Nat) (hv : Bool)
    (h : if (d.leaf n).mode = .machine then (d.leaf n).nmie = true else ((d.leaf n).csrRaw 0x302).getLsbD code = false) :
    ∃ l, d.exception n code tval gpa hv = d.setLeaf n l ∧ (d.leaf n).TrapsToM code tval l := by
  refine ⟨_, ?_, (d.leaf n).trapTo_machine code tval gpa (addressCode code && (hv || virtual (d.leaf n).mode))⟩
  unfold Dev.exception
  by_cases hm : (d.leaf n).mode = .machine
  · rw [if_pos hm] at h
    simp [hm, h]
  · rw [if_neg hm] at h
    simp only [hm, decide_false, Bool.and_false, Bool.false_eq_true, if_false, h]

end Sys2Proof.Machine
end

section
/-!
PROOFS. Instructions of a leaf core: integer operations, jumps, environment calls, returns and machine checks (R55, R70 to R72).
-/

namespace Sys2Proof.Machine

/-- The replacement of a leaf's core changes the leaves alone. -/
theorem Dev.setLeaf_eq (d : Dev) (n : Nat) (l : Leaf) : d.setLeaf n l = { d with leaves := (d.setLeaf n l).leaves } := rfl

/-- An instruction that meets no interrupt and no error executes. -/
theorem exec_leafInstruction {s : State} {n : Nat} {i : LeafInsn} {l : Leaf} (hp : s.dev.powered = true)
    (hr : s.dev.leafRuns n = true) (hi : (s.dev.leaf n).interrupt = none) (h : s.dev.execOp n i = s.dev.setLeaf n l) :
    exec (.leafInstruction n i .none) s = .next (s.withDev (s.dev.setLeaf n l)) :=
  exec_of_setLeaf (f := leafInsnEff n i .none) rfl hp (by simp [leafInsnEff, hr, hi, errorCheck, h])

variable {s : State} {n : Nat}

/-- An integer operation writes its register alone and retires. -/
theorem alu_retires (op : AluOp) (rd rs1 : Nat) (src : RegOrImm) (len : Nat) (bits : Word) (hp : s.dev.powered = true)
    (hr : s.dev.leafRuns n = true) (hi : (s.dev.leaf n).interrupt = none) :
    ∃ d : Dev, exec (.leafInstruction n ⟨.alu op rd rs1 src, len, bits⟩ .none) s = .next (s.withDev d)
      ∧ d = { s.dev with leaves := d.leaves }
      ∧ (rd ≠ 0 → (d.leaf n).getX rd = aluResult op ((s.dev.leaf n).getX rs1) (operandValue src (s.dev.leaf n)))
      ∧ (∀ r, r ≠ rd → (d.leaf n).getX r = (s.dev.leaf n).getX r) ∧ (d.leaf n).getX 0 = 0
      ∧ (d.leaf n).pc = (s.dev.leaf n).pc + BitVec.ofNat 64 len ∧ (d.leaf n).mode = (s.dev.leaf n).mode
      ∧ (d.leaf n).csrRaw 0x300 = (s.dev.leaf n).csrRaw 0x300 ∧ (d.leaf n).csrRaw 0x341 = (s.dev.leaf n).csrRaw 0x341
      ∧ (d.leaf n).resv = (s.dev.leaf n).resv ∧ ∀ m, m ≠ n → d.leaf m = s.dev.leaf m := by
  refine ⟨_, exec_leafInstruction hp hr hi rfl, rfl, fun h0 => ?_, fun r h => ?_, rfl, ?_, ?_, ?_, ?_, ?_,
    fun m hm => s.dev.leaf_setLeaf_other _ hm⟩
  all_goals rw [Dev.leaf_setLeaf]
  · rw [Leaf.getX_retire, Leaf.getX_setX_same _ _ h0]
  · rw [Leaf.getX_retire, Leaf.getX_setX_other _ _ h]
  · simp
  · simp
  · rw [Leaf.csrRaw_retire _ _ (by decide), Leaf.csrRaw_setX]
  · rw [Leaf.csrRaw_retire _ _ (by decide), Leaf.csrRaw_setX]
  · simp

/-- A jump links the following pc and goes to its target. -/
theorem jal_goes (rd : Nat) (off : Word) (len : Nat) (bits : Word) (hp : s.dev.powered = true)
    (hr : s.dev.leafRuns n = true) (hi : (s.dev.leaf n).interrupt = none) :
    ∃ d : Dev, exec (.leafInstruction n ⟨.jal rd off, len, bits⟩ .none) s = .next (s.withDev d)
      ∧ d = { s.dev with leaves := d.leaves } ∧ (rd ≠ 0 → (d.leaf n).getX rd = (s.dev.leaf n).pc + BitVec.ofNat 64 len)
      ∧ (∀ r, r ≠ rd → (d.leaf n).getX r = (s.dev.leaf n).getX r) ∧ (d.leaf n).pc = (s.dev.leaf n).pc + off := by
  refine ⟨_, exec_leafInstruction hp hr hi rfl, rfl, fun h0 => ?_, fun r h => ?_, ?_⟩
  all_goals rw [Dev.leaf_setLeaf]
  · rw [Leaf.getX_retire, Leaf.getX_setX_same _ _ h0]
  · rw [Leaf.getX_retire, Leaf.getX_setX_other _ _ h]
  · simp

/-- ECALL in M mode, where NMIs are enabled, traps to M mode with cause 11. -/
theorem ecall_traps (len : Nat) (bits : Word) (hp : s.dev.powered = true) (hr : s.dev.leafRuns n = true)
    (hi : (s.dev.leaf n).interrupt = none) (hm : (s.dev.leaf n).mode = .machine)
    (hnmie : ((s.dev.leaf n).csrRaw 0x744).getLsbD 3 = true) :
    ∃ l, exec (.leafInstruction n ⟨.ecall, len, bits⟩ .none) s = .next (s.withDev (s.dev.setLeaf n l))
      ∧ (s.dev.leaf n).TrapsToM 11 0 l := by
  obtain ⟨l, he, ht⟩ := s.dev.exception_toM n 11 0 0 false (by rw [if_pos hm]; exact hnmie)
  refine ⟨l, exec_leafInstruction hp hr hi ?_, ht⟩
  simpa [Dev.execOp, hm] using he

/-! ### Returns -/

/-- The bits of mstatus that MRET restores. -/
theorem Leaf.mret_status (l : Leaf) : (l.mret.csrRaw 0x300).getLsbD 3 = (l.csrRaw 0x300).getLsbD 7
    ∧ (l.mret.csrRaw 0x300).getLsbD 7 = true := by
  have hst : ∃ st : Word, l.mret.csrRaw 0x300 = st ∧ st.getLsbD 3 = (l.csrRaw 0x300).getLsbD 7 ∧ st.getLsbD 7 = true := by
    refine ⟨_, l.csrRaw_setCsr 0x300 _, ?_⟩
    split
    all_goals
      simp only [Word.getLsbD_setBits _ _ _ _ _ (show 39 ≤ 39 by decide) (by decide),
        Word.getLsbD_setBits _ _ _ _ _ (show 11 ≤ 12 by decide) (by decide),
        Word.getLsbD_setBits _ _ _ _ _ (show 17 ≤ 17 by decide) (by decide),
        Word.getLsbD_setBits _ _ _ _ _ (show 7 ≤ 7 by decide) (by decide),
        Word.getLsbD_setBits _ _ _ _ _ (show 3 ≤ 3 by decide) (by decide)]
      exact ⟨Word.testBit_bits _ 7 7 0, rfl⟩
  obtain ⟨st, h, h3, h7⟩ := hst
  rw [h]
  exact ⟨h3, h7⟩

/-- MRET in M mode returns to mepc in the mode that mstatus saved. -/
theorem mret_returns (len : Nat) (bits : Word) (hp : s.dev.powered = true) (hr : s.dev.leafRuns n = true)
    (hi : (s.dev.leaf n).interrupt = none) (hm : (s.dev.leaf n).mode = .machine) :
    ∃ d : Dev, exec (.leafInstruction n ⟨.mret, len, bits⟩ .none) s = .next (s.withDev d)
      ∧ d = { s.dev with leaves := d.leaves } ∧ (d.leaf n).pc = (s.dev.leaf n).csrRaw 0x341
      ∧ (d.leaf n).mode = modeOf (((s.dev.leaf n).csrRaw 0x300).bits 12 11) (((s.dev.leaf n).csrRaw 0x300).getLsbD 39)
      ∧ ((d.leaf n).csrRaw 0x300).getLsbD 3 = ((s.dev.leaf n).csrRaw 0x300).getLsbD 7
      ∧ ((d.leaf n).csrRaw 0x300).getLsbD 7 = true ∧ (d.leaf n).x = (s.dev.leaf n).x := by
  set r := (s.dev.leaf n).retire (s.dev.leaf n).pc with hrdef
  have hst : r.csrRaw 0x300 = (s.dev.leaf n).csrRaw 0x300 := Leaf.csrRaw_retire _ _ (by decide)
  have hepc : r.csrRaw 0x341 = (s.dev.leaf n).csrRaw 0x341 := Leaf.csrRaw_retire _ _ (by decide)
  obtain ⟨h3, h7⟩ := r.mret_status
  refine ⟨_, exec_leafInstruction (l := r.mret) hp hr hi (by simp [Dev.execOp, hm, hrdef]), rfl, ?_⟩
  rw [Dev.leaf_setLeaf, ← hst, ← hepc]
  exact ⟨rfl, rfl, h3, h7, Leaf.retire_x _ _⟩

/-! ### Machine checks -/

/-- The site of a leaf stands in the site map. -/
theorem Dev.leafSite_of_stays {K : RegName → Bool} {d d' : Dev} (h : d.Stays K d') (hK : K .SIM_SITEMAP = true) (n : Nat) :
    d'.leafSite n = d.leafSite n := by
  have he (s : Nat) : d'.mapEntry s = d.mapEntry s := by unfold Dev.mapEntry; rw [h.reg _ hK]
  simp only [Dev.leafSite, Dev.siteOf, he]

/-- Raising an event leaves every leaf as it was. -/
@[simp] theorem Dev.raise_leaf (d : Dev) (k : Nat) (i : EvInfo) (n : Nat) : (d.raise k i).leaf n = d.leaf n := by
  simp [Dev.leaf]

/-- A leaf enters the RNMI handler with a record: its pc, mode and code are saved, and NMIs are disabled (R72). -/
structure Leaf.EntersRnmi (l : Leaf) (code : Nat) (l' : Leaf) : Prop where
  mnepc : l'.csrRaw 0x741 = l.pc
  mncause : l'.csrRaw 0x742 = BitVec.ofNat 64 (2 ^ 63 + code)
  nmie : (l'.csrRaw 0x744).getLsbD 3 = false
  mnpp : (l'.csrRaw 0x744).bits 12 11 = modeCode l.mode
  mode : l'.mode = .machine
  valid : (l'.csrRaw 0x7C0).getLsbD 63 = true
  code : (l'.csrRaw 0x7C0).bits 39 32 = code % 256
  x : l'.x = l.x

/-- mnstatus on the entry of the RNMI handler: MNPP, MNPV and NMIE. -/
def rnmiStatus (ms : Word) (pp v : Nat) : Word := ((ms.setBits 12 11 pp).setBits 7 7 v).setBits 3 3 0

/-- The fields of mnstatus that the entry of the RNMI handler saves. -/
theorem rnmiStatus_fields (ms : Word) (pp v : Nat) (hpp : pp < 4) :
    (rnmiStatus ms pp v).getLsbD 3 = false ∧ (rnmiStatus ms pp v).bits 12 11 = pp := by
  unfold rnmiStatus
  refine ⟨?_, ?_⟩
  · rw [Word.getLsbD_setBits _ _ _ _ _ (by decide) (by decide)]
    rfl
  · rw [Word.bits_setBits_other _ _ _ _ _ _ (by decide) (by decide) (by decide) (by decide),
      Word.bits_setBits_other _ _ _ _ _ _ (by decide) (by decide) (by decide) (by decide),
      Word.bits_setBits_same _ _ _ _ (by decide) (by decide)]
    exact Nat.mod_eq_of_lt hpp

/-- mchkinfo on the entry of the RNMI handler: VALID, the resumable bit, no pending record, and the code. -/
def rnmiInfo (w : Word) (r code : Nat) : Word := (((w.setBits 63 63 1).setBits 61 61 r).setBits 60 60 0).setBits 39 32 code

/-- The fields of mchkinfo that it writes. -/
theorem rnmiInfo_fields (w : Word) (r code : Nat) :
    (rnmiInfo w r code).getLsbD 63 = true ∧ (rnmiInfo w r code).bits 39 32 = code % 256 := by
  unfold rnmiInfo
  refine ⟨?_, Word.bits_setBits_same _ _ _ _ (by decide) (by decide)⟩
  rw [Word.getLsbD_setBits _ _ _ _ _ (by decide) (by decide), Word.getLsbD_setBits _ _ _ _ _ (by decide) (by decide),
    Word.getLsbD_setBits _ _ _ _ _ (by decide) (by decide), Word.getLsbD_setBits _ _ _ _ _ (by decide) (by decide)]
  rfl

/-- The registers that the entry of the RNMI handler writes. -/
def Leaf.recorded (l : Leaf) (r : MchkRec) : Leaf :=
  (((((l.setCsr 0x744 (rnmiStatus (l.csrRaw 0x744) (modeCode l.mode) (if virtual l.mode then 1 else 0))).setCsr 0x741 l.pc).setCsr
    0x742 (BitVec.ofNat 64 (2 ^ 63 + r.code))).setCsr
      0x7C0 (rnmiInfo (l.csrRaw 0x7C0) (if resumable r.code then 1 else 0) r.code)).setCsr 0x7C1 r.addr).setCsr 0x7C2 r.loc

/-- The leaf goes on in the handler, with no record pending. -/
def Leaf.inHandler (l : Leaf) (pc : Word) : Leaf :=
  { l with mode := .machine, pc := pc, mchkPending := none, mchkTaken := true, retried := false }

@[simp] theorem Leaf.inHandler_x (l : Leaf) (pc : Word) : (l.inHandler pc).x = l.x := rfl
@[simp] theorem Leaf.csrRaw_inHandler (l : Leaf) (pc : Word) (c : Nat) : (l.inHandler pc).csrRaw c = l.csrRaw c := rfl

theorem Dev.enterRnmi_eq (d : Dev) (n : Nat) (r : MchkRec) : d.enterRnmi n r =
    d.setLeaf n (((d.leaf n).recorded r).inHandler (BitVec.ofNat 64 (d.get BGH_RNMI_VEC.ADDR (d.leafSite n) * 4))) := rfl

theorem Leaf.recorded_inHandler (l : Leaf) (r : MchkRec) (pc : Word) : l.EntersRnmi r.code ((l.recorded r).inHandler pc) := by
  obtain ⟨hnmie, hmnpp⟩ := rnmiStatus_fields (l.csrRaw 0x744) (modeCode l.mode) (if virtual l.mode then 1 else 0) (modeCode_lt _)
  obtain ⟨hvalid, hcode⟩ := rnmiInfo_fields (l.csrRaw 0x7C0) (if resumable r.code then 1 else 0) r.code
  have hms : (l.recorded r).csrRaw 0x744 = rnmiStatus (l.csrRaw 0x744) (modeCode l.mode) (if virtual l.mode then 1 else 0) := by
    simp [Leaf.recorded, Leaf.csrRaw_setCsr_other]
  have hinfo : (l.recorded r).csrRaw 0x7C0 = rnmiInfo (l.csrRaw 0x7C0) (if resumable r.code then 1 else 0) r.code := by
    simp [Leaf.recorded, Leaf.csrRaw_setCsr_other]
  exact {
    mnepc := by simp [Leaf.recorded, Leaf.csrRaw_setCsr_other]
    mncause := by simp [Leaf.recorded, Leaf.csrRaw_setCsr_other]
    nmie := by rw [Leaf.csrRaw_inHandler, hms, hnmie]
    mnpp := by rw [Leaf.csrRaw_inHandler, hms, hmnpp]
    mode := rfl
    valid := by rw [Leaf.csrRaw_inHandler, hinfo, hvalid]
    code := by rw [Leaf.csrRaw_inHandler, hinfo, hcode]
    x := by simp [Leaf.recorded] }

/-- A machine check of a leaf that takes NMIs and waits for no access enters the RNMI handler. -/
theorem Dev.machineCheck_enters (d : Dev) (n : Nat) (r : MchkRec) (hnmie : (d.leaf n).nmie = true) (hh : (d.leaf n).holding = false) :
    ∃ (e : Dev) (l : Leaf), d.machineCheck n r = e.setLeaf n l ∧ e.board = d.board ∧ e.power = d.power ∧ (d.leaf n).EntersRnmi r.code l
      ∧ l.pc = BitVec.ofNat 64 (d.get BGH_RNMI_VEC.ADDR (d.leafSite n) * 4) := by
  have hraise : d.machineCheck n r = (d.raise (d.leafSource n)
      { severe := r.code == 7, mkind := 1, mid := n, addr := r.addr.toNat, loc := r.loc }).enterRnmi n r := by
    simp [Dev.machineCheck, hnmie, hh]
  rw [hraise]
  generalize ({ severe := r.code == 7, mkind := 1, mid := n, addr := r.addr.toNat, loc := r.loc } : EvInfo) = i
  have hst : d.Stays (fun q => !cdcReg q) (d.raise (d.leafSource n) i) := .raise d _ i fun q hq => by rw [hq]; rfl
  refine ⟨d.raise (d.leafSource n) i, _, Dev.enterRnmi_eq _ n r, by simp, by simp, ?_, ?_⟩
  · rw [Dev.raise_leaf]
    exact Leaf.recorded_inHandler _ r _
  · rw [Dev.leafSite_of_stays hst rfl, hst.get _ _ _ rfl]
    rfl

/-- A residue mismatch of the integer ALU enters the RNMI handler, and its instruction does not retire. -/
theorem aluMismatch_enters (i : LeafInsn) (hp : s.dev.powered = true) (hr : s.dev.leafRuns n = true)
    (hi : (s.dev.leaf n).interrupt = none) (hu : usesAlu i.op = true) (hnmie : ((s.dev.leaf n).csrRaw 0x744).getLsbD 3 = true) :
    ∃ (d : Dev) (l : Leaf), exec (.leafInstruction n i .alu) s = .next (s.withDev (d.setLeaf n l))
      ∧ (s.dev.leaf n).EntersRnmi 1 l ∧ l.pc = BitVec.ofNat 64 (s.dev.get BGH_RNMI_VEC.ADDR (s.dev.leafSite n) * 4) := by
  have hh : (s.dev.leaf n).holding = false := by
    have := hr
    simp only [Dev.leafRuns, Bool.and_eq_true, Bool.not_eq_true'] at this
    exact this.2
  obtain ⟨e, l, he, hb, hpw, henter, hpc⟩ := s.dev.machineCheck_enters n ⟨1, BitVec.ofNat 64 0, s.dev.mchkLoc n 1⟩ hnmie hh
  have heff : leafInsnEff n i .alu s.dev = e.setLeaf n l := by
    rw [← he]
    simp [leafInsnEff, hr, hi, errorCheck, hu]
  refine ⟨e, l, ?_, henter, hpc⟩
  rw [← heff]
  show Host.Outcome.next (s.on (leafInsnEff n i .alu)) = _
  rw [s.on_powered (leafInsnEff n i .alu) hp (by rw [heff]; exact hb) (by rw [heff]; exact hpw)]

/-- MNRET returns to mnepc with NMIs enabled. -/
theorem mnret_returns (hp : s.dev.powered = true) (hr : s.dev.leafRuns n = true) (hm : (s.dev.leaf n).mode = .machine)
    (hpend : (s.dev.leaf n).mchkPending = none) :
    ∃ d : Dev, exec (.mnret n) s = .next (s.withDev d) ∧ d = { s.dev with leaves := d.leaves }
      ∧ ((d.leaf n).csrRaw 0x744).getLsbD 3 = true ∧ (d.leaf n).pc = (s.dev.leaf n).csrRaw 0x741
      ∧ (d.leaf n).mode = modeOf (((s.dev.leaf n).csrRaw 0x744).bits 12 11) (((s.dev.leaf n).csrRaw 0x744).getLsbD 7)
      ∧ (d.leaf n).x = (s.dev.leaf n).x := by
  set r := (s.dev.leaf n).retire (s.dev.leaf n).pc with hrdef
  have hms : r.csrRaw 0x744 = (s.dev.leaf n).csrRaw 0x744 := Leaf.csrRaw_retire _ _ (by decide)
  have hepc : r.csrRaw 0x741 = (s.dev.leaf n).csrRaw 0x741 := Leaf.csrRaw_retire _ _ (by decide)
  set m := modeOf ((r.csrRaw 0x744).bits 12 11) ((r.csrRaw 0x744).getLsbD 7) with hmdef
  set st := if m = .machine then r.csrRaw 0x300 else (r.csrRaw 0x300).setBits 17 17 0
  set l := ((r.setCsr 0x744 ((r.csrRaw 0x744).setBits 3 3 1)).setCsr 0x300 st).goesTo m (r.csrRaw 0x741) with hl
  have hlp : l.mchkPending = none := (Leaf.retire_mchkPending _ _).trans hpend
  have heff : mnretEff n s.dev = s.dev.setLeaf n l := by
    have hd : (s.dev.setLeaf n l).deliverPending n = s.dev.setLeaf n l := by
      simp [Dev.deliverPending, hlp]
    rw [← hd]
    simp only [mnretEff, hr, hm]
    rfl
  refine ⟨_, exec_of_setLeaf (f := mnretEff n) rfl hp heff, rfl, ?_⟩
  rw [Dev.leaf_setLeaf, ← hepc, ← hms]
  refine ⟨?_, rfl, rfl, Leaf.retire_x _ _⟩
  rw [hl, Leaf.csrRaw_goesTo, Leaf.csrRaw_setCsr_other _ _ (by decide), Leaf.csrRaw_setCsr,
    Word.getLsbD_setBits _ _ _ _ _ (by decide) (by decide)]
  rfl

end Sys2Proof.Machine

namespace Sys2Proof.Machine

/-- Settles O30: each clause is the execution of one instruction, of which the leaf alone is written. -/
theorem leafInstructionsAndTraps : Obligations.LeafInstructionsAndTraps := by
  refine ⟨fun s n op rd rs1 src len bits hp hr hi => alu_retires op rd rs1 src len bits hp hr hi,
    fun s n rd off len bits hp hr hi => jal_goes rd off len bits hp hr hi, fun s n len bits hp hr hi hm hnmie => ?_,
    fun s n len bits hp hr hi hm => mret_returns len bits hp hr hi hm, fun s n i hp hr hi hu hnmie => ?_,
    fun s n hp hr hm hpend => mnret_returns hp hr hm hpend⟩
  · obtain ⟨l, he, ht⟩ := ecall_traps len bits hp hr hi hm hnmie
    refine ⟨_, he, rfl, ?_⟩
    rw [Dev.leaf_setLeaf]
    exact ⟨ht.mode, ht.mepc, ht.mcause, ht.mtval, ht.pc, ht.mie, ht.mpie, by rw [ht.mpp, hm]; rfl, ht.x,
      fun m hmn => s.dev.leaf_setLeaf_other _ hmn⟩
  · obtain ⟨d, l, he, h, hpc⟩ := aluMismatch_enters i hp hr hi hu hnmie
    refine ⟨_, he, ?_⟩
    rw [Dev.leaf_setLeaf]
    exact ⟨h.mnepc, h.mncause.trans (by decide), h.nmie, h.mnpp, h.mode, h.valid, h.code, hpc, h.x⟩

end Sys2Proof.Machine
end

section
/-!
PROOFS. Translation, protection and control registers of a leaf core (R55, R57, R58): accesses that trap before they are made, fences of
the TLBs, and misa.
-/

namespace Sys2Proof.Machine

/-! ### Changes of one leaf -/

/-- A change that one leaf's core takes alone. -/
structure Dev.ChangesLeaf (d : Dev) (n : Nat) (d' : Dev) : Prop where
  rest : d' = { d with leaves := d'.leaves }
  others : ∀ m, m ≠ n → d'.leaf m = d.leaf m

namespace Dev.ChangesLeaf

variable {d d' d'' : Dev} {n : Nat}

theorem refl (d : Dev) (n : Nat) : d.ChangesLeaf n d := ⟨rfl, fun _ _ => rfl⟩

theorem setLeaf (h : d.ChangesLeaf n d') (l : Leaf) : d.ChangesLeaf n (d'.setLeaf n l) :=
  ⟨by rw [h.rest]; rfl, fun m hm => (d'.leaf_setLeaf_other l hm).trans (h.others m hm)⟩

theorem modLeaf (h : d.ChangesLeaf n d') (f : Leaf → Leaf) : d.ChangesLeaf n (d'.modLeaf n f) := h.setLeaf _

theorem board (h : d.ChangesLeaf n d') : d'.board = d.board := by rw [h.rest]
theorem power (h : d.ChangesLeaf n d') : d'.power = d.power := by rw [h.rest]

/-- A command whose operation changes one leaf's core does so on powered dies. -/
theorem exec {c : Instr} {s : State} {f : Dev → Dev} (he : exec c s = .next (s.on f)) (hp : s.dev.powered = true)
    (hf : f s.dev = d') (h : s.dev.ChangesLeaf n d') : Machine.exec c s = .next (s.withDev d') := by
  rw [he, s.on_powered f hp (by rw [hf, h.board]) (by rw [hf, h.power]), hf]

end Dev.ChangesLeaf

/-! ### Accesses that trap in translation -/

variable {s : State} {n : Nat}

/-- An access whose mapping ends in an exception that M mode takes traps there. -/
theorem exec_leafLoadStore_trap {raw : LeafAccess} {code gpa : Nat} {va : Word} {d : Dev} (hp : s.dev.powered = true)
    (hr : s.dev.leafRuns n = true) (hi : (s.dev.leaf n).interrupt = none) (ht : (s.dev.leaf n).accessTrap raw = none)
    (h0 : 0 < raw.size) (h8 : raw.size ≤ 8) (hk : atomicKind raw.kind = false) (hm : s.dev.mapAccess n raw = (.trap code va gpa, d))
    (hd : s.dev.ChangesLeaf n d) (hmode : (d.leaf n).mode ≠ .machine) (hdeleg : ((d.leaf n).csrRaw 0x302).getLsbD code = false) :
    ∃ d' : Dev, exec (.leafLoadStore n raw .none) s = .next (s.withDev d') ∧ s.dev.ChangesLeaf n d'
      ∧ (d.leaf n).TrapsToM code va (d'.leaf n) := by
  obtain ⟨l, hl, htrap⟩ := d.exception_toM n code va gpa (virtual ((s.dev.leaf n).accessMode raw.kind raw.hv))
    (by rw [if_neg hmode]; exact hdeleg)
  refine ⟨_, (hd.setLeaf l).exec (f := leafAccessEff n raw fun _ d => d) rfl hp ?_, hd.setLeaf l, by rwa [Dev.leaf_setLeaf]⟩
  have hsize : ¬ (raw.size = 0 ∨ 8 < raw.size) := by omega
  simp [leafAccessEff, hsize, hr, hi, ht, Dev.accessGo, Dev.admitAccess, hk, hm, hl]

/-- A translation register that is zero has no stage in force. -/
theorem zero_bits_mode : (0 : Word).bits 63 60 = 0 := rfl

/-- Where neither stage is in force, a page's address is the physical one. -/
theorem mapPage_off (d : Dev) (m : Mode) (kind : AccKind) (hx : Bool) (va : Word) (h1 : ((d.leaf n).world m).first.bits 63 60 = 0)
    (h2 : ((d.leaf n).world m).second.bits 63 60 = 0) (h48 : va.toNat < 2 ^ 48) :
    d.mapPage n m kind hx va none = (.ok (va.toNat, .pma), d) := by
  unfold Dev.mapPage
  dsimp only
  rw [if_pos (by rw [h1, h2]; rfl), if_pos h48]

/-- In M mode without MPRV the physical address is the virtual one. -/
theorem mapAccess_bare (d : Dev) (raw : LeafAccess) (hk : raw.kind ≠ .walk) (hv : raw.hv = false)
    (hm : (d.leaf n).mode = .machine) (hprv : ((d.leaf n).csrRaw 0x300).getLsbD 17 = false)
    (hpage : raw.va.toNat % 4096 + raw.size ≤ 4096) (h48 : raw.va.toNat < 2 ^ 48)
    (hpmp : (d.leaf n).pmpPermits .machine (pmpNeed raw.kind) raw.va.toNat raw.size = true) :
    d.mapAccess n raw = (.ok { raw with addr := raw.va.toNat, addr2 := none, pbmt := .pma }, d) := by
  have hmode : (d.leaf n).accessMode raw.kind raw.hv = .machine := by
    unfold Leaf.accessMode
    dsimp only
    rw [hv, hm, hprv]
    simp
  have hpg : d.mapPage n .machine raw.kind raw.hx raw.va none = (.ok (raw.va.toNat, .pma), d) :=
    mapPage_off d _ _ _ _ zero_bits_mode zero_bits_mode h48
  have hhere : min raw.size (4096 - raw.va.toNat % 4096) = raw.size := by omega
  simp [Dev.mapAccess, hk, hmode, hpg, hhere, hpmp]

/-- A page whose address is not canonical for the tables in force, and that no TLB entry holds, takes a page fault; the leaf counts. -/
theorem mapPage_not_canonical (d : Dev) (kind : AccKind) (hx : Bool) (va : Word) (m : Mode) (htlb : (d.leaf n).tlb = [])
    (hsv : 8 ≤ ((d.leaf n).world m).first.bits 63 60)
    (hc : canonical (svLevels (((d.leaf n).world m).first.bits 63 60)) va = false) :
    ∃ d', d.mapPage n m kind hx va none = (.fail (.page false), d') ∧ d.ChangesLeaf n d' ∧ (d.leaf n).Counts (d'.leaf n) := by
  set w := (d.leaf n).world m with hw
  have hb : w.first.bits 63 60 ≠ 0 := by omega
  have htr (d' : Dev) : d'.svTranslate n w kind hx va = .fail (.page false) := by
    simp [Dev.svTranslate, hb, hc]
  refine ⟨((d.modLeaf n fun l => { l with tlb := l.tlb.filter fun e => !e.hits w kind va }).modLeaf n
    fun l => l.countEvent (if kind == .fetch then 0x30 else 0x31)).modLeaf n fun l => l.countEvent 0x32, ?_,
    (((Dev.ChangesLeaf.refl d n).modLeaf _).modLeaf _).modLeaf _, ?_⟩
  · simp [Dev.mapPage, ← hw, hb, htlb, htr]
  · rw [Dev.leaf_modLeaf, Dev.leaf_modLeaf, Dev.leaf_modLeaf]
    have hf : ({ d.leaf n with tlb := (d.leaf n).tlb.filter fun e => !e.hits w kind va } : Leaf) = d.leaf n := by
      rw [htlb, List.filter_nil, ← htlb]
    rw [hf]
    exact (Leaf.Counts.countEvent _ _ _).trans (Leaf.Counts.countEvent _ _ _)

/-- What a load of a non-canonical address in S mode is mapped to. -/
theorem mapAccess_not_canonical (d : Dev) (raw : LeafAccess) (hk : raw.kind = .load) (hv : raw.hv = false)
    (hm : (d.leaf n).mode = .super) (htlb : (d.leaf n).tlb = []) (hsv : 8 ≤ ((d.leaf n).csrRaw 0x180).bits 63 60)
    (hc : canonical (svLevels (((d.leaf n).csrRaw 0x180).bits 63 60)) raw.va = false) :
    ∃ d', d.mapAccess n raw = (.trap 13 raw.va 0, d') ∧ d.ChangesLeaf n d' ∧ (d.leaf n).Counts (d'.leaf n) := by
  have hmode : (d.leaf n).accessMode .load false = .super := by
    simp [Leaf.accessMode, hm]
  obtain ⟨d', hpg, hd, hl⟩ := mapPage_not_canonical (n := n) d .load raw.hx raw.va .super htlb hsv hc
  refine ⟨d', ?_, hd, hl⟩
  simp only [Dev.mapAccess, hk, hv, hmode, hpg, Dev.mapFailed]
  rfl

/-- The PMP permits nothing below M mode where no entry is on. -/
theorem pmpPermits_none (l : Leaf) (m : Mode) (need a size : Nat) (hm : m ≠ .machine) (h : ∀ i, i < 64 → l.pmpRange i = none) :
    l.pmpPermits m need a size = false := by
  unfold Leaf.pmpPermits
  split
  · simpa using hm
  · rename_i hsome
    obtain ⟨i, hi, hrange⟩ := List.exists_of_findSome?_eq_some hsome
    rw [h i (List.mem_range.1 hi)] at hrange
    cases hrange

/-- What a store in U mode that no PMP entry covers is mapped to. -/
theorem mapAccess_not_permitted (d : Dev) (raw : LeafAccess) (hk : raw.kind = .store) (hv : raw.hv = false)
    (hm : (d.leaf n).mode = .user) (hbare : ((d.leaf n).csrRaw 0x180).bits 63 60 = 0) (h48 : raw.va.toNat < 2 ^ 48)
    (hpmp : ∀ i, i < 64 → (d.leaf n).pmpRange i = none) : d.mapAccess n raw = (.trap 7 raw.va 0, d) := by
  have hmode : (d.leaf n).accessMode .store false = .user := by
    simp [Leaf.accessMode, hm]
  have hpg : d.mapPage n .user .store raw.hx raw.va none = (.ok (raw.va.toNat, .pma), d) :=
    mapPage_off d _ _ _ _ hbare zero_bits_mode h48
  simp only [Dev.mapAccess, hk, hv, hmode, hpg, pmpPermits_none _ .user _ _ _ (by decide) hpmp]
  rfl

/-- A leaf entry with A clear, or for an access that writes with D clear, ends the walk in a page fault. -/
theorem svCheck_aged (bits : Nat) (kind : AccKind) (hx mxr sum user : Bool)
    (h : bit bits 6 = false ∨ (needsWrite kind = true ∧ bit bits 7 = false)) :
    ∃ a, svCheck bits kind hx mxr sum user = some (.page a) := by
  have haged : svAged bits kind = false := by
    obtain hA | ⟨hw, hD⟩ := h
    · simp [svAged, hA]
    · simp [svAged, hw, hD]
  by_cases ha : svAllows bits kind hx mxr sum user
  · exact ⟨true, by simp [svCheck, ha, haged]⟩
  · exact ⟨false, by simp [svCheck, ha]⟩

/-! ### Fences and misa -/

/-- SFENCE.VMA in S mode empties the TLBs of the entries of the modes that are not virtual. -/
theorem sfence_flushes (len : Nat) (bits : Word) (hp : s.dev.powered = true) (hr : s.dev.leafRuns n = true)
    (hi : (s.dev.leaf n).interrupt = none) (hm : (s.dev.leaf n).mode = .super)
    (htvm : ((s.dev.leaf n).csrRaw 0x300).getLsbD 20 = false) :
    exec (.leafInstruction n ⟨.sfence, len, bits⟩ .none) s = .next (s.withDev
      (s.dev.setLeaf n (((s.dev.leaf n).flushTlb false).retire ((s.dev.leaf n).pc + BitVec.ofNat 64 len)))) :=
  exec_leafInstruction hp hr hi (by simp only [Dev.execOp, Leaf.sfenceTrap, hm, htvm]; rfl)

/-- Under TVM it is an illegal instruction. -/
theorem sfence_traps (len : Nat) (bits : Word) (hp : s.dev.powered = true) (hr : s.dev.leafRuns n = true)
    (hi : (s.dev.leaf n).interrupt = none) (hm : (s.dev.leaf n).mode = .super)
    (htvm : ((s.dev.leaf n).csrRaw 0x300).getLsbD 20 = true) (hdeleg : ((s.dev.leaf n).csrRaw 0x302).getLsbD 2 = false) :
    ∃ l, exec (.leafInstruction n ⟨.sfence, len, bits⟩ .none) s = .next (s.withDev (s.dev.setLeaf n l))
      ∧ (s.dev.leaf n).TrapsToM 2 bits l := by
  obtain ⟨l, hl, ht⟩ := s.dev.exception_toM n 2 bits 0 false (by rw [if_neg (by rw [hm]; decide)]; exact hdeleg)
  exact ⟨l, exec_leafInstruction hp hr hi (by simp only [Dev.execOp, Leaf.sfenceTrap, hm, htvm]; exact hl), ht⟩

/-- A write of misa is ignored. -/
theorem csrLegal_misa (old new : Word) : csrLegal 0x301 old new = old := by
  have hmask : csrLegal 0x301 old new = (old &&& ~~~(0 : Word)) ||| (new &&& 0) := rfl
  rw [hmask]
  simp only [BitVec.ofNat_eq_ofNat, BitVec.not_zero, BitVec.and_allOnes, BitVec.and_zero, BitVec.or_zero]

theorem writeCsr_misa (d : Dev) (v : Word) :
    d.writeCsr n 0x301 v = d.setLeaf n ((d.leaf n).setCsr 0x301 ((d.leaf n).csrRaw 0x301)) := by
  have h : d.writeCsr n 0x301 v = d.setLeaf n ((d.leaf n).setCsr 0x301 (csrLegal 0x301 ((d.leaf n).csrRaw 0x301) v)) := rfl
  rw [h, csrLegal_misa]

/-- CSRRW of misa in M mode reads it and leaves it as it was. -/
theorem csrrw_misa (rd rs len : Nat) (bits : Word) (hp : s.dev.powered = true) (hr : s.dev.leafRuns n = true)
    (hi : (s.dev.leaf n).interrupt = none) (hm : (s.dev.leaf n).mode = .machine) :
    ∃ d : Dev, exec (.leafInstruction n ⟨.csr .rw rd (.reg rs) 0x301, len, bits⟩ .none) s = .next (s.withDev d)
      ∧ s.dev.ChangesLeaf n d ∧ d.leaf n = (((s.dev.leaf n).setX rd ((s.dev.leaf n).csrRaw 0x301)).retire
        ((s.dev.leaf n).pc + BitVec.ofNat 64 len)).setCsr 0x301 ((s.dev.leaf n).csrRaw 0x301) := by
  set l := ((s.dev.leaf n).setX rd ((s.dev.leaf n).csrRaw 0x301)).retire ((s.dev.leaf n).pc + BitVec.ofNat 64 len) with hl
  have hkeep : l.csrRaw 0x301 = (s.dev.leaf n).csrRaw 0x301 := by
    rw [hl, Leaf.csrRaw_retire _ _ (by decide), Leaf.csrRaw_setX]
  have htrap : (s.dev.leaf n).csrTrap 0x301 true = none := by
    simp [Leaf.csrTrap, hm, csrExists, levelTrap, Leaf.fileTrap, csrAlias, virtual]
  have halias : csrAlias (s.dev.leaf n).mode 0x301 = 0x301 := by rw [hm]; rfl
  have hop : s.dev.execOp n ⟨.csr .rw rd (.reg rs) 0x301, len, bits⟩ =
      (s.dev.setLeaf n l).setLeaf n (l.setCsr 0x301 ((s.dev.leaf n).csrRaw 0x301)) := by
    have hw := writeCsr_misa (n := n) (s.dev.setLeaf n l) ((s.dev.leaf n).getX rs)
    rw [Dev.leaf_setLeaf, hkeep] at hw
    rw [← hw]
    simp only [Dev.execOp, htrap, halias]
    rfl
  have hd := ((Dev.ChangesLeaf.refl s.dev n).setLeaf l).setLeaf (l.setCsr 0x301 ((s.dev.leaf n).csrRaw 0x301))
  refine ⟨_, hd.exec (f := leafInsnEff n ⟨.csr .rw rd (.reg rs) 0x301, len, bits⟩ .none) rfl hp ?_, hd, by rw [Dev.leaf_setLeaf]⟩
  simp [leafInsnEff, hr, hi, errorCheck, hop]

end Sys2Proof.Machine

namespace Sys2Proof.Machine

/-- Settles O31: translation and protection end in the traps that the theorems above give; fences and misa follow. -/
theorem leafTranslationAndProtection : Obligations.LeafTranslationAndProtection := by
  refine ⟨fun s n raw hk hv hm hprv hpage h48 hpmp => mapAccess_bare s.dev raw hk hv hm hprv hpage h48 hpmp,
    fun s n raw hp hr hi ht hk hv h0 h8 hm htlb hdeleg hsv hc => ?_,
    fun s n raw hp hr hi ht hk hv h0 h8 hm hbare h48 hpmp hdeleg => ?_, svCheck_aged,
    fun s n len bits hp hr hi hm htvm => ?_, fun s n len bits hp hr hi hm htvm hdeleg => ?_,
    fun s n rd rs len bits hp hr hi hm hmisa => ?_⟩
  · obtain ⟨d, hmap, hd, hl⟩ := mapAccess_not_canonical (n := n) s.dev raw hk hv hm htlb hsv hc
    have hmode : (d.leaf n).mode = .super := by rw [hl.rest, hm]
    obtain ⟨d', he, hd', h⟩ := exec_leafLoadStore_trap hp hr hi ht h0 h8 (by rw [hk]; rfl) hmap hd (by rw [hmode]; decide)
      (by rw [hl.csr _ (by decide), hdeleg])
    exact ⟨d', he, hd'.rest, h.mode, h.mcause, h.mtval, h.mepc.trans (by rw [hl.rest]), by rw [h.mpp, hmode]; rfl,
      h.x.trans (by rw [hl.rest]), h.misses.trans (by rw [hl.rest]), hd'.others⟩
  · obtain ⟨d', he, hd', h⟩ := exec_leafLoadStore_trap hp hr hi ht h0 h8 (by rw [hk]; rfl)
      (mapAccess_not_permitted s.dev raw hk hv hm hbare h48 hpmp) (.refl _ _) (by rw [hm]; decide) hdeleg
    exact ⟨d', he, hd'.rest, h.mode, h.mcause, h.mtval, h.mepc, by rw [h.mpp, hm]; rfl, h.x, h.misses, hd'.others⟩
  · refine ⟨_, sfence_flushes len bits hp hr hi hm htvm, rfl, ?_⟩
    rw [Dev.leaf_setLeaf]
    refine ⟨fun e => ?_, Leaf.retire_x _ _, Leaf.retire_pc _ _, (Leaf.retire_mode _ _).trans hm,
      fun m hmn => s.dev.leaf_setLeaf_other _ hmn⟩
    simp [Leaf.flushTlb]
  · obtain ⟨l, he, h⟩ := sfence_traps len bits hp hr hi hm htvm hdeleg
    refine ⟨_, he, rfl, ?_⟩
    rw [Dev.leaf_setLeaf]
    exact ⟨h.mode, h.mcause, h.mtval, h.mepc, h.tlb, h.x⟩
  · obtain ⟨d, he, hd, hl⟩ := csrrw_misa rd rs len bits hp hr hi hm
    have hx (r : Nat) : (d.leaf n).getX r = ((s.dev.leaf n).setX rd ((s.dev.leaf n).csrRaw 0x301)).getX r := by
      rw [hl]
      exact Leaf.getX_retire _ _ r
    refine ⟨d, he, hd.rest, fun h0 => ?_, fun r hrd => ?_, ?_, ?_, hd.others⟩
    · rw [hx, Leaf.getX_setX_same _ _ h0, hmisa]
    · rw [hx, Leaf.getX_setX_other _ _ hrd]
    · rw [hl, Leaf.csrRaw_setCsr, hmisa]
    · rw [hl, Leaf.setCsr_pc, Leaf.retire_pc]

end Sys2Proof.Machine
end

section
/-!
PROOFS. Timers, interrupt files and counters of a leaf core (R64, R65, R67, R73).
-/

namespace Sys2Proof.Machine

/-! ### A pending bit of mip -/

/-- mip with one bit written. -/
def Leaf.setPending (l : Leaf) (b v : Nat) : Leaf := l.setCsr 0x344 ((l.csrRaw 0x344).setBits b b v)

theorem Leaf.setPending_same (l : Leaf) {b : Nat} (v : Nat) (hb : b < 64) :
    ((l.setPending b v).csrRaw 0x344).getLsbD b = v.testBit 0 := by
  rw [Leaf.setPending, Leaf.csrRaw_setCsr, Word.getLsbD_setBits _ _ _ _ _ (Nat.le_refl b) hb, if_pos ⟨Nat.le_refl b, Nat.le_refl b⟩,
    Nat.sub_self]

theorem Leaf.setPending_other (l : Leaf) {b i : Nat} (v : Nat) (hb : b < 64) (hi : i ≠ b) :
    ((l.setPending b v).csrRaw 0x344).getLsbD i = (l.csrRaw 0x344).getLsbD i := by
  rw [Leaf.setPending, Leaf.csrRaw_setCsr, Word.getLsbD_setBits _ _ _ _ _ (Nat.le_refl b) hb, if_neg (by omega)]

/-! ### Waking an idle leaf -/

/-- Waking an idle leaf writes its power state alone. -/
theorem Dev.wakeIdle_frame (d : Dev) (n : Nat) :
    ∃ r, d.wakeIdle n = { d with regs := r } ∧ ∀ q : Reg, q.name ≠ .BGH_LEAF_STAT → (d.wakeIdle n).reg q = d.reg q := by
  unfold Dev.wakeIdle
  dsimp only
  split
  · exact ⟨_, rfl, fun q hq => d.reg_put_name _ _ _ _ q hq⟩
  · exact ⟨d.regs, rfl, fun _ _ => rfl⟩

@[simp] theorem Dev.wakeIdle_leaf (d : Dev) (n m : Nat) : (d.wakeIdle n).leaf m = d.leaf m := by
  obtain ⟨r, h, _⟩ := d.wakeIdle_frame n
  rw [h]
  rfl

@[simp] theorem Dev.wakeIdle_power (d : Dev) (n : Nat) : (d.wakeIdle n).power = d.power := by
  obtain ⟨r, h, _⟩ := d.wakeIdle_frame n; rw [h]

@[simp] theorem Dev.wakeIdle_board (d : Dev) (n : Nat) : (d.wakeIdle n).board = d.board := by
  obtain ⟨r, h, _⟩ := d.wakeIdle_frame n; rw [h]

/-- A change of one leaf's core and of its power state. -/
structure Dev.WakesLeaf (d : Dev) (n : Nat) (l : Leaf) (d' : Dev) : Prop where
  rest : d' = { d with regs := d'.regs, leaves := d'.leaves }
  reg : ∀ q : Reg, q.name ≠ .BGH_LEAF_STAT → d'.reg q = d.reg q
  own : d'.leaf n = l
  others : ∀ m, m ≠ n → d'.leaf m = d.leaf m

theorem Dev.wakesLeaf_setLeaf (d : Dev) (n : Nat) (l : Leaf) : d.WakesLeaf n l ((d.setLeaf n l).wakeIdle n) where
  rest := by
    obtain ⟨r, h, _⟩ := (d.setLeaf n l).wakeIdle_frame n
    rw [h]
    rfl
  reg := ((d.setLeaf n l).wakeIdle_frame n).choose_spec.2
  own := by rw [Dev.wakeIdle_leaf, Dev.leaf_setLeaf]
  others m hm := by rw [Dev.wakeIdle_leaf, Dev.leaf_setLeaf_other _ _ hm]

/-! ### Timers -/

theorem timerBit_lt (c : TimerCmp) : timerBit c < 64 := by cases c <;> decide

/-- A timer that is on drives its pending bit from the comparison. -/
theorem Dev.timerPending_on (d : Dev) (n : Nat) (c : TimerCmp) (h : (d.leaf n).timerOn c = true) :
    d.WakesLeaf n ((d.leaf n).setPending (timerBit c) (if d.compare n c ≤ d.timeFor n c then 1 else 0)) (d.timerPending n c) := by
  have he : d.timerPending n c = (d.setLeaf n ((d.leaf n).setPending (timerBit c)
      (if d.compare n c ≤ d.timeFor n c then 1 else 0))).wakeIdle n := by
    simp only [Dev.timerPending, h]
    rfl
  rw [he]
  exact d.wakesLeaf_setLeaf n _

variable {s : State} {n : Nat}

/-- A command of a timer, of an interrupt or of a counter acts on powered dies as it is. -/
theorem exec_of_wakesLeaf {c : Instr} {f : Dev → Dev} {d d' : Dev} {l : Leaf} (he : exec c s = .next (s.on f))
    (hp : s.dev.powered = true) (hf : f s.dev = d') (h : d.WakesLeaf n l d') (hb : d.board = s.dev.board) (hpw : d.power = s.dev.power) :
    exec c s = .next (s.withDev d') := by
  rw [he, s.on_powered f hp (by rw [hf, h.rest, ← hb]) (by rw [hf, h.rest, ← hpw]), hf]

/-- A written comparison value sets the pending bit exactly where the die's copy of the ring count has reached it. -/
theorem mtimecmpWrite_pending (v : Word) (hp : s.dev.powered = true) (hl : s.dev.leafPresent n = true) :
    ∃ d : Dev, exec (.mtimecmpWrite n .mtimecmp v) s = .next (s.withDev d)
      ∧ d = { s.dev with regs := d.regs, leaves := d.leaves } ∧ d.reg ⟨.BGH_MTIMECMP, s.dev.leafSite n, n % 16⟩ = v
      ∧ d.leaf n = (s.dev.leaf n).setPending 7 (if v ≤ s.dev.copy (s.dev.leafSite n) then 1 else 0)
      ∧ ∀ m, m ≠ n → d.leaf m = s.dev.leaf m := by
  set d := s.dev.setReg ⟨.BGH_MTIMECMP, s.dev.leafSite n, n % 16⟩ v with hd
  have hst : s.dev.Stays (fun q => q == .SIM_SITEMAP) d := ⟨rfl, rfl, rfl, fun q hq => Dev.reg_setReg_other _ _ (by
    rintro rfl
    cases hq)⟩
  have hsite : d.leafSite n = s.dev.leafSite n := Dev.leafSite_of_stays hst rfl n
  have hcmp : d.compare n .mtimecmp = v := by
    rw [Dev.compare, hsite, hd, Dev.reg_setReg_same]
  have htime : d.timeFor n .mtimecmp = s.dev.copy (s.dev.leafSite n) := by
    show d.copy (d.leafSite n) = _
    rw [hsite]
    rfl
  have h := d.timerPending_on n .mtimecmp rfl
  rw [hcmp, htime] at h
  refine ⟨_, exec_of_wakesLeaf (f := timerWriteEff n .mtimecmp v) rfl hp (by simp [timerWriteEff, hl, hd]) h rfl rfl, ?_, ?_,
    h.own, h.others⟩
  · rw [h.rest]
    rfl
  · rw [h.reg _ (by simp), hd, Dev.reg_setReg_same]

/-- A comparison value that is reached sets the pending bit. -/
theorem timerMatch_pending (c : TimerCmp) (hp : s.dev.powered = true) (hl : s.dev.leafPresent n = true)
    (hon : (s.dev.leaf n).timerOn c = true) (hc : s.dev.compare n c ≤ s.dev.timeFor n c) :
    ∃ d : Dev, exec (.timerCompareMatch n c) s = .next (s.withDev d)
      ∧ s.dev.WakesLeaf n ((s.dev.leaf n).setPending (timerBit c) 1) d := by
  have h := s.dev.timerPending_on n c hon
  rw [if_pos hc] at h
  exact ⟨_, exec_of_wakesLeaf (f := timerMatchEff n c) rfl hp (by simp [timerMatchEff, hl, hc]) h rfl rfl, h⟩

/-- A counter that overflows sets its OF bit and the pending bit 13. -/
theorem counterOverflow_pending (k : Nat) (hp : s.dev.powered = true) (hl : s.dev.leafPresent n = true) (h3 : 3 ≤ k) (h31 : k ≤ 31)
    (hof : ((s.dev.leaf n).csrRaw (0x320 + k)).getLsbD 63 = false) :
    ∃ d : Dev, exec (.localCounterOverflow n k) s = .next (s.withDev d) ∧ s.dev.WakesLeaf n
      (((s.dev.leaf n).setCsr (0x320 + k) (((s.dev.leaf n).csrRaw (0x320 + k)).setBits 63 63 1)).setPending 13 1) d := by
  have hother : ((s.dev.leaf n).setCsr (0x320 + k) (((s.dev.leaf n).csrRaw (0x320 + k)).setBits 63 63 1)).csrRaw 0x344 =
      (s.dev.leaf n).csrRaw 0x344 := Leaf.csrRaw_setCsr_other _ _ (by omega)
  have h := s.dev.wakesLeaf_setLeaf n
    (((s.dev.leaf n).setCsr (0x320 + k) (((s.dev.leaf n).csrRaw (0x320 + k)).setBits 63 63 1)).setPending 13 1)
  refine ⟨_, exec_of_wakesLeaf (f := counterOverflowEff n k) rfl hp ?_ h rfl rfl, h⟩
  have hk : ¬ k < 3 ∧ ¬ 31 < k := ⟨by omega, by omega⟩
  rw [Leaf.setPending, hother]
  unfold counterOverflowEff
  dsimp only
  rw [if_neg (by simp [hl, hk]), if_neg (by rw [hof]; decide)]

/-! ### Interrupt files -/

/-- An interrupt file reads what was written to it. -/
theorem Leaf.file_setFile_same (l : Leaf) (f : Nat) (x : ImsicFile) : (l.setFile f x).file f = x := by
  simp [Leaf.file, Leaf.setFile]

theorem Leaf.file_setFile_other (l : Leaf) {f g : Nat} (x : ImsicFile) (h : g ≠ f) : (l.setFile f x).file g = l.file g :=
  KMap.find_set_other _ _ _ _ _ h

/-- A leaf with one more identity pending in a file. -/
def Leaf.withPending (l : Leaf) (f i : Nat) : Leaf := l.setFile f { l.file f with eip := insertNat i (l.file f).eip }

/-- An MSI to a file of a leaf that is not switched off makes its identity pending. -/
theorem Dev.imsicSet_awake (d : Dev) (n f i : Nat) (h0 : 0 < i) (hi : i < 2048)
    (hst : d.get BGH_LEAF_STAT.PSTATE (d.leafSite n) (n % 16) ≠ 2) :
    d.WakesLeaf n ((d.leaf n).withPending f i) (d.imsicSet n f i) := by
  have he : d.imsicSet n f i = (d.setLeaf n ((d.leaf n).withPending f i)).wakeIdle n := by
    have hid : ¬ (i = 0 ∨ 2047 < i) := by omega
    have hst' : (d.setLeaf n ((d.leaf n).withPending f i)).get BGH_LEAF_STAT.PSTATE
        ((d.setLeaf n ((d.leaf n).withPending f i)).leafSite n) (n % 16) ≠ 2 := hst
    simp only [Dev.imsicSet, Bool.or_eq_true, decide_eq_true_eq, hid, if_false]
    exact if_neg hst'
  rw [he]
  exact d.wakesLeaf_setLeaf n _

/-- An MSI makes its identity pending in the file that it names. -/
theorem msiWrite_pending (f i : Nat) (hp : s.dev.powered = true) (hb : s.dev.powerBusy = false) (hl : s.dev.leafPresent n = true)
    (hf : f < 9) (h0 : 0 < i) (hi : i < 2048) (hiso : s.dev.isolated (s.dev.leafSite n) = false)
    (hg : (s.dev.gate (s.dev.leafSite n)).closed = false) (hr : s.dev.reaches (.msi n f i))
    (hst : s.dev.get BGH_LEAF_STAT.PSTATE (s.dev.leafSite n) (n % 16) ≠ 2) :
    ∃ d : Dev, exec (.msiWrite n f i) s = .next (s.withDev d)
      ∧ (s.dev.take (.msi n f i)).WakesLeaf n ((s.dev.leaf n).withPending f i) d := by
  have h := (s.dev.take (.msi n f i)).imsicSet_awake n f i h0 hi hst
  have heff : msiWriteEff n f i s.dev = (s.dev.take (.msi n f i)).imsicSet n f i := by
    have hf' : ¬ 9 ≤ f := by omega
    simp [msiWriteEff, hl, hf', hiso, hg]
  have hidle : ((s.dev.take (.msi n f i)).imsicSet n f i).powerBusy = false :=
    (Dev.powerBusy_of (by rw [h.rest]; rfl)).trans hb
  refine ⟨_, exec_of_wakesLeaf (f := arrive (.msi n f i) (msiGoEff n f i)) rfl hp ?_ h rfl rfl, h⟩
  rw [arrive_of_reaches hr, msiGoEff, heff, Dev.powerGo_idle _ hidle]

/-- An MSI for a leaf that does not exist raises event source 5. -/
theorem msiWrite_absent (f i : Nat) (hp : s.dev.powered = true) (hb : s.dev.powerBusy = false) (hl : s.dev.leafPresent n = false)
    (hr : s.dev.reaches (.msi n f i)) :
    exec (.msiWrite n f i) s = .next (s.withDev ((s.dev.take (.msi n f i)).send (.event 5 1 {}))) := by
  have heff : msiWriteEff n f i s.dev = (s.dev.take (.msi n f i)).send (.event 5 1 {}) := by
    have hraise := (s.dev.take (.msi n f i)).raise_near 5 {} rfl rfl rfl
    rw [← hraise]
    simp [msiWriteEff, hl]
  have hidle : ((s.dev.take (.msi n f i)).send (.event 5 1 {})).powerBusy = false := (Dev.powerBusy_of rfl).trans hb
  have hgo : arrive (.msi n f i) (msiGoEff n f i) s.dev = (s.dev.take (.msi n f i)).send (.event 5 1 {}) := by
    rw [arrive_of_reaches hr, msiGoEff, heff, Dev.powerGo_idle _ hidle]
  show Host.Outcome.next (s.on (arrive (.msi n f i) (msiGoEff n f i))) = _
  rw [s.on_powered _ hp (by rw [hgo]; rfl) (by rw [hgo]; rfl), hgo]

end Sys2Proof.Machine

namespace Sys2Proof.Machine

/-- Settles O32: timers, interrupt files and counters each write one leaf's core, and may wake it. -/
theorem timersAndInterruptFiles : Obligations.TimersAndInterruptFiles := by
  refine ⟨fun s n v hp hl => ?_, fun s n c hp hl hon hc => ?_, fun s h f i hp hb hl hf h0 hi hiso hg hr hst => ?_,
    fun s h f i hp hb hl hr => msiWrite_absent f i hp hb hl hr, fun s n k hp hl h3 h31 hof => ?_⟩
  · obtain ⟨d, he, hd, hreg, hown, hothers⟩ := mtimecmpWrite_pending v hp hl
    refine ⟨d, he, hd, hreg, ?_, fun i hi => ?_, by rw [hown]; rfl, hothers⟩
    · rw [hown, Leaf.setPending_same _ _ (by decide)]
      by_cases hv : v ≤ s.dev.copy (s.dev.leafSite n) <;> simp [hv]
    · rw [hown, Leaf.setPending_other _ _ (by decide) hi]
  · obtain ⟨d, he, h⟩ := timerMatch_pending c hp hl hon hc
    refine ⟨d, he, h.rest, ?_, fun i hi => ?_, by rw [h.own]; rfl, by rw [h.own]; rfl, h.others⟩
    · rw [h.own, Leaf.setPending_same _ _ (timerBit_lt c)]
      rfl
    · rw [h.own, Leaf.setPending_other _ _ (timerBit_lt c) hi]
  · obtain ⟨d, he, hd⟩ := msiWrite_pending f i hp hb hl hf h0 hi hiso hg hr hst
    have hfile : (d.leaf h).file f = { (s.dev.leaf h).file f with eip := insertNat i ((s.dev.leaf h).file f).eip } := by
      rw [hd.own, Leaf.withPending, Leaf.file_setFile_same]
    refine ⟨d, he, ?_, fun j hj => ?_, fun g hg => ?_, hd.others, hd.rest⟩
    · rw [hfile]
      exact (mem_insertNat _ _ _).2 (.inl rfl)
    · rw [hfile]
      exact (mem_insertNat _ _ _).trans (or_iff_right hj)
    · rw [hd.own, Leaf.withPending, Leaf.file_setFile_other _ _ hg]
  · obtain ⟨d, he, h⟩ := counterOverflow_pending k hp hl h3 h31 hof
    refine ⟨d, he, h.rest, ?_, ?_, by rw [h.own]; rfl, h.others⟩
    · rw [h.own, Leaf.setPending, Leaf.csrRaw_setCsr_other _ _ (by omega), Leaf.csrRaw_setCsr,
        Word.getLsbD_setBits _ _ _ _ _ (by decide) (by decide)]
      rfl
    · rw [h.own, Leaf.setPending_same _ _ (by decide)]
      rfl

end Sys2Proof.Machine
end

section
/-!
PROOFS. The refutation of O28, which speaks of every State: where the table of leaves lists a leaf twice, a load changes the pc of that
other leaf. No run reaches such a table.
-/

namespace Sys2Proof.Machine.TwiceListed

/-- A bough that holds line 0, and in whose twig 0 the L2 set of that line is full of lines that nothing else holds. -/
def fullSet : Bough :=
  { lines := (0, { st := .shared }) ::
      (List.range 16).map fun i => (2048 * (i + 1), { st := .shared, hasData := false, twigs := [0] }) }

/-- A package whose table holds leaf 1 twice: its core, and behind it a stale one with a reservation. -/
def twice : Dev := { Tests.b0 with leaves := [(1, {}), (1, { pc := 64, resv := some 2048 })], boughs := [(0, fullSet)] }

def start : State := Tests.W twice

/-- A load of line 0. -/
def ld : LeafAccess := { kind := .load, va := 0, size := 8 }

/-- The pc of a leaf after a command. -/
def pcAfter (m : Nat) : Host.Outcome State Fault Refusal → Option Word
  | .next s => some (s.dev.leaf m).pc
  | _ => none

theorem load_admitted : (start.dev.admitAccess 0 ld).1 = some ld := by decide +kernel

/-- The load takes line 0 into the twig, whose full set drops line 2048; the reservations on that line are cleared entry by entry, and so
the entry behind, pc and all, is written over the one that is read. -/
theorem load_moves_leaf1 : pcAfter 1 (exec (.leafLoadStore 0 ld .none) start) = some 64 := by decide +kernel

end Sys2Proof.Machine.TwiceListed

namespace Sys2Proof.Machine

/-- Refutes O28: its second clause has a load leave every other leaf's pc, but where `Dev.leaves` lists leaf 1 twice, a load of leaf 0 that
evicts the line of a stale reservation moves the pc of leaf 1 from 0 to 64. -/
theorem not_leafAccessesRetireOrMiss : ¬ Obligations.LeafAccessesRetireOrMiss := by
  rintro ⟨-, hload, -⟩
  obtain ⟨d, he, -, -, -, -, -, -, -, -, hothers, -⟩ := hload TwiceListed.start 0 TwiceListed.ld TwiceListed.ld (by decide +kernel)
    (by decide +kernel) (by decide +kernel) (by decide +kernel) TwiceListed.load_admitted (by decide +kernel) (by decide +kernel)
    (by decide +kernel) (by decide +kernel) (by decide +kernel) (by decide +kernel) (by decide +kernel) (by decide +kernel)
    (by decide +kernel) (by decide +kernel) (by decide +kernel)
  have hmoved := TwiceListed.load_moves_leaf1
  rw [he] at hmoved
  have hkept : (d.leaf 1).pc = 0 := (hothers 1 (by decide)).2
  exact absurd (Option.some.inj hmoved) (by show (d.leaf 1).pc ≠ 64; rw [hkept]; decide)

end Sys2Proof.Machine
end

section
/-!
PROOFS. Clocks and ageing (R358, R359, R375, R376).
-/

namespace Sys2Proof.Machine

/-! ### Bits of a mask -/

/-- Clearing one bit of a mask keeps every other. -/
theorem bit_setBit_false_other (m : Nat) {b c : Nat} (h : c ≠ b) : bit (setBit m b false) c = bit m c := by
  cases hb : m.testBit b with
  | false => simp [setBit, hb]
  | true =>
    obtain ⟨k, hk⟩ : ∃ k, m / 2 ^ b = 2 * k + 1 := ⟨m / 2 ^ b / 2, by
      have hodd : m / 2 ^ b % 2 = 1 := by simpa [Nat.testBit_eq_decide_div_mod_eq] using hb
      omega⟩
    have hr : m % 2 ^ b < 2 ^ b := Nat.mod_lt _ (by positivity)
    have hm : m = 2 ^ b * (2 * k + 1) + m % 2 ^ b := by rw [← hk, Nat.div_add_mod]
    have hset : setBit m b false = 2 ^ b * (2 * k) + m % 2 ^ b := by
      have hsub : setBit m b false = m - 2 ^ b := by simp [setBit, hb, Nat.one_shiftLeft]
      rw [Nat.mul_add, Nat.mul_one] at hm
      rw [hsub]
      exact Nat.sub_eq_of_eq_add (hm.trans (Nat.add_right_comm _ _ _))
    rw [hset, bit, bit, Nat.testBit_two_pow_mul_add _ hr]
    conv_rhs => rw [hm, Nat.testBit_two_pow_mul_add _ hr]
    split
    · rfl
    · obtain ⟨j, hj⟩ : ∃ j, c - b = j + 1 := ⟨c - b - 1, by omega⟩
      have hhalf : 2 * k / 2 = (2 * k + 1) / 2 := by omega
      rw [hj, Nat.testBit_succ, Nat.testBit_succ, hhalf]

/-- A field that keeps a mask of its width with one bit cleared: that bit is clear, and every other as it was. -/
theorem bit_mod_setBit_false (m w : Nat) {b c : Nat} (hc : c < w) :
    bit (setBit m b false % 2 ^ w) c = if c = b then false else bit m c := by
  rw [bit, Nat.testBit_mod_two_pow, decide_eq_true hc, Bool.true_and]
  split
  · rename_i h
    rw [h]
    exact bit_setBit_false m b
  · rename_i h
    exact bit_setBit_false_other m h

/-! ### The move to the PLL clock (R358) -/

variable {s : State}

/-- A command whose operation rewrites registers alone does so on powered dies. -/
theorem exec_of_rewrites {c : Instr} {f : Dev → Dev} {fs : List Fld} {d : Dev} (he : exec c s = .next (s.on f))
    (hp : s.dev.powered = true) (hf : f s.dev = d) (h : s.dev.Rewrites fs d) : exec c s = .next (s.withDev d) := by
  rw [he, s.on_powered f hp (by rw [hf, h.rest]) (by rw [hf, h.rest]), hf]

/-- A request for the PLL clock marks its leaves where the PLL has lock. -/
theorem clockRequest_locked (i mask : Nat) (hp : s.dev.powered = true) (ha : s.dev.siteActive i = true) (hm : mask % 2 ^ 16 ≠ 0)
    (hl : s.dev.flag BPW_STAT.PLL_LOCK i = true) : exec (.clockSwitchRequest i mask) s =
      .next (s.withDev (s.dev.put BPW_CLK_SW.SW (s.dev.get BPW_CLK_SW.SW i ||| mask % 2 ^ 16) i)) :=
  exec_of_rewrites (f := clockRequestEff i mask) rfl hp (by
    have hm' : ¬ mask % 65536 = 0 := hm
    simp [clockRequestEff, ha, hm', hl]) (.put _ _ _ _ _)

/-- Without lock it is refused. -/
theorem clockRequest_refused (i mask : Nat) (hp : s.dev.powered = true) (ha : s.dev.siteActive i = true) (hm : mask % 2 ^ 16 ≠ 0)
    (hl : s.dev.flag BPW_STAT.PLL_LOCK i = false) :
    exec (.clockSwitchRequest i mask) s = .next (s.withDev (s.dev.put BPW_STAT.CLK_REFUSED 1 i)) :=
  exec_of_rewrites (f := clockRequestEff i mask) rfl hp (by
    have hm' : ¬ mask % 65536 = 0 := hm
    simp [clockRequestEff, ha, hm', hl]) (.put _ _ _ _ _)

/-- What a request for the PLL clock leaves. -/
theorem clockRequest_spec (i mask : Nat) (hp : s.dev.powered = true) (ha : s.dev.siteActive i = true) (hm : mask % 2 ^ 16 ≠ 0) :
    ∃ d : Dev, exec (.clockSwitchRequest i mask) s = .next (s.withDev d) ∧ d = { s.dev with regs := d.regs }
      ∧ (s.dev.flag BPW_STAT.PLL_LOCK i = true → d.get BPW_CLK_SW.SW i = s.dev.get BPW_CLK_SW.SW i ||| mask % 2 ^ 16)
      ∧ (s.dev.flag BPW_STAT.PLL_LOCK i = false → d.flag BPW_STAT.CLK_REFUSED i = true
          ∧ d.get BPW_CLK_SW.SW i = s.dev.get BPW_CLK_SW.SW i) := by
  cases hl : s.dev.flag BPW_STAT.PLL_LOCK i with
  | true =>
    refine ⟨_, clockRequest_locked i mask hp ha hm hl, rfl, fun _ => ?_, nofun⟩
    have hsw : s.dev.get BPW_CLK_SW.SW i < 2 ^ 16 := Word.bits_lt _ _ _
    rw [Dev.get_put_same _ _ _ _ _ (by decide) (by decide)]
    exact Nat.mod_eq_of_lt (Nat.or_lt_two_pow hsw (Nat.mod_lt _ (by decide)))
  | false =>
    refine ⟨_, clockRequest_refused i mask hp ha hm hl, rfl, nofun, fun _ => ⟨?_, ?_⟩⟩
    · rw [Dev.flag_put_same _ _ _ _ _ (by decide) (by decide)]
      rfl
    · exact Dev.get_put_name _ _ _ _ _ _ _ _ (by decide)

/-- The move of a leaf to its PLL clock: its bit, its clock and its state, in the registers of its site. -/
def Dev.movedToPll (d : Dev) (i j : Nat) : Dev :=
  ((d.put BPW_CLK_SW.SW (setBit (d.get BPW_CLK_SW.SW i) j false) i).put BGH_LEAF_STAT.ON_FIC 0 i j).put BGH_LEAF_STAT.PSTATE 0 i j

theorem Dev.movedToPll_rewrites (d : Dev) (i j : Nat) :
    d.Rewrites [BPW_CLK_SW.SW, BGH_LEAF_STAT.ON_FIC, BGH_LEAF_STAT.PSTATE] (d.movedToPll i j) :=
  ((Dev.Rewrites.put d _ _ i 0).trans (.put _ _ _ _ _)).trans (.put _ _ _ _ _)

theorem Dev.get_sw_movedToPll (d : Dev) (i j : Nat) :
    (d.movedToPll i j).get BPW_CLK_SW.SW i = setBit (d.get BPW_CLK_SW.SW i) j false % 2 ^ 16 := by
  rw [Dev.movedToPll, Dev.get_put_name _ _ _ _ _ _ _ _ (by decide), Dev.get_put_name _ _ _ _ _ _ _ _ (by decide),
    Dev.get_put_same _ _ _ _ _ (by decide) (by decide)]
  rfl

theorem Dev.leafSite_movedToPll (d : Dev) (i j n : Nat) : (d.movedToPll i j).leafSite n = d.leafSite n := by
  rw [Dev.movedToPll, Dev.leafSite_put _ _ _ _ _ _ (by decide), Dev.leafSite_put _ _ _ _ _ _ (by decide),
    Dev.leafSite_put _ _ _ _ _ _ (by decide)]

/-- A leaf in WFI whose move is due goes to its PLL clock and runs. -/
theorem clockSwitch_moves (n : Nat) (hp : s.dev.powered = true) (hl : s.dev.leafPresent n = true) (hd : s.dev.switchDue n = true)
    (hs : s.dev.pstate n = 1) (hm : (s.dev.leaf n).misses = []) :
    exec (.clockSwitch n) s = .next (s.withDev (s.dev.movedToPll (s.dev.leafSite n) (n % 16))) := by
  refine exec_of_rewrites (f := clockSwitchEff n) rfl hp ?_ (s.dev.movedToPll_rewrites _ _)
  have hsite : ((s.dev.put BPW_CLK_SW.SW (setBit (s.dev.get BPW_CLK_SW.SW (s.dev.leafSite n)) (n % 16) false)
      (s.dev.leafSite n)).put BGH_LEAF_STAT.ON_FIC 0 (s.dev.leafSite n) (n % 16)).leafSite n = s.dev.leafSite n := by
    rw [Dev.leafSite_put _ _ _ _ _ _ (by decide), Dev.leafSite_put _ _ _ _ _ _ (by decide)]
  simp [clockSwitchEff, hl, hd, hs, hm, Dev.setPstate, hsite, Dev.movedToPll]

/-- The registers of its site after the move. -/
theorem Dev.movedToPll_spec (d : Dev) (n : Nat) {i : Nat} (hi : d.leafSite n = i) :
    (d.movedToPll i (n % 16)).switchDue n = false ∧ (d.movedToPll i (n % 16)).pstate n = 0
      ∧ (d.movedToPll i (n % 16)).flag BGH_LEAF_STAT.ON_FIC i (n % 16) = false
      ∧ ∀ m, d.leafSite m = i → m % 16 ≠ n % 16 →
        (d.movedToPll i (n % 16)).switchDue m = d.switchDue m ∧ (d.movedToPll i (n % 16)).pstate m = d.pstate m := by
  have hlt : ∀ m, m % 16 < 16 := fun m => Nat.mod_lt m (by decide)
  refine ⟨?_, ?_, ?_, fun m hm hne => ⟨?_, ?_⟩⟩
  · rw [Dev.switchDue, Dev.leafSite_movedToPll, hi, Dev.get_sw_movedToPll, bit_mod_setBit_false _ _ (hlt n), if_pos rfl]
  · rw [Dev.pstate, Dev.leafSite_movedToPll, hi, Dev.movedToPll, Dev.get_put_same _ _ _ _ _ (by decide) (by decide)]
    rfl
  · rw [Dev.movedToPll, Dev.flag_put_beside _ BGH_LEAF_STAT.PSTATE BGH_LEAF_STAT.ON_FIC _ _ _ rfl (by decide) (by decide) (by decide) (by decide),
      Dev.flag_put_same _ _ _ _ _ (by decide) (by decide)]
    rfl
  · rw [Dev.switchDue, Dev.leafSite_movedToPll, hm, Dev.get_sw_movedToPll, bit_mod_setBit_false _ _ (hlt m), if_neg hne,
      Dev.switchDue, hm]
  · rw [Dev.pstate, Dev.leafSite_movedToPll, hm, Dev.movedToPll, Dev.get_put_index _ _ _ _ _ _ _ _ (.inr hne),
      Dev.get_put_index _ _ _ _ _ _ _ _ (.inr hne), Dev.get_put_name _ _ _ _ _ _ _ _ (by decide), Dev.pstate, hm]

/-! ### Ageing (R375, R376) -/

theorem Dev.siteActive_of_rewrites {fs : List Fld} {d d' : Dev} (h : d.Rewrites fs d') (hf : ∀ f ∈ fs, TRK_CAP.SITE_ACTIVE.apart f) (x : Nat) :
    d'.siteActive x = d.siteActive x := by
  unfold Dev.siteActive
  rw [h.get _ _ _ hf]

/-- The measurements of some dies start. -/
theorem Dev.measures_spec (d : Dev) (xs : List Nat) : d.Rewrites [AGE_DIE.MEAS] (xs.foldl (fun d x => d.put AGE_DIE.MEAS 1 0 x) d)
    ∧ ∀ x, (x ∈ xs ∨ d.flag AGE_DIE.MEAS 0 x = true) → (xs.foldl (fun d x => d.put AGE_DIE.MEAS 1 0 x) d).flag AGE_DIE.MEAS 0 x = true := by
  refine ⟨.foldl (fun d x => .put d _ _ _ _) xs d, ?_⟩
  induction xs generalizing d with
  | nil => exact fun x hx => hx.resolve_left nofun
  | cons y ys ih =>
    intro x hx
    refine ih _ x ?_
    by_cases hxy : x = y
    · subst hxy
      refine .inr ?_
      rw [Dev.flag_put_same _ _ _ _ _ (by decide) (by decide)]
      rfl
    · refine hx.imp (fun h => (List.mem_cons.1 h).resolve_left hxy) fun h => ?_
      rw [Dev.flag, Dev.get_put_index _ _ _ _ _ _ _ _ (.inr hxy)]
      exact h

/-- A re-plan measures every active die and the trunk. -/
theorem Dev.replan_spec (d : Dev) (hb : d.flag AGE_CMD.BUSY = false) : d.Rewrites [AGE_CMD.BUSY, AGE_DIE.MEAS] d.replan
    ∧ d.replan.flag AGE_CMD.BUSY = true ∧ d.replan.flag AGE_DIE.MEAS 0 28 = true
    ∧ ∀ x, x < 28 → d.siteActive x = true → d.replan.flag AGE_DIE.MEAS 0 x = true := by
  have he : d.replan = d.ageDies.foldl (fun d x => d.put AGE_DIE.MEAS 1 0 x) (d.put AGE_CMD.BUSY 1) := by
    simp [Dev.replan, hb]
  obtain ⟨hrest, hmeas⟩ := (d.put AGE_CMD.BUSY 1).measures_spec d.ageDies
  rw [he]
  refine ⟨(Dev.Rewrites.put d _ _ _ _).trans hrest, ?_, hmeas 28 (.inl ?_), fun x hx ha => hmeas x (.inl ?_)⟩
  · rw [hrest.flag _ _ _ (by decide), Dev.flag_put_same _ _ _ _ _ (by decide) (by decide)]
    rfl
  · simp [Dev.ageDies]
  · simp [Dev.ageDies, Dev.activeSites, hx, ha]

theorem replan_measures (c : Instr) (hp : s.dev.powered = true) (hb : s.dev.flag AGE_CMD.BUSY = false)
    (hc : c = .ageReplan ∨ (c = .ageReplanPeriod ∧ s.dev.get AGE_CTL.PERIOD_H ≠ 0 ∧ s.dev.get PWR_PKG_CTL.STATE = 0)) :
    exec c s = .next (s.withDev s.dev.replan) := by
  have hre := (s.dev.replan_spec hb).1
  obtain rfl | ⟨rfl, hper, hst⟩ := hc
  · exact exec_of_rewrites (f := ageReplanEff) rfl hp rfl hre
  · exact exec_of_rewrites (f := ageReplanPeriodEff) rfl hp (by simp [ageReplanPeriodEff, hper, hst]) hre

/-- A command that leaves the board and the supply alone acts on powered dies as it is. -/
theorem exec_of_powered {c : Instr} {f : Dev → Dev} {d : Dev} (he : exec c s = .next (s.on f)) (hp : s.dev.powered = true)
    (hf : f s.dev = d) (hb : d.board = s.dev.board) (hu : d.power.unpowered = s.dev.power.unpowered) :
    exec c s = .next (s.withDev d) := by
  have hd : d.powered = true := by rw [← hp]; simp only [Dev.powered, hb, hu]
  rw [he, s.on_dev f hp, hf, Dev.settled_of_powered hd]

/-- The measurement of a die is recorded. -/
def Dev.ageMeasured (d : Dev) (x w m : Nat) : Dev :=
  ((d.put AGE_DIE.MEAS 0 0 x).put AGE_DIE.WEAR w 0 x).put AGE_DIE.MARGIN m 0 x

theorem Dev.ageMeasured_rewrites (d : Dev) (x w m : Nat) :
    d.Rewrites [AGE_DIE.MEAS, AGE_DIE.WEAR, AGE_DIE.MARGIN] (d.ageMeasured x w m) :=
  ((Dev.Rewrites.put d _ _ 0 x).trans (.put _ _ _ _ _)).trans (.put _ _ _ _ _)

theorem marginOf_le (reps : List Nat) : marginOf reps ≤ 63 :=
  List.foldlRecOn (motive := fun m => m ≤ 63) reps min (Nat.le_refl 63) fun m hm r _ => (Nat.min_le_left m r).trans hm

theorem Dev.ageMeasured_spec (d : Dev) (x w : Nat) {m : Nat} (hm : m ≤ 63) :
    (d.ageMeasured x w m).flag AGE_DIE.MEAS 0 x = false ∧ (d.ageMeasured x w m).get AGE_DIE.MARGIN 0 x = m := by
  refine ⟨?_, ?_⟩
  · rw [Dev.ageMeasured, Dev.flag_put_beside _ AGE_DIE.MARGIN AGE_DIE.MEAS _ _ _ rfl (by decide) (by decide) (by decide) (by decide),
      Dev.flag_put_beside _ AGE_DIE.WEAR AGE_DIE.MEAS _ _ _ rfl (by decide) (by decide) (by decide) (by decide),
      Dev.flag_put_same _ _ _ _ _ (by decide) (by decide)]
    rfl
  · rw [Dev.ageMeasured, Dev.get_put_same _ _ _ _ _ (by decide) (by decide)]
    exact Nat.mod_eq_of_lt (Nat.lt_of_le_of_lt hm (by decide))

/-- A die below its target takes one guardband step more, and settles. -/
def Dev.stepped (d : Dev) (x gb : Nat) : Dev :=
  (d.setGb x (gb + 1)).modPower fun p => { p with settling := p.settling ++ [x] }

/-- A die that takes no further step stores the one it has; `low` is whether its margin has ended. -/
def Dev.keptStep (d : Dev) (x gb : Nat) (low : Bool) : Dev :=
  let e := if low then (d.put AGE_DIE.EOM 1 0 x).raise (ageSource x) else d
  ({ e with nvm := { e.nvm with gb := e.nvm.gb.set natLt 0 x gb } }).replanEnds

/-- The end of a measurement, case by case. -/
theorem ageMeasureEff_eq (d : Dev) (x : Nat) (ros reps : List Nat) (hx : x < 29) (hm : d.flag AGE_DIE.MEAS 0 x = true) :
    ageMeasureEff x ros reps d =
      if marginOf reps < d.get AGE_CTL.TARGET ∧ d.get AGE_DIE.GB 0 x < 20 then
        (d.ageMeasured x (wearOf (d.testOf x).ro ros) (marginOf reps)).stepped x (d.get AGE_DIE.GB 0 x)
      else (d.ageMeasured x (wearOf (d.testOf x).ro ros) (marginOf reps)).keptStep x (d.get AGE_DIE.GB 0 x)
        (decide (marginOf reps < d.get AGE_CTL.TARGET)) := by
  have hx' : ¬ 29 ≤ x := by omega
  have htarget := (d.ageMeasured_rewrites x (wearOf (d.testOf x).ro ros) (marginOf reps)).get AGE_CTL.TARGET 0 0
    (by decide)
  unfold ageMeasureEff
  rw [if_neg (by simp [hx', hm])]
  dsimp only
  rw [← Dev.ageMeasured, htarget]
  by_cases hc : marginOf reps < d.get AGE_CTL.TARGET ∧ d.get AGE_DIE.GB 0 x < 20
  · rw [if_pos (by simpa using hc), if_pos hc]
    rfl
  · rw [if_neg (by simpa using hc), if_neg hc, Dev.keptStep]
    simp only [decide_eq_true_eq]

/-- What a step more leaves. -/
theorem Dev.stepped_spec (d : Dev) (x gb : Nat) (h : gb < 20) :
    (d.stepped x gb).get AGE_DIE.GB 0 x = gb + 1 ∧ (d.stepped x gb).get AGE_DIE.REMAIN 0 x = 19 - gb
      ∧ ∀ f, f.apart AGE_DIE.GB → f.apart AGE_DIE.REMAIN → (d.stepped x gb).get f 0 x = d.get f 0 x := by
  have hre : d.Rewrites [AGE_DIE.GB, AGE_DIE.REMAIN] (d.setGb x (gb + 1)) :=
    (Dev.Rewrites.put d _ _ 0 x).trans (.put _ _ _ _ _)
  refine ⟨?_, ?_, fun f hg hr => hre.get f 0 x fun g hgs => ?_⟩
  · show (d.setGb x (gb + 1)).get AGE_DIE.GB 0 x = _
    rw [Dev.setGb, Dev.get_put_beside _ AGE_DIE.REMAIN AGE_DIE.GB _ _ _ rfl (by decide) (by decide) (by decide) (by decide),
      Dev.get_put_same _ _ _ _ _ (by decide) (by decide)]
    exact Nat.mod_eq_of_lt (Nat.lt_of_le_of_lt (Nat.succ_le_of_lt h) (by decide))
  · show (d.setGb x (gb + 1)).get AGE_DIE.REMAIN 0 x = _
    rw [Dev.setGb, Dev.get_put_same _ _ _ _ _ (by decide) (by decide)]
    show (20 - (gb + 1)) % 256 = 19 - gb
    omega
  · simp only [List.mem_cons, List.not_mem_nil, or_false] at hgs
    obtain rfl | rfl := hgs
    · exact hg
    · exact hr

theorem Dev.replanEnds_rewrites (d : Dev) : d.Rewrites [AGE_CMD.BUSY] d.replanEnds := by
  unfold Dev.replanEnds
  split
  · exact .put d _ _ _ _
  · exact .refl _ d

/-- What a stored step leaves: the step in the nonvolatile memory, and the end of the margin. -/
theorem Dev.keptStep_spec (d : Dev) (x gb : Nat) (low : Bool) :
    (d.keptStep x gb low).nvm.gb.find 0 x = gb ∧ (low = true → (d.keptStep x gb low).flag AGE_DIE.EOM 0 x = true)
      ∧ (∀ f, f.reg = .AGE_DIE → f.apart AGE_DIE.EOM → (d.keptStep x gb low).get f 0 x = d.get f 0 x)
      ∧ (low = false → (d.keptStep x gb low).wire = d.wire) ∧ (d.keptStep x gb low).mem = d.mem
      ∧ (d.keptStep x gb low).board = d.board ∧ (d.keptStep x gb low).power = d.power := by
  set e := if low then (d.put AGE_DIE.EOM 1 0 x).raise (ageSource x) else d with he
  set e' : Dev := { e with nvm := { e.nvm with gb := e.nvm.gb.set natLt 0 x gb } } with he'
  have hk : d.keptStep x gb low = e'.replanEnds := rfl
  have hends := e'.replanEnds_rewrites
  have hraise := (d.put AGE_DIE.EOM 1 0 x).raise_stays (ageSource x) {}
  have hst : d.Stays (fun n => n != .AGE_DIE && graftRegs n) e := by
    rw [he]
    split
    · exact .trans (.put d _ _ _ _ rfl) (hraise.mono fun n hn => (Bool.and_eq_true _ _ ▸ hn).2)
    · exact .refl d
  have hget (f : Fld) (hf : f.reg = .AGE_DIE) : (d.keptStep x gb low).get f 0 x = e.get f 0 x := by
    rw [hk, hends.get f 0 x fun g hg => .inl (by rw [List.mem_singleton.1 hg, hf]; decide)]
    rfl
  have hraised (f : Fld) (hf : f.reg = .AGE_DIE) (hlow : low = true) : e.get f 0 x = (d.put AGE_DIE.EOM 1 0 x).get f 0 x := by
    rw [he, if_pos hlow, Dev.raise_get _ _ _ _ _ _ (by rw [hf]; rfl)]
  refine ⟨?_, fun hlow => ?_, fun f hf ha => ?_, fun hlow => ?_, ?_, ?_, ?_⟩
  · rw [hk, hends.rest, he']
    exact KMap.find_set_same _ _ _ _ _
  · rw [Dev.flag, hget _ rfl, hraised _ rfl hlow, Dev.get_put_same _ _ _ _ _ (by decide) (by decide)]
    rfl
  · rw [hget f hf]
    cases hlow : low with
    | true => rw [hraised f hf hlow, Dev.get_put_apart _ _ _ _ _ _ _ _ ha]
    | false => rw [he, hlow]; rfl
  · rw [hk, hends.rest, he', he, hlow]
    rfl
  · rw [hk, hends.rest]
    exact hst.mem
  · rw [hk, hends.rest]
    exact hst.board
  · rw [hk, hends.rest]
    exact hst.power

/-- The end of a measurement (R375, R376). -/
theorem ageMeasure_spec (x m gb : Nat) (ros reps : List Nat) (hp : s.dev.powered = true) (hx : x < 29)
    (hmeas : s.dev.flag AGE_DIE.MEAS 0 x = true) (hm : m = marginOf reps) (hgb : gb = s.dev.get AGE_DIE.GB 0 x) (h20 : gb ≤ 20) :
    ∃ d : Dev, exec (.ageMeasureDone x ros reps) s = .next (s.withDev d) ∧ d.flag AGE_DIE.MEAS 0 x = false
      ∧ d.get AGE_DIE.MARGIN 0 x = m ∧ d.mem = s.dev.mem
      ∧ (m < s.dev.get AGE_CTL.TARGET → gb < 20 → d.get AGE_DIE.GB 0 x = gb + 1 ∧ d.get AGE_DIE.REMAIN 0 x = 19 - gb
          ∧ d.power.settling = s.dev.power.settling ++ [x] ∧ d.nvm = s.dev.nvm)
      ∧ (s.dev.get AGE_CTL.TARGET ≤ m → d.get AGE_DIE.GB 0 x = gb ∧ d.nvm.gb.find 0 x = gb ∧ d.wire = s.dev.wire)
      ∧ (m < s.dev.get AGE_CTL.TARGET → gb = 20 → d.flag AGE_DIE.EOM 0 x = true ∧ d.nvm.gb.find 0 x = 20) := by
  have heff := ageMeasureEff_eq s.dev x ros reps hx hmeas
  rw [← hm, ← hgb] at heff
  obtain ⟨hflag, hmargin⟩ := s.dev.ageMeasured_spec x (wearOf (s.dev.testOf x).ro ros) (hm ▸ marginOf_le reps)
  have hre := s.dev.ageMeasured_rewrites x (wearOf (s.dev.testOf x).ro ros) m
  generalize s.dev.ageMeasured x (wearOf (s.dev.testOf x).ro ros) m = e at heff hflag hmargin hre
  have hegb : e.get AGE_DIE.GB 0 x = gb := (hre.get _ _ _ (by decide)).trans hgb.symm
  by_cases hc : m < s.dev.get AGE_CTL.TARGET ∧ gb < 20
  · rw [if_pos hc] at heff
    obtain ⟨hg, hr, hget⟩ := e.stepped_spec x gb hc.2
    refine ⟨_, exec_of_powered (f := ageMeasureEff x ros reps) rfl hp heff ?_ ?_, ?_, ?_, ?_, fun _ _ => ⟨hg, hr, ?_, ?_⟩, fun h => ?_,
      fun _ h => ?_⟩
    · show e.board = _
      rw [hre.rest]
    · show e.power.unpowered = _
      rw [hre.rest]
    · rw [Dev.flag, hget _ (by decide) (by decide)]
      exact hflag
    · rw [hget _ (by decide) (by decide), hmargin]
    · show e.mem = _
      rw [hre.rest]
    · show e.power.settling ++ [x] = _
      rw [hre.rest]
    · show e.nvm = _
      rw [hre.rest]
    · omega
    · omega
  · rw [if_neg hc] at heff
    obtain ⟨hnvm, heom, hget, hwire, hmem, hboard, hpower⟩ :=
      e.keptStep_spec x gb (decide (m < s.dev.get AGE_CTL.TARGET))
    refine ⟨_, exec_of_powered (f := ageMeasureEff x ros reps) rfl hp heff ?_ ?_, ?_, ?_, ?_, fun h h' => absurd ⟨h, h'⟩ hc,
      fun h => ⟨?_, hnvm, ?_⟩, fun h h' => ⟨heom (decide_eq_true h), by rw [hnvm, h']⟩⟩
    · rw [hboard, hre.rest]
    · rw [hpower, hre.rest]
    · rw [Dev.flag, hget _ rfl (by decide)]
      exact hflag
    · rw [hget _ rfl (by decide), hmargin]
    · rw [hmem, hre.rest]
    · rw [hget _ rfl (by decide), hegb]
    · rw [hwire (decide_eq_false (by omega)), hre.rest]

/-- A die that has settled is measured again. -/
theorem guardbandSettle_measures (x : Nat) (hp : s.dev.powered = true) (hx : x ∈ s.dev.power.settling) :
    exec (.guardbandSettle x) s = .next (s.withDev
      ({ s.dev with power := { s.dev.power with settling := s.dev.power.settling.erase x } }.put AGE_DIE.MEAS 1 0 x)) :=
  exec_of_powered (f := guardbandSettleEff x) rfl hp (by simp [guardbandSettleEff, hx, Dev.modPower]) rfl rfl

end Sys2Proof.Machine
end

section
/-!
PROOFS. A lost PLL, and the resets of a leaf and of an engine (R74, R143, R359, R370).
-/

namespace Sys2Proof.Machine

/-! ### Power states of the leaves of a bough -/

theorem Dev.leafSite_of_rewrites {fs : List Fld} {d d' : Dev} (h : d.Rewrites fs d') (hf : ∀ f ∈ fs, f.reg ≠ .SIM_SITEMAP) (n : Nat) :
    d'.leafSite n = d.leafSite n :=
  Dev.leafSite_of_stays (K := fun q => q == .SIM_SITEMAP) (h.stays fun f hm => beq_false_of_ne (hf f hm)) rfl n

theorem Dev.pstate_of_rewrites {fs : List Fld} {d d' : Dev} (h : d.Rewrites fs d') (hf : ∀ f ∈ fs, f.reg ≠ .SIM_SITEMAP)
    (hp : ∀ f ∈ fs, BGH_LEAF_STAT.PSTATE.apart f) (n : Nat) : d'.pstate n = d.pstate n := by
  unfold Dev.pstate
  rw [Dev.leafSite_of_rewrites h hf, h.get _ _ _ hp]

theorem Dev.pstate_of_stays {K : RegName → Bool} {d d' : Dev} (h : d.Stays K d') (hs : K .SIM_SITEMAP = true)
    (hl : K .BGH_LEAF_STAT = true) (n : Nat) : d'.pstate n = d.pstate n := by
  unfold Dev.pstate
  rw [Dev.leafSite_of_stays h hs, h.get _ _ _ hl]

theorem Dev.setPstate_rewrites (d : Dev) (n v : Nat) : d.Rewrites [BGH_LEAF_STAT.PSTATE] (d.setPstate n v) := .put _ _ _ _ _

/-- A leaf's power state reads what was given to it. -/
theorem Dev.pstate_setPstate_same (d : Dev) (n v : Nat) : (d.setPstate n v).pstate n = v % 4 := by
  rw [Dev.pstate, Dev.leafSite_of_rewrites (d.setPstate_rewrites n v) (by decide), Dev.setPstate,
    Dev.get_put_same _ _ _ _ _ (by decide) (by decide)]
  rfl

theorem Dev.pstate_setPstate_other (d : Dev) {n m : Nat} (v : Nat) (h : m % 16 ≠ n % 16) : (d.setPstate n v).pstate m = d.pstate m := by
  rw [Dev.pstate, Dev.leafSite_of_rewrites (d.setPstate_rewrites n v) (by decide), Dev.setPstate,
    Dev.get_put_index _ _ _ _ _ _ _ _ (.inr h), Dev.pstate]

/-- A step that changes the power state of its own leaf alone, by a function that is its own square, changes so that of every leaf of a
bough that it is done for. -/
theorem Dev.pstate_foldl {step : Dev → Nat → Dev} {g : Nat → Nat} (hg : ∀ v, g (g v) = g v)
    (hsame : ∀ d n, (step d n).pstate n = g (d.pstate n)) (hother : ∀ d n m, m % 16 ≠ n % 16 → (step d n).pstate m = d.pstate m)
    {b m : Nat} (hm : m / 16 = b) (l : List Nat) (hl : ∀ n ∈ l, n / 16 = b) (d : Dev) (h : m ∈ l ∨ g (d.pstate m) = d.pstate m) :
    (l.foldl step d).pstate m = g (d.pstate m) := by
  induction l generalizing d with
  | nil => exact (h.resolve_left nofun).symm
  | cons n l ih =>
    have hl' : ∀ k ∈ l, k / 16 = b := fun k hk => hl k (List.mem_cons_of_mem n hk)
    by_cases hmn : m = n
    · subst hmn
      have hfix : g ((step d m).pstate m) = (step d m).pstate m := by rw [hsame, hg]
      rw [List.foldl_cons, ih hl' _ (.inr hfix), hfix, hsame]
    · have hn := hl n List.mem_cons_self
      have hkeep := hother d n m (by omega)
      rw [List.foldl_cons, ih hl' _ (by rw [hkeep]; exact h.imp_left fun hm => (List.mem_cons.1 hm).resolve_left hmn), hkeep]

theorem Dev.mem_siteLeaves (d : Dev) (s n : Nat) : n ∈ d.siteLeaves s ↔ n / 16 = d.boughAt s := by
  simp only [Dev.siteLeaves, List.mem_map, List.mem_range]
  refine ⟨?_, fun h => ⟨n % 16, Nat.mod_lt _ (by decide), by omega⟩⟩
  rintro ⟨j, hj, rfl⟩
  omega

/-! ### The PLL of a bough loses lock (R359) -/

theorem Dev.leeEnter_rewrites (d : Dev) (n : Nat) (f : Fld) (hf : f.reg = .LEE_STAT) :
    d.Rewrites [wholeReg .LEE_STAT] (d.leeEnter n f) := by
  have put : ∀ (x : Dev) (g : Fld) (v : Nat), g.reg = .LEE_STAT → x.Rewrites [wholeReg .LEE_STAT] (x.put g v n) := fun x g v hg => by
    rw [← hg]; exact .put_whole x g v n 0
  have idle : d.Rewrites [wholeReg .LEE_STAT] (d.leeIdle n) :=
    ((((put d _ _ rfl).andThen (put _ _ _ rfl)).andThen (put _ _ _ rfl)).andThen (put _ _ _ rfl)).andThen (put _ _ _ rfl)
  exact (idle.andThen (put _ f 1 hf)).andThen (put _ LEE_STAT.BLOCK 0 rfl)

/-- A leaf and its engine stop with their clock. -/
def Dev.clockStops (d : Dev) (n : Nat) : Dev :=
  let e := if d.pstate n = 2 then d else d.setPstate n 3
  if e.flag LEE_STAT.RUN n then e.leeEnter n LEE_STAT.STOPPED else e

/-- The state of a leaf whose clock stops: OFF, or held. -/
def stoppedPstate (v : Nat) : Nat := if v = 2 then 2 else 3

theorem stoppedPstate_idem (v : Nat) : stoppedPstate (stoppedPstate v) = stoppedPstate v := by
  unfold stoppedPstate; split <;> rfl

/-- The leaf's part of it. -/
def Dev.leafHeld (d : Dev) (n : Nat) : Dev := if d.pstate n = 2 then d else d.setPstate n 3

theorem Dev.leafHeld_rewrites (d : Dev) (n : Nat) : d.Rewrites [BGH_LEAF_STAT.PSTATE] (d.leafHeld n) := by
  unfold Dev.leafHeld
  split
  · exact .refl _ d
  · exact d.setPstate_rewrites n 3

/-- The engine's part of it. -/
theorem Dev.clockStops_engine (d : Dev) (n : Nat) : (d.leafHeld n).Rewrites [wholeReg .LEE_STAT] (d.clockStops n) := by
  show (d.leafHeld n).Rewrites _ (if (d.leafHeld n).flag LEE_STAT.RUN n then (d.leafHeld n).leeEnter n LEE_STAT.STOPPED else d.leafHeld n)
  split
  · exact Dev.leeEnter_rewrites _ n _ rfl
  · exact .refl _ _

theorem Dev.clockStops_rewrites (d : Dev) (n : Nat) : d.Rewrites [BGH_LEAF_STAT.PSTATE, wholeReg .LEE_STAT] (d.clockStops n) :=
  (d.leafHeld_rewrites n).trans (d.clockStops_engine n)

theorem Dev.pstate_clockStops_same (d : Dev) (n : Nat) : (d.clockStops n).pstate n = stoppedPstate (d.pstate n) := by
  rw [Dev.pstate_of_rewrites (d.clockStops_engine n) (by decide) (by decide), Dev.leafHeld, stoppedPstate]
  split
  · assumption
  · exact d.pstate_setPstate_same n 3

theorem Dev.pstate_clockStops_other (d : Dev) (n m : Nat) (h : m % 16 ≠ n % 16) : (d.clockStops n).pstate m = d.pstate m := by
  rw [Dev.pstate_of_rewrites (d.clockStops_engine n) (by decide) (by decide), Dev.leafHeld]
  split
  · rfl
  · exact d.pstate_setPstate_other 3 h

variable {s : State}

/-- A bough whose PLL loses lock has its leaves stopped, and nothing of its caches or of memory lost. -/
theorem boughPllLoss_stops (i : Nat) (hp : s.dev.powered = true) (ha : s.dev.siteActive i = true)
    (hl : s.dev.flag BPW_STAT.PLL_LOCK i = true) :
    ∃ d : Dev, exec (.boughPllLoss i) s = .next (s.withDev d) ∧ d.flag BPW_STAT.PLL_LOCK i = false
      ∧ (∀ n ∈ s.dev.siteLeaves i, d.pstate n = if s.dev.pstate n = 2 then 2 else 3) ∧ d.mem = s.dev.mem
      ∧ d.boughs = s.dev.boughs := by
  set x := s.dev.put BPW_STAT.PLL_LOCK 0 i with hx
  have hput : s.dev.Rewrites [BPW_STAT.PLL_LOCK] x := .put _ _ _ _ _
  have hsl : x.siteLeaves i = s.dev.siteLeaves i := by
    rw [Dev.siteLeaves, hx, Dev.boughAt_put _ _ _ _ _ _ (by decide)]
    rfl
  set e := (s.dev.siteLeaves i).foldl Dev.clockStops x with he
  have hfold : x.Rewrites [BGH_LEAF_STAT.PSTATE, wholeReg .LEE_STAT] e := .foldl Dev.clockStops_rewrites _ x
  have hraise : e.Stays (fun q => !cdcReg q) (e.raise (siteSource i 21)) := .raise e _ {} fun q hq => by rw [hq]; rfl
  have heff : boughPllLossEff i s.dev = e.raise (siteSource i 21) := by
    simp only [boughPllLossEff, ha, hl, Bool.not_true, Bool.or_self, Bool.false_eq_true, if_false, ← hx, hsl]
    rfl
  obtain ⟨r, w, a, hframe⟩ := e.raise_frame (siteSource i 21) {}
  refine ⟨_, exec_of_powered (f := boughPllLossEff i) rfl hp heff ?_ ?_, ?_, fun n hn => ?_, ?_, ?_⟩
  · rw [hraise.board, hfold.rest]
    rfl
  · rw [hraise.power, hfold.rest]
    rfl
  · rw [hraise.flag _ _ _ rfl, hfold.flag _ _ _ (by decide), hx, Dev.flag_put_same _ _ _ _ _ (by decide) (by decide)]
    rfl
  · have hb := (s.dev.mem_siteLeaves i n).1 hn
    rw [Dev.pstate_of_stays hraise rfl rfl, he, Dev.pstate_foldl stoppedPstate_idem Dev.pstate_clockStops_same
      Dev.pstate_clockStops_other hb _ (fun m hm => (s.dev.mem_siteLeaves i m).1 hm) x (.inl hn),
      Dev.pstate_of_rewrites hput (by decide) (by decide)]
    rfl
  · rw [hraise.mem, hfold.rest]
    rfl
  · rw [hframe, hfold.rest]
    rfl

/-! ### The PLL of the trunk loses lock (R359, R404) -/

/-- An operation that touches the flash and the count of free values alone. -/
def Dev.Spends (d d' : Dev) : Prop := ∃ f k, d' = { d with flash := f, free := k }

theorem Dev.spends_refl (d : Dev) : d.Spends d := ⟨d.flash, d.free, rfl⟩

theorem Dev.Spends.trans {d d' d'' : Dev} (h : d.Spends d') (h' : d'.Spends d'') : d.Spends d'' := by
  obtain ⟨f, k, rfl⟩ := h
  obtain ⟨f', k', rfl⟩ := h'
  exact ⟨f', k', rfl⟩

theorem Dev.freeNext_spends (d : Dev) : d.Spends d.freeNext.2 := ⟨d.flash, d.free + 1, rfl⟩

theorem Dev.programFlash_spends (base : Nat) (l : List Byte) (d : Dev) : d.Spends (d.programFlash base l) := by
  induction l generalizing base d with
  | nil => exact d.spends_refl
  | cons b l ih => exact .trans ⟨_, d.free, rfl⟩ (ih (base + 1) _)

theorem Dev.runJob_spends (d : Dev) (j : FlashJob) : d.Spends (d.runJob j) :=
  .trans ⟨(d.eraseFlash j.base j.size).flash, d.free, rfl⟩ (Dev.programFlash_spends _ _ _)

theorem Dev.cutJob_spends (d : Dev) : d.Spends d.cutJob := by
  unfold Dev.cutJob
  split
  · exact d.spends_refl
  · dsimp only
    split
    · exact d.freeNext_spends.trans (Dev.runJob_spends _ _)
    · exact d.freeNext_spends

theorem Dev.warmChannels_spends (d : Dev) (kept : Bool) : d.Spends (d.warmChannels kept).2 :=
  List.foldlRecOn (motive := fun r : KMap Nat MemCh × Dev => d.Spends r.2) _ _ d.spends_refl
    fun r hr _ _ => hr.trans r.2.freeNext_spends

/-- The registers that a reset shows anew: identity, fuses and guardbands. -/
def shownRegs : List Fld := [wholeReg .TRK_ID, wholeReg .SIM_OTP, wholeReg .AGE_DIE]

theorem Dev.fuseRegs_rewrites (d : Dev) : d.Rewrites shownRegs d.fuseRegs := by
  have put : ∀ (x : Dev) (f : Fld) (v : Nat), wholeReg f.reg ∈ shownRegs → x.Rewrites shownRegs (x.put f v) := fun x f v hf =>
    (Dev.Rewrites.put_whole x f v 0 0).mono fun g hg => by rwa [List.mem_singleton.1 hg]
  exact (((((put d _ _ (by decide)).andThen (put _ _ _ (by decide))).andThen (put _ _ _ (by decide))).andThen
    (put _ _ _ (by decide))).andThen (put _ _ _ (by decide))).andThen (put _ _ _ (by decide))

theorem Dev.showGb_rewrites (d : Dev) (gb : KMap Nat Nat) : d.Rewrites shownRegs (d.showGb gb) := by
  refine .foldl (fun x p => ?_) gb d
  have put : ∀ (y : Dev) (f : Fld) (v : Nat), f.reg = .AGE_DIE → y.Rewrites shownRegs (y.put f v 0 p.1) := fun y f v hf =>
    (Dev.Rewrites.put_whole y f v 0 p.1).mono fun g hg => by rw [List.mem_singleton.1 hg, hf]; decide
  split
  · exact (put x _ _ rfl).andThen (put _ _ _ rfl)
  · exact .refl _ x

/-- The package after its dies have been reset for a loss of the trunk's PLL. -/
def Dev.AfterPllLoss (d d' : Dev) : Prop :=
  d'.board.warm = some .pll ∧ d'.flag RST_CAUSE.PLL_LOSS = true ∧ d'.flag CLK_STAT.LOCK = false ∧ d'.leaves = [] ∧ d'.boughs = []
    ∧ d'.homes = [] ∧ d'.wire = [] ∧ d'.ring = d.ring

/-- What a warm reset leaves of a package whose background work, writes and channels have been dealt with. -/
def Dev.warmNew (d : Dev) (c : WarmCause) (chs : KMap Nat MemCh) : Dev :=
  let stays := c != .pll && c != .sleep && d.flag CLK_STAT.LOCK
  let board := { d.board with warm := some c, booting := true }
  let new : Dev :=
    { regs := d.regs.filter fun p => keptOverWarm p.1.name
      mem := d.cxlBytes, poison := d.cxlPoison, free := d.free, flash := d.flash, fuse := d.fuse, nvm := d.nvm
      ring := d.ring, channels := chs, answer := d.answer, power := { sleep := d.power.sleep }
      mgmt := { memory := d.mgmt.memory }
      board := if board.resetN && c != .pin then board.sample else board }
  ((new.put MBX_FW.BOOT_FAILS (d.get MBX_FW.BOOT_FAILS)).put CLK_STAT.LOCK (if stays then 1 else 0)).setReg ⟨.RST_CAUSE, 0, 0⟩
    (BitVec.ofNat 64 (2 ^ causeBit c + (min 65535 (d.get RST_CAUSE.COUNT + 1) <<< 32)))

/-- A loss of the trunk's PLL writes nothing back: it counts a boot that had not become ready, ends the background work, and resets. -/
theorem Dev.warmBegin_pll_eq (d : Dev) : ∃ (e : Dev) (chs : KMap Nat MemCh), e.board = d.board ∧ e.ring = d.ring
    ∧ (e.warmNew .pll chs).Rewrites shownRegs (d.warmBegin .pll) := by
  set x := if d.board.booting && !d.flag MBX_FW.READY then d.put MBX_FW.BOOT_FAILS (min 3 (d.get MBX_FW.BOOT_FAILS + 1)) else d with hx
  have hxb : x.board = d.board ∧ x.ring = d.ring := by
    rw [hx]
    split
    · exact ⟨rfl, rfl⟩
    · exact ⟨rfl, rfl⟩
  obtain ⟨f, k, hsp⟩ := (x.cutJob_spends.trans x.cutJob.freeNext_spends).trans (Dev.warmChannels_spends _ false)
  refine ⟨(x.cutJob.freeNext.2.warmChannels false).2, (x.cutJob.freeNext.2.warmChannels false).1, ?_, ?_, ?_⟩
  · rw [hsp]
    exact hxb.1
  · rw [hsp]
    exact hxb.2
  · exact (Dev.fuseRegs_rewrites _).andThen (Dev.showGb_rewrites _ _)

/-- Of the units nothing is left, and the ring count goes on. -/
theorem Dev.warmNew_fields (e : Dev) (c : WarmCause) (chs : KMap Nat MemCh) : (e.warmNew c chs).leaves = []
    ∧ (e.warmNew c chs).boughs = [] ∧ (e.warmNew c chs).homes = [] ∧ (e.warmNew c chs).wire = [] ∧ (e.warmNew c chs).ring = e.ring := by
  simp [Dev.warmNew]

/-- The board of a package that a loss of the trunk's PLL resets: its cause is recorded and its supply is as it was. -/
theorem Dev.warmNew_pll_board (e : Dev) (chs : KMap Nat MemCh) : (e.warmNew .pll chs).board.warm = some .pll
    ∧ (e.warmNew .pll chs).board.vstby = e.board.vstby ∧ (e.warmNew .pll chs).board.pwrOk = e.board.pwrOk
    ∧ (e.warmNew .pll chs).board.stopped = e.board.stopped := by
  have hb : (e.warmNew .pll chs).board = if e.board.resetN then ({ e.board with warm := some .pll, booting := true } : Board).sample
      else { e.board with warm := some .pll, booting := true } := by
    show (if e.board.resetN && true then _ else _) = _
    rw [Bool.and_true]
  rw [hb]
  split
  · exact ⟨rfl, rfl, rfl, rfl⟩
  · exact ⟨rfl, rfl, rfl, rfl⟩

theorem Dev.warmNew_pll_cause (e : Dev) (chs : KMap Nat MemCh) : (e.warmNew .pll chs).flag RST_CAUSE.PLL_LOSS = true := by
  have hreg : (e.warmNew .pll chs).get RST_CAUSE.PLL_LOSS =
      Word.bits (BitVec.ofNat 64 (2 ^ 4 + (min 65535 (e.get RST_CAUSE.COUNT + 1) <<< 32))) 4 4 :=
    congrArg (fun w : Word => w.bits 4 4) (Dev.reg_setReg_same _ _ _)
  have hk : min 65535 (e.get RST_CAUSE.COUNT + 1) ≤ 65535 := Nat.min_le_left _ _
  generalize min 65535 (e.get RST_CAUSE.COUNT + 1) = k at hreg hk
  have hval : Word.bits (BitVec.ofNat 64 (2 ^ 4 + (k <<< 32))) 4 4 = 1 := by
    rw [Word.bits, BitVec.toNat_ofNat, Nat.shiftRight_eq_div_pow, Nat.shiftLeft_eq]
    omega
  rw [Dev.flag, hreg, hval]
  rfl

theorem Dev.warmNew_pll_lock (e : Dev) (chs : KMap Nat MemCh) : (e.warmNew .pll chs).flag CLK_STAT.LOCK = false := by
  have hset (x : Dev) (w : Word) : (x.setReg ⟨.RST_CAUSE, 0, 0⟩ w).flag CLK_STAT.LOCK = x.flag CLK_STAT.LOCK :=
    (Dev.Rewrites.setReg x _ w).flag _ _ _ (by decide)
  rw [Dev.warmNew, hset, Dev.flag_put_same _ _ _ _ _ (by decide) (by decide)]
  rfl

/-- A loss of the trunk's PLL resets the package (R359, R404). -/
theorem Dev.warmBegin_pll (d : Dev) (hp : d.powered = true) :
    d.AfterPllLoss (d.warmBegin .pll) ∧ (d.warmBegin .pll).powered = true := by
  obtain ⟨e, chs, hb, hr, hre⟩ := d.warmBegin_pll_eq
  obtain ⟨hwarm, hvstby, hpwrOk, hstopped⟩ := e.warmNew_pll_board chs
  have hpow : (e.warmNew .pll chs).powered = true := by
    simp only [Dev.powered, Bool.and_eq_true, Bool.not_eq_true'] at hp ⊢
    rw [hvstby, hpwrOk, hstopped, hb]
    exact ⟨hp.1, rfl⟩
  obtain ⟨hleaves, hboughs, hhomes, hwire, hring⟩ := e.warmNew_fields .pll chs
  have hcause := e.warmNew_pll_cause chs
  have hlock := e.warmNew_pll_lock chs
  generalize e.warmNew .pll chs = x at *
  refine ⟨⟨?_, ?_, ?_, ?_, ?_, ?_, ?_, ?_⟩, ?_⟩
  · rw [hre.rest, ← hwarm]
  · rw [hre.flag _ _ _ (by decide), hcause]
  · rw [hre.flag _ _ _ (by decide), hlock]
  · rw [hre.rest, ← hleaves]
  · rw [hre.rest, ← hboughs]
  · rw [hre.rest, ← hhomes]
  · rw [hre.rest, ← hwire]
  · rw [hre.rest, ← hr, ← hring]
  · rw [← hpow]
    exact Dev.powered_of (by rw [hre.rest]) (by rw [hre.rest])

theorem trunkPllLoss_resets (hp : s.dev.powered = true) (hl : s.dev.flag CLK_STAT.LOCK = true) :
    exec .trunkPllLoss s = .next (s.withDev (s.dev.warmBegin .pll)) ∧ s.dev.AfterPllLoss (s.dev.warmBegin .pll) := by
  obtain ⟨hafter, hpow⟩ := s.dev.warmBegin_pll hp
  have heff : trunkPllLossEff s.dev = s.dev.warmBegin .pll := by simp [trunkPllLossEff, hp, hl]
  refine ⟨?_, hafter⟩
  show Host.Outcome.next (s.on trunkPllLossEff) = _
  rw [s.on_dev _ hp, heff, Dev.settled_of_powered hpow]

/-! ### Commands of RST_CMD (R370) -/

/-- RST_CMD while none is in progress: a valid target goes on. -/
theorem rstCommand_valid (d : Dev) (target : Nat) (go : Dev → Dev) (hb : d.flag RST_CMD.BUSY = false) :
    d.rstCommand target true go = go (d.put RST_CMD.TARGET target) := by
  simp [Dev.rstCommand, hb]

/-- The register of RST_CMD. -/
def rstRegs : List Fld := [wholeReg .RST_CMD]

theorem Dev.rst_put (d : Dev) (f : Fld) (v : Nat) (hf : f.reg = .RST_CMD) : d.Rewrites rstRegs (d.put f v) := by
  have h := Dev.Rewrites.put_whole d f v 0 0
  rwa [hf] at h

theorem Dev.rstDone_rewrites (d : Dev) (status : Nat) : d.Rewrites rstRegs (d.rstDone status) :=
  ((d.rst_put RST_CMD.STATUS status rfl).andThen (Dev.rst_put _ RST_CMD.DONE 1 rfl)).andThen (Dev.rst_put _ RST_CMD.BUSY 0 rfl)

/-- The end of a command of RST_CMD. -/
theorem Dev.rstDone_spec (d : Dev) {status : Nat} (h : status < 256) :
    (d.rstDone status).get RST_CMD.STATUS = status ∧ (d.rstDone status).flag RST_CMD.DONE = true := by
  refine ⟨?_, ?_⟩
  · rw [Dev.rstDone, Dev.get_put_apart _ RST_CMD.BUSY RST_CMD.STATUS _ _ _ _ _ (by decide),
      Dev.get_put_apart _ RST_CMD.DONE RST_CMD.STATUS _ _ _ _ _ (by decide), Dev.get_put_same _ _ _ _ _ (by decide) (by decide)]
    exact Nat.mod_eq_of_lt h
  · rw [Dev.flag, Dev.rstDone, Dev.get_put_apart _ RST_CMD.BUSY RST_CMD.DONE _ _ _ _ _ (by decide),
      Dev.get_put_same _ _ _ _ _ (by decide) (by decide)]
    rfl

/-- RST_CMD of a target that does not exist: BUSY while a reset is in progress, else INVALID (R370). -/
theorem rstCommand_invalid (d : Dev) (target : Nat) (go : Dev → Dev) : d.Rewrites rstRegs (d.rstCommand target false go)
    ∧ (d.flag RST_CMD.BUSY = true → (d.rstCommand target false go).get RST_CMD.STATUS = 1)
    ∧ (d.flag RST_CMD.BUSY = false → (d.rstCommand target false go).get RST_CMD.STATUS = 2
        ∧ (d.rstCommand target false go).flag RST_CMD.DONE = true) := by
  cases hb : d.flag RST_CMD.BUSY with
  | true =>
    have he : d.rstCommand target false go = d.put RST_CMD.STATUS 1 := by simp [Dev.rstCommand, hb]
    rw [he]
    refine ⟨d.rst_put _ _ rfl, fun _ => ?_, nofun⟩
    rw [Dev.get_put_same _ _ _ _ _ (by decide) (by decide)]
    rfl
  | false =>
    have he : d.rstCommand target false go = (d.put RST_CMD.TARGET target).rstDone 2 := by simp [Dev.rstCommand, hb]
    rw [he]
    exact ⟨(d.rst_put _ _ rfl).andThen (Dev.rstDone_rewrites _ 2), nofun, fun _ => Dev.rstDone_spec _ (by decide)⟩

/-- No package has site 31 or leaf 511. -/
theorem no_leaf_511 (d : Dev) : decide (511 < 16 * d.boughsB) = false := by
  have hb : d.boughsB < 32 := Word.bits_lt _ _ _
  exact decide_eq_false (by omega)

/-- A reset of a target that does not exist. -/
theorem reset_invalid (c : Instr) (hp : s.dev.powered = true)
    (hc : c = .orderlyBoughReset 31 ∨ c = .forcedBoughReset 31 ∨ c = .leafReset 511 ∨ c = .leeReset 511) :
    ∃ d : Dev, exec c s = .next (s.withDev d) ∧ d = { s.dev with regs := d.regs }
      ∧ (s.dev.flag RST_CMD.BUSY = true → d.get RST_CMD.STATUS = 1)
      ∧ (s.dev.flag RST_CMD.BUSY = false → d.get RST_CMD.STATUS = 2 ∧ d.flag RST_CMD.DONE = true) := by
  have done : ∀ (f : Dev → Dev) (target : Nat) (go : Dev → Dev), exec c s = .next (s.on f) → f s.dev = s.dev.rstCommand target false go →
      ∃ d : Dev, exec c s = .next (s.withDev d) ∧ d = { s.dev with regs := d.regs }
        ∧ (s.dev.flag RST_CMD.BUSY = true → d.get RST_CMD.STATUS = 1)
        ∧ (s.dev.flag RST_CMD.BUSY = false → d.get RST_CMD.STATUS = 2 ∧ d.flag RST_CMD.DONE = true) := fun f target go he hf => by
    obtain ⟨hre, hbusy, hinv⟩ := rstCommand_invalid s.dev target go
    exact ⟨_, exec_of_rewrites he hp hf hre, hre.rest, hbusy, hinv⟩
  obtain rfl | rfl | rfl | rfl := hc
  · exact done (orderlyResetEff 31) 31 _ rfl rfl
  · exact done (forcedResetEff 31) 31 _ rfl rfl
  · exact done (leafResetEff 511) 511 _ rfl (by rw [leafResetEff, no_leaf_511])
  · exact done (leeResetEff 511) 511 _ rfl (by rw [leeResetEff, no_leaf_511])

/-! ### The reset of a leaf (R74) -/

/-- A leaf in the state of R74, but for the pending bit of its timer. -/
structure Leaf.AtReset (l : Leaf) (pc : Word) : Prop where
  pc : l.pc = pc
  mode : l.mode = .machine
  tlb : l.tlb = []
  misses : l.misses = []
  csr : ∀ c, c ≠ 0x344 → l.csrRaw c = csrReset c

/-- A leaf that leaves its L1s changes its bough alone. -/
theorem Dev.emptyL1_frame (d : Dev) (n : Nat) : ∃ b, d.emptyL1 n = { d with boughs := b } :=
  List.foldlRecOn (motive := fun e : Dev => ∃ b, e = { d with boughs := b }) _ _ ⟨d.boughs, rfl⟩ fun e he p _ => by
    obtain ⟨b, rfl⟩ := he
    split
    · exact ⟨_, rfl⟩
    · exact ⟨b, rfl⟩

/-- A reset of a core changes its registers, its L1s and the state of its clock and locks, and nothing else. -/
theorem Dev.resetCore_spec (d : Dev) (n : Nat) (keepEip : Bool) :
    ((d.resetCore n keepEip).leaf n).AtReset (BitVec.ofNat 64 (d.get BGH_RESET_VEC.ADDR (d.leafSite n) * 4))
      ∧ (∀ m, m ≠ n → (d.resetCore n keepEip).leaf m = d.leaf m)
      ∧ (∃ r l b k, d.resetCore n keepEip = { d with regs := r, leaves := l, boughs := b, free := k })
      ∧ ∀ q : Reg, q.name ≠ .BGH_LEAF_STAT → (d.resetCore n keepEip).reg q = d.reg q := by
  obtain ⟨b, hb⟩ := d.emptyL1_frame n
  set l : Leaf :=
    { pc := BitVec.ofNat 64 (d.get BGH_RESET_VEC.ADDR (d.leafSite n) * 4)
      x := (takeFree 32 d.free).filter fun p => p.1 != 0
      f := takeFree 32 (d.free + 32)
      v := ((List.range 32).map fun r => (r, ((List.range 4).foldr (fun k (a : BitVec 256) =>
        a <<< 64 ||| (Config.freeWord (d.free + 64 + 4 * r + k)).setWidth 256) 0))).filter fun p => decide (p.2 ≠ 0)
      imsic := ((d.leaf n).imsic.map fun p => (p.1, ({ eip := if keepEip then p.2.eip else [] } : ImsicFile))).filter fun p =>
        decide (p.2 ≠ ({} : ImsicFile)) } with hl
  set e : Dev := { ({ d with boughs := b } : Dev).setLeaf n l with free := d.free + 192 } with he
  set x := (e.put BGH_LEAF_STAT.ON_FIC 1 (e.leafSite n) (n % 16)).put BGH_LEAF_STAT.MC_LOCK 0 (e.leafSite n) (n % 16) with hx
  have hcore : d.resetCore n keepEip = x.timerPending n .mtimecmp := by
    rw [Dev.resetCore, hb]
  have hleaf : x.leaf n = l := Dev.leaf_setLeaf _ n l
  have hw := x.timerPending_on n .mtimecmp (by rw [hleaf]; rfl)
  rw [hcore]
  refine ⟨?_, fun m hm => ?_, ?_, fun q hq => ?_⟩
  · rw [hw.own, hleaf]
    exact ⟨rfl, rfl, rfl, rfl, fun c hc => Leaf.csrRaw_setCsr_other _ _ hc⟩
  · rw [hw.others m hm]
    exact Dev.leaf_setLeaf_other _ l hm
  · rw [hw.rest]
    exact ⟨_, _, b, d.free + 192, rfl⟩
  · rw [hw.reg q hq, hx, Dev.reg_put_name _ _ _ _ _ _ hq, Dev.reg_put_name _ _ _ _ _ _ hq]
    rfl

end Sys2Proof.Machine
end

section
/-!
PROOFS. The resets of a leaf and of an engine (R74, R143).
-/

namespace Sys2Proof.Machine

variable {s : State} {n : Nat}

/-! ### LEAF_RESET -/

/-- The request to a leaf to turn off is withdrawn: its reset turns it on. -/
def Dev.leafOnAgain (d : Dev) (n : Nat) : Dev :=
  (d.withdraw [.leaf n]).modPower fun p => { p with leafOff := p.leafOff.erase n, leafDelayed := p.leafDelayed.erase n }

/-- The reset of a leaf of a bough that runs. -/
def Dev.leafReset (d : Dev) (n : Nat) : Dev :=
  (((d.leafOnAgain n).resetCore n true).setPstate n 0).put BPW_CLK_SW.SW
    (setBit ((d.leafOnAgain n).get BPW_CLK_SW.SW (d.leafSite n)) (n % 16) false) (d.leafSite n)

/-- The leaf runs from its reset vector, and nothing but its site's registers, its bough's L1s and the requests to it has changed. -/
theorem Dev.leafReset_spec (d : Dev) (n : Nat) :
    ((d.leafReset n).leaf n).AtReset (BitVec.ofNat 64 (d.get BGH_RESET_VEC.ADDR (d.leafSite n) * 4))
      ∧ (d.leafReset n).pstate n = 0 ∧ (∀ m, m ≠ n → (d.leafReset n).leaf m = d.leaf m)
      ∧ (d.leafReset n).mem = d.mem ∧ (d.leafReset n).lees = d.lees ∧ (d.leafReset n).board = d.board
      ∧ (d.leafReset n).power.unpowered = d.power.unpowered := by
  obtain ⟨hreset, hothers, ⟨r, l, b, k, hframe⟩, _⟩ := (d.leafOnAgain n).resetCore_spec n true
  set e := (d.leafOnAgain n).resetCore n true with he
  have hpst : (e.setPstate n 0).pstate n = 0 := e.pstate_setPstate_same n 0
  refine ⟨hreset, ?_, hothers, ?_, ?_, ?_, ?_⟩
  · rw [Dev.leafReset, Dev.pstate_of_rewrites (.put _ BPW_CLK_SW.SW _ (d.leafSite n) 0) (by decide) (by decide)]
    exact hpst
  · exact (congrArg Dev.mem hframe :)
  · exact (congrArg Dev.lees hframe :)
  · exact (congrArg Dev.board hframe :)
  · exact (congrArg (fun x : Dev => x.power.unpowered) hframe :)

/-- A valid leaf reset, as RST_CMD does it. -/
theorem leafResetEff_eq (d : Dev) (n : Nat) (hb : d.flag RST_CMD.BUSY = false) (hn : n < 16 * d.boughsB)
    (hon : d.boughOn (d.leafSite n) = true) (hps : d.pstate n ≠ 3) :
    leafResetEff n d = ((d.put RST_CMD.TARGET n).leafReset n).rstDone 0 := by
  have hput : d.Rewrites [RST_CMD.TARGET] (d.put RST_CMD.TARGET n) := .put _ _ _ _ _
  have hon' : (d.put RST_CMD.TARGET n).boughOn ((d.put RST_CMD.TARGET n).leafSite n) = true := by
    rw [Dev.leafSite_of_rewrites hput (by decide), Dev.boughOn, Dev.bstate, Dev.get_put_name _ _ _ _ _ _ _ _ (by exact nofun)]
    exact hon
  have hps' : (d.put RST_CMD.TARGET n).pstate n ≠ 3 := by
    rwa [Dev.pstate_of_rewrites hput (by decide) (by decide)]
  rw [leafResetEff, decide_eq_true hn, rstCommand_valid d n _ hb]
  dsimp only
  rw [if_neg (by simp [hon', hps'])]
  rfl

/-- LEAF_RESET (R74, R370). -/
theorem leafReset_restarts (hp : s.dev.powered = true) (hb : s.dev.flag RST_CMD.BUSY = false) (hn : n < 16 * s.dev.boughsB)
    (hon : s.dev.boughOn (s.dev.leafSite n) = true) (hps : s.dev.pstate n ≠ 3) :
    ∃ d : Dev, exec (.leafReset n) s = .next (s.withDev d) ∧ d.flag RST_CMD.DONE = true ∧ d.get RST_CMD.STATUS = 0
      ∧ d.pstate n = 0 ∧ (d.leaf n).AtReset (BitVec.ofNat 64 (s.dev.get BGH_RESET_VEC.ADDR (s.dev.leafSite n) * 4))
      ∧ (∀ m, m ≠ n → d.leaf m = s.dev.leaf m) ∧ d.mem = s.dev.mem ∧ d.lees = s.dev.lees := by
  have hput : s.dev.Rewrites [RST_CMD.TARGET] (s.dev.put RST_CMD.TARGET n) := .put _ _ _ _ _
  obtain ⟨hreset, hpst, hothers, hmem, hlees, hboard, hpower⟩ := (s.dev.put RST_CMD.TARGET n).leafReset_spec n
  rw [Dev.leafSite_of_rewrites hput (by decide), hput.get _ _ _ (by decide)] at hreset
  have heff := leafResetEff_eq s.dev n hb hn hon hps
  generalize (s.dev.put RST_CMD.TARGET n).leafReset n = e at *
  obtain ⟨hstatus, hdone⟩ := e.rstDone_spec (status := 0) (by decide)
  have hend := e.rstDone_rewrites 0
  refine ⟨_, exec_of_powered (f := leafResetEff n) rfl hp heff hboard hpower, hdone, hstatus, ?_, hreset, hothers, hmem, hlees⟩
  rw [Dev.pstate_of_rewrites hend (by decide) (by decide)]
  exact hpst

/-! ### LEE_RESET -/

/-- The engine of a LEE reset: its store stays. -/
def Dev.resetLee (d : Dev) (n : Nat) : Lee :=
  { store := (d.lee n).store, valid := (d.lee n).valid, discardAcks := d.acksToCome n, credits := (d.lee n).credits }

/-- The registers that a LEE reset keeps: those of other blocks, and LEE_BAR. -/
def leeKept (n : Nat) (q : Reg) : Bool := !(q.name.block == .lee && q.u == n) || q.name == .LEE_BAR

/-- The registers after it, but for LEE_STAT, whose GROUP stays. -/
theorem Dev.reg_resetLeeRegs (d : Dev) (n : Nat) {q : Reg} (hq : q.name ≠ .LEE_STAT) :
    (d.resetLeeRegs n).reg q = if leeKept n q then d.reg q else q.reset := by
  rw [Dev.resetLeeRegs, Dev.reg_put_name _ _ _ _ _ _ hq]
  show KMap.find q.reset (d.regs.filter fun p => leeKept n p.1) q = _
  split
  · rename_i h
    exact KMap.find_filter _ _ _ _ h
  · rename_i h
    exact KMap.find_filter_none _ _ _ _ (Bool.eq_false_of_not_eq_true h)

/-- LEE_STAT after it: not running. -/
theorem Dev.run_resetLeeRegs (d : Dev) (n : Nat) : (d.resetLeeRegs n).flag LEE_STAT.RUN n = false := by
  rw [Dev.flag, Dev.resetLeeRegs, Dev.get_put_apart _ LEE_STAT.GROUP LEE_STAT.RUN _ _ _ _ _ (by decide)]
  show bne (Word.bits (KMap.find _ (d.regs.filter fun p => leeKept n p.1) _) _ _) 0 = false
  rw [KMap.find_filter_none _ _ _ _ (by simp [leeKept, LEE_STAT.RUN]; rfl)]
  have hzero : (Reg.reset ⟨LEE_STAT.RUN.reg, 0, 0⟩).bits LEE_STAT.RUN.hi LEE_STAT.RUN.lo = 0 := by decide
  exact bne_eq_false_iff_eq.2 hzero

/-- LEE_BAR alone takes the state of the group. -/
theorem Dev.loadBar_rewrites (d : Dev) (n : Nat) : d.Rewrites [LEE_BAR.GEN, LEE_BAR.ARR] (d.loadBar n) := by
  unfold Dev.loadBar
  dsimp only
  split
  · exact (Dev.Rewrites.put d _ _ n 0).trans (.put _ _ _ _ _)
  · exact (Dev.Rewrites.put d _ _ n 0).trans (.put _ _ _ _ _)

/-- An engine after its reset: idle at 0, its store kept, and nothing of another engine changed. -/
theorem Dev.leeReset_spec (d : Dev) (n : Nat) : d.leeReset n = { d with regs := (d.leeReset n).regs, lees := (d.leeReset n).lees }
    ∧ (d.leeReset n).flag LEE_STAT.RUN n = false ∧ (d.leeReset n).get LEE_PC.PC n = 0
    ∧ (d.leeReset n).lee n = d.resetLee n ∧ ∀ m, m ≠ n → (d.leeReset n).lee m = d.lee m := by
  have hbar := ((d.setLee n (d.resetLee n)).resetLeeRegs n).loadBar_rewrites n
  have he : d.leeReset n = ((d.setLee n (d.resetLee n)).resetLeeRegs n).loadBar n := rfl
  have hlee : ∀ m, (d.leeReset n).lee m = (d.setLee n (d.resetLee n)).lee m := fun m => by
    rw [he, hbar.rest]
    rfl
  refine ⟨?_, ?_, ?_, ?_, fun m hm => ?_⟩
  · rw [he, hbar.rest]
    rfl
  · rw [he, hbar.flag _ _ _ (by decide)]
    exact Dev.run_resetLeeRegs _ n
  · rw [he, hbar.get _ _ _ (by decide), Dev.get, Dev.reg_resetLeeRegs _ n (by exact nofun), if_neg (by simp [leeKept, LEE_PC.PC]; decide)]
    rfl
  · rw [hlee, Dev.lee_setLee]
  · rw [hlee, Dev.lee_setLee_other _ _ hm]

/-- A valid engine reset, as RST_CMD does it. -/
theorem leeResetEff_eq (d : Dev) (n : Nat) (hb : d.flag RST_CMD.BUSY = false) (hn : n < 16 * d.boughsB) (hl : d.hasLee = true)
    (hon : d.boughOn (d.leafSite n) = true) : leeResetEff n d = ((d.put RST_CMD.TARGET n).leeReset n).rstDone 0 := by
  have hput : d.Rewrites [RST_CMD.TARGET] (d.put RST_CMD.TARGET n) := .put _ _ _ _ _
  have hon' : (d.put RST_CMD.TARGET n).boughOn ((d.put RST_CMD.TARGET n).leafSite n) = true := by
    rw [Dev.leafSite_of_rewrites hput (by decide), Dev.boughOn, Dev.bstate, Dev.get_put_name _ _ _ _ _ _ _ _ (by exact nofun)]
    exact hon
  rw [leeResetEff, decide_eq_true hn, rstCommand_valid d n _ hb]
  exact congrArg (fun x : Dev => x.rstDone 0) (if_pos (Bool.and_eq_true_iff.2 ⟨hl, hon'⟩))

/-- LEE_RESET (R143, R370). -/
theorem leeReset_idles (hp : s.dev.powered = true) (hb : s.dev.flag RST_CMD.BUSY = false) (hn : n < 16 * s.dev.boughsB)
    (hl : s.dev.hasLee = true) (hon : s.dev.boughOn (s.dev.leafSite n) = true) :
    ∃ d : Dev, exec (.leeReset n) s = .next (s.withDev d) ∧ d = { s.dev with regs := d.regs, lees := d.lees }
      ∧ d.get RST_CMD.STATUS = 0 ∧ d.flag LEE_STAT.RUN n = false ∧ d.get LEE_PC.PC n = 0
      ∧ (∀ w, (d.lee n).word w = (s.dev.lee n).word w) ∧ (d.lee n).sends = [] ∧ ∀ m, m ≠ n → d.lee m = s.dev.lee m := by
  obtain ⟨hframe, hrun, hpc, hown, hothers⟩ := (s.dev.put RST_CMD.TARGET n).leeReset_spec n
  have heff := leeResetEff_eq s.dev n hb hn hl hon
  generalize (s.dev.put RST_CMD.TARGET n).leeReset n = e at *
  have hend := e.rstDone_rewrites 0
  have hrest : e.rstDone 0 = { s.dev with regs := (e.rstDone 0).regs, lees := (e.rstDone 0).lees } := by
    rw [hend.rest, hframe]
    rfl
  have hlee : ∀ m, (e.rstDone 0).lee m = e.lee m := fun _ => rfl
  refine ⟨_, exec_of_powered (f := leeResetEff n) rfl hp heff ?_ ?_, hrest, (e.rstDone_spec (by decide)).1, ?_, ?_, fun w => ?_, ?_,
    fun m hm => ?_⟩
  · rw [hrest]
  · rw [hrest]
  · rw [hend.flag _ _ _ (by decide), hrun]
  · rw [hend.get _ _ _ (by decide), hpc]
  · rw [hlee, hown]
    rfl
  · rw [hlee, hown]
    rfl
  · rw [hlee, hothers m hm]
    rfl

end Sys2Proof.Machine
end

section
/-!
PROOFS. An orderly bough reset (R371): its first step stops the engines and the leaves, and it waits for what they have under way.
-/

namespace Sys2Proof.Machine

/-! ### Engines told to stop -/

/-- A change of the engines and of their LEE_CTL and LEE_STAT alone. -/
structure Dev.StopsLees (d d' : Dev) : Prop where
  rest : d' = { d with regs := d'.regs, lees := d'.lees }
  reg : ∀ q : Reg, q.name ≠ .LEE_CTL → q.name ≠ .LEE_STAT → d'.reg q = d.reg q

namespace Dev.StopsLees

variable {d d' d'' : Dev}

theorem refl (d : Dev) : d.StopsLees d := ⟨rfl, fun _ _ _ => rfl⟩

theorem trans (h : d.StopsLees d') (h' : d'.StopsLees d'') : d.StopsLees d'' where
  rest := by rw [h'.rest, h.rest]
  reg := fun q hc hs => (h'.reg q hc hs).trans (h.reg q hc hs)

theorem modLee (d : Dev) (n : Nat) (f : Lee → Lee) : d.StopsLees (d.modLee n f) := ⟨rfl, fun _ _ _ => rfl⟩

theorem disabled (d : Dev) (n : Nat) : d.StopsLees (d.put LEE_CTL.EN 0 n) :=
  ⟨rfl, fun _ hc _ => Dev.reg_put_name _ _ _ _ _ _ hc⟩

theorem leeEnter (d : Dev) (n : Nat) : d.StopsLees (d.leeEnter n LEE_STAT.STOPPED) where
  rest := (d.leeEnter_rewrites n _ rfl).rest
  reg := fun q _ hs => (d.leeEnter_rewrites n _ rfl).reg q fun f hf => by rw [List.mem_singleton.1 hf]; exact hs

theorem foldl {f : Dev → Nat → Dev} (hf : ∀ (x : Dev) (n : Nat), x.StopsLees (f x n)) (l : List Nat) (d : Dev) : d.StopsLees (l.foldl f d) :=
  List.foldlRecOn l f (refl d) fun _ h n _ => h.trans (hf _ n)

theorem leeDisable (d : Dev) (n : Nat) : d.StopsLees (leeDisableEff n d) := by
  unfold leeDisableEff
  dsimp only
  split
  · exact refl d
  · have hen : d.StopsLees ((d.put LEE_CTL.EN 0 n).modLee n fun e => { e with startAfterClear := false }) :=
      (disabled d n).trans (modLee _ n _)
    split
    · exact hen.trans (modLee _ n _)
    · split
      · exact hen.trans (leeEnter _ n)
      · split
        · exact hen.trans (leeEnter _ n)
        · exact hen

end Dev.StopsLees

/-! ### The first step of an orderly reset -/

/-- The leaves of a list stopped. -/
theorem Dev.setPstate_foldl_rewrites (l : List Nat) (v : Nat) (d : Dev) :
    d.Rewrites [BGH_LEAF_STAT.PSTATE] (l.foldl (fun d n => d.setPstate n v) d) :=
  .foldl (fun x n => x.setPstate_rewrites n v) l d

/-- Every leaf of a bough that is put into a state is in it. -/
theorem Dev.pstate_setPstate_foldl (d : Dev) (i v : Nat) {n : Nat} (hn : n ∈ d.siteLeaves i) (e : Dev) :
    ((d.siteLeaves i).foldl (fun d k => d.setPstate k v) e).pstate n = v % 4 :=
  Dev.pstate_foldl (g := fun _ => v % 4) (fun _ => rfl) (fun x k => x.pstate_setPstate_same k v) (fun x _ _ h => x.pstate_setPstate_other v h)
    ((d.mem_siteLeaves i n).1 hn) _ (fun k hk => (d.mem_siteLeaves i k).1 hk) e (.inl hn)

/-- The reset of a bough at step 1, with its vectors read. -/
def Dev.resetBegun (d : Dev) (i : Nat) : Dev :=
  d.modPower fun p => { p with reset := some { site := i, step := 1 }, vectors := KMap.set natLt [] p.vectors i (d.vectorsOf i) }

/-- A bough that is told to stop: its engines disabled and its leaves held. -/
theorem Dev.stopBough_spec (d : Dev) (i : Nat) :
    (∃ r l, d.stopBough i = { d with regs := r, lees := l, power := (d.resetBegun i).power })
    ∧ (∀ q : Reg, q.name.block ≠ .lee → q.name ≠ .BGH_LEAF_STAT → (d.stopBough i).reg q = d.reg q)
    ∧ ∀ n ∈ d.siteLeaves i, (d.stopBough i).pstate n = 3 := by
  have hlees : (d.resetBegun i).StopsLees ((d.siteLeaves i).foldl (fun d n => leeDisableEff n d) (d.resetBegun i)) :=
    .foldl (fun x n => .leeDisable x n) _ _
  have he : d.stopBough i = (d.siteLeaves i).foldl (fun d n => d.setPstate n 3)
    ((d.siteLeaves i).foldl (fun d n => leeDisableEff n d) (d.resetBegun i)) := rfl
  generalize (d.siteLeaves i).foldl (fun d n => leeDisableEff n d) (d.resetBegun i) = y at hlees he
  have hps := Dev.setPstate_foldl_rewrites (d.siteLeaves i) 3 y
  have hheld : ∀ n ∈ d.siteLeaves i, (d.stopBough i).pstate n = 3 := fun n hn => by
    rw [he]
    exact d.pstate_setPstate_foldl i 3 hn y
  generalize (d.siteLeaves i).foldl (fun d n => d.setPstate n 3) y = z at hps he
  rw [he] at hheld ⊢
  refine ⟨⟨z.regs, y.lees, ?_⟩, fun q hq hs => ?_, hheld⟩
  · rw [hps.rest, hlees.rest]
    rfl
  · rw [hps.reg q fun f hf => by rw [List.mem_singleton.1 hf]; exact hs]
    exact hlees.reg q (fun h => hq (by rw [h]; rfl)) fun h => hq (by rw [h]; rfl)

/-! ### The power controller, with a reset alone in progress -/

/-- The power controller has no more in progress than a reset. -/
structure Dev.OnlyReset (d : Dev) : Prop where
  entries : d.power.entries = []
  waking : d.power.waking = []
  package : d.power.package = none
  heldDev : d.power.heldDev = []

theorem Dev.onlyReset_of_idle {d : Dev} (h : d.powerBusy = false) : d.OnlyReset := by
  simp only [Dev.powerBusy, Bool.or_eq_false_iff, Bool.not_eq_false', List.isEmpty_iff, Option.isSome_eq_false_iff, Option.isNone_iff_eq_none] at h
  obtain ⟨⟨⟨⟨he, hw⟩, _⟩, hp⟩, hd⟩ := h
  exact ⟨he, hw, hp, hd⟩

theorem Dev.packageGo_none {d : Dev} (h : d.power.package = none) : d.packageGo = d := by
  unfold Dev.packageGo
  rw [h]

/-- One round of the controller's steps is then one of the reset's. -/
theorem Dev.powerSteps_succ {d : Dev} (k : Nat) (h : d.OnlyReset) (hr : d.power.reset.isSome = true) (h' : d.resetGo.OnlyReset) :
    d.powerSteps (k + 1) = d.resetGo.powerSteps k := by
  have hbusy : d.powerBusy = true := by simp [Dev.powerBusy, hr]
  rw [Dev.powerSteps, hbusy]
  simp only [h.entries, h.waking, List.map_nil, List.foldl_nil, Dev.packageGo_none h'.package, h'.heldDev]
  rfl

/-- A reset that waits lets the controller rest. -/
theorem Dev.powerSteps_waits {d : Dev} (k : Nat) (h : d.OnlyReset) (hr : d.power.reset.isSome = true) (hw : d.resetGo = d) :
    d.powerSteps k = d := by
  induction k with
  | zero => rfl
  | succ k ih => rw [Dev.powerSteps_succ k h hr (by rwa [hw]), hw, ih]

/-- A reset at step 1 waits for a leaf that has a miss under way (R371). -/
theorem Dev.resetGo_waits {d : Dev} {i n : Nat} (hr : d.power.reset = some { site := i, step := 1 }) (hi : d.isolated i = false)
    (hn : n ∈ d.siteLeaves i) (hm : (d.leaf n).misses ≠ []) : d.resetGo = d := by
  have hall : ((d.siteLeaves i).all fun n => !d.flag LEE_STAT.RUN n && (d.leaf n).misses.isEmpty && (d.leaf n).stalled.isNone) = false := by
    rw [List.all_eq_false]
    exact ⟨n, hn, by simp [hm]⟩
  unfold Dev.resetGo
  rw [hr]
  simp [hi, hall]

/-- A reset that starts stops its bough. -/
theorem Dev.resetGo_starts {d : Dev} {i : Nat} (hr : d.power.reset = some { site := i, step := 0 }) (hi : d.isolated i = false)
    (hb : d.bstate i = 0) (h : d.OnlyReset) : d.resetGo = d.stopBough i := by
  have he : d.entryAt i = none := by simp [Dev.entryAt, h.entries]
  unfold Dev.resetGo
  rw [hr]
  simp [hi, hb, he, h.waking]

/-! ### ORDERLY_BOUGH_RESET -/

/-- A reset of RST_CMD has begun. -/
def Dev.rstBusy (d : Dev) (i : Nat) : Dev := (d.put RST_CMD.TARGET i).put RST_CMD.BUSY 1

theorem Dev.rstBusy_rewrites (d : Dev) (i : Nat) : d.Rewrites rstRegs (d.rstBusy i) :=
  (d.rst_put RST_CMD.TARGET i rfl).andThen (Dev.rst_put _ RST_CMD.BUSY 1 rfl)

theorem Dev.busy_rstBusy (d : Dev) (i : Nat) : (d.rstBusy i).flag RST_CMD.BUSY = true := by
  rw [Dev.rstBusy, Dev.flag_put_same _ _ _ _ _ (by decide) (by decide)]
  rfl

theorem Dev.target_rstBusy (d : Dev) {i : Nat} (hi : i < 28) : (d.rstBusy i).get RST_CMD.TARGET = i := by
  rw [Dev.rstBusy, Dev.get_put_apart _ RST_CMD.BUSY RST_CMD.TARGET _ _ _ _ _ (by decide), Dev.get_put_same _ _ _ _ _ (by decide) (by decide)]
  exact Nat.mod_eq_of_lt (hi.trans (by decide))

/-- The reset recorded, with nothing of it done. -/
def Dev.resetAsked (d : Dev) (i : Nat) : Dev := (d.rstBusy i).modPower fun p => { p with reset := some { site := i, step := 0 } }

/-- The fields of a device that a change of RST_CMD and of the controller leaves alone. -/
theorem Dev.resetAsked_reg (d : Dev) (i : Nat) {q : Reg} (hq : q.name ≠ .RST_CMD) : (d.resetAsked i).reg q = d.reg q :=
  (d.rstBusy_rewrites i).reg q fun f hf => by rw [List.mem_singleton.1 hf]; exact hq

theorem Dev.get_of_reg {d d' : Dev} {f : Fld} {u k : Nat} (h : d'.reg ⟨f.reg, u, k⟩ = d.reg ⟨f.reg, u, k⟩) : d'.get f u k = d.get f u k := by
  unfold Dev.get
  rw [h]

theorem Dev.siteLeaves_of_reg {d d' : Dev} (h : ∀ q : Reg, q.name = .SIM_SITEMAP → d'.reg q = d.reg q) (i : Nat) :
    d'.siteLeaves i = d.siteLeaves i := by
  unfold Dev.siteLeaves Dev.boughAt Dev.mapEntry
  rw [h _ rfl]

theorem Dev.isolated_of_reg {d d' : Dev} (h : d'.reg ⟨.FAB_ISO_STAT, 0, 0⟩ = d.reg ⟨.FAB_ISO_STAT, 0, 0⟩) (i : Nat) :
    d'.isolated i = d.isolated i := by
  unfold Dev.isolated
  rw [Dev.get_of_reg h]

variable {s : State} {i n : Nat}

/-- The power controller, asked for an orderly reset of a bough that has a miss under way, stops the bough and waits. -/
theorem Dev.powerGo_resetAsked (d : Dev) (hb : d.powerBusy = false) (hi : d.isolated i = false) (hs : d.bstate i = 0)
    (hn : n ∈ d.siteLeaves i) (hm : (d.leaf n).misses ≠ []) : (d.resetAsked i).powerGo = (d.resetAsked i).stopBough i := by
  obtain ⟨he, hw, hpk, hd⟩ := Dev.onlyReset_of_idle hb
  set a := d.resetAsked i with ha
  have honly : a.OnlyReset := ⟨he, hw, hpk, hd⟩
  have hiso : a.isolated i = false := by rw [Dev.isolated_of_reg (d.resetAsked_reg i (by exact nofun))]; exact hi
  have hstate : a.bstate i = 0 := by
    rw [Dev.bstate, Dev.get_of_reg (d.resetAsked_reg i (by exact nofun))]
    exact hs
  obtain ⟨⟨r, l, hframe⟩, hreg, -⟩ := a.stopBough_spec i
  have hstart := Dev.resetGo_starts (d := a) rfl hiso hstate honly
  have hzreset : (a.stopBough i).power.reset = some { site := i, step := 1 } := by rw [hframe]; rfl
  have hzonly : (a.stopBough i).OnlyReset := by
    constructor <;> rw [hframe]
    exacts [he, hw, hpk, hd]
  have hziso : (a.stopBough i).isolated i = false := by
    rw [Dev.isolated_of_reg (hreg ⟨.FAB_ISO_STAT, 0, 0⟩ (by exact nofun) (by exact nofun)), hiso]
  have hsite : (a.stopBough i).siteLeaves i = d.siteLeaves i := Dev.siteLeaves_of_reg (fun q hq =>
    (hreg q (by rw [hq]; exact nofun) (by rw [hq]; exact nofun)).trans (d.resetAsked_reg i (by rw [hq]; exact nofun))) i
  have hleaf : (a.stopBough i).leaf n = d.leaf n := by
    rw [hframe]
    rfl
  have hwait := Dev.resetGo_waits (n := n) hzreset hziso (by rw [hsite]; exact hn) (by rw [hleaf]; exact hm)
  rw [Dev.powerGo, Dev.powerSteps_succ 7 honly rfl (by rw [hstart]; exact hzonly), hstart]
  exact Dev.powerSteps_waits 7 hzonly (by rw [hzreset]; rfl) hwait

/-- ORDERLY_BOUGH_RESET of a bough that is ACTIVE and reached, as RST_CMD does it. -/
theorem orderlyResetEff_eq (d : Dev) (hp : d.powerBusy = false) (hb : d.flag RST_CMD.BUSY = false) (ha : d.siteActive i = true)
    (hi : d.isolated i = false) (hs : d.bstate i = 0) : orderlyResetEff i d = (d.resetAsked i).powerGo := by
  have hre := d.rstBusy_rewrites i
  have hi' : (d.rstBusy i).isolated i = false := by
    rw [Dev.isolated_of_reg (hre.reg _ fun f hf => by rw [List.mem_singleton.1 hf]; exact nofun), hi]
  have hs' : (d.rstBusy i).bstate i = 0 := by
    rw [Dev.bstate, Dev.get_of_reg (hre.reg _ fun f hf => by rw [List.mem_singleton.1 hf]; exact nofun)]
    exact hs
  have he' : (d.rstBusy i).entryAt i = none := by
    show (d.power.entries.find? fun p => p.1 == i).map (·.2) = none
    rw [(Dev.onlyReset_of_idle hp).entries]
    rfl
  rw [orderlyResetEff, ha, rstCommand_valid d i _ hb]
  dsimp only
  rw [← Dev.rstBusy, if_neg (by simp [hi']), he']
  dsimp only
  rw [if_pos hs']
  rfl

/-- ORDERLY_BOUGH_RESET (R370, R371). -/
theorem orderlyBoughReset_stops (hp : s.dev.powered = true) (hpb : s.dev.powerBusy = false) (hb : s.dev.flag RST_CMD.BUSY = false)
    (ha : s.dev.siteActive i = true) (hi : s.dev.isolated i = false) (hs : s.dev.bstate i = 0) (hn : n ∈ s.dev.siteLeaves i)
    (hm : (s.dev.leaf n).misses ≠ []) :
    ∃ d : Dev, exec (.orderlyBoughReset i) s = .next (s.withDev d) ∧ d.flag RST_CMD.BUSY = true ∧ d.get RST_CMD.TARGET = i
      ∧ d.power.reset = some { site := i, step := 1 } ∧ (∀ k ∈ s.dev.siteLeaves i, d.pstate k = 3)
      ∧ d.mem = s.dev.mem ∧ d.boughs = s.dev.boughs := by
  have heff := (orderlyResetEff_eq s.dev hpb hb ha hi hs).trans (s.dev.powerGo_resetAsked hpb hi hs hn hm)
  obtain ⟨⟨r, l, hframe⟩, hreg, hheld⟩ := (s.dev.resetAsked i).stopBough_spec i
  have hsl : (s.dev.resetAsked i).siteLeaves i = s.dev.siteLeaves i :=
    Dev.siteLeaves_of_reg (fun q hq => s.dev.resetAsked_reg i (by rw [hq]; exact nofun)) i
  rw [hsl] at hheld
  generalize (s.dev.resetAsked i).stopBough i = z at *
  have hrst : ∀ f : Fld, f.reg = .RST_CMD → z.get f = (s.dev.rstBusy i).get f := fun f hf =>
    Dev.get_of_reg (hreg _ (by rw [hf]; exact nofun) (by rw [hf]; exact nofun))
  refine ⟨z, exec_of_powered (f := orderlyResetEff i) rfl hp heff ?_ ?_, ?_, ?_, ?_, hheld, ?_, ?_⟩
  · rw [hframe]; rfl
  · rw [hframe]; rfl
  · rw [Dev.flag, hrst _ rfl]
    exact s.dev.busy_rstBusy i
  · rw [hrst _ rfl, s.dev.target_rstBusy (Dev.lt_of_siteActive ha)]
  · rw [hframe]; rfl
  · rw [hframe]; rfl
  · rw [hframe]; rfl

end Sys2Proof.Machine
end

section
/-!
PROOFS. Forced bough resets (R197, R370, R371): the bough is isolated, held in reset, and its grafts train. What isolation and the reset
of a bough do beside leaves RST_CMD, the bits of the isolated sites, the board and the reset in progress alone.
-/

namespace Sys2Proof.Machine

/-- The registers of a bough reset in progress: RST_CMD, and the bits of the isolated sites. -/
def resetRegs : RegName → Bool
  | .RST_CMD | .FAB_ISO_STAT => true
  | _ => false

theorem resetRegs_of_cdcReg (q : RegName) (h : cdcReg q = true) : resetRegs q = false := by
  unfold cdcReg at h
  split at h
  case h_5 => cases h
  all_goals rfl

theorem Dev.raise_keepsReset (d : Dev) (n : Nat) (i : EvInfo) : d.Stays resetRegs (d.raise n i) := .raise d n i resetRegs_of_cdcReg

/-! ### The groups with a member in the bough break -/

theorem Dev.leeEnter_keepsReset (d : Dev) (n : Nat) (f : Fld) (hf : f.reg = .LEE_STAT) : d.Stays resetRegs (d.leeEnter n f) :=
  (d.leeEnter_rewrites n f hf).stays (by decide)

theorem Dev.stopAfter_keepsReset (d : Dev) (n : Nat) : d.Stays resetRegs (d.stopAfter n) := by
  have h : d.Stays resetRegs (d.modLee n fun e => { e with stopping := false }) := d.modLee_stays n _
  unfold Dev.stopAfter
  dsimp only
  split
  · exact h
  · exact h.trans (Dev.leeEnter_keepsReset _ n _ rfl)

/-- The record of a fault of an engine. -/
def Dev.faultRecord (d : Dev) (n pc : Nat) (f : LeeFault) : Dev :=
  ((((d.put LEE_FAULT.VALID 1 n).put LEE_FAULT.CAUSE f.cause n).put LEE_FAULT.REF f.ref n).put LEE_FAULT.PC pc n).put
    LEE_FAULT_INFO.INFO f.info n

theorem Dev.faultRecord_rewrites (d : Dev) (n pc : Nat) (f : LeeFault) :
    d.Rewrites [LEE_FAULT.VALID, LEE_FAULT.CAUSE, LEE_FAULT.REF, LEE_FAULT.PC, LEE_FAULT_INFO.INFO] (d.faultRecord n pc f) :=
  ((((Dev.Rewrites.put d _ _ n 0).trans (.put _ _ _ _ _)).trans (.put _ _ _ _ _)).trans (.put _ _ _ _ _)).trans (.put _ _ _ _ _)

theorem Dev.leeFault_keepsReset (d : Dev) (n pc : Nat) (f : LeeFault) : d.Stays resetRegs (d.leeFault n pc f) := by
  have hdrain : d.Stays resetRegs (d.modLee n fun e => { e with drain := .none, pipe := [] }) := d.modLee_stays n _
  have henter := (hdrain.trans (Dev.leeEnter_keepsReset _ n LEE_STAT.FAULTED rfl)).trans (.put _ LEE_PC.PC pc n 0 rfl)
  have hrecord := henter.trans ((Dev.faultRecord_rewrites _ n pc f).stays (by decide))
  exact ((hrecord.trans (Dev.setIrq_stays _ ⟨.LEE_IRQ_STAT, 3, 0⟩ 2 LEE_IRQ.TARGET n rfl)).trans (Dev.raise_keepsReset _ _ _)).trans
    (Dev.stopAfter_keepsReset _ n)

theorem Dev.drainCheck_keepsReset (d : Dev) (n : Nat) : d.Stays resetRegs (d.drainCheck n) := by
  unfold Dev.drainCheck
  dsimp only
  split
  · exact .refl d
  · split
    · exact .ite (d.leeFault_keepsReset n _ _)
    · exact .refl d

theorem Dev.breakGroup_keepsReset (d : Dev) (g : Nat) : d.Stays resetRegs (d.breakGroup g) := by
  unfold Dev.breakGroup
  split
  · exact .refl d
  · exact ((Dev.Stays.put d FAB_MG_STAT.BROKEN 1 0 g rfl).trans (Dev.raise_keepsReset _ _ _)).trans
      (.foldl (fun x n => .ite (x.drainCheck_keepsReset n)) _ _)

theorem Dev.breakGroupsOf_keepsReset (d : Dev) (b : Nat) : d.Stays resetRegs (d.breakGroupsOf b) :=
  .foldl (fun x g => .ite (x.breakGroup_keepsReset g)) _ _

/-! ### Entries that fail -/

/-- What the end of an entry leaves of a reset in progress. -/
structure Dev.KeepsReset (d d' : Dev) : Prop where
  board : d'.board = d.board
  unpowered : d'.power.unpowered = d.power.unpowered
  reset : d'.power.reset = d.power.reset
  reg : ∀ q : Reg, resetRegs q.name = true → d'.reg q = d.reg q

namespace Dev.KeepsReset

variable {d d' d'' : Dev}

theorem refl (d : Dev) : d.KeepsReset d := ⟨rfl, rfl, rfl, fun _ _ => rfl⟩

theorem of_stays (h : d.Stays resetRegs d') : d.KeepsReset d' := ⟨h.board, by rw [h.power], by rw [h.power], h.reg⟩

theorem trans (h : d.KeepsReset d') (h' : d'.KeepsReset d'') : d.KeepsReset d'' :=
  ⟨h'.board.trans h.board, h'.unpowered.trans h.unpowered, h'.reset.trans h.reset, fun q hq => (h'.reg q hq).trans (h.reg q hq)⟩

end Dev.KeepsReset

theorem Dev.hsCount_keepsReset (d : Dev) (b : HsBlock) (aborted : Bool) : d.Stays resetRegs (d.hsCount b aborted) := by
  unfold Dev.hsCount
  cases b <;> cases aborted <;> exact .bump _ _ _ _ _ rfl

theorem Dev.hsAborted_keepsReset (d : Dev) (bs : List HsBlock) : d.Stays resetRegs (d.hsAborted bs) :=
  .foldl (fun x b => x.hsCount_keepsReset b true) bs d

theorem Dev.packageFails_keepsReset (d : Dev) (result reason : Nat) : d.KeepsReset (d.packageFails result reason) := by
  have ends : ∀ x : Dev, x.KeepsReset { ((x.put PWR_PKG_CTL.RESULT result).put PWR_PKG_CTL.REASON reason).put PWR_PKG_CTL.STATE 0 with
      power := { x.power with package := none } } := fun x => by
    have hput : x.Stays resetRegs (((x.put PWR_PKG_CTL.RESULT result).put PWR_PKG_CTL.REASON reason).put PWR_PKG_CTL.STATE 0) :=
      ((Dev.Stays.put x _ _ 0 0 rfl).trans (.put _ _ _ _ _ rfl)).trans (.put _ _ _ _ _ rfl)
    exact ⟨rfl, rfl, rfl, hput.reg⟩
  unfold Dev.packageFails
  split
  · exact (Dev.KeepsReset.of_stays (d.hsAborted_keepsReset _)).trans (ends _)
  · exact ends d

theorem Dev.boughDone_keepsReset (d : Dev) (result reason : Nat) : d.Stays resetRegs (d.boughDone result reason) :=
  (((Dev.Stays.put d _ _ 0 0 rfl).trans (.put _ _ _ _ _ rfl)).trans (.put _ _ _ _ _ rfl)).trans (.put _ _ _ _ _ rfl)

theorem Dev.entryFails_keepsReset (d : Dev) (i result reason : Nat) : d.KeepsReset (d.entryFails i result reason) := by
  unfold Dev.entryFails
  split
  · exact .refl d
  · rename_i e _
    have hentry : d.KeepsReset { d.hsAborted e.accepted with
        power := { d.power with entries := d.power.entries.filter fun p => p.1 != i } } :=
      ⟨(d.hsAborted_keepsReset _).board, rfl, rfl, (d.hsAborted_keepsReset _).reg⟩
    dsimp only
    generalize ({ d.hsAborted e.accepted with
        power := { d.power with entries := d.power.entries.filter fun p => p.1 != i } } : Dev) = x at hentry ⊢
    have hstate : d.KeepsReset (x.setBstate i 0) := hentry.trans (.of_stays (.put _ _ _ _ _ rfl))
    generalize x.setBstate i 0 = y at hstate ⊢
    have hl3 : d.KeepsReset (if e.l3 then (y.put L3C_CTL.EN 1 i).put L3C_STAT.FLUSHING 0 i else y) :=
      hstate.trans (.of_stays (.ite ((Dev.Stays.put y _ _ i 0 rfl).trans (.put _ _ _ _ _ rfl))))
    split
    · exact hl3.trans (Dev.packageFails_keepsReset _ _ _)
    · exact hl3.trans (.of_stays (Dev.boughDone_keepsReset _ _ _))

/-! ### Isolation -/

theorem Dev.startPurge_keepsReset (d : Dev) (q b : Nat) (poison software : Bool) : d.Stays resetRegs (d.startPurge q b poison software) :=
  .trans (d' := d.modHome q fun h => { h with purges := h.purges ++ [(b, poison, software)] }) ⟨rfl, rfl, rfl, fun _ _ => rfl⟩
    (.put _ DIR_PURGE.BUSY 1 q 0 rfl)

/-- The exchange windows that an isolated bough has sent are lost, one by one. -/
def Dev.losesWindow (cut e : Dev) (p : Packet) : Dev :=
  match p with
  | .xch m => if cut.senderCut m then e.ackLost m else e
  | _ => e

theorem Dev.losesWindow_keepsReset (cut e : Dev) (p : Packet) : e.Stays resetRegs (cut.losesWindow e p) := by
  unfold Dev.losesWindow
  split
  · exact .ite (e.ackLost_stays _)
  · exact .refl e

/-- What follows the bit of an isolated site. -/
def Dev.cutOff (d : Dev) (b i : Nat) : Dev :=
  let d := d.raiseSevere (26 + i)
  let d := d.packets.foldl d.losesWindow (d.lose (d.sentByBough b))
  let d := (List.range 4).foldl (fun d q => d.startPurge q b true false) d
  ((d.dropTrace i).breakGroupsOf b).entryFails i 2 10

theorem Dev.cutOff_keepsReset (d : Dev) (b i : Nat) : d.KeepsReset (d.cutOff b i) := by
  have hlost := (d.raise_keepsReset (26 + i) { severe := true }).trans ((Dev.lose_stays _ ((d.raiseSevere (26 + i)).sentByBough b)).trans
    (.foldl (fun e p => Dev.losesWindow_keepsReset (d.raiseSevere (26 + i)) e p) (d.raiseSevere (26 + i)).packets _))
  have hpurge := hlost.trans (.foldl (fun e q => e.startPurge_keepsReset q b true false) (List.range 4) _)
  have htail := hpurge.trans ((Dev.dropTrace_stays _ i).trans (Dev.breakGroupsOf_keepsReset _ b))
  exact (Dev.KeepsReset.of_stays htail).trans (Dev.entryFails_keepsReset _ i 2 10)

theorem Dev.isolate_cutOff (d : Dev) (i : Nat) (ha : d.siteActive i = true) (hi : d.isolated i = false) :
    d.isolate i = (d.put FAB_ISO_STAT.ISOLATED (setBit (d.get FAB_ISO_STAT.ISOLATED) i true)).cutOff (d.boughAt i) i := by
  unfold Dev.isolate
  rw [ha, hi]
  rfl

/-- Isolating an active site, whatever it has in progress: its bit is set, and the reset in progress and RST_CMD stay. -/
theorem Dev.isolate_isolates (d : Dev) (i : Nat) (ha : d.siteActive i = true) : (d.isolate i).isolated i = true
    ∧ (d.isolate i).board = d.board ∧ (d.isolate i).power.unpowered = d.power.unpowered
    ∧ ∀ q : Reg, q.name = .RST_CMD → (d.isolate i).reg q = d.reg q := by
  cases hi : d.isolated i with
  | true =>
    have heq : d.isolate i = d := by simp [Dev.isolate, hi]
    rw [heq]
    exact ⟨hi, rfl, rfl, fun _ _ => rfl⟩
  | false =>
    rw [d.isolate_cutOff i ha hi]
    have hcut := (d.put FAB_ISO_STAT.ISOLATED (setBit (d.get FAB_ISO_STAT.ISOLATED) i true)).cutOff_keepsReset (d.boughAt i) i
    refine ⟨?_, hcut.board, hcut.unpowered, fun q hq => ?_⟩
    · rw [Dev.isolated_of_reg (hcut.reg _ rfl)]
      exact d.isolated_put i (Dev.lt_of_siteActive ha)
    · rw [hcut.reg q (by rw [hq]; rfl)]
      exact Dev.reg_put_name _ _ _ _ _ _ (by rw [hq]; exact nofun)

end Sys2Proof.Machine
end

section
/-!
PROOFS. A bough held in reset (R208, R371, R372): what is on its graft is flushed, its registers are reset, and its grafts train.
-/

namespace Sys2Proof.Machine

/-! ### What the trunk had forwarded to the bough -/

theorem Dev.gateLog_keepsReset (d : Dev) (kind i addr : Nat) : d.Stays resetRegs (d.gateLog kind i addr) := by
  unfold Dev.gateLog
  split
  · exact .refl d
  · exact (((Dev.Stays.put d _ _ 0 0 rfl).trans (.put _ _ _ _ _ rfl)).trans (.put _ _ _ _ _ rfl)).trans (.put _ _ _ _ _ rfl)

theorem Dev.takeAccess_stays {K : RegName → Bool} (d : Dev) (req : Requester) (addr : Nat) : d.Stays K (d.takeAccess req addr) :=
  ⟨rfl, rfl, rfl, fun _ _ => rfl⟩

theorem Dev.answerAbsent_keepsReset (d : Dev) (i : Nat) (req : Requester) (addr : Nat) (write : Bool) (kind : Nat) :
    d.Stays resetRegs (d.answerAbsent i req addr write kind) :=
  (((d.takeAccess_stays req addr).trans (Dev.gateLog_keepsReset _ _ _ _)).trans (Dev.raise_keepsReset _ _ _)).trans (Dev.answerTo_stays _ _ _ _ _)

theorem Dev.take_stays {K : RegName → Bool} (d : Dev) (p : Packet) : d.Stays K (d.take p) := ⟨rfl, rfl, rfl, fun _ _ => rfl⟩

theorem Dev.send_stays {K : RegName → Bool} (d : Dev) (p : Packet) : d.Stays K (d.send p) := ⟨rfl, rfl, rfl, fun _ _ => rfl⟩

theorem Dev.ackXch_keepsReset (d : Dev) (m : XchMsg) (o : XchOutcome) : d.Stays resetRegs (d.ackXch m o) := by
  unfold Dev.ackXch
  split
  · exact .emit d _
  · unfold Dev.sendSpan
    split
    · exact d.emitSpan_stays _
    · exact .bump d SPN_CNT.TTL_DROP 1 _ 0 rfl

theorem Dev.proxyTreats_keepsReset (d : Dev) (i : Nat) (p : SitePkt) : d.Stays resetRegs (d.proxyTreats i p) := by
  have counted : ∀ (x : Dev) (f : Fld), f.reg = .FAB_PROXY → x.Stays resetRegs (x.bump f 1 0 i) := fun x f hf =>
    .bump x f 1 0 i (by rw [hf]; rfl)
  cases p with
  | regRead req addr => exact (counted d _ rfl).trans (Dev.answerAbsent_keepsReset _ _ _ _ _ _)
  | regWrite req addr size value =>
    exact ((d.take_stays _).trans (counted _ _ rfl)).trans (Dev.answerAbsent_keepsReset _ _ _ _ _ _)
  | aperture req leaf off size write => exact (counted d _ rfl).trans (Dev.answerAbsent_keepsReset _ _ _ _ _ _)
  | snoop line k => exact (counted d _ rfl).trans (Dev.send_stays _ _)
  | grantOrData line => exact d.send_stays _
  | wbAck line => exact .refl d
  | send m => exact ((d.take_stays _).trans (counted _ _ rfl)).trans (Dev.ackXch_keepsReset _ _ _)
  | msi h f k => exact ((d.take_stays _).trans (counted _ _ rfl)).trans (Dev.raise_keepsReset _ _ _)
  | barrierNotify n => exact d.take_stays _
  | ringSync v => exact d.take_stays _
  | handshake blk => exact (d.take_stays _).trans (Dev.send_stays _ _)

theorem Dev.flushGraft_keepsReset (d : Dev) (i : Nat) : d.Stays resetRegs (d.flushGraft i) := by
  refine .trans (.trans (d.lose_stays _) (.foldl (fun x p => ?_) _ _)) (.trans (d' := Dev.dropPulses _ (.bough i 0)) ⟨rfl, rfl, rfl, fun _ _ => rfl⟩
    ⟨rfl, rfl, rfl, fun _ _ => rfl⟩)
  split
  · exact x.proxyTreats_keepsReset i _
  · exact .refl x

/-! ### The registers of the bough -/

/-- The registers that a bough reset keeps: those that are not the bough's, and some of it. -/
def siteKept (i : Nat) (q : Reg) : Bool := !(siteBlock q.name.block && q.u == i) || keptOverReset q.name

/-- The two registers. -/
theorem resetRegs_eq {q : RegName} (h : resetRegs q = true) : q = .RST_CMD ∨ q = .FAB_ISO_STAT := by
  unfold resetRegs at h
  split at h
  · exact .inl rfl
  · exact .inr rfl
  · cases h

theorem siteKept_of_resetRegs (i : Nat) {q : Reg} (h : resetRegs q.name = true) : siteKept i q = true := by
  obtain hq | hq := resetRegs_eq h <;> simp [siteKept, hq, RegName.block, siteBlock]

theorem leeKept_of_resetRegs (n : Nat) {q : Reg} (h : resetRegs q.name = true) : leeKept n q = true := by
  obtain hq | hq := resetRegs_eq h <;> simp [leeKept, hq, RegName.block]

theorem Dev.resetSiteRegs_keepsReset (d : Dev) (i : Nat) : d.Stays resetRegs (d.resetSiteRegs i) :=
  ⟨rfl, rfl, rfl, fun q hq => KMap.find_filter q.reset (siteKept i) d.regs q (siteKept_of_resetRegs i hq)⟩

theorem Dev.setLee_stays {K : RegName → Bool} (d : Dev) (n : Nat) (e : Lee) : d.Stays K (d.setLee n e) := ⟨rfl, rfl, rfl, fun _ _ => rfl⟩

theorem Dev.resetLeeRegs_keepsReset (d : Dev) (n : Nat) : d.Stays resetRegs (d.resetLeeRegs n) :=
  ⟨rfl, rfl, rfl, fun q hq => by
    have hne : q.name ≠ .LEE_STAT := fun h => absurd (h ▸ hq) nofun
    rw [Dev.reg_resetLeeRegs d n hne, if_pos (leeKept_of_resetRegs n hq)]⟩

theorem Dev.leeReset_keepsReset (d : Dev) (n : Nat) : d.Stays resetRegs (d.leeReset n) :=
  ((d.setLee_stays n (d.resetLee n)).trans (Dev.resetLeeRegs_keepsReset _ n)).trans ((Dev.loadBar_rewrites _ n).stays (by decide))

/-- A leaf of a bough in reset. -/
theorem Dev.leafHeldInReset_stays (d : Dev) (n : Nat) : d.Stays resetRegs ((d.setLeaf n {}).setPstate n 3) :=
  (d.setLeaf_stays n {}).trans ((Dev.setPstate_rewrites _ n 3).stays (by decide))

/-- An engine of it, its store cleared. -/
theorem Dev.leeCleared_stays (d : Dev) (n : Nat) :
    d.Stays resetRegs ((d.modLee n fun e => { e with store := [], valid := [] }).leeReset n) :=
  (d.modLee_stays n _).trans (Dev.leeReset_keepsReset _ n)

theorem Dev.setBough_stays {K : RegName → Bool} (d : Dev) (b : Nat) (x : Bough) : d.Stays K (d.setBough b x) := ⟨rfl, rfl, rfl, fun _ _ => rfl⟩

/-- The caches, registers and leaves of a bough in reset. -/
def Dev.leavesCleared (d : Dev) (i : Nat) : Dev :=
  (d.siteLeaves i).foldl (fun d n => (d.setLeaf n {}).setPstate n 3) (((d.dropTrace i).setBough (d.boughAt i) {}).resetSiteRegs i)

theorem Dev.leavesCleared_keepsReset (d : Dev) (i : Nat) : d.Stays resetRegs (d.leavesCleared i) :=
  (((d.dropTrace_stays i).trans (Dev.setBough_stays _ _ _)).trans (Dev.resetSiteRegs_keepsReset _ i)).trans
    (.foldl (fun x n => x.leafHeldInReset_stays n) (d.siteLeaves i) _)

/-- Its engines, where there are any. -/
def Dev.leesCleared (d : Dev) (leaves : List Nat) : Dev :=
  if d.hasLee then leaves.foldl (fun d n => (d.modLee n fun e => { e with store := [], valid := [] }).leeReset n) d else d

theorem Dev.leesCleared_keepsReset (d : Dev) (leaves : List Nat) : d.Stays resetRegs (d.leesCleared leaves) :=
  .ite (.foldl (fun x n => x.leeCleared_stays n) leaves d)

/-- The ring-count copy of a bough in reset, and the home timeout counts of the bough, are clear. -/
def Dev.copyCleared (d : Dev) (i b : Nat) : Dev :=
  let d := (((d.setCopyInfo i {}).setCopy i 0).put TIM_SITE.LOCKED 0 0 i).put TIM_SITE.SLEW 0 0 i
  (List.range 4).foldl (fun d q => d.put (tmoField b).2 0 q (tmoField b).1) d

theorem Dev.copyCleared_keepsReset (d : Dev) (i b : Nat) : d.Stays resetRegs (d.copyCleared i b) := by
  have hcopy : d.Stays resetRegs ((d.setCopyInfo i {}).setCopy i 0) := ⟨rfl, rfl, rfl, fun _ _ => rfl⟩
  exact ((hcopy.trans (.put _ TIM_SITE.LOCKED 0 0 i rfl)).trans (.put _ TIM_SITE.SLEW 0 0 i rfl)).trans
    (.foldl (fun x q => .put x _ _ _ _ rfl) _ _)

/-- The requests to turn leaves off are withdrawn. -/
def Dev.leafOffDropped (d : Dev) (leaves : List Nat) : Dev :=
  (d.withdraw (leaves.map .leaf)).modPower fun p => { p with
    leafOff := p.leafOff.filter fun n => !leaves.contains n
    leafDelayed := p.leafDelayed.filter fun n => !leaves.contains n }

theorem Dev.leafOffDropped_keepsReset (d : Dev) (leaves : List Nat) : d.KeepsReset (d.leafOffDropped leaves) := ⟨rfl, rfl, rfl, fun _ _ => rfl⟩

/-- A bough reset, part by part. -/
theorem Dev.resetBough_eq (d : Dev) (i : Nat) : d.resetBough i =
    ((((((d.leavesCleared i).leesCleared (d.siteLeaves i)).breakGroupsOf (d.boughAt i)).copyCleared i (d.boughAt i)).flushGraft i).leafOffDropped
      (d.siteLeaves i)) := rfl

/-- A bough reset leaves the reset in progress, RST_CMD and the bits of the isolated sites alone. -/
theorem Dev.resetBough_keepsReset (d : Dev) (i : Nat) : d.KeepsReset (d.resetBough i) := by
  rw [Dev.resetBough_eq]
  exact (Dev.KeepsReset.of_stays (((((d.leavesCleared_keepsReset i).trans (Dev.leesCleared_keepsReset _ _)).trans
    (Dev.breakGroupsOf_keepsReset _ _)).trans (Dev.copyCleared_keepsReset _ _ _)).trans (Dev.flushGraft_keepsReset _ _))).trans
      (Dev.leafOffDropped_keepsReset _ _)

/-! ### The grafts train -/

/-- One end of a graft that starts to train. -/
def Dev.endTrains (d : Dev) (gen : Nat) (e : GraftEnd) : Dev :=
  (((d.gput e GRF_STAT.GEN GRFB_STAT.GEN gen).gput e GRF_STAT.STATE GRFB_STAT.STATE 1).gput e GRF_STAT.WIDTH GRFB_STAT.WIDTH 0).modSide e
    fun s => { crc := s.crc, last := s.last }

theorem Dev.endTrains_stays {K : RegName → Bool} (d : Dev) (gen : Nat) (e : GraftEnd)
    (hK : K .GRF_STAT = false) (hK' : K .GRFB_STAT = false) : d.Stays K (d.endTrains gen e) := by
  have hput : ∀ (x : Dev) (t b : Fld) (v : Nat), t.reg = .GRF_STAT → b.reg = .GRFB_STAT → x.Stays K (x.gput e t b v) := fun x t b v ht hb =>
    (x.gput_rewrites e t b v).stays fun f hf => by
      simp only [List.mem_cons, List.not_mem_nil, or_false] at hf
      obtain rfl | rfl := hf
      · rw [ht, hK]
      · rw [hb, hK']
  exact (((hput d _ _ _ rfl rfl).trans (hput _ _ _ _ rfl rfl)).trans (hput _ _ _ _ rfl rfl)).trans (Dev.modSide_stays _ _ _)

/-- The end of a bough does not touch the trunk's registers. -/
theorem Dev.endTrains_bough_stays {K : RegName → Bool} (d : Dev) (gen i p : Nat) (hK : K .GRFB_STAT = false) :
    d.Stays K (d.endTrains gen (.bough i p)) :=
  (((Dev.Stays.put d GRFB_STAT.GEN gen i p hK).trans (.put _ GRFB_STAT.STATE 1 i p hK)).trans (.put _ GRFB_STAT.WIDTH 0 i p hK)).trans
    (Dev.modSide_stays _ _ _)

/-- The state of an end that trains. -/
theorem Dev.gState_endTrains (d : Dev) (gen : Nat) (e : GraftEnd) : (d.endTrains gen e).gState e = 1 := by
  show Dev.gget (Dev.gput _ e GRF_STAT.WIDTH GRFB_STAT.WIDTH 0) e GRF_STAT.STATE GRFB_STAT.STATE = 1
  rw [(Dev.gput_rewrites _ e GRF_STAT.WIDTH GRFB_STAT.WIDTH 0).gget _ _ _ (by decide) (by decide), Dev.gget_gput_same _ _ _ (by decide)]
  rfl

theorem Dev.startTraining_eq (d : Dev) (g : GraftEnd) : d.startTraining g =
    (d.endTrains ((d.gget g.auth GRF_STAT.GEN GRFB_STAT.GEN + 1) % 256) g.auth).endTrains
      ((d.gget g.auth GRF_STAT.GEN GRFB_STAT.GEN + 1) % 256) g.auth.peer := rfl

theorem Dev.startTraining_keepsReset (d : Dev) (g : GraftEnd) : d.Stays resetRegs (d.startTraining g) := by
  rw [Dev.startTraining_eq]
  exact (d.endTrains_stays _ _ rfl rfl).trans (Dev.endTrains_stays _ _ _ rfl rfl)

/-- The trunk's graft to a bough that starts to train. -/
theorem Dev.gState_startTraining (d : Dev) (i : Nat) : (d.startTraining (.trunk i)).gState (.trunk i) = 1 := by
  rw [Dev.startTraining_eq]
  have hpeer : ∀ (x : Dev) (gen : Nat), (x.endTrains gen (.bough i 0)).gState (.trunk i) = x.gState (.trunk i) := fun x gen =>
    (x.endTrains_bough_stays (K := fun q => q == .GRF_STAT) gen i 0 rfl).get GRF_STAT.STATE i 0 rfl
  exact (hpeer _ _).trans (d.gState_endTrains _ _)

/-- A lateral that starts to train leaves the trunk's grafts alone. -/
theorem Dev.startTraining_lateral_stays (d : Dev) (i : Nat) : d.Stays (fun q => q == .GRF_STAT) (d.startTraining (.bough i 2)) := by
  rw [Dev.startTraining_eq]
  exact (d.endTrains_bough_stays _ i 2 rfl).trans (Dev.endTrains_bough_stays _ _ (i + 1) 1 rfl)

/-- A lateral of a site with an active neighbour trains. -/
def Dev.trainLateral (d : Dev) (i p : Nat) : Dev := if d.endExists (.bough i p) then d.startTraining (GraftEnd.bough i p).auth else d

theorem Dev.trainSite_eq (d : Dev) (i : Nat) : d.trainSite i = ((d.startTraining (.trunk i)).trainLateral i 1).trainLateral i 2 := rfl

theorem Dev.trainLateral_keepsReset (d : Dev) (i p : Nat) : d.Stays resetRegs (d.trainLateral i p) := .ite (d.startTraining_keepsReset _)

theorem Dev.trainSite_keepsReset (d : Dev) (i : Nat) : d.Stays resetRegs (d.trainSite i) := by
  rw [Dev.trainSite_eq]
  exact ((d.startTraining_keepsReset _).trans (Dev.trainLateral_keepsReset _ i 1)).trans (Dev.trainLateral_keepsReset _ i 2)

theorem Dev.gState_trainSite (d : Dev) (i : Nat) : (d.trainSite i).gState (.trunk i) = 1 := by
  have h1 : ∀ x : Dev, x.Stays (fun q => q == .GRF_STAT) (x.trainLateral i 1) := fun x => .ite (x.startTraining_lateral_stays (i - 1))
  have h2 : ∀ x : Dev, x.Stays (fun q => q == .GRF_STAT) (x.trainLateral i 2) := fun x => .ite (x.startTraining_lateral_stays i)
  rw [Dev.trainSite_eq]
  exact (((h1 _).trans (h2 _)).get GRF_STAT.STATE i 0 rfl).trans (d.gState_startTraining i)

/-! ### A forced reset -/

/-- The gate of a bough in reset is closed, and the reset is at its training. -/
def Dev.gateHeld (d : Dev) (o : ResetOp) : Dev :=
  ((if (d.gate o.site).inReset then d else d.setGate o.site { closed := true, inReset := true }).put FAB_GATE_STAT.CLOSED (setBit
    ((if (d.gate o.site).inReset then d else d.setGate o.site { closed := true, inReset := true }).get FAB_GATE_STAT.CLOSED) o.site true)).modPower
      fun p => { p with reset := some { o with step := 5 } }

theorem Dev.gateHeld_spec (d : Dev) (o : ResetOp) : (d.gateHeld o).board = d.board
    ∧ (d.gateHeld o).power = { d.power with reset := some { o with step := 5 } }
    ∧ ∀ q : Reg, q.name ≠ .FAB_GATE_STAT → (d.gateHeld o).reg q = d.reg q := by
  have hgate : d.Stays (fun _ => true) (if (d.gate o.site).inReset then d else d.setGate o.site { closed := true, inReset := true }) := by
    split
    · exact .refl d
    · exact ⟨rfl, rfl, rfl, fun _ _ => rfl⟩
  unfold Dev.gateHeld
  generalize (if (d.gate o.site).inReset then d else d.setGate o.site { closed := true, inReset := true }) = x at hgate ⊢
  refine ⟨hgate.board, ?_, fun q hq => ?_⟩
  · show ({ x.power with reset := some { o with step := 5 } } : Power) = _
    rw [hgate.power]
  · exact (Dev.reg_put_name _ _ _ _ _ _ hq).trans (hgate.reg q rfl)

theorem Dev.holdReset_eq (d : Dev) (o : ResetOp) : d.holdReset o = ((d.gateHeld o).resetBough o.site).trainSite o.site := rfl

/-- A bough held in reset. -/
theorem Dev.holdReset_spec (d : Dev) (o : ResetOp) : (d.holdReset o).gState (.trunk o.site) = 1
    ∧ (d.holdReset o).board = d.board ∧ (d.holdReset o).power.unpowered = d.power.unpowered
    ∧ (d.holdReset o).power.reset = some { o with step := 5 }
    ∧ ∀ q : Reg, resetRegs q.name = true → (d.holdReset o).reg q = d.reg q := by
  obtain ⟨hboard, hpower, hreg⟩ := d.gateHeld_spec o
  have hkeeps := ((d.gateHeld o).resetBough_keepsReset o.site).trans (.of_stays (Dev.trainSite_keepsReset _ o.site))
  have hstate := ((d.gateHeld o).resetBough o.site).gState_trainSite o.site
  rw [Dev.holdReset_eq]
  generalize ((d.gateHeld o).resetBough o.site).trainSite o.site = x at hkeeps hstate ⊢
  refine ⟨hstate, hkeeps.board.trans hboard, ?_, ?_, fun q hq => (hkeeps.reg q hq).trans (hreg q fun h => absurd (h ▸ hq) nofun)⟩
  · rw [hkeeps.unpowered, hpower]
  · rw [hkeeps.reset, hpower]

/-- A forced reset: its bough is isolated, in reset, and its graft trains. -/
theorem Dev.forceReset_spec (d : Dev) (o : ResetOp) (ha : d.siteActive o.site = true) : (d.forceReset o).isolated o.site = true
    ∧ (d.forceReset o).power.reset = some { o with step := 5, forced := true } ∧ (d.forceReset o).gState (.trunk o.site) = 1
    ∧ (d.forceReset o).board = d.board ∧ (d.forceReset o).power.unpowered = d.power.unpowered
    ∧ ∀ q : Reg, q.name = .RST_CMD → (d.forceReset o).reg q = d.reg q := by
  obtain ⟨hiso, hboard, hunpowered, hrst⟩ := d.isolate_isolates o.site ha
  obtain ⟨hstate, hboard', hunpowered', hreset, hreg⟩ := (d.isolate o.site).holdReset_spec { o with forced := true }
  refine ⟨?_, hreset, hstate, hboard'.trans hboard, hunpowered'.trans hunpowered, fun q hq => (hreg q (by rw [hq]; rfl)).trans (hrst q hq)⟩
  rw [Dev.forceReset, Dev.isolated_of_reg (hreg _ rfl), hiso]

variable {s : State} {i : Nat}

/-- BOUGH_RESET_ESCALATE (R371). -/
theorem boughResetEscalate_forces (o : ResetOp) (hp : s.dev.powered = true) (ho : s.dev.power.reset = some o) (h5 : o.step < 5)
    (ha : s.dev.siteActive o.site = true) :
    ∃ d : Dev, exec .boughResetEscalate s = .next (s.withDev d) ∧ d.isolated o.site = true
      ∧ d.power.reset = some { o with step := 5, forced := true, escalated := true } ∧ d.gState (.trunk o.site) = 1 := by
  obtain ⟨hiso, hreset, hstate, hboard, hunpowered, -⟩ := s.dev.forceReset_spec { o with escalated := true } ha
  have heff : resetEscalateEff s.dev = s.dev.forceReset { o with escalated := true } := by simp [resetEscalateEff, ho, h5]
  exact ⟨_, exec_of_powered (f := resetEscalateEff) rfl hp heff hboard hunpowered, hiso, hreset, hstate⟩

/-- FORCED_BOUGH_RESET (R370, R371). -/
theorem forcedBoughReset_forces (hp : s.dev.powered = true) (hb : s.dev.flag RST_CMD.BUSY = false) (ha : s.dev.siteActive i = true)
    (hwaking : i ∉ s.dev.power.waking) (hwake : i ∉ s.dev.power.wake) :
    ∃ d : Dev, exec (.forcedBoughReset i) s = .next (s.withDev d) ∧ d.flag RST_CMD.BUSY = true ∧ d.isolated i = true
      ∧ d.power.reset = some { site := i, step := 5, forced := true } ∧ d.gState (.trunk i) = 1 := by
  have ha' : (s.dev.rstBusy i).siteActive i = true := by
    rw [Dev.siteActive_of_rewrites (s.dev.rstBusy_rewrites i) (by decide), ha]
  obtain ⟨hiso, hreset, hstate, hboard, hunpowered, hrst⟩ := (s.dev.rstBusy i).forceReset_spec { site := i, step := 5 } ha'
  have hnone : ((s.dev.rstBusy i).power.waking.contains i || (s.dev.rstBusy i).power.wake.contains i) = false := by
    rw [(s.dev.rstBusy_rewrites i).rest]
    simp [hwaking, hwake]
  have heff : forcedResetEff i s.dev = (s.dev.rstBusy i).forceReset { site := i, step := 5 } := by
    rw [forcedResetEff, ha, rstCommand_valid s.dev i _ hb]
    exact congrArg (fun x : Dev => x.forceReset { site := i, step := 5 }) (if_neg (by rw [← Dev.rstBusy, hnone]; exact nofun))
  refine ⟨_, exec_of_powered (f := forcedResetEff i) rfl hp heff hboard hunpowered, ?_, hiso, hreset, hstate⟩
  rw [Dev.flag, Dev.get_of_reg (hrst _ rfl)]
  exact s.dev.busy_rstBusy i

end Sys2Proof.Machine

namespace Sys2Proof.Machine

/-- Settles O54, clause by clause: clocks, the resets of a bough, of a leaf and of an engine, and ageing. -/
theorem clocksResetsAndAgeing : Obligations.ClocksResetsAndAgeing := by
  unfold Obligations.ClocksResetsAndAgeing
  refine ⟨fun _ i mask hp ha hm => clockRequest_spec i mask hp ha hm, fun s n hp hl hd hs hm => ?_,
    fun _ i hp ha hl => boughPllLoss_stops i hp ha hl, fun s hp hl => ?_,
    fun _ i n hp hpb hb ha hi hs hn hm => orderlyBoughReset_stops hp hpb hb ha hi hs hn hm,
    fun _ o hp ho h5 ha => boughResetEscalate_forces o hp ho h5 ha,
    fun _ i hp hb ha hwaking hwake => forcedBoughReset_forces hp hb ha hwaking hwake, fun s n hp hb hn hon hps => ?_,
    fun _ n hp hb hn hl hon => leeReset_idles hp hb hn hl hon, fun _ c hp hc => reset_invalid c hp hc, fun s c hp hb hc => ?_,
    fun _ x m gb ros reps hp hx hmeas hm hgb h20 => ageMeasure_spec x m gb ros reps hp hx hmeas hm hgb h20,
    fun _ x hp hx => guardbandSettle_measures x hp hx⟩
  · obtain ⟨hdue, hpst, hfic, hothers⟩ := s.dev.movedToPll_spec n rfl
    exact ⟨_, clockSwitch_moves n hp hl hd hs hm, (s.dev.movedToPll_rewrites _ _).rest, hdue, hpst, hfic, hothers⟩
  · obtain ⟨hexec, hafter⟩ := trunkPllLoss_resets hp hl
    exact ⟨_, hexec, hafter⟩
  · obtain ⟨d, hexec, hdone, hstatus, hpst, hreset, hothers, hmem, hlees⟩ := leafReset_restarts hp hb hn hon hps
    refine ⟨d, hexec, hdone, hstatus, hpst, hreset.pc, hreset.mode, hreset.tlb, ?_, ?_, ?_, ?_, hreset.misses, hothers, hmem, hlees⟩
    all_goals rw [hreset.csr _ (by decide)]; rfl
  · obtain ⟨hre, hbusy, htrunk, hsites⟩ := s.dev.replan_spec hb
    exact ⟨_, replan_measures c hp hb hc, hre.rest, hbusy, htrunk, hsites⟩

end Sys2Proof.Machine
end

section
/-!
PROOFS. Accesses of a leaf up to its caches (R58, R73): what the mapping of an access and the count of its lookups leave, and the leaf
instructions FENCE.I and WFI.
-/

namespace Sys2Proof.Machine

/-! ### The core of a leaf -/

/-- The registers of a leaf that the accounting of its accesses leaves alone. -/
structure Leaf.SameCore (l l' : Leaf) : Prop where
  pc : l'.pc = l.pc
  x : l'.x = l.x
  mode : l'.mode = l.mode
  misses : l'.misses = l.misses

namespace Leaf.SameCore

variable {l l' l'' : Leaf}

theorem refl (l : Leaf) : l.SameCore l := ⟨rfl, rfl, rfl, rfl⟩

theorem trans (h : l.SameCore l') (h' : l'.SameCore l'') : l.SameCore l'' :=
  ⟨h'.pc.trans h.pc, h'.x.trans h.x, h'.mode.trans h.mode, h'.misses.trans h.misses⟩

theorem of_counts (h : l.Counts l') : l.SameCore l' := by
  constructor <;> rw [h.rest]

theorem of_csrTlb (h : l.onlyCsrTlb l') : l.SameCore l' := by
  obtain ⟨c, t, rfl⟩ := h
  exact ⟨rfl, rfl, rfl, rfl⟩

end Leaf.SameCore

/-! ### Accounting: TLBs, counters and free values -/

/-- A change of one leaf's counters and TLBs, of the L3's counters and of the count of free values. -/
structure Dev.Accounts (d : Dev) (n : Nat) (d' : Dev) : Prop where
  rest : d' = { d with regs := d'.regs, leaves := d'.leaves, free := d'.free }
  reg : ∀ q : Reg, q.name ≠ .L3C_CNT → d'.reg q = d.reg q
  others : ∀ m, m ≠ n → d'.leaf m = d.leaf m
  own : (d.leaf n).SameCore (d'.leaf n)

namespace Dev.Accounts

variable {d d' d'' : Dev} {n : Nat}

theorem refl (d : Dev) (n : Nat) : d.Accounts n d := ⟨rfl, fun _ _ => rfl, fun _ _ => rfl, .refl _⟩

theorem trans (h : d.Accounts n d') (h' : d'.Accounts n d'') : d.Accounts n d'' where
  rest := by rw [h'.rest, h.rest]
  reg := fun q hq => (h'.reg q hq).trans (h.reg q hq)
  others := fun m hm => (h'.others m hm).trans (h.others m hm)
  own := h.own.trans h'.own

theorem of_mapsOnly (h : d.MapsOnly n d') : d.Accounts n d' where
  rest := by rw [h.rest]
  reg := fun q _ => by rw [h.rest]; rfl
  others := h.others
  own := .of_csrTlb h.own

theorem modLeaf (d : Dev) (n : Nat) {f : Leaf → Leaf} (hf : ∀ l : Leaf, l.SameCore (f l)) : d.Accounts n (d.modLeaf n f) where
  rest := rfl
  reg := fun _ _ => rfl
  others := fun _ hm => d.leaf_modLeaf_other f hm
  own := by
    rw [Dev.leaf_modLeaf]
    exact hf _

theorem counted (d : Dev) (n code : Nat) : d.Accounts n (d.modLeaf n fun l => l.countEvent code) :=
  modLeaf d n fun l => .of_counts (.countEvent l code 1)

theorem l3Count (d : Dev) (n b i : Nat) : d.Accounts n (d.l3Count b i) where
  rest := rfl
  reg := fun _ hq => Dev.reg_put_name _ _ _ _ _ _ hq
  others := fun _ _ => rfl
  own := .refl _

theorem stays (h : d.Accounts n d') : d.Stays (fun q => q != .L3C_CNT) d' where
  mem := by rw [h.rest]
  board := by rw [h.rest]
  power := by rw [h.rest]
  reg := fun q hq => h.reg q (bne_iff_ne.1 hq)

/-- The caches are as they were. -/
theorem bough (h : d.Accounts n d') (b : Nat) : d'.bough b = d.bough b := by rw [h.rest]; rfl

end Dev.Accounts

/-- The site of a bough stands in the site map. -/
theorem Dev.boughSite_of_stays {K : RegName → Bool} {d d' : Dev} (h : d.Stays K d') (hK : K .SIM_SITEMAP = true) (b : Nat) :
    d'.boughSite b = d.boughSite b := by
  have he (s : Nat) : d'.mapEntry s = d.mapEntry s := by unfold Dev.mapEntry; rw [h.reg _ hK]
  simp only [Dev.boughSite, Dev.siteOf, he]

theorem Dev.Accounts.l3On {d d' : Dev} {n : Nat} (h : d.Accounts n d') (b : Nat) : d'.l3On b = d.l3On b := by
  simp only [Dev.l3On, Dev.boughSite_of_stays h.stays rfl]
  rw [h.stays.flag _ _ _ rfl, h.stays.flag _ _ _ rfl]

/-- A line can be served as before. -/
theorem Dev.Accounts.canServe {d d' : Dev} {n : Nat} (h : d.Accounts n d') (b line : Nat) (w : Bool) :
    d'.canServe b line w = d.canServe b line w := by
  simp only [Dev.canServe, h.bough, h.l3On]

/-- The lookups of an access are counted in counters alone. -/
theorem Dev.countLookup_accounts (d : Dev) (b n line : Nat) (fetch write l1 : Bool) : d.Accounts n (d.countLookup b n line fetch write l1) := by
  unfold Dev.countLookup
  dsimp only
  split
  · exact .refl d n
  · have hl1 : d.Accounts n (if l1 then d.modLeaf n fun x => x.countEvent (if fetch then 0x10 else 0x11) else d) := by
      split
      · exact .counted d n _
      · exact .refl d n
    generalize (if l1 then d.modLeaf n fun x => x.countEvent (if fetch then 0x10 else 0x11) else d) = e at hl1 ⊢
    split
    · exact hl1
    · have hl2 := hl1.trans ((Dev.Accounts.l3Count e n b 0).trans (.counted _ n 0x12))
      split
      · exact hl2
      · exact hl2.trans ((Dev.Accounts.l3Count _ n b 1).trans (.counted _ n 0x13))

/-! ### The mapping of an access -/

theorem Dev.MapsOnly.trans {d d' d'' : Dev} {n : Nat} (h : d.MapsOnly n d') (h' : d'.MapsOnly n d'') : d.MapsOnly n d'' where
  rest := by rw [h'.rest, h.rest]
  others := fun m hm => (h'.others m hm).trans (h.others m hm)
  own := h.own.trans h'.own

/-- A failed mapping gives no access. -/
theorem Dev.mapFailed_ne_ok (d : Dev) (n : Nat) (kind : AccKind) (va : Word) (f : SvFail) (acc : LeafAccess) :
    (d.mapFailed n kind va f).1 ≠ .ok acc := by
  unfold Dev.mapFailed
  split <;> exact nofun

/-- An access that is mapped changes its leaf's TLBs and counters, and takes free values, alone. -/
theorem Dev.mapAccess_ok {d : Dev} {n : Nat} {raw acc : LeafAccess} {again : Option Nat} (h : (d.mapAccess n raw again).1 = .ok acc) :
    d.MapsOnly n (d.mapAccess n raw again).2 := by
  unfold Dev.mapAccess at h ⊢
  dsimp only at h ⊢
  generalize (d.leaf n).accessMode raw.kind raw.hv = mode at h ⊢
  have hfirst := d.mapPage_frame n mode raw.kind raw.hx raw.va again
  split
  · exact d.mapsOnly_refl n
  · rename_i hw
    rw [if_neg hw] at h
    generalize d.mapPage n mode raw.kind raw.hx raw.va again = r at hfirst h ⊢
    match r with
    | (.fail f, e) => exact absurd h (e.mapFailed_ne_ok _ _ _ _ _)
    | (.ok (pa, pbmt), e) =>
      dsimp only at h hfirst ⊢
      split
      · exact hfirst
      · split
        · exact hfirst
        · rename_i hpmp hone
          rw [if_neg hpmp, if_neg hone] at h
          have hsecond := hfirst.trans
            (e.mapPage_frame n mode raw.kind raw.hx (raw.va + BitVec.ofNat 64 (min raw.size (4096 - pa % 4096))) again)
          generalize e.mapPage n mode raw.kind raw.hx (raw.va + BitVec.ofNat 64 (min raw.size (4096 - pa % 4096))) again = r' at hsecond h ⊢
          match r' with
          | (.fail f, e') => exact absurd h (e'.mapFailed_ne_ok _ _ _ _ _)
          | (.ok (pa2, pbmt2), e') =>
            dsimp only at hsecond ⊢
            split
            · exact hsecond
            · exact hsecond

/-- The checks of a physical address are as before. -/
theorem Dev.MapsOnly.memCheck {d d' : Dev} {n : Nat} (h : d.MapsOnly n d') (seg : Nat) (w : Bool) (a : Nat) :
    d'.memCheck (d'.leafClass n) seg w a = d.memCheck (d.leafClass n) seg w a := by
  have hclass : d'.leafClass n = d.leafClass n := by
    unfold Dev.leafClass
    rw [(Leaf.SameCore.of_csrTlb h.own).mode]
  rw [hclass, h.rest]
  rfl

/-! ### FENCE.I and WFI -/

variable {s : State} {n : Nat}

/-- FENCE.I (R61). -/
theorem fenceI_retires (hp : s.dev.powered = true) (hr : s.dev.leafRuns n = true) :
    ∃ d : Dev, exec (.fenceI n) s = .next (s.withDev d) ∧ d = { s.dev with leaves := d.leaves } ∧ (d.leaf n).fetchStale = false
      ∧ (d.leaf n).pc = (s.dev.leaf n).pc + 4 ∧ (d.leaf n).x = (s.dev.leaf n).x ∧ ∀ m, m ≠ n → d.leaf m = s.dev.leaf m := by
  have heff : fenceIEff n s.dev = s.dev.setLeaf n
      ({ s.dev.leaf n with fetchStale := false }.retire ((s.dev.leaf n).pc + 4)) := by
    unfold fenceIEff
    rw [if_neg (by simp [hr])]
  refine ⟨_, exec_of_setLeaf (f := fenceIEff n) rfl hp heff, rfl, ?_⟩
  rw [Dev.leaf_setLeaf]
  refine ⟨?_, ?_, ?_, fun m hm => Dev.leaf_setLeaf_other _ _ hm⟩
  · rw [Leaf.retire_fetchStale]
  · rw [Leaf.retire_pc]
  · rw [Leaf.retire_x]

/-- WFI where no interrupt that mie enables is pending (R360). -/
theorem wfi_idles (hp : s.dev.powered = true) (hr : s.dev.leafRuns n = true) (hi : (s.dev.leaf n).interrupt = none)
    (ht : (s.dev.leaf n).wfiTrap = none) (hw : (s.dev.leaf n).wakes = false)
    (ho : bit (s.dev.get BPW_LEAF_PWR.OFF_EN (s.dev.leafSite n)) (n % 16) = false) :
    ∃ d : Dev, exec (.wfi n) s = .next (s.withDev d) ∧ d = { s.dev with regs := d.regs, leaves := d.leaves }
      ∧ d.get BGH_LEAF_STAT.PSTATE (s.dev.leafSite n) (n % 16) = 1 ∧ (d.leaf n).pc = (s.dev.leaf n).pc + 4
      ∧ (d.leaf n).x = (s.dev.leaf n).x ∧ (∀ m, m ≠ n → d.leaf m = s.dev.leaf m)
      ∧ ∀ r : Reg, r ≠ ⟨.BGH_LEAF_STAT, s.dev.leafSite n, n % 16⟩ → d.reg r = s.dev.reg r := by
  set e := s.dev.setLeaf n ((s.dev.leaf n).retire ((s.dev.leaf n).pc + 4)) with he
  have hsite : (e.setPstate n 1).leafSite n = s.dev.leafSite n := Dev.leafSite_of_rewrites (e.setPstate_rewrites n 1) (by decide) n
  have hoff : (e.setPstate n 1).get BPW_LEAF_PWR.OFF_EN (s.dev.leafSite n) = s.dev.get BPW_LEAF_PWR.OFF_EN (s.dev.leafSite n) :=
    (e.setPstate_rewrites n 1).get _ _ _ (by decide)
  have heff : wfiEff n s.dev = e.setPstate n 1 := by
    unfold wfiEff
    rw [if_neg (by simp [hr])]
    dsimp only
    rw [hi, ht]
    dsimp only
    rw [if_neg (by simp [hw]), ← he, hsite, hoff, if_neg (by simp [ho])]
  have hleaf : (e.setPstate n 1).leaf n = (s.dev.leaf n).retire ((s.dev.leaf n).pc + 4) := Dev.leaf_setLeaf _ _ _
  refine ⟨_, exec_of_powered (f := wfiEff n) rfl hp heff rfl rfl, rfl, ?_, ?_, ?_, fun m hm => Dev.leaf_setLeaf_other _ _ hm, fun r hne => ?_⟩
  · exact (e.get_put_same _ _ _ _ (by decide) (by decide))
  · rw [hleaf, Leaf.retire_pc]
  · rw [hleaf, Leaf.retire_x]
  · exact e.reg_setReg_other _ hne

end Sys2Proof.Machine
end

section
/-!
PROOFS. The caches of a bough as CBO.ZERO and a prefetch use them (R146, R161): a line that needs no fetching back, what a record of a
use leaves of the leaf's core, and the request for a line.
-/

namespace Sys2Proof.Machine

/-! ### Lines and requests of a bough -/

@[simp] theorem Dev.bough_modBough (d : Dev) (b : Nat) (f : Bough → Bough) : (d.modBough b f).bough b = f (d.bough b) :=
  KMap.find_set_same _ _ _ _ _

theorem Bough.line_setLine (x : Bough) (line : Nat) (l : L3Line) : (x.setLine line l).line line = l := KMap.find_set_same _ _ _ _ _

theorem Dev.line_modLine (d : Dev) (b line : Nat) (f : L3Line → L3Line) :
    ((d.modLine b line f).bough b).line line = f ((d.bough b).line line) := by
  rw [Dev.modLine, Dev.bough_modBough, Bough.line_setLine]

theorem Dev.leaf_modLine (d : Dev) (b line n : Nat) (f : L3Line → L3Line) : (d.modLine b line f).leaf n = d.leaf n := rfl

/-- No eviction of the line waits: nothing is unsent of it. -/
theorem evb_find_none {x : Bough} {line : Nat} (h : (x.evb.any fun e => e.line == line) = false) :
    (x.evb.find? fun e => e.line == line && !e.sent) = none := by
  rw [List.find?_eq_none]
  intro e he
  have hne := List.any_eq_false.1 h e he
  simp [hne]

/-- A line that the bough serves, and that does not wait to leave, needs no fetching back. -/
theorem Dev.fetchBack_served {d : Dev} {b line : Nat} {w : Bool} (hs : d.canServe b line w = true)
    (hevb : ((d.bough b).evb.any fun e => e.line == line) = false) : d.fetchBack b line = d := by
  unfold Dev.fetchBack
  dsimp only
  rw [evb_find_none hevb]
  cases hl3 : d.l3On b with
  | true => rfl
  | false =>
    have htwigs : ((d.bough b).line line).twigs.isEmpty = false := by
      simp only [Dev.canServe, hl3, Bool.and_false, Bool.or_false, Bool.and_eq_true, Bool.not_eq_true'] at hs
      exact hs.1.2
    simp [htwigs]

/-- Nor does one that it does not hold. -/
theorem Dev.fetchBack_invalid {d : Dev} {b line : Nat} (hv : ((d.bough b).line line).valid = false)
    (hevb : ((d.bough b).evb.any fun e => e.line == line) = false) : d.fetchBack b line = d := by
  unfold Dev.fetchBack
  dsimp only
  rw [evb_find_none hevb, hv]
  split <;> rfl

theorem Dev.canServe_invalid {d : Dev} {b line : Nat} (w : Bool) (hv : ((d.bough b).line line).valid = false) :
    d.canServe b line w = false := by
  simp [Dev.canServe, hv]

/-! ### The table of leaves -/

theorem KMap.mem_set {κ α : Type} [DecidableEq κ] [DecidableEq α] (lt : κ → κ → Bool) (dflt a : α) (m : KMap κ α) (k : κ) (x : κ × α)
    (h : x ∈ KMap.set lt dflt m k a) : x = (k, a) ∨ (x ∈ m ∧ x.1 ≠ k) := by
  have hdrop : x ∈ KMap.drop m k → x ∈ m ∧ x.1 ≠ k := fun hx => by simpa [KMap.drop] using hx
  unfold KMap.set at h
  split at h
  · exact .inr (hdrop h)
  · exact (KMap.mem_place lt k a x _ h).imp_right hdrop

/-- The table holds one core for a leaf. -/
def Dev.OneCore (d : Dev) (n : Nat) : Prop := ∀ p ∈ d.leaves, p.1 = n → p.2 = d.leaf n

theorem Dev.oneCore_setLeaf (d : Dev) (n : Nat) (l : Leaf) : (d.setLeaf n l).OneCore n := fun p hp hn => by
  rw [Dev.leaf_setLeaf]
  obtain rfl | ⟨-, hne⟩ := KMap.mem_set _ _ _ _ _ _ hp
  · rfl
  · exact absurd hn hne

theorem Dev.OneCore.setLeaf_other {d : Dev} {n m : Nat} (h : d.OneCore n) (l : Leaf) (hm : n ≠ m) : (d.setLeaf m l).OneCore n := fun p hp hn => by
  rw [Dev.leaf_setLeaf_other _ _ hm]
  obtain rfl | ⟨hmem, -⟩ := KMap.mem_set _ _ _ _ _ _ hp
  · exact absurd hn.symm hm
  · exact h p hmem hn

/-- What the caches do keeps the one core of a leaf, but for its reservation. -/
def Dev.KeepsCore (n : Nat) (d d' : Dev) : Prop := d.OneCore n → d'.OneCore n ∧ (d.leaf n).SameCore (d'.leaf n)

namespace Dev.KeepsCore

variable {n : Nat} {d d' d'' : Dev}

theorem of_leaves (h : d'.leaves = d.leaves) : KeepsCore n d d' := fun ho => by
  have hl : d'.leaf n = d.leaf n := by simp only [Dev.leaf, h]
  refine ⟨fun p hp hn => ?_, by rw [hl]; exact .refl _⟩
  rw [hl]
  exact ho p (by rwa [← h]) hn

theorem refl (n : Nat) (d : Dev) : KeepsCore n d d := of_leaves rfl

theorem trans (h : KeepsCore n d d') (h' : KeepsCore n d' d'') : KeepsCore n d d'' := fun ho =>
  ⟨(h' (h ho).1).1, (h ho).2.trans (h' (h ho).1).2⟩

theorem clearResv (n : Nat) (d : Dev) (line : Nat) (keep : Option Nat) : KeepsCore n d (d.clearResv line keep) := fun ho =>
  List.foldlRecOn (motive := fun e : Dev => e.OneCore n ∧ (d.leaf n).SameCore (e.leaf n)) _ _ ⟨ho, .refl _⟩ fun e he p hp => by
    split
    · by_cases hn : p.1 = n
      · rw [hn, ho p hp hn]
        refine ⟨Dev.oneCore_setLeaf _ n _, ?_⟩
        rw [Dev.leaf_setLeaf]
        exact ⟨rfl, rfl, rfl, rfl⟩
      · refine ⟨he.1.setLeaf_other _ (Ne.symm hn), ?_⟩
        rw [Dev.leaf_setLeaf_other _ _ (Ne.symm hn)]
        exact he.2
    · exact he

end Dev.KeepsCore

/-- A leaf that keeps its reservation is left alone. -/
theorem Dev.leaf_clearResv_kept (d : Dev) (line n : Nat) : (d.clearResv line (some n)).leaf n = d.leaf n :=
  List.foldlRecOn (motive := fun e : Dev => e.leaf n = d.leaf n) _ _ rfl fun e he p _ => by
    split
    · rename_i h
      have hne : n ≠ p.1 := fun hn => by simp [hn] at h
      rw [Dev.leaf_setLeaf_other _ _ hne, he]
    · exact he

theorem Dev.boughs_clearResv (d : Dev) (line : Nat) (keep : Option Nat) : (d.clearResv line keep).boughs = d.boughs :=
  List.foldlRecOn (motive := fun e : Dev => e.boughs = d.boughs) _ _ rfl fun e he p _ => by
    split
    · exact he
    · exact he

/-! ### Records of a use -/

theorem Dev.sendWriteBacks_leaves (d : Dev) (b : Nat) : (d.sendWriteBacks b).leaves = d.leaves :=
  List.foldlRecOn (motive := fun e : Dev => e.leaves = d.leaves) _ _ rfl fun e he x _ => by
    dsimp only
    split
    · exact he
    · rw [Dev.emit_leaves, Dev.modBough_leaves, he]

theorem Dev.evict_keepsCore (n : Nat) (d : Dev) (b line : Nat) : Dev.KeepsCore n d (d.evict b line) := by
  have h : Dev.KeepsCore n d ((d.clearResv line none).modBough b fun x => x.setLine line (((d.bough b).line line).gone)) :=
    (Dev.KeepsCore.clearResv n d line none).trans (.of_leaves rfl)
  unfold Dev.evict
  dsimp only
  split
  · exact h.trans (.of_leaves (Dev.sendWriteBacks_leaves _ _))
  · exact h

/-- A choice has one of its two values. -/
theorem ite_cases {α : Type} (c : Bool) (x y : α) : (if c then x else y) = y ∨ (if c then x else y) = x := by
  cases c
  · exact .inl rfl
  · exact .inr rfl

/-- A twig that loses a line: the line stays with the bough, or leaves it. -/
theorem Dev.dropTwig_cases (d : Dev) (b t line : Nat) : ∃ f, d.dropTwig b t line = d.modLine b line f ∨
    d.dropTwig b t line = (d.modLine b line f).evict b line :=
  ⟨_, ite_cases _ _ _⟩

theorem Dev.dropTwig_keepsCore (n : Nat) (d : Dev) (b t line : Nat) : Dev.KeepsCore n d (d.dropTwig b t line) := by
  obtain ⟨f, h | h⟩ := d.dropTwig_cases b t line <;> rw [h]
  · exact .of_leaves rfl
  · exact (Dev.KeepsCore.of_leaves (d' := d.modLine b line f) rfl).trans (Dev.evict_keepsCore n _ b line)

theorem Dev.modLine_stays {K : RegName → Bool} (d : Dev) (b line : Nat) (f : L3Line → L3Line) : d.Stays K (d.modLine b line f) :=
  d.modBough_stays b _

theorem Dev.dropTwig_stays {K : RegName → Bool} (d : Dev) (b t line : Nat) : d.Stays K (d.dropTwig b t line) := by
  obtain ⟨f, h | h⟩ := d.dropTwig_cases b t line <;> rw [h]
  · exact d.modLine_stays _ _ _
  · exact (d.modLine_stays _ _ _).trans (Dev.evict_stays _ _ _)

/-- A record of a use of a twig drops at most one line, and then changes the caches of its bough alone. -/
theorem Dev.recordTwig_cases (d : Dev) (b t line : Nat) (write : Bool) : ∃ (f : Bough → Bough) (g : L3Line → L3Line),
    d.recordTwig b t line write = (d.modBough b f).modLine b line g ∨
      ∃ v, d.recordTwig b t line write = ((d.dropTwig b t v).modBough b f).modLine b line g := by
  unfold Dev.recordTwig
  dsimp only
  split
  · exact ⟨_, _, .inl rfl⟩
  · split
    · rename_i v _
      exact ⟨_, _, .inr ⟨v, rfl⟩⟩
    · exact ⟨_, _, .inl rfl⟩

theorem Dev.recordTwig_keepsCore (n : Nat) (d : Dev) (b t line : Nat) (write : Bool) : Dev.KeepsCore n d (d.recordTwig b t line write) := by
  obtain ⟨f, g, h | ⟨v, h⟩⟩ := d.recordTwig_cases b t line write <;> rw [h]
  · exact .of_leaves rfl
  · exact (d.dropTwig_keepsCore n b t v).trans (.of_leaves rfl)

theorem Dev.recordTwig_stays {K : RegName → Bool} (d : Dev) (b t line : Nat) (write : Bool) : d.Stays K (d.recordTwig b t line write) := by
  obtain ⟨f, g, h | ⟨v, h⟩⟩ := d.recordTwig_cases b t line write <;> rw [h]
  · exact (d.modBough_stays _ _).trans (Dev.modLine_stays _ _ _ _)
  · exact ((d.dropTwig_stays _ _ _).trans (Dev.modBough_stays _ _ _)).trans (Dev.modLine_stays _ _ _ _)

/-- The first part of a record of a use: the clock of the bough where the L1 serves it, and else the record of the twig. -/
def Dev.recordFirst (d : Dev) (b n line : Nat) (fetch write : Bool) : Dev :=
  if ((d.bough b).line line).inL1 n fetch write then d.modBough b fun x => { x with clock := x.clock + 1 }
  else d.recordTwig b (twigOf n) line write

/-- The rest of it changes the caches of the bough alone. -/
theorem Dev.record_after (d : Dev) (b n line : Nat) (fetch write : Bool) :
    ∃ x, d.record b n line fetch write = { d.recordFirst b n line fetch write with boughs := x } := by
  unfold Dev.record
  dsimp only
  rw [← Dev.recordFirst]
  split
  · exact ⟨_, rfl⟩
  · split
    · exact ⟨_, rfl⟩
    · exact ⟨_, rfl⟩

theorem Dev.record_stays {K : RegName → Bool} (d : Dev) (b n line : Nat) (fetch write : Bool) : d.Stays K (d.record b n line fetch write) := by
  have hfirst : d.Stays K (d.recordFirst b n line fetch write) := by
    unfold Dev.recordFirst
    split
    · exact d.modBough_stays _ _
    · exact d.recordTwig_stays _ _ _ _
  obtain ⟨x, hx⟩ := d.record_after b n line fetch write
  rw [hx]
  exact ⟨hfirst.mem, hfirst.board, hfirst.power, hfirst.reg⟩

/-- A record of a use keeps the core of its leaf. -/
theorem Dev.record_core (d : Dev) (b n line : Nat) (fetch write : Bool)
    (h : ((d.bough b).line line).inL1 n fetch write = true ∨ d.OneCore n) : (d.leaf n).SameCore ((d.record b n line fetch write).leaf n) := by
  obtain ⟨x, hx⟩ := d.record_after b n line fetch write
  rw [hx]
  show (d.leaf n).SameCore ((d.recordFirst b n line fetch write).leaf n)
  unfold Dev.recordFirst
  split
  · exact .refl _
  · rename_i hmiss
    exact (d.recordTwig_keepsCore n b (twigOf n) line write (h.resolve_left hmiss)).2

/-- The lookups of an access that its L1 does not serve leave one core of its leaf. -/
theorem Dev.countLookup_oneCore (d : Dev) (b n line : Nat) (fetch write : Bool) (h : ((d.bough b).line line).inL1 n fetch write = false) :
    (d.countLookup b n line fetch write true).OneCore n := by
  unfold Dev.countLookup
  dsimp only
  rw [h, if_neg nofun, if_pos rfl]
  split
  · exact d.oneCore_setLeaf n _
  · split
    · exact Dev.oneCore_setLeaf _ n _
    · exact Dev.oneCore_setLeaf _ n _

/-- Where its L1 serves it, there is nothing to count. -/
theorem Dev.countLookup_inL1 (d : Dev) (b n line : Nat) (fetch write l1 : Bool) (h : ((d.bough b).line line).inL1 n fetch write = true) :
    d.countLookup b n line fetch write l1 = d := by
  simp [Dev.countLookup, h]

/-! ### CBO.ZERO of a line held writable -/

/-- The line is filled with zeros. -/
def Dev.lineZeroed (d : Dev) (n line : Nat) : Dev :=
  ((d.clearResv line (some n)).record (n / 16) n line false true).modLine (n / 16) line fun l =>
    { l with data := 0, poison := false, st := .modified }

theorem Dev.progress_cboZero (d : Dev) (n a : Nat) (hs : d.canServe (n / 16) (a / 64) true = true)
    (hevb : ((d.bough (n / 16)).evb.any fun e => e.line == a / 64) = false) :
    d.progress n { addr := a, kind := .cboZero true } =
      ({ addr := a, kind := .cboZero true, answer := some false }, d.lineZeroed n (a / 64)) := by
  simp only [Dev.progress, Dev.fetchBack_served hs hevb, hs, if_true]
  rfl

/-- What it leaves, after the lookups of the access are counted. -/
theorem Dev.lineZeroed_spec (d : Dev) (n line : Nat) :
    ((((d.countLookup (n / 16) n line false true true).lineZeroed n line).bough (n / 16)).line line).data = 0
      ∧ ((((d.countLookup (n / 16) n line false true true).lineZeroed n line).bough (n / 16)).line line).poison = false
      ∧ ((((d.countLookup (n / 16) n line false true true).lineZeroed n line).bough (n / 16)).line line).st = .modified
      ∧ (d.leaf n).SameCore (((d.countLookup (n / 16) n line false true true).lineZeroed n line).leaf n)
      ∧ d.Stays (fun q => q != .L3C_CNT) ((d.countLookup (n / 16) n line false true true).lineZeroed n line) := by
  have hcount := d.countLookup_accounts (n / 16) n line false true true
  have hone : ((d.bough (n / 16)).line line).inL1 n false true = true ∨ (d.countLookup (n / 16) n line false true true).OneCore n := by
    cases h : ((d.bough (n / 16)).line line).inL1 n false true with
    | true => exact .inl rfl
    | false => exact .inr (d.countLookup_oneCore _ _ _ _ _ h)
  generalize d.countLookup (n / 16) n line false true true = e at hcount hone ⊢
  have hcore : ((((e.clearResv line (some n)).bough (n / 16)).line line).inL1 n false true = true) ∨ (e.clearResv line (some n)).OneCore n :=
    hone.imp (fun h => by rw [Dev.bough, e.boughs_clearResv, ← Dev.bough, hcount.bough]; exact h)
      fun h => (Dev.KeepsCore.clearResv n e line (some n) h).1
  have hrecord := Dev.record_core _ (n / 16) n line false true hcore
  rw [e.leaf_clearResv_kept] at hrecord
  refine ⟨?_, ?_, ?_, ?_, ?_⟩
  · rw [Dev.lineZeroed, Dev.line_modLine]
  · rw [Dev.lineZeroed, Dev.line_modLine]
  · rw [Dev.lineZeroed, Dev.line_modLine]
  · rw [Dev.lineZeroed, Dev.leaf_modLine]
    exact hcount.own.trans hrecord
  · exact ((hcount.stays.trans (e.clearResv_stays line (some n))).trans (Dev.record_stays _ _ _ _ _ _)).trans (Dev.modLine_stays _ _ _ _)

end Sys2Proof.Machine
end

section
/-!
PROOFS. CBO.ZERO and prefetches of a leaf (R69, R161).
-/

namespace Sys2Proof.Machine

variable {s : State} {n : Nat}

/-! ### CBO.ZERO -/

/-- The store that CBO.ZERO maps. -/
def zeroStore (a : Nat) : LeafAccess := { kind := .store, va := BitVec.ofNat 64 (a / 64 * 64), size := 64 }

/-- CBO.ZERO of a line held writable fills it and retires. -/
theorem Dev.zeroGo_served (d : Dev) (n a : Nat) (acc : LeafAccess) (hmap : (d.mapAccess n (zeroStore a)).1 = .ok acc) (hpma : acc.pbmt = .pma)
    (hmain : mainMemory acc.addr = true) (hcheck : d.memCheck (d.leafClass n) 0 true acc.addr = .ok)
    (hserve : d.canServe (n / 16) (acc.addr / 64) true = true) (hfull : (d.leaf n).misses.length < 48)
    (hevb : ((d.bough (n / 16)).evb.any fun e => e.line == acc.addr / 64) = false) :
    ∃ e : Dev, d.MapsOnly n e ∧ d.zeroGo n a none =
      ((e.countLookup (n / 16) n (acc.addr / 64) false true true).lineZeroed n (acc.addr / 64)).modLeaf n fun l => l.retire (l.pc + 4) := by
  have hmaps := Dev.mapAccess_ok hmap
  refine ⟨_, hmaps, ?_⟩
  unfold Dev.zeroGo
  dsimp only
  rw [← zeroStore]
  generalize d.mapAccess n (zeroStore a) = r at hmap hmaps ⊢
  obtain ⟨res, e⟩ := r
  obtain rfl : res = .ok acc := hmap
  dsimp only at hmaps ⊢
  have hacc := Dev.Accounts.of_mapsOnly hmaps
  have hcount := hacc.trans (e.countLookup_accounts (n / 16) n (acc.addr / 64) false true true)
  have hnotfull : (e.leaf n).full = false := by
    rw [Leaf.full, hacc.own.misses]
    exact decide_eq_false (by omega)
  rw [hmaps.memCheck, hcheck, hmain, hpma, hnotfull]
  rw [if_neg nofun, if_neg nofun, show (Pbmt.pma == Pbmt.pma) = true from rfl, if_pos rfl]
  generalize e.countLookup (n / 16) n (acc.addr / 64) false true true = c at hcount ⊢
  rw [Dev.progress_cboZero c n acc.addr (by rw [hcount.canServe]; exact hserve) (by rw [hcount.bough]; exact hevb)]

/-- CBO.ZERO (R161). -/
theorem cboZero_fills (a : Nat) (acc : LeafAccess) (hp : s.dev.powered = true) (hr : s.dev.leafRuns n = true)
    (hi : (s.dev.leaf n).interrupt = none) (hz : (s.dev.leaf n).cbzeTrap = none)
    (hmap : (s.dev.mapAccess n { kind := .store, va := BitVec.ofNat 64 (a / 64 * 64), size := 64 }).1 = .ok acc) (hpma : acc.pbmt = .pma)
    (hmain : mainMemory acc.addr = true) (hcheck : s.dev.memCheck (s.dev.leafClass n) 0 true acc.addr = .ok)
    (hserve : s.dev.canServe (n / 16) (acc.addr / 64) true = true) (hfull : (s.dev.leaf n).misses.length < 48)
    (hevb : ((s.dev.bough (n / 16)).evb.any fun e => e.line == acc.addr / 64) = false) :
    ∃ d : Dev, exec (.cboZero n a) s = .next (s.withDev d) ∧ ((d.bough (n / 16)).line (acc.addr / 64)).data = 0
      ∧ ((d.bough (n / 16)).line (acc.addr / 64)).poison = false ∧ ((d.bough (n / 16)).line (acc.addr / 64)).st = .modified
      ∧ (d.leaf n).pc = (s.dev.leaf n).pc + 4 ∧ (d.leaf n).x = (s.dev.leaf n).x ∧ d.mem = s.dev.mem := by
  obtain ⟨e, hmaps, hgo⟩ := s.dev.zeroGo_served n a acc hmap hpma hmain hcheck hserve hfull hevb
  have heff : cboZeroEff n a s.dev = s.dev.zeroGo n a none := by
    unfold cboZeroEff
    rw [if_neg (by simp [hr]), hi, hz]
  have hacc := Dev.Accounts.of_mapsOnly hmaps
  obtain ⟨hdata, hpoison, hst, hcore, hstays⟩ := e.lineZeroed_spec n (acc.addr / 64)
  generalize (e.countLookup (n / 16) n (acc.addr / 64) false true true).lineZeroed n (acc.addr / 64) = z at hgo hdata hpoison hst hcore hstays
  have hsame := hacc.own.trans hcore
  have hkept := hacc.stays.trans hstays
  refine ⟨_, exec_of_powered (f := cboZeroEff n a) rfl hp (heff.trans hgo) hkept.board (by rw [← hkept.power]; rfl), hdata, hpoison, hst, ?_, ?_,
    hkept.mem⟩
  · rw [Dev.leaf_modLeaf, Leaf.retire_pc, hsame.pc]
  · rw [Dev.leaf_modLeaf, Leaf.retire_x, hsame.x]

/-! ### The request for a line -/

theorem Dev.emit_leaf (d : Dev) (p : Packet) (m : Nat) : (d.emit p).leaf m = d.leaf m := by
  simp only [Dev.leaf, Dev.emit_leaves]

theorem Dev.emit_bough (d : Dev) (p : Packet) (b : Nat) : (d.emit p).bough b = d.bough b := by
  simp only [Dev.bough, Dev.emit_boughs]

/-- Whether a request for a line is outstanding. -/
theorem Bough.txn_isSome_iff (x : Bough) (line : Nat) : (x.txn line).isSome = true ↔ ∃ t ∈ x.txns, t.line = line := by
  simp [Bough.txn, List.find?_isSome]

/-- A request that is replaced stays outstanding. -/
theorem Bough.txn_replaced (x : Bough) (t : BoughTxn) (line : Nat) (h : (x.txn line).isSome = true) :
    (({ x with txns := x.txns.map fun y => if y.line == t.line then t else y } : Bough).txn line).isSome = true := by
  rw [Bough.txn_isSome_iff] at h ⊢
  obtain ⟨y, hy, hline⟩ := h
  refine ⟨_, List.mem_map.2 ⟨y, hy, rfl⟩, ?_⟩
  split
  · rename_i ht
    rw [← hline, eq_of_beq ht]
  · exact hline

/-- What sending requests leaves: the leaves, and the requests outstanding. -/
structure Dev.SendsFor (d : Dev) (b line : Nat) (d' : Dev) : Prop where
  leaves : d'.leaves = d.leaves
  txn : ((d.bough b).txn line).isSome = true → ((d'.bough b).txn line).isSome = true

theorem Dev.SendsFor.trans {d d' d'' : Dev} {b line : Nat} (h : d.SendsFor b line d') (h' : d'.SendsFor b line d'') : d.SendsFor b line d'' :=
  ⟨h'.leaves.trans h.leaves, fun ht => h'.txn (h.txn ht)⟩

theorem Dev.sendAmong_sendsFor (d : Dev) (b line : Nat) (ts : List BoughTxn) : d.SendsFor b line (d.sendAmong b ts) :=
  List.foldlRecOn (motive := fun e : Dev => d.SendsFor b line e) _ _ ⟨rfl, id⟩ fun e he t _ => by
    split
    · refine he.trans ⟨?_, fun ht => ?_⟩
      · rw [Dev.emit_leaves]
        rfl
      · rw [Dev.emit_bough, Dev.setBTxn, Dev.bough_modBough]
        exact Bough.txn_replaced _ { t with sent := true } line ht
    · exact he

theorem Dev.sendRequests_sendsFor (d : Dev) (b line : Nat) : d.SendsFor b line (d.sendRequests b) :=
  (d.sendAmong_sendsFor b line _).trans (Dev.sendAmong_sendsFor _ b line _)

/-- A request that starts is outstanding, whether it is sent at once or not. -/
theorem Dev.startTxn_spec (d : Dev) (b : Nat) (t : BoughTxn) : (d.startTxn b t).leaves = d.leaves
    ∧ (((d.startTxn b t).bough b).txn t.line).isSome = true := by
  unfold Dev.startTxn
  split
  · rename_i h
    exact ⟨rfl, h⟩
  · have hsends := (d.modBough b fun x => { x with txns := x.txns ++ [t] }).sendRequests_sendsFor b t.line
    refine ⟨hsends.leaves, hsends.txn ?_⟩
    rw [Dev.bough_modBough, Bough.txn_isSome_iff]
    exact ⟨t, by simp, rfl⟩

/-! ### Prefetches -/

/-- The access that a prefetch maps. -/
def prefetchUse (k : PrefetchKind) (a : Nat) : LeafAccess := { kind := prefetchKind k, va := BitVec.ofNat 64 (a / 64 * 64), size := 64 }

/-- The mapping of a prefetch: a hardware prefetch names a physical address. -/
def Dev.mapPrefetch (d : Dev) (n : Nat) (k : PrefetchKind) (a : Nat) : MappedAccess × Dev :=
  if k == .hardware then (.ok { prefetchUse k a with addr := a / 64 * 64 }, d) else d.mapAccess n (prefetchUse k a) none

/-- What a mapped prefetch does with its line (R69). -/
def Dev.prefetchLine (d : Dev) (n : Nat) (k : PrefetchKind) (acc : LeafAccess) : Dev :=
  let c := d.memCheck (d.leafClass n) 0 false acc.addr
  if !mainMemory acc.addr || acc.pbmt != .pma then d
  else if c != .ok then d.memRefused c (d.leafClass n) 0 false acc.addr
  else if ((d.bough (n / 16)).line (acc.addr / 64)).inL1 n (k == .instr) (k == .write) then d
  else if 44 ≤ (d.leaf n).misses.length then d.modLeaf n fun l => l.countEvent 0x22
  else
    let d := d.countLookup (n / 16) n (acc.addr / 64) (k == .instr) (k == .write) false
    let (m, d) := d.progress n { addr := acc.addr, kind := .prefetch k }
    if m.answer.isSome then d else d.modLeaf n fun l => { l with misses := l.misses ++ [m] }

theorem Dev.prefetchGo_mapped {d e : Dev} {k : PrefetchKind} {a : Nat} {acc : LeafAccess} (h : d.mapPrefetch n k a = (.ok acc, e)) :
    d.prefetchGo n k a none = e.prefetchLine n k acc := by
  have hmap : (if k == .hardware then (.ok { prefetchUse k a with addr := a / 64 * 64 }, d) else d.mapAccess n (prefetchUse k a) none) =
    ((.ok acc, e) : MappedAccess × Dev) := h
  unfold Dev.prefetchGo
  simp only [prefetchUse] at hmap
  dsimp only
  rw [hmap]
  rfl

/-- A prefetch that is mapped changes its leaf's TLBs and counters, and takes free values, alone. -/
theorem Dev.mapPrefetch_ok {d : Dev} {k : PrefetchKind} {a : Nat} {acc : LeafAccess}
    (h : if k = .hardware then acc = { prefetchUse k a with addr := a / 64 * 64 } else (d.mapAccess n (prefetchUse k a)).1 = .ok acc) :
    ∃ e, d.MapsOnly n e ∧ d.mapPrefetch n k a = (.ok acc, e) := by
  unfold Dev.mapPrefetch
  by_cases hk : k = .hardware
  · rw [if_pos hk] at h
    rw [if_pos (beq_iff_eq.2 hk), h]
    exact ⟨d, d.mapsOnly_refl n, rfl⟩
  · rw [if_neg hk] at h
    rw [if_neg (fun hb => hk (beq_iff_eq.1 hb)), ← h]
    exact ⟨_, Dev.mapAccess_ok h, rfl⟩

/-- The request of a prefetch. -/
def Dev.prefetchAsks (d : Dev) (n : Nat) (k : PrefetchKind) (line : Nat) : Dev :=
  d.startTxn (n / 16) { line := line, op := d.opFor (n / 16) line (k == .write) }

/-- A prefetch of a line that its bough does not hold asks for it and takes a miss entry. -/
theorem Dev.prefetchLine_misses {d : Dev} {k : PrefetchKind} {acc : LeafAccess} (hpma : acc.pbmt = .pma) (hmain : mainMemory acc.addr = true)
    (hcheck : d.memCheck (d.leafClass n) 0 false acc.addr = .ok) (hroom : (d.leaf n).misses.length < 44)
    (hline : ((d.bough (n / 16)).line (acc.addr / 64)).valid = false)
    (hevb : ((d.bough (n / 16)).evb.any fun e => e.line == acc.addr / 64) = false) :
    d.prefetchLine n k acc =
      ((d.countLookup (n / 16) n (acc.addr / 64) (k == .instr) (k == .write) false).prefetchAsks n k (acc.addr / 64)).modLeaf n fun l =>
        { l with misses := l.misses ++ [{ addr := acc.addr, kind := .prefetch k }] } := by
  have hL1 : ((d.bough (n / 16)).line (acc.addr / 64)).inL1 n (k == .instr) (k == .write) = false := by simp [L3Line.inL1, hline]
  have hcount := d.countLookup_accounts (n / 16) n (acc.addr / 64) (k == .instr) (k == .write) false
  unfold Dev.prefetchLine
  dsimp only
  rw [hcheck, hmain, hpma, hL1, if_neg nofun, if_neg nofun, if_neg nofun, if_neg (by omega)]
  generalize d.countLookup (n / 16) n (acc.addr / 64) (k == .instr) (k == .write) false = c at hcount ⊢
  have hline' : ((c.bough (n / 16)).line (acc.addr / 64)).valid = false := by rw [hcount.bough]; exact hline
  have hprogress : c.progress n { addr := acc.addr, kind := .prefetch k } =
      ({ addr := acc.addr, kind := .prefetch k }, c.prefetchAsks n k (acc.addr / 64)) := by
    simp only [Dev.progress, Dev.fetchBack_invalid hline' (by rw [hcount.bough]; exact hevb), Dev.canServe_invalid _ hline']
    rfl
  rw [hprogress]
  rfl

/-- What it leaves. -/
theorem Dev.prefetchAsks_spec (d : Dev) (n : Nat) (k : PrefetchKind) (line : Nat) : (d.prefetchAsks n k line).leaves = d.leaves
    ∧ (((d.prefetchAsks n k line).bough (n / 16)).txn line).isSome = true
    ∧ d.Stays (fun q => q != .L3C_CNT) (d.prefetchAsks n k line) := by
  obtain ⟨hleaves, htxn⟩ := d.startTxn_spec (n / 16) { line := line, op := d.opFor (n / 16) line (k == .write) }
  exact ⟨hleaves, htxn, d.startTxn_stays _ _⟩

/-- A prefetch of a leaf that has fewer than 44 miss entries taken, from the device that its instruction has retired in. -/
theorem Dev.prefetchGo_misses {d : Dev} {k : PrefetchKind} {a : Nat} {acc : LeafAccess}
    (hmap : if k = .hardware then acc = { prefetchUse k a with addr := a / 64 * 64 } else (d.mapAccess n (prefetchUse k a)).1 = .ok acc)
    (hpma : acc.pbmt = .pma) (hmain : mainMemory acc.addr = true) (hcheck : d.memCheck (d.leafClass n) 0 false acc.addr = .ok)
    (hroom : (d.leaf n).misses.length < 44) (hline : ((d.bough (n / 16)).line (acc.addr / 64)).valid = false)
    (hevb : ((d.bough (n / 16)).evb.any fun e => e.line == acc.addr / 64) = false) :
    ((d.prefetchGo n k a none).leaf n).misses = (d.leaf n).misses ++ [{ addr := acc.addr, kind := .prefetch k }]
      ∧ (((d.prefetchGo n k a none).bough (n / 16)).txn (acc.addr / 64)).isSome = true
      ∧ ((d.prefetchGo n k a none).leaf n).x = (d.leaf n).x ∧ ((d.prefetchGo n k a none).leaf n).pc = (d.leaf n).pc
      ∧ (∀ m, m ≠ n → (d.prefetchGo n k a none).leaf m = d.leaf m) ∧ d.Stays (fun q => q != .L3C_CNT) (d.prefetchGo n k a none) := by
  obtain ⟨e, hmaps, hmapped⟩ := Dev.mapPrefetch_ok hmap
  have hacc := Dev.Accounts.of_mapsOnly hmaps
  rw [Dev.prefetchGo_mapped hmapped, Dev.prefetchLine_misses hpma hmain (by rw [hmaps.memCheck]; exact hcheck)
    (by rw [hacc.own.misses]; exact hroom) (by rw [hacc.bough]; exact hline) (by rw [hacc.bough]; exact hevb)]
  have hcount := hacc.trans (e.countLookup_accounts (n / 16) n (acc.addr / 64) (k == .instr) (k == .write) false)
  generalize e.countLookup (n / 16) n (acc.addr / 64) (k == .instr) (k == .write) false = c at hcount ⊢
  obtain ⟨hleaves, htxn, hstays⟩ := c.prefetchAsks_spec n k (acc.addr / 64)
  generalize c.prefetchAsks n k (acc.addr / 64) = t at hleaves htxn hstays ⊢
  have hleaf : ∀ m, t.leaf m = c.leaf m := fun m => by simp only [Dev.leaf, hleaves]
  refine ⟨?_, htxn, ?_, ?_, fun m hm => ?_, ?_⟩
  · rw [Dev.leaf_modLeaf, hleaf, hcount.own.misses]
  · rw [Dev.leaf_modLeaf, hleaf, hcount.own.x]
  · rw [Dev.leaf_modLeaf, hleaf, hcount.own.pc]
  · rw [Dev.leaf_modLeaf_other _ _ hm, hleaf, hcount.others m hm]
  · exact (hcount.stays.trans hstays).trans (Dev.setLeaf_stays _ _ _)

/-- A prefetch that would take one of the last four entries changes no cache. -/
theorem Dev.prefetchLine_dropped {d : Dev} {k : PrefetchKind} {acc : LeafAccess} (hcheck : d.memCheck (d.leafClass n) 0 false acc.addr = .ok)
    (hroom : 44 ≤ (d.leaf n).misses.length) : d.Accounts n (d.prefetchLine n k acc) := by
  unfold Dev.prefetchLine
  dsimp only
  split
  · exact .refl d n
  · rw [hcheck, if_neg nofun]
    split
    · exact .refl d n
    · exact .counted d n 0x22

/-! ### PREFETCH -/

/-- The leaf with its hint retired. -/
def Dev.hintRetired (d : Dev) (n : Nat) : Dev := d.modLeaf n fun l => l.retire (l.pc + 4)

theorem Dev.leaf_hintRetired (d : Dev) (n : Nat) : (d.hintRetired n).leaf n = (d.leaf n).retire ((d.leaf n).pc + 4) := d.leaf_modLeaf n _

theorem Dev.memCheck_hintRetired (d : Dev) (n seg : Nat) (w : Bool) (a : Nat) :
    (d.hintRetired n).memCheck ((d.hintRetired n).leafClass n) seg w a = d.memCheck (d.leafClass n) seg w a := by
  have hclass : (d.hintRetired n).leafClass n = d.leafClass n := by
    unfold Dev.leafClass
    rw [Dev.leaf_hintRetired, Leaf.retire_mode]
  rw [hclass]
  rfl

/-- A Zicbop hint retires, and its prefetch goes on. -/
theorem prefetchEff_hint {d : Dev} {k : PrefetchKind} (a : Nat) (hr : d.leafRuns n = true) (hk : k ≠ .hardware) :
    prefetchEff n k a d = (d.hintRetired n).prefetchGo n k a none := by
  unfold prefetchEff
  rw [if_neg (fun hb => hk (beq_iff_eq.1 hb)), if_neg (by simp [hr])]
  rfl

theorem prefetchEff_hardware {d : Dev} (a : Nat) (hr : d.leafReady n = true) :
    prefetchEff n .hardware a d = d.prefetchGo n .hardware a none := by
  unfold prefetchEff
  rw [if_pos (beq_self_eq_true _), if_pos hr]

/-- PREFETCH of a line that its bough does not hold (R68, R161). -/
theorem prefetch_misses (a : Nat) (k : PrefetchKind) (acc : LeafAccess) (hp : s.dev.powered = true) (hr : s.dev.leafReady n = true)
    (hmap : if k = .hardware then acc = { kind := prefetchKind k, va := BitVec.ofNat 64 (a / 64 * 64), size := 64, addr := a / 64 * 64 }
      else s.dev.leafRuns n = true ∧ ((s.dev.modLeaf n fun l => l.retire (l.pc + 4)).mapAccess n
        { kind := prefetchKind k, va := BitVec.ofNat 64 (a / 64 * 64), size := 64 }).1 = .ok acc)
    (hpma : acc.pbmt = .pma) (hmain : mainMemory acc.addr = true) (hcheck : s.dev.memCheck (s.dev.leafClass n) 0 false acc.addr = .ok)
    (hroom : (s.dev.leaf n).misses.length < 44) (hline : ((s.dev.bough (n / 16)).line (acc.addr / 64)).valid = false)
    (hevb : ((s.dev.bough (n / 16)).evb.any fun e => e.line == acc.addr / 64) = false) :
    ∃ d : Dev, exec (.prefetch n k a) s = .next (s.withDev d)
      ∧ (d.leaf n).misses = (s.dev.leaf n).misses ++ [{ addr := acc.addr, kind := .prefetch k }]
      ∧ ((d.bough (n / 16)).txn (acc.addr / 64)).isSome = true ∧ (d.leaf n).x = (s.dev.leaf n).x ∧ d.mem = s.dev.mem
      ∧ (d.leaf n).pc = (s.dev.leaf n).pc + (if k = .hardware then 0 else 4) ∧ ∀ m, m ≠ n → d.leaf m = s.dev.leaf m := by
  by_cases hk : k = .hardware
  · subst hk
    obtain ⟨hmiss, htxn, hx, hpc, hothers, hstays⟩ :=
      Dev.prefetchGo_misses (n := n) (d := s.dev) (k := .hardware) (a := a) hmap hpma hmain hcheck hroom hline hevb
    refine ⟨_, exec_of_powered (f := prefetchEff n .hardware a) rfl hp (prefetchEff_hardware a hr) hstays.board (by rw [hstays.power]), hmiss, htxn,
      hx, hstays.mem, ?_, hothers⟩
    rw [hpc, if_pos rfl]
    exact (BitVec.add_zero _).symm
  · rw [if_neg hk] at hmap
    obtain ⟨hruns, hmap⟩ := hmap
    obtain ⟨hmiss, htxn, hx, hpc, hothers, hstays⟩ := Dev.prefetchGo_misses (n := n) (d := s.dev.hintRetired n) (k := k) (a := a)
      (by rw [if_neg hk]; exact hmap) hpma hmain (by rw [Dev.memCheck_hintRetired]; exact hcheck)
      (by rw [Dev.leaf_hintRetired, Leaf.retire_misses]; exact hroom) hline hevb
    rw [Dev.leaf_hintRetired] at hmiss hx hpc
    refine ⟨_, exec_of_powered (f := prefetchEff n k a) rfl hp (prefetchEff_hint a hruns hk) hstays.board (by rw [hstays.power]; rfl), ?_, htxn, ?_,
      hstays.mem, ?_, fun m hm => ?_⟩
    · rw [hmiss, Leaf.retire_misses]
    · rw [hx, Leaf.retire_x]
    · rw [hpc, Leaf.retire_pc, if_neg hk]
    · rw [hothers m hm]
      exact Dev.leaf_modLeaf_other _ _ hm

/-- PREFETCH with 44 miss entries taken (R69). -/
theorem prefetch_dropped (a : Nat) (k : PrefetchKind) (acc : LeafAccess) (hp : s.dev.powered = true) (hr : s.dev.leafRuns n = true)
    (hk : k ≠ .hardware) (hmap : ((s.dev.modLeaf n fun l => l.retire (l.pc + 4)).mapAccess n
      { kind := prefetchKind k, va := BitVec.ofNat 64 (a / 64 * 64), size := 64 }).1 = .ok acc)
    (hcheck : s.dev.memCheck (s.dev.leafClass n) 0 false acc.addr = .ok) (hroom : 44 ≤ (s.dev.leaf n).misses.length) :
    ∃ d : Dev, exec (.prefetch n k a) s = .next (s.withDev d) ∧ d.boughs = s.dev.boughs ∧ d.mem = s.dev.mem
      ∧ (d.leaf n).misses = (s.dev.leaf n).misses ∧ (d.leaf n).pc = (s.dev.leaf n).pc + 4 ∧ (d.leaf n).x = (s.dev.leaf n).x
      ∧ ∀ m, m ≠ n → d.leaf m = s.dev.leaf m := by
  obtain ⟨e, hmaps, hmapped⟩ := Dev.mapPrefetch_ok (n := n) (d := s.dev.hintRetired n) (k := k) (a := a) (acc := acc) (by rw [if_neg hk]; exact hmap)
  have hacc := Dev.Accounts.of_mapsOnly hmaps
  have hdrop := hacc.trans (Dev.prefetchLine_dropped (k := k) (acc := acc)
    (by rw [hmaps.memCheck, Dev.memCheck_hintRetired]; exact hcheck)
    (by rw [hacc.own.misses, Dev.leaf_hintRetired, Leaf.retire_misses]; exact hroom))
  have heff : prefetchEff n k a s.dev = e.prefetchLine n k acc := (prefetchEff_hint a hr hk).trans (Dev.prefetchGo_mapped hmapped)
  generalize e.prefetchLine n k acc = z at hdrop heff
  have hown := hdrop.own
  rw [Dev.leaf_hintRetired] at hown
  refine ⟨z, exec_of_powered (f := prefetchEff n k a) rfl hp heff hdrop.stays.board (by rw [hdrop.stays.power]; rfl), ?_, hdrop.stays.mem, ?_, ?_, ?_,
    fun m hm => ?_⟩
  · rw [hdrop.rest]
    rfl
  · rw [hown.misses, Leaf.retire_misses]
  · rw [hown.pc, Leaf.retire_pc]
  · rw [hown.x, Leaf.retire_x]
  · rw [hdrop.others m hm]
    exact Dev.leaf_modLeaf_other _ _ hm

end Sys2Proof.Machine

namespace Sys2Proof.Machine

/-- Settles O29, clause by clause: CBO.ZERO, prefetches that miss and that are dropped, FENCE.I, and WFI. -/
theorem leafHintsFencesAndWfi : Obligations.LeafHintsFencesAndWfi := by
  unfold Obligations.LeafHintsFencesAndWfi
  exact ⟨fun _ _ a acc hp hr hi hz hmap hpma hmain hcheck hserve hfull hevb =>
      cboZero_fills a acc hp hr hi hz hmap hpma hmain hcheck hserve hfull hevb,
    fun _ _ a k acc hp hr hmap hpma hmain hcheck hroom hline hevb => prefetch_misses a k acc hp hr hmap hpma hmain hcheck hroom hline hevb,
    fun _ _ a k acc hp hr hk hmap hcheck hroom => prefetch_dropped a k acc hp hr hk hmap hcheck hroom,
    fun _ _ hp hr => fenceI_retires hp hr, fun _ _ hp hr hi ht hw ho => wfi_idles hp hr hi ht hw ho⟩

end Sys2Proof.Machine
end

section
/-!
PROOFS. The issue of an evaluation word (spec/04): its frame, what it leaves of the engine, and how a command of it acts on the state.
-/

namespace Sys2Proof.Machine

/-! ### The frame of a word -/

namespace Dev.engineFrame

variable {d d' d'' : Dev} {n : Nat} {also : List RegName}

theorem refl (d : Dev) (n : Nat) (also : List RegName) : d.engineFrame d n also := ⟨rfl, fun _ _ => rfl, fun _ _ => rfl⟩

theorem trans (h : d.engineFrame d' n also) (h' : d'.engineFrame d'' n also) : d.engineFrame d'' n also := by
  obtain ⟨hrest, hothers, hreg⟩ := h
  obtain ⟨hrest', hothers', hreg'⟩ := h'
  exact ⟨by rw [hrest', hrest], fun m hm => (hothers' m hm).trans (hothers m hm), fun r hr => (hreg' r hr).trans (hreg r hr)⟩

/-- A frame that names fewer registers is one that names more. -/
theorem mono {more : List RegName} (h : d.engineFrame d' n also) (hs : also ⊆ more) : d.engineFrame d' n more := by
  obtain ⟨hrest, hothers, hreg⟩ := h
  refine ⟨hrest, hothers, fun r hr => hreg r (hr.imp_right fun hr hmem => hr ?_)⟩
  exact (List.mem_append.1 hmem).elim (fun h => List.mem_append_left _ h) fun h => List.mem_append_right _ (hs h)

theorem put (d : Dev) (n : Nat) (also : List RegName) (f : Fld) (v k : Nat) (hf : f.reg ∈ [RegName.LEE_PC, .LEE_CNT, .LEE_STAT] ++ also) :
    d.engineFrame (d.put f v n k) n also :=
  ⟨rfl, fun _ _ => rfl, fun r hr => d.reg_put_other f v n k fun e => by
    rw [e] at hr
    exact hr.elim (fun h => h rfl) fun h => h hf⟩

theorem modLee (d : Dev) (n : Nat) (also : List RegName) (f : Lee → Lee) : d.engineFrame (d.modLee n f) n also :=
  ⟨rfl, fun m hm => by rw [d.lee_modLee, if_neg hm], fun _ _ => rfl⟩

theorem block (d : Dev) (n : Nat) (also : List RegName) (why : Nat) : d.engineFrame (d.block n why) n also :=
  put d n also LEE_STAT.BLOCK why 0 (by simp [LEE_STAT.BLOCK])

theorem goto (d : Dev) (n : Nat) (also : List RegName) (pc : Nat) : d.engineFrame (d.goto n pc) n also :=
  put d n also LEE_PC.PC pc 0 (by simp [LEE_PC.PC])

theorem goNext (d : Dev) (n : Nat) (also : List RegName) : d.engineFrame (d.goNext n) n also := goto d n also _

/-- An event of an engine that its counters count. -/
theorem count (d : Dev) (n : Nat) (also : List RegName) (v k : Nat) : d.engineFrame (d.count LEE_CNT.COUNT v n k) n also :=
  put d n also LEE_CNT.COUNT _ k (by simp [LEE_CNT.COUNT])

theorem issued (d : Dev) (n : Nat) (also : List RegName) (h : EvalWord) (o : Opcode) : d.engineFrame (d.issued n h o) n also :=
  ⟨((Dev.leeOnly.refl d).issued n h o).eq, fun _ hm => d.issued_lee_other h o hm, fun r hr =>
    d.issued_reg n h o r (fun k e => by rw [e] at hr; simp at hr) fun e => by rw [e] at hr; simp at hr⟩

theorem leeOnly (h : d.engineFrame d' n also) : d.leeOnly d' := ⟨_, _, h.1⟩

/-- A register that the frame does not name keeps its value. -/
theorem reg (h : d.engineFrame d' n also) (r : Reg) (hr : r.name ∉ [RegName.LEE_PC, .LEE_CNT, .LEE_STAT] ++ also) : d'.reg r = d.reg r :=
  h.2.2 r (.inr hr)

theorem get (h : d.engineFrame d' n also) (f : Fld) (u k : Nat) (hf : f.reg ∉ [RegName.LEE_PC, .LEE_CNT, .LEE_STAT] ++ also) :
    d'.get f u k = d.get f u k := by
  unfold Dev.get; rw [h.reg _ hf]

theorem flag (h : d.engineFrame d' n also) (f : Fld) (u k : Nat) (hf : f.reg ∉ [RegName.LEE_PC, .LEE_CNT, .LEE_STAT] ++ also) :
    d'.flag f u k = d.flag f u k := by
  unfold Dev.flag; rw [h.get f u k hf]

theorem width (h : d.engineFrame d' n []) : d'.width n = d.width n := by
  unfold Dev.width; rw [h.get LEE_CTL.LANES n 0 (by decide)]

theorem index (h : d.engineFrame d' n []) (r : Nat) : d'.index n r = d.index n r :=
  Dev.index_of n r fun x hx => h.reg x (by rcases hx with e | e | e | e | e <;> simp [e])

theorem descriptor (h : d.engineFrame d' n []) (i : Nat) : d'.descriptor n i = d.descriptor n i := by
  unfold Dev.descriptor
  rw [h.flag LEE_MMD_CFG.VALID n i (by decide), h.flag LEE_MMD_CFG.LOC n i (by decide), h.get LEE_MMD_CFG.AW n i (by decide),
    h.get LEE_MMD_CFG.DEPTH n i (by decide), h.get LEE_MMD_BASE.BASE n i (by decide)]

theorem rowIndex (h : d.engineFrame d' n []) (i r : Nat) : d'.rowIndex n i r = d.rowIndex n i r := by
  unfold Dev.rowIndex
  rw [h.descriptor, h.width, h.get LEE_MAP2.MMEM_BASE n 0 (by decide)]

end Dev.engineFrame

/-! ### The engine that has issued a word -/

section
variable (d : Dev) (n : Nat) (h : EvalWord) (o : Opcode)

theorem Dev.issued_lee_eq : (d.issued n h o).lee n = { d.lee n with
    lastPc := ((d.issued n h o).lee n).lastPc, seq := ((d.issued n h o).lee n).seq, clock := ((d.issued n h o).lee n).clock
    busy := ((d.issued n h o).lee n).busy, pipe := ((d.issued n h o).lee n).pipe } := d.issued_lee n h o

@[simp] theorem Dev.issued_store : ((d.issued n h o).lee n).store = (d.lee n).store := by rw [d.issued_lee_eq n h o]
@[simp] theorem Dev.issued_valid : ((d.issued n h o).lee n).valid = (d.lee n).valid := by rw [d.issued_lee_eq n h o]
@[simp] theorem Dev.issued_arrivals : ((d.issued n h o).lee n).arrivals = (d.lee n).arrivals := by rw [d.issued_lee_eq n h o]
@[simp] theorem Dev.issued_memrds : ((d.issued n h o).lee n).memrds = (d.lee n).memrds := by rw [d.issued_lee_eq n h o]
@[simp] theorem Dev.issued_requests : ((d.issued n h o).lee n).mem = (d.lee n).mem := by rw [d.issued_lee_eq n h o]
@[simp] theorem Dev.issued_outs : ((d.issued n h o).lee n).outs = (d.lee n).outs := by rw [d.issued_lee_eq n h o]
@[simp] theorem Dev.issued_sends : ((d.issued n h o).lee n).sends = (d.lee n).sends := by rw [d.issued_lee_eq n h o]
@[simp] theorem Dev.issued_drain : ((d.issued n h o).lee n).drain = (d.lee n).drain := by rw [d.issued_lee_eq n h o]

/-- The issue of a word leaves the store. -/
@[simp] theorem Dev.word_issued (w : Nat) : ((d.issued n h o).lee n).word w = (d.lee n).word w := by
  unfold Lee.word; rw [d.issued_store, d.issued_valid]

@[simp] theorem Dev.issued_seq : ((d.issued n h o).lee n).seq = (d.lee n).seq + 1 := by
  unfold Dev.issued Dev.block
  dsimp only
  rw [Dev.lee_put, Dev.lee_count, Dev.lee_count, Dev.lee_count, Dev.lee_setLee]

/-- What is kept of the word is kept in front of what is kept of earlier ones; it has written and taken nothing yet (R111). -/
theorem Dev.issued_pipe : ∃ (x : Issued) (rest : List Issued), ((d.issued n h o).lee n).pipe = x :: rest ∧ x.seq = (d.lee n).seq
    ∧ x.pc = d.get LEE_PC.PC n ∧ x.old = [] ∧ x.took = [] ∧ ∀ y ∈ rest, y ∈ (d.lee n).pipe := by
  unfold Dev.issued Dev.block
  dsimp only
  rw [Dev.lee_put, Dev.lee_count, Dev.lee_count, Dev.lee_count, Dev.lee_setLee]
  dsimp only
  split
  · exact ⟨_, _, List.take_succ_cons, rfl, rfl, rfl, rfl, fun _ => List.mem_of_mem_take⟩
  · exact ⟨_, _, rfl, rfl, rfl, rfl, rfl, fun _ => id⟩

@[simp] theorem Dev.issued_pc : (d.issued n h o).get LEE_PC.PC n = d.get LEE_PC.PC n := by
  unfold Dev.get
  rw [d.issued_reg n h o _ (fun k => by simp [LEE_PC.PC]) (by simp [LEE_PC.PC])]

/-- A word that issues waits for nothing. -/
@[simp] theorem Dev.issued_block : (d.issued n h o).get LEE_STAT.BLOCK n = 0 := by
  unfold Dev.issued Dev.block
  exact Dev.get_put_same _ _ _ _ _ (by decide) (by decide)

/-- Its engine runs as before. -/
@[simp] theorem Dev.issued_run : (d.issued n h o).flag LEE_STAT.RUN n = d.flag LEE_STAT.RUN n := by
  unfold Dev.issued Dev.block Dev.count
  dsimp only
  rw [Dev.flag_put_beside _ LEE_STAT.BLOCK LEE_STAT.RUN _ _ _ rfl (by decide) (by decide) (by decide) (by decide),
    Dev.flag_put_name _ LEE_CNT.COUNT LEE_STAT.RUN _ _ _ _ _ (by decide), Dev.flag_put_name _ LEE_CNT.COUNT LEE_STAT.RUN _ _ _ _ _ (by decide),
    Dev.flag_put_name _ LEE_CNT.COUNT LEE_STAT.RUN _ _ _ _ _ (by decide), Dev.flag_setLee]

end

/-! ### The program counter -/

theorem Dev.goNext_pc (d : Dev) (n : Nat) : (d.goNext n).get LEE_PC.PC n = (d.get LEE_PC.PC n + 1) % 2 ^ 28 := d.goto_pc n _

@[simp] theorem Dev.lee_goNext (d : Dev) (n m : Nat) : (d.goNext n).lee m = d.lee m := rfl
@[simp] theorem Dev.lee_block (d : Dev) (n why m : Nat) : (d.block n why).lee m = d.lee m := rfl

/-! ### How the command of a word acts on the state -/

/-- The engine runs where a word of it issues. -/
theorem Dev.wordIssues.run {d : Dev} {n : Nat} {o : Opcode} (h : d.wordIssues n o) : d.flag LEE_STAT.RUN n = true := by
  obtain ⟨hmay, _⟩ := h
  simp only [Dev.mayIssue, Bool.and_eq_true] at hmay
  exact hmay.1.1.1.2

/-- Nothing drains where a word issues. -/
theorem Dev.wordIssues.drain {d : Dev} {n : Nat} {o : Opcode} (h : d.wordIssues n o) : (d.lee n).drain = .none := by
  obtain ⟨hmay, _⟩ := h
  simp only [Dev.mayIssue, Bool.and_eq_true, decide_eq_true_eq] at hmay
  exact hmay.1.2

section
variable {s : State} {n : Nat} {also : List RegName} {c : Instr} {f : Dev → Dev} {d : Dev}

/-- A command whose operation stays within an engine. -/
theorem exec_of_engineFrame (he : exec c s = .next (s.on f)) (hp : s.dev.powered = true) (hf : f s.dev = d) (h : s.dev.engineFrame d n also) :
    exec c s = .next (s.withDev d) :=
  exec_of_powered he hp hf h.leeOnly.board (by rw [h.leeOnly.power])

/-- A command whose operation stays within an engine, which then makes what requests it can. -/
theorem exec_then_leeServe (he : exec c s = .next (s.on (leeThen n f))) (hp : s.dev.powered = true) (hf : f s.dev = d)
    (h : s.dev.engineFrame d n also) : exec c s = .next (s.withDev (d.leeServe n)) := by
  have hstays := h.leeOnly.stays.trans (d.leeServe_stays n)
  exact exec_of_powered (d := d.leeServe n) he hp (by rw [leeThen, hf]) hstays.board (by rw [hstays.power])

end

end Sys2Proof.Machine
end

section
/-!
PROOFS. Words that write a run of the store, and words that move the program counter alone (spec/04, R91 to R94, R105).
-/

namespace Sys2Proof.Machine

/-! ### A word under way -/

/-- A word that is under way has left the store, its program counter and the rest of its frame as they were. -/
structure Dev.UnderWay (d : Dev) (n : Nat) (d' : Dev) : Prop where
  frame : d.engineFrame d' n []
  pc : d'.get LEE_PC.PC n = d.get LEE_PC.PC n
  word : ∀ w, (d'.lee n).word w = (d.lee n).word w

namespace Dev.UnderWay

variable {d d' d'' : Dev} {n : Nat}

theorem issued (d : Dev) (n : Nat) (h : EvalWord) (o : Opcode) : d.UnderWay n (d.issued n h o) :=
  ⟨.issued d n [] h o, d.issued_pc n h o, d.word_issued n h o⟩

/-- A change of the engine that leaves its store. -/
theorem modLee (h : d.UnderWay n d') (f : Lee → Lee) (hs : ∀ e, (f e).store = e.store) (hv : ∀ e, (f e).valid = e.valid) :
    d.UnderWay n (d'.modLee n f) :=
  ⟨h.frame.trans (.modLee d' n [] f), h.pc, fun w => by rw [Dev.lee_modLee, if_pos rfl, ← h.word, Lee.word, hs, hv, ← Lee.word]⟩

theorem count (h : d.UnderWay n d') (v k : Nat) : d.UnderWay n (d'.count LEE_CNT.COUNT v n k) :=
  ⟨h.frame.trans (.count d' n [] v k), (Dev.get_put_name d' LEE_CNT.COUNT LEE_PC.PC _ n k n 0 (by decide)).trans h.pc, h.word⟩

theorem window (h : d.UnderWay n d') (f width : Nat) : (d'.lee n).window f width = (d.lee n).window f width := by
  unfold Lee.window; simp only [h.word]

theorem srcWindow (h : d.UnderWay n d') (w : EvalWord) (k : Nat) : d'.srcWindow n w k = d.srcWindow n w k := by
  unfold Dev.srcWindow; rw [h.window, h.frame.index, h.frame.width]

theorem evalWords (h : d.UnderWay n d') (w : EvalWord) (mask : Nat) : d'.evalWords n w mask = d.evalWords n w mask := by
  unfold Dev.evalWords; simp only [h.frame.width, h.frame.index, h.window, h.srcWindow]

theorem goNext_pc (h : d.UnderWay n d') : (d'.goNext n).get LEE_PC.PC n = (d.get LEE_PC.PC n + 1) % 2 ^ 28 := by
  rw [Dev.goNext_pc, h.pc]

end Dev.UnderWay

/-! ### Words that write a run of the store -/

/-- A word has written a run of the store and gone on to the following word. -/
structure Dev.Wrote (d : Dev) (n first : Nat) (l : List Word) (d' : Dev) : Prop where
  frame : d.engineFrame d' n []
  pc : d'.get LEE_PC.PC n = (d.get LEE_PC.PC n + 1) % 2 ^ 28
  word : ∀ w, (d'.lee n).word w = ((d.lee n).putWords first l).word w

theorem Dev.UnderWay.puts {d d' : Dev} {n : Nat} (h : d.UnderWay n d') (first : Nat) (l : List Word) :
    d.Wrote n first l ((d'.modLee n fun e => e.puts first l).goNext n) :=
  ⟨h.frame.trans ((Dev.engineFrame.modLee d' n [] _).trans (.goNext _ n [])), h.goNext_pc, fun w => by
    rw [Dev.lee_goNext, Dev.lee_modLee, if_pos rfl, Lee.word_puts, Lee.word_putWords, h.word]⟩

namespace Dev.Wrote

variable {d d' : Dev} {n first : Nat} {l : List Word}

theorem sameOutside (h : d.Wrote n first l d') (f count : Nat) (hf : f ≤ first) (hl : first + l.length ≤ f + count) :
    (d.lee n).sameOutside (d'.lee n) f count := fun w hw => by
  rw [h.word, Lee.word_putWords, if_neg (by omega)]

theorem window (h : d.Wrote n first l d') (f width : Nat) : (d'.lee n).window f width = ((d.lee n).putWords first l).window f width := by
  unfold Lee.window; simp only [h.word]

/-- A window that was written whole has the nets that were written. -/
theorem netOf_window {f width net k : Nat} (h : d.Wrote n (4 * f) l d') (hl : l.length = 4 * width) (hnet : net < 256) (hk : k < width) :
    netOf ((d'.lee n).window f width) width net k = netOf l width net k := by
  rw [h.window, netOf_window_putWords _ _ _ _ _ _ hl hnet hk]

end Dev.Wrote

/-! ### EVAL and EVALM -/

theorem Dev.width_cases (d : Dev) (n : Nat) : d.width n = 1 ∨ d.width n = 8 ∨ d.width n = 64 := by
  unfold Dev.width laneWidth; split <;> simp

theorem EvalWord.dgrp_lt (h : EvalWord) : h.dgrp < 8 := Word.bits_lt _ _ _

/-- The windows of the enabled sources of an EVAL. -/
def Dev.evalSources (d : Dev) (n : Nat) (h : EvalWord) : List (List Word) :=
  (List.range 4).map fun i => if bit h.srcEn i then d.srcWindow n h i else []

/-- The value of a net and lane of the destination after an EVAL whose lane mask is `mask`. -/
def Dev.evalNet (d : Dev) (n : Nat) (h : EvalWord) (mask net k : Nat) : Bool :=
  if net / 32 = h.dgrp && bit mask k then slotResult h (d.evalSources n h) (d.width n) (net % 32) k
  else netOf ((d.lee n).window (d.index n h.dst) (d.width n)) (d.width n) net k

/-- The same in a lane of the mask. -/
theorem Dev.evalNet_of_bit (d : Dev) (n : Nat) (h : EvalWord) {mask k : Nat} (net : Nat) (hbit : bit mask k = true) : d.evalNet n h mask net k =
    if net / 32 = h.dgrp then slotResult h (d.evalSources n h) (d.width n) (net % 32) k
    else netOf ((d.lee n).window (d.index n h.dst) (d.width n)) (d.width n) net k := by
  simp [Dev.evalNet, hbit]

theorem Dev.evalWords_eq (d : Dev) (n : Nat) (h : EvalWord) (mask : Nat) : d.evalWords n h mask =
    (List.range (groupWords (d.width n) h.dgrp).2).map fun i => wordOfBits fun b =>
      d.evalNet n h mask ((64 * ((groupWords (d.width n) h.dgrp).1 + i) + b) / d.width n)
        ((64 * ((groupWords (d.width n) h.dgrp).1 + i) + b) % d.width n) := rfl

/-- The nets of a group lie in the group's words (R82). -/
theorem groupWords_mem {width g net k : Nat} (hw : width = 1 ∨ width = 8 ∨ width = 64) (hg : net / 32 = g) (hk : k < width) :
    64 * (groupWords width g).1 ≤ net * width + k
      ∧ net * width + k < 64 * ((groupWords width g).1 + (groupWords width g).2) := by
  rcases hw with rfl | rfl | rfl <;> simp [groupWords] <;> omega

/-- The words of a group lie in its window. -/
theorem groupWords_le {width g : Nat} (hw : width = 1 ∨ width = 8 ∨ width = 64) (hg : g < 8) :
    (groupWords width g).1 + (groupWords width g).2 ≤ 4 * width := by
  rcases hw with rfl | rfl | rfl <;> simp [groupWords] <;> omega

/-- The destination of an EVAL once the words of its group are written. -/
theorem Dev.netOf_evalWords (d : Dev) (n : Nat) (h : EvalWord) (mask : Nat) {net k : Nat} (hnet : net < 256) (hk : k < d.width n) :
    netOf (((d.lee n).putWords (4 * d.index n h.dst + (groupWords (d.width n) h.dgrp).1) (d.evalWords n h mask)).window
      (d.index n h.dst) (d.width n)) (d.width n) net k = d.evalNet n h mask net k := by
  rw [netOf_window_puts_part _ _ _ _ _ _ _ hnet hk, d.length_evalWords]
  split
  · rename_i hin
    rw [d.evalWords_eq, List.getD_eq_getElem?_getD, List.getElem?_map, List.getElem?_range (by omega)]
    simp only [Option.map_some, Option.getD_some]
    have hat : 64 * ((groupWords (d.width n) h.dgrp).1 + ((net * d.width n + k) / 64 - (groupWords (d.width n) h.dgrp).1))
        + (net * d.width n + k) % 64 = k + d.width n * net := by
      rw [Nat.mul_comm (d.width n) net]
      omega
    rw [getLsbD_wordOfBits _ _ (Nat.mod_lt _ (by decide)), hat, Nat.add_mul_div_left _ _ (by omega), Nat.div_eq_of_lt hk, Nat.zero_add,
      Nat.add_mul_mod_self_left, Nat.mod_eq_of_lt hk]
  · rename_i hout
    have hg : net / 32 ≠ h.dgrp := fun hg => hout (groupWords_mem (d.width_cases n) hg hk)
    simp [Dev.evalNet, hg]

/-- What an EVAL or EVALM writes: with no lane in its mask, nothing. -/
def Dev.evalRun (d : Dev) (n : Nat) (h : EvalWord) (mask : Nat) : List Word :=
  if mask % 2 ^ d.width n = 0 then [] else d.evalWords n h mask

theorem Dev.length_evalRun_le (d : Dev) (n : Nat) (h : EvalWord) (mask : Nat) :
    (groupWords (d.width n) h.dgrp).1 + (d.evalRun n h mask).length ≤ 4 * d.width n := by
  have hle := groupWords_le (d.width_cases n) h.dgrp_lt
  unfold Dev.evalRun
  split
  · exact (Nat.le_add_right _ _).trans hle
  · rwa [d.length_evalWords]

theorem Dev.netOf_evalRun (d : Dev) (n : Nat) (h : EvalWord) (mask : Nat) {net k : Nat} (hnet : net < 256) (hk : k < d.width n) :
    netOf (((d.lee n).putWords (4 * d.index n h.dst + (groupWords (d.width n) h.dgrp).1) (d.evalRun n h mask)).window
      (d.index n h.dst) (d.width n)) (d.width n) net k = d.evalNet n h mask net k := by
  unfold Dev.evalRun
  split
  · rename_i hmask
    have hbit : bit mask k = false := by
      have hmod : (mask % 2 ^ d.width n).testBit k = mask.testBit k := by simp [Nat.testBit_mod_two_pow, hk]
      rw [bit, ← hmod, hmask, Nat.zero_testBit]
    simp [Dev.evalNet, hbit, Lee.putWords]
  · exact d.netOf_evalWords n h mask hnet hk

/-- The engine in which an EVAL or EVALM has issued and is counted. -/
theorem Dev.UnderWay.counted (d : Dev) (n : Nat) (h : EvalWord) (o : Opcode) : d.UnderWay n ((d.issued n h o).evalCounted n) :=
  (Dev.UnderWay.issued d n h o).modLee _ (fun _ => rfl) fun _ => rfl

theorem Dev.UnderWay.evalWrite {d d' : Dev} {n : Nat} (hw : d.UnderWay n d') (h : EvalWord) (mask : Nat) :
    d.Wrote n (4 * d.index n h.dst + (groupWords (d.width n) h.dgrp).1) (d.evalRun n h mask) ((d'.evalWrite n h mask).goNext n) := by
  unfold Dev.evalWrite Dev.evalRun
  rw [hw.frame.width]
  split
  · exact ⟨hw.frame.trans (.goNext _ n []), hw.goNext_pc, hw.word⟩
  · rw [hw.frame.index, hw.evalWords]
    exact hw.puts _ _

/-- What an EVAL or EVALM leaves of its destination and of the store. -/
theorem Dev.evalWrite_spec {d d' : Dev} {n : Nat} {h : EvalWord} {mask : Nat}
    (hw : d.Wrote n (4 * d.index n h.dst + (groupWords (d.width n) h.dgrp).1) (d.evalRun n h mask) d') :
    (d.lee n).sameOutside (d'.lee n) (4 * d.index n h.dst) (4 * d.width n) ∧ ∀ net k, net < 256 → k < d.width n →
      netOf ((d'.lee n).window (d.index n h.dst) (d.width n)) (d.width n) net k = d.evalNet n h mask net k := by
  have hle := d.length_evalRun_le n h mask
  exact ⟨hw.sameOutside _ _ (Nat.le_add_right _ _) (by omega), fun net k hnet hk => by rw [hw.window, d.netOf_evalRun n h mask hnet hk]⟩

/-- Settles O16: the words of the group are the results of its slots in the lanes of the mask, and no other word of the store changes. -/
theorem evalWritesTheResultsOfItsSlots : Obligations.EvalWritesTheResultsOfItsSlots := by
  unfold Obligations.EvalWritesTheResultsOfItsSlots
  refine ⟨fun s n hp hi => ?eval, fun s n hp hi => ?evalm⟩
  case eval =>
    have hw := (Dev.UnderWay.counted s.dev n (s.dev.fetchWord n) .eval).evalWrite (s.dev.fetchWord n) (2 ^ 64 - 1)
    obtain ⟨hout, hnets⟩ := Dev.evalWrite_spec hw
    refine ⟨_, exec_of_engineFrame (f := evalEff n .none) rfl hp (s.dev.issueWord_ok n .eval _ hi) hw.frame, hw.frame, hw.pc, hout,
      fun net k hnet hk => (hnets net k hnet hk).trans (Dev.evalNet_of_bit _ _ _ _ ?_)⟩
    rw [bit, Nat.testBit_two_pow_sub_one]
    exact decide_eq_true (hk.trans_le (s.dev.width_le n))
  case evalm =>
    have hw := (Dev.UnderWay.counted s.dev n (s.dev.fetchWord n) .evalm).evalWrite (s.dev.fetchWord n) (s.dev.fetchWord n).imm.toNat
    obtain ⟨hout, hnets⟩ := Dev.evalWrite_spec hw
    refine ⟨_, exec_of_engineFrame (f := evalmEff n .none) rfl hp (s.dev.issueWord_ok n .evalm _ hi) hw.frame, hw.frame, hw.pc, hout,
      fun net k hnet hk => (hnets net k hnet hk).trans ?_⟩
    simp [Dev.evalNet, bit, Dev.evalSources]

/-! ### MUX and COPY -/

/-- A word that writes its whole destination. -/
theorem Dev.UnderWay.writeDst {d d' : Dev} {n : Nat} (hw : d.UnderWay n d') (h : EvalWord) (win : List Word) :
    d.Wrote n (4 * d.index n h.dst) win ((d'.writeDst n h win).goNext n) := by
  unfold Dev.writeDst
  rw [hw.frame.index]
  exact hw.puts _ _

theorem Dev.length_srcWindow (d : Dev) (n : Nat) (h : EvalWord) (k : Nat) : (d.srcWindow n h k).length = 4 * d.width n := by
  simp [Dev.srcWindow, Lee.window]

theorem Dev.netOf_muxWindow (d : Dev) {n : Nat} (h : EvalWord) {net k : Nat} (hnet : net < 256) (hk : k < d.width n) :
    netOf (d.muxWindow n h) (d.width n) net k =
      if netOf (d.srcWindow n h 2) (d.width n) (if h.bcast then h.selnet else net) k then netOf (d.srcWindow n h 1) (d.width n) net k
      else netOf (d.srcWindow n h 0) (d.width n) net k := by
  unfold Dev.muxWindow
  rw [netOf_windowOf _ _ _ _ hnet hk]

/-- Settles O17: each writes its whole destination, MUX the selection of its sources and COPY its source. -/
theorem muxAndCopyWriteTheirWindow : Obligations.MuxAndCopyWriteTheirWindow := by
  unfold Obligations.MuxAndCopyWriteTheirWindow
  refine ⟨fun s n hp hi => ?mux, fun s n hp hi => ?copy⟩
  case mux =>
    have hu := Dev.UnderWay.issued s.dev n (s.dev.fetchWord n) .mux
    have hw := hu.writeDst (s.dev.fetchWord n) (s.dev.muxWindow n (s.dev.fetchWord n))
    refine ⟨_, exec_of_engineFrame (f := muxEff n .none) rfl hp (s.dev.issueWord_ok n .mux _ hi) hw.frame, hw.frame, hw.pc,
      hw.sameOutside _ _ le_rfl (by rw [s.dev.length_muxWindow]), fun net k hnet hk => ?_⟩
    rw [hw.netOf_window (s.dev.length_muxWindow _ _) hnet hk, s.dev.netOf_muxWindow _ hnet hk]
  case copy =>
    have hu := Dev.UnderWay.issued s.dev n (s.dev.fetchWord n) .copy
    have hw := hu.writeDst (s.dev.fetchWord n) (s.dev.srcWindow n (s.dev.fetchWord n) 0)
    exact ⟨_, exec_of_engineFrame (f := copyEff n .none) rfl hp (s.dev.issueWord_ok n .copy _ hi) hw.frame, hw.frame, hw.pc,
      hw.sameOutside _ _ le_rfl (by rw [s.dev.length_srcWindow]),
      fun net k hnet hk => hw.netOf_window (s.dev.length_srcWindow _ _ _) hnet hk⟩

/-! ### NOP, JUMP and LOOP -/

/-- The two fields of a loop counter: one bit, and 31 bits beside it in the same register, which is one of two. -/
theorem loopFields_spec (i : Nat) : (loopFields i).1.reg = (loopFields i).2.reg ∧ (loopFields i).2.reg ∈ [RegName.LEE_LC01, .LEE_LC23]
    ∧ (loopFields i).1.lo = (loopFields i).1.hi ∧ (loopFields i).1.hi < 64 ∧ (loopFields i).2.hi = (loopFields i).2.lo + 30
    ∧ (loopFields i).2.hi < 64 ∧ ((loopFields i).2.hi < (loopFields i).1.lo ∨ (loopFields i).1.hi < (loopFields i).2.lo) := by
  unfold loopFields; split <;> decide

theorem loopFields_reg_ne_pc (i : Nat) : (loopFields i).2.reg ≠ .LEE_PC := by
  obtain ⟨-, hreg, -⟩ := loopFields_spec i
  intro e
  rw [e] at hreg
  exact absurd hreg (by decide)

/-- The counter that a LOOP names, once its fields are written. -/
theorem Dev.loop_written (d : Dev) (n i a v : Nat) (ha : a < 2) (hv : v < 2 ^ 31) :
    ((d.put (loopFields i).1 a n).put (loopFields i).2 v n).get (loopFields i).1 n = a
      ∧ ((d.put (loopFields i).1 a n).put (loopFields i).2 v n).get (loopFields i).2 n = v := by
  obtain ⟨hreg, -, hone, hlt, hwidth, hlt', hbeside⟩ := loopFields_spec i
  have h1 : (loopFields i).1.hi - (loopFields i).1.lo + 1 = 1 := by omega
  have h31 : (loopFields i).2.hi - (loopFields i).2.lo + 1 = 31 := by omega
  constructor
  · rw [Dev.get_put_beside _ _ _ _ _ _ hreg (by omega) hlt' hone.le hbeside, Dev.get_put_same _ _ _ _ _ hone.le hlt, h1]
    exact Nat.mod_eq_of_lt ha
  · rw [Dev.get_put_same _ _ _ _ _ (by omega) hlt', h31]
    exact Nat.mod_eq_of_lt hv

theorem Dev.loopValue_lt (d : Dev) (n : Nat) (h : EvalWord) : d.loopValue n h < 2 ^ 31 := by
  unfold Dev.loopValue loopFields
  dsimp only
  split <;> split <;> exact Word.bits_lt _ _ _

/-- The fields of a counter change nothing but it. -/
theorem Dev.engineFrame.loop (d : Dev) (n i a v : Nat) :
    d.engineFrame ((d.put (loopFields i).1 a n).put (loopFields i).2 v n) n [.LEE_LC01, .LEE_LC23] := by
  obtain ⟨hreg, hmem, -⟩ := loopFields_spec i
  exact (Dev.engineFrame.put d n _ _ a 0 (List.mem_append_right _ (hreg ▸ hmem))).trans (.put _ n _ _ v 0 (List.mem_append_right _ hmem))

/-- The program counter is in no loop counter. -/
theorem Dev.loop_pc (d : Dev) (n i a v : Nat) :
    ((d.put (loopFields i).1 a n).put (loopFields i).2 v n).get LEE_PC.PC n = d.get LEE_PC.PC n := by
  have hne := loopFields_reg_ne_pc i
  rw [Dev.get_put_name _ _ LEE_PC.PC _ _ _ _ _ hne.symm, Dev.get_put_name _ _ LEE_PC.PC _ _ _ _ _ (by rw [(loopFields_spec i).1]; exact hne.symm)]

/-- Nor are they in the program counter. -/
theorem Dev.goto_loop (d : Dev) (n pc i : Nat) :
    (d.goto n pc).flag (loopFields i).1 n = d.flag (loopFields i).1 n ∧ (d.goto n pc).get (loopFields i).2 n = d.get (loopFields i).2 n := by
  have hne := loopFields_reg_ne_pc i
  exact ⟨Dev.flag_put_name _ _ _ _ _ _ _ _ (by rw [(loopFields_spec i).1]; exact hne), Dev.get_put_name _ _ _ _ _ _ _ _ hne⟩

/-- A LOOP with its counter armed as `a` and at `v`, before the program counter moves. -/
def Dev.looped (d : Dev) (n : Nat) (h : EvalWord) (a v : Nat) : Dev :=
  ((d.issued n h .loop).put (loopFields (h.imm.bits 29 28)).1 a n).put (loopFields (h.imm.bits 29 28)).2 v n

theorem loopEff_ok (d : Dev) (n : Nat) (hi : d.wordIssues n .loop) : loopEff n .none d =
    if 0 < d.loopValue n (d.fetchWord n) then
      (d.looped n (d.fetchWord n) 1 (d.loopValue n (d.fetchWord n) - 1)).goto n ((d.fetchWord n).imm.bits 27 0)
    else (d.looped n (d.fetchWord n) 0 0).goNext n := d.issueWord_ok n .loop _ hi

theorem Dev.looped_pc (d : Dev) (n : Nat) (h : EvalWord) (a v : Nat) : (d.looped n h a v).get LEE_PC.PC n = d.get LEE_PC.PC n := by
  rw [Dev.looped, Dev.loop_pc, Dev.issued_pc]

/-- What a LOOP that goes to `pc` leaves. -/
theorem Dev.looped_spec (d : Dev) (n : Nat) (h : EvalWord) {a v : Nat} (pc : Nat) (ha : a < 2) (hv : v < 2 ^ 31) :
    d.engineFrame ((d.looped n h a v).goto n pc) n [.LEE_LC01, .LEE_LC23]
      ∧ ((d.looped n h a v).goto n pc).flag (loopFields (h.imm.bits 29 28)).1 n = (a != 0)
      ∧ ((d.looped n h a v).goto n pc).get (loopFields (h.imm.bits 29 28)).2 n = v
      ∧ ∀ w, (((d.looped n h a v).goto n pc).lee n).word w = (d.lee n).word w := by
  obtain ⟨harmed, hcount⟩ := (d.issued n h .loop).loop_written n (h.imm.bits 29 28) a v ha hv
  obtain ⟨hflag, hget⟩ := (d.looped n h a v).goto_loop n pc (h.imm.bits 29 28)
  refine ⟨(Dev.engineFrame.issued d n _ h .loop).trans ((Dev.engineFrame.loop _ n _ a v).trans (.goto _ n _ pc)), ?_, ?_,
    d.word_issued n h .loop⟩
  · rw [hflag, Dev.flag, Dev.looped, harmed]
  · rw [hget, Dev.looped, hcount]

/-- Settles O15: each issues and moves the program counter; a LOOP writes its counter beside. -/
theorem nopJumpLoopMoveTheProgramCounter : Obligations.NopJumpLoopMoveTheProgramCounter := by
  unfold Obligations.NopJumpLoopMoveTheProgramCounter
  refine ⟨fun s n hp hi => ?nop, fun s n hp hi => ?jump, fun s n hp hi hv => ?again, fun s n hp hi hv => ?past⟩
  case nop =>
    have hu := Dev.UnderWay.issued s.dev n (s.dev.fetchWord n) .nop
    have hframe := hu.frame.trans (.goNext _ n [])
    exact ⟨_, exec_of_engineFrame (f := nopEff n .none) rfl hp (s.dev.issueWord_ok n .nop _ hi) hframe, hframe, hu.goNext_pc, hu.word⟩
  case jump =>
    have hu := Dev.UnderWay.issued s.dev n (s.dev.fetchWord n) .jump
    have hframe := hu.frame.trans (.goto _ n [] ((s.dev.fetchWord n).imm.bits 27 0))
    refine ⟨_, exec_of_engineFrame (f := jumpEff n .none) rfl hp (s.dev.issueWord_ok n .jump _ hi) hframe, hframe, ?_, hu.word⟩
    rw [Dev.goto_pc, Nat.mod_eq_of_lt (Word.bits_lt _ 27 0)]
  case again =>
    have hlt := s.dev.loopValue_lt n (s.dev.fetchWord n)
    obtain ⟨hframe, harmed, hcount, hword⟩ := s.dev.looped_spec n (s.dev.fetchWord n) (a := 1)
      (v := s.dev.loopValue n (s.dev.fetchWord n) - 1) ((s.dev.fetchWord n).imm.bits 27 0) (by decide) (by omega)
    refine ⟨_, exec_of_engineFrame (f := loopEff n .none) rfl hp ((loopEff_ok s.dev n hi).trans (if_pos hv)) hframe, hframe, ?_, harmed,
      hcount, hword⟩
    rw [Dev.goto_pc, Nat.mod_eq_of_lt (Word.bits_lt _ 27 0)]
  case past =>
    obtain ⟨hframe, harmed, _, hword⟩ := s.dev.looped_spec n (s.dev.fetchWord n) (a := 0) (v := 0)
      ((s.dev.looped n (s.dev.fetchWord n) 0 0).get LEE_PC.PC n + 1) (by decide) (by decide)
    refine ⟨_, exec_of_engineFrame (f := loopEff n .none) rfl hp ((loopEff_ok s.dev n hi).trans (if_neg (by omega))) hframe, hframe, ?_, harmed,
      hword⟩
    rw [Dev.goNext_pc, Dev.looped_pc]

end Sys2Proof.Machine
end

section
/-!
PROOFS. Model memories (spec/04, R95 to R97): MEMRD and MEMWR of the store and of memory, and the return of a MEMRD's last line.
-/

namespace Sys2Proof.Machine

/-! ### MEMRD of the store -/

/-- A MEMRD or MEMWR that has issued, and has counted its lane accesses beyond DEPTH. -/
theorem Dev.UnderWay.countedBeyond (d : Dev) (n : Nat) (h : EvalWord) (o : Opcode) (depth : Nat) (rows : List Nat) :
    d.UnderWay n ((d.issued n h o).countBeyond n depth rows) := (Dev.UnderWay.issued d n h o).count _ 7

theorem Dev.netOf_memrdWindow (d : Dev) (n : Nat) (h : EvalWord) (rows : List Nat) {net k : Nat} (hnet : net < 256) (hk : k < d.width n) :
    netOf (d.memrdWindow n h rows) (d.width n) net k = (decide (rows.getD k 0 < (d.descriptor n h.mmd).depth) &&
      netOf ((d.lee n).window (d.rowIndex n h.mmd (rows.getD k 0)) (d.width n)) (d.width n) net k) := by
  unfold Dev.memrdWindow
  rw [netOf_windowOf _ _ _ _ hnet hk]

theorem memrdEff_store (d : Dev) (n : Nat) (hi : d.wordIssues n .memrd) (hs : (d.descriptor n (d.fetchWord n).mmd).dram = false) :
    memrdEff n .none d = ((((d.issued n (d.fetchWord n) .memrd).countBeyond n (d.descriptor n (d.fetchWord n).mmd).depth
      (d.rows n (d.fetchWord n))).modLee n fun e => e.puts (4 * d.index n (d.fetchWord n).dst)
        (d.memrdWindow n (d.fetchWord n) (d.rows n (d.fetchWord n)))).goNext n) := by
  rw [memrdEff, d.issueWord_ok n .memrd _ hi]
  dsimp only
  rw [hs, if_neg (by simp), if_pos (by simp)]

/-! ### MEMWR of the store -/

/-- Rows of a store-placed memory in which some lanes have been written: a net and lane has the data where its lane and row are among
them, and its old value elsewhere. -/
structure Dev.RowsWritten (d : Dev) (n i : Nat) (data : List Word) (lanes : List (Nat × Nat)) (d' : Dev) : Prop where
  frame : d.engineFrame d' n []
  pc : d'.get LEE_PC.PC n = d.get LEE_PC.PC n
  net : ∀ r net k, net < 256 → k < d.width n → netOf ((d'.lee n).window (d.rowIndex n i r) (d.width n)) (d.width n) net k =
    if (k, r) ∈ lanes then netOf data (d.width n) net k else netOf ((d.lee n).window (d.rowIndex n i r) (d.width n)) (d.width n) net k

/-- A window that a run of words does not meet reads as before. -/
theorem Lee.window_puts_apart (e : Lee) {f g width : Nat} {l : List Word} (hl : l.length = 4 * width) (h : f + width ≤ g ∨ g + width ≤ f) :
    (e.puts (4 * f) l).window g width = e.window g width := by
  unfold Lee.window
  refine List.map_congr_left fun i hi => ?_
  rw [List.mem_range] at hi
  rw [Lee.word_puts, if_neg (by omega)]

/-- Two rows share no index. -/
theorem Dev.rowIndex_apart (d : Dev) (n i : Nat) {r r' : Nat} (h : r ≠ r') :
    d.rowIndex n i r + d.width n ≤ d.rowIndex n i r' ∨ d.rowIndex n i r' + d.width n ≤ d.rowIndex n i r := by
  have step : ∀ a b : Nat, a < b → a * d.width n + d.width n ≤ b * d.width n := fun a b hab => by
    rw [← Nat.succ_mul]
    exact Nat.mul_le_mul_right _ hab
  unfold Dev.rowIndex
  rcases Nat.lt_or_gt_of_ne h with hlt | hlt
  · have := step _ _ hlt; omega
  · have := step _ _ hlt; omega

theorem Dev.RowsWritten.storeLane {d d' : Dev} {n i : Nat} {data : List Word} {lanes : List (Nat × Nat)} (h : d.RowsWritten n i data lanes d')
    (p : Nat × Nat) : d.RowsWritten n i data (lanes ++ [p]) (d'.memwrStoreLane n i p.2 p.1 data) := by
  have hmod : d'.engineFrame (d'.memwrStoreLane n i p.2 p.1 data) n [] := by
    unfold Dev.memwrStoreLane
    exact .modLee d' n [] _
  refine ⟨h.frame.trans hmod, h.pc, fun r net k hnet hk => ?_⟩
  unfold Dev.memwrStoreLane
  dsimp only
  rw [Dev.lee_modLee, if_pos rfl, h.frame.width, h.frame.rowIndex]
  obtain ⟨l, r'⟩ := p
  by_cases hr : r = r'
  · subst hr
    rw [Lee.puts, netOf_window_putWords _ _ _ _ _ _ (length_windowOf _ _) hnet hk, netOf_windowOf _ _ _ _ hnet hk, h.net r net k hnet hk]
    by_cases hkl : k = l
    · simp [hkl]
    · simp [hkl]
  · rw [Lee.window_puts_apart _ (length_windowOf _ _) (d.rowIndex_apart n i hr).symm, h.net r net k hnet hk]
    simp [hr]

theorem Dev.RowsWritten.foldl {d d' : Dev} {n i : Nat} {data : List Word} {lanes : List (Nat × Nat)} (h : d.RowsWritten n i data lanes d')
    (more : List (Nat × Nat)) :
    d.RowsWritten n i data (lanes ++ more) (more.foldl (fun d p => d.memwrStoreLane n i p.2 p.1 data) d') := by
  induction more generalizing d' lanes with
  | nil => rwa [List.append_nil]
  | cons p more ih =>
    have hstep := ih (h.storeLane p)
    rwa [List.append_assoc] at hstep

/-- The lanes that a MEMWR writes to rows below DEPTH. -/
def Dev.memwrInside (d : Dev) (n : Nat) (h : EvalWord) : List (Nat × Nat) :=
  (d.memwrLanes n h (d.rows n h)).filter fun p => decide (p.2 < (d.descriptor n h.mmd).depth)

/-- A MEMWR that has issued. -/
def Dev.memwrIssued (d : Dev) (n : Nat) (h : EvalWord) : Dev :=
  (d.issued n h .memwr).countBeyond n (d.descriptor n h.mmd).depth ((d.memwrLanes n h (d.rows n h)).map (·.2))

theorem memwrEff_store (d : Dev) (n : Nat) (hi : d.wordIssues n .memwr) (hs : (d.descriptor n (d.fetchWord n).mmd).dram = false) :
    memwrEff n .none d = ((d.memwrInside n (d.fetchWord n)).foldl
      (fun e p => e.memwrStoreLane n (d.fetchWord n).mmd p.2 p.1 (d.srcWindow n (d.fetchWord n) 1)) (d.memwrIssued n (d.fetchWord n))).goNext n := by
  rw [memwrEff, d.issueWord_ok n .memwr _ hi]
  dsimp only
  rw [hs, if_neg (by simp)]
  dsimp only
  rw [if_neg (by simp), if_neg (by simp)]
  rfl

/-- What a MEMWR of the store leaves. -/
theorem Dev.memwr_rowsWritten (d : Dev) (n : Nat) (h : EvalWord) (data : List Word) : d.RowsWritten n h.mmd data (d.memwrInside n h)
    ((d.memwrInside n h).foldl (fun e p => e.memwrStoreLane n h.mmd p.2 p.1 data) (d.memwrIssued n h)) := by
  have hu : d.UnderWay n (d.memwrIssued n h) := .countedBeyond d n h .memwr _ _
  have hstart : d.RowsWritten n h.mmd data [] (d.memwrIssued n h) := ⟨hu.frame, hu.pc, fun r net k _ _ => by rw [hu.window, if_neg (by simp)]⟩
  exact hstart.foldl _

/-! ### MEMRD and MEMWR of memory -/

theorem Dev.tooMany_of_le {d : Dev} {n m : Nat} (h : d.tooMany n 64 = false) (hm : m ≤ 64) : d.tooMany n m = false := by
  simp only [Dev.tooMany, decide_eq_false_iff_not] at *
  omega

/-- At most one request for a lane. -/
theorem Dev.length_lanes_le (d : Dev) (n : Nat) (rows : List Nat) (f : Nat × Nat → Bool) :
    (((List.range (d.width n)).zip rows).filter f).length ≤ 64 := by
  have hw := d.width_le n
  have hf := List.length_filter_le f ((List.range (d.width n)).zip rows)
  rw [List.length_zip, List.length_range] at hf
  omega

theorem mem_zip_range {m k r : Nat} {rows : List Nat} (hm : rows.length = m) (h : rows[k]? = some r) : (k, r) ∈ (List.range m).zip rows := by
  have hk : k < m := by rw [← hm]; exact (List.getElem?_eq_some_iff.1 h).1
  exact List.mem_of_getElem? (List.getElem?_zip_eq_some.2 ⟨List.getElem?_range hk, h⟩)

theorem Dev.length_rows (d : Dev) (n : Nat) (h : EvalWord) : (d.rows n h).length = d.width n := by simp [Dev.rows]

theorem memrdFinish_waits {d : Dev} {n : Nat} {m : MemRd} {rest : List MemRd} (k : Nat) (hm : (d.lee n).memrds = m :: rest)
    (hl : m.lanes.any (·.isNone) = true) : memrdFinish k n d = d := by
  cases k with
  | zero => rfl
  | succ k => simp only [memrdFinish, hm, hl, if_true]

theorem Dev.releaseOuts_nil {d : Dev} {n : Nat} (h : (d.lee n).outs = []) : d.releaseOuts n = d := by
  unfold Dev.releaseOuts; rw [h]; rfl

theorem Dev.drainCheck_none {d : Dev} {n : Nat} (h : (d.lee n).drain = .none) : d.drainCheck n = d := by
  unfold Dev.drainCheck; simp [h]

/-- While the oldest MEMRD misses a line, with no effect waiting and no drain, nothing follows. -/
theorem Dev.memrdGo_waits {d : Dev} {n : Nat} {m : MemRd} {rest : List MemRd} (hm : (d.lee n).memrds = m :: rest)
    (hl : m.lanes.any (·.isNone) = true) (hb : d.get LEE_STAT.BLOCK n ≠ 4) (ho : (d.lee n).outs = []) (hd : (d.lee n).drain = .none) :
    d.memrdGo n = d := by
  unfold Dev.memrdGo
  dsimp only
  rw [memrdFinish_waits _ hm hl, if_neg hb, Dev.releaseOuts_nil ho, Dev.drainCheck_none hd]

/-- A DRAM-placed MEMRD under way, and its requests. -/
def Dev.memrdAsked (d : Dev) (n : Nat) (h : EvalWord) : MemRd :=
  ⟨(d.lee n).seq, d.get LEE_PC.PC n, d.index n h.dst, d.width n,
    (d.rows n h).map fun r => if r < (d.descriptor n h.mmd).depth then none else some .zero⟩

def Dev.memrdReqs (d : Dev) (n : Nat) (h : EvalWord) : List LeeReq :=
  (((List.range (d.width n)).zip (d.rows n h)).filter fun p => decide (p.2 < (d.descriptor n h.mmd).depth)).map fun p =>
    { addr := d.rowAddr n h.mmd p.2 p.1, use := .row (d.lee n).seq p.1 }

/-- A DRAM-placed MEMRD that has issued and asks for its lines. -/
def Dev.memrdAsks (d : Dev) (n : Nat) (h : EvalWord) : Dev :=
  (((d.issued n h .memrd).countBeyond n (d.descriptor n h.mmd).depth (d.rows n h)).modLee n fun e =>
    { e with memrds := e.memrds ++ [d.memrdAsked n h], mem := e.mem ++ d.memrdReqs n h }).goNext n

theorem memrdEff_dram (d : Dev) (n : Nat) (hi : d.wordIssues n .memrd) (hs : (d.descriptor n (d.fetchWord n).mmd).dram = true)
    (hroom : d.tooMany n 64 = false) : memrdEff n .none d = (d.memrdAsks n (d.fetchWord n)).memrdGo n := by
  have hwidth := (Dev.UnderWay.countedBeyond d n (d.fetchWord n) .memrd (d.descriptor n (d.fetchWord n).mmd).depth
    (d.rows n (d.fetchWord n))).frame.width
  rw [memrdEff, d.issueWord_ok n .memrd _ hi]
  dsimp only
  rw [hwidth, hs, List.length_map, Dev.tooMany_of_le hroom (d.length_lanes_le n _ _), if_neg (by simp), if_neg (by simp)]
  rfl

theorem Dev.memrdAsks_lee (d : Dev) (n : Nat) (h : EvalWord) : (d.memrdAsks n h).lee n = { (d.issued n h .memrd).lee n with
    memrds := (d.lee n).memrds ++ [d.memrdAsked n h], mem := (d.lee n).mem ++ d.memrdReqs n h } := by
  unfold Dev.memrdAsks
  rw [Dev.lee_goNext, Dev.lee_modLee, if_pos rfl, Dev.countBeyond, Dev.lee_count, Dev.issued_memrds, Dev.issued_requests]

theorem Dev.memrdAsks_spec (d : Dev) (n : Nat) (h : EvalWord) : d.engineFrame (d.memrdAsks n h) n []
    ∧ (d.memrdAsks n h).get LEE_PC.PC n = (d.get LEE_PC.PC n + 1) % 2 ^ 28 ∧ (d.memrdAsks n h).get LEE_STAT.BLOCK n = 0
    ∧ ∀ w, ((d.memrdAsks n h).lee n).word w = (d.lee n).word w := by
  have hu := Dev.UnderWay.countedBeyond d n h .memrd (d.descriptor n h.mmd).depth (d.rows n h)
  refine ⟨hu.frame.trans ((Dev.engineFrame.modLee _ n [] _).trans (.goNext _ n [])), hu.goNext_pc, ?_, fun w => ?_⟩
  · unfold Dev.memrdAsks Dev.goNext Dev.goto Dev.countBeyond
    rw [Dev.get_put_name _ _ LEE_STAT.BLOCK _ _ _ _ _ (by decide), Dev.get_modLee]
    unfold Dev.count
    rw [Dev.get_put_name _ _ LEE_STAT.BLOCK _ _ _ _ _ (by decide), Dev.issued_block]
  · rw [d.memrdAsks_lee]
    exact d.word_issued n h .memrd w

/-- The requests of a DRAM-placed MEMWR: its rows are to be written. -/
def Dev.memwrReqs (d : Dev) (n : Nat) (h : EvalWord) : List LeeReq :=
  (d.memwrInside n h).map fun p =>
    { addr := d.rowAddr n h.mmd p.2 p.1, use := .write (d.lee n).seq (rowLine (d.srcWindow n h 1) (d.width n) p.1) }

/-- A DRAM-placed MEMWR that has issued and asks for its rows to be written. -/
def Dev.memwrAsks (d : Dev) (n : Nat) (h : EvalWord) : Dev :=
  (d.memwrIssued n h).modLee n fun e => { e with mem := e.mem ++ d.memwrReqs n h }

theorem memwrEff_dram (d : Dev) (n : Nat) (hi : d.wordIssues n .memwr) (hs : (d.descriptor n (d.fetchWord n).mmd).dram = true)
    (hroom : d.tooMany n 64 = false)
    (hok : ∀ p ∈ d.memwrInside n (d.fetchWord n), d.memCheck 2 0 true (d.rowAddr n (d.fetchWord n).mmd p.2 p.1) = .ok) :
    memwrEff n .none d = (d.memwrAsks n (d.fetchWord n)).goNext n := by
  have hbad : ((d.memwrInside n (d.fetchWord n)).find? fun p => d.memCheck 2 0 true (d.rowAddr n (d.fetchWord n).mmd p.2 p.1) != .ok) = none :=
    List.find?_eq_none.2 fun p hp => by simp [hok p hp]
  have hlen : (d.memwrInside n (d.fetchWord n)).length ≤ 64 :=
    (List.length_filter_le _ _).trans (d.length_lanes_le n _ _)
  unfold Dev.memwrInside at hbad hlen
  rw [memwrEff, d.issueWord_ok n .memwr _ hi]
  dsimp only
  rw [hs, if_pos rfl, hbad]
  dsimp only
  rw [Dev.tooMany_of_le hroom hlen, if_neg (by simp), if_pos rfl]
  rfl

/-! ### The last line of a MEMRD returns -/

/-- Writing store words changes the store and its valid bits alone. -/
theorem Lee.putWords_frame (e : Lee) (w : Nat) (l : List Word) : ∃ st v, e.putWords w l = { e with store := st, valid := v } := by
  induction l generalizing e w with
  | nil => exact ⟨_, _, rfl⟩
  | cons x t ih =>
    obtain ⟨st, v, h⟩ := ih (e.putWord w x) (w + 1)
    rw [Lee.putWords, h]
    unfold Lee.putWord
    split <;> exact ⟨_, _, rfl⟩

/-- The engine whose one MEMRD, with its lines all there, has written its destination. -/
def Lee.memrdWritten (e : Lee) (m : MemRd) : Lee :=
  ({ e.note m.seq (4 * m.dst) (4 * m.width) with memrds := [] }).putWords (4 * m.dst) m.window

theorem Lee.memrdWritten_frame (e : Lee) (m : MemRd) : (e.memrdWritten m).memrds = [] ∧ (e.memrdWritten m).mem = e.mem
    ∧ (e.memrdWritten m).outs = e.outs ∧ (e.memrdWritten m).drain = e.drain := by
  unfold Lee.memrdWritten
  obtain ⟨st, v, h⟩ := ({ e.note m.seq (4 * m.dst) (4 * m.width) with memrds := [] } : Lee).putWords_frame (4 * m.dst) m.window
  rw [h]
  exact ⟨rfl, rfl, rfl, rfl⟩

/-- It has written its destination and no other word of the store. -/
theorem Lee.word_memrdWritten (e : Lee) (m : MemRd) (w : Nat) : (e.memrdWritten m).word w = (e.putWords (4 * m.dst) m.window).word w := by
  unfold Lee.memrdWritten
  rw [Lee.word_putWords, Lee.word_putWords]
  rfl

theorem memrdFinish_one {d : Dev} {n : Nat} {m : MemRd} (hm : (d.lee n).memrds = [m]) (hl : m.lanes.any (·.isNone) = false)
    (hf : m.failure = none) : memrdFinish 1 n d = d.modLee n fun e => e.memrdWritten m := by
  unfold memrdFinish
  rw [hm]
  dsimp only
  rw [hl, hf, if_neg (by simp)]
  rfl

/-- A word that waits for this reason may issue again. -/
def Dev.unblocked (d : Dev) (n why : Nat) : Dev := if d.get LEE_STAT.BLOCK n = why then d.block n 0 else d

theorem Dev.leeOnly.unblocked {d d' : Dev} (h : d.leeOnly d') (n why : Nat) : d.leeOnly (d'.unblocked n why) := by
  unfold Dev.unblocked
  split
  · exact h.put _ _ _ _
  · exact h

theorem Dev.unblocked_spec (d : Dev) (n why : Nat) : (∀ m, (d.unblocked n why).lee m = d.lee m)
    ∧ (∀ q : Reg, q ≠ ⟨.LEE_STAT, n, 0⟩ → (d.unblocked n why).reg q = d.reg q)
    ∧ (d.unblocked n why).get LEE_STAT.BLOCK n = if d.get LEE_STAT.BLOCK n = why then 0 else d.get LEE_STAT.BLOCK n := by
  unfold Dev.unblocked
  split
  · exact ⟨fun _ => rfl, fun q hq => d.reg_put_other LEE_STAT.BLOCK _ _ _ hq,
      Dev.get_put_same _ _ _ _ _ (by decide) (by decide)⟩
  · exact ⟨fun _ => rfl, fun _ _ => rfl, rfl⟩

/-- With nothing held by it but a word, that word may issue again. -/
theorem Dev.memrdGo_done {d : Dev} {n : Nat} {m : MemRd} (hm : (d.lee n).memrds = [m]) (hl : m.lanes.any (·.isNone) = false)
    (hf : m.failure = none) (ho : (d.lee n).outs = []) (hd : (d.lee n).drain = .none) :
    d.memrdGo n = (d.modLee n fun e => e.memrdWritten m).unblocked n 4 := by
  obtain ⟨-, -, houts, hdrain⟩ := (d.lee n).memrdWritten_frame m
  have hlee : ((d.modLee n fun e => e.memrdWritten m).unblocked n 4).lee n = (d.lee n).memrdWritten m := by
    rw [((d.modLee n fun e => e.memrdWritten m).unblocked_spec n 4).1, Dev.lee_modLee, if_pos rfl]
  unfold Dev.memrdGo
  dsimp only
  rw [hm, List.length_singleton, memrdFinish_one hm hl hf, ← Dev.unblocked, Dev.releaseOuts_nil (by rw [hlee, houts, ho]),
    Dev.drainCheck_none (by rw [hlee, hdrain, hd])]

/-- A MEMRD whose last line comes has all its lines. -/
theorem lanes_all_some {lanes : List (Option Fetched)} {lane : Nat} {x : Fetched} (h : ∀ i, i ≠ lane → lanes[i]? ≠ some none) :
    (lanes.set lane (some x)).any (·.isNone) = false := by
  rw [List.any_eq_false]
  intro y hy
  obtain ⟨i, hi⟩ := List.mem_iff_getElem?.1 hy
  rw [List.getElem?_set] at hi
  cases y with
  | some _ => simp
  | none =>
    split at hi
    · split at hi <;> simp at hi
    · rename_i hne
      exact absurd hi (h i (Ne.symm hne))

theorem MemRd.failure_none {m : MemRd} (h : ∀ y ∈ m.lanes, ∀ f, y = some f → (∃ v, f = .line v) ∨ f = .zero) : m.failure = none := by
  unfold MemRd.failure
  rw [List.findSome?_eq_none_iff]
  intro y hy
  cases y with
  | none => rfl
  | some f => rcases h _ hy f rfl with ⟨v, rfl⟩ | rfl <;> rfl

theorem Dev.modLee_congr {d : Dev} {n : Nat} {f g : Lee → Lee} (h : f (d.lee n) = g (d.lee n)) : d.modLee n f = d.modLee n g := by
  unfold Dev.modLee; rw [h]

/-- A MEMRD with the line of one lane in it. -/
def MemRd.filled (m : MemRd) (lane : Nat) (f : Option Fetched) : MemRd := { m with lanes := m.lanes.set lane f }

/-- A net of a lane, from what came for the lane: a line's, or zero (R95). -/
def laneNet (f : Option Fetched) (net : Nat) : Bool :=
  match f with
  | some (.line v) => v.getLsbD net
  | _ => false

theorem MemRd.netOf_filled_window (m : MemRd) (lane : Nat) (f : Option Fetched) {net k : Nat} (hnet : net < 256) (hk : k < m.width) :
    netOf (m.filled lane f).window m.width net k = laneNet ((m.lanes.set lane f).getD k none) net := netOf_windowOf _ _ _ _ hnet hk

theorem MemRd.length_filled_window (m : MemRd) (lane : Nat) (f : Option Fetched) : (m.filled lane f).window.length = 4 * m.width :=
  length_windowOf _ _

/-- The engine to which the last line of its one MEMRD has come. -/
def Dev.memrdCame (d : Dev) (n lane : Nat) (m : MemRd) (r : LeeReq) : Dev :=
  d.modLee n fun e => { e with mem := e.mem.erase r, memrds := [m.filled lane r.came] }

theorem memrdReturnEff_came {d : Dev} {n lane : Nat} {m : MemRd} {r : LeeReq} (hm : (d.lee n).memrds = [m]) (hlane : m.lanes[lane]? = some none)
    (hr : ((d.lee n).mem.find? fun r => r.use == .row m.seq lane && r.came.isSome) = some r) :
    memrdReturnEff n lane d = (d.memrdCame n lane m r).memrdGo n := by
  have hfind : ((d.lee n).memrds.find? fun m => m.lanes[lane]? == some none) = some m := by
    rw [hm]; exact List.find?_cons_of_pos (by simp [hlane])
  have hmap : (d.lee n).memrds.map (fun y => if y.seq == m.seq then { y with lanes := y.lanes.set lane r.came } else y)
      = [m.filled lane r.came] := by
    rw [hm]; simp [MemRd.filled]
  unfold memrdReturnEff
  rw [hfind]
  dsimp only
  rw [hr]
  dsimp only
  refine congrArg (fun x : Dev => x.memrdGo n) (Dev.modLee_congr ?_)
  rw [hmap]

/-- The engine of a MEMRD whose last line has come: its destination is written, and the MEMRD and its request are over. -/
def Lee.memrdOver (e : Lee) (lane : Nat) (m : MemRd) (r : LeeReq) : Lee :=
  ({ e with mem := e.mem.erase r, memrds := [m.filled lane r.came] } : Lee).memrdWritten
    (m.filled lane r.came)

theorem Lee.memrdOver_spec (e : Lee) (lane : Nat) (m : MemRd) (r : LeeReq) : (e.memrdOver lane m r).memrds = []
    ∧ (e.memrdOver lane m r).mem = e.mem.erase r ∧ ∀ w, (e.memrdOver lane m r).word w =
      (e.putWords (4 * m.dst) (m.filled lane r.came).window).word w := by
  obtain ⟨hrds, hreqs, -, -⟩ := Lee.memrdWritten_frame
    { e with mem := e.mem.erase r, memrds := [m.filled lane r.came] } (m.filled lane r.came)
  refine ⟨hrds, hreqs, fun w => ?_⟩
  unfold Lee.memrdOver
  rw [Lee.word_memrdWritten, Lee.word_putWords, Lee.word_putWords]
  rfl

/-- A MEMRD's last line comes, and the MEMRD writes its destination. -/
def Dev.memrdOver (d : Dev) (n lane : Nat) (m : MemRd) (r : LeeReq) : Dev :=
  (d.memrdCame n lane m r).modLee n fun e => e.memrdWritten (m.filled lane r.came)

theorem Dev.memrdOver_lee (d : Dev) (n lane : Nat) (m : MemRd) (r : LeeReq) (k : Nat) :
    (d.memrdOver n lane m r).lee k = if k = n then (d.lee n).memrdOver lane m r else d.lee k := by
  unfold Dev.memrdOver Dev.memrdCame
  simp only [Dev.lee_modLee, if_true]
  split
  · rfl
  · rfl

/-- What the return of a MEMRD's last line does. -/
theorem memrdReturnEff_last {d : Dev} {n lane : Nat} {m : MemRd} {r : LeeReq} {x : Fetched} (hm : (d.lee n).memrds = [m])
    (hlane : m.lanes[lane]? = some none) (hall : ∀ i, i ≠ lane → m.lanes[i]? ≠ some none)
    (hr : ((d.lee n).mem.find? fun r => r.use == .row m.seq lane && r.came.isSome) = some r) (hx : r.came = some x)
    (hgood : ∀ y ∈ some x :: m.lanes, ∀ f, y = some f → (∃ v, f = .line v) ∨ f = .zero) (ho : (d.lee n).outs = [])
    (hd : (d.lee n).drain = .none) : memrdReturnEff n lane d = (d.memrdOver n lane m r).unblocked n 4 := by
  have hcame : (d.memrdCame n lane m r).lee n = { d.lee n with
      mem := (d.lee n).mem.erase r, memrds := [m.filled lane r.came] } := by
    rw [Dev.memrdCame, Dev.lee_modLee, if_pos rfl]
  have hfailure : (m.filled lane r.came).failure = none := MemRd.failure_none fun y hy => hgood y (by
    rw [hx] at hy
    exact (List.mem_or_eq_of_mem_set hy).elim (List.mem_cons_of_mem _) fun h => h ▸ List.mem_cons_self)
  rw [memrdReturnEff_came hm hlane hr, Dev.memrdGo_done (by rw [hcame]) (by rw [hx]; exact lanes_all_some hall) hfailure
    (by rw [hcame]; exact ho) (by rw [hcame]; exact hd)]
  rfl

/-! ### The commands -/

section
variable {s : State} {n : Nat} {c : Instr} {f : Dev → Dev} {d : Dev}

/-- A command that brings an engine what it asked for: the engine makes what requests it can before and after. -/
theorem exec_leeReturn (he : exec c s = .next (s.on (leeReturn n f))) (hp : s.dev.powered = true) (hf : f (s.dev.leeServe n) = d)
    (h : (s.dev.leeServe n).leeOnly d) : exec c s = .next (s.withDev (d.leeServe n)) := by
  have hstays := ((s.dev.leeServe_stays n).trans h.stays).trans (d.leeServe_stays n)
  exact exec_of_powered (d := d.leeServe n) he hp (by rw [leeReturn, hf]) hstays.board (by rw [hstays.power])

end

/-- Settles O18, clause by clause: a word of the store writes its run of it, one of memory leaves requests, and the last line of a MEMRD
writes its destination. -/
theorem modelMemoryWords : Obligations.ModelMemoryWords := by
  unfold Obligations.ModelMemoryWords
  refine ⟨fun s n hp hi hs => ?read, fun s n hp hi hs => ?write, fun s n hp hi hs hroom hmem ho hrow => ?ask,
    fun s n hp hi hs hroom hok => ?send, fun s n lane m r x e hp he hm hlane hall hr hx hgood ho hd => ?last⟩
  case read =>
    have hu := Dev.UnderWay.countedBeyond s.dev n (s.dev.fetchWord n) .memrd (s.dev.descriptor n (s.dev.fetchWord n).mmd).depth
      (s.dev.rows n (s.dev.fetchWord n))
    have hw := hu.puts (4 * s.dev.index n (s.dev.fetchWord n).dst) (s.dev.memrdWindow n (s.dev.fetchWord n) (s.dev.rows n (s.dev.fetchWord n)))
    refine ⟨_, exec_then_leeServe (f := memrdEff n .none) rfl hp (memrdEff_store s.dev n hi hs) hw.frame, hw.frame, hw.pc,
      hw.sameOutside _ _ le_rfl (by rw [s.dev.length_memrdWindow]), fun net k hnet hk => ?_⟩
    rw [hw.netOf_window (s.dev.length_memrdWindow _ _ _) hnet hk, s.dev.netOf_memrdWindow n _ _ hnet hk]
  case write =>
    have hw := s.dev.memwr_rowsWritten n (s.dev.fetchWord n) (s.dev.srcWindow n (s.dev.fetchWord n) 1)
    have hframe := hw.frame.trans (.goNext _ n [])
    refine ⟨_, exec_then_leeServe (f := memwrEff n .none) rfl hp (memwrEff_store s.dev n hi hs) hframe, hframe, ?_,
      fun r net k hr hnet hk => ?_⟩
    · rw [Dev.goNext_pc, hw.pc]
    · rw [Dev.lee_goNext, hw.net r net k hnet hk]
      simp [Dev.memwrInside, hr]
  case ask =>
    obtain ⟨hframe, hpc, hblock, hword⟩ := s.dev.memrdAsks_spec n (s.dev.fetchWord n)
    have hlee := s.dev.memrdAsks_lee n (s.dev.fetchWord n)
    have hone : ((s.dev.memrdAsks n (s.dev.fetchWord n)).lee n).memrds = [s.dev.memrdAsked n (s.dev.fetchWord n)] := by rw [hlee, hmem]; rfl
    have hwaits : (s.dev.memrdAsked n (s.dev.fetchWord n)).lanes.any (·.isNone) = true := by
      obtain ⟨r, hr, hlt⟩ := hrow
      exact List.any_eq_true.2 ⟨none, List.mem_map.2 ⟨r, hr, if_pos hlt⟩, rfl⟩
    have hgo : (s.dev.memrdAsks n (s.dev.fetchWord n)).memrdGo n = s.dev.memrdAsks n (s.dev.fetchWord n) :=
      Dev.memrdGo_waits hone hwaits (by rw [hblock]; decide) (by rw [hlee]; exact (Dev.issued_outs _ _ _ _).trans ho)
        (by rw [hlee]; exact (Dev.issued_drain _ _ _ _).trans hi.drain)
    refine ⟨_, _, exec_then_leeServe (f := memrdEff n .none) rfl hp ((memrdEff_dram s.dev n hi hs hroom).trans hgo) hframe, hframe, hpc, hone,
      rfl, rfl, rfl, fun k r hr => ?_, fun k r hr hlt => ?_, hword⟩
    · rw [Dev.memrdAsked, List.getElem?_map, hr]
      rfl
    · refine ⟨{ addr := s.dev.rowAddr n (s.dev.fetchWord n).mmd r k, use := .row (s.dev.lee n).seq k }, ?_, rfl, rfl, rfl⟩
      rw [hlee]
      exact List.mem_append_right _ (List.mem_map.2 ⟨(k, r), List.mem_filter.2 ⟨mem_zip_range (s.dev.length_rows n _) hr, decide_eq_true hlt⟩, rfl⟩)
  case send =>
    have hu : s.dev.UnderWay n (s.dev.memwrIssued n (s.dev.fetchWord n)) := .countedBeyond s.dev n _ .memwr _ _
    have hok' : ∀ p ∈ s.dev.memwrInside n (s.dev.fetchWord n),
        s.dev.memCheck 2 0 true (s.dev.rowAddr n (s.dev.fetchWord n).mmd p.2 p.1) = .ok := fun p hp => by
      obtain ⟨hmem, hlt⟩ := List.mem_filter.1 hp
      exact hok p hmem (of_decide_eq_true hlt)
    have heff := memwrEff_dram s.dev n hi hs hroom hok'
    have hasks : s.dev.UnderWay n (s.dev.memwrAsks n (s.dev.fetchWord n)) := hu.modLee _ (fun _ => rfl) fun _ => rfl
    have hframe := hasks.frame.trans (.goNext _ n [])
    refine ⟨_, exec_then_leeServe (f := memwrEff n .none) rfl hp heff hframe, hframe, hasks.goNext_pc, fun p hmem hlt => ?_, hasks.word⟩
    refine ⟨{ addr := s.dev.rowAddr n (s.dev.fetchWord n).mmd p.2 p.1
              use := .write (s.dev.lee n).seq (rowLine (s.dev.srcWindow n (s.dev.fetchWord n) 1) (s.dev.width n) p.1) }, ?_, rfl, rfl⟩
    rw [Dev.lee_goNext, Dev.memwrAsks, Dev.lee_modLee, if_pos rfl]
    exact List.mem_append_right _ (List.mem_map.2 ⟨p, List.mem_filter.2 ⟨hmem, decide_eq_true hlt⟩, rfl⟩)
  case last =>
    have heff := memrdReturnEff_last hm hlane hall hr hx hgood ho hd
    have honly : e.leeOnly ((e.memrdOver n lane m r).unblocked n 4) := (((Dev.leeOnly.refl e).modLee n _).modLee n _).unblocked n 4
    obtain ⟨hlee, hreg, hblock⟩ := (e.memrdOver n lane m r).unblocked_spec n 4
    have hown : ((e.memrdOver n lane m r).unblocked n 4).lee n = (e.lee n).memrdOver lane m r := by
      rw [hlee, Dev.memrdOver_lee, if_pos rfl]
    obtain ⟨hrds, hreqs, hword⟩ := (e.lee n).memrdOver_spec lane m r
    have hwindow : ((e.lee n).memrdOver lane m r).window m.dst m.width =
        ((e.lee n).putWords (4 * m.dst) (m.filled lane r.came).window).window m.dst m.width := by
      unfold Lee.window; simp only [hword]
    refine ⟨_, exec_leeReturn (f := memrdReturnEff n lane) rfl hp (by rw [he, heff]) (by rw [he]; exact honly), honly.eq, fun k hk => ?_,
      fun q hq => hreg q hq, ?_, ?_, hblock, fun w hw => ?_, fun net k hnet hk => ?_⟩
    · rw [hlee, Dev.memrdOver_lee, if_neg hk]
    · rw [hown, hrds]
    · rw [hown, hreqs]
    · rw [hown, hword, Lee.word_putWords, m.length_filled_window, if_neg (by omega)]
    · rw [hown, hwindow, netOf_window_putWords _ _ _ _ _ _ (m.length_filled_window _ _) hnet hk, m.netOf_filled_window _ _ hnet hk, hx]
      rfl

end Sys2Proof.Machine
end

section
/-!
PROOFS. Exchange, stimulus and observation words (spec/04, R98 to R101; R121, R124, R248).
-/

namespace Sys2Proof.Machine

/-! ### An effect that leaves the engine at once -/

/-- With no effect before it and no MEMRD under way, an effect within the package leaves at once (R111). -/
theorem Dev.leave_now {d : Dev} {n : Nat} {o : LeeOut} (ho : (d.lee n).outs = []) (hm : (d.lee n).memrds = [])
    (hlocal : ∀ m k, o ≠ .send m (some k)) :
    d.leave n o = (d.modLee n fun e => { e with outs := [(e.seq - 1, o)] }).releaseOut n ((d.lee n).seq - 1, o) := by
  have hout : (d.modLee n fun e => { e with outs := e.outs ++ [(e.seq - 1, o)] }) = d.modLee n fun e => { e with outs := [(e.seq - 1, o)] } :=
    Dev.modLee_congr (by rw [ho]; rfl)
  unfold Dev.leave
  rw [hout]
  have hlee : (d.modLee n fun e => { e with outs := [(e.seq - 1, o)] }).lee n = { d.lee n with outs := [((d.lee n).seq - 1, o)] } := by
    rw [Dev.lee_modLee, if_pos rfl]
  generalize (d.modLee n fun e => { e with outs := [(e.seq - 1, o)] }) = x at hlee ⊢
  have hmay : (x.lee n).mayRelease ((d.lee n).seq - 1) = true := by rw [hlee]; simp [Lee.mayRelease, hm]
  unfold Dev.releaseOuts
  simp only [hlee, List.foldl_cons, List.foldl_nil]
  rw [hlee] at hmay
  rw [hmay]
  cases o with
  | observe words head => rfl
  | send m dpkg =>
    cases dpkg with
    | none => rfl
    | some k => exact absurd rfl (hlocal m k)

/-- Noting what leaves, and that it has left, changes no word of the store. -/
theorem Dev.UnderWay.outs {d d' : Dev} {n : Nat} (h : d.UnderWay n d') (o : LeeOut) :
    d.UnderWay n (d'.modLee n fun e => { e with outs := [(e.seq - 1, o)] }) := h.modLee _ (fun _ => rfl) fun _ => rfl

theorem Dev.UnderWay.released {d d' : Dev} {n : Nat} (h : d.UnderWay n d') (p : Nat × LeeOut) :
    d.UnderWay n (d'.modLee n fun e => { e.final p.1 with outs := e.outs.erase p }) := h.modLee _ (fun _ => rfl) fun _ => rfl

/-! ### SEND -/

/-- The message of a SEND within the package. -/
def Dev.sendMessage (d : Dev) (n : Nat) (h : EvalWord) : XchMsg :=
  { sleaf := n, dleaf := h.imm.bits 24 16, slot := h.imm.bits 15 0, step := h.imm.bits 39 32, mc := d.get LEE_CYCLE.MCYCLE n
    lanes := d.get LEE_CTL.LANES n, imm := h.imm, data := d.srcWindow n h 0 }

theorem sendEff_ok (d : Dev) (n : Nat) (hi : d.wordIssues n .send) (hlocal : (d.fetchWord n).imm.getLsbD 31 = false)
    (hroom : (d.lee n).sends.length < 1024) (ho : (d.lee n).outs = []) :
    sendEff n .none d = ((d.issued n (d.fetchWord n) .send).leave n (.send (d.sendMessage n (d.fetchWord n)) none)).goNext n := by
  have hnone : (d.lee n).notAccepted = 0 := by simp [Lee.notAccepted, ho]
  rw [sendEff, d.issueWord_ok n .send _ hi]
  dsimp only
  rw [hlocal, hnone, if_neg (by simp; omega), if_neg (by simp)]
  rfl

/-- The engine that has sent the window, before the message leaves. -/
def Dev.sending (d : Dev) (n : Nat) (h : EvalWord) : Dev :=
  (((d.issued n h .send).modLee n fun e => { e with outs := [(e.seq - 1, .send (d.sendMessage n h) none)] }).modLee n fun e =>
    { e.final (((d.issued n h .send).lee n).seq - 1) with
      outs := e.outs.erase (((d.issued n h .send).lee n).seq - 1, .send (d.sendMessage n h) none) }).modLee n fun e =>
    { e with sends := e.sends ++ [(d.sendMessage n h).imm] }

theorem Dev.sending_underWay (d : Dev) (n : Nat) (h : EvalWord) : d.UnderWay n (d.sending n h) := by
  have hout := ((Dev.UnderWay.issued d n h .send).outs (.send (d.sendMessage n h) none)).released
    (((d.issued n h .send).lee n).seq - 1, .send (d.sendMessage n h) none)
  exact hout.modLee (fun e => { e with sends := e.sends ++ [(d.sendMessage n h).imm] }) (fun _ => rfl) fun _ => rfl

theorem Dev.sending_sends (d : Dev) (n : Nat) (h : EvalWord) : ((d.sending n h).lee n).sends = (d.lee n).sends ++ [h.imm] := by
  unfold Dev.sending
  simp only [Dev.lee_modLee, if_true, Lee.final, Dev.issued_sends]
  rfl

/-- An exchange window passes the graft port, whatever stands for its bough. -/
theorem Dev.emit_xch (d : Dev) (m : XchMsg) : d.emit (.xch m) = d.send (.xch m) := Dev.emit_send rfl

theorem Dev.leave_send (d : Dev) (n : Nat) (h : EvalWord) (ho : (d.lee n).outs = []) (hm : (d.lee n).memrds = []) :
    (d.issued n h .send).leave n (.send (d.sendMessage n h) none) = (d.sending n h).send (.xch (d.sendMessage n h)) := by
  rw [Dev.leave_now (by rw [Dev.issued_outs, ho]) (by rw [Dev.issued_memrds, hm]) (by simp), ← Dev.emit_xch]
  unfold Dev.releaseOut Dev.sending
  dsimp only

/-- A message on its way beside the change of an engine. -/
theorem Dev.engineFrame.send {d d' : Dev} {n : Nat} {also : List RegName} (h : d.engineFrame d' n also) (p : Packet) :
    Dev.engineFrame { d with wire := (d'.send p).wire } (d'.send p) n also := by
  obtain ⟨hrest, hothers, hreg⟩ := h
  refine ⟨?_, hothers, hreg⟩
  unfold Dev.send
  generalize d'.wire ++ [d'.sent p] = w
  rw [hrest]

/-- What a SEND leaves: its message is on its way, and its immediate awaits the acknowledgement. -/
theorem Dev.sent_spec (d : Dev) (n : Nat) (h : EvalWord) (d' : Dev)
    (hd : ((d.sending n h).send (.xch (d.sendMessage n h))).goNext n = d') : d'.board = d.board ∧ d'.power = d.power
    ∧ d'.packets = d.packets ++ [.xch (d.sendMessage n h)] ∧ Dev.engineFrame { d with wire := d'.wire } d' n []
    ∧ (d'.lee n).sends = (d.lee n).sends ++ [h.imm] ∧ d'.get LEE_PC.PC n = (d.get LEE_PC.PC n + 1) % 2 ^ 28
    ∧ ∀ w, (d'.lee n).word w = (d.lee n).word w := by
  have hu := d.sending_underWay n h
  have hsends := d.sending_sends n h
  generalize d.sending n h = x at hd hu hsends
  have hpackets : x.packets = d.packets := by rw [hu.frame.1]; rfl
  subst hd
  refine ⟨hu.frame.leeOnly.board, hu.frame.leeOnly.power, ?_, (hu.frame.send (.xch (d.sendMessage n h))).trans (.goNext _ n []), ?_, ?_,
    fun w => ?_⟩
  · rw [← hpackets]
    exact Dev.packets_send _ _
  · rw [Dev.lee_goNext, Dev.lee_send, hsends]
  · rw [Dev.goNext_pc, Dev.get_send, hu.pc]
  · rw [Dev.lee_goNext, Dev.lee_send, hu.word]

/-! ### WAIT -/

theorem waitEff_ok (d : Dev) (n : Nat) (hi : d.wordIssues n .wait) : waitEff n .none d =
    if d.arrived n ((d.fetchWord n).imm.bits 39 32) < (d.fetchWord n).imm.bits 12 0 then d.block n 1
    else d.waitDone n (d.fetchWord n) ((d.fetchWord n).imm.bits 39 32) ((d.fetchWord n).imm.bits 12 0) := d.issueWord_ok n .wait _ hi

theorem Dev.waitDone_spec (d : Dev) (n : Nat) (h : EvalWord) (step count : Nat) : d.engineFrame (d.waitDone n h step count) n []
    ∧ (d.waitDone n h step count).get LEE_PC.PC n = (d.get LEE_PC.PC n + 1) % 2 ^ 28 ∧ (d.waitDone n h step count).get LEE_STAT.BLOCK n = 0
    ∧ (d.waitDone n h step count).arrived n step = d.arrived n step - count
    ∧ ∀ w, ((d.waitDone n h step count).lee n).word w = (d.lee n).word w := by
  have hu := (Dev.UnderWay.issued d n h .wait).modLee (fun e => { e.noteLast (fun x =>
    { x with took := [(arrKey (d.get LEE_CYCLE.MCYCLE n % 2) step, count)] }) with
      arrivals := e.arrivals.set natLt 0 (arrKey (d.get LEE_CYCLE.MCYCLE n % 2) step) (d.arrived n step - count) }) (fun _ => rfl) fun _ => rfl
  have hframe := hu.frame.trans (.goNext _ n [])
  refine ⟨hframe, hu.goNext_pc, ?_, ?_, hu.word⟩
  · unfold Dev.waitDone Dev.goNext Dev.goto
    rw [Dev.get_put_name _ _ LEE_STAT.BLOCK _ _ _ _ _ (by decide), Dev.get_modLee, Dev.issued_block]
  · have hcycle : (d.waitDone n h step count).get LEE_CYCLE.MCYCLE n = d.get LEE_CYCLE.MCYCLE n := hframe.get LEE_CYCLE.MCYCLE n 0 (by decide)
    unfold Dev.arrived at *
    rw [hcycle]
    unfold Dev.waitDone
    rw [Dev.lee_goNext, Dev.lee_modLee, if_pos rfl]
    exact KMap.find_set_same _ _ _ _ _

/-- Settles O19: a SEND leaves at once with its message on its way, and a WAIT takes its count or waits. -/
theorem sendAndWait : Obligations.SendAndWait := by
  unfold Obligations.SendAndWait
  refine ⟨fun s n hp hi hlocal hroom ho hm => ?send, fun s n hp hi hc => ?take, fun s n hp hi hc => ?wait, fun s n hp hi hb hc => ?complete⟩
  case send =>
    have heff := (sendEff_ok s.dev n hi hlocal hroom ho).trans (congrArg (fun x : Dev => x.goNext n) (s.dev.leave_send n _ ho hm))
    obtain ⟨hboard, hpower, hpackets, hframe, hsends, hpc, hword⟩ := s.dev.sent_spec n (s.dev.fetchWord n) _ rfl
    exact ⟨_, exec_of_powered (f := sendEff n .none) rfl hp heff hboard (congrArg Power.unpowered hpower), hpackets, hframe, hsends, hpc, hword⟩
  case take =>
    obtain ⟨hframe, hpc, -, harrived, hword⟩ := s.dev.waitDone_spec n (s.dev.fetchWord n) ((s.dev.fetchWord n).imm.bits 39 32)
      ((s.dev.fetchWord n).imm.bits 12 0)
    exact ⟨_, exec_of_engineFrame (f := waitEff n .none) rfl hp ((waitEff_ok s.dev n hi).trans (if_neg (not_lt.2 hc))) hframe, hframe, hpc,
      harrived, hword⟩
  case wait =>
    exact exec_of_engineFrame (f := waitEff n .none) rfl hp ((waitEff_ok s.dev n hi).trans (if_pos hc)) (.block s.dev n [] 1)
  case complete =>
    obtain ⟨hframe, hpc, hblock, harrived, -⟩ := s.dev.waitDone_spec n (s.dev.fetchWord n) ((s.dev.fetchWord n).imm.bits 39 32)
      ((s.dev.fetchWord n).imm.bits 12 0)
    have heff : waitCompleteEff n s.dev = waitEff n .none s.dev := if_neg (not_not.2 hb)
    exact ⟨_, exec_of_engineFrame (f := waitCompleteEff n) rfl hp (heff.trans ((waitEff_ok s.dev n hi).trans (if_neg (not_lt.2 hc)))) hframe,
      hframe, hpc, hblock, harrived⟩

end Sys2Proof.Machine
end

section
/-!
PROOFS. Stimulus and observation words (spec/04, R100, R101, R248).
-/

namespace Sys2Proof.Machine

/-! ### STIM -/

/-- The prefetch of stimulus entries changes what is prefetched and asked for alone. -/
theorem Dev.stimPrefetch_spec (d : Dev) (n : Nat) (also : List RegName) : d.engineFrame (d.stimPrefetch n) n also
    ∧ (d.stimPrefetch n).regs = d.regs ∧ ∀ w, ((d.stimPrefetch n).lee n).word w = (d.lee n).word w := by
  unfold Dev.stimPrefetch
  dsimp only
  split
  · exact ⟨.refl d n also, rfl, fun _ => rfl⟩
  · exact ⟨.modLee d n also fun _ => _, rfl, fun w => by rw [Dev.lee_setLee]; rfl⟩

/-- An entry whose lines have come, all without a failure. -/
theorem StimEntry.good {e : StimEntry} (h : ∀ l ∈ e.lines, ∃ x, l = some (.line x)) : e.lines.any (·.isNone) = false ∧ e.failure = none := by
  constructor
  · rw [List.any_eq_false]
    intro l hl
    obtain ⟨x, rfl⟩ := h l hl
    simp
  · unfold StimEntry.failure
    rw [List.findSome?_eq_none_iff]
    intro l hl
    obtain ⟨x, rfl⟩ := h l hl
    rfl

/-- A STIM that has taken its entry, before HEAD and the program counter move. -/
def Dev.stimTaken (d : Dev) (n : Nat) (h : EvalWord) (e : StimEntry) : Dev :=
  ((d.issued n h .stim).writeDst n h (e.window (d.width n))).modLee n fun x =>
    { x with stim := x.stim.filter fun y => y.count != d.get LEE_STIM_CTL.HEAD n }

theorem stimEff_ok (d : Dev) (n : Nat) (e : StimEntry) (hi : d.wordIssues n .stim) (ha : d.stimAvail n ≠ 0)
    (he : ((d.lee n).stim.find? fun x => x.count == d.get LEE_STIM_CTL.HEAD n) = some e) (hl : ∀ l ∈ e.lines, ∃ x, l = some (.line x)) :
    stimEff n .none d =
      (((d.stimTaken n (d.fetchWord n) e).put LEE_STIM_CTL.HEAD (d.get LEE_STIM_CTL.HEAD n + 1) n).goNext n).stimPrefetch n := by
  obtain ⟨hall, hgood⟩ := StimEntry.good hl
  rw [stimEff, d.issueWord_ok n .stim _ hi]
  dsimp only
  rw [if_neg ha, he]
  dsimp only
  rw [hall, hgood, if_neg (by simp)]
  rfl

theorem Dev.stimTaken_spec (d : Dev) (n : Nat) (h : EvalWord) (e : StimEntry) : d.engineFrame (d.stimTaken n h e) n []
    ∧ (d.stimTaken n h e).get LEE_PC.PC n = d.get LEE_PC.PC n
    ∧ ∀ w, ((d.stimTaken n h e).lee n).word w = ((d.lee n).putWords (4 * d.index n h.dst) (e.window (d.width n))).word w := by
  have hu := Dev.UnderWay.issued d n h .stim
  refine ⟨hu.frame.trans ((Dev.engineFrame.modLee _ n [] _).trans (.modLee _ n [] _)), hu.pc, fun w => ?_⟩
  unfold Dev.stimTaken
  rw [Dev.lee_modLee, if_pos rfl]
  show (((d.issued n h .stim).writeDst n h (e.window (d.width n))).lee n).word w = _
  rw [Dev.writeDst_lee, if_pos rfl, hu.frame.index, Lee.word_puts, Lee.word_putWords, hu.word]

theorem StimEntry.length_window (e : StimEntry) (width : Nat) : (e.window width).length = 4 * width := by simp [StimEntry.window]

/-- What a STIM that takes its entry leaves. -/
theorem stimEff_spec (d : Dev) (n : Nat) (e : StimEntry) (hi : d.wordIssues n .stim) (ha : d.stimAvail n ≠ 0)
    (he : ((d.lee n).stim.find? fun x => x.count == d.get LEE_STIM_CTL.HEAD n) = some e) (hl : ∀ l ∈ e.lines, ∃ x, l = some (.line x)) :
    d.engineFrame (stimEff n .none d) n [.LEE_STIM_CTL] ∧ (stimEff n .none d).get LEE_PC.PC n = (d.get LEE_PC.PC n + 1) % 2 ^ 28
      ∧ (stimEff n .none d).get LEE_STIM_CTL.HEAD n = (d.get LEE_STIM_CTL.HEAD n + 1) % 2 ^ 32
      ∧ ∀ w, ((stimEff n .none d).lee n).word w = ((d.lee n).putWords (4 * d.index n (d.fetchWord n).dst) (e.window (d.width n))).word w := by
  obtain ⟨hframe, hpc, hword⟩ := d.stimTaken_spec n (d.fetchWord n) e
  rw [stimEff_ok d n e hi ha he hl]
  generalize d.stimTaken n (d.fetchWord n) e = x at hframe hpc hword ⊢
  obtain ⟨hpre, hregs, hsame⟩ := ((x.put LEE_STIM_CTL.HEAD (d.get LEE_STIM_CTL.HEAD n + 1) n).goNext n).stimPrefetch_spec n [.LEE_STIM_CTL]
  refine ⟨(hframe.mono (List.nil_subset _)).trans ((Dev.engineFrame.put x n _ LEE_STIM_CTL.HEAD _ 0 (by decide)).trans
    ((Dev.engineFrame.goNext _ n _).trans hpre)), ?_, ?_, fun w => ?_⟩
  · rw [Dev.get_of_regs hregs, Dev.goNext_pc, Dev.get_put_name _ _ LEE_PC.PC _ _ _ _ _ (by decide), hpc]
  · rw [Dev.get_of_regs hregs, Dev.goNext, Dev.goto, Dev.get_put_name _ _ LEE_STIM_CTL.HEAD _ _ _ _ _ (by decide),
      Dev.get_put_same _ _ _ _ _ (by decide) (by decide)]
    rfl
  · rw [hsame, Dev.lee_goNext, Dev.lee_put, hword]

theorem stimEff_empty (d : Dev) (n : Nat) (hi : d.wordIssues n .stim) (ha : d.stimAvail n = 0) : stimEff n .none d = d.block n 3 := by
  rw [stimEff, d.issueWord_ok n .stim _ hi]
  dsimp only
  rw [if_pos ha]

/-- A line of a prefetched entry that has come takes its place. -/
theorem stimReturnEff_came {d : Dev} {n c i : Nat} {r : LeeReq}
    (hr : ((d.lee n).mem.find? fun r => r.use == .stim c i && r.came.isSome) = some r) :
    stimReturnEff n c i d = d.modLee n fun e => { e with
      mem := e.mem.erase r
      stim := e.stim.map fun t => if t.count == c then { t with lines := t.lines.set i r.came } else t } := by
  unfold stimReturnEff
  rw [hr]

/-! ### OBSERVE -/

theorem observeEff_busy (d : Dev) (n : Nat) (hi : d.wordIssues n .observe) (hb : (d.lee n).observing = true) :
    observeEff n .none d = d.block n 5 := by
  rw [observeEff, d.issueWord_ok n .observe _ hi]
  dsimp only
  rw [if_pos hb]

/-- What an OBSERVE emits: its words, with its type and model cycle. -/
def Dev.observed (d : Dev) (n : Nat) (h : EvalWord) : LeeOut :=
  .observe (observeWords (d.srcWindow n h 0) (d.width n) (h.imm.bits 7 0)) (h.imm.bits 24 16, d.get LEE_CYCLE.MCYCLE n)

theorem observeEff_ok (d : Dev) (n : Nat) (hi : d.wordIssues n .observe) (he : (d.lee n).emit = []) (ho : (d.lee n).outs = []) :
    observeEff n .none d = ((d.issued n (d.fetchWord n) .observe).leave n (d.observed n (d.fetchWord n))).goNext n := by
  have hfree : (d.lee n).observing = false := by simp [Lee.observing, he, ho]
  rw [observeEff, d.issueWord_ok n .observe _ hi]
  dsimp only
  rw [hfree, if_neg (by simp)]
  rfl

/-- With nothing before it, the words of an OBSERVE start to be emitted at once. -/
theorem Dev.leave_observe (d : Dev) (n : Nat) (h : EvalWord) (ho : (d.lee n).outs = []) (hm : (d.lee n).memrds = []) :
    d.UnderWay n ((d.issued n h .observe).leave n (d.observed n h))
      ∧ (((d.issued n h .observe).leave n (d.observed n h)).lee n).emit =
        observeWords (d.srcWindow n h 0) (d.width n) (h.imm.bits 7 0)
      ∧ (((d.issued n h .observe).leave n (d.observed n h)).lee n).emitHead = some (h.imm.bits 24 16, d.get LEE_CYCLE.MCYCLE n) := by
  rw [Dev.leave_now (by rw [Dev.issued_outs, ho]) (by rw [Dev.issued_memrds, hm]) (by simp [Dev.observed])]
  unfold Dev.releaseOut Dev.observed
  dsimp only
  have hout := ((Dev.UnderWay.issued d n h .observe).outs (d.observed n h)).released (((d.issued n h .observe).lee n).seq - 1, d.observed n h)
  refine ⟨hout.modLee _ (fun _ => rfl) fun _ => rfl, ?_, ?_⟩ <;> rw [Dev.lee_modLee, if_pos rfl]

/-- A word of an OBSERVE after its first moves into the staging FIFO of its leaf. -/
theorem observeEmitEff_ok {d : Dev} {n : Nat} {w : Word} {rest : List Word} {head : Nat × Nat} (hl : d.leePresent n = true)
    (he : (d.lee n).emit = w :: rest) (hh : (d.lee n).emitHead = some head) (hc : (d.lee n).credits ≠ 0) (hm : (d.lee n).emitted ≠ 0) :
    observeEmitEff n d = (d.modPacker (d.leafSite n) fun p =>
      { p with staging :=
          p.staging.set natLt [] (n % 16) (p.fifo (n % 16) ++ [⟨w, head.2, head.1, d.copy (d.leafSite n), false, rest.isEmpty⟩]) }).modLee n fun e =>
      { e with credits := e.credits - 1, emit := rest, emitted := e.emitted + 1
               emitHead := if rest.isEmpty then none else e.emitHead } := by
  have hfirst : ((d.lee n).emitted == 0) = false := by simp [hm]
  obtain ⟨typ, mc⟩ := head
  unfold observeEmitEff
  dsimp only
  rw [he, hh]
  dsimp only
  rw [hl, hfirst, if_neg (by simp [hc]), if_neg (by simp)]

theorem Dev.packer_modPacker (d : Dev) (s : Nat) (f : Packer → Packer) : (d.modPacker s f).packer s = f (d.packer s) :=
  KMap.find_set_same _ _ _ _ _

@[simp] theorem Dev.packer_modLee (d : Dev) (n : Nat) (f : Lee → Lee) (s : Nat) : (d.modLee n f).packer s = d.packer s := rfl

/-- Settles O20, clause by clause: a STIM takes its entry or waits, a line comes, an OBSERVE starts or waits, and one of its words is emitted. -/
theorem stimulusAndObserveWords : Obligations.StimulusAndObserveWords := by
  unfold Obligations.StimulusAndObserveWords
  refine ⟨fun s n e hp hi ha he hl => ?take, fun s n hp hi ha => ?empty, fun s n c i r e hp he hr => ?line, fun s n hp hi he ho hm => ?start,
    fun s n hp hi hb => ?busy, fun s n w rest head hp hl he hh hc hm => ?emit⟩
  case take =>
    obtain ⟨hframe, hpc, hhead, hword⟩ := stimEff_spec s.dev n e hi ha he hl
    have hlen := e.length_window (s.dev.width n)
    refine ⟨_, exec_then_leeServe (f := stimEff n .none) rfl hp rfl hframe, hframe, hpc, hhead, fun w hw => ?_, fun i hlt => ?_⟩
    · rw [hword, Lee.word_putWords, if_neg (by omega)]
    · rw [hword, Lee.word_putWords, if_pos (by omega), Nat.add_sub_cancel_left]
  case empty =>
    exact exec_then_leeServe (f := stimEff n .none) rfl hp (stimEff_empty s.dev n hi ha) (.block s.dev n [] 3)
  case line =>
    subst he
    exact exec_leeReturn (f := stimReturnEff n c i) rfl hp (stimReturnEff_came hr) ((Dev.leeOnly.refl _).setLee n _)
  case start =>
    obtain ⟨hu, hemit, hhead⟩ := s.dev.leave_observe n (s.dev.fetchWord n) ho hm
    have hframe := hu.frame.trans (.goNext _ n [])
    exact ⟨_, exec_of_engineFrame (f := observeEff n .none) rfl hp (observeEff_ok s.dev n hi he ho) hframe, hframe, hu.goNext_pc, hemit, hhead,
      hu.word⟩
  case busy =>
    exact exec_of_engineFrame (f := observeEff n .none) rfl hp (observeEff_busy s.dev n hi hb) (.block s.dev n [] 5)
  case emit =>
    refine ⟨_, exec_of_powered (f := observeEmitEff n) rfl hp (observeEmitEff_ok hl he hh hc hm) rfl rfl, ?_, ?_, ?_, rfl⟩
    · rw [Dev.lee_modLee, if_pos rfl]
    · rw [Dev.lee_modLee, if_pos rfl]
      rfl
    · rw [Dev.packer_modLee, Dev.packer_modPacker]
      exact KMap.find_set_same _ _ _ _ _

end Sys2Proof.Machine
end

section
/-!
PROOFS. An engine leaves RUN: BARRIER, TRAP and HALT, and the record of a fault (spec/04, R103, R104, R111, R114, R127).
-/

namespace Sys2Proof.Machine

/-! ### What an engine that leaves RUN keeps -/

/-- All but the interrupt status of engines and what an event that is raised may touch. -/
def notIrq (r : RegName) : Bool := r != .LEE_IRQ_STAT && !cdcReg r

/-- All but those and the states of engines. -/
def recordRegs (r : RegName) : Bool := notIrq r && r != .LEE_STAT

theorem notIrq_of_recordRegs (r : RegName) (h : recordRegs r = true) : notIrq r = true := by
  unfold recordRegs at h
  exact (Bool.and_eq_true_iff.1 h).1

theorem Dev.leeEnter_keepsRecord (d : Dev) (n : Nat) (f : Fld) (hf : f.reg = .LEE_STAT) : d.Stays recordRegs (d.leeEnter n f) :=
  (d.leeEnter_rewrites n f hf).stays (by decide)

theorem Dev.leeIrq_stays (d : Dev) (n b : Nat) : d.Stays notIrq (d.leeIrq n b) := Dev.setIrq_stays d ⟨.LEE_IRQ_STAT, 3, 0⟩ b _ n rfl

theorem Dev.raise_notIrq (d : Dev) (n : Nat) (i : EvInfo) : d.Stays notIrq (d.raise n i) :=
  .raise d n i fun q hq => by simp [notIrq, hq]

theorem Dev.stopAfter_keepsRecord (d : Dev) (n : Nat) : d.Stays recordRegs (d.stopAfter n) := by
  have h : d.Stays recordRegs (d.modLee n fun e => { e with stopping := false }) := d.modLee_stays n _
  unfold Dev.stopAfter
  dsimp only
  split
  · exact h
  · exact h.trans (Dev.leeEnter_keepsRecord _ n _ rfl)

@[simp] theorem Dev.lee_leeEnter (d : Dev) (n : Nat) (f : Fld) (m : Nat) : (d.leeEnter n f).lee m = d.lee m := rfl

@[simp] theorem Dev.lee_raise (d : Dev) (n : Nat) (i : EvInfo) (m : Nat) : (d.raise n i).lee m = d.lee m := by
  obtain ⟨r, w, a, h⟩ := d.raise_frame n i
  rw [h]
  rfl

@[simp] theorem Dev.lee_leeIrq (d : Dev) (n b m : Nat) : (d.leeIrq n b).lee m = d.lee m := by
  unfold Dev.leeIrq Dev.setIrq
  dsimp only
  split
  · rfl
  · obtain ⟨w, h⟩ := (d.put ⟨.LEE_IRQ_STAT, 3, 0⟩ (setBit (d.get ⟨.LEE_IRQ_STAT, 3, 0⟩ n) b true) n).sendMsi_frame (d.get LEE_IRQ.TARGET n)
    rw [h]
    rfl

theorem Dev.lee_stopAfter (d : Dev) (n : Nat) : (d.stopAfter n).lee n = { d.lee n with stopping := false } := by
  unfold Dev.stopAfter
  dsimp only
  split
  · rw [Dev.lee_modLee, if_pos rfl]
  · rw [Dev.lee_leeEnter, Dev.lee_modLee, if_pos rfl]

/-! ### The state that an engine enters -/

/-- The bit of a state that an engine may enter. -/
structure StateBit (f : Fld) : Prop where
  reg : f.reg = .LEE_STAT
  one : f.lo = f.hi
  above : 0 < f.lo
  below : f.hi < 8

theorem Dev.leeEnter_flag (d : Dev) (n : Nat) {f : Fld} (hf : StateBit f) : (d.leeEnter n f).flag f n = true := by
  obtain ⟨hreg, hone, habove, hbelow⟩ := hf
  unfold Dev.leeEnter Dev.block
  rw [Dev.flag_put_beside _ LEE_STAT.BLOCK f _ _ _ hreg (by decide) (by decide) hone.le (.inr hbelow),
    Dev.flag_put_same _ _ _ _ _ hone.le (by omega), hone, Nat.sub_self]
  rfl

/-- No engine that enters one of these states runs. -/
theorem Dev.leeEnter_run (d : Dev) (n : Nat) {f : Fld} (hf : StateBit f) : (d.leeEnter n f).flag LEE_STAT.RUN n = false := by
  obtain ⟨hreg, hone, habove, hbelow⟩ := hf
  have hidle : (d.leeIdle n).flag LEE_STAT.RUN n = false := by
    unfold Dev.leeIdle
    rw [Dev.flag_put_beside _ LEE_STAT.FAULTED LEE_STAT.RUN _ _ _ rfl (by decide) (by decide) (by decide) (by decide),
      Dev.flag_put_beside _ LEE_STAT.TRAPPED LEE_STAT.RUN _ _ _ rfl (by decide) (by decide) (by decide) (by decide),
      Dev.flag_put_beside _ LEE_STAT.HALTED LEE_STAT.RUN _ _ _ rfl (by decide) (by decide) (by decide) (by decide),
      Dev.flag_put_beside _ LEE_STAT.STOPPED LEE_STAT.RUN _ _ _ rfl (by decide) (by decide) (by decide) (by decide),
      Dev.flag_put_same _ _ _ _ _ (by decide) (by decide)]
    rfl
  unfold Dev.leeEnter Dev.block
  rw [Dev.flag_put_beside _ LEE_STAT.BLOCK LEE_STAT.RUN _ _ _ rfl (by decide) (by decide) (by decide) (by decide),
    Dev.flag_put_beside _ f LEE_STAT.RUN _ _ _ hreg.symm hone.le (by omega) (by decide) (.inr habove), hidle]

/-- An engine that does not run is not started by a stop that follows. -/
theorem Dev.stopAfter_run (d : Dev) (n : Nat) (h : d.flag LEE_STAT.RUN n = false) : (d.stopAfter n).flag LEE_STAT.RUN n = false := by
  unfold Dev.stopAfter
  dsimp only
  split
  · exact h
  · exact Dev.leeEnter_run _ n ⟨rfl, rfl, by decide, by decide⟩

/-- While EN = 1 no stop follows. -/
theorem Dev.stopAfter_enabled (d : Dev) (n : Nat) (h : d.flag LEE_CTL.EN n = true) :
    d.stopAfter n = d.modLee n fun e => { e with stopping := false } := by
  unfold Dev.stopAfter
  dsimp only
  rw [Dev.flag_modLee, if_pos h]

/-! ### The interrupt status -/

/-- A one-bit field is a bit of its register. -/
theorem Dev.flag_bit (d : Dev) (r : RegName) (b u : Nat) : d.flag ⟨r, b, b⟩ u = (d.reg ⟨r, u, 0⟩).getLsbD b := by
  have hbit := Word.testBit_bits (d.reg ⟨r, u, 0⟩) b b 0
  have hlt := Word.bits_lt (d.reg ⟨r, u, 0⟩) b b
  rw [Nat.sub_self] at hbit hlt
  rw [decide_eq_true (by decide), Bool.true_and, Nat.add_zero] at hbit
  unfold Dev.flag Dev.get
  rw [← hbit]
  dsimp only
  generalize (d.reg ⟨r, u, 0⟩).bits b b = v at hlt ⊢
  interval_cases v <;> rfl

/-- An interrupt sets its bit of LEE_IRQ_STAT. -/
theorem Dev.leeIrq_flag (d : Dev) (n b : Nat) (hb : b < 4) : (d.leeIrq n b).flag ⟨.LEE_IRQ_STAT, b, b⟩ n = true := by
  rw [Dev.flag_bit]
  unfold Dev.leeIrq Dev.setIrq
  dsimp only
  split
  · rename_i hset
    rw [bit, Dev.get, Word.testBit_bits, Bool.and_eq_true, Nat.zero_add] at hset
    exact hset.2
  · rw [Dev.reg_of_regs (Dev.sendMsi_regs _ _), Dev.reg_put_same d ⟨.LEE_IRQ_STAT, 3, 0⟩, Word.getLsbD_setBits _ _ _ _ _ (by decide) (by decide),
      if_pos ⟨Nat.zero_le _, Nat.le_of_lt_succ hb⟩]
    exact bit_setBit _ b

/-! ### The record of a fault -/

/-- A fault leaves its record, and the engine at the word that faulted (R111). -/
structure Dev.Faulted (d : Dev) (n pc : Nat) (f : LeeFault) (d' : Dev) : Prop where
  valid : d'.flag LEE_FAULT.VALID n = true
  cause : d'.get LEE_FAULT.CAUSE n = f.cause % 2 ^ 8
  at_ : d'.get LEE_FAULT.PC n = pc % 2 ^ 28
  info : d'.get LEE_FAULT_INFO.INFO n = f.info % 2 ^ 64
  pc : d'.get LEE_PC.PC n = pc % 2 ^ 28
  run : d'.flag LEE_STAT.RUN n = false
  lee : d'.lee n = { d.lee n with drain := .none, pipe := [], stopping := false }
  mem : d'.mem = d.mem
  board : d'.board = d.board
  power : d'.power = d.power

theorem Dev.faultRecord_get (d : Dev) (n pc : Nat) (f : LeeFault) : (d.faultRecord n pc f).flag LEE_FAULT.VALID n = true
    ∧ (d.faultRecord n pc f).get LEE_FAULT.CAUSE n = f.cause % 2 ^ 8 ∧ (d.faultRecord n pc f).get LEE_FAULT.PC n = pc % 2 ^ 28
    ∧ (d.faultRecord n pc f).get LEE_FAULT_INFO.INFO n = f.info % 2 ^ 64 := by
  unfold Dev.faultRecord
  refine ⟨?_, ?_, ?_, Dev.get_put_same _ LEE_FAULT_INFO.INFO _ _ _ (by decide) (by decide)⟩
  · unfold Dev.flag
    rw [Dev.get_put_apart _ _ LEE_FAULT.VALID _ _ _ _ _ (by decide), Dev.get_put_apart _ _ LEE_FAULT.VALID _ _ _ _ _ (by decide),
      Dev.get_put_apart _ _ LEE_FAULT.VALID _ _ _ _ _ (by decide), Dev.get_put_apart _ _ LEE_FAULT.VALID _ _ _ _ _ (by decide),
      Dev.get_put_same _ _ _ _ _ (by decide) (by decide)]
    rfl
  · rw [Dev.get_put_apart _ _ LEE_FAULT.CAUSE _ _ _ _ _ (by decide), Dev.get_put_apart _ _ LEE_FAULT.CAUSE _ _ _ _ _ (by decide),
      Dev.get_put_apart _ _ LEE_FAULT.CAUSE _ _ _ _ _ (by decide), Dev.get_put_same _ _ _ _ _ (by decide) (by decide)]
    rfl
  · rw [Dev.get_put_apart _ _ LEE_FAULT.PC _ _ _ _ _ (by decide), Dev.get_put_same _ _ _ _ _ (by decide) (by decide)]
    rfl

/-- The engine at the word that faulted, with the record made. -/
def Dev.faultNoted (d : Dev) (n pc : Nat) (f : LeeFault) : Dev :=
  ((((d.modLee n fun e => { e with drain := .none, pipe := [] }).leeEnter n LEE_STAT.FAULTED).put LEE_PC.PC pc n).faultRecord n pc f)

theorem Dev.leeFault_eq (d : Dev) (n pc : Nat) (f : LeeFault) : d.leeFault n pc f =
    (((d.faultNoted n pc f).leeIrq n 2).raise ((d.faultNoted n pc f).leafSource n) { mkind := 2, mid := n }).stopAfter n := rfl

theorem Dev.faultNoted_faulted (d : Dev) (n pc : Nat) (f : LeeFault) : (d.faultNoted n pc f).get LEE_PC.PC n = pc % 2 ^ 28
    ∧ (d.faultNoted n pc f).flag LEE_STAT.RUN n = false ∧ (d.faultNoted n pc f).lee n = { d.lee n with drain := .none, pipe := [] }
    ∧ d.Stays noRegister (d.faultNoted n pc f) := by
  unfold Dev.faultNoted
  have henter := Dev.leeEnter_run (d.modLee n fun e => { e with drain := .none, pipe := [] }) n (f := LEE_STAT.FAULTED)
    ⟨rfl, rfl, by decide, by decide⟩
  have hlee := Dev.lee_leeEnter (d.modLee n fun e => { e with drain := .none, pipe := [] }) n LEE_STAT.FAULTED n
  have hstays := ((d.modLee_stays (K := recordRegs) n fun e => { e with drain := .none, pipe := [] }).trans
    (Dev.leeEnter_keepsRecord _ n LEE_STAT.FAULTED rfl)).mono (K' := noRegister) nofun
  rw [Dev.lee_modLee, if_pos rfl] at hlee
  generalize (d.modLee n fun e => { e with drain := .none, pipe := [] }).leeEnter n LEE_STAT.FAULTED = x at henter hlee hstays ⊢
  have hrecord := (x.put LEE_PC.PC pc n).faultRecord_rewrites n pc f
  refine ⟨?_, ?_, ?_, ?_⟩
  · rw [hrecord.get _ _ _ (by decide), Dev.get_put_same _ _ _ _ _ (by decide) (by decide)]
    rfl
  · rw [hrecord.flag _ _ _ (by decide), Dev.flag_put_name _ _ _ _ _ _ _ _ (by decide), henter]
  · rw [hrecord.rest, ← hlee]
    rfl
  · exact (hstays.trans (.put x _ _ _ _ rfl)).trans (hrecord.stays fun _ _ => rfl)

/-- A fault makes its record. -/
theorem Dev.leeFault_faulted (d : Dev) (n pc : Nat) (f : LeeFault) : d.Faulted n pc f (d.leeFault n pc f) := by
  obtain ⟨hvalid, hcause, hat, hinfo⟩ := (((d.modLee n fun e => { e with drain := .none, pipe := [] }).leeEnter n
    LEE_STAT.FAULTED).put LEE_PC.PC pc n).faultRecord_get n pc f
  obtain ⟨hpc, hrun, hlee, hrest⟩ := d.faultNoted_faulted n pc f
  rw [← Dev.faultNoted] at hvalid hcause hat hinfo
  rw [Dev.leeFault_eq]
  generalize d.faultNoted n pc f = x at *
  have hsignals := (x.leeIrq_stays n 2).trans (Dev.raise_notIrq _ (x.leafSource n) { mkind := 2, mid := n })
  have hsame : (((x.leeIrq n 2).raise (x.leafSource n) { mkind := 2, mid := n }).lee n) = x.lee n := by simp
  generalize (x.leeIrq n 2).raise (x.leafSource n) { mkind := 2, mid := n } = y at *
  have hstays := (hsignals.mono notIrq_of_recordRegs).trans (y.stopAfter_keepsRecord n)
  exact {
    valid := (hstays.flag _ _ _ rfl).trans hvalid
    cause := (hstays.get _ _ _ rfl).trans hcause
    at_ := (hstays.get _ _ _ rfl).trans hat
    info := (hstays.get _ _ _ rfl).trans hinfo
    pc := (hstays.get _ _ _ rfl).trans hpc
    run := y.stopAfter_run n ((hsignals.flag _ _ _ rfl).trans hrun)
    lee := by rw [y.lee_stopAfter, hsame, hlee]
    mem := hstays.mem.trans hrest.mem
    board := hstays.board.trans hrest.board
    power := hstays.power.trans hrest.power }

end Sys2Proof.Machine
end

section
/-!
PROOFS. Words that drain (spec/04, R103, R104, R127).
-/

namespace Sys2Proof.Machine

/-! ### BARRIER, TRAP and HALT start to drain -/

/-- A barrier whose arrival is not counted yet does not pass. -/
theorem Dev.barrierGo_waits {d : Dev} {n : Nat} (h : d.flag LEE_BAR.ARR n = false) : d.barrierGo n = d := by
  unfold Dev.barrierGo
  dsimp only
  rw [h, Bool.and_false, Bool.false_and, if_neg (by simp)]

/-- A member at its BARRIER drains, and waits with BLOCK 2. -/
def Dev.barrierWaits (d : Dev) (n : Nat) : Dev := (d.modLee n fun e => { e with drain := .barrier }).block n 2

theorem barrierEff_ok {d : Dev} {n : Nat} (hi : d.wordIssues n .barrier) (hg : d.get LEE_STAT.GROUP n ≠ 0xFF)
    (hf : d.groupFault (d.get LEE_STAT.GROUP n) = none) (ha : d.flag LEE_BAR.ARR n = false) :
    barrierEff n .none d = d.barrierWaits n := by
  have hwaits : (d.barrierWaits n).barrierGo n = d.barrierWaits n :=
    Dev.barrierGo_waits ((Dev.flag_put_name _ LEE_STAT.BLOCK LEE_BAR.ARR _ _ _ _ _ (by decide)).trans ha)
  rw [barrierEff, d.issueWord_ok n .barrier _ hi]
  dsimp only
  rw [if_neg hg, hf]
  exact hwaits

theorem Dev.barrierWaits_spec (d : Dev) (n : Nat) : d.engineFrame (d.barrierWaits n) n [] ∧ ((d.barrierWaits n).lee n).drain = .barrier
    ∧ (d.barrierWaits n).get LEE_STAT.BLOCK n = 2 ∧ (d.barrierWaits n).get LEE_PC.PC n = d.get LEE_PC.PC n := by
  unfold Dev.barrierWaits
  refine ⟨(Dev.engineFrame.modLee d n [] _).trans (.block _ n [] 2), ?_, ?_, ?_⟩
  · rw [Dev.lee_block, Dev.lee_modLee, if_pos rfl]
  · exact Dev.get_put_same _ LEE_STAT.BLOCK _ _ _ (by decide) (by decide)
  · exact Dev.get_put_name _ LEE_STAT.BLOCK LEE_PC.PC _ _ _ _ _ (by decide)

/-- A word has issued whose engine drains for it. -/
def Dev.drains (d : Dev) (n : Nat) (o : Opcode) (w : Drain) : Dev :=
  (d.issued n (d.fetchWord n) o).modLee n fun e => { e with drain := w }

theorem Dev.drains_spec (d : Dev) (n : Nat) (o : Opcode) (w : Drain) : d.engineFrame (d.drains n o w) n []
    ∧ ((d.drains n o w).lee n).drain = w ∧ (d.drains n o w).get LEE_PC.PC n = d.get LEE_PC.PC n := by
  have hu := (Dev.UnderWay.issued d n (d.fetchWord n) o).modLee (fun e => { e with drain := w }) (fun _ => rfl) fun _ => rfl
  exact ⟨hu.frame, by rw [Dev.drains, Dev.lee_modLee, if_pos rfl], hu.pc⟩

/-! ### A drained TRAP or HALT leaves RUN -/

/-- The engine leaves RUN for a state, with a bit of its interrupt status; what it had issued is over. -/
def Dev.leavesRun (d : Dev) (n : Nat) (f : Fld) (b : Nat) : Dev := ((d.leeEnter n f).leeIrq n b).stopAfter n

theorem Dev.leavesRun_spec (d : Dev) (n : Nat) {f : Fld} {b : Nat} (hf : StateBit f) (hb : b < 4) (he : d.flag LEE_CTL.EN n = true) :
    d.Stays recordRegs (d.leavesRun n f b) ∧ (d.leavesRun n f b).flag f n = true ∧ (d.leavesRun n f b).flag LEE_STAT.RUN n = false
      ∧ (d.leavesRun n f b).flag ⟨.LEE_IRQ_STAT, b, b⟩ n = true ∧ (d.leavesRun n f b).lee n = { d.lee n with stopping := false } := by
  have henter := d.leeEnter_keepsRecord n f hf.reg
  have hstate := d.leeEnter_flag n hf
  have hrun := d.leeEnter_run n hf
  have hlee := d.lee_leeEnter n f n
  unfold Dev.leavesRun
  generalize d.leeEnter n f = x at *
  have hirq := x.leeIrq_stays n b
  have hset := x.leeIrq_flag n b hb
  rw [← x.lee_leeIrq n b] at hlee
  generalize x.leeIrq n b = y at *
  have hstays := henter.trans (hirq.mono notIrq_of_recordRegs)
  rw [y.stopAfter_enabled n ((hstays.flag _ _ _ rfl).trans he)]
  refine ⟨hstays.trans (y.modLee_stays n _), (hirq.flag f n 0 ?_).trans hstate, (hirq.flag _ _ _ rfl).trans hrun, hset, ?_⟩
  · rw [hf.reg]; rfl
  · rw [Dev.lee_modLee, if_pos rfl, hlee]

/-- A drained TRAP at the following word, with its code and its own program counter value recorded. -/
def Dev.trapNoted (d : Dev) (n : Nat) : Dev :=
  ((((d.setLee n { d.lee n with drain := .none, pipe := [] }).put LEE_TRAP.CODE ((d.fetchWord n).imm.bits 15 0) n).put LEE_TRAP.PC
    (d.get LEE_PC.PC n) n).goto n (d.get LEE_PC.PC n + 1))

theorem trapDrainedEff_ok {d : Dev} {n : Nat} (ht : (d.lee n).drain = .trap) (hd : (d.lee n).drained = true) :
    trapDrainedEff n d = (d.trapNoted n).leavesRun n LEE_STAT.TRAPPED 0 := by
  unfold trapDrainedEff
  dsimp only
  rw [ht, hd, if_neg (by simp)]
  rfl

theorem Dev.trapNoted_spec (d : Dev) (n : Nat) : d.Stays noRegister (d.trapNoted n)
    ∧ (d.trapNoted n).get LEE_TRAP.CODE n = (d.fetchWord n).imm.bits 15 0 ∧ (d.trapNoted n).get LEE_TRAP.PC n = d.get LEE_PC.PC n
    ∧ (d.trapNoted n).get LEE_PC.PC n = (d.get LEE_PC.PC n + 1) % 2 ^ 28 ∧ (d.trapNoted n).flag LEE_CTL.EN n = d.flag LEE_CTL.EN n
    ∧ (d.trapNoted n).lee n = { d.lee n with drain := .none, pipe := [] } := by
  have hcode := Word.bits_lt (d.fetchWord n).imm 15 0
  have hpc := Word.bits_lt (d.reg ⟨.LEE_PC, n, 0⟩) 27 0
  rw [show (d.reg ⟨.LEE_PC, n, 0⟩).bits 27 0 = d.get LEE_PC.PC n from rfl] at hpc
  unfold Dev.trapNoted
  generalize (d.fetchWord n).imm.bits 15 0 = code at *
  generalize d.get LEE_PC.PC n = pc at *
  have hlee := d.lee_setLee n { d.lee n with drain := .none, pipe := [] }
  have hstays := d.setLee_stays (K := fun _ => true) n { d.lee n with drain := .none, pipe := [] }
  generalize d.setLee n { d.lee n with drain := .none, pipe := [] } = x at *
  refine ⟨?_, ?_, ?_, ?_, ?_, hlee⟩
  · exact (((hstays.mono (K' := noRegister) nofun).trans (.put _ _ _ _ _ rfl)).trans (.put _ _ _ _ _ rfl)).trans (.put _ _ _ _ _ rfl)
  · rw [Dev.goto, Dev.get_put_apart _ _ LEE_TRAP.CODE _ _ _ _ _ (by decide), Dev.get_put_apart _ _ LEE_TRAP.CODE _ _ _ _ _ (by decide),
      Dev.get_put_same _ _ _ _ _ (by decide) (by decide)]
    exact Nat.mod_eq_of_lt hcode
  · rw [Dev.goto, Dev.get_put_apart _ _ LEE_TRAP.PC _ _ _ _ _ (by decide), Dev.get_put_same _ _ _ _ _ (by decide) (by decide)]
    exact Nat.mod_eq_of_lt hpc
  · exact Dev.goto_pc _ _ _
  · rw [Dev.goto, Dev.flag_put_name _ _ LEE_CTL.EN _ _ _ _ _ (by decide), Dev.flag_put_name _ _ LEE_CTL.EN _ _ _ _ _ (by decide),
      Dev.flag_put_name _ _ LEE_CTL.EN _ _ _ _ _ (by decide), hstays.flag _ _ _ rfl]

/-- A drained HALT at the following word. -/
def Dev.haltNoted (d : Dev) (n : Nat) : Dev := (d.setLee n { d.lee n with drain := .none, pipe := [] }).goNext n

theorem haltDrainedEff_ok {d : Dev} {n : Nat} (ht : (d.lee n).drain = .halt) (hd : (d.lee n).drained = true) :
    haltDrainedEff n d = (d.haltNoted n).leavesRun n LEE_STAT.HALTED 1 := by
  unfold haltDrainedEff
  dsimp only
  rw [ht, hd, if_neg (by simp)]
  rfl

theorem Dev.haltNoted_spec (d : Dev) (n : Nat) : d.Stays noRegister (d.haltNoted n)
    ∧ (d.haltNoted n).get LEE_PC.PC n = (d.get LEE_PC.PC n + 1) % 2 ^ 28 ∧ (d.haltNoted n).flag LEE_CTL.EN n = d.flag LEE_CTL.EN n
    ∧ (d.haltNoted n).lee n = { d.lee n with drain := .none, pipe := [] } := by
  unfold Dev.haltNoted
  have hlee := d.lee_setLee n { d.lee n with drain := .none, pipe := [] }
  have hstays := d.setLee_stays (K := fun _ => true) n { d.lee n with drain := .none, pipe := [] }
  generalize d.setLee n { d.lee n with drain := .none, pipe := [] } = x at *
  refine ⟨(hstays.mono (K' := noRegister) nofun).trans (.put _ _ _ _ _ rfl), ?_, ?_, hlee⟩
  · rw [Dev.goNext_pc, hstays.get _ _ _ rfl]
  · rw [Dev.goNext, Dev.goto, Dev.flag_put_name _ _ LEE_CTL.EN _ _ _ _ _ (by decide), hstays.flag _ _ _ rfl]

end Sys2Proof.Machine
end

section
/-!
PROOFS. A fault found after a word has issued (spec/04, R111), and the drains of R103, R104 and R127.
-/

namespace Sys2Proof.Machine

/-! ### Store words are undone -/

theorem insertNat_perm {n : Nat} {l : List Nat} (h : n ∉ l) : (insertNat n l).Perm (n :: l) := by
  induction l with
  | nil => exact .refl _
  | cons a t ih =>
    obtain ⟨hne, ht⟩ := not_or.1 (mt List.mem_cons.2 h)
    unfold insertNat
    split
    · exact ((ih ht).cons a).trans (.swap n a t)
    · rw [if_neg (Ne.symm hne)]

/-- What a word that writes the store makes of its valid blocks: those of before stay, and a new one is there once. -/
structure Lee.Outgrows (e e' : Lee) : Prop where
  valid : ∀ b ∈ e.valid, b ∈ e'.valid
  fresh : ∀ b, b ∉ e.valid → e'.valid.count b ≤ 1

namespace Lee.Outgrows

variable {e e' : Lee}

theorem refl (e : Lee) : e.Outgrows e := ⟨fun _ => id, fun b hb => by rw [List.count_eq_zero_of_not_mem hb]; exact Nat.zero_le _⟩

theorem putWord (h : e.Outgrows e') (w : Nat) (v : Word) : e.Outgrows (e'.putWord w v) := by
  unfold Lee.putWord
  split
  · exact ⟨h.valid, h.fresh⟩
  · rename_i hnew
    rw [List.contains_iff_mem] at hnew
    refine ⟨fun b hb => (mem_insertNat _ _ _).2 (.inr (h.valid b hb)), fun b hb => ?_⟩
    dsimp only
    rw [(insertNat_perm hnew).count_eq b, List.count_cons]
    split
    · rename_i heq
      rw [← beq_iff_eq.1 heq, List.count_eq_zero_of_not_mem hnew]
    · exact h.fresh b hb

theorem putWords (h : e.Outgrows e') (w : Nat) (l : List Word) : e.Outgrows (e'.putWords w l) := by
  induction l generalizing e' w with
  | nil => exact h
  | cons v t ih => exact ih (h.putWord w v) (w + 1)

/-- A word of the store is put back as it was held. -/
theorem unput (h : e.Outgrows e') (w : Nat) : e.Outgrows (e'.unput (w, e.held w)) := by
  unfold Lee.unput Lee.held
  split
  · exact h.putWord w _
  · rename_i hheld
    have hnone : w / 32 ∉ e.valid := by
      intro hmem
      rw [if_pos (List.contains_iff_mem.2 hmem)] at hheld
      cases hheld
    refine ⟨fun b hb => (List.mem_erase_of_ne fun heq => hnone (by rwa [← heq])).2 (h.valid b hb), fun b hb => ?_⟩
    exact (List.erase_sublist.count_le b).trans (h.fresh b hb)

/-- Putting a word back restores it, and leaves every word that it does not restore. -/
theorem word_unput (h : e.Outgrows e') (w w' : Nat) : (e'.unput (w, e.held w)).word w' = e.word w'
    ∨ w' ≠ w ∧ (e'.unput (w, e.held w)).word w' = e'.word w' := by
  by_cases hv : e.valid.contains (w / 32) = true
  · have hheld : e.held w = some (e.word w) := by rw [Lee.held, Lee.word, if_pos hv, if_pos hv]
    rw [hheld]
    show (e'.putWord w (e.word w)).word w' = e.word w' ∨ w' ≠ w ∧ (e'.putWord w (e.word w)).word w' = e'.word w'
    rw [Lee.word_putWord]
    by_cases hw : w' = w
    · exact .inl (by rw [if_pos hw, hw])
    · exact .inr ⟨hw, if_neg hw⟩
  · have hheld : e.held w = none := by rw [Lee.held, if_neg hv]
    have hnone : w / 32 ∉ e.valid := fun hmem => hv (List.contains_iff_mem.2 hmem)
    rw [hheld]
    unfold Lee.unput Lee.word
    dsimp only
    by_cases hb : w' / 32 = w / 32
    · left
      have hgone : w / 32 ∉ e'.valid.erase (w / 32) := fun hmem => by
        have hpos := List.count_pos_iff.2 hmem
        have hfresh := h.fresh _ hnone
        rw [List.count_erase_self] at hpos
        omega
      rw [hb, if_neg (mt List.contains_iff_mem.1 hgone), if_neg hv]
    · right
      have hfind := KMap.find_filter (0 : Word) (fun k => k / 32 != w / 32) e'.store w' (by simp [hb])
      have hmem : (e'.valid.erase (w / 32)).contains (w' / 32) = e'.valid.contains (w' / 32) := by
        rw [Bool.eq_iff_iff, List.contains_iff_mem, List.contains_iff_mem, List.mem_erase_of_ne hb]
      exact ⟨fun heq => hb (by rw [heq]), by rw [hmem, hfind]⟩

/-- With every word put back that differs, the store is as it was. -/
theorem restore (h : e.Outgrows e') (ws : List Nat) (hw : ∀ w, w ∉ ws → e'.word w = e.word w) (w : Nat) :
    ((ws.map fun w => (w, e.held w)).foldl Lee.unput e').word w = e.word w := by
  induction ws generalizing e' with
  | nil => exact hw w List.not_mem_nil
  | cons v t ih =>
    refine ih (h.unput v) fun w' ht => ?_
    rcases h.word_unput v w' with hback | ⟨hne, hsame⟩
    · exact hback
    · rw [hsame, hw w' (mt List.mem_cons.1 (not_or.2 ⟨hne, ht⟩))]

end Lee.Outgrows

/-- A run of words that the word issued last writes is undone by what was noted of it. -/
theorem Lee.puts_undone (e : Lee) (first : Nat) (l : List Word) (w : Nat) :
    (((List.range l.length).map fun i => (first + i, e.held (first + i))).foldl Lee.unput (e.puts first l)).word w = e.word w := by
  have hgrows : e.Outgrows (e.puts first l) := by
    have hnoted : e.Outgrows (e.note (e.seq - 1) first l.length) := ⟨(Lee.Outgrows.refl e).valid, (Lee.Outgrows.refl e).fresh⟩
    exact hnoted.putWords first l
  have hrun := hgrows.restore ((List.range l.length).map (first + ·)) (fun w' hw' => by
    rw [Lee.word_puts, if_neg]
    rintro ⟨hle, hlt⟩
    exact hw' (List.mem_map.2 ⟨w' - first, List.mem_range.2 (by omega), by omega⟩)) w
  rw [List.map_map] at hrun
  exact hrun

/-! ### Words are cancelled -/

/-- The engine in which a word is undone. -/
def Issued.undone (x : Issued) (e : Lee) : Lee :=
  { x.old.foldl Lee.unput e with
    arrivals := x.took.foldl (fun a p => a.set natLt 0 p.1 (min 8191 (a.find 0 p.1 + p.2))) e.arrivals
    evals := x.evals }

theorem Issued.word_undone (x : Issued) (e : Lee) (w : Nat) : (x.undone e).word w = (x.old.foldl Lee.unput e).word w := rfl

theorem Dev.setRegs_frame (d : Dev) (l : List (Reg × Word)) : ∃ r, l.foldl (fun d p => d.setReg p.1 p.2) d = { d with regs := r } := by
  induction l generalizing d with
  | nil => exact ⟨_, rfl⟩
  | cons p t ih =>
    obtain ⟨r, h⟩ := ih (d.setReg p.1 p.2)
    exact ⟨r, h⟩

/-- Undoing a word changes registers and its engine alone. -/
theorem Dev.undoWord_spec (d : Dev) (n : Nat) (x : Issued) : d.leeOnly (d.undoWord n x) ∧ (d.undoWord n x).lee n = x.undone (d.lee n) := by
  have hlee : (d.modLee n x.undone).lee n = x.undone (d.lee n) := by rw [Dev.lee_modLee, if_pos rfl]
  have honly := (Dev.leeOnly.refl d).modLee n x.undone
  obtain ⟨r, hregs⟩ := (d.modLee n x.undone).setRegs_frame x.regs
  have heq : d.undoWord n x = if x.surplus then ({ d.modLee n x.undone with regs := r } : Dev).put LEE_XCH_STAT.SURPLUS 0 n
      else { d.modLee n x.undone with regs := r } := by rw [← hregs]; rfl
  rw [heq]
  generalize d.modLee n x.undone = y at *
  have hy : d.leeOnly { y with regs := r } := by
    obtain ⟨r', l, rfl⟩ := honly
    exact ⟨r, l, rfl⟩
  split
  · exact ⟨hy.put _ _ _ _, hlee⟩
  · exact ⟨hy, hlee⟩

/-- What is cancelled with the words from a number on. -/
def Lee.cancelled (e : Lee) (seq : Nat) : Lee :=
  { e with
    pipe := e.pipe.filter fun x => decide (x.seq < seq)
    memrds := e.memrds.filter fun m => decide (m.seq < seq)
    outs := e.outs.filter fun o => decide (o.1 < seq)
    mem := e.mem.filter fun r => match r.word with
      | some s => decide (s < seq)
      | none => true
    busy := [] }

/-- The words from a number on are undone. -/
def Dev.undone (d : Dev) (n seq : Nat) : Dev :=
  ((d.lee n).pipe.filter fun x => decide (seq ≤ x.seq)).foldl (fun d x => d.undoWord n x) d

theorem Dev.undone_leeOnly (d : Dev) (n seq : Nat) : d.leeOnly (d.undone n seq) :=
  List.foldlRecOn _ _ (Dev.leeOnly.refl d) fun x h i _ => by
    obtain ⟨r, l, rfl⟩ := h
    obtain ⟨r', l', h'⟩ := (Dev.undoWord_spec { d with regs := r, lees := l } n i).1
    exact ⟨r', l', h'⟩

theorem Dev.cancelFrom_eq (d : Dev) (n seq : Nat) : d.cancelFrom n seq = (d.undone n seq).modLee n fun e => e.cancelled seq := rfl

theorem Dev.cancelFrom_lee (d : Dev) (n seq : Nat) : (d.cancelFrom n seq).lee n = ((d.undone n seq).lee n).cancelled seq := by
  rw [Dev.cancelFrom_eq, Dev.lee_modLee, if_pos rfl]

/-- No effect, MEMRD or request of a cancelled word is left. -/
theorem Lee.cancelled_gone (e : Lee) (seq : Nat) : (∀ o ∈ (e.cancelled seq).outs, o.1 < seq) ∧ (∀ m ∈ (e.cancelled seq).memrds, m.seq < seq)
    ∧ ∀ r ∈ (e.cancelled seq).mem, ∀ q, r.word = some q → q < seq := by
  refine ⟨fun o ho => ?_, fun m hm => ?_, fun r hr q hq => ?_⟩
  · exact of_decide_eq_true (List.mem_filter.1 ho).2
  · exact of_decide_eq_true (List.mem_filter.1 hm).2
  · have hkept := (List.mem_filter.1 hr).2
    rw [hq] at hkept
    exact of_decide_eq_true hkept

/-! ### A late fault -/

theorem leeLateFaultEff_ok {d : Dev} {n back info : Nat} {x : Issued} (hrun : d.flag LEE_STAT.RUN n = true)
    (hx : (d.lee n).pipe[back]? = some x) (hm : ∀ m ∈ (d.lee n).memrds, x.seq < m.seq) :
    leeLateFaultEff n back .storeUe info d = (d.cancelFrom n x.seq).leeFault n x.pc ⟨0x09, 15, info / 8 * 8⟩ := by
  have hmay : (d.lee n).mayRelease x.seq = true := List.all_eq_true.2 fun m h => decide_eq_true (hm m h)
  unfold leeLateFaultEff
  rw [hrun, hx, if_neg (by simp)]
  dsimp only [lateFault]
  rw [if_pos hmay]

/-- The record of a late fault, once the words from its own on are cancelled. -/
theorem leeLateFaultEff_faulted {d : Dev} {n back info : Nat} {x : Issued} (hrun : d.flag LEE_STAT.RUN n = true)
    (hx : (d.lee n).pipe[back]? = some x) (hm : ∀ m ∈ (d.lee n).memrds, x.seq < m.seq) :
    (d.cancelFrom n x.seq).Faulted n x.pc ⟨0x09, 15, info / 8 * 8⟩ (leeLateFaultEff n back .storeUe info d) := by
  rw [leeLateFaultEff_ok hrun hx hm]
  exact Dev.leeFault_faulted _ _ _ _

theorem Dev.cancelFrom_leeOnly (d : Dev) (n seq : Nat) : d.leeOnly (d.cancelFrom n seq) := (d.undone_leeOnly n seq).modLee n fun e => e.cancelled seq

/-! ### The word issued last -/

/-- A word that has issued out of an engine and is the one issued last, with what is kept of it and of earlier ones. -/
structure Dev.LastWord (d : Dev) (n : Nat) (d' : Dev) (x : Issued) (rest : List Issued) : Prop where
  frame : d.engineFrame d' n []
  run : d'.flag LEE_STAT.RUN n = true
  pipe : (d'.lee n).pipe = x :: rest
  seq : (d'.lee n).seq = x.seq + 1
  earlier : ∀ y ∈ rest, y.seq < x.seq
  memrds : (d'.lee n).memrds = []
  pc : x.pc = d.get LEE_PC.PC n

/-- What is noted with the word issued last is noted with no other. -/
theorem note_last {x : Issued} {rest : List Issued} {k : Nat} (f : Issued → Issued) (hk : k = x.seq) (hrest : ∀ y ∈ rest, y.seq < x.seq) :
    (x :: rest).map (fun y => if y.seq == k then f y else y) = f x :: rest := by
  rw [hk, List.map_cons, if_pos (beq_self_eq_true _)]
  refine congrArg _ ((List.map_congr_left fun y hy => ?_).trans (List.map_id rest))
  exact if_neg fun heq => (hrest y hy).ne (beq_iff_eq.1 heq)

namespace Dev.LastWord

variable {d d' : Dev} {n : Nat} {x : Issued} {rest : List Issued}

theorem issued {h : EvalWord} {o : Opcode} (hrun : d.flag LEE_STAT.RUN n = true) (hm : (d.lee n).memrds = [])
    (hp : ∀ y ∈ (d.lee n).pipe, y.seq < (d.lee n).seq) :
    ∃ x rest, d.LastWord n (d.issued n h o) x rest ∧ x.old = [] ∧ x.took = [] := by
  obtain ⟨x, rest, hpipe, hseq, hpc, hold, htook, hrest⟩ := d.issued_pipe n h o
  exact ⟨x, rest, {
    frame := .issued d n [] h o
    run := (d.issued_run n h o).trans hrun
    pipe := hpipe
    seq := by rw [d.issued_seq, hseq]
    earlier := fun y hy => hseq ▸ hp y (hrest y hy)
    memrds := (d.issued_memrds n h o).trans hm
    pc := hpc }, hold, htook⟩

/-- A change of the engine that at most notes something with the word. -/
theorem modLee (h : d.LastWord n d' x rest) (f : Lee → Lee) {x' : Issued} (hpipe : (f (d'.lee n)).pipe = x' :: rest)
    (hseq : (f (d'.lee n)).seq = (d'.lee n).seq) (hm : (f (d'.lee n)).memrds = (d'.lee n).memrds) (hs : x'.seq = x.seq) (hp : x'.pc = x.pc) :
    d.LastWord n (d'.modLee n f) x' rest := by
  have hlee : (d'.modLee n f).lee n = f (d'.lee n) := by rw [Dev.lee_modLee, if_pos rfl]
  exact {
    frame := h.frame.trans (.modLee d' n [] f)
    run := h.run
    pipe := by rw [hlee, hpipe]
    seq := by rw [hlee, hseq, h.seq, hs]
    earlier := fun y hy => hs ▸ h.earlier y hy
    memrds := by rw [hlee, hm, h.memrds]
    pc := hp.trans h.pc }

theorem goNext (h : d.LastWord n d' x rest) : d.LastWord n (d'.goNext n) x rest where
  frame := h.frame.trans (.goNext d' n [])
  run := (Dev.flag_put_name d' LEE_PC.PC LEE_STAT.RUN _ n 0 n 0 (by decide)).trans h.run
  pipe := h.pipe
  seq := h.seq
  earlier := h.earlier
  memrds := h.memrds
  pc := h.pc

/-- The word writes a run of store words, and what they held is noted with it. -/
theorem puts (h : d.LastWord n d' x rest) (first : Nat) (l : List Word) : d.LastWord n (d'.modLee n fun e => e.puts first l)
    { x with old := (List.range l.length).map (fun i => (first + i, (d'.lee n).held (first + i))) ++ x.old } rest := by
  obtain ⟨st, v, hput⟩ := ((d'.lee n).note ((d'.lee n).seq - 1) first l.length).putWords_frame first l
  refine h.modLee _ ?_ (by rw [Lee.puts, hput]; rfl) (by rw [Lee.puts, hput]; rfl) rfl rfl
  rw [Lee.puts, hput]
  dsimp only [Lee.note]
  rw [h.pipe]
  exact note_last (fun x => { x with old := (List.range l.length).map (fun i => (first + i, (d'.lee n).held (first + i))) ++ x.old })
    (by rw [h.seq, Nat.add_sub_cancel]) h.earlier

/-- A late fault of the word: the engine is as the word undone leaves it, at the word, with the fault recorded there. -/
theorem late (h : d.LastWord n d' x rest) (info : Nat) :
    (leeLateFaultEff n 0 .storeUe info d').get LEE_PC.PC n = d.get LEE_PC.PC n
      ∧ (leeLateFaultEff n 0 .storeUe info d').get LEE_FAULT.PC n = d.get LEE_PC.PC n
      ∧ (∀ w, ((leeLateFaultEff n 0 .storeUe info d').lee n).word w = (x.undone (d'.lee n)).word w)
      ∧ ((leeLateFaultEff n 0 .storeUe info d').lee n).arrivals = (x.undone (d'.lee n)).arrivals
      ∧ (leeLateFaultEff n 0 .storeUe info d').board = d'.board ∧ (leeLateFaultEff n 0 .storeUe info d').power = d'.power := by
  have hfault := leeLateFaultEff_faulted (back := 0) (info := info) (x := x) h.run (by rw [h.pipe]; rfl) (by rw [h.memrds]; nofun)
  have honly := d'.cancelFrom_leeOnly n x.seq
  have hundone : (d'.undone n x.seq).lee n = x.undone (d'.lee n) := by
    have hfilter : (d'.lee n).pipe.filter (fun y => decide (x.seq ≤ y.seq)) = [x] := by
      rw [h.pipe, List.filter_cons_of_pos (by simp), List.filter_eq_nil_iff.2 fun y hy => by simpa using h.earlier y hy]
    rw [Dev.undone, hfilter]
    exact (d'.undoWord_spec n x).2
  have hlee := hfault.lee
  rw [Dev.cancelFrom_lee, hundone] at hlee
  have hpc : x.pc % 2 ^ 28 = d.get LEE_PC.PC n := by
    rw [h.pc]
    exact Nat.mod_eq_of_lt (Word.bits_lt _ 27 0)
  refine ⟨hfault.pc.trans hpc, hfault.at_.trans hpc, fun w => ?_, ?_, hfault.board.trans honly.board, hfault.power.trans honly.power⟩
  · rw [hlee]
    rfl
  · rw [hlee]
    rfl

end Dev.LastWord

/-- A word has issued out of an engine that undoing it restores the store of. -/
def Dev.Undoable (d : Dev) (n : Nat) (d' : Dev) : Prop :=
  ∃ x rest, d.LastWord n d' x rest ∧ ∀ w, (x.undone (d'.lee n)).word w = (d.lee n).word w

namespace Dev.LastWord

variable {d d' : Dev} {n : Nat} {x : Issued} {rest : List Issued}

theorem undoable (h : d.LastWord n d' x rest) (hold : x.old = []) (hw : ∀ w, (d'.lee n).word w = (d.lee n).word w) :
    d.Undoable n (d'.goNext n) :=
  ⟨x, rest, h.goNext, fun w => by rw [Issued.word_undone, hold, Dev.lee_goNext]; exact hw w⟩

theorem puts_undoable (h : d.LastWord n d' x rest) (hold : x.old = []) (hw : ∀ w, (d'.lee n).word w = (d.lee n).word w) (first : Nat)
    (l : List Word) : d.Undoable n ((d'.modLee n fun e => e.puts first l).goNext n) := by
  refine ⟨_, rest, (h.puts first l).goNext, fun w => ?_⟩
  rw [Issued.word_undone, Dev.lee_goNext, Dev.lee_modLee, if_pos rfl, hold, List.append_nil, Lee.puts_undone, hw]

/-- What an EVAL or EVALM writes is undone. -/
theorem evalWrite_undoable (h : d.LastWord n d' x rest) (hold : x.old = []) (hw : ∀ w, (d'.lee n).word w = (d.lee n).word w) (e : EvalWord)
    (mask : Nat) : d.Undoable n ((d'.evalWrite n e mask).goNext n) := by
  unfold Dev.evalWrite
  split
  · exact h.undoable hold hw
  · exact h.puts_undoable hold hw _ _

theorem writeDst_undoable (h : d.LastWord n d' x rest) (hold : x.old = []) (hw : ∀ w, (d'.lee n).word w = (d.lee n).word w) (e : EvalWord)
    (l : List Word) : d.Undoable n ((d'.writeDst n e l).goNext n) := h.puts_undoable hold hw _ l

end Dev.LastWord

/-! ### The commands -/

/-- The state that a command leads to is the one that it is known to lead to. -/
theorem dev_of_next {s t : State} {c : Instr} {d : Dev} (h : exec c s = .next (s.withDev d)) (ht : exec c s = .next t) : t.dev = d := by
  rw [h] at ht
  injection ht with ht
  rw [← ht]

/-- A late fault of the word that a command issued. -/
theorem exec_late {s t u : State} {n info : Nat} {d : Dev} {x : Issued} {rest : List Issued} (hp : s.dev.powered = true) (htd : t.dev = d)
    (hl : s.dev.LastWord n d x rest) (hu : exec (.leeLateFault n 0 .storeUe info) t = .next u) :
    u.dev.get LEE_PC.PC n = s.dev.get LEE_PC.PC n ∧ u.dev.get LEE_FAULT.PC n = s.dev.get LEE_PC.PC n
      ∧ (∀ w, (u.dev.lee n).word w = (x.undone (d.lee n)).word w) ∧ (u.dev.lee n).arrivals = (x.undone (d.lee n)).arrivals := by
  subst htd
  obtain ⟨hpc, hat, hword, harrivals, hboard, hpower⟩ := hl.late info
  have hpt : t.dev.powered = true := by
    rw [← hp]
    simp only [Dev.powered, hl.frame.leeOnly.board, hl.frame.leeOnly.power]
  have hexec := exec_of_powered (s := t) (c := .leeLateFault n 0 .storeUe info) (f := leeLateFaultEff n 0 .storeUe info) rfl hpt rfl hboard
    (congrArg Power.unpowered hpower)
  rw [dev_of_next hexec hu]
  exact ⟨hpc, hat, hword, harrivals⟩

/-- A late fault of a word that is undone. -/
theorem exec_late_undoable {s t u : State} {n info : Nat} {c : Instr} {f : Dev → Dev} {d : Dev} (he : exec c s = .next (s.on f))
    (hp : s.dev.powered = true) (hf : f s.dev = d) (hd : s.dev.Undoable n d) (ht : exec c s = .next t)
    (hu : exec (.leeLateFault n 0 .storeUe info) t = .next u) :
    u.dev.get LEE_PC.PC n = s.dev.get LEE_PC.PC n ∧ u.dev.get LEE_FAULT.PC n = s.dev.get LEE_PC.PC n
      ∧ ∀ w, (u.dev.lee n).word w = (s.dev.lee n).word w := by
  obtain ⟨x, rest, hl, hw⟩ := hd
  obtain ⟨hpc, hat, hword, -⟩ := exec_late hp (dev_of_next (exec_of_engineFrame he hp hf hl.frame) ht) hl hu
  exact ⟨hpc, hat, fun w => (hword w).trans (hw w)⟩

/-- What EVAL, EVALM, MUX and COPY write is undone. -/
theorem storeWord_late {s t u : State} {n info : Nat} {o : Opcode} {c : Instr} (hp : s.dev.powered = true) (hi : s.dev.wordIssues n o)
    (hm : (s.dev.lee n).memrds = []) (hpipe : ∀ y ∈ (s.dev.lee n).pipe, y.seq < (s.dev.lee n).seq)
    (hoc : (o, c) ∈ [(Opcode.eval, Instr.eval n .none), (.evalm, .evalm n .none), (.mux, .mux n .none), (.copy, .copy n .none)])
    (ht : exec c s = .next t) (hu : exec (.leeLateFault n 0 .storeUe info) t = .next u) :
    u.dev.get LEE_PC.PC n = s.dev.get LEE_PC.PC n ∧ u.dev.get LEE_FAULT.PC n = s.dev.get LEE_PC.PC n
      ∧ ∀ w, (u.dev.lee n).word w = (s.dev.lee n).word w := by
  obtain ⟨x, rest, hl, hold, -⟩ := Dev.LastWord.issued (h := s.dev.fetchWord n) (o := o) hi.run hm hpipe
  have hcounted := hl.modLee (fun e => { e with evals := e.evals + 1 }) hl.pipe rfl rfl rfl rfl
  have hword := s.dev.word_issued n (s.dev.fetchWord n) o
  have hcword := (Dev.UnderWay.counted s.dev n (s.dev.fetchWord n) o).word
  simp only [List.mem_cons, Prod.mk.injEq, List.not_mem_nil, or_false] at hoc
  rcases hoc with ⟨rfl, rfl⟩ | ⟨rfl, rfl⟩ | ⟨rfl, rfl⟩ | ⟨rfl, rfl⟩
  · exact exec_late_undoable (f := evalEff n .none) rfl hp (s.dev.issueWord_ok n .eval _ hi) (hcounted.evalWrite_undoable hold hcword _ _) ht hu
  · exact exec_late_undoable (f := evalmEff n .none) rfl hp (s.dev.issueWord_ok n .evalm _ hi) (hcounted.evalWrite_undoable hold hcword _ _)
      ht hu
  · exact exec_late_undoable (f := muxEff n .none) rfl hp (s.dev.issueWord_ok n .mux _ hi) (hl.writeDst_undoable hold hword _ _) ht hu
  · exact exec_late_undoable (f := copyEff n .none) rfl hp (s.dev.issueWord_ok n .copy _ hi) (hl.writeDst_undoable hold hword _ _) ht hu

theorem KMap.find_le {κ : Type} [DecidableEq κ] {m : KMap κ Nat} {b : Nat} (h : ∀ p ∈ m, p.2 ≤ b) (k : κ) : m.find 0 k ≤ b := by
  induction m with
  | nil => exact Nat.zero_le _
  | cons p t ih =>
    unfold KMap.find
    split
    · exact h p List.mem_cons_self
    · exact ih fun q hq => h q (List.mem_cons_of_mem p hq)

/-- What a WAIT takes of its counter is given back. -/
theorem KMap.find_taken {m : KMap Nat Nat} {key count left : Nat} (hcount : count ≤ m.find 0 key) (hleft : left = m.find 0 key - count)
    (hle : m.find 0 key ≤ 8191) (k : Nat) :
    ((m.set natLt 0 key left).set natLt 0 key (min 8191 ((m.set natLt 0 key left).find 0 key + count))).find 0 k = m.find 0 k := by
  by_cases hk : k = key
  · rw [hk, KMap.find_set_same, KMap.find_set_same, hleft, Nat.sub_add_cancel hcount, Nat.min_eq_right hle]
  · rw [KMap.find_set_other _ _ _ _ _ hk, KMap.find_set_other _ _ _ _ _ hk]

/-- The arrival counters are as they were before a WAIT that is undone. -/
theorem wait_late {s t u : State} {n info : Nat} (hp : s.dev.powered = true) (hi : s.dev.wordIssues n .wait)
    (hm : (s.dev.lee n).memrds = []) (hpipe : ∀ y ∈ (s.dev.lee n).pipe, y.seq < (s.dev.lee n).seq)
    (hle : ∀ p ∈ (s.dev.lee n).arrivals, p.2 ≤ 8191)
    (hcount : (s.dev.fetchWord n).imm.bits 12 0 ≤ s.dev.arrived n ((s.dev.fetchWord n).imm.bits 39 32))
    (ht : exec (.wait n .none) s = .next t) (hu : exec (.leeLateFault n 0 .storeUe info) t = .next u) :
    u.dev.get LEE_PC.PC n = s.dev.get LEE_PC.PC n ∧ ∀ key, (u.dev.lee n).arrivals.find 0 key = (s.dev.lee n).arrivals.find 0 key := by
  obtain ⟨x, rest, hl, -, htook⟩ := Dev.LastWord.issued (h := s.dev.fetchWord n) (o := .wait) hi.run hm hpipe
  have heff := (waitEff_ok s.dev n hi).trans (if_neg (not_lt.2 hcount))
  unfold Dev.waitDone at heff
  have harr := Dev.issued_arrivals s.dev n (s.dev.fetchWord n) .wait
  unfold Dev.arrived at hcount heff
  generalize s.dev.issued n (s.dev.fetchWord n) .wait = y at *
  generalize arrKey (s.dev.get LEE_CYCLE.MCYCLE n % 2) ((s.dev.fetchWord n).imm.bits 39 32) = key at *
  generalize (s.dev.fetchWord n).imm.bits 12 0 = count at *
  have hlast := (hl.modLee (fun e => { e.noteLast (fun x => { x with took := [(key, count)] }) with
    arrivals := e.arrivals.set natLt 0 key ((s.dev.lee n).arrivals.find 0 key - count) }) (x' := { x with took := [(key, count)] }) (by
      dsimp only [Lee.noteLast]
      rw [hl.pipe]
      exact note_last (fun x => { x with took := [(key, count)] }) (by rw [hl.seq, Nat.add_sub_cancel]) hl.earlier) rfl rfl rfl rfl).goNext
  obtain ⟨hpc, -, -, harrivals⟩ := exec_late hp
    (dev_of_next (exec_of_engineFrame (f := waitEff n .none) rfl hp heff hlast.frame) ht) hlast hu
  refine ⟨hpc, fun k => ?_⟩
  rw [harrivals, Dev.lee_goNext, Dev.lee_modLee, if_pos rfl]
  dsimp only [Issued.undone, List.foldl_cons, List.foldl_nil]
  rw [harr]
  exact KMap.find_taken hcount rfl (KMap.find_le hle key) k

/-- Settles O22, clause by clause: the three words that drain, what a drained TRAP or HALT leaves, the record of a late fault, and the
store words and arrivals that it undoes. -/
theorem drainsAndLateFaults : Obligations.DrainsAndLateFaults := by
  unfold Obligations.DrainsAndLateFaults
  refine ⟨fun s n hp hi hg hf ha => ?barrier, fun s n hp hi => ?trap, fun s n hp hi => ?halt, fun s n hp ht hd he => ?trapped,
    fun s n hp ht hd he => ?halted, fun s n back info x hp hrun hx hm => ?late, fun s t u n info o c => storeWord_late,
    fun s t u n info => wait_late⟩
  case barrier =>
    obtain ⟨hframe, hdrain, hblock, hpc⟩ := s.dev.barrierWaits_spec n
    exact ⟨_, exec_of_engineFrame (f := barrierEff n .none) rfl hp (barrierEff_ok hi hg hf ha) hframe, hframe, hdrain, hblock, hpc⟩
  case trap =>
    obtain ⟨hframe, hdrain, hpc⟩ := s.dev.drains_spec n .trap .trap
    exact ⟨_, exec_of_engineFrame (f := trapEff n .none) rfl hp (s.dev.issueWord_ok n .trap _ hi) hframe, hframe, hdrain, hpc⟩
  case halt =>
    obtain ⟨hframe, hdrain, hpc⟩ := s.dev.drains_spec n .halt .halt
    exact ⟨_, exec_of_engineFrame (f := haltEff n .none) rfl hp (s.dev.issueWord_ok n .halt _ hi) hframe, hframe, hdrain, hpc⟩
  case trapped =>
    obtain ⟨hnoted, hcode, htpc, hpc, hen, hlee⟩ := s.dev.trapNoted_spec n
    obtain ⟨hleft, hstate, hrun, hirq, hlee'⟩ := (s.dev.trapNoted n).leavesRun_spec n (f := LEE_STAT.TRAPPED) (b := 0)
      ⟨rfl, rfl, by decide, by decide⟩ (by decide) (hen.trans he)
    have hstays := hnoted.trans (hleft.mono (K' := noRegister) nofun)
    rw [hlee] at hlee'
    exact ⟨_, exec_of_powered (f := trapDrainedEff n) rfl hp (trapDrainedEff_ok ht hd) hstays.board (congrArg Power.unpowered hstays.power),
      by rw [hlee'], (hleft.get _ _ _ rfl).trans hcode, (hleft.get _ _ _ rfl).trans htpc, (hleft.get _ _ _ rfl).trans hpc, hstate, hrun, hirq,
      fun w => by rw [hlee']; rfl⟩
  case halted =>
    obtain ⟨hnoted, hpc, hen, hlee⟩ := s.dev.haltNoted_spec n
    obtain ⟨hleft, hstate, hrun, hirq, hlee'⟩ := (s.dev.haltNoted n).leavesRun_spec n (f := LEE_STAT.HALTED) (b := 1)
      ⟨rfl, rfl, by decide, by decide⟩ (by decide) (hen.trans he)
    have hstays := hnoted.trans (hleft.mono (K' := noRegister) nofun)
    rw [hlee] at hlee'
    exact ⟨_, exec_of_powered (f := haltDrainedEff n) rfl hp (haltDrainedEff_ok ht hd) hstays.board (congrArg Power.unpowered hstays.power),
      by rw [hlee'], (hleft.get _ _ _ rfl).trans hpc, hstate, hrun, hirq, fun w => by rw [hlee']; rfl⟩
  case late =>
    have hfault := leeLateFaultEff_faulted (info := info) hrun hx hm
    have honly := s.dev.cancelFrom_leeOnly n x.seq
    have hlee := hfault.lee
    rw [Dev.cancelFrom_lee] at hlee
    obtain ⟨houts, hmemrds, hmem⟩ := ((s.dev.undone n x.seq).lee n).cancelled_gone x.seq
    exact ⟨_, exec_of_powered (f := leeLateFaultEff n back .storeUe info) rfl hp rfl (hfault.board.trans honly.board)
      (congrArg Power.unpowered (hfault.power.trans honly.power)), hfault.valid, hfault.cause, hfault.at_, hfault.info, hfault.pc, hfault.run,
      by rw [hlee]; exact houts, by rw [hlee]; exact hmemrds, by rw [hlee]; exact hmem, hfault.mem.trans honly.stays.mem⟩

end Sys2Proof.Machine
end

section
/-!
PROOFS. COMMIT, and a write of LEE_CYCLE (spec/04, R86; spec/05, R113, R125).
-/

namespace Sys2Proof.Machine

/-! ### Banks of arrival counters -/

theorem arrKey_div {step : Nat} (bank : Nat) (h : step < 256) : arrKey bank step / 256 = bank := by
  unfold arrKey; omega

theorem clearBank_find_same {bank key : Nat} (a : KMap Nat Nat) (h : key / 256 = bank) : (clearBank bank a).find 0 key = 0 :=
  KMap.find_filter_none 0 (fun k => decide (k / 256 ≠ bank)) a key (by simp [h])

theorem clearBank_find_other {bank key : Nat} (a : KMap Nat Nat) (h : key / 256 ≠ bank) : (clearBank bank a).find 0 key = a.find 0 key :=
  KMap.find_filter 0 (fun k => decide (k / 256 ≠ bank)) a key (by simp [h])

/-- The counters of a bank that are not zero. -/
def Lee.surplus (e : Lee) (bank : Nat) : KMap Nat Nat := e.arrivals.filter fun p => p.1 / 256 == bank && p.2 != 0

theorem Lee.surplus_found (e : Lee) (bank : Nat) :
    (!(e.surplus bank).isEmpty) = true ↔ ∃ p ∈ e.arrivals, p.1 / 256 = bank ∧ p.2 ≠ 0 := by
  simp [Lee.surplus]

/-! ### The steps of a COMMIT -/

theorem Dev.lee_of_rewrites {fs : List Fld} {d d' : Dev} (h : d.Rewrites fs d') (n : Nat) : d'.lee n = d.lee n := by
  rw [h.rest]; rfl

/-- The issue of a word leaves the fields of LEE_STAT but BLOCK. -/
theorem Dev.issued_flag_stat (d : Dev) (n : Nat) (h : EvalWord) (o : Opcode) {f : Fld} (hf : f.apart LEE_STAT.BLOCK)
    (hc : f.reg ≠ .LEE_CNT) : (d.issued n h o).flag f n = d.flag f n := by
  unfold Dev.issued Dev.block Dev.count
  dsimp only
  rw [Dev.flag, Dev.get_put_apart _ _ _ _ _ _ _ _ hf, ← Dev.flag, Dev.flag_put_name _ LEE_CNT.COUNT f _ _ _ _ _ hc,
    Dev.flag_put_name _ LEE_CNT.COUNT f _ _ _ _ _ hc, Dev.flag_put_name _ LEE_CNT.COUNT f _ _ _ _ _ hc, Dev.flag_setLee]

/-- The bank is clear, and with the word issued last stands what the bank held and whether the word sets SURPLUS (R111). -/
def Lee.clearsBank (bank : Nat) (taken : KMap Nat Nat) (sets : Bool) (e : Lee) : Lee :=
  { e.noteLast (fun x => { x with took := taken, surplus := sets }) with arrivals := clearBank bank e.arrivals }

/-- A COMMIT has issued, and its bank is clear. -/
def Dev.bankCleared (d : Dev) (n : Nat) : Dev :=
  let bank := d.get LEE_CYCLE.MCYCLE n % 2
  let taken := (d.lee n).surplus bank
  (d.issued n (d.fetchWord n) .commit).modLee n (Lee.clearsBank bank taken (!taken.isEmpty && !d.flag LEE_XCH_STAT.SURPLUS n))

theorem Dev.bankCleared_underWay (d : Dev) (n : Nat) : d.UnderWay n (d.bankCleared n) :=
  (Dev.UnderWay.issued d n (d.fetchWord n) .commit).modLee (Lee.clearsBank _ _ _) (fun _ => rfl) fun _ => rfl

theorem Dev.bankCleared_arrivals (d : Dev) (n : Nat) :
    ((d.bankCleared n).lee n).arrivals = clearBank (d.get LEE_CYCLE.MCYCLE n % 2) (d.lee n).arrivals := by
  unfold Dev.bankCleared
  rw [Dev.lee_modLee, if_pos rfl, Lee.clearsBank, Dev.issued_arrivals]

theorem Dev.bankCleared_faulted (d : Dev) (n : Nat) : (d.bankCleared n).flag LEE_STAT.FAULTED n = d.flag LEE_STAT.FAULTED n :=
  d.issued_flag_stat n _ _ (by decide) (by decide)

/-- SURPLUS is set where the bank held arrivals. -/
def Dev.markSurplus (d : Dev) (n : Nat) (found : Bool) : Dev := if found then d.put LEE_XCH_STAT.SURPLUS 1 n else d

theorem Dev.markSurplus_rewrites (d : Dev) (n : Nat) (found : Bool) : d.Rewrites [LEE_XCH_STAT.SURPLUS] (d.markSurplus n found) := by
  cases found
  · exact .refl _ d
  · exact .put d _ _ _ _

theorem Dev.markSurplus_flag (d : Dev) (n : Nat) (found : Bool) :
    (d.markSurplus n found).flag LEE_XCH_STAT.SURPLUS n = (d.flag LEE_XCH_STAT.SURPLUS n || found) := by
  cases found
  · exact (Bool.or_false _).symm
  · rw [Bool.or_true]
    exact Dev.flag_put_same d _ _ _ _ (by decide) (by decide)

theorem Dev.engineFrame.markSurplus (d : Dev) (n : Nat) (found : Bool) :
    d.engineFrame (d.markSurplus n found) n [.LEE_CYCLE, .LEE_XCH_STAT] := by
  cases found
  · exact .refl d n _
  · exact .put d n _ LEE_XCH_STAT.SURPLUS 1 0 (by decide)

/-- The plane inverts, and the model cycle that follows `mc` begins (R86). -/
def Dev.nextCycle (d : Dev) (n mc : Nat) : Dev :=
  (d.put LEE_CYCLE.PLANE (1 - d.get LEE_CYCLE.PLANE n) n).put LEE_CYCLE.MCYCLE ((mc + 1) % 2 ^ 40) n

theorem Dev.nextCycle_rewrites (d : Dev) (n mc : Nat) : d.Rewrites [LEE_CYCLE.PLANE, LEE_CYCLE.MCYCLE] (d.nextCycle n mc) :=
  (Dev.Rewrites.put d _ _ _ _).trans (.put _ _ _ _ _)

theorem Dev.engineFrame.nextCycle (d : Dev) (n mc : Nat) : d.engineFrame (d.nextCycle n mc) n [.LEE_CYCLE, .LEE_XCH_STAT] :=
  (Dev.engineFrame.put d n _ LEE_CYCLE.PLANE _ 0 (by decide)).trans (.put _ n _ LEE_CYCLE.MCYCLE _ 0 (by decide))

theorem Dev.nextCycle_get (d : Dev) (n mc : Nat) : (d.nextCycle n mc).get LEE_CYCLE.PLANE n = 1 - d.get LEE_CYCLE.PLANE n
    ∧ (d.nextCycle n mc).get LEE_CYCLE.MCYCLE n = (mc + 1) % 2 ^ 40 := by
  constructor
  · unfold Dev.nextCycle
    rw [Dev.get_put_apart _ _ LEE_CYCLE.PLANE _ _ _ _ _ (by decide), Dev.get_put_same _ _ _ _ _ (by decide) (by decide)]
    exact Nat.mod_eq_of_lt (Nat.lt_of_le_of_lt (Nat.sub_le 1 _) (by decide))
  · unfold Dev.nextCycle
    rw [Dev.get_put_same _ _ _ _ _ (by decide) (by decide)]
    exact Nat.mod_mod _ _

/-! ### COMMIT -/

/-- What a COMMIT makes of the package. -/
def Dev.committed (d : Dev) (n : Nat) : Dev :=
  (((d.bankCleared n).markSurplus n (!((d.lee n).surplus (d.get LEE_CYCLE.MCYCLE n % 2)).isEmpty)).nextCycle n
    (d.get LEE_CYCLE.MCYCLE n)).goNext n

theorem commitEff_ok (d : Dev) (n : Nat) (hi : d.wordIssues n .commit) : commitEff n .none d = d.committed n :=
  d.issueWord_ok n .commit _ hi

/-- A COMMIT that has cleared its bank changes SURPLUS, the model cycle, the plane and the program counter yet. -/
theorem Dev.committed_rewrites (d : Dev) (n : Nat) : (d.bankCleared n).Rewrites
    [LEE_XCH_STAT.SURPLUS, LEE_CYCLE.PLANE, LEE_CYCLE.MCYCLE, LEE_PC.PC] (d.committed n) :=
  ((Dev.markSurplus_rewrites _ n _).trans (Dev.nextCycle_rewrites _ n _)).trans (.put _ LEE_PC.PC _ _ _)

theorem Dev.committed_frame (d : Dev) (n : Nat) : d.engineFrame (d.committed n) n [.LEE_CYCLE, .LEE_XCH_STAT] :=
  ((d.bankCleared_underWay n).frame.mono nofun).trans
    ((Dev.engineFrame.markSurplus _ n _).trans ((Dev.engineFrame.nextCycle _ n _).trans (.goNext _ n _)))

@[simp] theorem Dev.committed_lee (d : Dev) (n : Nat) : (d.committed n).lee n = (d.bankCleared n).lee n :=
  Dev.lee_of_rewrites (d.committed_rewrites n) n

theorem Dev.committed_pc (d : Dev) (n : Nat) : (d.committed n).get LEE_PC.PC n = (d.get LEE_PC.PC n + 1) % 2 ^ 28 := by
  rw [Dev.committed, Dev.goNext_pc, (Dev.nextCycle_rewrites _ n _).get _ _ _ (by decide),
    (Dev.markSurplus_rewrites _ n _).get _ _ _ (by decide), (d.bankCleared_underWay n).pc]

theorem Dev.committed_cycle (d : Dev) (n : Nat) : (d.committed n).get LEE_CYCLE.PLANE n = 1 - d.get LEE_CYCLE.PLANE n
    ∧ (d.committed n).get LEE_CYCLE.MCYCLE n = (d.get LEE_CYCLE.MCYCLE n + 1) % 2 ^ 40 := by
  obtain ⟨hplane, hmcycle⟩ := ((d.bankCleared n).markSurplus n
    (!((d.lee n).surplus (d.get LEE_CYCLE.MCYCLE n % 2)).isEmpty)).nextCycle_get n (d.get LEE_CYCLE.MCYCLE n)
  rw [(Dev.markSurplus_rewrites _ n _).get _ _ _ (by decide), (d.bankCleared_underWay n).frame.get LEE_CYCLE.PLANE n 0 (by decide)] at hplane
  exact ⟨(Dev.get_put_name _ LEE_PC.PC _ _ _ _ _ _ (by decide)).trans hplane,
    (Dev.get_put_name _ LEE_PC.PC _ _ _ _ _ _ (by decide)).trans hmcycle⟩

/-- The bank of the cycle is clear, and the other is as it was (R125). -/
theorem Dev.committed_arrivals (d : Dev) (n : Nat) {step : Nat} (hs : step < 256) :
    ((d.committed n).lee n).arrivals.find 0 (arrKey (d.get LEE_CYCLE.MCYCLE n % 2) step) = 0
      ∧ ((d.committed n).lee n).arrivals.find 0 (arrKey (1 - d.get LEE_CYCLE.MCYCLE n % 2) step) =
        (d.lee n).arrivals.find 0 (arrKey (1 - d.get LEE_CYCLE.MCYCLE n % 2) step) := by
  rw [Dev.committed_lee, Dev.bankCleared_arrivals]
  refine ⟨clearBank_find_same _ (arrKey_div _ hs), clearBank_find_other _ ?_⟩
  rw [arrKey_div _ hs]
  omega

theorem Dev.committed_surplus (d : Dev) (n : Nat) : (d.committed n).flag LEE_XCH_STAT.SURPLUS n = true ↔
    d.flag LEE_XCH_STAT.SURPLUS n = true ∨ ∃ p ∈ (d.lee n).arrivals, p.1 / 256 = d.get LEE_CYCLE.MCYCLE n % 2 ∧ p.2 ≠ 0 := by
  have hflag : (d.committed n).flag LEE_XCH_STAT.SURPLUS n =
      (d.flag LEE_XCH_STAT.SURPLUS n || !((d.lee n).surplus (d.get LEE_CYCLE.MCYCLE n % 2)).isEmpty) := by
    rw [Dev.committed, Dev.goNext, Dev.goto, Dev.flag_put_name _ LEE_PC.PC _ _ _ _ _ _ (by decide),
      (Dev.nextCycle_rewrites _ n _).flag _ _ _ (by decide), Dev.markSurplus_flag,
      (d.bankCleared_underWay n).frame.flag LEE_XCH_STAT.SURPLUS n 0 (by decide)]
  rw [hflag, Bool.or_eq_true, Lee.surplus_found]

/-! ### A write of LEE_CYCLE -/

/-- A configuration write of a field that takes every value leaves what was written. -/
theorem FieldRow.after_of (hi lo rst old : Nat) (v : Word) : (FieldRow.of hi lo .rw rst).after old (v.bits hi lo) = v.bits hi lo :=
  if_pos ⟨Nat.zero_le _, Word.bits_le v hi lo⟩

/-- LEE_CYCLE as a configuration write leaves it (R113). -/
def cycleWritten (v : Word) : Word := writeFields [.of 48 48 .rw 0, .of 39 0 .rw 0] 0 v

theorem cycleWritten_bits (v : Word) : (cycleWritten v).bits 48 48 = v.bits 48 48 ∧ (cycleWritten v).bits 39 0 = v.bits 39 0 := by
  have hbits := writeFields_bits [.of 48 48 .rw 0, .of 39 0 .rw 0] 0 v (by decide) (by decide)
  exact ⟨(hbits (.of 48 48 .rw 0) (by decide)).trans (FieldRow.after_of 48 48 0 _ v),
    (hbits (.of 39 0 .rw 0) (by decide)).trans (FieldRow.after_of 39 0 0 _ v)⟩

/-- Outside a run a write of LEE_CYCLE takes effect, and clears every arrival counter (R125). -/
theorem leeConfigWriteEff_cycle {d : Dev} {n : Nat} (v : Word) (hpresent : d.leePresent n = true) (hrun : d.flag LEE_STAT.RUN n = false)
    (htrapped : d.flag LEE_STAT.TRAPPED n = false) : leeConfigWriteEff n 0x18 v d =
      (d.setReg ⟨.LEE_CYCLE, n, 0⟩ (cycleWritten v)).modLee n fun e => { e with arrivals := [] } := by
  unfold leeConfigWriteEff
  rw [hpresent, hrun, htrapped, if_neg (by simp), if_neg (by simp), if_neg (by decide)]
  rfl

/-- Settles O21: what a COMMIT that issues makes of the model cycle, its bank and SURPLUS; and the write of LEE_CYCLE outside a run. -/
theorem commitClearsItsBank : Obligations.CommitClearsItsBank := by
  unfold Obligations.CommitClearsItsBank
  refine ⟨fun s n hp hi => ?commit, fun s n v hp hpresent hrun htrapped => ?write⟩
  case commit =>
    have hframe := s.dev.committed_frame n
    obtain ⟨hplane, hmcycle⟩ := s.dev.committed_cycle n
    exact ⟨_, exec_of_engineFrame (f := commitEff n .none) rfl hp (commitEff_ok s.dev n hi) hframe, hframe, s.dev.committed_pc n, hplane,
      hmcycle, fun _ hs => (s.dev.committed_arrivals n hs).1, fun _ hs => (s.dev.committed_arrivals n hs).2, s.dev.committed_surplus n,
      ((s.dev.committed_rewrites n).flag _ _ _ (by decide)).trans (s.dev.bankCleared_faulted n),
      fun w => by rw [Dev.committed_lee, (s.dev.bankCleared_underWay n).word]⟩
  case write =>
    obtain ⟨hplane, hmcycle⟩ := cycleWritten_bits v
    refine ⟨_, exec_of_powered (f := leeConfigWriteEff n 0x18 v) rfl hp (leeConfigWriteEff_cycle v hpresent hrun htrapped) rfl rfl, ?_, ?_,
      fun key => ?_⟩
    · rw [Dev.get_modLee, Dev.get, LEE_CYCLE.MCYCLE, Dev.reg_setReg_same]
      exact hmcycle
    · rw [Dev.get_modLee, Dev.get, LEE_CYCLE.PLANE, Dev.reg_setReg_same]
      exact hplane
    · rw [Dev.lee_modLee, if_pos rfl]
      rfl

end Sys2Proof.Machine
end

section
/-!
PROOFS. Barriers of groups with no span ports (spec/05, R127, R128, R130).
-/

namespace Sys2Proof.Machine

/-! ### The record of a group -/

@[simp] theorem Dev.group_setGroup (d : Dev) (g : Nat) (x : Group) : (d.setGroup g x).group g = x := by simp [Dev.group, Dev.setGroup]
@[simp] theorem Dev.group_put (d : Dev) (f : Fld) (v u k g : Nat) : (d.put f v u k).group g = d.group g := rfl

/-- The members of a group are what its member words list. -/
theorem Dev.members_put (d : Dev) (f : Fld) (v u k g : Nat) (h : RegName.FAB_MG_MEM ≠ f.reg) : (d.put f v u k).members g = d.members g := by
  unfold Dev.members Dev.isMember
  simp only [Dev.get_put_name d f FAB_MG_MEM.MEMBERS v u k _ _ h]

theorem Dev.members_setGroup (d : Dev) (h : Nat) (x : Group) (g : Nat) : (d.setGroup h x).members g = d.members g := rfl

/-- An empty span mask names no port. -/
theorem Dev.groupPorts_nil {d : Dev} {g : Nat} (h : d.get FAB_MG_CTL.SPAN 0 g = 0) : d.groupPorts g = [] := by
  simp [Dev.groupPorts, bit, h]

@[simp] theorem Dev.lee_take (d : Dev) (p : Packet) (n : Nat) : (d.take p).lee n = d.lee n := rfl

/-! ### An arrival is counted -/

/-- Member n has arrived at its group, which is g. -/
def Dev.arrivalCounted (d : Dev) (g n : Nat) : Dev :=
  ((d.put LEE_BAR.ARR 1 n).setGroup g { d.group g with
    arrived := (d.group g).arrived ++ [n], first := some ((d.group g).first.getD d.ring) }).put FAB_MG_STAT.ARRIVED
      (d.get FAB_MG_STAT.ARRIVED 0 g + 1) 0 g

/-- A drained BARRIER that has not signalled its arrival signals it. -/
theorem barrierArrivalEff_ok {d : Dev} {n g : Nat} (ht : (d.lee n).drain = .barrier) (hd : (d.lee n).drained = true)
    (hs : (d.lee n).stopping = false) (ha : d.flag LEE_BAR.ARR n = false) (hg : d.get LEE_STAT.GROUP n = g) :
    barrierArrivalEff n d = (d.arrivalCounted g n).groupProgress g := by
  have harrived : ((d.put LEE_BAR.ARR 1 n).setGroup g { d.group g with
      arrived := (d.group g).arrived ++ [n], first := some ((d.group g).first.getD d.ring) }).get FAB_MG_STAT.ARRIVED 0 g =
      d.get FAB_MG_STAT.ARRIVED 0 g := d.get_put_name LEE_BAR.ARR FAB_MG_STAT.ARRIVED 1 n 0 0 g (by decide)
  unfold barrierArrivalEff
  dsimp only
  rw [ht, hd, hs, ha, hg, if_neg (by simp), if_neg (by simp), Dev.arrivalCounted, ← harrived]
  rfl

theorem Dev.arrivalCounted_group (d : Dev) (g n : Nat) : (d.arrivalCounted g n).group g =
    { d.group g with arrived := (d.group g).arrived ++ [n], first := some ((d.group g).first.getD d.ring) } := by
  rw [Dev.arrivalCounted, Dev.group_put, Dev.group_setGroup]

theorem Dev.arrivalCounted_members (d : Dev) (g n : Nat) : (d.arrivalCounted g n).members g = d.members g :=
  (Dev.members_put _ FAB_MG_STAT.ARRIVED _ _ _ _ (by decide)).trans (d.members_put LEE_BAR.ARR _ _ _ _ (by decide))

/-- An arrival leaves every other field. -/
theorem Dev.arrivalCounted_get (d : Dev) (g n : Nat) (f : Fld) (u k : Nat) (hbar : f.apart LEE_BAR.ARR) (hstat : f.apart FAB_MG_STAT.ARRIVED) :
    (d.arrivalCounted g n).get f u k = d.get f u k :=
  (Dev.get_put_apart _ FAB_MG_STAT.ARRIVED f _ _ _ _ _ hstat).trans (d.get_put_apart LEE_BAR.ARR f _ _ _ _ _ hbar)

theorem Dev.arrivalCounted_reg (d : Dev) (g n : Nat) (r : Reg) (hbar : r ≠ ⟨.LEE_BAR, n, 0⟩) (hstat : r ≠ ⟨.FAB_MG_STAT, 0, g⟩) :
    (d.arrivalCounted g n).reg r = d.reg r :=
  (Dev.reg_put_other _ FAB_MG_STAT.ARRIVED _ _ _ hstat).trans (d.reg_put_other LEE_BAR.ARR _ _ _ hbar)

theorem Dev.arrivalCounted_flag (d : Dev) (g n : Nat) : (d.arrivalCounted g n).flag LEE_BAR.ARR n = true :=
  (Dev.flag_put_name _ FAB_MG_STAT.ARRIVED LEE_BAR.ARR _ _ _ _ _ (by decide)).trans
    (d.flag_put_same LEE_BAR.ARR _ _ _ (by decide) (by decide))

/-- The count of a group that is not full rises by one. -/
theorem Dev.arrivalCounted_arrived (d : Dev) (g n : Nat) (h : d.get FAB_MG_STAT.ARRIVED 0 g < 384) :
    (d.arrivalCounted g n).get FAB_MG_STAT.ARRIVED 0 g = d.get FAB_MG_STAT.ARRIVED 0 g + 1 :=
  (Dev.get_put_same _ _ _ _ _ (by decide) (by decide)).trans (Nat.mod_eq_of_lt (Nat.lt_of_lt_of_le (Nat.succ_lt_succ h) (by decide)))

theorem Dev.arrivalCounted_local (d : Dev) (g n : Nat) :
    (d.arrivalCounted g n).groupLocal g = ((d.group g).arrived.length + 1 == (d.members g).length) := by
  rw [Dev.groupLocal, Dev.arrivalCounted_group, Dev.arrivalCounted_members, List.length_append, List.length_singleton]

/-! ### The barrier of a group with no span ports -/

theorem Dev.groupProgress_waits {d : Dev} {g : Nat} (hp : d.groupPorts g = []) (hl : d.groupLocal g = false) : d.groupProgress g = d := by
  unfold Dev.groupProgress
  dsimp only
  rw [hp, List.foldl_nil, hl, if_neg (by simp)]

/-- The next generation of a group begins, with no member arrived and the tokens that were held for it (R128). -/
def Dev.nextGeneration (d : Dev) (g : Nat) : Dev :=
  ((((d.put FAB_MG_STAT.GEN (d.get FAB_MG_STAT.GEN 0 g + 1) 0 g).put FAB_MG_STAT.ARRIVED 0 0 g).put FAB_MG_STAT.TOKENS
    ((d.group g).held.foldl (fun a p => a ||| (1 <<< p)) 0) 0 g).put FAB_MG_LAST.RING d.ring.toNat 0 g).setGroup g {}

/-- The completion of a barrier goes to the members. -/
def Dev.notify (d : Dev) (members : List Nat) : Dev := members.foldl (fun d n => d.emit (.barrierNotify n)) d

theorem Dev.groupProgress_completes {d : Dev} {g : Nat} (hp : d.groupPorts g = []) (hl : d.groupLocal g = true) (hm : d.members g ≠ []) :
    d.groupProgress g = (d.nextGeneration g).notify (d.members g) := by
  have hmembers : (d.nextGeneration g).members g = d.members g := by
    unfold Dev.nextGeneration
    rw [Dev.members_setGroup, Dev.members_put _ _ _ _ _ _ (by decide), Dev.members_put _ _ _ _ _ _ (by decide),
      Dev.members_put _ _ _ _ _ _ (by decide), Dev.members_put _ _ _ _ _ _ (by decide)]
  have hsome : (d.members g).isEmpty = false := List.isEmpty_eq_false_iff.2 hm
  unfold Dev.groupProgress
  dsimp only
  rw [hp, List.foldl_nil, hl, hsome, if_pos (by simp), Dev.notify, ← hmembers]
  rfl

/-- Notifications leave the management core, which no proxy of a bough cuts off. -/
theorem Dev.notify_spec (d : Dev) (members : List Nat) : ∃ w, d.notify members = { d with wire := w }
    ∧ (d.notify members).packets = d.packets ++ members.map .barrierNotify := by
  induction members generalizing d with
  | nil => exact ⟨d.wire, rfl, (List.append_nil _).symm⟩
  | cons n members ih =>
    have hsend : d.notify (n :: members) = (d.send (.barrierNotify n)).notify members := congrArg (Dev.notify · members) (Dev.emit_send rfl)
    obtain ⟨w, hrest, hpackets⟩ := ih (d.send (.barrierNotify n))
    refine ⟨w, by rw [hsend, hrest]; rfl, ?_⟩
    rw [hsend, hpackets, Dev.packets_send, List.map_cons, List.append_assoc, List.singleton_append]

theorem Dev.nextGeneration_spec (d : Dev) (g : Nat) : (d.nextGeneration g).get FAB_MG_STAT.ARRIVED 0 g = 0
    ∧ (d.nextGeneration g).get FAB_MG_STAT.GEN 0 g = (d.get FAB_MG_STAT.GEN 0 g + 1) % 2 ^ 32
    ∧ (d.nextGeneration g).get FAB_MG_LAST.RING 0 g = d.ring.toNat ∧ (d.nextGeneration g).group g = {} := by
  refine ⟨?_, ?_, ?_, by rw [Dev.nextGeneration, Dev.group_setGroup]⟩
  · rw [Dev.nextGeneration, Dev.get_setGroup, Dev.get_put_apart _ _ FAB_MG_STAT.ARRIVED _ _ _ _ _ (by decide),
      Dev.get_put_apart _ _ FAB_MG_STAT.ARRIVED _ _ _ _ _ (by decide), Dev.get_put_same _ _ _ _ _ (by decide) (by decide)]
    rfl
  · rw [Dev.nextGeneration, Dev.get_setGroup, Dev.get_put_apart _ _ FAB_MG_STAT.GEN _ _ _ _ _ (by decide),
      Dev.get_put_apart _ _ FAB_MG_STAT.GEN _ _ _ _ _ (by decide), Dev.get_put_apart _ _ FAB_MG_STAT.GEN _ _ _ _ _ (by decide),
      Dev.get_put_same _ _ _ _ _ (by decide) (by decide)]
    rfl
  · rw [Dev.nextGeneration, Dev.get_setGroup, Dev.get_put_same _ _ _ _ _ (by decide) (by decide)]
    exact Nat.mod_eq_of_lt d.ring.isLt

/-- The last arrival changes registers and the record of the group. -/
theorem Dev.lastArrival_frame (d : Dev) (g n : Nat) : (d.arrivalCounted g n).nextGeneration g =
    { d with regs := ((d.arrivalCounted g n).nextGeneration g).regs, groups := ((d.arrivalCounted g n).nextGeneration g).groups } := rfl

/-- The next generation leaves the arrival bits of the members. -/
theorem Dev.nextGeneration_flag (d : Dev) (g n : Nat) : (d.nextGeneration g).flag LEE_BAR.ARR n = d.flag LEE_BAR.ARR n := by
  unfold Dev.nextGeneration
  rw [Dev.flag_setGroup, Dev.flag_put_name _ _ LEE_BAR.ARR _ _ _ _ _ (by decide), Dev.flag_put_name _ _ LEE_BAR.ARR _ _ _ _ _ (by decide),
    Dev.flag_put_name _ _ LEE_BAR.ARR _ _ _ _ _ (by decide), Dev.flag_put_name _ _ LEE_BAR.ARR _ _ _ _ _ (by decide)]

/-! ### A member passes its barrier -/

/-- A member counts the barrier that it passes. -/
def Dev.barrierCounted (d : Dev) (n : Nat) : Dev := (d.put LEE_BAR.GEN (d.get LEE_BAR.GEN n + 1) n).put LEE_BAR.ARR 0 n

@[simp] theorem Dev.lee_barrierCounted (d : Dev) (n m : Nat) : (d.barrierCounted n).lee m = d.lee m := rfl

theorem Dev.barrierGo_passes {d : Dev} {n : Nat} (ht : (d.lee n).drain = .barrier) (hd : (d.lee n).drained = true)
    (hs : (d.lee n).stopping = false) (ha : d.flag LEE_BAR.ARR n = true)
    (hg : d.get FAB_MG_STAT.GEN 0 (d.get LEE_STAT.GROUP n) ≠ d.get LEE_BAR.GEN n) : d.barrierGo n = d.barrierPass n := by
  have hover : d.barrierOver n = true := bne_iff_ne.2 hg
  unfold Dev.barrierGo
  dsimp only
  rw [ht, hd, hs, ha, hover, if_pos (by simp)]

theorem Dev.engineFrame.barrierCounted (d : Dev) (n : Nat) : d.engineFrame (d.barrierCounted n) n [.LEE_BAR] :=
  (Dev.engineFrame.put d n _ LEE_BAR.GEN _ 0 (by decide)).trans (.put _ n _ LEE_BAR.ARR _ 0 (by decide))

theorem Dev.barrierCounted_get (d : Dev) (n : Nat) : (d.barrierCounted n).get LEE_BAR.GEN n = (d.get LEE_BAR.GEN n + 1) % 2 ^ 32
    ∧ (d.barrierCounted n).flag LEE_BAR.ARR n = false ∧ (d.barrierCounted n).get LEE_PC.PC n = d.get LEE_PC.PC n := by
  unfold Dev.barrierCounted
  refine ⟨?_, Dev.flag_put_same _ LEE_BAR.ARR _ _ _ (by decide) (by decide), ?_⟩
  · rw [Dev.get_put_apart _ _ LEE_BAR.GEN _ _ _ _ _ (by decide), Dev.get_put_same _ _ _ _ _ (by decide) (by decide)]
    rfl
  · rw [Dev.get_put_name _ _ LEE_PC.PC _ _ _ _ _ (by decide), Dev.get_put_name _ _ LEE_PC.PC _ _ _ _ _ (by decide)]

/-- The BARRIER of a member issues, and the engine no longer drains. -/
def Dev.barrierIssued (d : Dev) (n : Nat) : Dev :=
  (d.issued n (d.fetchWord n) .barrier).modLee n fun e => { e with drain := .none, pipe := [] }

theorem Dev.barrierIssued_spec (d : Dev) (n : Nat) : d.UnderWay n (d.barrierIssued n) ∧ ((d.barrierIssued n).lee n).drain = .none
    ∧ (d.barrierIssued n).get LEE_STAT.BLOCK n = 0 := by
  unfold Dev.barrierIssued
  exact ⟨(Dev.UnderWay.issued d n _ .barrier).modLee _ (fun _ => rfl) fun _ => rfl, by rw [Dev.lee_modLee, if_pos rfl],
    by rw [Dev.get_modLee, Dev.issued_block]⟩

theorem Dev.barrierPass_eq (d : Dev) (n : Nat) : d.barrierPass n = ((d.barrierCounted n).barrierIssued n).goNext n := rfl

/-- A BARRIER that passes issues, once the barrier is counted, and the engine goes on to the following word (R127). -/
theorem Dev.barrierPass_spec (d : Dev) (n : Nat) : d.engineFrame (d.barrierPass n) n [.LEE_BAR] ∧ ((d.barrierPass n).lee n).drain = .none
    ∧ (d.barrierPass n).get LEE_PC.PC n = (d.get LEE_PC.PC n + 1) % 2 ^ 28 ∧ (d.barrierPass n).get LEE_STAT.BLOCK n = 0
    ∧ (d.barrierPass n).get LEE_BAR.GEN n = (d.get LEE_BAR.GEN n + 1) % 2 ^ 32 ∧ (d.barrierPass n).flag LEE_BAR.ARR n = false
    ∧ ∀ w, ((d.barrierPass n).lee n).word w = (d.lee n).word w := by
  obtain ⟨hgen, harr, hpc⟩ := d.barrierCounted_get n
  obtain ⟨hu, hdrain, hblock⟩ := (d.barrierCounted n).barrierIssued_spec n
  have hframe := hu.frame.trans (.goNext _ n [])
  rw [Dev.barrierPass_eq, Dev.lee_goNext]
  refine ⟨(Dev.engineFrame.barrierCounted d n).trans (hframe.mono nofun), hdrain, hu.goNext_pc.trans (by rw [hpc]), ?_,
    (hframe.get LEE_BAR.GEN n 0 (by decide)).trans hgen, (hframe.flag LEE_BAR.ARR n 0 (by decide)).trans harr,
    fun w => (hu.word w).trans (by rw [Dev.lee_barrierCounted])⟩
  exact (Dev.get_put_name _ LEE_PC.PC LEE_STAT.BLOCK _ _ _ _ _ (by decide)).trans hblock

/-! ### The watchdog -/

/-- The event source of a group of the variant is present, and its pulses pass no crossing. -/
theorem Dev.raise_group (d : Dev) {g : Nat} (hg : g < d.groupsHere) (i : EvInfo) : d.raise (10 + g) i = d.send (.event (10 + g) 1 i) := by
  have hle : d.groupsHere ≤ 16 := by unfold Dev.groupsHere; split <;> decide
  have hnone : sourceCrossing (10 + g) = none := by
    unfold sourceCrossing
    rw [if_neg (by omega), if_neg (by omega), if_neg (by omega), if_neg (by omega), if_neg (by omega)]
  have hpresent : d.sourcePresent (10 + g) = true := by
    unfold Dev.sourcePresent
    rw [if_neg (by omega), if_pos (by omega), Nat.add_sub_cancel_left]
    exact decide_eq_true hg
  exact d.raise_near _ i hpresent (by rw [Dev.pulseLost, hnone]) hnone

theorem barrierWatchdogEff_expires {d : Dev} {g : Nat} {t : Word} (hg : g < d.groupsHere) (hf : (d.group g).first = some t)
    (hw : d.get FAB_MG_CTL.WDOG 0 g ≠ 0) (hs : d.groupState g = 2) (ht : 2 ^ d.get FAB_MG_CTL.WDOG 0 g ≤ (d.ring - t).toNat)
    (he : (d.group g).expired = false) : barrierWatchdogEff g d =
      ((d.setGroup g { d.group g with expired := true }).put FAB_MG_STAT.WDOG_EV 1 0 g).send (.event (10 + g) 1 {}) := by
  have hgroups (x : Group) : g < ((d.setGroup g x).put FAB_MG_STAT.WDOG_EV 1 0 g).groupsHere := by
    rw [Dev.groupsHere, Dev.put_fuse, Dev.setGroup_fuse]
    exact hg
  have hlate := decide_eq_false (not_lt.2 ht)
  unfold barrierWatchdogEff
  dsimp only
  rw [hf]
  dsimp only
  rw [hlate, he, if_neg (by simp [hw, hs]), Dev.raise_group _ (hgroups _)]

/-- A watchdog that has expired in this generation does nothing more (R130). -/
theorem barrierWatchdogEff_expired {d : Dev} {g : Nat} (he : (d.group g).expired = true) : barrierWatchdogEff g d = d := by
  unfold barrierWatchdogEff
  dsimp only
  split
  · rfl
  · exact if_pos (by simp [he])

/-- Settles O24, clause by clause: an arrival that others wait for, the last arrival, the notification of a member, and the watchdog before
and after it has expired. -/
theorem barriersCountTheirArrivals : Obligations.BarriersCountTheirArrivals := by
  unfold Obligations.BarriersCountTheirArrivals
  refine ⟨fun s n g hp ht hd hs ha hg hspan hmissing hroom => ?counted, fun s n g hp ht hd hs ha hg hspan hlast => ?completes,
    fun s n hp hr ht hd hs ha hg => ?passes, fun s g t hp hg hf hw hs ht he => ?expires, fun s g hp he => ?expired⟩
  case counted =>
    have hports := Dev.groupPorts_nil ((s.dev.arrivalCounted_get g n FAB_MG_CTL.SPAN 0 g (by decide) (by decide)).trans hspan)
    have hlocal : (s.dev.arrivalCounted g n).groupLocal g = false := by
      rw [Dev.arrivalCounted_local]
      exact beq_eq_false_iff_ne.2 hmissing.ne
    exact ⟨_, exec_of_powered (f := barrierArrivalEff n) rfl hp
      ((barrierArrivalEff_ok ht hd hs ha hg).trans (Dev.groupProgress_waits hports hlocal)) rfl rfl, rfl, s.dev.arrivalCounted_flag g n,
      s.dev.arrivalCounted_arrived g n hroom, by rw [Dev.arrivalCounted_group], s.dev.arrivalCounted_get g n _ _ _ (by decide) (by decide),
      s.dev.arrivalCounted_reg g n⟩
  case completes =>
    have hports := Dev.groupPorts_nil ((s.dev.arrivalCounted_get g n FAB_MG_CTL.SPAN 0 g (by decide) (by decide)).trans hspan)
    have hlocal : (s.dev.arrivalCounted g n).groupLocal g = true := by
      rw [Dev.arrivalCounted_local]
      exact beq_iff_eq.2 hlast
    have hmembers := s.dev.arrivalCounted_members g n
    have hsome : s.dev.members g ≠ [] := List.length_pos_iff.1 (hlast ▸ Nat.succ_pos _)
    have heff := (barrierArrivalEff_ok ht hd hs ha hg).trans (Dev.groupProgress_completes hports hlocal (hmembers.symm ▸ hsome))
    obtain ⟨harrived, hgen, hring, hgroup⟩ := (s.dev.arrivalCounted g n).nextGeneration_spec g
    have harr := ((s.dev.arrivalCounted g n).nextGeneration_flag g n).trans (s.dev.arrivalCounted_flag g n)
    have hframe := s.dev.lastArrival_frame g n
    rw [s.dev.arrivalCounted_get g n FAB_MG_STAT.GEN 0 g (by decide) (by decide)] at hgen
    rw [hmembers] at heff
    generalize (s.dev.arrivalCounted g n).nextGeneration g = x at *
    obtain ⟨w, hrest, hpackets⟩ := x.notify_spec (s.dev.members g)
    rw [hrest] at heff hpackets
    have hrest' : { x with wire := w } = { s.dev with regs := x.regs, groups := x.groups, wire := w } := by rw [hframe]
    have hwire : x.packets = s.dev.packets := by rw [hframe, Dev.packets, Dev.packets]
    rw [hrest'] at heff hpackets
    rw [hwire] at hpackets
    exact ⟨_, exec_of_powered (f := barrierArrivalEff n) rfl hp heff rfl rfl, rfl, hpackets, harr, harrived, hgen, hring, hgroup⟩
  case passes =>
    obtain ⟨hframe, hpass⟩ := (s.dev.take (.barrierNotify n)).barrierPass_spec n
    rw [Dev.get_take, Dev.get_take, Dev.lee_take] at hpass
    have heff : arrive (.barrierNotify n) (barrierNotifyEff n) s.dev = (s.dev.take (.barrierNotify n)).barrierPass n :=
      (arrive_of_reaches hr _).trans (Dev.barrierGo_passes ht hd hs ha hg)
    exact ⟨_, exec_of_powered (f := arrive (.barrierNotify n) (barrierNotifyEff n)) rfl hp heff hframe.leeOnly.board
      (congrArg Power.unpowered hframe.leeOnly.power), hframe, hpass⟩
  case expires =>
    exact exec_of_powered (f := barrierWatchdogEff g) rfl hp (barrierWatchdogEff_expires hg hf hw hs ht he) rfl rfl
  case expired =>
    exact exec_of_powered (f := barrierWatchdogEff g) rfl hp (barrierWatchdogEff_expired he) rfl rfl

end Sys2Proof.Machine
end

section
/-!
PROOFS. Snoops that reach a bough (spec/06 and spec/07, R149, R172).
-/

namespace Sys2Proof.Machine

/-! ### Lines and boughs beside one that changes -/

theorem KMap.find_mem {κ α : Type} [DecidableEq κ] (dflt : α) (k : κ) : ∀ m : KMap κ α, m.find dflt k = dflt ∨ (k, m.find dflt k) ∈ m
  | [] => .inl rfl
  | (k', a) :: m => by
    unfold KMap.find
    split
    · rename_i h
      exact .inr (h ▸ List.mem_cons_self)
    · exact (KMap.find_mem dflt k m).imp_right (List.mem_cons_of_mem _)

theorem Bough.line_setLine_other (x : Bough) {line k : Nat} (l : L3Line) (h : k ≠ line) : (x.setLine line l).line k = x.line k :=
  KMap.find_set_other _ _ _ _ _ h

theorem Dev.bough_modBough_other (d : Dev) {b c : Nat} (f : Bough → Bough) (h : c ≠ b) : (d.modBough b f).bough c = d.bough c :=
  KMap.find_set_other _ _ _ _ _ h

theorem Dev.line_modLine_other (d : Dev) (b : Nat) {line k : Nat} (f : L3Line → L3Line) (h : k ≠ line) :
    ((d.modLine b line f).bough b).line k = (d.bough b).line k := by
  rw [Dev.modLine, Dev.bough_modBough, Bough.line_setLine_other _ _ h]

theorem Dev.bough_send (d : Dev) (p : Packet) (b : Nat) : (d.send p).bough b = d.bough b := rfl
theorem Dev.bough_take (d : Dev) (p : Packet) (b : Nat) : (d.take p).bough b = d.bough b := rfl
theorem Dev.packets_modLine (d : Dev) (b line : Nat) (f : L3Line → L3Line) : (d.modLine b line f).packets = d.packets := rfl

/-! ### Reservations on a line that goes -/

theorem Dev.clearResv_frame (d : Dev) (line : Nat) (keep : Option Nat) : d.clearResv line keep = { d with leaves := (d.clearResv line keep).leaves } :=
  List.foldlRecOn (motive := fun e : Dev => e = { d with leaves := e.leaves }) _ _ rfl fun e he p _ => by
    split
    · rw [he]
      rfl
    · exact he

/-- A leaf with a reservation on the line afterwards had it before, and none of the entries passed names it. -/
theorem Dev.resv_foldl_clear (line n : Nat) (ps : List (Nat × Leaf)) (d : Dev)
    (h : ((ps.foldl (fun d p => if p.2.resv == some line && (none : Option Nat) != some p.1 then d.setLeaf p.1 { p.2 with resv := none } else d) d).leaf
      n).resv = some line) : (d.leaf n).resv = some line ∧ ∀ p ∈ ps, p.1 = n → p.2.resv ≠ some line := by
  induction ps generalizing d with
  | nil => exact ⟨h, fun _ hp => absurd hp List.not_mem_nil⟩
  | cons p ps ih =>
    rw [List.foldl_cons] at h
    obtain ⟨hd, hps⟩ := ih _ h
    rw [List.forall_mem_cons]
    split at hd
    · by_cases hn : n = p.1
      · rw [hn, Dev.leaf_setLeaf] at hd
        cases hd
      · rw [Dev.leaf_setLeaf_other _ _ hn] at hd
        exact ⟨hd, fun e => absurd e.symm hn, hps⟩
    · rename_i hp
      exact ⟨hd, fun _ e => hp (by rw [e]; simp), hps⟩

/-- No leaf keeps a reservation on a line that is lost. -/
theorem Dev.clearResv_none (d : Dev) (line n : Nat) : ((d.clearResv line none).leaf n).resv ≠ some line := fun h => by
  obtain ⟨hleaf, hentries⟩ := Dev.resv_foldl_clear line n d.leaves d h
  obtain hdef | hmem := KMap.find_mem {} n d.leaves
  · rw [Dev.leaf, hdef] at hleaf
    cases hleaf
  · exact hentries _ hmem rfl hleaf

/-! ### The bough that a snoop reaches -/

theorem Dev.reached_of_regs {d d' : Dev} {b : Nat} (h : d'.regs = d.regs) (hr : d.reached b) : d'.reached b := by
  have hsite : d'.siteOf b = d.siteOf b := by simp only [Dev.siteOf, Dev.mapEntry, Dev.reg_of_regs h]
  have hiso : d'.isolated = d.isolated := funext fun s => by simp only [Dev.isolated, Dev.get_of_regs h]
  rw [Dev.reached, hsite, hiso]
  exact hr

/-- No proxy stands in for the bough. -/
theorem Dev.reached.uncut {d : Dev} {b : Nat} (h : d.reached b) : ((d.siteOf b).map d.isolated).getD true = false := by
  rw [show (d.siteOf b).map d.isolated = some false from h]
  rfl

theorem Dev.reached.connected {d : Dev} {b : Nat} (h : d.reached b) : d.isolated (d.boughSite b) = false := by
  obtain ⟨s, hs, hi⟩ := Option.map_eq_some_iff.1 h
  rw [Dev.boughSite, hs]
  exact hi

/-- What a slice of a bough that the proxy does not stand in for sends its home passes the graft port. -/
theorem Dev.emit_snpRsp {d : Dev} {b : Nat} (h : d.reached b) (line : Nat) (ans : SnpAns) (x : LineData) :
    d.emit (.snpRsp b line ans x) = d.send (.snpRsp b line ans x) := by
  refine Dev.emit_send (Bool.and_eq_false_iff.2 (.inl ?_))
  exact h.connected

/-- The line goes to the bough that requests it. -/
def Dev.forwards (d : Dev) (line : Nat) (x : LineData) : Option Grant → Option Nat → Dev
  | some g, some r => d.send (.dataFwd r line g x)
  | _, _ => d

/-- The answer of a bough that holds the line: the line goes to the requester, or to the home with the answer, and takes its new state (R172). -/
theorem snoopEff_held {d : Dev} {k : Snoop} {b line : Nat} {fwd : Option Nat} {l : L3Line} {ans : SnpAns} {g : Option Grant} {st : CState}
    (hr : d.reached b) (hg : (d.gate (d.boughSite b)).closed = false) (hl : (d.bough b).line line = l) (hv : l.valid = true)
    (ha : snoopAnswer k l.st fwd.isNone = (ans, g, st)) :
    snoopEff k b line fwd d =
      (if st == l.st then (d.take (.snoop k b line fwd)).forwards line ⟨l.data, l.poison⟩ g fwd
        else ((d.take (.snoop k b line fwd)).forwards line ⟨l.data, l.poison⟩ g fwd).snoopTo b line st false).emit
          (.snpRsp b line ans (if ans == .dirtyCopy || ans == .dataToHome then ⟨l.data, l.poison⟩ else ⟨0, false⟩)) := by
  subst hl
  have hsnooped : ((d.take (.snoop k b line fwd)).bough b).snooped line =
      (((d.bough b).line line).st, ⟨((d.bough b).line line).data, ((d.bough b).line line).poison⟩, false) := if_pos hv
  have hcut : (((d.take (.snoop k b line fwd)).siteOf b).map (d.take (.snoop k b line fwd)).isolated).getD true = false := hr.uncut
  have hgate : ((d.take (.snoop k b line fwd)).gate ((d.take (.snoop k b line fwd)).boughSite b)).closed = false := hg
  unfold snoopEff
  dsimp only
  rw [hcut, hgate, hsnooped]
  dsimp only
  rw [ha, if_neg Bool.false_ne_true, if_neg Bool.false_ne_true]
  cases g <;> cases fwd <;> rfl

/-! ### The line that a snoop takes -/

theorem L3Line.gone_st (l : L3Line) : l.gone.st = .invalid := by
  unfold L3Line.gone
  split <;> rfl

theorem Dev.snoopTo_invalid_eq (d : Dev) (b line : Nat) :
    d.snoopTo b line .invalid false = (d.clearResv line none).modLine b line L3Line.gone := rfl

/-- A snoop has taken the line from the bough, which has answered its home. -/
def Dev.lineTaken (d : Dev) (b line : Nat) (ans : SnpAns) : Dev := (d.snoopTo b line .invalid false).send (.snpRsp b line ans ⟨0, false⟩)

theorem Dev.lineTaken_frame (d : Dev) (b line : Nat) (ans : SnpAns) : d.lineTaken b line ans =
    { d with leaves := (d.lineTaken b line ans).leaves, boughs := (d.lineTaken b line ans).boughs, wire := (d.lineTaken b line ans).wire } := by
  rw [Dev.lineTaken, Dev.snoopTo_invalid_eq, d.clearResv_frame]
  rfl

theorem Dev.lineTaken_keeps (d : Dev) (b line : Nat) (ans : SnpAns) : (d.lineTaken b line ans).board = d.board
    ∧ (d.lineTaken b line ans).power = d.power ∧ (d.lineTaken b line ans).mem = d.mem ∧ (d.lineTaken b line ans).regs = d.regs := by
  rw [d.lineTaken_frame]
  exact ⟨rfl, rfl, rfl, rfl⟩

/-- The line leaves its bough, with every reservation on it. -/
theorem Dev.lineTaken_spec (d : Dev) (b line : Nat) (ans : SnpAns) :
    (d.lineTaken b line ans).packets = d.packets ++ [.snpRsp b line ans ⟨0, false⟩]
      ∧ (((d.lineTaken b line ans).bough b).line line).st = .invalid
      ∧ (∀ k, k ≠ line → ((d.lineTaken b line ans).bough b).line k = (d.bough b).line k)
      ∧ ∀ n, ((d.lineTaken b line ans).leaf n).resv ≠ some line := by
  have hbough : (d.clearResv line none).bough b = d.bough b := by rw [Dev.bough, Dev.boughs_clearResv, Dev.bough]
  have hpackets : (d.clearResv line none).packets = d.packets := by rw [d.clearResv_frame, Dev.packets, Dev.packets]
  rw [Dev.lineTaken, Dev.snoopTo_invalid_eq]
  refine ⟨by rw [Dev.packets_send, Dev.packets_modLine, hpackets], ?_, fun k hk => ?_, d.clearResv_none line⟩
  · rw [Dev.bough_send, Dev.line_modLine, L3Line.gone_st]
  · rw [Dev.bough_send, Dev.line_modLine_other _ _ _ hk, hbough]

theorem Dev.emit_lineTaken {d : Dev} {b : Nat} (hr : d.reached b) (line : Nat) (ans : SnpAns) :
    (d.snoopTo b line .invalid false).emit (.snpRsp b line ans ⟨0, false⟩) = d.lineTaken b line ans := by
  refine Dev.emit_snpRsp (Dev.reached_of_regs ?_ hr) line ans _
  rw [Dev.snoopTo_invalid_eq, d.clearResv_frame]
  rfl

/-- A snoop acts on powered dies as `snoopEff` says. -/
theorem exec_snoop {c : Instr} {s : State} {k : Snoop} {b line : Nat} {fwd : Option Nat} {d : Dev} (hp : s.dev.powered = true)
    (hs : s.dev.reaches (.snoop k b line fwd)) (he : exec c s = .next (s.on (arrive (.snoop k b line fwd) (snoopEff k b line fwd))))
    (hf : snoopEff k b line fwd s.dev = d) (hb : d.board = s.dev.board) (hw : d.power = s.dev.power) : exec c s = .next (s.withDev d) :=
  exec_of_powered he hp ((arrive_of_reaches hs _).trans hf) hb (congrArg Power.unpowered hw)

/-- The bough has sent a modified line to the bough that reads it, and owns the line from then on. -/
def Dev.lineShared (d : Dev) (b line r : Nat) : Dev :=
  ((d.take (.snoop .shared b line (some r))).send
    (.dataFwd r line .shared ⟨((d.bough b).line line).data, ((d.bough b).line line).poison⟩)).modLine b line fun l =>
      { l with st := .owned, writer := none, l1Writer := none }

theorem Dev.lineShared_spec (d : Dev) (b line r : Nat) :
    (d.lineShared b line r).packets = d.packets.erase (.snoop .shared b line (some r)) ++
        [.dataFwd r line .shared ⟨((d.bough b).line line).data, ((d.bough b).line line).poison⟩]
      ∧ ((d.lineShared b line r).bough b).line line = { (d.bough b).line line with st := .owned, writer := none, l1Writer := none }
      ∧ (∀ k, k ≠ line → ((d.lineShared b line r).bough b).line k = (d.bough b).line k)
      ∧ ∀ c, c ≠ b → (d.lineShared b line r).bough c = d.bough c := by
  unfold Dev.lineShared
  refine ⟨by rw [Dev.packets_modLine, Dev.packets_send, Dev.packets_take], ?_, fun k hk => ?_, fun c hc => ?_⟩
  · rw [Dev.line_modLine, Dev.bough_send, Dev.bough_take]
  · rw [Dev.line_modLine_other _ _ _ hk, Dev.bough_send, Dev.bough_take]
  · rw [Dev.modLine, Dev.bough_modBough_other _ _ hc, Dev.bough_send, Dev.bough_take]

/-- The bough has sent an exclusive line to the bough that takes it. -/
def Dev.lineGiven (d : Dev) (b line r : Nat) : Dev :=
  (d.take (.snoop .unique b line (some r))).send (.dataFwd r line .excl ⟨((d.bough b).line line).data, ((d.bough b).line line).poison⟩)

/-- Settles O36, clause by clause: a modified line that is shared, an exclusive line that is taken, a line that is invalidated, and a current
copy. -/
theorem snoopsAreAnswered : Obligations.SnoopsAreAnswered := by
  unfold Obligations.SnoopsAreAnswered
  refine ⟨fun s b line r hp hr hs hg hst => ?shared, fun s b line r hp hr hs hg hst => ?unique, fun s b line hp hr hs hg hv => ?inv,
    fun s b line hp hr hs hg hst => ?current⟩
  case shared =>
    have hv : ((s.dev.bough b).line line).valid = true := bne_iff_ne.2 (by rw [hst]; nofun)
    have heff := snoopEff_held (k := .shared) (fwd := some r) (ans := .fwdDirty) (g := some .shared) (st := .owned) hr hg rfl hv (by rw [hst]; rfl)
    rw [hst] at heff
    have hsent : snoopEff .shared b line (some r) s.dev = (s.dev.lineShared b line r).send (.snpRsp b line .fwdDirty ⟨0, false⟩) :=
      heff.trans (Dev.emit_snpRsp (d := s.dev.lineShared b line r) hr line .fwdDirty _)
    obtain ⟨hpackets, hline, hothers, hboughs⟩ := s.dev.lineShared_spec b line r
    refine ⟨_, exec_snoop hp hs rfl hsent rfl rfl, rfl, ?_, congrArg L3Line.st hline, (congrArg L3Line.data hline :), hothers, hboughs⟩
    rw [Dev.packets_send, hpackets, List.append_assoc]
    rfl
  case unique =>
    have hv : ((s.dev.bough b).line line).valid = true := bne_iff_ne.2 (by rw [hst]; nofun)
    have heff := snoopEff_held (k := .unique) (fwd := some r) hr hg rfl hv (by rw [hst])
    rw [hst] at heff
    have htaken := heff.trans (Dev.emit_lineTaken (d := s.dev.lineGiven b line r) hr line .fwdClean)
    obtain ⟨hboard, hpower, hmem, hregs⟩ := (s.dev.lineGiven b line r).lineTaken_keeps b line .fwdClean
    obtain ⟨hpackets, hinv, hothers, hresv⟩ := (s.dev.lineGiven b line r).lineTaken_spec b line .fwdClean
    refine ⟨_, exec_snoop hp hs rfl htaken hboard hpower, hpackets.trans ?_, hinv, hothers, hresv, hmem, hregs⟩
    rw [Dev.lineGiven, Dev.packets_send, Dev.packets_take, List.append_assoc]
    rfl
  case inv =>
    have hst : (CState.invalid == ((s.dev.bough b).line line).st) = false := by
      rw [L3Line.valid, bne_iff_ne] at hv
      exact beq_eq_false_iff_ne.2 hv.symm
    have ha : snoopAnswer .inv ((s.dev.bough b).line line).st true = (.i, none, .invalid) := by
      cases ((s.dev.bough b).line line).st <;> rfl
    have heff := snoopEff_held (k := .inv) (fwd := none) hr hg rfl hv ha
    rw [hst] at heff
    have htaken := heff.trans (Dev.emit_lineTaken (d := s.dev.take _) hr line .i)
    obtain ⟨hboard, hpower, hmem, hregs⟩ := (s.dev.take (.snoop .inv b line none)).lineTaken_keeps b line .i
    obtain ⟨hpackets, hinv, hothers, hresv⟩ := (s.dev.take (.snoop .inv b line none)).lineTaken_spec b line .i
    exact ⟨_, exec_snoop hp hs rfl htaken hboard hpower, hpackets.trans (by rw [Dev.packets_take]), hinv,
      hothers, hresv, hmem, hregs⟩
  case current =>
    have hv : ((s.dev.bough b).line line).valid = true := bne_iff_ne.2 (by rw [hst]; nofun)
    have heff := snoopEff_held (k := .current) (fwd := none) hr hg rfl hv (by rw [hst])
    rw [hst] at heff
    exact exec_snoop hp hs rfl heff (Dev.emit_board _ _) (Dev.emit_power _ _)

end Sys2Proof.Machine
end

section
/-!
PROOFS. Locking ways of a bough's L3 (spec/06, R152 to R157).
-/

namespace Sys2Proof.Machine

/-! ### What registers of the L3 leave alone -/

/-- The registers outside the L3 blocks. -/
def outsideL3c (n : RegName) : Bool := n.block != .l3c

/-- The checks of a memory address read no register of an L3. -/
theorem Dev.Stays.memCheck {d d' : Dev} (h : d.Stays outsideL3c d') (hf : d'.firewall = d.firewall) (cls seg : Nat) (w : Bool) (a : Nat) :
    d'.memCheck cls seg w a = d.memCheck cls seg w a := by
  have hset (g : Bool) (c : Nat) : d'.interleaveSet g c = d.interleaveSet g c := by
    simp only [Dev.interleaveSet, h.get MEM_IL.N _ _ rfl]
  have hchannel : d'.channelOf a = d.channelOf a := by
    simp only [Dev.channelOf, hset, h.flag TRK_CAP.GIL _ _ rfl, h.get MEM_CFG.CAP _ _ rfl]
  have hpermits : d'.fwPermits cls seg w a = d.fwPermits cls seg w a := by simp only [Dev.fwPermits, hf]
  have hbacked : d'.backed a = d.backed a := by
    simp only [Dev.backed, hchannel, h.get MEM_INIT.FRONT _ _ rfl, h.flag HIO_CXL.EN _ _ rfl, h.flag HIO_CXL.CLOSING _ _ rfl,
      h.get HIO_CXL.SIZE_G _ _ rfl, h.board]
  rw [Dev.memCheck, Dev.memCheck, hpermits, hbacked]

/-- A lock command may fetch what the checks let pass. -/
theorem Dev.lockRefused_eq_none (d : Dev) (line : Nat) :
    d.lockRefused line = none ↔ mainMemory (64 * line) = true ∧ d.memCheck 1 0 false (64 * line) = .ok := by
  unfold Dev.lockRefused
  dsimp only
  cases mainMemory (64 * line) <;> cases d.memCheck 1 0 false (64 * line) <;> simp

theorem Dev.boughSite_put (d : Dev) (f : Fld) (v u k b : Nat) (h : RegName.SIM_SITEMAP ≠ f.reg) : (d.put f v u k).boughSite b = d.boughSite b := by
  have he (s : Nat) : (d.put f v u k).mapEntry s = d.mapEntry s := by unfold Dev.mapEntry; rw [Dev.reg_put_name _ _ _ _ _ _ h]
  simp only [Dev.boughSite, Dev.siteOf, he]

theorem Dev.l3On_of_stays {K : RegName → Bool} {d d' : Dev} (h : d.Stays K d') (hmap : K .SIM_SITEMAP = true) (hstat : K .L3C_STAT = true) (b : Nat) :
    d'.l3On b = d.l3On b := by
  simp only [Dev.l3On, Dev.boughSite_of_stays h hmap, h.flag L3C_STAT.DISABLED _ _ hstat, h.flag L3C_STAT.FLUSHING _ _ hstat]

/-! ### Requests sent -/

/-- What sending requests leaves of a package: all but the outstanding requests and the messages. -/
structure Dev.Requests (b : Nat) (d d' : Dev) : Prop where
  rest : d' = { d with boughs := d'.boughs, wire := d'.wire }
  bough : d'.bough b = { d.bough b with txns := (d'.bough b).txns }

theorem Dev.Requests.trans {b : Nat} {d d' d'' : Dev} (h : d.Requests b d') (h' : d'.Requests b d'') : d.Requests b d'' :=
  ⟨by rw [h'.rest, h.rest], by rw [h'.bough, h.bough]⟩

theorem Dev.Requests.modBough (d : Dev) (b : Nat) (f : Bough → List BoughTxn) : d.Requests b (d.modBough b fun x => { x with txns := f x }) :=
  ⟨rfl, by rw [Dev.bough_modBough]⟩

theorem Dev.Requests.emit (d : Dev) (b : Nat) (p : Packet) : d.Requests b (d.emit p) := by
  obtain ⟨w, h⟩ := d.emit_frame p
  rw [h]
  exact ⟨rfl, rfl⟩

theorem Dev.Requests.sendAmong (d : Dev) (b : Nat) (ts : List BoughTxn) : d.Requests b (d.sendAmong b ts) :=
  List.foldlRecOn (motive := fun e : Dev => d.Requests b e) _ _ ⟨rfl, rfl⟩ fun e he t _ => by
    split
    · exact (he.trans (.modBough e b _)).trans (.emit _ b _)
    · exact he

theorem Dev.Requests.startTxn (d : Dev) (b : Nat) (t : BoughTxn) : d.Requests b (d.startTxn b t) := by
  unfold Dev.startTxn
  split
  · exact ⟨rfl, rfl⟩
  · exact ((Dev.Requests.modBough d b _).trans (.sendAmong _ b _)).trans (.sendAmong _ b _)

/-- A bough with no request outstanding sends none. -/
theorem Dev.sendRequests_nil {d : Dev} {b : Nat} (h : (d.bough b).txns = []) : d.sendRequests b = d := by
  unfold Dev.sendRequests
  rw [h]
  rfl

/-! ### A lock command handles its lines -/

/-- The command that fetches the line that comes next. -/
def Dev.lockFetching (d : Dev) (b : Nat) (c : LockCmd) : Dev :=
  (d.modBough b fun x => { x with lock := some { c with fetching := true } }).startTxn b { line := c.next, op := .rdShared, forLock := true }

/-- The line that comes next is not held: its home is asked for it (R153). -/
theorem lockRun_fetches {d : Dev} {b k : Nat} {c : LockCmd} (hlock : (d.bough b).lock = some c) (hfetch : c.fetching = false)
    (hend : c.ending = false) (hon : d.l3On b = true) (hleft : c.left ≠ 0) (hv : ((d.bough b).line c.next).valid = false)
    (htxn : (d.bough b).txn c.next = none) (hevb : (d.bough b).evb = []) (hok : d.lockRefused c.next = none)
    (hways : (d.bough b).lockWays c.next c.ways ≠ []) :
    lockRun (k + 1) b d = d.lockFetching b c := by
  rw [lockRun, Dev.lockFetching]
  dsimp only
  rw [hlock]
  dsimp only
  rw [hfetch, hend, hon, htxn, hevb, hv, hok, if_neg (by simp), if_neg (by simp), if_neg (by simp), if_neg hleft, if_neg (by simp),
    if_neg (by simp), if_neg (by simp)]
  dsimp only
  rw [if_neg (by simp), if_neg (by simp), if_neg (by simp [hways]), if_neg (by simp)]

/-- With no line left, the command ends with the first failure, or OK. -/
theorem lockRun_ends {d : Dev} {b k : Nat} {c : LockCmd} (hlock : (d.bough b).lock = some c) (hfetch : c.fetching = false)
    (hend : c.ending = false) (hon : d.l3On b = true) (hleft : c.left = 0) : lockRun (k + 1) b d = d.lockEnd b (c.firstFail.getD 0) := by
  rw [lockRun]
  dsimp only
  rw [hlock]
  dsimp only
  rw [hfetch, hend, hon, if_neg (by simp), if_neg (by simp), if_neg (by simp), if_pos hleft]

theorem Dev.lockGo_some {d : Dev} {b : Nat} {c : LockCmd} (h : (d.bough b).lock = some c) : d.lockGo b = lockRun (c.left + 2) b d := by
  unfold Dev.lockGo
  rw [h]

theorem Dev.lockGo_none {d : Dev} {b : Nat} (h : (d.bough b).lock = none) : d.lockGo b = d := by
  unfold Dev.lockGo
  rw [h]

/-! ### PRELOAD_AND_LOCK -/

/-- The registers of a lock command that starts: its ways are locked at once, and it is busy. -/
def Dev.lockBusy (d : Dev) (i all : Nat) : Dev :=
  (((((d.put L3C_LOCK_WAYS.WAYS all i).put L3C_LOCK_STAT.BUSY 1 i).put L3C_LOCK_STAT.DONE 0 i).put L3C_LOCK_STAT.LOCKED 0 i).put
    L3C_LOCK_STAT.FAILED 0 i).put L3C_LOCK_STAT.STATUS 0 i

theorem Dev.lockBusy_rewrites (d : Dev) (i all : Nat) :
    d.Rewrites [L3C_LOCK_WAYS.WAYS, L3C_LOCK_STAT.BUSY, L3C_LOCK_STAT.DONE, L3C_LOCK_STAT.LOCKED, L3C_LOCK_STAT.FAILED, L3C_LOCK_STAT.STATUS]
      (d.lockBusy i all) :=
  (((((Dev.Rewrites.put d _ all i 0).trans (.put _ _ 1 i 0)).trans (.put _ _ 0 i 0)).trans (.put _ _ 0 i 0)).trans (.put _ _ 0 i 0)).trans
    (.put _ _ 0 i 0)

theorem Dev.lockBusy_get (d : Dev) (i all : Nat) : (d.lockBusy i all).flag L3C_LOCK_STAT.BUSY i = true
    ∧ (d.lockBusy i all).flag L3C_LOCK_STAT.DONE i = false ∧ (d.lockBusy i all).get L3C_LOCK_STAT.LOCKED i = 0
    ∧ (d.lockBusy i all).get L3C_LOCK_WAYS.WAYS i = all % 2 ^ 16 := by
  unfold Dev.lockBusy Dev.flag
  refine ⟨?_, ?_, ?_, ?_⟩
  · rw [Dev.get_put_apart _ _ L3C_LOCK_STAT.BUSY _ _ _ _ _ (by decide), Dev.get_put_apart _ _ L3C_LOCK_STAT.BUSY _ _ _ _ _ (by decide),
      Dev.get_put_apart _ _ L3C_LOCK_STAT.BUSY _ _ _ _ _ (by decide), Dev.get_put_apart _ _ L3C_LOCK_STAT.BUSY _ _ _ _ _ (by decide),
      Dev.get_put_same _ _ _ _ _ (by decide) (by decide)]
    rfl
  · rw [Dev.get_put_apart _ _ L3C_LOCK_STAT.DONE _ _ _ _ _ (by decide), Dev.get_put_apart _ _ L3C_LOCK_STAT.DONE _ _ _ _ _ (by decide),
      Dev.get_put_apart _ _ L3C_LOCK_STAT.DONE _ _ _ _ _ (by decide), Dev.get_put_same _ _ _ _ _ (by decide) (by decide)]
    rfl
  · rw [Dev.get_put_apart _ _ L3C_LOCK_STAT.LOCKED _ _ _ _ _ (by decide), Dev.get_put_apart _ _ L3C_LOCK_STAT.LOCKED _ _ _ _ _ (by decide),
      Dev.get_put_same _ _ _ _ _ (by decide) (by decide)]
    rfl
  · rw [Dev.get_put_name _ _ L3C_LOCK_WAYS.WAYS _ _ _ _ _ (by decide), Dev.get_put_name _ _ L3C_LOCK_WAYS.WAYS _ _ _ _ _ (by decide),
      Dev.get_put_name _ _ L3C_LOCK_WAYS.WAYS _ _ _ _ _ (by decide), Dev.get_put_name _ _ L3C_LOCK_WAYS.WAYS _ _ _ _ _ (by decide),
      Dev.get_put_name _ _ L3C_LOCK_WAYS.WAYS _ _ _ _ _ (by decide), Dev.get_put_same _ _ _ _ _ (by decide) (by decide)]
    rfl

/-- The command that handles the range of the registers in the ways of a mask. -/
def Dev.lockCommand (d : Dev) (i m : Nat) : LockCmd := { next := d.get L3C_LOCK_ADDR.ADDR i, left := d.get L3C_LOCK_LEN.LINES i, ways := m }

/-- The command has started. -/
def Dev.lockStarted (d : Dev) (b i all m : Nat) : Dev := (d.lockBusy i all).modBough b fun x => { x with lock := some (d.lockCommand i m) }

/-- The range and the mask are none that R152 calls INVALID. -/
theorem lockRange_valid {m len first : Nat} (hm : m ≠ 0) (hlen : len ≠ 0) (hend : first + len ≤ 2 ^ 42) :
    ¬ (decide (m = 0) || decide (len = 0) || decide (2 ^ 42 < first + len)) = true := by
  rw [decide_eq_false hm, decide_eq_false hlen, decide_eq_false (not_lt.2 hend)]
  exact Bool.false_ne_true

/-- A preload that no check of R152 refuses runs. -/
theorem preloadLockEff_runs {d : Dev} {i ways : Nat} (ha : d.siteActive i = true) (hlock : (d.bough (d.boughAt i)).lock = none)
    (hm : ways % 2 ^ 16 ≠ 0) (hlen : d.get L3C_LOCK_LEN.LINES i ≠ 0) (hend : d.get L3C_LOCK_ADDR.ADDR i + d.get L3C_LOCK_LEN.LINES i ≤ 2 ^ 42)
    (hways : waysIn (ways % 2 ^ 16 ||| d.get L3C_LOCK_WAYS.WAYS i) ≤ 12) (hen : d.flag L3C_CTL.EN i = true)
    (hflush : d.flag L3C_STAT.FLUSHING i = false) :
    preloadLockEff i ways d =
      (d.lockStarted (d.boughAt i) i (ways % 2 ^ 16 ||| d.get L3C_LOCK_WAYS.WAYS i) (ways % 2 ^ 16)).lockGo (d.boughAt i) := by
  unfold preloadLockEff
  dsimp only
  rw [hlock, hen, hflush, if_neg (by simp [ha]), if_neg (by simp), if_neg (lockRange_valid hm hlen hend), if_neg (not_lt.2 hways), if_neg (by simp)]
  rfl

/-- One that would lock more than 12 ways is refused with TOO_MANY. -/
theorem preloadLockEff_tooMany {d : Dev} {i ways : Nat} (ha : d.siteActive i = true) (hlock : (d.bough (d.boughAt i)).lock = none)
    (hm : ways % 2 ^ 16 ≠ 0) (hlen : d.get L3C_LOCK_LEN.LINES i ≠ 0) (hend : d.get L3C_LOCK_ADDR.ADDR i + d.get L3C_LOCK_LEN.LINES i ≤ 2 ^ 42)
    (hways : 12 < waysIn (ways % 2 ^ 16 ||| d.get L3C_LOCK_WAYS.WAYS i)) : preloadLockEff i ways d = d.lockRefuse i 2 := by
  unfold preloadLockEff
  dsimp only
  rw [hlock, if_neg (by simp [ha]), if_neg (by simp), if_neg (lockRange_valid hm hlen hend), if_pos hways]

theorem Dev.lockStarted_stays {K : RegName → Bool} (d : Dev) (b i all m : Nat) (hw : K .L3C_LOCK_WAYS = false) (hs : K .L3C_LOCK_STAT = false) :
    d.Stays K (d.lockStarted b i all m) :=
  ((d.lockBusy_rewrites i all).stays (by
    simp only [List.forall_mem_cons]
    exact ⟨hw, hs, hs, hs, hs, hs, fun _ h => absurd h List.not_mem_nil⟩)).trans (Dev.modBough_stays _ _ _)

theorem Dev.lockStarted_bough (d : Dev) (b i all m : Nat) :
    (d.lockStarted b i all m).bough b = { d.bough b with lock := some (d.lockCommand i m) } := Dev.bough_modBough _ _ _

theorem Dev.lockFetching_spec (d : Dev) (b : Nat) (c : LockCmd) :
    d.lockFetching b c = { d with boughs := (d.lockFetching b c).boughs, wire := (d.lockFetching b c).wire }
      ∧ ((d.lockFetching b c).bough b).lock = some { c with fetching := true }
      ∧ (((d.lockFetching b c).bough b).txn c.next).isSome = true
      ∧ ∀ line, ((d.lockFetching b c).bough b).line line = (d.bough b).line line := by
  obtain ⟨hrest, hbough⟩ := Dev.Requests.startTxn (d.modBough b fun x => { x with lock := some { c with fetching := true } }) b
    { line := c.next, op := .rdShared, forLock := true }
  obtain ⟨-, htxn⟩ := (d.modBough b fun x => { x with lock := some { c with fetching := true } }).startTxn_spec b
    { line := c.next, op := .rdShared, forLock := true }
  rw [Dev.bough_modBough] at hbough
  exact ⟨hrest, congrArg Bough.lock hbough, htxn, fun line => (congrArg (Bough.line · line) hbough :)⟩

/-- What a preload shows that has started and fetches its first line. -/
theorem Dev.lockStarted_fetching (d : Dev) (b i all m : Nat) {f : Dev} (h : f = (d.lockStarted b i all m).lockFetching b (d.lockCommand i m)) :
    f = { d with regs := f.regs, boughs := f.boughs, wire := f.wire }
      ∧ f.flag L3C_LOCK_STAT.BUSY i = true ∧ f.flag L3C_LOCK_STAT.DONE i = false ∧ f.get L3C_LOCK_STAT.LOCKED i = 0
      ∧ f.get L3C_LOCK_WAYS.WAYS i = all % 2 ^ 16 ∧ ((f.bough b).lock.map (·.fetching)) = some true
      ∧ ((f.bough b).txn (d.get L3C_LOCK_ADDR.ADDR i)).isSome = true ∧ ∀ line, (f.bough b).line line = (d.bough b).line line := by
  obtain ⟨hrest, hlock, htxn, hlines⟩ := (d.lockStarted b i all m).lockFetching_spec b (d.lockCommand i m)
  obtain ⟨hbusy, hdone, hlocked, hmask⟩ := d.lockBusy_get i all
  rw [← h] at hrest hlock htxn hlines
  have hregs : f.regs = (d.lockBusy i all).regs := by
    rw [hrest]
    rfl
  refine ⟨by rw [hrest]; rfl, (Dev.flag_of_regs hregs _ _ _).trans hbusy, (Dev.flag_of_regs hregs _ _ _).trans hdone,
    (Dev.get_of_regs hregs _ _ _).trans hlocked, (Dev.get_of_regs hregs _ _ _).trans hmask, by rw [hlock]; rfl, htxn, fun line => ?_⟩
  rw [hlines, Dev.lockStarted_bough]
  rfl

/-- A preload whose first line its bough does not hold, and may fetch, asks the home for it. -/
theorem preloadLockEff_fetches {d : Dev} {i ways b all : Nat} (ha : d.siteActive i = true) (hb : d.boughAt i = b) (hi : d.boughSite b = i)
    (hen : d.flag L3C_CTL.EN i = true) (hlock : (d.bough b).lock = none) (hm : ways % 2 ^ 16 ≠ 0) (hlen : d.get L3C_LOCK_LEN.LINES i ≠ 0)
    (hend : d.get L3C_LOCK_ADDR.ADDR i + d.get L3C_LOCK_LEN.LINES i ≤ 2 ^ 42) (hall : ways % 2 ^ 16 ||| d.get L3C_LOCK_WAYS.WAYS i = all)
    (hways : waysIn all ≤ 12) (hon : d.l3On b = true) (hv : ((d.bough b).line (d.get L3C_LOCK_ADDR.ADDR i)).valid = false)
    (htxn : (d.bough b).txn (d.get L3C_LOCK_ADDR.ADDR i) = none) (hevb : (d.bough b).evb = [])
    (hok : d.lockRefused (d.get L3C_LOCK_ADDR.ADDR i) = none)
    (hfree : (d.bough b).lockWays (d.get L3C_LOCK_ADDR.ADDR i) (ways % 2 ^ 16) ≠ []) :
    preloadLockEff i ways d = (d.lockStarted b i all (ways % 2 ^ 16)).lockFetching b (d.lockCommand i (ways % 2 ^ 16)) := by
  have hflush : d.flag L3C_STAT.FLUSHING i = false := by
    simp only [Dev.l3On, hi, Bool.and_eq_true, Bool.not_eq_true'] at hon
    exact hon.2
  have hbough := d.lockStarted_bough b i all (ways % 2 ^ 16)
  have hchecks := d.lockStarted_stays (K := outsideL3c) b i all (ways % 2 ^ 16) rfl rfl
  have hl3 := (Dev.l3On_of_stays (d.lockStarted_stays (K := fun n => n != .L3C_LOCK_WAYS && n != .L3C_LOCK_STAT) b i all
    (ways % 2 ^ 16) rfl rfl) rfl rfl b).trans hon
  rw [Dev.lockRefused_eq_none, ← hchecks.memCheck rfl, ← Dev.lockRefused_eq_none] at hok
  rw [preloadLockEff_runs ha (hb ▸ hlock) hm hlen hend (hall.symm ▸ hways) hen hflush, hb, hall]
  refine (Dev.lockGo_some (congrArg Bough.lock hbough)).trans (lockRun_fetches (congrArg Bough.lock hbough) rfl rfl hl3 hlen ?_ ?_ ?_ hok ?_)
  · exact (congrArg (fun x => (Bough.line x _).valid) hbough).trans hv
  · exact (congrArg (Bough.txn · _) hbough).trans htxn
  · exact (congrArg Bough.evb hbough).trans hevb
  · exact fun h => hfree ((congrArg (Bough.lockWays · _ _) hbough).symm.trans h)

/-! ### The line of a lock command arrives -/

/-- The line as it lies in its locked way. -/
def L3Line.placed (old : L3Line) (g : Grant) (ep : Nat) (x : LineData) (w clock : Nat) : L3Line :=
  { old with st := grantState g, data := x.data, poison := x.poison, epoch := ep, way := w, locked := true, hasData := true, used := clock }

/-- The fetched line lies in its bough, and its request is no longer outstanding. -/
def Dev.linePut (d : Dev) (b : Nat) (t : BoughTxn) (l : L3Line) : Dev :=
  (d.modBough b fun y => { y with txns := y.txns.filter fun z => z.line != t.line }).modLine b t.line fun _ => l

/-- The fetched line lies in its bough, and its home has been told. -/
def Dev.linePlaced (d : Dev) (b : Nat) (t : BoughTxn) (l : L3Line) : Dev := (d.linePut b t l).send (.compAck b t.line)

theorem Dev.linePlaced_bough (d : Dev) (b : Nat) (t : BoughTxn) (l : L3Line) : (d.linePlaced b t l).bough b =
    ({ d.bough b with txns := (d.bough b).txns.filter fun z => z.line != t.line } : Bough).setLine t.line l := by
  rw [Dev.linePlaced, Dev.bough_send, Dev.linePut, Dev.modLine, Dev.bough_modBough, Dev.bough_modBough]

theorem Dev.linePlaced_packets (d : Dev) (b : Nat) (t : BoughTxn) (l : L3Line) :
    (d.linePlaced b t l).packets = d.packets ++ [.compAck b t.line] := by
  rw [Dev.linePlaced, Dev.packets_send, Dev.linePut, Dev.packets_modLine]
  rfl

/-- A line that the bough does not hold goes into a free way among those given, locked. -/
theorem Dev.placeFill_locks {d : Dev} {b : Nat} {t : BoughTxn} {ways : List Nat} {w : Nat} (g : Grant) (ep : Nat) (x : LineData)
    (hiso : d.isolated (d.boughSite b) = false) (hon : d.l3On b = true) (hv : ((d.bough b).line t.line).valid = false)
    (hl : ((d.bough b).line t.line).locked = false) (hw : (d.bough b).chooseWay t.line ways = some (w, none)) :
    d.placeFill b t ways true g ep x = (true, d.linePlaced b t (((d.bough b).line t.line).placed g ep x w (d.bough b).clock)) := by
  have hsent : (d.linePut b t (((d.bough b).line t.line).placed g ep x w (d.bough b).clock)).emit (.compAck b t.line) =
      d.linePlaced b t (((d.bough b).line t.line).placed g ep x w (d.bough b).clock) :=
    Dev.emit_send (Bool.and_eq_false_iff.2 (.inl hiso))
  rw [← hsent]
  unfold Dev.placeFill
  dsimp only
  rw [hon, hv, hl, hw]
  rfl

theorem Bough.chooseWay_nil (x : Bough) (line : Nat) : x.chooseWay line [] = none := by
  simp [Bough.chooseWay]

/-- A bough in which nothing waits goes on with nothing. -/
theorem Dev.retryBough_idle {d : Dev} {b : Nat} (h : ∀ j, j < 16 → (d.leaf (16 * b + j)).misses = [] ∧ (d.lee (16 * b + j)).mem = []) :
    d.retryBough b = d := by
  have hleaves : (List.range 16).foldl (fun d j => if (d.leaf (16 * b + j)).misses.isEmpty then d else d.retryLeaf (16 * b + j)) d = d :=
    List.foldlRecOn (motive := fun e : Dev => e = d) _ _ rfl fun e he j hj => by
      rw [he, (h j (List.mem_range.1 hj)).1]
      rfl
  unfold Dev.retryBough
  dsimp only
  rw [hleaves]
  exact List.foldlRecOn (motive := fun e : Dev => e = d) _ _ rfl fun e he j hj => by
    rw [he, (h j (List.mem_range.1 hj)).2]
    rfl

/-- A line is counted as locked, and the command goes on to the next. -/
def Dev.lockCounted (d : Dev) (b : Nat) (c : LockCmd) : Dev :=
  (d.count L3C_LOCK_STAT.LOCKED 1 (d.boughSite b)).modBough b fun x =>
    { x with lock := some { c with next := c.next + 1, left := c.left - 1, fetching := false, waited := false } }

theorem Dev.lockOutcome_locked (d : Dev) (b : Nat) (c : LockCmd) : d.lockOutcome b c 0 = d.lockCounted b c := by
  unfold Dev.lockOutcome
  dsimp only
  rw [if_pos rfl, bne_self_eq_false, Bool.and_false]
  rfl

theorem Dev.linePlaced_stays {K : RegName → Bool} (d : Dev) (b : Nat) (t : BoughTxn) (l : L3Line) : d.Stays K (d.linePlaced b t l) :=
  ⟨rfl, rfl, rfl, fun _ _ => rfl⟩

theorem Dev.linePlaced_txns {d : Dev} {b : Nat} {t : BoughTxn} (h : (d.bough b).txns = [t]) (l : L3Line) :
    ((d.linePlaced b t l).bough b).txns = [] := by
  rw [Dev.linePlaced_bough]
  change (d.bough b).txns.filter _ = []
  rw [h]
  simp

theorem Dev.lockCounted_bough (d : Dev) (b : Nat) (c : LockCmd) : (d.lockCounted b c).bough b =
    { d.bough b with lock := some { c with next := c.next + 1, left := c.left - 1, fetching := false, waited := false } } :=
  Dev.bough_modBough _ _ _

theorem Dev.lockCounted_stays (d : Dev) (b : Nat) (c : LockCmd) : d.Stays (· != .L3C_LOCK_STAT) (d.lockCounted b c) :=
  (Dev.Stays.put d L3C_LOCK_STAT.LOCKED _ _ 0 rfl).trans (Dev.modBough_stays _ _ _)

/-- After the last line that the command counts, it ends. -/
theorem Dev.lockCounted_goes {d : Dev} {b : Nat} {c : LockCmd} (hend : c.ending = false) (hleft : c.left = 1) (hfirst : c.firstFail = none)
    (hon : d.l3On b = true) (htxns : (d.bough b).txns = [])
    (hidle : ∀ j, j < 16 → (d.leaf (16 * b + j)).misses = [] ∧ (d.lee (16 * b + j)).mem = []) :
    (((d.lockCounted b c).retryBough b).sendRequests b).lockGo b = (d.lockCounted b c).lockEnd b 0 := by
  have hbough := d.lockCounted_bough b c
  have hl3 := (Dev.l3On_of_stays (d.lockCounted_stays b c) rfl rfl b).trans hon
  have hlast : c.left - 1 = 0 := by rw [hleft]
  rw [Dev.retryBough_idle (d := d.lockCounted b c) hidle, Dev.sendRequests_nil ((congrArg Bough.txns hbough).trans htxns),
    Dev.lockGo_some (congrArg Bough.lock hbough), lockRun_ends (congrArg Bough.lock hbough) rfl hend hl3 hlast, hfirst]
  rfl

/-- The last line of the command has arrived, and the command has ended. -/
def Dev.lineLocked (d : Dev) (b : Nat) (t : BoughTxn) (c : LockCmd) (l : L3Line) : Dev := ((d.linePlaced b t l).lockCounted b c).lockEnd b 0

/-- LOCK_LINE_FETCH_RETURN of the last line: it is placed and counted, and the command ends. -/
theorem lockFetchEff_last {d : Dev} {i b w : Nat} {c : LockCmd} {t : BoughTxn} {g : Grant} {ep : Nat} {x : LineData}
    (ha : d.siteActive i = true) (hb : d.boughAt i = b) (hi : d.isolated (d.boughSite b) = false) (hon : d.l3On b = true)
    (hidle : ∀ j, j < 16 → (d.leaf (16 * b + j)).misses = [] ∧ (d.lee (16 * b + j)).mem = []) (hlock : (d.bough b).lock = some c)
    (hfetch : c.fetching = true) (hend : c.ending = false) (hleft : c.left = 1) (hfirst : c.firstFail = none) (htxns : (d.bough b).txns = [t])
    (hline : t.line = c.next) (hfill : t.filled = some (g, ep, x)) (hx : x.poison = false) (hv : ((d.bough b).line c.next).valid = false)
    (hl : ((d.bough b).line c.next).locked = false)
    (hw : (d.bough b).chooseWay c.next ((d.bough b).lockWays c.next c.ways) = some (w, none)) :
    lockFetchEff i d = d.lineLocked b t c (((d.bough b).line c.next).placed g ep x w (d.bough b).clock) := by
  subst hb
  rw [← hline] at hv hl hw ⊢
  have htxn : (d.bough (d.boughAt i)).txn c.next = some t := by
    rw [Bough.txn, htxns, List.find?_cons_of_pos (by rw [hline]; exact beq_self_eq_true _)]
  have hways : ((d.bough (d.boughAt i)).lockWays t.line c.ways).isEmpty = false := by
    cases h : (d.bough (d.boughAt i)).lockWays t.line c.ways with
    | nil => rw [h, Bough.chooseWay_nil] at hw; cases hw
    | cons _ _ => rfl
  unfold lockFetchEff
  dsimp only
  rw [hlock]
  dsimp only
  rw [htxn, Option.bind_some, hfill, Option.map_some]
  dsimp only
  rw [ha, hfetch, hx, hways, Dev.placeFill_locks g ep x hi hon hv hl hw, if_neg (by simp), if_neg (by simp),
    if_neg Bool.false_ne_true, if_neg Bool.false_ne_true]
  dsimp only
  rw [if_pos rfl, Dev.lockOutcome_locked]
  exact Dev.lockCounted_goes hend hleft hfirst ((Dev.l3On_of_stays (Dev.linePlaced_stays (K := fun _ => true) d _ t _) rfl rfl _).trans hon)
    (Dev.linePlaced_txns htxns _) hidle

theorem Dev.lockCounted_locked (d : Dev) (b : Nat) (c : LockCmd) : (d.lockCounted b c).get L3C_LOCK_STAT.LOCKED (d.boughSite b) =
    (d.get L3C_LOCK_STAT.LOCKED (d.boughSite b) + 1) % 2 ^ 24 :=
  ((Dev.modBough_stays (K := fun _ => true) _ b _).get L3C_LOCK_STAT.LOCKED _ 0 rfl).trans (Dev.get_put_same _ _ _ _ _ (by decide) (by decide))

theorem Dev.lockEnd_bough (d : Dev) (b st : Nat) : (d.lockEnd b st).bough b = { d.bough b with lock := none } :=
  Dev.bough_modBough d b fun x => { x with lock := none }

theorem Dev.lockEnd_stays (d : Dev) (b st : Nat) : d.Stays (· != .L3C_LOCK_STAT) (d.lockEnd b st) :=
  (((Dev.modBough_stays d b _).trans (.put _ L3C_LOCK_STAT.BUSY 0 _ 0 rfl)).trans (.put _ L3C_LOCK_STAT.DONE 1 _ 0 rfl)).trans
    (.put _ L3C_LOCK_STAT.STATUS st _ 0 rfl)

/-- What L3C_LOCK_STAT shows of a command that has ended. -/
theorem Dev.lockEnd_stat (d : Dev) (b st : Nat) : (d.lockEnd b st).flag L3C_LOCK_STAT.DONE (d.boughSite b) = true
    ∧ (d.lockEnd b st).flag L3C_LOCK_STAT.BUSY (d.boughSite b) = false
    ∧ (d.lockEnd b st).get L3C_LOCK_STAT.STATUS (d.boughSite b) = st % 2 ^ 8
    ∧ (d.lockEnd b st).get L3C_LOCK_STAT.LOCKED (d.boughSite b) = d.get L3C_LOCK_STAT.LOCKED (d.boughSite b) := by
  unfold Dev.lockEnd Dev.flag
  dsimp only
  refine ⟨?_, ?_, ?_, ?_⟩
  · rw [Dev.get_put_apart _ _ L3C_LOCK_STAT.DONE _ _ _ _ _ (by decide), Dev.get_put_same _ _ _ _ _ (by decide) (by decide)]
    rfl
  · rw [Dev.get_put_apart _ _ L3C_LOCK_STAT.BUSY _ _ _ _ _ (by decide), Dev.get_put_apart _ _ L3C_LOCK_STAT.BUSY _ _ _ _ _ (by decide),
      Dev.get_put_same _ _ _ _ _ (by decide) (by decide)]
    rfl
  · rw [Dev.get_put_same _ _ _ _ _ (by decide) (by decide)]
    rfl
  · rw [Dev.get_put_apart _ _ L3C_LOCK_STAT.LOCKED _ _ _ _ _ (by decide), Dev.get_put_apart _ _ L3C_LOCK_STAT.LOCKED _ _ _ _ _ (by decide),
      Dev.get_put_apart _ _ L3C_LOCK_STAT.LOCKED _ _ _ _ _ (by decide)]
    exact (Dev.modBough_stays (K := fun _ => true) d b _).get L3C_LOCK_STAT.LOCKED _ 0 rfl

theorem Dev.lineLocked_bough (d : Dev) (b : Nat) (t : BoughTxn) (c : LockCmd) (l : L3Line) : (d.lineLocked b t c l).bough b =
    { ({ d.bough b with txns := (d.bough b).txns.filter fun z => z.line != t.line } : Bough).setLine t.line l with lock := none } := by
  rw [Dev.lineLocked, Dev.lockEnd_bough, Dev.lockCounted_bough, Dev.linePlaced_bough]

theorem Dev.lineLocked_stays (d : Dev) (b : Nat) (t : BoughTxn) (c : LockCmd) (l : L3Line) :
    d.Stays (· != .L3C_LOCK_STAT) (d.lineLocked b t c l) :=
  ((d.linePlaced_stays b t l).trans (Dev.lockCounted_stays _ b c)).trans (Dev.lockEnd_stays _ b 0)

/-- The line lies in its place, its request and the command are over, its home is told, and the line is counted (R153). -/
theorem Dev.lineLocked_spec (d : Dev) (b : Nat) (t : BoughTxn) (c : LockCmd) (l : L3Line) :
    ((d.lineLocked b t c l).bough b).line t.line = l ∧ ((d.bough b).txns = [t] → ((d.lineLocked b t c l).bough b).txns = [])
      ∧ ((d.lineLocked b t c l).bough b).lock = none ∧ (d.lineLocked b t c l).packets = d.packets ++ [.compAck b t.line]
      ∧ (d.lineLocked b t c l).flag L3C_LOCK_STAT.DONE (d.boughSite b) = true
      ∧ (d.lineLocked b t c l).flag L3C_LOCK_STAT.BUSY (d.boughSite b) = false
      ∧ (d.lineLocked b t c l).get L3C_LOCK_STAT.STATUS (d.boughSite b) = 0
      ∧ (d.lineLocked b t c l).get L3C_LOCK_STAT.LOCKED (d.boughSite b) = (d.get L3C_LOCK_STAT.LOCKED (d.boughSite b) + 1) % 2 ^ 24 := by
  have hplaced : (d.linePlaced b t l).boughSite b = d.boughSite b := Dev.boughSite_of_stays (d.linePlaced_stays (K := fun _ => true) b t l) rfl b
  have hsite : ((d.linePlaced b t l).lockCounted b c).boughSite b = d.boughSite b :=
    (Dev.boughSite_of_stays (Dev.lockCounted_stays _ b c) rfl b).trans hplaced
  obtain ⟨hdone, hbusy, hstatus, hlocked⟩ := ((d.linePlaced b t l).lockCounted b c).lockEnd_stat b 0
  rw [hsite] at hdone hbusy hstatus hlocked
  have hcount := (d.linePlaced b t l).lockCounted_locked b c
  rw [hplaced] at hcount
  refine ⟨?_, fun h => ?_, congrArg Bough.lock (d.lineLocked_bough b t c l), d.linePlaced_packets b t l, hdone, hbusy, hstatus,
    hlocked.trans hcount⟩
  · rw [Dev.lineLocked_bough]
    exact Bough.line_setLine _ _ _
  · exact (congrArg Bough.txns (Dev.lockEnd_bough _ b 0)).trans
      ((congrArg Bough.txns (Dev.lockCounted_bough _ b c)).trans (Dev.linePlaced_txns h l))

/-! ### Changes of the lines of a bough -/

/-- What a change of a bough's lines leaves of a package: all but the lines and the leaves. -/
structure Dev.Relines (b : Nat) (d d' : Dev) : Prop where
  rest : d' = { d with leaves := d'.leaves, boughs := d'.boughs }
  bough : d'.bough b = { d.bough b with lines := (d'.bough b).lines }

namespace Dev.Relines

variable {b : Nat} {d d' d'' : Dev}

theorem refl (b : Nat) (d : Dev) : d.Relines b d := ⟨rfl, rfl⟩

theorem trans (h : d.Relines b d') (h' : d'.Relines b d'') : d.Relines b d'' := ⟨by rw [h'.rest, h.rest], by rw [h'.bough, h.bough]⟩

theorem modLine (d : Dev) (b line : Nat) (f : L3Line → L3Line) : d.Relines b (d.modLine b line f) := by
  refine ⟨rfl, ?_⟩
  rw [Dev.modLine, Dev.bough_modBough]
  rfl

theorem clearResv (d : Dev) (b line : Nat) (keep : Option Nat) : d.Relines b (d.clearResv line keep) := by
  rw [d.clearResv_frame]
  exact ⟨rfl, rfl⟩

theorem regs (h : d.Relines b d') : d'.regs = d.regs := by rw [h.rest]

theorem txns (h : d.Relines b d') : (d'.bough b).txns = (d.bough b).txns := by rw [h.bough]

theorem evb (h : d.Relines b d') : (d'.bough b).evb = (d.bough b).evb := by rw [h.bough]

theorem stays {K : RegName → Bool} (h : d.Relines b d') : d.Stays K d' := by
  rw [h.rest]
  exact ⟨rfl, rfl, rfl, fun _ _ => rfl⟩

end Dev.Relines

theorem Dev.mem_lines_modLine {d : Dev} {b line : Nat} {f : L3Line → L3Line} {q : Nat × L3Line} (h : q ∈ ((d.modLine b line f).bough b).lines) :
    q = (line, f ((d.bough b).line line)) ∨ (q ∈ (d.bough b).lines ∧ q.1 ≠ line) := by
  rw [Dev.modLine, Dev.bough_modBough] at h
  exact KMap.mem_set _ _ _ _ _ _ h

/-- A line is one of those listed, or the line of no copy. -/
theorem Bough.line_mem (x : Bough) (k : Nat) : x.line k = {} ∨ (k, x.line k) ∈ x.lines :=
  KMap.find_mem ({} : L3Line) k x.lines

/-! ### UNLOCK -/

/-- An ordinary line again; a locked tag without a line goes. -/
def L3Line.unlocked (l : L3Line) : L3Line := if l.valid then { l with locked := false } else {}

theorem L3Line.unlocked_locked (l : L3Line) : l.unlocked.locked = false := by unfold L3Line.unlocked; split <;> rfl

theorem L3Line.unlocked_of_valid {l : L3Line} (h : l.valid = true) : l.unlocked = { l with locked := false } := if_pos h

theorem L3Line.unlocked_unlocked (l : L3Line) : l.unlocked.unlocked = l.unlocked := by
  cases h : l.valid with
  | true =>
    rw [L3Line.unlocked_of_valid h]
    exact L3Line.unlocked_of_valid h
  | false =>
    have he : l.unlocked = {} := if_neg (by rw [h]; exact Bool.false_ne_true)
    rw [he]
    rfl

/-- An entry of a bough's lines is locked in a way of the mask. -/
def lockedIn (ways : Nat) (p : Nat × L3Line) : Bool := p.2.locked && bit ways p.2.way

/-- The lines of some entries that are locked in the ways of a mask are ordinary again. -/
def Dev.unlockLines (d : Dev) (b ways : Nat) (ps : List (Nat × L3Line)) : Dev :=
  ps.foldl (fun d p => if lockedIn ways p then d.modLine b p.1 L3Line.unlocked else d) d

/-- A mask with the bits of another cleared. -/
def clearWays (ways m : Nat) : Nat := (List.range 16).foldl (fun m w => if bit ways w then setBit m w false else m) m

theorem Dev.unlockWays_eq (d : Dev) (b ways : Nat) : d.unlockWays b ways = (d.unlockLines b ways (d.bough b).lines).put L3C_LOCK_WAYS.WAYS
    (clearWays ways ((d.unlockLines b ways (d.bough b).lines).get L3C_LOCK_WAYS.WAYS (d.boughSite b))) (d.boughSite b) := rfl

theorem bit_setBit_false_eq (m b c : Nat) : bit (setBit m b false) c = (bit m c && !(c == b)) := by
  by_cases h : c = b
  · rw [h, bit_setBit_false, beq_self_eq_true, Bool.not_true, Bool.and_false]
  · rw [bit_setBit_false_other m h, beq_eq_false_iff_ne.2 h, Bool.not_false, Bool.and_true]

theorem bit_foldl_clear (ways w : Nat) (ws : List Nat) (m : Nat) :
    bit (ws.foldl (fun m w => if bit ways w then setBit m w false else m) m) w = (bit m w && !(ws.contains w && bit ways w)) := by
  induction ws generalizing m with
  | nil => simp
  | cons v ws ih =>
    rw [List.foldl_cons, ih, List.contains_cons]
    cases hv : bit ways v with
    | true =>
      rw [if_pos rfl, bit_setBit_false_eq]
      by_cases hw : w = v
      · rw [hw, hv, beq_self_eq_true]
        simp
      · rw [beq_eq_false_iff_ne.2 hw]
        simp
    | false =>
      rw [if_neg Bool.false_ne_true]
      by_cases hw : w = v
      · rw [hw, hv]
        simp
      · rw [beq_eq_false_iff_ne.2 hw, Bool.false_or]

theorem bit_clearWays (ways m : Nat) {w : Nat} (h : w < 16) : bit (clearWays ways m) w = (bit m w && !bit ways w) := by
  have hmem : (List.range 16).contains w = true := List.contains_iff_mem.2 (List.mem_range.2 h)
  rw [clearWays, bit_foldl_clear, hmem, Bool.true_and]

theorem bit_mod_of_lt (m : Nat) {n w : Nat} (h : w < n) : bit (m % 2 ^ n) w = bit m w := by
  rw [bit, Nat.testBit_mod_two_pow, decide_eq_true h, Bool.true_and, bit]

theorem Dev.unlockLines_relines (d : Dev) (b ways : Nat) (ps : List (Nat × L3Line)) : d.Relines b (d.unlockLines b ways ps) :=
  List.foldlRecOn (motive := fun e : Dev => d.Relines b e) _ _ (.refl b d) fun e he p _ => by
    split
    · exact he.trans (.modLine e b _ _)
    · exact he

theorem Dev.unlockLines_leaves (d : Dev) (b ways : Nat) (ps : List (Nat × L3Line)) : (d.unlockLines b ways ps).leaves = d.leaves :=
  List.foldlRecOn (motive := fun e : Dev => e.leaves = d.leaves) _ _ rfl fun e he p _ => by
    split <;> exact he

/-- A line changes where an entry names it that is locked in the ways of the mask. -/
theorem Dev.unlockLines_line (d : Dev) (b ways : Nat) (ps : List (Nat × L3Line)) (k : Nat) : ((d.unlockLines b ways ps).bough b).line k =
    if ps.any (fun p => p.1 == k && lockedIn ways p) then ((d.bough b).line k).unlocked else (d.bough b).line k := by
  induction ps generalizing d with
  | nil => rfl
  | cons p ps ih =>
    have hcons : d.unlockLines b ways (p :: ps) =
        (if lockedIn ways p then d.modLine b p.1 L3Line.unlocked else d).unlockLines b ways ps := rfl
    rw [hcons, ih, List.any_cons]
    cases hp : lockedIn ways p with
    | false => rw [if_neg Bool.false_ne_true, Bool.and_false, Bool.false_or]
    | true =>
      rw [if_pos rfl, Bool.and_true]
      by_cases hk : p.1 = k
      · rw [← hk, Dev.line_modLine, L3Line.unlocked_unlocked, beq_self_eq_true, Bool.true_or, if_pos rfl, ite_self]
      · rw [Dev.line_modLine_other _ _ _ (Ne.symm hk), beq_eq_false_iff_ne.2 hk, Bool.false_or]

/-- No line stays locked in the ways, and every line keeps its data and its state (R157). -/
theorem Dev.unlockLines_spec (d : Dev) (b ways : Nat) :
    (∀ k, (((d.unlockLines b ways (d.bough b).lines).bough b).line k).locked = true →
      bit ways (((d.unlockLines b ways (d.bough b).lines).bough b).line k).way = false)
    ∧ ∀ k, ((d.bough b).line k).valid = true →
      (((d.unlockLines b ways (d.bough b).lines).bough b).line k).data = ((d.bough b).line k).data
        ∧ (((d.unlockLines b ways (d.bough b).lines).bough b).line k).st = ((d.bough b).line k).st := by
  refine ⟨fun k hl => ?_, fun k hv => ?_⟩
  · rw [Dev.unlockLines_line] at hl ⊢
    split at hl
    · rw [L3Line.unlocked_locked] at hl
      cases hl
    · rename_i hany
      rw [if_neg hany]
      obtain hdef | hmem := (d.bough b).line_mem k
      · rw [hdef] at hl
        cases hl
      · rw [List.any_eq_true] at hany
        by_contra hbit
        exact hany ⟨_, hmem, by simp [lockedIn, hl, hbit]⟩
  · rw [Dev.unlockLines_line]
    split
    · rw [L3Line.unlocked_of_valid hv]
      exact ⟨rfl, rfl⟩
    · exact ⟨rfl, rfl⟩

theorem unlockEff_free {d : Dev} {i b : Nat} (ways : Nat) (ha : d.siteActive i = true) (hb : d.boughAt i = b) (hlock : (d.bough b).lock = none) :
    unlockEff i ways d = (d.unlockWays b (ways % 2 ^ 16)).lockRefuse i 0 := by
  unfold unlockEff
  dsimp only
  rw [hb, hlock, if_neg (by simp [ha]), if_neg (by simp)]

/-- What UNLOCK leaves: no line locked in its ways, which are locked no longer, and every line with its data and its state (R157). -/
theorem Dev.unlocked_spec (d : Dev) (i b ways : Nat) (hi : d.boughSite b = i) {f : Dev} (h : f = (d.unlockWays b ways).lockRefuse i 0) :
    f = { d with regs := f.regs, boughs := f.boughs }
      ∧ (∀ k, ((f.bough b).line k).locked = true → bit ways ((f.bough b).line k).way = false)
      ∧ (∀ k, ((d.bough b).line k).valid = true →
        ((f.bough b).line k).data = ((d.bough b).line k).data ∧ ((f.bough b).line k).st = ((d.bough b).line k).st)
      ∧ (∀ w, w < 16 → bit (f.get L3C_LOCK_WAYS.WAYS i) w = (bit (d.get L3C_LOCK_WAYS.WAYS i) w && !bit ways w))
      ∧ f.flag L3C_LOCK_STAT.DONE i = true ∧ f.get L3C_LOCK_STAT.STATUS i = 0 := by
  have hrelines := d.unlockLines_relines b ways (d.bough b).lines
  have hleaves := d.unlockLines_leaves b ways (d.bough b).lines
  obtain ⟨hnone, hlines⟩ := d.unlockLines_spec b ways
  rw [Dev.unlockWays_eq, hi, Dev.get_of_regs hrelines.regs] at h
  generalize d.unlockLines b ways (d.bough b).lines = e at *
  subst h
  refine ⟨?_, hnone, hlines, fun w hw => ?_, ?_, ?_⟩
  · rw [hrelines.rest, hleaves]
    rfl
  · rw [Dev.lockRefuse, Dev.get_put_name _ _ L3C_LOCK_WAYS.WAYS _ _ _ _ _ (by decide),
      Dev.get_put_name _ _ L3C_LOCK_WAYS.WAYS _ _ _ _ _ (by decide), Dev.get_put_same _ _ _ _ _ (by decide) (by decide)]
    exact (bit_mod_of_lt _ hw).trans (bit_clearWays _ _ hw)
  · rw [Dev.lockRefuse, Dev.flag_put_beside _ L3C_LOCK_STAT.STATUS L3C_LOCK_STAT.DONE _ _ _ rfl (by decide) (by decide) (by decide) (by decide)]
    exact Dev.flag_put_same _ _ _ _ _ (by decide) (by decide)
  · exact Dev.get_put_same _ _ _ _ _ (by decide) (by decide)

end Sys2Proof.Machine
end

section
/-!
PROOFS. Disabling and enabling a bough's L3 (spec/06, R158 to R160).
-/

namespace Sys2Proof.Machine

/-! ### L3_DISABLE -/

/-- No entry of a bough's lines has dirty data in the data array alone. -/
def Dev.clean (d : Dev) (b : Nat) : Prop := ∀ p ∈ (d.bough b).lines, p.2.dirtyHere = false

/-- The data array holds nothing of the line. -/
def L3Line.gated (l : L3Line) : Prop := l.valid = true → l.hasData = false

theorem L3Line.gated.clean {l : L3Line} (h : l.gated) : l.dirtyHere = false := by
  cases hv : l.valid with
  | true => rw [L3Line.dirtyHere, h hv, Bool.and_false, Bool.false_and]
  | false =>
    have hst : l.st = .invalid := by simpa [L3Line.valid] using hv
    rw [L3Line.dirtyHere, hst]
    rfl

theorem L3Line.dirtyHere_unlocked {l : L3Line} (h : l.dirtyHere = false) : l.unlocked.dirtyHere = false := by
  unfold L3Line.unlocked
  split
  · exact h
  · rfl

theorem Dev.clean.line {d : Dev} {b : Nat} (h : d.clean b) (k : Nat) : ((d.bough b).line k).dirtyHere = false := by
  obtain hdef | hmem := (d.bough b).line_mem k
  · rw [hdef]
    rfl
  · exact h _ hmem

theorem Dev.unlockLines_clean {d : Dev} {b : Nat} (h : d.clean b) (ways : Nat) (ps : List (Nat × L3Line)) : (d.unlockLines b ways ps).clean b :=
  List.foldlRecOn (motive := fun e : Dev => e.clean b) _ _ h fun e he p _ => by
    split
    · intro q hq
      obtain rfl | ⟨hmem, -⟩ := Dev.mem_lines_modLine hq
      · exact L3Line.dirtyHere_unlocked (he.line _)
      · exact he q hmem
    · exact he

/-- What a flush that starts does with one entry. -/
def Dev.gateLine (b : Nat) (d : Dev) (p : Nat × L3Line) : Dev :=
  if p.2.dirtyHere || ((d.bough b).txn p.1).isSome then d
  else if p.2.twigs.isEmpty then (d.clearResv p.1 none).modLine b p.1 fun _ => {}
  else d.modLine b p.1 fun l => { l with hasData := false }

/-- A flush has started, and no line is handled yet. -/
def Dev.flushing (d : Dev) (b : Nat) : Dev := (d.unlockWays b 0xFFFF).put L3C_STAT.FLUSHING 1 (d.boughSite b)

theorem Dev.startFlush_eq (d : Dev) (b : Nat) :
    d.startFlush b = (((d.flushing b).bough b).lines.foldl (Dev.gateLine b) (d.flushing b)).flushGo b := rfl

/-- A clean entry of a bough with no request outstanding leaves the data array. -/
theorem Dev.gateLine_spec {b : Nat} {d : Dev} {p : Nat × L3Line} (hp : p.2.dirtyHere = false) (ht : (d.bough b).txns = []) :
    d.Relines b (d.gateLine b p) ∧ ∀ q ∈ ((d.gateLine b p).bough b).lines, q.2.gated ∨ (q ∈ (d.bough b).lines ∧ q ≠ p) := by
  have htxn : (d.bough b).txn p.1 = none := by rw [Bough.txn, ht, List.find?_nil]
  unfold Dev.gateLine
  rw [hp, htxn, if_neg (by simp)]
  split
  · refine ⟨(Dev.Relines.clearResv d b _ _).trans (.modLine _ b _ _), fun q hq => ?_⟩
    obtain rfl | ⟨hmem, hne⟩ := Dev.mem_lines_modLine hq
    · exact .inl fun h => Bool.noConfusion h
    · rw [Dev.bough, Dev.boughs_clearResv, ← Dev.bough] at hmem
      exact .inr ⟨hmem, fun e => hne (congrArg Prod.fst e)⟩
  · refine ⟨.modLine d b _ _, fun q hq => ?_⟩
    obtain rfl | ⟨hmem, hne⟩ := Dev.mem_lines_modLine hq
    · exact .inl fun _ => rfl
    · exact .inr ⟨hmem, fun e => hne (congrArg Prod.fst e)⟩

/-- Once every entry is handled, the data array holds no line. -/
theorem Dev.gateLines_spec {b : Nat} (ps : List (Nat × L3Line)) {d : Dev} (hps : ∀ p ∈ ps, p.2.dirtyHere = false) (ht : (d.bough b).txns = [])
    (hd : ∀ q ∈ (d.bough b).lines, q.2.gated ∨ q ∈ ps) :
    d.Relines b (ps.foldl (Dev.gateLine b) d) ∧ ∀ q ∈ ((ps.foldl (Dev.gateLine b) d).bough b).lines, q.2.gated := by
  induction ps generalizing d with
  | nil => exact ⟨.refl b d, fun q hq => (hd q hq).resolve_right List.not_mem_nil⟩
  | cons p ps ih =>
    rw [List.forall_mem_cons] at hps
    obtain ⟨hrelines, hlines⟩ := d.gateLine_spec hps.1 ht
    obtain ⟨hrest, hgated⟩ := ih hps.2 (hrelines.txns.trans ht) fun q hq => by
      obtain hq | ⟨hmem, hne⟩ := hlines q hq
      · exact .inl hq
      · exact (hd q hmem).imp_right fun h => (List.mem_cons.1 h).resolve_left hne
    exact ⟨hrelines.trans hrest, hgated⟩

/-- A flush with nothing left to write back is over at once. -/
theorem Dev.flushGo_clean {d : Dev} {b : Nat} (hf : d.flag L3C_STAT.FLUSHING (d.boughSite b) = true) (hevb : (d.bough b).evb = []) (hc : d.clean b) :
    d.flushGo b = (d.put L3C_STAT.FLUSHING 0 (d.boughSite b)).put L3C_STAT.DISABLED 1 (d.boughSite b) := by
  have horder (sl : Nat) : (d.bough b).lines.filter (fun p => p.2.dirtyHere && l3Slice p.1 == sl) = [] :=
    List.filter_eq_nil_iff.2 fun p hp => by rw [hc p hp]; exact Bool.false_ne_true
  have hany : (d.bough b).lines.any (fun p => p.2.dirtyHere) = false := List.any_eq_false.2 fun p hp => by rw [hc p hp]; exact Bool.false_ne_true
  have hnone : (List.range 8).flatMap (fun sl => ((d.bough b).lines.filter fun p => p.2.dirtyHere && l3Slice p.1 == sl).foldl
      (fun l p => insertBySet p.1 l) []) = [] := List.flatMap_eq_nil_iff.2 fun sl _ => by rw [horder]; rfl
  unfold Dev.flushGo
  dsimp only
  rw [hf, hnone, if_neg (by simp), List.foldl_nil, hevb, hany, if_pos (by simp)]

/-- The disable of an array with nothing dirty is over at once, and no line has data in the array. -/
theorem Dev.startFlush_clean {d : Dev} {b : Nat} (hevb : (d.bough b).evb = []) (ht : (d.bough b).txns = []) (hc : d.clean b) :
    ∃ e : Dev, d.startFlush b = (e.put L3C_STAT.FLUSHING 0 (d.boughSite b)).put L3C_STAT.DISABLED 1 (d.boughSite b)
      ∧ d.Stays (fun n => n != .L3C_LOCK_WAYS && n != .L3C_STAT) e ∧ ∀ k, ((e.bough b).line k).gated := by
  have hunlock := d.unlockLines_relines b 0xFFFF (d.bough b).lines
  have hstays : d.Stays (fun n => n != .L3C_LOCK_WAYS && n != .L3C_STAT) (d.flushing b) :=
    (hunlock.stays.trans (.put _ L3C_LOCK_WAYS.WAYS _ _ 0 rfl)).trans (.put _ L3C_STAT.FLUSHING 1 _ 0 rfl)
  have hclean : (d.flushing b).clean b := Dev.unlockLines_clean hc 0xFFFF _
  have hflag : (d.flushing b).flag L3C_STAT.FLUSHING (d.boughSite b) = true := Dev.flag_put_same _ _ _ _ _ (by decide) (by decide)
  obtain ⟨hgate, hgated⟩ := Dev.gateLines_spec ((d.flushing b).bough b).lines (d := d.flushing b) hclean (hunlock.txns.trans ht) fun _ h => .inr h
  have hsite : (((d.flushing b).bough b).lines.foldl (Dev.gateLine b) (d.flushing b)).boughSite b = d.boughSite b :=
    Dev.boughSite_of_stays (hstays.trans hgate.stays) rfl b
  refine ⟨((d.flushing b).bough b).lines.foldl (Dev.gateLine b) (d.flushing b), ?_, hstays.trans hgate.stays, fun k => ?_⟩
  · rw [Dev.startFlush_eq, Dev.flushGo_clean ?_ (hgate.evb.trans (hunlock.evb.trans hevb)) fun p hp => (hgated p hp).clean, hsite]
    rw [hsite, Dev.flag_of_regs hgate.regs, hflag]
  · obtain hdef | hmem := Bough.line_mem ((((d.flushing b).bough b).lines.foldl (Dev.gateLine b) (d.flushing b)).bough b) k
    · rw [hdef]
      exact fun h => Bool.noConfusion h
    · exact hgated _ hmem

theorem l3DisableEff_inService {d : Dev} {i b : Nat} (ha : d.siteActive i = true) (hb : d.boughAt i = b) (hen : d.flag L3C_CTL.EN i = true)
    (hd : d.flag L3C_STAT.DISABLED i = false) (hlock : (d.bough b).lock = none) :
    l3DisableEff i d = (d.put L3C_CTL.EN 0 i).startFlush b := by
  have hlock' : ((d.put L3C_CTL.EN 0 i).bough b).lock = none := hlock
  unfold l3DisableEff
  dsimp only
  rw [hb, if_neg (by simp [ha, hen]), Dev.flag_put_name _ _ L3C_STAT.DISABLED _ _ _ _ _ (by decide), hd, if_neg Bool.false_ne_true, hlock']

/-! ### L3_ENABLE -/

theorem l3EnableEff_ignored {d : Dev} {i : Nat} (ha : d.siteActive i = true) (hen : d.flag L3C_CTL.EN i = false)
    (hd : d.flag L3C_STAT.DISABLED i = false) : l3EnableEff i d = d.put L3C_STAT.EN_IGN 1 i := by
  rw [l3EnableEff, ha, hen, hd, if_neg (by simp), if_neg Bool.false_ne_true]

theorem l3EnableEff_disabled {d : Dev} {i : Nat} (ha : d.siteActive i = true) (hen : d.flag L3C_CTL.EN i = false)
    (hd : d.flag L3C_STAT.DISABLED i = true) : l3EnableEff i d = d.put L3C_CTL.EN 1 i := by
  rw [l3EnableEff, ha, hen, hd, if_neg (by simp), if_pos rfl]

/-- The line once the data array is empty: a tag that marks no data. -/
def L3Line.dataless (l : L3Line) : L3Line := if l.valid then { l with hasData := false } else l

/-- Values that change key by key, and of which the default stays, are found changed. -/
theorem KMap.find_map_snd {κ α : Type} [DecidableEq κ] (dflt : α) (f : α → α) (hf : f dflt = dflt) (k : κ) :
    ∀ m : KMap κ α, KMap.find dflt (m.map fun p => (p.1, f p.2)) k = f (m.find dflt k)
  | [] => hf.symm
  | (k', a) :: m => by
    unfold KMap.find
    rw [List.map_cons]
    dsimp only
    split
    · rfl
    · exact KMap.find_map_snd dflt f hf k m

/-- The data array is in service, and empty. -/
def Dev.l3Enabled (d : Dev) (i b : Nat) : Dev :=
  (d.modBough b fun x => { x with lines := x.lines.map fun p => (p.1, p.2.dataless) }).put L3C_STAT.DISABLED 0 i

theorem Dev.l3Enabled_bough (d : Dev) (i b : Nat) :
    (d.l3Enabled i b).bough b = { d.bough b with lines := (d.bough b).lines.map fun p => (p.1, p.2.dataless) } :=
  Dev.bough_modBough d b fun x => { x with lines := x.lines.map fun p => (p.1, p.2.dataless) }

theorem l3EnableDoneEff_enabled {d : Dev} {i b : Nat} (ha : d.siteActive i = true) (hb : d.boughAt i = b) (hen : d.flag L3C_CTL.EN i = true)
    (hd : d.flag L3C_STAT.DISABLED i = true) (hlock : (d.bough b).lock = none) : l3EnableDoneEff i d = d.l3Enabled i b := by
  unfold l3EnableDoneEff
  rw [ha, hen, hd, if_pos (by rfl)]
  dsimp only
  rw [hb]
  exact Dev.lockGo_none ((congrArg Bough.lock (d.l3Enabled_bough i b)).trans hlock)

/-- Settles O33, clause by clause: a preload that fetches its first line, one that would lock too many ways, the return of the last line, UNLOCK, a
disable with nothing dirty, an enable during a disable and one after it, and the end of the enable. -/
theorem theL3LocksAndIsDisabled : Obligations.TheL3LocksAndIsDisabled := by
  unfold Obligations.TheL3LocksAndIsDisabled
  refine ⟨fun s i ways b hp ha hb hi hen hlock hm hlen hend hways hon hv htxn hevb hok hfree => ?fetches,
    fun s i ways hp ha hlock hm hlen hend hways => ?tooMany,
    fun s i b w c t g ep x hp ha hb hi hiso hon hidle hlock hfetch hend hleft hfirst htxns hline hfill hx hv hl hw => ?returns,
    fun s i ways b hp ha hb hi hlock => ?unlocks, fun s i b hp ha hb hi hen hd hlock hevb htxns hc => ?disables,
    fun s i hp ha hen hd => ?ignored, fun s i hp ha hen hd => ?enables, fun s i b hp ha hb hen hd hlock => ?enabled⟩
  case fetches =>
    have heff := preloadLockEff_fetches ha hb hi hen hlock hm hlen hend rfl hways hon hv htxn hevb hok hfree
    have hmask : (ways % 2 ^ 16 ||| s.dev.get L3C_LOCK_WAYS.WAYS i) % 2 ^ 16 = ways % 2 ^ 16 ||| s.dev.get L3C_LOCK_WAYS.WAYS i :=
      Nat.mod_eq_of_lt (Nat.or_lt_two_pow (Nat.mod_lt _ (by decide)) (Word.bits_lt _ 15 0))
    obtain ⟨hframe, hbusy, hdone, hlocked, hall, hspec⟩ := s.dev.lockStarted_fetching b i _ _ heff
    exact ⟨_, exec_of_powered (f := preloadLockEff i ways) rfl hp rfl (by rw [hframe]) (by rw [hframe]), hframe, hbusy, hdone, hlocked,
      hall.trans hmask, hspec⟩
  case tooMany =>
    exact exec_of_powered (f := preloadLockEff i ways) rfl hp (preloadLockEff_tooMany ha hlock hm hlen hend hways) rfl rfl
  case returns =>
    subst hi
    obtain ⟨hline', htxns', hlock', hpackets, hdone, hbusy, hstatus, hlocked⟩ :=
      s.dev.lineLocked_spec b t c (((s.dev.bough b).line c.next).placed g ep x w (s.dev.bough b).clock)
    have hkept := s.dev.lineLocked_stays b t c (((s.dev.bough b).line c.next).placed g ep x w (s.dev.bough b).clock)
    rw [hline] at hline' hpackets
    refine ⟨_, exec_of_powered (f := lockFetchEff (s.dev.boughSite b)) rfl hp
      (lockFetchEff_last ha hb hiso hon hidle hlock hfetch hend hleft hfirst htxns hline hfill hx hv hl hw) hkept.board
      (congrArg Power.unpowered hkept.power), ?_, ?_, ?_, ?_, htxns' htxns, hlock', hpackets, hdone, hbusy, hstatus, hlocked, hkept.mem⟩
    all_goals (rw [hline']; rfl)
  case unlocks =>
    obtain ⟨hframe, hnone, hlines, hmask, hstat⟩ := s.dev.unlocked_spec i b (ways % 2 ^ 16) hi (unlockEff_free ways ha hb hlock)
    refine ⟨_, exec_of_powered (f := unlockEff i ways) rfl hp rfl (by rw [hframe]) (by rw [hframe]), hframe, hnone, hlines, fun w hw => ?_, hstat⟩
    rw [hmask w hw, bit_mod_of_lt _ hw]
  case disables =>
    obtain ⟨e, heq, hstays, hgated⟩ := Dev.startFlush_clean (d := s.dev.put L3C_CTL.EN 0 i) (b := b) hevb htxns hc
    have hsite : (s.dev.put L3C_CTL.EN 0 i).boughSite b = i := (Dev.boughSite_put _ _ _ _ _ _ (by decide)).trans hi
    rw [hsite] at heq
    refine ⟨_, exec_of_powered (f := l3DisableEff i) rfl hp ((l3DisableEff_inService ha hb hen hd hlock).trans heq) hstays.board
      (congrArg Power.unpowered hstays.power), ?_, Dev.flag_put_same _ _ _ _ _ (by decide) (by decide), ?_, hgated, hstays.mem⟩
    · rw [Dev.flag_put_name _ _ L3C_CTL.EN _ _ _ _ _ (by decide), Dev.flag_put_name _ _ L3C_CTL.EN _ _ _ _ _ (by decide),
        hstays.flag L3C_CTL.EN _ _ rfl]
      exact Dev.flag_put_same _ _ _ _ _ (by decide) (by decide)
    · rw [Dev.flag_put_beside _ L3C_STAT.DISABLED L3C_STAT.FLUSHING _ _ _ rfl (by decide) (by decide) (by decide) (by decide)]
      exact Dev.flag_put_same _ _ _ _ _ (by decide) (by decide)
  case ignored =>
    exact exec_of_powered (f := l3EnableEff i) rfl hp (l3EnableEff_ignored ha hen hd) rfl rfl
  case enables =>
    exact exec_of_powered (f := l3EnableEff i) rfl hp (l3EnableEff_disabled ha hen hd) rfl rfl
  case enabled =>
    have hbough := s.dev.l3Enabled_bough i b
    refine ⟨_, exec_of_powered (f := l3EnableDoneEff i) rfl hp (l3EnableDoneEff_enabled ha hb hen hd hlock) rfl rfl, rfl,
      Dev.flag_put_same _ _ _ _ _ (by decide) (by decide), fun line => ?_⟩
    rw [hbough]
    exact KMap.find_map_snd ({} : L3Line) L3Line.dataless rfl line _

end Sys2Proof.Machine
end

section
/-!
PROOFS. Lines of memory (spec/07 and spec/11, R180, R266): what a stored line reads as, what a write of a line leaves alone, and which
registers say where a line lies.
-/

namespace Sys2Proof.Machine

/-! ### Runs of bytes -/

theorem Dev.putBytes_frame (a v n : Nat) (d : Dev) : d.putBytes a v n = { d with mem := (d.putBytes a v n).mem } := by
  induction n generalizing a v d with
  | zero => rfl
  | succ n ih =>
    rw [Dev.putBytes, ih]
    rfl

theorem Dev.byte_of_mem {d d' : Dev} (h : d'.mem = d.mem) (c : Nat) : d'.byte c = d.byte c := by rw [Dev.byte, h, Dev.byte]

/-- A write of a run leaves every byte outside it. -/
theorem Dev.byte_putBytes_outside {a c : Nat} (v n : Nat) (d : Dev) (h : c < a ∨ a + n ≤ c) : (d.putBytes a v n).byte c = d.byte c := by
  induction n generalizing a v d with
  | zero => rfl
  | succ n ih => rw [Dev.putBytes, ih _ _ (by omega), Dev.byte_setByte_other _ _ (by omega)]

theorem Dev.bytesAt_lt (a n : Nat) (d : Dev) : d.bytesAt a n < 256 ^ n := by
  induction n generalizing a with
  | zero => exact Nat.one_pos
  | succ n ih =>
    have hbyte : (d.byte a).toNat < 256 := (d.byte a).isLt
    have htail := ih (a + 1)
    rw [Dev.bytesAt, Nat.pow_succ]
    omega

theorem Dev.bytesAt_congr {d d' : Dev} (h : ∀ c, d'.byte c = d.byte c) (a n : Nat) : d'.bytesAt a n = d.bytesAt a n := by
  induction n generalizing a with
  | zero => rfl
  | succ n ih => rw [Dev.bytesAt, Dev.bytesAt, h, ih]

/-- A run reads as the number that was put there. -/
theorem Dev.bytesAt_putBytes (a v n : Nat) (d : Dev) : (d.putBytes a v n).bytesAt a n = v % 256 ^ n := by
  induction n generalizing a v d with
  | zero => rw [Nat.pow_zero, Nat.mod_one]; rfl
  | succ n ih =>
    rw [Dev.putBytes, Dev.bytesAt, ih, Dev.byte_putBytes_outside _ _ _ (.inl (Nat.lt_succ_self a)), Dev.byte_setByte, BitVec.toNat_ofNat,
      Nat.pow_succ' (n := n), Nat.mod_mul]

/-- A run that is put back as it was read changes no byte. -/
theorem Dev.byte_putBytes_back {d d' : Dev} (h : ∀ c, d'.byte c = d.byte c) (a n c : Nat) :
    (d'.putBytes a (d.bytesAt a n) n).byte c = d.byte c := by
  induction n generalizing a d' with
  | zero => exact h c
  | succ n ih =>
    have hbyte : (d.byte a).toNat < 256 := (d.byte a).isLt
    have hrest : d.bytesAt a (n + 1) / 256 = d.bytesAt (a + 1) n := by rw [Dev.bytesAt]; omega
    have hfirst : BitVec.ofNat 8 (d.bytesAt a (n + 1)) = d.byte a := BitVec.eq_of_toNat_eq (by
      rw [Dev.bytesAt, BitVec.toNat_ofNat]
      omega)
    rw [Dev.putBytes, hrest, hfirst]
    refine ih (fun c => ?_) _
    by_cases hc : c = a
    · rw [hc, Dev.byte_setByte]
    · rw [Dev.byte_setByte_other _ _ hc, h]

/-! ### A line that is stored -/

theorem Dev.storeLine_frame (d : Dev) (line : Nat) (x : LineData) :
    d.storeLine line x = { d with mem := (d.storeLine line x).mem, poison := (d.storeLine line x).poison } := by
  obtain ⟨m, p, h⟩ : ∃ m p, d.storeLine line x = { d with mem := m, poison := p } := by
    unfold Dev.storeLine
    rw [Dev.putBytes_frame]
    exact ⟨_, _, rfl⟩
  rw [h]

theorem Dev.storeLine_channels (d : Dev) (line : Nat) (x : LineData) : (d.storeLine line x).channels = d.channels := by rw [Dev.storeLine_frame]

theorem Dev.storeLine_mem (d : Dev) (line : Nat) (x : LineData) :
    (d.storeLine line x).mem = (d.putBytes (64 * line) x.data.toNat 64).mem := by rw [Dev.storeLine]

theorem Dev.byte_storeLine (d : Dev) (line : Nat) (x : LineData) (c : Nat) :
    (d.storeLine line x).byte c = (d.putBytes (64 * line) x.data.toNat 64).byte c := Dev.byte_of_mem (d.storeLine_mem line x) c

/-- A line is poisoned exactly when it is stored so. -/
theorem Dev.poison_storeLine (d : Dev) (line : Nat) (x : LineData) : (d.storeLine line x).poison.contains line = x.poison := by
  unfold Dev.storeLine
  cases x.poison <;> simp

/-- What is stored is read back. -/
theorem Dev.storedLine_storeLine (d : Dev) (line : Nat) (x : LineData) : (d.storeLine line x).storedLine line = x := by
  have hbytes : (d.storeLine line x).bytesAt (64 * line) 64 = x.data.toNat % 256 ^ 64 :=
    (Dev.bytesAt_congr (d.byte_storeLine line x) _ _).trans (Dev.bytesAt_putBytes _ _ _ _)
  have hdata : BitVec.ofNat 512 (x.data.toNat % 256 ^ 64) = x.data := BitVec.eq_of_toNat_eq (by
    have hlt := x.data.isLt
    rw [BitVec.toNat_ofNat]
    omega)
  rw [Dev.storedLine, hbytes, hdata, Dev.poison_storeLine]

/-- A stored line leaves every other line's bytes. -/
theorem Dev.byte_storeLine_other (d : Dev) {line a : Nat} (x : LineData) (h : a / 64 ≠ line) : (d.storeLine line x).byte a = d.byte a :=
  (d.byte_storeLine line x a).trans (Dev.byte_putBytes_outside _ _ _ (by omega))

/-- A line that is stored back with its data, poisoned or not, changes no byte. -/
theorem Dev.byte_storeLine_back (d : Dev) (line : Nat) (p : Bool) (a : Nat) :
    (d.storeLine line ⟨(d.storedLine line).data, p⟩).byte a = d.byte a := by
  have hdata : (d.storedLine line).data.toNat = d.bytesAt (64 * line) 64 := by
    have hlt := Dev.bytesAt_lt (64 * line) 64 d
    rw [Dev.storedLine, BitVec.toNat_ofNat]
    omega
  rw [Dev.byte_storeLine, hdata]
  exact Dev.byte_putBytes_back (fun _ => rfl) _ _ _

/-! ### Where a line lies -/

/-- The registers that place the lines of DRAM and say what a channel takes. -/
def memoryRegs : RegName → Bool
  | .TRK_CAP | .MEM_IL | .MEM_CFG | .MEM_STAT | .MEM_CTL | .MEM_TRAIN | .MEM_BIST => true
  | _ => false

/-- The registers of memory are as they were. -/
def Dev.SameMemory (d d' : Dev) : Prop := ∀ r : Reg, memoryRegs r.name = true → d'.reg r = d.reg r

namespace Dev.SameMemory

variable {d d' : Dev}

theorem of_regs (h : d'.regs = d.regs) : d.SameMemory d' := fun r _ => Dev.reg_of_regs h r

theorem trans {d'' : Dev} (h : d.SameMemory d') (h' : d'.SameMemory d'') : d.SameMemory d'' := fun r hr => (h' r hr).trans (h r hr)

theorem get (h : d.SameMemory d') (f : Fld) (u k : Nat) (hf : memoryRegs f.reg = true) : d'.get f u k = d.get f u k := by
  rw [Dev.get, h _ hf, Dev.get]

theorem flag (h : d.SameMemory d') (f : Fld) (u k : Nat) (hf : memoryRegs f.reg = true) : d'.flag f u k = d.flag f u k := by
  rw [Dev.flag, h.get f u k hf, Dev.flag]

theorem channelOf (h : d.SameMemory d') (a : Nat) : d'.channelOf a = d.channelOf a := by
  have hset (g : Bool) (c : Nat) : d'.interleaveSet g c = d.interleaveSet g c := by simp only [Dev.interleaveSet, h.get MEM_IL.N _ _ rfl]
  simp only [Dev.channelOf, hset, h.flag TRK_CAP.GIL _ _ rfl, h.get MEM_CFG.CAP _ _ rfl]

theorem homeOfLine (h : d.SameMemory d') (line : Nat) : d'.homeOfLine line = d.homeOfLine line := by
  simp only [Dev.homeOfLine, Dev.homeOf, h.channelOf]

theorem memDead (h : d.SameMemory d') {line : Nat} (hr : rangeOf (64 * line) = .dram) : d'.memDead line = d.memDead line := by
  simp only [Dev.memDead, hr, h.channelOf, h.get MEM_STAT.STATE _ _ rfl]

theorem channelTakes (h : d.SameMemory d') (hc : d'.channels = d.channels) (m : Nat) (trace : Bool) :
    d'.channelTakes m trace = d.channelTakes m trace := by
  have hchannel : d'.channel m = d.channel m := by rw [Dev.channel, hc, Dev.channel]
  have hholds : d'.channelHolds m = d.channelHolds m := by
    simp only [Dev.channelHolds, h.flag MEM_CTL.QUIESCE _ _ rfl, h.flag MEM_TRAIN.BUSY _ _ rfl, h.flag MEM_BIST.BUSY _ _ rfl,
      h.get MEM_STAT.STATE _ _ rfl]
  rw [Dev.channelTakes, hchannel, hholds, Dev.channelTakes]

end Dev.SameMemory

theorem Dev.storedLine_of {d d' : Dev} (hm : d'.mem = d.mem) (hp : d'.poison = d.poison) (line : Nat) : d'.storedLine line = d.storedLine line := by
  rw [Dev.storedLine, Dev.bytesAt_congr (Dev.byte_of_mem hm), hp, Dev.storedLine]

/-! ### Lines of DRAM -/

section
variable {d : Dev} {line : Nat}

theorem cxlPort_of_dram (hr : rangeOf (64 * line) = .dram) : cxlPort line = none := by
  rw [cxlPort, hr]
  rfl

theorem Dev.memDead_of_serving {m r : Nat} (hr : rangeOf (64 * line) = .dram) (hc : d.channelOf (64 * line) = some (m, r))
    (hs : d.get MEM_STAT.STATE m ≠ 4) : d.memDead line = false := by
  rw [Dev.memDead, hr, hc]
  exact beq_eq_false_iff_ne.2 hs

/-- Where its channel has not FAILED, DRAM answers what it holds. -/
theorem Dev.memLine_dram (hr : rangeOf (64 * line) = .dram) (hd : d.memDead line = false) : d.memLine line = d.storedLine line := by
  rw [Dev.memLine, hd, cxlPort_of_dram hr]
  rfl

/-- What DRAM answers has the data that it holds. -/
theorem Dev.memLine_data (hr : rangeOf (64 * line) = .dram) : (d.memLine line).data = (d.storedLine line).data := by
  rw [Dev.memLine, cxlPort_of_dram hr]
  split <;> rfl

/-- DRAM answers a line with poison where it holds one, and where its channel has FAILED. -/
theorem Dev.memLine_poison (hr : rangeOf (64 * line) = .dram) : (d.memLine line).poison = (d.memDead line || (d.storedLine line).poison) := by
  rw [Dev.memLine, cxlPort_of_dram hr]
  cases d.memDead line <;> rfl

theorem Dev.setMemLine_dram (hr : rangeOf (64 * line) = .dram) (x : LineData) : d.setMemLine line x = d.storeLine line x := by
  rw [Dev.setMemLine, cxlPort_of_dram hr]

/-- A write that its channel accepts is stored and enters the queue (R266). -/
def Dev.lineAccepted (d : Dev) (m : Nat) (w : MemWrite) : Dev :=
  (d.storeLine w.line w.data).setChannel m
    { d.channel m with queue := (d.channel m).queue ++ [⟨w.line, w.src, w.trace⟩] }

theorem Dev.lineAccepted_frame (d : Dev) (m : Nat) (w : MemWrite) : d.lineAccepted m w =
    { d with mem := (d.lineAccepted m w).mem, poison := (d.lineAccepted m w).poison, channels := (d.lineAccepted m w).channels } := by
  obtain ⟨p, b, c, h⟩ : ∃ p b c, d.lineAccepted m w = { d with mem := p, poison := b, channels := c } := by
    unfold Dev.lineAccepted
    rw [Dev.storeLine_frame]
    exact ⟨_, _, _, rfl⟩
  rw [h]

theorem Dev.lineAccepted_homes (d : Dev) (m : Nat) (w : MemWrite) : (d.lineAccepted m w).homes = d.homes := by rw [Dev.lineAccepted_frame]
theorem Dev.lineAccepted_wire (d : Dev) (m : Nat) (w : MemWrite) : (d.lineAccepted m w).wire = d.wire := by rw [Dev.lineAccepted_frame]

/-- A channel that takes a write somebody waits for accepts it at once (R266). -/
theorem Dev.putMemory_accepts {w : MemWrite} {m r : Nat} (hr : rangeOf (64 * w.line) = .dram) (hc : d.channelOf (64 * w.line) = some (m, r))
    (hs : d.get MEM_STAT.STATE m ≠ 4) (ht : d.channelTakes m w.trace = true) (hw : (w.who == .nobody) = false) :
    d.putMemory w = (true, d.lineAccepted m w) := by
  have hchannel : (d.storeLine w.line w.data).channel m = d.channel m := by rw [Dev.channel, Dev.storeLine_channels, Dev.channel]
  have haccept : d.acceptWrite m w = d.lineAccepted m w := by
    rw [Dev.acceptWrite, hw, if_neg Bool.false_ne_true, Dev.setMemLine_dram hr, hchannel, Dev.lineAccepted]
  simp only [Dev.putMemory, hr, hc, hw, Bool.false_eq_true, if_false, beq_iff_eq, hs, ht, if_true, haccept]

/-- What an accepted write leaves: the line as written, and every other byte. -/
theorem Dev.lineAccepted_spec {m n r : Nat} {w : MemWrite} (hr : rangeOf (64 * w.line) = .dram) (hc : d.channelOf (64 * w.line) = some (m, r))
    (hs : d.get MEM_STAT.STATE m ≠ 4) : (d.lineAccepted n w).memLine w.line = w.data
      ∧ ∀ a, a / 64 ≠ w.line → (d.lineAccepted n w).byte a = d.byte a := by
  have hsame : d.SameMemory (d.lineAccepted n w) := .of_regs (by rw [Dev.lineAccepted_frame])
  have hlive : (d.lineAccepted n w).memDead w.line = false := (hsame.memDead hr).trans (Dev.memDead_of_serving hr hc hs)
  have hmem : (d.lineAccepted n w).mem = (d.storeLine w.line w.data).mem := by rw [Dev.lineAccepted, Dev.setChannel_mem]
  have hpoison : (d.lineAccepted n w).poison = (d.storeLine w.line w.data).poison := by rw [Dev.lineAccepted, Dev.setChannel_poison]
  refine ⟨?_, fun a ha => (Dev.byte_of_mem hmem a).trans (d.byte_storeLine_other _ ha)⟩
  rw [Dev.memLine_dram hr hlive, Dev.storedLine_of hmem hpoison, Dev.storedLine_storeLine]

/-- What becomes of a write for nobody after it has taken effect: its channel queues it, holds it or does without it (R266, R277). -/
def Dev.handed (d : Dev) (m : Nat) (w : MemWrite) : Dev :=
  if d.get MEM_STAT.STATE m = 4 then d
  else d.setChannel m (if d.channelTakes m w.trace then { d.channel m with queue := (d.channel m).queue ++ [⟨w.line, w.src, w.trace⟩] }
    else { d.channel m with inputWrites := (d.channel m).inputWrites ++ [w] })

theorem Dev.handed_frame (d : Dev) (m : Nat) (w : MemWrite) : ∃ cs, d.handed m w = { d with channels := cs } := by
  unfold Dev.handed
  split <;> exact ⟨_, rfl⟩

/-- A line handed to DRAM for nobody is stored, whatever its channel makes of the write. -/
theorem Dev.writeMemory_dram {m r : Nat} (hr : rangeOf (64 * line) = .dram) (hc : d.channelOf (64 * line) = some (m, r)) (x : LineData) :
    d.writeMemory line x = (d.storeLine line x).handed m { line := line, data := x } := by
  have hnobody : (WriteFor.nobody == WriteFor.nobody) = true := rfl
  simp only [Dev.writeMemory, Dev.putMemory, hr, hc, hnobody, if_true, Dev.acceptWrite, Dev.setMemLine_dram hr, Dev.handed, beq_iff_eq]
  split
  · rfl
  · split <;> rfl

end

end Sys2Proof.Machine
end

section
/-!
PROOFS. The home agents' own operations (spec/07, R168 to R171, R177): what a change of a home leaves alone, what opening a transaction sends,
and what closing one leaves.
-/

namespace Sys2Proof.Machine

/-! ### A home that changes -/

@[simp] theorem Dev.home_setHome (d : Dev) (q : Nat) (h : Home) : (d.setHome q h).home q = h := KMap.find_set_same _ _ _ _ _

@[simp] theorem Dev.home_modHome (d : Dev) (q : Nat) (f : Home → Home) : (d.modHome q f).home q = f (d.home q) := d.home_setHome q _

@[simp] theorem Dev.home_setEntry (d : Dev) (q line : Nat) (e : DirEntry) :
    (d.setEntry q line e).home q = { d.home q with dir := (d.home q).dir.set natLt {} line e } := d.home_modHome q _

@[simp] theorem Dev.home_setTxn (d : Dev) (q : Nat) (t : HomeTxn) : (d.setTxn q t).home q =
    { d.home q with txns := (d.home q).txns.map fun x => if x.req.line == t.req.line then t else x } := d.home_modHome q _

theorem Dev.home_of_homes {d d' : Dev} (h : d'.homes = d.homes) (q : Nat) : d'.home q = d.home q := by rw [Dev.home, h, Dev.home]

theorem Dev.home_send (d : Dev) (p : Packet) (q : Nat) : (d.send p).home q = d.home q := rfl
theorem Dev.home_take (d : Dev) (p : Packet) (q : Nat) : (d.take p).home q = d.home q := rfl
theorem Dev.home_dirCount (d : Dev) (n i q : Nat) : (d.dirCount n i).home q = d.home q := rfl

theorem Dev.entry_of_dir {d d' : Dev} {q : Nat} (h : (d'.home q).dir = (d.home q).dir) (line : Nat) : d'.entry q line = d.entry q line := by
  rw [Dev.entry, h, Dev.entry]

theorem Dev.entry_setEntry (d : Dev) (q line : Nat) (e : DirEntry) : (d.setEntry q line e).entry q line = e := by
  rw [Dev.entry, Dev.home_setEntry, KMap.find_set_same]

theorem Dev.entry_setEntry_other (d : Dev) (q : Nat) {line k : Nat} (e : DirEntry) (h : k ≠ line) :
    (d.setEntry q line e).entry q k = d.entry q k := by
  rw [Dev.entry, Dev.home_setEntry, KMap.find_set_other _ _ _ _ _ h, Dev.entry]

/-- The transaction of a line that is replaced is the one that replaces it. -/
theorem Dev.txn_setTxn {d : Dev} {q : Nat} {t t₀ : HomeTxn} (h : (d.home q).txn t.req.line = some t₀) :
    ((d.setTxn q t).home q).txn t.req.line = some t := by
  rw [Dev.home_setTxn]
  rw [Home.txn] at h ⊢
  dsimp only
  generalize (d.home q).txns = ts at h ⊢
  induction ts with
  | nil => cases h
  | cons x xs ih =>
    by_cases hx : x.req.line = t.req.line
    · simp [hx]
    · simpa [hx] using ih (by simpa [hx] using h)

theorem Home.txn_line {h : Home} {line : Nat} {t : HomeTxn} (ht : h.txn line = some t) : t.req.line = line :=
  beq_iff_eq.1 (List.find?_some (p := fun x : HomeTxn => x.req.line == line) ht)

/-! ### What the homes leave alone -/

/-- Nothing but the homes, what is under way and the homes' counts has changed. -/
structure Dev.HomeWork (d d' : Dev) : Prop where
  rest : d' = { d with regs := d'.regs, homes := d'.homes, wire := d'.wire }
  reg : ∀ r : Reg, r.name ≠ .DIR_CNT → d'.reg r = d.reg r

namespace Dev.HomeWork

variable {d d' : Dev}

theorem refl (d : Dev) : d.HomeWork d := ⟨rfl, fun _ _ => rfl⟩

theorem trans {d'' : Dev} (h : d.HomeWork d') (h' : d'.HomeWork d'') : d.HomeWork d'' :=
  ⟨h'.rest.trans (by rw [h.rest]), fun r hr => (h'.reg r hr).trans (h.reg r hr)⟩

theorem sameMemory (h : d.HomeWork d') : d.SameMemory d' := fun r hr => h.reg r fun e => by
  rw [e] at hr
  cases hr

theorem board (h : d.HomeWork d') : d'.board = d.board := by rw [h.rest]
theorem power (h : d.HomeWork d') : d'.power = d.power := by rw [h.rest]
theorem mem (h : d.HomeWork d') : d'.mem = d.mem := by rw [h.rest]
theorem poison (h : d.HomeWork d') : d'.poison = d.poison := by rw [h.rest]
theorem boughs (h : d.HomeWork d') : d'.boughs = d.boughs := by rw [h.rest]
theorem channels (h : d.HomeWork d') : d'.channels = d.channels := by rw [h.rest]

theorem take (d : Dev) (p : Packet) : d.HomeWork (d.take p) := ⟨rfl, fun _ _ => rfl⟩
theorem send (d : Dev) (p : Packet) : d.HomeWork (d.send p) := ⟨rfl, fun _ _ => rfl⟩
theorem modHome (d : Dev) (q : Nat) (f : Home → Home) : d.HomeWork (d.modHome q f) := ⟨rfl, fun _ _ => rfl⟩
theorem dirCount (d : Dev) (q i : Nat) : d.HomeWork (d.dirCount q i) := ⟨rfl, fun r hr => d.reg_put_name _ _ _ _ r hr⟩

end Dev.HomeWork

theorem Dev.packets_of_wire {d d' : Dev} (h : d'.wire = d.wire) : d'.packets = d.packets := by rw [Dev.packets, h, Dev.packets]

/-! ### Opening a transaction (R168, R170) -/

/-- The transaction that a request opens. -/
def Dev.opening (d : Dev) (q : Nat) (req : HomeReq) : HomeTxn where
  req := req
  snoops := (plan req (d.entry q req.line)).snoops
  found := d.entry q req.line
  plan := plan req (d.entry q req.line)
  final := { (plan req (d.entry q req.line)).final with epoch := (d.entry q req.line).epoch }
  stamp := if (d.entry q req.line).st = .invalid then (d.home q).stamp else (d.entry q req.line).stamp

/-- The bough to which the bough of a snoop forwards the line, if any. -/
def HomeTxn.forwards (t : HomeTxn) (k : Snoop) : Option Nat := if k = .unique || k = .shared then t.forwardTo else none

/-- Snoops of a transaction leave its home. -/
def Dev.snoopsSent (d : Dev) (q : Nat) (t : HomeTxn) (snoops : List (Nat × Snoop)) : Dev :=
  snoops.foldl (fun d p => d.sendSnoop q t.req.line p.2 (t.forwards p.2) p.1) d

/-- A request's transaction is open and its snoops are sent. -/
def Dev.txnOpened (d : Dev) (q : Nat) (req : HomeReq) : Dev :=
  ((d.dirCount q 0).modHome q fun h => { h with txns := h.txns ++ [d.opening q req], stamp := h.stamp + 1 }).snoopsSent q (d.opening q req)
    (d.opening q req).snoops

theorem Dev.openTxn_eq (d : Dev) (resume : Nat → Nat → Dev → Dev) (q : Nat) (req : HomeReq) :
    d.openTxn resume q req = (d.txnOpened q req).advanceTxn resume q (d.opening q req) := rfl

theorem Dev.sendSnoop_eq (d : Dev) (q line : Nat) (k : Snoop) (fwd : Option Nat) (b : Nat) :
    d.sendSnoop q line k fwd b = (d.send (.snoop k b line fwd)).dirCount q 1 := by rw [Dev.sendSnoop, Dev.emit_send rfl]

/-- Each snoop is one packet more, and is counted. -/
theorem Dev.snoopsSent_spec (d : Dev) (q : Nat) (t : HomeTxn) (l : List (Nat × Snoop)) :
    d.HomeWork (d.snoopsSent q t l) ∧ (d.snoopsSent q t l).homes = d.homes
      ∧ (d.snoopsSent q t l).packets = d.packets ++ l.map fun p => .snoop p.2 p.1 t.req.line (t.forwards p.2) := by
  induction l generalizing d with
  | nil => exact ⟨.refl d, rfl, (List.append_nil _).symm⟩
  | cons p l ih =>
    obtain ⟨hwork, hhomes, hpackets⟩ := ih (d.sendSnoop q t.req.line p.2 (t.forwards p.2) p.1)
    rw [Dev.sendSnoop_eq] at hwork hhomes hpackets
    rw [show d.snoopsSent q t (p :: l) = ((d.send (.snoop p.2 p.1 t.req.line (t.forwards p.2))).dirCount q 1).snoopsSent q t l by
      rw [← Dev.sendSnoop_eq]; rfl]
    refine ⟨((Dev.HomeWork.send d _).trans (.dirCount _ q 1)).trans hwork, hhomes, hpackets.trans ?_⟩
    rw [show ((d.send (.snoop p.2 p.1 t.req.line (t.forwards p.2))).dirCount q 1).packets = _ from d.packets_send _, List.append_assoc]
    rfl

theorem Dev.txnOpened_spec (d : Dev) (q : Nat) (req : HomeReq) :
    d.HomeWork (d.txnOpened q req)
      ∧ (d.txnOpened q req).home q = { d.home q with txns := (d.home q).txns ++ [d.opening q req], stamp := (d.home q).stamp + 1 }
      ∧ (d.txnOpened q req).packets = d.packets ++
          (d.opening q req).snoops.map fun p => .snoop p.2 p.1 req.line ((d.opening q req).forwards p.2) := by
  obtain ⟨hwork, hhomes, hpackets⟩ := ((d.dirCount q 0).modHome q fun h =>
    { h with txns := h.txns ++ [d.opening q req], stamp := h.stamp + 1 }).snoopsSent_spec q (d.opening q req) (d.opening q req).snoops
  exact ⟨((Dev.HomeWork.dirCount d q 0).trans (.modHome _ q _)).trans hwork, (Dev.home_of_homes hhomes q).trans (Dev.home_modHome _ q _), hpackets⟩

/-! ### Going on with a transaction -/

/-- Nothing is awaited but answers to snoops, and the transaction is no eviction. -/
structure HomeTxn.Runs (t : HomeTxn) : Prop where
  evict : t.evict = false
  waitAck : t.waitAck = false
  fromMem : t.fromMem = false
  writing : t.writing = false

theorem Dev.opening_runs (d : Dev) (q : Nat) (req : HomeReq) : (d.opening q req).Runs := ⟨rfl, rfl, rfl, rfl⟩

section
variable {resume : Nat → Nat → Dev → Dev} {q : Nat} {t : HomeTxn} {d : Dev}

theorem Dev.advanceTxn_snooping (h : t.snoops ≠ []) : d.advanceTxn resume q t = d := by
  have hs : (!t.snoops.isEmpty) = true := by simpa using h
  unfold Dev.advanceTxn
  rw [hs]
  rfl

/-- With every snoop answered a request that is owed no data is granted (R170). -/
theorem Dev.advanceTxn_noData (hr : t.Runs) (hs : t.snoops = []) (ho : t.req.op = .upgrade ∨ t.req.op = .claim) (hn : t.plan.noData = true) :
    d.advanceTxn resume q t = d.sendGrant q t t.plan.grant := by
  unfold Dev.advanceTxn
  rw [hr.evict, hr.waitAck, hr.fromMem, hr.writing, hs, hn]
  obtain ho | ho := ho <;> rw [ho] <;> rfl

/-- The line that a write leaves where memory held `old` (R170, R180). -/
def HomeTxn.writes (t : HomeTxn) (old : LineData) : LineData :=
  if t.req.op = .wrFull then ⟨t.req.data, false⟩ else ⟨mergeLine old.data t.req.data t.req.mask, old.poison || t.poison⟩

/-- With every snoop answered a write of a line of DRAM goes to memory (R170, R171). -/
theorem Dev.advanceTxn_writes (hr : t.Runs) (hs : t.snoops = []) (ho : t.req.op = .wrFull ∨ t.req.op = .wrPartial) (hg : t.got = none)
    (hd : rangeOf (64 * t.req.line) = .dram) : d.advanceTxn resume q t = d.txnWrite resume q
      { t with poison := (t.writes (d.memLine t.req.line)).poison || d.memDead t.req.line } (t.writes (d.memLine t.req.line)) := by
  unfold Dev.advanceTxn
  rw [hr.evict, hr.waitAck, hr.fromMem, hr.writing, hs, hg, cxlPort_of_dram hd]
  unfold HomeTxn.writes
  obtain ho | ho := ho <;> rw [ho] <;> rfl

theorem HomeTxn.granted_req (t : HomeTxn) (g : Grant) : (t.granted g).1.req = t.req := by
  unfold HomeTxn.granted
  split <;> rfl

/-- A grant without data leaves for the requester, whose acknowledgement the transaction awaits (R171). -/
theorem Dev.sendGrant_spec {t₀ : HomeTxn} (g : Grant) (ht : (d.home q).txn t.req.line = some t₀) (hp : (t.granted g).1.poison = t.poison)
    (hl : (t.granted g).1.plan = t.plan) : d.HomeWork (d.sendGrant q t g) ∧ (d.sendGrant q t g).regs = d.regs
      ∧ (d.sendGrant q t g).packets =
          d.packets ++ [.grant (t.req.bough.getD 31) t.req.line g (t.granted g).2 (t.poison && !t.plan.noData)]
      ∧ (((d.sendGrant q t g).home q).txn t.req.line).map (·.waitAck) = some true ∧ ((d.sendGrant q t g).home q).dir = (d.home q).dir := by
  have heq : d.sendGrant q t g = (d.send (.grant (t.req.bough.getD 31) t.req.line g (t.granted g).2 (t.poison && !t.plan.noData))).setTxn q
      { (t.granted g).1 with waitAck := true } := by
    unfold Dev.sendGrant
    dsimp only
    rw [Dev.emit_send rfl, HomeTxn.granted_req, hp, hl]
  have hline : ({ (t.granted g).1 with waitAck := true } : HomeTxn).req.line = t.req.line := by rw [HomeTxn.granted_req]
  rw [heq]
  refine ⟨(Dev.HomeWork.send d _).trans (.modHome _ q _), rfl, d.packets_send _, ?_, by rw [Dev.home_setTxn]; rfl⟩
  rw [← hline] at ht ⊢
  rw [Dev.txn_setTxn (d := d.send _) ht]
  rfl

end

/-! ### Closing a transaction -/

/-- The entry as a transaction that closes leaves it. -/
def HomeTxn.closing (t : HomeTxn) : DirEntry :=
  if (t.gone.foldl (fun e b => (purgeEntry b false e).1) t.final).st = .invalid then { epoch := t.final.epoch }
  else { t.gone.foldl (fun e b => (purgeEntry b false e).1) t.final with stamp := t.stamp }

/-- A transaction is closed, and nothing that waits has gone on yet. -/
def Dev.closed (d : Dev) (q : Nat) (t : HomeTxn) : Dev :=
  (d.modHome q fun h => { h with txns := h.txns.filter fun x => x.req.line != t.req.line }).setEntry q t.req.line t.closing

theorem Dev.closed_frame (d : Dev) (q : Nat) (t : HomeTxn) : ∃ hs, d.closed q t = { d with homes := hs } := ⟨_, rfl⟩

theorem Dev.closeTxn_eq {t : HomeTxn} (h : t.req.op ≠ .rdNoalloc) (resume : Nat → Nat → Dev → Dev) (q : Nat) (d : Dev) :
    d.closeTxn resume q t = resume q t.req.line (d.closed q t) := by
  have hop : (decide (t.req.op = .rdNoalloc) && !t.evict) = false := by rw [decide_eq_false h, Bool.false_and]
  unfold Dev.closeTxn
  dsimp only
  rw [hop, if_neg Bool.false_ne_true]
  rfl

/-- Nothing waits at the home for a transaction to close. -/
structure Home.Unawaited (h : Home) : Prop where
  queue : h.queue = []
  held : h.held = []
  slots : h.slots = []
  waiting : h.waiting = []

theorem resumeHome_unawaited {d : Dev} {q : Nat} (h : (d.home q).Unawaited) (fuel line : Nat) :
    resumeHome (fuel + 1) q line d = d.setHome q (d.home q) := by
  have hheld : d.modHome q (fun h => { h with held := h.held.filter fun w => w.line != line }) = d.setHome q (d.home q) := by
    rw [Dev.modHome, h.held, List.filter_nil, ← h.held]
  unfold resumeHome
  dsimp only
  rw [hheld, h.held, List.filter_nil, List.foldl_nil, Dev.home_setHome, h.waiting, List.find?_nil]
  dsimp only
  rw [Dev.home_setHome, h.queue, List.find?_nil]
  dsimp only
  rw [Dev.home_setHome, h.slots, List.foldl_nil]

/-- With nothing that waits for it a transaction closes and nothing else happens: its entry is written, and no other. -/
theorem Dev.closeTxn_unawaited {d : Dev} {q : Nat} {t : HomeTxn} (h : (d.home q).Unawaited) (ho : t.req.op ≠ .rdNoalloc) (fuel : Nat) :
    d.closeTxn (resumeHome (fuel + 1)) q t = { d with homes := (d.closeTxn (resumeHome (fuel + 1)) q t).homes }
      ∧ (d.closeTxn (resumeHome (fuel + 1)) q t).home q = { d.home q with
          txns := (d.home q).txns.filter fun x => x.req.line != t.req.line, dir := (d.home q).dir.set natLt {} t.req.line t.closing } := by
  have hhome : (d.closed q t).home q =
      { d.home q with txns := (d.home q).txns.filter fun x => x.req.line != t.req.line, dir := (d.home q).dir.set natLt {} t.req.line t.closing } := by
    rw [Dev.closed, Dev.home_setEntry, Dev.home_modHome]
  have hrest : ((d.closed q t).home q).Unawaited := by
    rw [hhome]
    exact ⟨h.queue, h.held, h.slots, h.waiting⟩
  have heff := (Dev.closeTxn_eq ho _ q d).trans (resumeHome_unawaited hrest fuel _)
  obtain ⟨hs, hframe⟩ := d.closed_frame q t
  generalize d.closeTxn (resumeHome (fuel + 1)) q t = z at heff ⊢
  refine ⟨?_, by rw [heff, Dev.home_setHome, hhome]⟩
  rw [heff, hframe]
  rfl

/-! ### A write that its channel accepts -/

/-- A line of memory has been written, which nothing but the homes, the channels and what is under way has seen. -/
structure Dev.WritesLine (d : Dev) (line : Nat) (x : LineData) (d' : Dev) : Prop where
  rest : d' = { d with mem := d'.mem, poison := d'.poison, channels := d'.channels, homes := d'.homes, wire := d'.wire }
  reads : d'.memLine line = x
  byte : ∀ a, a / 64 ≠ line → d'.byte a = d.byte a

theorem Dev.memLine_of {d d' : Dev} {line : Nat} (hr : rangeOf (64 * line) = .dram) (h : d.SameMemory d') (hm : d'.mem = d.mem)
    (hp : d'.poison = d.poison) : d'.memLine line = d.memLine line := by
  rw [Dev.memLine, Dev.memLine, h.memDead hr, cxlPort_of_dram hr, Dev.storedLine_of hm hp]

theorem Dev.lineAccepted_writes {d : Dev} {m n r : Nat} {w : MemWrite} (hr : rangeOf (64 * w.line) = .dram)
    (hc : d.channelOf (64 * w.line) = some (m, r)) (hs : d.get MEM_STAT.STATE m ≠ 4) : d.WritesLine w.line w.data (d.lineAccepted n w) := by
  obtain ⟨hline, hbyte⟩ := Dev.lineAccepted_spec (n := n) hr hc hs
  exact ⟨by rw [Dev.lineAccepted_homes, Dev.lineAccepted_wire]; exact d.lineAccepted_frame n w, hline, hbyte⟩

namespace Dev.WritesLine

variable {d d' d'' : Dev} {line : Nat} {x : LineData}

/-- What the homes do and send before a write does not show in it. -/
theorem after (h : d' = { d with homes := d'.homes, wire := d'.wire }) (hw : d'.WritesLine line x d'') : d.WritesLine line x d'' where
  rest := hw.rest.trans (by rw [h])
  reads := hw.reads
  byte a ha := (hw.byte a ha).trans (Dev.byte_of_mem (by rw [h]) a)

/-- Nor what they do and send after it. -/
theorem before (hr : rangeOf (64 * line) = .dram) (hw : d.WritesLine line x d') (h : d'' = { d' with homes := d''.homes, wire := d''.wire }) :
    d.WritesLine line x d'' where
  rest := h.trans (by rw [hw.rest, h])
  reads := (Dev.memLine_of hr (.of_regs (by rw [h])) (by rw [h]) (by rw [h])).trans hw.reads
  byte a ha := (Dev.byte_of_mem (by rw [h]) a).trans (hw.byte a ha)

theorem boughs (h : d.WritesLine line x d') : d'.boughs = d.boughs := by rw [h.rest]
theorem regs (h : d.WritesLine line x d') : d'.regs = d.regs := by rw [h.rest]
theorem board (h : d.WritesLine line x d') : d'.board = d.board := by rw [h.rest]
theorem power (h : d.WritesLine line x d') : d'.power = d.power := by rw [h.rest]

end Dev.WritesLine

/-- The write that a transaction hands to memory. -/
def HomeTxn.memWrite (t : HomeTxn) (q : Nat) (x : LineData) : MemWrite :=
  { line := t.req.line, data := x, trace := t.req.src == .trace && !t.evict, who := .txn q, src := some t.req.src }

/-- The line of a transaction is written, and the transaction is still open. -/
def Dev.lineWritten (d : Dev) (q m : Nat) (t : HomeTxn) (x : LineData) : Dev :=
  (d.setTxn q { t with writing := true }).lineAccepted m (t.memWrite q x)

theorem Dev.lineWritten_frame (d : Dev) (q m : Nat) (t : HomeTxn) (x : LineData) :
    (d.lineWritten q m t x).wire = d.wire ∧ (d.lineWritten q m t x).homes = (d.setTxn q { t with writing := true }).homes := by
  exact ⟨Dev.lineAccepted_wire _ m _, Dev.lineAccepted_homes _ m _⟩

/-- A transaction whose write is accepted at once goes on at once. -/
theorem Dev.txnWrite_of_put {d d' : Dev} {q : Nat} {t : HomeTxn} {x : LineData} (resume : Nat → Nat → Dev → Dev)
    (h : (d.setTxn q { t with writing := true }).putMemory (t.memWrite q x) = (true, d')) : d.txnWrite resume q t x = d'.wroteTxn resume q t := by
  unfold HomeTxn.memWrite at h
  unfold Dev.txnWrite
  rw [h]
  rfl

/-- Once its write is accepted a transaction that nothing waits for tells its requester and closes (R171). -/
theorem Dev.wroteTxn_unawaited {d y : Dev} {q : Nat} {t t₀ : HomeTxn} {x : LineData} (hr : rangeOf (64 * t.req.line) = .dram)
    (hw : d.WritesLine t.req.line x y) (he : t.evict = false) (ho : t.req.op ≠ .rdNoalloc) (hh : (y.home q).Unawaited)
    (hl : (y.home q).txns = [t₀]) (hline : t₀.req.line = t.req.line) (fuel : Nat) :
    d.WritesLine t.req.line x (y.wroteTxn (resumeHome (fuel + 1)) q t)
      ∧ ((y.wroteTxn (resumeHome (fuel + 1)) q t).home q).txns = []
      ∧ (y.wroteTxn (resumeHome (fuel + 1)) q t).packets = y.packets ++ [.wrComp t.req.src t.req.line t.poison] := by
  have heff : y.wroteTxn (resumeHome (fuel + 1)) q t =
      (y.send (.wrComp t.req.src t.req.line t.poison)).closeTxn (resumeHome (fuel + 1)) q { t with writing := false } := by
    unfold Dev.wroteTxn
    dsimp only
    rw [if_neg (by rw [he]; exact Bool.false_ne_true), Dev.emit_send rfl]
  obtain ⟨hrest, hclosed⟩ := Dev.closeTxn_unawaited (d := y.send (.wrComp t.req.src t.req.line t.poison)) (t := { t with writing := false })
    hh ho fuel
  rw [← heff] at hrest hclosed
  generalize y.wroteTxn (resumeHome (fuel + 1)) q t = z at hrest hclosed ⊢
  have hsent : z.wire = (y.send (.wrComp t.req.src t.req.line t.poison)).wire := by rw [hrest]
  refine ⟨hw.before hr (hrest.trans (by rw [hsent]; rfl)), ?_, ?_⟩
  · rw [hclosed, Dev.home_send, hl]
    exact List.filter_eq_nil_iff.2 fun u hu => by rw [List.mem_singleton.1 hu, bne_iff_ne, not_not]; exact hline
  · rw [Dev.packets_of_wire hsent, Dev.packets_send]

/-- Where the home has one transaction and nothing waits for it, a write that its channel accepts ends it: the line is written, the requester
is told, and no transaction is open (R171). -/
theorem Dev.txnWrite_accepted {d : Dev} {q m r : Nat} {t t₀ : HomeTxn} {x : LineData} (hr : rangeOf (64 * t.req.line) = .dram)
    (hc : d.channelOf (64 * t.req.line) = some (m, r)) (hs : d.get MEM_STAT.STATE m ≠ 4)
    (ht : d.channelTakes m (t.req.src == .trace) = true) (he : t.evict = false) (ho : t.req.op ≠ .rdNoalloc)
    (hh : (d.home q).Unawaited) (hl : (d.home q).txns = [t₀]) (hline : t₀.req.line = t.req.line) (fuel : Nat) :
    d.WritesLine t.req.line x (d.txnWrite (resumeHome (fuel + 1)) q t x)
      ∧ ((d.txnWrite (resumeHome (fuel + 1)) q t x).home q).txns = []
      ∧ (d.txnWrite (resumeHome (fuel + 1)) q t x).packets = d.packets ++ [.wrComp t.req.src t.req.line t.poison] := by
  have ht' : (d.setTxn q { t with writing := true }).channelTakes m (t.memWrite q x).trace = true := by
    rw [HomeTxn.memWrite, he, Bool.not_false, Bool.and_true]
    exact ht
  have hput : (d.setTxn q { t with writing := true }).putMemory (t.memWrite q x) = (true, d.lineWritten q m t x) :=
    Dev.putMemory_accepts (d := d.setTxn q { t with writing := true }) (w := t.memWrite q x) hr hc hs ht' rfl
  have hwrites : (d.setTxn q { t with writing := true }).WritesLine t.req.line x (d.lineWritten q m t x) :=
    Dev.lineAccepted_writes (w := t.memWrite q x) hr hc hs
  obtain ⟨hwire, hhomes⟩ := d.lineWritten_frame q m t x
  have hhome : (d.lineWritten q m t x).home q = { d.home q with txns := [{ t with writing := true }] } := by
    rw [Dev.home_of_homes hhomes, Dev.home_setTxn, hl, List.map_singleton, if_pos (beq_iff_eq.2 hline)]
  have hun : ((d.lineWritten q m t x).home q).Unawaited := by
    rw [hhome]
    exact ⟨hh.queue, hh.held, hh.slots, hh.waiting⟩
  rw [Dev.txnWrite_of_put _ hput, ← Dev.packets_of_wire hwire]
  exact Dev.wroteTxn_unawaited hr (hwrites.after rfl) he ho hun (t₀ := { t with writing := true }) (by rw [hhome]) rfl fuel

end Sys2Proof.Machine
end

section
/-!
PROOFS. Coherent requests at a home with nothing under way (spec/07, R168 to R171, R180).
-/

namespace Sys2Proof.Machine

/-! ### A request arrives at its home -/

theorem Home.rotate_frame (h : Home) (ring : Word) (src : CohReq) : ∃ p q c, h.rotate ring src = { h with p := p, q := q, clock := c } := by
  unfold Home.rotate
  dsimp only
  repeat' split
  all_goals exact ⟨_, _, _, rfl⟩

theorem Home.quiet.unawaited {h : Home} (hq : h.quiet) : h.Unawaited := by
  obtain ⟨-, hqueue, hheld, hslots, hwaiting, -⟩ := hq
  exact ⟨hqueue, hheld, hslots, hwaiting⟩

theorem Home.quiet.rotate {h : Home} (hq : h.quiet) (ring : Word) (src : CohReq) : (h.rotate ring src).quiet := by
  obtain ⟨p, q, c, heq⟩ := h.rotate_frame ring src
  rw [heq]
  exact hq

theorem Home.quiet.trunkUse {h : Home} (hq : h.quiet) : h.trunkUse = 0 := by
  obtain ⟨htxns, hqueue, -, -, hwaiting, hslotWait⟩ := hq
  rw [Home.trunkUse, htxns, hqueue, hwaiting, hslotWait]
  rfl

theorem Home.quiet.free {h : Home} (hq : h.quiet) (line : Nat) : ((h.txn line).isSome || h.lineWaits line) = false := by
  obtain ⟨htxns, hqueue, -, -, hwaiting, hslotWait⟩ := hq
  rw [Home.txn, Home.lineWaits, htxns, hqueue, hwaiting, hslotWait]
  rfl

/-- A request has been taken off its way, and its home has moved the pointers of R169. -/
def Dev.taken (d : Dev) (req : HomeReq) : Dev := (d.take (requestPacket req)).modHome (d.homeOfLine req.line) (·.rotate d.ring req.src)

theorem Dev.home_taken (d : Dev) (req : HomeReq) :
    (d.taken req).home (d.homeOfLine req.line) = (d.home (d.homeOfLine req.line)).rotate d.ring req.src := Dev.home_modHome _ _ _

/-- A request has its place at its home: none, or its bough's starvation slot (R179). -/
def Dev.admitted (d : Dev) (q : Nat) (req : HomeReq) : Dev :=
  if allocates req.op && (d.entry q req.line).st == .invalid && decide (8 ≤ req.retry) then
    (d.modHome q fun h => { h with slots := h.slots ++ [(req.bough.getD 31, req.line)] }).dirCount q 5
  else d

theorem Dev.admitted_spec (d : Dev) (q : Nat) (req : HomeReq) : d.HomeWork (d.admitted q req) ∧ (d.admitted q req).wire = d.wire
    ∧ ((d.admitted q req).home q).dir = (d.home q).dir ∧ ((d.admitted q req).home q).txns = (d.home q).txns := by
  unfold Dev.admitted
  split
  · exact ⟨(Dev.HomeWork.modHome d q _).trans (.dirCount _ q 5), rfl, by rw [Dev.home_dirCount, Dev.home_modHome],
      by rw [Dev.home_dirCount, Dev.home_modHome]⟩
  · exact ⟨.refl d, rfl, rfl, rfl⟩

theorem Dev.admitted_keepsNone {req : HomeReq} (h : allocates req.op = false) (d : Dev) (q : Nat) : d.admitted q req = d := by
  rw [Dev.admitted, h]
  rfl

/-- Where no starvation slot is in use and a set that the request enters has a way free, the request opens (R177, R179). -/
theorem Dev.takeUp_opens {d : Dev} {q : Nat} {req : HomeReq} (hs : (d.home q).slots = [])
    (hroom : allocates req.op = true → (d.entry q req.line).st = .invalid → d.setUse q (dirSet req.line) < 16)
    (resume : Nat → Nat → Dev → Dev) : d.takeUp resume q req = (d.admitted q req).openTxn resume q req := by
  unfold Dev.takeUp Dev.admitted
  dsimp only
  rw [hs]
  cases ha : allocates req.op with
  | false => rfl
  | true =>
    by_cases he : (d.entry q req.line).st = .invalid
    · by_cases h8 : 8 ≤ req.retry
      · simp [he, h8, Dev.takeSlot]
      · simp [he, h8, hroom ha he]
    · simp [he]

/-- A request has atHome at its home and has its place there. -/
def Dev.atHome (d : Dev) (req : HomeReq) : Dev := (d.taken req).admitted (d.homeOfLine req.line) req

theorem Dev.atHome_spec {d : Dev} {req : HomeReq} (hq : (d.home (d.homeOfLine req.line)).quiet) : d.HomeWork (d.atHome req)
    ∧ (d.atHome req).packets = d.packets.erase (requestPacket req)
    ∧ ((d.atHome req).home (d.homeOfLine req.line)).dir = (d.home (d.homeOfLine req.line)).dir
    ∧ ((d.atHome req).home (d.homeOfLine req.line)).txns = [] := by
  obtain ⟨hwork, hwire, hdir, htxns⟩ := (d.taken req).admitted_spec (d.homeOfLine req.line) req
  obtain ⟨p, q, c, hrotate⟩ := (d.home (d.homeOfLine req.line)).rotate_frame d.ring req.src
  have hhome := (d.home_taken req).trans hrotate
  refine ⟨((Dev.HomeWork.take d _).trans (.modHome _ _ _)).trans hwork, (Dev.packets_of_wire hwire).trans (d.packets_take _), ?_, ?_⟩
  · exact hdir.trans (by rw [hhome])
  · exact htxns.trans (by rw [hhome]; exact hq.1)

theorem Dev.setUse_of {d d' : Dev} {q : Nat} (hdir : (d'.home q).dir = (d.home q).dir) (htxns : (d'.home q).txns = (d.home q).txns)
    (hslots : (d'.home q).slots = (d.home q).slots) (set : Nat) : d'.setUse q set = d.setUse q set := by
  simp only [Dev.setUse, hdir, htxns, hslots]

/-- A request that reaches a home with nothing under way, from a bough that no proxy stands in for, is taken up at once (R168). -/
theorem cohRequestEff_taken {d : Dev} {req : HomeReq} (hm : mainMemory (64 * req.line) = true) (hq : (d.home (d.homeOfLine req.line)).quiet)
    (hb : ∀ b, req.src = .bough b → d.reached b) : cohRequestEff req.op req.src req.line req.retry req.mask req.data d =
      (d.taken req).takeUp (resumeHome (resumeFuel (d.taken req) (d.homeOfLine req.line))) (d.homeOfLine req.line) req := by
  have hcredit : (trunkRequester req.src && decide (256 ≤ (d.home (d.homeOfLine req.line)).trunkUse)) = false := by
    rw [hq.trunkUse]
    exact Bool.and_false _
  have hquiet : ((d.taken req).home (d.homeOfLine req.line)).quiet := by
    rw [Dev.home_taken]
    exact hq.rotate _ _
  have hpacket : (⟨req.op, req.src, req.line, req.retry, req.mask, req.data⟩ : HomeReq) = req := rfl
  unfold cohRequestEff
  dsimp only
  rw [hcredit, if_neg Bool.false_ne_true, hpacket, hm, Bool.not_true, if_neg Bool.false_ne_true]
  refine (if_neg fun hcut => ?_).trans (if_neg ?_)
  · split at hcut
    · rename_i b hsrc
      exact Bool.false_ne_true ((hb b hsrc).uncut.symm.trans hcut)
    · cases hcut
  · exact fun hbusy => Bool.false_ne_true ((hquiet.free req.line).symm.trans hbusy)

/-- The transaction that a request opens at its home. -/
def Dev.requestTxn (d : Dev) (req : HomeReq) : HomeTxn := (d.atHome req).opening (d.homeOfLine req.line) req

/-- A request's transaction is open at its home, and its snoops are sent. -/
def Dev.requestOpened (d : Dev) (req : HomeReq) : Dev := (d.atHome req).txnOpened (d.homeOfLine req.line) req

section
variable {d : Dev} {req : HomeReq}

/-- A request opens a transaction by the plan for the entry that it finds (R170). -/
theorem Dev.requestTxn_eq (hq : (d.home (d.homeOfLine req.line)).quiet) : ∃ stamp, d.requestTxn req =
    { req := req, snoops := (plan req (d.entry (d.homeOfLine req.line) req.line)).snoops, found := d.entry (d.homeOfLine req.line) req.line
      plan := plan req (d.entry (d.homeOfLine req.line) req.line)
      final := { (plan req (d.entry (d.homeOfLine req.line) req.line)).final with epoch := (d.entry (d.homeOfLine req.line) req.line).epoch }
      stamp := stamp } := by
  obtain ⟨-, -, hdir, -⟩ := Dev.atHome_spec hq
  rw [Dev.requestTxn, Dev.opening, Dev.entry_of_dir hdir]
  exact ⟨_, rfl⟩

theorem Dev.requestOpened_spec (hq : (d.home (d.homeOfLine req.line)).quiet) : d.HomeWork (d.requestOpened req)
    ∧ ((d.requestOpened req).home (d.homeOfLine req.line)).dir = (d.home (d.homeOfLine req.line)).dir
    ∧ ((d.requestOpened req).home (d.homeOfLine req.line)).txns = [d.requestTxn req]
    ∧ (d.requestOpened req).packets = d.packets.erase (requestPacket req) ++
        (d.requestTxn req).snoops.map fun p => .snoop p.2 p.1 req.line ((d.requestTxn req).forwards p.2) := by
  obtain ⟨hwork, hpackets, hdir, htxns⟩ := Dev.atHome_spec hq
  obtain ⟨hwork', hhome, hpackets'⟩ := (d.atHome req).txnOpened_spec (d.homeOfLine req.line) req
  refine ⟨hwork.trans hwork', by rw [Dev.requestOpened, hhome]; exact hdir, by rw [Dev.requestOpened, hhome, htxns]; rfl, ?_⟩
  rw [Dev.requestOpened, hpackets', hpackets]
  rfl

theorem Dev.requestOpened_txn (hq : (d.home (d.homeOfLine req.line)).quiet) :
    ((d.requestOpened req).home (d.homeOfLine req.line)).txn req.line = some (d.requestTxn req) := by
  obtain ⟨-, -, htxns, -⟩ := Dev.requestOpened_spec hq
  rw [Home.txn, htxns]
  exact List.find?_cons_of_pos (beq_self_eq_true req.line)

/-- A request for which there is room opens its transaction, which goes on as far as it can. -/
theorem cohRequestEff_opens (hm : mainMemory (64 * req.line) = true) (hq : (d.home (d.homeOfLine req.line)).quiet)
    (hb : ∀ b, req.src = .bough b → d.reached b)
    (hroom : allocates req.op = true → (d.entry (d.homeOfLine req.line) req.line).st = .invalid →
      d.setUse (d.homeOfLine req.line) (dirSet req.line) < 16) :
    cohRequestEff req.op req.src req.line req.retry req.mask req.data d = (d.requestOpened req).advanceTxn
      (resumeHome (resumeFuel (d.taken req) (d.homeOfLine req.line))) (d.homeOfLine req.line) (d.requestTxn req) := by
  obtain ⟨p, q, c, hrotate⟩ := (d.home (d.homeOfLine req.line)).rotate_frame d.ring req.src
  have hhome := (d.home_taken req).trans hrotate
  have hentry := Dev.entry_of_dir (d := d) (d' := d.taken req) (by rw [hhome]) req.line
  have huse := Dev.setUse_of (d := d) (d' := d.taken req) (by rw [hhome]) (by rw [hhome]) (by rw [hhome]) (dirSet req.line)
  rw [← hentry, ← huse] at hroom
  exact (cohRequestEff_taken hm hq hb).trans
    ((Dev.takeUp_opens (by rw [hhome]; exact hq.unawaited.slots) hroom _).trans (Dev.openTxn_eq _ _ _ _))

/-- A request whose plan has snoops waits for their answers. -/
theorem cohRequestEff_snoops (hm : mainMemory (64 * req.line) = true) (hq : (d.home (d.homeOfLine req.line)).quiet)
    (hb : ∀ b, req.src = .bough b → d.reached b)
    (hroom : allocates req.op = true → (d.entry (d.homeOfLine req.line) req.line).st ≠ .invalid)
    (hs : (plan req (d.entry (d.homeOfLine req.line) req.line)).snoops ≠ []) :
    cohRequestEff req.op req.src req.line req.retry req.mask req.data d = d.requestOpened req := by
  obtain ⟨stamp, htxn₀⟩ := Dev.requestTxn_eq hq
  exact (cohRequestEff_opens hm hq hb fun ha he => absurd he (hroom ha)).trans (Dev.advanceTxn_snooping (by rw [htxn₀]; exact hs))

/-- A request of a bough that needs no data and no snoop is granted at the next epoch, and its home waits for the acknowledgement (R170, R171). -/
theorem cohRequestEff_grants {b : Nat} (hm : mainMemory (64 * req.line) = true) (hq : (d.home (d.homeOfLine req.line)).quiet)
    (hsrc : req.src = .bough b) (hb : d.reached b) (ho : req.op = .upgrade ∨ req.op = .claim)
    (hroom : (d.entry (d.homeOfLine req.line) req.line).st = .invalid → d.setUse (d.homeOfLine req.line) (dirSet req.line) < 16)
    (hs : (plan req (d.entry (d.homeOfLine req.line) req.line)).snoops = [])
    (hn : (plan req (d.entry (d.homeOfLine req.line) req.line)).noData = true)
    (hg : (plan req (d.entry (d.homeOfLine req.line) req.line)).grant = .excl) :
    ∃ d', cohRequestEff req.op req.src req.line req.retry req.mask req.data d = d' ∧ d.HomeWork d'
      ∧ d'.packets = d.packets.erase (requestPacket req) ++
          [.grant b req.line .excl (((d.entry (d.homeOfLine req.line) req.line).epoch + 1) % 16) false]
      ∧ ((d'.home (d.homeOfLine req.line)).txn req.line).map (·.waitAck) = some true
      ∧ (d'.home (d.homeOfLine req.line)).dir = (d.home (d.homeOfLine req.line)).dir := by
  obtain ⟨stamp, htxn₀⟩ := Dev.requestTxn_eq hq
  obtain ⟨hwork, hdir, -, hpackets⟩ := Dev.requestOpened_spec hq
  have htxn := Dev.requestOpened_txn hq
  have heff := cohRequestEff_opens hm hq (fun b' h => by rw [hsrc] at h; cases h; exact hb) fun _ => hroom
  generalize resumeHome _ = resume at heff
  generalize d.requestOpened req = x at heff hwork hdir hpackets htxn
  generalize d.requestTxn req = t at htxn₀ heff hpackets htxn
  have hreq : t.req = req := by rw [htxn₀]
  have hplan : t.plan = plan req (d.entry (d.homeOfLine req.line) req.line) := by rw [htxn₀]
  have hsnoops : t.snoops = [] := by rw [htxn₀]; exact hs
  rw [Dev.advanceTxn_noData (by rw [htxn₀]; exact ⟨rfl, rfl, rfl, rfl⟩) hsnoops (by rw [hreq]; exact ho) (by rw [hplan]; exact hn), hplan, hg] at heff
  rw [hsnoops, List.map_nil, List.append_nil] at hpackets
  have hopen : (x.home (d.homeOfLine req.line)).txn t.req.line = some t := by rw [hreq]; exact htxn
  obtain ⟨hwork', -, hpackets', hack, hdir'⟩ := Dev.sendGrant_spec .excl hopen rfl rfl
  rw [hreq, hpackets] at hpackets'
  rw [hreq] at hack
  refine ⟨_, heff, hwork.trans hwork', ?_, hack, hdir'.trans hdir⟩
  rw [hpackets', HomeReq.bough, hsrc, htxn₀]
  rfl

theorem Dev.requestOpened_unawaited (ha : allocates req.op = false) (hq : (d.home (d.homeOfLine req.line)).quiet) :
    ((d.requestOpened req).home (d.homeOfLine req.line)).Unawaited := by
  have hquiet : ((d.atHome req).home (d.homeOfLine req.line)).quiet := by
    rw [Dev.atHome, Dev.admitted_keepsNone ha, Dev.home_taken]
    exact hq.rotate _ _
  obtain ⟨-, hhome, -⟩ := (d.atHome req).txnOpened_spec (d.homeOfLine req.line) req
  obtain ⟨hqueue, hheld, hslots, hwaiting⟩ := hquiet.unawaited
  rw [Dev.requestOpened, hhome]
  exact ⟨hqueue, hheld, hslots, hwaiting⟩

/-- What a write leaves of a line that nobody holds: the whole line, or its bytes merged into what memory holds (R170, R180). -/
def HomeReq.leaves (req : HomeReq) (old : LineData) : LineData :=
  if req.op = .wrFull then ⟨req.data, false⟩ else ⟨mergeLine old.data req.data req.mask, old.poison⟩

/-- A write of a line of DRAM that nobody holds and that its channel takes is done at once, and its sender told (R170, R171). -/
theorem cohRequestEff_writes {m r : Nat} (hr : rangeOf (64 * req.line) = .dram) (hq : (d.home (d.homeOfLine req.line)).quiet)
    (hb : ∀ b, req.src = .bough b → d.reached b) (ho : req.op = .wrFull ∨ req.op = .wrPartial)
    (hs : (plan req (d.entry (d.homeOfLine req.line) req.line)).snoops = []) (hc : d.channelOf (64 * req.line) = some (m, r))
    (hst : d.get MEM_STAT.STATE m ≠ 4) (ht : d.channelTakes m (req.src == .trace) = true) :
    ∃ d', cohRequestEff req.op req.src req.line req.retry req.mask req.data d = d'
      ∧ (d.requestOpened req).WritesLine req.line (req.leaves (d.memLine req.line)) d'
      ∧ (d'.home (d.homeOfLine req.line)).txns = []
      ∧ Packet.wrComp req.src req.line (req.leaves (d.memLine req.line)).poison ∈ d'.packets := by
  have hm : mainMemory (64 * req.line) = true := by rw [mainMemory, hr]; rfl
  have ha : allocates req.op = false := by obtain ho | ho := ho <;> rw [ho] <;> rfl
  obtain ⟨stamp, htxn₀⟩ := Dev.requestTxn_eq hq
  obtain ⟨hwork, -, htxns, hpackets⟩ := Dev.requestOpened_spec hq
  have hrest := Dev.requestOpened_unawaited ha hq
  have heff := cohRequestEff_opens hm hq hb fun h => absurd (ha.symm.trans h) Bool.false_ne_true
  have hold := Dev.memLine_of hr hwork.sameMemory hwork.mem hwork.poison
  have hlive : (d.requestOpened req).memDead req.line = false := (hwork.sameMemory.memDead hr).trans (Dev.memDead_of_serving hr hc hst)
  have hchannel := (hwork.sameMemory.channelOf (64 * req.line)).trans hc
  have hstate := (hwork.sameMemory.get MEM_STAT.STATE m 0 rfl).trans_ne hst
  have htakes := (hwork.sameMemory.channelTakes hwork.channels m (req.src == .trace)).trans ht
  generalize d.requestOpened req = x at *
  generalize d.requestTxn req = t at *
  have hreq : t.req = req := by rw [htxn₀]
  have hwrites : t.writes (d.memLine req.line) = req.leaves (d.memLine req.line) := by
    rw [HomeTxn.writes, HomeReq.leaves, hreq, htxn₀, Bool.or_false]
  have hstep := Dev.advanceTxn_writes (resume := resumeHome (resumeFuel (d.taken req) (d.homeOfLine req.line))) (q := d.homeOfLine req.line)
    (t := t) (d := x) (by rw [htxn₀]; exact ⟨rfl, rfl, rfl, rfl⟩) (by rw [htxn₀]; exact hs) (by rw [hreq]; exact ho) (by rw [htxn₀])
    (by rw [hreq]; exact hr)
  rw [hreq, hold, hwrites, hlive, Bool.or_false] at hstep
  generalize req.leaves (d.memLine req.line) = v at *
  obtain ⟨hline, hnone, hsent⟩ := Dev.txnWrite_accepted (d := x) (t := { t with poison := v.poison }) (x := v) (q := d.homeOfLine req.line)
    (by rw [hreq]; exact hr) (by rw [hreq]; exact hchannel) hstate (by rw [hreq]; exact htakes) (by rw [htxn₀])
    (by rw [hreq]; obtain ho | ho := ho <;> rw [ho] <;> nofun) hrest htxns rfl _
  rw [hreq] at hline hnone hsent
  exact ⟨_, heff.trans hstep, hline, hnone, hsent ▸ List.mem_append_right _ (List.mem_singleton.2 rfl)⟩

end

/-! ### The plans of R170 -/

section
variable {req : HomeReq} {e : DirEntry}

theorem plan_rdShared_excl (ho : req.op = .rdShared) (he : e.st = .excl) (hn : e.owner ≠ req.bough.getD 31) :
    (plan req e).snoops = [(e.owner, .shared)] := by
  simp [plan, ho, he, hn]

theorem plan_rdUnique_shared (ho : req.op = .rdUnique) (he : e.st = .shared) (hs : e.sharers.filter (· != req.bough.getD 31) ≠ []) :
    (plan req e).snoops = (e.sharers.filter (· != req.bough.getD 31)).map (·, .inv) := by
  have hother : (e.sharers.filter (· != req.bough.getD 31)).isEmpty = false := by simpa using hs
  simp only [plan, ho, he, hother, Bool.false_eq_true, if_false]

theorem plan_upgrade_only (ho : req.op = .upgrade) (he : e.st = .shared) (hs : e.sharers = [req.bough.getD 31]) :
    (plan req e).snoops = [] ∧ (plan req e).noData = true ∧ (plan req e).grant = .excl := by
  simp [plan, ho, he, hs]

theorem plan_claim_unheld (ho : req.op = .claim) (hs : e.sharers = []) :
    (plan req e).snoops = [] ∧ (plan req e).noData = true ∧ (plan req e).grant = .excl := by
  simp [plan, ho, hs]

theorem plan_rdNoalloc_owned (ho : req.op = .rdNoalloc) (he : e.st = .owned) (hn : e.owner ≠ req.bough.getD 31) :
    (plan req e).snoops = [(e.owner, .current)] := by
  simp [plan, ho, he, hn]

theorem plan_write_unheld (ho : req.op = .wrFull ∨ req.op = .wrPartial) (he : e.st = .invalid) (hs : e.sharers = []) :
    (plan req e).snoops = [] := by
  obtain ho | ho := ho <;> simp [plan, ho, he, hs]

end

/-! ### The requests as commands -/

/-- What a packet that has arrived does to powered dies. -/
theorem exec_arrival {c : Instr} {s : State} {p : Packet} {f : Dev → Dev} {d : Dev} (he : exec c s = .next (s.on (arrive p f)))
    (hp : s.dev.powered = true) (hr : s.dev.reaches p) (hf : f s.dev = d) (hb : d.board = s.dev.board) (hw : d.power = s.dev.power) :
    exec c s = .next (s.withDev d) :=
  exec_of_powered he hp ((arrive_of_reaches hr f).trans hf) hb (congrArg Power.unpowered hw)

/-- Settles O34, clause by clause: RD_SHARED of an exclusive line and RD_UNIQUE of a shared one, UPGRADE and CLAIM that are granted at once,
RD_NOALLOC of an owned line, and the writes of a line that nobody holds. -/
theorem coherentRequests : Obligations.CoherentRequests := by
  unfold Obligations.CoherentRequests
  refine ⟨fun s b line retry q hp hb hm ha hq hquiet hst hne => ?rdShared, fun s b line retry q hp hb hm ha hq hquiet hst hsh => ?rdUnique,
    fun s b line retry q hp hb hm ha hq hquiet hst hsh => ?upgrade, fun s b line retry q hp hb hm ha hq hquiet hst hsh huse => ?claim,
    fun s src line q hp hb hm hq hquiet hst hne hlt ha => ?rdNoalloc,
    fun s src line q m r x hp hb hr hq hquiet hst hsh hc hs ht ha => ?wrFull,
    fun s src line q m r mask x hp hb hr hq hquiet hst hsh hc hs ht ha => ?wrPartial⟩
  all_goals subst hq
  case rdShared =>
    have hplan := plan_rdShared_excl (req := ⟨.rdShared, .bough b, line, retry, 0, 0⟩) rfl hst hne
    have heff := cohRequestEff_snoops (req := ⟨.rdShared, .bough b, line, retry, 0, 0⟩) hm hquiet (fun c h => by cases h; exact hb)
      (fun _ h => nomatch hst.symm.trans h) (by rw [hplan]; exact List.cons_ne_nil _ _)
    obtain ⟨stamp, htxn⟩ := Dev.requestTxn_eq (req := ⟨.rdShared, .bough b, line, retry, 0, 0⟩) hquiet
    obtain ⟨hwork, hdir, -, hpackets⟩ := Dev.requestOpened_spec (req := ⟨.rdShared, .bough b, line, retry, 0, 0⟩) hquiet
    have hopen := Dev.requestOpened_txn (req := ⟨.rdShared, .bough b, line, retry, 0, 0⟩) hquiet
    rw [htxn, hplan] at hpackets hopen
    exact ⟨_, exec_arrival (f := homeErrorEff b line retry .none) rfl hp ha heff hwork.board hwork.power, hwork.rest, hpackets,
      by rw [hopen]; rfl, hdir, hwork.reg⟩
  case rdUnique =>
    have hplan := plan_rdUnique_shared (req := ⟨.rdUnique, .bough b, line, retry, 0, 0⟩) rfl hst hsh
    have heff := cohRequestEff_snoops (req := ⟨.rdUnique, .bough b, line, retry, 0, 0⟩) hm hquiet (fun c h => by cases h; exact hb)
      (fun _ h => nomatch hst.symm.trans h) (by rw [hplan]; exact fun h => hsh (List.map_eq_nil_iff.1 h))
    obtain ⟨stamp, htxn⟩ := Dev.requestTxn_eq (req := ⟨.rdUnique, .bough b, line, retry, 0, 0⟩) hquiet
    obtain ⟨hwork, hdir, -, hpackets⟩ := Dev.requestOpened_spec (req := ⟨.rdUnique, .bough b, line, retry, 0, 0⟩) hquiet
    rw [htxn, hplan, List.map_map] at hpackets
    exact ⟨_, exec_arrival (f := cohRequestEff .rdUnique (.bough b) line retry 0 0) rfl hp ha heff hwork.board hwork.power, hwork.rest, hpackets, hdir⟩
  case upgrade =>
    obtain ⟨hsnoops, hdata, hgrant⟩ := plan_upgrade_only (req := ⟨.upgrade, .bough b, line, retry, 0, 0⟩) rfl hst hsh
    obtain ⟨d, heff, hwork, hpackets, hack, hdir⟩ := cohRequestEff_grants (req := ⟨.upgrade, .bough b, line, retry, 0, 0⟩) hm hquiet rfl hb (.inl rfl)
      (fun h => nomatch hst.symm.trans h) hsnoops hdata hgrant
    exact ⟨d, exec_arrival (f := cohRequestEff .upgrade (.bough b) line retry 0 0) rfl hp ha heff hwork.board hwork.power, hwork.rest, hpackets, hack, hdir⟩
  case claim =>
    obtain ⟨hsnoops, hdata, hgrant⟩ := plan_claim_unheld (req := ⟨.claim, .bough b, line, retry, 0, 0⟩) rfl hsh
    obtain ⟨d, heff, hwork, hpackets, hack, hdir⟩ := cohRequestEff_grants (req := ⟨.claim, .bough b, line, retry, 0, 0⟩) hm hquiet rfl hb (.inr rfl)
      (fun _ => huse) hsnoops hdata hgrant
    exact ⟨d, exec_arrival (f := cohRequestEff .claim (.bough b) line retry 0 0) rfl hp ha heff hwork.board hwork.power, hwork.rest, hpackets, hack, hdir⟩
  case rdNoalloc =>
    have howner : (s.dev.entry (s.dev.homeOfLine line) line).owner ≠ (HomeReq.bough ⟨.rdNoalloc, src, line, 0, 0, 0⟩).getD 31 := by
      cases hbough : HomeReq.bough ⟨.rdNoalloc, src, line, 0, 0, 0⟩ with
      | none => exact (Nat.lt_of_lt_of_le hlt (by decide : 24 ≤ 31)).ne
      | some c => exact fun h => hne (by rw [hbough, h]; rfl)
    have hplan := plan_rdNoalloc_owned (req := ⟨.rdNoalloc, src, line, 0, 0, 0⟩) rfl hst howner
    have heff := cohRequestEff_snoops (req := ⟨.rdNoalloc, src, line, 0, 0, 0⟩) hm hquiet hb (fun h => nomatch h)
      (by rw [hplan]; exact List.cons_ne_nil _ _)
    obtain ⟨stamp, htxn⟩ := Dev.requestTxn_eq (req := ⟨.rdNoalloc, src, line, 0, 0, 0⟩) hquiet
    obtain ⟨hwork, hdir, -, hpackets⟩ := Dev.requestOpened_spec (req := ⟨.rdNoalloc, src, line, 0, 0, 0⟩) hquiet
    rw [htxn, hplan] at hpackets
    exact ⟨_, exec_arrival (f := cohRequestEff .rdNoalloc src line 0 0 0) rfl hp ha heff hwork.board hwork.power, hwork.rest,
      hpackets ▸ List.mem_append_right _ (List.mem_singleton.2 rfl), hdir⟩
  case wrFull =>
    have hplan := plan_write_unheld (req := ⟨.wrFull, src, line, 0, 0, x⟩) (.inl rfl) hst hsh
    obtain ⟨d, heff, hwrites, htxns, hsent⟩ := cohRequestEff_writes (req := ⟨.wrFull, src, line, 0, 0, x⟩) hr hquiet hb (.inl rfl) hplan hc hs ht
    obtain ⟨hwork, -⟩ := Dev.requestOpened_spec (req := ⟨.wrFull, src, line, 0, 0, x⟩) hquiet
    exact ⟨d, exec_arrival (f := cohRequestEff .wrFull src line 0 0 x) rfl hp ha heff (hwrites.board.trans hwork.board)
      (hwrites.power.trans hwork.power), hwrites.reads, fun a h => (hwrites.byte a h).trans (Dev.byte_of_mem hwork.mem a), htxns, hsent,
      hwrites.boughs.trans hwork.boughs, fun r h => (Dev.reg_of_regs hwrites.regs r).trans (hwork.reg r h)⟩
  case wrPartial =>
    have hplan := plan_write_unheld (req := ⟨.wrPartial, src, line, 0, mask.toNat, x⟩) (.inr rfl) hst hsh
    obtain ⟨d, heff, hwrites, htxns, hsent⟩ := cohRequestEff_writes (req := ⟨.wrPartial, src, line, 0, mask.toNat, x⟩) hr hquiet hb (.inr rfl) hplan
      hc hs ht
    obtain ⟨hwork, -⟩ := Dev.requestOpened_spec (req := ⟨.wrPartial, src, line, 0, mask.toNat, x⟩) hquiet
    exact ⟨d, exec_arrival (f := cohRequestEff .wrPartial src line 0 mask.toNat x) rfl hp ha heff (hwrites.board.trans hwork.board)
      (hwrites.power.trans hwork.power), hwrites.reads, fun a h => (hwrites.byte a h).trans (Dev.byte_of_mem hwork.mem a), htxns, hsent,
      hwrites.boughs.trans hwork.boughs⟩

end Sys2Proof.Machine
end

section
/-!
PROOFS. How transactions go on and end at a home (spec/07, R171, R175, R181, R183).
-/

namespace Sys2Proof.Machine

/-! ### The end of a transaction (R170, R171) -/

/-- A dirty copy that a bough has forwarded for RD_SHARED leaves the requester a shared grant (R170). -/
theorem Dev.advanceTxn_forwarded {d : Dev} {q : Nat} {t : HomeTxn} (hr : t.Runs) (hs : t.snoops = []) (ho : t.req.op = .rdShared)
    (hn : t.plan.noData = false) (hf : t.fwd = some .fwdDirty) (resume : Nat → Nat → Dev → Dev) :
    d.advanceTxn resume q t = d.sendGrant q t .shared := by
  obtain ⟨req, snoops, got, fwd, fromMem, writing, waitAck, poison, gone, evict, found, plan, final, stamp⟩ := t
  obtain ⟨rfl, rfl, rfl, rfl⟩ := hr
  obtain ⟨op, src, line, retry, mask, data⟩ := req
  cases hs
  cases ho
  cases hf
  exact if_neg fun h => Bool.false_ne_true (hn.symm.trans h)

/-- The last answer to a transaction's snoops has come. -/
def HomeTxn.answered (t : HomeTxn) (ans : SnpAns) : HomeTxn := { t with snoops := [], fwd := some ans }

/-- The last snooped bough has forwarded the line: its transaction goes on. -/
theorem snpRspEff_forwarded {d : Dev} {b line : Nat} {t : HomeTxn} {k : Snoop} (x : LineData) (hb : d.reached b)
    (hl : (b, line) ∉ (d.home (d.homeOfLine line)).late) (ht : (d.home (d.homeOfLine line)).txn line = some t) (hs : t.snoops = [(b, k)]) :
    ∃ fuel, snpRspEff b line .fwdDirty x d =
      ((d.take (.snpRsp b line .fwdDirty x)).setTxn (d.homeOfLine line) (t.answered .fwdDirty)).advanceTxn (resumeHome fuel) (d.homeOfLine line)
        (t.answered .fwdDirty) := by
  have hcut : (d.take (.snpRsp b line .fwdDirty x)).boughCut b = false := hb.uncut
  have hlate : ((d.take (.snpRsp b line .fwdDirty x)).home (d.homeOfLine line)).late.contains (b, line) = false := by
    rw [Dev.home_take]
    simpa using hl
  have htxn : ((d.take (.snpRsp b line .fwdDirty x)).home (d.homeOfLine line)).txn line = some t := ht
  have hhome : (d.take (.snpRsp b line .fwdDirty x)).homeOfLine line = d.homeOfLine line := rfl
  have hfilter : ([(b, k)] : List (Nat × Snoop)).filter (fun p => p.1 != b) = [] := by simp
  have hany : ([(b, k)] : List (Nat × Snoop)).any (fun p => p.1 == b) = true := by simp
  unfold snpRspEff
  dsimp only
  rw [hcut, hhome, Bool.false_and, if_neg Bool.false_ne_true, hlate, if_neg Bool.false_ne_true, htxn]
  dsimp only
  rw [hs, hany, hfilter]
  exact ⟨_, rfl⟩

/-- The acknowledgement that a transaction awaits closes it. -/
theorem compAckEff_awaited {d : Dev} {b line : Nat} {t : HomeTxn} (hb : d.reached b) (ht : (d.home (d.homeOfLine line)).txn line = some t)
    (hw : t.waitAck = true) (hs : t.req.src = .bough b) : ∃ fuel, compAckEff b line d =
      (d.take (.compAck b line)).closeTxn (resumeHome (fuel + 1)) (d.homeOfLine line) t := by
  have hcut : (d.take (.compAck b line)).boughCut b = false := hb.uncut
  have htxn : ((d.take (.compAck b line)).home (d.homeOfLine line)).txn line = some t := ht
  have hhome : (d.take (.compAck b line)).homeOfLine line = d.homeOfLine line := rfl
  have hbough : t.req.bough = some b := by rw [HomeReq.bough, hs]
  unfold compAckEff
  dsimp only
  rw [hcut, hhome, Bool.false_and, if_neg Bool.false_ne_true, htxn]
  dsimp only
  rw [hw, hbough]
  exact ⟨_, if_pos (by simp)⟩

theorem HomeTxn.closing_answered {t : HomeTxn} (hg : t.gone = []) (hf : t.final.st ≠ .invalid) : t.closing = { t.final with stamp := t.stamp } := by
  rw [HomeTxn.closing, hg]
  exact if_neg hf

/-- The copy forwarded for RD_SHARED ends the wait for snoops: the requester is sent a shared grant, and its acknowledgement is awaited. -/
theorem snpRspEff_grantsShared {d : Dev} {b line r : Nat} {t : HomeTxn} (x : LineData) (hb : d.reached b)
    (hl : (b, line) ∉ (d.home (d.homeOfLine line)).late) (ht : (d.home (d.homeOfLine line)).txn line = some t) (hr : t.Runs)
    (ho : t.req.op = .rdShared) (hsrc : t.req.src = .bough r) (hs : t.snoops = [(b, .shared)]) (hn : t.plan.noData = false) :
    d.HomeWork (snpRspEff b line .fwdDirty x d) ∧ (snpRspEff b line .fwdDirty x d).regs = d.regs
      ∧ (snpRspEff b line .fwdDirty x d).packets =
          d.packets.erase (.snpRsp b line .fwdDirty x) ++ [.grant r line .shared t.final.epoch t.poison]
      ∧ (((snpRspEff b line .fwdDirty x d).home (d.homeOfLine line)).txn line).map (·.waitAck) = some true
      ∧ ((snpRspEff b line .fwdDirty x d).home (d.homeOfLine line)).dir = (d.home (d.homeOfLine line)).dir := by
  obtain ⟨fuel, heff⟩ := snpRspEff_forwarded x hb hl ht hs
  generalize d.homeOfLine line = q at *
  obtain rfl := Home.txn_line ht
  have hopen : (((d.take (.snpRsp b t.req.line .fwdDirty x)).setTxn q (t.answered .fwdDirty)).home q).txn (t.answered .fwdDirty).req.line =
      some (t.answered .fwdDirty) := Dev.txn_setTxn (t := t.answered .fwdDirty) ht
  rw [Dev.advanceTxn_forwarded (t := t.answered .fwdDirty) ⟨hr.evict, hr.waitAck, hr.fromMem, hr.writing⟩ rfl ho hn rfl] at heff
  obtain ⟨hwork, hregs, hpackets, hack, hdir⟩ := Dev.sendGrant_spec .shared hopen rfl rfl
  rw [← heff] at hwork hregs hpackets hack hdir
  have hbough : (t.answered .fwdDirty).req.bough = some r := by rw [HomeReq.bough, show (t.answered .fwdDirty).req.src = .bough r from hsrc]
  have hdata : (t.answered .fwdDirty).plan.noData = false := hn
  refine ⟨((Dev.HomeWork.take d _).trans (.modHome _ q _)).trans hwork, hregs, hpackets.trans ?_, hack, hdir.trans (by rw [Dev.home_setTxn]; rfl)⟩
  rw [hbough, hdata, Bool.not_false, Bool.and_true, ← Dev.packets_take]
  rfl

/-- The acknowledgement of the only transaction, for which nothing waits, leaves its final state in the entry of its line. -/
theorem compAckEff_closes {d : Dev} {b line : Nat} {t : HomeTxn} (hb : d.reached b) (hl : (d.home (d.homeOfLine line)).txns = [t])
    (hh : (d.home (d.homeOfLine line)).Unawaited) (hline : t.req.line = line) (hsrc : t.req.src = .bough b) (hg : t.gone = [])
    (hw : t.waitAck = true) (ho : t.req.op ≠ .rdNoalloc) (hf : t.final.st ≠ .invalid) :
    compAckEff b line d = { d with homes := (compAckEff b line d).homes, wire := (d.take (.compAck b line)).wire }
      ∧ ((compAckEff b line d).home (d.homeOfLine line)).txns = []
      ∧ (compAckEff b line d).entry (d.homeOfLine line) line = { t.final with stamp := t.stamp }
      ∧ ∀ k, k ≠ line → (compAckEff b line d).entry (d.homeOfLine line) k = d.entry (d.homeOfLine line) k := by
  have ht : (d.home (d.homeOfLine line)).txn line = some t := by
    rw [Home.txn, hl]
    exact List.find?_cons_of_pos (beq_iff_eq.2 hline)
  obtain ⟨fuel, heff⟩ := compAckEff_awaited hb ht hw hsrc
  generalize d.homeOfLine line = q at *
  obtain ⟨hrest, hhome⟩ := Dev.closeTxn_unawaited (d := d.take (.compAck b line)) hh ho fuel
  rw [← heff] at hrest hhome
  generalize compAckEff b line d = z at hrest hhome ⊢
  subst hline
  rw [Dev.home_take, HomeTxn.closing_answered hg hf] at hhome
  refine ⟨hrest, ?_, ?_, fun k hk => ?_⟩
  · rw [hhome, hl]
    simp
  · rw [Dev.entry, hhome, KMap.find_set_same]
  · rw [Dev.entry, hhome, KMap.find_set_other _ _ _ _ _ hk, Dev.entry]

/-! ### Write-backs (R175) -/

theorem Dev.WritesLine.send {d d' : Dev} {line : Nat} {x : LineData} (hr : rangeOf (64 * line) = .dram) (hw : d.WritesLine line x d')
    (p : Packet) : d.WritesLine line x (d'.send p) := hw.before hr rfl

theorem wbDirtyEff_judged {d : Dev} {b line : Nat} (owned : Bool) (epoch : Nat) (x : LineData) (hb : d.reached b)
    (ht : (d.home (d.homeOfLine line)).txn line = none) : wbDirtyEff b line owned epoch x d =
      (d.take (.wb b line owned epoch x)).judgeWb (d.homeOfLine line) ⟨b, line, owned, epoch, x⟩ := by
  have hcut : (d.take (.wb b line owned epoch x)).boughCut b = false := hb.uncut
  have htxn : ((d.take (.wb b line owned epoch x)).home (d.homeOfLine line)).txn line = none := ht
  have hhome : (d.take (.wb b line owned epoch x)).homeOfLine line = d.homeOfLine line := rfl
  unfold wbDirtyEff
  dsimp only
  rw [hcut, hhome, if_neg Bool.false_ne_true, htxn]
  rfl

/-- What the recorded owner of an exclusive line writes back frees the entry and is handed to memory. -/
theorem Dev.judgeWb_owner {d d' : Dev} {q : Nat} {w : HeldWb} (hst : (d.entry q w.line).st = .excl) (ho : (d.entry q w.line).owner = w.bough)
    (he : (d.entry q w.line).epoch = w.epoch)
    (hput : (d.setEntry q w.line { epoch := w.epoch }).putMemory
      { line := w.line, data := w.data, who := .wb w.bough, src := some (.bough w.bough) } = (true, d')) :
    d.judgeWb q w = d'.send (.wbAck w.bough w.line true) := by
  rw [← Dev.emit_send (d := d') (p := .wbAck w.bough w.line true) rfl]
  unfold Dev.judgeWb
  simp only [hst, ho, he, hput, decide_true, Bool.or_true, Bool.and_true, if_true, Bool.true_or]

theorem Dev.judgeWb_stale {d : Dev} {q : Nat} {w : HeldWb} (h : (d.entry q w.line).owner ≠ w.bough ∨ (d.entry q w.line).epoch ≠ w.epoch) :
    d.judgeWb q w = (d.dirCount q 6).emit (.wbAck w.bough w.line false) := by
  unfold Dev.judgeWb
  exact if_neg (by obtain h | h := h <;> simp [h])

/-- A valid write-back that its channel accepts: the line is written, the entry freed, and the sender told. -/
theorem Dev.judgeWb_writes {d : Dev} {q m r : Nat} {w : HeldWb} (hr : rangeOf (64 * w.line) = .dram)
    (hc : d.channelOf (64 * w.line) = some (m, r)) (hs : d.get MEM_STAT.STATE m ≠ 4) (ht : d.channelTakes m false = true)
    (hst : (d.entry q w.line).st = .excl) (ho : (d.entry q w.line).owner = w.bough) (he : (d.entry q w.line).epoch = w.epoch) :
    d.WritesLine w.line w.data (d.judgeWb q w) ∧ (d.judgeWb q w).entry q w.line = { epoch := w.epoch }
      ∧ (d.judgeWb q w).packets = d.packets ++ [.wbAck w.bough w.line true] := by
  have hput := Dev.putMemory_accepts (d := d.setEntry q w.line { epoch := w.epoch })
    (w := { line := w.line, data := w.data, who := .wb w.bough, src := some (.bough w.bough) }) hr hc hs ht rfl
  have hwrites := Dev.lineAccepted_writes (d := d.setEntry q w.line { epoch := w.epoch }) (n := m)
    (w := { line := w.line, data := w.data, who := .wb w.bough, src := some (.bough w.bough) }) hr hc hs
  have hhomes := (d.setEntry q w.line { epoch := w.epoch }).lineAccepted_homes m
    { line := w.line, data := w.data, who := .wb w.bough, src := some (.bough w.bough) }
  have hwire := (d.setEntry q w.line { epoch := w.epoch }).lineAccepted_wire m
    { line := w.line, data := w.data, who := .wb w.bough, src := some (.bough w.bough) }
  rw [Dev.judgeWb_owner hst ho he hput]
  refine ⟨(hwrites.after rfl).send hr _, ?_, ?_⟩
  · rw [Dev.entry, Dev.home_send, Dev.home_of_homes hhomes]
    exact d.entry_setEntry q w.line _
  · rw [Dev.packets_send, Dev.packets_of_wire hwire]
    rfl

/-! ### Entries without a bough (R183) -/

/-- No entry names a bough of which it is purged. -/
theorem purgeEntry_sharers (b : Nat) (p : Bool) (e : DirEntry) : b ∉ (purgeEntry b p e).1.sharers := by
  unfold purgeEntry
  dsimp only
  split
  · rename_i h
    simp only [Bool.and_eq_true, Bool.not_eq_true', List.contains_eq_mem, decide_eq_false_iff_not] at h
    exact h.1
  · split
    · exact List.not_mem_nil
    · split <;> simp

/-- An entry that does not name the bough is as it was. -/
theorem purgeEntry_unnamed {b : Nat} {e : DirEntry} (hs : b ∉ e.sharers) (ho : e.owner ≠ b) (p : Bool) : purgeEntry b p e = (e, false) := by
  simp [purgeEntry, hs, ho]

/-- Without isolation a purge poisons nothing. -/
theorem purgeEntry_clean (b : Nat) (e : DirEntry) : (purgeEntry b false e).2 = false := by
  unfold purgeEntry
  dsimp only
  split
  · rfl
  · split
    · exact Bool.and_false _
    · split <;> rfl

/-! ### A snoop that is not answered in time (R181, R182) -/

/-- The first timeout is recorded. -/
def Dev.tmoLogged (d : Dev) (q b line kind : Nat) : Dev :=
  if d.flag DIR_TMO_LOG.VALID q then d
  else (((d.put DIR_TMO_LOG.VALID 1 q).put DIR_TMO_LOG.BOUGH b q).put DIR_TMO_LOG.KIND kind q).put DIR_TMO_LOG.ADDR line q

theorem Dev.tmoLogged_frame (d : Dev) (q b line kind : Nat) : ∃ r, d.tmoLogged q b line kind = { d with regs := r } := by
  unfold Dev.tmoLogged
  split <;> exact ⟨_, rfl⟩

theorem Dev.tmoLogged_valid (d : Dev) (q b line kind : Nat) : (d.tmoLogged q b line kind).flag DIR_TMO_LOG.VALID q = true := by
  unfold Dev.tmoLogged
  split
  · assumption
  · rw [Dev.flag_put_beside _ DIR_TMO_LOG.ADDR DIR_TMO_LOG.VALID _ _ _ rfl (by decide) (by decide) (by decide) (by decide),
      Dev.flag_put_beside _ DIR_TMO_LOG.KIND DIR_TMO_LOG.VALID _ _ _ rfl (by decide) (by decide) (by decide) (by decide),
      Dev.flag_put_beside _ DIR_TMO_LOG.BOUGH DIR_TMO_LOG.VALID _ _ _ rfl (by decide) (by decide) (by decide) (by decide),
      Dev.flag_put_same _ _ _ _ _ (by decide) (by decide)]
    rfl

theorem Dev.tmoLogged_get (d : Dev) (q b line kind : Nat) (f : Fld) (u k : Nat) (hf : f.reg ≠ .DIR_TMO_LOG) :
    (d.tmoLogged q b line kind).get f u k = d.get f u k := by
  unfold Dev.tmoLogged
  split
  · rfl
  · rw [Dev.get_put_name _ _ _ _ _ _ _ _ hf, Dev.get_put_name _ _ _ _ _ _ _ _ hf, Dev.get_put_name _ _ _ _ _ _ _ _ hf,
      Dev.get_put_name _ _ _ _ _ _ _ _ hf]

/-- A timeout is counted against its bough, and its event raised. -/
def Dev.tmoCounted (d : Dev) (q b line : Nat) : Dev :=
  ((d.bump (tmoField b).2 1 q (tmoField b).1).dirCount q 7).raise (6 + q) { addr := 64 * line, access := 4 }

theorem Dev.tmoCounted_frame (d : Dev) (q b line : Nat) : ∃ r w a, d.tmoCounted q b line = { d with regs := r, wire := w, evAcc := a } := by
  obtain ⟨r, w, a, h⟩ := ((d.bump (tmoField b).2 1 q (tmoField b).1).dirCount q 7).raise_frame (6 + q) { addr := 64 * line, access := 4 }
  exact ⟨r, w, a, h⟩

theorem Dev.tmoCounted_get (d : Dev) (q b line : Nat) (f : Fld) (u k : Nat) (hc : cdcReg f.reg = false) (hd : f.reg ≠ .DIR_CNT)
    (hb : f.reg ≠ .DIR_TMO_BOUGH) : (d.tmoCounted q b line).get f u k = d.get f u k := by
  rw [Dev.tmoCounted, Dev.raise_get _ _ _ _ _ _ hc, Dev.dirCount, Dev.count, Dev.get_put_name _ _ _ _ _ _ _ _ hd, Dev.bump,
    Dev.get_put_name _ _ _ _ _ _ _ _ hb]

/-- The count of the bough rises by at most one. -/
theorem Dev.tmoCounted_le (d : Dev) (q b line : Nat) :
    (d.tmoCounted q b line).get (tmoField b).2 q (tmoField b).1 ≤ d.get (tmoField b).2 q (tmoField b).1 + 1 := by
  have hhi : (tmoField b).2.hi < 64 := by
    have hlt := Nat.mod_lt b (by decide : 12 > 0)
    show 4 * (b % 12) + 3 < 64
    omega
  rw [Dev.tmoCounted, Dev.raise_get _ _ _ _ _ _ rfl, Dev.dirCount, Dev.count, Dev.get_put_name _ _ _ _ _ _ _ _ (by nofun), Dev.bump,
    Dev.get_put_same _ _ _ _ _ (Nat.le_add_right _ 3) hhi]
  exact (Nat.mod_le _ _).trans (Nat.min_le_left _ _)

/-- Below the limit a timeout is recorded and counted, and isolates nothing. -/
theorem Dev.tmoRecord_below {d : Dev} {q b : Nat} (h : d.get (tmoField b).2 q (tmoField b).1 + 1 < d.get DIR_TMO.LIMIT q) (line kind : Nat) :
    d.tmoRecord q b line kind = (d.tmoLogged q b line kind).tmoCounted q b line := by
  have hlimit : ((d.tmoLogged q b line kind).tmoCounted q b line).get DIR_TMO.LIMIT q = d.get DIR_TMO.LIMIT q := by
    rw [Dev.tmoCounted_get _ _ _ _ _ _ _ rfl (by decide) (by decide), Dev.tmoLogged_get _ _ _ _ _ _ _ _ (by decide)]
  have hcount := (d.tmoLogged q b line kind).tmoCounted_le q b line
  rw [Dev.tmoLogged_get _ _ _ _ _ _ _ _ (by nofun)] at hcount
  have hbelow := Nat.lt_of_le_of_lt hcount h
  rw [← hlimit] at hbelow
  exact if_neg (Nat.not_le.2 hbelow)

/-- What the record of a timeout below the limit leaves. -/
theorem Dev.tmoRecord_spec {d : Dev} {q b : Nat} (h : d.get (tmoField b).2 q (tmoField b).1 + 1 < d.get DIR_TMO.LIMIT q) (line kind : Nat) :
    (∃ r w a, d.tmoRecord q b line kind = { d with regs := r, wire := w, evAcc := a })
      ∧ (d.tmoRecord q b line kind).flag DIR_TMO_LOG.VALID q = true := by
  obtain ⟨r, hlogged⟩ := d.tmoLogged_frame q b line kind
  obtain ⟨r', w, a, hcounted⟩ := (d.tmoLogged q b line kind).tmoCounted_frame q b line
  have hvalid := d.tmoLogged_valid q b line kind
  rw [Dev.tmoRecord_below h, Dev.flag, Dev.tmoCounted_get _ _ _ _ _ _ _ rfl (by decide) (by decide)]
  refine ⟨⟨r', w, a, ?_⟩, hvalid⟩
  rw [hcounted, hlogged]

/-- A transaction goes on without a bough that has not answered: its data is poisoned from then on. -/
def HomeTxn.timedOut (t : HomeTxn) (b : Nat) : HomeTxn :=
  { t with snoops := t.snoops.filter fun p => p.1 != b, poison := true, gone := t.gone ++ [b], got := t.got.map fun x => { x with poison := true } }

/-- Memory holds a line as poisoned. -/
def Dev.spoiled (d : Dev) (line : Nat) : Dev := d.writeMemory line { d.memLine line with poison := true }

/-- A line's home has forgotten a bough that has not answered. -/
def Dev.forgotten (d : Dev) (e : DirEntry) (q b line : Nat) (t : HomeTxn) : Dev :=
  ((d.setEntry q line (purgeEntry b false e).1).modHome q fun h => { h with late := h.late ++ [(b, line)] }).setTxn q (t.timedOut b)

theorem homeTimeoutEff_snoop {d : Dev} {b line : Nat} {t : HomeTxn} {k : Snoop} (ht : (d.home (d.homeOfLine line)).txn line = some t)
    (hk : (t.snoops.find? fun p => p.1 == b) = some (b, k)) (hs : (t.snoops.filter fun p => p.1 != b) ≠ []) (ho : t.req.op ≠ .wrFull) :
    homeTimeoutEff b line d = (((d.spoiled line).forgotten (d.entry (d.homeOfLine line) line) (d.homeOfLine line) b line t).tmoRecord
      (d.homeOfLine line) b line (snoopKind k)) := by
  have hfull : (decide (t.req.op = .wrFull) && !t.evict) = false := by rw [decide_eq_false ho, Bool.false_and]
  unfold homeTimeoutEff
  dsimp only
  rw [ht]
  dsimp only
  rw [hk]
  dsimp only
  rw [hfull, if_neg Bool.false_ne_true, Dev.advanceTxn_snooping hs]
  simp only [Bool.not_false, Bool.or_true]
  rfl

theorem Dev.handed_stored {d y : Dev} (h : y = { d with mem := y.mem, poison := y.poison }) (m : Nat) (w : MemWrite) :
    y.handed m w = { d with mem := (y.handed m w).mem, poison := (y.handed m w).poison, channels := (y.handed m w).channels }
      ∧ (y.handed m w).mem = y.mem ∧ (y.handed m w).poison = y.poison := by
  obtain ⟨cs, hhanded⟩ := y.handed_frame m w
  rw [hhanded]
  exact ⟨by rw [h], rfl, rfl⟩

/-- A line of DRAM that is spoiled is poisoned, and no byte changes. -/
theorem Dev.spoiled_spec {d : Dev} {line m r : Nat} (hr : rangeOf (64 * line) = .dram) (hc : d.channelOf (64 * line) = some (m, r)) :
    d.spoiled line = { d with mem := (d.spoiled line).mem, poison := (d.spoiled line).poison, channels := (d.spoiled line).channels }
      ∧ (∀ a, (d.spoiled line).byte a = d.byte a) ∧ ((d.spoiled line).storedLine line).poison = true := by
  have hdata : ({ d.memLine line with poison := true } : LineData) = ⟨(d.storedLine line).data, true⟩ :=
    congrArg (LineData.mk · true) (Dev.memLine_data hr)
  have heff : d.spoiled line = (d.storeLine line ⟨(d.storedLine line).data, true⟩).handed m
      { line := line, data := ⟨(d.storedLine line).data, true⟩ } := by rw [Dev.spoiled, hdata, Dev.writeMemory_dram hr hc]
  obtain ⟨hrest, hmem, hpoison⟩ := Dev.handed_stored (d.storeLine_frame line ⟨(d.storedLine line).data, true⟩) m
    { line := line, data := ⟨(d.storedLine line).data, true⟩ }
  rw [← heff] at hrest hmem hpoison
  refine ⟨hrest, fun a => (Dev.byte_of_mem hmem a).trans (d.byte_storeLine_back line true a), ?_⟩
  rw [Dev.storedLine_of hmem hpoison, Dev.storedLine_storeLine]

/-- Nothing but the homes has changed. -/
def Dev.HomesOnly (d d' : Dev) : Prop := d' = { d with homes := d'.homes }

theorem Dev.HomesOnly.trans {d d' d'' : Dev} (h : d.HomesOnly d') (h' : d'.HomesOnly d'') : d.HomesOnly d'' :=
  Eq.trans h' (by rw [show d' = _ from h])

theorem Dev.HomesOnly.modHome (d : Dev) (q : Nat) (f : Home → Home) : d.HomesOnly (d.modHome q f) := rfl

theorem Dev.HomesOnly.setEntry (d : Dev) (q line : Nat) (e : DirEntry) : d.HomesOnly (d.setEntry q line e) := .modHome d q _

theorem Dev.HomesOnly.setTxn (d : Dev) (q : Nat) (t : HomeTxn) : d.HomesOnly (d.setTxn q t) := .modHome d q _

theorem Dev.forgotten_rest (d : Dev) (e : DirEntry) (q b line : Nat) (t : HomeTxn) : d.HomesOnly (d.forgotten e q b line t) := by
  unfold Dev.forgotten
  exact ((Dev.HomesOnly.setEntry d q line _).trans (.modHome _ q _)).trans (.setTxn _ q _)

/-- What is left of a home's timeout of a snoop that others still await. -/
theorem Dev.forgotten_spec {d : Dev} {q b line : Nat} {e : DirEntry} {t : HomeTxn} (ht : (d.home q).txn line = some t) :
    (b, line) ∈ ((d.forgotten e q b line t).home q).late
      ∧ (d.forgotten e q b line t).entry q line = (purgeEntry b false e).1
      ∧ ((d.forgotten e q b line t).home q).txn line = some (t.timedOut b) := by
  have hline : (t.timedOut b).req.line = line := (Home.txn_line ht :)
  have hopen : (((d.setEntry q line (purgeEntry b false e).1).modHome q fun h => { h with late := h.late ++ [(b, line)] }).home q).txn
      (t.timedOut b).req.line = some t := by
    rw [Dev.home_modHome, Dev.home_setEntry, hline]
    exact ht
  have htxn := Dev.txn_setTxn hopen
  rw [hline] at htxn
  refine ⟨?_, ?_, htxn⟩
  · rw [Dev.forgotten, Dev.home_setTxn, Dev.home_modHome]
    exact List.mem_append_right _ (List.mem_singleton.2 rfl)
  · rw [Dev.entry, Dev.forgotten, Dev.home_setTxn, Dev.home_modHome]
    exact d.entry_setEntry q line _

/-- Below the limit a snoop that is not answered in time, while others are still awaited, poisons its line in memory and leaves its bough out. -/
theorem homeTimeoutEff_spec {d : Dev} {b line m r : Nat} {t : HomeTxn} {k : Snoop} (ht : (d.home (d.homeOfLine line)).txn line = some t)
    (hk : (t.snoops.find? fun p => p.1 == b) = some (b, k)) (hs : (t.snoops.filter fun p => p.1 != b) ≠ []) (ho : t.req.op ≠ .wrFull)
    (hr : rangeOf (64 * line) = .dram) (hc : d.channelOf (64 * line) = some (m, r))
    (hlim : d.get (tmoField b).2 (d.homeOfLine line) (tmoField b).1 + 1 < d.get DIR_TMO.LIMIT (d.homeOfLine line)) :
    ((homeTimeoutEff b line d).board = d.board ∧ (homeTimeoutEff b line d).power = d.power)
      ∧ ((homeTimeoutEff b line d).memLine line).poison = true ∧ (∀ a, (homeTimeoutEff b line d).byte a = d.byte a)
      ∧ (b, line) ∈ ((homeTimeoutEff b line d).home (d.homeOfLine line)).late
      ∧ (homeTimeoutEff b line d).entry (d.homeOfLine line) line = (purgeEntry b false (d.entry (d.homeOfLine line) line)).1
      ∧ ((homeTimeoutEff b line d).home (d.homeOfLine line)).txn line = some (t.timedOut b)
      ∧ (homeTimeoutEff b line d).flag DIR_TMO_LOG.VALID (d.homeOfLine line) = true := by
  have heff := homeTimeoutEff_snoop ht hk hs ho
  generalize d.homeOfLine line = q at *
  obtain ⟨hspoiled, hbyte, hpoison⟩ := Dev.spoiled_spec hr hc
  have hhomes : (d.spoiled line).homes = d.homes := by rw [hspoiled]
  have hregs : (d.spoiled line).regs = d.regs := by rw [hspoiled]
  generalize d.spoiled line = y at *
  have hopen : (y.home q).txn line = some t := by rw [Dev.home_of_homes hhomes, ht]
  have hforgotten := y.forgotten_rest (d.entry q line) q b line t
  obtain ⟨hlate, hentry, htxn⟩ := Dev.forgotten_spec (b := b) (e := d.entry q line) hopen
  generalize y.forgotten (d.entry q line) q b line t = z at *
  have hregs' : z.regs = d.regs := by rw [show z = _ from hforgotten, hregs]
  obtain ⟨⟨rs, w, a, hrecord⟩, hvalid⟩ := Dev.tmoRecord_spec (d := z) (q := q) (b := b)
    (by rwa [Dev.get_of_regs hregs', Dev.get_of_regs hregs']) line (snoopKind k)
  rw [← heff] at hrecord hvalid
  generalize homeTimeoutEff b line d = d' at *
  have hmem : d'.mem = y.mem := by rw [hrecord, show z = _ from hforgotten]
  have hpois : d'.poison = y.poison := by rw [hrecord, show z = _ from hforgotten]
  have hhome : d'.home q = z.home q := Dev.home_of_homes (by rw [hrecord]) q
  refine ⟨⟨by rw [hrecord, show z = _ from hforgotten, hspoiled], by rw [hrecord, show z = _ from hforgotten, hspoiled]⟩,
    ?_, fun c => ?_, ?_, ?_, ?_, hvalid⟩
  · rw [Dev.memLine_poison hr, Dev.storedLine_of hmem hpois, hpoison, Bool.or_true]
  · rw [Dev.byte_of_mem hmem, hbyte]
  · rw [hhome]
    exact hlate
  · rw [Dev.entry, hhome]
    exact hentry
  · rw [hhome]
    exact htxn

/-! ### A purge (R183) -/

/-- Where no key is listed twice, what is listed is found. -/
theorem KMap.find_of_mem {κ α : Type} [DecidableEq κ] (dflt : α) {m : KMap κ α} (hm : m.Pairwise fun x y => x.1 ≠ y.1) {p : κ × α} (hp : p ∈ m) :
    m.find dflt p.1 = p.2 := by
  induction m with
  | nil => cases hp
  | cons x xs ih =>
    obtain ⟨hx, hxs⟩ := List.pairwise_cons.1 hm
    obtain rfl | hp := List.mem_cons.1 hp
    · exact if_pos rfl
    · exact (if_neg (hx p hp)).trans (ih hxs hp)

theorem KMap.keys_distinct {α : Type} [DecidableEq α] {dflt : α} {m : KMap Nat α} (h : KMap.wf natLt dflt m = true) :
    m.Pairwise fun x y => x.1 ≠ y.1 := by
  rw [KMap.wf, Bool.and_eq_true] at h
  refine ((KMap.rising_iff natLt natLt_trans m).1 h.1).imp fun hlt => ?_
  rw [natLt, decide_eq_true_eq] at hlt
  exact hlt.ne

/-- A purge passes an entry of the directory. -/
def Dev.purgeStep (q b : Nat) (d : Dev) (p : Nat × DirEntry) : Dev :=
  if (purgeEntry b false p.2).1 = p.2 then d else d.setEntry q p.1 (purgeEntry b false p.2).1

theorem Dev.purgeStep_rest (q b : Nat) (d : Dev) (p : Nat × DirEntry) : d.HomesOnly (d.purgeStep q b p) := by
  unfold Dev.purgeStep
  split
  · rfl
  · exact .setEntry d q _ _

theorem Dev.entry_purgeStep {q b : Nat} {d : Dev} {p : Nat × DirEntry} (h : d.entry q p.1 = p.2) :
    (d.purgeStep q b p).entry q p.1 = (purgeEntry b false p.2).1 := by
  unfold Dev.purgeStep
  split
  · rename_i hsame
    rw [h, hsame]
  · exact d.entry_setEntry q _ _

theorem Dev.entry_purgeStep_other (q b : Nat) (d : Dev) {p : Nat × DirEntry} {line : Nat} (h : line ≠ p.1) :
    (d.purgeStep q b p).entry q line = d.entry q line := by
  unfold Dev.purgeStep
  split
  · rfl
  · exact d.entry_setEntry_other q _ h

/-- A purge of listed entries leaves every other one. -/
theorem Dev.entry_purge_other (q b : Nat) {l : List (Nat × DirEntry)} {line : Nat} (h : ∀ p ∈ l, p.1 ≠ line) (d : Dev) :
    (l.foldl (Dev.purgeStep q b) d).entry q line = d.entry q line := by
  induction l generalizing d with
  | nil => rfl
  | cons x xs ih =>
    rw [List.forall_mem_cons] at h
    exact (ih h.2 _).trans (d.entry_purgeStep_other q b h.1.symm)

/-- A purge of listed entries takes the bough from each. -/
theorem Dev.entry_purge {q b : Nat} {l : List (Nat × DirEntry)} (hl : l.Pairwise fun x y => x.1 ≠ y.1) {d : Dev}
    (hd : ∀ p ∈ l, d.entry q p.1 = p.2) {p : Nat × DirEntry} (hp : p ∈ l) :
    (l.foldl (Dev.purgeStep q b) d).entry q p.1 = (purgeEntry b false p.2).1 := by
  induction l generalizing d with
  | nil => cases hp
  | cons x xs ih =>
    obtain ⟨hx, hxs⟩ := List.pairwise_cons.1 hl
    rw [List.forall_mem_cons] at hd
    obtain rfl | hp := List.mem_cons.1 hp
    · exact (Dev.entry_purge_other q b (fun y hy => (hx y hy).symm) _).trans (Dev.entry_purgeStep hd.1)
    · exact ih hxs (fun y hy => (d.entry_purgeStep_other q b (hx y hy).symm).trans (hd.2 y hy)) hp

/-- Every entry of a quadrant has been passed by a purge. -/
def Dev.purgeWalked (d : Dev) (q b : Nat) : Dev := (d.home q).dir.foldl (Dev.purgeStep q b) d

theorem Dev.purgeWalked_rest (d : Dev) (q b : Nat) : d.HomesOnly (d.purgeWalked q b) :=
  List.foldlRecOn (motive := d.HomesOnly) _ _ rfl fun e he p _ => he.trans (e.purgeStep_rest q b p)

/-- After the walk every entry is purged of the bough. -/
theorem Dev.entry_purgeWalked {d : Dev} {q : Nat} (h : KMap.wf natLt ({} : DirEntry) (d.home q).dir = true) (b line : Nat) :
    (d.purgeWalked q b).entry q line = (purgeEntry b false (d.entry q line)).1 := by
  have hkeys := KMap.keys_distinct h
  have hfound (p : Nat × DirEntry) (hp : p ∈ (d.home q).dir) : d.entry q p.1 = p.2 := KMap.find_of_mem ({} : DirEntry) hkeys hp
  by_cases hline : ∃ p ∈ (d.home q).dir, p.1 = line
  · obtain ⟨p, hp, rfl⟩ := hline
    rw [hfound p hp]
    exact Dev.entry_purge hkeys hfound hp
  · have hnone : ∀ p ∈ (d.home q).dir, p.1 ≠ line := fun p hp he => hline ⟨p, hp, he⟩
    have hdefault : d.entry q line = {} := (KMap.find_mem ({} : DirEntry) line (d.home q).dir).resolve_right fun hp => hnone _ hp rfl
    rw [Dev.purgeWalked, Dev.entry_purge_other q b hnone, hdefault]
    rfl

/-- A purge that has walked its quadrant ends. -/
def Dev.purgeEnded (d : Dev) (q b : Nat) (software : Bool) (rest : List (Nat × Bool × Bool)) : Dev :=
  let d := d.modHome q fun h => { h with purges := rest, txns := h.txns.map fun t => { t with final := (purgeEntry b false t.final).1 } }
  let d := if software then d.put DIR_PURGE.DONE 1 q else d
  if rest.isEmpty then d.put DIR_PURGE.BUSY 0 q else d

theorem Dev.purgeEnded_spec (d : Dev) (q b : Nat) (sw : Bool) (rest : List (Nat × Bool × Bool)) :
    d.purgeEnded q b sw rest = { d with regs := (d.purgeEnded q b sw rest).regs, homes := (d.purgeEnded q b sw rest).homes }
      ∧ ((d.purgeEnded q b sw rest).home q).purges = rest ∧ ((d.purgeEnded q b sw rest).home q).dir = (d.home q).dir
      ∧ (rest = [] → (d.purgeEnded q b sw rest).flag DIR_PURGE.BUSY q = false) := by
  have hhomes : (d.purgeEnded q b sw rest).homes = (d.modHome q fun h =>
      { h with purges := rest, txns := h.txns.map fun t => { t with final := (purgeEntry b false t.final).1 } }).homes := by
    unfold Dev.purgeEnded
    cases sw <;> cases rest <;> rfl
  have hhome := (Dev.home_of_homes hhomes q).trans (d.home_modHome q _)
  refine ⟨?_, by rw [hhome], by rw [hhome], fun hrest => ?_⟩
  · unfold Dev.purgeEnded
    cases sw <;> cases rest <;> rfl
  · subst hrest
    exact Dev.flag_put_same _ DIR_PURGE.BUSY 0 q 0 (by decide) (by decide)

/-- A purge that software has asked for poisons nothing. -/
theorem purgeDoneEff_walked {d : Dev} {q b : Nat} {sw : Bool} {rest : List (Nat × Bool × Bool)}
    (h : (d.home q).purges = (b, false, sw) :: rest) : purgeDoneEff q d = (d.purgeWalked q b).purgeEnded q b sw rest := by
  unfold purgeDoneEff
  rw [h]
  dsimp only
  simp only [purgeEntry_clean, Bool.false_eq_true, if_false]
  rfl

theorem purgeGoEff_idle {d : Dev} {q b : Nat} {sw : Bool} {rest : List (Nat × Bool × Bool)} (hi : d.powerBusy = false)
    (h : (d.home q).purges = (b, false, sw) :: rest) : purgeGoEff q d = (d.purgeWalked q b).purgeEnded q b sw rest := by
  obtain ⟨hrest, -⟩ := (d.purgeWalked q b).purgeEnded_spec q b sw rest
  have hpower : ((d.purgeWalked q b).purgeEnded q b sw rest).power = d.power := by
    rw [hrest, show d.purgeWalked q b = _ from d.purgeWalked_rest q b]
  rw [purgeGoEff, purgeDoneEff_walked h, Dev.powerGo_idle _ ((Dev.powerBusy_of hpower).trans hi)]

/-- A purge that software has asked for ends: the quadrant's entries are purged of its bough, and with none left to go on BUSY is clear. -/
theorem purgeGoEff_spec {d : Dev} {q b : Nat} {sw : Bool} {rest : List (Nat × Bool × Bool)} (hi : d.powerBusy = false)
    (h : (d.home q).purges = (b, false, sw) :: rest) (hwf : KMap.wf natLt ({} : DirEntry) (d.home q).dir = true) :
    purgeGoEff q d = { d with regs := (purgeGoEff q d).regs, homes := (purgeGoEff q d).homes }
      ∧ ((purgeGoEff q d).home q).purges = rest
      ∧ (∀ line, (purgeGoEff q d).entry q line = (purgeEntry b false (d.entry q line)).1)
      ∧ (rest = [] → (purgeGoEff q d).flag DIR_PURGE.BUSY q = false) := by
  have hwalked := d.purgeWalked_rest q b
  obtain ⟨hrest, hpurged, hdir, hbusy⟩ := (d.purgeWalked q b).purgeEnded_spec q b sw rest
  have hentry (line : Nat) := (Dev.entry_of_dir hdir line).trans (Dev.entry_purgeWalked hwf b line)
  rw [← purgeGoEff_idle hi h] at hrest hpurged hentry hbusy
  refine ⟨?_, hpurged, hentry, hbusy⟩
  generalize d.purgeWalked q b = y at hwalked hrest
  exact hrest.trans (by rw [show y = _ from hwalked])

theorem dirPurgeEff_starts {d : Dev} {q : Nat} (hq : q < 4) (hb : d.get DIR_PURGE.BOUGH q < 24) (hf : d.flag DIR_PURGE.BUSY q = false) :
    dirPurgeEff q d = d.startPurge q (d.get DIR_PURGE.BOUGH q) false true := by
  have hq' : decide (4 ≤ q) = false := decide_eq_false (Nat.not_le.2 hq)
  have hb' : decide (24 ≤ d.get DIR_PURGE.BOUGH q) = false := decide_eq_false (Nat.not_le.2 hb)
  unfold dirPurgeEff
  dsimp only
  rw [hq', hf, hb']
  rfl

theorem Dev.startPurge_spec (d : Dev) (q b : Nat) (poison sw : Bool) :
    d.startPurge q b poison sw = { d with regs := (d.startPurge q b poison sw).regs, homes := (d.startPurge q b poison sw).homes }
      ∧ (d.startPurge q b poison sw).home q = { d.home q with purges := (d.home q).purges ++ [(b, poison, sw)] }
      ∧ (d.startPurge q b poison sw).flag DIR_PURGE.BUSY q = true
      ∧ ∀ r : Reg, r ≠ ⟨.DIR_PURGE, q, 0⟩ → (d.startPurge q b poison sw).reg r = d.reg r :=
  ⟨rfl, d.home_modHome q fun h => { h with purges := h.purges ++ [(b, poison, sw)] }, Dev.flag_put_same _ DIR_PURGE.BUSY 1 q 0 (by decide) (by decide),
    fun _ hr => Dev.reg_put_other _ DIR_PURGE.BUSY 1 q 0 hr⟩

/-- Settles O35, clause by clause: a forwarded copy, an acknowledgement that closes, write-backs that are valid and stale, a snoop that times out,
and the start and the end of a purge. -/
theorem transactionsAtTheHome : Obligations.TransactionsAtTheHome := by
  unfold Obligations.TransactionsAtTheHome
  refine ⟨fun s b line r q t x hp hq hl ht ho hsrc hs he hw hm hwr hn hb ha => ?forwarded,
    fun s b line q t hp hq ht hqueue hheld hslots hwaiting hb ha hline hsrc hg hw he ho hf => ?acknowledged,
    fun s b line epoch q m owned x r hp hq hb ha hc hs ht hnone hr hst howner hepoch => ?owner,
    fun s b line epoch q owned x hp hq hb ha hnone hstale => ?stale,
    fun s b line q t k hp hq ht hk hs ho hr hc hlim => ?timeout, fun s q b hp hq hb hreg hbusy => ?purgeGo,
    fun s q b sw rest hp hi hpurges hwf => ?purgeDone⟩
  case forwarded =>
    subst hq
    obtain ⟨hwork, hregs, hpackets, hack, hdir⟩ := snpRspEff_grantsShared x hb hl ht ⟨he, hw, hm, hwr⟩ ho hsrc hs hn
    refine ⟨_, exec_arrival (f := snpRspEff b line .fwdDirty x) rfl hp ha rfl hwork.board hwork.power, ?_, hpackets, hack, hdir⟩
    have hrest := hwork.rest
    rwa [hregs] at hrest
  case acknowledged =>
    subst hq
    obtain ⟨hrest, htxns, hentry, hother⟩ := compAckEff_closes hb ht ⟨hqueue, hheld, hslots, hwaiting⟩ hline hsrc hg hw ho hf
    exact ⟨_, exec_arrival (f := compAckEff b line) rfl hp ha rfl (by rw [hrest]) (by rw [hrest]), hrest, htxns, by rw [hentry], by rw [hentry],
      by rw [hentry], by rw [hentry], hother⟩
  case owner =>
    subst hq
    obtain ⟨hwrites, hentry, hpackets⟩ := Dev.judgeWb_writes (d := s.dev.take (.wb b line owned epoch x)) (w := ⟨b, line, owned, epoch, x⟩)
      hr hc hs ht hst howner hepoch
    rw [← wbDirtyEff_judged owned epoch x hb hnone] at hwrites hentry hpackets
    refine ⟨_, exec_arrival (f := wbDirtyEff b line owned epoch x) rfl hp ha rfl hwrites.board hwrites.power, hwrites.reads, hwrites.byte, hentry,
      ?_, hwrites.regs⟩
    rwa [Dev.packets_take] at hpackets
  case stale =>
    subst hq
    have heff := (wbDirtyEff_judged owned epoch x hb hnone).trans (Dev.judgeWb_stale (w := ⟨b, line, owned, epoch, x⟩) hstale)
    exact exec_arrival (f := wbDirtyEff b line owned epoch x) rfl hp ha heff (Dev.emit_board _ _) (Dev.emit_power _ _)
  case timeout =>
    subst hq
    obtain ⟨⟨m, r⟩, hc⟩ := Option.isSome_iff_exists.1 hc
    obtain ⟨⟨hboard, hpower⟩, hpoison, hbyte, hlate, hentry, htxn, hvalid⟩ := homeTimeoutEff_spec ht hk hs ho hr hc hlim
    refine ⟨_, exec_of_powered (f := homeTimeoutEff b line) rfl hp rfl hboard (congrArg Power.unpowered hpower), hpoison, hbyte, hlate, ?_, ?_, hvalid⟩
    · rw [hentry]
      exact purgeEntry_sharers b false _
    · rw [htxn]
      rfl
  case purgeGo =>
    subst hreg
    obtain ⟨hrest, hhome, hflag, hother⟩ := s.dev.startPurge_spec q (s.dev.get DIR_PURGE.BOUGH q) false true
    exact ⟨_, exec_of_powered (f := dirPurgeEff q) rfl hp (dirPurgeEff_starts hq hb hbusy) rfl rfl, hrest, hflag, by rw [hhome], by rw [hhome], hother⟩
  case purgeDone =>
    obtain ⟨hrest, hpurged, hentry, hbusy⟩ := purgeGoEff_spec hi hpurges hwf
    refine ⟨_, exec_of_powered (f := purgeGoEff q) rfl hp rfl (by rw [hrest]) (by rw [hrest]), hpurged, fun line => ?_, fun line hs ho => ?_, hbusy,
      by rw [hrest], by rw [hrest]⟩
    · rw [hentry]
      exact purgeEntry_sharers b false _
    · rw [hentry, purgeEntry_unnamed hs ho]

end Sys2Proof.Machine
end
